-- ==== Sys2Proof/Word.lean ====
section
/-! DEFINITION. The word and byte types of the lane (R4: registers are 32 bits wide). -/

namespace Sys2Proof

/-- A register word (R4). -/
abbrev Word := BitVec 32

/-- A byte of memory or of a message (R4: little-endian byte order). -/
abbrev Byte := BitVec 8

end Sys2Proof
end

