-- ==== Sys2Proof/Syntax.lean ====
section
/-! DEFINITION. The commands of one lane of the module: one constructor of `Instr` for each row of
spec/opcode_table.json, with the operands that come from outside the lane. -/

namespace Sys2Proof

/-- One Airum frame at a receiving port (R306, R316): the bytes from the destination address to the end of
the MAC client data, whether its FCS was good, and the lane GT at which the end of its SFD arrived. -/
structure AirumFrame where
  bytes : List Byte
  fcsOk : Bool
  sfdGt : Nat
  deriving DecidableEq, Repr

/-- One vote message of the vote class (R250, R197 step 4). -/
structure Vote where
  /-- The sender's claim is fit (R249). -/
  fit : Bool
  /-- Sequence number of the sender's heartbeat that the claim goes with (R250). -/
  seq : Nat
  /-- The claim reports SERVICE (R251). -/
  inService : Bool
  /-- Last claims the sender received directly: (lane, fit, in service, sequence number) (R250). -/
  relayed : List (Nat × Bool × Bool × Nat)
  /-- The sender's MISSION, coded as TSK_MODESTAT.MISSION (R253). -/
  mission : Nat
  /-- The sender's HELD flag (R252). -/
  held : Bool
  /-- The sender's STOPGT (R253). -/
  stopGt : Nat
  /-- The sender's stop causes (Table TSK-2). -/
  causes : Nat
  /-- The sender accepted an SRST since its last vote (R276). -/
  srst : Bool
  /-- The sender's winding is out (R197 step 4). -/
  windOut : Bool
  /-- The sender's brake circuit is out (R205). -/
  circOut : Bool
  deriving DecidableEq, Repr

/-- An output of a core (R216): token index of its instruction, address, data, byte enables and access kind. -/
structure CoreOut where
  token : BitVec 64
  addr  : Word
  data  : Word
  bytes : BitVec 4
  /-- Access kind: a load, else a store. -/
  load  : Bool
  deriving DecidableEq, Repr

/-- What one core of a pair does (R215 to R217). The cores' programs stand outside the model, so what they do arrives with the
command (DESIGN CHOICE, log entry 26). -/
inductive CoreAct where
  /-- The core produces an output; `early` marks one issued before a running move of a grant unit (R30). -/
  | out (o : CoreOut) (early : Bool)
  /-- The core retires instructions up to this token, without an output. -/
  | run (token : Nat)
  /-- The core's registers hold these bytes. -/
  | regs (bytes : List Byte)
  /-- The core's trap handler returns (R296). -/
  | trapRet
  deriving DecidableEq, Repr

/-- What strikes the hardware of a pair or of the Tally (R230, R235, R237, R299; DESIGN CHOICE, log entry 26). -/
inductive PairHit where
  /-- A bit of a field of a delay-register entry flips. -/
  | upset (entry : Fin 32) (field : Fin 5) (bit : Fin 64)
  /-- A comparator sticks at "match" or "mismatch", or works again. -/
  | stuck (cmp : Fin 2) (at_ : Option Bool)
  /-- The ECC of a page of a checkpoint copy fails. -/
  | ecc (copy : Fin 2) (page : Fin 256)
  /-- A bit of the Tally's second copy flips: of a status word, a latch word or a record's counts (R299). -/
  | tally (reg : Word) (bit : Fin 32)
  /-- The parity of a Tally record or of a TLY_SRCCFGn fails (R299). -/
  | parity (source : Fin 256)
  deriving DecidableEq, Repr

/-- What a bulk-class message carries between lanes (R34, R394, R398, R429, R433, R438). -/
inductive Bulk where
  /-- A peer takes CMS_CHECK: its chaining value (eight words) and byte count so far (R430), and of the lanes so far the
  PROFILE of each image, the lowest MAXPROF (R486) and the refusal of the lowest lane: lane, rule, offset (R429). -/
  | cmsCheck (chain : List Nat) (count : Nat) (profiles : List Nat) (cap : Nat) (found : Option (Nat × Nat × Nat))
  /-- A peer in a multi-step change takes no part in the check (R392; DESIGN CHOICE, log entry 28). -/
  | cmsBusy
  /-- D, sent by the last lane of the chain (R430). -/
  | cmsDigest (d : List Byte)
  /-- A peer's image was refused (R429): lane, rule, offset. -/
  | cmsRefused (lane rule offset : Nat)
  /-- A peer takes CMS_CONFIRM and its value matched (R431): this lane commits. -/
  | cmsConfirm
  /-- A peer takes SEC_PROFILE_LOCK with this signed order (R413, R438). -/
  | profileLock (order : List Byte)
  deriving DecidableEq, Repr

/-- The message of COMMIT_PEER_MESSAGE (R433). -/
inductive CommitMsg where
  | prepared
  | intent
  deriving DecidableEq, Repr

/-- Results of the eight self-test steps, true where a test passed (Table PMU-3); step 8 is judged by the lane. -/
structure SelfTest where
  tlySelf : Bool
  sram : Bool
  tcm : Bool
  ckbuf : Bool
  delay : Bool
  cmp : Bool
  sampler : Bool
  tskrb : Bool
  deriving DecidableEq, Repr

/-- What ISO 11898-1 has a controller count (R405): nothing; an error it detects; a dominant bit where its error flag
should have ended, or another of the errors that count 8; an error that counts nothing. -/
inductive CanFault where
  | none
  | error
  | heavy
  | free
  deriving DecidableEq, Repr

/-- A received CAN frame (Table HMB-7). -/
structure CanFrame where
  /-- What the controller met as it received (R405). -/
  fault : CanFault := .none
  /-- Identifier word: bits 28:0 identifier, 31 IDE, 30 FDF, 29 BRS. -/
  id : Nat
  dlc : Nat
  esi : Bool
  gt : Nat
  data : List Byte
  deriving DecidableEq, Repr

/-- A transmission of a controller on the bus (R405): the controller, and what it met. -/
structure CanSending where
  ctl : Fin 2
  fault : CanFault := .none
  deriving DecidableEq, Repr

/-- How an SPI transaction was malformed (R404). -/
inductive SpiError where
  | badCount
  | short
  | unknownCmd
  deriving DecidableEq, Repr

/-- The commands of one lane. Each constructor is one row of spec/opcode_table.json; `req` is the owner code
(Table LANE-6) of the requester that makes an access; `ch` is the mailbox channel a request came by. -/
inductive Instr where
  -- LANE, bridges
  | registerWrite (req : Fin 32) (addr : Nat) (value : Word) (early : Bool)
  | accessFault (req : Fin 32) (addr : Nat) (write : Bool)
  | grantDrainDone (unit : Fin 64)
  | gtLoRead (req : Fin 32)
  | heartbeatSend
  | heartbeatReceive (peer : Fin 3) (payload : Vector Byte 28) (crcOk : Bool)
  | bridgeLossTimeout (peer : Fin 3)
  | timeMessageReceive (peer : Fin 3) (offset : Int) (netOffset : Option Int)
  | summaryReceive (peer : Fin 3) (eflLow : Bool) (faults : Fin 257)
  | moduleCommandReceive (peer : Fin 3) (msg : Bulk)
  -- SPN
  | gtCorrection
  | holdoverEntry
  | strikeFire (entry : Fin 256)
  | strikeComplete (entry : Fin 256)
  | strikeDeadline (entry : Fin 256)
  | grpenWrite (req : Fin 32) (group : Fin 16) (value : Word)
  | grpenEffect (group : Fin 16)
  | spnDone (req : Fin 32) (entry : Fin 256)
  | spnLedgerClr (req : Fin 32) (value : Word)
  | speedUpdate (mops : Fin 65536)
  -- PWM
  | bankRunWrite (req : Fin 32) (bank : Fin 8) (run : Bool)
  | bankCommit (req : Fin 32) (bank : Fin 8)
  | commitAccept (bank : Fin 8)
  | reloadDecision (bank : Fin 8)
  | periodBoundary (bank : Fin 8)
  | delayLineCalibration (bank : Fin 8) (taps : Nat)
  | lineSwap (bank : Fin 8)
  | tripAssert (input : Fin 4)
  | blankingClose (input : Fin 4)
  | bothOnDetect (leg : Fin 24)
  -- GLK
  | linkKeepalive (port : Fin 8)
  | capReceive (port : Fin 8) (record : Vector Byte 20)
  | cfgackReceive (port : Fin 8) (payload : Vector Byte 16)
  | rateChange (port : Fin 8)
  | characterLock (port : Fin 8) (gained : Bool)
  | echoreplyReceive (port : Fin 8) (sequence : Byte) (roundTrip : Nat)
  | echoRecheck (port : Fin 8)
  | syncSend (port : Fin 8)
  | negotiateTimeout (port : Fin 8)
  | bringupRetry (port : Fin 8)
  | statusReceive (port : Fin 8) (payload : Vector Byte 20) (startGt : Nat)
  | upstreamFrameDiscard (port : Fin 8)
  | statusMissing (port : Fin 8)
  | levelSend (port : Fin 8)
  | glkSampaRead (req : Fin 32) (port : Fin 8)
  -- FBC
  | fbcLevelChange (chan : Fin 16) (a b z : Bool)
  | speedBoundUpdate (chan : Fin 16)
  | speedStopTimeout (chan : Fin 16)
  | fbcPreset (req : Fin 32) (chan : Fin 16)
  | fbcClrsusp (req : Fin 32) (chan : Fin 16)
  | fbcPosRead (req : Fin 32) (chan : Fin 16)
  | sentFrame (chan : Fin 16) (pulses : List Nat)
  | sentTimeout (chan : Fin 16)
  -- LPE, converter
  | loopSampleRun (engine : Fin 4)
  | adcStart (req : Fin 32) (value : Word)
  | adcConversionDone (input : Nat)
  -- services
  | serviceCapture
  | serviceAgreement
  | serviceLaw
  | delegationDeadline
  | windingTakeOut
  | windingReturn
  | circuitTakeOut
  | circuitReturn
  -- SLP, LBR
  | outputCompare (pair : Fin 3) (hit : Option PairHit) (lead trail : Option CoreAct)
  | eventDelivery (pair : Fin 3) (vector : Fin 32)
  | checkpoint (pair : Fin 3) (flip : Option (Fin 2097152))
  | restartLive (pair : Fin 3)
  | resync (pair : Fin 3) (other : Bool) (flip : Option (Fin 2097152))
  | rejoin (pair : Fin 3) (flip : Option (Fin 2097152))
  | rejoinTimeout (pair : Fin 3)
  | agreementReceive (peer : Fin 3) (round : Fin 2) (origin : Fin 3) (tag : Word) (words : List Word)
  | agreementResult
  -- redundancy, Tailstock
  | voteSend
  | voteReceive (peer : Fin 3) (vote : Vote)
  | memberTimeout (peer : Fin 3)
  | fitnessTimeout
  | parkEntry
  | safetyInputDemand (input : Fin 8) (a b : Bool)
  | safetyInputHealthy (input : Fin 8)
  | discrepancyFault (input : Fin 8)
  | discrepancyEnd (input : Fin 8) (samples : Nat)
  | readbackMismatch (output : Fin 8) (padOn : Bool)
  | testPulseStart (output : Fin 8)
  | testPulseEnd (output : Fin 8) (padOn : Bool)
  | tskResponse (req : Fin 32) (value : Word)
  | challengeCheck
  | pathDisagree (output : Fin 8)
  | samplerFault
  | healthToggle
  | healthLoss
  | srstRelease (samples : Nat)
  | srstJammed
  | srstDiscrepancy
  -- TLY
  | sourceRaise
  | quietExpiry (source : Fin 256)
  | eflMinExpiry
  | eflTestEnd
  | tlyStat0Read (req : Fin 32)
  | tlyRecfirstRead (req : Fin 32) (source : Fin 256)
  | tlyFwraise (req : Fin 32) (value : Word)
  | tallySelfCheck
  -- ANW
  | networkChainBoundary
  | airumFrameReceive (frame : AirumFrame)
  | anwHandoff (req : Fin 32) (flow : Fin 512)
  | sealCutoff (flow : Fin 512)
  | sealComplete (flow : Fin 512)
  | spanTransmit (flow : Fin 512)
  | linkUp (port : Fin 8) (gigabit : Bool) (roundTrips : List Nat)
  | linkDown (port : Fin 8)
  | anRateAlternate (port : Fin 8)
  | coldstartAttempt
  | backoffRetry
  -- AST
  | starFrameReceive (port : Fin 9) (frame : AirumFrame)
  | frameCut (input : Fin 9) (output : Fin 9)
  | coldstartHoldEnd
  | starChainBoundary
  | setPreferTimeout
  | injectRelease (rule : Fin 8)
  | injectTokenLapse
  -- ARB, QUE, STY
  | arbRequest (arb : Fin 34) (port : Fin 16) (units : Fin 65)
  | arbUnitEnd (arb : Fin 34)
  | slotIdleAdvance (arb : Fin 34)
  | arbTableWrite (req : Fin 32) (arb : Fin 34) (table : Fin 2) (word : Fin 16) (value : Word)
  | quePost (req : Fin 32) (queue : Fin 128) (count : Fin 8192)
  | queTake (req : Fin 32) (queue : Fin 128) (count : Fin 8192)
  | queReturn (req : Fin 32) (queue : Fin 128) (count : Fin 8192)
  | steelyardAudit
  -- HMB, SPI, CAN
  | mailboxRequestTake
  | interimResponse (ch : Fin 8)
  | responseDrop (ch : Fin 8)
  | spiWrite (message : List Byte)
  | spiRead (count : Fin 65536)
  | spiPoll
  | spiFrameError (kind : SpiError)
  | canReceive (ctl : Fin 2) (frame : CanFrame)
  | canTransmit (sending : CanSending)
  | canBusOff (ctl : Fin 2)
  | canStart (req : Fin 32) (ctl : Fin 2)
  | canStop (req : Fin 32) (ctl : Fin 2)
  -- mailbox commands (Table HMB-6)
  | laneInfo (ch : Fin 8)
  | laneGrant (ch : Fin 8) (unit owner : Byte)
  | strikeSet (ch : Fin 8) (entry cls action : Byte) (period phase : Word) (target : BitVec 16)
  | slpSplit (ch : Fin 8) (pair : Byte)
  | slpRejoin (ch : Fin 8) (pair : Byte)
  | tskOutSet (ch : Fin 8) (mask value : Byte)
  | queConfig (ch : Fin 8) (queue : Byte) (cfg base : Word)
  | queDisable (ch : Fin 8) (queue : Byte)
  | arbPrioSet (ch : Fin 8) (arb : Byte) (lo hi : Word)
  | arbTableSet (ch : Fin 8) (arb limit : Byte) (slots : Vector Byte 64)
  | anwNodeRestart (ch : Fin 8)
  | astPortReadmit (ch : Fin 8) (port : Byte)
  | pwmTripClear (ch : Fin 8) (mask : Byte)
  | pwmLegClear (ch : Fin 8) (leg : Byte)
  | glkPortRestart (ch : Fin 8) (port : Byte)
  | glkLegClear (ch : Fin 8) (port mask : Byte)
  | lpeCtxRestart (ch : Fin 8) (engine ctx : Byte)
  | lpeCoefRead (ch : Fin 8) (engine ctx record : Byte)
  | svcStatus (ch : Fin 8)
  | steerWindingRestore (ch : Fin 8)
  | brakeCircuitRestore (ch : Fin 8)
  | fbcChanRestart (ch : Fin 8) (chan : Byte)
  | cmsLoad (ch : Fin 8) (offset : Word) (data : List Byte)
  | cmsCheck (ch : Fin 8)
  | cmsConfirm (ch : Fin 8) (chars : Vector Byte 8)
  | cmsAbort (ch : Fin 8)
  | cmsRead (ch : Fin 8) (offset count : Word)
  | cmsStatus (ch : Fin 8)
  | commitPeerMessage (peer : Fin 3) (msg : CommitMsg)
  | commitWaitTimeout
  | flashOperationDone (ok : Bool)
  | secNonce (ch : Fin 8)
  | nonceExpiry
  | secAttest (ch : Fin 8) (nonce : Vector Byte 16)
  | secCertRead (ch : Fin 8)
  | secDebugEnter (ch : Fin 8) (token : List Byte)
  | secDebugExit (ch : Fin 8)
  | secInjectToken (ch : Fin 8) (token : List Byte)
  | secDebugDisable (ch : Fin 8) (order : List Byte)
  | secRootRevoke (ch : Fin 8) (order : List Byte)
  | secRekey (ch : Fin 8) (order : List Byte)
  | secProfileLock (ch : Fin 8) (order : List Byte)
  | nchLogRead (ch : Fin 8) (entry : BitVec 16)
  | diagRead (ch : Fin 8) (addr count : Word)
  | tlySetReaction (ch : Fin 8) (source : BitVec 16) (cfg : Word)
  | tlyEflTest (ch : Fin 8) (duration : BitVec 16)
  | astInjArm (ch : Fin 8) (rule : Byte) (tgt par start : Word)
  | astInjStop (ch : Fin 8) (mask : Byte)
  | dbgProbeSet (ch : Fin 8) (pad : Byte) (signal : BitVec 16)
  | probeEvent (pad : Fin 4) (level : Bool)
  | updBegin (ch : Fin 8) (image : Byte) (size : Word)
  | updWrite (ch : Fin 8) (offset : Word) (data : List Byte)
  | updVerify (ch : Fin 8)
  | updActivate (ch : Fin 8)
  | updAbort (ch : Fin 8)
  | updStatus (ch : Fin 8)
  -- PMU, reset, start-up
  | powerValid
  | powerLoss
  | vlaneOvervoltage
  | pmuVlaneUv (below : Bool)
  | pmuVlaneOv (above : Bool)
  | pmuRailFault (rail : Fin 4)
  | pmuVioFault (banks : Fin 8)
  | pmuTempHigh (temp : Int)
  | thermalShutdown (cooled : Bool)
  | laneOscFault (crystal : Bool)
  | pmuWdkick (req : Fin 32) (value : Word)
  | watchdogTimeout
  | rstnLow (released : Bool)
  | resetEnd
  | bootComplete
  | selftestComplete (results : SelfTest)
  | netwaitExpiry
  | peerWaitTimeout (peer : Fin 3)
  | serviceEntry
  | switchEdge (leg : Fin 24)
  | tripInputRelease (input : Fin 4)
  | busOffRecovery (ctl : Fin 2)
  | updateCoordinationReceive (peer : Fin 3) (sessionOpen : Bool)
  deriving DecidableEq, Repr

end Sys2Proof
end

