-- ==== Sys2Proof/Config.lean ====
section
/-! DEFINITION. What the spec leaves open, as constants without a body: nothing can evaluate them. The model
applies each to a counter of the state (`State.free`), so every use is a fresh value. -/

namespace Sys2Proof

/-- A number the spec leaves open (DESIGN CHOICE, log entry 5). -/
opaque Config.freeNat : Nat → Nat

/-- A byte the spec leaves open (DESIGN CHOICE, log entry 5). -/
opaque Config.freeByte : Nat → Byte

/-- An outcome the spec leaves open (DESIGN CHOICE, log entry 5). -/
opaque Config.freeBool : Nat → Bool

/-- A 32-bit word the spec leaves open (DESIGN CHOICE, log entry 5). -/
opaque Config.freeWord : Nat → Word

/-- The engines' sine of an operand as a binary32 pattern, where it lies within 2^-22 of the exact value (R151, DESIGN
CHOICE, log entry 6). -/
opaque Config.sinOpen : Nat → Word

/-- The engines' cosine (R151, DESIGN CHOICE, log entry 6). -/
opaque Config.cosOpen : Nat → Word

/-- VLANE in mV and the junction temperature in °C that PMU_MEAS shows in a millisecond (DESIGN CHOICE, log entry 5). -/
opaque Config.vlaneMv : Nat → Nat
opaque Config.junction : Nat → Int

/-- A byte of the boot ROM, whose contents the spec does not give (DESIGN CHOICE, log entry 5). -/
opaque Config.romByte : Nat → Byte

/-- What a bridge message reads as once a CORRUPT event has inverted bit PARAM of it and its CRC was recomputed: the spec
gives no layout but the heartbeat's (DESIGN CHOICE, log entry 31). -/
opaque Config.corrupted : Nat → Nat → Instr → Option Instr

/-- The registers of a core as it leaves reset, as bytes: the spec does not list them (DESIGN CHOICE, log entry 26). -/
opaque Config.coreRegs : List Byte

/-- What the start value and the final inversion of the state digest add to it, which the spec does not give (R224, DESIGN
CHOICE, log entry 26). -/
opaque Config.digestMask : Nat

/-! What the spec leaves to the Headstock firmware of the services (DESIGN CHOICE, log entry 29): which flow context carries a
service flow, which agreement item carries an input, and the bank of the brake valve. -/

opaque Config.svcFlow : Nat → Nat
opaque Config.svcItem : Nat → Nat
opaque Config.valveBank : Nat

end Sys2Proof
end

