-- ==== Sys2Proof/Machine/Bits.lean ====
section
/-! DEFINITION. Bit fields, byte order and the cyclic redundancy checks the spec names. -/

namespace Sys2Proof.Machine

/-- Bits `hi:lo` of a number. -/
def bits (n hi lo : Nat) : Nat := (n >>> lo) % 2 ^ (hi + 1 - lo)

/-- One bit of a number. -/
def bitOf (n i : Nat) : Bool := n.testBit i

/-- A Bool as 0 or 1. -/
def b2n (b : Bool) : Nat := if b then 1 else 0

/-- `n` with bit `i` set to `b`. -/
def setBitTo (n i : Nat) (b : Bool) : Nat := (n - (if n.testBit i then 2 ^ i else 0)) + (if b then 2 ^ i else 0)

/-- `n` with the bits of `mask` cleared, on `w` bits. -/
def clearBits (w n mask : Nat) : Nat := n &&& (2 ^ w - 1 - mask % 2 ^ w)

/-- A `w`-bit number read as two's complement. -/
def toSigned (w n : Nat) : Int := if n % 2 ^ w < 2 ^ (w - 1) then (n % 2 ^ w : Nat) else (n % 2 ^ w : Nat) - (2 ^ w : Nat)

/-- A signed number as a `w`-bit two's complement pattern. -/
def ofSigned (w : Nat) (i : Int) : Nat := (i % ((2 ^ w : Nat) : Int)).toNat

/-- Clamp of a signed number. -/
def clampI (lo hi i : Int) : Int := if i < lo then lo else if hi < i then hi else i

/-- A signed number saturated to 32 bits, as a pattern. -/
def satSigned32 (i : Int) : Nat := ofSigned 32 (clampI (-2147483648) 2147483647 i)

/-- `n` saturated at `m`. -/
def satN (m n : Nat) : Nat := if n ≤ m then n else m

/-- The number of set bits among bits 0 to `w − 1`. -/
def popcount : Nat → Nat → Nat
  | 0, _ => 0
  | w + 1, n => (if n.testBit w then 1 else 0) + popcount w n

/-- The indices below `w` of the set bits of `n`, lowest first. -/
def bitList (w n : Nat) : List Nat := (List.range w).filter (fun i => n.testBit i)

/-- The lowest set bit below `w`, or 0. -/
def lowBit (w n : Nat) : Nat := (bitList w n).headD 0

/-- A mask from a list of bit numbers. -/
def maskOf (l : List Nat) : Nat := l.foldl (fun m i => m ||| 2 ^ i) 0

/-- A number as `k` bytes, least significant first (R4, R390). -/
def leBytes : Nat → Nat → List Byte
  | 0, _ => []
  | k + 1, n => BitVec.ofNat 8 n :: leBytes k (n / 256)

/-- The number that little-endian bytes hold. -/
def ofLe : List Byte → Nat
  | [] => 0
  | b :: bs => b.toNat + 256 * ofLe bs

/-- `n` bytes of a list from offset `o`, zero where the list ends. -/
def sliceB (l : List Byte) (o n : Nat) : List Byte :=
  (List.range n).map (fun i => l.getD (o + i) 0)

/-- The little-endian number in `n` bytes of a list from offset `o`. -/
def leAt (l : List Byte) (o n : Nat) : Nat := ofLe (sliceB l o n)

/-- A list of bytes filled with zeros to a length, or cut to it. -/
def padTo (n : Nat) (l : List Byte) : List Byte := sliceB l 0 n

/-- A big-endian number of `k` bytes (network fields of R306). -/
def beBytes (k n : Nat) : List Byte := (leBytes k n).reverse

/-- The number that big-endian bytes hold. -/
def ofBe (l : List Byte) : Nat := ofLe l.reverse

/-- The number with the low `w` bits of `n` in reverse order. -/
def revBits : Nat → Nat → Nat
  | 0, _ => 0
  | w + 1, n => (if n.testBit 0 then 2 ^ w else 0) + revBits w (n / 2)

/-- One bit of a reflected CRC with polynomial `p`. -/
def crcStep (p c : Nat) : Nat := if c % 2 = 1 then (c / 2) ^^^ p else c / 2

/-- Eight bits of a reflected CRC. -/
def crc8Steps (p c : Nat) : Nat :=
  crcStep p (crcStep p (crcStep p (crcStep p (crcStep p (crcStep p (crcStep p (crcStep p c)))))))

/-- CRC-32 of IEEE 802.3 over bytes (R308, R390). -/
def crc32 (l : List Byte) : Nat :=
  (l.foldl (fun c b => crc8Steps 0xEDB88320 (c ^^^ b.toNat)) 0xFFFFFFFF) ^^^ 0xFFFFFFFF

/-- One bit of an MSB-first CRC of `w` bits with polynomial `p`. -/
def crcMsbStep (w p c : Nat) (d : Bool) : Nat :=
  let top := (c.testBit (w - 1)) != d
  let c' := (2 * c) % 2 ^ w
  if top then c' ^^^ p else c'

/-- The bits of a number, most significant of `w` first. -/
def msbBits (w n : Nat) : List Bool := (List.range w).reverse.map (fun i => n.testBit i)

/-- An MSB-first CRC over a list of bits. -/
def crcMsb (w p init : Nat) (l : List Bool) : Nat := l.foldl (crcMsbStep w p) init

/-- An MSB-first CRC over bytes, most significant bit first. -/
def crcMsbBytes (w p init : Nat) (l : List Byte) : Nat := crcMsb w p init (l.flatMap (fun b => msbBits 8 b.toNat))

end Sys2Proof.Machine
end

