-- ==== Sys2Proof/Machine/RegMap.lean ====
section
/-! DEFINITION. The lane's register map: one row for every register heading of the spec (address, instances,
reset value, access types, owner), an address for every register and a `Fld` for every field. The rows follow
the heading line and the field table of each register in the spec's register sections. -/

namespace Sys2Proof.Machine

/-- One field of one register instance: the register's lane address, the field's lowest bit and its width. -/
structure Fld where
  adr : Nat
  lo : Nat
  wd : Nat
  deriving DecidableEq, Repr

/-- Who may write a register (the Owner entry of its heading line; R25, R27). -/
inductive Own where
  /-- Written by hardware only. -/
  | status
  | headstock
  /-- A grant unit of Table LANE-4: unit `u + index div d` of the first index. -/
  | granted (u d : Nat)
  /-- The unit of the group of the strike entry the write names (R66, R267). -/
  | entryGroup
  /-- Unit 47 + FLOW div 64 (Table LANE-4). -/
  | flowUnit
  /-- The producer or consumer end of the queue (R370). -/
  | queEnd
  /-- TLY_NEWHk and TLY_NEWAk (R299). -/
  | newFlags
  /-- QUE_PENDk: cleared by the consumer end of each queue. -/
  | quePend
  /-- Any core (R298). -/
  | anyCore
  deriving DecidableEq, Repr

/-- One register heading: base address, up to two index ranges with their strides, reset value, the bits of each
access type that a write can reach (R7, Table SCP-4), and the owner. -/
structure RegRow where
  base : Nat
  n1 : Nat
  s1 : Nat
  n2 : Nat
  s2 : Nat
  reset : Nat
  rw : Nat
  w1c : Nat
  wo : Nat
  cm : Nat
  own : Own
  deriving DecidableEq, Repr

/-- LANE_ID (01). -/
def LANE_ID.adr : Nat := 0x40000000
def LANE_ID.FAMILY : Fld := ⟨LANE_ID.adr, 24, 8⟩
def LANE_ID.PART : Fld := ⟨LANE_ID.adr, 16, 8⟩
def LANE_ID.LANE : Fld := ⟨LANE_ID.adr, 0, 2⟩

/-- LANE_REV (01). -/
def LANE_REV.adr : Nat := 0x40000004
def LANE_REV.FWREV : Fld := ⟨LANE_REV.adr, 16, 16⟩
def LANE_REV.SIREV : Fld := ⟨LANE_REV.adr, 8, 8⟩
def LANE_REV.ROMREV : Fld := ⟨LANE_REV.adr, 0, 8⟩

/-- LANE_SERIAL_LO (01). -/
def LANE_SERIAL_LO.adr : Nat := 0x40000008
def LANE_SERIAL_LO.SERIAL : Fld := ⟨LANE_SERIAL_LO.adr, 0, 32⟩

/-- LANE_SERIAL_HI (01). -/
def LANE_SERIAL_HI.adr : Nat := 0x4000000C
def LANE_SERIAL_HI.SERIAL : Fld := ⟨LANE_SERIAL_HI.adr, 0, 32⟩

/-- LANE_STATE (01). -/
def LANE_STATE.adr : Nat := 0x40000010
def LANE_STATE.RMODE : Fld := ⟨LANE_STATE.adr, 20, 2⟩
def LANE_STATE.PREV : Fld := ⟨LANE_STATE.adr, 4, 4⟩
def LANE_STATE.STATE : Fld := ⟨LANE_STATE.adr, 0, 4⟩

/-- LANE_PEERS (01). -/
def LANE_PEERS.adr : Nat := 0x40000014
def LANE_PEERS.INSERVICE : Fld := ⟨LANE_PEERS.adr, 16, 3⟩
def LANE_PEERS.BRIDGE_UP : Fld := ⟨LANE_PEERS.adr, 8, 3⟩
def LANE_PEERS.FITTED : Fld := ⟨LANE_PEERS.adr, 0, 3⟩

/-- LANE_PROFILE (01). -/
def LANE_PROFILE.adr : Nat := 0x40000020
def LANE_PROFILE.MAXPROF : Fld := ⟨LANE_PROFILE.adr, 16, 8⟩
def LANE_PROFILE.LOCKED : Fld := ⟨LANE_PROFILE.adr, 15, 1⟩
def LANE_PROFILE.ACTIVE : Fld := ⟨LANE_PROFILE.adr, 0, 8⟩

/-- LANE_FAULT_ADDR (01). -/
def LANE_FAULT_ADDR.adr : Nat := 0x40000030
def LANE_FAULT_ADDR.ADDR : Fld := ⟨LANE_FAULT_ADDR.adr, 0, 32⟩

/-- LANE_FAULT_INFO (01). -/
def LANE_FAULT_INFO.adr : Nat := 0x40000034
def LANE_FAULT_INFO.VALID : Fld := ⟨LANE_FAULT_INFO.adr, 31, 1⟩
def LANE_FAULT_INFO.REQ : Fld := ⟨LANE_FAULT_INFO.adr, 26, 5⟩
def LANE_FAULT_INFO.KIND : Fld := ⟨LANE_FAULT_INFO.adr, 24, 2⟩
def LANE_FAULT_INFO.WR : Fld := ⟨LANE_FAULT_INFO.adr, 23, 1⟩
def LANE_FAULT_INFO.COUNT : Fld := ⟨LANE_FAULT_INFO.adr, 0, 16⟩

/-- LANE_GRANTn (01). -/
def LANE_GRANT.adr (i : Nat) : Nat := 0x40000100 + 4 * i
def LANE_GRANT.HONOURED (i : Nat) : Fld := ⟨(LANE_GRANT.adr i), 31, 1⟩
def LANE_GRANT.OWNER (i : Nat) : Fld := ⟨(LANE_GRANT.adr i), 0, 5⟩

/-- SPN_CTRL (02). -/
def SPN_CTRL.adr : Nat := 0x40010000
def SPN_CTRL.STEPEN : Fld := ⟨SPN_CTRL.adr, 2, 1⟩
def SPN_CTRL.USEPEER : Fld := ⟨SPN_CTRL.adr, 1, 1⟩
def SPN_CTRL.USENET : Fld := ⟨SPN_CTRL.adr, 0, 1⟩

/-- SPN_SYNCCFG (02). -/
def SPN_SYNCCFG.adr : Nat := 0x40010004
def SPN_SYNCCFG.STEPLIM : Fld := ⟨SPN_SYNCCFG.adr, 16, 16⟩
def SPN_SYNCCFG.HOLD : Fld := ⟨SPN_SYNCCFG.adr, 0, 8⟩

/-- SPN_GT_LO (02). -/
def SPN_GT_LO.adr : Nat := 0x40010010
def SPN_GT_LO.GT : Fld := ⟨SPN_GT_LO.adr, 0, 32⟩

/-- SPN_GT_HI (02). -/
def SPN_GT_HI.adr : Nat := 0x40010014
def SPN_GT_HI.GT : Fld := ⟨SPN_GT_HI.adr, 0, 32⟩

/-- SPN_RATE (02). -/
def SPN_RATE.adr : Nat := 0x40010018
def SPN_RATE.RATE : Fld := ⟨SPN_RATE.adr, 0, 32⟩

/-- SPN_OFFSET (02). -/
def SPN_OFFSET.adr : Nat := 0x4001001C
def SPN_OFFSET.OFFSET : Fld := ⟨SPN_OFFSET.adr, 0, 32⟩

/-- SPN_SYNCSTAT (02). -/
def SPN_SYNCSTAT.adr : Nat := 0x40010020
def SPN_SYNCSTAT.CAND : Fld := ⟨SPN_SYNCSTAT.adr, 8, 3⟩
def SPN_SYNCSTAT.NETVALID : Fld := ⟨SPN_SYNCSTAT.adr, 4, 1⟩
def SPN_SYNCSTAT.HOLDOVER : Fld := ⟨SPN_SYNCSTAT.adr, 3, 1⟩
def SPN_SYNCSTAT.SLEWING : Fld := ⟨SPN_SYNCSTAT.adr, 2, 1⟩
def SPN_SYNCSTAT.FINE : Fld := ⟨SPN_SYNCSTAT.adr, 1, 1⟩
def SPN_SYNCSTAT.ALIGNED : Fld := ⟨SPN_SYNCSTAT.adr, 0, 1⟩

/-- SPN_PEEROFFk (02). -/
def SPN_PEEROFF.adr (i : Nat) : Nat := 0x40010030 + 4 * i
def SPN_PEEROFF.POFF (i : Nat) : Fld := ⟨(SPN_PEEROFF.adr i), 0, 32⟩

/-- SPN_SPEED (02). -/
def SPN_SPEED.adr : Nat := 0x40010040
def SPN_SPEED.MOPS : Fld := ⟨SPN_SPEED.adr, 0, 16⟩

/-- SPN_CLASSCFGn (02). -/
def SPN_CLASSCFG.adr (i : Nat) : Nat := 0x40010100 + 16 * i
def SPN_CLASSCFG.IDLE (i : Nat) : Fld := ⟨(SPN_CLASSCFG.adr i), 31, 1⟩
def SPN_CLASSCFG.BUDGET (i : Nat) : Fld := ⟨(SPN_CLASSCFG.adr i), 0, 24⟩

/-- SPN_SLACKn (02). -/
def SPN_SLACK.adr (i : Nat) : Nat := 0x40010104 + 16 * i
def SPN_SLACK.MINSLACK (i : Nat) : Fld := ⟨(SPN_SLACK.adr i), 0, 32⟩

/-- SPN_CLASSCNTn (02). -/
def SPN_CLASSCNT.adr (i : Nat) : Nat := 0x40010108 + 16 * i
def SPN_CLASSCNT.DONE (i : Nat) : Fld := ⟨(SPN_CLASSCNT.adr i), 0, 32⟩

/-- SPN_CLASSSTATn (02). -/
def SPN_CLASSSTAT.adr (i : Nat) : Nat := 0x4001010C + 16 * i
def SPN_CLASSSTAT.PRIMED (i : Nat) : Fld := ⟨(SPN_CLASSSTAT.adr i), 31, 1⟩
def SPN_CLASSSTAT.MISSES (i : Nat) : Fld := ⟨(SPN_CLASSSTAT.adr i), 8, 8⟩
def SPN_CLASSSTAT.OVERRUNS (i : Nat) : Fld := ⟨(SPN_CLASSSTAT.adr i), 0, 8⟩

/-- SPN_LEDGER_CLR (02). -/
def SPN_LEDGER_CLR.adr : Nat := 0x40010200
def SPN_LEDGER_CLR.CLR : Fld := ⟨SPN_LEDGER_CLR.adr, 0, 16⟩

/-- SPN_GRPENg (02). -/
def SPN_GRPEN.adr (i : Nat) : Nat := 0x40010280 + 4 * i
def SPN_GRPEN.EN (i : Nat) : Fld := ⟨(SPN_GRPEN.adr i), 0, 16⟩

/-- SPN_DONE (02). -/
def SPN_DONE.adr : Nat := 0x400102C0
def SPN_DONE.ENTRY : Fld := ⟨SPN_DONE.adr, 0, 8⟩

/-- SPN_PERIODm (02). -/
def SPN_PERIOD.adr (i : Nat) : Nat := 0x40011000 + 16 * i
def SPN_PERIOD.PERIOD (i : Nat) : Fld := ⟨(SPN_PERIOD.adr i), 0, 32⟩

/-- SPN_PHASEm (02). -/
def SPN_PHASE.adr (i : Nat) : Nat := 0x40011004 + 16 * i
def SPN_PHASE.PHASE (i : Nat) : Fld := ⟨(SPN_PHASE.adr i), 0, 32⟩

/-- SPN_ACTm (02). -/
def SPN_ACT.adr (i : Nat) : Nat := 0x40011008 + 16 * i
def SPN_ACT.ACTION (i : Nat) : Fld := ⟨(SPN_ACT.adr i), 28, 4⟩
def SPN_ACT.CLASS (i : Nat) : Fld := ⟨(SPN_ACT.adr i), 24, 4⟩
def SPN_ACT.TARGET (i : Nat) : Fld := ⟨(SPN_ACT.adr i), 0, 16⟩

/-- SPN_ESTATm (02). -/
def SPN_ESTAT.adr (i : Nat) : Nat := 0x4001100C + 16 * i
def SPN_ESTAT.OUTST (i : Nat) : Fld := ⟨(SPN_ESTAT.adr i), 31, 1⟩
def SPN_ESTAT.ENABLED (i : Nat) : Fld := ⟨(SPN_ESTAT.adr i), 30, 1⟩
def SPN_ESTAT.MISSES (i : Nat) : Fld := ⟨(SPN_ESTAT.adr i), 8, 8⟩
def SPN_ESTAT.OVERRUNS (i : Nat) : Fld := ⟨(SPN_ESTAT.adr i), 0, 8⟩

/-- PWM_TRIPCFGk (03). -/
def PWM_TRIPCFG.adr (i : Nat) : Nat := 0x40020020 + 4 * i
def PWM_TRIPCFG.EN (i : Nat) : Fld := ⟨(PWM_TRIPCFG.adr i), 31, 1⟩
def PWM_TRIPCFG.POL (i : Nat) : Fld := ⟨(PWM_TRIPCFG.adr i), 30, 1⟩
def PWM_TRIPCFG.BANKS (i : Nat) : Fld := ⟨(PWM_TRIPCFG.adr i), 22, 8⟩
def PWM_TRIPCFG.BLKLEG (i : Nat) : Fld := ⟨(PWM_TRIPCFG.adr i), 17, 5⟩
def PWM_TRIPCFG.BLKMAX (i : Nat) : Fld := ⟨(PWM_TRIPCFG.adr i), 7, 10⟩
def PWM_TRIPCFG.FILT (i : Nat) : Fld := ⟨(PWM_TRIPCFG.adr i), 0, 4⟩

/-- PWM_TRIPSTAT (03). -/
def PWM_TRIPSTAT.adr : Nat := 0x40020030
def PWM_TRIPSTAT.LEVEL : Fld := ⟨PWM_TRIPSTAT.adr, 8, 4⟩
def PWM_TRIPSTAT.BLANKSEEN : Fld := ⟨PWM_TRIPSTAT.adr, 4, 4⟩
def PWM_TRIPSTAT.TRIPPED : Fld := ⟨PWM_TRIPSTAT.adr, 0, 4⟩

/-- PWM_FINESTAT (03). -/
def PWM_FINESTAT.adr : Nat := 0x40020034
def PWM_FINESTAT.CALCNT : Fld := ⟨PWM_FINESTAT.adr, 16, 16⟩
def PWM_FINESTAT.CALOK : Fld := ⟨PWM_FINESTAT.adr, 0, 8⟩

/-- PWM_BANKCFGn (03). -/
def PWM_BANKCFG.adr (i : Nat) : Nat := 0x40020100 + 64 * i
def PWM_BANKCFG.DEST (i : Nat) : Fld := ⟨(PWM_BANKCFG.adr i), 31, 1⟩
def PWM_BANKCFG.ALIGN (i : Nat) : Fld := ⟨(PWM_BANKCFG.adr i), 30, 1⟩
def PWM_BANKCFG.PMIN (i : Nat) : Fld := ⟨(PWM_BANKCFG.adr i), 0, 24⟩

/-- PWM_BANKPHASEn (03). -/
def PWM_BANKPHASE.adr (i : Nat) : Nat := 0x40020104 + 64 * i
def PWM_BANKPHASE.PHASE (i : Nat) : Fld := ⟨(PWM_BANKPHASE.adr i), 0, 24⟩

/-- PWM_BANKCTLn (03). -/
def PWM_BANKCTL.adr (i : Nat) : Nat := 0x40020108 + 64 * i
def PWM_BANKCTL.COMMIT (i : Nat) : Fld := ⟨(PWM_BANKCTL.adr i), 1, 1⟩
def PWM_BANKCTL.RUN (i : Nat) : Fld := ⟨(PWM_BANKCTL.adr i), 0, 1⟩

/-- PWM_PERIODSHn (03). -/
def PWM_PERIODSH.adr (i : Nat) : Nat := 0x4002010C + 64 * i
def PWM_PERIODSH.PERIOD (i : Nat) : Fld := ⟨(PWM_PERIODSH.adr i), 0, 24⟩

/-- PWM_PERIODn (03). -/
def PWM_PERIOD.adr (i : Nat) : Nat := 0x40020110 + 64 * i
def PWM_PERIOD.PERIOD (i : Nat) : Fld := ⟨(PWM_PERIOD.adr i), 0, 24⟩

/-- PWM_BANKSTATn (03). -/
def PWM_BANKSTAT.adr (i : Nat) : Nat := 0x40020114 + 64 * i
def PWM_BANKSTAT.RUNNING (i : Nat) : Fld := ⟨(PWM_BANKSTAT.adr i), 31, 1⟩
def PWM_BANKSTAT.PEND (i : Nat) : Fld := ⟨(PWM_BANKSTAT.adr i), 30, 1⟩
def PWM_BANKSTAT.NEXT (i : Nat) : Fld := ⟨(PWM_BANKSTAT.adr i), 29, 1⟩
def PWM_BANKSTAT.SUPERSEDED (i : Nat) : Fld := ⟨(PWM_BANKSTAT.adr i), 28, 1⟩
def PWM_BANKSTAT.PERR (i : Nat) : Fld := ⟨(PWM_BANKSTAT.adr i), 27, 1⟩
def PWM_BANKSTAT.TRIPPED (i : Nat) : Fld := ⟨(PWM_BANKSTAT.adr i), 26, 1⟩
def PWM_BANKSTAT.DITHK (i : Nat) : Fld := ⟨(PWM_BANKSTAT.adr i), 0, 4⟩

/-- PWM_APPLYGTn (03). -/
def PWM_APPLYGT.adr (i : Nat) : Nat := 0x40020118 + 64 * i
def PWM_APPLYGT.APPLYGT (i : Nat) : Fld := ⟨(PWM_APPLYGT.adr i), 0, 32⟩

/-- PWM_LEGSETm (03). -/
def PWM_LEGSET.adr (i : Nat) : Nat := 0x40020800 + 64 * i
def PWM_LEGSET.MODE (i : Nat) : Fld := ⟨(PWM_LEGSET.adr i), 30, 2⟩
def PWM_LEGSET.POLICY (i : Nat) : Fld := ⟨(PWM_LEGSET.adr i), 28, 2⟩
def PWM_LEGSET.MINP (i : Nat) : Fld := ⟨(PWM_LEGSET.adr i), 12, 12⟩
def PWM_LEGSET.DT (i : Nat) : Fld := ⟨(PWM_LEGSET.adr i), 0, 11⟩

/-- PWM_LEGREFm (03). -/
def PWM_LEGREF.adr (i : Nat) : Nat := 0x40020804 + 64 * i
def PWM_LEGREF.POLH (i : Nat) : Fld := ⟨(PWM_LEGREF.adr i), 31, 1⟩
def PWM_LEGREF.POLL (i : Nat) : Fld := ⟨(PWM_LEGREF.adr i), 30, 1⟩
def PWM_LEGREF.REFW (i : Nat) : Fld := ⟨(PWM_LEGREF.adr i), 8, 12⟩
def PWM_LEGREF.REFN (i : Nat) : Fld := ⟨(PWM_LEGREF.adr i), 0, 8⟩

/-- PWM_LEGCFGm (03). -/
def PWM_LEGCFG.adr (i : Nat) : Nat := 0x40020808 + 64 * i
def PWM_LEGCFG.FINE (i : Nat) : Fld := ⟨(PWM_LEGCFG.adr i), 2, 1⟩
def PWM_LEGCFG.FORCE (i : Nat) : Fld := ⟨(PWM_LEGCFG.adr i), 0, 2⟩

/-- PWM_DUTYSHm (03). -/
def PWM_DUTYSH.adr (i : Nat) : Nat := 0x4002080C + 64 * i
def PWM_DUTYSH.ONNS (i : Nat) : Fld := ⟨(PWM_DUTYSH.adr i), 5, 24⟩
def PWM_DUTYSH.FRAC (i : Nat) : Fld := ⟨(PWM_DUTYSH.adr i), 0, 5⟩

/-- PWM_DUTY2SHm (03). -/
def PWM_DUTY2SH.adr (i : Nat) : Nat := 0x40020810 + 64 * i
def PWM_DUTY2SH.ONNS (i : Nat) : Fld := ⟨(PWM_DUTY2SH.adr i), 5, 24⟩
def PWM_DUTY2SH.FRAC (i : Nat) : Fld := ⟨(PWM_DUTY2SH.adr i), 0, 5⟩

/-- PWM_DUTYm (03). -/
def PWM_DUTY.adr (i : Nat) : Nat := 0x40020814 + 64 * i
def PWM_DUTY.C (i : Nat) : Fld := ⟨(PWM_DUTY.adr i), 0, 29⟩

/-- PWM_LEGSTATm (03). -/
def PWM_LEGSTAT.adr (i : Nat) : Nat := 0x40020818 + 64 * i
def PWM_LEGSTAT.PRIMED (i : Nat) : Fld := ⟨(PWM_LEGSTAT.adr i), 31, 1⟩
def PWM_LEGSTAT.FINEACT (i : Nat) : Fld := ⟨(PWM_LEGSTAT.adr i), 30, 1⟩
def PWM_LEGSTAT.OFFCAUSE (i : Nat) : Fld := ⟨(PWM_LEGSTAT.adr i), 28, 2⟩
def PWM_LEGSTAT.LATCH (i : Nat) : Fld := ⟨(PWM_LEGSTAT.adr i), 27, 1⟩
def PWM_LEGSTAT.FULL (i : Nat) : Fld := ⟨(PWM_LEGSTAT.adr i), 0, 8⟩

/-- PWM_LEGACCm (03). -/
def PWM_LEGACC.adr (i : Nat) : Nat := 0x4002081C + 64 * i
def PWM_LEGACC.ACC (i : Nat) : Fld := ⟨(PWM_LEGACC.adr i), 0, 32⟩

/-- PWM_LEGACC2m (03). -/
def PWM_LEGACC2.adr (i : Nat) : Nat := 0x40020820 + 64 * i
def PWM_LEGACC2.ACC (i : Nat) : Fld := ⟨(PWM_LEGACC2.adr i), 0, 32⟩

/-- PWM_LEGDITHm (03). -/
def PWM_LEGDITH.adr (i : Nat) : Nat := 0x40020824 + 64 * i
def PWM_LEGDITH.DA (i : Nat) : Fld := ⟨(PWM_LEGDITH.adr i), 0, 32⟩

/-- PWM_LEGDEVm (03). -/
def PWM_LEGDEV.adr (i : Nat) : Nat := 0x40020828 + 64 * i
def PWM_LEGDEV.DEV (i : Nat) : Fld := ⟨(PWM_LEGDEV.adr i), 0, 32⟩

/-- PWM_LEGSHORTm (03). -/
def PWM_LEGSHORT.adr (i : Nat) : Nat := 0x4002082C + 64 * i
def PWM_LEGSHORT.SHORTCNT (i : Nat) : Fld := ⟨(PWM_LEGSHORT.adr i), 0, 32⟩

/-- GLK_SUMMARY (04). -/
def GLK_SUMMARY.adr : Nat := 0x40030000
def GLK_SUMMARY.FAILED : Fld := ⟨GLK_SUMMARY.adr, 16, 8⟩
def GLK_SUMMARY.HELD : Fld := ⟨GLK_SUMMARY.adr, 8, 8⟩
def GLK_SUMMARY.UP : Fld := ⟨GLK_SUMMARY.adr, 0, 8⟩

/-- GLK_PORTCFGn (04). -/
def GLK_PORTCFG.adr (i : Nat) : Nat := 0x40030100 + 128 * i
def GLK_PORTCFG.EN (i : Nat) : Fld := ⟨(GLK_PORTCFG.adr i), 31, 1⟩
def GLK_PORTCFG.AUTORETRY (i : Nat) : Fld := ⟨(GLK_PORTCFG.adr i), 30, 1⟩
def GLK_PORTCFG.MAXRATE (i : Nat) : Fld := ⟨(GLK_PORTCFG.adr i), 28, 2⟩
def GLK_PORTCFG.MINRATE (i : Nat) : Fld := ⟨(GLK_PORTCFG.adr i), 26, 2⟩
def GLK_PORTCFG.PREFTE (i : Nat) : Fld := ⟨(GLK_PORTCFG.adr i), 25, 1⟩
def GLK_PORTCFG.REQTE (i : Nat) : Fld := ⟨(GLK_PORTCFG.adr i), 24, 1⟩
def GLK_PORTCFG.REQSAMP (i : Nat) : Fld := ⟨(GLK_PORTCFG.adr i), 22, 2⟩
def GLK_PORTCFG.SAMPSEL (i : Nat) : Fld := ⟨(GLK_PORTCFG.adr i), 20, 2⟩

/-- GLK_PROTCFGn (04). -/
def GLK_PROTCFG.adr (i : Nat) : Nat := 0x40030104 + 128 * i
def GLK_PROTCFG.DSBLANK (i : Nat) : Fld := ⟨(GLK_PROTCFG.adr i), 16, 9⟩
def GLK_PROTCFG.DTMINP (i : Nat) : Fld := ⟨(GLK_PROTCFG.adr i), 0, 11⟩

/-- GLK_STATCFGn (04). -/
def GLK_STATCFG.adr (i : Nat) : Nat := 0x40030108 + 128 * i
def GLK_STATCFG.TWARN (i : Nat) : Fld := ⟨(GLK_STATCFG.adr i), 24, 8⟩
def GLK_STATCFG.SPHASE (i : Nat) : Fld := ⟨(GLK_STATCFG.adr i), 0, 13⟩

/-- GLK_LINKSTATn (04). -/
def GLK_LINKSTAT.adr (i : Nat) : Nat := 0x40030110 + 128 * i
def GLK_LINKSTAT.STATE (i : Nat) : Fld := ⟨(GLK_LINKSTAT.adr i), 29, 3⟩
def GLK_LINKSTAT.RATE (i : Nat) : Fld := ⟨(GLK_LINKSTAT.adr i), 27, 2⟩
def GLK_LINKSTAT.MODE (i : Nat) : Fld := ⟨(GLK_LINKSTAT.adr i), 26, 1⟩
def GLK_LINKSTAT.RES (i : Nat) : Fld := ⟨(GLK_LINKSTAT.adr i), 23, 3⟩
def GLK_LINKSTAT.SAMP (i : Nat) : Fld := ⟨(GLK_LINKSTAT.adr i), 21, 2⟩
def GLK_LINKSTAT.TRIES (i : Nat) : Fld := ⟨(GLK_LINKSTAT.adr i), 16, 2⟩
def GLK_LINKSTAT.FAILCODE (i : Nat) : Fld := ⟨(GLK_LINKSTAT.adr i), 0, 8⟩

/-- GLK_PCAP0n (04). -/
def GLK_PCAP0.adr (i : Nat) : Nat := 0x40030114 + 128 * i
def GLK_PCAP0.CAP (i : Nat) : Fld := ⟨(GLK_PCAP0.adr i), 0, 32⟩

/-- GLK_PCAP1n (04). -/
def GLK_PCAP1.adr (i : Nat) : Nat := 0x40030118 + 128 * i
def GLK_PCAP1.CAP (i : Nat) : Fld := ⟨(GLK_PCAP1.adr i), 0, 32⟩

/-- GLK_PIDn (04). -/
def GLK_PID.adr (i : Nat) : Nat := 0x4003011C + 128 * i
def GLK_PID.PID (i : Nat) : Fld := ⟨(GLK_PID.adr i), 0, 32⟩

/-- GLK_ISCALEn (04). -/
def GLK_ISCALE.adr (i : Nat) : Nat := 0x40030120 + 128 * i
def GLK_ISCALE.SCALE (i : Nat) : Fld := ⟨(GLK_ISCALE.adr i), 0, 32⟩

/-- GLK_USCALEn (04). -/
def GLK_USCALE.adr (i : Nat) : Nat := 0x40030124 + 128 * i
def GLK_USCALE.SCALE (i : Nat) : Fld := ⟨(GLK_USCALE.adr i), 0, 32⟩

/-- GLK_DELAYn (04). -/
def GLK_DELAY.adr (i : Nat) : Nat := 0x40030128 + 128 * i
def GLK_DELAY.DELAY (i : Nat) : Fld := ⟨(GLK_DELAY.adr i), 0, 32⟩

/-- GLK_LEGHOLDn (04). -/
def GLK_LEGHOLD.adr (i : Nat) : Nat := 0x4003012C + 128 * i
def GLK_LEGHOLD.EXEC (i : Nat) : Fld := ⟨(GLK_LEGHOLD.adr i), 28, 1⟩
def GLK_LEGHOLD.NOTUP (i : Nat) : Fld := ⟨(GLK_LEGHOLD.adr i), 27, 1⟩
def GLK_LEGHOLD.TIME (i : Nat) : Fld := ⟨(GLK_LEGHOLD.adr i), 26, 1⟩
def GLK_LEGHOLD.OTSD (i : Nat) : Fld := ⟨(GLK_LEGHOLD.adr i), 25, 1⟩
def GLK_LEGHOLD.LINK (i : Nat) : Fld := ⟨(GLK_LEGHOLD.adr i), 24, 1⟩
def GLK_LEGHOLD.LEGn (i : Nat) : Fld := ⟨(GLK_LEGHOLD.adr i), 0, 24⟩

/-- GLK_PSTATn (04). -/
def GLK_PSTAT.adr (i : Nat) : Nat := 0x40030130 + 128 * i
def GLK_PSTAT.TEMP (i : Nat) : Fld := ⟨(GLK_PSTAT.adr i), 24, 8⟩
def GLK_PSTAT.SEQ (i : Nat) : Fld := ⟨(GLK_PSTAT.adr i), 16, 8⟩
def GLK_PSTAT.UVLO (i : Nat) : Fld := ⟨(GLK_PSTAT.adr i), 8, 6⟩
def GLK_PSTAT.OTSD (i : Nat) : Fld := ⟨(GLK_PSTAT.adr i), 7, 1⟩
def GLK_PSTAT.SYNCOK (i : Nat) : Fld := ⟨(GLK_PSTAT.adr i), 6, 1⟩
def GLK_PSTAT.INTLK (i : Nat) : Fld := ⟨(GLK_PSTAT.adr i), 3, 3⟩
def GLK_PSTAT.DESAT (i : Nat) : Fld := ⟨(GLK_PSTAT.adr i), 0, 3⟩

/-- GLK_SAMPAn (04). -/
def GLK_SAMPA.adr (i : Nat) : Nat := 0x40030134 + 128 * i
def GLK_SAMPA.IB (i : Nat) : Fld := ⟨(GLK_SAMPA.adr i), 16, 16⟩
def GLK_SAMPA.IA (i : Nat) : Fld := ⟨(GLK_SAMPA.adr i), 0, 16⟩

/-- GLK_SAMPBn (04). -/
def GLK_SAMPB.adr (i : Nat) : Nat := 0x40030138 + 128 * i
def GLK_SAMPB.UDC (i : Nat) : Fld := ⟨(GLK_SAMPB.adr i), 16, 16⟩
def GLK_SAMPB.IC (i : Nat) : Fld := ⟨(GLK_SAMPB.adr i), 0, 16⟩

/-- GLK_SAMPCn (04). -/
def GLK_SAMPC.adr (i : Nat) : Nat := 0x4003013C + 128 * i
def GLK_SAMPC.TAG (i : Nat) : Fld := ⟨(GLK_SAMPC.adr i), 16, 16⟩
def GLK_SAMPC.IDC (i : Nat) : Fld := ⟨(GLK_SAMPC.adr i), 0, 16⟩

/-- GLK_SAMPSTATn (04). -/
def GLK_SAMPSTAT.adr (i : Nat) : Nat := 0x40030140 + 128 * i
def GLK_SAMPSTAT.VALID (i : Nat) : Fld := ⟨(GLK_SAMPSTAT.adr i), 31, 1⟩
def GLK_SAMPSTAT.STALE (i : Nat) : Fld := ⟨(GLK_SAMPSTAT.adr i), 30, 1⟩
def GLK_SAMPSTAT.AGE (i : Nat) : Fld := ⟨(GLK_SAMPSTAT.adr i), 0, 8⟩

/-- GLK_ERRCNTn (04). -/
def GLK_ERRCNT.adr (i : Nat) : Nat := 0x40030144 + 128 * i
def GLK_ERRCNT.CRCERR (i : Nat) : Fld := ⟨(GLK_ERRCNT.adr i), 16, 16⟩
def GLK_ERRCNT.MISSED (i : Nat) : Fld := ⟨(GLK_ERRCNT.adr i), 0, 16⟩

/-- GLK_CMDCNTn (04). -/
def GLK_CMDCNT.adr (i : Nat) : Nat := 0x40030148 + 128 * i
def GLK_CMDCNT.EXEC (i : Nat) : Fld := ⟨(GLK_CMDCNT.adr i), 24, 8⟩
def GLK_CMDCNT.SENT (i : Nat) : Fld := ⟨(GLK_CMDCNT.adr i), 0, 24⟩

/-- FBC_SUMMARY (05). -/
def FBC_SUMMARY.adr : Nat := 0x40040000
def FBC_SUMMARY.SUSPECT : Fld := ⟨FBC_SUMMARY.adr, 16, 16⟩
def FBC_SUMMARY.LOSS : Fld := ⟨FBC_SUMMARY.adr, 0, 16⟩

/-- FBC_CFGn (05). -/
def FBC_CFG.adr (i : Nat) : Nat := 0x40040100 + 128 * i
def FBC_CFG.EN (i : Nat) : Fld := ⟨(FBC_CFG.adr i), 31, 1⟩
def FBC_CFG.MODE (i : Nat) : Fld := ⟨(FBC_CFG.adr i), 28, 3⟩
def FBC_CFG.CLASS (i : Nat) : Fld := ⟨(FBC_CFG.adr i), 27, 1⟩
def FBC_CFG.REV (i : Nat) : Fld := ⟨(FBC_CFG.adr i), 26, 1⟩
def FBC_CFG.POL (i : Nat) : Fld := ⟨(FBC_CFG.adr i), 23, 3⟩
def FBC_CFG.FILT (i : Nat) : Fld := ⟨(FBC_CFG.adr i), 0, 8⟩

/-- FBC_IDXCFGn (05). -/
def FBC_IDXCFG.adr (i : Nat) : Nat := 0x40040104 + 128 * i
def FBC_IDXCFG.IDXMODE (i : Nat) : Fld := ⟨(FBC_IDXCFG.adr i), 30, 2⟩
def FBC_IDXCFG.HOME (i : Nat) : Fld := ⟨(FBC_IDXCFG.adr i), 29, 1⟩
def FBC_IDXCFG.GATEEN (i : Nat) : Fld := ⟨(FBC_IDXCFG.adr i), 28, 1⟩
def FBC_IDXCFG.GATE (i : Nat) : Fld := ⟨(FBC_IDXCFG.adr i), 26, 2⟩
def FBC_IDXCFG.IDXTOL (i : Nat) : Fld := ⟨(FBC_IDXCFG.adr i), 20, 4⟩
def FBC_IDXCFG.IDXPER (i : Nat) : Fld := ⟨(FBC_IDXCFG.adr i), 0, 20⟩

/-- FBC_IDXEXPn (05). -/
def FBC_IDXEXP.adr (i : Nat) : Nat := 0x40040108 + 128 * i
def FBC_IDXEXP.IDXEXP (i : Nat) : Fld := ⟨(FBC_IDXEXP.adr i), 0, 32⟩

/-- FBC_SPCFGn (05). -/
def FBC_SPCFG.adr (i : Nat) : Nat := 0x4004010C + 128 * i
def FBC_SPCFG.SPMETH (i : Nat) : Fld := ⟨(FBC_SPCFG.adr i), 31, 1⟩
def FBC_SPCFG.EDGESEL (i : Nat) : Fld := ⟨(FBC_SPCFG.adr i), 30, 1⟩
def FBC_SPCFG.SPENTRY (i : Nat) : Fld := ⟨(FBC_SPCFG.adr i), 16, 8⟩
def FBC_SPCFG.SPTO (i : Nat) : Fld := ⟨(FBC_SPCFG.adr i), 0, 16⟩

/-- FBC_SENTCFGn (05). -/
def FBC_SENTCFG.adr (i : Nat) : Nat := 0x40040110 + 128 * i
def FBC_SENTCFG.PAUSE (i : Nat) : Fld := ⟨(FBC_SENTCFG.adr i), 31, 1⟩
def FBC_SENTCFG.FIXLEN (i : Nat) : Fld := ⟨(FBC_SENTCFG.adr i), 30, 1⟩
def FBC_SENTCFG.CRCMODE (i : Nat) : Fld := ⟨(FBC_SENTCFG.adr i), 28, 2⟩
def FBC_SENTCFG.SERIAL (i : Nat) : Fld := ⟨(FBC_SENTCFG.adr i), 26, 2⟩
def FBC_SENTCFG.NIBBLES (i : Nat) : Fld := ⟨(FBC_SENTCFG.adr i), 23, 3⟩
def FBC_SENTCFG.SENTTO (i : Nat) : Fld := ⟨(FBC_SENTCFG.adr i), 14, 9⟩
def FBC_SENTCFG.TICK (i : Nat) : Fld := ⟨(FBC_SENTCFG.adr i), 0, 14⟩

/-- FBC_CTLn (05). -/
def FBC_CTL.adr (i : Nat) : Nat := 0x40040114 + 128 * i
def FBC_CTL.CLRSUSP (i : Nat) : Fld := ⟨(FBC_CTL.adr i), 3, 1⟩
def FBC_CTL.PRESET (i : Nat) : Fld := ⟨(FBC_CTL.adr i), 2, 1⟩
def FBC_CTL.DCIE (i : Nat) : Fld := ⟨(FBC_CTL.adr i), 1, 1⟩

/-- FBC_PRESETn (05). -/
def FBC_PRESET.adr (i : Nat) : Nat := 0x40040118 + 128 * i
def FBC_PRESET.PRESET (i : Nat) : Fld := ⟨(FBC_PRESET.adr i), 0, 32⟩

/-- FBC_POSn (05). -/
def FBC_POS.adr (i : Nat) : Nat := 0x4004011C + 128 * i
def FBC_POS.POS (i : Nat) : Fld := ⟨(FBC_POS.adr i), 0, 32⟩

/-- FBC_POSHIn (05). -/
def FBC_POSHI.adr (i : Nat) : Nat := 0x40040120 + 128 * i
def FBC_POSHI.WRAPS (i : Nat) : Fld := ⟨(FBC_POSHI.adr i), 0, 32⟩

/-- FBC_STATn (05). -/
def FBC_STAT.adr (i : Nat) : Nat := 0x40040124 + 128 * i
def FBC_STAT.SPVALID (i : Nat) : Fld := ⟨(FBC_STAT.adr i), 31, 1⟩
def FBC_STAT.SUSPECT (i : Nat) : Fld := ⟨(FBC_STAT.adr i), 30, 1⟩
def FBC_STAT.REF (i : Nat) : Fld := ⟨(FBC_STAT.adr i), 29, 1⟩
def FBC_STAT.DIR (i : Nat) : Fld := ⟨(FBC_STAT.adr i), 28, 1⟩
def FBC_STAT.STOP (i : Nat) : Fld := ⟨(FBC_STAT.adr i), 27, 1⟩
def FBC_STAT.DIRCHG (i : Nat) : Fld := ⟨(FBC_STAT.adr i), 26, 1⟩
def FBC_STAT.WRAPUP (i : Nat) : Fld := ⟨(FBC_STAT.adr i), 25, 1⟩
def FBC_STAT.WRAPDN (i : Nat) : Fld := ⟨(FBC_STAT.adr i), 24, 1⟩
def FBC_STAT.IDXNEW (i : Nat) : Fld := ⟨(FBC_STAT.adr i), 23, 1⟩
def FBC_STAT.IDXSKIP (i : Nat) : Fld := ⟨(FBC_STAT.adr i), 22, 1⟩
def FBC_STAT.SENTVALID (i : Nat) : Fld := ⟨(FBC_STAT.adr i), 21, 1⟩
def FBC_STAT.LOSS (i : Nat) : Fld := ⟨(FBC_STAT.adr i), 20, 1⟩
def FBC_STAT.DIRV (i : Nat) : Fld := ⟨(FBC_STAT.adr i), 19, 1⟩
def FBC_STAT.SENTAGE (i : Nat) : Fld := ⟨(FBC_STAT.adr i), 8, 8⟩

/-- FBC_SPEEDn (05). -/
def FBC_SPEED.adr (i : Nat) : Nat := 0x40040128 + 128 * i
def FBC_SPEED.SPEED (i : Nat) : Fld := ⟨(FBC_SPEED.adr i), 0, 32⟩

/-- FBC_IDXPOSn (05). -/
def FBC_IDXPOS.adr (i : Nat) : Nat := 0x4004012C + 128 * i
def FBC_IDXPOS.VALUE (i : Nat) : Fld := ⟨(FBC_IDXPOS.adr i), 0, 32⟩

/-- FBC_IDXERRn (05). -/
def FBC_IDXERR.adr (i : Nat) : Nat := 0x40040130 + 128 * i
def FBC_IDXERR.VALUE (i : Nat) : Fld := ⟨(FBC_IDXERR.adr i), 0, 32⟩

/-- FBC_ERRCNTn (05). -/
def FBC_ERRCNT.adr (i : Nat) : Nat := 0x40040134 + 128 * i
def FBC_ERRCNT.ILLCNT (i : Nat) : Fld := ⟨(FBC_ERRCNT.adr i), 16, 16⟩
def FBC_ERRCNT.IDXMIS (i : Nat) : Fld := ⟨(FBC_ERRCNT.adr i), 0, 16⟩

/-- FBC_SENTCNTn (05). -/
def FBC_SENTCNT.adr (i : Nat) : Nat := 0x40040138 + 128 * i
def FBC_SENTCNT.CRCERR (i : Nat) : Fld := ⟨(FBC_SENTCNT.adr i), 16, 16⟩
def FBC_SENTCNT.FMTERR (i : Nat) : Fld := ⟨(FBC_SENTCNT.adr i), 0, 16⟩

/-- FBC_SENTFASTn (05). -/
def FBC_SENTFAST.adr (i : Nat) : Nat := 0x4004013C + 128 * i
def FBC_SENTFAST.SCN (i : Nat) : Fld := ⟨(FBC_SENTFAST.adr i), 28, 4⟩
def FBC_SENTFAST.DATA (i : Nat) : Fld := ⟨(FBC_SENTFAST.adr i), 4, 24⟩

/-- FBC_SENTSLOWn (05). -/
def FBC_SENTSLOW.adr (i : Nat) : Nat := 0x40040140 + 128 * i
def FBC_SENTSLOW.ID (i : Nat) : Fld := ⟨(FBC_SENTSLOW.adr i), 24, 8⟩
def FBC_SENTSLOW.CBIT (i : Nat) : Fld := ⟨(FBC_SENTSLOW.adr i), 23, 1⟩
def FBC_SENTSLOW.VALID (i : Nat) : Fld := ⟨(FBC_SENTSLOW.adr i), 16, 1⟩
def FBC_SENTSLOW.DATA (i : Nat) : Fld := ⟨(FBC_SENTSLOW.adr i), 0, 16⟩

/-- FBC_LEVELn (05). -/
def FBC_LEVEL.adr (i : Nat) : Nat := 0x40040144 + 128 * i
def FBC_LEVEL.SECT (i : Nat) : Fld := ⟨(FBC_LEVEL.adr i), 16, 3⟩
def FBC_LEVEL.LVL (i : Nat) : Fld := ⟨(FBC_LEVEL.adr i), 0, 3⟩

/-- LPE_ENGSTATe (06). -/
def LPE_ENGSTAT.adr (i : Nat) : Nat := 0x40050010 + 4 * i
def LPE_ENGSTAT.BUSY (i : Nat) : Fld := ⟨(LPE_ENGSTAT.adr i), 31, 1⟩
def LPE_ENGSTAT.QMAX (i : Nat) : Fld := ⟨(LPE_ENGSTAT.adr i), 8, 5⟩
def LPE_ENGSTAT.QDEPTH (i : Nat) : Fld := ⟨(LPE_ENGSTAT.adr i), 0, 5⟩

/-- LPE_ENGCNTe (06). -/
def LPE_ENGCNT.adr (i : Nat) : Nat := 0x40050020 + 4 * i
def LPE_ENGCNT.SAMPLES (i : Nat) : Fld := ⟨(LPE_ENGCNT.adr i), 0, 32⟩

/-- LPE_FAILLOe (06). -/
def LPE_FAILLO.adr (i : Nat) : Nat := 0x40050040 + 8 * i
def LPE_FAILLO.FAILED (i : Nat) : Fld := ⟨(LPE_FAILLO.adr i), 0, 32⟩

/-- LPE_FAILHIe (06). -/
def LPE_FAILHI.adr (i : Nat) : Nat := 0x40050044 + 8 * i
def LPE_FAILHI.FAILED (i : Nat) : Fld := ⟨(LPE_FAILHI.adr i), 0, 32⟩

/-- LPE_CTXCFGx (06). -/
def LPE_CTXCFG.adr (i : Nat) : Nat := 0x40054000 + 192 * i
def LPE_CTXCFG.EN (i : Nat) : Fld := ⟨(LPE_CTXCFG.adr i), 31, 1⟩
def LPE_CTXCFG.LAW (i : Nat) : Fld := ⟨(LPE_CTXCFG.adr i), 28, 3⟩
def LPE_CTXCFG.SUPV (i : Nat) : Fld := ⟨(LPE_CTXCFG.adr i), 26, 2⟩
def LPE_CTXCFG.FAILACT (i : Nat) : Fld := ⟨(LPE_CTXCFG.adr i), 25, 1⟩
def LPE_CTXCFG.CALEN (i : Nat) : Fld := ⟨(LPE_CTXCFG.adr i), 24, 1⟩
def LPE_CTXCFG.NX (i : Nat) : Fld := ⟨(LPE_CTXCFG.adr i), 21, 3⟩
def LPE_CTXCFG.SATTO (i : Nat) : Fld := ⟨(LPE_CTXCFG.adr i), 0, 16⟩

/-- LPE_CTXIN0x (06). -/
def LPE_CTXIN0.adr (i : Nat) : Nat := 0x40054004 + 192 * i
def LPE_CTXIN0.TYPE (i : Nat) : Fld := ⟨(LPE_CTXIN0.adr i), 28, 4⟩
def LPE_CTXIN0.INDEX (i : Nat) : Fld := ⟨(LPE_CTXIN0.adr i), 19, 9⟩
def LPE_CTXIN0.ELEM (i : Nat) : Fld := ⟨(LPE_CTXIN0.adr i), 16, 3⟩
def LPE_CTXIN0.WORD (i : Nat) : Fld := ⟨(LPE_CTXIN0.adr i), 8, 8⟩

/-- LPE_CTXIN1x (06). -/
def LPE_CTXIN1.adr (i : Nat) : Nat := 0x40054008 + 192 * i
def LPE_CTXIN1.TYPE (i : Nat) : Fld := ⟨(LPE_CTXIN1.adr i), 28, 4⟩
def LPE_CTXIN1.INDEX (i : Nat) : Fld := ⟨(LPE_CTXIN1.adr i), 19, 9⟩
def LPE_CTXIN1.ELEM (i : Nat) : Fld := ⟨(LPE_CTXIN1.adr i), 16, 3⟩
def LPE_CTXIN1.WORD (i : Nat) : Fld := ⟨(LPE_CTXIN1.adr i), 8, 8⟩

/-- LPE_CTXIN2x (06). -/
def LPE_CTXIN2.adr (i : Nat) : Nat := 0x4005400C + 192 * i
def LPE_CTXIN2.TYPE (i : Nat) : Fld := ⟨(LPE_CTXIN2.adr i), 28, 4⟩
def LPE_CTXIN2.INDEX (i : Nat) : Fld := ⟨(LPE_CTXIN2.adr i), 19, 9⟩
def LPE_CTXIN2.ELEM (i : Nat) : Fld := ⟨(LPE_CTXIN2.adr i), 16, 3⟩
def LPE_CTXIN2.WORD (i : Nat) : Fld := ⟨(LPE_CTXIN2.adr i), 8, 8⟩

/-- LPE_CTXOUTx (06). -/
def LPE_CTXOUT.adr (i : Nat) : Nat := 0x40054010 + 192 * i
def LPE_CTXOUT.TYPE (i : Nat) : Fld := ⟨(LPE_CTXOUT.adr i), 28, 4⟩
def LPE_CTXOUT.INDEX (i : Nat) : Fld := ⟨(LPE_CTXOUT.adr i), 19, 9⟩
def LPE_CTXOUT.SLOT (i : Nat) : Fld := ⟨(LPE_CTXOUT.adr i), 16, 3⟩
def LPE_CTXOUT.WORD (i : Nat) : Fld := ⟨(LPE_CTXOUT.adr i), 8, 8⟩

/-- LPE_CTXAGEx (06). -/
def LPE_CTXAGE.adr (i : Nat) : Nat := 0x40054014 + 192 * i
def LPE_CTXAGE.AGELIM2 (i : Nat) : Fld := ⟨(LPE_CTXAGE.adr i), 16, 8⟩
def LPE_CTXAGE.AGELIM1 (i : Nat) : Fld := ⟨(LPE_CTXAGE.adr i), 8, 8⟩
def LPE_CTXAGE.AGELIM0 (i : Nat) : Fld := ⟨(LPE_CTXAGE.adr i), 0, 8⟩

/-- LPE_CTXSUPVx (06). -/
def LPE_CTXSUPV.adr (i : Nat) : Nat := 0x40054018 + 192 * i
def LPE_CTXSUPV.SVTIME (i : Nat) : Fld := ⟨(LPE_CTXSUPV.adr i), 16, 16⟩
def LPE_CTXSUPV.CALRET (i : Nat) : Fld := ⟨(LPE_CTXSUPV.adr i), 0, 16⟩

/-- LPE_CTXSVLIMx (06). -/
def LPE_CTXSVLIM.adr (i : Nat) : Nat := 0x4005401C + 192 * i
def LPE_CTXSVLIM.VALUE (i : Nat) : Fld := ⟨(LPE_CTXSVLIM.adr i), 0, 32⟩

/-- LPE_CTXLIMHIx (06). -/
def LPE_CTXLIMHI.adr (i : Nat) : Nat := 0x40054020 + 192 * i
def LPE_CTXLIMHI.VALUE (i : Nat) : Fld := ⟨(LPE_CTXLIMHI.adr i), 0, 32⟩

/-- LPE_CTXLIMLOx (06). -/
def LPE_CTXLIMLO.adr (i : Nat) : Nat := 0x40054024 + 192 * i
def LPE_CTXLIMLO.VALUE (i : Nat) : Fld := ⟨(LPE_CTXLIMLO.adr i), 0, 32⟩

/-- LPE_CTXRATEx (06). -/
def LPE_CTXRATE.adr (i : Nat) : Nat := 0x40054028 + 192 * i
def LPE_CTXRATE.VALUE (i : Nat) : Fld := ⟨(LPE_CTXRATE.adr i), 0, 32⟩

/-- LPE_CTXGAINkx (06). -/
def LPE_CTXGAIN.adr (i j : Nat) : Nat := 0x4005402C + 192 * i + 8 * j
def LPE_CTXGAIN.VALUE (i j : Nat) : Fld := ⟨(LPE_CTXGAIN.adr i j), 0, 32⟩

/-- LPE_CTXOFSkx (06). -/
def LPE_CTXOFS.adr (i j : Nat) : Nat := 0x40054030 + 192 * i + 8 * j
def LPE_CTXOFS.VALUE (i j : Nat) : Fld := ⟨(LPE_CTXOFS.adr i j), 0, 32⟩

/-- LPE_CTXSPx (06). -/
def LPE_CTXSP.adr (i : Nat) : Nat := 0x40054050 + 192 * i
def LPE_CTXSP.VALUE (i : Nat) : Fld := ⟨(LPE_CTXSP.adr i), 0, 32⟩

/-- LPE_CTXMANx (06). -/
def LPE_CTXMAN.adr (i : Nat) : Nat := 0x40054054 + 192 * i
def LPE_CTXMAN.VALUE (i : Nat) : Fld := ⟨(LPE_CTXMAN.adr i), 0, 32⟩

/-- LPE_CTXCTLx (06). -/
def LPE_CTXCTL.adr (i : Nat) : Nat := 0x40054058 + 192 * i
def LPE_CTXCTL.TRACK (i : Nat) : Fld := ⟨(LPE_CTXCTL.adr i), 2, 1⟩
def LPE_CTXCTL.BANKREQ (i : Nat) : Fld := ⟨(LPE_CTXCTL.adr i), 1, 1⟩
def LPE_CTXCTL.AUTO (i : Nat) : Fld := ⟨(LPE_CTXCTL.adr i), 0, 1⟩

/-- LPE_CTXSTATx (06). -/
def LPE_CTXSTAT.adr (i : Nat) : Nat := 0x40054060 + 192 * i
def LPE_CTXSTAT.STATE (i : Nat) : Fld := ⟨(LPE_CTXSTAT.adr i), 29, 3⟩
def LPE_CTXSTAT.BANK (i : Nat) : Fld := ⟨(LPE_CTXSTAT.adr i), 28, 1⟩
def LPE_CTXSTAT.FALLBACK (i : Nat) : Fld := ⟨(LPE_CTXSTAT.adr i), 27, 1⟩
def LPE_CTXSTAT.SATHI (i : Nat) : Fld := ⟨(LPE_CTXSTAT.adr i), 26, 1⟩
def LPE_CTXSTAT.SATLO (i : Nat) : Fld := ⟨(LPE_CTXSTAT.adr i), 25, 1⟩
def LPE_CTXSTAT.SATD (i : Nat) : Fld := ⟨(LPE_CTXSTAT.adr i), 24, 1⟩
def LPE_CTXSTAT.RAMPING (i : Nat) : Fld := ⟨(LPE_CTXSTAT.adr i), 23, 1⟩
def LPE_CTXSTAT.INSUSP (i : Nat) : Fld := ⟨(LPE_CTXSTAT.adr i), 22, 1⟩
def LPE_CTXSTAT.PRIMED (i : Nat) : Fld := ⟨(LPE_CTXSTAT.adr i), 21, 1⟩
def LPE_CTXSTAT.RESPRIM (i : Nat) : Fld := ⟨(LPE_CTXSTAT.adr i), 20, 1⟩
def LPE_CTXSTAT.FCAUSE (i : Nat) : Fld := ⟨(LPE_CTXSTAT.adr i), 16, 4⟩

/-- LPE_CTXSPACTx (06). -/
def LPE_CTXSPACT.adr (i : Nat) : Nat := 0x40054064 + 192 * i
def LPE_CTXSPACT.VALUE (i : Nat) : Fld := ⟨(LPE_CTXSPACT.adr i), 0, 32⟩

/-- LPE_CTXMEASx (06). -/
def LPE_CTXMEAS.adr (i : Nat) : Nat := 0x40054068 + 192 * i
def LPE_CTXMEAS.VALUE (i : Nat) : Fld := ⟨(LPE_CTXMEAS.adr i), 0, 32⟩

/-- LPE_CTXOUTVx (06). -/
def LPE_CTXOUTV.adr (i : Nat) : Nat := 0x4005406C + 192 * i
def LPE_CTXOUTV.VALUE (i : Nat) : Fld := ⟨(LPE_CTXOUTV.adr i), 0, 32⟩

/-- LPE_CTXVUNSATx (06). -/
def LPE_CTXVUNSAT.adr (i : Nat) : Nat := 0x40054070 + 192 * i
def LPE_CTXVUNSAT.VALUE (i : Nat) : Fld := ⟨(LPE_CTXVUNSAT.adr i), 0, 32⟩

/-- LPE_CTXINTGx (06). -/
def LPE_CTXINTG.adr (i : Nat) : Nat := 0x40054074 + 192 * i
def LPE_CTXINTG.VALUE (i : Nat) : Fld := ⟨(LPE_CTXINTG.adr i), 0, 32⟩

/-- LPE_CTXRESIDx (06). -/
def LPE_CTXRESID.adr (i : Nat) : Nat := 0x40054078 + 192 * i
def LPE_CTXRESID.VALUE (i : Nat) : Fld := ⟨(LPE_CTXRESID.adr i), 0, 32⟩

/-- LPE_CTXCNTx (06). -/
def LPE_CTXCNT.adr (i : Nat) : Nat := 0x4005407C + 192 * i
def LPE_CTXCNT.SATCNT (i : Nat) : Fld := ⟨(LPE_CTXCNT.adr i), 16, 16⟩
def LPE_CTXCNT.SVCNT (i : Nat) : Fld := ⟨(LPE_CTXCNT.adr i), 0, 16⟩

/-- LPE_CTXXix (06). -/
def LPE_CTXX.adr (i j : Nat) : Nat := 0x40054080 + 192 * i + 4 * j
def LPE_CTXX.VALUE (i j : Nat) : Fld := ⟨(LPE_CTXX.adr i j), 0, 32⟩

/-- LPE_CTXSAMPGTx (06). -/
def LPE_CTXSAMPGT.adr (i : Nat) : Nat := 0x400540A0 + 192 * i
def LPE_CTXSAMPGT.FIRE (i : Nat) : Fld := ⟨(LPE_CTXSAMPGT.adr i), 0, 32⟩

/-- (history words) (06). -/
def LPE_CTXHIST.adr (i j : Nat) : Nat := 0x400540A4 + 192 * i + 4 * j
def LPE_CTXHIST.VALUE (i j : Nat) : Fld := ⟨(LPE_CTXHIST.adr i j), 0, 32⟩

/-- ADC_CFG (07). -/
def ADC_CFG.adr : Nat := 0x40140000
def ADC_CFG.EN : Fld := ⟨ADC_CFG.adr, 31, 1⟩
def ADC_CFG.CHEN : Fld := ⟨ADC_CFG.adr, 0, 16⟩

/-- ADC_SEQCTL (07). -/
def ADC_SEQCTL.adr : Nat := 0x40140040
def ADC_SEQCTL.START : Fld := ⟨ADC_SEQCTL.adr, 0, 16⟩

/-- ADC_STAT (07). -/
def ADC_STAT.adr : Nat := 0x40140044
def ADC_STAT.BUSY : Fld := ⟨ADC_STAT.adr, 31, 1⟩
def ADC_STAT.CURSEQ : Fld := ⟨ADC_STAT.adr, 24, 4⟩
def ADC_STAT.REFUSED : Fld := ⟨ADC_STAT.adr, 16, 8⟩
def ADC_STAT.QDEPTH : Fld := ⟨ADC_STAT.adr, 0, 3⟩

/-- ADC_SEQCFGs (07). -/
def ADC_SEQCFG.adr (i : Nat) : Nat := 0x40140100 + 4 * i
def ADC_SEQCFG.EN (i : Nat) : Fld := ⟨(ADC_SEQCFG.adr i), 31, 1⟩
def ADC_SEQCFG.CHMASK (i : Nat) : Fld := ⟨(ADC_SEQCFG.adr i), 0, 16⟩

/-- ADC_RESULTn (07). -/
def ADC_RESULT.adr (i : Nat) : Nat := 0x40140200 + 4 * i
def ADC_RESULT.COUNT (i : Nat) : Fld := ⟨(ADC_RESULT.adr i), 16, 16⟩
def ADC_RESULT.RESULT (i : Nat) : Fld := ⟨(ADC_RESULT.adr i), 0, 12⟩

/-- SLP_WHOAMI (08). -/
def SLP_WHOAMI.adr : Nat := 0x40060000
def SLP_WHOAMI.OWNER : Fld := ⟨SLP_WHOAMI.adr, 0, 5⟩

/-- SLP_SUMMARY (08). -/
def SLP_SUMMARY.adr : Nat := 0x40060004
def SLP_SUMMARY.FAILED : Fld := ⟨SLP_SUMMARY.adr, 8, 3⟩
def SLP_SUMMARY.LATENT : Fld := ⟨SLP_SUMMARY.adr, 4, 3⟩
def SLP_SUMMARY.SPLIT : Fld := ⟨SLP_SUMMARY.adr, 0, 3⟩

/-- SLP_REHOMEINFO (08). -/
def SLP_REHOMEINFO.adr : Nat := 0x40060008
def SLP_REHOMEINFO.PAIR : Fld := ⟨SLP_REHOMEINFO.adr, 0, 2⟩

/-- SLP_PAIRCFGp (08). -/
def SLP_PAIRCFG.adr (i : Nat) : Nat := 0x40060100 + 64 * i
def SLP_PAIRCFG.EN (i : Nat) : Fld := ⟨(SLP_PAIRCFG.adr i), 31, 1⟩
def SLP_PAIRCFG.INITMODE (i : Nat) : Fld := ⟨(SLP_PAIRCFG.adr i), 30, 1⟩
def SLP_PAIRCFG.DESIG (i : Nat) : Fld := ⟨(SLP_PAIRCFG.adr i), 29, 1⟩
def SLP_PAIRCFG.REHOME (i : Nat) : Fld := ⟨(SLP_PAIRCFG.adr i), 24, 2⟩
def SLP_PAIRCFG.LAG (i : Nat) : Fld := ⟨(SLP_PAIRCFG.adr i), 16, 4⟩
def SLP_PAIRCFG.CKCLASS (i : Nat) : Fld := ⟨(SLP_PAIRCFG.adr i), 8, 4⟩
def SLP_PAIRCFG.IDLEENT (i : Nat) : Fld := ⟨(SLP_PAIRCFG.adr i), 0, 8⟩

/-- SLP_PAIRSTATp (08). -/
def SLP_PAIRSTAT.adr (i : Nat) : Nat := 0x40060104 + 64 * i
def SLP_PAIRSTAT.STATE (i : Nat) : Fld := ⟨(SLP_PAIRSTAT.adr i), 28, 4⟩
def SLP_PAIRSTAT.SPLITREQ (i : Nat) : Fld := ⟨(SLP_PAIRSTAT.adr i), 27, 1⟩
def SLP_PAIRSTAT.REJOINREQ (i : Nat) : Fld := ⟨(SLP_PAIRSTAT.adr i), 26, 1⟩
def SLP_PAIRSTAT.LATENT (i : Nat) : Fld := ⟨(SLP_PAIRSTAT.adr i), 25, 1⟩
def SLP_PAIRSTAT.CKVALID (i : Nat) : Fld := ⟨(SLP_PAIRSTAT.adr i), 24, 1⟩
def SLP_PAIRSTAT.RESTARTS (i : Nat) : Fld := ⟨(SLP_PAIRSTAT.adr i), 16, 8⟩
def SLP_PAIRSTAT.FIFO (i : Nat) : Fld := ⟨(SLP_PAIRSTAT.adr i), 8, 6⟩
def SLP_PAIRSTAT.RECENT (i : Nat) : Fld := ⟨(SLP_PAIRSTAT.adr i), 0, 2⟩

/-- SLP_TOKLOp (08). -/
def SLP_TOKLO.adr (i : Nat) : Nat := 0x40060108 + 64 * i
def SLP_TOKLO.TOKEN (i : Nat) : Fld := ⟨(SLP_TOKLO.adr i), 0, 32⟩

/-- SLP_RELTOKp (08). -/
def SLP_RELTOK.adr (i : Nat) : Nat := 0x4006010C + 64 * i
def SLP_RELTOK.TOKEN (i : Nat) : Fld := ⟨(SLP_RELTOK.adr i), 0, 32⟩

/-- SLP_CKTOKp (08). -/
def SLP_CKTOK.adr (i : Nat) : Nat := 0x40060110 + 64 * i
def SLP_CKTOK.TOKEN (i : Nat) : Fld := ⟨(SLP_CKTOK.adr i), 0, 32⟩

/-- SLP_CKGTp (08). -/
def SLP_CKGT.adr (i : Nat) : Nat := 0x40060114 + 64 * i
def SLP_CKGT.GT (i : Nat) : Fld := ⟨(SLP_CKGT.adr i), 0, 32⟩

/-- SLP_DIGLOp (08). -/
def SLP_DIGLO.adr (i : Nat) : Nat := 0x40060118 + 64 * i
def SLP_DIGLO.DIGEST (i : Nat) : Fld := ⟨(SLP_DIGLO.adr i), 0, 32⟩

/-- SLP_DIGHIp (08). -/
def SLP_DIGHI.adr (i : Nat) : Nat := 0x4006011C + 64 * i
def SLP_DIGHI.DIGEST (i : Nat) : Fld := ⟨(SLP_DIGHI.adr i), 0, 32⟩

/-- SLP_LOGp (08). -/
def SLP_LOG.adr (i : Nat) : Nat := 0x40060120 + 64 * i
def SLP_LOG.CKECC (i : Nat) : Fld := ⟨(SLP_LOG.adr i), 24, 5⟩
def SLP_LOG.DIRTY (i : Nat) : Fld := ⟨(SLP_LOG.adr i), 16, 8⟩
def SLP_LOG.FILL (i : Nat) : Fld := ⟨(SLP_LOG.adr i), 0, 13⟩

/-- SLP_LASTRSTp (08). -/
def SLP_LASTRST.adr (i : Nat) : Nat := 0x40060124 + 64 * i
def SLP_LASTRST.CAUSE (i : Nat) : Fld := ⟨(SLP_LASTRST.adr i), 29, 3⟩

/-- SLP_LASTRSTGTp (08). -/
def SLP_LASTRSTGT.adr (i : Nat) : Nat := 0x40060128 + 64 * i
def SLP_LASTRSTGT.GT (i : Nat) : Fld := ⟨(SLP_LASTRSTGT.adr i), 0, 32⟩

/-- LBR_EPSTATk (08). -/
def LBR_EPSTAT.adr (i : Nat) : Nat := 0x40120000 + 4 * i
def LBR_EPSTAT.UP (i : Nat) : Fld := ⟨(LBR_EPSTAT.adr i), 31, 1⟩
def LBR_EPSTAT.PEER (i : Nat) : Fld := ⟨(LBR_EPSTAT.adr i), 16, 2⟩
def LBR_EPSTAT.PROFILE (i : Nat) : Fld := ⟨(LBR_EPSTAT.adr i), 8, 8⟩
def LBR_EPSTAT.PSTATE (i : Nat) : Fld := ⟨(LBR_EPSTAT.adr i), 4, 4⟩

/-- LBR_ERRCNTk (08). -/
def LBR_ERRCNT.adr (i : Nat) : Nat := 0x40120010 + 4 * i
def LBR_ERRCNT.CRCERR (i : Nat) : Fld := ⟨(LBR_ERRCNT.adr i), 16, 16⟩
def LBR_ERRCNT.LOSSES (i : Nat) : Fld := ⟨(LBR_ERRCNT.adr i), 0, 16⟩

/-- LBR_AGRCFG (08). -/
def LBR_AGRCFG.adr : Nat := 0x40120040
def LBR_AGRCFG.EN : Fld := ⟨LBR_AGRCFG.adr, 31, 1⟩
def LBR_AGRCFG.NITEMS : Fld := ⟨LBR_AGRCFG.adr, 16, 6⟩
def LBR_AGRCFG.ENTRY : Fld := ⟨LBR_AGRCFG.adr, 0, 8⟩

/-- LBR_AGRSTAT (08). -/
def LBR_AGRSTAT.adr : Nat := 0x40120044
def LBR_AGRSTAT.DONE : Fld := ⟨LBR_AGRSTAT.adr, 31, 1⟩
def LBR_AGRSTAT.LANES : Fld := ⟨LBR_AGRSTAT.adr, 8, 3⟩
def LBR_AGRSTAT.INCONS : Fld := ⟨LBR_AGRSTAT.adr, 4, 3⟩

/-- LBR_AGRINST (08). -/
def LBR_AGRINST.adr : Nat := 0x40120048
def LBR_AGRINST.INST : Fld := ⟨LBR_AGRINST.adr, 0, 32⟩

/-- LBR_ITEMSRCi (08). -/
def LBR_ITEMSRC.adr (i : Nat) : Nat := 0x40120100 + 8 * i
def LBR_ITEMSRC.ADDR (i : Nat) : Fld := ⟨(LBR_ITEMSRC.adr i), 0, 32⟩

/-- LBR_ITEMCFGi (08). -/
def LBR_ITEMCFG.adr (i : Nat) : Nat := 0x40120104 + 8 * i
def LBR_ITEMCFG.MINCNT (i : Nat) : Fld := ⟨(LBR_ITEMCFG.adr i), 8, 2⟩
def LBR_ITEMCFG.RULE (i : Nat) : Fld := ⟨(LBR_ITEMCFG.adr i), 4, 2⟩
def LBR_ITEMCFG.TYPE (i : Nat) : Fld := ⟨(LBR_ITEMCFG.adr i), 0, 2⟩

/-- LBR_RESULTi (08). -/
def LBR_RESULT.adr (i : Nat) : Nat := 0x40120400 + 8 * i
def LBR_RESULT.VALUE (i : Nat) : Fld := ⟨(LBR_RESULT.adr i), 0, 32⟩

/-- LBR_RESSTATi (08). -/
def LBR_RESSTAT.adr (i : Nat) : Nat := 0x40120404 + 8 * i
def LBR_RESSTAT.NEW (i : Nat) : Fld := ⟨(LBR_RESSTAT.adr i), 31, 1⟩
def LBR_RESSTAT.USED (i : Nat) : Fld := ⟨(LBR_RESSTAT.adr i), 4, 3⟩
def LBR_RESSTAT.COUNT (i : Nat) : Fld := ⟨(LBR_RESSTAT.adr i), 0, 2⟩

/-- TSK_STAT (09). -/
def TSK_STAT.adr : Nat := 0x40080000
def TSK_STAT.STATE : Fld := ⟨TSK_STAT.adr, 31, 1⟩
def TSK_STAT.SAFECAUSE : Fld := ⟨TSK_STAT.adr, 28, 3⟩
def TSK_STAT.HLTHON : Fld := ⟨TSK_STAT.adr, 1, 1⟩
def TSK_STAT.LEVEL : Fld := ⟨TSK_STAT.adr, 0, 1⟩

/-- TSK_CTRL (09). -/
def TSK_CTRL.adr : Nat := 0x40080004
def TSK_CTRL.PDTIME : Fld := ⟨TSK_CTRL.adr, 16, 8⟩
def TSK_CTRL.FITPERS : Fld := ⟨TSK_CTRL.adr, 0, 8⟩

/-- TSK_MODESTAT (09). -/
def TSK_MODESTAT.adr : Nat := 0x40080008
def TSK_MODESTAT.STOPCAUSE : Fld := ⟨TSK_MODESTAT.adr, 16, 4⟩
def TSK_MODESTAT.MEMBERS : Fld := ⟨TSK_MODESTAT.adr, 8, 3⟩
def TSK_MODESTAT.HELD : Fld := ⟨TSK_MODESTAT.adr, 4, 1⟩
def TSK_MODESTAT.MISSION : Fld := ⟨TSK_MODESTAT.adr, 2, 2⟩
def TSK_MODESTAT.RMODE : Fld := ⟨TSK_MODESTAT.adr, 0, 2⟩

/-- TSK_STOPGTLO (09). -/
def TSK_STOPGTLO.adr : Nat := 0x4008000C
def TSK_STOPGTLO.STOPGT : Fld := ⟨TSK_STOPGTLO.adr, 0, 32⟩

/-- TSK_STOPGTHI (09). -/
def TSK_STOPGTHI.adr : Nat := 0x40080010
def TSK_STOPGTHI.STOPGT : Fld := ⟨TSK_STOPGTHI.adr, 0, 32⟩

/-- TSK_INSTAT (09). -/
def TSK_INSTAT.adr : Nat := 0x40080020
def TSK_INSTAT.LVLB : Fld := ⟨TSK_INSTAT.adr, 24, 8⟩
def TSK_INSTAT.LVLA : Fld := ⟨TSK_INSTAT.adr, 16, 8⟩
def TSK_INSTAT.DISC : Fld := ⟨TSK_INSTAT.adr, 8, 8⟩
def TSK_INSTAT.DEMAND : Fld := ⟨TSK_INSTAT.adr, 0, 8⟩

/-- TSK_INSTAT2 (09). -/
def TSK_INSTAT2.adr : Nat := 0x40080024
def TSK_INSTAT2.SRSTLVL : Fld := ⟨TSK_INSTAT2.adr, 9, 2⟩
def TSK_INSTAT2.WAITRST : Fld := ⟨TSK_INSTAT2.adr, 0, 8⟩

/-- TSK_DISCINFO (09). -/
def TSK_DISCINFO.adr : Nat := 0x40080028
def TSK_DISCINFO.INPUT : Fld := ⟨TSK_DISCINFO.adr, 28, 4⟩
def TSK_DISCINFO.COUNT : Fld := ⟨TSK_DISCINFO.adr, 0, 16⟩

/-- TSK_INCFGn (09). -/
def TSK_INCFG.adr (i : Nat) : Nat := 0x40080100 + 8 * i
def TSK_INCFG.TYPE (i : Nat) : Fld := ⟨(TSK_INCFG.adr i), 30, 2⟩
def TSK_INCFG.RESTART (i : Nat) : Fld := ⟨(TSK_INCFG.adr i), 29, 1⟩
def TSK_INCFG.TDISC (i : Nat) : Fld := ⟨(TSK_INCFG.adr i), 16, 10⟩
def TSK_INCFG.FILT (i : Nat) : Fld := ⟨(TSK_INCFG.adr i), 0, 10⟩

/-- TSK_INNEARn (09). -/
def TSK_INNEAR.adr (i : Nat) : Nat := 0x40080104 + 8 * i
def TSK_INNEAR.NEAR (i : Nat) : Fld := ⟨(TSK_INNEAR.adr i), 0, 10⟩

/-- TSK_NEARCNTn (09). -/
def TSK_NEARCNT.adr (i : Nat) : Nat := 0x40080180 + 4 * i
def TSK_NEARCNT.LONGEST (i : Nat) : Fld := ⟨(TSK_NEARCNT.adr i), 16, 16⟩
def TSK_NEARCNT.NEARMISS (i : Nat) : Fld := ⟨(TSK_NEARCNT.adr i), 0, 16⟩

/-- TSK_OUTCFGk (09). -/
def TSK_OUTCFG.adr (i : Nat) : Nat := 0x40080200 + 8 * i
def TSK_OUTCFG.TESTEN (i : Nat) : Fld := ⟨(TSK_OUTCFG.adr i), 31, 1⟩
def TSK_OUTCFG.OTW (i : Nat) : Fld := ⟨(TSK_OUTCFG.adr i), 16, 6⟩
def TSK_OUTCFG.EMASK (i : Nat) : Fld := ⟨(TSK_OUTCFG.adr i), 0, 8⟩

/-- TSK_OUTTESTk (09). -/
def TSK_OUTTEST.adr (i : Nat) : Nat := 0x40080204 + 8 * i
def TSK_OUTTEST.OTPER (i : Nat) : Fld := ⟨(TSK_OUTTEST.adr i), 16, 16⟩
def TSK_OUTTEST.OTPH (i : Nat) : Fld := ⟨(TSK_OUTTEST.adr i), 0, 16⟩

/-- TSK_OUTREQ (09). -/
def TSK_OUTREQ.adr : Nat := 0x40080240
def TSK_OUTREQ.REQ : Fld := ⟨TSK_OUTREQ.adr, 0, 8⟩

/-- TSK_OUTSTAT (09). -/
def TSK_OUTSTAT.adr : Nat := 0x40080244
def TSK_OUTSTAT.TESTING : Fld := ⟨TSK_OUTSTAT.adr, 24, 8⟩
def TSK_OUTSTAT.RBFAIL : Fld := ⟨TSK_OUTSTAT.adr, 16, 8⟩
def TSK_OUTSTAT.RB : Fld := ⟨TSK_OUTSTAT.adr, 8, 8⟩
def TSK_OUTSTAT.ON : Fld := ⟨TSK_OUTSTAT.adr, 0, 8⟩

/-- TSK_SRSTSTAT (09). -/
def TSK_SRSTSTAT.adr : Nat := 0x40080260
def TSK_SRSTSTAT.JAMMED : Fld := ⟨TSK_SRSTSTAT.adr, 31, 1⟩
def TSK_SRSTSTAT.ACCEPTS : Fld := ⟨TSK_SRSTSTAT.adr, 16, 15⟩
def TSK_SRSTSTAT.LASTP : Fld := ⟨TSK_SRSTSTAT.adr, 0, 16⟩

/-- TSK_SRSTGT (09). -/
def TSK_SRSTGT.adr : Nat := 0x40080264
def TSK_SRSTGT.GT : Fld := ⟨TSK_SRSTGT.adr, 0, 32⟩

/-- TSK_CHALCFG (09). -/
def TSK_CHALCFG.adr : Nat := 0x40080280
def TSK_CHALCFG.EN : Fld := ⟨TSK_CHALCFG.adr, 31, 1⟩
def TSK_CHALCFG.ENTRY : Fld := ⟨TSK_CHALCFG.adr, 0, 8⟩

/-- TSK_CHALLENGE (09). -/
def TSK_CHALLENGE.adr : Nat := 0x40080284
def TSK_CHALLENGE.VALUE : Fld := ⟨TSK_CHALLENGE.adr, 0, 32⟩

/-- TSK_CHALDEM (09). -/
def TSK_CHALDEM.adr : Nat := 0x40080288
def TSK_CHALDEM.VALUE : Fld := ⟨TSK_CHALDEM.adr, 0, 32⟩

/-- TSK_RESPONSE (09). -/
def TSK_RESPONSE.adr : Nat := 0x4008028C
def TSK_RESPONSE.RESP : Fld := ⟨TSK_RESPONSE.adr, 0, 32⟩

/-- TSK_CHALSTAT (09). -/
def TSK_CHALSTAT.adr : Nat := 0x40080290
def TSK_CHALSTAT.FAILRUN : Fld := ⟨TSK_CHALSTAT.adr, 30, 2⟩
def TSK_CHALSTAT.OKCNT : Fld := ⟨TSK_CHALSTAT.adr, 8, 16⟩
def TSK_CHALSTAT.FAILCNT : Fld := ⟨TSK_CHALSTAT.adr, 0, 8⟩

/-- TLY_CTRL (10). -/
def TLY_CTRL.adr : Nat := 0x40070000
def TLY_CTRL.FORCE : Fld := ⟨TLY_CTRL.adr, 31, 1⟩
def TLY_CTRL.EFLMIN : Fld := ⟨TLY_CTRL.adr, 0, 7⟩

/-- TLY_SUMMARY (10). -/
def TLY_SUMMARY.adr : Nat := 0x40070004
def TLY_SUMMARY.LATCHCNT : Fld := ⟨TLY_SUMMARY.adr, 16, 9⟩
def TLY_SUMMARY.FAULTCNT : Fld := ⟨TLY_SUMMARY.adr, 0, 9⟩

/-- TLY_EFLSTAT (10). -/
def TLY_EFLSTAT.adr : Nat := 0x40070008
def TLY_EFLSTAT.PAD : Fld := ⟨TLY_EFLSTAT.adr, 2, 1⟩
def TLY_EFLSTAT.HOLDMIN : Fld := ⟨TLY_EFLSTAT.adr, 1, 1⟩
def TLY_EFLSTAT.DRIVE : Fld := ⟨TLY_EFLSTAT.adr, 0, 1⟩

/-- TLY_SNAPGT (10). -/
def TLY_SNAPGT.adr : Nat := 0x4007000C
def TLY_SNAPGT.GT : Fld := ⟨TLY_SNAPGT.adr, 0, 32⟩

/-- TLY_RSTCAUSE (10). -/
def TLY_RSTCAUSE.adr : Nat := 0x40070010
def TLY_RSTCAUSE.POR : Fld := ⟨TLY_RSTCAUSE.adr, 31, 1⟩
def TLY_RSTCAUSE.SRC : Fld := ⟨TLY_RSTCAUSE.adr, 0, 9⟩

/-- TLY_RSTINFO (10). -/
def TLY_RSTINFO.adr : Nat := 0x40070014
def TLY_RSTINFO.VALUE : Fld := ⟨TLY_RSTINFO.adr, 0, 32⟩

/-- TLY_RSTGT (10). -/
def TLY_RSTGT.adr : Nat := 0x40070018
def TLY_RSTGT.VALUE : Fld := ⟨TLY_RSTGT.adr, 0, 32⟩

/-- TLY_FWRAISE (10). -/
def TLY_FWRAISE.adr : Nat := 0x40070020
def TLY_FWRAISE.DETAIL : Fld := ⟨TLY_FWRAISE.adr, 8, 24⟩
def TLY_FWRAISE.NUM : Fld := ⟨TLY_FWRAISE.adr, 0, 4⟩

/-- TLY_FWCLASS (10). -/
def TLY_FWCLASS.adr : Nat := 0x40070024
def TLY_FWCLASS.SAFE : Fld := ⟨TLY_FWCLASS.adr, 0, 16⟩

/-- TLY_STATk (10). -/
def TLY_STAT.adr (i : Nat) : Nat := 0x40070040 + 4 * i
def TLY_STAT.FAULT (i : Nat) : Fld := ⟨(TLY_STAT.adr i), 0, 32⟩

/-- TLY_LATCHk (10). -/
def TLY_LATCH.adr (i : Nat) : Nat := 0x40070080 + 4 * i
def TLY_LATCH.LATCHED (i : Nat) : Fld := ⟨(TLY_LATCH.adr i), 0, 32⟩

/-- TLY_NEWHk (10). -/
def TLY_NEWH.adr (i : Nat) : Nat := 0x400700C0 + 4 * i
def TLY_NEWH.NEW (i : Nat) : Fld := ⟨(TLY_NEWH.adr i), 0, 32⟩

/-- TLY_NEWAk (10). -/
def TLY_NEWA.adr (i : Nat) : Nat := 0x40070100 + 4 * i
def TLY_NEWA.NEW (i : Nat) : Fld := ⟨(TLY_NEWA.adr i), 0, 32⟩

/-- TLY_CLASSk (10). -/
def TLY_CLASS.adr (i : Nat) : Nat := 0x40070140 + 4 * i
def TLY_CLASS.SAFE (i : Nat) : Fld := ⟨(TLY_CLASS.adr i), 0, 32⟩

/-- TLY_SRCCFGn (10). -/
def TLY_SRCCFG.adr (i : Nat) : Nat := 0x40070400 + 4 * i
def TLY_SRCCFG.REACT (i : Nat) : Fld := ⟨(TLY_SRCCFG.adr i), 27, 5⟩
def TLY_SRCCFG.DEST (i : Nat) : Fld := ⟨(TLY_SRCCFG.adr i), 22, 5⟩
def TLY_SRCCFG.QUIET (i : Nat) : Fld := ⟨(TLY_SRCCFG.adr i), 8, 14⟩
def TLY_SRCCFG.LIMIT (i : Nat) : Fld := ⟨(TLY_SRCCFG.adr i), 0, 8⟩

/-- TLY_RECFIRSTn (10). -/
def TLY_RECFIRST.adr (i : Nat) : Nat := 0x40071000 + 16 * i
def TLY_RECFIRST.GT (i : Nat) : Fld := ⟨(TLY_RECFIRST.adr i), 0, 32⟩

/-- TLY_RECLASTn (10). -/
def TLY_RECLAST.adr (i : Nat) : Nat := 0x40071004 + 16 * i
def TLY_RECLAST.GT (i : Nat) : Fld := ⟨(TLY_RECLAST.adr i), 0, 32⟩

/-- TLY_RECINFOn (10). -/
def TLY_RECINFO.adr (i : Nat) : Nat := 0x40071008 + 16 * i
def TLY_RECINFO.DETAIL (i : Nat) : Fld := ⟨(TLY_RECINFO.adr i), 0, 32⟩

/-- TLY_RECCNTn (10). -/
def TLY_RECCNT.adr (i : Nat) : Nat := 0x4007100C + 16 * i
def TLY_RECCNT.STATE (i : Nat) : Fld := ⟨(TLY_RECCNT.adr i), 30, 2⟩
def TLY_RECCNT.RECOV (i : Nat) : Fld := ⟨(TLY_RECCNT.adr i), 16, 8⟩
def TLY_RECCNT.MERGE (i : Nat) : Fld := ⟨(TLY_RECCNT.adr i), 0, 16⟩

/-- ANW_NODECFG (11). -/
def ANW_NODECFG.adr : Nat := 0x40090000
def ANW_NODECFG.EN : Fld := ⟨ANW_NODECFG.adr, 31, 1⟩
def ANW_NODECFG.CS : Fld := ⟨ANW_NODECFG.adr, 30, 1⟩
def ANW_NODECFG.SYNC : Fld := ⟨ANW_NODECFG.adr, 29, 1⟩
def ANW_NODECFG.CSWAIT : Fld := ⟨ANW_NODECFG.adr, 16, 8⟩
def ANW_NODECFG.NODE : Fld := ⟨ANW_NODECFG.adr, 0, 6⟩

/-- ANW_PORTCFG (11). -/
def ANW_PORTCFG.adr : Nat := 0x40090004
def ANW_PORTCFG.AN : Fld := ⟨ANW_PORTCFG.adr, 31, 1⟩
def ANW_PORTCFG.MAXRATE : Fld := ⟨ANW_PORTCFG.adr, 28, 1⟩
def ANW_PORTCFG.MINRATE : Fld := ⟨ANW_PORTCFG.adr, 27, 1⟩

/-- ANW_NODESTAT (11). -/
def ANW_NODESTAT.adr : Nat := 0x40090008
def ANW_NODESTAT.STATE : Fld := ⟨ANW_NODESTAT.adr, 29, 3⟩
def ANW_NODESTAT.LINKUP : Fld := ⟨ANW_NODESTAT.adr, 28, 1⟩
def ANW_NODESTAT.RATE : Fld := ⟨ANW_NODESTAT.adr, 27, 1⟩
def ANW_NODESTAT.NETVALID : Fld := ⟨ANW_NODESTAT.adr, 26, 1⟩
def ANW_NODESTAT.SSET : Fld := ⟨ANW_NODESTAT.adr, 24, 2⟩
def ANW_NODESTAT.CH : Fld := ⟨ANW_NODESTAT.adr, 16, 6⟩
def ANW_NODESTAT.SYNCCNT : Fld := ⟨ANW_NODESTAT.adr, 8, 4⟩

/-- ANW_ROUND (11). -/
def ANW_ROUND.adr : Nat := 0x4009000C
def ANW_ROUND.ROUND : Fld := ⟨ANW_ROUND.adr, 0, 32⟩

/-- ANW_NETOFF (11). -/
def ANW_NETOFF.adr : Nat := 0x40090010
def ANW_NETOFF.OFF : Fld := ⟨ANW_NETOFF.adr, 0, 32⟩

/-- ANW_PORTDLY (11). -/
def ANW_PORTDLY.adr : Nat := 0x40090014
def ANW_PORTDLY.DLY : Fld := ⟨ANW_PORTDLY.adr, 0, 32⟩

/-- ANW_EVCNT (11). -/
def ANW_EVCNT.adr : Nat := 0x40090018
def ANW_EVCNT.CSATT : Fld := ⟨ANW_EVCNT.adr, 24, 8⟩
def ANW_EVCNT.COLL : Fld := ⟨ANW_EVCNT.adr, 16, 8⟩
def ANW_EVCNT.INTLOST : Fld := ⟨ANW_EVCNT.adr, 8, 8⟩
def ANW_EVCNT.PASSIVE : Fld := ⟨ANW_EVCNT.adr, 0, 8⟩

/-- ANW_ERRCNT (11). -/
def ANW_ERRCNT.adr : Nat := 0x4009001C
def ANW_ERRCNT.FCSERR : Fld := ⟨ANW_ERRCNT.adr, 16, 16⟩
def ANW_ERRCNT.E2EERR : Fld := ⟨ANW_ERRCNT.adr, 0, 16⟩

/-- ANW_SWSTAT (11). -/
def ANW_SWSTAT.adr : Nat := 0x40090020
def ANW_SWSTAT.SWPEND : Fld := ⟨ANW_SWSTAT.adr, 31, 1⟩
def ANW_SWSTAT.SETNEXT : Fld := ⟨ANW_SWSTAT.adr, 26, 2⟩
def ANW_SWSTAT.SWCH : Fld := ⟨ANW_SWSTAT.adr, 16, 6⟩

/-- ANW_SWROUND (11). -/
def ANW_SWROUND.adr : Nat := 0x40090024
def ANW_SWROUND.ROUND : Fld := ⟨ANW_SWROUND.adr, 0, 32⟩

/-- ANW_BUFBASE (11). -/
def ANW_BUFBASE.adr : Nat := 0x40090028
def ANW_BUFBASE.BASE : Fld := ⟨ANW_BUFBASE.adr, 20, 12⟩

/-- ANW_SETCFGs (11). -/
def ANW_SETCFG.adr (i : Nat) : Nat := 0x40090040 + 8 * i
def ANW_SETCFG.EN (i : Nat) : Fld := ⟨(ANW_SETCFG.adr i), 31, 1⟩
def ANW_SETCFG.MINRATE (i : Nat) : Fld := ⟨(ANW_SETCFG.adr i), 30, 1⟩

/-- ANW_SETIDs (11). -/
def ANW_SETID.adr (i : Nat) : Nat := 0x40090044 + 8 * i
def ANW_SETID.SETID (i : Nat) : Fld := ⟨(ANW_SETID.adr i), 0, 32⟩

/-- ANW_HANDOFF (11). -/
def ANW_HANDOFF.adr : Nat := 0x40090080
def ANW_HANDOFF.FLOW : Fld := ⟨ANW_HANDOFF.adr, 0, 9⟩

/-- ANW_STALEk (11). -/
def ANW_STALE.adr (i : Nat) : Nat := 0x400900C0 + 4 * i
def ANW_STALE.STALE (i : Nat) : Fld := ⟨(ANW_STALE.adr i), 0, 32⟩

/-- ANW_FLOWCFGf (11). -/
def ANW_FLOWCFG.adr (i : Nat) : Nat := 0x40091000 + 32 * i
def ANW_FLOWCFG.EN (i : Nat) : Fld := ⟨(ANW_FLOWCFG.adr i), 31, 1⟩
def ANW_FLOWCFG.DIR (i : Nat) : Fld := ⟨(ANW_FLOWCFG.adr i), 30, 1⟩
def ANW_FLOWCFG.HANDOFF (i : Nat) : Fld := ⟨(ANW_FLOWCFG.adr i), 29, 1⟩
def ANW_FLOWCFG.KIND (i : Nat) : Fld := ⟨(ANW_FLOWCFG.adr i), 27, 2⟩
def ANW_FLOWCFG.MAXAGE (i : Nat) : Fld := ⟨(ANW_FLOWCFG.adr i), 18, 8⟩
def ANW_FLOWCFG.SENDER (i : Nat) : Fld := ⟨(ANW_FLOWCFG.adr i), 12, 6⟩
def ANW_FLOWCFG.FLOWID (i : Nat) : Fld := ⟨(ANW_FLOWCFG.adr i), 0, 12⟩

/-- ANW_FLOWBUFf (11). -/
def ANW_FLOWBUF.adr (i : Nat) : Nat := 0x40091004 + 32 * i
def ANW_FLOWBUF.LEN (i : Nat) : Fld := ⟨(ANW_FLOWBUF.adr i), 16, 11⟩
def ANW_FLOWBUF.BUFOFS (i : Nat) : Fld := ⟨(ANW_FLOWBUF.adr i), 0, 16⟩

/-- ANW_FLOWSLOTsf (11). -/
def ANW_FLOWSLOT.adr (i j : Nat) : Nat := 0x40091008 + 32 * i + 4 * j
def ANW_FLOWSLOT.EN (i j : Nat) : Fld := ⟨(ANW_FLOWSLOT.adr i j), 31, 1⟩
def ANW_FLOWSLOT.REPEXP (i j : Nat) : Fld := ⟨(ANW_FLOWSLOT.adr i j), 28, 3⟩
def ANW_FLOWSLOT.CHOFS (i j : Nat) : Fld := ⟨(ANW_FLOWSLOT.adr i j), 20, 6⟩
def ANW_FLOWSLOT.SPAN (i j : Nat) : Fld := ⟨(ANW_FLOWSLOT.adr i j), 15, 5⟩
def ANW_FLOWSLOT.LK (i j : Nat) : Fld := ⟨(ANW_FLOWSLOT.adr i j), 0, 7⟩

/-- ANW_FLOWSTATf (11). -/
def ANW_FLOWSTAT.adr (i : Nat) : Nat := 0x40091018 + 32 * i
def ANW_FLOWSTAT.PRIMED (i : Nat) : Fld := ⟨(ANW_FLOWSTAT.adr i), 31, 1⟩
def ANW_FLOWSTAT.STALE (i : Nat) : Fld := ⟨(ANW_FLOWSTAT.adr i), 30, 1⟩
def ANW_FLOWSTAT.HALF (i : Nat) : Fld := ⟨(ANW_FLOWSTAT.adr i), 29, 1⟩
def ANW_FLOWSTAT.SEQ (i : Nat) : Fld := ⟨(ANW_FLOWSTAT.adr i), 8, 16⟩
def ANW_FLOWSTAT.AGE (i : Nat) : Fld := ⟨(ANW_FLOWSTAT.adr i), 0, 8⟩

/-- ANW_FLOWCNTf (11). -/
def ANW_FLOWCNT.adr (i : Nat) : Nat := 0x4009101C + 32 * i
def ANW_FLOWCNT.GOOD (i : Nat) : Fld := ⟨(ANW_FLOWCNT.adr i), 16, 16⟩
def ANW_FLOWCNT.LOST (i : Nat) : Fld := ⟨(ANW_FLOWCNT.adr i), 0, 16⟩

/-- AST_CFG (12). -/
def AST_CFG.adr : Nat := 0x400A0000
def AST_CFG.MODE : Fld := ⟨AST_CFG.adr, 30, 2⟩

/-- AST_GUARDCFG (12). -/
def AST_GUARDCFG.adr : Nat := 0x400A0004
def AST_GUARDCFG.READMIT : Fld := ⟨AST_GUARDCFG.adr, 24, 8⟩
def AST_GUARDCFG.LATEN : Fld := ⟨AST_GUARDCFG.adr, 18, 6⟩
def AST_GUARDCFG.ISOMAX : Fld := ⟨AST_GUARDCFG.adr, 14, 4⟩
def AST_GUARDCFG.BABN : Fld := ⟨AST_GUARDCFG.adr, 10, 4⟩
def AST_GUARDCFG.WTOL : Fld := ⟨AST_GUARDCFG.adr, 0, 10⟩

/-- AST_STAT (12). -/
def AST_STAT.adr : Nat := 0x400A0008
def AST_STAT.PERM : Fld := ⟨AST_STAT.adr, 24, 8⟩
def AST_STAT.ISOLATED : Fld := ⟨AST_STAT.adr, 16, 8⟩
def AST_STAT.ISO8 : Fld := ⟨AST_STAT.adr, 9, 1⟩
def AST_STAT.ENFORCE : Fld := ⟨AST_STAT.adr, 8, 1⟩
def AST_STAT.LINKUP : Fld := ⟨AST_STAT.adr, 0, 8⟩

/-- AST_CSCNT (12). -/
def AST_CSCNT.adr : Nat := 0x400A000C
def AST_CSCNT.NOTICES : Fld := ⟨AST_CSCNT.adr, 8, 8⟩
def AST_CSCNT.ADMITTED : Fld := ⟨AST_CSCNT.adr, 0, 8⟩

/-- AST_PORTCFGn (12). -/
def AST_PORTCFG.adr (i : Nat) : Nat := 0x400A0100 + 64 * i
def AST_PORTCFG.EN (i : Nat) : Fld := ⟨(AST_PORTCFG.adr i), 31, 1⟩
def AST_PORTCFG.AN (i : Nat) : Fld := ⟨(AST_PORTCFG.adr i), 30, 1⟩
def AST_PORTCFG.MAXRATE (i : Nat) : Fld := ⟨(AST_PORTCFG.adr i), 28, 1⟩
def AST_PORTCFG.MINRATE (i : Nat) : Fld := ⟨(AST_PORTCFG.adr i), 27, 1⟩
def AST_PORTCFG.TRUNK (i : Nat) : Fld := ⟨(AST_PORTCFG.adr i), 26, 1⟩
def AST_PORTCFG.DLYNOM (i : Nat) : Fld := ⟨(AST_PORTCFG.adr i), 0, 10⟩

/-- AST_PORTMAPLOn (12). -/
def AST_PORTMAPLO.adr (i : Nat) : Nat := 0x400A0104 + 64 * i
def AST_PORTMAPLO.NODES (i : Nat) : Fld := ⟨(AST_PORTMAPLO.adr i), 0, 32⟩

/-- AST_PORTMAPHIn (12). -/
def AST_PORTMAPHI.adr (i : Nat) : Nat := 0x400A0108 + 64 * i
def AST_PORTMAPHI.NODES (i : Nat) : Fld := ⟨(AST_PORTMAPHI.adr i), 0, 32⟩

/-- AST_PORTSTATn (12). -/
def AST_PORTSTAT.adr (i : Nat) : Nat := 0x400A010C + 64 * i
def AST_PORTSTAT.LINKUP (i : Nat) : Fld := ⟨(AST_PORTSTAT.adr i), 31, 1⟩
def AST_PORTSTAT.RATE (i : Nat) : Fld := ⟨(AST_PORTSTAT.adr i), 30, 1⟩
def AST_PORTSTAT.ISO (i : Nat) : Fld := ⟨(AST_PORTSTAT.adr i), 29, 1⟩
def AST_PORTSTAT.PERM (i : Nat) : Fld := ⟨(AST_PORTSTAT.adr i), 28, 1⟩
def AST_PORTSTAT.ISOCNT (i : Nat) : Fld := ⟨(AST_PORTSTAT.adr i), 24, 4⟩
def AST_PORTSTAT.LATERUN (i : Nat) : Fld := ⟨(AST_PORTSTAT.adr i), 18, 6⟩
def AST_PORTSTAT.VIOLS (i : Nat) : Fld := ⟨(AST_PORTSTAT.adr i), 14, 4⟩

/-- AST_PORTDLYn (12). -/
def AST_PORTDLY.adr (i : Nat) : Nat := 0x400A0110 + 64 * i
def AST_PORTDLY.PDLY (i : Nat) : Fld := ⟨(AST_PORTDLY.adr i), 0, 32⟩

/-- AST_PORTERRn (12). -/
def AST_PORTERR.adr (i : Nat) : Nat := 0x400A0114 + 64 * i
def AST_PORTERR.START (i : Nat) : Fld := ⟨(AST_PORTERR.adr i), 16, 16⟩
def AST_PORTERR.CUT (i : Nat) : Fld := ⟨(AST_PORTERR.adr i), 0, 16⟩

/-- AST_PORTFWDn (12). -/
def AST_PORTFWD.adr (i : Nat) : Nat := 0x400A0118 + 64 * i
def AST_PORTFWD.FRAMES (i : Nat) : Fld := ⟨(AST_PORTFWD.adr i), 0, 32⟩

/-- AST_LASTVIOLn (12). -/
def AST_LASTVIOL.adr (i : Nat) : Nat := 0x400A011C + 64 * i
def AST_LASTVIOL.KIND (i : Nat) : Fld := ⟨(AST_LASTVIOL.adr i), 29, 3⟩
def AST_LASTVIOL.OFFS (i : Nat) : Fld := ⟨(AST_LASTVIOL.adr i), 0, 16⟩

/-- AST_LASTVIOLGTn (12). -/
def AST_LASTVIOLGT.adr (i : Nat) : Nat := 0x400A0120 + 64 * i
def AST_LASTVIOLGT.GT (i : Nat) : Fld := ⟨(AST_LASTVIOLGT.adr i), 0, 32⟩

/-- AST_WINsi (12). -/
def AST_WIN.adr (i j : Nat) : Nat := 0x400A2000 + 1024 * i + 4 * j
def AST_WIN.EN (i j : Nat) : Fld := ⟨(AST_WIN.adr i j), 31, 1⟩
def AST_WIN.NODE (i j : Nat) : Fld := ⟨(AST_WIN.adr i j), 24, 6⟩
def AST_WIN.REPEXP (i j : Nat) : Fld := ⟨(AST_WIN.adr i j), 21, 3⟩
def AST_WIN.CHOFS (i j : Nat) : Fld := ⟨(AST_WIN.adr i j), 15, 6⟩
def AST_WIN.SPAN (i j : Nat) : Fld := ⟨(AST_WIN.adr i j), 10, 5⟩
def AST_WIN.LK (i j : Nat) : Fld := ⟨(AST_WIN.adr i j), 0, 7⟩

/-- AST_INJCTL (12). -/
def AST_INJCTL.adr : Nat := 0x400A8000
def AST_INJCTL.TOKEN : Fld := ⟨AST_INJCTL.adr, 31, 1⟩
def AST_INJCTL.ARM : Fld := ⟨AST_INJCTL.adr, 0, 8⟩

/-- AST_INJLOGPTR (12). -/
def AST_INJLOGPTR.adr : Nat := 0x400A8004
def AST_INJLOGPTR.WRAPPED : Fld := ⟨AST_INJLOGPTR.adr, 31, 1⟩
def AST_INJLOGPTR.NEXT : Fld := ⟨AST_INJLOGPTR.adr, 0, 6⟩

/-- AST_INJTGTr (12). -/
def AST_INJTGT.adr (i : Nat) : Nat := 0x400A8100 + 16 * i
def AST_INJTGT.TARGET (i : Nat) : Fld := ⟨(AST_INJTGT.adr i), 28, 4⟩
def AST_INJTGT.PORT (i : Nat) : Fld := ⟨(AST_INJTGT.adr i), 24, 4⟩
def AST_INJTGT.ACTION (i : Nat) : Fld := ⟨(AST_INJTGT.adr i), 22, 2⟩
def AST_INJTGT.FIXCHK (i : Nat) : Fld := ⟨(AST_INJTGT.adr i), 21, 1⟩
def AST_INJTGT.ANY (i : Nat) : Fld := ⟨(AST_INJTGT.adr i), 20, 1⟩
def AST_INJTGT.EVERY (i : Nat) : Fld := ⟨(AST_INJTGT.adr i), 12, 8⟩
def AST_INJTGT.MATCH (i : Nat) : Fld := ⟨(AST_INJTGT.adr i), 0, 12⟩

/-- AST_INJPARr (12). -/
def AST_INJPAR.adr (i : Nat) : Nat := 0x400A8104 + 16 * i
def AST_INJPAR.SKIP (i : Nat) : Fld := ⟨(AST_INJPAR.adr i), 24, 8⟩
def AST_INJPAR.COUNT (i : Nat) : Fld := ⟨(AST_INJPAR.adr i), 16, 8⟩
def AST_INJPAR.PARAM (i : Nat) : Fld := ⟨(AST_INJPAR.adr i), 0, 16⟩

/-- AST_INJSTARTr (12). -/
def AST_INJSTART.adr (i : Nat) : Nat := 0x400A8108 + 16 * i
def AST_INJSTART.GT (i : Nat) : Fld := ⟨(AST_INJSTART.adr i), 0, 32⟩

/-- AST_INJSTATr (12). -/
def AST_INJSTAT.adr (i : Nat) : Nat := 0x400A810C + 16 * i
def AST_INJSTAT.DONE (i : Nat) : Fld := ⟨(AST_INJSTAT.adr i), 24, 8⟩
def AST_INJSTAT.SEEN (i : Nat) : Fld := ⟨(AST_INJSTAT.adr i), 0, 16⟩

/-- AST_INJLOGGTj (12). -/
def AST_INJLOGGT.adr (i : Nat) : Nat := 0x400A9000 + 8 * i
def AST_INJLOGGT.GT (i : Nat) : Fld := ⟨(AST_INJLOGGT.adr i), 0, 32⟩

/-- AST_INJLOGj (12). -/
def AST_INJLOG.adr (i : Nat) : Nat := 0x400A9004 + 8 * i
def AST_INJLOG.RULE (i : Nat) : Fld := ⟨(AST_INJLOG.adr i), 29, 3⟩
def AST_INJLOG.ACTION (i : Nat) : Fld := ⟨(AST_INJLOG.adr i), 24, 2⟩
def AST_INJLOG.SEQ (i : Nat) : Fld := ⟨(AST_INJLOG.adr i), 0, 24⟩

/-- QUE_SUMMARY (13). -/
def QUE_SUMMARY.adr : Nat := 0x400B0000
def QUE_SUMMARY.NOTADMIT : Fld := ⟨QUE_SUMMARY.adr, 16, 16⟩
def QUE_SUMMARY.OVERFLOW : Fld := ⟨QUE_SUMMARY.adr, 0, 16⟩

/-- QUE_PENDk (13). -/
def QUE_PEND.adr (i : Nat) : Nat := 0x400B0040 + 4 * i
def QUE_PEND.PEND (i : Nat) : Fld := ⟨(QUE_PEND.adr i), 0, 32⟩

/-- QUE_CFGq (13). -/
def QUE_CFG.adr (i : Nat) : Nat := 0x400B0100 + 32 * i
def QUE_CFG.EN (i : Nat) : Fld := ⟨(QUE_CFG.adr i), 31, 1⟩
def QUE_CFG.IRQEN (i : Nat) : Fld := ⟨(QUE_CFG.adr i), 30, 1⟩
def QUE_CFG.SPNPROD (i : Nat) : Fld := ⟨(QUE_CFG.adr i), 29, 1⟩
def QUE_CFG.QVEC (i : Nat) : Fld := ⟨(QUE_CFG.adr i), 24, 5⟩
def QUE_CFG.PROD (i : Nat) : Fld := ⟨(QUE_CFG.adr i), 19, 5⟩
def QUE_CFG.CONS (i : Nat) : Fld := ⟨(QUE_CFG.adr i), 14, 5⟩
def QUE_CFG.SIZEEXP (i : Nat) : Fld := ⟨(QUE_CFG.adr i), 0, 4⟩

/-- QUE_BASEq (13). -/
def QUE_BASE.adr (i : Nat) : Nat := 0x400B0104 + 32 * i
def QUE_BASE.ADDR (i : Nat) : Fld := ⟨(QUE_BASE.adr i), 6, 26⟩

/-- QUE_POSTq (13). -/
def QUE_POST.adr (i : Nat) : Nat := 0x400B0108 + 32 * i
def QUE_POST.COUNT (i : Nat) : Fld := ⟨(QUE_POST.adr i), 0, 13⟩

/-- QUE_TAKEq (13). -/
def QUE_TAKE.adr (i : Nat) : Nat := 0x400B010C + 32 * i
def QUE_TAKE.COUNT (i : Nat) : Fld := ⟨(QUE_TAKE.adr i), 0, 13⟩

/-- QUE_RETq (13). -/
def QUE_RET.adr (i : Nat) : Nat := 0x400B0110 + 32 * i
def QUE_RET.COUNT (i : Nat) : Fld := ⟨(QUE_RET.adr i), 0, 13⟩

/-- QUE_CNTq (13). -/
def QUE_CNT.adr (i : Nat) : Nat := 0x400B0114 + 32 * i
def QUE_CNT.INFLIGHT (i : Nat) : Fld := ⟨(QUE_CNT.adr i), 16, 13⟩
def QUE_CNT.FREE (i : Nat) : Fld := ⟨(QUE_CNT.adr i), 0, 13⟩

/-- QUE_POSq (13). -/
def QUE_POS.adr (i : Nat) : Nat := 0x400B0118 + 32 * i
def QUE_POS.HELD (i : Nat) : Fld := ⟨(QUE_POS.adr i), 16, 13⟩
def QUE_POS.CIDX (i : Nat) : Fld := ⟨(QUE_POS.adr i), 0, 12⟩

/-- QUE_STATq (13). -/
def QUE_STAT.adr (i : Nat) : Nat := 0x400B011C + 32 * i
def QUE_STAT.LASTPOST (i : Nat) : Fld := ⟨(QUE_STAT.adr i), 30, 2⟩
def QUE_STAT.ADMIT (i : Nat) : Fld := ⟨(QUE_STAT.adr i), 29, 1⟩
def QUE_STAT.BOUND (i : Nat) : Fld := ⟨(QUE_STAT.adr i), 0, 24⟩

/-- ARB_SUMMARY (13). -/
def ARB_SUMMARY.adr : Nat := 0x400C0000
def ARB_SUMMARY.TBLREJ : Fld := ⟨ARB_SUMMARY.adr, 16, 16⟩
def ARB_SUMMARY.STARVES : Fld := ⟨ARB_SUMMARY.adr, 0, 16⟩

/-- ARB_CTLa (13). -/
def ARB_CTL.adr (i : Nat) : Nat := 0x400C0100 + 256 * i
def ARB_CTL.SWITCH (i : Nat) : Fld := ⟨(ARB_CTL.adr i), 31, 1⟩
def ARB_CTL.PEND (i : Nat) : Fld := ⟨(ARB_CTL.adr i), 30, 1⟩
def ARB_CTL.NEXT (i : Nat) : Fld := ⟨(ARB_CTL.adr i), 29, 1⟩
def ARB_CTL.ACTIVE (i : Nat) : Fld := ⟨(ARB_CTL.adr i), 28, 1⟩
def ARB_CTL.LIMIT (i : Nat) : Fld := ⟨(ARB_CTL.adr i), 8, 8⟩

/-- ARB_STATa (13). -/
def ARB_STAT.adr (i : Nat) : Nat := 0x400C0104 + 256 * i
def ARB_STAT.REQ (i : Nat) : Fld := ⟨(ARB_STAT.adr i), 16, 16⟩
def ARB_STAT.BUSY (i : Nat) : Fld := ⟨(ARB_STAT.adr i), 15, 1⟩
def ARB_STAT.SLOT (i : Nat) : Fld := ⟨(ARB_STAT.adr i), 8, 6⟩
def ARB_STAT.HOLDER (i : Nat) : Fld := ⟨(ARB_STAT.adr i), 0, 4⟩

/-- ARB_PRIOLOa (13). -/
def ARB_PRIOLO.adr (i : Nat) : Nat := 0x400C0108 + 256 * i
def ARB_PRIOLO.PRIO (i : Nat) : Fld := ⟨(ARB_PRIOLO.adr i), 0, 32⟩

/-- ARB_PRIOHIa (13). -/
def ARB_PRIOHI.adr (i : Nat) : Nat := 0x400C010C + 256 * i
def ARB_PRIOHI.PRIO (i : Nat) : Fld := ⟨(ARB_PRIOHI.adr i), 0, 32⟩

/-- ARB_STARVEa (13). -/
def ARB_STARVE.adr (i : Nat) : Nat := 0x400C0110 + 256 * i
def ARB_STARVE.STARVED (i : Nat) : Fld := ⟨(ARB_STARVE.adr i), 16, 16⟩
def ARB_STARVE.COUNT (i : Nat) : Fld := ⟨(ARB_STARVE.adr i), 0, 8⟩

/-- ARB_PROGa (13). -/
def ARB_PROG.adr (i : Nat) : Nat := 0x400C0114 + 256 * i
def ARB_PROG.PORT (i : Nat) : Fld := ⟨(ARB_PROG.adr i), 28, 4⟩
def ARB_PROG.DONE (i : Nat) : Fld := ⟨(ARB_PROG.adr i), 16, 6⟩
def ARB_PROG.LEFT (i : Nat) : Fld := ⟨(ARB_PROG.adr i), 0, 6⟩

/-- ARB_DECa (13). -/
def ARB_DEC.adr (i : Nat) : Nat := 0x400C0118 + 256 * i
def ARB_DEC.DECISIONS (i : Nat) : Fld := ⟨(ARB_DEC.adr i), 0, 32⟩

/-- ARB_WAITka (13). -/
def ARB_WAIT.adr (i j : Nat) : Nat := 0x400C0120 + 256 * i + 4 * j
def ARB_WAIT.WAIT (i j : Nat) : Fld := ⟨(ARB_WAIT.adr i j), 0, 32⟩

/-- ARB_TBLtwa (13). -/
def ARB_TBL.adr (i j : Nat) : Nat := 0x400C0140 + 256 * i + 4 * j
def ARB_TBL.SLOTS (i j : Nat) : Fld := ⟨(ARB_TBL.adr i j), 0, 32⟩

/-- STY_STAT (13). -/
def STY_STAT.adr : Nat := 0x400D0000
def STY_STAT.COND : Fld := ⟨STY_STAT.adr, 31, 1⟩
def STY_STAT.BUSY : Fld := ⟨STY_STAT.adr, 30, 1⟩
def STY_STAT.FAILS : Fld := ⟨STY_STAT.adr, 0, 16⟩

/-- STY_AUDITGT (13). -/
def STY_AUDITGT.adr : Nat := 0x400D0004
def STY_AUDITGT.GT : Fld := ⟨STY_AUDITGT.adr, 0, 32⟩

/-- STY_FAILINFO (13). -/
def STY_FAILINFO.adr : Nat := 0x400D0008
def STY_FAILINFO.VALID : Fld := ⟨STY_FAILINFO.adr, 31, 1⟩
def STY_FAILINFO.KIND : Fld := ⟨STY_FAILINFO.adr, 9, 3⟩
def STY_FAILINFO.INDEX : Fld := ⟨STY_FAILINFO.adr, 0, 9⟩

/-- STY_FAILDIFF (13). -/
def STY_FAILDIFF.adr : Nat := 0x400D000C
def STY_FAILDIFF.DIFF : Fld := ⟨STY_FAILDIFF.adr, 0, 32⟩

/-- STY_FAILGT (13). -/
def STY_FAILGT.adr : Nat := 0x400D0010
def STY_FAILGT.GT : Fld := ⟨STY_FAILGT.adr, 0, 32⟩

/-- SPI_CFG (14). -/
def SPI_CFG.adr : Nat := 0x40160000
def SPI_CFG.EN : Fld := ⟨SPI_CFG.adr, 31, 1⟩

/-- SPI_STAT (14). -/
def SPI_STAT.adr : Nat := 0x40160004
def SPI_STAT.REQFULL : Fld := ⟨SPI_STAT.adr, 31, 1⟩
def SPI_STAT.RSPRDY : Fld := ⟨SPI_STAT.adr, 30, 1⟩
def SPI_STAT.RSPLEN : Fld := ⟨SPI_STAT.adr, 16, 11⟩
def SPI_STAT.FRAMEERR : Fld := ⟨SPI_STAT.adr, 8, 8⟩
def SPI_STAT.OVR : Fld := ⟨SPI_STAT.adr, 0, 8⟩

/-- CAN_CFGn (14). -/
def CAN_CFG.adr (i : Nat) : Nat := 0x40150100 + 64 * i
def CAN_CFG.EN (i : Nat) : Fld := ⟨(CAN_CFG.adr i), 31, 1⟩
def CAN_CFG.FD (i : Nat) : Fld := ⟨(CAN_CFG.adr i), 30, 1⟩
def CAN_CFG.TDC (i : Nat) : Fld := ⟨(CAN_CFG.adr i), 29, 1⟩
def CAN_CFG.RXQ (i : Nat) : Fld := ⟨(CAN_CFG.adr i), 16, 7⟩
def CAN_CFG.TXQ (i : Nat) : Fld := ⟨(CAN_CFG.adr i), 0, 7⟩

/-- CAN_NBTn (14). -/
def CAN_NBT.adr (i : Nat) : Nat := 0x40150104 + 64 * i
def CAN_NBT.BRP (i : Nat) : Fld := ⟨(CAN_NBT.adr i), 24, 8⟩
def CAN_NBT.TSEG1 (i : Nat) : Fld := ⟨(CAN_NBT.adr i), 16, 8⟩
def CAN_NBT.TSEG2 (i : Nat) : Fld := ⟨(CAN_NBT.adr i), 8, 8⟩
def CAN_NBT.SJW (i : Nat) : Fld := ⟨(CAN_NBT.adr i), 0, 8⟩

/-- CAN_DBTn (14). -/
def CAN_DBT.adr (i : Nat) : Nat := 0x40150108 + 64 * i
def CAN_DBT.BRP (i : Nat) : Fld := ⟨(CAN_DBT.adr i), 24, 8⟩
def CAN_DBT.TSEG1 (i : Nat) : Fld := ⟨(CAN_DBT.adr i), 16, 8⟩
def CAN_DBT.TSEG2 (i : Nat) : Fld := ⟨(CAN_DBT.adr i), 8, 8⟩
def CAN_DBT.SJW (i : Nat) : Fld := ⟨(CAN_DBT.adr i), 0, 8⟩

/-- CAN_CTLn (14). -/
def CAN_CTL.adr (i : Nat) : Nat := 0x4015010C + 64 * i
def CAN_CTL.STOP (i : Nat) : Fld := ⟨(CAN_CTL.adr i), 1, 1⟩
def CAN_CTL.START (i : Nat) : Fld := ⟨(CAN_CTL.adr i), 0, 1⟩

/-- CAN_STATn (14). -/
def CAN_STAT.adr (i : Nat) : Nat := 0x40150110 + 64 * i
def CAN_STAT.STATE (i : Nat) : Fld := ⟨(CAN_STAT.adr i), 30, 2⟩
def CAN_STAT.TEC (i : Nat) : Fld := ⟨(CAN_STAT.adr i), 16, 8⟩
def CAN_STAT.REC (i : Nat) : Fld := ⟨(CAN_STAT.adr i), 8, 8⟩
def CAN_STAT.RXDROP (i : Nat) : Fld := ⟨(CAN_STAT.adr i), 0, 8⟩

/-- HMB_SUMMARY (14). -/
def HMB_SUMMARY.adr : Nat := 0x400E0000
def HMB_SUMMARY.LONG : Fld := ⟨HMB_SUMMARY.adr, 31, 1⟩
def HMB_SUMMARY.PARKED : Fld := ⟨HMB_SUMMARY.adr, 30, 1⟩
def HMB_SUMMARY.LONGCH : Fld := ⟨HMB_SUMMARY.adr, 16, 3⟩
def HMB_SUMMARY.LONGOP : Fld := ⟨HMB_SUMMARY.adr, 0, 16⟩

/-- HMB_CHCFGc (14). -/
def HMB_CHCFG.adr (i : Nat) : Nat := 0x400E0100 + 32 * i
def HMB_CHCFG.EN (i : Nat) : Fld := ⟨(HMB_CHCFG.adr i), 31, 1⟩
def HMB_CHCFG.OWNER (i : Nat) : Fld := ⟨(HMB_CHCFG.adr i), 26, 5⟩
def HMB_CHCFG.GROUPS (i : Nat) : Fld := ⟨(HMB_CHCFG.adr i), 1, 9⟩

/-- HMB_CHPATHc (14). -/
def HMB_CHPATH.adr (i : Nat) : Nat := 0x400E0104 + 32 * i
def HMB_CHPATH.RSP (i : Nat) : Fld := ⟨(HMB_CHPATH.adr i), 16, 9⟩
def HMB_CHPATH.REQ (i : Nat) : Fld := ⟨(HMB_CHPATH.adr i), 0, 9⟩

/-- HMB_CHSTATc (14). -/
def HMB_CHSTAT.adr (i : Nat) : Nat := 0x400E0108 + 32 * i
def HMB_CHSTAT.STATUS (i : Nat) : Fld := ⟨(HMB_CHSTAT.adr i), 16, 16⟩
def HMB_CHSTAT.RSPDROP (i : Nat) : Fld := ⟨(HMB_CHSTAT.adr i), 8, 8⟩
def HMB_CHSTAT.ERRS (i : Nat) : Fld := ⟨(HMB_CHSTAT.adr i), 0, 8⟩

/-- HMB_CHCNTc (14). -/
def HMB_CHCNT.adr (i : Nat) : Nat := 0x400E010C + 32 * i
def HMB_CHCNT.REQS (i : Nat) : Fld := ⟨(HMB_CHCNT.adr i), 0, 32⟩

/-- HMB_CHLASTc (14). -/
def HMB_CHLAST.adr (i : Nat) : Nat := 0x400E0110 + 32 * i
def HMB_CHLAST.OPCODE (i : Nat) : Fld := ⟨(HMB_CHLAST.adr i), 16, 16⟩
def HMB_CHLAST.TAG (i : Nat) : Fld := ⟨(HMB_CHLAST.adr i), 0, 16⟩

/-- SEC_STAT (15). -/
def SEC_STAT.adr : Nat := 0x400F0000
def SEC_STAT.DEBUGDIS : Fld := ⟨SEC_STAT.adr, 31, 1⟩
def SEC_STAT.INJTOK : Fld := ⟨SEC_STAT.adr, 30, 1⟩
def SEC_STAT.CERTOK : Fld := ⟨SEC_STAT.adr, 29, 1⟩
def SEC_STAT.NONCE : Fld := ⟨SEC_STAT.adr, 28, 1⟩
def SEC_STAT.ROOTSLOT : Fld := ⟨SEC_STAT.adr, 24, 4⟩
def SEC_STAT.KEYSLOT : Fld := ⟨SEC_STAT.adr, 22, 2⟩

/-- SEC_BOOT (15). -/
def SEC_BOOT.adr : Nat := 0x400F0004
def SEC_BOOT.BANK : Fld := ⟨SEC_BOOT.adr, 31, 1⟩
def SEC_BOOT.TRIAL : Fld := ⟨SEC_BOOT.adr, 30, 1⟩
def SEC_BOOT.FALLBACK : Fld := ⟨SEC_BOOT.adr, 29, 1⟩
def SEC_BOOT.APPOK : Fld := ⟨SEC_BOOT.adr, 28, 1⟩
def SEC_BOOT.FAILSEG : Fld := ⟨SEC_BOOT.adr, 0, 8⟩

/-- SEC_PUBKEYk (15). -/
def SEC_PUBKEY.adr (i : Nat) : Nat := 0x400F0010 + 4 * i
def SEC_PUBKEY.KEY (i : Nat) : Fld := ⟨(SEC_PUBKEY.adr i), 0, 32⟩

/-- SEC_TOKENEXP (15). -/
def SEC_TOKENEXP.adr : Nat := 0x400F0030
def SEC_TOKENEXP.GT : Fld := ⟨SEC_TOKENEXP.adr, 0, 32⟩

/-- SEC_SIGBUFw (15). -/
def SEC_SIGBUF.adr (i : Nat) : Nat := 0x400F0800 + 4 * i
def SEC_SIGBUF.DATA (i : Nat) : Fld := ⟨(SEC_SIGBUF.adr i), 0, 32⟩

/-- NCH_CNTn (15). -/
def NCH_CNT.adr (i : Nat) : Nat := 0x40100000 + 4 * i
def NCH_CNT.BUDGET (i : Nat) : Fld := ⟨(NCH_CNT.adr i), 16, 16⟩
def NCH_CNT.USED (i : Nat) : Fld := ⟨(NCH_CNT.adr i), 0, 16⟩

/-- NCH_LOGCNT (15). -/
def NCH_LOGCNT.adr : Nat := 0x40100020
def NCH_LOGCNT.ENTRIES : Fld := ⟨NCH_LOGCNT.adr, 0, 12⟩

/-- NCH_LOCKPROF (15). -/
def NCH_LOCKPROF.adr : Nat := 0x40100024
def NCH_LOCKPROF.PROFILE : Fld := ⟨NCH_LOCKPROF.adr, 0, 8⟩

/-- NCH_CMSSTAT (15). -/
def NCH_CMSSTAT.adr : Nat := 0x40100030
def NCH_CMSSTAT.STAGE : Fld := ⟨NCH_CMSSTAT.adr, 30, 2⟩
def NCH_CMSSTAT.SLOT : Fld := ⟨NCH_CMSSTAT.adr, 29, 1⟩
def NCH_CMSSTAT.PENDING : Fld := ⟨NCH_CMSSTAT.adr, 28, 1⟩

/-- NCH_CHECKLO (15). -/
def NCH_CHECKLO.adr : Nat := 0x40100034
def NCH_CHECKLO.V : Fld := ⟨NCH_CHECKLO.adr, 0, 32⟩

/-- NCH_CHECKHI (15). -/
def NCH_CHECKHI.adr : Nat := 0x40100038
def NCH_CHECKHI.V : Fld := ⟨NCH_CHECKHI.adr, 0, 32⟩

/-- NCH_JOURNAL (15). -/
def NCH_JOURNAL.adr : Nat := 0x40100040
def NCH_JOURNAL.OP : Fld := ⟨NCH_JOURNAL.adr, 24, 8⟩
def NCH_JOURNAL.STEP : Fld := ⟨NCH_JOURNAL.adr, 16, 8⟩
def NCH_JOURNAL.OUTCOME : Fld := ⟨NCH_JOURNAL.adr, 8, 8⟩

/-- DBG_CTL (15). -/
def DBG_CTL.adr : Nat := 0x40130000
def DBG_CTL.DISABLED : Fld := ⟨DBG_CTL.adr, 31, 1⟩
def DBG_CTL.ACTIVE : Fld := ⟨DBG_CTL.adr, 30, 1⟩

/-- DBG_PROBEk (15). -/
def DBG_PROBE.adr (i : Nat) : Nat := 0x40130010 + 4 * i
def DBG_PROBE.EN (i : Nat) : Fld := ⟨(DBG_PROBE.adr i), 31, 1⟩
def DBG_PROBE.EVT (i : Nat) : Fld := ⟨(DBG_PROBE.adr i), 30, 1⟩
def DBG_PROBE.SIGNAL (i : Nat) : Fld := ⟨(DBG_PROBE.adr i), 0, 10⟩

/-- DBG_EVTPTR (15). -/
def DBG_EVTPTR.adr : Nat := 0x40130020
def DBG_EVTPTR.WRAPPED : Fld := ⟨DBG_EVTPTR.adr, 31, 1⟩
def DBG_EVTPTR.NEXT : Fld := ⟨DBG_EVTPTR.adr, 0, 8⟩

/-- DBG_EVTGTj (15). -/
def DBG_EVTGT.adr (i : Nat) : Nat := 0x40131000 + 8 * i
def DBG_EVTGT.GT (i : Nat) : Fld := ⟨(DBG_EVTGT.adr i), 0, 32⟩

/-- DBG_EVTj (15). -/
def DBG_EVT.adr (i : Nat) : Nat := 0x40131004 + 8 * i
def DBG_EVT.PAD (i : Nat) : Fld := ⟨(DBG_EVT.adr i), 30, 2⟩
def DBG_EVT.LEVEL (i : Nat) : Fld := ⟨(DBG_EVT.adr i), 29, 1⟩

/-- PMU_STAT (16). -/
def PMU_STAT.adr : Nat := 0x40110000
def PMU_STAT.WDRUN : Fld := ⟨PMU_STAT.adr, 12, 1⟩
def PMU_STAT.OSCOK : Fld := ⟨PMU_STAT.adr, 11, 1⟩
def PMU_STAT.TWARN : Fld := ⟨PMU_STAT.adr, 10, 1⟩
def PMU_STAT.OV : Fld := ⟨PMU_STAT.adr, 9, 1⟩
def PMU_STAT.UV : Fld := ⟨PMU_STAT.adr, 8, 1⟩
def PMU_STAT.VIOOK : Fld := ⟨PMU_STAT.adr, 4, 3⟩
def PMU_STAT.RAILOK : Fld := ⟨PMU_STAT.adr, 1, 1⟩
def PMU_STAT.VLANEOK : Fld := ⟨PMU_STAT.adr, 0, 1⟩

/-- PMU_MEAS (16). -/
def PMU_MEAS.adr : Nat := 0x40110004
def PMU_MEAS.TJ : Fld := ⟨PMU_MEAS.adr, 24, 8⟩
def PMU_MEAS.VLANE : Fld := ⟨PMU_MEAS.adr, 0, 16⟩

/-- PMU_MONCFG (16). -/
def PMU_MONCFG.adr : Nat := 0x40110008
def PMU_MONCFG.TJWARN : Fld := ⟨PMU_MONCFG.adr, 24, 8⟩
def PMU_MONCFG.OVTH : Fld := ⟨PMU_MONCFG.adr, 12, 10⟩
def PMU_MONCFG.UVTH : Fld := ⟨PMU_MONCFG.adr, 0, 10⟩

/-- PMU_VIOCFG (16). -/
def PMU_VIOCFG.adr : Nat := 0x4011000C
def PMU_VIOCFG.USED : Fld := ⟨PMU_VIOCFG.adr, 0, 3⟩

/-- PMU_WDCFG (16). -/
def PMU_WDCFG.adr : Nat := 0x40110010
def PMU_WDCFG.WDMIN : Fld := ⟨PMU_WDCFG.adr, 8, 8⟩
def PMU_WDCFG.WDTO : Fld := ⟨PMU_WDCFG.adr, 0, 8⟩

/-- PMU_WDKICK (16). -/
def PMU_WDKICK.adr : Nat := 0x40110014
def PMU_WDKICK.KEY : Fld := ⟨PMU_WDKICK.adr, 0, 8⟩

/-- PMU_STARTCFG (16). -/
def PMU_STARTCFG.adr : Nat := 0x40110018
def PMU_STARTCFG.NETWAIT : Fld := ⟨PMU_STARTCFG.adr, 16, 11⟩
def PMU_STARTCFG.PEERWAIT : Fld := ⟨PMU_STARTCFG.adr, 0, 10⟩

/-- PMU_RSTSRC (16). -/
def PMU_RSTSRC.adr : Nat := 0x40110020
def PMU_RSTSRC.COUNT : Fld := ⟨PMU_RSTSRC.adr, 8, 16⟩
def PMU_RSTSRC.CAUSE : Fld := ⟨PMU_RSTSRC.adr, 0, 3⟩

/-- PMU_STSTAT (16). -/
def PMU_STSTAT.adr : Nat := 0x40110024
def PMU_STSTAT.DONE : Fld := ⟨PMU_STSTAT.adr, 31, 1⟩
def PMU_STSTAT.PASS : Fld := ⟨PMU_STSTAT.adr, 30, 1⟩
def PMU_STSTAT.PROFILE : Fld := ⟨PMU_STSTAT.adr, 8, 1⟩
def PMU_STSTAT.SAMPLER : Fld := ⟨PMU_STSTAT.adr, 7, 1⟩
def PMU_STSTAT.TSKRB : Fld := ⟨PMU_STSTAT.adr, 6, 1⟩
def PMU_STSTAT.CMP : Fld := ⟨PMU_STSTAT.adr, 5, 1⟩
def PMU_STSTAT.DELAY : Fld := ⟨PMU_STSTAT.adr, 4, 1⟩
def PMU_STSTAT.CKBUF : Fld := ⟨PMU_STSTAT.adr, 3, 1⟩
def PMU_STSTAT.TCM : Fld := ⟨PMU_STSTAT.adr, 2, 1⟩
def PMU_STSTAT.SRAM : Fld := ⟨PMU_STSTAT.adr, 1, 1⟩
def PMU_STSTAT.TLYSELF : Fld := ⟨PMU_STSTAT.adr, 0, 1⟩

/-- PMU_BOOTTIME (16). -/
def PMU_BOOTTIME.adr : Nat := 0x40110028
def PMU_BOOTTIME.TSERV : Fld := ⟨PMU_BOOTTIME.adr, 20, 10⟩
def PMU_BOOTTIME.TINTEG : Fld := ⟨PMU_BOOTTIME.adr, 10, 10⟩
def PMU_BOOTTIME.TSELF : Fld := ⟨PMU_BOOTTIME.adr, 0, 10⟩

/-- The rows of block LANE. -/
def rowsLANE : List RegRow := [
  ⟨0x40000000, 1, 0, 1, 0, 0x0, 0x0, 0x0, 0x0, 0x0, .status⟩,
  ⟨0x40000004, 1, 0, 1, 0, 0x0, 0x0, 0x0, 0x0, 0x0, .status⟩,
  ⟨0x40000008, 1, 0, 1, 0, 0x0, 0x0, 0x0, 0x0, 0x0, .status⟩,
  ⟨0x4000000C, 1, 0, 1, 0, 0x0, 0x0, 0x0, 0x0, 0x0, .status⟩,
  ⟨0x40000010, 1, 0, 1, 0, 0x300001, 0x0, 0x0, 0x0, 0x0, .status⟩,
  ⟨0x40000014, 1, 0, 1, 0, 0x0, 0x0, 0x0, 0x0, 0x0, .status⟩,
  ⟨0x40000020, 1, 0, 1, 0, 0x10001, 0x0, 0x0, 0x0, 0xFF, .headstock⟩,
  ⟨0x40000030, 1, 0, 1, 0, 0x0, 0x0, 0x0, 0x0, 0x0, .status⟩,
  ⟨0x40000034, 1, 0, 1, 0, 0x0, 0x0, 0x80000000, 0x0, 0x0, .status⟩,
  ⟨0x40000100, 64, 4, 1, 0, 0x80000001, 0x1F, 0x0, 0x0, 0x0, .headstock⟩]

/-- The rows of block SPN. -/
def rowsSPN : List RegRow := [
  ⟨0x40010000, 1, 0, 1, 0, 0x7, 0x0, 0x0, 0x0, 0x7, .headstock⟩,
  ⟨0x40010004, 1, 0, 1, 0, 0xC80005, 0x0, 0x0, 0x0, 0xFFFF00FF, .headstock⟩,
  ⟨0x40010010, 1, 0, 1, 0, 0x0, 0x0, 0x0, 0x0, 0x0, .status⟩,
  ⟨0x40010014, 1, 0, 1, 0, 0x0, 0x0, 0x0, 0x0, 0x0, .status⟩,
  ⟨0x40010018, 1, 0, 1, 0, 0x0, 0x0, 0x0, 0x0, 0x0, .status⟩,
  ⟨0x4001001C, 1, 0, 1, 0, 0x0, 0x0, 0x0, 0x0, 0x0, .status⟩,
  ⟨0x40010020, 1, 0, 1, 0, 0x0, 0x0, 0x0, 0x0, 0x0, .status⟩,
  ⟨0x40010030, 3, 4, 1, 0, 0x0, 0x0, 0x0, 0x0, 0x0, .status⟩,
  ⟨0x40010040, 1, 0, 1, 0, 0x0, 0x0, 0x0, 0x0, 0x0, .status⟩,
  ⟨0x40010100, 16, 16, 1, 0, 0x0, 0x0, 0x0, 0x0, 0x80FFFFFF, .headstock⟩,
  ⟨0x40010104, 16, 16, 1, 0, 0x7FFFFFFF, 0x0, 0x0, 0x0, 0x0, .status⟩,
  ⟨0x40010108, 16, 16, 1, 0, 0x0, 0x0, 0x0, 0x0, 0x0, .status⟩,
  ⟨0x4001010C, 16, 16, 1, 0, 0x0, 0x0, 0x0, 0x0, 0x0, .status⟩,
  ⟨0x40010200, 1, 0, 1, 0, 0x0, 0x0, 0x0, 0xFFFF, 0x0, .headstock⟩,
  ⟨0x40010280, 16, 4, 1, 0, 0x0, 0xFFFF, 0x0, 0x0, 0x0, (.granted 24 1)⟩,
  ⟨0x400102C0, 1, 0, 1, 0, 0x0, 0x0, 0x0, 0xFF, 0x0, .entryGroup⟩,
  ⟨0x40011000, 256, 16, 1, 0, 0x0, 0xFFFFFFFF, 0x0, 0x0, 0x0, .headstock⟩,
  ⟨0x40011004, 256, 16, 1, 0, 0x0, 0xFFFFFFFF, 0x0, 0x0, 0x0, .headstock⟩,
  ⟨0x40011008, 256, 16, 1, 0, 0x0, 0xFF00FFFF, 0x0, 0x0, 0x0, .headstock⟩,
  ⟨0x4001100C, 256, 16, 1, 0, 0x0, 0x0, 0x0, 0x0, 0x0, .status⟩]

/-- The rows of block PWM. -/
def rowsPWM : List RegRow := [
  ⟨0x40020020, 4, 4, 1, 0, 0x3E0081, 0x0, 0x0, 0x0, 0xFFFFFF8F, .headstock⟩,
  ⟨0x40020030, 1, 0, 1, 0, 0x0, 0x0, 0xFF, 0x0, 0x0, .headstock⟩,
  ⟨0x40020034, 1, 0, 1, 0, 0x0, 0x0, 0x0, 0x0, 0x0, .status⟩,
  ⟨0x40020100, 8, 64, 1, 0, 0x0, 0x0, 0x0, 0x0, 0xC0FFFFFF, .headstock⟩,
  ⟨0x40020104, 8, 64, 1, 0, 0x0, 0x0, 0x0, 0x0, 0xFFFFFF, .headstock⟩,
  ⟨0x40020108, 8, 64, 1, 0, 0x0, 0x1, 0x0, 0x2, 0x0, (.granted 0 1)⟩,
  ⟨0x4002010C, 8, 64, 1, 0, 0x0, 0xFFFFFF, 0x0, 0x0, 0x0, (.granted 0 1)⟩,
  ⟨0x40020110, 8, 64, 1, 0, 0x0, 0x0, 0x0, 0x0, 0x0, .status⟩,
  ⟨0x40020114, 8, 64, 1, 0, 0x0, 0x0, 0x18000000, 0x0, 0x0, .status⟩,
  ⟨0x40020118, 8, 64, 1, 0, 0x0, 0x0, 0x0, 0x0, 0x0, .status⟩,
  ⟨0x40020800, 24, 64, 1, 0, 0x0, 0x0, 0x0, 0x0, 0xF0FFF7FF, .headstock⟩,
  ⟨0x40020804, 24, 64, 1, 0, 0x0, 0x0, 0x0, 0x0, 0xC00FFFFF, .headstock⟩,
  ⟨0x40020808, 24, 64, 1, 0, 0x0, 0x7, 0x0, 0x0, 0x0, (.granted 0 3)⟩,
  ⟨0x4002080C, 24, 64, 1, 0, 0x0, 0x1FFFFFFF, 0x0, 0x0, 0x0, (.granted 0 3)⟩,
  ⟨0x40020810, 24, 64, 1, 0, 0x0, 0x1FFFFFFF, 0x0, 0x0, 0x0, (.granted 0 3)⟩,
  ⟨0x40020814, 24, 64, 1, 0, 0x0, 0x0, 0x0, 0x0, 0x0, .status⟩,
  ⟨0x40020818, 24, 64, 1, 0, 0x0, 0x0, 0x0, 0x0, 0x0, .status⟩,
  ⟨0x4002081C, 24, 64, 1, 0, 0x0, 0x0, 0x0, 0x0, 0x0, .status⟩,
  ⟨0x40020820, 24, 64, 1, 0, 0x0, 0x0, 0x0, 0x0, 0x0, .status⟩,
  ⟨0x40020824, 24, 64, 1, 0, 0x0, 0x0, 0x0, 0x0, 0x0, .status⟩,
  ⟨0x40020828, 24, 64, 1, 0, 0x0, 0x0, 0x0, 0x0, 0x0, .status⟩,
  ⟨0x4002082C, 24, 64, 1, 0, 0x0, 0x0, 0x0, 0x0, 0x0, .status⟩]

/-- The rows of block GLK. -/
def rowsGLK : List RegRow := [
  ⟨0x40030000, 1, 0, 1, 0, 0x0, 0x0, 0x0, 0x0, 0x0, .status⟩,
  ⟨0x40030100, 8, 128, 1, 0, 0x32000000, 0x0, 0x0, 0x0, 0xFFF00000, .headstock⟩,
  ⟨0x40030104, 8, 128, 1, 0, 0x320064, 0x0, 0x0, 0x0, 0x1FF07FF, .headstock⟩,
  ⟨0x40030108, 8, 128, 1, 0, 0x7D000000, 0x0, 0x0, 0x0, 0xFF001FFF, .headstock⟩,
  ⟨0x40030110, 8, 128, 1, 0, 0x0, 0x0, 0x0, 0x0, 0x0, .status⟩,
  ⟨0x40030114, 8, 128, 1, 0, 0x0, 0x0, 0x0, 0x0, 0x0, .status⟩,
  ⟨0x40030118, 8, 128, 1, 0, 0x0, 0x0, 0x0, 0x0, 0x0, .status⟩,
  ⟨0x4003011C, 8, 128, 1, 0, 0x0, 0x0, 0x0, 0x0, 0x0, .status⟩,
  ⟨0x40030120, 8, 128, 1, 0, 0x0, 0x0, 0x0, 0x0, 0x0, .status⟩,
  ⟨0x40030124, 8, 128, 1, 0, 0x0, 0x0, 0x0, 0x0, 0x0, .status⟩,
  ⟨0x40030128, 8, 128, 1, 0, 0x0, 0x0, 0x0, 0x0, 0x0, .status⟩,
  ⟨0x4003012C, 8, 128, 1, 0, 0x8000000, 0x0, 0x0, 0x0, 0x0, .status⟩,
  ⟨0x40030130, 8, 128, 1, 0, 0x0, 0x0, 0x0, 0x0, 0x0, .status⟩,
  ⟨0x40030134, 8, 128, 1, 0, 0x0, 0x0, 0x0, 0x0, 0x0, .status⟩,
  ⟨0x40030138, 8, 128, 1, 0, 0x0, 0x0, 0x0, 0x0, 0x0, .status⟩,
  ⟨0x4003013C, 8, 128, 1, 0, 0x0, 0x0, 0x0, 0x0, 0x0, .status⟩,
  ⟨0x40030140, 8, 128, 1, 0, 0x0, 0x0, 0x0, 0x0, 0x0, .status⟩,
  ⟨0x40030144, 8, 128, 1, 0, 0x0, 0x0, 0x0, 0x0, 0x0, .status⟩,
  ⟨0x40030148, 8, 128, 1, 0, 0x0, 0x0, 0x0, 0x0, 0x0, .status⟩]

/-- The rows of block FBC. -/
def rowsFBC : List RegRow := [
  ⟨0x40040000, 1, 0, 1, 0, 0x0, 0x0, 0x0, 0x0, 0x0, .status⟩,
  ⟨0x40040100, 16, 128, 1, 0, 0x1, 0x0, 0x0, 0x0, 0xFF8000FF, .headstock⟩,
  ⟨0x40040104, 16, 128, 1, 0, 0x0, 0x0, 0x0, 0x0, 0xFCFFFFFF, .headstock⟩,
  ⟨0x40040108, 16, 128, 1, 0, 0x0, 0x0, 0x0, 0x0, 0xFFFFFFFF, .headstock⟩,
  ⟨0x4004010C, 16, 128, 1, 0, 0x2710, 0x0, 0x0, 0x0, 0xC0FFFFFF, .headstock⟩,
  ⟨0x40040110, 16, 128, 1, 0, 0x0, 0x0, 0x0, 0x0, 0xFFFFFFFF, .headstock⟩,
  ⟨0x40040114, 16, 128, 1, 0, 0x0, 0x2, 0x0, 0xC, 0x0, (.granted 8 1)⟩,
  ⟨0x40040118, 16, 128, 1, 0, 0x0, 0xFFFFFFFF, 0x0, 0x0, 0x0, (.granted 8 1)⟩,
  ⟨0x4004011C, 16, 128, 1, 0, 0x0, 0x0, 0x0, 0x0, 0x0, .status⟩,
  ⟨0x40040120, 16, 128, 1, 0, 0x0, 0x0, 0x0, 0x0, 0x0, .status⟩,
  ⟨0x40040124, 16, 128, 1, 0, 0x0, 0x0, 0x7C00000, 0x0, 0x0, .status⟩,
  ⟨0x40040128, 16, 128, 1, 0, 0x0, 0x0, 0x0, 0x0, 0x0, .status⟩,
  ⟨0x4004012C, 16, 128, 1, 0, 0x0, 0x0, 0x0, 0x0, 0x0, .status⟩,
  ⟨0x40040130, 16, 128, 1, 0, 0x0, 0x0, 0x0, 0x0, 0x0, .status⟩,
  ⟨0x40040134, 16, 128, 1, 0, 0x0, 0x0, 0x0, 0x0, 0x0, .status⟩,
  ⟨0x40040138, 16, 128, 1, 0, 0x0, 0x0, 0x0, 0x0, 0x0, .status⟩,
  ⟨0x4004013C, 16, 128, 1, 0, 0x0, 0x0, 0x0, 0x0, 0x0, .status⟩,
  ⟨0x40040140, 16, 128, 1, 0, 0x0, 0x0, 0x0, 0x0, 0x0, .status⟩,
  ⟨0x40040144, 16, 128, 1, 0, 0x70000, 0x0, 0x0, 0x0, 0x0, .status⟩]

/-- The rows of block LPE. -/
def rowsLPE : List RegRow := [
  ⟨0x40050010, 4, 4, 1, 0, 0x0, 0x0, 0x0, 0x0, 0x0, .status⟩,
  ⟨0x40050020, 4, 4, 1, 0, 0x0, 0x0, 0x0, 0x0, 0x0, .status⟩,
  ⟨0x40050040, 4, 8, 1, 0, 0x0, 0x0, 0x0, 0x0, 0x0, .status⟩,
  ⟨0x40050044, 4, 8, 1, 0, 0x0, 0x0, 0x0, 0x0, 0x0, .status⟩,
  ⟨0x40054000, 256, 192, 1, 0, 0x0, 0x0, 0x0, 0x0, 0xFFE0FFFF, .headstock⟩,
  ⟨0x40054004, 256, 192, 1, 0, 0x0, 0x0, 0x0, 0x0, 0xFFFFFF00, .headstock⟩,
  ⟨0x40054008, 256, 192, 1, 0, 0x0, 0x0, 0x0, 0x0, 0xFFFFFF00, .headstock⟩,
  ⟨0x4005400C, 256, 192, 1, 0, 0x0, 0x0, 0x0, 0x0, 0xFFFFFF00, .headstock⟩,
  ⟨0x40054010, 256, 192, 1, 0, 0x0, 0x0, 0x0, 0x0, 0xFFFFFF00, .headstock⟩,
  ⟨0x40054014, 256, 192, 1, 0, 0x0, 0x0, 0x0, 0x0, 0xFFFFFF, .headstock⟩,
  ⟨0x40054018, 256, 192, 1, 0, 0x10001, 0x0, 0x0, 0x0, 0xFFFFFFFF, .headstock⟩,
  ⟨0x4005401C, 256, 192, 1, 0, 0x0, 0x0, 0x0, 0x0, 0xFFFFFFFF, .headstock⟩,
  ⟨0x40054020, 256, 192, 1, 0, 0x0, 0x0, 0x0, 0x0, 0xFFFFFFFF, .headstock⟩,
  ⟨0x40054024, 256, 192, 1, 0, 0x0, 0x0, 0x0, 0x0, 0xFFFFFFFF, .headstock⟩,
  ⟨0x40054028, 256, 192, 1, 0, 0x0, 0x0, 0x0, 0x0, 0xFFFFFFFF, .headstock⟩,
  ⟨0x4005402C, 256, 192, 3, 8, 0x3F800000, 0x0, 0x0, 0x0, 0xFFFFFFFF, .headstock⟩,
  ⟨0x40054030, 256, 192, 3, 8, 0x0, 0x0, 0x0, 0x0, 0xFFFFFFFF, .headstock⟩,
  ⟨0x40054050, 256, 192, 1, 0, 0x0, 0xFFFFFFFF, 0x0, 0x0, 0x0, (.granted 40 64)⟩,
  ⟨0x40054054, 256, 192, 1, 0, 0x0, 0xFFFFFFFF, 0x0, 0x0, 0x0, (.granted 40 64)⟩,
  ⟨0x40054058, 256, 192, 1, 0, 0x0, 0x7, 0x0, 0x0, 0x0, (.granted 40 64)⟩,
  ⟨0x40054060, 256, 192, 1, 0, 0x0, 0x0, 0x0, 0x0, 0x0, .status⟩,
  ⟨0x40054064, 256, 192, 1, 0, 0x0, 0x0, 0x0, 0x0, 0x0, .status⟩,
  ⟨0x40054068, 256, 192, 1, 0, 0x0, 0x0, 0x0, 0x0, 0x0, .status⟩,
  ⟨0x4005406C, 256, 192, 1, 0, 0x0, 0x0, 0x0, 0x0, 0x0, .status⟩,
  ⟨0x40054070, 256, 192, 1, 0, 0x0, 0x0, 0x0, 0x0, 0x0, .status⟩,
  ⟨0x40054074, 256, 192, 1, 0, 0x0, 0x0, 0x0, 0x0, 0x0, .status⟩,
  ⟨0x40054078, 256, 192, 1, 0, 0x0, 0x0, 0x0, 0x0, 0x0, .status⟩,
  ⟨0x4005407C, 256, 192, 1, 0, 0x0, 0x0, 0x0, 0x0, 0x0, .status⟩,
  ⟨0x40054080, 256, 192, 8, 4, 0x0, 0xFFFFFFFF, 0x0, 0x0, 0x0, (.granted 40 64)⟩,
  ⟨0x400540A0, 256, 192, 1, 0, 0x0, 0x0, 0x0, 0x0, 0x0, .status⟩,
  ⟨0x400540A4, 256, 192, 7, 4, 0x0, 0x0, 0x0, 0x0, 0x0, .status⟩]

/-- The rows of block SLP. -/
def rowsSLP : List RegRow := [
  ⟨0x40060000, 1, 0, 1, 0, 0x0, 0x0, 0x0, 0x0, 0x0, .status⟩,
  ⟨0x40060004, 1, 0, 1, 0, 0x0, 0x0, 0x0, 0x0, 0x0, .status⟩,
  ⟨0x40060008, 1, 0, 1, 0, 0x3, 0x0, 0x0, 0x0, 0x0, .status⟩,
  ⟨0x40060100, 3, 64, 1, 0, 0x3020000, 0x0, 0x0, 0x0, 0xE30F0FFF, .headstock⟩,
  ⟨0x40060104, 3, 64, 1, 0, 0x0, 0x0, 0x0, 0x0, 0x0, .status⟩,
  ⟨0x40060108, 3, 64, 1, 0, 0x0, 0x0, 0x0, 0x0, 0x0, .status⟩,
  ⟨0x4006010C, 3, 64, 1, 0, 0x0, 0x0, 0x0, 0x0, 0x0, .status⟩,
  ⟨0x40060110, 3, 64, 1, 0, 0x0, 0x0, 0x0, 0x0, 0x0, .status⟩,
  ⟨0x40060114, 3, 64, 1, 0, 0x0, 0x0, 0x0, 0x0, 0x0, .status⟩,
  ⟨0x40060118, 3, 64, 1, 0, 0x0, 0x0, 0x0, 0x0, 0x0, .status⟩,
  ⟨0x4006011C, 3, 64, 1, 0, 0x0, 0x0, 0x0, 0x0, 0x0, .status⟩,
  ⟨0x40060120, 3, 64, 1, 0, 0x0, 0x0, 0x0, 0x0, 0x0, .status⟩,
  ⟨0x40060124, 3, 64, 1, 0, 0x0, 0x0, 0x0, 0x0, 0x0, .status⟩,
  ⟨0x40060128, 3, 64, 1, 0, 0x0, 0x0, 0x0, 0x0, 0x0, .status⟩]

/-- The rows of block TLY. -/
def rowsTLY : List RegRow := [
  ⟨0x40070000, 1, 0, 1, 0, 0x1, 0x80000000, 0x0, 0x0, 0x7F, .headstock⟩,
  ⟨0x40070004, 1, 0, 1, 0, 0x0, 0x0, 0x0, 0x0, 0x0, .status⟩,
  ⟨0x40070008, 1, 0, 1, 0, 0x1, 0x0, 0x0, 0x0, 0x0, .status⟩,
  ⟨0x4007000C, 1, 0, 1, 0, 0x0, 0x0, 0x0, 0x0, 0x0, .status⟩,
  ⟨0x40070010, 1, 0, 1, 0, 0x80000000, 0x0, 0x0, 0x0, 0x0, .status⟩,
  ⟨0x40070014, 1, 0, 1, 0, 0x0, 0x0, 0x0, 0x0, 0x0, .status⟩,
  ⟨0x40070018, 1, 0, 1, 0, 0x0, 0x0, 0x0, 0x0, 0x0, .status⟩,
  ⟨0x40070020, 1, 0, 1, 0, 0x0, 0x0, 0x0, 0xFFFFFF0F, 0x0, .anyCore⟩,
  ⟨0x40070024, 1, 0, 1, 0, 0x3F, 0x0, 0x0, 0x0, 0xFFFF, .headstock⟩,
  ⟨0x40070040, 8, 4, 1, 0, 0x0, 0x0, 0x0, 0x0, 0x0, .status⟩,
  ⟨0x40070080, 8, 4, 1, 0, 0x0, 0x0, 0x0, 0x0, 0x0, .status⟩,
  ⟨0x400700C0, 8, 4, 1, 0, 0x0, 0x0, 0xFFFFFFFF, 0x0, 0x0, .newFlags⟩,
  ⟨0x40070100, 8, 4, 1, 0, 0x0, 0x0, 0xFFFFFFFF, 0x0, 0x0, .newFlags⟩,
  ⟨0x40070140, 8, 4, 1, 0, 0x0, 0x0, 0x0, 0x0, 0x0, .status⟩,
  ⟨0x40070400, 256, 4, 1, 0, 0xC8006400, 0xFFFFFFFF, 0x0, 0x0, 0x0, .headstock⟩,
  ⟨0x40071000, 256, 16, 1, 0, 0x0, 0x0, 0x0, 0x0, 0x0, .status⟩,
  ⟨0x40071004, 256, 16, 1, 0, 0x0, 0x0, 0x0, 0x0, 0x0, .status⟩,
  ⟨0x40071008, 256, 16, 1, 0, 0x0, 0x0, 0x0, 0x0, 0x0, .status⟩,
  ⟨0x4007100C, 256, 16, 1, 0, 0x0, 0x0, 0x0, 0x0, 0x0, .status⟩]

/-- The rows of block TSK. -/
def rowsTSK : List RegRow := [
  ⟨0x40080000, 1, 0, 1, 0, 0x0, 0x0, 0x0, 0x0, 0x0, .status⟩,
  ⟨0x40080004, 1, 0, 1, 0, 0xA0032, 0x0, 0x0, 0x0, 0xFF00FF, .headstock⟩,
  ⟨0x40080008, 1, 0, 1, 0, 0x3, 0xF071F, 0x0, 0x0, 0x0, .headstock⟩,
  ⟨0x4008000C, 1, 0, 1, 0, 0x0, 0xFFFFFFFF, 0x0, 0x0, 0x0, .headstock⟩,
  ⟨0x40080010, 1, 0, 1, 0, 0x0, 0xFFFFFFFF, 0x0, 0x0, 0x0, .headstock⟩,
  ⟨0x40080020, 1, 0, 1, 0, 0xFF, 0x0, 0x0, 0x0, 0x0, .status⟩,
  ⟨0x40080024, 1, 0, 1, 0, 0x0, 0x0, 0x0, 0x0, 0x0, .status⟩,
  ⟨0x40080028, 1, 0, 1, 0, 0x0, 0x0, 0x0, 0x0, 0x0, .status⟩,
  ⟨0x40080100, 8, 8, 1, 0, 0x64001E, 0x0, 0x0, 0x0, 0xE3FF03FF, .headstock⟩,
  ⟨0x40080104, 8, 8, 1, 0, 0x0, 0x0, 0x0, 0x0, 0x3FF, .headstock⟩,
  ⟨0x40080180, 8, 4, 1, 0, 0x0, 0x0, 0x0, 0x0, 0x0, .status⟩,
  ⟨0x40080200, 8, 8, 1, 0, 0xA0000, 0x0, 0x0, 0x0, 0x803F00FF, .headstock⟩,
  ⟨0x40080204, 8, 8, 1, 0, 0x3E80000, 0x0, 0x0, 0x0, 0xFFFFFFFF, .headstock⟩,
  ⟨0x40080240, 1, 0, 1, 0, 0x0, 0xFF, 0x0, 0x0, 0x0, .headstock⟩,
  ⟨0x40080244, 1, 0, 1, 0, 0x0, 0x0, 0x0, 0x0, 0x0, .status⟩,
  ⟨0x40080260, 1, 0, 1, 0, 0x0, 0x0, 0x0, 0x0, 0x0, .status⟩,
  ⟨0x40080264, 1, 0, 1, 0, 0x0, 0x0, 0x0, 0x0, 0x0, .status⟩,
  ⟨0x40080280, 1, 0, 1, 0, 0x0, 0x0, 0x0, 0x0, 0x800000FF, .headstock⟩,
  ⟨0x40080284, 1, 0, 1, 0, 0x0, 0x0, 0x0, 0x0, 0x0, .status⟩,
  ⟨0x40080288, 1, 0, 1, 0, 0x0, 0x0, 0x0, 0x0, 0x0, .status⟩,
  ⟨0x4008028C, 1, 0, 1, 0, 0x0, 0x0, 0x0, 0xFFFFFFFF, 0x0, .entryGroup⟩,
  ⟨0x40080290, 1, 0, 1, 0, 0x0, 0x0, 0x0, 0x0, 0x0, .status⟩]

/-- The rows of block ANW. -/
def rowsANW : List RegRow := [
  ⟨0x40090000, 1, 0, 1, 0, 0x40000, 0x0, 0x0, 0x0, 0xE0FF003F, .headstock⟩,
  ⟨0x40090004, 1, 0, 1, 0, 0x90000000, 0x0, 0x0, 0x0, 0x98000000, .headstock⟩,
  ⟨0x40090008, 1, 0, 1, 0, 0x0, 0x0, 0x0, 0x0, 0x0, .status⟩,
  ⟨0x4009000C, 1, 0, 1, 0, 0x0, 0x0, 0x0, 0x0, 0x0, .status⟩,
  ⟨0x40090010, 1, 0, 1, 0, 0x0, 0x0, 0x0, 0x0, 0x0, .status⟩,
  ⟨0x40090014, 1, 0, 1, 0, 0x0, 0x0, 0x0, 0x0, 0x0, .status⟩,
  ⟨0x40090018, 1, 0, 1, 0, 0x0, 0x0, 0x0, 0x0, 0x0, .status⟩,
  ⟨0x4009001C, 1, 0, 1, 0, 0x0, 0x0, 0x0, 0x0, 0x0, .status⟩,
  ⟨0x40090020, 1, 0, 1, 0, 0x0, 0x0, 0x0, 0x0, 0x0, .status⟩,
  ⟨0x40090024, 1, 0, 1, 0, 0x0, 0x0, 0x0, 0x0, 0x0, .status⟩,
  ⟨0x40090028, 1, 0, 1, 0, 0x20500000, 0x0, 0x0, 0x0, 0xFFF00000, .headstock⟩,
  ⟨0x40090040, 4, 8, 1, 0, 0x0, 0x0, 0x0, 0x0, 0xC0000000, .headstock⟩,
  ⟨0x40090044, 4, 8, 1, 0, 0x0, 0x0, 0x0, 0x0, 0xFFFFFFFF, .headstock⟩,
  ⟨0x40090080, 1, 0, 1, 0, 0x0, 0x0, 0x0, 0x1FF, 0x0, .flowUnit⟩,
  ⟨0x400900C0, 16, 4, 1, 0, 0x0, 0x0, 0x0, 0x0, 0x0, .status⟩,
  ⟨0x40091000, 512, 32, 1, 0, 0x0, 0x0, 0x0, 0x0, 0xFBFFFFFF, .headstock⟩,
  ⟨0x40091004, 512, 32, 1, 0, 0x0, 0x0, 0x0, 0x0, 0x7FFFFFF, .headstock⟩,
  ⟨0x40091008, 512, 32, 4, 4, 0x0, 0x0, 0x0, 0x0, 0xF3FF807F, .headstock⟩,
  ⟨0x40091018, 512, 32, 1, 0, 0xFF, 0x0, 0x0, 0x0, 0x0, .status⟩,
  ⟨0x4009101C, 512, 32, 1, 0, 0x0, 0x0, 0x0, 0x0, 0x0, .status⟩]

/-- The rows of block AST. -/
def rowsAST : List RegRow := [
  ⟨0x400A0000, 1, 0, 1, 0, 0x0, 0x0, 0x0, 0x0, 0xC0000000, .headstock⟩,
  ⟨0x400A0004, 1, 0, 1, 0, 0x1010CC64, 0x0, 0x0, 0x0, 0xFFFFFFFF, .headstock⟩,
  ⟨0x400A0008, 1, 0, 1, 0, 0x0, 0x0, 0x0, 0x0, 0x0, .status⟩,
  ⟨0x400A000C, 1, 0, 1, 0, 0x0, 0x0, 0x0, 0x0, 0x0, .status⟩,
  ⟨0x400A0100, 9, 64, 1, 0, 0x50000000, 0x0, 0x0, 0x0, 0xDC0003FF, .headstock⟩,
  ⟨0x400A0104, 9, 64, 1, 0, 0x0, 0x0, 0x0, 0x0, 0xFFFFFFFF, .headstock⟩,
  ⟨0x400A0108, 9, 64, 1, 0, 0x0, 0x0, 0x0, 0x0, 0xFFFFFFFF, .headstock⟩,
  ⟨0x400A010C, 9, 64, 1, 0, 0x0, 0x0, 0x0, 0x0, 0x0, .status⟩,
  ⟨0x400A0110, 9, 64, 1, 0, 0x0, 0x0, 0x0, 0x0, 0x0, .status⟩,
  ⟨0x400A0114, 9, 64, 1, 0, 0x0, 0x0, 0x0, 0x0, 0x0, .status⟩,
  ⟨0x400A0118, 9, 64, 1, 0, 0x0, 0x0, 0x0, 0x0, 0x0, .status⟩,
  ⟨0x400A011C, 9, 64, 1, 0, 0x0, 0x0, 0x0, 0x0, 0x0, .status⟩,
  ⟨0x400A0120, 9, 64, 1, 0, 0x0, 0x0, 0x0, 0x0, 0x0, .status⟩,
  ⟨0x400A2000, 4, 1024, 256, 4, 0x0, 0x0, 0x0, 0x0, 0xBFFFFC7F, .headstock⟩,
  ⟨0x400A8000, 1, 0, 1, 0, 0x0, 0xFF, 0x0, 0x0, 0x0, .headstock⟩,
  ⟨0x400A8004, 1, 0, 1, 0, 0x0, 0x0, 0x0, 0x0, 0x0, .status⟩,
  ⟨0x400A8100, 8, 16, 1, 0, 0x0, 0xFFFFFFFF, 0x0, 0x0, 0x0, .headstock⟩,
  ⟨0x400A8104, 8, 16, 1, 0, 0x0, 0xFFFFFFFF, 0x0, 0x0, 0x0, .headstock⟩,
  ⟨0x400A8108, 8, 16, 1, 0, 0x0, 0xFFFFFFFF, 0x0, 0x0, 0x0, .headstock⟩,
  ⟨0x400A810C, 8, 16, 1, 0, 0x0, 0x0, 0x0, 0x0, 0x0, .status⟩,
  ⟨0x400A9000, 64, 8, 1, 0, 0x0, 0x0, 0x0, 0x0, 0x0, .status⟩,
  ⟨0x400A9004, 64, 8, 1, 0, 0x0, 0x0, 0x0, 0x0, 0x0, .status⟩]

/-- The rows of block QUE. -/
def rowsQUE : List RegRow := [
  ⟨0x400B0000, 1, 0, 1, 0, 0x0, 0x0, 0x0, 0x0, 0x0, .status⟩,
  ⟨0x400B0040, 4, 4, 1, 0, 0x0, 0x0, 0xFFFFFFFF, 0x0, 0x0, .quePend⟩,
  ⟨0x400B0100, 128, 32, 1, 0, 0x0, 0xFFFFC00F, 0x0, 0x0, 0x0, .headstock⟩,
  ⟨0x400B0104, 128, 32, 1, 0, 0x0, 0xFFFFFFC0, 0x0, 0x0, 0x0, .headstock⟩,
  ⟨0x400B0108, 128, 32, 1, 0, 0x0, 0x0, 0x0, 0x1FFF, 0x0, .queEnd⟩,
  ⟨0x400B010C, 128, 32, 1, 0, 0x0, 0x0, 0x0, 0x1FFF, 0x0, .queEnd⟩,
  ⟨0x400B0110, 128, 32, 1, 0, 0x0, 0x0, 0x0, 0x1FFF, 0x0, .queEnd⟩,
  ⟨0x400B0114, 128, 32, 1, 0, 0x0, 0x0, 0x0, 0x0, 0x0, .status⟩,
  ⟨0x400B0118, 128, 32, 1, 0, 0x0, 0x0, 0x0, 0x0, 0x0, .status⟩,
  ⟨0x400B011C, 128, 32, 1, 0, 0x0, 0x0, 0x0, 0x0, 0x0, .status⟩]

/-- The rows of block ARB. -/
def rowsARB : List RegRow := [
  ⟨0x400C0000, 1, 0, 1, 0, 0x0, 0x0, 0x0, 0x0, 0x0, .status⟩,
  ⟨0x400C0100, 34, 256, 1, 0, 0x1000, 0xFF00, 0x0, 0x80000000, 0x0, .headstock⟩,
  ⟨0x400C0104, 34, 256, 1, 0, 0x0, 0x0, 0x0, 0x0, 0x0, .status⟩,
  ⟨0x400C0108, 34, 256, 1, 0, 0x0, 0xFFFFFFFF, 0x0, 0x0, 0x0, .headstock⟩,
  ⟨0x400C010C, 34, 256, 1, 0, 0x0, 0xFFFFFFFF, 0x0, 0x0, 0x0, .headstock⟩,
  ⟨0x400C0110, 34, 256, 1, 0, 0x0, 0x0, 0xFFFF0000, 0x0, 0x0, .status⟩,
  ⟨0x400C0114, 34, 256, 1, 0, 0x0, 0x0, 0x0, 0x0, 0x0, .status⟩,
  ⟨0x400C0118, 34, 256, 1, 0, 0x0, 0x0, 0x0, 0x0, 0x0, .status⟩,
  ⟨0x400C0120, 34, 256, 4, 4, 0x0, 0x0, 0x0, 0x0, 0x0, .status⟩,
  ⟨0x400C0140, 34, 256, 32, 4, 0x0, 0xFFFFFFFF, 0x0, 0x0, 0x0, .headstock⟩]

/-- The rows of block STY. -/
def rowsSTY : List RegRow := [
  ⟨0x400D0000, 1, 0, 1, 0, 0x80000000, 0x0, 0x0, 0x0, 0x0, .status⟩,
  ⟨0x400D0004, 1, 0, 1, 0, 0x0, 0x0, 0x0, 0x0, 0x0, .status⟩,
  ⟨0x400D0008, 1, 0, 1, 0, 0x0, 0x0, 0x80000000, 0x0, 0x0, .status⟩,
  ⟨0x400D000C, 1, 0, 1, 0, 0x0, 0x0, 0x0, 0x0, 0x0, .status⟩,
  ⟨0x400D0010, 1, 0, 1, 0, 0x0, 0x0, 0x0, 0x0, 0x0, .status⟩]

/-- The rows of block HMB. -/
def rowsHMB : List RegRow := [
  ⟨0x400E0000, 1, 0, 1, 0, 0x0, 0x0, 0x0, 0x0, 0x0, .status⟩,
  ⟨0x400E0100, 8, 32, 1, 0, 0x800003FE, 0x0, 0x0, 0x0, 0xFC0003FE, .headstock⟩,
  ⟨0x400E0104, 8, 32, 1, 0, 0x0, 0x0, 0x0, 0x0, 0x1FF01FF, .headstock⟩,
  ⟨0x400E0108, 8, 32, 1, 0, 0x0, 0x0, 0x0, 0x0, 0x0, .status⟩,
  ⟨0x400E010C, 8, 32, 1, 0, 0x0, 0x0, 0x0, 0x0, 0x0, .status⟩,
  ⟨0x400E0110, 8, 32, 1, 0, 0x0, 0x0, 0x0, 0x0, 0x0, .status⟩]

/-- The rows of block SEC. -/
def rowsSEC : List RegRow := [
  ⟨0x400F0000, 1, 0, 1, 0, 0x0, 0x0, 0x0, 0x0, 0x0, .status⟩,
  ⟨0x400F0004, 1, 0, 1, 0, 0x0, 0x0, 0x0, 0x0, 0x0, .status⟩,
  ⟨0x400F0010, 8, 4, 1, 0, 0x0, 0x0, 0x0, 0x0, 0x0, .status⟩,
  ⟨0x400F0030, 1, 0, 1, 0, 0x0, 0x0, 0x0, 0x0, 0x0, .status⟩,
  ⟨0x400F0800, 256, 4, 1, 0, 0x0, 0xFFFFFFFF, 0x0, 0x0, 0x0, .headstock⟩]

/-- The rows of block NCH. -/
def rowsNCH : List RegRow := [
  ⟨0x40100000, 5, 4, 1, 0, 0x0, 0x0, 0x0, 0x0, 0x0, .status⟩,
  ⟨0x40100020, 1, 0, 1, 0, 0x0, 0x0, 0x0, 0x0, 0x0, .status⟩,
  ⟨0x40100024, 1, 0, 1, 0, 0x0, 0x0, 0x0, 0x0, 0x0, .status⟩,
  ⟨0x40100030, 1, 0, 1, 0, 0x0, 0x0, 0x0, 0x0, 0x0, .status⟩,
  ⟨0x40100034, 1, 0, 1, 0, 0x0, 0x0, 0x0, 0x0, 0x0, .status⟩,
  ⟨0x40100038, 1, 0, 1, 0, 0x0, 0x0, 0x0, 0x0, 0x0, .status⟩,
  ⟨0x40100040, 1, 0, 1, 0, 0x0, 0x0, 0x0, 0x0, 0x0, .status⟩]

/-- The rows of block PMU. -/
def rowsPMU : List RegRow := [
  ⟨0x40110000, 1, 0, 1, 0, 0x803, 0x0, 0x0, 0x0, 0x0, .status⟩,
  ⟨0x40110004, 1, 0, 1, 0, 0x0, 0x0, 0x0, 0x0, 0x0, .status⟩,
  ⟨0x40110008, 1, 0, 1, 0, 0x8726C03C, 0x0, 0x0, 0x0, 0xFF3FF3FF, .headstock⟩,
  ⟨0x4011000C, 1, 0, 1, 0, 0x1, 0x0, 0x0, 0x0, 0x7, .headstock⟩,
  ⟨0x40110010, 1, 0, 1, 0, 0xA, 0x0, 0x0, 0x0, 0xFFFF, .headstock⟩,
  ⟨0x40110014, 1, 0, 1, 0, 0x0, 0x0, 0x0, 0xFF, 0x0, .headstock⟩,
  ⟨0x40110018, 1, 0, 1, 0, 0x1900064, 0x0, 0x0, 0x0, 0x7FF03FF, .headstock⟩,
  ⟨0x40110020, 1, 0, 1, 0, 0x0, 0x0, 0x0, 0x0, 0x0, .status⟩,
  ⟨0x40110024, 1, 0, 1, 0, 0x0, 0x0, 0x0, 0x0, 0x0, .status⟩,
  ⟨0x40110028, 1, 0, 1, 0, 0x0, 0x0, 0x0, 0x0, 0x0, .status⟩]

/-- The rows of block LBR. -/
def rowsLBR : List RegRow := [
  ⟨0x40120000, 2, 4, 1, 0, 0x0, 0x0, 0x0, 0x0, 0x0, .status⟩,
  ⟨0x40120010, 2, 4, 1, 0, 0x0, 0x0, 0x0, 0x0, 0x0, .status⟩,
  ⟨0x40120040, 1, 0, 1, 0, 0x0, 0x0, 0x0, 0x0, 0x803F00FF, .headstock⟩,
  ⟨0x40120044, 1, 0, 1, 0, 0x0, 0x0, 0x0, 0x0, 0x0, .status⟩,
  ⟨0x40120048, 1, 0, 1, 0, 0x0, 0x0, 0x0, 0x0, 0x0, .status⟩,
  ⟨0x40120100, 48, 8, 1, 0, 0x0, 0x0, 0x0, 0x0, 0xFFFFFFFF, .headstock⟩,
  ⟨0x40120104, 48, 8, 1, 0, 0x200, 0x0, 0x0, 0x0, 0x333, .headstock⟩,
  ⟨0x40120400, 48, 8, 1, 0, 0x0, 0x0, 0x0, 0x0, 0x0, .status⟩,
  ⟨0x40120404, 48, 8, 1, 0, 0x0, 0x0, 0x0, 0x0, 0x0, .status⟩]

/-- The rows of block DBG. -/
def rowsDBG : List RegRow := [
  ⟨0x40130000, 1, 0, 1, 0, 0x0, 0x0, 0x0, 0x0, 0x0, .status⟩,
  ⟨0x40130010, 4, 4, 1, 0, 0x0, 0xC00003FF, 0x0, 0x0, 0x0, .headstock⟩,
  ⟨0x40130020, 1, 0, 1, 0, 0x0, 0x0, 0x0, 0x0, 0x0, .status⟩,
  ⟨0x40131000, 256, 8, 1, 0, 0x0, 0x0, 0x0, 0x0, 0x0, .status⟩,
  ⟨0x40131004, 256, 8, 1, 0, 0x0, 0x0, 0x0, 0x0, 0x0, .status⟩]

/-- The rows of block ADC. -/
def rowsADC : List RegRow := [
  ⟨0x40140000, 1, 0, 1, 0, 0x0, 0x0, 0x0, 0x0, 0x8000FFFF, .headstock⟩,
  ⟨0x40140040, 1, 0, 1, 0, 0x0, 0x0, 0x0, 0xFFFF, 0x0, (.granted 44 1)⟩,
  ⟨0x40140044, 1, 0, 1, 0, 0x0, 0x0, 0x0, 0x0, 0x0, .status⟩,
  ⟨0x40140100, 16, 4, 1, 0, 0x0, 0x0, 0x0, 0x0, 0x8000FFFF, .headstock⟩,
  ⟨0x40140200, 16, 4, 1, 0, 0x0, 0x0, 0x0, 0x0, 0x0, .status⟩]

/-- The rows of block CAN. -/
def rowsCAN : List RegRow := [
  ⟨0x40150100, 2, 64, 1, 0, 0x0, 0x0, 0x0, 0x0, 0xE07F007F, .headstock⟩,
  ⟨0x40150104, 2, 64, 1, 0, 0x0, 0x0, 0x0, 0x0, 0xFFFFFFFF, .headstock⟩,
  ⟨0x40150108, 2, 64, 1, 0, 0x0, 0x0, 0x0, 0x0, 0xFFFFFFFF, .headstock⟩,
  ⟨0x4015010C, 2, 64, 1, 0, 0x0, 0x0, 0x0, 0x3, 0x0, (.granted 45 1)⟩,
  ⟨0x40150110, 2, 64, 1, 0, 0x0, 0x0, 0x0, 0x0, 0x0, .status⟩]

/-- The rows of block SPI. -/
def rowsSPI : List RegRow := [
  ⟨0x40160000, 1, 0, 1, 0, 0x80000000, 0x0, 0x0, 0x0, 0x80000000, .headstock⟩,
  ⟨0x40160004, 1, 0, 1, 0, 0x0, 0x0, 0x0, 0x0, 0x0, .status⟩]

/-- The rows of the block whose 64 KiB begin at 0x4000_0000 + 0x1_0000 × `b` (Table LANE-3). -/
def blockRows (b : Nat) : List RegRow :=
  match b with
  | 0 => rowsLANE
  | 1 => rowsSPN
  | 2 => rowsPWM
  | 3 => rowsGLK
  | 4 => rowsFBC
  | 5 => rowsLPE
  | 6 => rowsSLP
  | 7 => rowsTLY
  | 8 => rowsTSK
  | 9 => rowsANW
  | 10 => rowsAST
  | 11 => rowsQUE
  | 12 => rowsARB
  | 13 => rowsSTY
  | 14 => rowsHMB
  | 15 => rowsSEC
  | 16 => rowsNCH
  | 17 => rowsPMU
  | 18 => rowsLBR
  | 19 => rowsDBG
  | 20 => rowsADC
  | 21 => rowsCAN
  | 22 => rowsSPI
  | _ => []

/-- Where an address falls in a row: the two indices. -/
def RegRow.find (r : RegRow) (a : Nat) : Option (Nat × Nat) :=
  if a < r.base then none else
  let d := a - r.base
  let i := if r.s1 = 0 then 0 else min (d / r.s1) (r.n1 - 1)
  let e := d - i * r.s1
  if r.n2 ≤ 1 then (if e = 0 then some (i, 0) else none)
  else if e % r.s2 = 0 ∧ e / r.s2 < r.n2 then some (i, e / r.s2) else none

/-- The row of an address in a list of rows, with the indices. -/
def findRow (a : Nat) : List RegRow → Option (RegRow × Nat × Nat)
  | [] => none
  | r :: rs =>
    match r.find a with
    | some (i, j) => some (r, i, j)
    | none => findRow a rs

/-- The register at a lane address: its row and indices. -/
def regRow (a : Nat) : Option (RegRow × Nat × Nat) :=
  if a < 0x40000000 ∨ a % 4 ≠ 0 then none else findRow a (blockRows ((a - 0x40000000) / 0x10000))

end Sys2Proof.Machine
end

