-- ==== Sys2Proof/Machine/State.lean ====
section
/-! DEFINITION. What one lane holds: every register (one sparse register file keyed by lane address, over the rows
of RegMap), its memory, its flash and one-time-programmable store, and the state that the spec gives the blocks
beside their registers. `State.reset` is the lane just after a power reset. -/

namespace Sys2Proof.Machine

/-- Why a command has no meaning. -/
inductive Refusal where
  /-- The command has no meaning yet. Raised by an arm of `exec` only. Safe: the run stops. -/
  | notModelled (mnemonic : String)
  deriving DecidableEq, Repr

/-- Why the machine stops. -/
inductive Fault where
  /-- Raised by nobody: the spec gives every access and every command an effect (R22), so no run stops. Safe. -/
  | never
  deriving DecidableEq, Repr

/-- A finite map from numbers: keys strictly rising. -/
abbrev SMap (α : Type) := List (Nat × α)

/-! ### LANE and the bridges -/

/-- A grant move between its two steps (R30). -/
structure GrantMove where
  /-- Owner before the first step: writes issued before the move are judged against it. -/
  old : Nat := 0
  new : Nat := 0
  /-- The channel whose LANE_GRANT asked for the move; none when a service or an activation did. -/
  ch : Option Nat := none
  /-- The owner to whom the unit moves on once this move has ended. -/
  next : Option Nat := none
  deriving DecidableEq, Repr, Inhabited

/-- A heartbeat's fields (Table LANE-8). -/
structure Heartbeat where
  seq : Nat := 0
  state : Nat := 0
  ready : Bool := false
  pend : Bool := false
  profile : Nat := 0
  rmode : Nat := 0
  v : Nat := 0
  vValid : Bool := false
  pv : Nat := 0
  pvValid : Bool := false
  deriving DecidableEq, Repr, Inhabited

/-- What a lane knows of one peer beside the registers (R33, R35, R48, R297, R394, R459). -/
structure PeerSt where
  /-- Consecutive valid heartbeats, saturating at 3 (R33). -/
  run : Nat := 0
  /-- The bridge has been up since the lane's last reset (R33). -/
  everUp : Bool := false
  /-- When the last valid heartbeat arrived (elapsed ns). -/
  lastHb : Nat := 0
  /-- The newest valid heartbeat. -/
  hb : Heartbeat := {}
  /-- The two-way offset p_k and the peer's network offset (R48). -/
  poff : Int := 0
  pvalid : Bool := false
  netOff : Option Int := none
  /-- The peer's x-EFL state and count of sources in fault (R297). -/
  eflLow : Bool := false
  faults : Nat := 0
  /-- The peer reports an open update session (R394). -/
  updOpen : Bool := false
  /-- When the peer first reported READY since it last did not (R459). -/
  readyAt : Option Nat := none
  /-- GT at which the peer's heartbeats first reported SERVICE (R459). -/
  serviceGt : Option Nat := none
  /-- The peer is left out of the joint entry (R459). -/
  leftOut : Bool := false
  deriving DecidableEq, Repr, Inhabited

/-- LANE and bridge state. -/
structure LaneSt where
  /-- Grant moves in progress, by unit. -/
  moves : SMap GrantMove := []
  peers : SMap PeerSt := []
  /-- SEQ of the next heartbeat and when the last one since the reset was sent (R35). -/
  hbSeq : Nat := 0
  hbLast : Option Nat := none
  /-- The last refused access: elapsed time, address and the word LANE_FAULT_INFO takes from it (R40). -/
  lastFault : Option (Nat × Nat × Nat) := none
  /-- The lane has entered INTEGRATE since its last reset (R297). -/
  integrated : Bool := false
  /-- When the lane entered INTEGRATE, and when it became ready (R458, R459). -/
  integAt : Nat := 0
  readyAt : Option Nat := none
  /-- Owner codes of the active set's grant map, by unit (R27). -/
  grantMap : List Nat := []
  /-- GT of entry to SERVICE (R459). -/
  serviceGt : Nat := 0
  deriving DecidableEq, Repr, Inhabited

/-- What the lane has sent to the outside: messages, frames, interrupts to cores. The list is the model's own record
(DESIGN CHOICE, log entry 7). -/
inductive OutMsg where
  /-- A message on the bridge to a fitted peer (R31 to R34). -/
  | bridge (peer : Nat) (m : OutMsg)
  /-- A heartbeat (R35). -/
  | heartbeat (payload : List Byte)
  /-- A time-class message: the sender's GT stamp and its network offset in ns, where valid (R34, R48). -/
  | time (gt : Nat) (netOff : Option Int)
  /-- A summary-class message (R297). -/
  | summary (eflLow : Bool) (faults : Nat)
  /-- A vote-class message (R250). -/
  | vote (v : Vote)
  /-- A bulk-class message of a module command (R398). -/
  | bulk (msg : Bulk)
  | commit (msg : CommitMsg)
  /-- Update coordination: whether a session is open (R394). -/
  | updSession (isOpen : Bool)
  /-- Notch-log copy to the peers (R437). -/
  | logCopy (entry : Nat)
  /-- Agreement words: round, origin, tag, words (R242). -/
  | agreement (round origin tag : Nat) (words : List Nat)
  /-- An interrupt of a vector to a receiver, with the strike entry or the queue that sent it (R222, R377). -/
  | irq (owner vector src : Nat)
  /-- The Tally interrupt and trap (R288, R295). -/
  | tallyIrq (owner : Nat)
  | nmi (owner : Nat)
  /-- A downstream gate-link frame: type, payload and check (R101, R102). -/
  | glk (port kind : Nat) (payload check : List Byte)
  /-- A frame sent on an Airum port at a lane GT: bytes from the destination address on (R315, R342). -/
  | airum (port : Nat) (bytes : List Byte) (fcsOk : Bool) (gt : Nat)
  /-- A message altered at the pad by the injection unit: PARAM and FIXCHK of the rule (Table AST-2). -/
  | injected (m : OutMsg) (param : Nat) (fixchk : Bool)
  /-- A CAN frame: controller and record bytes (R406). -/
  | can (ctl : Nat) (record : List Byte)
  /-- Bytes returned on x-SPIMISO (R403). -/
  | miso (bytes : List Byte)
  /-- An output of a pair released to the lane (R217). -/
  | coreOut (pair : Nat) (out : CoreOut)
  /-- A Tailstock output switched on for 100 µs by self-test step 7 (R264, R457). -/
  | tskPulse (output : Nat)
  deriving DecidableEq, Repr

/-! ### SPN -/

/-- An outstanding instance of a strike entry (R58, R59, R63). -/
structure Inst where
  fire : Nat := 0
  deadline : Nat := 0
  cls : Nat := 0
  action : Nat := 0
  target : Nat := 0
  /-- GT at which the action completed. -/
  doneAt : Option Nat := none
  /-- The overrun has been counted. -/
  overrun : Bool := false
  deriving DecidableEq, Repr, Inhabited

/-- A strike entry beside its registers: the earliest admissible fire time (R55, R57), its outstanding instance
and its 32-bit instance count (R54). -/
structure EntrySt where
  sinceGt : Nat := 0
  inst : Option Inst := none
  count : Nat := 0
  deriving DecidableEq, Repr, Inhabited

/-- A written change of a group's enables that has not taken effect (R55). -/
structure EnPend where
  group : Nat := 0
  mask : Nat := 0
  eff : Nat := 0
  deriving DecidableEq, Repr, Inhabited

/-- Spindle state beside its registers. -/
structure SpnSt where
  /-- Upper GT word captured by each requester (R47). -/
  gtCap : SMap Nat := []
  entries : SMap EntrySt := []
  enPend : List EnPend := []
  /-- GT at the tick before: fire times after it have come due at the present tick (R53). -/
  gtLast : Nat := 0
  /-- Consecutive corrections with |SPN_OFFSET| ≤ 1, saturating at 20 (R50). -/
  fineRun : Nat := 0
  /-- Elapsed time of the last correction and of the last one with an external candidate (R49, R51). -/
  lastCorr : Nat := 0
  lastExt : Option Nat := none
  /-- Consecutive corrections with the rate at its limit while other lanes give candidates (R452). -/
  pinned : Nat := 0
  /-- When ALIGNED last became 0 (R249). -/
  unalignedAt : Nat := 0
  /-- PERIOD, PHASE and ACT that an activated set gives entries which were enabled or outstanding (R56). -/
  waiting : List (Nat × Nat × Nat × Nat) := []
  deriving DecidableEq, Repr, Inhabited

/-! ### PWM -/

/-- What a leg's plan does at an instant: the ACT codes of Table GLK-4 less SAMPLE. -/
inductive Act where
  | toHigh | toLow | allOff | hsOn | hsOff | lsOn | lsOff
  deriving DecidableEq, Repr, Inhabited

/-- A planned transition of a leg, at a time in units of 1/32 ns (R72, R111). -/
structure Trans where
  t : Nat := 0
  act : Act := .allOff
  deriving DecidableEq, Repr, Inhabited

/-- A planned switch edge of a leg: time in units of 1/32 ns, high or low switch, on or off. -/
structure Edge where
  t : Nat := 0
  hi : Bool := false
  on : Bool := false
  deriving DecidableEq, Repr, Inhabited

/-- The run-time fields of one leg in a set (R73). -/
structure LegSet where
  force : Nat := 0
  fine : Bool := false
  c : Nat := 0
  c2 : Nat := 0
  deriving DecidableEq, Repr, Inhabited

/-- A whole set of a bank's run-time fields (R73). -/
structure BankSet where
  period : Nat := 0
  l0 : LegSet := {}
  l1 : LegSet := {}
  l2 : LegSet := {}
  deriving DecidableEq, Repr, Inhabited

/-- A commit request at the bank's handshake arbiter (R75, R96). -/
structure CommitReq where
  /-- GT at which it reached the arbiter. -/
  at_ : Nat := 0
  /-- The strike entry that launched it. -/
  entry : Option Nat := none
  /-- A reload decision was granted before it (R75). -/
  lost : Bool := false
  /-- The bank stopped while it waited (R96). -/
  stopped : Bool := false
  deriving DecidableEq, Repr, Inhabited

/-- A leg beside its registers: active set, live switch commands, last turn-off times, the edges still to come and
the plan of the next period; times in 1/32 ns. -/
structure LegSt where
  act : LegSet := {}
  hiOn : Bool := false
  loOn : Bool := false
  hiOff : Option Nat := none
  loOff : Option Nat := none
  plan : List Edge := []
  next : List Edge := []
  /-- The commanded side at the end of the running plan and of the next: 0 both off, 1 high, 2 low. -/
  cmd : Nat := 0
  cmdNext : Nat := 0
  /-- The leg starts at the coming boundary (R84). -/
  starting : Bool := false
  /-- The coming period's on-times as delivered (R78), for the high and the low switch. -/
  h : Nat := 0
  h2 : Nat := 0
  /-- Was forced in the period that runs (R95). -/
  forced : Bool := false
  /-- The edge record (R86, R128): the ends less the starts of the high intervals that the output stage, or the partner,
  has made, and whether one runs. -/
  recSum : Int := 0
  recOpen : Bool := false
  /-- The 16-period audit cycle of R86: Σc, the accounting and the record at its start, whether it holds a suspended
  period; what closes at the coming boundary: Σc less the change of the accounting. -/
  sum : Int := 0
  base : Int := 0
  recBase : Int := 0
  bad : Bool := true
  closing : Option Int := none
  /-- The difference of the last cycle completed in the chain, or of the first one beyond ±1 LSB (R86, R380). -/
  cycle : Option Int := none
  deriving DecidableEq, Repr, Inhabited

/-- A bank beside its registers. -/
structure BankSt where
  /-- A first boundary has been set (R70). -/
  started : Bool := false
  /-- GT of the coming boundary and of the last one. -/
  nextB : Nat := 0
  lastB : Nat := 0
  /-- The reload decision for the coming boundary has been taken (R74). -/
  decided : Bool := false
  pend : Option BankSet := none
  /-- The set that applies at the coming boundary. -/
  coming : Option BankSet := none
  reqs : List CommitReq := []
  /-- Delay lines of the pad stage (R83): elapsed time of the last good calibration since the lane reset, GT of its
  completion while its swap waits, an episode of 52 runs. -/
  calGood : Option Nat := none
  swapAt : Option Nat := none
  calEpisode : Bool := false
  deriving DecidableEq, Repr, Inhabited

/-- PWM state beside the registers. -/
structure PwmSt where
  banks : SMap BankSt := []
  legs : SMap LegSt := []
  /-- End of the blanking window of each trip input, GT in 1/32 ns (R88). -/
  blank : SMap Nat := []
  /-- Trip inputs whose pad has been active for FILT samples, one bit each (R87). -/
  tripIn : Nat := 0
  /-- Trip inputs whose present assertion began in their blanking window, one bit each (R89). -/
  blankHit : Nat := 0
  deriving DecidableEq, Repr, Inhabited

/-! ### GLK -/

/-- An EDGE command of the running or coming period (R112, R125, R128): leg (3 for SAMPLE), ACT code, target in 1/32 ns,
GT at which it completes at the pad, once it has been started. -/
structure GlkCmd where
  leg : Nat := 0
  act : Nat := 0
  target : Nat := 0
  sentAt : Nat := 0
  deriving DecidableEq, Repr, Inhabited

/-- One requester's capture of a port's sample registers (R118). -/
structure SampCap where
  b : Nat := 0
  c : Nat := 0
  st : Nat := 0
  deriving DecidableEq, Repr, Inhabited

/-- A gate-link port beside its registers. Times `…At` are elapsed ns unless they say GT. -/
structure PortSt where
  /-- Start of the attempt, of CONFIG, of TRAIN, and of the first SYNC. -/
  attemptAt : Nat := 0
  cfgAt : Nat := 0
  trainAt : Nat := 0
  syncAt : Option Nat := none
  retryAt : Option Nat := none
  /-- The CFG payload sent and when a matching CFGACK arrived. -/
  cfg : List Byte := []
  ackAt : Option Nat := none
  locked : Bool := false
  /-- The settled rate, mode, resolution and sampling of the attempt (R105). -/
  rate : Nat := 0
  te : Bool := false
  res : Nat := 0
  samp : Nat := 0
  /-- Echo exchanges done in TRAIN and their sum, 1/32 ns; sequence of the echo sent (R108). -/
  echoes : Nat := 0
  echoSum : Nat := 0
  echoSeq : Nat := 0
  echoOut : Bool := false
  /-- GT chain of the last recheck, and elapsed time of the last SYNC. -/
  recheckGt : Nat := 0
  lastSync : Nat := 0
  /-- Elapsed time of the last downstream frame, the last LEVEL mask (R102). -/
  lastDown : Nat := 0
  level : Nat := 0
  /-- Sample instants (GT ns) of a level-mode bank still to come, and sample sets due (R116, R118). -/
  levelSamples : List Nat := []
  setsDue : List Nat := []
  /-- EDGE commands still to be started, in target order (R112). -/
  queue : List GlkCmd := []
  /-- Elapsed time at which the transmit pair is free, and the frames on it: their kinds, and when each has left it. -/
  freeAt : Nat := 0
  line : List (Nat × Nat) := []
  /-- The last TEMP reported (R129). -/
  temp : Option Int := none
  /-- Frames that wait for it: RELEASE for a leg mask (R123), an ECHO, a SYNC (R108, R115). -/
  relDue : Nat := 0
  echoDue : Bool := false
  syncDue : Bool := false
  /-- EDGE commands sent whose targets have not passed, and the count whose targets have (R128). -/
  cmds : List GlkCmd := []
  passed : Nat := 0
  /-- GT of the last STATUS start or missing point, and missing or discarded frames in a row (R124). -/
  lastStart : Nat := 0
  missRun : Nat := 0
  /-- Count of STATUS frames, and for each leg the frame that first reported its DESAT (R120). -/
  frames : Nat := 0
  desatAt : SMap Nat := []
  /-- The legs whose DESAT counts in the DUAL short in force. -/
  dualLegs : Nat := 0
  /-- Consecutive frames without each UVLO bit and without OTSD (R123). -/
  uvloClear : SMap Nat := []
  otsdClear : Nat := 0
  /-- TEMP of the last frame is at or above TWARN. -/
  hot : Bool := false
  deriving DecidableEq, Repr, Inhabited

/-- GLK state beside the registers; sample captures by requester × 8 + port. -/
structure GlkSt where
  ports : SMap PortSt := []
  caps : SMap SampCap := []
  deriving DecidableEq, Repr, Inhabited

/-! ### FBC -/

/-- A feedback channel beside its registers. -/
structure ChanFb where
  /-- It has been started since the lane reset (R148). -/
  started : Bool := false
  /-- The levels at the pads (bit 0 A, bit 1 B, bit 2 Z), the consecutive samples of each line that disagree with LVL, and
  the number of the next sample; sample k is taken at 10·k ns of elapsed time (R130). -/
  pins : Nat := 0
  agree : List Nat := []
  nextSample : Nat := 0
  /-- A preset waits for the next sample (R138). -/
  preset : Bool := false
  /-- The levels of LVL are a reference for the next step (R148). -/
  known : Bool := false
  raw : Nat := 0
  /-- The motion count: legal steps only. -/
  move : Int := 0
  /-- Speed: qualifying edges or latches seen, saturating at 2; stamp of the last one (GT), its interval, and whether it
  counted up; MOVE at the last latch (R142, R143). -/
  edges : Nat := 0
  stamp : Nat := 0
  interval : Option Nat := none
  up : Bool := true
  latchMove : Int := 0
  boundAt : Nat := 0
  /-- The index of the active Z interval has been taken (R139). -/
  zDone : Bool := false
  /-- The watch for a missing index runs (R141). -/
  watch : Bool := false
  /-- An illegal step was recorded while SUSPECT was set; ends with SUSPECT (R197). -/
  illSusp : Bool := false
  /-- SENT: calibration length and frame length of the previous frame in 10 ns, when a valid frame last arrived. -/
  prevCal : Option Nat := none
  prevLen : Nat := 0
  validAt : Nat := 0
  /-- Slow channel: bits 3 and 2 of the status nibbles of successive valid frames, newest first (R146). -/
  serial : List (Bool × Bool) := []
  deriving DecidableEq, Repr, Inhabited

/-- One requester's capture of FBC_POSHIn and FBC_STATn, each for one read (R137). -/
structure FbCap where
  hi : Option Nat := none
  st : Option Nat := none
  deriving DecidableEq, Repr, Inhabited

/-- FBC state beside the registers; captures by requester × 16 + channel. -/
structure FbcSt where
  chans : SMap ChanFb := []
  caps : SMap FbCap := []
  deriving DecidableEq, Repr, Inhabited

/-! ### LPE and the service converter -/

/-- A selector of a context (Table LPE-3): the last valid raw value, its age in samples, and the count its source had
at the last sample. -/
structure SelSt where
  last : Nat := 0
  age : Nat := 0
  mark : Option Nat := none
  deriving DecidableEq, Repr, Inhabited

/-- A loop context beside its registers: what a start clears (R154). -/
structure CtxSt where
  mprev : Option Nat := none
  /-- The d-axis integrator of FOC; INTG holds the other integrators, history word 0 holds D or s2 (R162 to R164). -/
  iD : Nat := 0
  /-- ud of the previous sample (R168). -/
  udPrev : Nat := 0
  /-- The model of R176: samples with an output since the start (at most 2), m and u of the last one. -/
  outs : Nat := 0
  mLast : Nat := 0
  uLast : Nat := 0
  /-- Consecutive samples in the load band while F is in force (R178). -/
  bandRun : Nat := 0
  /-- State slots written since the start (R155). -/
  slots : Nat := 0
  sel0 : SelSt := {}
  sel1 : SelSt := {}
  sel2 : SelSt := {}
  /-- FOC: the elements of the last valid capture read (R159). -/
  elems : List Nat := []
  /-- Writes of OUTV, counted for the age of CTXOUT selectors. -/
  writes : Nat := 0
  deriving DecidableEq, Repr, Inhabited

/-- A launch in an engine's queue (R180). -/
structure Launch where
  ctx : Nat := 0
  fire : Nat := 0
  period : Nat := 0
  entry : Option Nat := none
  /-- Queued when LPE_CTX_RESTART started its context: it runs in WAIT (R182). -/
  waits : Bool := false
  deriving DecidableEq, Repr, Inhabited

/-- LPE state: contexts and records by 64 × engine + context; a record word at 64 × context + 16 × record + word,
records A, B, F and calibration. -/
structure LpeSt where
  ctxs : SMap CtxSt := []
  recs : SMap Nat := []
  queues : SMap (List Launch) := []
  deriving DecidableEq, Repr, Inhabited

/-- The converter (R211, R212): the sequence that runs with its channels still to convert, and the queue of sequences
with the strike entries that launched them. -/
structure AdcSt where
  cur : Option (Nat × Option Nat) := none
  left : List Nat := []
  queue : List (Nat × Option Nat) := []
  deriving DecidableEq, Repr, Inhabited

/-! ### Services -/

/-- One act of a service on granted registers (R189, R190, R197, R198). -/
inductive SvcOp where
  /-- The unit begins to move to the Headstock; the service waits until the Headstock holds it. -/
  | take (unit : Nat)
  | held (unit : Nat)
  /-- The masked bits of a register of the unit are written, by the rule that its owner calls for. -/
  | put (unit addr mask value : Nat)
  /-- A context is started anew. -/
  | restart (ctx : Nat)
  /-- A vote is sent on both bridges. -/
  | vote
  /-- The winding, or the circuit, is in service. -/
  | live (circ : Bool)
  /-- The unit moves to an owner; to the owner that the active parameter set gives it. -/
  | give (unit owner : Nat)
  | back (unit : Nat)
  deriving DecidableEq, Repr, Inhabited

/-- A winding or a brake circuit of the lane (R192, R197, R204, R205). -/
structure SvcUnit where
  /-- 0 not yet started, 1 in service, 2 out. -/
  st : Nat := 0
  /-- Grant units taken with it (R197). -/
  units : List Nat := []
  /-- It is out for a cause that releases only by a command (R198, R205). -/
  manual : Bool := false
  /-- Since when no cause has been present (elapsed ns), and automatic returns since the lane reset (R198). -/
  clearAt : Option Nat := none
  returns : Nat := 0
  /-- What the service still has to do for it, in order; it waits where a unit moves (R30). -/
  prog : List SvcOp := []
  deriving DecidableEq, Repr, Inhabited

/-- A delegated write that waits for its owner (R189, Table SVC-2). -/
structure SvcReq where
  unit : Nat := 0
  addr : Nat := 0
  mask : Nat := 0
  value : Nat := 0
  by_ : Nat := 0
  deriving DecidableEq, Repr, Inhabited

/-- The steering and braking services (R185 to R214). Sensors are numbered 0 wheel or handwheel angle, 1 pedal. -/
structure SvcSt where
  wind : SvcUnit := {}
  circ : SvcUnit := {}
  /-- Since when the winding's encoder channel has shown SUSPECT (elapsed ns) (R197). -/
  suspAt : Option Nat := none
  /-- Consecutive cycles in which the pressure sensor read 0 or 4 095, and in which it did not (R205). -/
  pressBad : Nat := 0
  pressGood : Nat := 0
  /-- Consecutive cycles without an agreed result, by carrier 0 to 5 (R193). -/
  lost : SMap Nat := []
  /-- Consecutive cycles outside and inside AGTOL, by sensor, and the sensors flagged (R191). -/
  outside : SMap Nat := []
  inside : SMap Nat := []
  flagged : Nat := 0
  /-- The last agreed angles and pedal values, newest first, as binary32 words (R191). -/
  angles : List Nat := []
  speeds : List Nat := []
  pedals : List Nat := []
  /-- The chain in which a pedal value was last agreed (R202). -/
  pedalAt : Option Nat := none
  /-- Each converter channel's COUNT at the last capture and cycles without a new result (R256). -/
  adcMark : SMap Nat := []
  adcOld : SMap Nat := []
  /-- The steering demand (R195), no demand source, the deceleration with DEMFAIL, and PMAX limiting (R202). -/
  demand : Option Nat := none
  demLost : Bool := false
  demFail : Bool := false
  shortfall : Bool := false
  /-- Regeneration is withdrawn (R202). -/
  noRegen : Bool := false
  /-- The last agreed park request (R206). -/
  park : Bool := true
  /-- The position loop follows the peers' outputs in MANUAL; it has been given the agreed one as MAN (R200). -/
  follow : Bool := true
  followed : Bool := false
  /-- Delegated writes, oldest first, and the count of requests posted (R189). -/
  reqs : List SvcReq := []
  /-- Writes that the service makes itself after an owner failed to (R189). -/
  prog : List SvcOp := []
  reqSeq : Nat := 0
  /-- The agreed park request has been 1 since then (R395). -/
  parkSince : Option Nat := none
  /-- Consecutive instances in which a service item used fewer than two values, by item (Table TSK-2). -/
  single : SMap Nat := []
  deriving DecidableEq, Repr, Inhabited

/-! ### ARB, QUE, STY -/

/-- An arbiter beside its registers (R357 to R364). -/
structure ArbSt where
  /-- Units each requesting port has still to start, and the beats of its transfer done so far. -/
  units : SMap Nat := []
  done : SMap Nat := []
  /-- Units of a port's transfers behind the one it requests for. -/
  behind : SMap (List Nat) := []
  /-- Decisions made and LIMIT writes. -/
  decs : Nat := 0
  /-- When a port's WAIT reached LIMIT in its present wait, as a place in the order of decisions and LIMIT writes. -/
  limitAt : SMap Nat := []
  /-- Ports whose starvation was raised in their present wait (R359). -/
  starved : Nat := 0
  /-- Elapsed time of the last slot step or start of a unit (R358), and of the last switch request. -/
  idleAt : Nat := 0
  switchAt : Nat := 0
  /-- Priorities before the last priority write, and when it was made (R363). -/
  prioLo : Nat := 0
  prioHi : Nat := 0
  prioAt : Option Nat := none
  deriving DecidableEq, Repr, Inhabited

/-- Steelyard's counts of one queue since its enabling (R380). -/
structure StyQue where
  posts : Nat := 0
  takes : Nat := 0
  returns : Nat := 0
  deriving DecidableEq, Repr, Inhabited

/-- Steelyard's counts (R380): queues; spans of each flow since priming or first seal, modulo 2^16; frames of each star
or leaf port in the chain: GOOD increments and frames the MAC sent plus injected drops. -/
structure StySt where
  ques : SMap StyQue := []
  spans : SMap Nat := []
  goods : SMap Nat := []
  macs : SMap Nat := []
  /-- GT of the last audit (multiples of 500 000 ns, as the chain number). -/
  lastChain : Nat := 0
  deriving DecidableEq, Repr, Inhabited

/-! ### SLP, LBR -/

/-- An event at the agreement port of a pair: vector, who sent it, the owner code it names, when it arrived, and its
delivery index once it has one (R219). -/
structure PortEvent where
  vector : Nat := 0
  src : Nat := 0
  owner : Nat := 0
  at_ : Nat := 0
  d : Option Nat := none
  deriving DecidableEq, Repr, Inhabited

/-- An entry of the delay registers (R216): an output with the five parity bits stored beside its fields. -/
structure DelayEntry where
  out : CoreOut
  par : List Nat
  deriving DecidableEq, Repr

/-- An entry of the replay log (R221): a delivered event with its index, or the data of a load with its token. -/
inductive LogRec where
  | event (d vector src owner : Nat)
  | load (token addr data : Nat)
  deriving DecidableEq, Repr

/-- A checkpoint copy (R225): stamp, registers and TCM image of the designated core, and its pages whose ECC fails. -/
structure CkCopy where
  stamp : Nat := 0
  regs : List Byte := []
  tcm : List Host.Cell := []
  bad : List Nat := []
  deriving DecidableEq, Repr, Inhabited

/-- A pair beside its registers. -/
structure SlpPair where
  /-- Token indices: leading and trailing core, last released output, last valid checkpoint, stop of a resynchronisation. -/
  lead : Nat := 0
  trail : Nat := 0
  rel : Nat := 0
  ck : Nat := 0
  stop : Nat := 0
  /-- Outputs with a token index below this one were released before the last restart or resynchronisation (R227). -/
  hush : Nat := 0
  /-- GT of the last restarts, newest first, and of the last restart or resynchronisation (R228, R231). -/
  restarts : List Nat := []
  began : Nat := 0
  events : List PortEvent := []
  /-- A checkpoint is due: GT of its fire time (R223). -/
  ckDue : Option Nat := none
  /-- The idle strike or a full log asks for the resynchronisation (R221, R234); its final checkpoint is due. -/
  resyncDue : Bool := false
  resyncEnd : Bool := false
  /-- A full log has asked for it and raised 151 (R221). -/
  logDue : Bool := false
  /-- The delay registers, oldest first (R216). -/
  fifo : List DelayEntry := []
  /-- The replay log, newest first (R221), and of a replay the events it has still to give again, oldest first (R227). -/
  log : List LogRec := []
  again : List (Nat × PortEvent) := []
  /-- TCM pages written by either core since the last checkpoint (R225). -/
  dirty : List Nat := []
  /-- The pair's place in its trap handler at the last valid checkpoint, as in `TlySt.traps` (R296). -/
  ckTrap : Option Bool := none
  /-- The two checkpoint copies (R225). -/
  copy0 : CkCopy := {}
  copy1 : CkCopy := {}
  /-- The bit that the next comparator exercise flips (R236). -/
  exBit : Nat := 0
  /-- Channels that wait for a split and a rejoin, and GT at which the rejoin began. -/
  splitCh : Option Nat := none
  rejoinCh : Option Nat := none
  rejoinAt : Nat := 0
  deriving DecidableEq, Repr, Inhabited

/-- Words of one lane as received: their tag and the words. -/
structure AgrWords where
  tag : Nat := 0
  words : List Nat := []
  deriving DecidableEq, Repr, Inhabited

/-- The running instance of the agreement (R242): the capture, copies received from each peer, and copies of lane k
relayed by peer p at 3p + k. -/
structure AgrSt where
  own : Option AgrWords := none
  /-- An instance to which this lane contributed has been written since the lane's reset (R458). -/
  took : Bool := false
  direct : SMap AgrWords := []
  via : SMap AgrWords := []
  deriving DecidableEq, Repr, Inhabited

/-! ### TLY -/

/-- A raise on its way to the Tally (R282). -/
structure Raise where
  src : Nat := 0
  detail : Nat := 0
  gt : Nat := 0
  /-- Elapsed time: raises of one 5 ns capture window share it. -/
  at_ : Nat := 0
  deriving DecidableEq, Repr, Inhabited

/-- The assertion of a source (R281, R286). -/
structure SrcSt where
  asserted : Bool := false
  /-- End of the last assertion (elapsed ns). -/
  endAt : Nat := 0
  deriving DecidableEq, Repr, Inhabited

/-- One requester's capture of the status words (R283). -/
structure SnapCap where
  stat : List Nat := []
  gt : Nat := 0
  deriving DecidableEq, Repr, Inhabited

/-- One requester's capture of a record (R283). -/
structure RecCap where
  src : Nat := 0
  last : Nat := 0
  info : Nat := 0
  cnt : Nat := 0
  deriving DecidableEq, Repr, Inhabited

/-- Tally state beside its registers. -/
structure TlySt where
  raises : List Raise := []
  /-- QUIET of each source as it was when its record opened (R292). -/
  quiet : SMap Nat := []
  src : SMap SrcSt := []
  snaps : SMap SnapCap := []
  recs : SMap RecCap := []
  /-- When x-EFL was driven low (elapsed ns), while it is. -/
  eflSince : Nat := 0
  /-- End of a TLY_EFL_TEST (elapsed ns). -/
  eflTestEnd : Option Nat := none
  /-- The second copy of the status words, latches and recovery counts (R299), by its difference from the first, at the
  registers where there is one; and sources whose record or TLY_SRCCFGn has a parity error. -/
  diff : SMap Nat := []
  badPar : List Nat := []
  /-- Receivers in their trap handler, true where one more trap is held (R296). -/
  traps : SMap Bool := []
  deriving DecidableEq, Repr, Inhabited

/-! ### ANW, AST -/

/-- A seal of a TX context (R314): the payload copied, GT of its completion, the chain whose cutoff made it, the
strike entry that launched it. -/
structure Seal where
  payload : List Byte := []
  doneGt : Nat := 0
  auto : Option Nat := none
  entry : Option Nat := none
  deriving DecidableEq, Repr, Inhabited

/-- A flow context beside its registers. Chains are absolute chain numbers, t div 500 000. -/
structure FlowSt where
  /-- Seals in progress and seals completed, oldest first. -/
  starts : List Seal := []
  seals : List Seal := []
  /-- The chain whose cutoff was last handled, whose TX span was last handled, whose RX span last brought a frame, and
  whose RX span was last counted missed. -/
  cut : Option Nat := none
  sent : Option Nat := none
  got : Option Nat := none
  missed : Option Nat := none
  deriving DecidableEq, Repr, Inhabited

/-- A sync frame accepted in the running chain (R319, R322). -/
structure SyncRec where
  node : Nat := 0
  /-- Deviation in 1/16 ns. -/
  dev : Int := 0
  /-- Its ROUND, SETNOW and SETID are the node's own. -/
  same : Bool := true
  beacon : Bool := false
  deriving DecidableEq, Repr, Inhabited

/-- The node beside its registers. -/
structure AnwSt where
  /-- The network offset o in 1/16 ns (R319). -/
  o : Int := 0
  /-- Schedule words that an activation changed, as the node goes on with them until its restart, by address (R328). -/
  kept : SMap Nat := []
  /-- The chain on NT whose start was last handled. -/
  chain : Nat := 0
  syncs : List SyncRec := []
  /-- The chain of the node's own last sync frame. -/
  own : Option Nat := none
  /-- The running chain brought a beacon with another ROUND or CH, or another SETNOW or SETID (R324). -/
  badRound : Bool := false
  badSet : Bool := false
  /-- Consecutive chains of each cause of R324. -/
  lowRun : Nat := 0
  roundRun : Nat := 0
  setRun : Nat := 0
  /-- The chain in which the node first heard the channel, became ACTIVE, and first became ACTIVE. -/
  heard : Nat := 0
  active : Nat := 0
  firstActive : Option Nat := none
  /-- GT at which the wait for a coldstart began, at which an attempt whose outcome is open was launched, and of the
  retry of a failed one (R323). -/
  listenGt : Nat := 0
  launch : Option Nat := none
  retryGt : Nat := 0
  flows : SMap FlowSt := []
  /-- Frames sent on each flow ID (R307, R315). -/
  seqs : SMap Nat := []
  /-- A set the star's own node has still to announce, and since when a lower set has been preferred (R327). -/
  announce : Option Nat := none
  prefer : Option (Nat × Nat) := none
  /-- A port without a link: its forced rate, none while it negotiates, and since when (R310). -/
  forced : SMap (Option Bool × Nat) := []
  deriving DecidableEq, Repr, Inhabited

/-- A star port beside its registers. -/
structure StarPort where
  /-- GT of the last frame it passed in start-up mode (R338). -/
  passed : Option Nat := none
  /-- A sync frame of a node attached directly has given PDLY (R342). -/
  learned : Bool := false
  /-- The running chain held a violation, a LATE one; consecutive clean chains (R344, R345). -/
  viol : Bool := false
  late : Bool := false
  clean : Nat := 0
  deriving DecidableEq, Repr, Inhabited

/-- A forwarded frame that an output will cut (R343). -/
structure CutDue where
  input : Nat := 0
  output : Nat := 0
  /-- Bytes that leave before the cut, GT of launch and cut, signed arrival less expected arrival. -/
  bytes : List Byte := []
  launch : Nat := 0
  cutGt : Nat := 0
  offs : Int := 0
  /-- GT of its arrival, which tells the frame. -/
  arrived : Nat := 0
  /-- The frame's violation has been recorded at another output. -/
  counted : Bool := false
  deriving DecidableEq, Repr, Inhabited

/-- A coldstart frame the main star holds (R339). -/
structure Hold where
  port : Nat := 0
  node : Nat := 0
  frame : AirumFrame := ⟨[], true, 0⟩
  collides : Bool := false
  ended : Bool := false
  deriving DecidableEq, Repr

/-- A frame the injection unit holds (R350): what was received, as the command that brought it, or what was to be
sent. -/
structure HeldFrame where
  target : Nat := 0
  port : Nat := 0
  /-- The rule that holds it; none for a frame that waits behind a delayed one. -/
  rule : Option Nat := none
  reorder : Bool := false
  since : Nat := 0
  due : Nat := 0
  rx : Option Instr := none
  tx : Option OutMsg := none
  deriving DecidableEq, Repr

/-- Star and injection state beside the registers. -/
structure AstSt where
  ports : SMap StarPort := []
  /-- The chain on the own node's NT whose start was last handled. -/
  chain : Nat := 0
  cuts : List CutDue := []
  holds : List Hold := []
  held : List HeldFrame := []
  /-- Frames that matched each armed rule, past the saturation of SEEN (R349). -/
  matched : SMap Nat := []
  /-- GT at which the injection token in force lapses (R414, R424). -/
  tokenEnd : Option Nat := none
  deriving DecidableEq, Repr

/-! ### HMB, SPI, CAN -/

/-- A request taken from a channel and not yet finally answered (R392, R393). -/
structure HmbRun where
  op : Nat := 0
  tag : Nat := 0
  /-- When the request was taken (elapsed ns). -/
  takenAt : Nat := 0
  interim : Bool := false
  module : Bool := false
  /-- The request as a command, until the command acts. -/
  cmd : Option Instr := none
  /-- Its place in the order of taking (R392). -/
  seq : Nat := 0
  deriving DecidableEq, Repr, Inhabited

/-- One mailbox channel (R387 to R393). -/
structure ChanSt where
  run : Option HmbRun := none
  /-- OPCODE, TAG and CHK of the last request taken (R389). -/
  last : Option (Nat × Nat × Nat) := none
  /-- The last response of that request. -/
  lastResp : List Byte := []
  /-- Responses waiting for credit, oldest first, and since when each does (R387). -/
  wait : List (List Byte × Nat) := []
  /-- Channel 1: GOOD of the request flow when its payload was last looked at. -/
  mark : Option Nat := none
  deriving DecidableEq, Repr, Inhabited

/-- Mailbox state. -/
structure HmbSt where
  chans : SMap ChanSt := []
  /-- The channel served last (R392). -/
  served : Nat := 7
  /-- Requests that have begun to run: the place of the next one in the order of taking. -/
  taken : Nat := 0
  deriving DecidableEq, Repr, Inhabited

/-- The SPI port's buffers (R403, R404). -/
structure SpiSt where
  req : Option (List Byte) := none
  rsp : Option (List Byte) := none
  /-- The response in the buffer is an interim one (R393). -/
  rspInterim : Bool := false
  /-- The last transaction was discarded (ERR). -/
  err : Bool := false
  deriving DecidableEq, Repr, Inhabited

/-! ### OTP, flash, security and commissioning -/

/-- Contents of a flash region or of an image: cells that differ from the region's empty byte. -/
abbrev Img := List Host.Cell

/-- The one-time-programmable store (R409, R436) and what is fixed at manufacture. -/
structure Otp where
  /-- The part is a JV2G: lanes A and B only. -/
  jv2g : Bool := false
  /-- 0 A, 1 B, 2 C. -/
  lane : Nat := 0
  serial : Nat := 0
  sirev : Nat := 0
  romrev : Nat := 0
  /-- Root public keys of slots 0 to 15 and the seeds of the identity key pairs made so far, as 32-byte little-endian
  numbers. -/
  roots : List Nat := []
  seeds : List Nat := [0]
  /-- Bits programmed of notch counters 0 to 4. -/
  used0 : Nat := 0
  used1 : Nat := 0
  used2 : Nat := 0
  used3 : Nat := 0
  used4 : Nat := 0
  /-- The locked behaviour profile; 0 none (R438). -/
  lockProf : Nat := 0
  deriving DecidableEq, Repr, Inhabited

/-- A copy of a record in one bank: its CRC holds, it fails, or nothing has been written (R421). -/
inductive JCopy where
  | good
  | torn
  | blank
  deriving DecidableEq, Repr, Inhabited

/-- A record of the journal (R421); the digest S of an ACTIVE record stands beside its bytes (DESIGN CHOICE, log entry 24). -/
structure JRec where
  /-- 1 commit, 2 update, 3 order. -/
  op : Nat := 0
  step : Nat := 0
  target : Nat := 0
  seq : Nat := 0
  v : Nat := 0
  k : Nat := 0
  s : List Byte := []
  /-- Its copies in bank 0 and bank 1. -/
  copy0 : JCopy := .good
  copy1 : JCopy := .good
  deriving DecidableEq, Repr, Inhabited

/-- Flash (Table SEC-6). Regions that hold one copy in each bank are kept once (R420), but parameter slots by
2 × bank + slot and image regions by 2 × bank + type. -/
structure Flash where
  /-- Parameter slots; an unlisted byte is 0. -/
  par : SMap Img := []
  /-- Image regions; an unlisted byte is erased, 0xFF. -/
  fw : SMap Img := []
  /-- Bit b: the image regions of bank b are marked empty (R443). -/
  emptied : Nat := 0
  cert : List Byte := []
  log : List (List Byte) := []
  /-- Records of the journal half in use, oldest first; which half it is; records of the other half (R481). -/
  journal : List JRec := []
  half : Bool := false
  older : List JRec := []
  deriving DecidableEq, Repr, Inhabited

/-- A procedure in journalled steps (R421, R432, R441, R442). -/
structure Proc where
  /-- 1 commit, 2 order, 3 opening of an update session, 4 activation of an update. -/
  kind : Nat := 0
  step : Nat := 0
  /-- The channel that waits for its end. -/
  ch : Option Nat := none
  /-- Commit: V and S of the new set, the slot, k, PREPARED of each peer, an INTENT seen, when the wait began. -/
  v : Nat := 0
  s : List Byte := []
  slot : Nat := 0
  k : Nat := 0
  prepared : Nat := 0
  intent : Bool := false
  waitAt : Nat := 0
  /-- A notch failed once (R433); the commit resumes at boot (R434). -/
  retried : Bool := false
  resumed : Bool := false
  /-- GT of the notch (R437). -/
  notchGt : Nat := 0
  /-- Order: its KIND and ARG. -/
  order : Nat := 0
  arg : Nat := 0
  deriving DecidableEq, Repr, Inhabited

/-- Volatile security and commissioning state. -/
structure SecSt where
  /-- The lane nonce and the GT at which it was made (R411). -/
  nonce : Option (List Byte × Nat) := none
  staging : Option Img := none
  /-- D of the last check, and the channel that waits for the running one (R430). -/
  digest : Option (List Byte) := none
  checkCh : Option Nat := none
  proc : Option Proc := none
  /-- When the newest record was written that no step of a procedure waits for (R421). -/
  recAt : Option Nat := none
  /-- The slot of the set in force, and whether there is one. -/
  slot : Nat := 0
  set : Bool := false
  /-- S of the image in force matches its ACTIVE record (R435). -/
  setOk : Bool := false
  /-- The bank booted, whether its Headstock image was verified, whether an application image was. -/
  bank : Nat := 0
  hsOk : Bool := false
  appOk : Bool := false
  /-- V of the active set may be reported; a commit awaits resolution with this V (R35, R434). -/
  vFormed : Bool := false
  pend : Option JRec := none
  /-- The channel whose response, once sent, is followed by a lane reset (R422, R425, R442). -/
  resetDue : Option Nat := none
  /-- 226 has been raised for the refusal of R39, and for that of R435, that stand. -/
  mism39 : Bool := false
  mism435 : Bool := false
  deriving DecidableEq, Repr, Inhabited

/-! ### PMU -/

/-- Power, reset and watchdog state (R446 to R459). -/
structure PmuSt where
  /-- Holds of Table PMU-1 that keep the lane in reset; VLANE below its valid threshold (R446). -/
  holdPower : Bool := false
  vlaneLost : Bool := false
  holdTherm : Bool := false
  holdRstn : Bool := false
  /-- No reset ends before this elapsed time (Table PMU-1). -/
  endAt : Nat := 0
  /-- When the running or last reset began. -/
  beganAt : Nat := 0
  /-- When VLANE last became valid and when the last reset was released (elapsed ns). -/
  validAt : Nat := 0
  releasedAt : Nat := 0
  /-- The watchdog: when it was last kicked, whether the next key is 0xA5, whether it is stopped (R453). -/
  kickAt : Nat := 0
  nextA5 : Bool := false
  wdStopped : Bool := false
  /-- VIO banks that are faulted (R450). -/
  vioBad : Nat := 0
  /-- Tally causes that were due as the reset began, recorded where they coincide with its cause (R454): a raise whose
  reaction is LANE, and a disagreement of the Tally's copies. -/
  lostRaise : Option Raise := none
  lostSelf : Bool := false
  deriving DecidableEq, Repr, Inhabited

/-! ### Redundancy, Tailstock -/

/-- What the lane knows of a peer from votes (R250, R251). -/
structure RdmPeer where
  /-- The newest claim: sequence number, fit, in SERVICE. -/
  claim : Option (Nat × Bool × Bool) := none
  /-- When it arrived (elapsed ns). -/
  claimAt : Nat := 0
  /-- The last claim the peer sent itself, relayed to the third lane: fit, in SERVICE, sequence number. -/
  direct : Option (Bool × Bool × Nat) := none
  /-- The claim of this peer that the third lane relayed last (R251). -/
  relay : Option (Bool × Bool × Nat) := none
  /-- A fit claim has arrived within 3 ms, and when the last one did (elapsed ns). -/
  alive : Bool := false
  freshAt : Nat := 0
  vote : Option Vote := none
  /-- The peer entered SERVICE at the same GT as this lane (R459). -/
  joint : Bool := false
  deriving DecidableEq, Repr, Inhabited

/-- Redundancy state beside the registers. -/
structure RdmSt where
  peers : SMap RdmPeer := []
  /-- When the last vote was sent; an SRST accepted since. -/
  lastVote : Nat := 0
  srst : Bool := false
  /-- The lane's own STOPGT (R253). -/
  stopGt : Nat := 0
  deriving DecidableEq, Repr, Inhabited

/-- A safety input beside its registers (R261, R263). -/
structure SafeIn where
  /-- Both channels have been healthy for FILT samples and still are. -/
  healthy : Bool := false
  /-- An SRST has been accepted since (RESTART = MANUAL). -/
  srst : Bool := false
  /-- Both channels have been 0 together in one sample since the fault (R263). -/
  zero : Bool := false
  deriving DecidableEq, Repr, Inhabited

/-- Tailstock state beside the registers. -/
structure TskSt where
  ins : SMap SafeIn := []
  /-- Inputs follow R261: the lane has entered INTEGRATE since its reset. -/
  live : Bool := false
  /-- The running press of SRST has been discarded (R275). -/
  pressBad : Bool := false
  /-- When each output's commanded state changed last (R265). -/
  cmdAt : SMap Nat := []
  /-- GT of the last test pulse of each output (R266). -/
  testGt : SMap Nat := []
  /-- Since when a request has stood against a demand, and whether 162 was raised for it (R269). -/
  pathAt : SMap (Nat × Bool) := []
  /-- The running challenge: its end t + B, and the response taken (R267, R268). -/
  chalEnd : Option Nat := none
  resp : Option Nat := none
  /-- The last chain at which x-HLTH changed level (R272). -/
  hlthChain : Nat := 0
  deriving DecidableEq, Repr, Inhabited

/-- The firmware update session (R441 to R443). -/
structure UpdSt where
  /-- A session is open: after UPD_BEGIN, until UPD_ACTIVATE or UPD_ABORT. -/
  isOpen : Bool := false
  /-- The image type and size of UPD_BEGIN, and the written parts as (offset, length). -/
  type : Nat := 0
  size : Nat := 0
  parts : List (Nat × Nat) := []
  /-- The last UPD_VERIFY returned 0. -/
  verified : Bool := false
  /-- The booted bank is on trial (R442). -/
  trial : Bool := false
  deriving DecidableEq, Repr, Inhabited

/-! ### The lane -/

/-- One lane of a module. Peer lanes, partners, sensors, the network and the actuators stand outside: what they
send arrives as operands of commands. -/
structure State where
  /-- The commands that wait, first in first out. -/
  pending : List Instr := []
  otp : Otp := {}
  flash : Flash := {}
  /-- Elapsed time in ns since State.reset, in ticks of 5 ns; the model's own field. -/
  now : Nat := 0
  /-- GT (R44), its fraction below the nanosecond in 2^-32, the rate correction and the slew (R49). -/
  gt : Nat := 0
  frac : Nat := 0
  rate : Int := 0
  slew : Int := 0
  /-- Every register, by lane address; an address not listed holds its reset value. -/
  regs : SMap Word := []
  /-- W1C bits that hardware has set, by lane address: elapsed time and mask (R8). -/
  hwSet : SMap (Nat × Nat) := []
  /-- Lane SRAM; a byte not listed is 0. -/
  mem : List Host.Cell := []
  /-- TCM of the Headstock (key 1) and of the cores (keys 8 to 13); a byte not listed is 0. -/
  tcm : SMap (List Host.Cell) := []
  /-- The word a requester's last read returned; the model's own field. -/
  rdata : Nat := 0
  /-- The free-value counter (DESIGN CHOICE, log entry 5); the model's own field. -/
  free : Nat := 0
  /-- What the lane has sent, newest last; the model's own field. -/
  outbox : List OutMsg := []
  lane : LaneSt := {}
  spn : SpnSt := {}
  tly : TlySt := {}
  hmb : HmbSt := {}
  spi : SpiSt := {}
  /-- CAN controllers whose bus-off recovery runs, one bit each (R407). -/
  canRec : Nat := 0
  pmu : PmuSt := {}
  pwm : PwmSt := {}
  glk : GlkSt := {}
  fbc : FbcSt := {}
  lpe : LpeSt := {}
  adc : AdcSt := {}
  arb : SMap ArbSt := []
  sty : StySt := {}
  anw : AnwSt := {}
  ast : AstSt := {}
  svc : SvcSt := {}
  upd : UpdSt := {}
  slp : SMap SlpPair := []
  /-- Registers of the cores as bytes, by owner code (keys 8 to 13). -/
  coreRegs : SMap (List Byte) := []
  /-- Comparator i of pair p (key 2p + i) stuck at "match" or "mismatch". -/
  cmpStuck : SMap (Option Bool) := []
  agr : AgrSt := {}
  sec : SecSt := {}
  rdm : RdmSt := {}
  tsk : TskSt := {}
  deriving DecidableEq, Repr

/-- The lane just after a power reset: lane A of a JV3G in BOOT, every register at its reset value. -/
def State.reset : State := {}

end Sys2Proof.Machine
end

