-- ==== Sys2Proof/Machine/Ops.lean ====
section
/-! DEFINITION. The operations every block shares: maps, registers and their fields, lane memory, ownership of
registers, raises on their way to the Tally, interrupts to receivers, and free values. -/

namespace Sys2Proof.Machine

/-- What a command answers. -/
abbrev Res := Host.Outcome State Fault Refusal

/-! ### Maps -/

/-- The value at a key, or a default. -/
def mget {α : Type} (d : α) : SMap α → Nat → α
  | [], _ => d
  | (k, v) :: t, i => if i = k then v else mget d t i

/-- The map with a key set; keys stay strictly rising. -/
def mset {α : Type} : SMap α → Nat → α → SMap α
  | [], i, v => [(i, v)]
  | (k, x) :: t, i, v =>
    if i < k then (i, v) :: (k, x) :: t
    else if i = k then (i, v) :: t
    else (k, x) :: mset t i v

/-- The map without a key. -/
def mdel {α : Type} : SMap α → Nat → SMap α
  | [], _ => []
  | (k, x) :: t, i => if i = k then mdel t i else (k, x) :: mdel t i

/-! ### Tally sources -/

/-- The sources of Table TLY-1; every other number is reserved (R280). -/
def srcListed (n : Nat) : Bool :=
  n ≤ 9 || (16 ≤ n && n ≤ 19) || (48 ≤ n && n ≤ 53) || (64 ≤ n && n ≤ 74) || (96 ≤ n && n ≤ 101) ||
  (112 ≤ n && n ≤ 117) || (144 ≤ n && n ≤ 154) || (160 ≤ n && n ≤ 166) || (176 ≤ n && n ≤ 180) ||
  (192 ≤ n && n ≤ 195) || (209 ≤ n && n ≤ 212) || (224 ≤ n && n ≤ 228) || (240 ≤ n && n ≤ 255)

/-- A listed source outside the firmware range that Table TLY-1 marks as not safety-classed. -/
def srcPlain (n : Nat) : Bool :=
  n == 6 || n == 7 || n == 49 || n == 52 || n == 53 || n == 100 || n == 151 || n == 176 || n == 192 || n == 212 ||
  n == 227 || n == 228

/-- Whether a source is safety-classed, given TLY_FWCLASS (R280, R298). -/
def srcSafe (fwclass n : Nat) : Bool :=
  srcListed n && (if 240 ≤ n then n < 246 || fwclass.testBit (n - 240) else !srcPlain n)

/-- Reset value of TLY_SRCCFGn. -/
def srcCfgReset (n : Nat) : Nat :=
  if !srcListed n then 0
  else if n == 2 || n == 4 || n == 5 then 0xC8006400
  else if srcSafe 0x3F n then 0x88006400
  else 0x08006400

/-! ### Registers -/

/-- The reset value of the register at a lane address (R5); of HMB_CHCFG only channel 0's is not 0, and AST_PORTCFG8 reads 0. -/
def regReset (a : Nat) : Word :=
  match regRow a with
  | none => 0
  | some (r, i, _) =>
    if r.base = 0x40070400 then BitVec.ofNat 32 (srcCfgReset i)
    else if r.base = 0x400E0100 ∧ i ≠ 0 then 0
    else if a = 0x400A0300 then 0
    else BitVec.ofNat 32 r.reset

/-- A register's word. -/
def State.reg (s : State) (a : Nat) : Word := mget (regReset a) s.regs a

/-- A register set to a word; a register at its reset value is not listed. -/
def State.setReg (s : State) (a : Nat) (v : Word) : State :=
  { s with regs := if v = regReset a then mdel s.regs a else mset s.regs a v }

/-- A register's word as a number. -/
def State.rn (s : State) (a : Nat) : Nat := (s.reg a).toNat

/-- A register set to the low 32 bits of a number. -/
def State.setN (s : State) (a : Nat) (n : Nat) : State := s.setReg a (BitVec.ofNat 32 n)

/-- A field of a word. -/
def Fld.getN (f : Fld) (n : Nat) : Nat := (n >>> f.lo) % 2 ^ f.wd

/-- A word with a field replaced by the low bits of a number. -/
def Fld.putN (f : Fld) (n v : Nat) : Nat := n - f.getN n * 2 ^ f.lo + (v % 2 ^ f.wd) * 2 ^ f.lo

/-- A field's value. -/
def State.rf (s : State) (f : Fld) : Nat := f.getN (s.rn f.adr)

/-- A one-bit field as a Bool. -/
def State.rb (s : State) (f : Fld) : Bool := s.rf f != 0

/-- A field read as two's complement. -/
def State.ri (s : State) (f : Fld) : Int := toSigned f.wd (s.rf f)

/-- A field set. -/
def State.wf (s : State) (f : Fld) (v : Nat) : State := s.setN f.adr (f.putN (s.rn f.adr) v)

/-- A one-bit field set from a Bool. -/
def State.wb (s : State) (f : Fld) (b : Bool) : State := s.wf f (b2n b)

/-- A field set to a two's complement pattern. -/
def State.wi (s : State) (f : Fld) (i : Int) : State := s.wf f (ofSigned f.wd i)

/-- One bit of a mask field set. -/
def State.wbit (s : State) (f : Fld) (i : Nat) (b : Bool) : State := s.wf f (setBitTo (s.rf f) i b)

/-- A counter field plus one, saturating. -/
def State.incSat (s : State) (f : Fld) : State := s.wf f (satN (2 ^ f.wd - 1) (s.rf f + 1))

/-- A counter field plus one, wrapping. -/
def State.incWrap (s : State) (f : Fld) : State := s.wf f (s.rf f + 1)

/-- A counter field plus `n`, saturating. -/
def State.addSat (s : State) (f : Fld) (n : Nat) : State := s.wf f (satN (2 ^ f.wd - 1) (s.rf f + n))

/-! ### W1C bits (R8) -/

/-- The bits of a register that hardware has set at this elapsed time. -/
def State.hwMask (s : State) (a : Nat) : Nat :=
  let x := mget (0, 0) s.hwSet a
  if x.1 = s.now then x.2 else 0

/-- Bit `i` of a W1C field set by hardware: software that clears it at the same elapsed time finds it set. -/
def State.hwBit (s : State) (f : Fld) (i : Nat) : State :=
  { s.wbit f i true with hwSet := mset s.hwSet f.adr (s.now, s.hwMask f.adr ||| 2 ^ (f.lo + i)) }

/-- A register that software may also write, written whole by hardware: it wins at this elapsed time (R8). -/
def State.hwWord (s : State) (a : Nat) : State := { s with hwSet := mset s.hwSet a (s.now, 2 ^ 32 - 1) }

/-- The bits of `v` on which software's write takes effect: not those that hardware writes in the same access (R8). -/
def State.w1c (s : State) (a v : Nat) : Nat := clearBits 32 v (s.hwMask a)

/-! ### Lane memory -/

/-- The byte at an address of lane SRAM; a byte not listed is 0 (R457 step 2). -/
def memByte (m : List Host.Cell) (a : Nat) : Byte := mget 0 m a

/-- One byte of memory written; a byte at 0 is not listed. -/
def memPut (m : List Host.Cell) (a : Nat) (b : Byte) : List Host.Cell :=
  if b = 0 then mdel m a else mset m a b

/-- Bytes written from an address up. -/
def memPuts (m : List Host.Cell) (a : Nat) : List Byte → List Host.Cell
  | [] => m
  | b :: bs => memPuts (memPut m a b) (a + 1) bs

/-- The canonical form of memory: addresses strictly rising and no byte at 0. -/
def Memory.wf : List Host.Cell → Bool
  | [] => true
  | [(_, b)] => b != 0
  | (a, b) :: (a', b') :: t => (b != 0) && decide (a < a') && Memory.wf ((a', b') :: t)

/-- Bytes of lane SRAM. -/
def State.memBytes (s : State) (a n : Nat) : List Byte := (List.range n).map (fun i => memByte s.mem (a + i))

/-- A 32-bit little-endian word of lane SRAM. -/
def State.memWord (s : State) (a : Nat) : Nat := ofLe (s.memBytes a 4)

/-- Bytes stored to lane SRAM. -/
def State.memStore (s : State) (a : Nat) (l : List Byte) : State := { s with mem := memPuts s.mem a l }

/-! ### Free values -/

/-- A number the spec leaves open. -/
def State.freeNat (s : State) : Nat := Config.freeNat s.free

/-- The free-value counter moved past `n` values. -/
def State.used (s : State) (n : Nat) : State := { s with free := s.free + n }

/-! ### The lane's state -/

/-- LANE_STATE.STATE codes. -/
def stOff : Nat := 0
def stBoot : Nat := 1
def stSelftest : Nat := 2
def stIntegrate : Nat := 3
def stService : Nat := 4
def stDebug : Nat := 5

/-- The lane's state (LANE_STATE.STATE). -/
def State.st (s : State) : Nat := s.rf LANE_STATE.STATE

/-- The lane is out of reset. -/
def State.on (s : State) : Bool := s.st != stOff

/-- The banks VIO1 to VIO3 that are monitored now, and those of them that are faulted (R450). -/
def State.vioMon (s : State) : Nat := if s.lane.integrated then 7 else 1
def State.vioFaults (s : State) : Nat := s.pmu.vioBad &&& (s.rf PMU_VIOCFG.USED ||| 1) &&& s.vioMon

/-- The pads of bank `b`, 0 for VIO1, are dead, inputs read 0 and nothing is driven: a faulted bank (R450, Table PAD-2),
or one that is not used and left unpowered (R469). -/
def State.vioDead (s : State) (b : Nat) : Bool :=
  s.vioFaults.testBit b || (b != 0 && s.pmu.vioBad.testBit b && !(s.rf PMU_VIOCFG.USED).testBit b)

/-- Debug is disabled permanently: the bit of notch counter 4 is programmed (R425, R488). -/
def State.debugOff (s : State) : Bool := s.otp.used4 != 0

/-- The lane changes state: STATE and PREV in one step (R456). -/
def State.toSt (s : State) (n : Nat) : State :=
  (s.wf LANE_STATE.PREV s.st).wf LANE_STATE.STATE n

/-- In INTEGRATE, SERVICE or DEBUG. -/
def State.up (s : State) : Bool := 3 ≤ s.st

/-- Low word of GT. -/
def State.gtLo (s : State) : Nat := s.gt % 2 ^ 32

/-- The other lanes this part holds (R43). -/
def State.peersOf (s : State) : List Nat :=
  (List.range (if s.otp.jv2g then 2 else 3)).filter (fun k => k != s.otp.lane)

/-- Lane `k` is a fitted peer. -/
def State.isPeer (s : State) (k : Nat) : Bool := s.peersOf.contains k

/-- What the lane knows of peer `k`. -/
def State.peer (s : State) (k : Nat) : PeerSt := mget {} s.lane.peers k

def State.setPeer (s : State) (k : Nat) (p : PeerSt) : State :=
  { s with lane := { s.lane with peers := mset s.lane.peers k p } }

/-- The bridge to lane `k` is up. -/
def State.bridgeUp (s : State) (k : Nat) : Bool := (s.rf LANE_PEERS.BRIDGE_UP).testBit k

/-- A message added to what the lane has sent. -/
def State.emit (s : State) (m : OutMsg) : State := { s with outbox := s.outbox ++ [m] }

/-! ### Raises (R281, R282) -/

/-- An event source raised. -/
def State.raiseEv (s : State) (src detail : Nat) : State :=
  { s with tly := { s.tly with
      raises := s.tly.raises ++ [{ src := src, detail := detail % 2 ^ 32, gt := s.gt, at_ := s.now }]
      src := mset s.tly.src src { asserted := false, endAt := s.now } } }

/-- A condition source asserted: each rising assertion is a raise. -/
def State.assertSrc (s : State) (src detail : Nat) : State :=
  { s with tly := { s.tly with
      raises := s.tly.raises ++ [{ src := src, detail := detail % 2 ^ 32, gt := s.gt, at_ := s.now }]
      src := mset s.tly.src src { asserted := true, endAt := s.now } } }

/-- The block withdraws the condition: the source's quiet period begins (R281, R286). -/
def State.deassertSrc (s : State) (src : Nat) : State :=
  if (mget {} s.tly.src src).asserted then
    { s with tly := { s.tly with src := mset s.tly.src src { asserted := false, endAt := s.now } } }
  else s

/-- A source is asserted. -/
def State.asserted (s : State) (src : Nat) : Bool := (mget {} s.tly.src src).asserted

/-! ### Pairs and receivers -/

/-- SLP_PAIRSTATp.STATE codes. -/
def pairOff : Nat := 0
def pairLocked : Nat := 1
def pairSplit : Nat := 2
def pairSingle : Nat := 3
def pairCkpt : Nat := 4
def pairRestart : Nat := 5
def pairResync : Nat := 6
def pairRejoin : Nat := 7
def pairFailed : Nat := 8

def State.pairSt (s : State) (p : Nat) : Nat := s.rf (SLP_PAIRSTAT.STATE p)

/-- The pair runs LOCKED (R29). -/
def State.runsLocked (s : State) (p : Nat) : Bool :=
  let c := s.pairSt p
  c == pairLocked || c == pairCkpt || c == pairRestart || c == pairResync

/-- The pair runs SPLIT (R29). -/
def State.runsSplit (s : State) (p : Nat) : Bool :=
  let c := s.pairSt p
  c == pairSplit || c == pairSingle || c == pairRejoin

/-- Owner code of the pair's designated core (Table LANE-6). -/
def State.desigCore (s : State) (p : Nat) : Nat := 8 + 2 * p + s.rf (SLP_PAIRCFG.DESIG p)

/-- The pair an owner code names: of a pair code, or of one of its cores. -/
def ownerPair (o : Nat) : Option Nat :=
  if 2 ≤ o ∧ o ≤ 4 then some (o - 2) else if 8 ≤ o ∧ o ≤ 13 then some ((o - 8) / 2) else none

/-- An owner code is allowed to write under R29. -/
def State.honoured (s : State) (o : Nat) : Bool :=
  if o = 1 then true
  else if 2 ≤ o ∧ o ≤ 4 then s.runsLocked (o - 2)
  else if 8 ≤ o ∧ o ≤ 13 then s.runsSplit ((o - 8) / 2)
  else decide (16 ≤ o ∧ o ≤ 19)

/-- The re-home target of a failed pair as an owner code: the pair its REHOME names, or that pair's designated core
while it runs SPLIT; none where the units go to the Headstock (R232). -/
def State.rehomeTarget (s : State) (p : Nat) : Option Nat :=
  let r := s.rf (SLP_PAIRCFG.REHOME p)
  if r = 3 ∨ r = p then none
  else if s.runsLocked r then some (2 + r)
  else if s.runsSplit r then some (s.desigCore r)
  else none

/-- Who receives an event addressed to an owner code (R222, R232, R295). -/
def State.receiver (s : State) (o : Nat) : Option Nat :=
  if o = 1 then some 1
  else match ownerPair o with
  | none => none
  | some p =>
    if s.runsLocked p then some (2 + p)
    else if s.runsSplit p then
      (if o < 8 ∨ s.pairSt p = pairSingle then some (s.desigCore p) else some o)
    else if s.pairSt p = pairFailed then s.rehomeTarget p
    else none

def State.pair (s : State) (p : Nat) : SlpPair := mget {} s.slp p
def State.setPair (s : State) (p : Nat) (x : SlpPair) : State := { s with slp := mset s.slp p x }

/-- An event put among others by its vector, after those of the same vector. -/
def byVector (e : PortEvent) : List PortEvent → List PortEvent
  | [] => [e]
  | x :: t => if e.vector < x.vector then e :: x :: t else x :: byVector e t

/-- Consecutive delivery indices from `d`, lowest vector first (R219). -/
def indexed (d : Nat) (l : List PortEvent) : List PortEvent :=
  (l.foldl (fun m e => byVector e m) []).mapIdx (fun i e => { e with d := some (d + i) })

/-- An event that reaches the agreement port of pair `p` (R219, R222). A pair that runs LOCKED gives it the index after the
leading core's token, and events that arrived with it the following ones; else it waits without one. -/
def State.portEvent (s : State) (p o vector src : Nat) : State :=
  let x := s.pair p
  let e : PortEvent := { vector, src, owner := o, at_ := s.now }
  let with_ := x.events.filter (fun y => y.at_ == s.now && y.d.isSome)
  let base := ((with_.head?).bind (·.d)).getD (x.lead + 1)
  let events :=
    if s.pairSt p = pairLocked then x.events.filter (fun y => !(y.at_ == s.now && y.d.isSome)) ++ indexed base (with_ ++ [e])
    else x.events ++ [e]
  s.setPair p { x with events }

/-- Where a receiver stands in its trap handler: not in it, in it, in it with one more trap held (R296). -/
def State.trapOf (s : State) (r : Nat) : Option Bool := mget none (s.tly.traps.map (fun x => (x.1, some x.2))) r
def State.setTrap (s : State) (r : Nat) (x : Option Bool) : State :=
  { s with tly := { s.tly with traps := match x with | some b => mset s.tly.traps r b | none => mdel s.tly.traps r } }

/-- A trap is taken by a receiver; one that comes while the receiver is in its trap handler is held, one deep (R296). -/
def State.giveTrap (s : State) (r : Nat) : State :=
  if s.trapOf r = none then (s.setTrap r (some false)).emit (.nmi r) else s.setTrap r (some true)

/-- A receiver's trap handler returns: a held trap is taken (R296). -/
def State.trapEnd (s : State) (r : Nat) : State :=
  match s.trapOf r with
  | none => s
  | some false => s.setTrap r none
  | some true => (s.setTrap r (some false)).emit (.nmi r)

/-- An interrupt of a vector sent to an owner code, from strike entry or queue `src` (R222, R377): through the agreement
port of a pair that runs LOCKED or rejoins, else to its receiver. -/
def State.irqTo (s : State) (o vector src : Nat) : State :=
  match s.receiver o with
  | none => s
  | some r =>
    match ownerPair r with
    | some p => if s.runsLocked p ∨ s.pairSt p = pairRejoin then s.portEvent p o vector src else s.emit (.irq r vector src)
    | none => s.emit (.irq r vector src)

/-! ### Ownership of registers (R25 to R30) -/

/-- The owner of a grant unit. -/
def State.owner (s : State) (u : Nat) : Nat := s.rf (LANE_GRANT.OWNER u)

/-- The requester holds the grant unit, and its grant is honoured. -/
def State.holds (s : State) (req u : Nat) : Bool := s.owner u == req && s.honoured req

/-- A write to a granted register is accepted when the fabric grants it (R26, R30): `early` marks a write issued
before a move of the unit began, which is granted to the old owner. -/
def State.mayWrite (s : State) (req u : Nat) (early : Bool) : Bool :=
  s.holds req u ||
  (early && s.honoured req && s.lane.moves.any (fun m => m.1 == u && m.2.old == req))

/-- REQ, KIND and WR of a refused access in their LANE_FAULT_INFO positions (R42). -/
def faultDetail (req kind : Nat) (wr : Bool) : Nat := req % 32 * 2 ^ 26 + kind % 4 * 2 ^ 24 + b2n wr * 2 ^ 23

/-- A refused access captured (R22, R25, R26, R40): the first while VALID is 0 takes the registers and COUNT 1; a later
one increments COUNT. It is kept for a clear of VALID that coincides with it. -/
def State.capture (s : State) (addr req kind : Nat) (wr : Bool) : State :=
  let info := 2 ^ 31 + faultDetail req kind wr + 1
  let s := { s with lane := { s.lane with lastFault := some (s.now, addr, info) } }
  if s.rb LANE_FAULT_INFO.VALID then s.incSat LANE_FAULT_INFO.COUNT
  else (s.setN LANE_FAULT_ADDR.adr addr).setN LANE_FAULT_INFO.adr info

/-- A write discarded for ownership: captured, and 7 LANE_GRANT_VIOLATION raised with the same detail. -/
def State.violate (s : State) (addr req kind : Nat) : State :=
  (s.capture addr req kind true).raiseEv 7 (faultDetail req kind true)

/-- An access refused as unmapped: captured with KIND 0, and 6 LANE_ACCESS_FAULT raised (R22, R23). -/
def State.accessFault (s : State) (addr req : Nat) (wr : Bool) : State :=
  (s.capture addr req 0 wr).raiseEv 6 (faultDetail req 0 wr)

/-- A granted write: run if the requester may, else discarded under R26. -/
def State.granted (s : State) (req u addr : Nat) (early : Bool) (k : State → State) : State :=
  if s.mayWrite req u early then k s else s.violate addr req 1

/-- A Headstock-owned write: run if the requester is the Headstock, else discarded under R25. -/
def State.headstockOnly (s : State) (req addr : Nat) (k : State → State) : State :=
  if req = 1 then k s else s.violate addr req 2

/-- A unit is between the two steps of a move. -/
def State.moving (s : State) (u : Nat) : Bool := s.lane.moves.any (fun m => m.1 == u)

/-- The Headstock holds a unit and no move of it runs (R26, R30). -/
def State.headHolds (s : State) (u : Nat) : Bool := s.owner u == 1 && !s.moving u

/-- A write of the Headstock's own to something of a unit: refused like any other where it does not hold the unit (R26, R30). -/
def State.headWrite (s : State) (u a : Nat) (k : State → State) : State := if s.headHolds u then k s else s.violate a 1 1

/-- A grant unit begins to move (R30): its owner is NONE until the drain is done; `ch` waits for the end. -/
def State.startMove (s : State) (u new : Nat) (ch : Option Nat) : State :=
  let old := s.owner u
  let s := s.wf (LANE_GRANT.OWNER u) 0
  { s with lane := { s.lane with moves := mset s.lane.moves u { old, new, ch } } }

/-- A unit moved to an owner by the lane's own rules: at once begun, or after the move that runs (R30). A unit that
its owner holds already, or is on its way to, stays. -/
def State.moveTo (s : State) (u new : Nat) : State :=
  match s.lane.moves.find? (fun m => m.1 == u) with
  | some (_, m) =>
    let next := if m.new = new then none else some new
    { s with lane := { s.lane with moves := mset s.lane.moves u { m with next } } }
  | none => if s.owner u = new then s else s.startMove u new none

/-- The second step of a move (R30): the new owner is set; a unit bound further moves on. -/
def State.endMove (s : State) (u : Nat) (m : GrantMove) : State :=
  let s := { s.wf (LANE_GRANT.OWNER u) m.new with lane := { s.lane with moves := mdel s.lane.moves u } }
  match m.next with
  | some o => s.moveTo u o
  | none => s

/-- An owner code re-pointed. -/
def repointed (old : List Nat) (new o : Nat) : Nat := if old.contains o then new else o

/-- The moves that run towards one of these owner codes go to another one. -/
def State.repointMoves (s : State) (old : List Nat) (new : Nat) : State :=
  { s with lane := { s.lane with moves := s.lane.moves.map (fun (u, m) =>
    (u, { m with new := repointed old new m.new, next := m.next.map (repointed old new) })) } }

/-- Every unit held by one of these owner codes, or on its way to one, re-pointed in one fabric decision (R29). -/
def State.repoint (s : State) (old : List Nat) (new : Nat) : State :=
  let s := s.repointMoves old new
  (List.range 63).foldl (fun s u => if old.contains (s.owner u) then s.wf (LANE_GRANT.OWNER u) new else s) s

/-- Run while the lane is out of reset; a lane in OFF does nothing. -/
def State.whenOn (s : State) (k : State → State) : Res := .next (if s.on then k s else s)

/-- Run when a condition holds; otherwise the command changes nothing (DESIGN CHOICE, log entry 8). -/
def State.whenB (s : State) (c : Bool) (k : State → State) : Res := .next (if c then k s else s)

/-! ### Strikes -/

def State.entry (s : State) (m : Nat) : EntrySt := mget {} s.spn.entries m

def State.setEntry (s : State) (m : Nat) (e : EntrySt) : State :=
  { s with spn := { s.spn with entries := mset s.spn.entries m e } }

/-- A block reports that the action of an entry's instance has completed (R54, R58). -/
def State.strikeDone (s : State) (by_ : Option Nat) : State :=
  match by_ with
  | none => s
  | some m =>
    let e := s.entry m
    match e.inst with
    | none => s
    | some i => if i.doneAt.isNone then s.setEntry m { e with inst := some { i with doneAt := some s.gt } } else s

/-! ### Flow buffers (R313) -/

/-- The lane address of a flow context's buffer. -/
def State.flowBase (s : State) (f : Nat) : Nat := s.rf ANW_BUFBASE.BASE * 2 ^ 20 + 16 * s.rf (ANW_FLOWBUF.BUFOFS f)

/-- The lane address of the half of an RX buffer that holds the current payload. -/
def State.flowRxBase (s : State) (f : Nat) : Nat :=
  s.flowBase f + s.rf (ANW_FLOWSTAT.HALF f) * s.rf (ANW_FLOWBUF.LEN f)

/-- A word of the payload last received on a flow. -/
def State.flowWord (s : State) (f w : Nat) : Nat := s.memWord (s.flowRxBase f + 4 * w)

/-- A write into a TX buffer by a requester, under the grant of unit 47 + f div 64 (R313). -/
def State.flowStore (s : State) (req f ofs : Nat) (l : List Byte) : State :=
  s.granted req (47 + f / 64) (s.flowBase f + ofs) false fun s => s.memStore (s.flowBase f + ofs) l

end Sys2Proof.Machine
end

