-- ==== Sys2Proof/Machine/Inject.lean ====
section
/-! DEFINITION. Link fault injection (R348 to R352): the rules a frame meets at a pad, on its way in or out. -/

namespace Sys2Proof.Machine

/-- Targets of AST_INJTGT. -/
def injAirumTx : Nat := 0
def injAirumRx : Nat := 1
def injBridgeTx : Nat := 2
def injBridgeRx : Nat := 3
def injGlkDown : Nat := 4
def injGlkUp : Nat := 5

/-- What the rules do to one frame: bits inverted (PARAM, FIXCHK), removal, and a hold by a rule. -/
structure InjAct where
  flips : List (Nat × Bool) := []
  drop : Bool := false
  hold : Option Nat := none
  deriving DecidableEq, Repr

/-- 195 follows the armed rules (R352): asserted while any rule is armed. -/
def State.armChange (s : State) (arm : Nat) : State :=
  let old := s.rf AST_INJCTL.ARM
  let s := s.wf AST_INJCTL.ARM arm
  if arm = 0 then s.deassertSrc 195 else if old = 0 then s.assertSrc 195 arm else s

/-- The frame of a GT is one that rule `r` watches and has its MATCH value, at or after START (R349). -/
def State.injMatches (s : State) (r target port mv gt : Nat) : Bool :=
  let start := s.rf (AST_INJSTART.GT r)
  s.rf (AST_INJTGT.TARGET r) == target && s.rf (AST_INJTGT.PORT r) == port &&
  (start == 0 || decide ((gt % 2 ^ 32 + 2 ^ 32 - start) % 2 ^ 32 < 2 ^ 31)) &&
  (s.rb (AST_INJTGT.ANY r) || s.rf (AST_INJTGT.MATCH r) == mv % 2 ^ 12)

/-- An event of rule `r` written to the injection log, with the frame's GT (R351). -/
def State.injLog (s : State) (r seq gt : Nat) : State :=
  let j := s.rf AST_INJLOGPTR.NEXT
  let s := (s.setN (AST_INJLOGGT.adr j) gt).setN (AST_INJLOG.adr j)
    (r * 2 ^ 29 + s.rf (AST_INJTGT.ACTION r) * 2 ^ 24 + seq % 2 ^ 24)
  let s := if j = 63 then s.wb AST_INJLOGPTR.WRAPPED true else s
  s.wf AST_INJLOGPTR.NEXT (j + 1)

/-- A matching frame at rule `r`: SEEN, and at every EVERY-th match after SKIP an event, until COUNT events. -/
def State.injRule (s : State) (r seq gt : Nat) (a : InjAct) : State × InjAct :=
  let m := mget 0 s.ast.matched r + 1
  let s := { s with ast := { s.ast with matched := mset s.ast.matched r m } }.incSat (AST_INJSTAT.SEEN r)
  let n := m - s.rf (AST_INJPAR.SKIP r)
  let every := max 1 (s.rf (AST_INJTGT.EVERY r))
  if n = 0 ∨ n % every ≠ 0 then (s, a)
  else
    let s := (s.wf (AST_INJSTAT.DONE r) (s.rf (AST_INJSTAT.DONE r) + 1)).injLog r seq gt
    let s := if s.rf (AST_INJPAR.COUNT r) ≤ s.rf (AST_INJSTAT.DONE r) then s.armChange (setBitTo (s.rf AST_INJCTL.ARM) r false) else s
    let act := s.rf (AST_INJTGT.ACTION r)
    (s, if act = 0 then { a with drop := true }
        else if act = 1 then { a with flips := a.flips ++ [(s.rf (AST_INJPAR.PARAM r), s.rb (AST_INJTGT.FIXCHK r))] }
        else if a.hold.isNone then { a with hold := some r } else a)

/-- A frame at a target meets every armed rule, lowest number first. -/
def State.inject (s : State) (target port mv seq gt : Nat) : State × InjAct :=
  if s.rf AST_INJCTL.ARM = 0 then (s, {})
  else (List.range 8).foldl (fun (x : State × InjAct) r =>
    if (x.1.rf AST_INJCTL.ARM).testBit r && x.1.injMatches r target port mv gt then x.1.injRule r seq gt x.2 else x) (s, {})

/-- Frames held at a target. -/
def State.heldAt (s : State) (target port : Nat) : List HeldFrame :=
  s.ast.held.filter (fun h => h.target == target && h.port == port)

/-- A frame held by a rule, or behind a delayed frame. -/
def State.injHold (s : State) (target port : Nat) (rule : Option Nat) (rx : Option Instr) (tx : Option OutMsg) : State :=
  let reorder := match rule with | some r => s.rf (AST_INJTGT.ACTION r) == 2 | none => false
  let wait := match rule with
    | some r => if reorder then 100000 else 10 * s.rf (AST_INJPAR.PARAM r)
    | none => 0
  { s with ast := { s.ast with held := s.ast.held ++
      [{ target, port, rule, reorder, since := s.now, due := s.now + wait, rx, tx }] } }

/-- What the rules make of a frame: it passes at once, goes into hold, or is gone; a passed frame releases the frame a
REORDER rule holds at the target. `go` sends or receives the frame, `rel` a released one. -/
def State.injPass (s : State) (a : InjAct) (target port : Nat) (rx : Option Instr) (tx : Option OutMsg)
    (go : State → State) (rel : HeldFrame → State → State) : State :=
  if a.drop then s
  else if a.hold.isSome then s.injHold target port a.hold rx tx
  else if (s.heldAt target port).any (fun h => !h.reorder) then s.injHold target port none rx tx
  else
    let late := s.heldAt target port
    let s := { s with ast := { s.ast with held := s.ast.held.filter (fun h => !(h.target == target && h.port == port)) } }
    late.foldl (fun s h => rel h s) (go s)

/-- GT of a frame to be sent: an Airum frame's launch, else now. -/
def State.txGt (s : State) (m : OutMsg) : Nat :=
  match m with
  | .airum _ _ _ gt => gt
  | _ => s.gt

/-- GT of a frame received: the SFD end of an Airum frame, else now. -/
def State.rxGt (s : State) (c : Instr) : Nat :=
  match c with
  | .airumFrameReceive f => f.sfdGt
  | .starFrameReceive _ f => f.sfdGt
  | _ => s.gt

/-- A frame launched later by some ns. -/
def OutMsg.later (d : Nat) : OutMsg → OutMsg
  | .airum port l ok gt => .airum port l ok (gt + d)
  | .injected m param fix => .injected (m.later d) param fix
  | m => m

/-- A released frame that was to be sent: its launch has moved by the time it was held. -/
def sendHeld (h : HeldFrame) (s : State) : State :=
  match h.tx with
  | some m => s.emit (m.later (s.now - h.since))
  | none => s

/-- A frame sent at a pad that rules may watch. -/
def State.sendInj (s : State) (target port mv seq : Nat) (m : OutMsg) : State :=
  let (s, a) := s.inject target port mv seq (s.txGt m)
  let m := a.flips.foldl (fun m x => .injected m x.1 x.2) m
  s.injPass a target port none (some m) (fun s => s.emit m) sendHeld

/-! ### Messages on the bridges (R31 to R34) -/

/-- Message classes, by their order in Table LANE-5; a bulk message of a module command has a code of its own here. -/
def clsTime : Nat := 1
def clsAgreement : Nat := 2
def clsVote : Nat := 3
def clsSummary : Nat := 4
def clsHeartbeat : Nat := 5
def clsBulk : Nat := 6
def clsModule : Nat := 7

/-- The lane's state lets its endpoints send a class (R34). -/
def State.sendsClass (s : State) (cls : Nat) : Bool :=
  if cls = clsTime ∨ cls = clsHeartbeat then s.on
  else if cls = clsModule then decide (2 ≤ s.st) && s.st != stDebug
  else s.st == stIntegrate || s.st == stService

/-- The endpoint towards lane `k`: endpoint 0 faces the next lane in the order A, B, C, A, endpoint 1 the previous one. -/
def State.endpoint (s : State) (k : Nat) : Nat := if k = (s.otp.lane + 1) % 3 then 0 else 1

/-- A message to lane `k`: on a bridge that is not up only heartbeats and time messages are sent (R33). -/
def State.bridgeTo (s : State) (k cls : Nat) (m : OutMsg) : State :=
  if s.sendsClass cls && (s.bridgeUp k || cls == clsTime || cls == clsHeartbeat)
  then s.sendInj injBridgeTx (s.endpoint k) (min cls 6) 0 (.bridge k m) else s

/-- A message to every fitted peer. -/
def State.bridgeAll (s : State) (cls : Nat) (m : OutMsg) : State := s.peersOf.foldl (fun s k => s.bridgeTo k cls m) s

/-- A frame received at a pad that rules may watch: `flip` gives the command it is after a CORRUPT event (none: a frame
no block takes), `run` receives it, `shift` moves its arrival by the time it was held. -/
def State.recvInj (s : State) (target port mv seq : Nat) (c : Instr) (flip : Nat → Bool → Instr → Option Instr)
    (shift : Nat → Instr → Instr) (run : Instr → State → State) : State :=
  let (s, a) := s.inject target port mv seq (s.rxGt c)
  match a.flips.foldl (fun (m : Option Instr) x => m.bind (flip x.1 x.2)) (some c) with
  | none => s
  | some c =>
    s.injPass a target port (some c) none (run c) (fun h s =>
      match h.rx with
      | some c => run (shift (s.now - h.since) c) s
      | none => s)

/-- The bytes with bit PARAM 2:0 of byte PARAM 15:3 inverted. -/
def flipBit (l : List Byte) (param : Nat) : List Byte :=
  match l[param / 8]? with
  | some b => l.set (param / 8) (b ^^^ BitVec.ofNat 8 (2 ^ (param % 8)))
  | none => l

end Sys2Proof.Machine
end

