-- ==== Sys2Proof/Machine/Anw.lean ====
section
/-! DEFINITION. The Airum node (chapter "Airum time-triggered network"): frames, flows, network time, integration,
schedule sets. Chains are absolute, t div 500 000 (R303). -/

namespace Sys2Proof.Machine

/-- Node states (Table ANW-5). -/
def nodeOff : Nat := 0
def nodeListen : Nat := 1
def nodeBackoff : Nat := 2
def nodeSyncup : Nat := 3
def nodeActive : Nat := 4
def nodePassive : Nat := 5

/-- Header KIND (Table ANW-3). -/
def kindData : Nat := 0
def kindSync : Nat := 1
def kindCold : Nat := 2
def kindEcho : Nat := 3

/-- The flow IDs of echo frames and of the sync and coldstart frames of node `n`. -/
def flowEcho : Nat := 0xFBF
def flowSync (n : Nat) : Nat := 0xFC0 + n

/-! ### Frames (R306 to R309) -/

/-- The channel code of the lane's channel. -/
def State.chanCode (s : State) : Nat := 0x0A + s.otp.lane

/-- The fields of an Airum header (Table ANW-3). -/
structure AirumHdr where
  ver : Nat := 1
  flow : Nat := 0
  sset : Nat := 0
  node : Nat := 0
  kind : Nat := 0
  ch : Nat := 0
  lk : Nat := 0
  age : Nat := 0
  star : Bool := false
  coll : Bool := false
  len : Nat := 0
  seq : Nat := 0
  corr : Nat := 0
  deriving DecidableEq, Repr

/-- The sixteen bytes of a header. -/
def AirumHdr.bytes (h : AirumHdr) : List Byte :=
  leBytes 2 (h.ver % 16 * 4096 + h.flow % 4096) ++ leBytes 1 (h.sset % 4 * 64 + h.node % 64) ++
  leBytes 1 (h.kind % 4 * 64 + h.ch % 64) ++ leBytes 1 (h.lk % 128) ++
  leBytes 1 (h.age % 16 * 16 + b2n h.star * 8 + b2n h.coll * 4) ++ leBytes 2 h.len ++ leBytes 4 h.seq ++ leBytes 4 h.corr

/-- The header of a frame, from the first byte of its MAC client data. -/
def hdrOf (l : List Byte) : AirumHdr :=
  let w := leAt l 14 2
  let b2 := leAt l 16 1
  let b3 := leAt l 17 1
  let b5 := leAt l 19 1
  { ver := w / 4096, flow := w % 4096, sset := b2 / 64, node := b2 % 64, kind := b3 / 64, ch := b3 % 64
    lk := leAt l 18 1 % 128, age := b5 / 16, star := b5.testBit 3, coll := b5.testBit 2, len := leAt l 20 2
    seq := leAt l 22 4, corr := leAt l 26 4 }

/-- The payload of a frame. -/
def payloadOf (l : List Byte) : List Byte := sliceB l 30 (hdrOf l).len

/-- The end-to-end CRC over the implicit prefix, the header with CORR as 0 and the payload (R308): `h` is the header as
it stands on the wire, without CORR. -/
def e2eOver (code setid : Nat) (h p : List Byte) : Nat :=
  crc32 (leBytes 4 code ++ leBytes 4 setid ++ h ++ leBytes 4 0 ++ p)

/-- The end-to-end CRC of a frame to be sent. -/
def e2eCrc (code setid : Nat) (h : AirumHdr) (p : List Byte) : Nat := e2eOver code setid (h.bytes.take 12) p

/-- A received frame carries the end-to-end CRC of its channel and of a SETID, over its header as received. -/
def e2eGood (code setid : Nat) (l : List Byte) : Bool :=
  leAt l (30 + (hdrOf l).len) 4 == e2eOver code setid (sliceB l 14 12) (payloadOf l)

/-- A frame from the destination address to the end of the MAC client data (R306). -/
def airumBytes (code setid : Nat) (h : AirumHdr) (p : List Byte) : List Byte :=
  let body := h.bytes ++ p ++ leBytes 4 (e2eCrc code setid h p)
  let body := if body.length < 46 then padTo 46 body else body
  [0x03, 0x4A, 0x4D, BitVec.ofNat 8 code, BitVec.ofNat 8 (h.flow / 256), BitVec.ofNat 8 h.flow,
   0x02, 0x4A, 0x4D, BitVec.ofNat 8 code, 0x00, BitVec.ofNat 8 h.node] ++ beBytes 2 (20 + p.length) ++ body

/-- The frame is an Airum frame of the channel: length form, and a destination in the range of R306. -/
def airumRange (code : Nat) (l : List Byte) : Bool :=
  decide (ofBe (sliceB l 12 2) ≤ 1500) && sliceB l 0 4 == [0x03, 0x4A, 0x4D, BitVec.ofNat 8 code] && decide (leAt l 4 1 < 16)

/-- Node ID of the source address. -/
def sourceNode (l : List Byte) : Nat := leAt l 11 1

/-! ### Time -/

/-- The node's network time NT = GT + o in 1/16 ns at a lane GT (R319). -/
def State.nt16 (s : State) (gt : Nat) : Nat := (16 * (gt : Int) + s.anw.o).toNat

/-- The chain on NT, and the chain on the lane's own GT. -/
def State.ntChain (s : State) : Nat := s.nt16 s.gt / 8000000
def State.gtChain (s : State) : Nat := s.gt / 500000

/-- The network offset set, with its register in ns. Star boundaries go on from NT where it steps back (R344). -/
def State.setOff (s : State) (o : Int) : State :=
  let s := ({ s with anw := { s.anw with o := o } }).setN ANW_NETOFF.adr (satSigned32 (Int.tdiv o 16))
  if s.ntChain + 1 < s.ast.chain then { s with ast := { s.ast with chain := s.ntChain } } else s

/-- A tick in which GT advances by `d` ns more than 5 ns: o changes by the opposite (R319). -/
def State.offTrack (s : State) (d : Int) : State := if d = 0 then s else s.setOff (s.anw.o - 16 * d)

/-- NT taken anew (R322, R323): the star's next boundary is that of the new NT. -/
def State.retime (s : State) (o : Int) : State :=
  let s := s.setOff o
  { s with ast := { s.ast with chain := s.ntChain } }

/-- A schedule word as the node works by it: a word that an activation changed applies from the node's next restart on
(R328). -/
def State.schedWord (s : State) (a : Nat) : Nat := ((s.anw.kept.find? (fun x => x.1 == a)).map (·.2)).getD (s.rn a)
def State.srf (s : State) (f : Fld) : Nat := f.getN (s.schedWord f.adr)
def State.srb (s : State) (f : Fld) : Bool := s.srf f != 0

def State.nodeSt (s : State) : Nat := s.rf ANW_NODESTAT.STATE
def State.sset (s : State) : Nat := s.rf ANW_NODESTAT.SSET

/-- The lane is a star, and the port its node attaches to (R331, R333). -/
def State.isStar (s : State) : Bool := s.rf AST_CFG.MODE != 0
def State.nodePort (s : State) : Nat := if s.isStar then 8 else 0

/-- The node's link is up; the internal port of a star always is. -/
def State.nodeLink (s : State) : Bool := s.isStar || s.rb ANW_NODESTAT.LINKUP

/-- The node's port carries a set (R321). -/
def State.carries (s : State) (set : Nat) : Bool := s.isStar || s.rb ANW_NODESTAT.RATE || !s.srb (ANW_SETCFG.MINRATE set)

/-- The node may be out of OFF (R321). -/
def State.nodeMay (s : State) : Bool := (s.st == stIntegrate || s.st == stService) && s.rb ANW_NODECFG.EN

/-- The node sends sync frames (R302). -/
def State.syncNode (s : State) : Bool := s.rb ANW_NODECFG.SYNC || s.rb ANW_NODECFG.CS

def State.flowSt (s : State) (f : Nat) : FlowSt := mget {} s.anw.flows f
def State.setFlow (s : State) (f : Nat) (x : FlowSt) : State := { s with anw := { s.anw with flows := mset s.anw.flows f x } }

/-- One span of a flow, counted by Steelyard (R380). -/
def State.spanCount (s : State) (f : Nat) : State :=
  { s with sty := { s.sty with spans := mset s.sty.spans f ((mget 0 s.sty.spans f + 1) % 65536) } }

/-! ### Stale flows (R318) -/

def State.isRx (s : State) (f : Nat) : Bool := s.rb (ANW_FLOWCFG.EN f) && !s.rb (ANW_FLOWCFG.DIR f)
def State.isTx (s : State) (f : Nat) : Bool := s.rb (ANW_FLOWCFG.EN f) && s.rb (ANW_FLOWCFG.DIR f)
def State.rxFlows (s : State) : List Nat := (List.range 512).filter s.isRx

/-- STALE of a context; a TX or disabled one is never stale. -/
def State.staleNow (s : State) (f : Nat) : Bool :=
  let max := s.rf (ANW_FLOWCFG.MAXAGE f)
  let age := decide (max < s.rf (ANW_FLOWSTAT.AGE f))
  s.isRx f && max != 0 && (if s.rb (ANW_FLOWSTAT.PRIMED f) then age
    else match s.anw.firstActive with
      | none => false
      | some c => age && decide (c + 2 ^ s.srf (ANW_FLOWSLOT.REPEXP f s.sset) + max ≤ s.anw.chain))

/-- STALE bits follow the ages; 178 is asserted while any context is stale (R318). -/
def State.staleUpdate (s : State) : State :=
  let was := s.asserted 178
  let s := (List.range 512).foldl (fun s f =>
    let b := s.staleNow f
    if b = s.rb (ANW_FLOWSTAT.STALE f) then s
    else (s.wb (ANW_FLOWSTAT.STALE f) b).wbit (ANW_STALE.STALE (f / 32)) (f % 32) b) s
  match s.rxFlows.find? (fun f => s.rb (ANW_FLOWSTAT.STALE f)) with
  | none => s.deassertSrc 178
  | some f => if was then s else s.assertSrc 178 f

/-! ### Node state -/

/-- Windows are no longer enforced: the star is in start-up mode (R338). -/
def State.enforceOff (s : State) : State := s.wb AST_STAT.ENFORCE false

/-- The node enters LISTEN (R321). -/
def State.enterListen (s : State) : State :=
  let s := (s.enforceOff.wf ANW_NODESTAT.STATE nodeListen).wb ANW_SWSTAT.SWPEND false
  { s with anw := { s.anw with listenGt := s.gt, launch := none, syncs := [], badRound := false, badSet := false,
                               lowRun := 0, roundRun := 0, setRun := 0, announce := none, kept := [] } }

/-- The node is OFF (R321). -/
def State.nodeGoOff (s : State) : State := (s.enforceOff.wf ANW_NODESTAT.STATE nodeOff).wb ANW_NODESTAT.NETVALID false

/-- INTEGRATE entry: the node listens if its link is up (R321). -/
def State.nodeStart (s : State) : State :=
  let s := if s.isStar then (s.wb ANW_NODESTAT.LINKUP true).wb ANW_NODESTAT.RATE true else s
  if s.nodeMay && s.nodeLink then s.enterListen else s

/-- An activation that changes NODECFG.EN turns the node off, or starts it as INTEGRATE entry does (R321). -/
def State.nodeFollow (s old : State) : State :=
  if s.rb ANW_NODECFG.EN = old.rb ANW_NODECFG.EN then s
  else if s.nodeMay then s.nodeStart
  else if s.nodeSt = nodeOff then s else s.nodeGoOff

/-- ANW_INTEGRATION_LOST (R324). -/
def State.lossOf (s : State) (cause : Nat) : State :=
  (((s.raiseEv 179 cause).incSat ANW_EVCNT.INTLOST).enterListen).wb ANW_NODESTAT.NETVALID false

/-- A failed coldstart attempt (R323): BACKOFF until launch + (2 + 2 × NODE) × 500 000 ns. -/
def State.enterBackoff (s : State) (launch : Nat) : State :=
  let s := s.wf ANW_NODESTAT.STATE nodeBackoff
  { s with anw := { s.anw with launch := none, retryGt := launch + (2 + 2 * s.rf ANW_NODECFG.NODE) * 500000 } }

/-- A node that has a coldstart attempt open: its launch. -/
def State.coldLaunch (s : State) : Option Nat := s.anw.launch

/-! ### Sending -/

/-- A frame launched by the node at a lane GT (R315): a leaf's passes transmit injection at N0; a star's goes to the
internal port, where receive injection acts before the window judgement (R350). -/
def State.airumSend (s : State) (setid : Nat) (h : AirumHdr) (p : List Byte) (gt : Nat) : State :=
  let m := OutMsg.airum s.nodePort (airumBytes s.chanCode setid h p) true gt
  if s.isStar then s.emit m else s.sendInj injAirumTx 0 h.flow h.seq m

/-- SEQ of a flow moves to the next frame (R315). -/
def State.nextSeq (s : State) (flow : Nat) : State × Nat :=
  let q := (mget 0 s.anw.seqs flow + 1) % 2 ^ 32
  ({ s with anw := { s.anw with seqs := mset s.anw.seqs flow q } }, q)

/-- The payload of the node's sync or coldstart frame (Table ANW-4). -/
def State.syncPayload (s : State) (round set : Nat) : List Byte :=
  leBytes 4 round ++ leBytes 1 (b2n (s.rb ANW_SWSTAT.SWPEND) * 128 + s.rf ANW_SWSTAT.SETNEXT * 4 + set % 4) ++
  leBytes 1 (s.rf ANW_SWSTAT.SWCH) ++ leBytes 2 0 ++ leBytes 4 (s.rn ANW_SWROUND.adr) ++
  leBytes 4 (s.schedWord (ANW_SETID.adr set)) ++ leBytes 4 (if s.isStar then 0 else s.rn ANW_PORTDLY.adr)

/-- The lowest enabled set that the node's own port carries. -/
def State.ownSet (s : State) : Option Nat := [0, 1, 2, 3].find? (fun k => s.srb (ANW_SETCFG.EN k) && s.carries k)

/-- A coldstart attempt: the frame of KIND 2 at LK 0 of the running chain on the node's own GT, launched at `at_` (R323). -/
def State.coldstart (s : State) (at_ : Nat) : State :=
  match s.ownSet with
  | none => s
  | some k =>
    let node := s.rf ANW_NODECFG.NODE
    let c := s.gtChain
    let (s, q) := s.nextSeq (flowSync node)
    let s := s.retime 0
    let s := (((s.wf ANW_NODESTAT.SSET k).wf ANW_NODESTAT.CH c).setN ANW_ROUND.adr (c / 64)).wf ANW_NODESTAT.STATE nodeListen
    let s := s.incSat ANW_EVCNT.CSATT
    let s := { s with anw := { s.anw with launch := some at_, chain := c, heard := c } }
    s.airumSend (s.schedWord (ANW_SETID.adr k))
      { flow := flowSync node, sset := k, node, kind := kindCold, ch := c, len := 20, seq := q } (s.syncPayload (c / 64) k) at_

/-- COLDSTART_ATTEMPT (R323): at LK 0 of the first chain boundary after CSWAIT chains in which nothing was accepted. -/
def execColdstartAttempt (s : State) : Res :=
  let from_ := s.anw.listenGt + s.rf ANW_NODECFG.CSWAIT * 500000
  let b := (from_ + 499999) / 500000 * 500000
  s.whenB (s.nodeSt == nodeListen && s.coldLaunch.isNone && s.rb ANW_NODECFG.CS && s.nodeLink && decide (b + 78 ≤ s.gt)) fun s =>
    s.coldstart (s.gtChain * 500000 + 80)

/-- BACKOFF_RETRY (R323). -/
def execBackoffRetry (s : State) : Res :=
  s.whenB (s.nodeSt == nodeBackoff && s.nodeLink && decide (s.anw.retryGt ≤ s.gt)) fun s => s.coldstart s.anw.retryGt

/-- The copy of a TX buffer into the egress store begins (R314). -/
def State.sealStart (s : State) (f : Nat) (auto entry : Option Nat) : State :=
  let x := s.flowSt f
  s.setFlow f { x with starts := x.starts ++ [{ payload := s.memBytes (s.flowBase f) (s.rf (ANW_FLOWBUF.LEN f)), auto, entry }] }

/-- An AIRUM_TX strike (R315): refused for a context that is disabled or receives. -/
def State.strikeSeal (s : State) (f entry : Nat) : Option State :=
  if f < 512 ∧ s.isTx f then some (s.sealStart f none (some entry)) else none

/-- ANW_HANDOFF (R314): a seal of a TX context under its grant unit. -/
def execAnwHandoff (req flow : Nat) (s : State) : Res :=
  s.whenOn fun s => s.granted req (47 + flow / 64) ANW_HANDOFF.adr false fun s =>
    if s.isTx flow then s.sealStart flow none none else s

/-- The context has a span in chain `c` of set `k`: its first link (R312). -/
def State.spanIn (s : State) (f k c : Nat) : Option Nat :=
  if s.srb (ANW_FLOWSLOT.EN f k) && c % 2 ^ s.srf (ANW_FLOWSLOT.REPEXP f k) == s.srf (ANW_FLOWSLOT.CHOFS f k) then
    some (s.srf (ANW_FLOWSLOT.LK f k))
  else none

/-- The set whose slot gives a TX context its spans: the set in force, or where it has no slot there the first set in
which it has one (R315). -/
def State.spanSet (s : State) (f : Nat) : Nat :=
  if s.srb (ANW_FLOWSLOT.EN f s.sset) then s.sset
  else ([0, 1, 2, 3].find? (fun k => s.srb (ANW_FLOWSLOT.EN f k))).getD s.sset

/-- The chain, of the running one and the next, whose cutoff of context `f` has come: 2 000 ns before the span. -/
def State.cutoffChain (s : State) (f : Nat) : Option Nat :=
  [s.gtChain, s.gtChain + 1].find? (fun c =>
    match s.spanIn f s.sset c with
    | none => false
    | some lk => decide (c * 500000 + 5000 * lk ≤ s.gt + 2000) && decide (s.gt < c * 500000 + 5000 * lk)
        && (s.flowSt f).cut != some c)

/-- SEAL_CUTOFF (R314): the automatic seal of a context with HANDOFF. -/
def execSealCutoff (flow : Nat) (s : State) : Res :=
  match s.cutoffChain flow with
  | none => .next s
  | some c => s.whenB (s.on && s.isTx flow && s.rb (ANW_FLOWCFG.HANDOFF flow)) fun s =>
      (s.setFlow flow { s.flowSt flow with cut := some c }).sealStart flow (some c) none

/-- SEAL_COMPLETE (R314): the oldest seal in progress completes; the first one primes the context. -/
def execSealComplete (flow : Nat) (s : State) : Res :=
  let x := s.flowSt flow
  match x.starts with
  | [] => .next s
  | q :: t => s.whenOn fun s =>
      let s := s.setFlow flow { x with starts := t, seals := x.seals ++ [{ q with doneGt := s.gt }] }
      (s.wb (ANW_FLOWSTAT.PRIMED flow) true).strikeDone q.entry

/-- A completed seal goes into the span of chain `c` that starts at a GT: a seal of this cutoff does; others by their
completion, and within the 20 ns before the cutoff either way (R314). -/
def sealCounts (free c start : Nat) (q : Seal) : Bool :=
  match q.auto with
  | some k => decide (k ≤ c)
  | none => decide (q.doneGt + 2020 ≤ start) || (decide (q.doneGt + 2000 < start) && Config.freeBool free)

/-- The seal whose payload the span of chain `c` carries, and those that stay with it. -/
def pickSeal (free c start : Nat) (l : List Seal) : Option (Seal × List Seal) :=
  let early := l.takeWhile (sealCounts free c start)
  match early.getLast? with
  | none => none
  | some q => some (q, q :: l.drop early.length)

/-- A dropped TX span (R315). -/
def State.spanDrop (s : State) (f : Nat) : State := (s.incWrap (ANW_FLOWCNT.LOST f)).spanCount f

/-- A frame that counted in GOOD of a TX context sending on the port, by the contexts' side (R380). -/
def State.goodCount (s : State) (port : Nat) : State :=
  { s with sty := { s.sty with goods := mset s.sty.goods port (mget 0 s.sty.goods port + 1) } }

/-- A frame of a TX context leaves the port's MAC, which Steelyard counts whatever injection makes of it (R351, R380). -/
def State.macSend (s : State) (setid : Nat) (h : AirumHdr) (p : List Byte) (gt : Nat) : State :=
  let n := s.nodePort
  { s with sty := { s.sty with macs := mset s.sty.macs n (mget 0 s.sty.macs n + 1) } }.airumSend setid h p gt

/-- One frame of a TX context sent: SEQ, GOOD, the port's counts (R315, R380). -/
def State.spanSend (s : State) (f c lk age : Nat) (h : AirumHdr) (p : List Byte) : State :=
  let (s, q) := s.nextSeq h.flow
  let s := ((s.incWrap (ANW_FLOWCNT.GOOD f)).wf (ANW_FLOWSTAT.SEQ f) q).wf (ANW_FLOWSTAT.AGE f) age
  let s := ((s.wb (ANW_FLOWSTAT.PRIMED f) true).spanCount f).goodCount s.nodePort
  s.macSend (s.schedWord (ANW_SETID.adr s.sset))
    { h with sset := s.sset, node := s.rf ANW_NODECFG.NODE, ch := c, lk, age, len := p.length, seq := q } p
    (c * 500000 + 5000 * lk + 80)

/-- The star's own node begins an announcement with the beacon it sends now (R327). -/
def State.announceNow (s : State) (c : Nat) : State :=
  match s.anw.announce with
  | none => s
  | some k =>
    let s := { s with anw := { s.anw with announce := none } }
    ((s.setN ANW_SWSTAT.adr (2 ^ 31 + k * 2 ^ 26 + (c + 8) % 64 * 2 ^ 16)).setN ANW_SWROUND.adr ((c + 8) / 64))

/-- A sync context's span (R302, R309): sent in SYNCUP and ACTIVE. -/
def State.syncSpan (s : State) (f c lk : Nat) : State :=
  if (s.nodeSt == nodeSyncup || s.nodeSt == nodeActive) && s.nodeLink && s.srb (ANW_FLOWSLOT.EN f s.sset) && s.syncNode then
    let main := s.rf AST_CFG.MODE == 1
    let s := if main then s.announceNow c else s
    let s := { s with anw := { s.anw with own := some s.anw.chain } }
    s.spanSend f c lk 0 { flow := s.rf (ANW_FLOWCFG.FLOWID f), kind := kindSync, star := main } (s.syncPayload (c / 64) s.sset)
  else if s.rb (ANW_FLOWSTAT.PRIMED f) then s.spanDrop f
  else s

/-- A data context's span (R315). -/
def State.dataSpan (s : State) (f c lk : Nat) : State :=
  let x := s.flowSt f
  let start := c * 500000 + 5000 * lk
  match pickSeal s.free c start x.seals with
  | none => if s.rb (ANW_FLOWSTAT.PRIMED f) then s.spanDrop f else s
  | some (q, rest) =>
    let s := (s.used 1).setFlow f { x with seals := rest }
    if s.nodeSt == nodeActive && s.nodeLink && s.srb (ANW_FLOWSLOT.EN f s.sset) then
      s.spanSend f c lk (min 15 (start / 500000 - q.doneGt / 500000))
        { flow := s.rf (ANW_FLOWCFG.FLOWID f), kind := s.rf (ANW_FLOWCFG.KIND f) } q.payload
    else s.spanDrop f

/-- The launch point of a span of the running chain has come (R304, R315): its first link. -/
def State.spanDue (s : State) (f : Nat) : Option Nat :=
  let c := s.gtChain
  match s.spanIn f (s.spanSet f) c with
  | none => none
  | some lk =>
    if s.on && s.isTx f && decide (c * 500000 + 5000 * lk + 78 ≤ s.gt) && (s.flowSt f).sent != some c then some lk else none

/-- A span of the running chain launched. -/
def State.spanRun (s : State) (f lk : Nat) : State :=
  let c := s.gtChain
  let s := s.setFlow f { s.flowSt f with sent := some c }
  if s.rf (ANW_FLOWCFG.KIND f) = kindSync then s.syncSpan f c lk else s.dataSpan f c lk

/-! ### Receiving (R316, R317, R319, R322) -/

/-- Contexts that expect a frame with this header. -/
def State.rxMatch (s : State) (h : AirumHdr) : List Nat :=
  s.rxFlows.filter (fun f => s.rf (ANW_FLOWCFG.FLOWID f) == h.flow && s.rf (ANW_FLOWCFG.SENDER f) == h.node &&
    s.rf (ANW_FLOWBUF.LEN f) == h.len)

/-- A payload accepted into the inactive half of a context's buffer, for its span in chain `c` (R317); a boundary still to be
handled ages it as it ages the others. A span counted
missed at a boundary that came before the frame was judged counts as received after all. Steelyard counts the span of the
schedule, whatever number of frames it brings (R380). -/
def State.flowAccept (s : State) (f c : Nat) (h : AirumHdr) (p : List Byte) : State :=
  let x := s.flowSt f
  let half := 1 - s.rf (ANW_FLOWSTAT.HALF f)
  let s := s.memStore (s.flowBase f + half * s.rf (ANW_FLOWBUF.LEN f)) p
  let undo := x.missed == some c
  let s := s.setFlow f { x with got := some c, missed := none }
  let s := if undo then s.wf (ANW_FLOWCNT.LOST f) (s.rf (ANW_FLOWCNT.LOST f) + 65535)
    else if x.got = some c then s else s.spanCount f
  let s := ((s.wf (ANW_FLOWSTAT.HALF f) half).wf (ANW_FLOWSTAT.SEQ f) h.seq).wb (ANW_FLOWSTAT.PRIMED f) true
  (s.incWrap (ANW_FLOWCNT.GOOD f)).wf (ANW_FLOWSTAT.AGE f) (min 255 (h.age + (s.anw.chain - c)))

/-- The deviation of a sync frame in 1/16 ns, for a span start in ns (R319). -/
def State.deviation (s : State) (sfdGt start : Nat) (h : AirumHdr) (dly : Nat) : Int :=
  16 * (sfdGt : Int) - (s.rn ANW_PORTDLY.adr : Int) - (dly : Int) - (h.corr : Int) - 16 * ((start : Int) + 80)

/-- An accepted beacon's announcement (R328). -/
def State.takeAnnounce (s : State) (p : List Byte) : State :=
  let b := leAt p 4 1
  if b.testBit 7 then
    (s.setN ANW_SWSTAT.adr (2 ^ 31 + b / 4 % 4 * 2 ^ 26 + leAt p 5 1 % 64 * 2 ^ 16)).setN ANW_SWROUND.adr (leAt p 8 4)
  else s

/-- A sync frame accepted in chain `c` (R319, R322, R324, R328). -/
def State.syncAccept (s : State) (c sfdGt : Nat) (h : AirumHdr) (p : List Byte) : State :=
  let d := s.deviation sfdGt (c * 500000 + 5000 * h.lk) h (leAt p 16 4)
  let same := leAt p 0 4 == c / 64 % 2 ^ 32 && leAt p 4 1 % 4 == s.sset && leAt p 12 4 == s.schedWord (ANW_SETID.adr s.sset)
  let beacon := h.star && h.lk == 0
  let s := { s with anw := { s.anw with syncs := s.anw.syncs ++ [{ node := h.node, dev := d, same, beacon }] } }
  if beacon then s.takeAnnounce p else s

/-- A beacon that passed its CRC, held against the node's own view (R324 detail 2 and 3): ROUND and CH, SETNOW and SETID. -/
def State.beaconView (s : State) (h : AirumHdr) (p : List Byte) : State :=
  if !(h.star && h.kind == kindSync && h.lk == 0) then s else
  let c := s.ntChain
  let badR := leAt p 0 4 != c / 64 % 2 ^ 32 || h.ch != c % 64
  let badS := leAt p 4 1 % 4 != s.sset || leAt p 12 4 != s.schedWord (ANW_SETID.adr s.sset)
  { s with anw := { s.anw with badRound := s.anw.badRound || badR, badSet := s.anw.badSet || badS } }

/-- The first frame of the channel that a node in LISTEN or BACKOFF accepts (R322): offset, chain, round and set from it,
and SYNCUP; another SETID, or a set the port cannot carry, leaves the node where it is. -/
def State.adopt (s : State) (sfdGt : Nat) (h : AirumHdr) (p : List Byte) : State :=
  let set := leAt p 4 1 % 4
  let round := leAt p 0 4
  let c := round * 64 + h.ch
  if leAt p 12 4 ≠ s.schedWord (ANW_SETID.adr set) then
    let s := { s with anw := { s.anw with listenGt := s.gt } }
    s.raiseEv 179 3
  else if !s.carries set then { s with anw := { s.anw with listenGt := s.gt } }
  else
    let s := s.retime (- s.deviation sfdGt (c * 500000 + 5000 * h.lk) h (leAt p 16 4))
    let s := ((s.wf ANW_NODESTAT.CH c).setN ANW_ROUND.adr (c / 64)).wf ANW_NODESTAT.SSET set
    let s := s.wf ANW_NODESTAT.STATE nodeSyncup
    { s with anw := { s.anw with chain := s.ntChain, heard := c, launch := none, syncs := [], badRound := false,
                                 badSet := false, lowRun := 0, roundRun := 0, setRun := 0 } }

/-- The contexts of a frame that names their span, with its SFD end inside that span on NT (R316). -/
def State.inSpan (s : State) (f sfdGt : Nat) (h : AirumHdr) : Bool :=
  let nt := s.nt16 sfdGt
  let c := nt / 8000000
  let start := c * 8000000 + 80000 * h.lk
  h.sset == s.sset && h.ch == c % 64 && s.spanIn f s.sset c == some h.lk &&
  decide (start ≤ nt) && decide (nt < start + 80000 * s.srf (ANW_FLOWSLOT.SPAN f s.sset))

/-- A frame with a good FCS and end-to-end CRC at its contexts (R316, R317, R319); CSWAIT counts anew from a frame that a
node in LISTEN accepts (R323). -/
def State.rxFlowsIn (s : State) (fs : List Nat) (sfdGt : Nat) (h : AirumHdr) (p : List Byte) : State :=
  let c := s.nt16 sfdGt / 8000000
  let fs := fs.filter (fun f => s.inSpan f sfdGt h)
  let s := if s.nodeSt = nodeListen ∧ fs ≠ [] then { s with anw := { s.anw with listenGt := s.gt } } else s
  let s := fs.foldl (fun s f => s.flowAccept f c h p) s
  let s := if h.kind = kindSync ∧ fs ≠ [] then s.syncAccept c sfdGt h p else s
  s.staleUpdate

/-- A collision notice to a node with an open attempt (R323). -/
def State.collision (s : State) : State :=
  match s.coldLaunch with
  | none => s
  | some t => ((s.raiseEv 180 (s.rf ANW_NODECFG.NODE)).incSat ANW_EVCNT.COLL).enterBackoff t

/-- A frame at the node's port after injection (R306, R316). -/
def State.nodeRx (s : State) (fr : AirumFrame) : State :=
  if s.nodeSt = nodeOff ∨ !airumRange s.chanCode fr.bytes then s
  else if !fr.fcsOk then (s.incSat ANW_ERRCNT.FCSERR).raiseEv 176 (s.nodePort % 8)
  else
    let h := hdrOf fr.bytes
    let p := payloadOf fr.bytes
    let good := e2eGood s.chanCode (s.schedWord (ANW_SETID.adr h.sset)) fr.bytes
    if h.ver ≠ 1 then s
    else if h.kind = kindCold ∧ h.coll then (if good then s.collision else s)
    else
      let fs := s.rxMatch h
      let listening := s.nodeSt == nodeListen || s.nodeSt == nodeBackoff
      let join := listening && (h.kind == kindSync || h.kind == kindCold) && h.len == 20
      let good := if join then e2eGood s.chanCode (leAt p 12 4) fr.bytes else good
      match fs with
      | [] => s
      | f :: _ =>
        if !good then (s.incSat ANW_ERRCNT.E2EERR).raiseEv 177 f
        else if join then
          let s := s.adopt fr.sfdGt h p
          if s.nodeSt == nodeSyncup then s.rxFlowsIn fs fr.sfdGt h p else s
        else (s.beaconView h p).rxFlowsIn fs fr.sfdGt h p

/-- An Airum frame after a CORRUPT event: a bit of the frame or of its FCS, which FIXCHK forms anew. -/
def airumFlip (param : Nat) (fix : Bool) (f : AirumFrame) : AirumFrame :=
  if param / 8 < f.bytes.length + 4 then { f with bytes := flipBit f.bytes param, fcsOk := fix } else f

/-- AIRUM_FRAME_RECEIVE: a frame at the node's port, a leaf's N0 or the internal port of a star (R316, R333). Receive
injection acts on a leaf here, and on a star before its window judgement (R350). -/
def execAirumFrameReceive (frame : AirumFrame) (s : State) : Res :=
  s.whenOn fun s =>
    if s.isStar then s.nodeRx frame
    else
      let h := hdrOf frame.bytes
      s.recvInj injAirumRx 0 h.flow h.seq (.airumFrameReceive frame)
        (fun p fix c => match c with | .airumFrameReceive f => some (.airumFrameReceive (airumFlip p fix f)) | c => some c)
        (fun d c => match c with | .airumFrameReceive f => .airumFrameReceive { f with sfdGt := f.sfdGt + d } | c => c)
        (fun c s => match c with | .airumFrameReceive f => s.nodeRx f | _ => s)

/-! ### Chain boundaries (R317 to R328) -/

/-- Insertion into a rising list. -/
def insertI (x : Int) : List Int → List Int
  | [] => [x]
  | y :: t => if x ≤ y then x :: y :: t else y :: insertI x t

/-- A list in rising order. -/
def sortI (l : List Int) : List Int := l.foldr insertI []

/-- The deviations that count (R319): the extremes removed where there are three or more. -/
def trimmed (l : List Int) : List Int := if 3 ≤ l.length then ((sortI l).drop 1).dropLast else sortI l

/-- −mean of the deviations; the mean is cut towards zero to 1/16 ns. -/
def offsetOf (l : List Int) : Int := - Int.tdiv ((trimmed l).foldl (· + ·) 0) ((trimmed l).length : Int)

/-- The distinct nodes of the sync frames accepted in the chain that ends, the own one counted (R322). -/
def State.syncNodes (s : State) : List Nat :=
  let l := (s.anw.syncs.map (·.node)).eraseDups
  if s.anw.own = some s.anw.chain then (s.rf ANW_NODECFG.NODE :: l).eraseDups else l

/-- The chain that ends was full valid (R322). -/
def State.fullValid (s : State) : Bool :=
  let ownBeacon := s.anw.own == some s.anw.chain && s.rf AST_CFG.MODE == 1
  decide (2 ≤ s.syncNodes.length) && s.anw.syncs.all (·.same) && (ownBeacon || s.anw.syncs.any (·.beacon))

/-- The losses of integration judged at a boundary (R324). -/
def State.judgeLoss (s : State) : State :=
  let a := s.anw
  let low := if s.syncNodes.length < 2 then a.lowRun + 1 else 0
  let rr := if a.badRound then a.roundRun + 1 else 0
  let sr := if a.badSet then a.setRun + 1 else 0
  let s := { s with anw := { a with lowRun := low, roundRun := rr, setRun := sr } }
  if 2 ≤ sr then s.lossOf 3 else if 2 ≤ rr then s.lossOf 2 else if 3 ≤ low then s.lossOf 1 else s

/-- ACTIVE and PASSIVE by |o| (R325). -/
def State.judgePassive (s : State) : State :=
  let o := s.anw.o.natAbs
  if s.nodeSt = nodeActive ∧ 3200 < o then
    (s.wf ANW_NODESTAT.STATE nodePassive).incSat ANW_EVCNT.PASSIVE
  else if s.nodeSt = nodePassive ∧ o ≤ 1600 then s.wf ANW_NODESTAT.STATE nodeActive
  else s

/-- What the ended chain does to the node's state: SYNCUP to ACTIVE or BACKOFF, losses, PASSIVE (R322 to R325). A
coldstart node whose frame drew no notice is in SYNCUP from the boundary that ends the frame's chain on. -/
def State.judgeChain (s : State) (newChain : Nat) : State :=
  if s.nodeSt = nodeSyncup then
    if s.anw.heard < s.anw.chain ∧ s.fullValid then
      let s := s.wf ANW_NODESTAT.STATE nodeActive
      { s with anw := { s.anw with active := newChain, firstActive := some (s.anw.firstActive.getD newChain), launch := none
                                   lowRun := 0, roundRun := 0, setRun := 0 } }
    else match s.coldLaunch with
      | some t => if s.anw.heard < s.anw.chain then s.enterBackoff t else s
      | none => s
  else if s.nodeSt = nodeListen ∧ s.coldLaunch.isSome then s.wf ANW_NODESTAT.STATE nodeSyncup
  else if s.nodeSt = nodeActive ∨ s.nodeSt = nodePassive then
    let s := s.judgeLoss
    if s.nodeSt = nodeListen then s else s.judgePassive
  else s

/-- The chain that ends, at the RX contexts: a span without an accepted frame is lost; then every age moves on (R317). -/
def State.ageFlows (s : State) (ended : Nat) : State :=
  s.rxFlows.foldl (fun s f =>
    if !s.rb (ANW_FLOWSTAT.PRIMED f) then s
    else
      let x := s.flowSt f
      let s := if (s.spanIn f s.sset ended).isSome ∧ x.got ≠ some ended then
          ((s.incWrap (ANW_FLOWCNT.LOST f)).spanCount f).setFlow f { x with missed := some ended }
        else s
      s.incSat (ANW_FLOWSTAT.AGE f)) s

/-- A switch announced for a chain at or before this one applies (R328). -/
def State.applySwitch (s : State) (c : Nat) : State :=
  if s.rb ANW_SWSTAT.SWPEND ∧ s.rn ANW_SWROUND.adr * 64 + s.rf ANW_SWSTAT.SWCH ≤ c then
    (s.wf ANW_NODESTAT.SSET (s.rf ANW_SWSTAT.SETNEXT)).wb ANW_SWSTAT.SWPEND false
  else s

/-- The preferred set of the star: the lowest enabled one whose MINRATE every port with its link up carries (R327). -/
def State.preferred (s : State) : Option Nat :=
  [0, 1, 2, 3].find? (fun k => s.srb (ANW_SETCFG.EN k) && (!s.srb (ANW_SETCFG.MINRATE k) ||
    (List.range 8).all (fun n => !s.rb (AST_PORTSTAT.LINKUP n) || s.rb (AST_PORTSTAT.RATE n))))

/-- The star's own node follows the preferred set: downward at once, upward from 1 s on (R327). -/
def State.preferCheck (s : State) : State :=
  if s.rf AST_CFG.MODE ≠ 1 then s else
  match s.preferred with
  | none => { s with anw := { s.anw with prefer := none } }
  | some k =>
    if k = s.sset then { s with anw := { s.anw with prefer := none, announce := none } }
    else if s.sset < k then
      let s := { s with anw := { s.anw with prefer := none } }
      if s.rb ANW_SWSTAT.SWPEND then s else { s with anw := { s.anw with announce := some k } }
    else match s.anw.prefer with
      | some (j, _) => if j = k then s else { s with anw := { s.anw with prefer := some (k, s.now) } }
      | none => { s with anw := { s.anw with prefer := some (k, s.now) } }

/-- NETWORK_CHAIN_BOUNDARY (R317 to R319, R322 to R328): the oldest boundary of NT not yet handled; a node that has not heard
the channel goes to the running chain at once. -/
def execNetworkChainBoundary (s : State) : Res :=
  s.whenB (s.on && s.rb ANW_NODECFG.EN && decide (s.anw.chain < s.ntChain)) fun s =>
    let ended := s.anw.chain
    let c := if s.nodeSt == nodeSyncup || s.nodeSt == nodeActive || s.nodeSt == nodePassive then ended + 1 else s.ntChain
    let ds := (s.anw.syncs.filter (fun r => r.node != s.rf ANW_NODECFG.NODE)).map (·.dev)
    let s := s.wf ANW_NODESTAT.SYNCCNT (min 15 s.syncNodes.length)
    let s := if ds.isEmpty then s else s.setOff (offsetOf ds)
    let s := s.judgeChain c
    let valid := !ds.isEmpty && (s.nodeSt == nodeActive || s.nodeSt == nodePassive)
    let s := if ds.isEmpty then s.wb ANW_NODESTAT.NETVALID false else if valid then s.wb ANW_NODESTAT.NETVALID true else s
    let s := s.ageFlows ended
    let s := (s.applySwitch c).preferCheck
    let s := { s with anw := { s.anw with chain := c, syncs := [], badRound := false, badSet := false } }
    ((s.wf ANW_NODESTAT.CH c).setN ANW_ROUND.adr (c / 64)).staleUpdate

/-- SET_PREFER_TIMEOUT (R327): a lower set has been preferred for 1 s. -/
def execSetPreferTimeout (s : State) : Res :=
  match s.anw.prefer with
  | none => .next s
  | some (k, t) =>
    s.whenB (s.rf AST_CFG.MODE == 1 && decide (t + 1000000000 ≤ s.now) && s.preferred == some k && !s.rb ANW_SWSTAT.SWPEND) fun s =>
      { s with anw := { s.anw with prefer := none, announce := some k } }

/-! ### Links (R310, R311) -/

/-- A link may come up at a rate: in the port's range, and without auto-negotiation at MAXRATE (R310). -/
def rateOk (an max min gig : Bool) : Bool := (if gig then max else !min) && (an || gig == max)

/-- Sixteen echo frames, 10 µs apart (R311). -/
def State.sendEchoes (s : State) (port : Nat) : State :=
  (List.range 16).foldl (fun s i =>
    let (s, q) := s.nextSeq flowEcho
    let gt := s.gt + 10000 * i
    s.sendInj injAirumTx port flowEcho q (.airum port (airumBytes s.chanCode (s.schedWord (ANW_SETID.adr s.sset))
      { flow := flowEcho, sset := s.sset, node := s.rf ANW_NODECFG.NODE, kind := kindEcho, ch := gt / 500000
        lk := gt % 500000 / 5000, len := 8, seq := q } (leBytes 8 gt)) true gt)) s

def State.starPort (s : State) (n : Nat) : StarPort := mget {} s.ast.ports n
def State.setStarPort (s : State) (n : Nat) (p : StarPort) : State := { s with ast := { s.ast with ports := mset s.ast.ports n p } }

/-- PDLY from DLYNOM at the ports no sync frame has given a DLY (R342). -/
def State.starDly (s : State) : State :=
  if !s.isStar then s
  else (List.range 8).foldl (fun s n =>
    if (s.starPort n).learned then s else s.setN (AST_PORTDLY.adr n) (16 * s.rf (AST_PORTCFG.DLYNOM n))) s

/-- A leaf's link comes up: rate, echo frames, cable delay, LISTEN (R311, R321). Round trips are in 1/16 ns. -/
def State.leafUp (s : State) (gig : Bool) (trips : List Nat) : State :=
  let s := (s.wb ANW_NODESTAT.LINKUP true).wb ANW_NODESTAT.RATE gig
  let s := { s with anw := { s.anw with forced := mdel s.anw.forced 0 } }
  let s := s.sendEchoes 0
  let s := if trips.isEmpty then s else s.setN ANW_PORTDLY.adr ((trips.foldl (· + ·) 0 / trips.length - 16000) / 2)
  if s.nodeMay then s.enterListen else s

/-- A star port's link comes up. -/
def State.starUp (s : State) (n : Nat) (gig : Bool) : State :=
  let s := (s.wb (AST_PORTSTAT.LINKUP n) true).wb (AST_PORTSTAT.RATE n) gig
  let s := s.wbit AST_STAT.LINKUP n true
  { s with anw := { s.anw with forced := mdel s.anw.forced n } }.preferCheck

/-- LINK_UP (R311). -/
def execLinkUp (port : Nat) (gigabit : Bool) (roundTrips : List Nat) (s : State) : Res :=
  if s.isStar then
    s.whenB (s.on && s.rb (AST_PORTCFG.EN port) && !s.rb (AST_PORTSTAT.LINKUP port) &&
      rateOk (s.rb (AST_PORTCFG.AN port)) (s.rb (AST_PORTCFG.MAXRATE port)) (s.rb (AST_PORTCFG.MINRATE port)) gigabit) fun s => s.starUp port gigabit
  else
    s.whenB (s.on && port == 0 && s.rb ANW_NODECFG.EN && !s.rb ANW_NODESTAT.LINKUP &&
      rateOk (s.rb ANW_PORTCFG.AN) (s.rb ANW_PORTCFG.MAXRATE) (s.rb ANW_PORTCFG.MINRATE) gigabit) fun s => s.leafUp gigabit roundTrips

/-- A port without a link begins to wait for a DME page, or to try a forced rate (R310). -/
def State.tryRate (s : State) (n : Nat) (rate : Option Bool) : State :=
  { s with anw := { s.anw with forced := mset s.anw.forced n (rate, s.now) } }

/-- LINK_DOWN (R311, R324). -/
def execLinkDown (port : Nat) (s : State) : Res :=
  if s.isStar then
    s.whenB (s.on && s.rb (AST_PORTSTAT.LINKUP port)) fun s =>
      (((s.wb (AST_PORTSTAT.LINKUP port) false).wbit AST_STAT.LINKUP port false).tryRate port none).preferCheck
  else
    s.whenB (s.on && port == 0 && s.rb ANW_NODESTAT.LINKUP) fun s =>
      let st := s.nodeSt
      let s := (s.wb ANW_NODESTAT.LINKUP false).tryRate 0 none
      if st = nodeActive ∨ st = nodePassive then s.lossOf 4 else if st = nodeOff then s else s.enterListen

/-- AN_RATE_ALTERNATE (R310): after 200 ms without a DME page the higher forced rate of the range, then the other, in
turn. -/
def execAnRateAlternate (port : Nat) (s : State) : Res :=
  let star := s.isStar
  let up := if star then s.rb (AST_PORTSTAT.LINKUP port) else s.rb ANW_NODESTAT.LINKUP
  let an := if star then s.rb (AST_PORTCFG.AN port) && s.rb (AST_PORTCFG.EN port) else s.rb ANW_PORTCFG.AN && port == 0
  let max := if star then s.rb (AST_PORTCFG.MAXRATE port) else s.rb ANW_PORTCFG.MAXRATE
  let min := if star then s.rb (AST_PORTCFG.MINRATE port) else s.rb ANW_PORTCFG.MINRATE
  let cur := mget (none, s.pmu.releasedAt) s.anw.forced port
  s.whenB (s.on && an && !up && decide (cur.2 + 200000000 ≤ s.now)) fun s =>
    s.tryRate port (some (match cur.1 with | none => max | some g => if max = min then max else !g))

end Sys2Proof.Machine
end

