-- ==== Sys2Proof/Machine/PowerStage.lean ====
section
/-! DEFINITION. PWM banks and legs and gate-link ports: what the power-stage commands and the Tally's unit resets
share. Times of edges are in units of 1/32 ns (R78). -/

namespace Sys2Proof.Machine

/-! ### Access -/

def State.leg (s : State) (m : Nat) : LegSt := mget {} s.pwm.legs m
def State.setLeg (s : State) (m : Nat) (l : LegSt) : State := { s with pwm := { s.pwm with legs := mset s.pwm.legs m l } }
def State.bank (s : State) (b : Nat) : BankSt := mget {} s.pwm.banks b
def State.setBank (s : State) (b : Nat) (x : BankSt) : State := { s with pwm := { s.pwm with banks := mset s.pwm.banks b x } }
def State.port (s : State) (n : Nat) : PortSt := mget {} s.glk.ports n
def State.setPort (s : State) (n : Nat) (p : PortSt) : State := { s with glk := { s.glk with ports := mset s.glk.ports n p } }

/-- PWM_LEGSET.MODE codes. -/
def modeComp : Nat := 1
def modeIndep : Nat := 2
def modeTimer : Nat := 3

/-- The bank drives its gate-link port. -/
def State.linkBank (s : State) (b : Nat) : Bool := s.rb (PWM_BANKCFG.DEST b)

/-- GLK_LINKSTAT.STATE codes. -/
def glDown : Nat := 0
def glLock : Nat := 1
def glCapx : Nat := 2
def glConfig : Nat := 3
def glTrain : Nat := 4
def glUp : Nat := 5
def glFailed : Nat := 6

def State.portSt (s : State) (n : Nat) : Nat := s.rf (GLK_LINKSTAT.STATE n)
def State.portUp (s : State) (n : Nat) : Bool := s.portSt n == glUp

/-- The port settled in timed-edge mode. -/
def State.portTe (s : State) (n : Nat) : Bool := s.rb (GLK_LINKSTAT.MODE n)

/-- RLEAD (R74). -/
def State.rlead (s : State) (b : Nat) : Nat := if s.linkBank b then 3000 else 200

/-- The reload point of the coming boundary (R74). -/
def State.reloadAt (s : State) (b : Nat) : Nat := (s.bank b).nextB - s.rlead b

/-- The bank takes commits: it runs or is armed, is in use, and its port is UP if it has one (R54, R96, R107). -/
def State.bankEnabled (s : State) (b : Nat) : Bool :=
  s.rb (PWM_BANKCTL.RUN b) && s.rf (PWM_BANKCFG.PMIN b) != 0 && (!s.linkBank b || s.portUp b)

/-- Hold reasons of leg `l` of port `n` (GLK_LEGHOLDn byte `l`). -/
def State.holdByte (s : State) (n l : Nat) : Nat := (s.rf (GLK_LEGHOLD.LEGn n) >>> (8 * l)) % 256

/-- A bank-wide hold reason is in force: EXEC, NOTUP, TIME, OTSD or LINK. -/
def State.bankHeld (s : State) (n : Nat) : Bool := bits (s.rn (GLK_LEGHOLD.adr n)) 28 24 != 0

/-- Leg `m` is held by its port (R107, R119, R122). -/
def State.legHeld (s : State) (m : Nat) : Bool :=
  s.linkBank (m / 3) && (s.bankHeld (m / 3) || s.holdByte (m / 3) (m % 3) != 0)

/-- Sets or clears a hold reason bit of one leg. -/
def State.setHold (s : State) (n l reason : Nat) (v : Bool) : State :=
  s.wbit (GLK_LEGHOLD.LEGn n) (8 * l + reason) v

/-- Detail word of a PWM source (R98). -/
def pwmDetail (leg bank input : Nat) : Nat := leg % 32 + bank % 8 * 2 ^ 8 + input % 4 * 2 ^ 16

/-- Detail word of a GLK source (R129). -/
def glkDetail (port mask code : Nat) : Nat := port % 8 + mask % 8 * 2 ^ 8 + code % 256 * 2 ^ 16

/-! ### Frames to a partner (Table GLK-1): the type byte, or for the frames without one 0x100 EDGE, 0x101 OFF,
0x102 LEVEL -/

def gfEdge : Nat := 0x100
def gfOff : Nat := 0x101
def gfLevel : Nat := 0x102
def gfIdle : Nat := 0x00
def gfSync : Nat := 0x01
def gfCfg : Nat := 0x03
def gfRelease : Nat := 0x04
def gfEcho : Nat := 0x05

/-- The MATCH value of a downstream frame (R349): its type byte, or the code of its comma. -/
def glkMatch (kind : Nat) : Nat := if kind < 0x100 then 0x100 + kind else if kind = gfEdge then 0x23C else 0x27C

/-- CRC-16 of the link over bytes (R101); its bytes stand low byte first, bits most significant first (DESIGN CHOICE,
DESIGN CHOICE, log entry 54). -/
def glkCrc16 (l : List Byte) : List Byte := leBytes 2 (crcMsbBytes 16 0x1021 0xFFFF l)

/-- CRC-8 of the link over bytes (R101). -/
def glkCrc8 (l : List Byte) : List Byte := leBytes 1 (crcMsbBytes 8 0x2F 0xFF l ^^^ 0xFF)

/-- The check of a downstream frame, over every byte after its comma (R101, Table GLK-1). -/
def glkCheck (kind : Nat) (payload : List Byte) : List Byte :=
  if kind < 0x100 then glkCrc16 (BitVec.ofNat 8 kind :: payload) else glkCrc8 payload

/-- An upstream frame of a type byte as it stands on the line after its comma. -/
def glkLine (type : Nat) (payload : List Byte) : List Byte :=
  let b := BitVec.ofNat 8 type :: payload
  b ++ glkCrc16 b

/-- The check of an upstream frame, the bytes after its comma, is good (R101). -/
def glkGood (l : List Byte) : Bool := l.drop (l.length - 2) == glkCrc16 (l.take (l.length - 2))

/-- Characters of a downstream frame (Table GLK-1). -/
def glkChars (kind : Nat) : Nat :=
  if kind = gfEdge then 6 else if kind = gfOff ∨ kind = gfLevel then 3 else if kind = gfIdle then 4
  else if kind = gfSync then 16 else if kind = gfCfg then 20 else 5

/-- Character time in ns at a rate code (R99). -/
def charTime (rate : Nat) : Nat := if rate = 0 then 200 else if rate = 1 then 100 else if rate = 2 then 50 else 25

/-- The rate code a port's line runs at: 50 Mbit/s until the change to the settled rate (Sequence GLK-1). -/
def State.lineRate (s : State) (n : Nat) : Nat :=
  if glTrain ≤ s.portSt n ∧ s.portSt n ≤ glUp then s.rf (GLK_LINKSTAT.RATE n) else 0

/-- The port's frames reach a partner at the settled rate: in TRAIN and UP. -/
def State.portTalks (s : State) (n : Nat) : Bool := s.portSt n == glTrain || s.portUp n

/-- The transmit pair of a port is free. -/
def State.lineFree (s : State) (n : Nat) : Bool := decide ((s.port n).freeAt ≤ s.now)

/-- When a frame sent now has left the transmit pair. -/
def State.sentBy (s : State) (n kind : Nat) : Nat :=
  let p := s.port n
  (if p.freeAt + 5 ≤ s.now then s.now else p.freeAt) + glkChars kind * charTime (s.lineRate n)

/-- A downstream frame sent, which takes the transmit pair for its characters; an OFF frame never meets an injection
rule (R349). -/
def State.glkSend (s : State) (n kind : Nat) (payload : List Byte) : State :=
  let t := s.sentBy n kind
  let p := s.port n
  let s := s.setPort n { p with lastDown := s.now, freeAt := t, line := p.line.filter (fun f => decide (s.now < f.2)) ++ [(kind, t)] }
  let m := OutMsg.glk n kind payload (glkCheck kind payload)
  if kind = gfOff then s.emit m else s.sendInj injGlkDown n (glkMatch kind) 0 m

/-- What is on the transmit pair abandoned (R115), the frame in progress and those that follow it: the pair is free at once, a
SYNC is due again, and an EDGE command is neither accepted nor counted. -/
def State.glkCut (s : State) (n : Nat) : State :=
  let p := s.port n
  let cut := p.line.filter (fun f => decide (s.now < f.2))
  let s := s.setPort n { p with freeAt := min p.freeAt s.now, line := [], syncDue := p.syncDue || cut.any (fun f => f.1 == gfSync)
                                cmds := p.cmds.filter (fun c => decide (c.sentAt ≤ s.now)) }
  s.wf (GLK_CMDCNT.SENT n) (s.rf (GLK_CMDCNT.SENT n) + 2 ^ 24 - (cut.filter (fun f => f.1 == gfEdge)).length)

/-- A RELEASE that waits goes ahead of any other frame of the port (R123). -/
def State.relFirst (s : State) (n : Nat) : State :=
  let p := s.port n
  if p.relDue = 0 then s else (s.setPort n { p with relDue := 0 }).glkSend n gfRelease [BitVec.ofNat 8 p.relDue]

/-- An OFF frame for a leg mask: commands of those legs whose targets come after the frame has reached the partner, its
characters and the one-way delay from now, no longer count (R119, R128; DEDUCED, log entry 54). With `cut`, as at a trip, a frame
in progress is abandoned and every queued command is dropped (R115). In level mode the state that a keepalive repeats has
those legs off (DESIGN CHOICE, log entry 54). -/
def State.glkOff (s : State) (n mask : Nat) (cut : Bool) : State :=
  if !s.portTalks n then s else
  let s := if cut then s.glkCut n else s
  let p := s.port n
  let named := fun (c : GlkCmd) => decide (c.leg < 3) && mask.testBit c.leg
  let level := [0, 1, 2].foldl (fun a l => if mask.testBit l then clearBits 6 a (3 * 2 ^ (2 * l)) else a) p.level
  let off := 32 * (s.gt + (s.sentBy n gfOff - s.now)) + s.rn (GLK_DELAY.adr n)
  let s := s.setPort n { p with cmds := p.cmds.filter (fun c => !(named c && decide (off < c.target)))
                                queue := if cut then [] else p.queue.filter (fun c => !named c), level := level }
  s.glkSend n gfOff [BitVec.ofNat 8 (mask % 8)]

/-! ### Legs off -/

/-- The leg's carry, dither defect and refresh count cleared (R85). -/
def State.clearAcc (s : State) (m : Nat) : State :=
  (((s.setN (PWM_LEGACC.adr m) 0).setN (PWM_LEGACC2.adr m) 0).setN (PWM_LEGDITH.adr m) 0).wf (PWM_LEGSTAT.FULL m) 0

/-- Both switches of a leg go off at a time; nothing of its plans remains. -/
def LegSt.off (l : LegSt) (t : Nat) : LegSt :=
  { l with hiOn := false, loOn := false
           hiOff := if l.hiOn then some t else l.hiOff
           loOff := if l.loOn then some t else l.loOff
           plan := [], next := [], cmd := 0, cmdNext := 0, starting := false, bad := true, closing := none
           recSum := if l.recOpen then l.recSum + (t : Int) else l.recSum, recOpen := false }

/-- A trip holds the leg off: its bank is tripped, and the leg drives switches (R87). -/
def State.legTripped (s : State) (m : Nat) : Bool :=
  s.rb (PWM_BANKSTAT.TRIPPED (m / 3)) && s.rf (PWM_LEGSET.MODE m) != modeTimer

/-- OFFCAUSE of a leg that is off for a cause: 2 while latched, 1 while a trip or its port holds it (R85, R91, R122). Of several
causes the spec names no order: latch, then trip or hold, then stop (DESIGN CHOICE, log entry 53). -/
def State.offCause (s : State) (m cause : Nat) : Nat :=
  if s.rb (PWM_LEGSTAT.LATCH m) then 2 else if s.legHeld m || s.legTripped m then 1 else cause

/-- A leg held off: switches off, accounting suspended, PRIMED 0, and its OFFCAUSE (R85, R122). -/
def State.legOff (s : State) (m cause : Nat) : State :=
  let s := s.setLeg m ((s.leg m).off (32 * s.gt))
  let s := (s.clearAcc m).wb (PWM_LEGSTAT.PRIMED m) false
  s.wf (PWM_LEGSTAT.OFFCAUSE m) (s.offCause m cause)

/-- OFFCAUSE of a leg that is off, after a latch or a hold of it has been released: a leg that nothing else holds is off
because its bank stopped, where it did. -/
def State.offLabel (s : State) (m : Nat) : State :=
  let c := s.rf (PWM_LEGSTAT.OFFCAUSE m)
  if c = 0 then s
  else
    let stopped := !s.rb (PWM_BANKCTL.RUN (m / 3))
    s.wf (PWM_LEGSTAT.OFFCAUSE m) (s.offCause m (if stopped then 3 else c))

/-- The same for the legs of a port. -/
def State.offLabels (s : State) (n : Nat) : State :=
  if s.linkBank n then [3 * n, 3 * n + 1, 3 * n + 2].foldl State.offLabel s else s

/-- An interlocked leg: off, LATCH set, OFFCAUSE 2, and 48 PWM_BOTH_ON raised (R91). On a gate-link bank the spec names no frame for
it: the lane's own commands go off, none is sent, and EDGE commands that wait stay (DESIGN CHOICE, log entry 53). -/
def State.interlock (s : State) (m : Nat) : State :=
  let s := (s.wb (PWM_LEGSTAT.LATCH m) true).legOff m 2
  s.raiseEv 48 (pwmDetail m (m / 3) 0)

/-- The legs of a bank that drive switches. -/
def State.drivenLegs (s : State) (b : Nat) : List Nat :=
  [3 * b, 3 * b + 1, 3 * b + 2].filter (fun m => s.rf (PWM_LEGSET.MODE m) == modeComp || s.rf (PWM_LEGSET.MODE m) == modeIndep)

/-- The legs of a bank in TIMER mode. -/
def State.timerLegs (s : State) (b : Nat) : List Nat :=
  [3 * b, 3 * b + 1, 3 * b + 2].filter (fun m => s.rf (PWM_LEGSET.MODE m) == modeTimer)

def State.legsOff (s : State) (ms : List Nat) (cause : Nat) : State := ms.foldl (fun s m => s.legOff m cause) s

/-- The pending set of a bank discarded. -/
def State.dropPend (s : State) (b : Nat) : State :=
  (s.setBank b { s.bank b with pend := none }).wb (PWM_BANKSTAT.PEND b) false

/-- The blanking windows that legs of a bank have opened close (R88): their intervals have ended. -/
def State.blanksEnd (s : State) (b : Nat) : State :=
  { s with pwm := { s.pwm with blank := s.pwm.blank.map (fun (k, t) =>
      (k, if s.rf (PWM_TRIPCFG.BLKLEG k) / 3 == b then min t 1 else t)) } }

/-- A bank stopped as by RUN := 0 (R96): RUN 0, every leg off and suspended, a pending set discarded; commit requests
that wait keep the mark that the bank stopped. -/
def State.bankStop (s : State) (b : Nat) : State :=
  let s := (s.legsOff (s.drivenLegs b ++ s.timerLegs b) 3).blanksEnd b
  let x := s.bank b
  let s := s.setBank b { x with started := false, decided := false, pend := none, coming := none
                                reqs := x.reqs.map (fun r => { r with stopped := true }) }
  let s := ((s.wb (PWM_BANKCTL.RUN b) false).wb (PWM_BANKSTAT.RUNNING b) false).wb (PWM_BANKSTAT.PEND b) false
  if s.linkBank b then s.glkOff b 7 true else s

/-- Every running bank stopped, at a GT step (R96); a bank that is armed and has not passed its first boundary stops too
(DESIGN CHOICE, log entry 53). -/
def State.banksStop (s : State) : State :=
  (List.range 8).foldl (fun s b => if s.rb (PWM_BANKCTL.RUN b) then s.bankStop b else s) s

/-- A trip of a bank (R87): TRIPPED set, pending set discarded, legs off, an OFF frame on a gate-link bank (R115). -/
def State.bankTrip (s : State) (b : Nat) : State :=
  let s := (s.dropPend b).wb (PWM_BANKSTAT.TRIPPED b) true
  let s := s.legsOff (s.drivenLegs b) 1
  if s.linkBank b then s.glkOff b 7 true else s

/-- The trip of an input (R87): TRIPPED of the input and of its banks, and 50 PWM_TRIP. -/
def State.tripInput (s : State) (k : Nat) : State :=
  let mask := s.rf (PWM_TRIPCFG.BANKS k)
  let s := s.hwBit PWM_TRIPSTAT.TRIPPED k
  let s := (bitList 8 mask).foldl (fun s b => s.bankTrip b) s
  s.raiseEv 50 (pwmDetail 0 (lowBit 8 mask) k)

/-- Banks whose every naming trip input has been cleared lose TRIPPED (R90). -/
def State.tripRecalc (s : State) : State :=
  let named := (List.range 4).foldl (fun a k => if (s.rf PWM_TRIPSTAT.TRIPPED).testBit k then a ||| s.rf (PWM_TRIPCFG.BANKS k) else a) 0
  (List.range 8).foldl (fun s b =>
    if named.testBit b || !s.rb (PWM_BANKSTAT.TRIPPED b) then s
    else (s.drivenLegs b).foldl State.offLabel (s.wb (PWM_BANKSTAT.TRIPPED b) false)) s

/-- A commit request reaches the bank's arbiter, from a strike entry or a register write (R73, R75); refused while the
bank is disabled (R96, R107). -/
def State.requestCommit (s : State) (b : Nat) (entry : Option Nat) : Option State :=
  if s.bankEnabled b then
    let x := s.bank b
    some (s.setBank b { x with reqs := x.reqs ++ [{ at_ := s.gt, entry := entry }] })
  else none

/-! ### Gate-link holds and bring-up -/

/-- Legs of a port held: switches off as by a trip, and an OFF frame (R119, R122). -/
def State.holdLegs (s : State) (n mask : Nat) : State :=
  let s := if s.linkBank n then s.legsOff ((s.drivenLegs n).filter (fun m => mask.testBit (m % 3))) 1 else s
  s.glkOff n mask false

/-- A leg of a port held for a reason bit of GLK_LEGHOLDn. -/
def State.holdLeg (s : State) (n l reason : Nat) : State := (s.setHold n l reason true).holdLegs n (2 ^ l)

/-- The 16-byte CFG payload: settled rate, mode, resolution, sampling; DT of each leg; DTMINP; DSBLANK; SPHASE. The
spec lists the content; the order of the fields is the model's (DESIGN CHOICE, log entry 21). -/
def State.cfgPayload (s : State) (n : Nat) : List Byte :=
  let p := s.port n
  [BitVec.ofNat 8 (p.rate + 4 * b2n p.te + 8 * p.res + 64 * p.samp)]
    ++ leBytes 2 (s.rf (PWM_LEGSET.DT (3 * n))) ++ leBytes 2 (s.rf (PWM_LEGSET.DT (3 * n + 1)))
    ++ leBytes 2 (s.rf (PWM_LEGSET.DT (3 * n + 2)))
    ++ leBytes 2 (s.rf (GLK_PROTCFG.DTMINP n)) ++ leBytes 2 (s.rf (GLK_PROTCFG.DSBLANK n))
    ++ leBytes 2 (s.rf (GLK_STATCFG.SPHASE n)) ++ [0, 0, 0]

/-- An attempt of bring-up starts: TRIES plus 1, STATE LOCK, at 50 Mbit/s (R103, R106). -/
def State.glkAttempt (s : State) (n : Nat) : State :=
  let p := s.port n
  let s := s.setPort n { p with attemptAt := s.now, syncAt := none, retryAt := none, cfg := [], ackAt := none
                                locked := false, echoes := 0, echoSum := 0, echoOut := false
                                queue := [], freeAt := s.now, line := [], echoDue := false, syncDue := false }
  (s.incSat (GLK_LINKSTAT.TRIES n)).wf (GLK_LINKSTAT.STATE n) glLock

/-- The port leaves UP or is started anew: its bank is held off as by a trip until it is UP again (R107), its
commands and due samples are dropped, VALID is 0 until the first set of the new bring-up (R118). -/
def State.glkLeave (s : State) (n : Nat) : State :=
  let s := s.holdLegs n 7
  let s := (s.wb (GLK_LEGHOLD.NOTUP n) true).wb (GLK_SAMPSTAT.VALID n) false
  s.setPort n { s.port n with cmds := [], queue := [], passed := 0, levelSamples := [], setsDue := [], missRun := 0 }

/-- A bring-up episode begins (R106): TRIES 0 and the first attempt. -/
def State.glkBringup (s : State) (n : Nat) : State :=
  ((s.glkLeave n).wf (GLK_LINKSTAT.TRIES n) 0).glkAttempt n

/-- The attempt fails: FAILCODE, 69 GLK_NEGOTIATE_FAIL, and a retry in 100 ms or FAILED (R106). STATE is DOWN while a
retry waits (DESIGN CHOICE, log entry 54). -/
def State.glkFail (s : State) (n code : Nat) : State :=
  let s := s.wf (GLK_LINKSTAT.FAILCODE n) code
  let again := s.rb (GLK_PORTCFG.AUTORETRY n) && s.rf (GLK_LINKSTAT.TRIES n) < 3
  let s := s.setPort n { s.port n with retryAt := if again then some (s.now + 100000000) else none }
  let s := s.wf (GLK_LINKSTAT.STATE n) (if again then glDown else glFailed)
  s.raiseEv 69 (glkDetail n 0 code)

/-- The port reaches UP (R103, R107): the holds for link, time and EXEC end, and its bank starts anew at the first
commit accepted after this. The first STATUS frame is awaited from now on (DESIGN CHOICE, log entry 54). -/
def State.glkGoUp (s : State) (n : Nat) : State :=
  let s := s.wf (GLK_LINKSTAT.STATE n) glUp
  let s := (((s.wb (GLK_LEGHOLD.NOTUP n) false).wb (GLK_LEGHOLD.LINK n) false).wb (GLK_LEGHOLD.TIME n) false).wb (GLK_LEGHOLD.EXEC n) false
  let s := s.setPort n { s.port n with lastStart := s.gt, missRun := 0, passed := 0, cmds := [], queue := [], recheckGt := s.gt / 500000 }
  if s.linkBank n then
    let s := (s.dropPend n).offLabels n
    (s.setBank n { s.bank n with started := false, decided := false, coming := none }).wb (PWM_BANKSTAT.RUNNING n) false
  else s

/-- The assertion of a condition source follows whether its condition holds on any port (R129). -/
def State.glkCond (s : State) (src : Nat) (c : Bool) : State := if c then s else s.deassertSrc src

/-- The last TEMP of a port against its warning (R129). -/
def State.tempJudge (s : State) (n : Nat) (temp : Int) : State :=
  let warn := decide (toSigned 8 (s.rf (GLK_STATCFG.TWARN n)) ≤ temp)
  let s := if warn && !(s.port n).hot then s.assertSrc 72 (glkDetail n 0 0) else s
  s.setPort n { s.port n with hot := warn, temp := some temp }

/-- Some leg of some port is held for UVLO of the given reason bit (2 high side, 3 low side). -/
def State.anyUvlo (s : State) (reason : Nat) : Bool :=
  (List.range 8).any (fun n => [0, 1, 2].any (fun l => (s.holdByte n l).testBit reason))

/-- Some bank is held for OTSD, or the last TEMP of some port is at its warning. -/
def State.anyHot (s : State) : Bool :=
  (List.range 8).any (fun n => s.rb (GLK_LEGHOLD.OTSD n) || (s.port n).hot)

/-- What follows new warnings and destinations of a parameter set: source 72 against the last TEMP of every port that has reported
one (R129), and the legs of a gate-link bank that its port holds (R122). -/
def State.portsJudge (s : State) : State :=
  let s := (List.range 8).foldl (fun s n => match (s.port n).temp with | some t => s.tempJudge n t | none => s) s
  let s := s.glkCond 72 s.anyHot
  (List.range 8).foldl (fun s b => if s.linkBank b then
    (s.drivenLegs b).foldl (fun s m =>
      if s.legHeld m && s.rf (PWM_LEGSTAT.OFFCAUSE m) == 0 then s.legOff m 1 else s.offLabel m) s else s) s

end Sys2Proof.Machine
end

