-- ==== Sys2Proof/Machine/Pwm.lean ====
section
/-! DEFINITION. The PWM commands (chapter "PWM generation"): arming, commit, reload and boundary, the on-time of each
period, trips and blanking, the both-on interlock and the delay lines. -/

namespace Sys2Proof.Machine

/-! ### On-time (R78, R93) -/

/-- The four bits of `k` reversed. -/
def bitrev4 (k : Nat) : Nat := revBits 4 k

/-- The running quantities of a leg, in 1/32 ns. -/
structure OnSt where
  a : Int
  da : Int
  dev : Int
  full : Nat
  deriving DecidableEq, Repr

/-- What R78 computes for one switch of one leg. -/
structure OnOut where
  st : OnSt
  q2 : Nat
  short : Bool
  deriving DecidableEq, Repr

/-- The policy of Table PWM-1 on a short high or low pulse: the delivered on-time, the carry, the deviation. -/
def shortPulse (policy q p s : Nat) (hi : Bool) : Nat × Int × Int :=
  if policy = 0 then
    let q2 := if hi then 0 else 32 * p
    (q2, (q : Int) - (q2 : Int), 0)
  else if policy = 1 then
    let q2 := if hi then 32 * s else 32 * p - 32 * s
    (q2, 0, (q : Int) - (q2 : Int))
  else
    let q2 := if hi then (if 2 * q < 32 * s then 0 else 32 * s)
              else (if 2 * (32 * p - q) < 32 * s then 32 * p else 32 * p - 32 * s)
    (q2, 0, (q : Int) - (q2 : Int))

/-- The carry limited to one period, the excess recorded in DEV (R78, last lines). -/
def capCarry (p : Nat) (a dev : Int) : Int × Int :=
  let lim : Int := 32 * (p : Int)
  if lim < a then (lim, dev + (a - lim)) else if a < -lim then (-lim, dev + (a + lim)) else (a, dev)

/-- R78 for a COMP leg: command `c0`, period `p` and short-pulse limit `s` in ns, refresh, dither index. An on-time above
the period is treated as the period (R77). -/
def onTimeComp (c0 p s policy refn refw k : Nat) (fine : Bool) (x : OnSt) : OnOut :=
  let c : Int := (min c0 (32 * p) : Nat)
  let rel0 := 32 * Int.tdiv x.a 32
  let t := clampI 0 (32 * (p : Int)) (c + rel0)
  let rel := t - c
  let tn := t.toNat
  let q := if fine then tn else 32 * (tn / 32) + (if bitrev4 k < tn % 32 / 2 then 32 else 0)
  let da := x.da + ((tn : Int) - (q : Int))
  let hi := decide (0 < q) && decide (q < 32 * s)
  let lo := decide (q < 32 * p) && decide (32 * p - q < 32 * s)
  let r := if hi || lo then shortPulse policy q p s hi else (q, 0, 0)
  let full1 := if r.1 = 32 * p then min (x.full + 1) 255 else 0
  let refresh := decide (0 < refn) && full1 == refn
  let w := 32 * max refw s
  let q2 := if refresh then 32 * p - w else r.1
  let carry := if refresh then r.2.1 + (w : Int) else r.2.1
  let full2 := if refresh then 0 else full1
  let a1 := x.a - rel + carry
  let a2 := if k = 15 then a1 + da else a1
  let da2 := if k = 15 then 0 else da
  let cap := capCarry p a2 (x.dev + r.2.2)
  { st := { a := cap.1, da := da2, dev := cap.2, full := full2 }, q2 := q2, short := hi || lo }

/-- R93: R78 for one switch of an INDEP leg: S is MINP, the high-pulse test only, no dither bit, the remainder to the
switch's own carry, no refresh. FULL, which only the refresh reads, is left as it is by both runs (DESIGN CHOICE, log
entry 53). -/
def onTimeIndep (c0 p s policy : Nat) (x : OnSt) : OnOut :=
  let c : Int := (min c0 (32 * p) : Nat)
  let rel0 := 32 * Int.tdiv x.a 32
  let t := clampI 0 (32 * (p : Int)) (c + rel0)
  let rel := t - c
  let tn := t.toNat
  let q := 32 * (tn / 32)
  let hi := decide (0 < q) && decide (q < 32 * s)
  let r := if hi then shortPulse policy q p s true else (q, 0, 0)
  let a1 := x.a - rel + r.2.1 + ((tn : Int) - (q : Int))
  let cap := capCarry p a1 (x.dev + r.2.2)
  { st := { a := cap.1, da := x.da, dev := cap.2, full := x.full }, q2 := r.1, short := hi }

/-! ### Edge plans (R72, R93 to R95) -/

/-- Edges in time order, an off edge before an on edge of the same time. -/
def insEdge (e : Edge) : List Edge → List Edge
  | [] => [e]
  | x :: t => if e.t < x.t || (e.t == x.t && !e.on && x.on) then e :: x :: t else x :: insEdge e t

def sortEdges (l : List Edge) : List Edge := l.foldl (fun a e => insEdge e a) []

/-- Transitions in time order. -/
def insTrans (e : Trans) : List Trans → List Trans
  | [] => [e]
  | x :: t => if e.t < x.t then e :: x :: t else x :: insTrans e t

/-- One edge on the live switch commands of a leg. -/
def LegSt.edge (l : LegSt) (e : Edge) : LegSt :=
  if e.hi then { l with hiOn := e.on, hiOff := if l.hiOn && !e.on then some e.t else l.hiOff }
  else { l with loOn := e.on, loOff := if l.loOn && !e.on then some e.t else l.loOff }

/-- The edge record after an edge (R86): a high interval starts where the low switch goes off, or DT before the high
switch comes on, and ends where the high switch goes off; `dt` in 1/32 ns. -/
def LegSt.recEdge (l : LegSt) (dt : Nat) (e : Edge) : LegSt :=
  if e.hi && !e.on then (if l.recOpen then { l with recSum := l.recSum + (e.t : Int), recOpen := false } else l)
  else if l.recOpen then l
  else if e.hi then { l with recSum := l.recSum - ((e.t : Int) - (dt : Int)), recOpen := true }
  else if e.on then l else { l with recSum := l.recSum - (e.t : Int), recOpen := true }

/-- The edge record after a command that the partner has accepted (R128): TO_HIGH starts a high interval, TO_LOW and
ALL_OFF end one. -/
def LegSt.recCmd (l : LegSt) (c : GlkCmd) : LegSt :=
  if c.act = 1 then (if l.recOpen then l else { l with recSum := l.recSum - (c.target : Int), recOpen := true })
  else if c.act = 2 ∨ c.act = 3 then (if l.recOpen then { l with recSum := l.recSum + (c.target : Int), recOpen := false } else l)
  else l

/-- The on-time recorded up to a time. -/
def LegSt.recTo (l : LegSt) (t : Nat) : Int := l.recSum + if l.recOpen then (t : Int) else 0

/-- The leg after its planned edges before a time; later edges stay planned. -/
def LegSt.runTo (l : LegSt) (t : Nat) : LegSt :=
  let l' := (l.plan.filter (fun e => decide (e.t < t))).foldl LegSt.edge l
  { l' with plan := l.plan.filter (fun e => !decide (e.t < t)) }

/-- The switch edges of a list of transitions with dead time `dt` (1/32 ns): an on edge is dropped when the next
transition comes before it. -/
def edgesOf (dt : Nat) : List Trans → List Edge
  | [] => []
  | x :: rest =>
    let on := fun (hi : Bool) =>
      match rest with
      | y :: _ => if y.t ≤ x.t + dt then [] else [{ t := x.t + dt, hi := hi, on := true : Edge }]
      | [] => [{ t := x.t + dt, hi := hi, on := true : Edge }]
    let here := match x.act with
      | .toHigh => { t := x.t, hi := false, on := false : Edge } :: on true
      | .toLow => { t := x.t, hi := true, on := false : Edge } :: on false
      | .allOff => [{ t := x.t, hi := false, on := false }, { t := x.t, hi := true, on := false }]
      | .hsOn => [{ t := x.t, hi := true, on := true }]
      | .hsOff => [{ t := x.t, hi := true, on := false }]
      | .lsOn => [{ t := x.t, hi := false, on := true }]
      | .lsOff => [{ t := x.t, hi := false, on := false }]
    here ++ edgesOf dt rest

/-- Start of the high interval (R72): boundary `b`, period `p`, on-time `h`, all in 1/32 ns. -/
def hiStart (align fine : Bool) (b p h : Nat) : Nat :=
  if !align then b else if fine then b + (p - h) / 2 else b + 32 * ((p - h) / 2 / 32)

/-- The transitions of a COMP leg (R72); `cmd` is the side commanded at the boundary. A leg that has both switches off
at the boundary and whose high interval starts later turns its low switch on at the boundary + DT (DESIGN CHOICE, log
entry 53). -/
def compPlan (align fine : Bool) (b p h cmd : Nat) : List Trans × Nat :=
  if h = 0 then (if cmd = 2 then [] else [{ t := b, act := .toLow }], 2)
  else if h = p then (if cmd = 1 then [] else [{ t := b, act := .toHigh }], 1)
  else
    let st := hiStart align fine b p h
    let pre : List Trans := if st = b || cmd == 2 then [] else [{ t := b, act := .toLow }]
    let up : List Trans := if st = b && cmd == 1 then [] else [{ t := st, act := .toHigh }]
    (pre ++ up ++ [{ t := st + h, act := .toLow }], 2)

/-- The transitions of the high switch of an INDEP or TIMER leg; `on` is its state at the boundary. -/
def highPlan (align : Bool) (b p h : Nat) (on : Bool) : List Trans :=
  if h = 0 then (if on then [{ t := b, act := .hsOff }] else [])
  else
    let st := hiStart align false b p h
    let pre : List Trans := if on && st != b then [{ t := b, act := .hsOff }] else []
    let up : List Trans := if on && st == b then [] else [{ t := st, act := .hsOn }]
    let down : List Trans := if h = p then [] else [{ t := st + h, act := .hsOff }]
    pre ++ up ++ down

/-- The transitions of the low switch of an INDEP leg (R93): edge-aligned it ends at the boundary that ends the period;
centre-aligned it lies centred on that boundary. -/
def lowPlan (align : Bool) (b p h2 : Nat) : List Trans :=
  if h2 = 0 then []
  else
    let n := h2 / 32
    let e := b + p
    if align then [{ t := e - 32 * ((n + 1) / 2), act := .lsOn }, { t := e + 32 * (n / 2), act := .lsOff }]
    else [{ t := e - h2, act := .lsOn }, { t := e, act := .lsOff }]

/-- The transitions of a leg under FORCE (R95). -/
def forcePlan (force b cmd : Nat) : List Trans × Nat :=
  if force = 1 then (if cmd = 1 then [] else [{ t := b, act := .toHigh }], 1)
  else if force = 2 then (if cmd = 2 then [] else [{ t := b, act := .toLow }], 2)
  else (if cmd = 0 then [] else [{ t := b, act := .allOff }], 0)

/-- The edges of the running plan that reach into the coming period, in which the transitions `ts` are planned: a COMP
leg's later on edges stand until the first transition; an INDEP leg's stand unless it is forced (R72, R95). -/
def carriedEdges (comp forced : Bool) (ts : List Trans) (plan : List Edge) : List Edge :=
  if comp then plan.filter (fun e => !e.on || (match ts with | [] => true | x :: _ => decide (e.t < x.t)))
  else if forced then [] else plan

/-- An off edge and an on edge of one switch at one instant leave it on: both are dropped. -/
def mergeEdges (l : List Edge) : List Edge :=
  l.filter (fun e => !(l.any (fun x => x.hi == e.hi && x.t == e.t && x.on != e.on)))

/-- Whether a plan has both switches on at one instant, or, for an INDEP leg, turns a switch on less than `dt` after
the other turned off (R91). The leg stands at the boundary; the edges are in time order. -/
def planClash (indep : Bool) (dt : Nat) : LegSt → List Edge → Bool
  | _, [] => false
  | l, e :: rest =>
    let other := if e.hi then l.loOff else l.hiOff
    let soon := indep && e.on && (match other with | some t => decide (e.t < t + dt) | none => false)
    let l' := l.edge e
    let settled := match rest with | x :: _ => x.t != e.t | [] => true
    (soon && !(if e.hi then l.hiOn else l.loOn)) || (settled && l'.hiOn && l'.loOn) || planClash indep dt l' rest

/-! ### Arming and commit -/

/-- The smallest t not below `lo` with t mod p = phase (R52, R70). -/
def firstAt (lo p phase : Nat) : Nat :=
  if lo % p ≤ phase then lo + (phase - lo % p) else lo + p + phase - lo % p

/-- A period within R69 for the bank. -/
def State.periodOk (s : State) (b p : Nat) : Bool :=
  10000 ≤ p && p ≤ 10000000 && s.rf (PWM_BANKCFG.PMIN b) ≤ p

/-- The shadows of one leg. -/
def State.legShadow (s : State) (m : Nat) : LegSet :=
  { force := s.rf (PWM_LEGCFG.FORCE m), fine := s.rb (PWM_LEGCFG.FINE m)
    c := s.rn (PWM_DUTYSH.adr m) % 2 ^ 29, c2 := s.rn (PWM_DUTY2SH.adr m) % 2 ^ 29 }

/-- The shadows of a bank, copied whole (R73). -/
def State.shadows (s : State) (b : Nat) : BankSet :=
  { period := s.rf (PWM_PERIODSH.PERIOD b), l0 := s.legShadow (3 * b), l1 := s.legShadow (3 * b + 1)
    l2 := s.legShadow (3 * b + 2) }

def BankSet.leg (x : BankSet) (l : Nat) : LegSet := if l = 0 then x.l0 else if l = 1 then x.l1 else x.l2

/-- A write of RUN as the spec gives it (R70, R96): 0 to 1 arms a bank in use, 1 to 0 stops it. -/
def State.runWrite (s : State) (b : Nat) (run : Bool) : State :=
  if run then
    if s.rb (PWM_BANKCTL.RUN b) || s.rf (PWM_BANKCFG.PMIN b) == 0 then s
    else
      let s := (s.drivenLegs b ++ s.timerLegs b).foldl (fun s m =>
        let s := (s.clearAcc m).wb (PWM_LEGSTAT.PRIMED m) false
        if s.rf (PWM_LEGSTAT.OFFCAUSE m) = 3 then s.wf (PWM_LEGSTAT.OFFCAUSE m) 0 else s) s
      (s.setBank b { s.bank b with started := false, decided := false, coming := none }).wb (PWM_BANKCTL.RUN b) true
  else if s.rb (PWM_BANKCTL.RUN b) then s.bankStop b else s

/-- A write of 1 to COMMIT (R73); no effect while the bank is disabled (R96). -/
def State.commitWrite (s : State) (b : Nat) : State := (s.requestCommit b none).getD s

/-- BANK_RUN_WRITE (R96). -/
def execBankRunWrite (req bank : Nat) (run : Bool) (s : State) : Res :=
  s.whenOn fun s => s.granted req bank (PWM_BANKCTL.adr bank) false fun s => s.runWrite bank run

/-- BANK_COMMIT (R73). -/
def execBankCommit (req bank : Nat) (s : State) : Res :=
  s.whenOn fun s => s.granted req bank (PWM_BANKCTL.adr bank) false fun s => s.commitWrite bank

/-- PERR and 53 PWM_COMMIT_REJECT (R77). -/
def State.commitReject (s : State) (b : Nat) : State :=
  (s.hwBit (PWM_BANKSTAT.PERR b) 0).raiseEv 53 (pwmDetail 0 b 0)

/-- A commit accepted: the shadows become the pending set (R70, R73, R76, R77). One that replaces the set of a bank
before its first boundary leaves that boundary where the first set's period put it (DESIGN CHOICE, log entry 53). -/
def State.acceptSet (s : State) (b : Nat) : State :=
  let x := s.bank b
  let set := s.shadows b
  if !x.started then
    if s.periodOk b set.period then
      (s.setBank b { x with started := true, decided := false, pend := some set
                            nextB := firstAt (s.gt + s.rlead b + 20) set.period (s.rf (PWM_BANKPHASE.PHASE b)) }).wb (PWM_BANKSTAT.PEND b) true
    else s.commitReject b
  else
    let s := if x.pend.isSome then s.hwBit (PWM_BANKSTAT.SUPERSEDED b) 0 else s
    (s.setBank b { s.bank b with pend := some set }).wb (PWM_BANKSTAT.PEND b) true

/-- COMMIT_ACCEPT (R75): the oldest request is accepted, completes its strike and sets NEXT; a set copied after the
bank stopped is discarded at once (R96). A request that reached the arbiter at or after the reload point waits for the
reload decision. -/
def execCommitAccept (bank : Nat) (s : State) : Res :=
  let x := s.bank bank
  match x.reqs with
  | [] => .next s
  | r :: rest =>
    if x.started && !x.decided && s.reloadAt bank ≤ r.at_ then .next s
    else
      let s := s.setBank bank { x with reqs := rest }
      let s := (s.strikeDone r.entry).wb (PWM_BANKSTAT.NEXT bank) r.lost
      .next (if r.stopped || !s.rb (PWM_BANKCTL.RUN bank) then s else s.acceptSet bank)

/-! ### Reload decision -/

/-- FINEACT of a leg (R82). -/
def State.fineAct (s : State) (m : Nat) (fine : Bool) : Bool :=
  let b := m / 3
  fine && s.rf (PWM_LEGSET.MODE m) == modeComp &&
    (if s.linkBank b then s.portTe b else (s.rf PWM_FINESTAT.CALOK).testBit b)

/-- The running quantities of a leg's COMP or high-switch accounting, and their write-back. -/
def State.onSt (s : State) (m : Nat) : OnSt :=
  { a := s.ri (PWM_LEGACC.ACC m), da := s.ri (PWM_LEGDITH.DA m), dev := s.ri (PWM_LEGDEV.DEV m), full := s.rf (PWM_LEGSTAT.FULL m) }

def State.setOnSt (s : State) (m : Nat) (x : OnSt) : State :=
  (((s.wi (PWM_LEGACC.ACC m) x.a).wi (PWM_LEGDITH.DA m) x.da).wi (PWM_LEGDEV.DEV m) x.dev).wf (PWM_LEGSTAT.FULL m) x.full

/-- ΔA + ΔA2 + ΔDA + ΔDEV is taken on this sum (R86). -/
def State.accSum (s : State) (m : Nat) : Int :=
  s.ri (PWM_LEGACC.ACC m) + s.ri (PWM_LEGACC2.ACC m) + s.ri (PWM_LEGDITH.DA m) + s.ri (PWM_LEGDEV.DEV m)

/-- The audit cycle of R86 at a reload decision with dither index `k`: at 0 the running cycle closes at the coming
boundary and a new one begins. -/
def State.auditCycle (s : State) (m k : Nat) : State :=
  if k = 0 then
    let l := s.leg m
    s.setLeg m { l with closing := if l.bad then none else some (l.sum - (s.accSum m - l.base))
                        base := s.accSum m, sum := 0, bad := s.rf (PWM_LEGSET.MODE m) != modeComp }
  else s

/-- The leg with its edge record as at a boundary: edges before it that are still to be executed, or in timed-edge mode
commands that the partner executes before it, are in the record (R86, R128). -/
def State.recordAt (s : State) (m b32 : Nat) : LegSt :=
  let l := s.leg m
  if s.linkBank (m / 3) && s.portTe (m / 3) then
    ((s.port (m / 3)).cmds.filter (fun c => c.leg == m % 3 && decide (c.target < b32))).foldl LegSt.recCmd l
  else (l.plan.filter (fun e => decide (e.t < b32))).foldl (fun l e => l.recEdge (32 * s.rf (PWM_LEGSET.DT m)) e) l

/-- A leg that starts at an aligned boundary begins its first cycle there; what ran before it was suspended (R85, R86). -/
def State.cycleStart (s : State) (m k : Nat) : State :=
  if k = 0 then s.setLeg m { s.leg m with closing := none, base := s.accSum m } else s

/-- The boundary of a period with dither index 0 (R86): the cycle that closes is compared with the on-time recorded. -/
def State.auditClose (s : State) (m k b32 : Nat) : State :=
  if k = 0 then
    let d := (s.recordAt m b32).recTo b32
    let l := s.leg m
    s.setLeg m { l with cycle := (match l.closing with
                          | some c => some (l.cycle.getD 0 |> fun e => if -1 ≤ e ∧ e ≤ 1 then
                              toSigned 32 (ofSigned 32 (c - (d - l.recBase))) else e)
                          | none => l.cycle)
                        closing := none, recBase := d }
  else s

/-- A leg's on-times of the coming period by R78 or R93, with the accounting written back; the pair is (H, H2) and the
flag says a pulse was short. -/
def State.legOnTime (s : State) (m p k : Nat) (set : LegSet) : State × Nat × Nat × Bool :=
  let dt := s.rf (PWM_LEGSET.DT m)
  let minp := s.rf (PWM_LEGSET.MINP m)
  let pol := s.rf (PWM_LEGSET.POLICY m)
  if s.rf (PWM_LEGSET.MODE m) = modeComp then
    let o := onTimeComp set.c p (dt + minp) pol (s.rf (PWM_LEGREF.REFN m)) (s.rf (PWM_LEGREF.REFW m)) k
      (s.fineAct m set.fine) (s.onSt m)
    (s.setOnSt m o.st, o.q2, 0, o.short)
  else
    let o := onTimeIndep set.c p minp pol (s.onSt m)
    let s := s.setOnSt m o.st
    let x2 : OnSt := { a := s.ri (PWM_LEGACC2.ACC m), da := 0, dev := s.ri (PWM_LEGDEV.DEV m), full := 0 }
    let o2 := onTimeIndep set.c2 p minp pol x2
    let s := (s.wi (PWM_LEGACC2.ACC m) o2.st.a).wi (PWM_LEGDEV.DEV m) o2.st.dev
    (s, o.q2, o2.q2, o.short || o2.short)

/-- A pulse whose start DT has moved to `e`, at or behind its end, is not made: the switch stays off (R95, DEDUCED, log entry 53). -/
def noPulse (on off : Act) (b e : Nat) (ts : List Trans) : List Trans :=
  let start := fun (x : Trans) => x.act == on && x.t == e
  let stop := fun (x : Trans) => x.act == off && decide (b < x.t) && decide (x.t ≤ e)
  if ts.any start && ts.any stop then ts.filter (fun x => !start x && !stop x) else ts

/-- The transitions of a driven leg for the coming period, and the side commanded at its end. -/
def State.legTrans (s : State) (m p : Nat) (set : LegSet) (h h2 : Nat) (at_ : LegSt) : List Trans × Nat :=
  let b := m / 3
  let b32 := 32 * (s.bank b).nextB
  let align := s.rb (PWM_BANKCFG.ALIGN b)
  let dt := 32 * s.rf (PWM_LEGSET.DT m)
  if s.rf (PWM_LEGSET.MODE m) = modeComp then
    if set.force ≠ 0 then forcePlan set.force b32 at_.cmd
    else compPlan align (s.fineAct m set.fine) b32 (32 * p) h at_.cmd
  else if set.force ≠ 0 then forcePlan set.force b32 (if at_.hiOn && at_.loOn then 3 else if at_.hiOn then 1 else if at_.loOn then 2 else 0)
  else
    let hs := highPlan align b32 (32 * p) h at_.hiOn
    let late := fun (x : Trans) =>
      if at_.forced && ((x.act == .hsOn && at_.loOn) || (x.act == .lsOn && at_.hiOn)) && x.t < b32 + dt then { x with t := b32 + dt } else x
    let release : List Trans := if at_.forced && at_.loOn then [{ t := b32, act := .lsOff }] else []
    let ts := (release ++ hs ++ lowPlan align b32 (32 * p) h2).map late
    let ts := if at_.forced then noPulse .hsOn .hsOff b32 (b32 + dt) (noPulse .lsOn .lsOff b32 (b32 + dt) ts) else ts
    (ts.foldl (fun a x => insTrans x a) [], 0)

/-- A leg planned at the reload decision (R74, R78, R84, R85, R91, R95). The answer holds the transitions for the link
and whether a pulse was short. -/
def State.planLeg (s : State) (m p k : Nat) (coming : Option BankSet) : State × List Trans × Bool :=
  let b := m / 3
  let mode := s.rf (PWM_LEGSET.MODE m)
  let set := match coming with | some x => x.leg (m % 3) | none => (s.leg m).act
  let b32 := 32 * (s.bank b).nextB
  if mode = 0 then (s, [], false)
  else if mode = modeTimer then
    let l := s.leg m
    let at_ := l.runTo b32
    let ts := highPlan (s.rb (PWM_BANKCFG.ALIGN b)) b32 (32 * p) (32 * (min set.c (32 * p) / 32)) at_.hiOn
    (s.setLeg m { l with next := edgesOf 0 ts, starting := !s.rb (PWM_LEGSTAT.PRIMED m) && coming.isSome }, [], false)
  else
    let s := s.auditCycle m k
    let idle := !s.rb (PWM_LEGSTAT.PRIMED m) || s.rf (PWM_LEGSTAT.OFFCAUSE m) != 0
    let free := !s.rb (PWM_BANKSTAT.TRIPPED b) && !s.legHeld m && !s.rb (PWM_LEGSTAT.LATCH m)
    if idle && !(free && coming.isSome) then
      let s := s.setLeg m { s.leg m with next := [], cmdNext := 0, starting := false, bad := true }
      (s, [], false)
    else
      let s := if idle then ((s.clearAcc m).cycleStart m k).wf (PWM_LEGSTAT.OFFCAUSE m) 0 else s
      let r := if set.force ≠ 0 then (s.clearAcc m, 0, 0, false) else s.legOnTime m p k set
      let s := r.1
      let s := if r.2.2.2 then s.incWrap (PWM_LEGSHORT.SHORTCNT m) else s
      let l := s.leg m
      let at_ := l.runTo b32
      let tr := s.legTrans m p set r.2.1 r.2.2.1 at_
      let dt := 32 * s.rf (PWM_LEGSET.DT m)
      let indep := mode == modeIndep
      let carried := carriedEdges (mode == modeComp) (set.force != 0) tr.1 at_.plan
      let all := mergeEdges (sortEdges (carried ++ edgesOf dt tr.1))
      let l := { l with next := all, cmdNext := tr.2, starting := idle, h := r.2.1, h2 := r.2.2.1
                        sum := l.sum + ((min set.c (32 * p) : Nat) : Int), bad := l.bad || (idle && k != 0) || set.force != 0 }
      let s := s.setLeg m l
      if planClash indep dt at_ all then
        let s := (s.wb (PWM_LEGSTAT.LATCH m) true).wf (PWM_LEGSTAT.OFFCAUSE m) 2
        let s := s.setLeg m { s.leg m with next := [{ t := b32, hi := false, on := false }, { t := b32, hi := true, on := false }]
                                           cmdNext := 0, starting := false, bad := true }
        let s := (s.clearAcc m).wb (PWM_LEGSTAT.PRIMED m) false
        (s.raiseEv 48 (pwmDetail m b 0), [{ t := b32, act := .allOff }], r.2.2.2)
      else (s, tr.1, r.2.2.2)

/-- ACT code of Table GLK-4. -/
def Act.code : Act → Nat
  | .toHigh => 1 | .toLow => 2 | .allOff => 3 | .hsOn => 4 | .hsOff => 5 | .lsOn => 6 | .lsOff => 7

/-- The EDGE command word of Table GLK-3. -/
def edgeWord (leg act t : Nat) : Nat := leg % 4 * 2 ^ 30 + act % 8 * 2 ^ 27 + t / 32 % 2 ^ 22 * 2 ^ 5 + t % 32

/-- Commands in target order. -/
def insCmd (e : GlkCmd) : List GlkCmd → List GlkCmd
  | [] => [e]
  | x :: t => if e.target < x.target then e :: x :: t else x :: insCmd e t

/-- Six characters at a rate code (R114). -/
def cmdTime (rate : Nat) : Nat := if rate = 0 then 1200 else if rate = 1 then 600 else if rate = 2 then 300 else 150

/-- GT at which a command that starts next completes at the pad. -/
def State.cmdDone (s : State) (n : Nat) : Nat :=
  let free := (s.port n).freeAt
  s.gt + (if free + 5 ≤ s.now then s.now else free) + cmdTime (s.lineRate n) - s.now

/-- The queued commands started back to back in target order as the transmit pair comes free (R112, R113): one that
would complete later than its target less 2 000 ns is replaced by an OFF frame for its leg, whose remaining commands
are dropped, and 70 GLK_EDGE_LATE is raised. A late SAMPLE names no leg and is dropped (DESIGN CHOICE, log entry 54). -/
def State.sendCmds (s : State) (n : Nat) : List GlkCmd → State
  | [] => s.setPort n { s.port n with queue := [] }
  | c :: rest =>
    if c.leg < 3 ∧ s.holdByte n c.leg ≠ 0 then s.sendCmds n rest
    else if !s.lineFree n then s.setPort n { s.port n with queue := c :: rest }
    else
      let done := s.cmdDone n
      if 32 * done + 64000 ≤ c.target then
        let p := s.port n
        let s := s.setPort n { p with cmds := p.cmds ++ [{ c with sentAt := s.sentBy n gfEdge }] }
        let s := (s.incWrap (GLK_CMDCNT.SENT n)).glkSend n gfEdge (leBytes 4 (edgeWord c.leg c.act c.target))
        s.sendCmds n rest
      else if c.leg < 3 then ((s.holdLeg n c.leg 5).raiseEv 70 (glkDetail n (2 ^ c.leg) 0)).sendCmds n rest
      else s.sendCmds n rest

/-- The SAMPLE instants of the coming period, in ns (R112): the next boundary, and the mid-point. -/
def State.sampleTimes (s : State) (n bnd p : Nat) : List Nat :=
  let sel := s.rf (GLK_PORTCFG.SAMPSEL n)
  (if sel = 2 then [bnd + p / 2] else []) ++ (if sel = 0 then [] else [bnd + p])

/-- What a reload decision plans for the link: in timed-edge mode the EDGE commands, which start at once, a SAMPLE with LEG 3, which is ignored (DESIGN CHOICE, log entry 54); in level mode the sample instants wait
for LEVEL_SEND (R111, R112, R116). A set whose
SAMPLE command is dropped stays due (R118, DESIGN CHOICE, log entry 54). -/
def State.linkPlan (s : State) (b p : Nat) (ts : List (Nat × Trans)) : State :=
  if !s.linkBank b || !s.portUp b then s else
  let bnd := (s.bank b).nextB
  let samples := s.sampleTimes b bnd p
  let q := s.port b
  if s.portTe b then
    let cs := ts.map (fun x => ({ target := x.2.t, leg := x.1, act := x.2.act.code } : GlkCmd)) ++
      samples.map (fun t => { target := 32 * t, leg := 3, act := 0 })
    s.setPort b { q with setsDue := q.setsDue ++ samples
                         queue := q.queue ++ cs.foldl (fun a c => insCmd c a) [] }
  else s.setPort b { q with levelSamples := q.levelSamples ++ samples }

/-- RELOAD_DECISION (R74): due at the reload point once every request that reached the arbiter 20 ns or more before it
has been accepted (R75). -/
def execReloadDecision (bank : Nat) (s : State) : Res :=
  let x := s.bank bank
  let point := s.reloadAt bank
  let waits := x.reqs.any (fun r => decide (r.at_ + 20 ≤ point))
  if !x.started || x.decided || s.gt < point || waits then .next s
  else
    let s := s.setBank bank { x with reqs := x.reqs.map (fun r => if r.at_ < point then { r with lost := true } else r), pend := none, coming := none }
    let s := s.wb (PWM_BANKSTAT.PEND bank) false
    let running := s.rb (PWM_BANKSTAT.RUNNING bank)
    let bad := match x.pend with | some set => !s.periodOk bank set.period | none => false
    let s := if bad then s.commitReject bank else s
    let coming := if bad then none else x.pend
    if coming.isNone && !running then .next (s.setBank bank { s.bank bank with started := false })
    else
      let s := s.setBank bank { s.bank bank with coming := coming, decided := true }
      let k := if running then (s.rf (PWM_BANKSTAT.DITHK bank) + 1) % 16 else 0
      let p := match coming with | some set => set.period | none => s.rf (PWM_PERIOD.PERIOD bank)
      let r0 := s.planLeg (3 * bank) p k coming
      let r1 := r0.1.planLeg (3 * bank + 1) p k coming
      let r2 := r1.1.planLeg (3 * bank + 2) p k coming
      let ts := r0.2.1.map (fun t => (0, t)) ++ r1.2.1.map (fun t => (1, t)) ++ r2.2.1.map (fun t => (2, t))
      let s := r2.1
      let s := if r0.2.2 then s.raiseEv 49 (pwmDetail (3 * bank) bank 0)
               else if r1.2.2 then s.raiseEv 49 (pwmDetail (3 * bank + 1) bank 0)
               else if r2.2.2 then s.raiseEv 49 (pwmDetail (3 * bank + 2) bank 0) else s
      .next (s.linkPlan bank p ts)

/-- A leg at a boundary: the coming plan joins what is left of the running one. In timed-edge mode the partner has
executed the edges up to the boundary. -/
def State.legBoundary (s : State) (m : Nat) (set : Option LegSet) (te : Bool) (b32 : Nat) : State :=
  let l := s.leg m
  let l := if te then l.runTo (b32 + 1) else l
  let early := l.plan.filter (fun e => decide (e.t < b32))
  let l := { l with plan := if s.rf (PWM_LEGSET.MODE m) = modeTimer then mergeEdges (sortEdges (l.plan ++ l.next)) else early ++ l.next
                    next := [], cmd := l.cmdNext, starting := false
                    forced := match set with | some x => x.force != 0 | none => l.forced
                    act := set.getD l.act }
  let start := (s.leg m).starting && s.rf (PWM_LEGSTAT.OFFCAUSE m) == 0
  let s := s.setLeg m l
  let s := match set with | some x => s.wf (PWM_DUTY.C m) x.c | none => s
  if start then s.wb (PWM_LEGSTAT.PRIMED m) true else s

/-- PERIOD_BOUNDARY (R70, R71, R75): due at the boundary once its reload decision has been taken. -/
def execPeriodBoundary (bank : Nat) (s : State) : Res :=
  let x := s.bank bank
  if !x.started || !x.decided || s.gt < x.nextB then .next s
  else
    let b32 := 32 * x.nextB
    let te := s.linkBank bank && s.portTe bank
    let set := fun l => x.coming.map (fun y => y.leg l)
    let s := ((s.legBoundary (3 * bank) (set 0) te b32).legBoundary (3 * bank + 1) (set 1) te b32).legBoundary (3 * bank + 2) (set 2) te b32
    let s := match x.coming with
      | some y => (s.wf (PWM_PERIOD.PERIOD bank) y.period).setN (PWM_APPLYGT.adr bank) x.nextB
      | none => s
    let s := if s.rb (PWM_BANKSTAT.RUNNING bank) then s.incWrap (PWM_BANKSTAT.DITHK bank)
             else (s.wb (PWM_BANKSTAT.RUNNING bank) true).wf (PWM_BANKSTAT.DITHK bank) 0
    let k := s.rf (PWM_BANKSTAT.DITHK bank)
    let s := [3 * bank, 3 * bank + 1, 3 * bank + 2].foldl (fun s m => s.auditClose m k b32) s
    let s := s.setBank bank { s.bank bank with lastB := x.nextB, nextB := x.nextB + s.rf (PWM_PERIOD.PERIOD bank)
                                               decided := false, coming := none }
    .next (if s.linkBank bank then
        (((s.setHold bank 0 5 false).setHold bank 1 5 false).setHold bank 2 5 false).offLabels bank
      else s)

/-! ### Output stage -/

/-- The blanking window of an input is open at this GT. -/
def State.blanked (s : State) (k : Nat) : Bool := decide (32 * s.gt < mget 0 s.pwm.blank k)

/-- The blanking window of an input ends: an assertion that began in it and lasts trips (R89). -/
def State.closeBlank (s : State) (k : Nat) : State :=
  let hit := s.pwm.blankHit.testBit k
  let s := { s with pwm := { s.pwm with blank := mdel s.pwm.blank k, blankHit := setBitTo s.pwm.blankHit k false } }
  if hit && (s.rf PWM_TRIPSTAT.LEVEL).testBit k then s.tripInput k else s

/-- A blanking window opens for each trip input that names the leg (R88): to the end of the high interval, and at most
BLKMAX × 10 ns. -/
def State.openBlank (s : State) (m t : Nat) : State :=
  let fall := ((s.leg m).plan.find? (fun e => e.hi && !e.on && decide (t ≤ e.t))).map (·.t)
  (List.range 4).foldl (fun s k =>
    if s.rb (PWM_TRIPCFG.EN k) && s.rf (PWM_TRIPCFG.BLKLEG k) == m then
      let s := if mget 0 s.pwm.blank k != 0 then s.closeBlank k else s
      let lim := t + 320 * s.rf (PWM_TRIPCFG.BLKMAX k)
      { s with pwm := { s.pwm with blank := mset s.pwm.blank k (match fall with | some f => min f lim | none => lim) } }
    else s) s

/-- SWITCH_EDGE (R72, R88, R94): the next planned edge of a leg that drives pads, or of a TIMER leg, at its GT. -/
def execSwitchEdge (leg : Nat) (s : State) : Res :=
  let l := s.leg leg
  let timer := s.rf (PWM_LEGSET.MODE leg) == modeTimer
  match l.plan with
  | [] => .next s
  | e :: rest =>
    if (s.linkBank (leg / 3) && !timer) || 32 * s.gt + 31 < e.t then .next s
    else
      let s := s.setLeg leg (({ l with plan := rest }.edge e).recEdge (32 * s.rf (PWM_LEGSET.DT leg)) e)
      .next (if timer && e.hi && e.on && !l.hiOn then s.openBlank leg e.t else s)

/-- BOTH_ON_DETECT (R91): the live switch commands of a leg are both on. -/
def execBothOnDetect (leg : Nat) (s : State) : Res :=
  s.whenB (s.on && (s.rf (PWM_LEGSET.MODE leg) == modeComp || s.rf (PWM_LEGSET.MODE leg) == modeIndep) &&
    (s.leg leg).hiOn && (s.leg leg).loOn) fun s => s.interlock leg

/-- DELAY_LINE_CALIBRATION (R83). -/
def execDelayLineCalibration (bank taps : Nat) (s : State) : Res :=
  s.whenOn fun s =>
    let x := s.bank bank
    let s := s.incWrap PWM_FINESTAT.CALCNT
    if 28 ≤ taps ∧ taps ≤ 36 then
      if s.rb (PWM_BANKSTAT.RUNNING bank) then
        s.setBank bank { x with calGood := some s.now, swapAt := some s.gt, calEpisode := false }
      else
        (s.setBank bank { x with calGood := some s.now, swapAt := none, calEpisode := false }).wbit PWM_FINESTAT.CALOK bank true
    else if x.calGood.getD s.pmu.releasedAt + 500000 < s.now ∧ !x.calEpisode then
      let s := (s.setBank bank { x with calEpisode := true }).wbit PWM_FINESTAT.CALOK bank false
      if !s.linkBank bank && s.rf (PWM_BANKCFG.PMIN bank) != 0 then s.raiseEv 52 (pwmDetail 0 bank 0) else s
    else s

/-- LINE_SWAP (R83): due at the first boundary of the bank after a good calibration completed; a swap still due when an
episode of 52 begins is made all the same (DESIGN CHOICE, log entry 53). -/
def execLineSwap (bank : Nat) (s : State) : Res :=
  let x := s.bank bank
  match x.swapAt with
  | none => .next s
  | some g =>
    if s.rb (PWM_BANKSTAT.RUNNING bank) && x.lastB ≤ g then .next s
    else .next ((s.setBank bank { x with swapAt := none }).wbit PWM_FINESTAT.CALOK bank true)

/-! ### Trip inputs -/

/-- The filtered input becomes active (R87, R89). -/
def State.tripOn (s : State) (input : Nat) : State :=
  let s := s.wbit PWM_TRIPSTAT.LEVEL input true
  if s.blanked input then
    let m := s.rf (PWM_TRIPCFG.BLKLEG input)
    let s := { s with pwm := { s.pwm with blankHit := setBitTo s.pwm.blankHit input true } }
    (s.hwBit PWM_TRIPSTAT.BLANKSEEN input).raiseEv 51 (pwmDetail m (m / 3) input)
  else s.tripInput input

/-- The filtered input becomes inactive (R87, R89). -/
def State.tripOff (s : State) (input : Nat) : State :=
  { s.wbit PWM_TRIPSTAT.LEVEL input false with pwm := { s.pwm with blankHit := setBitTo s.pwm.blankHit input false } }

/-- An input in use is active as its pad is; the pad reads 0 while VIO2 is faulted (R87, R450). -/
def State.tripSee (s : State) (input : Nat) : State :=
  let active := if s.vioDead 1 then s.rb (PWM_TRIPCFG.POL input) else s.pwm.tripIn.testBit input
  let level := (s.rf PWM_TRIPSTAT.LEVEL).testBit input
  if !active && level then s.tripOff input
  else if active && !level && s.rb (PWM_TRIPCFG.EN input) then s.tripOn input
  else s

/-- TRIP_ASSERT (R87, R89): the pad has been active for FILT samples. -/
def execTripAssert (input : Nat) (s : State) : Res :=
  s.whenB (s.on && s.rb (PWM_TRIPCFG.EN input)) fun s =>
    { s with pwm := { s.pwm with tripIn := setBitTo s.pwm.tripIn input true } }.tripSee input

/-- BLANKING_CLOSE (R88, R89). -/
def execBlankingClose (input : Nat) (s : State) : Res :=
  s.whenB (mget 0 s.pwm.blank input != 0 && !s.blanked input) fun s => s.closeBlank input

/-- TRIP_INPUT_RELEASE (R87): the pad is inactive again. -/
def execTripInputRelease (input : Nat) (s : State) : Res :=
  s.whenOn fun s => { s with pwm := { s.pwm with tripIn := setBitTo s.pwm.tripIn input false } }.tripSee input

end Sys2Proof.Machine
end

