-- ==== Sys2Proof/Machine/GateLink.lean ====
section
/-! DEFINITION. The gate-link commands (chapter "Gate link and power-stage protection"): bring-up, time on the partner,
STATUS frames and their reactions, level mode. -/

namespace Sys2Proof.Machine

/-! ### Bring-up (R103 to R107) -/

/-- The settled outcome of a capability record: rate, timed-edge mode, or the FAILCODE (R105). -/
structure Settle where
  rate : Nat
  te : Bool
  fail : Nat
  deriving DecidableEq, Repr

/-- The highest rate code of a mask, none if it is empty. -/
def topRate (mask : Nat) : Option Nat := ((List.range 4).reverse.filter (fun i => mask.testBit i)).head?

/-- A leg of the bank that a partner record does not serve (R105, FAILCODE 5). -/
def State.capLegsBad (s : State) (n legs dtmin : Nat) : Bool :=
  s.linkBank n &&
    (s.drivenLegs n).any (fun m => decide (legs ≤ m % 3) || (s.rf (PWM_LEGSET.MODE m) == modeComp && decide (s.rf (PWM_LEGSET.DT m) < dtmin)))

/-- How the lane settles a port on a capability record (R105). -/
def State.settle (s : State) (n : Nat) (r : List Byte) : Settle :=
  let rates := leAt r 1 1
  let modes := leAt r 2 1
  let legs := leAt r 3 1 % 4
  let samp := leAt r 3 1 / 4 % 4
  let maxr := s.rf (GLK_PORTCFG.MAXRATE n)
  let rate := topRate (rates % 2 ^ (maxr + 1))
  let rc := rate.getD 0
  let te := modes.testBit 1 && 1 ≤ rc && (s.rb (GLK_PORTCFG.PREFTE n) || !modes.testBit 0)
  let fail :=
    if rate.isNone || rc < s.rf (GLK_PORTCFG.MINRATE n) then 2
    else if s.rb (GLK_PORTCFG.REQTE n) && !te then 3
    else if !te && !modes.testBit 0 then 8
    else if samp < s.rf (GLK_PORTCFG.REQSAMP n) then 4
    else if s.capLegsBad n legs (leAt r 6 2) then 5
    else 0
  { rate := rc, te := te, fail := fail }

/-- A CAP frame (R104, R105): the first valid one of an attempt is recorded and settles the port, whatever its VERSION (DESIGN
CHOICE, log entry 54). -/
def State.capIn (s : State) (port : Nat) (r : List Byte) : State :=
  if s.portSt port ≠ glLock then s else
    let s := (s.setN (GLK_PCAP0.adr port) (leAt r 0 4)).setN (GLK_PCAP1.adr port) (leAt r 4 4)
    let s := (s.setN (GLK_ISCALE.adr port) (leAt r 8 4)).setN (GLK_USCALE.adr port) (leAt r 12 4)
    let s := (s.setN (GLK_PID.adr port) (leAt r 16 4)).wf (GLK_LINKSTAT.STATE port) glCapx
    let x := s.settle port r
    if x.fail ≠ 0 then s.glkFail port x.fail
    else
      let s := s.setPort port { s.port port with rate := x.rate, te := x.te, res := leAt r 2 1 / 4 % 8
                                                 samp := s.rf (GLK_PORTCFG.REQSAMP port), cfgAt := s.now }
      let c := s.cfgPayload port
      let s := s.setPort port { s.port port with cfg := c }
      (s.glkSend port gfCfg c).wf (GLK_LINKSTAT.STATE port) glConfig

/-- A CFGACK frame (R103): equal to the CFG sent, the change of rate follows in 10 µs; otherwise FAILCODE 6. -/
def State.cfgackIn (s : State) (port : Nat) (payload : List Byte) : State :=
  let p := s.port port
  if s.portSt port ≠ glConfig ∨ p.ackAt.isSome then s else
    if payload = p.cfg then s.setPort port { p with ackAt := some s.now } else s.glkFail port 6

/-- RATE_CHANGE (R103): 10 µs after CFGACK the settled rate is in use and the port is in TRAIN. -/
def execRateChange (port : Nat) (s : State) : Res :=
  let p := s.port port
  s.whenB (s.portSt port == glConfig && (match p.ackAt with | some t => decide (t + 10000 ≤ s.now) | none => false)) fun s =>
    let s := s.setPort port { p with trainAt := s.now, locked := false }
    let s := ((s.wf (GLK_LINKSTAT.RATE port) p.rate).wb (GLK_LINKSTAT.MODE port) p.te).wf (GLK_LINKSTAT.RES port) p.res
    (s.wf (GLK_LINKSTAT.SAMP port) p.samp).wf (GLK_LINKSTAT.STATE port) glTrain

/-- An ECHO frame sent with the next sequence number. -/
def State.sendEcho (s : State) (n : Nat) : State :=
  let p := s.port n
  let q := (p.echoSeq + 1) % 256
  ((s.setPort n { p with echoSeq := q, echoOut := true, echoDue := false }).relFirst n).glkSend n gfEcho [BitVec.ofNat 8 q]

/-- A SYNC frame: the GT at which its comma leaves the pad and the one-way delay (R108). -/
def State.sendSync (s : State) (n : Nat) : State :=
  let s := s.setPort n { s.port n with lastSync := s.now, syncAt := some ((s.port n).syncAt.getD s.now), syncDue := false }
  s.glkSend n gfSync (leBytes 8 s.gt ++ leBytes 4 (s.rn (GLK_DELAY.adr n)))

/-- A frame that starts `d` ns from now completes before the bank's next reload decision, whose commands follow it within 100 ns
(R108, R112). A bank that has taken no commit yet has none coming: its first commands wait for a frame that is in progress as
its first commit is accepted (DESIGN CHOICE, log entry 54). -/
def State.frameClearIn (s : State) (n kind d : Nat) : Bool :=
  let x := s.bank n
  !(s.linkBank n && x.started && !x.decided) || decide (s.gt + d + glkChars kind * charTime (s.lineRate n) ≤ s.reloadAt n)

/-- The same for a frame that starts now. -/
def State.frameClear (s : State) (n kind : Nat) : Bool := s.frameClearIn n kind 0

/-- The next frame that waits, while the transmit pair is free and no command is queued (R112): RELEASE before all others, in TRAIN
too (R123), then ECHO, SYNC. -/
def State.glkNext (s : State) (n : Nat) : State :=
  let p := s.port n
  if !s.lineFree n || !p.queue.isEmpty || !s.portTalks n then s
  else if p.relDue != 0 then (if s.frameClear n gfRelease then s.relFirst n else s)
  else if p.echoDue && s.frameClear n gfEcho then s.sendEcho n
  else if p.syncDue && s.frameClear n gfSync then s.sendSync n
  else s

/-- A port's transmit pair as time goes on: queued commands, then frames that wait. -/
def State.glkFlow (s : State) (n : Nat) : State := (s.sendCmds n (s.port n).queue).glkNext n

/-- The same for every port. -/
def State.glkFlows (s : State) : State := (s.glk.ports.map (·.1)).foldl State.glkFlow s

/-- CHARACTER_LOCK (R103, R105): lock in TRAIN starts the echo exchanges, or ends bring-up in level mode; a loss after
the first CAP and before UP fails the attempt. -/
def execCharacterLock (port : Nat) (gained : Bool) (s : State) : Res :=
  let st := s.portSt port
  if gained then
    s.whenB (st == glTrain && !(s.port port).locked) fun s =>
      let s := s.setPort port { s.port port with locked := true }
      if (s.port port).te then s.sendEcho port else s.glkGoUp port
  else s.whenB (st == glConfig || st == glTrain) fun s => s.glkFail port 9

/-- TURN of the partner's capability record, ns. -/
def State.turn (s : State) (n : Nat) : Nat := s.rn (GLK_PCAP1.adr n) % 65536

/-- A hold of the whole bank that restarts bring-up at once (Table GLK-7): TIME or EXEC. -/
def State.glkRestartFor (s : State) (n src : Nat) (f : Fld) : State :=
  (((s.wb f true).raiseEv src (glkDetail n 0 0)).glkBringup n)

/-- An ECHOREPLY frame (R108); the round trip is in 1/32 ns. -/
def State.echoIn (s : State) (port : Nat) (sequence : Byte) (roundTrip : Nat) : State :=
  let p := s.port port
  if !(p.echoOut && sequence.toNat == p.echoSeq && (s.portSt port == glTrain || s.portSt port == glUp)) then s else
    let s := s.setPort port { p with echoOut := false }
    if s.portSt port = glTrain then
      let n := p.echoes + 1
      let sum := p.echoSum + roundTrip
      let s := s.setPort port { s.port port with echoes := n, echoSum := sum }
      if n < 16 then s.sendEcho port
      else
        let s := s.setN (GLK_DELAY.adr port) ((sum - 512 * s.turn port) / 32)
        (s.setPort port { s.port port with syncDue := true }).glkNext port
    else
      let d := (roundTrip - 32 * s.turn port) / 2
      let d0 := s.rn (GLK_DELAY.adr port)
      if d0 + 64 < d ∨ d + 64 < d0 then s.glkRestartFor port 74 (GLK_LEGHOLD.TIME port) else s

/-- ECHO_RECHECK (R108): one exchange at each chain boundary, once the transmit pair and the queue are free (R112). One that gets no
reply changes nothing (DESIGN CHOICE, log entry 54). -/
def execEchoRecheck (port : Nat) (s : State) : Res :=
  let p := s.port port
  s.whenB (s.portUp port && s.portTe port && decide (p.recheckGt < s.gt / 500000)) fun s =>
    (s.setPort port { p with recheckGt := s.gt / 500000, echoDue := true }).glkNext port

/-- SYNC_SEND (R108): every 10 µs in timed-edge mode, as soon as the transmit pair and the queue are free and the frame
completes before the bank's next reload decision. -/
def execSyncSend (port : Nat) (s : State) : Res :=
  let p := s.port port
  let run := (s.portSt port == glTrain && 16 ≤ p.echoes) || s.portUp port
  s.whenB (run && s.portTe port && decide (p.lastSync + 10000 ≤ s.now)) fun s =>
    (s.setPort port { p with syncDue := true }).glkNext port

/-- NEGOTIATE_TIMEOUT (R105, R106): the limit of the state the attempt is in has passed. The spec gives none for an ECHO
that stays without its reply in TRAIN, and the port waits there (DESIGN CHOICE, log entry 54). -/
def execNegotiateTimeout (port : Nat) (s : State) : Res :=
  let p := s.port port
  let st := s.portSt port
  if st = glLock then s.whenB (decide (p.attemptAt + 10000000 ≤ s.now)) fun s => s.glkFail port 1
  else if st = glConfig then s.whenB (p.ackAt.isNone && decide (p.cfgAt + 1000000 ≤ s.now)) fun s => s.glkFail port 9
  else if st = glTrain then
    if !p.locked then s.whenB (decide (p.trainAt + 1000000 ≤ s.now)) fun s => s.glkFail port 9
    else match p.syncAt with
      | some t => s.whenB (decide (t + 1000000 ≤ s.now)) fun s => s.glkFail port 7
      | none => .next s
  else .next s

/-- BRINGUP_RETRY (R106): 100 ms after a failure. -/
def execBringupRetry (port : Nat) (s : State) : Res :=
  match (s.port port).retryAt with
  | some t => s.whenB (decide (t ≤ s.now)) fun s => s.glkAttempt port
  | none => .next s

/-- The frame that keeps a link alive. -/
def State.keepKind (s : State) (n : Nat) : Nat := if s.portTe n then gfIdle else gfLevel

/-- A frame is due to keep the link alive: 5 µs after the last one started, or before, where it could not end before the bank's next
reload decision by then (R102, R112). -/
def State.keepDue (s : State) (n : Nat) : Bool :=
  let at_ := (s.port n).lastDown + 5000
  decide (at_ ≤ s.now) || !s.frameClearIn n (s.keepKind n) (at_ - s.now)

/-- LINK_KEEPALIVE (R102): IDLE in timed-edge mode, the last LEVEL frame in level mode; a queued command and a RELEASE that waits go
first, and the frame ends before the bank's next reload decision (R112). -/
def execLinkKeepalive (port : Nat) (s : State) : Res :=
  let p := s.port port
  s.whenB (s.portUp port && s.keepDue port && s.lineFree port && p.queue.isEmpty && s.frameClear port (s.keepKind port)) fun s =>
    if p.relDue != 0 then s.glkNext port
    else s.glkSend port (s.keepKind port) (if s.portTe port then [] else [BitVec.ofNat 8 p.level])

/-! ### STATUS frames (R117 to R124, R128) -/

/-- A sample set due in a frame that did not bring one (R118). -/
def State.staleSets (s : State) (n start : Nat) : State :=
  let p := s.port n
  if p.setsDue.any (fun t => decide (t + 1000 ≤ start)) then
    let s := s.setPort n { p with setsDue := p.setsDue.filter (fun t => !decide (t + 1000 ≤ start)) }
    (s.wb (GLK_SAMPSTAT.STALE n) true).incSat (GLK_SAMPSTAT.AGE n)
  else s

/-- The sample set of a STATUS frame that starts at a GT (R118). The frame carries a set that is due where TAG is the low
16 bits of its instant, in level mode too (DESIGN CHOICE, log entry 54). -/
def State.statusSamples (s : State) (n start : Nat) (b : List Byte) : State :=
  let p := s.port n
  let due := p.setsDue.filter (fun t => decide (t + 1000 ≤ start))
  if due.any (fun t => t % 65536 == leAt b 6 2) then
    let s := s.setPort n { p with setsDue := p.setsDue.filter (fun t => !decide (t + 1000 ≤ start)) }
    let s := s.setN (GLK_SAMPA.adr n) (leAt b 8 4)
    let s := s.setN (GLK_SAMPB.adr n) (leAt b 12 2 + 65536 * leAt b 14 2)
    let s := s.setN (GLK_SAMPC.adr n) (leAt b 16 2 + 65536 * leAt b 6 2)
    s.setN (GLK_SAMPSTAT.adr n) (2 ^ 31)
  else s.staleSets n start

/-- DESAT reports of one frame (R119, R120). A leg reported one frame after another counts as DUAL with it, whether that
other was the first or a second independent fault, and the mask of 68's detail word names the legs reported, though the whole
bank is held (DESIGN CHOICE, log entry 54). While DUAL is in force, a leg reported two or more frames after the last is an
independent fault, any other one belongs to the short. -/
def State.statusDesat (s : State) (n mask : Nat) : State :=
  let p := s.port n
  let dual := (s.holdByte n 0).testBit 1
  let held := fun l => (s.holdByte n l).testBit 0 || (dual && p.dualLegs.testBit l)
  let fresh := [0, 1, 2].filter (fun l => mask.testBit l && !held l)
  let recent := [0, 1, 2].filter (fun l => held l && mget 0 p.desatAt l + 1 == p.frames)
  if fresh.isEmpty then s
  else
    let short := decide (2 ≤ (fresh ++ recent).length)
    let s := s.setPort n { p with desatAt := fresh.foldl (fun m l => mset m l p.frames) p.desatAt
                                  dualLegs := (if dual then p.dualLegs else 0) ||| (if short then maskOf (fresh ++ recent) else 0) }
    if short then
      if dual then s
      else
        let s := ((s.setHold n 0 1 true).setHold n 1 1 true).setHold n 2 1 true
        (s.raiseEv 68 (glkDetail n (maskOf (fresh ++ recent)) 0)).holdLegs n 7
    else fresh.foldl (fun s l => (s.raiseEv 67 (glkDetail n (2 ^ l) 0)).holdLeg n l 0) s

/-- UVLO reports of one frame for the high side (`lo` false, reason 2, source 65) or the low side (reason 3, 66). A missing or
discarded frame between two does not break the three in a row (R123, DESIGN CHOICE, log entry 54). -/
def State.statusUvlo (s : State) (n bitsN : Nat) (lo : Bool) : State :=
  let reason := if lo then 3 else 2
  let src := if lo then 66 else 65
  let seen := fun l => bitsN.testBit (2 * l + b2n lo)
  let held := fun l => (s.holdByte n l).testBit reason
  let fresh := [0, 1, 2].filter (fun l => seen l && !held l)
  let s1 := fresh.foldl (fun s l => s.holdLeg n l reason) s
  let s1 := if fresh.isEmpty then s1 else s1.assertSrc src (glkDetail n (maskOf fresh) 0)
  let s2 := [0, 1, 2].foldl (fun s l =>
    let key := 2 * l + b2n lo
    let p := s.port n
    if seen l then s.setPort n { p with uvloClear := mset p.uvloClear key 0 }
    else if held l then
      let c := mget 0 p.uvloClear key + 1
      let s := s.setPort n { p with uvloClear := mset p.uvloClear key c }
      if 3 ≤ c then s.setHold n l reason false else s
    else s) s1
  s2.glkCond src (s2.anyUvlo reason)

/-- INTLK reports: the leg is held, LATCH set and OFFCAUSE 2, 71 raised (Table GLK-7, R122). -/
def State.statusIntlk (s : State) (n mask : Nat) : State :=
  [0, 1, 2].foldl (fun s l =>
    if mask.testBit l && !(s.holdByte n l).testBit 4 then
      let m := 3 * n + l
      let s := if s.linkBank n then s.wb (PWM_LEGSTAT.LATCH m) true else s
      (s.raiseEv 71 (glkDetail n (2 ^ l) 0)).holdLeg n l 4
    else s) s

/-- LATE reports: the leg is held until the next boundary, 70 raised (R113, Table GLK-7). -/
def State.statusLate (s : State) (n mask : Nat) : State :=
  [0, 1, 2].foldl (fun s l =>
    if mask.testBit l then (s.raiseEv 70 (glkDetail n (2 ^ l) 0)).holdLeg n l 5 else s) s

/-- OTSD and TEMP (Table GLK-7, R123, R129). -/
def State.statusHeat (s : State) (n : Nat) (otsd : Bool) (temp : Int) : State :=
  let s := if otsd then
      let s := s.setPort n { s.port n with otsdClear := 0 }
      if s.rb (GLK_LEGHOLD.OTSD n) then s
      else ((s.wb (GLK_LEGHOLD.OTSD n) true).holdLegs n 7).assertSrc 72 (glkDetail n 0 0)
    else if s.rb (GLK_LEGHOLD.OTSD n) then
      let c := (s.port n).otsdClear + 1
      let s := s.setPort n { s.port n with otsdClear := c }
      if 3 ≤ c then s.wb (GLK_LEGHOLD.OTSD n) false else s
    else s
  let s := (s.tempJudge n temp).offLabels n
  s.glkCond 72 s.anyHot

/-- The STATUS payload kept in GLK_PSTATn. -/
def State.statusRecord (s : State) (n : Nat) (b : List Byte) : State :=
  let b2 := leAt b 2 1
  s.setN (GLK_PSTAT.adr n) (leAt b 4 1 * 2 ^ 24 + leAt b 0 1 * 2 ^ 16 + leAt b 1 1 % 64 * 2 ^ 8
    + b2 / 64 % 2 * 2 ^ 7 + leAt b 3 1 / 128 * 2 ^ 6 + b2 / 8 % 8 * 2 ^ 3 + b2 % 8)

/-- The target of a command passed 2 µs or more before a frame started. -/
def GlkCmd.past (c : GlkCmd) (start : Nat) : Bool := decide (c.target + 64000 ≤ 32 * start)

/-- Commands whose targets passed 2 µs or more before the frame started, counted (R128). Where the frame reports INTLK
for legs and EXEC shows some of their commands missing, the partner has refused those: they are not accepted, and leave
SENT and the count (R125; DESIGN CHOICE, log entry 54). The accepted ones are the bank's edge record. -/
def State.countPassed (s : State) (n start intlk exec : Nat) : State :=
  let p := s.port n
  let done := p.cmds.filter (fun c => c.past start)
  let total := p.passed + done.length
  let short := (total + 256 - exec) % 256
  let refused := if short ≤ (done.filter (fun c => intlk.testBit c.leg && c.leg < 3)).length then short else 0
  let s := s.setPort n { p with passed := total - refused, cmds := p.cmds.filter (fun c => !c.past start) }
  let s := s.wf (GLK_CMDCNT.SENT n) (s.rf (GLK_CMDCNT.SENT n) + 2 ^ 24 - refused)
  if !s.linkBank n then s
  else done.foldl (fun s c => if c.leg < 3 then s.setLeg (3 * n + c.leg) ((s.leg (3 * n + c.leg)).recCmd c) else s) s

/-- The reports of a STATUS frame and the lane's reactions to them (Table GLK-7). -/
def State.statusReports (s : State) (n : Nat) (b : List Byte) : State :=
  let b2 := leAt b 2 1
  let s := s.setPort n { s.port n with frames := (s.port n).frames + 1 }
  let s := s.statusDesat n (b2 % 8)
  let s := (s.statusUvlo n (leAt b 1 1) false).statusUvlo n (leAt b 1 1) true
  let s := (s.statusIntlk n (b2 / 8 % 8)).statusLate n (leAt b 3 1 % 8)
  s.statusHeat n (b2.testBit 6) (toSigned 8 (leAt b 4 1))

/-- A STATUS frame on an UP port: its reports, its sample set, and in timed-edge mode EXEC and SYNCOK (R128; DEDUCED, log
entry 54: in level mode there are no commands to count). -/
def State.statusApply (s : State) (n start : Nat) (b : List Byte) : State :=
  let b3 := leAt b 3 1
  let s := (s.countPassed n start (leAt b 2 1 / 8 % 8) (leAt b 5 1)).wf (GLK_CMDCNT.EXEC n) (leAt b 5 1)
  let s := s.setPort n { s.port n with lastStart := start, missRun := 0 }
  let s := (s.statusReports n b).statusSamples n start b
  let te := s.portTe n
  let timeBad := te && !b3.testBit 7
  let execBad := te && (s.port n).passed % 256 != leAt b 5 1
  let s := if timeBad then (s.wb (GLK_LEGHOLD.TIME n) true).raiseEv 74 (glkDetail n 0 0) else s
  let s := if execBad then (s.wb (GLK_LEGHOLD.EXEC n) true).raiseEv 73 (glkDetail n 0 0) else s
  if timeBad || execBad then s.glkBringup n else s

/-- A STATUS frame (R119): in TRAIN the lane reacts to its reports, and SYNCOK after the first SYNC ends bring-up; on an
UP port it is applied. -/
def State.statusIn (s : State) (port : Nat) (payload : List Byte) (startGt : Nat) : State :=
  if s.portSt port = glTrain then
    let s := (s.statusRecord port payload).statusReports port payload
    if (s.port port).te && (s.port port).syncAt.isSome && (leAt payload 3 1).testBit 7 then s.glkGoUp port else s
  else if s.portUp port then (s.statusRecord port payload).statusApply port startGt payload
  else s

/-- Link loss (R124): 64, the bank held, its pending set discarded (R122), bring-up again. -/
def State.linkLoss (s : State) (n : Nat) : State :=
  let s := (s.wb (GLK_LEGHOLD.LINK n) true).raiseEv 64 (glkDetail n 0 0)
  let s := if s.linkBank n then s.dropPend n else s
  let s := s.glkLeave n
  (s.wf (GLK_LINKSTAT.STATE n) glDown).glkBringup n

/-- One more STATUS frame missing or discarded; the third in a row is link loss (R124). It counts as the next one after a first
DESAT report (R120, DESIGN CHOICE, log entry 54). -/
def State.statusLost (s : State) (n start : Nat) : State :=
  let s := s.staleSets n start
  let r := (s.port n).missRun + 1
  let s := s.setPort n { s.port n with missRun := r, lastStart := start, frames := (s.port n).frames + 1 }
  if 3 ≤ r then s.linkLoss n else s

/-- A discarded upstream frame (R101, R124): counted; on an UP port whose next STATUS frame is due, it counts towards
link loss as well. -/
def State.discardIn (s : State) (port : Nat) : State :=
    let s := s.incSat (GLK_ERRCNT.CRCERR port)
    if s.portUp port && decide ((s.port port).lastStart + 4980 ≤ s.gt) then s.statusLost port ((s.port port).lastStart + 5000) else s

/-- An upstream frame as its port takes it. -/
def glkRun (c : Instr) (s : State) : State :=
  match c with
  | .capReceive p r => s.capIn p r.toList
  | .cfgackReceive p r => s.cfgackIn p r.toList
  | .echoreplyReceive p q t => s.echoIn p q t
  | .statusReceive p r g => s.statusIn p r.toList g
  | .upstreamFrameDiscard p => s.discardIn p
  | _ => s

/-- The payload of a frame of `n` bytes, as it stands on the line. -/
def linePayload (n : Nat) (l : List Byte) : Vector Byte n := Vector.ofFn fun i => l.getD (i.val + 1) 0

/-- A frame on the line after a CORRUPT event inverted one bit after the comma (Table AST-2): discarded where its check is
bad (R101), ignored where it is of no listed type, else read by `rd`. FIXCHK forms the check anew. -/
def glkTaken (p : Fin 8) (type param : Nat) (fix : Bool) (payload : List Byte) (rd : List Byte → Instr) : Option Instr :=
  let l := flipBit (glkLine type payload) param
  let l := if fix then (let b := l.take (1 + payload.length); b ++ glkCrc16 b) else l
  if !glkGood l then some (.upstreamFrameDiscard p)
  else if leAt l 0 1 ≠ type then none else some (rd l)

/-- What an upstream frame of unknown content is with its check formed anew: a frame of its port, or one of no listed type. -/
def glkAnew (p : Fin 8) (c : Option Instr) : Option Instr :=
  match c with
  | some (.capReceive _ r) => some (.capReceive p r)
  | some (.cfgackReceive _ r) => some (.cfgackReceive p r)
  | some (.echoreplyReceive _ q t) => some (.echoreplyReceive p q t)
  | some (.statusReceive _ r g) => some (.statusReceive p r g)
  | _ => none

/-- An upstream frame after a CORRUPT event. What a discarded frame whose check is formed anew (FIXCHK) carries is free
(DESIGN CHOICE, log entry 46). -/
def glkFlip (free param : Nat) (fix : Bool) (c : Instr) : Option Instr :=
  match c with
  | .upstreamFrameDiscard p => if fix then glkAnew p (Config.corrupted param free c) else some c
  | .capReceive p r => glkTaken p 0x02 param fix r.toList (fun l => .capReceive p (linePayload 20 l))
  | .cfgackReceive p r => glkTaken p 0x13 param fix r.toList (fun l => .cfgackReceive p (linePayload 16 l))
  | .echoreplyReceive p q t => glkTaken p 0x15 param fix [q] (fun l => .echoreplyReceive p (l.getD 1 0) t)
  | .statusReceive p r g => glkTaken p 0x10 param fix r.toList (fun l => .statusReceive p (linePayload 20 l) g)
  | c => some c

/-- An upstream frame that arrives later by some ns; an echo's round trip is in 1/32 ns. -/
def glkShift (d : Nat) (c : Instr) : Instr :=
  match c with
  | .echoreplyReceive p q t => .echoreplyReceive p q (t + 32 * d)
  | .statusReceive p r g => .statusReceive p r (g + d)
  | c => c

/-- An upstream frame at the pad of a port (R350). -/
def State.glkUpIn (s : State) (port type : Nat) (c : Instr) : State :=
  s.recvInj injGlkUp port (0x100 + type) 0 c (glkFlip s.free) glkShift glkRun

/-- CAP_RECEIVE (R104). -/
def execCapReceive (port : Nat) (record : Vector Byte 20) (s : State) : Res :=
  s.whenOn fun s => s.glkUpIn port 0x02 (.capReceive (Fin.ofNat 8 port) record)

/-- CFGACK_RECEIVE (R103). -/
def execCfgackReceive (port : Nat) (payload : Vector Byte 16) (s : State) : Res :=
  s.whenOn fun s => s.glkUpIn port 0x13 (.cfgackReceive (Fin.ofNat 8 port) payload)

/-- ECHOREPLY_RECEIVE (R108). -/
def execEchoreplyReceive (port : Nat) (sequence : Byte) (roundTrip : Nat) (s : State) : Res :=
  s.whenOn fun s => s.glkUpIn port 0x15 (.echoreplyReceive (Fin.ofNat 8 port) sequence roundTrip)

/-- STATUS_RECEIVE (R119). -/
def execStatusReceive (port : Nat) (payload : Vector Byte 20) (startGt : Nat) (s : State) : Res :=
  s.whenOn fun s => s.glkUpIn port 0x10 (.statusReceive (Fin.ofNat 8 port) payload startGt)

/-- UPSTREAM_FRAME_DISCARD (R101): the frame meets the rules of its port first (R350); the command does not carry its
type, which is a free value. -/
def execUpstreamFrameDiscard (port : Nat) (s : State) : Res :=
  s.whenOn fun s => (s.used 1).glkUpIn port (s.freeNat % 256) (.upstreamFrameDiscard (Fin.ofNat 8 port))

/-- STATUS_MISSING (R124): no frame has started within 5 020 ns of the last start. -/
def execStatusMissing (port : Nat) (s : State) : Res :=
  s.whenB (s.portUp port && decide ((s.port port).lastStart + 5020 ≤ s.gt)) fun s =>
    (s.incSat (GLK_ERRCNT.MISSED port)).statusLost port ((s.port port).lastStart + 5020)

/-! ### Level mode (R116) -/

/-- The edges planned for a leg from now on: of the running plan, and once the reload decision has been taken, from the
coming boundary on, of the coming plan (R116). -/
def State.edgesAhead (s : State) (m : Nat) : List Edge :=
  let l := s.leg m
  let x := s.bank (m / 3)
  if x.decided then l.plan.filter (fun e => decide (e.t < 32 * x.nextB)) ++ l.next else l.plan

/-- The earliest planned edge of a bank's legs, 1/32 ns. -/
def State.nextEdge (s : State) (b : Nat) : Option Nat :=
  (s.drivenLegs b).foldl (fun a m => match (s.edgesAhead m).head?, a with
    | some e, some t => some (min e.t t)
    | some e, none => some e.t
    | none, a => a) none

/-- The edges of a leg up to a time made, early as the level frame has to be. -/
def State.levelLeg (s : State) (t m : Nat) : State :=
  let l := ((s.edgesAhead m).filter (fun e => decide (e.t ≤ t))).foldl
    (fun l e => (l.edge e).recEdge (32 * s.rf (PWM_LEGSET.DT m)) e) (s.leg m)
  s.setLeg m { l with plan := l.plan.filter (fun e => !decide (e.t ≤ t)), next := l.next.filter (fun e => !decide (e.t ≤ t)) }

/-- Switch states of a bank as a LEVEL payload: bit 2l high, bit 2l + 1 low (Table GLK-1). -/
def State.levelMask (s : State) (b : Nat) : Nat :=
  (s.drivenLegs b).foldl (fun a m => a + 2 ^ (2 * (m % 3)) * b2n (s.leg m).hiOn + 2 ^ (2 * (m % 3) + 1) * b2n (s.leg m).loOn) 0

/-- The LEVEL frame for the switch changes planned at one instant. -/
def State.levelAt (s : State) (b t : Nat) : State :=
  let s := (s.drivenLegs b).foldl (State.levelLeg · t) s
  let mask := s.levelMask b
  if mask = (s.port b).level then s
  else ((s.setPort b { s.port b with level := mask }).relFirst b).glkSend b gfLevel [BitVec.ofNat 8 mask]

/-- The repeated LEVEL frame of the sample instants that have come. -/
def State.levelSample (s : State) (b : Nat) : State :=
  let p := s.port b
  let s := s.setPort b { p with levelSamples := p.levelSamples.filter (fun x => !decide (x ≤ s.gt))
                                setsDue := p.setsDue ++ p.levelSamples.filter (fun x => decide (x ≤ s.gt)) }
  (s.relFirst b).glkSend b gfLevel [BitVec.ofNat 8 p.level]

/-- How early a LEVEL frame of a switch change leaves, 1/32 ns (R116): the frame time, GLK_DELAYn and TURN / 2. -/
def State.levelLead (s : State) (n : Nat) : Nat := 32 * (3 * charTime (s.lineRate n)) + s.rn (GLK_DELAY.adr n) + 16 * s.turn n

/-- LEVEL_SEND (R116): the frame of the next planned switch change, due its lead ahead of it, or of a sample, due at its
instant. -/
def execLevelSend (port : Nat) (s : State) : Res :=
  s.whenB (s.linkBank port && s.portUp port && !s.portTe port) fun s =>
    match (s.nextEdge port).filter (fun t => decide (t ≤ 32 * s.gt + 31 + s.levelLead port)) with
    | some t => s.levelAt port t
    | none => if (s.port port).levelSamples.any (fun x => decide (x ≤ s.gt)) then s.levelSample port else s

/-- A read of GLK_SAMPAn captures the other sample words for its requester (R118). -/
def State.sampaRead (s : State) (req port : Nat) : State :=
    let c : SampCap := { b := s.rn (GLK_SAMPB.adr port), c := s.rn (GLK_SAMPC.adr port), st := s.rn (GLK_SAMPSTAT.adr port) }
    { s with rdata := s.rn (GLK_SAMPA.adr port), glk := { s.glk with caps := mset s.glk.caps (8 * req + port) c } }

/-- GLK_SAMPA_READ (R118). -/
def execGlkSampaRead (req port : Nat) (s : State) : Res := s.whenOn fun s => s.sampaRead req port

end Sys2Proof.Machine
end

