-- ==== Sys2Proof/Machine/Crypto.lean ====
section
/-! DEFINITION. SHA-512 (FIPS 180-4) and pure Ed25519 (RFC 8032), which R410 names. -/

namespace Sys2Proof.Machine

/-! ### SHA-512 -/

/-- SHA-512 round constants 0 to 19. -/
def shaK0 : List Nat := [
  0x428A2F98D728AE22, 0x7137449123EF65CD, 0xB5C0FBCFEC4D3B2F, 0xE9B5DBA58189DBBC,
  0x3956C25BF348B538, 0x59F111F1B605D019, 0x923F82A4AF194F9B, 0xAB1C5ED5DA6D8118,
  0xD807AA98A3030242, 0x12835B0145706FBE, 0x243185BE4EE4B28C, 0x550C7DC3D5FFB4E2,
  0x72BE5D74F27B896F, 0x80DEB1FE3B1696B1, 0x9BDC06A725C71235, 0xC19BF174CF692694,
  0xE49B69C19EF14AD2, 0xEFBE4786384F25E3, 0x0FC19DC68B8CD5B5, 0x240CA1CC77AC9C65]

/-- SHA-512 round constants 20 to 39. -/
def shaK1 : List Nat := [
  0x2DE92C6F592B0275, 0x4A7484AA6EA6E483, 0x5CB0A9DCBD41FBD4, 0x76F988DA831153B5,
  0x983E5152EE66DFAB, 0xA831C66D2DB43210, 0xB00327C898FB213F, 0xBF597FC7BEEF0EE4,
  0xC6E00BF33DA88FC2, 0xD5A79147930AA725, 0x06CA6351E003826F, 0x142929670A0E6E70,
  0x27B70A8546D22FFC, 0x2E1B21385C26C926, 0x4D2C6DFC5AC42AED, 0x53380D139D95B3DF,
  0x650A73548BAF63DE, 0x766A0ABB3C77B2A8, 0x81C2C92E47EDAEE6, 0x92722C851482353B]

/-- SHA-512 round constants 40 to 59. -/
def shaK2 : List Nat := [
  0xA2BFE8A14CF10364, 0xA81A664BBC423001, 0xC24B8B70D0F89791, 0xC76C51A30654BE30,
  0xD192E819D6EF5218, 0xD69906245565A910, 0xF40E35855771202A, 0x106AA07032BBD1B8,
  0x19A4C116B8D2D0C8, 0x1E376C085141AB53, 0x2748774CDF8EEB99, 0x34B0BCB5E19B48A8,
  0x391C0CB3C5C95A63, 0x4ED8AA4AE3418ACB, 0x5B9CCA4F7763E373, 0x682E6FF3D6B2B8A3,
  0x748F82EE5DEFB2FC, 0x78A5636F43172F60, 0x84C87814A1F0AB72, 0x8CC702081A6439EC]

/-- SHA-512 round constants 60 to 79. -/
def shaK3 : List Nat := [
  0x90BEFFFA23631E28, 0xA4506CEBDE82BDE9, 0xBEF9A3F7B2C67915, 0xC67178F2E372532B,
  0xCA273ECEEA26619C, 0xD186B8C721C0C207, 0xEADA7DD6CDE0EB1E, 0xF57D4F7FEE6ED178,
  0x06F067AA72176FBA, 0x0A637DC5A2C898A6, 0x113F9804BEF90DAE, 0x1B710B35131C471B,
  0x28DB77F523047D84, 0x32CAAB7B40C72493, 0x3C9EBE0A15C9BEBC, 0x431D67C49C100D4C,
  0x4CC5D4BECB3E42B6, 0x597F299CFC657E2A, 0x5FCB6FAB3AD6FAEC, 0x6C44198C4A475817]

/-- The SHA-512 round constants. -/
def shaK : List Nat := shaK0 ++ shaK1 ++ shaK2 ++ shaK3

/-- The initial hash value. -/
def shaInit : List Nat := [
  0x6A09E667F3BCC908, 0xBB67AE8584CAA73B, 0x3C6EF372FE94F82B, 0xA54FF53A5F1D36F1,
  0x510E527FADE682D1, 0x9B05688C2B3E6C1F, 0x1F83D9ABFB41BD6B, 0x5BE0CD19137E2179]

/-- A 64-bit rotation to the right. -/
def rotr64 (n x : Nat) : Nat := (x >>> n) ||| ((x <<< (64 - n)) % 2 ^ 64)

/-- The complement of a 64-bit word. -/
def not64 (x : Nat) : Nat := 2 ^ 64 - 1 - x

/-- The message schedule, newest word first, extended by `n` words. -/
def shaSched : Nat → List Nat → List Nat
  | 0, w => w
  | n + 1, w =>
    let x := w.getD 14 0
    let y := w.getD 1 0
    let s0 := rotr64 1 x ^^^ rotr64 8 x ^^^ (x >>> 7)
    let s1 := rotr64 19 y ^^^ rotr64 61 y ^^^ (y >>> 6)
    shaSched n (((w.getD 15 0 + s0 + w.getD 6 0 + s1) % 2 ^ 64) :: w)

/-- One round on the working variables a to h. -/
def shaRound (v : List Nat) (kw : Nat × Nat) : List Nat :=
  match v with
  | [a, b, c, d, e, f, g, h] =>
    let s1 := rotr64 14 e ^^^ rotr64 18 e ^^^ rotr64 41 e
    let ch := (e &&& f) ^^^ (not64 e &&& g)
    let t1 := h + s1 + ch + kw.1 + kw.2
    let s0 := rotr64 28 a ^^^ rotr64 34 a ^^^ rotr64 39 a
    let mj := (a &&& b) ^^^ (a &&& c) ^^^ (b &&& c)
    [(t1 + s0 + mj) % 2 ^ 64, a, b, c, (d + t1) % 2 ^ 64, e, f, g]
  | _ => v

/-- The chaining value after one block of 128 bytes. -/
def shaBlock (h : List Nat) (block : List Byte) : List Nat :=
  let w := (List.range 16).map (fun i => ofBe (sliceB block (8 * i) 8))
  let ws := (shaSched 64 w.reverse).reverse
  let v := (shaK.zip ws).foldl shaRound h
  (h.zip v).map (fun p => (p.1 + p.2) % 2 ^ 64)

/-- The chaining value after `n` blocks of 128 bytes. -/
def shaBlocks : Nat → List Nat → List Byte → List Nat
  | 0, h, _ => h
  | n + 1, h, l => shaBlocks n (shaBlock h (l.take 128)) (l.drop 128)

/-- The padding of a message of `n` bytes. -/
def shaPad (n : Nat) : List Byte :=
  [(0x80 : Byte)] ++ List.replicate ((239 - n % 128) % 128) 0 ++ beBytes 16 (8 * n)

/-- The digest of a chaining value. -/
def shaOut (h : List Nat) : List Byte := h.flatMap (beBytes 8)

/-- The digest of a message whose first `n` bytes, a multiple of 128, gave the chaining value `h`. -/
def shaFinish (h : List Nat) (n : Nat) (rest : List Byte) : List Byte :=
  let l := rest ++ shaPad (n + rest.length)
  shaOut (shaBlocks (l.length / 128) h l)

/-- SHA-512. -/
def sha512 (l : List Byte) : List Byte := shaFinish shaInit 0 l

/-! ### Ed25519 -/

/-- The field prime. -/
def edP : Nat := 2 ^ 255 - 19

/-- The group order. -/
def edL : Nat := 2 ^ 252 + 27742317777372353535851937790883648493

/-- A power modulo `m` by squaring over `n` bits of the exponent. -/
def powMod (m : Nat) : Nat → Nat → Nat → Nat
  | 0, _, _ => 1 % m
  | n + 1, b, e =>
    let r := powMod m n (b * b % m) (e / 2)
    if e % 2 = 1 then b * r % m else r

/-- The inverse modulo the field prime. -/
def edInv (x : Nat) : Nat := powMod edP 255 x (edP - 2)

/-- The curve constant d. -/
def edD : Nat := (edP - 121665) * edInv 121666 % edP

/-- A point in extended coordinates. -/
structure EdPt where
  x : Nat
  y : Nat
  z : Nat
  t : Nat
  deriving DecidableEq, Repr

/-- The neutral point. -/
def edZero : EdPt := ⟨0, 1, 1, 0⟩

/-- Point addition. -/
def edAdd (p q : EdPt) : EdPt :=
  let a := (p.y + edP - p.x) * (q.y + edP - q.x) % edP
  let b := (p.y + p.x) * (q.y + q.x) % edP
  let c := 2 * p.t * q.t * edD % edP
  let d := 2 * p.z * q.z % edP
  let e := b + edP - a
  let f := d + edP - c
  let g := d + c
  let h := b + a
  ⟨e * f % edP, g * h % edP, f * g % edP, e * h % edP⟩

/-- `k` times a point, over `n` bits of `k`. -/
def edMul : Nat → Nat → EdPt → EdPt
  | 0, _, _ => edZero
  | n + 1, k, p =>
    let r := edMul n (k / 2) (edAdd p p)
    if k % 2 = 1 then edAdd p r else r

/-- The square root of -1. -/
def edI : Nat := powMod edP 255 2 ((edP - 1) / 4)

/-- The x coordinate with a given parity of a point with a given y. -/
def edX (y sign : Nat) : Option Nat :=
  let u := (y * y + edP - 1) % edP
  let v := (edD * y * y + 1) % edP
  let x2 := u * edInv v % edP
  if x2 = 0 then (if sign = 1 then none else some 0)
  else
    let x := powMod edP 255 x2 ((edP + 3) / 8)
    let x := if x * x % edP = x2 then x else x * edI % edP
    if x * x % edP ≠ x2 then none
    else some (if x % 2 = sign then x else edP - x)

/-- A point from its 32-byte encoding. -/
def edDecode (l : List Byte) : Option EdPt :=
  let n := ofLe l
  let y := n % 2 ^ 255
  if l.length ≠ 32 ∨ edP ≤ y then none
  else (edX y (n / 2 ^ 255)).map (fun x => ⟨x, y, 1, x * y % edP⟩)

/-- A point's 32-byte encoding. -/
def edEncode (p : EdPt) : List Byte :=
  let zi := edInv p.z
  leBytes 32 (p.y * zi % edP + (p.x * zi % edP) % 2 * 2 ^ 255)

/-- The base point. -/
def edB : EdPt :=
  let y := 4 * edInv 5 % edP
  let x := (edX y 0).getD 0
  ⟨x, y, 1, x * y % edP⟩

/-- Two points are equal. -/
def edEq (p q : EdPt) : Bool :=
  p.x * q.z % edP == q.x * p.z % edP && p.y * q.z % edP == q.y * p.z % edP

/-- The secret scalar and the prefix of a 32-byte seed. -/
def edSecret (seed : List Byte) : Nat × List Byte :=
  let h := sha512 seed
  let a := ofLe (h.take 32)
  (a % 2 ^ 254 / 8 * 8 + 2 ^ 254, h.drop 32)

/-- The public key of a seed. -/
def edPublic (seed : List Byte) : List Byte := edEncode (edMul 256 (edSecret seed).1 edB)

/-- The signature of a message. -/
def edSign (seed msg : List Byte) : List Byte :=
  let (a, pre) := edSecret seed
  let pub := edEncode (edMul 256 a edB)
  let r := ofLe (sha512 (pre ++ msg)) % edL
  let rb := edEncode (edMul 256 r edB)
  let k := ofLe (sha512 (rb ++ pub ++ msg)) % edL
  rb ++ leBytes 32 ((r + k * a) % edL)

/-- Whether a 64-byte signature of a message verifies under a public key: the group equation of RFC 8032 with its
factor 8 (PRESUMED, log entry 25). -/
def edVerify (pub msg sig : List Byte) : Bool :=
  match edDecode pub, edDecode (sig.take 32) with
  | some a, some r =>
    let s := ofLe (sig.drop 32)
    let k := ofLe (sha512 (sig.take 32 ++ pub ++ msg)) % edL
    sig.length == 64 && decide (s < edL) &&
      edEq (edMul 4 8 (edMul 256 s edB)) (edMul 4 8 (edAdd r (edMul 256 k a)))
  | _, _ => false

end Sys2Proof.Machine
end

