-- ==== Sys2Proof/Machine/Entries.lean ====
section
/-! DEFINITION. Strike entries' words (R55, R56): the effective enable, and the words of an activated set that wait. -/

namespace Sys2Proof.Machine

/-- The effective enable of entry `m` for a fire time `t`. -/
def State.enabledAt (s : State) (m t : Nat) : Bool :=
  match (s.spn.enPend.filter (fun e => e.group == m / 16 && decide (e.eff ≤ t))).getLast? with
  | some e => e.mask.testBit (m % 16)
  | none => s.rb (SPN_ESTAT.ENABLED m)

/-- An entry's words may not be written: it is enabled, or an instance of it is outstanding (R56). -/
def State.entryBusy (s : State) (m : Nat) : Bool := s.enabledAt m s.gt || (s.entry m).inst.isSome

/-- The three words of an entry. -/
def entryAddrs (m : Nat) : List Nat := [SPN_PERIOD.adr m, SPN_PHASE.adr m, SPN_ACT.adr m]

/-- The words that an activated set gave an entry, stored once R56 lets them be; the entry fires by them from the next ns on. -/
def State.entryTake (s : State) (x : Nat × Nat × Nat × Nat) : State :=
  if s.entryBusy x.1 then s
  else
    let s := ((s.setN (SPN_PERIOD.adr x.1) x.2.1).setN (SPN_PHASE.adr x.1) x.2.2.1).setN (SPN_ACT.adr x.1) x.2.2.2
    let s := s.setEntry x.1 { s.entry x.1 with sinceGt := max (s.entry x.1).sinceGt (s.gt + 1) }
    { s with spn := { s.spn with waiting := s.spn.waiting.erase x } }

/-- Every entry that waits for the words of an activated set is looked at (R56; DESIGN CHOICE, log entry 47). -/
def State.entriesTake (s : State) : State := s.spn.waiting.foldl State.entryTake s

end Sys2Proof.Machine
end

