-- ==== Sys2Proof/Machine/Float.lean ====
section
/-! DEFINITION. The engines' binary32 arithmetic (R151, R490): patterns are numbers below 2^32; subnormal operands read
as zero and subnormal results are written as zero; every operation is rounded once, to nearest even. -/

namespace Sys2Proof.Machine

def fZero : Nat := 0
def fOne : Nat := 0x3F800000
def fInf : Nat := 0x7F800000
def fNaN : Nat := 0x7FC00000

/-- Sign bit of a pattern. -/
def fNeg? (x : Nat) : Bool := x.testBit 31
def fExp (x : Nat) : Nat := x / 2 ^ 23 % 256
def fFrac (x : Nat) : Nat := x % 2 ^ 23

def isNaN (x : Nat) : Bool := fExp x == 255 && fFrac x != 0
def isInf (x : Nat) : Bool := fExp x == 255 && fFrac x == 0
/-- Neither infinity nor NaN. -/
def isFin (x : Nat) : Bool := fExp x != 255
/-- A zero, a subnormal read as zero included. -/
def isZero (x : Nat) : Bool := fExp x == 0

/-- Significand and exponent of a finite pattern: its magnitude is `m × 2^e`. -/
def fMag (x : Nat) : Nat × Int := if fExp x = 0 then (0, 0) else (2 ^ 23 + fFrac x, (fExp x : Int) - 150)

/-- A sign as a pattern bit. -/
def signBit (neg : Bool) : Nat := if neg then 2 ^ 31 else 0

/-- `m / 2^k` rounded to nearest even. -/
def shrRne (m k : Nat) : Nat :=
  let q := m >>> k
  let r := m % 2 ^ k
  let half := 2 ^ k / 2
  if k = 0 then m else if half < r || (r == half && q % 2 == 1) then q + 1 else q

/-- `m × 2^e` with a sign, rounded to binary32: gradual underflow first, then a subnormal result to zero (R151). -/
def fRound (neg : Bool) (m : Nat) (e : Int) : Nat :=
  if m = 0 then signBit neg
  else
    let top : Int := e + (Nat.log2 m : Int)
    let q : Int := max (top - 23) (-149)
    let v := if q ≤ e then m <<< (e - q).toNat else shrRne m (q - e).toNat
    let v' := if v = 2 ^ 24 then 2 ^ 23 else v
    let q' := if v = 2 ^ 24 then q + 1 else q
    if v' < 2 ^ 23 then signBit neg
    else if 255 ≤ q' + 150 then signBit neg + fInf
    else signBit neg + (q' + 150).toNat * 2 ^ 23 + (v' - 2 ^ 23)

/-- The exact sum of two signed dyadics, rounded. -/
def fSum (s1 : Bool) (m1 : Nat) (e1 : Int) (s2 : Bool) (m2 : Nat) (e2 : Int) : Nat :=
  let e := min e1 e2
  let a : Int := ((m1 <<< (e1 - e).toNat : Nat) : Int)
  let b : Int := ((m2 <<< (e2 - e).toNat : Nat) : Int)
  let t := (if s1 then -a else a) + (if s2 then -b else b)
  fRound (decide (t < 0)) t.natAbs e

def fadd (x y : Nat) : Nat :=
  if isNaN x || isNaN y then fNaN
  else if isInf x then (if isInf y && fNeg? x != fNeg? y then fNaN else x)
  else if isInf y then y
  else if isZero x && isZero y then signBit (fNeg? x && fNeg? y)
  else if isZero x then y
  else if isZero y then x
  else
    let a := fMag x
    let b := fMag y
    fSum (fNeg? x) a.1 a.2 (fNeg? y) b.1 b.2

/-- An operand as it is read: a subnormal as zero of the same sign (R151). -/
def fFlush (x : Nat) : Nat := if isZero x then signBit (fNeg? x) else x

/-- The sign reversed. -/
def fneg (x : Nat) : Nat := if fNeg? x then fFlush x - 2 ^ 31 else fFlush x + 2 ^ 31

def fsub (x y : Nat) : Nat := fadd x (fneg y)

def fmul (x y : Nat) : Nat :=
  let neg := fNeg? x != fNeg? y
  if isNaN x || isNaN y then fNaN
  else if isInf x || isInf y then (if isZero x || isZero y then fNaN else signBit neg + fInf)
  else
    let a := fMag x
    let b := fMag y
    fRound neg (a.1 * b.1) (a.2 + b.2)

/-- `num / den` rounded (den ≠ 0). -/
def fRat (neg : Bool) (num den : Nat) (e : Int) : Nat :=
  let k : Int := 28 + (Nat.log2 den : Int) - (Nat.log2 num : Int)
  let n := if 0 ≤ k then num <<< k.toNat else num
  let d := if 0 ≤ k then den else den <<< (-k).toNat
  fRound neg (2 * (n / d) + (if n % d = 0 then 0 else 1)) (e - k - 1)

def fdiv (x y : Nat) : Nat :=
  let neg := fNeg? x != fNeg? y
  if isNaN x || isNaN y then fNaN
  else if isInf x then (if isInf y then fNaN else signBit neg + fInf)
  else if isInf y then signBit neg
  else if isZero y then (if isZero x then fNaN else signBit neg + fInf)
  else
    let a := fMag x
    let b := fMag y
    fRat neg a.1 b.1 (a.2 - b.2)

/-- Integer square root by bits from `k − 1` down. -/
def isqrtGo (n : Nat) : Nat → Nat → Nat
  | 0, r => r
  | k + 1, r => if (r + 2 ^ k) * (r + 2 ^ k) ≤ n then isqrtGo n k (r + 2 ^ k) else isqrtGo n k r

def fsqrt (x : Nat) : Nat :=
  if isNaN x then fNaN
  else if isZero x then signBit (fNeg? x)
  else if fNeg? x then fNaN
  else if isInf x then x
  else
    let a := fMag x
    let odd : Bool := a.2 % 2 != 0
    let m := a.1 <<< (if odd then 31 else 30)
    let e := (a.2 - (if odd then 31 else 30)) / 2
    let r := isqrtGo m 32 0
    fRound false (2 * r + (if r * r = m then 0 else 1)) (e - 1)

/-- An integer converted. -/
def fofInt (i : Int) : Nat := fRound (decide (i < 0)) i.natAbs 0
def fofNat (n : Nat) : Nat := fRound false n 0

/-- The magnitude. -/
def fabs (x : Nat) : Nat := if fNeg? x then fFlush x - 2 ^ 31 else fFlush x

/-- A total order key of finite patterns and infinities; zeros share one. -/
def fKey (x : Nat) : Int := if isZero x then 0 else if fNeg? x then -((x % 2 ^ 31 : Nat) : Int) else ((x % 2 ^ 31 : Nat) : Int)

def flt (x y : Nat) : Bool := !isNaN x && !isNaN y && decide (fKey x < fKey y)
def fle (x y : Nat) : Bool := !isNaN x && !isNaN y && decide (fKey x ≤ fKey y)
def feq (x y : Nat) : Bool := !isNaN x && !isNaN y && decide (fKey x = fKey y)

def fmax (x y : Nat) : Nat := if isNaN x || isNaN y then fNaN else if flt x y then fFlush y else fFlush x
def fmin (x y : Nat) : Nat := if isNaN x || isNaN y then fNaN else if flt y x then fFlush y else fFlush x
def fclamp (x lo hi : Nat) : Nat := 
  if isNaN x then fNaN else if flt x lo then fFlush lo else if flt hi x then fFlush hi else fFlush x

/-- A finite pattern rounded to an integer, ties to even. -/
def ftoInt (x : Nat) : Int :=
  let a := fMag x
  let n : Nat := if 0 ≤ a.2 then a.1 <<< a.2.toNat else shrRne a.1 (-a.2).toNat
  if fNeg? x then -(n : Int) else (n : Int)

/-- A finite pattern rounded to an integer and clamped to a field's range (R490, last item). -/
def ftoField (x hi : Nat) : Nat :=
  if isInf x then (if fNeg? x then 0 else hi) else (clampI 0 (hi : Int) (ftoInt x)).toNat

/-- Ts: the binary32 nearest to `p × 10^−9` seconds. -/
def fTs (p : Nat) : Nat := if p = 0 then 0 else fRat false p 1000000000 0

/-- Constants of R490: 2π, √3, √3/2, 1/2, 2, 3, 4. -/
def fTwoPi : Nat := 0x40C90FDB
def fSqrt3 : Nat := 0x3FDDB3D7
def fSqrt3h : Nat := 0x3F5DB3D7
def fHalf : Nat := 0x3F000000
def fTwo : Nat := 0x40000000
def fThree : Nat := 0x40400000
def fFour : Nat := 0x40800000

/-! ### Sine and cosine: within 2^−22 (R151) -/

/-- One Taylor term after another, in units of 2^-60: `x2` is the square of the argument, `n` the last factor used. -/
def taylor (x2 : Int) : Nat → Nat → Int → Int → Int
  | 0, _, _, acc => acc
  | k + 1, n, t, acc =>
    let t' := -(t * x2 / 2 ^ 60) / (((n + 1) * (n + 2) : Nat) : Int)
    taylor x2 k (n + 2) t' (acc + t')

/-- π in units of 2^-60. -/
def piFix : Int := 3622009729038561421

/-- A finite angle in units of 2^-60, brought within −π to π from 0 to 2π. -/
def angleFix (x : Nat) : Int :=
  let a := fMag x
  let n : Int := if 0 ≤ a.2 + 60 then ((a.1 <<< (a.2 + 60).toNat : Nat) : Int) else ((a.1 >>> (-(a.2 + 60)).toNat : Nat) : Int)
  let n := if fNeg? x then -n else n
  if piFix < n then n - 2 * piFix else n

/-- A finite pattern in units of 2^-60, rounded down in magnitude. -/
def toFix60 (x : Nat) : Int :=
  let a := fMag x
  let n : Nat := if 0 ≤ a.2 + 60 then a.1 <<< (a.2 + 60).toNat else a.1 >>> (-(a.2 + 60)).toNat
  if fNeg? x then -(n : Int) else (n : Int)

/-- The pattern `p` where it lies within 2^-22 of `v` (in units of 2^-60), else `v` rounded: every result that the bound
of R151 allows, and no other (DESIGN CHOICE, log entry 6). -/
def fWithin (p : Nat) (v : Int) : Nat :=
  if isFin p && decide ((toFix60 p - v).natAbs ≤ 2 ^ 38) then fFlush p else fRound (decide (v < 0)) v.natAbs (-60)

/-- Sine of an angle in 0 to 2π: an open value within 2^-22 of the exact one (R151). -/
def fsin (x : Nat) : Nat :=
  let a := angleFix x
  fWithin (Config.sinOpen x).toNat (taylor (a * a / 2 ^ 60) 16 1 a a)

/-- Cosine likewise. -/
def fcos (x : Nat) : Nat :=
  let a := angleFix x
  fWithin (Config.cosOpen x).toNat (taylor (a * a / 2 ^ 60) 16 0 (2 ^ 60) (2 ^ 60))

/-! ### IEEE binary32 with subnormals, for the agreement's mean (R244) -/

/-- Magnitude of a finite pattern, subnormals included. -/
def gMag (x : Nat) : Nat × Int := if fExp x = 0 then (fFrac x, -149) else fMag x

/-- `m × 2^e` with a sign, rounded to binary32 with gradual underflow. -/
def gRound (neg : Bool) (m : Nat) (e : Int) : Nat :=
  if m = 0 then signBit neg
  else
    let top : Int := e + (Nat.log2 m : Int)
    let q : Int := max (top - 23) (-149)
    let v := if q ≤ e then m <<< (e - q).toNat else shrRne m (q - e).toNat
    if v < 2 ^ 23 then signBit neg + v
    else if v = 2 ^ 24 then (if 254 ≤ q + 150 then signBit neg + fInf else signBit neg + (q + 151).toNat * 2 ^ 23)
    else if 255 ≤ q + 150 then signBit neg + fInf
    else signBit neg + (q + 150).toNat * 2 ^ 23 + (v - 2 ^ 23)

/-- `x × 0.5`. -/
def gHalf (x : Nat) : Nat := if isFin x then gRound (fNeg? x) (gMag x).1 ((gMag x).2 - 1) else x

/-- `x + y` of patterns that are not NaN; infinities of opposite sign have no sum. -/
def gAdd (x y : Nat) : Nat :=
  if isInf x then (if isInf y && fNeg? x != fNeg? y then fNaN else x)
  else if isInf y then y
  else
    let a := gMag x
    let b := gMag y
    let e := min a.2 b.2
    let i : Int := ((a.1 <<< (a.2 - e).toNat : Nat) : Int)
    let j : Int := ((b.1 <<< (b.2 - e).toNat : Nat) : Int)
    let t := (if fNeg? x then -i else i) + (if fNeg? y then -j else j)
    if t = 0 then signBit (fNeg? x && fNeg? y) else gRound (decide (t < 0)) t.natAbs e

/-- a × 0.5 + b × 0.5, each operation rounded to nearest even (R244). -/
def fMeanIeee (a b : Nat) : Nat := gAdd (gHalf a) (gHalf b)

end Sys2Proof.Machine
end

