-- ==== Sys2Proof/Machine/Feedback.lean ====
section
/-! DEFINITION. The feedback commands (chapter "Position and speed feedback"): counting, index, speed and SENT. -/

namespace Sys2Proof.Machine

def State.fb (s : State) (n : Nat) : ChanFb := mget {} s.fbc.chans n
def State.setFb (s : State) (n : Nat) (c : ChanFb) : State := { s with fbc := { s.fbc with chans := mset s.fbc.chans n c } }

/-- FBC_CFG.MODE codes. -/
def fbQuad : Nat := 1
def fbStepDir : Nat := 2
def fbUpDown : Nat := 3
def fbHall : Nat := 4
def fbSent : Nat := 5

/-- The channel is in use: EN is 1, MODE is not OFF, and it has been started (R148). -/
def State.fbUse (s : State) (n : Nat) : Bool := s.rb (FBC_CFG.EN n) && s.rf (FBC_CFG.MODE n) != 0 && (s.fb n).started

/-- The speed estimator returns to its unprimed state (R143). -/
def State.unprimeSpeed (s : State) (n : Nat) : State :=
  let s := s.setFb n { s.fb n with edges := 0, interval := none }
  (s.wb (FBC_STAT.SPVALID n) false).setN (FBC_SPEED.adr n) 0

/-- A signal loss: LOSS and SUSPECT set, 99 FBC_SIGNAL_LOSS, speed unprimed (R134, R141, R143). -/
def State.fbLoss (s : State) (n : Nat) : State :=
  let s := s.setFb n { s.fb n with illSusp := (s.fb n).illSusp && s.rb (FBC_STAT.SUSPECT n) }
  (((s.wb (FBC_STAT.LOSS n) true).wb (FBC_STAT.SUSPECT n) true).raiseEv 99 n).unprimeSpeed n

/-- A channel start (R148). The next sample is its first and gives the reference; a preset that waits applies in it. -/
def State.fbStart (s : State) (n : Nat) : State :=
  let c := s.fb n
  let s := s.setFb n { started := true, pins := c.pins, preset := c.preset, nextSample := max c.nextSample (s.now / 10), validAt := s.now }
  let s := ((s.setN (FBC_POS.adr n) 0).setN (FBC_POSHI.adr n) 0).setN (FBC_STAT.adr n) 0
  let s := s.wf (FBC_LEVEL.SECT n) 7
  (s.setN (FBC_SPEED.adr n) 0).wf (FBC_SENTSLOW.VALID n) 0

/-- FBC_POSn moved by a signed count, with the wraps of R137. -/
def State.movePos (s : State) (n : Nat) (d : Int) : State :=
  let old : Int := s.rn (FBC_POS.adr n)
  let new := old + d
  let s := s.setN (FBC_POS.adr n) (ofSigned 32 new)
  if new < 0 then (s.setN (FBC_POSHI.adr n) (s.rn (FBC_POSHI.adr n) + 2 ^ 32 - 1)).hwBit (FBC_STAT.WRAPDN n) 0
  else if 2 ^ 32 ≤ new then (s.setN (FBC_POSHI.adr n) (s.rn (FBC_POSHI.adr n) + 1)).hwBit (FBC_STAT.WRAPUP n) 0
  else s

/-- FBC_POSn set to RAW by the steps taken since it last equalled it. -/
def State.posToRaw (s : State) (n : Nat) : State :=
  s.movePos n (toSigned 32 (ofSigned 32 (((s.fb n).raw : Int) - (s.rn (FBC_POS.adr n) : Int))))

/-- The step that a change of filtered levels makes: 0 none, ±1 a legal step, none an illegal step (R132, R133).
Levels are numbers with bit 0 A, bit 1 B, bit 2 Z. -/
def hallSector (l : Nat) : Nat :=
  if l = 1 then 0 else if l = 3 then 1 else if l = 2 then 2 else if l = 6 then 3 else if l = 4 then 4 else if l = 5 then 5 else 7

/-- Position of (B, A) in the sequence 00, 01, 11, 10. -/
def quadPhase (l : Nat) : Nat := if l % 4 = 0 then 0 else if l % 4 = 1 then 1 else if l % 4 = 3 then 2 else 3

def stepOf (mode old new : Nat) : Option Int :=
  let rise := fun i => !old.testBit i && new.testBit i
  if mode = fbQuad then
    if old % 4 = new % 4 then some 0
    else if old.testBit 0 != new.testBit 0 && old.testBit 1 != new.testBit 1 then none
    else some (if (quadPhase old + 1) % 4 = quadPhase new then 1 else -1)
  else if mode = fbStepDir then some (if rise 0 then (if old.testBit 1 then 1 else -1) else 0)
  else if mode = fbUpDown then some ((b2n (rise 0) : Int) - (b2n (rise 1) : Int))
  else if mode = fbHall then
    if old = new then some 0
    else if popcount 3 (old ^^^ new) ≠ 1 then none
    else some (if (hallSector old + 1) % 6 = hallSector new then 1 else -1)
  else some 0

/-- EDGESEL, which holds in QUAD only (R142). -/
def State.edgeSel (s : State) (n : Nat) : Bool := s.rb (FBC_SPCFG.EDGESEL n) && s.rf (FBC_CFG.MODE n) == fbQuad

/-- CPE of R142: 4 counts per qualifying edge with EDGESEL, else 1. -/
def State.cpe (s : State) (n : Nat) : Nat := if s.edgeSel n then 4 else 1

/-- ± counts × 10^9 / interval as binary32; the spec states no value for an interval of 0 (DESIGN CHOICE, log entry 5). -/
def State.speedOf (s : State) (up : Bool) (counts dt : Nat) : Nat :=
  if dt = 0 then (Config.freeWord s.free).toNat else if counts = 0 then 0 else fRat (!up) (counts * 1000000000) dt 0

/-- A qualifying edge of PERIOD at its stamp (R142, R143). -/
def State.speedEdge (s : State) (n stamp : Nat) (up : Bool) : State :=
  let c := s.fb n
  let s := s.wb (FBC_STAT.STOP n) false
  if c.edges = 0 then s.setFb n { c with edges := 1, stamp := stamp, up := up, interval := none }
  else
    let dt := stamp - c.stamp
    let v := s.speedOf up (s.cpe n) dt
    let s := s.setFb n { c with edges := 2, stamp := stamp, up := up, interval := some dt }
    ((s.setN (FBC_SPEED.adr n) v).wb (FBC_STAT.SPVALID n) true).used 1

/-- A legal step and PERIOD (R142): against the last qualifying edge the speed becomes 0 and the step is the first edge
of the new direction; otherwise it qualifies, or with EDGESEL only a rising edge of A does. `age` is how long ago the
sample was taken. -/
def State.speedStep (s : State) (n age : Nat) (up riseA : Bool) : State :=
  if s.rb (FBC_SPCFG.SPMETH n) then s else
  let c := s.fb n
  let stamp := s.gt - age - (s.rf (FBC_CFG.FILT n) - 1) * 10
  if c.edges ≠ 0 ∧ c.up ≠ up then
    ((s.setFb n { c with edges := 1, stamp := stamp, up := up, interval := none }).setN (FBC_SPEED.adr n) 0).wb (FBC_STAT.STOP n) false
  else if s.edgeSel n && !riseA then s
  else s.speedEdge n stamp up

/-- A legal step (R132, R135 to R137, R148): `d` is ±1 before REV. -/
def State.legalStep (s : State) (n age : Nat) (d0 : Int) (riseA : Bool) : State :=
  let d := if s.rb (FBC_CFG.REV n) then -d0 else d0
  let up := decide (0 < d)
  let c := s.fb n
  let s := s.setFb n { c with raw := ofSigned 32 ((c.raw : Int) + d), move := c.move + d }
  let dirv := s.rb (FBC_STAT.DIRV n)
  let with_ := !dirv || s.rb (FBC_STAT.DIR n) == up
  let s := (s.wb (FBC_STAT.DIR n) up).wb (FBC_STAT.DIRV n) true
  let s := if s.rb (FBC_CFG.CLASS n) then
      let s := s.posToRaw n
      if with_ then s
      else
        let s := s.hwBit (FBC_STAT.DIRCHG n) 0
        if s.rb (FBC_CTL.DCIE n) then s.raiseEv 100 n else s
    else if with_ then s.posToRaw n else s
  s.speedStep n age up riseA

/-- An illegal step (R133). -/
def State.illegalStep (s : State) (n : Nat) : State :=
  let s := s.setFb n { s.fb n with illSusp := s.rb (FBC_STAT.SUSPECT n) }
  let s := (s.incSat (FBC_ERRCNT.ILLCNT n)).wb (FBC_STAT.SUSPECT n) true
  (s.raiseEv 96 n).unprimeSpeed n

/-- e of R139, of the signed 32-bit difference RAW - IDXEXP, which matters where IDXPER does not divide 2^32 (DESIGN CHOICE, log
entry 17). -/
def indexErr (raw exp per : Nat) : Int :=
  let e := (toSigned 32 (ofSigned 32 ((raw : Int) - (exp : Int)))) % (per : Int)
  if (per : Int) - ((per / 2 : Nat) : Int) ≤ e then e - per else e

/-- The watch of R141 starts at the latched position, where it is in use. -/
def State.startWatch (s : State) (n : Nat) : State :=
  s.setFb n { s.fb n with watch := s.rb (FBC_STAT.REF n) && s.rf (FBC_IDXCFG.IDXPER n) != 0 && s.rf (FBC_IDXCFG.IDXMODE n) != 0 }

/-- RAW has moved further than IDXPER + IDXTOL counts from FBC_IDXPOSn, and the sample held no index event (R141). -/
def State.indexMissed (s : State) (n : Nat) : State :=
  let far := (toSigned 32 (ofSigned 32 (((s.fb n).raw : Int) - (s.rn (FBC_IDXPOS.adr n) : Int)))).natAbs
  if (s.fb n).watch && s.rb (FBC_STAT.REF n) && !s.rb (FBC_STAT.LOSS n) &&
    decide (s.rf (FBC_IDXCFG.IDXPER n) + s.rf (FBC_IDXCFG.IDXTOL n) < far) then s.fbLoss n else s

/-- RAW and FBC_POSn loaded with a value, FBC_POSHIn 0, REF set, SUSPECT cleared (R138, R139). -/
def State.loadPos (s : State) (n v : Nat) : State :=
  let s := s.setFb n { s.fb n with raw := v, watch := false }
  let s := (s.setN (FBC_POS.adr n) v).setN (FBC_POSHI.adr n) 0
  (s.wb (FBC_STAT.REF n) true).wb (FBC_STAT.SUSPECT n) false

/-- RAW and FBC_POSn less `e` (R140). -/
def State.correctPos (s : State) (n : Nat) (e : Int) : State :=
  let s := s.setFb n { s.fb n with raw := ofSigned 32 (((s.fb n).raw : Int) - e) }
  s.movePos n (-e)

/-- The check of Table FBC-2. -/
def State.indexCheck (s : State) (n : Nat) : State :=
  let mode := s.rf (FBC_IDXCFG.IDXMODE n)
  let per := s.rf (FBC_IDXCFG.IDXPER n)
  if !s.rb (FBC_STAT.REF n) || per = 0 || mode = 0 then s
  else
    let e := indexErr (s.fb n).raw (s.rn (FBC_IDXEXP.adr n)) per
    let s := s.setN (FBC_IDXERR.adr n) (ofSigned 32 e)
    let beyond := decide (s.rf (FBC_IDXCFG.IDXTOL n) < e.natAbs)
    let s := if beyond then (s.incSat (FBC_ERRCNT.IDXMIS n)).raiseEv 97 n else s
    if mode = 2 then (if e = 0 then s else s.correctPos n e).wb (FBC_STAT.SUSPECT n) false else s

/-- An index event (R139, R141): `illegal` marks a sample that also held an illegal step. -/
def State.indexEvent (s : State) (n : Nat) (illegal : Bool) : State :=
  let s := (s.setN (FBC_IDXPOS.adr n) (s.fb n).raw).hwBit (FBC_STAT.IDXNEW n) 0
  let s := s.wb (FBC_STAT.LOSS n) false
  if illegal then (s.hwBit (FBC_STAT.IDXSKIP n) 0).startWatch n
  else if s.rb (FBC_IDXCFG.HOME n) && !s.rb (FBC_STAT.REF n) then s.loadPos n (s.rn (FBC_IDXEXP.adr n))
  else (s.indexCheck n).startWatch n

/-- The index part of a sample (R139): only the first sample of an active Z interval that meets the gate counts. -/
def State.indexSample (s : State) (n new : Nat) (illegal : Bool) : State :=
  if !new.testBit 2 then s.setFb n { s.fb n with zDone := false }
  else
    let gate := !s.rb (FBC_IDXCFG.GATEEN n) || new % 4 == s.rf (FBC_IDXCFG.GATE n)
    if (s.fb n).zDone || !gate then s
    else (s.setFb n { s.fb n with zDone := true }).indexEvent n illegal

/-! ### One sample (R130, R138) -/

/-- The preset that waits is applied: RAW and FBC_POSn hold it plus the step `d` of the same sample (R138, Table FBC-3). -/
def State.presetApply (s : State) (n : Nat) (d : Int) : State :=
  if (s.fb n).preset then
    let s := s.setFb n { s.fb n with preset := false }
    let s := s.loadPos n (s.rn (FBC_PRESET.adr n))
    let s := s.setFb n { s.fb n with raw := ofSigned 32 (((s.fb n).raw : Int) + d) }
    s.movePos n d
  else s

/-- The step part of a sample of a channel in use, with the filtered levels before and in it: the step that was taken,
none for an illegal one. The first sample after a start gives the reference (R148); so does the first valid HALL state
after an invalid one (R134). -/
def State.stepPart (s : State) (n age old new : Nat) (first wasBad : Bool) : State × Option Int :=
  let mode := s.rf (FBC_CFG.MODE n)
  if mode = fbSent then (s, some 0)
  else if mode = fbHall && hallSector new == 7 then (if first || !wasBad then s.fbLoss n else s, some 0)
  else if mode = fbHall && (first || wasBad) then (s.wb (FBC_STAT.LOSS n) false, some 0)
  else if first then (s, some 0)
  else
    match stepOf mode old new with
    | none => (s.illegalStep n, none)
    | some d => (if d = 0 then s else s.legalStep n age d (!old.testBit 0 && new.testBit 0), some d)

/-- One sample with the filtered levels `new`, taken `age` ns ago: the step, a preset, the index evaluation, in this order
(R138). -/
def State.fbSample (s : State) (n age new : Nat) : State :=
  let old := s.rf (FBC_LEVEL.LVL n)
  let s := s.wf (FBC_LEVEL.LVL n) new
  if !s.fbUse n then s.presetApply n 0
  else
    let hall := s.rf (FBC_CFG.MODE n) == fbHall
    let first := !(s.fb n).known
    let wasBad := s.rf (FBC_LEVEL.SECT n) == 7
    let s := s.wf (FBC_LEVEL.SECT n) (if hall then hallSector new else 7)
    let s := s.setFb n { s.fb n with known := true }
    let r := s.stepPart n age old new first wasBad
    let d := r.2.getD 0
    let s := r.1.presetApply n (if s.rb (FBC_CFG.REV n) then -d else d)
    if first then s.setFb n { s.fb n with zDone := new.testBit 2 }
    else if s.rf (FBC_CFG.MODE n) = fbQuad then
      let s := s.indexSample n new r.2.isNone
      if r.2.getD 0 = 0 then s else s.indexMissed n
    else s

/-- The levels at the pads, 0 while VIO3 is faulted (R450), after inversion by POL (R130). -/
def State.fbLevels (s : State) (n : Nat) : Nat := (if s.vioDead 2 then 0 else (s.fb n).pins) ^^^ s.rf (FBC_CFG.POL n)

/-- The first sample after a start is still to come. -/
def State.fbFirst (s : State) (n : Nat) : Bool := s.fbUse n && !(s.fb n).known

/-- A sample of the channel may do something though the levels at the pads stand still. -/
def State.fbBusy (s : State) (n : Nat) : Bool :=
  s.fbFirst n || (s.fb n).preset || s.fbLevels n != s.rf (FBC_LEVEL.LVL n)

/-- Samples of the levels that stand at the pads, at most `k`, up to the one that does something: the first one, where it
gives the reference or a preset waits; else the one in which FILT samples of a line agree. -/
def State.fbNext (s : State) (n k : Nat) : Nat :=
  let d := s.fbLevels n ^^^ s.rf (FBC_LEVEL.LVL n)
  if s.fbFirst n || (s.fb n).preset then 1
  else ((List.range 3).filter d.testBit).foldl (fun m i => min m (max 1 (s.rf (FBC_CFG.FILT n) - (s.fb n).agree.getD i 0))) k

/-- `m` samples of the levels that stand at the pads, of which the last may change the filtered levels: a line changes
when FILT consecutive samples agree on its new level (R130); the first sample after a start sets the reference to the
levels in it (R148, DEDUCED, log entry 17). -/
def State.fbSamples (s : State) (n m : Nat) : State :=
  let c := s.fb n
  let lvl := s.rf (FBC_LEVEL.LVL n)
  let d := s.fbLevels n ^^^ lvl
  let agree := (List.range 3).map (fun i => if d.testBit i then c.agree.getD i 0 + m else 0)
  let flip := fun i => s.fbFirst n || decide (s.rf (FBC_CFG.FILT n) ≤ agree.getD i 0)
  let flips := (List.range 3).foldl (fun x i => if d.testBit i && flip i then x + 2 ^ i else x) 0
  let age := s.now - 10 * (c.nextSample + m - 1)
  let work := s.fbFirst n || c.preset || flips != 0
  let s := s.setFb n { c with nextSample := c.nextSample + m
                              agree := (List.range 3).map (fun i => if flips.testBit i then 0 else agree.getD i 0) }
  if work then s.fbSample n age (lvl ^^^ flips) else s

/-- The samples before number `upTo`, with the levels that stand at the pads; in at most `fuel` runs, of which each ends
in a sample that does something. -/
def State.fbRun (n upTo : Nat) : Nat → State → State
  | 0, s => s
  | fuel + 1, s =>
    let k := upTo - (s.fb n).nextSample
    if k = 0 then s else State.fbRun n upTo fuel (s.fbSamples n (min k (s.fbNext n k)))

/-- The samples taken so far: one that gives the reference or applies a preset, one for each line that changes, the rest. -/
def State.fbCatch (s : State) (n : Nat) : State := State.fbRun n (s.now / 10) 6 s

/-- The samples of a tick (R130): one every 10 ns of every channel in which one may do something. -/
def State.fbTick (s : State) : State :=
  (List.range 16).foldl (fun s n => if s.fbBusy n then s.fbCatch n else s) s

/-- FBC_LEVEL_CHANGE (R130, R132 to R141): the next sample of a channel finds these levels at its pads, which stay until
the next such command; samples before it are taken first. A line whose FILT-th agreeing sample it is changes in it. -/
def execFbcLevelChange (n : Nat) (a b z : Bool) (s : State) : Res :=
  s.whenB (decide (n < 16)) fun s =>
    let s := if s.on then s.fbCatch n else s
    let s := s.setFb n { s.fb n with pins := b2n a + 2 * b2n b + 4 * b2n z }
    if s.on then State.fbRun n ((s.fb n).nextSample + 1) 1 s else s

/-- SPEED_BOUND_UPDATE (R142): every 1 µs, while the time since the last qualifying edge exceeds the last interval. -/
def execSpeedBoundUpdate (n : Nat) (s : State) : Res :=
  let c := s.fb n
  match c.interval with
  | none => .next s
  | some dt =>
    s.whenB (s.fbUse n && !s.rb (FBC_SPCFG.SPMETH n) && c.edges == 2 && !s.rb (FBC_STAT.STOP n) && decide (c.stamp + dt < s.gt)
        && decide (c.boundAt + 1000 ≤ s.now)) fun s =>
      (s.setFb n { c with boundAt := s.now }).setN (FBC_SPEED.adr n) (s.speedOf c.up (s.cpe n) (s.gt - c.stamp))

/-- SPEED_STOP_TIMEOUT (R142). -/
def execSpeedStopTimeout (n : Nat) (s : State) : Res :=
  let c := s.fb n
  s.whenB (s.fbUse n && !s.rb (FBC_SPCFG.SPMETH n) && s.rb (FBC_STAT.SPVALID n) && !s.rb (FBC_STAT.STOP n)
      && decide (c.stamp + s.rf (FBC_SPCFG.SPTO n) * 10000 ≤ s.gt)) fun s =>
    (s.setN (FBC_SPEED.adr n) 0).wb (FBC_STAT.STOP n) true

/-- COUNT at a fire time of its entry (R142, R143): a latch of MOVE and the speed since the last one. -/
def State.countLatch (s : State) (n t : Nat) : State :=
  let c := s.fb n
  let s := s.setFb n { c with edges := min (c.edges + 1) 2, stamp := t, latchMove := c.move }
  if c.edges = 0 then s
  else
    let d := c.move - c.latchMove
    ((s.setN (FBC_SPEED.adr n) (s.speedOf (decide (0 ≤ d)) d.natAbs (t - c.stamp))).wb (FBC_STAT.SPVALID n) true).used 1

/-- The number of the sample that contains a GT not after the present one. -/
def State.sampleOf (s : State) (t : Nat) : Nat := (s.now - (s.gt - t)) / 10

/-- Every channel whose COUNT method names the entry latches MOVE in the sample that contains its fire time (R142). -/
def State.countLatches (s : State) (entry t : Nat) : State :=
  (List.range 16).foldl (fun s n =>
    if s.fbUse n && s.rb (FBC_SPCFG.SPMETH n) && s.rf (FBC_SPCFG.SPENTRY n) == entry then
      (State.fbRun n (s.sampleOf t + 1) 6 s).countLatch n t else s) s

/-- A write of FBC_CTLn.PRESET: it applies at the first sample after it (R138). -/
def State.presetWrite (s : State) (n : Nat) : State :=
  let s := s.fbCatch n
  s.setFb n { s.fb n with preset := true }

/-- FBC_PRESET (R138): the preset waits for the next sample. -/
def execFbcPreset (req n : Nat) (s : State) : Res :=
  s.whenOn fun s => s.granted req (8 + n) (FBC_CTL.adr n) false fun s => s.presetWrite n

/-- FBC_CLRSUSP (R133). -/
def execFbcClrsusp (req n : Nat) (s : State) : Res :=
  s.whenOn fun s => s.granted req (8 + n) (FBC_CTL.adr n) false fun s => s.wb (FBC_STAT.SUSPECT n) false

/-- A read of FBC_POSn captures FBC_POSHIn and FBC_STATn for one read each of its requester (R137). -/
def State.posRead (s : State) (req n : Nat) : State :=
    let c : FbCap := { hi := some (s.rn (FBC_POSHI.adr n)), st := some (s.rn (FBC_STAT.adr n)) }
    { s with rdata := s.rn (FBC_POS.adr n), fbc := { s.fbc with caps := mset s.fbc.caps (16 * req + n) c } }

/-- FBC_POS_READ (R137). -/
def execFbcPosRead (req n : Nat) (s : State) : Res := s.whenOn fun s => s.posRead req n

/-! ### SENT (R144 to R147) -/

/-- One nibble of the SENT CRC: four bits of the register with polynomial x^4 + x^3 + x^2 + 1 (PRESUMED, log entry 23). -/
def sentTable (c : Nat) : Nat :=
  let f := fun x : Nat => if x.testBit 3 then (2 * x % 16) ^^^ 0xD else 2 * x % 16
  f (f (f (f c)))

/-- The CRC nibble of data nibbles, seed 5; the recommended form runs four more zero bits through the register. -/
def sentCrc (legacy : Bool) (ns : List Nat) : Nat :=
  let c := ns.foldl (fun c d => sentTable c ^^^ (d % 16)) 5
  if legacy then c else sentTable c

/-- A pulse in ticks, rounded: the calibration pulse is 56 ticks. -/
def ticks (cal p : Nat) : Nat := (112 * p + cal) / (2 * cal)

/-- What the checks of R144 find in a frame: 0 good, 1 format error, 2 CRC error. -/
def State.sentCheck (s : State) (n : Nat) (pulses : List Nat) : Nat :=
  let c := s.fb n
  let cal := pulses.headD 0
  let nib := s.rf (FBC_SENTCFG.NIBBLES n)
  let pause := s.rb (FBC_SENTCFG.PAUSE n)
  let tick := s.rf (FBC_SENTCFG.TICK n)
  let prev := c.prevCal.getD cal
  let total := pulses.foldl (· + ·) 0
  let need := 3 + nib + (if pause then 1 else 0)
  let nibs := (pulses.drop 1).take (2 + nib)
  let bad := fun p => decide (ticks cal p < 12) || decide (27 < ticks cal p)
  let outside := decide (10 * cal < 448 * tick) || decide (672 * tick < 10 * cal)
  let drift := decide (prev < 64 * (cal - prev)) || decide (prev < 64 * (prev - cal))
  let pauseBad := pause && decide (need ≤ pulses.length) &&
    (let p := 56 * pulses.getD (3 + nib) 0; decide (p < 12 * cal) || decide (768 * cal < p))
  let lenBad := s.rb (FBC_SENTCFG.FIXLEN n) && (decide (cal < 56 * (total - c.prevLen)) || decide (cal < 56 * (c.prevLen - total)))
  if cal = 0 || outside || drift || nibs.any bad || pauseBad || lenBad || pulses.length < need then 1
  else
    let data := (nibs.drop 1).take nib |>.map (fun p => ticks cal p - 12)
    let crc := ticks cal (nibs.getD (1 + nib) 0) - 12
    if sentCrc (s.rf (FBC_SENTCFG.CRCMODE n) == 1) data = crc then 0 else 2

/-- The bits of a run of serial bits as a number, first bit most significant. -/
def bitsToNat (l : List Bool) : Nat := l.foldl (fun a b => 2 * a + b2n b) 0

/-- CRC of an enhanced serial message: polynomial x^6 + x^4 + x^3 + 1, seed 21, six zero bits after the message (PRESUMED,
PRESUMED, log entry 23). -/
def sentCrc6 (l : List Bool) : Nat :=
  (l ++ List.replicate 6 false).foldl (fun c b =>
    let c' := 2 * c + b2n b
    if c'.testBit 6 then (c' % 64) ^^^ 0x19 else c') 21

/-- A complete slow-channel message in the bits of the last frames, oldest first: identifier, configuration bit, data,
good CRC (R146, SAE J2716). -/
def slowMessage (enhanced legacy : Bool) (l : List (Bool × Bool)) : Option (Nat × Bool × Nat × Bool) :=
  if enhanced then
    let b3 := l.map (·.1)
    let b2 := l.map (·.2)
    if l.length = 18 ∧ b3.take 7 = [true, true, true, true, true, true, false] ∧ b3.getD 12 true = false ∧ b3.getD 17 true = false then
      let cfg := b3.getD 7 false
      let idHi := bitsToNat ((b3.drop 8).take 4)
      let lo := bitsToNat ((b3.drop 13).take 4)
      let data := bitsToNat (b2.drop 6)
      let msg := (l.drop 6).flatMap (fun x => [x.2, x.1])
      let good := sentCrc6 msg == bitsToNat (b2.take 6)
      if cfg then some (idHi, true, lo * 4096 + data, good) else some (16 * idHi + lo, false, data, good)
    else none
  else if l.length = 16 ∧ (l.map (·.1)).headD false = true then
    let b2 := l.map (·.2)
    let id := bitsToNat (b2.take 4)
    let hi := bitsToNat ((b2.drop 4).take 4)
    let lo := bitsToNat ((b2.drop 8).take 4)
    some (id, false, 16 * hi + lo, sentCrc legacy [id, hi, lo] == bitsToNat (b2.drop 12))
  else none

/-- The serial bits of a valid fast frame join the message in progress (R146). -/
def State.slowStep (s : State) (n scn : Nat) : State :=
  let mode := s.rf (FBC_SENTCFG.SERIAL n)
  if mode = 0 then s else
  let enh := mode == 2
  let bit := (scn.testBit 3, scn.testBit 2)
  let c := s.fb n
  let serial := if enh then (bit :: c.serial).take 18
    else if bit.1 then [bit] else if c.serial.isEmpty then [] else bit :: c.serial
  match slowMessage enh (s.rf (FBC_SENTCFG.CRCMODE n) == 1) serial.reverse with
  | none => s.setFb n { c with serial := serial }
  | some (id, cfg, data, good) =>
    let s := s.setFb n { c with serial := [] }
    if good then s.setN (FBC_SENTSLOW.adr n) (id * 2 ^ 24 + b2n cfg * 2 ^ 23 + 2 ^ 16 + data)
    else (s.incSat (FBC_SENTCNT.CRCERR n)).raiseEv 98 n

/-- SENT_FRAME (R144 to R146): pulse lengths in 10 ns, calibration first. The first frame after a start or a loss only
sets the tick reference. A faulted VIO3 brings none (R450). -/
def execSentFrame (n : Nat) (pulses : List Nat) (s : State) : Res :=
  s.whenB (s.on && s.fbUse n && !s.vioDead 2 && s.rf (FBC_CFG.MODE n) == fbSent) fun s =>
    let c := s.fb n
    let cal := pulses.headD 0
    let r := s.sentCheck n pulses
    let next := fun (s : State) => s.setFb n { s.fb n with prevCal := some cal, prevLen := pulses.foldl (· + ·) 0 }
    if c.prevCal.isNone then next s
    else if r = 0 then
      let nib := s.rf (FBC_SENTCFG.NIBBLES n)
      let scn := ticks cal (pulses.getD 1 0) - 12
      let data := (List.range 6).foldl (fun a i => 16 * a + (if i < nib then ticks cal (pulses.getD (2 + i) 0) - 12 else 0)) 0
      let s := s.setN (FBC_SENTFAST.adr n) (scn * 2 ^ 28 + data * 2 ^ 4)
      let s := ((s.wb (FBC_STAT.SENTVALID n) true).wf (FBC_STAT.SENTAGE n) 0).wb (FBC_STAT.LOSS n) false
      next ((s.setFb n { c with validAt := s.now }).slowStep n scn)
    else
      let s := if r = 1 then (s.incSat (FBC_SENTCNT.FMTERR n)).raiseEv 101 n else (s.incSat (FBC_SENTCNT.CRCERR n)).raiseEv 98 n
      next ((s.incSat (FBC_STAT.SENTAGE n)).setFb n { c with serial := [] })

/-- SENT_TIMEOUT (R147). -/
def execSentTimeout (n : Nat) (s : State) : Res :=
  let c := s.fb n
  s.whenB (s.on && s.fbUse n && s.rf (FBC_CFG.MODE n) == fbSent && !s.rb (FBC_STAT.LOSS n)
      && decide (c.validAt + s.rf (FBC_SENTCFG.SENTTO n) * 100000 ≤ s.now)) fun s =>
    let s := s.setFb n { c with prevCal := none, serial := [] }
    (((s.wb (FBC_STAT.SENTVALID n) false).wb (FBC_STAT.LOSS n) true).raiseEv 99 n).unprimeSpeed n

end Sys2Proof.Machine
end

