-- ==== Sys2Proof/Machine/Loops.lean ====
section
/-! DEFINITION. The loop engines (chapter "Loop engines and control laws") and the service converter (R211 to R213).
A context is numbered 64 × engine + context. -/

namespace Sys2Proof.Machine

/-! ### Checked binary32 values (R151, R152) -/

/-- A binary32 pattern, and whether it and every quantity it was formed from is finite. -/
structure FV where
  v : Nat := 0
  ok : Bool := true
  deriving DecidableEq, Repr, Inhabited

/-- A stored word as an operand: a subnormal is read as zero (R151). -/
def FV.of (v : Nat) : FV := ⟨fFlush v, isFin v⟩

/-- One operation on one and on two operands. -/
def FV.op1 (f : Nat → Nat) (a : FV) : FV := ⟨f a.v, a.ok && isFin (f a.v)⟩
def FV.op2 (f : Nat → Nat → Nat) (a b : FV) : FV := ⟨f a.v b.v, a.ok && b.ok && isFin (f a.v b.v)⟩

def FV.add : FV → FV → FV := FV.op2 fadd
def FV.sub : FV → FV → FV := FV.op2 fsub
def FV.mul : FV → FV → FV := FV.op2 fmul
def FV.div : FV → FV → FV := FV.op2 fdiv
def FV.max : FV → FV → FV := FV.op2 fmax
def FV.min : FV → FV → FV := FV.op2 fmin
def FV.neg : FV → FV := FV.op1 fneg
def FV.abs : FV → FV := FV.op1 fabs
def FV.sqrt : FV → FV := FV.op1 fsqrt
def FV.clamp (x lo hi : FV) : FV := ⟨fclamp x.v lo.v hi.v, x.ok && lo.ok && hi.ok && isFin (fclamp x.v lo.v hi.v)⟩
def FV.gt (a b : FV) : Bool := flt b.v a.v
def FV.lt (a b : FV) : Bool := flt a.v b.v

/-- Terms added one at a time in ascending index (R490). -/
def FV.sum : List FV → FV
  | [] => {}
  | a :: l => l.foldl FV.add a

/-! ### Contexts -/

def lawPI : Nat := 0
def lawPID : Nat := 1
def lawPIFF : Nat := 2
def lawBIQUAD : Nat := 3
def lawSFB : Nat := 4
def lawFOC : Nat := 5

/-- LPE_CTXSTAT.STATE codes (Table LPE-1). -/
def cxOff : Nat := 0
def cxWait : Nat := 1
def cxManual : Nat := 2
def cxAuto : Nat := 3
def cxFailed : Nat := 4

/-- Record numbers. -/
def recA : Nat := 0
def recB : Nat := 1
def recF : Nat := 2
def recCal : Nat := 3

/-- The words of record `r` that a law uses; the others read 0 (Tables LPE-5 and LPE-6). -/
def recWords (law r : Nat) : Nat :=
  if r = recCal then 12
  else if law = lawPI then 2 else if law = lawPID then 4 else if law = lawPIFF then 3 else if law = lawBIQUAD then 5
  else if law = lawSFB then 10 else if law = lawFOC then 9 else 0

def State.ctx (s : State) (c : Nat) : CtxSt := mget {} s.lpe.ctxs c
def State.setCtx (s : State) (c : Nat) (x : CtxSt) : State := { s with lpe := { s.lpe with ctxs := mset s.lpe.ctxs c x } }

/-- A word of a context's record (R161, R177); a word not stored reads 0. -/
def State.lpeRec (s : State) (c r w : Nat) : Nat := mget 0 s.lpe.recs (64 * c + 16 * r + w)

/-- The record in force: F under FALLBACK, else the bank in force. -/
def State.recInForce (s : State) (c : Nat) : Nat :=
  if s.rb (LPE_CTXSTAT.FALLBACK c) then recF else if s.rb (LPE_CTXSTAT.BANK c) then recB else recA

/-- The context state, with its bit of the engine's FAILED words. -/
def State.setCtxState (s : State) (c st : Nat) : State :=
  let s := s.wf (LPE_CTXSTAT.STATE c) st
  let f := if c % 64 < 32 then LPE_FAILLO.FAILED (c / 64) else LPE_FAILHI.FAILED (c / 64)
  s.wbit f (c % 32) (st == cxFailed)

/-- RAMPING is 1 while SPACT differs from SP (R166). -/
def State.rampFlag (s : State) (c : Nat) : State :=
  s.wb (LPE_CTXSTAT.RAMPING c) (!feq (s.rn (LPE_CTXSPACT.adr c)) (s.rn (LPE_CTXSP.adr c)))

/-- A context start (R154). A disabled context is OFF (Table LPE-1). What its selectors last read stays: their ages count
from the last change of the source (R159). -/
def State.ctxStart (s : State) (c : Nat) : State :=
  let x := s.ctx c
  let s := s.setCtx c { sel0 := x.sel0, sel1 := x.sel1, sel2 := x.sel2, elems := x.elems, writes := x.writes }
  let s := s.setCtxState c (if s.rb (LPE_CTXCFG.EN c) then cxWait else cxOff)
  let s := (((s.wf (LPE_CTXSTAT.PRIMED c) 0).wf (LPE_CTXSTAT.RESPRIM c) 0).wf (LPE_CTXSTAT.FALLBACK c) 0).setN (LPE_CTXCNT.adr c) 0
  let s := (s.setN (LPE_CTXSPACT.adr c) 0).setN (LPE_CTXOUTV.adr c) 0
  (((s.setN (LPE_CTXVUNSAT.adr c) 0).setN (LPE_CTXINTG.adr c) 0).setN (LPE_CTXHIST.adr c 0) 0).rampFlag c

/-! ### Selectors (Tables LPE-2 and LPE-3) -/

/-- One selector's reading: whether it is in use and primed, its age, the raw value, SUSPECT, what is kept. -/
structure SelIn where
  used : Bool := false
  primed : Bool := true
  age : Nat := 0
  raw : Nat := 0
  susp : Bool := false
  st : SelSt := {}
  deriving DecidableEq, Repr, Inhabited

/-- A source whose reading counts only while it is valid, with the register's own age. -/
def selHeld (st : SelSt) (valid : Bool) (v age : Nat) : SelIn :=
  let r := if valid then v else st.last
  { used := true, primed := valid, age := age, raw := r, st := { st with last := r } }

/-- A source whose age is counted in samples of the context. -/
def selSampled (st : SelSt) (primed fresh : Bool) (v mark : Nat) : SelIn :=
  let age := if fresh then 0 else st.age + 1
  let r := if primed then v else st.last
  { used := true, primed := primed, age := age, raw := r, st := { last := r, age := age, mark := some mark } }

/-- An element of a gate-link sample set as binary32: 0 IA, 1 IB, 2 IC, 3 IDC, 4 UDC (Table LPE-2). -/
def State.glkElem (s : State) (n e : Nat) : Nat :=
  let i := fun (f : Fld) => fmul (fofInt (s.ri f)) (s.rn (GLK_ISCALE.adr n))
  if e = 0 then i (GLK_SAMPA.IA n) else if e = 1 then i (GLK_SAMPA.IB n) else if e = 2 then i (GLK_SAMPB.IC n)
  else if e = 3 then i (GLK_SAMPC.IDC n)
  else fmul (fofNat (s.rf (GLK_SAMPB.UDC n))) (s.rn (GLK_USCALE.adr n))

/-- The signed 64-bit position of a channel (R137). -/
def State.pos64 (s : State) (n : Nat) : Int := toSigned 64 (s.rn (FBC_POSHI.adr n) * 2 ^ 32 + s.rn (FBC_POS.adr n))

/-- Selector `k` of a context read (R158, R159). -/
def State.selRead (s : State) (c k : Nat) (st : SelSt) : SelIn :=
  let w := s.rn (LPE_CTXIN0.adr c + 4 * k)
  let n := bits w 27 19
  match bits w 31 28 with
  | 1 => { used := true, primed := s.rb (FBC_CFG.EN n) && (s.fb n).started, raw := fofInt (s.pos64 n), susp := s.rb (FBC_STAT.SUSPECT n), st := st }
  | 2 =>
    let v := s.rb (FBC_STAT.SPVALID n)
    selSampled st v v (s.rn (FBC_SPEED.adr n)) 0
  | 3 => selHeld st (s.rb (GLK_SAMPSTAT.VALID n)) (s.glkElem n (bits w 18 16)) (s.rf (GLK_SAMPSTAT.AGE n))
  | 4 =>
    let cnt := s.rf (ADC_RESULT.COUNT n)
    selSampled st (cnt != 0) (st.mark != some cnt) (fofNat (s.rf (ADC_RESULT.RESULT n))) cnt
  | 5 =>
    let cnt := (s.ctx n).writes
    selSampled st (s.rb (LPE_CTXSTAT.PRIMED n)) (st.mark != some cnt) (s.rn (LPE_CTXOUTV.adr n)) cnt
  | 6 => selHeld st (s.rb (ANW_FLOWSTAT.PRIMED n)) (s.flowWord n (bits w 15 8)) (s.rf (ANW_FLOWSTAT.AGE n))
  | 7 => selHeld st (s.rb (FBC_STAT.SENTVALID n)) (fofNat (s.rf (FBC_SENTFAST.DATA n))) (s.rf (FBC_STAT.SENTAGE n))
  | _ => { st := st }

/-- A selector's value: gain × r + offset, two operations. -/
def State.selValue (s : State) (c k raw : Nat) : FV :=
  ((FV.of (s.rn (LPE_CTXGAIN.adr c k))).mul (FV.of raw)).add (FV.of (s.rn (LPE_CTXOFS.adr c k)))

/-- AGELIM of selector `k`. -/
def State.ageLim (s : State) (c k : Nat) : Nat := (s.rn (LPE_CTXAGE.adr c) >>> (8 * k)) % 256

/-! ### Laws -/

/-- What one sample starts from: the latched words, the three selectors, Ts, and where the law stands. -/
structure Samp where
  c : Nat := 0
  law : Nat := 0
  ts : FV := {}
  /-- The context is in AUTO in this sample; the sample is a transfer into AUTO; the record changes under R169. -/
  auto : Bool := false
  transfer : Bool := false
  backcalc : Bool := false
  recOld : Nat := 0
  recNew : Nat := 0
  sp : FV := {}
  man : FV := {}
  limlo : FV := {}
  limhi : FV := {}
  m : FV := {}
  ff : FV := {}
  uPrev : FV := {}
  deriving DecidableEq, Repr, Inhabited

/-- What the law answers. -/
structure LawOut where
  u : FV := {}
  v : FV := {}
  ud : FV := {}
  i : FV := {}
  iD : FV := {}
  hist : FV := {}
  meas : FV := {}
  spact : FV := {}
  /-- The following error of R174. -/
  err : FV := {}
  sathi : Bool := false
  satlo : Bool := false
  satd : Bool := false
  /-- FOC: state slots and the three duties of R164. -/
  slots : List FV := []
  duties : List FV := []
  deriving DecidableEq, Repr, Inhabited

/-- A word of a record as a value. -/
def State.coef (s : State) (c r w : Nat) : FV := FV.of (s.lpeRec c r w)

/-- A word of the calibration record; 0 where none is in use (R164, R177). -/
def State.cal (s : State) (c w : Nat) : FV := if s.rb (LPE_CTXCFG.CALEN c) then s.coef c recCal w else {}

/-- SPACT of a sample in AUTO: `m` at a transfer, else one ramp step (R166, R168). -/
def State.ramp (s : State) (x : Samp) (m : FV) : FV :=
  let old := FV.of (s.rn (LPE_CTXSPACT.adr x.c))
  let rate := FV.of (s.rn (LPE_CTXRATE.adr x.c))
  if !x.auto then old
  else if x.transfer then m
  else if feq rate.v 0 then { x.sp with ok := x.sp.ok && rate.ok }
  else
    let step := rate.mul x.ts
    let d := x.sp.sub old
    let y := if d.abs.lt step then x.sp else if d.gt {} then old.add step else old.sub step
    { y with ok := y.ok && step.ok && d.ok && x.sp.ok }

/-- D of law PID with a record: on measurement (R162). -/
def State.derivD (s : State) (x : Samp) (r : Nat) (mprev d : FV) : FV :=
  let tf := s.coef x.c r 3
  let a := tf.div (tf.add x.ts)
  let kd := s.coef x.c r 2
  (a.mul d).sub (((kd.mul ((FV.of fOne).sub a)).mul (x.m.sub mprev)).div x.ts)

/-- Σ K_i x_i of law SFB. -/
def State.sfbSum (s : State) (x : Samp) (r : Nat) : FV :=
  FV.sum ((List.range (s.rf (LPE_CTXCFG.NX x.c) + 1)).map fun i =>
    (s.coef x.c r i).mul (if i = 0 then x.m else FV.of (s.rn (LPE_CTXX.adr x.c i))))

/-- v of a single-loop law with a record, its integrator and D (R162, R163). -/
def State.lawV (s : State) (x : Samp) (r : Nat) (e i d spact : FV) : FV :=
  let pe := (s.coef x.c r 0).mul e
  if x.law = lawPID then (pe.add i).add d
  else if x.law = lawPIFF then (pe.add i).add ((s.coef x.c r 2).mul x.ff)
  else if x.law = lawSFB then (((s.coef x.c r 8).mul spact).sub (s.sfbSum x r)).add i
  else pe.add i

/-- The integrator that makes v with a record equal a value: the back-calculation of R169. -/
def State.backI (s : State) (x : Samp) (r : Nat) (v e d spact : FV) : FV :=
  let ke := v.sub ((s.coef x.c r 0).mul e)
  if x.law = lawPID then ke.sub d
  else if x.law = lawPIFF then ke.sub ((s.coef x.c r 2).mul x.ff)
  else if x.law = lawSFB then (v.sub ((s.coef x.c r 8).mul spact)).add (s.sfbSum x r)
  else ke

/-- The preset of R168. -/
def State.presetI (s : State) (x : Samp) (r : Nat) (d spact : FV) : FV :=
  if x.law = lawPID then x.uPrev.sub d
  else if x.law = lawPIFF then x.uPrev.sub ((s.coef x.c r 2).mul x.ff)
  else if x.law = lawSFB then (x.uPrev.sub ((s.coef x.c r 8).mul spact)).add (s.sfbSum x r)
  else x.uPrev

/-- One sample of a single-loop law in AUTO: R162, R163, R166, R168 and R169. -/
def State.lawAuto (s : State) (x : Samp) : LawOut :=
  let r := x.recNew
  let i0 := FV.of (s.rn (LPE_CTXINTG.adr x.c))
  let h0 := FV.of (s.rn (LPE_CTXHIST.adr x.c 0))
  let mprev : FV := match (s.ctx x.c).mprev with | none => x.m | some m => FV.of m
  let spact := s.ramp x x.m
  let e := spact.sub x.m
  let pid : Bool := x.law == lawPID
  let d := if pid then s.derivD x r mprev h0 else {}
  let dOld := if pid then s.derivD x x.recOld mprev h0 else {}
  let vOld := s.lawV x x.recOld e i0 dOld spact
  let i1 := if x.transfer then s.presetI x r d spact else if x.backcalc then s.backI x r vOld e d spact else i0
  let v := if x.transfer then { x.uPrev with ok := x.uPrev.ok && i1.ok && d.ok } else s.lawV x r e i1 d spact
  let u := if x.transfer then x.uPrev else v.clamp x.limlo x.limhi
  let sathi := v.gt x.limhi
  let satlo := v.lt x.limlo
  if x.law = lawBIQUAD then
    let a1 := s.coef x.c r 3
    let a2 := s.coef x.c r 4
    let s1 := if x.transfer then i1 else (((s.coef x.c r 1).mul e).sub (a1.mul u)).add h0
    let s2 := if x.transfer then (a2.neg).mul x.uPrev else ((s.coef x.c r 2).mul e).sub (a2.mul u)
    { u := u, v := v, i := s1, hist := s2, meas := x.m, spact := spact, err := e, sathi := sathi, satlo := satlo }
  else
    let hold := x.transfer || (sathi && e.gt {}) || (satlo && e.lt {})
    let ki := s.coef x.c r (if x.law = lawSFB then 9 else 1)
    let i2 := if hold then i1 else i1.add ((ki.mul x.ts).mul e)
    { u := u, v := v, i := i2, hist := if pid then d else h0, meas := x.m, spact := spact, err := e,
      sathi := sathi, satlo := satlo }

/-- One sample of a single-loop law in MANUAL (R167): SATHI, SATLO and SATD read 0 and VUNSAT keeps its value (DESIGN CHOICE, log entry
18). -/
def State.lawManual (s : State) (x : Samp) : LawOut :=
  { u := x.man.clamp x.limlo x.limhi, v := FV.of (s.rn (LPE_CTXVUNSAT.adr x.c)), i := FV.of (s.rn (LPE_CTXINTG.adr x.c))
    hist := FV.of (s.rn (LPE_CTXHIST.adr x.c 0)), meas := x.m, spact := FV.of (s.rn (LPE_CTXSPACT.adr x.c)) }

/-! ### FOC (R164) -/

/-- The measured side of a FOC sample: currents, their d and q parts, the angle, the voltage limit. -/
structure FocIn where
  ia : FV := {}
  ib : FV := {}
  ic : FV := {}
  theta : FV := {}
  sn : FV := {}
  cs : FV := {}
  id : FV := {}
  iq : FV := {}
  udc : FV := {}
  vlim : FV := {}
  deriving DecidableEq, Repr, Inhabited

/-- Currents, angle and voltage limit with a record; `elems` are the five elements of the capture in use. -/
def State.focIn (s : State) (c r : Nat) (elems : List Nat) : FocIn :=
  let port := s.rf (LPE_CTXIN0.INDEX c)
  let chan := s.rf (LPE_CTXIN1.INDEX c)
  let el := fun k => FV.of (elems.getD k 0)
  let ia := (el 0).sub (s.cal c 4)
  let ib := (el 1).sub (s.cal c 5)
  let ic := (el 2).sub (s.cal c 6)
  let ial := ((((FV.of fTwo).mul ia).sub ib).sub ic).div (FV.of fThree)
  let ibe := (ib.sub ic).div (FV.of fSqrt3)
  let cpe := s.lpeRec c r 5
  let n : Int := if cpe = 0 then 0 else (s.pos64 chan - (s.lpeRec c r 6 : Int)) % (cpe : Int)
  let theta := ((FV.of fTwoPi).mul (FV.of (fofInt n))).div (FV.of (fofNat cpe))
  let sn := theta.op1 fsin
  let cs := theta.op1 fcos
  let id := (ial.mul cs).add (ibe.mul sn)
  let iq := ((ial.neg).mul sn).add (ibe.mul cs)
  let nom := s.coef c r 8
  let u0 := if 2 ≤ s.rf (GLK_LINKSTAT.SAMP port) then el 4 else nom
  let udc := u0.max (nom.div (FV.of fFour))
  { ia := ia, ib := ib, ic := ic, theta := theta, sn := sn, cs := cs, id := id, iq := iq, udc := udc
    vlim := ((s.coef c r 7).mul udc).div (FV.of fSqrt3) }

/-- The q limit that the vector limit leaves: sqrt(vlim² − ud²). -/
def FocIn.qlim (f : FocIn) (ud : FV) : FV := ((f.vlim.mul f.vlim).sub (ud.mul ud)).sqrt

/-- The three duties in units of 1/32 ns, before rounding (R164). -/
def State.focDuties (s : State) (c : Nat) (f : FocIn) (ud uq : FV) : List FV :=
  let p := s.rf (PWM_PERIOD.PERIOD (s.rf (LPE_CTXOUT.INDEX c)))
  let val := (ud.mul f.cs).sub (uq.mul f.sn)
  let vbe := (ud.mul f.sn).add (uq.mul f.cs)
  let half := (val.neg).div (FV.of fTwo)
  let k := (FV.of fSqrt3h).mul vbe
  let dtci := s.cal c 7
  let dtcv := s.cal c 8
  let comp := fun (v i : FV) =>
    if isZero dtcv.v then { v with ok := v.ok && dtcv.ok }
    else v.add (dtcv.mul ((i.div dtci).clamp (FV.of (fneg fOne)) (FV.of fOne)))
  let va := comp val f.ia
  let vb := comp (half.add k) f.ib
  let vc := comp (half.sub k) f.ic
  let voff := (((va.max vb).max vc).add ((va.min vb).min vc)).neg.div (FV.of fTwo)
  [va, vb, vc].map fun v =>
    (FV.of (fofNat (32 * p))).mul ((FV.of fHalf).add ((v.add voff).div f.udc))

/-- One axis: the unsaturated value, its limit, and the integrator as R162's condition moves it. -/
def focInt (i v lim e ki ts : FV) (hold : Bool) : FV :=
  if hold || (v.gt lim && e.gt {}) || (v.lt lim.neg && e.lt {}) then i else i.add ((ki.mul ts).mul e)

/-- A FOC sample in AUTO. At a change of the record both axes form the error and iq of v_old with the incoming record's words, the error
of this sample; a transfer sample reports no saturation (DESIGN CHOICE, log entry 18). -/
def State.focAuto (s : State) (x : Samp) (elems : List Nat) : LawOut :=
  let c := x.c
  let r := x.recNew
  let k := fun w => s.coef c r w
  let f := s.focIn c r elems
  let id0 := FV.of (s.ctx c).iD
  let iq0 := FV.of (s.rn (LPE_CTXINTG.adr c))
  let spact := s.ramp x f.iq
  let ed := (k 4).sub f.id
  let eq := spact.sub f.iq
  let udp := FV.of (s.ctx c).udPrev
  let old := fun w => s.coef c x.recOld w
  let id1 := if x.transfer then udp.sub ((k 0).mul ed)
    else if x.backcalc then (((old 0).mul ed).add id0).sub ((k 0).mul ed) else id0
  let iq1 := if x.transfer then x.uPrev
    else if x.backcalc then (((old 2).mul eq).add iq0).sub ((k 2).mul eq) else iq0
  let vd := ((k 0).mul ed).add id1
  let vq := ((k 2).mul eq).add iq1
  let ud := if x.transfer then udp else vd.clamp f.vlim.neg f.vlim
  let ql := f.qlim ud
  let uq := if x.transfer then x.uPrev else vq.clamp ql.neg ql
  let id2 := focInt id1 vd f.vlim ed (k 1) x.ts x.transfer
  let iq2 := focInt iq1 vq ql eq (k 3) x.ts x.transfer
  { u := uq, v := vq, ud := ud, i := iq2, iD := id2, hist := FV.of (s.rn (LPE_CTXHIST.adr c 0)), meas := f.iq, spact := spact, err := eq
    sathi := !x.transfer && vq.gt ql, satlo := !x.transfer && vq.lt ql.neg
    satd := !x.transfer && (vd.gt f.vlim || vd.lt f.vlim.neg)
    slots := [f.id, f.iq, ud, uq, f.theta, id2, iq2, f.udc], duties := s.focDuties c f ud uq }

/-- A FOC sample in MANUAL: uq := MAN under the vector limit, ud := 0 (R167). -/
def State.focManual (s : State) (x : Samp) (elems : List Nat) : LawOut :=
  let c := x.c
  let f := s.focIn c x.recNew elems
  let ud := (FV.clamp {} f.vlim.neg f.vlim)
  let ql := f.qlim ud
  let uq := x.man.clamp ql.neg ql
  let id0 := FV.of (s.ctx c).iD
  let iq0 := FV.of (s.rn (LPE_CTXINTG.adr c))
  { u := uq, v := FV.of (s.rn (LPE_CTXVUNSAT.adr c)), ud := ud, i := iq0, iD := id0, hist := FV.of (s.rn (LPE_CTXHIST.adr c 0))
    meas := f.iq, spact := FV.of (s.rn (LPE_CTXSPACT.adr c))
    slots := [f.id, f.iq, ud, uq, f.theta, id0, iq0, f.udc], duties := s.focDuties c f ud uq }

/-! ### Output (R160, R165, R171) -/

def outNone : Nat := 0
def outLeg : Nat := 1
def outBank : Nat := 2
def outCtxSp : Nat := 3
def outCtxX : Nat := 4
def outFlow : Nat := 5

/-- A LEG target's duty before rounding: u × 32 × P. -/
def State.legDuty (s : State) (c : Nat) (u : FV) : FV :=
  let m := s.rf (LPE_CTXOUT.INDEX c)
  (u.mul (FV.of (fofNat 32))).mul (FV.of (fofNat (s.rf (PWM_PERIOD.PERIOD (m / 3)))))

/-- Every legs' duty word the target writes: (leg, value). -/
def State.dutyWords (s : State) (c : Nat) (leg : FV) (duties : List FV) : List (Nat × Nat) :=
  let n := s.rf (LPE_CTXOUT.INDEX c)
  let t := s.rf (LPE_CTXOUT.TYPE c)
  if t = outLeg ∧ n < 24 then [(n, ftoField leg.v (2 ^ 29 - 1))]
  else if t = outBank ∧ n < 8 then
    let p := s.rf (PWM_PERIOD.PERIOD n)
    duties.zipIdx.map fun d => (3 * n + d.2, ftoField d.1.v (32 * p))
  else []

/-- A state slot written: the write primes it (R155). -/
def State.writeSlot (s : State) (c i v : Nat) : State :=
  (s.setN (LPE_CTXX.adr c i) v).setCtx c { s.ctx c with slots := setBitTo (s.ctx c).slots i true }

/-- The output target written, by the engine as requester (R160). -/
def State.outWrite (s : State) (c : Nat) (u leg : FV) (duties : List FV) : State :=
  let req := 16 + c / 64
  let n := s.rf (LPE_CTXOUT.INDEX c)
  let s := (s.dutyWords c leg duties).foldl (fun s d =>
    s.granted req (d.1 / 3) (PWM_DUTYSH.adr d.1) false fun s => s.setN (PWM_DUTYSH.adr d.1) d.2) s
  let t := s.rf (LPE_CTXOUT.TYPE c)
  if t = outCtxSp then s.setN (LPE_CTXSP.adr n) u.v
  else if t = outCtxX then s.writeSlot n (s.rf (LPE_CTXOUT.SLOT c)) u.v
  else if t = outFlow then s.flowStore req n (4 * s.rf (LPE_CTXOUT.WORD c)) (leBytes 4 u.v)
  else s

/-- The context enters FAILED (R171): a LEG or BANK target gets FORCE = 0b11 once. -/
def State.ctxFail (s : State) (c : Nat) : State :=
  let req := 16 + c / 64
  let n := s.rf (LPE_CTXOUT.INDEX c)
  let t := s.rf (LPE_CTXOUT.TYPE c)
  let legs := if t = outLeg ∧ n < 24 then [n] else if t = outBank ∧ n < 8 then [3 * n, 3 * n + 1, 3 * n + 2] else []
  legs.foldl (fun s m => s.granted req (m / 3) (PWM_LEGCFG.adr m) false fun s => s.wf (PWM_LEGCFG.FORCE m) 3)
    (s.setCtxState c cxFailed)

/-! ### One sample -/

/-- The load band of R178 at a sample in MANUAL or AUTO: raises 115 on leaving it, and answers the state with FALLBACK
and the count of samples back in the band. -/
def State.bandStep (s : State) (c : Nat) (b : FV) : State :=
  if !s.rb (LPE_CTXCFG.CALEN c) then s else
  let lo := s.coef c recCal 1
  let hi := s.coef c recCal 2
  let inside := fle lo.v b.v && fle b.v hi.v
  let x := s.ctx c
  if !s.rb (LPE_CTXSTAT.FALLBACK c) then
    if inside then s
    else ((s.setCtx c { x with bandRun := 0 }).wb (LPE_CTXSTAT.FALLBACK c) true).raiseEv 115 c
  else if !inside then s.setCtx c { x with bandRun := 0 }
  else if s.rf (LPE_CTXSUPV.CALRET c) ≤ x.bandRun + 1 then
    (s.setCtx c { x with bandRun := 0 }).wb (LPE_CTXSTAT.FALLBACK c) false
  else s.setCtx c { x with bandRun := x.bandRun + 1 }

/-- One count of R173 to R176: the new count, and whether it reaches its limit at this sample. -/
def svCount (old lim : Nat) (hit : Bool) : Nat × Bool :=
  let new := if hit then satN 65535 (old + 1) else 0
  (new, hit && new == lim && old < lim)

/-- The supervision of a sample: RESID, the new SVCNT, whether it reaches SVTIME, and RESPRIM (R174 to R176). -/
def State.superv (s : State) (x : Samp) (o : LawOut) : FV × Nat × Bool × Bool :=
  let c := x.c
  let st := s.ctx c
  let old := s.rf (LPE_CTXCNT.SVCNT c)
  let w0 := FV.of (s.rn (LPE_CTXSVLIM.adr c))
  let w := if s.rb (LPE_CTXSTAT.FALLBACK c) then w0.mul (s.coef c recCal 3) else w0
  let resid := FV.of (s.rn (LPE_CTXRESID.adr c))
  let sv := s.rf (LPE_CTXCFG.SUPV c)
  if sv = 2 ∧ x.auto then
    let r := svCount old (s.rf (LPE_CTXSUPV.SVTIME c)) (o.err.abs.gt w)
    ({ o.err with ok := o.err.ok && w.ok }, r.1, r.2, s.rb (LPE_CTXSTAT.RESPRIM c))
  else if sv = 1 ∧ 1 ≤ st.outs then
    let p := (((s.cal c 9).mul (FV.of st.mLast)).add ((s.cal c 10).mul (FV.of st.uLast))).add (s.cal c 11)
    let d := o.meas.sub p
    let r := svCount old (s.rf (LPE_CTXSUPV.SVTIME c)) (d.abs.gt w)
    ({ d with ok := d.ok && w.ok }, r.1, r.2, true)
  else (resid, old, false, s.rb (LPE_CTXSTAT.RESPRIM c))

/-- What a finished sample leaves in the status registers, but for its state and its output. -/
def State.sampleRegs (s : State) (x : Samp) (o : LawOut) (hasM : Bool) (resid : FV) (satcnt svcnt : Nat) (resprim : Bool) : State :=
  let c := x.c
  let s := (s.setN (LPE_CTXINTG.adr c) o.i.v).setN (LPE_CTXHIST.adr c 0) o.hist.v
  let s := (s.setN (LPE_CTXVUNSAT.adr c) o.v.v).setN (LPE_CTXSPACT.adr c) o.spact.v
  let s := if hasM then s.setN (LPE_CTXMEAS.adr c) o.meas.v else s
  let s := (s.setN (LPE_CTXRESID.adr c) resid.v).setN (LPE_CTXCNT.adr c) (satcnt * 65536 + svcnt)
  let s := ((s.wb (LPE_CTXSTAT.SATHI c) o.sathi).wb (LPE_CTXSTAT.SATLO c) o.satlo).wb (LPE_CTXSTAT.SATD c) o.satd
  let s := s.wb (LPE_CTXSTAT.RESPRIM c) resprim
  let s := s.wb (LPE_CTXSTAT.RAMPING c) (!feq o.spact.v x.sp.v)
  let s := s.setCtx c { s.ctx c with iD := o.iD.v, mprev := if hasM then some o.meas.v else (s.ctx c).mprev }
  if x.law = lawFOC then o.slots.zipIdx.foldl (fun s f => s.setN (LPE_CTXX.adr c f.2) f.1.v) s
  else if x.law = lawSFB ∧ hasM then s.setN (LPE_CTXX.adr c 0) o.meas.v else s

/-- The output of a sample: OUTV, PRIMED, the target, MAN under TRACK, and what later samples need of it. -/
def State.sampleOut (s : State) (x : Samp) (o : LawOut) (leg : FV) (track : Bool) : State :=
  let c := x.c
  let st := s.ctx c
  let s := s.setCtx c { st with outs := min (st.outs + 1) 2, mLast := o.meas.v, uLast := o.u.v, udPrev := o.ud.v, writes := st.writes + 1 }
  let s := (s.setN (LPE_CTXOUTV.adr c) o.u.v).wb (LPE_CTXSTAT.PRIMED c) true
  let s := if x.auto && track then (s.setN (LPE_CTXMAN.adr c) o.u.v).hwWord (LPE_CTXMAN.adr c) else s
  s.outWrite c o.u leg o.duties

/-- Each failure of a sample raised (R172). -/
def State.raiseAll (s : State) (c : Nat) : List (Nat × Bool) → State
  | [] => s
  | (src, b) :: l => (if b then s.raiseEv src c else s).raiseAll c l

/-- A sample of a context that is in WAIT (all primed), MANUAL or AUTO (R155 to R178). The band variable iq of R178 is formed with the
record in force before the sample, and is 0 for a law other than FOC (DESIGN CHOICE, log entry 18). -/
def State.activeSample (s : State) (c p : Nat) (sels : List SelIn) : State :=
  let ctl := s.rn (LPE_CTXCTL.adr c)
  let auto := ctl.testBit 0
  let law := s.rf (LPE_CTXCFG.LAW c)
  let foc : Bool := law == lawFOC
  let was := s.rf (LPE_CTXSTAT.STATE c)
  let transfer := auto && was != cxAuto
  let sel := fun k => sels.getD k {}
  let aged := fun k => (sel k).used && decide (s.ageLim c k < (sel k).age)
  let agedAny := aged 0 || aged 1 || aged 2
  let free := fun k => FV.of ((Config.freeWord (s.free + k)).toNat)
  let val := fun k => if (sel k).used then s.selValue c k (sel k).raw else free k
  let hasM := foc || (sel 0).used
  let needFree := auto || s.rb (LPE_CTXCFG.CALEN c)
  let m := if hasM || needFree then val 0 else {}
  let elems := (s.ctx c).elems
  let s := s.used 3
  -- record in force before this sample, band and bank of this one
  let recOld := s.recInForce c
  let iq0 := if foc then (s.focIn c recOld elems).iq else {}
  let bsel := s.lpeRec c recCal 0
  let b := if bsel = 1 then iq0.abs else if bsel = 2 then (val 2).abs else (FV.of (s.rn (LPE_CTXOUTV.adr c))).abs
  let bandOk := !s.rb (LPE_CTXCFG.CALEN c) || b.ok
  let s := (s.wb (LPE_CTXSTAT.BANK c) (ctl.testBit 1)).bandStep c b
  let recNew := s.recInForce c
  let limlo := FV.of (s.rn (LPE_CTXLIMLO.adr c))
  let limhi := FV.of (s.rn (LPE_CTXLIMHI.adr c))
  let man := FV.of (s.rn (LPE_CTXMAN.adr c))
  let uPrev :=
    if was = cxManual then FV.of (s.rn (LPE_CTXOUTV.adr c))
    else if foc then
      let f := s.focIn c recNew elems
      let ql := f.qlim {}
      man.clamp ql.neg ql
    else man.clamp limlo limhi
  let x : Samp := {
    c := c, law := law, ts := FV.of (fTs p), auto := auto, transfer := transfer
    backcalc := auto && !transfer && recOld != recNew, recOld := recOld, recNew := recNew
    sp := FV.of (s.rn (LPE_CTXSP.adr c)), man := man, limlo := limlo, limhi := limhi
    m := m, ff := if law = lawPIFF then val 2 else {}, uPrev := uPrev }
  let o := if foc then (if auto then s.focAuto x elems else s.focManual x elems)
           else if auto then s.lawAuto x else s.lawManual x
  let leg := if s.rf (LPE_CTXOUT.TYPE c) = outLeg then s.legDuty c o.u else {}
  let sv := s.superv x o
  let sat := svCount (s.rf (LPE_CTXCNT.SATCNT c)) (s.rf (LPE_CTXCFG.SATTO c)) (auto && (o.sathi || o.satlo || o.satd))
  let satFail := sat.2 && s.rf (LPE_CTXCFG.SATTO c) != 0
  let selsOk := (List.range 3).all (fun k => foc || !(sel k).used || (val k).ok)
  let fin := o.u.ok && o.v.ok && o.ud.ok && o.i.ok && o.iD.ok && o.hist.ok && o.meas.ok && o.spact.ok && o.err.ok
    && o.slots.all (·.ok) && o.duties.all (·.ok) && leg.ok && sv.1.ok && bandOk && selsOk
  let fol := sv.2.2.1 && s.rf (LPE_CTXCFG.SUPV c) == 2
  let mod := sv.2.2.1 && s.rf (LPE_CTXCFG.SUPV c) == 1
  let fails := [(117, !fin), (116, agedAny), (112, fol), (113, mod), (114, satFail)]
  let cause := if !fin then 5 else if agedAny then 4 else if fol then 1 else if mod then 2 else if satFail then 3 else 0
  let s := s.raiseAll c fails
  let s := if cause = 0 then s else s.wf (LPE_CTXSTAT.FCAUSE c) cause
  if !fin then s.ctxFail c
  else
    let s := (s.setCtxState c (if auto then cxAuto else cxManual)).sampleRegs x o hasM sv.1 sat.1 sv.2.1 sv.2.2.2
    if cause ≠ 0 && s.rb (LPE_CTXCFG.FAILACT c) then s.ctxFail c
    else s.sampleOut x o leg (ctl.testBit 2)

/-- The selectors a context uses: FOC uses 0 and 1, the other laws every selector whose TYPE is not NONE (R155). -/
def State.selsOf (s : State) (c : Nat) : List SelIn :=
  let x := s.ctx c
  let foc : Bool := s.rf (LPE_CTXCFG.LAW c) == lawFOC
  [s.selRead c 0 x.sel0, s.selRead c 1 x.sel1, if foc then {} else s.selRead c 2 x.sel2]

/-- A sample (R154 to R179): the latch, the selectors, then what the context's state makes of it. One that stays in WAIT raises no age
failure (DESIGN CHOICE, log entry 18). -/
def State.sample (s : State) (l : Launch) : State :=
  let c := l.ctx
  let s := (s.setN (LPE_CTXSAMPGT.adr c) l.fire).rampFlag c
  let sels := s.selsOf c
  let sel := fun k => sels.getD k {}
  let port := s.rf (LPE_CTXIN0.INDEX c)
  let elems := if s.rf (LPE_CTXCFG.LAW c) == lawFOC && s.rb (GLK_SAMPSTAT.VALID port) then (List.range 5).map (fun k => s.glkElem port k)
    else (s.ctx c).elems
  let s := s.setCtx c { s.ctx c with sel0 := (sel 0).st, sel1 := (sel 1).st, sel2 := (sel 2).st, elems := elems }
  let s := s.wb (LPE_CTXSTAT.INSUSP c) (sels.any (·.susp))
  let st := s.rf (LPE_CTXSTAT.STATE c)
  let nx := s.rf (LPE_CTXCFG.NX c)
  let slotsOk := s.rf (LPE_CTXCFG.LAW c) != lawSFB ||
    (List.range nx).all (fun i => (s.ctx c).slots.testBit (i + 1))
  if st = cxManual ∨ st = cxAuto then s.activeSample c l.period sels
  else if st = cxWait then
    if sels.all (·.primed) && slotsOk && !l.waits then s.activeSample c l.period sels
    else s.wb (LPE_CTXSTAT.BANK c) (s.rb (LPE_CTXCTL.BANKREQ c))
  else s

/-! ### The engine's queue -/

def State.lpeQueue (s : State) (e : Nat) : List Launch := mget [] s.lpe.queues e

def State.setLpeQueue (s : State) (e : Nat) (q : List Launch) : State :=
  { s with lpe := { s.lpe with queues := mset s.lpe.queues e q } }.wf (LPE_ENGSTAT.QDEPTH e) q.length

/-- The launches of a context that LPE_CTX_RESTART found queued run in WAIT (R182). -/
def State.launchesWait (s : State) (c : Nat) : State :=
  s.setLpeQueue (c / 64) ((s.lpeQueue (c / 64)).map (fun l => if l.ctx = c then { l with waits := true } else l))

/-- A context is started by LPE_CTX_RESTART: launches queued for it run in WAIT (R182). -/
def State.ctxRestart (s : State) (c : Nat) : State := (s.ctxStart c).launchesWait c

/-- A LOOP_SAMPLE launch (R54, R180): refused for a disabled context or a full queue. -/
def State.lpeLaunch (s : State) (l : Launch) : Option State :=
  let e := l.ctx / 64
  let q := s.lpeQueue e
  if s.rb (LPE_CTXCFG.EN l.ctx) && decide (q.length < 16) then
    let s := s.setLpeQueue e (q ++ [l])
    some (if s.rf (LPE_ENGSTAT.QMAX e) < q.length + 1 then s.wf (LPE_ENGSTAT.QMAX e) (q.length + 1) else s)
  else none

/-- LOOP_SAMPLE_RUN (R157, R162, R180): the oldest launch of the engine is executed whole and completes. -/
def execLoopSampleRun (engine : Nat) (s : State) : Res :=
  match s.lpeQueue engine with
  | [] => .next s
  | l :: q => s.whenOn fun s =>
    ((((s.setLpeQueue engine q).sample l).incWrap (LPE_ENGCNT.SAMPLES engine))).strikeDone l.entry

/-! ### The service converter (R211 to R213) -/

/-- The next channel, the next queued sequence, or idle. -/
def State.adcNext (s : State) : State :=
  match s.adc.queue with
  | [] => (({ s with adc := {} }).wb ADC_STAT.BUSY false).wf ADC_STAT.QDEPTH 0
  | j :: q =>
    let s := { s with adc := { cur := some j, left := bitList 16 (s.rf (ADC_SEQCFG.CHMASK j.1)), queue := q } }
    ((s.wb ADC_STAT.BUSY true).wf ADC_STAT.CURSEQ j.1).wf ADC_STAT.QDEPTH q.length

/-- A launch of a sequence: run, queued, or refused (R212). The converter must be enabled (ADC_CFG.EN) for a launch to
be taken. -/
def State.adcLaunch (s : State) (n : Nat) (entry : Option Nat) : Option State :=
  if s.rb ADC_CFG.EN && s.rb (ADC_SEQCFG.EN n) && s.rf (ADC_SEQCFG.CHMASK n) != 0 then
    if s.adc.cur.isNone then some ({ s with adc := { s.adc with queue := [(n, entry)] } }.adcNext)
    else if s.adc.queue.length < 4 then
      let s := { s with adc := { s.adc with queue := s.adc.queue ++ [(n, entry)] } }
      some (s.wf ADC_STAT.QDEPTH s.adc.queue.length)
    else none
  else none

/-- A write of ADC_SEQCTL.START: each named sequence in ascending order; each one refused counts (R212). -/
def State.adcStart (s : State) (v : Nat) : State :=
  (bitList 16 v).foldl (fun s n => (s.adcLaunch n none).getD (s.incSat ADC_STAT.REFUSED)) s

/-- ADC_START (R212). -/
def execAdcStart (req : Nat) (value : Word) (s : State) : Res :=
  s.whenOn fun s => s.granted req 44 ADC_SEQCTL.adr false fun s => s.adcStart (value.toNat % 65536)

/-- The converter's code for an input in nV: round(4 096 × V / 2.5 V), a half rounded up, held at 4 095 (R472). -/
def adcCode (input : Nat) : Nat := min 4095 ((2 * 4096 * input + 2500000000) / 5000000000)

/-- ADC_CONVERSION_DONE (R211): one write of RESULT and COUNT; after the last channel the sequence completes and the
next queued one starts. COUNT passes from 0xFFFF to 1. -/
def execAdcConversionDone (input : Nat) (s : State) : Res :=
  match s.adc.cur, s.adc.left with
  | some j, n :: left => s.whenOn fun s =>
    let cnt := s.rf (ADC_RESULT.COUNT n)
    let s := s.setN (ADC_RESULT.adr n) ((if cnt = 65535 then 1 else cnt + 1) * 65536 + adcCode input)
    if left.isEmpty then (s.strikeDone j.2).adcNext
    else { s with adc := { s.adc with left := left } }
  | _, _ => .next s

end Sys2Proof.Machine
end

