-- ==== Sys2Proof/Machine/Queues.lean ====
section
/-! DEFINITION. Arbiters and queues (chapter "Queues, arbitration and conservation"). -/

namespace Sys2Proof.Machine

/-! ### Arbiters (R354 to R367) -/

def State.arbiter (s : State) (a : Nat) : ArbSt := mget {} s.arb a
def State.setArbiter (s : State) (a : Nat) (x : ArbSt) : State := { s with arb := mset s.arb a x }

/-- Table ARB-1: the privileged ports. -/
def portPriv (p : Nat) : Bool := p == 0 || (7 ≤ p && p ≤ 11)

/-- Table ARB-2: the ports wired to an arbiter. -/
def portWired (a p : Nat) : Bool :=
  if a < 24 then p < 16 else if a = 24 then p ≤ 6 || p == 14 else if a = 25 then p ≤ 10 || (13 ≤ p && p ≤ 15)
  else a ≤ 33 && (p ≤ 11 || p == 13)

/-- WAIT of a port. -/
def State.arbWait (s : State) (a p : Nat) : Nat := (s.rn (ARB_WAIT.adr a (p / 4)) >>> (8 * (p % 4))) % 256

def State.setArbWait (s : State) (a p v : Nat) : State :=
  let adr := ARB_WAIT.adr a (p / 4)
  s.setN adr (Fld.putN ⟨adr, 8 * (p % 4), 8⟩ (s.rn adr) v)

/-- Byte of slot `i` of table `t`: bit 7 EN, bits 3:0 PORT. -/
def State.slotByte (s : State) (a t i : Nat) : Nat := (s.rn (ARB_TBL.adr a (16 * t + i / 4)) >>> (8 * (i % 4))) % 256

/-- The port that owns a slot. -/
def slotOwner (b : Nat) : Option Nat := if b.testBit 7 then some (b % 16) else none

/-- The port that slot `i` of the table in force reserves. -/
def State.slotOf (s : State) (a i : Nat) : Option Nat := slotOwner (s.slotByte a (s.rf (ARB_CTL.ACTIVE a)) i)

/-- The table in force as 64 slot bytes. -/
def State.arbTable (s : State) (a : Nat) : List Nat := (List.range 64).map (fun i => s.slotByte a (s.rf (ARB_CTL.ACTIVE a)) i)

/-- PRIO of a port, from a pair of priority words. -/
def prioOf (lo hi p : Nat) : Nat := ((if p < 8 then lo else hi) >>> (4 * (p % 8))) % 16

/-- The best of a list of candidates under an order; the earlier one at ties. -/
def bestBy (better : Nat → Nat → Bool) : List Nat → Option Nat
  | [] => none
  | p :: ps => some (ps.foldl (fun w q => if better q w then q else w) p)

/-- The winner of a decision (R357): the reserved slot, the forced win, the background ranking. `lo` and `hi` are the
priority words that apply. -/
def State.arbWinner (s : State) (a : Nat) (cand : List Nat) (lo hi : Nat) : Nat :=
  let x := s.arbiter a
  let limit := s.rf (ARB_CTL.LIMIT a)
  let ranked := bestBy (fun q w => decide (prioOf lo hi w < prioOf lo hi q) ||
    (prioOf lo hi w == prioOf lo hi q && decide (s.arbWait a w < s.arbWait a q))) cand
  let forced := cand.filter (fun p => !portPriv p && decide (limit ≤ s.arbWait a p))
  let first := bestBy (fun q w => decide (mget 0 x.limitAt q < mget 0 x.limitAt w)) forced
  match s.slotOf a (s.rf (ARB_STAT.SLOT a)) with
  | some p => if cand.contains p then p else (first.orElse fun _ => ranked).getD 0
  | none => (first.orElse fun _ => ranked).getD 0

/-! ### Wait bounds (R366) -/

/-- The slots of a table that a port owns. -/
def ownSlots (t : List Nat) (p : Nat) : List Nat := (List.range 64).filter (fun i => slotOwner (t.getD i 0) == some p)

/-- The largest cyclic distance between successive slots of a list. -/
def maxGap (l : List Nat) : Nat :=
  match l with
  | [] => 0
  | a :: _ =>
    let nexts := l.drop 1 ++ [a + 64]
    (l.zip nexts).foldl (fun m x => max m (x.2 - x.1)) 0

/-- The longest cyclic run of slots with EN = 1. -/
def maxRun (t : List Nat) : Nat :=
  let en := t.map (fun b => b.testBit 7)
  if en.all id then 64
  else ((en ++ en).foldl (fun (r : Nat × Nat) b => if b then (r.1 + 1, max r.2 (r.1 + 1)) else (0, r.2)) (0, 0)).2

/-- W of a port in ns under a table with a unit time; none where no bound exists. -/
def waitBound (a : Nat) (t : List Nat) (limit tu p : Nat) : Option Nat :=
  let own := ownSlots t p
  if !own.isEmpty then some (maxGap own * tu + 10)
  else if portPriv p then none
  else
    let f := ((List.range 16).filter (fun q => portWired a q && !portPriv q && q != p)).length
    some ((limit + (f + 1) * (maxRun t + 1)) * tu + 10)

/-- The SRAM bank of a lane address. -/
def bankOf (a : Nat) : Nat := (a - 0x20000000) / 0x40000

/-- The enabled TX flow contexts. -/
def State.txFlows (s : State) : List Nat :=
  (List.range 512).filter (fun f => s.rb (ANW_FLOWCFG.EN f) && s.rb (ANW_FLOWCFG.DIR f))

/-- W of a port under the table in force of an arbiter, with a unit time. -/
def State.waitWith (s : State) (a tu p : Nat) : Option Nat := waitBound a (s.arbTable a) (s.rf (ARB_CTL.LIMIT a)) tu p

/-- The unit time of an Airum egress arbiter (Table ARB-2): a seal of the longest TX buffer behind the longest wait of
port 11 at the banks of the TX buffers; the node's contexts seal through arbiter 26. -/
def State.sealTime (s : State) (a : Nat) : Option Nat :=
  let fs := if a = 26 then s.txFlows else []
  (fs.foldl (fun (m : Option Nat) f => m.bind fun w => (s.waitWith (bankOf (s.flowBase f)) 10 11).map (max w)) (some 0)).map
    (fun w => 100 + fs.foldl (fun m f => max m (s.rf (ANW_FLOWBUF.LEN f))) 0 / 4 + w)

/-- W of a port at an arbiter (R366). -/
def State.waitAt (s : State) (a p : Nat) : Option Nat :=
  if a < 24 then s.waitWith a 10 p else if a = 24 then s.waitWith a 150 p else if a = 25 then s.waitWith a 55 p
  else (s.sealTime a).bind fun tu => s.waitWith a tu p

/-! ### Queue ends (R370) -/

/-- The consumer of queue `q` is a CAN controller: its TXQ (R406). -/
def State.canTxOf (s : State) (q : Nat) : Option Nat :=
  [0, 1].find? (fun n => s.rb (CAN_CFG.EN n) && s.rf (CAN_CFG.TXQ n) == q)

/-- The producer of queue `q` is a CAN controller: its RXQ. -/
def State.canRxOf (s : State) (q : Nat) : Option Nat :=
  [0, 1].find? (fun n => s.rb (CAN_CFG.EN n) && s.rf (CAN_CFG.RXQ n) == q)

/-- The owner code of an end: a fixed code, or the holder of the queue's grant unit. -/
def State.endCode (s : State) (q code : Nat) : Nat := if code = 0 then s.owner (55 + q / 16) else code

/-- The owner code whose writes an end accepts: a pair that runs SPLIT acts through its designated core (R374). -/
def State.endActs (s : State) (code : Nat) : Nat :=
  if 2 ≤ code ∧ code ≤ 4 ∧ s.runsSplit (code - 2) then s.desigCore (code - 2) else code

/-- The requester is a queue's end of this code; `early`: its doorbell was issued before a move of the queue's unit
began, and is judged against the old owner (R30). -/
def State.endIs (s : State) (q code req : Nat) (early : Bool) : Bool :=
  s.honoured req && (s.endActs (s.endCode q code) == req ||
    (early && code == 0 && s.lane.moves.any (fun m => m.1 == 55 + q / 16 && s.endActs m.2.old == req)))

/-- The requester is the producer end of a queue. -/
def State.isProd (s : State) (q req : Nat) (early : Bool) : Bool :=
  !s.rb (QUE_CFG.SPNPROD q) && (s.canRxOf q).isNone && s.endIs q (s.rf (QUE_CFG.PROD q)) req early

/-- The requester is the consumer end of a queue. -/
def State.isCons (s : State) (q req : Nat) (early : Bool) : Bool :=
  (s.canTxOf q).isNone && s.endIs q (s.rf (QUE_CFG.CONS q)) req early

/-- The requester port of an owner code (Table ARB-1). -/
def portOf (code : Nat) : Option Nat :=
  if code = 1 then some 0
  else if 2 ≤ code ∧ code ≤ 4 then some (1 + 2 * (code - 2))
  else if 8 ≤ code ∧ code ≤ 13 then some (code - 7)
  else if 16 ≤ code ∧ code ≤ 19 then some (code - 9)
  else none

/-- The port of a queue's producer, and whether it posts by doorbell. -/
def State.prodPort (s : State) (q : Nat) : Option (Nat × Bool) :=
  if (s.canRxOf q).isSome then some (15, true)
  else if s.rb (QUE_CFG.SPNPROD q) then some (13, false)
  else (portOf (s.endActs (s.endCode q (s.rf (QUE_CFG.PROD q))))).map (fun p => (p, true))

def State.queBase (s : State) (q : Nat) : Nat := s.rf (QUE_BASE.ADDR q) * 64
def State.queSize (s : State) (q : Nat) : Nat := 2 ^ s.rf (QUE_CFG.SIZEEXP q)

/-- ADMIT and BOUND of a queue (R374, R375). -/
def State.admission (s : State) (q : Nat) : Bool × Nat :=
  let bank := bankOf (s.queBase q)
  match s.prodPort q with
  | none => (false, 0)
  | some (p, bell) =>
    let ok := !(ownSlots (s.arbTable bank) p).isEmpty && (!bell || !(ownSlots (s.arbTable 25) p).isEmpty)
    let b := if bell then ((s.waitAt 25 p).getD 0) + 100 else 4 * (((s.waitAt bank 13).getD 0) + 10) + 100
    (ok, if ok then min b (2 ^ 24 - 1) else 0)

/-- ADMIT and BOUND recomputed. -/
def State.readmit (s : State) (q : Nat) : State :=
  let r := s.admission q
  (s.wb (QUE_STAT.ADMIT q) r.1).wf (QUE_STAT.BOUND q) r.2

/-- ADMIT and BOUND of every enabled queue recomputed under the tables in force; that of a queue whose producer's unit
moves waits for the end of the move (R375, R378). -/
def State.readmitAll (s : State) : State :=
  (List.range 128).foldl (fun s q =>
    if s.rb (QUE_CFG.EN q) && !(s.rf (QUE_CFG.PROD q) == 0 && s.moving (55 + q / 16)) then s.readmit q else s) s

/-! ### Decisions (R357 to R365) -/

/-- SLOT steps to the next slot; a pending switch applies at a wrap (R364). A request within 10 ns before the wrap applies
at this wrap or, with NEXT set, at the next. The queues' admissions follow the table (R375, R378). -/
def State.slotStep (s : State) (a : Nat) : State :=
  let i := s.rf (ARB_STAT.SLOT a)
  let s := s.wf (ARB_STAT.SLOT a) ((i + 1) % 64)
  if i ≠ 63 ∨ !s.rb (ARB_CTL.PEND a) then s
  else if decide (s.now < (s.arbiter a).switchAt + 10) && !s.rb (ARB_CTL.NEXT a) && Config.freeBool s.free then
    (s.used 1).wb (ARB_CTL.NEXT a) true
  else
    (((s.used 1).wf (ARB_CTL.ACTIVE a) (1 - s.rf (ARB_CTL.ACTIVE a))).wb (ARB_CTL.PEND a) false).readmitAll

/-- A privileged port whose WAIT has reached LIMIT is starved, once for each wait (R359). -/
def State.starve (s : State) (a p : Nat) : State :=
  let x := s.arbiter a
  if !portPriv p || x.starved.testBit p || decide (s.arbWait a p < s.rf (ARB_CTL.LIMIT a)) then s
  else
    let s := s.setArbiter a { x with starved := setBitTo x.starved p true }
    let s := (s.hwBit (ARB_STARVE.STARVED a) p).incSat (ARB_STARVE.COUNT a)
    (s.incSat ARB_SUMMARY.STARVES).raiseEv 210 (a + p * 256)

/-- A losing candidate waits one decision more. -/
def State.arbLose (s : State) (a p : Nat) : State :=
  let w := min (s.arbWait a p + 1) 255
  let s := s.setArbWait a p w
  let x := s.arbiter a
  let s := if s.rf (ARB_CTL.LIMIT a) ≤ w ∧ mget 0 x.limitAt p = 0 then
      s.setArbiter a { x with limitAt := mset x.limitAt p (2 * x.decs + 2) } else s
  s.starve a p

/-- LIMIT set: waits that are at the new limit have reached it now, after those of earlier decisions and earlier writes,
others have not (R357); a privileged one is starved (R359), and the queues' bounds follow (R375). -/
def State.limitSet (s : State) (a v : Nat) : State :=
  let s := s.wf (ARB_CTL.LIMIT a) v
  let s := s.setArbiter a { s.arbiter a with decs := (s.arbiter a).decs + 1 }
  let s := (List.range 16).foldl (fun s p =>
    let x := s.arbiter a
    if s.arbWait a p < s.rf (ARB_CTL.LIMIT a) then s.setArbiter a { x with limitAt := mdel x.limitAt p }
    else (if mget 0 x.limitAt p = 0 then s.setArbiter a { x with limitAt := mset x.limitAt p (2 * x.decs + 1) } else s).starve a p) s
  s.readmitAll

/-- A decision among the ports requesting (R357): the winner's next unit starts. A priority write of the 10 ns before it
applies here or at the next decision (R363). -/
def State.arbDecide (s : State) (a : Nat) : State :=
  let x := s.arbiter a
  let cand := (x.units.filter (fun u => u.2 != 0)).map (·.1)
  let late := match x.prioAt with | none => false | some t => decide (s.now < t + 10) && Config.freeBool s.free
  let s := s.used 1
  let lo := if late then x.prioLo else s.rn (ARB_PRIOLO.adr a)
  let hi := if late then x.prioHi else s.rn (ARB_PRIOHI.adr a)
  let w := s.arbWinner a cand lo hi
  let s := (cand.filter (· != w)).foldl (fun s p => s.arbLose a p) s
  let s := s.setArbWait a w 0
  let x := s.arbiter a
  let n := mget 0 x.units w
  let s := s.setArbiter a { x with
    units := if n ≤ 1 then mdel x.units w else mset x.units w (n - 1)
    limitAt := mdel x.limitAt w, starved := setBitTo x.starved w false, prioAt := none, decs := x.decs + 1, idleAt := s.now }
  let s := ((s.wb (ARB_STAT.BUSY a) true).wf (ARB_STAT.HOLDER a) w).wbit (ARB_STAT.REQ a) w (decide (1 < n))
  (s.incWrap (ARB_DEC.DECISIONS a)).slotStep a

/-- A port's transfer is on its way: units still to start, or the last one in progress. -/
def State.arbTransfers (s : State) (a p : Nat) : Bool :=
  mget 0 (s.arbiter a).units p != 0 || (s.rb (ARB_STAT.BUSY a) && s.rf (ARB_STAT.HOLDER a) == p)

/-- ARB_REQUEST (R357, R360): a transfer of some units; a free resource decides at once, and a port's next transfer waits
behind the one on its way. -/
def execArbRequest (arb port units : Nat) (s : State) : Res :=
  s.whenB (s.on && portWired arb port && decide (arb ≤ 26) && units != 0) fun s =>
    let x := s.arbiter arb
    if s.arbTransfers arb port then s.setArbiter arb { x with behind := mset x.behind port (mget [] x.behind port ++ [units]) }
    else
      let s := (s.setArbiter arb { x with units := mset x.units port units, done := mdel x.done port }).wbit (ARB_STAT.REQ arb) port true
      if s.rb (ARB_STAT.BUSY arb) then s else s.arbDecide arb

/-- The last unit of a port's transfer has ended: its next transfer requests. -/
def State.arbNext (s : State) (a p : Nat) : State :=
  let x := s.arbiter a
  match mget [] x.behind p with
  | [] => s
  | n :: t =>
    (s.setArbiter a { x with units := mset x.units p n, done := mdel x.done p
                             behind := if t.isEmpty then mdel x.behind p else mset x.behind p t }).wbit (ARB_STAT.REQ a) p true

/-- A read at the flash port that does not end, since a program or erase step occupies its bank (R362). Which bank a read
names is free (DESIGN CHOICE, log entry 19). -/
def State.flashHeld (s : State) (arb : Nat) : Bool := arb == 24 && s.sec.proc.isSome && Config.freeBool s.free

/-- ARB_UNIT_END (R357, R360): another port requesting decides; a holder that loses with units left keeps its progress;
otherwise the holder goes on, its next transfer asks for the free resource, or the resource is free. -/
def execArbUnitEnd (arb : Nat) (s : State) : Res :=
  s.whenB (s.on && s.rb (ARB_STAT.BUSY arb)) fun s =>
    if s.flashHeld arb then s.used 1
    else
    let h := s.rf (ARB_STAT.HOLDER arb)
    let x := s.arbiter arb
    let left := mget 0 x.units h
    let done := mget 0 x.done h + 1
    let s := s.setArbiter arb { x with done := if left = 0 then mdel x.done h else mset x.done h done }
    let s := if left = 0 then s.arbNext arb h else s
    let x := s.arbiter arb
    let left := mget 0 x.units h
    if x.units.any (fun u => u.1 != h && u.2 != 0) || (left != 0 && mget 0 x.done h == 0) then
      let s := s.arbDecide arb
      if left ≠ 0 ∧ mget 0 x.done h ≠ 0 ∧ s.rf (ARB_STAT.HOLDER arb) ≠ h ∧ arb < 24 then
        s.setN (ARB_PROG.adr arb) (h * 2 ^ 28 + done % 64 * 2 ^ 16 + left % 64)
      else s
    else if left ≠ 0 then
      let x := s.arbiter arb
      let s := s.setArbiter arb { x with units := if left = 1 then mdel x.units h else mset x.units h (left - 1), idleAt := s.now }
      s.wbit (ARB_STAT.REQ arb) h (decide (1 < left))
    else s.wb (ARB_STAT.BUSY arb) false

/-- SLOT_IDLE_ADVANCE (R358): every 50 ns while no port requests, also while the last unit is in progress. -/
def execSlotIdleAdvance (arb : Nat) (s : State) : Res :=
  s.whenB (s.on && s.rf (ARB_STAT.REQ arb) == 0 && decide ((s.arbiter arb).idleAt + 50 ≤ s.now)) fun s =>
    (s.setArbiter arb { s.arbiter arb with idleAt := s.now }).slotStep arb

/-- A table word may be written: its table is neither in force nor pending (R365). -/
def State.tableFree (s : State) (a t : Nat) : Bool := t != s.rf (ARB_CTL.ACTIVE a) && !s.rb (ARB_CTL.PEND a)

/-- A write to a word of a slot table; bits 6:4 of each slot are reserved. -/
def State.tableWrite (s : State) (a t w v : Nat) : State :=
  if s.tableFree a t then s.setN (ARB_TBL.adr a (16 * t + w)) (v &&& 0x8F8F8F8F)
  else (s.incSat ARB_SUMMARY.TBLREJ).raiseEv 212 a

/-- ARB_TABLE_WRITE (R365). -/
def execArbTableWrite (req arb table word : Nat) (value : Word) (s : State) : Res :=
  s.whenOn fun s => s.headstockOnly req (ARB_TBL.adr arb (16 * table + word)) fun s => s.tableWrite arb table word value.toNat

/-- New background priorities; those before stay known for a decision within 10 ns (R363). -/
def State.prioWrite (s : State) (a lo hi : Nat) : State :=
  let s := s.setArbiter a { s.arbiter a with prioLo := s.rn (ARB_PRIOLO.adr a), prioHi := s.rn (ARB_PRIOHI.adr a), prioAt := some s.now }
  (s.setN (ARB_PRIOLO.adr a) lo).setN (ARB_PRIOHI.adr a) hi

/-- A switch of tables requested (R364). -/
def State.switchReq (s : State) (a : Nat) : State :=
  ((s.setArbiter a { s.arbiter a with switchAt := s.now }).wb (ARB_CTL.PEND a) true).wb (ARB_CTL.NEXT a) false

/-! ### Doorbells (R371) -/

def State.free_ (s : State) (q : Nat) : Nat := s.rf (QUE_CNT.FREE q)
def State.inflight (s : State) (q : Nat) : Nat := s.rf (QUE_CNT.INFLIGHT q)
def State.held (s : State) (q : Nat) : Nat := s.rf (QUE_POS.HELD q)
def State.cidx (s : State) (q : Nat) : Nat := s.rf (QUE_POS.CIDX q)

/-- The lane address of entry `k` beyond the next entry to take. -/
def State.entryAt (s : State) (q k : Nat) : Nat := s.queBase q + 64 * ((s.cidx q + k) % s.queSize q)

def State.styQue (s : State) (q : Nat) (f : StyQue → StyQue) : State :=
  { s with sty := { s.sty with ques := mset s.sty.ques q (f (mget {} s.sty.ques q)) } }

/-- A doorbell refused (R371). -/
def State.bellRefuse (s : State) (q kind : Nat) : State := (s.incSat QUE_SUMMARY.OVERFLOW).raiseEv 209 (q + kind * 256)

/-- An accepted post: counts, the pending bit and the vector (R371, R377); a CAN controller that is the consumer end
(R406) takes no vector. -/
def State.posted (s : State) (q n : Nat) : State :=
  let s := (s.wf (QUE_CNT.FREE q) (s.free_ q - n)).wf (QUE_CNT.INFLIGHT q) (s.inflight q + n)
  let s := s.styQue q fun x => { x with posts := x.posts + n }
  if s.rb (QUE_CFG.IRQEN q) then
    let s := s.hwBit (QUE_PEND.PEND (q / 32)) (q % 32)
    if (s.canTxOf q).isSome then s else s.irqTo (s.endCode q (s.rf (QUE_CFG.CONS q))) (s.rf (QUE_CFG.QVEC q)) (256 + q)
  else s

/-- POST n. -/
def State.post (s : State) (q n : Nat) : State :=
  if !s.rb (QUE_CFG.EN q) || !s.rb (QUE_STAT.ADMIT q) then (s.wf (QUE_STAT.LASTPOST q) 2).incSat QUE_SUMMARY.NOTADMIT
  else if n = 0 ∨ s.free_ q < n then (s.wf (QUE_STAT.LASTPOST q) 1).bellRefuse q 1
  else (s.wf (QUE_STAT.LASTPOST q) 0).posted q n

/-- TAKE n. -/
def State.take (s : State) (q n : Nat) : State :=
  if n = 0 ∨ s.inflight q < n then s.bellRefuse q 2
  else
    let s := (s.wf (QUE_CNT.INFLIGHT q) (s.inflight q - n)).wf (QUE_POS.HELD q) (s.held q + n)
    (s.wf (QUE_POS.CIDX q) ((s.cidx q + n) % s.queSize q)).styQue q fun x => { x with takes := x.takes + n }

/-- RETURN n. -/
def State.giveBack (s : State) (q n : Nat) : State :=
  if n = 0 ∨ s.held q < n then s.bellRefuse q 3
  else
    let s := (s.wf (QUE_POS.HELD q) (s.held q - n)).wf (QUE_CNT.FREE q) (s.free_ q + n)
    s.styQue q fun x => { x with returns := x.returns + n }

/-- QUE_POST. -/
def execQuePost (req queue count : Nat) (s : State) : Res :=
  s.whenOn fun s => if s.isProd queue req false then s.post queue count else s.violate (QUE_POST.adr queue) req 1

/-- QUE_TAKE. -/
def execQueTake (req queue count : Nat) (s : State) : Res :=
  s.whenOn fun s => if s.isCons queue req false then s.take queue count else s.violate (QUE_TAKE.adr queue) req 1

/-- The strike record of QUEUE_POST (R54), one 64-byte entry. -/
def strikeRecord (entry fire count : Nat) : List Byte :=
  padTo 64 (leBytes 2 entry ++ leBytes 6 0 ++ leBytes 8 fire ++ leBytes 4 count)

/-- A QUEUE_POST strike (R373): refused without credit, admission or SPNPROD, and where a controller is the producer
(R406); else the record is written and posted. -/
def State.strikePost (s : State) (q entry fire count : Nat) : Option State :=
  if !s.rb (QUE_CFG.EN q) || s.free_ q == 0 || !s.rb (QUE_STAT.ADMIT q) || !s.rb (QUE_CFG.SPNPROD q) || (s.canRxOf q).isSome then none
  else
    let s := s.memStore (s.entryAt q (s.inflight q)) (strikeRecord entry fire count)
    some (s.posted q 1)

/-- An entry posted by the Headstock or a controller: bytes zero-filled to whole entries; none without the credit. -/
def State.postBytes (s : State) (q : Nat) (l : List Byte) : Option State :=
  let n := (l.length + 63) / 64
  if s.rb (QUE_CFG.EN q) && s.rb (QUE_STAT.ADMIT q) && n != 0 && decide (n ≤ s.free_ q) then
    let b := padTo (64 * n) l
    let s := (List.range n).foldl (fun s k => s.memStore (s.entryAt q (s.inflight q + k)) (sliceB b (64 * k) 64)) s
    some ((s.wf (QUE_STAT.LASTPOST q) 0).posted q n)
  else none

/-- The bytes of `n` in-flight entries, oldest first. -/
def State.peekBytes (s : State) (q n : Nat) : List Byte := (List.range n).flatMap (fun k => s.memBytes (s.entryAt q k) 64)

/-- A queue enabled with its words (R379): counts fresh, LASTPOST OK, Steelyard's counts anew (R383). -/
def State.queEnable (s : State) (q cfg base : Nat) : State :=
  let s := (s.setN (QUE_CFG.adr q) (cfg &&& 0xFFFFC00F)).setN (QUE_BASE.adr q) (base &&& 0xFFFFFFC0)
  let s := s.styQue q fun _ => {}
  let s := (s.setN (QUE_CNT.adr q) (if s.rb (QUE_CFG.EN q) then s.queSize q else 0)).setN (QUE_POS.adr q) 0
  (s.wf (QUE_STAT.LASTPOST q) 0).readmit q

/-- A queue disabled: every entry discarded and all counts 0 (R379). -/
def State.queOff (s : State) (q : Nat) : State :=
  let s := ((s.wb (QUE_CFG.EN q) false).setN (QUE_CNT.adr q) 0).setN (QUE_POS.adr q) 0
  s.styQue q fun _ => {}

/-- The lane address ranges of a ring and of the ANW buffer region (R313, R369). -/
def overlaps (a n b m : Nat) : Bool := decide (a < b + m) && decide (b < a + n)

/-- The ring of these words lies in one bank of lane SRAM, aligned, apart from other rings and the ANW buffers (R369). -/
def State.ringOk (s : State) (q cfg base : Nat) : Bool :=
  let e := cfg % 16
  let n := 64 * 2 ^ e
  decide (4 ≤ e) && decide (e ≤ 12) && base % 64 == 0 && decide (0x20000000 ≤ base) && decide (base + n ≤ 0x20600000)
    && bankOf base == bankOf (base + n - 1)
    && !overlaps base n (s.rf ANW_BUFBASE.BASE * 2 ^ 20) (2 ^ 20)
    && (List.range 128).all (fun k => k == q || !s.rb (QUE_CFG.EN k) || !overlaps base n (s.queBase k) (64 * s.queSize k))

/-- An owner code that a fixed end may name: the holder, the Headstock, a pair or a core (R370). -/
def endAllowed (c : Nat) : Bool := c == 0 || c == 1 || (2 ≤ c && c ≤ 4) || (8 ≤ c && c ≤ 13)

/-- R367 on an arbiter with a table: the ports that need a slot there. -/
def State.needSlots (s : State) (a : Nat) : List Nat :=
  let rings := (List.range 128).filter (fun q => s.rb (QUE_CFG.EN q))
  let engines := (List.range 4).filter (fun e => (List.range 64).any (fun c => s.rb (LPE_CTXCFG.EN (64 * e + c))))
  let inBuf := fun b => s.rf ANW_BUFBASE.BASE != 0 && decide (b < 24) &&
    overlaps (0x20000000 + b * 0x40000) 0x40000 (s.rf ANW_BUFBASE.BASE * 2 ^ 20) (2 ^ 20)
  let flowBank := fun f => bankOf (s.flowBase f)
  let tgtBanks := fun e => ((List.range 64).filter (fun c => s.rb (LPE_CTXCFG.EN (64 * e + c)) && s.rf (LPE_CTXOUT.TYPE (64 * e + c)) == 5)).map
    (fun c => flowBank (s.rf (LPE_CTXOUT.INDEX (64 * e + c))))
  let hsRing := fun q => bankOf (s.queBase q) == a && (s.endCode q (s.rf (QUE_CFG.PROD q)) == 1 || s.endCode q (s.rf (QUE_CFG.CONS q)) == 1)
  let hs := if a = 25 ∨ a = 24 ∨ inBuf a ∨ rings.any hsRing then [0] else []
  let le := (engines.filter (fun e => a == 25 || (tgtBanks e).contains a)).map (· + 7)
  let eg := if a < 24 ∧ s.txFlows.any (fun f => flowBank f == a) then [11] else []
  let prod := (rings.filter (fun q => s.rb (QUE_STAT.ADMIT q))).filterMap (fun q =>
    match s.prodPort q with
    | none => none
    | some (p, bell) => if bankOf (s.queBase q) == a || (bell && a == 25) then some p else none)
  hs ++ le ++ eg ++ prod

/-- A table leaves no bound undefined at its arbiter (R367). -/
def State.tableOk (s : State) (a : Nat) (t : List Nat) : Bool := (s.needSlots a).all (fun p => !(ownSlots t p).isEmpty)

end Sys2Proof.Machine
end

