-- ==== Sys2Proof/Machine/Journal.lean ====
section
/-! DEFINITION. The journal (R421, R481): the records of the procedures in journalled steps, and the set in force that the
newest ACTIVE record names. -/

namespace Sys2Proof.Machine

/-- Operations of the journal. -/
def opCommit : Nat := 1
def opUpdate : Nat := 2
def opOrder : Nat := 3

/-- Steps of a commit record (Table SEC-9); ABORT's code is the model's (DESIGN CHOICE, log entry 27). -/
def stpBegin : Nat := 1
def stpPrepared : Nat := 6
def stpIntent : Nat := 8
def stpActive : Nat := 10
def stpAbort : Nat := 255

/-- Steps of an update record: BEGIN, ACTIVATE, COMMITTED, REVERT, and TRIAL, which the ROM writes as it boots the trial
bank; of an order: INTENT 1, EFFECT 3 (DESIGN CHOICE, log entry 27). -/
def updBegin : Nat := 1
def updActivate : Nat := 2
def updCommitted : Nat := 3
def updRevert : Nat := 4
def updTrial : Nat := 5

/-- A record counts as written: the CRC of one of its copies holds (R421). -/
def JRec.valid (r : JRec) : Bool := r.copy0 == .good || r.copy1 == .good

/-- The newest valid record of a list that satisfies a test. -/
def newestRec (l : List JRec) (p : JRec → Bool) : Option JRec := l.reverse.find? (fun r => r.valid && p r)

def State.newest (s : State) (p : JRec → Bool) : Option JRec := newestRec s.flash.journal p

/-- What a full half hands on: the newest record of each operation, the newest ACTIVE, and the newest COMMITTED or
REVERT (R481, DESIGN CHOICE, log entry 27). -/
def journalKeep (l : List JRec) : List JRec :=
  l.filter (fun r => some r == newestRec l (fun x => x.op == r.op) ||
    (r.op == opCommit && some r == newestRec l (fun x => x.op == opCommit && x.step == stpActive)) ||
    (r.op == opUpdate && some r == newestRec l (fun x => x.op == opUpdate && (x.step == updCommitted || x.step == updRevert))))

/-- A record appended; a full half is handed on to the other. -/
def State.journal (s : State) (r : JRec) : State :=
  let f := s.flash
  let seq := match newestRec f.journal (fun _ => true) with | some x => x.seq + 1 | none => 0
  let f := if f.journal.length < 2048 then f
    else { f with journal := journalKeep f.journal, older := f.journal, half := !f.half }
  { s with flash := { f with journal := f.journal ++ [{ r with seq := seq % 2 ^ 32 }] } }

/-- The 32 bytes of a record. -/
def JRec.bytes (r : JRec) : List Byte :=
  let b := leBytes 2 r.op ++ leBytes 1 r.step ++ leBytes 1 r.target ++ leBytes 4 r.seq ++ leBytes 8 r.v ++ leBytes 8 r.k ++ [0, 0, 0, 0]
  b ++ leBytes 4 (crc32 b)

/-- USED of a counter. -/
def State.notchUsed (s : State) (n : Nat) : Nat :=
  if n = 0 then s.otp.used0 else if n = 1 then s.otp.used1 else if n = 2 then s.otp.used2 else if n = 3 then s.otp.used3 else s.otp.used4

/-- The counter of an order. -/
def orderCounter (kind : Nat) : Nat := if kind = 1 then 4 else if kind = 2 then 1 else if kind = 3 then 2 else 3

/-- The bank that an update writes. -/
def State.otherBank (s : State) : Nat := 1 - s.sec.bank

/-- Updates of the two banks so far, as the journal counts them (R480). -/
def State.updCounts (s : State) : Nat × Nat :=
  match s.newest (fun r => r.op == opUpdate) with
  | some r => (r.v, r.k)
  | none => (0, 0)

/-- A record of a commit. -/
def commitRecOf (p : Proc) (step : Nat) : JRec :=
  { op := opCommit, step := step, target := p.slot, v := p.v, k := p.k, s := if step = stpActive then p.s else [] }

/-- A record of an order. -/
def State.orderRec (s : State) (kind arg step : Nat) : JRec :=
  { op := opOrder, step := step, target := kind, v := arg, k := s.notchUsed (orderCounter kind) }

/-- An update record for a bank; BEGIN counts one more update of it. -/
def State.updRecOf (s : State) (step bank : Nat) : JRec :=
  let (a, b) := s.updCounts
  let n := if step = updBegin then 1 else 0
  { op := opUpdate, step := step, target := bank, v := if bank = 0 then a + n else a, k := if bank = 0 then b else b + n }

/-- A record that no step of a procedure waits for: its command writes it whole, and its two copies are in flash 2 ms later
(DESIGN CHOICE, log entry 24). -/
def State.journalNow (s : State) (r : JRec) : State :=
  let s := s.journal r
  { s with sec := { s.sec with recAt := some s.now } }

def State.commitRec (s : State) (p : Proc) (step : Nat) : State := s.journal (commitRecOf p step)
def State.updRec (s : State) (step bank : Nat) : State := s.journal (s.updRecOf step bank)
def State.commitNow (s : State) (p : Proc) (step : Nat) : State := s.journalNow (commitRecOf p step)
def State.updNow (s : State) (step bank : Nat) : State := s.journalNow (s.updRecOf step bank)

/-- The record that the step in progress of a procedure writes. -/
def State.recInHand (s : State) (p : Proc) : Option JRec :=
  if p.kind = 1 then
    (if p.step = 1 then some (commitRecOf p stpBegin) else if p.step = 6 then some (commitRecOf p stpPrepared)
     else if p.step = 8 then some (commitRecOf { p with k := s.otp.used0 } stpIntent)
     else if p.step = 10 then some (commitRecOf p stpActive) else none)
  else if p.kind = 2 then
    (if p.step = 1 then some (s.orderRec p.order p.arg 1) else if p.step = 3 then some (s.orderRec p.order p.arg 3) else none)
  else if p.kind = 3 then (if p.step = 1 then some (s.updRecOf updBegin s.otherBank) else none)
  else some (s.updRecOf updActivate s.otherBank)

/-- The newest ACTIVE commit record: it names the set in force (R434). -/
def State.activeRec (s : State) : Option JRec := s.newest (fun r => r.op == opCommit && r.step == stpActive)

/-- NCH_CHECKLO and NCH_CHECKHI. -/
def State.setV (s : State) (v : Nat) : State := (s.setN NCH_CHECKLO.adr v).setN NCH_CHECKHI.adr (v / 2 ^ 32 % 256)

/-- A parameter slot of bank 0; both banks hold one copy (R420). -/
def State.slotImg (s : State) (slot : Nat) : Img := mget [] s.flash.par slot

/-! ### Words of a parameter image (R426, R427) -/

/-- A byte of an image; one not listed is 0. -/
def imgByte (im : Img) (o : Nat) : Nat := (memByte im o).toNat

/-- A little-endian word of an image. -/
def imgWord (im : Img) (o : Nat) : Nat := ofLe ((List.range 4).map (fun i => memByte im (o + i)))

/-- Bytes of an image. -/
def imgBytes (im : Img) (o n : Nat) : List Byte := (List.range n).map (fun i => memByte im (o + i))

/-- Words of the steering record and of the brake record. -/
def imgSteer (im : Img) (k : Nat) : Nat := imgWord im (0x3000 + 4 * k)
def imgBrake (im : Img) (k : Nat) : Nat := imgWord im (0x3040 + 4 * k)

/-- The image in force; without a set it is empty. -/
def State.activeImg (s : State) : Img := if s.sec.set then s.slotImg s.sec.slot else []

/-- A word of the steering record in force, and of the brake record; the roles (Tables SVC-6 and SVC-7). -/
def State.steerW (s : State) (k : Nat) : Nat := imgSteer s.activeImg k
def State.brakeW (s : State) (k : Nat) : Nat := imgBrake s.activeImg k
def State.steerRole (s : State) : Nat := s.steerW 0
def State.brakeRole (s : State) : Bool := s.brakeW 0 % 2 == 1

end Sys2Proof.Machine
end

