-- ==== Sys2Proof/Machine/Keys.lean ====
section
/-! DEFINITION. Keys, signed objects, certificates and images (R409 to R416, R419). -/

namespace Sys2Proof.Machine

/-! ### Keys (R409) -/

/-- The root public key of a slot. -/
def State.rootKey (s : State) (slot : Nat) : List Byte := leBytes 32 (s.otp.roots.getD slot 0)

/-- The key slot in force: the number of re-keys made. -/
def State.keySlot (s : State) : Nat := s.otp.seeds.length - 1

/-- The seed of the identity in force. -/
def State.idSeed (s : State) : List Byte := leBytes 32 (s.otp.seeds.getD s.keySlot 0)

/-- The identity public key in force. -/
def State.idKey (s : State) : List Byte := edPublic s.idSeed

/-- An object with the signature of the identity in force. -/
def State.signed (s : State) (l : List Byte) : List Byte := l ++ edSign s.idSeed l

/-- The module serial number as 8 bytes. -/
def State.serialBytes (s : State) : List Byte := leBytes 8 s.otp.serial

/-- The first `n` bytes of an object are signed by a root slot. -/
def State.rootSigned (s : State) (slot n : Nat) (obj : List Byte) : Bool :=
  edVerify (s.rootKey slot) (obj.take n) (sliceB obj n 64)

/-! ### Certificates (R412, Table SEC-1) -/

/-- A certificate names this lane and serial and certifies the identity in force. -/
def State.certNames (s : State) (c : List Byte) : Bool :=
  c.length == 128 && leAt c 0 4 == 0x5443564A && leAt c 4 1 == s.otp.lane && leAt c 5 1 == s.keySlot &&
  sliceB c 8 8 == s.serialBytes && sliceB c 16 32 == s.idKey

/-- SEC_STAT.CERTOK. -/
def State.certOk (s : State) : Bool := s.certNames s.flash.cert

/-- The fields of a certificate or of a certificate request. -/
def State.certBody (s : State) : List Byte :=
  leBytes 4 0x5443564A ++ leBytes 1 s.otp.lane ++ leBytes 1 s.keySlot ++ leBytes 1 s.otp.used1 ++ [0] ++
  s.serialBytes ++ s.idKey ++ List.replicate 16 0

/-! ### Nonces, orders and tokens (R411, R413, R414) -/

/-- `n` bytes that the spec leaves open. -/
def State.freeBytes (s : State) (n : Nat) : List Byte := (List.range n).map (fun i => Config.freeByte (s.free + i))

/-- The lane nonce is valid: made within the last 60 s of GT, +0/+1 ms. -/
def State.nonceIs (s : State) (n : List Byte) : Bool :=
  match s.sec.nonce with
  | some (m, t) => m == n && decide (s.gt ≤ t + 60001000000)
  | none => false

/-- The nonce is consumed. -/
def State.nonceUsed (s : State) : State := { s with sec := { s.sec with nonce := none } }

/-- An order is as Table SEC-2 states but for its nonce: the checks of a peer (R413). -/
def State.orderFields (s : State) (kind : Nat) (o : List Byte) : Bool :=
  let lane := leAt o 5 1
  o.length == 96 && leAt o 0 4 == 0x44524F4A && leAt o 4 1 == kind &&
  (lane == s.otp.lane || (lane == 0xFF && kind == 4)) && (kind == 4 || leAt o 7 1 == 0) &&
  sliceB o 8 8 == s.serialBytes && leAt o 6 1 == (if kind = 2 then s.otp.used1 + 1 else s.otp.used1) &&
  s.rootSigned (leAt o 6 1) 32 o

/-- An order is accepted by the lane that takes it. -/
def State.orderOk (s : State) (kind : Nat) (o : List Byte) : Bool := s.orderFields kind o && s.nonceIs (sliceB o 16 16)

/-- A token is accepted (Table SEC-3). -/
def State.tokenOk (s : State) (kind : Nat) (t : List Byte) : Bool :=
  let v := leAt t 64 4
  t.length == 144 && leAt t 0 4 == 0x4742444A && leAt t 4 1 == kind && leAt t 5 1 == s.otp.lane &&
  leAt t 6 1 == s.otp.used1 && leAt t 7 1 == 0 && sliceB t 8 8 == s.serialBytes && s.nonceIs (sliceB t 16 16) &&
  sliceB t 32 32 == s.idKey && (if kind = 1 then v == 0 else decide (1 ≤ v) && decide (v ≤ 3600)) &&
  leAt t 68 8 == 0 && leAt t 76 4 == 0 && s.rootSigned (leAt t 6 1) 80 t

/-! ### Images (R416, Table SEC-5) -/

/-- Bytes of an image region; an unlisted byte is erased. -/
def State.fwBytes (s : State) (bank type o n : Nat) : List Byte :=
  let im := mget [] s.flash.fw (2 * bank + type)
  (List.range n).map (fun i => mget (0xFF : Byte) im (o + i))

/-- Size of an image region: 0 Headstock, 1 application. -/
def fwSize (type : Nat) : Nat := if type = 0 then 0x300000 else 0x400000

/-- The manifest of an image. -/
def State.manifest (s : State) (bank type : Nat) : List Byte :=
  let n := leAt (s.fwBytes bank type 6 2) 0 2
  s.fwBytes bank type 0 (32 + 80 * min n 50 + 64)

/-- NSEG of a manifest. -/
def manSegs (m : List Byte) : Nat := leAt m 6 2

/-- Offset and length of segment `i`. -/
def manSeg (m : List Byte) (i : Nat) : Nat × Nat := (leAt m (32 + 80 * i) 4, leAt m (36 + 80 * i) 4)

/-- A manifest is right and signed by a root slot. -/
def State.manifestOk (s : State) (bank type slot : Nat) : Bool :=
  let m := s.manifest bank type
  leAt m 0 4 == 0x4E414D4A && leAt m 4 1 == type && leAt m 5 1 == slot && decide (1 ≤ manSegs m) && decide (manSegs m ≤ 50) &&
  (sliceB m 12 8 == s.serialBytes || leAt m 12 8 == 0) && (type == 1 || decide (1 ≤ leAt m 10 1)) &&
  s.rootSigned slot (m.length - 64) m

/-- Segment `i` lies within the region, overlaps no other and matches its digest. -/
def State.segOk (s : State) (bank type i : Nat) : Bool :=
  let m := s.manifest bank type
  let (o, n) := manSeg m i
  decide (o + n ≤ fwSize type) &&
  (List.range (manSegs m)).all (fun j => j == i || (let (p, k) := manSeg m j; decide (o + n ≤ p) || decide (p + k ≤ o))) &&
  sha512 (s.fwBytes bank type o n) == sliceB m (48 + 80 * i) 64

/-- An image verified under the root in force: 0, or its first failing segment plus 1, a manifest failure counting as
segment 0 (R416, R442); a bank marked empty holds none (R443). -/
def State.verifyImage (s : State) (bank type : Nat) : Nat :=
  if s.flash.emptied.testBit bank || !s.manifestOk bank type s.otp.used1 then 1
  else match (List.range (manSegs (s.manifest bank type))).find? (fun i => !s.segOk bank type i) with
    | some i => i + 1
    | none => 0

/-- FWREV and MAXPROF of a Headstock image. -/
def State.fwRev (s : State) (bank : Nat) : Nat := leAt (s.manifest bank 0) 8 2
def State.fwMaxProf (s : State) (bank : Nat) : Nat := leAt (s.manifest bank 0) 10 1

/-- Certificates of STYPE 2 segments of the verified images that name this lane, signed by the root in force (R419). -/
def State.certSegments (s : State) (bank type : Nat) : List (List Byte) :=
  let m := s.manifest bank type
  (List.range (manSegs m)).filterMap (fun i =>
    let (o, n) := manSeg m i
    if leAt m (44 + 80 * i) 1 = 2 ∧ n = 128 then
      let c := s.fwBytes bank type o 128
      if s.certNames c && leAt c 6 1 == s.otp.used1 && s.rootSigned s.otp.used1 64 c then some c else none
    else none)

/-- The certificate that the verified images install (R419): the last one found, if any. -/
def State.installCerts (s : State) : State :=
  match (s.certSegments s.sec.bank 0 ++ (if s.sec.appOk then s.certSegments s.sec.bank 1 else [])).getLast? with
  | some c => { s with flash := { s.flash with cert := c } }
  | none => s

end Sys2Proof.Machine
end

