-- ==== Sys2Proof/Machine/MailOps.lean ====
section
/-! DEFINITION. The mailbox layer every mailbox command shares: opcodes, gates, responses (R386 to R400). -/

namespace Sys2Proof.Machine

/-! ### Status codes (Table HMB-3) -/

def stOk : Nat := 0x0000
def stInProgress : Nat := 0x0001
def stBadCheck : Nat := 0x0010
def stBadLength : Nat := 0x0011
def stUnknownOpcode : Nat := 0x0012
def stNotPermitted : Nat := 0x0013
def stWrongState : Nat := 0x0014
def stInvalidParam : Nat := 0x0020
def stInvalidOwner : Nat := 0x0021
def stBusy : Nat := 0x0022
def stNotAdmitted : Nat := 0x0023
def stDenied : Nat := 0x0024
def stFailed : Nat := 0x0025
def stExhausted : Nat := 0x0026
def stCheckRefused : Nat := 0x0027
def stMismatch : Nat := 0x0028
def stPeerAbsent : Nat := 0x0029

/-! ### Opcodes (Table HMB-6) -/

/-- Classes of Table HMB-4. -/
inductive HmbClass where
  | a | r | l | p | d
  deriving DecidableEq, Repr

/-- One row of Table HMB-6: opcode, class, Tool, module, and the lengths allowed (least, most, step). -/
structure OpRow where
  op : Nat
  cls : HmbClass
  tool : Bool := false
  module : Bool := false
  min : Nat := 0
  max : Nat := 0
  step : Nat := 1
  deriving DecidableEq, Repr

/-- Groups 0x01 to 0x05. -/
def opRowsA : List OpRow :=
  [⟨0x0100, .a, false, false, 0, 0, 1⟩, ⟨0x0101, .r, false, false, 2, 2, 1⟩, ⟨0x0102, .r, false, false, 16, 16, 1⟩,
   ⟨0x0103, .l, false, false, 1, 1, 1⟩, ⟨0x0104, .l, false, false, 1, 1, 1⟩, ⟨0x0105, .r, false, false, 2, 2, 1⟩,
   ⟨0x0106, .r, false, false, 12, 12, 1⟩, ⟨0x0107, .r, false, false, 1, 1, 1⟩, ⟨0x0108, .r, false, false, 12, 12, 1⟩,
   ⟨0x0109, .r, false, false, 68, 68, 1⟩, ⟨0x0200, .r, false, false, 0, 0, 1⟩, ⟨0x0201, .r, false, false, 1, 1, 1⟩,
   ⟨0x0300, .r, false, false, 1, 1, 1⟩, ⟨0x0301, .r, false, false, 1, 1, 1⟩, ⟨0x0302, .r, false, false, 1, 1, 1⟩,
   ⟨0x0303, .r, false, false, 2, 2, 1⟩, ⟨0x0400, .r, false, false, 2, 2, 1⟩, ⟨0x0401, .a, false, false, 3, 3, 1⟩,
   ⟨0x0402, .a, false, false, 0, 0, 1⟩, ⟨0x0403, .r, false, false, 0, 0, 1⟩, ⟨0x0404, .r, false, false, 0, 0, 1⟩,
   ⟨0x0500, .r, false, false, 1, 1, 1⟩]

/-- Groups 0x06 to 0x09; a token is 144 bytes and an order 96 (Tables SEC-2 and SEC-3). -/
def opRowsB : List OpRow :=
  [⟨0x0600, .p, true, false, 12, 1024, 4⟩, ⟨0x0601, .p, true, true, 0, 0, 1⟩, ⟨0x0602, .p, true, true, 8, 8, 1⟩,
   ⟨0x0603, .p, true, false, 0, 0, 1⟩, ⟨0x0604, .a, false, false, 8, 8, 1⟩, ⟨0x0605, .a, false, false, 0, 0, 1⟩,
   ⟨0x0700, .a, false, false, 0, 0, 1⟩, ⟨0x0701, .a, false, false, 16, 16, 1⟩, ⟨0x0702, .a, false, false, 0, 0, 1⟩,
   ⟨0x0703, .p, true, false, 144, 144, 1⟩, ⟨0x0704, .d, true, false, 0, 0, 1⟩, ⟨0x0705, .r, true, false, 144, 144, 1⟩,
   ⟨0x0706, .p, true, false, 96, 96, 1⟩, ⟨0x0707, .p, true, false, 96, 96, 1⟩, ⟨0x0708, .p, true, false, 96, 96, 1⟩,
   ⟨0x0709, .p, true, true, 96, 96, 1⟩, ⟨0x070A, .a, false, false, 2, 2, 1⟩, ⟨0x0800, .a, false, false, 8, 8, 1⟩,
   ⟨0x0801, .r, false, false, 8, 8, 1⟩, ⟨0x0802, .p, true, false, 2, 2, 1⟩, ⟨0x0803, .r, true, false, 16, 16, 1⟩,
   ⟨0x0804, .a, true, false, 1, 1, 1⟩, ⟨0x0805, .d, true, false, 4, 4, 1⟩, ⟨0x0900, .p, true, false, 8, 8, 1⟩,
   ⟨0x0901, .p, true, false, 12, 1024, 1⟩, ⟨0x0902, .p, true, false, 0, 0, 1⟩, ⟨0x0903, .p, true, false, 0, 0, 1⟩,
   ⟨0x0904, .p, true, false, 0, 0, 1⟩, ⟨0x0905, .a, false, false, 0, 0, 1⟩]

/-- Table HMB-6. -/
def opRows : List OpRow := opRowsA ++ opRowsB

/-- The row of an opcode. -/
def opRow (op : Nat) : Option OpRow := opRows.find? (fun r => r.op == op)

/-- The commands of R394: class P in groups 0x06, 0x07 and 0x09. -/
def OpRow.exclusive (r : OpRow) : Bool := r.cls == .p && (r.op / 256 == 6 || r.op / 256 == 7 || r.op / 256 == 9)

/-! ### Commands as requests (Table HMB-6) -/

/-- A mailbox command as its request: the channel, the opcode and the payload (Table HMB-6), groups 0x01 to 0x05; reserved
bytes 0. -/
def mailReqA : Instr → Option (Fin 8 × Nat × List Byte)
  | .laneInfo c => some (c, 0x0100, [])
  | .laneGrant c u o => some (c, 0x0101, [u, o])
  | .strikeSet c e k a p ph tg => some (c, 0x0102, [e, k, a, 0] ++ leBytes 4 p.toNat ++ leBytes 4 ph.toNat ++ leBytes 2 tg.toNat ++ [0, 0])
  | .slpSplit c p => some (c, 0x0103, [p])
  | .slpRejoin c p => some (c, 0x0104, [p])
  | .tskOutSet c m v => some (c, 0x0105, [m, v])
  | .queConfig c q f b => some (c, 0x0106, [q, 0, 0, 0] ++ leBytes 4 f.toNat ++ leBytes 4 b.toNat)
  | .queDisable c q => some (c, 0x0107, [q])
  | .arbPrioSet c a lo hi => some (c, 0x0108, [a, 0, 0, 0] ++ leBytes 4 lo.toNat ++ leBytes 4 hi.toNat)
  | .arbTableSet c a l s => some (c, 0x0109, [a, l, 0, 0] ++ s.toList)
  | .anwNodeRestart c => some (c, 0x0200, [])
  | .astPortReadmit c p => some (c, 0x0201, [p])
  | .pwmTripClear c m => some (c, 0x0300, [m])
  | .pwmLegClear c l => some (c, 0x0301, [l])
  | .glkPortRestart c p => some (c, 0x0302, [p])
  | .glkLegClear c p m => some (c, 0x0303, [p, m])
  | .lpeCtxRestart c e x => some (c, 0x0400, [e, x])
  | .lpeCoefRead c e x r => some (c, 0x0401, [e, x, r])
  | .svcStatus c => some (c, 0x0402, [])
  | .steerWindingRestore c => some (c, 0x0403, [])
  | .brakeCircuitRestore c => some (c, 0x0404, [])
  | .fbcChanRestart c n => some (c, 0x0500, [n])
  | _ => none

/-- Groups 0x06 to 0x09. -/
def mailReqB : Instr → Option (Fin 8 × Nat × List Byte)
  | .cmsLoad c o d => some (c, 0x0600, leBytes 4 o.toNat ++ [0, 0, 0, 0] ++ d)
  | .cmsCheck c => some (c, 0x0601, [])
  | .cmsConfirm c s => some (c, 0x0602, s.toList)
  | .cmsAbort c => some (c, 0x0603, [])
  | .cmsRead c o n => some (c, 0x0604, leBytes 4 o.toNat ++ leBytes 4 n.toNat)
  | .cmsStatus c => some (c, 0x0605, [])
  | .secNonce c => some (c, 0x0700, [])
  | .secAttest c n => some (c, 0x0701, n.toList)
  | .secCertRead c => some (c, 0x0702, [])
  | .secDebugEnter c t => some (c, 0x0703, t)
  | .secDebugExit c => some (c, 0x0704, [])
  | .secInjectToken c t => some (c, 0x0705, t)
  | .secDebugDisable c o => some (c, 0x0706, o)
  | .secRootRevoke c o => some (c, 0x0707, o)
  | .secRekey c o => some (c, 0x0708, o)
  | .secProfileLock c o => some (c, 0x0709, o)
  | .nchLogRead c e => some (c, 0x070A, leBytes 2 e.toNat)
  | .diagRead c a n => some (c, 0x0800, leBytes 4 a.toNat ++ leBytes 4 n.toNat)
  | .tlySetReaction c s g => some (c, 0x0801, leBytes 2 s.toNat ++ [0, 0] ++ leBytes 4 g.toNat)
  | .tlyEflTest c d => some (c, 0x0802, leBytes 2 d.toNat)
  | .astInjArm c r g p s => some (c, 0x0803, [r, 0, 0, 0] ++ leBytes 4 g.toNat ++ leBytes 4 p.toNat ++ leBytes 4 s.toNat)
  | .astInjStop c m => some (c, 0x0804, [m])
  | .dbgProbeSet c p s => some (c, 0x0805, [p, 0] ++ leBytes 2 s.toNat)
  | .updBegin c i s => some (c, 0x0900, [i, 0, 0, 0] ++ leBytes 4 s.toNat)
  | .updWrite c o d => some (c, 0x0901, leBytes 4 o.toNat ++ [0, 0, 0, 0] ++ d)
  | .updVerify c => some (c, 0x0902, [])
  | .updActivate c => some (c, 0x0903, [])
  | .updAbort c => some (c, 0x0904, [])
  | .updStatus c => some (c, 0x0905, [])
  | _ => none

/-- Any mailbox command as its request. -/
def mailReq (i : Instr) : Option (Fin 8 × Nat × List Byte) := (mailReqA i).orElse fun _ => mailReqB i

/-! ### Channels -/

def State.chan (s : State) (c : Nat) : ChanSt := mget {} s.hmb.chans c
def State.setChan (s : State) (c : Nat) (x : ChanSt) : State := { s with hmb := { s.hmb with chans := mset s.hmb.chans c x } }

/-- The Headstock serves mailbox messages: SELFTEST and later (R386). -/
def State.serves (s : State) : Bool := decide (2 ≤ s.st)

/-- LANE_STATE.RMODE codes. -/
def rmTriad : Nat := 0
def rmPair : Nat := 1
def rmSolo : Nat := 2
def rmHalt : Nat := 3

/-- The lane is parked (R395). -/
def State.parked (s : State) : Bool :=
  s.rf LANE_STATE.RMODE == rmHalt || s.st == stSelftest || s.st == stIntegrate ||
  (match s.svc.parkSince with
   | some t => decide (t + 2000000000 ≤ s.now) && !(s.rf TSK_OUTSTAT.ON).testBit 0 && !(s.rf TSK_OUTSTAT.ON).testBit 4
   | none => false)

/-- The classes the lane state and mode allow (Table HMB-4). -/
def State.classOk (s : State) (c : HmbClass) : Bool :=
  let m := s.rf LANE_STATE.RMODE
  match c with
  | .a => s.serves
  | .r => decide (3 ≤ s.st)
  | .l => s.st == stIntegrate || s.st == stDebug || (s.st == stService && (m == rmTriad || m == rmPair))
  | .p => s.st == stSelftest || s.st == stIntegrate || s.st == stDebug ||
      (s.st == stService && (m == rmHalt || (m != rmSolo && s.parked)))
  | .d => s.st == stDebug

/-! ### Messages (R390) -/

/-- A message with its check value. -/
def hmbBytes (op tag status flags lane : Nat) (payload : List Byte) : List Byte :=
  let h := leBytes 2 op ++ leBytes 2 tag ++ leBytes 2 payload.length ++ leBytes 2 status ++
    [BitVec.ofNat 8 flags, BitVec.ofNat 8 lane, 0, 0]
  h ++ leBytes 4 (crc32 (h ++ [0, 0, 0, 0] ++ payload)) ++ payload

/-- A mailbox message offered to an Airum flow is admitted: its TX context has a slot in the set in force, and the node
is ACTIVE (R376). -/
def State.flowAdmits (s : State) (f : Nat) : Bool := s.isTx f && s.srb (ANW_FLOWSLOT.EN f s.sset) && s.nodeSt == nodeActive

/-- A response of `n` bytes goes out on its channel's path as it is: on channel 1 it is admitted and fits the flow; else
BAD_LENGTH replaces it (R388). -/
def State.respFits (s : State) (c n : Nat) : Bool :=
  let f := s.rf (HMB_CHPATH.RSP 1)
  c != 1 || (s.flowAdmits f && decide (n ≤ s.rf (ANW_FLOWBUF.LEN f)))

/-- A response on its path: the SPI buffer, the channel's flow, or its queue, behind those that wait there (R387, R388). -/
def State.respSend (s : State) (c : Nat) (interim : Bool) (l : List Byte) : State :=
  if c = 0 then
    let s := { s with spi := { s.spi with rsp := some l, rspInterim := interim } }
    (s.wb SPI_STAT.RSPRDY true).wf SPI_STAT.RSPLEN l.length
  else if c = 1 then
    let f := s.rf (HMB_CHPATH.RSP 1)
    if s.respFits 1 l.length then
      s.headWrite (47 + f / 64) (s.flowBase f) fun s => (s.memStore (s.flowBase f) (padTo (s.rf (ANW_FLOWBUF.LEN f)) l)).sealStart f none none
    else s.incSat (HMB_CHSTAT.RSPDROP 1)
  else
    let x := s.chan c
    match if x.wait.isEmpty then s.postBytes (s.rf (HMB_CHPATH.RSP c)) l else none with
    | some s => s
    | none => s.setChan c { x with wait := x.wait ++ [(l, s.now)] }

/-- The response of a channel's request, kept for its repeats (R389). -/
def State.respond (s : State) (c : Nat) (interim : Bool) (l : List Byte) : State :=
  (s.setChan c { s.chan c with lastResp := l }).respSend c interim l

/-- FLAGS of a response. -/
def respFlags (interim module : Bool) : Nat := 1 + b2n interim * 2 + b2n module * 4

/-- The final response of a channel's request (R391 to R393); an exclusive command ends with it. -/
def State.finish (s : State) (c status : Nat) (payload : List Byte) : State :=
  match (s.chan c).run with
  | none => s
  | some r =>
    let s := s.setChan c { s.chan c with run := none }
    let s := if s.rb HMB_SUMMARY.LONG ∧ s.rf HMB_SUMMARY.LONGCH = c ∧ s.rf HMB_SUMMARY.LONGOP = r.op then
        (s.setN HMB_SUMMARY.adr 0) else s
    let fits := s.respFits c (16 + payload.length)
    let status := if fits then status else stBadLength
    let s := s.wf (HMB_CHSTAT.STATUS c) status
    s.respond c false (hmbBytes r.op r.tag status (respFlags false r.module) s.otp.lane (if fits then payload else []))

/-- A request accepted on a channel: it runs; an exclusive one holds outputs 0 and 4 off (R394, R395). -/
def State.beginRun (s : State) (c : Nat) (row : OpRow) (tag : Nat) (cmd : Option Instr) : State :=
  let q := s.hmb.taken
  let s := { s with hmb := { s.hmb with taken := q + 1 } }
  let s := s.setChan c { s.chan c with run := some { op := row.op, tag, takenAt := s.now, module := row.module, cmd, seq := q } }
  if row.exclusive then
    let s := s.setN HMB_SUMMARY.adr (2 ^ 31 + c * 2 ^ 16 + row.op)
    s.wf TSK_OUTREQ.REQ (clearBits 8 (s.rf TSK_OUTREQ.REQ) 0x11)
  else s

/-- An update session is open (R394, R441): set by UPD_BEGIN, ended by UPD_ACTIVATE or UPD_ABORT. -/
def State.updOpen (s : State) : Bool := s.upd.isOpen

/-- A fitted peer cannot take part in a module command (R398); in DEBUG the own lane sends none (R34). -/
def State.peerAbsent (s : State) : Bool :=
  (s.st == stDebug && !s.peersOf.isEmpty) || s.peersOf.any (fun k => !s.bridgeUp k || (s.peer k).hb.state == stBoot || (s.peer k).hb.state == stDebug)

/-- Checks 4 to 6 of R391 on a request: the status that refuses it. -/
def State.gate (s : State) (c : Nat) (row : OpRow) : Option Nat :=
  if !(s.rf (HMB_CHCFG.GROUPS c)).testBit (row.op / 256 - 1) || (row.tool && decide (2 ≤ c)) then some stNotPermitted
  else if !s.classOk row.cls then some stWrongState
  else if row.exclusive && s.rb HMB_SUMMARY.LONG then some stBusy
  else if s.updOpen && (row.op == 0x0601 || row.op == 0x0602) then some stBusy
  else if row.op == 0x0900 && (s.rf NCH_CMSSTAT.STAGE != 0 || s.peersOf.any (fun k => (s.peer k).updOpen)) then some stBusy
  else if row.module && s.peerAbsent then some stPeerAbsent
  else none

/-- Channel `c` is in use. -/
def State.chanOn (s : State) (c : Nat) : Bool := c == 0 || s.rb (HMB_CHCFG.EN c)

/-- The commands taken before the one at place `q` have acted: commands act in the order of taking (R392). -/
def State.turnOf (s : State) (q : Nat) : Bool :=
  s.hmb.chans.all (fun x => match x.2.run with | some r => r.cmd.isNone || decide (q ≤ r.seq) | none => true)

/-- A channel's earlier responses are out of the way: none waits for credit, and on channel 0 it has been read (R392). -/
def State.chanClear (s : State) (c : Nat) : Bool := (s.chan c).wait.isEmpty && !(c == 0 && s.spi.rsp.isSome)

/-- A request counted and recorded (HMB_CHCNT, HMB_CHLAST); what it is a repeat of is `key` (R389). -/
def State.countReq (s : State) (c op tag : Nat) (key : Option (Nat × Nat × Nat)) : State :=
  let s := { s with hmb := { s.hmb with served := c } }
  let s := (s.incWrap (HMB_CHCNT.REQS c)).setN (HMB_CHLAST.adr c) (op * 2 ^ 16 + tag)
  s.setChan c { s.chan c with last := key, lastResp := [] }

/-- A request that a check refuses. -/
def State.refuseReq (s : State) (c op tag code : Nat) : State :=
  (s.setChan c { s.chan c with run := some { op, tag, takenAt := s.now, module := (opRow op).any (·.module) } }).finish c code []

/-- The length is one that the row allows. -/
def OpRow.fits (r : OpRow) (len : Nat) : Bool := decide (r.min ≤ len) && decide (len ≤ r.max) && (len - r.min) % r.step == 0

/-- Checks 2 and 4 to 6 of R391 on a request with `len` bytes of payload, and its start by `go`. -/
def State.admitReq (s : State) (c : Nat) (row : OpRow) (tag len : Nat) (go : State → State) : State :=
  if !row.fits len then (s.incSat (HMB_CHSTAT.ERRS c)).refuseReq c row.op tag stBadLength
  else match s.gate c row with
    | some code => s.refuseReq c row.op tag code
    | none => go s

/-- A mailbox command acts: as the accepted request of its channel, in its turn, or on an idle channel as a request that
is taken now, with TAG 0 (DESIGN CHOICE, log entry 14), where it passes the same checks. Its meaning `k` does the command's own
checks and answers; a request that was taken acts also where its channel has been put out of use since (R393). -/
def State.mailCmd (s : State) (c op : Nat) (cmd : Instr) (k : State → State) : Res :=
  .next <|
    if !s.serves then s
    else match (s.chan c).run with
      | some r =>
        if r.cmd = some cmd ∧ s.turnOf r.seq then k (s.setChan c { s.chan c with run := some { r with cmd := none } }) else s
      | none =>
        match opRow op, mailReq cmd with
        | some row, some (_, _, p) =>
          if s.chanOn c && s.chanClear c && s.turnOf s.hmb.taken then
            (s.countReq c op 0 none).admitReq c row 0 p.length fun s => k (s.beginRun c row 0 none)
          else s
        | _, _ => s

/-- The channel on which a command with this opcode runs and waits for its end. -/
def State.runningOn (s : State) (op : Nat) : Option Nat :=
  (List.range 8).find? (fun c => match (s.chan c).run with | some r => r.op == op && r.cmd.isNone | none => false)

end Sys2Proof.Machine
end

