-- ==== Sys2Proof/Machine/Tailstock.lean ====
section
/-! DEFINITION. Fitness, membership, redundancy modes, missions and the Tailstock (chapter "Fault tolerance, degraded
modes and the Tailstock"). -/

namespace Sys2Proof.Machine

def State.rdmPeer (s : State) (k : Nat) : RdmPeer := mget {} s.rdm.peers k
def State.setRdmPeer (s : State) (k : Nat) (p : RdmPeer) : State := { s with rdm := { s.rdm with peers := mset s.rdm.peers k p } }

/-- Missions of TSK_MODESTAT. -/
def misContinue : Nat := 0
def misStop : Nat := 1
def misPark : Nat := 2

def State.mission (s : State) : Nat := s.rf TSK_MODESTAT.MISSION
def State.heldMode (s : State) : Bool := s.rb TSK_MODESTAT.HELD
def State.rmode (s : State) : Nat := s.rf LANE_STATE.RMODE

/-- TSK_STAT.STATE is RUN. -/
def State.tskRun (s : State) : Bool := !s.rb TSK_STAT.STATE

/-- ALIGNED counts for the claim: it is 1, or has been 0 for less than FITPERS (R249). -/
def State.alignOk (s : State) : Bool :=
  s.rb SPN_SYNCSTAT.ALIGNED || decide (s.now < s.spn.unalignedAt + 1000000 * s.rf TSK_CTRL.FITPERS)

/-- The lane's own claim is fit (R249). -/
def State.fit (s : State) : Bool := s.st == stService && s.tskRun && s.alignOk

/-! ### Outputs (R264) -/

/-- Demands of the inputs in EMASK of output `k`. -/
def State.demanded (s : State) (k : Nat) : Bool := (s.rf TSK_INSTAT.DEMAND &&& s.rf (TSK_OUTCFG.EMASK k)) != 0

/-- Output `k` is on by R264, test pulses apart. -/
def State.outOn (s : State) (k : Nat) : Bool :=
  (s.rf TSK_OUTREQ.REQ).testBit k && s.tskRun && s.st == stService && !s.demanded k && !(s.rf TSK_OUTSTAT.RBFAIL).testBit k

/-- Output `k` is commanded on: on, and in no test pulse (R264, R266). -/
def State.commanded (s : State) (k : Nat) : Bool := (s.rf TSK_OUTSTAT.ON).testBit k && !(s.rf TSK_OUTSTAT.TESTING).testBit k

/-- An output whose commanded state differs from before: its pad follows, and readback ignores the next 50 µs (R265). The pad
of another output stays as it was last read. -/
def State.padsFollow (s old : State) : State :=
  (List.range 8).foldl (fun s k =>
    if s.commanded k = old.commanded k then s
    else
      let s := s.wbit TSK_OUTSTAT.RB k (s.commanded k)
      { s with tsk := { s.tsk with cmdAt := mset s.tsk.cmdAt k s.now } }) s

/-- ON follows R264, the pads follow the commands (R265), and the path-disagreement interval of each output begins and
ends (R269). -/
def State.outEval (s : State) : State :=
  let on := maskOf ((List.range 8).filter s.outOn)
  let s := if on = s.rf TSK_OUTSTAT.ON then s else (s.wf TSK_OUTSTAT.ON on).padsFollow s
  let path := (List.range 8).filterMap (fun k =>
    if (s.rf TSK_OUTREQ.REQ).testBit k && s.demanded k then
      some (k, mget (s.now, false) s.tsk.pathAt k)
    else none)
  if path = s.tsk.pathAt then s else { s with tsk := { s.tsk with pathAt := path } }

/-- An exclusive command runs, or this lane's part in a module command of a peer (R395, R398). -/
def State.outHold (s : State) : Bool :=
  s.rb HMB_SUMMARY.LONG || (match s.sec.proc with | some p => p.step != 12 | none => false)

/-- TSK_OUTREQ written; while an exclusive mailbox command runs, bits 0 and 4 stay 0 (R395). -/
def State.outReq (s : State) (v : Nat) : State :=
  let v := if s.outHold then clearBits 8 v 0x11 else v
  (s.wf TSK_OUTREQ.REQ v).outEval

/-! ### Leaving SERVICE (R249, R456) -/

/-- RMODE in both registers in one step; a fall raises 166 (R252, R279). -/
def State.setRmode (s : State) (m : Nat) : State :=
  let old := s.rmode
  let s := (s.wf LANE_STATE.RMODE m).wf TSK_MODESTAT.RMODE m
  if old < m then s.raiseEv 166 (m + old * 16) else s

/-- Units the services hold for a winding or circuit that is out (R197, R205, R401). -/
def State.svcHeld (s : State) : List Nat :=
  (if s.svc.wind.st = 2 then s.svc.wind.units else []) ++ (if s.svc.circ.st = 2 then s.svc.circ.units else [])

/-- The grant map of the active set applies again as the lane enters INTEGRATE (R27, R402); a unit that a service holds
stays with it, and one whose move runs follows the map after that move (R30). -/
def State.loadGrants (s : State) : State :=
  let held := s.svcHeld
  ((List.range 63).foldl (fun s u =>
    let o := s.lane.grantMap.getD u 1
    if u ∈ held then s else if s.moving u then s.moveTo u o else s.wf (LANE_GRANT.OWNER u) o) s).readmitAll

/-- The spring brakes are not released outside SERVICE in TRIAD or PAIR (R206): bits 0 and 4 of TSK_OUTREQ are 0. -/
def State.springRule (s : State) : State :=
  if s.st == stService && decide (s.rmode ≤ rmPair) then s
  else if s.rf TSK_OUTREQ.REQ &&& 0x11 = 0 then s else s.outReq (clearBits 8 (s.rf TSK_OUTREQ.REQ) 0x11)

/-- Blocks that start whenever the lane enters INTEGRATE, from SERVICE as from SELFTEST: feedback channels (R148), contexts
(R154), gate-link ports (R103) and the node (R321). -/
def State.startUnits (s : State) : State :=
  let s := (List.range 16).foldl (fun s n => if s.rb (FBC_CFG.EN n) then s.fbStart n else s) s
  let s := (List.range 256).foldl (fun s c => if s.rb (LPE_CTXCFG.EN c) then s.ctxStart c else s) s
  let s := (List.range 8).foldl (fun s n => if s.rb (GLK_PORTCFG.EN n) then s.glkBringup n else s) s
  s.nodeStart

/-- A lane whose claim turns unfit leaves SERVICE for INTEGRATE (R249). -/
def State.leaveService (s : State) : State :=
  if s.st ≠ stService then s
  else
    let s := (s.toSt stIntegrate).loadGrants.installCerts.startUnits
    let s := { s with lane := { s.lane with integAt := s.now, readyAt := none } }
    (s.setRmode rmHalt).outEval.springRule

/-- The lane's claim is judged again. -/
def State.judgeFit (s : State) : State := if s.st == stService && !s.fit then s.leaveService else s

/-- The Tailstock enters SAFE (R271): every output off, x-HLTH low. -/
def State.toSafe (s : State) (cause : Nat) : State :=
  if s.rb TSK_STAT.STATE then s
  else
    let s := (s.wb TSK_STAT.STATE true).wf TSK_STAT.SAFECAUSE cause
    let s := (s.wb TSK_STAT.HLTHON false).wb TSK_STAT.LEVEL false
    s.outEval.judgeFit

/-! ### Membership (R251) -/

/-- Peer `k` is a member: a fresh fit claim that is the newest, or a peer that entered SERVICE together with this lane,
for 3 ms (R251, R459). -/
def State.isMember (s : State) (k : Nat) : Bool :=
  let p := s.rdmPeer k
  (p.alive && (match p.claim with | some (_, f, v) => f && v | none => false)) ||
  (p.joint && s.bridgeUp k && decide (s.gt < s.lane.serviceGt + 3000000))

/-- The peers that are members. -/
def State.memberPeers (s : State) : List Nat := s.peersOf.filter s.isMember

/-- MEMBERS of TSK_MODESTAT, the own lane included while its claim is fit. -/
def State.memberMask (s : State) : Nat := maskOf (s.memberPeers ++ (if s.fit then [s.otp.lane] else []))

/-- The lane has a winding of a steering record that its votes do not name as out (R197). -/
def State.windHere (s : State) : Bool := s.steerRole != 0 && s.svc.wind.st != 2

/-- Lanes of the module with a winding in service: this lane and the members, unless their votes name it as out (R197). -/
def State.windLanes (s : State) : List Nat :=
  (if s.windHere then [s.otp.lane] else []) ++ s.memberPeers.filter (fun k => !(s.rdmPeer k).vote.any (·.windOut))

def State.windingsIn (s : State) : Nat := s.windLanes.length

/-- Stop cause bit 1 is present (R253): fewer than two windings in service, in a module that steers. -/
def State.windLow (s : State) : Bool := (s.steerRole != 0 || s.windingsIn != 0) && decide (s.windingsIn < 2)

/-- Stop cause bit 2 is present: a service item with fewer than two values at three consecutive instances. -/
def State.singleSource (s : State) : Bool := s.svc.single.any (fun x => decide (3 ≤ x.2))

/-! ### Modes and missions (R252 to R257) -/

/-- STOPGT in force: the earliest of the members in STOP, the own lane's included (R253). -/
def State.stopGtUpdate (s : State) : State :=
  if s.mission ≠ misStop then s
  else
    let l := s.memberPeers.filterMap (fun k => match (s.rdmPeer k).vote with
      | some v => if v.mission = misStop then some v.stopGt else none
      | none => none)
    let t := l.foldl min s.rdm.stopGt
    (s.setN TSK_STOPGTLO.adr t).setN TSK_STOPGTHI.adr (t / 2 ^ 32)

/-- The STOPGT in force. -/
def State.stopGt (s : State) : Nat := s.rn TSK_STOPGTLO.adr + s.rn TSK_STOPGTHI.adr * 2 ^ 32

/-- A stop cause arises (R253): the lane enters STOP, with its own STOPGT and 166 (R279). -/
def State.stopFor (s : State) (bit : Nat) : State :=
  let s := s.wbit TSK_MODESTAT.STOPCAUSE bit true
  if s.mission = misContinue then
    let s := { s.wf TSK_MODESTAT.MISSION misStop with rdm := { s.rdm with stopGt := s.gt } }
    let s := (s.setN TSK_STOPGTLO.adr s.gt).setN TSK_STOPGTHI.adr (s.gt / 2 ^ 32)
    s.raiseEv 166 (s.rmode + s.rmode * 16)
  else s

/-- The lane holds PARK (R254, R255). -/
def State.parkNow (s : State) : State :=
  if s.mission = misPark then s else ((s.wf TSK_MODESTAT.MISSION misPark).setRmode rmHalt).outReq 0

/-- What a member's vote imposes as it arrives: HELD, and a more severe mission (R252, R253). -/
def State.adoptVote (s : State) (v : Vote) : State :=
  let s := if v.held then s.wb TSK_MODESTAT.HELD true else s
  let s := if v.mission ≠ misContinue ∧ s.mission = misContinue then s.stopFor 3 else s
  if v.mission = misPark then s.parkNow else s

/-- RMODE by R252. -/
def State.modeStep (s : State) : State :=
  if !s.fit ∨ s.mission = misPark then s.setRmode rmHalt
  else if s.heldMode then s.setRmode rmSolo
  else
    let n := s.memberPeers.length + 1
    if n = 3 then s.setRmode rmTriad
    else if n = 2 then s.setRmode rmPair
    else (s.wb TSK_MODESTAT.HELD true).setRmode rmSolo

/-- Membership, mode and mission computed anew (R251 to R253), after a vote or when something they rest on changes. -/
def State.redecide (s : State) : State :=
  if !s.fit then ((s.wf TSK_MODESTAT.MEMBERS s.memberMask).setRmode rmHalt).springRule
  else
    let s := s.wf TSK_MODESTAT.MEMBERS s.memberMask
    let s := s.modeStep
    let s := if s.rmode = rmSolo then s.stopFor 0 else s
    let s := if s.windLow then s.stopFor 1 else s
    let s := if s.singleSource then s.stopFor 2 else s
    s.stopGtUpdate.springRule

/-- The lane's vote (R250). -/
def State.myVote (s : State) : Vote :=
  { fit := s.fit, seq := s.lane.hbSeq, inService := s.st == stService
    relayed := if s.otp.jv2g then [] else s.peersOf.filterMap (fun k => (s.rdmPeer k).direct.map (fun d => (k, d.1, d.2.1, d.2.2)))
    mission := s.mission, held := s.heldMode, stopGt := s.rdm.stopGt, causes := s.rf TSK_MODESTAT.STOPCAUSE
    srst := s.rdm.srst, windOut := !s.windHere, circOut := s.svc.circ.st != 1 }

/-- VOTE_SEND (R250, R252): at a change, and 1 ms after the last vote at the latest. -/
def execVoteSend (s : State) : Res :=
  s.whenB (s.st == stIntegrate || s.st == stService) fun s =>
    let s := s.redecide
    let s := s.bridgeAll clsVote (.vote s.myVote)
    { s with rdm := { s.rdm with lastVote := s.now, srst := false } }

/-- A claim of lane `k` (R251): newer ones replace, and a fit one keeps the lane alive. Once 3 ms have passed without any, a
claim that arrives is the newest, whatever its number: a lane that was reset counts anew (R35). -/
def State.claim (s : State) (k seq : Nat) (fit svc direct : Bool) : State :=
  let p := s.rdmPeer k
  let newer := match p.claim with
    | none => true
    | some (q, _, _) => if direct then decide ((seq + 2 ^ 32 - q) % 2 ^ 32 < 2 ^ 31) else decide ((seq + 2 ^ 32 - q - 1) % 2 ^ 32 < 2 ^ 31)
  if !newer && decide (s.now < p.claimAt + 3000000) then s
  else
    let p := { p with claim := some (seq, fit, svc), claimAt := s.now }
    s.setRdmPeer k (if fit then { p with alive := true, freshAt := s.now } else p)

/-- A relayed claim of lane `k`: one that the third lane only repeats has not arrived anew (R250, R251). -/
def State.relayedClaim (s : State) (k : Nat) (c : Bool × Bool × Nat) : State :=
  if (s.rdmPeer k).relay = some c then s
  else (s.setRdmPeer k { s.rdmPeer k with relay := some c }).claim k c.2.2 c.1 c.2.1 false

/-- A received vote (R250 to R253): the sender's claim, those it relays, its mission and flags. -/
def State.voteIn (s : State) (peer : Nat) (vote : Vote) : State :=
  if !((s.st == stIntegrate || s.st == stService) && s.bridgeUp peer && (s.peer peer).hb.state != stDebug) then s
  else
    let s := s.claim peer vote.seq vote.fit vote.inService true
    let s := s.setRdmPeer peer { s.rdmPeer peer with direct := some (vote.fit, vote.inService, vote.seq), vote := some vote }
    let s := if s.otp.jv2g then s else vote.relayed.foldl (fun s r => if r.1 != peer && s.isPeer r.1 then s.relayedClaim r.1 r.2 else s) s
    (if s.fit && s.isMember peer then s.adoptVote vote else s).redecide

/-- MEMBER_TIMEOUT (R251): 3 ms without a fit claim. -/
def execMemberTimeout (peer : Nat) (s : State) : Res :=
  let p := s.rdmPeer peer
  s.whenB (s.on && s.isPeer peer && p.alive && decide (p.freshAt + 3000000 ≤ s.now)) fun s =>
    (s.setRdmPeer peer { p with alive := false, claim := none }).redecide

/-- FITNESS_TIMEOUT (R249). -/
def execFitnessTimeout (s : State) : Res :=
  s.whenB (s.st == stService && !s.alignOk) fun s => s.leaveService

/-- PARK_ENTRY (R254, R255). -/
def execParkEntry (s : State) : Res :=
  s.whenB (s.on && s.mission == misStop && decide (s.stopGt + 30000000000 ≤ s.gt)) fun s => s.parkNow

/-- Mission reset (R257). -/
def State.missionReset (s : State) : State :=
  if s.svc.parkSince.isSome && s.fit && decide (1 ≤ s.memberPeers.length) && !s.windLow && !s.singleSource then
    let s := ((s.wf TSK_MODESTAT.MISSION misContinue).wb TSK_MODESTAT.HELD false).wf TSK_MODESTAT.STOPCAUSE 0
    let s := (s.setN TSK_STOPGTLO.adr 0).setN TSK_STOPGTHI.adr 0
    { s with rdm := { s.rdm with stopGt := 0 } }.redecide
  else s

/-! ### Safety inputs (R261 to R263) -/

def State.safeIn (s : State) (n : Nat) : SafeIn := mget {} s.tsk.ins n
def State.setSafeIn (s : State) (n : Nat) (x : SafeIn) : State := { s with tsk := { s.tsk with ins := mset s.tsk.ins n x } }

/-- Input `n` is in use and follows R261. -/
def State.inUse (s : State) (n : Nat) : Bool := s.tsk.live && s.rf (TSK_INCFG.TYPE n) != 0

/-- Demand and WAITRST of input `n` follow its state; then the outputs. -/
def State.inEval (s : State) (n : Nat) : State :=
  let x := s.safeIn n
  let manual := s.rb (TSK_INCFG.RESTART n)
  let disc := (s.rf TSK_INSTAT.DISC).testBit n
  let ok := x.healthy && !disc && (!manual || x.srst)
  let s := (s.wbit TSK_INSTAT.DEMAND n (!s.tsk.live || (s.inUse n && !ok))).wbit TSK_INSTAT2.WAITRST n (s.inUse n && x.healthy && !ok)
  s.outEval

/-- From INTEGRATE on inputs follow R261: unused ones leave demand, used ones start in demand. -/
def State.inputsLive (s : State) : State :=
  let s := { s with tsk := { s.tsk with live := true } }
  (List.range 8).foldl (fun s n => s.inEval n) s

/-- Channel values of an input. -/
def State.setLevels (s : State) (n : Nat) (a b : Bool) : State := (s.wbit TSK_INSTAT.LVLA n a).wbit TSK_INSTAT.LVLB n b

/-- The value of channel B for its pad level: of an antivalent input (TYPE 0b10) it is inverted (R261). -/
def State.chanB (s : State) (n : Nat) (pad : Bool) : Bool := if s.rf (TSK_INCFG.TYPE n) = 2 then !pad else pad

/-- SAFETY_INPUT_DEMAND (R261): a channel has been 0 for FILT samples; `padA` and `padB` are the present pad levels. -/
def execSafetyInputDemand (input : Nat) (padA padB : Bool) (s : State) : Res :=
  let b := s.chanB input padB
  s.whenB (s.on && s.inUse input && !(padA && b)) fun s =>
    let x := s.safeIn input
    let s := (s.setLevels input padA b).setSafeIn input { healthy := false, srst := false, zero := x.zero || (!padA && !b) }
    s.inEval input

/-- SAFETY_INPUT_HEALTHY (R261): both channels have been 1 for FILT samples. -/
def execSafetyInputHealthy (input : Nat) (s : State) : Res :=
  s.whenB (s.on && s.inUse input) fun s =>
    ((s.setLevels input true true).setSafeIn input { s.safeIn input with healthy := true }).inEval input

/-- DISCREPANCY_FAULT (R262). -/
def execDiscrepancyFault (input : Nat) (s : State) : Res :=
  s.whenB (s.on && s.inUse input) fun s =>
    let s := s.wbit TSK_INSTAT.DISC input true
    let s := (s.wf TSK_DISCINFO.INPUT input).incSat TSK_DISCINFO.COUNT
    let s := s.setSafeIn input { s.safeIn input with srst := false, zero := false }
    (s.raiseEv 160 input).inEval input

/-- DISCREPANCY_END (R262): the episode lasted some samples and ended without a fault. -/
def execDiscrepancyEnd (input samples : Nat) (s : State) : Res :=
  s.whenB (s.on && s.inUse input && decide (samples < 100 * s.rf (TSK_INCFG.TDISC input))) fun s =>
    let near := s.rf (TSK_INNEAR.NEAR input)
    let s := if near ≠ 0 ∧ 100 * near ≤ samples then s.incSat (TSK_NEARCNT.NEARMISS input) else s
    s.wf (TSK_NEARCNT.LONGEST input) (max (s.rf (TSK_NEARCNT.LONGEST input)) (min 65535 (samples / 100)))

/-! ### Readback and test pulses (R265, R266) -/

/-- READBACK_MISMATCH (R265): three samples, 50 µs after the last commanded change or later, in which the pad was not as
commanded. -/
def execReadbackMismatch (output : Nat) (padOn : Bool) (s : State) : Res :=
  let on := s.commanded output
  s.whenB (s.on && on != padOn && (s.tsk.cmdAt.find? (fun x => x.1 == output)).all (fun x => decide (x.2 + 50000 ≤ s.now))) fun s =>
    let s := (s.raiseEv 164 output).wbit TSK_OUTSTAT.RB output padOn
    if on then (s.wbit TSK_OUTSTAT.RBFAIL output true).outEval else s.toSafe 3

/-- GT of the newest test instant of output `k` at or before now (R266). -/
def State.testInstant (s : State) (k : Nat) : Option Nat :=
  let per := 1000000 * s.rf (TSK_OUTTEST.OTPER k)
  let ph := 1000000 * s.rf (TSK_OUTTEST.OTPH k)
  if per = 0 ∨ s.gt < ph then none else some ((s.gt - ph) / per * per + ph)

/-- TEST_PULSE_START (R266). -/
def execTestPulseStart (output : Nat) (s : State) : Res :=
  match s.testInstant output with
  | none => .next s
  | some t =>
    s.whenB (s.rb (TSK_OUTCFG.TESTEN output) && (s.rf TSK_OUTSTAT.ON).testBit output && mget 0 s.tsk.testGt output != t) fun s =>
      let s := (s.wbit TSK_OUTSTAT.TESTING output true).padsFollow s
      { s with tsk := { s.tsk with testGt := mset s.tsk.testGt output t } }

/-- A test pulse ends (R266): the output is on again, or with a stuck switch the Tailstock goes to SAFE. -/
def State.testEnd (s : State) (k : Nat) (stuck : Bool) : State :=
  if stuck then (s.toSafe 3).wbit TSK_OUTSTAT.TESTING k false
  else (s.wbit TSK_OUTSTAT.TESTING k false).padsFollow s

/-- TEST_PULSE_END (R266): a pad read on at the last sample is stuck on (R265). -/
def execTestPulseEnd (output : Nat) (padOn : Bool) (s : State) : Res :=
  s.whenB ((s.rf TSK_OUTSTAT.TESTING).testBit output &&
      decide (mget 0 s.tsk.testGt output + 10000 * s.rf (TSK_OUTCFG.OTW output) ≤ s.gt)) fun s =>
    if padOn then ((s.wbit TSK_OUTSTAT.RB output true).raiseEv 164 output).testEnd output true
    else s.testEnd output false

/-! ### Challenge (R267, R268) -/

/-- A challenge at a fire time `t` of its entry, with budget `b` (R267). -/
def State.challenge (s : State) (t b : Nat) : State :=
  let v := 1 + s.freeNat % (2 ^ 32 - 1)
  let s := (s.used 1).setN TSK_CHALLENGE.adr v
  let s := s.setN TSK_CHALDEM.adr (s.rf TSK_INSTAT.DEMAND + s.rf TSK_INSTAT.DISC * 256)
  { s with tsk := { s.tsk with chalEnd := some (t + b), resp := none } }

/-- The correct response (R267). -/
def State.rightResponse (s : State) : Nat :=
  crc32 (leBytes 4 (s.rn TSK_CHALLENGE.adr) ++ leBytes 4 (s.rn TSK_CHALDEM.adr))

/-- A write of TSK_RESPONSE: the first of the interval is taken (R268). -/
def State.responseWrite (s : State) (v : Nat) : State :=
  match s.tsk.chalEnd with
  | none => s
  | some t => if s.gt < t ∧ s.tsk.resp.isNone then { s with tsk := { s.tsk with resp := some v } } else s

/-- TSK_RESPONSE (R268). -/
def execTskResponse (req : Nat) (value : Word) (s : State) : Res :=
  s.whenOn fun s => s.granted req (24 + s.rf TSK_CHALCFG.ENTRY / 16) TSK_RESPONSE.adr false fun s => s.responseWrite value.toNat

/-- CHALLENGE_CHECK (R268). -/
def execChallengeCheck (s : State) : Res :=
  match s.tsk.chalEnd with
  | none => .next s
  | some t => s.whenB (s.on && decide (t ≤ s.gt)) fun s =>
      let right := s.tsk.resp == some s.rightResponse
      let s := { s with tsk := { s.tsk with chalEnd := none, resp := none } }
      if right then (s.incWrap TSK_CHALSTAT.OKCNT).wf TSK_CHALSTAT.FAILRUN 0
      else
        let n := min 2 (s.rf TSK_CHALSTAT.FAILRUN + 1)
        let s := ((s.raiseEv 163 0).incSat TSK_CHALSTAT.FAILCNT).wf TSK_CHALSTAT.FAILRUN n
        if n = 2 then s.toSafe 1 else s

/-- PATH_DISAGREE (R269): once for each interval. -/
def execPathDisagree (output : Nat) (s : State) : Res :=
  match s.tsk.pathAt.find? (fun x => x.1 == output) with
  | none => .next s
  | some (_, t, done) => s.whenB (s.on && !done && decide (t + 1000000 * s.rf TSK_CTRL.PDTIME ≤ s.now)) fun s =>
      { s.raiseEv 162 output with tsk := { (s.raiseEv 162 output).tsk with pathAt := mset s.tsk.pathAt output (t, true) } }

/-- SAMPLER_FAULT (R270). -/
def execSamplerFault (s : State) : Res := s.whenOn fun s => (s.raiseEv 165 0).toSafe 2

/-! ### Health output (R272) -/

/-- The lane is healthy. -/
def State.healthy (s : State) : Bool := s.fit && s.rf TSK_CHALSTAT.FAILRUN == 0

/-- The chain in which the lane was last seen not healthy: x-HLTH toggles at later multiples only (R272). -/
def State.hlthWatch (s : State) : State :=
  if s.healthy then s else { s with tsk := { s.tsk with hlthChain := s.gt / 500000 } }

/-- HEALTH_TOGGLE (R272): at a GT multiple of 500 000 ns, the first one after health returned or a later one. -/
def execHealthToggle (s : State) : Res :=
  s.whenB (s.healthy && decide (s.tsk.hlthChain < s.gt / 500000)) fun s =>
    let s := { s with tsk := { s.tsk with hlthChain := s.gt / 500000 } }
    (s.wb TSK_STAT.HLTHON true).wb TSK_STAT.LEVEL (!s.rb TSK_STAT.LEVEL)

/-- HEALTH_LOSS (R272). -/
def execHealthLoss (s : State) : Res :=
  s.whenB (s.on && s.rb TSK_STAT.HLTHON && !s.healthy) fun s => (s.wb TSK_STAT.HLTHON false).wb TSK_STAT.LEVEL false

/-! ### Safety reset (R273 to R277) -/

/-- What an accepted SRST does (R276). -/
def State.srstAccept (s : State) : State :=
  let s := (s.incSat TSK_SRSTSTAT.ACCEPTS).setN TSK_SRSTGT.adr s.gtLo
  let s := { s.wf TSK_OUTSTAT.RBFAIL 0 with rdm := { s.rdm with srst := true } }
  let s := (List.range 8).foldl (fun s n =>
    let x := s.safeIn n
    let clear := x.healthy && x.zero
    let s := if clear then s.wbit TSK_INSTAT.DISC n false else s
    let s := s.setSafeIn n { x with srst := x.healthy, zero := x.zero && !clear }
    s.inEval n) s
  s.outEval.missionReset

/-- SRST_RELEASE (R273): the press ends after `samples` samples. -/
def execSrstRelease (samples : Nat) (s : State) : Res :=
  s.whenOn fun s =>
    let jam := s.rb TSK_SRSTSTAT.JAMMED
    let bad := s.tsk.pressBad
    let s := ({ s with tsk := { s.tsk with pressBad := false } }.wf TSK_INSTAT2.SRSTLVL 0).wb TSK_SRSTSTAT.JAMMED false
    let s := s.wf TSK_SRSTSTAT.LASTP (min 65535 (samples / 100))
    if 10000 ≤ samples ∧ samples ≤ 500000 ∧ !jam ∧ !bad then s.srstAccept else s

/-- SRST_JAMMED (R274). -/
def execSrstJammed (s : State) : Res :=
  s.whenB (s.on && !s.rb TSK_SRSTSTAT.JAMMED) fun s =>
    let s := (s.wf TSK_INSTAT2.SRSTLVL (1 + s.freeNat % 3)).used 1
    (s.wb TSK_SRSTSTAT.JAMMED true).raiseEv 161 8

/-- SRST_DISCREPANCY (R275). -/
def execSrstDiscrepancy (s : State) : Res :=
  s.whenB (s.on && !s.tsk.pressBad) fun s =>
    let s := (s.wf TSK_INSTAT2.SRSTLVL (1 + s.freeNat % 2)).used 1
    let s := { s with tsk := { s.tsk with pressBad := true } }
    ((s.wf TSK_DISCINFO.INPUT 8).incSat TSK_DISCINFO.COUNT).raiseEv 160 8

end Sys2Proof.Machine
end

