-- ==== Sys2Proof/Machine/Image.lean ====
section
/-! DEFINITION. Parameter images (R426, R427, Tables SEC-7 and SEC-8): their layout, and what loading one sets. -/

namespace Sys2Proof.Machine

/-- LENGTH of the header. -/
def imgLength (im : Img) : Nat := imgWord im 8

/-- The bytes of the image proper, 0 to LENGTH − 1. -/
def imgAll (im : Img) : List Byte := imgBytes im 0 (imgLength im)

/-- The registers of the blocks' areas, by the offset of the area: each area packs its words in offset order
(Table SEC-7). -/
def imgAreas : List (Nat × List Nat) :=
  let r := List.range
  [(0x0180, [LANE_PROFILE.adr, PMU_MONCFG.adr, PMU_VIOCFG.adr, PMU_WDCFG.adr, PMU_STARTCFG.adr, TLY_CTRL.adr,
      TLY_FWCLASS.adr, SPI_CFG.adr] ++ (r 8).flatMap (fun c => [HMB_CHCFG.adr c, HMB_CHPATH.adr c])),
   (0x0200, [SPN_CTRL.adr, SPN_SYNCCFG.adr] ++ (r 16).map SPN_CLASSCFG.adr ++
      (r 256).flatMap (fun m => [SPN_PERIOD.adr m, SPN_PHASE.adr m, SPN_ACT.adr m])),
   (0x1000, (r 4).map PWM_TRIPCFG.adr ++ (r 8).flatMap (fun b => [PWM_BANKCFG.adr b, PWM_BANKPHASE.adr b]) ++
      (r 24).flatMap (fun m => [PWM_LEGSET.adr m, PWM_LEGREF.adr m])),
   (0x1400, (r 8).flatMap (fun n => [GLK_PORTCFG.adr n, GLK_PROTCFG.adr n, GLK_STATCFG.adr n])),
   (0x1600, (r 16).flatMap (fun n => [FBC_CFG.adr n, FBC_IDXCFG.adr n, FBC_IDXEXP.adr n, FBC_SPCFG.adr n,
      FBC_SENTCFG.adr n])),
   (0x1C00, [TSK_CTRL.adr] ++ (r 8).flatMap (fun n => [TSK_INCFG.adr n, TSK_INNEAR.adr n]) ++
      (r 8).flatMap (fun k => [TSK_OUTCFG.adr k, TSK_OUTTEST.adr k]) ++ [TSK_CHALCFG.adr]),
   (0x2000, (r 256).map TLY_SRCCFG.adr),
   (0x2400, (r 3).map SLP_PAIRCFG.adr ++ [LBR_AGRCFG.adr] ++
      (r 48).flatMap (fun i => [LBR_ITEMSRC.adr i, LBR_ITEMCFG.adr i])),
   (0x2800, (r 128).flatMap (fun q => [QUE_CFG.adr q, QUE_BASE.adr q]) ++ [ADC_CFG.adr] ++ (r 16).map ADC_SEQCFG.adr ++
      (r 2).flatMap (fun n => [CAN_CFG.adr n, CAN_NBT.adr n, CAN_DBT.adr n])),
   (0x3100, (r 34).flatMap (fun a => [ARB_CTL.adr a, ARB_PRIOLO.adr a, ARB_PRIOHI.adr a] ++ (r 16).map (ARB_TBL.adr a))),
   (0x3D00, [ANW_NODECFG.adr, ANW_PORTCFG.adr, ANW_BUFBASE.adr] ++
      (r 4).flatMap (fun s => [ANW_SETCFG.adr s, ANW_SETID.adr s]) ++ [AST_CFG.adr, AST_GUARDCFG.adr] ++
      (r 9).flatMap (fun n => [AST_PORTCFG.adr n, AST_PORTMAPLO.adr n, AST_PORTMAPHI.adr n])),
   (0x8000, (r 4).flatMap (fun s => (r 256).map (AST_WIN.adr s)))]

/-- The words of flow context `f`, at 0x4000 + 32 f. -/
def flowWords (f : Nat) : List Nat := [ANW_FLOWCFG.adr f, ANW_FLOWBUF.adr f] ++ (List.range 4).map (ANW_FLOWSLOT.adr f)

/-- Every (image offset, register) but the loop contexts. -/
def imgPlaces : List (Nat × Nat) :=
  (imgAreas ++ (List.range 512).map (fun f => (0x4000 + 32 * f, flowWords f))).flatMap
    (fun (a : Nat × List Nat) => (List.range a.2.length).map (fun i => (a.1 + 4 * i, a.2.getD i 0)))

/-- The bits of a register that an image sets: its CM fields, or all it lets be written where it has none; slot bytes
have bits 6:4 reserved. Port 8's words of a star read 0 and cannot be written (R333). -/
def imgMask (a : Nat) : Nat :=
  if a ∈ [AST_PORTCFG.adr 8, AST_PORTMAPLO.adr 8, AST_PORTMAPHI.adr 8] then 0
  else if 0x400C0140 ≤ a ∧ a < 0x400D0000 ∧ 0x40 ≤ a % 256 then 0x8F8F8F8F
  else match regRow a with
    | none => 0
    | some (r, _, _) => if r.cm ≠ 0 then r.cm else r.rw

/-- A register's word with the image's bits; EN of mailbox channel 0 reads 1 (HMB_CHCFGc). -/
def State.loadWord (s : State) (im : Img) (o a : Nat) : State :=
  let m := imgMask a
  let one := if a = HMB_CHCFG.adr 0 then 2 ^ 31 else 0
  s.setN a (clearBits 32 (s.rn a) m + ((imgWord im o &&& m) ||| one))

/-! ### The context list -/

/-- An entry of the context list: offset, engine, context and record mask. -/
structure CtxEnt where
  ofs : Nat
  eng : Nat
  ctx : Nat
  mask : Nat
  deriving DecidableEq, Repr

/-- Records of an entry. -/
def CtxEnt.recs (e : CtxEnt) : List Nat := bitList 4 e.mask

/-- Bytes of an entry. -/
def CtxEnt.size (e : CtxEnt) : Nat := 72 + 64 * e.recs.length

/-- The list from an offset, over at most `n` entries: it ends at an engine byte of 0xFF or at LENGTH. -/
def ctxList (im : Img) : Nat → Nat → List CtxEnt
  | 0, _ => []
  | n + 1, o =>
    if imgLength im ≤ o ∨ imgByte im o = 0xFF then []
    else
      let e : CtxEnt := ⟨o, imgByte im o, imgByte im (o + 1), imgByte im (o + 2)⟩
      e :: ctxList im n (o + e.size)

/-- The context list of an image. -/
def imgCtxs (im : Img) : List CtxEnt := ctxList im 256 0x9040

/-- The CM words of a context, offsets 0x00 to 0x40. -/
def ctxAddrs (c : Nat) : List Nat := (List.range 17).map (fun i => LPE_CTXCFG.adr c + 4 * i)

/-- A context taken from its entry: CM words, then records in mask order. -/
def State.loadCtx (s : State) (im : Img) (e : CtxEnt) : State :=
  let c := 64 * (e.eng % 4) + e.ctx % 64
  let s := (List.range 17).foldl (fun s i => s.loadWord im (e.ofs + 4 + 4 * i) (LPE_CTXCFG.adr c + 4 * i)) s
  (List.range e.recs.length).foldl (fun s k =>
    let r := e.recs.getD k 0
    (List.range 16).foldl (fun s w =>
      { s with lpe := { s.lpe with recs := mset s.lpe.recs (64 * c + 16 * r + w) (if w < recWords (s.rf (LPE_CTXCFG.LAW c)) r then imgWord im (e.ofs + 72 + 64 * k + 4 * w) else 0) } }) s) s

/-- The contexts as an image names them; one it does not list has EN 0. -/
def State.loadCtxs (s : State) (im : Img) : State :=
  let s := (List.range 256).foldl (fun s c =>
    if s.rb (LPE_CTXCFG.EN c) then (ctxAddrs c).foldl (fun s a => s.setReg a (regReset a)) s else s) s
  let s := { s with lpe := { s.lpe with recs := [] } }
  (imgCtxs im).foldl (fun s e => s.loadCtx im e) s

/-! ### The services' records, flows and items (R188, R191, R207, R208) -/

/-- Inputs of the services, by the model's own numbers. -/
def inAngle : Nat := 0
def inPedal : Nat := 1
def inSpeed : Nat := 2
def inMode : Nat := 3
def inFront : Nat := 4
def inRear : Nat := 5
def inDecel : Nat := 6
def inPark : Nat := 7
def inCabAngle : Nat := 8
def inCabPedal : Nat := 9
def inOuter : Nat := 10
def inTach (i : Nat) : Nat := 16 + i
def inTavail (i : Nat) : Nat := 20 + i
def inIq (k : Nat) : Nat := 24 + k

/-- Flows of the services: received 0 computer, 1 cab, 2 + i achieved of inverter i, 12 + k steering status of the front
winding in lane k; sent 8 steering status, 9 cab, 10 brake status, 11 regen request. The contexts are open (DESIGN
CHOICE, log entry 29). -/
def svcFlowOf (r : Nat) : Nat := Config.svcFlow r % 512

/-- The agreement item of an input (DESIGN CHOICE, log entry 29). -/
def svcItemOf (r : Nat) : Nat := Config.svcItem r % 48

/-- Lanes of a module. -/
def fittedLanes (jv2g : Bool) : List Nat := List.range (if jv2g then 2 else 3)

/-- The inputs that the services of a set name (R191). The pressure sensor of the lane's own circuit is not exchanged: no other lane
measures that pressure (DESIGN CHOICE, log entry 29). -/
def imgSvcInputs (jv2g : Bool) (im : Img) : List Nat :=
  let role := imgSteer im 0
  let brake := imgBrake im 0 % 2 == 1
  (if role = 0 then [] else if role = 1 then [inAngle, inMode, inFront, inRear, inCabAngle, inOuter]
    else [inAngle, inSpeed, inPedal] ++ (fittedLanes jv2g).map inIq) ++
  (if brake then (if role = 2 then [inDecel] else [inDecel, inCabPedal]) ++ (List.range (imgBrake im 8)).map inTach ++ (List.range (imgBrake im 8)).map inTavail else []) ++
  (if role = 0 ∧ !brake then [] else [inPark])

/-- The service flows of a set (Table SVC-5). -/
def imgSvcFlows (jv2g : Bool) (im : Img) : List Nat :=
  let role := imgSteer im 0
  let brake := imgBrake im 0 % 2 == 1
  (if role = 0 ∧ !brake then [] else [0]) ++ (if role = 1 ∨ (brake ∧ role ≠ 2) then [1] else []) ++
  (if role = 1 then [8] else if role = 2 then 9 :: (fittedLanes jv2g).map (12 + ·) else []) ++
  (if brake then 10 :: (if imgBrake im 0 / 2 % 2 = 1 then [11] else []) ++ (List.range (imgBrake im 8)).map (2 + ·) else [])

/-! ### Loading -/

/-- The owner codes of the grant map. -/
def imgGrants (im : Img) : List Nat := (List.range 63).map (fun u => imgByte im (0x40 + u))

/-- Every register of an image set, and the grant map kept for entries to INTEGRATE. -/
def State.loadRegs (s : State) (im : Img) : State :=
  let s := imgPlaces.foldl (fun s p => s.loadWord im p.1 p.2) s
  let s := (s.loadCtxs im).wf LANE_PROFILE.ACTIVE (imgByte im 4)
  { s with lane := { s.lane with grantMap := imgGrants im } }

/-- The lane with the owners of its grant map, and before it runs with its pairs as INITMODE starts them: so an image's
queues are admitted. -/
def State.asGranted (s : State) : State :=
  let t := (List.range 63).foldl (fun s u => s.wf (LANE_GRANT.OWNER u) (s.lane.grantMap.getD u 1)) s
  if s.up then t
  else (List.range 3).foldl (fun s p => if s.rb (SLP_PAIRCFG.INITMODE p) then s.wf (SLP_PAIRSTAT.STATE p) pairSplit else s) t

/-- The queues that the loaded words enable start as QUE_CONFIG starts them (R379); one that its image does not admit
stays disabled (R374). -/
def State.startQueue (s : State) (q : Nat) : State :=
  if s.rb (QUE_CFG.EN q) then
    let s := s.queEnable q (s.rn (QUE_CFG.adr q)) (s.rn (QUE_BASE.adr q))
    if (s.asGranted.admission q).1 then s else s.queOff q
  else s.queOff q

/-- Each arbiter works by its first table. -/
def State.startArb (s : State) (a : Nat) : State :=
  (((s.wb (ARB_CTL.ACTIVE a) false).wb (ARB_CTL.PEND a) false).setArbiter a { s.arbiter a with prioAt := none })

/-- The active set loaded at boot. -/
def State.bootImage (s : State) (im : Img) : State :=
  let s := s.loadRegs im
  let s := (List.range 34).foldl State.startArb s
  ((List.range 128).foldl State.startQueue s).portsJudge

/-- The I/O banks judged (R450): VIOOK, the condition source 9, x-EFL as the lane reads it, and the trip inputs, whose pads a faulted VIO2
takes to 0. -/
def State.vioJudge (s : State) : State :=
  let bad := s.vioFaults
  let s := s.wf PMU_STAT.VIOOK (clearBits 3 s.vioMon s.pmu.vioBad)
  let s := s.wb TLY_EFLSTAT.PAD (!s.rb TLY_EFLSTAT.DRIVE && !s.vioDead 0)
  let s := if bad = 0 then s.deassertSrc 9 else if s.asserted 9 then s else s.assertSrc 9 bad
  (List.range 4).foldl State.tripSee s

/-- A word of an image is another under a mask. -/
def imgDiffers (old s : State) (l : List Nat) : Bool := l.any (fun a => imgMask a &&& old.rn a != imgMask a &&& s.rn a)

/-- The words that make up the node's schedule sets (R312, R326). -/
def schedAddrs : List Nat :=
  (List.range 4).flatMap (fun k => [ANW_SETCFG.adr k, ANW_SETID.adr k]) ++
  (List.range 512).flatMap (fun f => (List.range 4).map (ANW_FLOWSLOT.adr f))

/-- A node that is not in OFF goes on with the schedule it had before an activation, until its restart (R328). -/
def State.keepSched (s old : State) : State :=
  if old.nodeSt = nodeOff then s
  else { s with anw := { s.anw with kept := (schedAddrs.filter (fun a => old.schedWord a != s.rn a)).map (fun a => (a, old.schedWord a)) } }

/-- Entries that are enabled or outstanding keep their words, and the new set's wait until R56 lets them be stored. -/
def State.keepEntries (s old : State) : State :=
  let s := { s with spn := { s.spn with waiting := [] } }
  (List.range 256).foldl (fun s m =>
    if old.entryBusy m && imgDiffers old s (entryAddrs m) then
      let x := (m, s.rn (SPN_PERIOD.adr m), s.rn (SPN_PHASE.adr m), s.rn (SPN_ACT.adr m))
      let s := (entryAddrs m).foldl (fun s a => s.setN a (old.rn a)) s
      { s with spn := { s.spn with waiting := s.spn.waiting ++ [x] } }
    else s) s

/-- A context that a new set changes starts (R154); a selector whose source it changes has read nothing yet. -/
def State.ctxRenew (s old : State) (c : Nat) : State :=
  let keep := fun (k : Nat) (st : SelSt) => if imgDiffers old s [LPE_CTXIN0.adr c + 4 * k] then {} else st
  let x := s.ctx c
  let elems := if imgDiffers old s [LPE_CTXIN0.adr c] then [] else x.elems
  (s.setCtx c { x with sel0 := keep 0 x.sel0, sel1 := keep 1 x.sel1, sel2 := keep 2 x.sel2, elems := elems }).ctxStart c

/-- A new set becomes active (step 11 of Table SEC-9): CM fields change, channels and contexts that it changes start
(R148, R154), its queues and tables apply, and units whose owner differs from its grant map move (R402); `held` names
the units a service holds. -/
def State.activateImage (old : State) (im : Img) (held : List Nat) : State :=
  let s := ((old.loadRegs im).keepSched old).keepEntries old
  let s := (List.range 34).foldl (fun s a => if imgDiffers old s (ARB_CTL.adr a :: (List.range 16).map (ARB_TBL.adr a)) then s.startArb a else s) s
  let s := (List.range 128).foldl (fun s q => if imgDiffers old s [QUE_CFG.adr q, QUE_BASE.adr q] then s.startQueue q else s) s
  let s := (List.range 256).foldl (fun s m => if imgDiffers old s [SPN_PERIOD.adr m, SPN_PHASE.adr m]
    then s.setEntry m { s.entry m with sinceGt := max (s.entry m).sinceGt (s.gt + 1) } else s) s
  let s := (List.range 16).foldl (fun s n =>
    if imgDiffers old s [FBC_CFG.adr n, FBC_IDXCFG.adr n, FBC_IDXEXP.adr n, FBC_SPCFG.adr n, FBC_SENTCFG.adr n] then s.fbStart n else s) s
  let s := if !old.up then s else
    let s := (List.range 256).foldl (fun s c =>
      if imgDiffers old s (ctxAddrs c) || (List.range 64).any (fun w => mget 0 old.lpe.recs (64 * c + w) != mget 0 s.lpe.recs (64 * c + w))
      then s.ctxRenew old c else s) s
    (List.range 63).foldl (fun s u =>
      if u ∈ held then s else s.moveTo u (s.lane.grantMap.getD u 1)) s.staleUpdate
  (if s.tsk.live then s.inputsLive else s.outEval).vioJudge.portsJudge

end Sys2Proof.Machine
end

