-- ==== Sys2Proof/Machine/Steelyard.lean ====
section
/-! DEFINITION. Steelyard's audit (R380 to R383). -/

namespace Sys2Proof.Machine

/-- The difference of queue `q` (Table STY-1 KIND 1): the first of its three balances that fails. -/
def State.queDiff (s : State) (q : Nat) : Int :=
  let x := mget {} s.sty.ques q
  let a : Int := ((s.free_ q + s.inflight q + s.held q : Nat) : Int) - (s.queSize q : Int)
  let b : Int := (s.inflight q : Int) - ((x.posts : Int) - (x.takes : Int))
  let c : Int := (s.held q : Int) - ((x.takes : Int) - (x.returns : Int))
  if a ≠ 0 then a else if b ≠ 0 then b else c

/-- The difference of flow context `f` (KIND 2 and 3): GOOD + LOST less the spans, modulo 2^16. -/
def State.flowDiff (s : State) (f : Nat) : Int :=
  toSigned 16 (s.rf (ANW_FLOWCNT.GOOD f) + s.rf (ANW_FLOWCNT.LOST f) + 65536 - mget 0 s.sty.spans f % 65536)

/-- The difference of Airum port `n` over the chain (KIND 4). -/
def State.portDiff (s : State) (n : Nat) : Int := ((mget 0 s.sty.goods n : Nat) : Int) - ((mget 0 s.sty.macs n : Nat) : Int)

/-- The difference of leg `m` beyond ±1 LSB, for the cycle completed in the chain (KIND 5). -/
def State.legDiff (s : State) (m : Nat) : Int :=
  match (s.leg m).cycle with
  | some d => if -1 ≤ d ∧ d ≤ 1 then 0 else d
  | none => 0

/-- The objects of an audit, as kind, index and difference. -/
def State.auditList (s : State) : List (Nat × Nat × Int) :=
  ((List.range 128).filter (fun q => s.rb (QUE_CFG.EN q))).map (fun q => (1, q, s.queDiff q)) ++
  ((List.range 512).filter (fun f => s.rb (ANW_FLOWCFG.EN f) && s.rb (ANW_FLOWSTAT.PRIMED f))).map
    (fun f => (if s.rb (ANW_FLOWCFG.DIR f) then 3 else 2, f, s.flowDiff f)) ++
  (List.range 9).map (fun n => (4, n, s.portDiff n)) ++
  (List.range 24).map (fun m => (5, m, s.legDiff m))

/-- An imbalance found: 211, the count, and the first one's record (R381). -/
def State.imbalance (s : State) (gt kind idx : Nat) (d : Int) : State :=
  let s := (s.incSat STY_STAT.FAILS).raiseEv 211 (idx + kind * 512)
  if s.rb STY_FAILINFO.VALID then s
  else (((s.setN STY_FAILINFO.adr (kind * 512 + idx)).hwBit STY_FAILINFO.VALID 0).setN STY_FAILDIFF.adr (satSigned32 d)).setN STY_FAILGT.adr gt

/-- STEELYARD_AUDIT (R381): at each GT multiple of 500 000 ns. -/
def execSteelyardAudit (s : State) : Res :=
  s.whenB (s.on && decide (s.sty.lastChain < s.gt / 500000)) fun s =>
    let gt := s.gt / 500000 * 500000
    let bad := s.auditList.filter (fun x => x.2.2 != 0)
    let s := bad.foldl (fun s x => s.imbalance gt x.1 x.2.1 x.2.2) s
    let s := { s with sty := { s.sty with lastChain := s.gt / 500000, goods := [], macs := [] } }
    let s := (List.range 24).foldl (fun s m => if (s.leg m).cycle.isNone then s else s.setLeg m { s.leg m with cycle := none }) s
    s.setN STY_AUDITGT.adr gt

end Sys2Proof.Machine
end

