-- ==== Sys2Proof/Machine/SecBase.lean ====
section
/-! DEFINITION. The check value and the notches (R420, R430, R436, R437): what the commands of the
security chapter share. -/

namespace Sys2Proof.Machine

/-- The slot of the set in force. -/
def State.activeSlot (s : State) : Nat := s.sec.slot

/-- The bank that the journal names as active, and the bank of a trial whose outcome is open (R442). -/
def State.bankActive (s : State) : Nat :=
  match s.newest (fun r => r.op == opUpdate && (r.step == updCommitted || r.step == updRevert)) with
  | some r => r.target % 2
  | none => 0

/-! ### Check value (R430) -/

/-- V of a digest: its first 40 bits, bit 7 of byte 0 first. -/
def valueOf (d : List Byte) : Nat := ofBe (d.take 5)

/-- A character of the RFC 4648 base-32 alphabet. -/
def b32Char (n : Nat) : Byte := if n < 26 then BitVec.ofNat 8 (65 + n) else BitVec.ofNat 8 (24 + n)

/-- V as eight characters, most significant five bits first. -/
def valueChars (v : Nat) : List Byte := (List.range 8).map (fun i => b32Char ((v >>> (5 * (7 - i))) % 32))

/-- V of the active set. -/
def State.activeV (s : State) : Nat := s.rn NCH_CHECKLO.adr + s.rn NCH_CHECKHI.adr % 256 * 2 ^ 32

/-! ### Notches (R436, R437) -/

/-- Budgets of Table NCH-1. -/
def notchBudget (n : Nat) : Nat := if n = 0 then 1024 else if n = 1 then 15 else if n = 2 then 3 else if n = 3 then 4 else 1

/-- One more bit of a counter programmed; the last one raises 227. -/
def State.notch (s : State) (n : Nat) : State :=
  let o := s.otp
  let u := s.notchUsed n + 1
  let o := if n = 0 then { o with used0 := u } else if n = 1 then { o with used1 := u } else if n = 2 then { o with used2 := u }
    else if n = 3 then { o with used3 := u } else { o with used4 := u }
  let s := { s with otp := o }
  if u = notchBudget n then s.raiseEv 227 n else s

/-- The notch-log entry of a notch (Table NCH-2), appended to both banks. -/
def State.notchLog (s : State) (n gt arg : Nat) : State :=
  let i := s.flash.log.length
  let b := leBytes 4 0x474C4E4A ++ leBytes 1 n ++ leBytes 1 s.otp.lane ++ leBytes 1 s.keySlot ++ [0] ++
    leBytes 4 (s.notchUsed n) ++ leBytes 4 i ++ leBytes 8 gt ++ s.serialBytes ++ leBytes 8 arg ++ List.replicate 24 0
  ({ s with flash := { s.flash with log := s.flash.log ++ [s.signed b] } }).bridgeAll clsBulk (.logCopy i)

/-! ### Tokens and orders (R413, R421, R424) -/

/-- Every rule disarms and no token is in force (R348, R424). -/
def State.endToken (s : State) : State :=
  if s.ast.tokenEnd.isNone then s else { s.armChange 0 with ast := { (s.armChange 0).ast with tokenEnd := none } }

/-- What an order changes beside its counter. -/
def State.orderEffect (s : State) (kind arg : Nat) : State :=
  if kind = 1 then s.endToken
  else if kind = 3 then { s with otp := { s.otp with seeds := s.otp.seeds ++ [ofLe (s.freeBytes 32)] } }.used 32
  else if kind = 4 then { s with otp := { s.otp with lockProf := arg } }
  else s

/-- ARG of the notch-log entry of an order (Table NCH-2). -/
def State.orderArg (s : State) (kind arg : Nat) : Nat :=
  if kind = 2 then s.otp.used1 else if kind = 3 then s.keySlot else if kind = 4 then arg else 0

/-- EFFECT: the change and the notch-log entry, beside the record. -/
def State.orderDone (s : State) (kind arg gt : Nat) : State :=
  let s := s.orderEffect kind arg
  s.notchLog (orderCounter kind) gt (s.orderArg kind arg)

/-- A reset while the record of a step is being written (R421): nothing of it is in flash, its copy in bank 0 is torn, that
copy stands, or bank 1's is torn beside it. Which is a free value (DESIGN CHOICE, log entry 24). What the step does beside an
ACTIVE or EFFECT record is done where the record stands. -/
def State.tearStep (s : State) : State :=
  match s.sec.proc with
  | none => s
  | some p =>
    match s.recInHand p with
    | none => s
    | some r =>
      let n := s.freeNat % 4
      let s := s.used 1
      if n = 0 then s
      else
        let s := if n = 1 then s
          else if p.kind = 1 ∧ p.step = 10 then s.notchLog 0 p.notchGt p.v
          else if p.kind = 2 ∧ p.step = 3 then s.orderDone p.order p.arg p.notchGt else s
        s.journal { r with copy0 := if n = 1 then .torn else .good, copy1 := if n = 3 then .torn else .blank }

/-- A reset less than 2 ms after a record that no step waits for: as `tearStep`, or the record stands whole. -/
def State.tearNow (s : State) : State :=
  match s.sec.recAt, s.flash.journal.getLast? with
  | some t, some r =>
    if s.now < t + 2000000 then
      let n := s.freeNat % 5
      let old := s.flash.journal.dropLast
      let s := s.used 1
      if n = 4 then s
      else
        let new : JRec := { r with copy0 := if n = 1 then .torn else .good, copy1 := if n = 3 then .torn else .blank }
        { s with flash := { s.flash with journal := if n = 0 then old else old ++ [new] } }
    else s
  | _, _ => s

/-- A reset may tear the journal record that is being written (R421). -/
def State.tearRec (s : State) : State := s.tearNow.tearStep

end Sys2Proof.Machine
end

