-- ==== Sys2Proof/Machine/Star.lean ====
section
/-! DEFINITION. The Airum star (chapter "Airum star, guardian windows and link fault injection"): windows, forwarding,
isolation, coldstart judgement, and the release of injected frames on Airum ports. -/

namespace Sys2Proof.Machine

/-- Violation kinds of AST_LASTVIOLn. -/
def violEarly : Nat := 1
def violLate : Nat := 2
def violNowin : Nat := 3
def violSender : Nat := 4
def violCut : Nat := 5
def violBurst : Nat := 6

/-- The lane is a main star. -/
def State.mainStar (s : State) : Bool := s.rf AST_CFG.MODE == 1

/-- The own node is ACTIVE or PASSIVE, in SYNCUP. -/
def State.ownIn (s : State) : Bool := s.nodeSt == nodeActive || s.nodeSt == nodePassive

/-! ### Isolation (R344 to R346) -/

/-- ISOLATED or ISO8 of AST_STAT follows ISO of a port. -/
def State.setIso (s : State) (n : Nat) (b : Bool) : State :=
  let s := s.wb (AST_PORTSTAT.ISO n) b
  if n = 8 then s.wb AST_STAT.ISO8 b else s.wbit AST_STAT.ISOLATED n b

/-- A port is isolated; at the ISOMAX-th isolation it stays so (R344, R346). -/
def State.isolate (s : State) (n : Nat) : State :=
  if s.rb (AST_PORTSTAT.ISO n) then s
  else
    let s := ((s.setIso n true).incSat (AST_PORTSTAT.ISOCNT n)).assertSrc 193 n
    let s := s.setStarPort n { s.starPort n with clean := 0 }
    if s.rf AST_GUARDCFG.ISOMAX ≤ s.rf (AST_PORTSTAT.ISOCNT n) then
      let s := s.wb (AST_PORTSTAT.PERM n) true
      if n < 8 then s.wbit AST_STAT.PERM n true else s
    else s

/-- A port is readmitted; 193 ends with the last isolated port. -/
def State.readmitPort (s : State) (n : Nat) : State :=
  let s := s.setIso n false
  if (List.range 9).any (fun k => s.rb (AST_PORTSTAT.ISO k)) then s else s.deassertSrc 193

/-- A violation recorded (R342 to R344): the port's last violation, its counts, and the isolation it may bring. -/
def State.violation (s : State) (n kind : Nat) (offs : Int) : State :=
  let p := s.starPort n
  let s := s.setStarPort n { p with viol := true, late := p.late || kind == violLate }
  let offs := if kind = violEarly ∨ kind = violLate ∨ kind = violCut then offs else 0
  let s := (s.setN (AST_LASTVIOL.adr n) (kind * 2 ^ 29 + ofSigned 16 (clampI (-32768) 32767 offs))).setN (AST_LASTVIOLGT.adr n) s.gtLo
  let s := if kind = violBurst then s else s.raiseEv 192 (n + kind * 16)
  let s := if kind = violCut then s.incSat (AST_PORTERR.CUT n) else if kind = violBurst then s else s.incSat (AST_PORTERR.START n)
  if kind = violLate then
    let s := if p.late then s else s.incSat (AST_PORTSTAT.LATERUN n)
    if !p.late ∧ s.rf AST_GUARDCFG.LATEN ≤ s.rf (AST_PORTSTAT.LATERUN n) then s.isolate n else s
  else
    let s := s.incSat (AST_PORTSTAT.VIOLS n)
    if s.rf AST_GUARDCFG.BABN ≤ s.rf (AST_PORTSTAT.VIOLS n) ∧ !s.rb (AST_PORTSTAT.ISO n) then
      (s.raiseEv 194 n).isolate n
    else s

/-! ### Windows (R341, R342) -/

/-- Node `v` is reached through port `n`: by the port's map, or the own node at port 8. -/
def State.mapped (s : State) (n v : Nat) : Bool :=
  if n = 8 then v == s.rf ANW_NODECFG.NODE
  else if v < 32 then (s.rf (AST_PORTMAPLO.NODES n)).testBit v else (s.rf (AST_PORTMAPHI.NODES n)).testBit (v - 32)

/-- A port is a trunk port. -/
def State.trunk (s : State) (n : Nat) : Bool := n != 8 && s.rb (AST_PORTCFG.TRUNK n)

/-- PDLY of a port in 1/16 ns; the internal port's delay is 0. -/
def State.pdly (s : State) (n : Nat) : Nat := if n = 8 then 0 else s.rn (AST_PORTDLY.adr n)

/-- A window of a port in one chain: its node, its start and end on NT in 1/16 ns. -/
structure Win where
  node : Nat
  start : Nat
  stop : Nat
  deriving DecidableEq, Repr

/-- The open windows of a port in chain `c` (R341). -/
def State.windows (s : State) (n c : Nat) : List Win :=
  let k := s.sset
  ((List.range 256).filter (fun i => s.rb (AST_WIN.EN k i) && s.mapped n (s.rf (AST_WIN.NODE k i)) &&
    c % 2 ^ s.rf (AST_WIN.REPEXP k i) == s.rf (AST_WIN.CHOFS k i))).map (fun i =>
      let start := c * 8000000 + 80000 * s.rf (AST_WIN.LK k i)
      ⟨s.rf (AST_WIN.NODE k i), start, start + 80000 * s.rf (AST_WIN.SPAN k i)⟩)

/-- Arrival less expected arrival in 1/16 ns. -/
def State.lateness (s : State) (n nt : Nat) (w : Win) : Int := (nt : Int) - ((w.start : Int) + 1280 + (s.pdly n : Int))

/-- An arrival lies within the tolerance of a window (R342). -/
def State.onTime (s : State) (n nt : Nat) (w : Win) : Bool :=
  let tol : Int := 16 * (s.rf AST_GUARDCFG.WTOL : Int)
  let d := s.lateness n nt w
  decide (-tol ≤ d) && decide (d ≤ tol + (if s.trunk n then 19200 else 0))

/-- The judgement of a frame from a source node (R342): the window it meets, or the kind of violation with the arrival
less the expected arrival. -/
def State.judge (s : State) (n nt node : Nat) : Win ⊕ (Nat × Int) :=
  let c := nt / 8000000
  let ws := s.windows n c ++ s.windows n (c + 1)
  match ws.find? (s.onTime n nt) with
  | some w => if w.node = node then .inl w else .inr (violSender, 0)
  | none =>
    match ws.find? (fun w => decide (w.start ≤ nt) && decide (nt < w.stop)) with
    | some w =>
      let d := s.lateness n nt w
      if w.node ≠ node then .inr (violSender, 0) else .inr (if d < 0 then violEarly else violLate, d / 16)
    | none => .inr (violNowin, 0)

/-! ### Forwarding (R334 to R337, R343) -/

/-- Byte time in ns at a port's rate; the internal port runs at the higher one. -/
def State.byteTime (s : State) (n : Nat) : Nat := if n = 8 ∨ s.rb (AST_PORTSTAT.RATE n) then 8 else 80

/-- A frame can leave through an output: a port with its link up, or the own node. -/
def State.outUp (s : State) (n : Nat) : Bool := n == 8 || (s.rb (AST_PORTCFG.EN n) && s.rb (AST_PORTSTAT.LINKUP n))

/-- The outputs of a frame from an input (R334): a main star sends to every other port; a satellite's local frames go to
the trunk and the other local ports, its trunk's frames to every local port but the sender's, and coldstart frames of
its local ports to the trunk only. -/
def State.outputs (s : State) (n node : Nat) (cold : Bool) : List Nat :=
  let others := (List.range 9).filter (fun k => k != n && s.outUp k)
  if s.mainStar then others
  else if s.trunk n then others.filter (fun k => !s.mapped k node)
  else if cold then others.filter s.trunk
  else others.filter (fun k => k != 8)

/-- CORR of a frame increased by a residence in 1/16 ns. -/
def addCorr (l : List Byte) (d : Nat) : List Byte := sliceB l 0 26 ++ leBytes 4 (leAt l 26 4 + d) ++ l.drop 30

/-- One output of a forwarded frame: launched under R335, within 8 ns after it, its residence in CORR and its FCS
formed anew (R336); a frame that would pass the end of its window is cut (R343). -/
def State.forwardTo (s : State) (n out : Nat) (fr : AirumFrame) (hold : Nat) (win : Option Win) (nt : Nat) : State :=
  let a := fr.sfdGt
  let len := fr.bytes.length + 4
  let bi := s.byteTime n
  let bo := s.byteTime out
  let base := max (max (a + 12 * bi + 200) (a + len * bi + 200 - len * bo)) hold
  let launch := base + s.freeNat % 9
  let s := s.used 1
  let corr := 16 * (launch - a) + (if s.trunk n then s.pdly n else 0)
  let bytes := addCorr fr.bytes corr
  let stop := win.map (fun w => ((w.stop : Int) - s.anw.o) / 16 - 12 * bo)
  let h := hdrOf fr.bytes
  match stop with
  | some e =>
    if e < (launch + len * bo : Nat) then
      { s with ast := { s.ast with cuts := s.ast.cuts ++
        [{ input := n, output := out, bytes := bytes.take ((e.toNat - launch) / bo), launch, cutGt := e.toNat
           offs := (win.map (s.lateness n nt)).getD 0 / 16, arrived := a }] } }
    else s.sendInj injAirumTx out h.flow h.seq (.airum out bytes true launch)
  | none => s.sendInj injAirumTx out h.flow h.seq (.airum out bytes true launch)

/-- A frame forwarded from an input to its outputs, not before `hold`; the own node sends nothing while it is isolated
(R345, R346). A frame that no output takes is not forwarded, and counts as none. -/
def State.forward (s : State) (n : Nat) (fr : AirumFrame) (cold : Bool) (hold : Nat) (win : Option Win) (nt : Nat) : State :=
  let outs := s.outputs n (sourceNode fr.bytes) cold
  let s := outs.foldl (fun s k => s.forwardTo n k fr hold win nt) s
  if outs.isEmpty then s else s.incWrap (AST_PORTFWD.FRAMES n)

/-- The DLY of a sync frame from a node attached directly at a port becomes its PDLY (R342). -/
def State.learnDly (s : State) (n : Nat) (fr : AirumFrame) : State :=
  let h := hdrOf fr.bytes
  let p := payloadOf fr.bytes
  let good := e2eGood s.chanCode (s.schedWord (ANW_SETID.adr h.sset)) fr.bytes
  if n ≠ 8 ∧ !s.trunk n ∧ h.kind = kindSync ∧ fr.fcsOk ∧ h.len = 20 ∧ h.ver = 1 ∧ good then
    (s.setN (AST_PORTDLY.adr n) (leAt p 16 4)).setStarPort n { s.starPort n with learned := true }
  else s

/-- An echo frame answered with its payload, launched 1 000 ns after the SFD end of the request (R311, R332). -/
def State.echoReply (s : State) (n : Nat) (fr : AirumFrame) : State :=
  let h := hdrOf fr.bytes
  let gt := fr.sfdGt + 1000
  s.sendInj injAirumTx n flowEcho h.seq (.airum n (airumBytes s.chanCode (s.schedWord (ANW_SETID.adr h.sset))
    { h with node := s.rf ANW_NODECFG.NODE, corr := 0 } (payloadOf fr.bytes)) fr.fcsOk gt)

/-- A frame in start-up mode passes its port at most once in 250 000 ns (R338). -/
def State.burst (s : State) (n : Nat) (fr : AirumFrame) (k : State → State) : State :=
  match (s.starPort n).passed with
  | some t => if fr.sfdGt < t + 250000 then s.violation n violBurst 0
      else k (s.setStarPort n { s.starPort n with passed := some fr.sfdGt })
  | none => k (s.setStarPort n { s.starPort n with passed := some fr.sfdGt })

/-- A coldstart frame held by a main star (R339): it collides with the frames of other nodes within 5 000 ns of it. -/
def State.holdCold (s : State) (n : Nat) (fr : AirumFrame) : State :=
  let node := sourceNode fr.bytes
  let near := fun (h : Hold) => h.node != node && decide (fr.sfdGt ≤ h.frame.sfdGt + 5000) && decide (h.frame.sfdGt ≤ fr.sfdGt + 5000)
  let hits := s.ast.holds.any near
  let holds := s.ast.holds.map (fun h => if near h then { h with collides := true } else h)
  { s with ast := { s.ast with holds := holds ++ [{ port := n, node, frame := fr, collides := hits }] } }

/-- Start-up mode (R338 to R340); a satellite whose trunk is down admits no coldstart frame (R347). -/
def State.startUpIn (s : State) (n : Nat) (fr : AirumFrame) (h : AirumHdr) : State :=
  if h.kind = kindSync then s.burst n fr fun s =>
    if s.rb (AST_PORTSTAT.ISO n) then s else (s.learnDly n fr).forward n fr false 0 none 0
  else if h.kind = kindCold then
    if s.nodeSt = nodeSyncup ∧ !h.coll then s
    else s.burst n fr fun s =>
      if s.rb (AST_PORTSTAT.ISO n) then s
      else if h.coll then s.forward n fr true 0 none 0
      else if s.mainStar then s.holdCold n fr
      else if (s.outputs n (sourceNode fr.bytes) true).isEmpty then s
      else (s.forward n fr true 0 none 0).incSat AST_CSCNT.ADMITTED
  else s

/-- A frame judged against the windows of its port (R342, R345); a coldstart frame has none (R340). -/
def State.windowIn (s : State) (n : Nat) (fr : AirumFrame) (h : AirumHdr) : State :=
  let nt := s.nt16 fr.sfdGt
  if h.kind = kindCold then s.violation n violNowin 0 else
  match s.judge n nt (sourceNode fr.bytes) with
  | .inl w => if s.rb (AST_PORTSTAT.ISO n) then s else (s.learnDly n fr).forward n fr false 0 (some w) nt
  | .inr (kind, d) => s.violation n kind d

/-- A frame at a star port after injection. -/
def State.starRx (s : State) (n : Nat) (fr : AirumFrame) : State :=
  let h := hdrOf fr.bytes
  if !airumRange s.chanCode fr.bytes then s
  else if h.kind = kindEcho then s.echoReply n fr
  else if s.rb AST_STAT.ENFORCE then s.windowIn n fr h
  else s.startUpIn n fr h

/-- STAR_FRAME_RECEIVE (R334, R338, R342). -/
def execStarFrameReceive (port : Nat) (frame : AirumFrame) (s : State) : Res :=
  s.whenB (s.on && s.isStar && s.outUp port) fun s =>
    let h := hdrOf frame.bytes
    s.recvInj injAirumRx port h.flow h.seq (.starFrameReceive (Fin.ofNat 9 port) frame)
      (fun p fix c => match c with | .starFrameReceive n f => some (.starFrameReceive n (airumFlip p fix f)) | c => some c)
      (fun d c => match c with | .starFrameReceive n f => .starFrameReceive n { f with sfdGt := f.sfdGt + d } | c => c)
      (fun c s => match c with | .starFrameReceive n f => s.starRx n f | _ => s)

/-- FRAME_CUT (R343): at an output whose forwarded frame has reached the end of its window; the frame is one violation of
its input port. -/
def execFrameCut (input output : Nat) (s : State) : Res :=
  let mine := fun (c : CutDue) => c.input == input && c.output == output
  match s.ast.cuts.find? mine with
  | none => .next s
  | some d => s.whenB (s.on && decide (d.cutGt ≤ s.gt)) fun s =>
      let rest := (s.ast.cuts.filter (fun c => c != d)).map
        (fun c => if c.input = input ∧ c.arrived = d.arrived then { c with counted := true } else c)
      let s := { s with ast := { s.ast with cuts := rest } }
      let h := hdrOf d.bytes
      let s := s.sendInj injAirumTx output h.flow h.seq (.airum output d.bytes false d.launch)
      if d.counted then s else s.violation input violCut d.offs

/-- A collision notice sent to a port (R309, R339). -/
def State.notice (s : State) (n : Nat) : State :=
  let node := s.rf ANW_NODECFG.NODE
  let (s, q) := s.nextSeq (flowSync node)
  let s := s.incSat AST_CSCNT.NOTICES
  s.sendInj injAirumTx n (flowSync node) q (.airum n (airumBytes s.chanCode (s.schedWord (ANW_SETID.adr s.sset))
    { flow := flowSync node, sset := s.sset, node, kind := kindCold, ch := s.gtChain, lk := s.gt % 500000 / 5000
      coll := true, len := 20, seq := q } (List.replicate 20 0)) true s.gt)

/-- COLDSTART_HOLD_END (R339): the hold that ends first; a frame 5 000 ns later still collides (R347), and a port isolated
meanwhile forwards nothing (R345). -/
def execColdstartHoldEnd (s : State) : Res :=
  match s.ast.holds.find? (fun h => !h.ended && decide (h.frame.sfdGt + 5000 < s.gt)) with
  | none => .next s
  | some h => s.whenOn fun s =>
      if !h.collides then
        let s := { s with ast := { s.ast with holds := s.ast.holds.filter (· != h) } }
        if s.rb (AST_PORTSTAT.ISO h.port) || (s.outputs h.port (sourceNode h.frame.bytes) true).isEmpty then s
        else (s.forward h.port h.frame true (h.frame.sfdGt + 5000) none 0).incSat AST_CSCNT.ADMITTED
      else
        let holds := s.ast.holds.map (fun x => if x = h then { x with ended := true } else x)
        let group := holds.filter (·.collides)
        if group.all (·.ended) then
          let s := { s with ast := { s.ast with holds := holds.filter (fun x => !x.collides) } }
          group.foldl (fun s x => s.notice x.port) s
        else { s with ast := { s.ast with holds := holds } }

/-- A port at a chain boundary (R344 to R346): the counts of the chain begin anew; a clean chain counts towards
readmission. -/
def State.portBoundary (s : State) (n : Nat) : State :=
  let p := s.starPort n
  let s := s.wf (AST_PORTSTAT.VIOLS n) 0
  let s := if p.late then s else s.wf (AST_PORTSTAT.LATERUN n) 0
  let clean := if p.viol then 0 else p.clean + 1
  let s := s.setStarPort n { p with viol := false, late := false, clean }
  if s.rb (AST_PORTSTAT.ISO n) && !s.rb (AST_PORTSTAT.PERM n) && decide (s.rf AST_GUARDCFG.READMIT ≤ clean) then s.readmitPort n
  else s

/-- STAR_CHAIN_BOUNDARY (R338, R344 to R346). -/
def execStarChainBoundary (s : State) : Res :=
  s.whenB (s.on && s.isStar && decide (s.ast.chain < s.ntChain)) fun s =>
    let c := s.ntChain
    let s := (List.range 9).foldl (fun s n => s.portBoundary n) { s with ast := { s.ast with chain := c } }
    if s.ownIn && decide (s.anw.active < c) then s.wb AST_STAT.ENFORCE true else s

/-- Star ports as a lane starts them at INTEGRATE entry. -/
def State.starStart (s : State) : State :=
  if s.isStar then ((s.wb (AST_PORTSTAT.LINKUP 8) true).wb (AST_PORTSTAT.RATE 8) true).starDly else s

end Sys2Proof.Machine
end

