-- ==== Sys2Proof/Machine/Pairs.lean ====
section
/-! DEFINITION. Core pairs and the cross-lane agreement (chapter "Core pairs and redundant execution"). The programs of
the cores stand outside the model: what they do arrives as commands (OUTPUT_COMPARE, Machine/PairPort.lean). -/

namespace Sys2Proof.Machine

/-! ### State of a pair -/

/-- STATE of a pair with the summary bits that follow it. -/
def State.toPair (s : State) (p st : Nat) : State :=
  let s := s.wf (SLP_PAIRSTAT.STATE p) st
  let s := s.wbit SLP_SUMMARY.SPLIT p (st == pairSplit || st == pairSingle)
  s.wbit SLP_SUMMARY.FAILED p (st == pairFailed)

/-- LATENT and its summary bit (R233). -/
def State.setLatent (s : State) (p : Nat) (b : Bool) : State :=
  (s.wb (SLP_PAIRSTAT.LATENT p) b).wbit SLP_SUMMARY.LATENT p b

def State.latent (s : State) (p : Nat) : Bool := s.rb (SLP_PAIRSTAT.LATENT p)

/-- The other core of the pair, as an owner code. -/
def State.otherCore (s : State) (p : Nat) : Nat := 8 + 2 * p + (1 - s.rf (SLP_PAIRCFG.DESIG p))

/-- The leading core's token index: never back (R215). -/
def State.leadTo (s : State) (p n : Nat) : State :=
  let x := s.pair p
  (s.setPair p { x with lead := max x.lead n }).setN (SLP_TOKLO.adr p) (max x.lead n)

/-- The delay registers of a pair and SLP_PAIRSTATp.FIFO (R216). -/
def State.setFifo (s : State) (p : Nat) (l : List DelayEntry) : State :=
  (s.setPair p { s.pair p with fifo := l }).wf (SLP_PAIRSTAT.FIFO p) (min 32 l.length)

/-- The replay log of a pair and SLP_LOGp.FILL (R221). -/
def State.setLog (s : State) (p : Nat) (l : List LogRec) : State :=
  (s.setPair p { s.pair p with log := l }).wf (SLP_LOG.FILL p) (min 4096 l.length)

/-- The pair runs live: what waits at its port without an index gets the next ones, lowest vector first (R219, R222). -/
def State.goLive (s : State) (p : Nat) : State :=
  let x := s.pair p
  let events := x.events.filter (·.d.isSome) ++ indexed (x.lead + 1) (x.events.filter (·.d.isNone))
  (s.setPair p { x with events }).toPair p pairLocked

/-! ### The state digest and the checkpoint copies (R224, R225) -/

/-- The polynomial of the state digest (R224). -/
def digestPoly : Nat := 0x42F0E1EBA9EA3693

/-- The product of two polynomials modulo that of the digest. -/
def digestMul (a b : Nat) : Nat :=
  (msbBits 64 b).foldl (fun c bit => if bit then crcMsbStep 64 digestPoly c false ^^^ a else crcMsbStep 64 digestPoly c false) 0

/-- A CRC with `n` zero bytes more: times x^8n. -/
def digestSkip (c n : Nat) : Nat :=
  if n = 0 then c
  else ((bitList 19 n).foldl (fun (x : Nat × Nat × Nat) i =>
    let (c, b, k) := x
    let b := (List.range (i - k)).foldl (fun b _ => digestMul b b) b
    (digestMul b c, b, i)) (c, 256, 0)).1

/-- The CRC over a core's registers and its whole TCM, bytes not listed being 0 (R224; order of the bytes and bits: DESIGN
CHOICE, log entry 26). -/
def coreCrc (regs : List Byte) (ram : List Host.Cell) : Nat :=
  let step := fun (x : Nat × Nat) (m : Host.Cell) => (crcMsbBytes 64 digestPoly (digestSkip x.1 (m.1 - x.2)) [m.2], m.1 + 1)
  let (c, a) := ram.foldl step (crcMsbBytes 64 digestPoly 0 regs, 0x100000)
  digestSkip c (0x140000 - a)

/-- The CRC of core `c`. -/
def State.coreCrc (s : State) (c : Nat) : Nat := Machine.coreCrc (mget [] s.coreRegs c) (mget [] s.tcm c)

/-- The TCM page of an address, 1 KiB each (R225). -/
def tcmPage (a : Nat) : Nat := (a - 0x100000) / 1024 % 256

/-- The listed pages of one TCM image put into another. -/
def copyPages (pages : List Nat) (src dst : List Host.Cell) : List Host.Cell :=
  (src.filter (fun c => pages.contains (tcmPage c.1))).foldl (fun m c => memPut m c.1 c.2)
    (dst.filter (fun c => !pages.contains (tcmPage c.1)))

/-- A copy written: stamp, registers and the listed pages of the designated core (R225). -/
def CkCopy.write (c : CkCopy) (stamp : Nat) (regs : List Byte) (ram : List Host.Cell) (pages : List Nat) : CkCopy :=
  { stamp, regs, tcm := copyPages pages ram c.tcm, bad := c.bad.filter (fun k => !pages.contains k) }

/-- The newest copy with a correct ECC (R227, R230). -/
def SlpPair.newest (x : SlpPair) : Option CkCopy :=
  match x.copy0.bad.isEmpty, x.copy1.bad.isEmpty with
  | true, true => some (if x.copy0.stamp < x.copy1.stamp then x.copy1 else x.copy0)
  | true, false => some x.copy0
  | false, true => some x.copy1
  | false, false => none

/-- What a delivered event is: an interrupt, the Tally interrupt (`src` from 512) or the trap (`src` from 1024) (R295). -/
def PortEvent.out (e : PortEvent) (o : Nat) : OutMsg :=
  if 1024 ≤ e.src then .nmi o else if 512 ≤ e.src then .tallyIrq o else .irq o e.vector e.src

/-- An event given to its receiver; a trap may be held (R296). -/
def State.giveEvent (s : State) (o : Nat) (e : PortEvent) : State := if 1024 ≤ e.src then s.giveTrap o else s.emit (e.out o)

/-- Events held at the port of a pair that no longer runs LOCKED go to their receivers, as what they are (R222, R240). -/
def State.flushPort (s : State) (p : Nat) : State :=
  let l := (s.pair p).events
  let s := s.setPair p { s.pair p with events := [] }
  l.foldl (fun s e => match s.receiver e.owner with | some r => s.giveEvent r e | none => s) s

/-- The checkpoint due now, by a fire time or by force (R221, R223). -/
def State.ckptDue (s : State) (p gt : Nat) : State :=
  let s := s.setPair p { s.pair p with ckDue := some gt }
  if s.pairSt p = pairLocked then s.toPair p pairCkpt else s

/-! ### Failure (R232, R378) -/

/-- Fixed queue ends that name the failed pair or its cores, re-pointed; ADMIT and BOUND recomputed (R378). -/
def State.repointQueues (s : State) (p target : Nat) : State :=
  let mine := fun c => c == 2 + p || c == 8 + 2 * p || c == 9 + 2 * p
  ((List.range 128).foldl (fun s q =>
    let s := if mine (s.rf (QUE_CFG.PROD q)) then s.wf (QUE_CFG.PROD q) target else s
    let s := if mine (s.rf (QUE_CFG.CONS q)) then s.wf (QUE_CFG.CONS q) target else s
    s) s).readmitAll

/-- The pair's work goes to its re-home target, or to the Headstock. -/
def State.rehome (s : State) (p : Nat) : State :=
  let target := s.rehomeTarget p
  let new := target.getD 1
  let mine := [2 + p, 8 + 2 * p, 9 + 2 * p]
  let s := s.repointMoves mine new
  let s := (List.range 63).foldl (fun s u => if mine.contains (s.owner u) then s.startMove u new none else s) s
  let s := (s.setN SLP_REHOMEINFO.adr p).repointQueues p new
  match target with
  | some t => s.irqTo t 31 0
  | none => s

/-- PAIR_FAIL (R232): 147 unless 152 was raised; outputs and events held are gone, commands on the pair end FAILED. -/
def State.failPair (s : State) (p : Nat) (ecc : Bool) : State :=
  let s := if ecc then s.raiseEv 152 p else s.raiseEv 147 p
  let x := s.pair p
  let s := ((s.toPair p pairFailed).setLatent p false).setFifo p []
  let s := (s.wb (SLP_PAIRSTAT.SPLITREQ p) false).wb (SLP_PAIRSTAT.REJOINREQ p) false
  let s := s.setPair p { s.pair p with events := [], ckDue := none, resyncDue := false, resyncEnd := false, logDue := false, splitCh := none, rejoinCh := none }
  let s := match x.splitCh with | some c => s.finish c stFailed [] | none => s
  let s := match x.rejoinCh with | some c => s.finish c stFailed [] | none => s
  s.rehome p

/-! ### Restart (R227 to R231) -/

/-- Restarts of the pair that began within the last 1 000 000 000 ns (R231). -/
def State.recent (s : State) (p : Nat) : Nat :=
  (((s.pair p).restarts.take 2).filter (fun t => decide (s.gt < t + 1000000000))).length

/-- The events of a replay log, oldest first, with their delivery indices. -/
def logEvents (l : List LogRec) : List (Nat × PortEvent) :=
  l.reverse.filterMap (fun e => match e with
    | .event d v src o => some (d, { vector := v, src := src, owner := o })
    | .load _ _ _ => none)

/-- The newest good checkpoint copy restored to both cores: registers and every page written since (R227 steps 1 and 3). With
both copies bad the pair fails with 152; one bad copy is corrected and counted (R230). An event at the port loses its index. -/
def State.restore (s : State) (p cause st : Nat) : State :=
  let x := s.pair p
  match x.newest with
  | none => s.failPair p true
  | some c =>
    let s := if x.copy0.bad.isEmpty && x.copy1.bad.isEmpty then s else s.incSat (SLP_LOG.CKECC p)
    let s := (s.wf (SLP_LASTRST.CAUSE p) cause).setN (SLP_LASTRSTGT.adr p) s.gtLo
    let s := s.setPair p { s.pair p with
      began := s.gt, hush := max x.hush (x.rel + 1), lead := x.ck, trail := x.ck, copy0 := c, copy1 := c, again := logEvents x.log
      events := x.events.map (fun e => { e with d := none }) }
    let s := s.setN (SLP_TOKLO.adr p) x.ck
    let a := 8 + 2 * p
    let ram := fun k => copyPages x.dirty c.tcm (mget [] s.tcm k)
    let s := { s with tcm := mset (mset s.tcm a (ram a)) (a + 1) (ram (a + 1))
                      coreRegs := mset (mset s.coreRegs a c.regs) (a + 1) c.regs }
    ((s.setTrap (2 + p) x.ckTrap).setFifo p []).toPair p st

/-- PAIR_RESTART (R227, R231). -/
def State.restart (s : State) (p cause : Nat) : State :=
  if 2 ≤ s.recent p then s.failPair p false
  else
    let x := s.pair p
    let s := s.setPair p { x with restarts := (s.gt :: x.restarts).take 2, resyncDue := false, resyncEnd := false, logDue := false }
    (s.incSat (SLP_PAIRSTAT.RESTARTS p)).restore p cause pairRestart

/-- A full log while LATENT asks for the resynchronisation, once, and raises 151 (R221). -/
def State.latentFull (s : State) (p : Nat) : State :=
  let x := s.pair p
  if x.logDue || decide (x.log.length < 4096) then s
  else (s.raiseEv 151 p).setPair p { x with resyncDue := true, logDue := true }

/-- One more entry of the replay log; the entry that fills it forces a checkpoint, or while LATENT a resynchronisation,
and raises 151 (R221). -/
def State.logEntry (s : State) (p : Nat) (e : LogRec) : State :=
  let s := s.setLog p (e :: (s.pair p).log)
  if s.latent p then s.latentFull p
  else if (s.pair p).log.length = 4096 then (s.raiseEv 151 p).ckptDue p s.gt
  else s

/-- The cores of the pair run: LOCKED, in a replay once the reset is over, or resynchronising. -/
def State.coresRun (s : State) (p : Nat) : Bool :=
  let st := s.pairSt p
  st == pairLocked || st == pairResync || (st == pairRestart && decide ((s.pair p).began + 2000 ≤ s.gt))

/-- The event the port delivers next: of the lowest delivery index, of equal ones the first that arrived (R219). -/
def nextEvent (l : List PortEvent) : Option PortEvent :=
  l.foldl (fun (m : Option PortEvent) x =>
    match x.d, m.bind (·.d) with
    | none, _ => m
    | some _, none => some x
    | some a, some b => if a < b then some x else m) none

/-- The operand names the event. The spec gives the Tally interrupt and trap no vector number, so any operand names them
(DESIGN CHOICE, log entry 26). -/
def PortEvent.named (e : PortEvent) (vector : Nat) : Bool := e.vector == vector || decide (512 ≤ e.src)

/-- The leading core can take an event with delivery index `d`: it stands before that token, or may retire the tokens up to it
(R215, R219). -/
def State.leadTakes (s : State) (p d : Nat) : Bool := decide (d ≤ (s.pair p).lead + 1) || decide ((s.pair p).fifo.length < 32)

/-- An event of the replay log is given again at its index (R227, R234); it is in the log already. -/
def State.giveAgain (s : State) (p vector : Nat) : Res :=
  match (s.pair p).again with
  | [] => .next s
  | (d, e) :: rest => s.whenB (s.coresRun p && e.named vector && s.leadTakes p d) fun s =>
      ((s.setPair p { s.pair p with again := rest }).leadTo p (d - 1)).giveEvent (2 + p) e

/-- EVENT_DELIVERY (R219, R221, R227): the leading core takes the event before it retires token D, and the log keeps it; in a
replay the next event of the log is given again. -/
def execEventDelivery (pair vector : Nat) (s : State) : Res :=
  if s.pairSt pair ≠ pairLocked then s.giveAgain pair vector
  else match nextEvent (s.pair pair).events with
  | none => .next s
  | some e => s.whenB (e.named vector && s.leadTakes pair (e.d.getD 0)) fun s =>
      let x := s.pair pair
      let s := s.setPair pair { x with events := x.events.erase e }
      let d := e.d.getD 0
      ((s.leadTo pair (d - 1)).giveEvent (2 + pair) e).logEntry pair (.event d e.vector e.src e.owner)

/-! ### Checkpoints (R223 to R226, R233, R236, R238) -/

/-- A bit of an output flipped, numbered over token, address, data, byte enables and kind (R236). -/
def flipOut (o : CoreOut) (k : Nat) : CoreOut :=
  if k < 64 then { o with token := o.token ^^^ BitVec.ofNat 64 (2 ^ k) }
  else if k < 96 then { o with addr := o.addr ^^^ BitVec.ofNat 32 (2 ^ (k - 64)) }
  else if k < 128 then { o with data := o.data ^^^ BitVec.ofNat 32 (2 ^ (k - 96)) }
  else if k < 132 then { o with bytes := o.bytes ^^^ BitVec.ofNat 4 (2 ^ (k - 128)) }
  else { o with load := !o.load }

/-- What comparator `i` of a pair reports of two outputs, field by field (R217, R235). -/
def State.matches (s : State) (p i : Nat) (a b : CoreOut) : Bool := (mget none s.cmpStuck (2 * p + i)).getD (a == b)

/-- Comparator `i` passes both exercises with this bit (R236). -/
def State.exercised (s : State) (p i k : Nat) : Bool :=
  let a : CoreOut := { token := 0, addr := 0, data := 0, bytes := 0, load := false }
  !s.matches p i a (flipOut a k) && s.matches p i a a

/-- Both comparators pass the exercise. -/
def State.exerciseOk (s : State) (p : Nat) : Bool :=
  s.exercised p 0 (s.pair p).exBit && s.exercised p 1 (s.pair p).exBit

/-- The next exercise takes the next bit. -/
def State.exerciseNext (s : State) (p : Nat) : State := s.setPair p { s.pair p with exBit := ((s.pair p).exBit + 1) % 133 }

/-- A checkpoint written (R225): copy 0, then copy 1, the listed pages; then digest, token, fire time and the empty log. -/
def State.ckptWrite (s : State) (p gt : Nat) (pages : List Nat) : State :=
  let x := s.pair p
  let k := s.desigCore p
  let w := fun (c : CkCopy) => c.write (x.copy0.stamp + 1) (mget [] s.coreRegs k) (mget [] s.tcm k) pages
  let d := s.coreCrc k ^^^ Config.digestMask
  let s := s.setPair p { x with copy0 := w x.copy0, copy1 := w x.copy1, ck := x.lead, trail := x.lead, dirty := [], ckTrap := s.trapOf (2 + p) }
  let s := (s.setN (SLP_DIGLO.adr p) d).setN (SLP_DIGHI.adr p) (d / 2 ^ 32)
  let s := ((s.setN (SLP_CKTOK.adr p) x.lead).setN (SLP_CKGT.adr p) gt).wb (SLP_PAIRSTAT.CKVALID p) true
  (s.wf (SLP_LOG.DIRTY p) (min 255 pages.length)).setLog p []

/-- SPLIT_TAKE_EFFECT (R29, R238): both cores go on apart; the designated core keeps the pair's grants. -/
def State.splitNow (s : State) (p : Nat) : State :=
  let s := (s.toPair p pairSplit).wb (SLP_PAIRSTAT.SPLITREQ p) false
  let s := ((s.setTrap (8 + 2 * p) (s.trapOf (2 + p))).setTrap (9 + 2 * p) (s.trapOf (2 + p))).setTrap (2 + p) none
  let s := ((s.repoint [2 + p] (s.desigCore p)).flushPort p).readmitAll
  match (s.pair p).splitCh with
  | some c => (s.setPair p { s.pair p with splitCh := none }).finish c stOk []
  | none => s

/-- SPLIT_HANDOVER failure (R238): the pair stays LOCKED, the command ends FAILED, 148 is raised. -/
def State.splitFail (s : State) (p : Nat) : State :=
  if !s.rb (SLP_PAIRSTAT.SPLITREQ p) then s
  else
    let c := (s.pair p).splitCh
    let s := ((s.wb (SLP_PAIRSTAT.SPLITREQ p) false).raiseEv 148 p).setPair p { s.pair p with splitCh := none }
    match c with | some c => s.finish c stFailed [] | none => s

/-- A checkpoint with digests to compare. -/
def State.ckptFull (s : State) (p gt : Nat) (final : Bool) : State :=
  let differ := s.coreCrc (8 + 2 * p) != s.coreCrc (9 + 2 * p)
  let ok := s.exerciseOk p
  let s := s.exerciseNext p
  let s := if differ then s.raiseEv 145 p else s
  if !ok then
    let s := if differ then (s.setLatent p true).splitFail p else s
    (s.raiseEv 146 p).failPair p false
  else if differ then
    if final then s.restart p 4
    else (((s.setLatent p true).latentFull p).splitFail p).goLive p
  else
    let s := ((s.ckptWrite p gt (s.pair p).dirty).setLatent p false).goLive p
    if s.rb (SLP_PAIRSTAT.SPLITREQ p) then s.splitNow p else s

/-- A bit of a core's TCM flips, numbered from the start of the window. -/
def State.tcmFlip (s : State) (c n : Nat) : State :=
  let m := mget [] s.tcm c
  let a := 0x100000 + n / 8
  { s with tcm := mset s.tcm c (memPut m a (memByte m a ^^^ BitVec.ofNat 8 (2 ^ (n % 8)))) }

/-- A core's TCM after a disturbance of a bit of it, if any. -/
def State.disturbed (s : State) (c : Nat) (flip : Option (Fin 2097152)) : State :=
  match flip with
  | some n => s.tcmFlip c n.val
  | none => s

/-- CHECKPOINT (R223): a due checkpoint of a pair that has stopped for it, once the trailing core has caught up; while LATENT
only the exercise runs (R233). `flip` is a bit of the trailing core's TCM that a disturbance changed before it. -/
def execCheckpoint (pair : Nat) (flip : Option (Fin 2097152)) (s : State) : Res :=
  let x := s.pair pair
  s.whenB (s.pairSt pair == pairCkpt && x.fifo.isEmpty && x.trail == x.lead) fun s =>
    let gt := x.ckDue.getD s.gt
    let s := s.disturbed (s.otherCore pair) flip
    let s := s.setPair pair { x with ckDue := none, resyncEnd := false, resyncDue := x.resyncDue && !x.resyncEnd, logDue := x.logDue && !x.resyncEnd }
    if s.latent pair && !x.resyncEnd then
      let ok := s.exerciseOk pair
      let s := s.exerciseNext pair
      if ok then s.goLive pair else (s.raiseEv 146 pair).failPair pair false
    else s.ckptFull pair gt x.resyncEnd

/-- The replay has taken every entry of the log (R227 step 5): each event again, each load at its token. -/
def SlpPair.replayed (x : SlpPair) : Bool :=
  decide (x.rel ≤ x.lead) && x.again.isEmpty && x.log.all (fun e => match e with
    | .event _ _ _ _ => true
    | .load t _ _ => decide (t ≤ x.lead))

/-- RESTART_LIVE (R227 step 5, R234): the replay has passed RELTOK and the log is exhausted; a resynchronisation has also
reached its stop and ends with a checkpoint, a restart clears LATENT and takes a checkpoint that fell due meanwhile, or that the log
forces, which LATENT has left full (R221). -/
def execRestartLive (pair : Nat) (s : State) : Res :=
  let x := s.pair pair
  let st := s.pairSt pair
  s.whenB (x.replayed && ((st == pairRestart && decide (x.began + 2000 ≤ s.gt)) || (st == pairResync && decide (x.stop ≤ x.lead)))) fun s =>
    if st = pairResync then (s.setPair pair { x with resyncEnd := true }).toPair pair pairCkpt
    else
      let s := s.setLatent pair false
      if x.ckDue.isSome then s.toPair pair pairCkpt
      else if 4096 ≤ x.log.length then (s.setPair pair { x with ckDue := some s.gt }).toPair pair pairCkpt
      else s.goLive pair

/-- RESYNC (R221, R234): a LATENT pair at its idle strike, or with its log full. `flip` is a bit of a restored TCM, the leading
core's or the other's, that a disturbance changes. -/
def execResync (pair : Nat) (other : Bool) (flip : Option (Fin 2097152)) (s : State) : Res :=
  s.whenB (s.pairSt pair == pairLocked && s.latent pair && (s.pair pair).resyncDue) fun s =>
    let s := (s.setPair pair { s.pair pair with resyncDue := false, logDue := false, stop := (s.pair pair).lead }).restore pair 4 pairResync
    s.disturbed (if other then s.otherCore pair else s.desigCore pair) flip

/-! ### Split and rejoin (R238 to R240) -/

/-- SLP_SPLIT (R238). -/
def execSlpSplit (ch : Nat) (pair : Byte) (s : State) : Res :=
  s.mailCmd ch 0x0103 (.slpSplit (Fin.ofNat 8 ch) pair) fun s =>
    let p := pair.toNat
    let st := s.pairSt p
    if 2 < p ∨ st = pairOff ∨ st = pairFailed then s.finish ch stInvalidParam []
    else if st = pairSplit ∨ st = pairSingle then s.finish ch stOk []
    else if st = pairRestart ∨ st = pairResync ∨ st = pairRejoin ∨ s.latent p ∨ s.rb (SLP_PAIRSTAT.SPLITREQ p) then s.finish ch stBusy []
    else (s.wb (SLP_PAIRSTAT.SPLITREQ p) true).setPair p { s.pair p with splitCh := some ch }

/-- SLP_REJOIN (R239). -/
def execSlpRejoin (ch : Nat) (pair : Byte) (s : State) : Res :=
  s.mailCmd ch 0x0104 (.slpRejoin (Fin.ofNat 8 ch) pair) fun s =>
    let p := pair.toNat
    let st := s.pairSt p
    if 2 < p ∨ st = pairOff ∨ st = pairFailed then s.finish ch stInvalidParam []
    else if s.runsLocked p then s.finish ch stOk []
    else if st = pairRejoin ∨ s.rb (SLP_PAIRSTAT.REJOINREQ p) then s.finish ch stBusy []
    else (s.wb (SLP_PAIRSTAT.REJOINREQ p) true).setPair p { s.pair p with rejoinCh := some ch }

/-- The fire time of a pair's idle entry: a LATENT pair resynchronises, a pending rejoin begins (R234, R239). -/
def State.idleFire (s : State) (p t : Nat) : State :=
  let st := s.pairSt p
  if s.latent p ∧ (st = pairLocked ∨ st = pairCkpt) then s.setPair p { s.pair p with resyncDue := true }
  else if s.rb (SLP_PAIRSTAT.REJOINREQ p) ∧ (st = pairSplit ∨ st = pairSingle) then
    (s.setPair p { s.pair p with rejoinAt := t }).toPair p pairRejoin
  else s

/-- The end of a rejoin as a command: its channel answers. -/
def State.rejoinEnd (s : State) (p code : Nat) : State :=
  let c := (s.pair p).rejoinCh
  let s := (s.wb (SLP_PAIRSTAT.REJOINREQ p) false).setPair p { s.pair p with rejoinCh := none }
  match c with | some c => s.finish c code [] | none => s

/-- A failed rejoin (R240): 148, the designated core alone, with every grant of the other. -/
def State.rejoinFail (s : State) (p : Nat) : State :=
  let s := (s.raiseEv 148 p).toPair p pairSingle
  let s := ((s.repoint [s.otherCore p] (s.desigCore p)).flushPort p).readmitAll
  s.rejoinEnd p stFailed

/-- REJOIN (R239, R240): the copy of registers, TCM and token index, the exercise and the checkpoint of all pages; `flip` is
a bit of the copy that a disturbance changes before the checkpoint. -/
def execRejoin (pair : Nat) (flip : Option (Fin 2097152)) (s : State) : Res :=
  let x := s.pair pair
  s.whenB (s.pairSt pair == pairRejoin && decide (s.gt ≤ x.rejoinAt + 200000)) fun s =>
    let a := s.desigCore pair
    let b := s.otherCore pair
    let s := { s with tcm := mset s.tcm b (mget [] s.tcm a), coreRegs := mset s.coreRegs b (mget [] s.coreRegs a) }
    let s := s.disturbed b flip
    let ok := s.exerciseOk pair
    let s := s.exerciseNext pair
    if !ok then (s.raiseEv 146 pair).rejoinFail pair
    else if s.coreCrc a ≠ s.coreCrc b then s.rejoinFail pair
    else
      let s := ((s.setTrap (2 + pair) (s.trapOf a)).setTrap a none).setTrap b none
      let s := (s.ckptWrite pair x.rejoinAt (List.range 256)).goLive pair
      let s := (s.repoint [8 + 2 * pair, 9 + 2 * pair] (2 + pair)).readmitAll
      s.rejoinEnd pair stOk

/-- REJOIN_TIMEOUT (R240). -/
def execRejoinTimeout (pair : Nat) (s : State) : Res :=
  s.whenB (s.pairSt pair == pairRejoin && decide ((s.pair pair).rejoinAt + 200000 < s.gt)) fun s => s.rejoinFail pair

/-- INTEGRATE entry (R241): a pair in use starts from its start checkpoint, of all pages, with digests and exercise as at every
checkpoint (R223). -/
def State.startPair (s : State) (p : Nat) : State :=
  if !s.rb (SLP_PAIRCFG.EN p) then s
  else
    let a := 8 + 2 * p
    let s := s.setPair p { dirty := List.range 256 }
    let s := { s with coreRegs := mset (mset s.coreRegs a Config.coreRegs) (a + 1) Config.coreRegs }
    let s := (s.toPair p pairCkpt).ckptFull p s.gt false
    if s.rb (SLP_PAIRCFG.INITMODE p) && s.pairSt p == pairLocked then (s.toPair p pairSplit).readmitAll else s

/-! ### Agreement (R242 to R246) -/

/-- Order of a TYPE as an integer: signed, unsigned, IEEE total order (R244). -/
def agrKey (type w : Nat) : Int :=
  if type = 0 then toSigned 32 w
  else if type = 1 then (w : Int)
  else if w.testBit 31 then -((w - 2 ^ 31 : Nat) : Int) - 1 else (w : Int)

/-- The word is the missing marker of its TYPE (R243). -/
def agrMissing (type w : Nat) : Bool :=
  if type = 0 then w == 0x80000000 else if type = 1 then w == 0xFFFFFFFF else isNaN w

/-- The median of three by a key. -/
def median3 (key : Nat → Int) (a b c : Nat) : Nat :=
  if key a ≤ key b then (if key b ≤ key c then b else if key a ≤ key c then c else a)
  else (if key a ≤ key c then a else if key b ≤ key c then c else b)

/-- The mean of two by TYPE (R244). -/
def agrMean (type a b : Nat) : Nat :=
  if type = 0 then ofSigned 32 (Int.tdiv (toSigned 32 a + toSigned 32 b) 2)
  else if type = 1 then (a + b) / 2
  else fMeanIeee a b

/-- The result of the values present, earlier lane letter first (R244). -/
def agrResult (type rule : Nat) (l : List Nat) : Nat :=
  match l with
  | [a] => a
  | [a, b] =>
    let lo := if agrKey type a ≤ agrKey type b then a else b
    let hi := if agrKey type a ≤ agrKey type b then b else a
    if rule = 1 then lo else if rule = 2 then hi else agrMean type a b
  | [a, b, c] => median3 (agrKey type) a b c
  | _ => 0

/-- Lanes of the module this part holds. -/
def State.allLanes (s : State) : List Nat := if s.otp.jv2g then [0, 1] else [0, 1, 2]

/-- Copies of a lane's words with the running tag. -/
def tagged (t : Nat) (w : Option AgrWords) : Option (List Nat) :=
  match w with
  | some x => if x.tag = t then some x.words else none
  | none => none

/-- The first item in which two copies differ. -/
def firstDiff (n : Nat) (a b : List Nat) : Option Nat :=
  (List.range n).find? (fun i => a.getD i 0 != b.getD i 0)

/-- The copies a lane holds of lane `k`'s words (R243): own capture and relayed copies, or direct and through the third
lane. -/
def State.copies (s : State) (t k : Nat) : List (List Nat) :=
  let direct := tagged t (if k = s.otp.lane then s.agr.own else (s.agr.direct.find? (fun x => x.1 == k)).map (·.2))
  let via := (s.peersOf.filter (· != k)).filterMap (fun p => tagged t ((s.agr.via.find? (fun x => x.1 == 3 * p + k)).map (·.2)))
  direct.toList ++ via

/-- The words used for lane `k`, or the first inconsistent item that excludes it (R243). -/
def State.laneWords (s : State) (t n k : Nat) : Option (List Nat) ⊕ Nat :=
  match s.copies t k with
  | [] => .inl none
  | a :: rest =>
    match rest.findSome? (firstDiff n a) with
    | some i => .inr i
    | none => .inl (some a)

/-- One item's result written (R244). -/
def State.agrItem (s : State) (vals : List (Nat × List Nat)) (i : Nat) : State :=
  let type := s.rf (LBR_ITEMCFG.TYPE i)
  let have_ := vals.filter (fun v => decide (i < v.2.length) && !agrMissing type (v.2.getD i 0))
  if have_.length < s.rf (LBR_ITEMCFG.MINCNT i) then
    (s.setN (LBR_RESSTAT.adr i) 0).raiseEv 154 (i * 2 ^ 16)
  else
    let s := s.setN (LBR_RESULT.adr i) (agrResult type (s.rf (LBR_ITEMCFG.RULE i)) (have_.map (fun v => v.2.getD i 0)))
    s.setN (LBR_RESSTAT.adr i) (2 ^ 31 + maskOf (have_.map (·.1)) * 16 + have_.length)

/-- Received agreement words (R242): round-1 words are kept and relayed to both peers; relayed words are kept. -/
def State.agreementIn (s : State) (peer round origin : Nat) (tag : Word) (words : List Word) : State :=
  if !(s.on && s.bridgeUp peer && s.rb LBR_AGRCFG.EN) then s
  else
    let w : AgrWords := { tag := tag.toNat, words := words.map (·.toNat) }
    if round = 0 then
      let s := { s with agr := { s.agr with direct := mset s.agr.direct peer w } }
      if s.otp.jv2g then s
      else s.bridgeAll clsAgreement (.agreement 1 peer w.tag w.words)
    else { s with agr := { s.agr with via := mset s.agr.via (3 * peer + origin) w } }

/-- AGREEMENT_RESULT (R243 to R245): every result of the running instance at once. -/
def execAgreementResult (s : State) : Res :=
  match s.agr.own with
  | none => .next s
  | some own => s.whenB (s.on && s.rb LBR_AGRCFG.EN && !s.rb LBR_AGRSTAT.DONE) fun s =>
      let t := own.tag
      let n := s.rf LBR_AGRCFG.NITEMS
      let lanes := s.allLanes.map (fun k => (k, s.laneWords t n k))
      let vals := lanes.filterMap (fun x => match x.2 with | .inl (some w) => some (x.1, w) | _ => none)
      let excl := lanes.filterMap (fun x => match x.2 with | .inr i => some (x.1, i) | _ => none)
      let s := excl.foldl (fun s x => s.raiseEv 153 (x.1 + x.2 * 2 ^ 16)) s
      let s := (List.range n).foldl (fun s i => s.agrItem vals i) s
      let s := s.setN LBR_AGRSTAT.adr (2 ^ 31 + maskOf (vals.map (·.1)) * 256 + maskOf (excl.map (·.1)) * 16)
      { s with agr := { s.agr with took := s.agr.took || vals.any (fun v => v.1 == s.otp.lane) } }.setN LBR_AGRINST.adr t

/-- A capture at a fire time of the agreement entry (R242): the words go to both peers as round 1; DONE is cleared. -/
def State.agrCapture (s : State) (fire : Nat) (words : List Nat) : State :=
  let t := fire % 2 ^ 32
  let s := s.wb LBR_AGRSTAT.DONE false
  let s := { s with agr := { s.agr with own := some { tag := t, words } } }
  s.bridgeAll clsAgreement (.agreement 0 s.otp.lane t words)

end Sys2Proof.Machine
end

