-- ==== Sys2Proof/Machine/Reset.lean ====
section
/-! DEFINITION. How a lane reset begins (R454, R455). -/

namespace Sys2Proof.Machine

/-- CAUSE codes of Table PMU-1. -/
def rstPower : Nat := 0
def rstTally : Nat := 1
def rstThermal : Nat := 2
def rstPad : Nat := 3
def rstCommand : Nat := 4

/-- LANE_PROFILE.ACTIVE after a reset: the active parameter set's profile, byte 4 of its image; 1 before first
commissioning. -/
def State.profileReset (s : State) : Nat :=
  match s.activeRec with
  | some r => (memByte (s.slotImg (r.target % 2)) 4).toNat
  | none => 1

/-- The two copies agree, and no parity error stands (R299). -/
def TlySt.copiesAgree (t : TlySt) : Bool := t.diff.all (fun x => x.2 == 0) && t.badPar.isEmpty

/-- A reaction bit of a source, 4 EPIN to 0 IRQ; the LANE bit of sources 2, 4 and 5 is 1 (R291). -/
def State.react (s : State) (n bit : Nat) : Bool :=
  (s.rf (TLY_SRCCFG.REACT n)).testBit bit || (bit == 3 && (n == 2 || n == 4 || n == 5))

/-- A raise resets the lane. -/
def State.laneReacts (s : State) (r : Raise) : Bool := srcListed r.src && s.react r.src 3

/-- The oldest capture window with raises, once it has closed (R282). -/
def State.dueWindow (s : State) : List Raise :=
  match s.tly.raises with
  | [] => []
  | r :: l => if r.at_ < s.now then (r :: l).takeWhile (fun x => x.at_ == r.at_) else []

/-- What a lane reset keeps: flash, OTP, the registers of R294 and R454, and what stands outside the lane's own state
(commands that wait, elapsed time, the messages sent, the holds of Table PMU-1). The profile, the slot and V read as the
ACTIVE record says. A journal record that was being written may be torn (R421). -/
def State.afterReset (s : State) : State :=
  let s := s.tearRec
  let r : State := { State.reset with
    pending := s.pending, otp := s.otp, flash := s.flash, now := s.now, free := s.free, rdata := s.rdata, outbox := s.outbox
    pmu := { holdPower := s.pmu.holdPower, holdTherm := s.pmu.holdTherm, holdRstn := s.pmu.holdRstn, endAt := s.pmu.endAt
             vlaneLost := s.pmu.vlaneLost, beganAt := s.now, validAt := s.pmu.validAt, vioBad := s.pmu.vioBad
             lostRaise := s.dueWindow.find? s.laneReacts, lostSelf := !s.tly.copiesAgree }
    cmpStuck := s.cmpStuck
    fbc := { chans := s.fbc.chans.map (fun c => (c.1, { pins := c.2.pins, nextSample := c.2.nextSample })) }
    tly := { eflSince := s.now } }
  let r := ((r.setReg PMU_RSTSRC.adr (s.reg PMU_RSTSRC.adr)).setReg TLY_RSTCAUSE.adr (s.reg TLY_RSTCAUSE.adr))
  let r := (r.setReg TLY_RSTINFO.adr (s.reg TLY_RSTINFO.adr)).setReg TLY_RSTGT.adr (s.reg TLY_RSTGT.adr)
  let r := match s.activeRec with
    | some a => { r with sec := { r.sec with slot := a.target % 2 } }.setV a.v
    | none => r
  ((r.wf LANE_PROFILE.ACTIVE s.profileReset).wf LANE_STATE.PREV s.st).wf LANE_STATE.STATE stOff

/-- A power cause: RSTSRC, RSTCAUSE, RSTINFO and RSTGT as after a power reset (R294, R454). -/
def State.powerCause (s : State) : State :=
  ((s.setN PMU_RSTSRC.adr 0).setN TLY_RSTCAUSE.adr 0x80000000).setN TLY_RSTINFO.adr 0 |>.setN TLY_RSTGT.adr 0

/-- No reset ends before this time. -/
def State.holdUntil (s : State) (t : Nat) : State := { s with pmu := { s.pmu with endAt := max s.pmu.endAt t } }

/-- What a Tally reset records (R294, R454). -/
def State.tallyCause (s : State) (src detail gt : Nat) : State :=
  (((s.wf PMU_RSTSRC.CAUSE rstTally).setN TLY_RSTCAUSE.adr src).setN TLY_RSTINFO.adr detail).setN TLY_RSTGT.adr gt

/-- A raise of this instant, still on its way, that resets the lane. -/
def State.laneRaise (s : State) : Option Raise := s.tly.raises.find? (fun r => r.at_ == s.now && s.laneReacts r)

/-- A cause of Table PMU-1 arises: a reset begins, or the running one is extended and its cause kept, but for a power
cause, which replaces it (R454, R455); of causes that coincide the lowest is recorded. A Tally cause and a command hold the
lane for 50 µs. -/
def State.laneReset (s : State) (cause : Nat) : State :=
  let s := if cause = rstTally ∨ cause = rstCommand then s.holdUntil (s.now + 50000) else s
  if s.st = stOff then
    (if cause = rstPower then s.powerCause
     else if s.pmu.beganAt = s.now ∧ cause < s.rf PMU_RSTSRC.CAUSE then s.wf PMU_RSTSRC.CAUSE cause else s)
  else
    let r := s.afterReset
    if cause = rstPower then r.powerCause
    else
      let r := (r.incSat PMU_RSTSRC.COUNT).wf PMU_RSTSRC.CAUSE cause
      match s.laneRaise with
      | some x => if cause = rstTally then r else (r.holdUntil (s.now + 50000)).tallyCause x.src x.detail x.gt
      | none => r

/-- A lane reset by the Tally (R294); one that coincides with a cause of a higher code is the one recorded (R454). -/
def State.tallyReset (s : State) (src detail gt : Nat) : State :=
  if s.st = stOff then
    (if s.pmu.beganAt = s.now ∧ rstTally < s.rf PMU_RSTSRC.CAUSE then (s.holdUntil (s.now + 50000)).tallyCause src detail gt else s)
  else (s.laneReset rstTally).tallyCause src detail gt

end Sys2Proof.Machine
end

