-- ==== Sys2Proof/Machine/Tally.lean ====
section
/-! DEFINITION. The Tally (chapter "Tally fault collection"): sources, records, reactions, x-EFL. -/

namespace Sys2Proof.Machine

/-- RECCNT.STATE codes. -/
def tlyIdle : Nat := 0
def tlyOpen : Nat := 1
def tlyLatched : Nat := 2

def State.srcState (s : State) (n : Nat) : Nat := s.rf (TLY_RECCNT.STATE n)

/-! ### x-EFL (R297) -/

/-- Something drives x-EFL low: a source in fault with EPIN, FORCE, or no INTEGRATE since the reset. -/
def State.eflCause (s : State) : Bool :=
  s.rb TLY_CTRL.FORCE || !s.lane.integrated ||
  (List.range 256).any (fun n => s.srcState n != tlyIdle && s.react n 4)

/-- The summary for the peers; R34 lets a lane in INTEGRATE or SERVICE send it. -/
def State.sendSummary (s : State) : State :=
  s.bridgeAll clsSummary (.summary (s.rb TLY_EFLSTAT.DRIVE) (s.rf TLY_SUMMARY.FAULTCNT))

/-- x-EFL follows its causes, low for EFLMIN at least once driven low; a change reaches the peers. -/
def State.eflEval (s : State) : State :=
  let d := s.rb TLY_EFLSTAT.DRIVE
  let s' :=
    if s.eflCause then
      let t := (s.wb TLY_EFLSTAT.DRIVE true).wb TLY_EFLSTAT.HOLDMIN false |>.wb TLY_EFLSTAT.PAD false
      if d then t else { t with tly := { t.tly with eflSince := t.now } }
    else if d && decide (s.now < s.tly.eflSince + 1000000 * s.rf TLY_CTRL.EFLMIN) then s.wb TLY_EFLSTAT.HOLDMIN true
    else (s.wb TLY_EFLSTAT.DRIVE false).wb TLY_EFLSTAT.HOLDMIN false |>.wb TLY_EFLSTAT.PAD (!s.vioDead 0)
  if s'.rb TLY_EFLSTAT.DRIVE = d then s' else s'.sendSummary

/-! ### Raises (R284 to R296) -/

/-- A Tally interrupt (`trap` false) or trap to an owner code (R295); through the agreement port of a pair that runs
LOCKED or rejoins. -/
def State.tallyTo (s : State) (dest src : Nat) (trap : Bool) : State :=
  match s.receiver dest with
  | none => s
  | some r =>
    match ownerPair r with
    | none => s
    | some p =>
      if s.runsLocked p ∨ s.pairSt p = pairRejoin then
        (s.portEvent p dest s.freeNat (src + (if trap then 1024 else 512))).used 1
      else if trap then s.giveTrap r else s.emit (.tallyIrq r)

/-- The Tally interrupt of a receiver is asserted (R296): for the Headstock while any bit of TLY_NEWHk is 1, for a pair or core
while a bit of TLY_NEWAk is 1 whose source routes to it. -/
def State.tallyIrqOf (s : State) (r : Nat) : Bool :=
  if r = 1 then (List.range 8).any (fun k => s.rn (TLY_NEWH.adr k) != 0)
  else (List.range 256).any (fun n => (s.rn (TLY_NEWA.adr (n / 32))).testBit (n % 32) && s.receiver (s.rf (TLY_SRCCFG.DEST n)) == some r)

/-- A receiver clears NEW bits; one whose interrupt is still asserted takes it again (R8, R296). The Headstock's clear ends its trap
handler, which no row shows otherwise (DESIGN CHOICE, log entry 4). -/
def State.newClear (s : State) (req a v : Nat) : State :=
  let s := s.setN a (clearBits 32 (s.rn a) (s.w1c a v))
  let s := if req = 1 then s.trapEnd 1 else s
  match s.receiver req with
  | none => s
  | some r =>
    if !s.tallyIrqOf r then s
    else if s.runsLocked (r - 2) && decide (2 ≤ r) && decide (r ≤ 4) then (s.portEvent (r - 2) req s.freeNat 512).used 1
    else s.emit (.tallyIrq r)

/-- A source opens: its status bit, NEW bits, interrupts and traps (R284, R288, R289). -/
def State.openSrc (s : State) (r : Raise) : State :=
  let n := r.src
  let lim := s.rf (TLY_SRCCFG.LIMIT n)
  let latch := lim != 0 && s.rf (TLY_RECCNT.RECOV n) == lim
  let s := ((s.setN (TLY_RECFIRST.adr n) r.gt).setN (TLY_RECLAST.adr n) r.gt).setN (TLY_RECINFO.adr n) r.detail
  let s := { s with tly := { s.tly with quiet := mset s.tly.quiet n (s.rf (TLY_SRCCFG.QUIET n)) } }
  let s := (s.wf (TLY_RECCNT.MERGE n) 0).wf (TLY_RECCNT.STATE n) (if latch then tlyLatched else tlyOpen)
  let s := (s.wbit (TLY_STAT.FAULT (n / 32)) (n % 32) true).wf TLY_SUMMARY.FAULTCNT (s.rf TLY_SUMMARY.FAULTCNT + 1)
  let s := if latch then (s.wbit (TLY_LATCH.LATCHED (n / 32)) (n % 32) true).wf TLY_SUMMARY.LATCHCNT (s.rf TLY_SUMMARY.LATCHCNT + 1) else s
  let s := s.hwBit (TLY_NEWH.NEW (n / 32)) (n % 32)
  let s := if s.react n 0 || s.react n 1 then s.hwBit (TLY_NEWA.NEW (n / 32)) (n % 32) else s
  let dest := s.rf (TLY_SRCCFG.DEST n)
  let s := s.emit (.tallyIrq 1)
  let s := if s.react n 1 then (s.giveTrap 1).tallyTo dest n true else s
  (if s.react n 0 || s.react n 1 then s.tallyTo dest n false else s).sendSummary

/-- The unit that a raise's detail word names is reset (R293, Table TLY-3); ranges marked "Refused" have none. -/
def State.blkReset (s : State) (r : Raise) : State :=
  let n := r.src
  if 48 ≤ n ∧ n < 64 then s.bankStop (bits r.detail 10 8)
  else if 64 ≤ n ∧ n < 96 then
    let p := r.detail % 8
    if s.rb (GLK_PORTCFG.EN p) then s.glkBringup p else s
  else if 96 ≤ n ∧ n < 112 then
    let c := r.detail % 16
    if s.fbUse c then s.fbStart c else s
  else if 112 ≤ n ∧ n < 144 then s.ctxStart (r.detail % 256)
  else s

/-- One raise reaches the Tally: it opens or is merged, and BLK and LANE act (R284, R285, R289). -/
def State.raiseIn (s : State) (r : Raise) : State :=
  let n := r.src
  if !srcListed n ∨ s.st = stOff then s
  else
    let s :=
      if s.srcState n = tlyIdle then s.openSrc r
      else (s.incSat (TLY_RECCNT.MERGE n)).setN (TLY_RECLAST.adr n) r.gt
    let s := if s.react n 2 then s.blkReset r else s
    if s.react n 3 then s.tallyReset n r.detail r.gt else s

/-- The two copies are compared, at every change and every 10 µs (R299). -/
def State.selfCheck (s : State) : State := if s.tly.copiesAgree then s else s.tallyReset 0x100 0 s.gtLo

/-- The raises of one capture window, in one step (R282); in a reset that began at this moment one whose reaction is LANE is the cause
of it where the recorded code is higher (R454). -/
def State.raiseWindow (s : State) : State :=
  if s.on then
    let w := s.dueWindow
    let s := { s with tly := { s.tly with raises := s.tly.raises.drop w.length } }
    let s := w.foldl State.raiseIn s
    if s.on then s.eflEval.selfCheck else s
  else match s.pmu.lostRaise with
  | some r => s.tallyReset r.src r.detail r.gt
  | none => s

/-- SOURCE_RAISE (R282, R284): the oldest capture window with raises, once it has closed. -/
def execSourceRaise (s : State) : Res :=
  s.whenB (if s.on then !s.dueWindow.isEmpty else s.pmu.lostRaise.isSome) State.raiseWindow

/-- QUIET_EXPIRY (R286): QUIET has elapsed, and the capture window in which it did has closed without a raise. -/
def execQuietExpiry (source : Nat) (s : State) : Res :=
  let x : SrcSt := mget {} s.tly.src source
  s.whenB (s.on && s.srcState source == tlyOpen && !x.asserted && !s.tly.raises.any (fun r => r.src == source) &&
      decide (x.endAt + 1000000 * mget 0 s.tly.quiet source < s.now)) fun s =>
    let s := (s.wf (TLY_RECCNT.STATE source) tlyIdle).incSat (TLY_RECCNT.RECOV source)
    let s := s.wbit (TLY_STAT.FAULT (source / 32)) (source % 32) false
    ((s.wf TLY_SUMMARY.FAULTCNT (s.rf TLY_SUMMARY.FAULTCNT - 1)).sendSummary).eflEval.selfCheck

/-- EFL_MIN_EXPIRY (R297). -/
def execEflMinExpiry (s : State) : Res :=
  s.whenB (s.on && decide (s.tly.eflSince + 1000000 * s.rf TLY_CTRL.EFLMIN ≤ s.now)) State.eflEval

/-- EFL_TEST_END (R297). -/
def execEflTestEnd (s : State) : Res :=
  match s.tly.eflTestEnd with
  | none => .next s
  | some t => s.whenB (s.on && decide (t ≤ s.now)) fun s =>
      ({ s with tly := { s.tly with eflTestEnd := none } }.wb TLY_CTRL.FORCE false).eflEval

/-- A read of TLY_STAT0 captures every status word and GT for its requester (R283). -/
def State.stat0Read (s : State) (req : Nat) : State :=
  let st := (List.range 8).map (fun k => s.rn (TLY_STAT.adr k))
  { s with tly := { s.tly with snaps := mset s.tly.snaps req { stat := st, gt := s.gtLo } }, rdata := s.rn (TLY_STAT.adr 0) }

/-- A read of TLY_RECFIRSTn captures the record's other words for its requester (R283). -/
def State.recFirstRead (s : State) (req source : Nat) : State :=
  let c : RecCap := { src := source, last := s.rn (TLY_RECLAST.adr source), info := s.rn (TLY_RECINFO.adr source)
                      cnt := s.rn (TLY_RECCNT.adr source) }
  { s with tly := { s.tly with recs := mset s.tly.recs req c }, rdata := s.rn (TLY_RECFIRST.adr source) }

/-- TLY_STAT0_READ (R283). -/
def execTlyStat0Read (req : Nat) (s : State) : Res := s.whenOn fun s => s.stat0Read req

/-- TLY_RECFIRST_READ (R283). -/
def execTlyRecfirstRead (req source : Nat) (s : State) : Res := s.whenOn fun s => s.recFirstRead req source

/-- A firmware source raised by a write, or the write refused (R298). -/
def State.fwRaise (s : State) (req value : Nat) : State :=
  let n := value % 16
  let app := (2 ≤ req && req ≤ 4 || 8 ≤ req && req ≤ 13) && s.honoured req
  if req = 1 ∨ (app ∧ 6 ≤ n) then s.raiseEv (240 + n) (value / 256 % 2 ^ 24)
  else s.violate TLY_FWRAISE.adr req 2

/-- TLY_FWRAISE (R298). -/
def execTlyFwraise (req : Nat) (value : Word) (s : State) : Res := s.whenOn fun s => s.fwRaise req value.toNat

/-- TALLY_SELF_CHECK (R299); in a reset that began at this moment a disagreement then standing is a cause of it (R454). -/
def execTallySelfCheck (s : State) : Res :=
  .next (if s.on then s.selfCheck else if s.pmu.lostSelf then s.tallyReset 0x100 0 s.gtLo else s)

/-- An owner code of Table LANE-6 that is not reserved (R41). -/
def ownerCode (o : Nat) : Bool := o ≤ 4 || (8 ≤ o && o ≤ 13) || (16 ≤ o && o ≤ 19)

/-- TLY_SET_REACTION (R290, R295). -/
def execTlySetReaction (ch : Nat) (source : BitVec 16) (cfg : Word) (s : State) : Res :=
  s.mailCmd ch 0x0801 (.tlySetReaction (Fin.ofNat 8 ch) source cfg) fun s =>
    let n := source.toNat
    let quiet := bits cfg.toNat 21 8
    if !srcListed n || srcSafe (s.rf TLY_FWCLASS.SAFE) n || cfg.getLsbD 30 || !ownerCode (bits cfg.toNat 26 22) || quiet == 0 || decide (10000 < quiet)
    then s.finish ch stInvalidParam []
    else ((s.setReg (TLY_SRCCFG.adr n) cfg).eflEval).finish ch stOk []

/-- TLY_EFL_TEST (R297). -/
def execTlyEflTest (ch : Nat) (duration : BitVec 16) (s : State) : Res :=
  s.mailCmd ch 0x0802 (.tlyEflTest (Fin.ofNat 8 ch) duration) fun s =>
    let d := duration.toNat
    if d = 0 ∨ 10000 < d then s.finish ch stInvalidParam []
    else
      let s := { s.wb TLY_CTRL.FORCE true with tly := { s.tly with eflTestEnd := some (s.now + 1000000 * d) } }
      s.eflEval.finish ch stOk []

end Sys2Proof.Machine
end

