-- ==== Sys2Proof/Machine/Check.lean ====
section
/-! DEFINITION. The commissioning check (R429): the refusals of the manual that a lane can judge on its own image. Each
refusal is a pair of image offset and rule. The vehicle-wide refusals are judged on the vehicle record, together with the
lane's own settings. -/

namespace Sys2Proof.Machine

/-- A refusal at an offset under a rule, when a condition holds. -/
def refuse (c : Bool) (ofs rule : Nat) : List (Nat × Nat) := if c then [(ofs, rule)] else []

/-- The image offset of a register. -/
def imgOfs (a : Nat) : Nat := match imgPlaces.find? (fun p => p.2 == a) with | some p => p.1 | none => 0

/-- Refusals for each index below `n`. -/
def refuseAll (n : Nat) (f : Nat → List (Nat × Nat)) : List (Nat × Nat) := (List.range n).flatMap f

/-! ### Header, grants, vehicle record -/

/-- R38, R426, R438, R486: the header. -/
def State.checkHeader (s : State) (im : Img) : List (Nat × Nat) :=
  let len := imgLength im
  refuse (imgWord im 0 != 0x4950564A) 0 426 ++
  refuse (imgByte im 4 == 0 || decide (s.rf LANE_PROFILE.MAXPROF < imgByte im 4)) 4 486 ++
  refuse (s.otp.lockProf != 0 && imgByte im 4 != s.otp.lockProf) 4 438 ++
  refuse (imgByte im 5 != s.otp.lane) 5 426 ++
  refuseAll 2 (fun i => refuse (imgByte im (6 + i) != 0) (6 + i) 426) ++
  refuse (len % 128 != 0 || decide (len < 128) || decide (65536 < len)) 8 426 ++
  refuseAll 52 (fun i => refuse (imgByte im (12 + i) != 0) (12 + i) 426) ++
  (im.filter (fun c => decide (len ≤ c.1))).map (fun c => (c.1, 426))

/-- R28, R186, R426: the grant map. -/
def checkGrants (im : Img) : List (Nat × Nat) :=
  refuseAll 63 (fun u => refuse (!ownerCode (imgByte im (0x40 + u))) (0x40 + u) 426 ++
    refuse ((u == 39 || u == 43) && imgByte im (0x40 + u) != 1) (0x40 + u) 186) ++
  refuse (imgByte im 0x7F != 1) 0x7F 28

/-- Byte `j` of module entry `i` of the vehicle record (Table SEC-8). -/
def modByte (im : Img) (i j : Nat) : Nat := imgByte im (0x80 + 88 + 16 * i + j)

/-- The module entries in use. -/
def modUsed (im : Img) : List Nat := (List.range 10).filter (fun i => modByte im i 0 != 0)

/-- The test windows of two outputs meet at some GT: periods and phases in ms (R266). -/
def testsMeet (p a q b : Nat) : Bool := ((a : Int) - (b : Int)) % ((Nat.gcd p q : Nat) : Int) == 0

/-- A half word of a module entry: OTPER and OTPH of output 0, then of output 4, from byte 8 on (Table SEC-8; their order:
DESIGN CHOICE, log entry 37). -/
def modHalf (im : Img) (i j : Nat) : Nat := modByte im i (8 + 2 * j) + 256 * modByte im i (9 + 2 * j)

/-- The module has a lane on channel `c`: a JV2G has none on channel C. -/
def modHas (im : Img) (c i : Nat) : Bool := decide (c < 2) || modByte im i 1 != 2

/-- R266: the tests of outputs 0 and 4 that the record gives a JV3G module, and those of the lane itself against the other
outputs that the record gives its module: of the same output where the two differ, since the record's is then another
lane's, on another path of Table SVC-4. Where they are equal, the record's one value for a module's lanes is no evidence
of two windows, and nothing is judged (DESIGN CHOICE, log entry 37). -/
def checkModTests (t : State) (im : Img) (own : Option Nat) : List (Nat × Nat) :=
  let ofs := fun i => 0x80 + 88 + 16 * i + 8
  let h := modHalf im
  let set := fun i => h i 0 != 0 && h i 2 != 0
  (modUsed im).flatMap (fun i => refuse (modByte im i 1 != 2 && set i && testsMeet (h i 0) (h i 1) (h i 2) (h i 3)) (ofs i) 266) ++
  match own with
  | none => []
  | some i => [(0, 0), (0, 2), (4, 0), (4, 2)].flatMap (fun (k, j) =>
      let p := t.rf (TSK_OUTTEST.OTPER k)
      let a := t.rf (TSK_OUTTEST.OTPH k)
      refuse (!t.otp.jv2g && t.rb (TSK_OUTCFG.TESTEN k) && set i &&
        (j = k / 2 → (p, a) ≠ (h i j, h i (j + 1))) && testsMeet p a (h i j) (h i (j + 1))) (ofs i) 266)

/-- Node `v` is mapped to star port `n`; the maps of port 8 read 0. -/
def mapBit (t : State) (n v : Nat) : Bool :=
  n != 8 && (if v < 32 then t.rn (AST_PORTMAPLO.adr n) else t.rn (AST_PORTMAPHI.adr n)).testBit (v % 32)

/-- R331: the own lane's MODE is the role that the record gives its module; a satellite has one trunk port, and a main star a
trunk port for each satellite; no other of its ports is mapped to a satellite's node. -/
def checkMode (t : State) (im : Img) (own : Option Nat) : List (Nat × Nat) :=
  let c := t.otp.lane
  let bit := fun k => match own with | some i => (modByte im i 3).testBit k | none => false
  let mode := t.rf AST_CFG.MODE
  let trunk := fun n => t.rb (AST_PORTCFG.EN n) && t.rb (AST_PORTCFG.TRUNK n)
  let trunks := ((List.range 8).filter trunk).length
  let sats := (modUsed im).filter (fun i => modHas im c i && (modByte im i 3).testBit (3 + c))
  let astray := sats.any (fun i => (List.range 8).any (fun n => !trunk n && mapBit t n (modByte im i (4 + c))))
  refuse ((mode == 1) != bit c || (mode == 2) != bit (3 + c) || (mode == 2 && trunks != 1) ||
    (mode == 1 && (decide (trunks < sats.length) || astray))) (imgOfs AST_CFG.adr) 331

/-- R203, R266, R301, R331, R486: the vehicle record. Channel C exists where a module or another node is on it. -/
def State.checkVehicle (s t : State) (im : Img) : List (Nat × Nat) :=
  let mods := modUsed im
  let ofs := fun i j => 0x80 + 88 + 16 * i + j
  let own := mods.find? (fun i => modHas im s.otp.lane i && modByte im i (4 + s.otp.lane) == t.rf ANW_NODECFG.NODE)
  let nodes := fun c => imgWord im (0x90 + 8 * c) + imgWord im (0x94 + 8 * c) * 2 ^ 32
  refuseAll 3 (fun c =>
    let here := mods.filter (modHas im c)
    refuse (decide (24 < popcount 64 (nodes c))) (0x90 + 8 * c) 301 ++
    here.flatMap (fun i => refuse (here.any (fun k => decide (k < i) && modByte im k (4 + c) == modByte im i (4 + c))) (ofs i (4 + c)) 301) ++
    refuse ((c != 2 || !here.isEmpty || nodes c != 0) && (here.filter (fun i => (modByte im i 3).testBit c)).length != 1) (ofs 0 3) 331 ++
    refuse (decide (3 < (here.filter (fun i => (modByte im i 3).testBit (3 + c))).length)) (ofs 0 3) 331) ++
  refuse (decide (1 < (mods.filter (fun i => modByte im i 2 != 0)).length)) (ofs 0 2) 203 ++
  checkModTests t im own ++ checkMode t im own ++
  (match own with
   | some i => refuse (modByte im i 1 != (if s.otp.jv2g then 2 else 3)) (ofs i 1) 486
   | none => [])

/-! ### Spindle -/

/-- A strike entry's words break R56. -/
def entryBad (period phase action budget : Nat) : Bool :=
  period != 0 && (decide (7 ≤ action) || budget == 0 || decide (period < 1000) || decide (period ≤ phase) || decide (period < budget))

/-- Table SVC-1: class, phase and action of entries 240 to 255. -/
def svcEntry (m : Nat) : Nat × Nat × Nat :=
  if m = 240 then (11, 0, 2) else if m = 241 then (11, 0, 6) else if m = 242 then (12, 10000, 6) else if m = 243 then (13, 60000, 6)
  else if m < 250 then (14, 100000, 3) else (15, 110000, 3)

/-- Context `k` feeds context `c`: through a selector, or as its set-point (R192). -/
def ctxFeeds (t : State) (k c : Nat) : Bool :=
  (t.rf (LPE_CTXOUT.TYPE k) == 3 && t.rf (LPE_CTXOUT.INDEX k) % 256 == c) ||
  [0, 4, 8].any (fun o => let w := t.rn (LPE_CTXIN0.adr c + o); w / 2 ^ 28 == 5 && w / 2 ^ 19 % 512 == k)

/-- The outer loops of a set: the position loop of ROLE 1, the loop that reads the circuit's pressure sensor. -/
def outerLoop (t : State) (im : Img) (c : Nat) : Bool :=
  (imgSteer im 0 == 1 && imgSteer im 2 / 256 % 256 == c) || (imgBrake im 0 % 2 == 1 && t.rn (LPE_CTXIN0.adr c) == imgBrake im 15)

/-- The services of a set have a use for a service entry with this target (Table SVC-1): sequence 0 and the Headstock where
there is a service, carrier contexts 0 to 5 of LE3 that feed a loop of a service, outer loops. -/
def svcTarget (t : State) (im : Img) (m target : Nat) : Bool :=
  let role := imgSteer im 0
  let any : Bool := role != 0 || imgBrake im 0 % 2 == 1
  let loops := (List.range 256).filter (fun c => outerLoop t im c || (role == 2 && imgSteer im 2 % 256 == c))
  if m = 240 then any && target % 16 == 0
  else if m < 244 then any && target % 32 == 1
  else if m < 250 then target % 256 == 192 + (m - 244) && loops.any (ctxFeeds t (target % 256))
  else outerLoop t im (target % 256)

/-- Budgets of classes 11 to 15. -/
def svcBudget (c : Nat) : Nat := if c = 11 then 10000 else if c = 12 then 50000 else if c = 13 then 40000 else if c = 14 then 10000 else 30000

/-- R48, R56, R186, and one entry for each context (the text before R161): strike entries. -/
def checkEntries (t : State) (im : Img) : List (Nat × Nat) :=
  let per := fun m => t.rn (SPN_PERIOD.adr m)
  let act := fun m => t.rf (SPN_ACT.ACTION m)
  let loop := fun m => act m == 3 && per m != 0
  refuse (!t.rb SPN_CTRL.USEPEER && !t.rb SPN_CTRL.USENET) (imgOfs SPN_CTRL.adr) 48 ++ refuseAll 256 fun m =>
    let c := t.rf (SPN_ACT.CLASS m)
    let o := imgOfs (SPN_PERIOD.adr m)
    let x := svcEntry m
    refuse (entryBad (per m) (t.rn (SPN_PHASE.adr m)) (act m) (t.rf (SPN_CLASSCFG.BUDGET c))) o 56 ++
    refuse (per m != 0 && decide (m < 240) && decide (11 ≤ c)) (o + 8) 186 ++
    refuse (per m != 0 && decide (240 ≤ m) && (per m != 250000 || t.rn (SPN_PHASE.adr m) != x.2.1 || act m != x.2.2 || c != x.1 ||
      !svcTarget t im m (t.rf (SPN_ACT.TARGET m)) || t.rf (SPN_CLASSCFG.BUDGET c) != svcBudget c)) o 186 ++
    refuse (loop m && (List.range m).any (fun k => loop k && t.rf (SPN_ACT.TARGET k) == t.rf (SPN_ACT.TARGET m))) (o + 8) 161

/-! ### PWM and gate link -/

/-- Offsets of the commands of one leg of a timed-edge bank (R114). -/
def legOffs (t : State) (align : Bool) (m : Nat) : List Nat :=
  let mode := t.rf (PWM_LEGSET.MODE m)
  let minp := t.rf (PWM_LEGSET.MINP m)
  let sp := t.rf (PWM_LEGSET.DT m) + minp
  if mode = 1 then (if align then [0, sp / 2] else [0, sp])
  else if mode = 2 then [0, 0, minp, minp] else []

/-- A number placed in a rising list. -/
def insNat (n : Nat) : List Nat → List Nat
  | [] => [n]
  | x :: l => if n ≤ x then n :: x :: l else x :: insNat n l

/-- The procedure of R114 fails. -/
def edgeRefused (t : State) (b tc : Nat) : Bool :=
  let pmin := t.rf (PWM_BANKCFG.PMIN b)
  let sel := t.rf (GLK_PORTCFG.SAMPSEL b)
  let l := (List.range 3).flatMap (fun k => legOffs t (t.rb (PWM_BANKCFG.ALIGN b)) (3 * b + k)) ++
    (if sel = 2 then [pmin / 2] else []) ++ (if sel ≠ 0 then [pmin] else [])
  let l := l.foldr insNat []
  (List.range l.length).any (fun k => decide (l.getD k 0 + 900 < (k + 1) * tc))

/-- R69, R70, R80, R88: banks, legs and trip inputs. PHASE of a bank with PMIN 0, which no set can use, is not judged
(DESIGN CHOICE, log entry 53). -/
def checkPwm (t : State) : List (Nat × Nat) :=
  refuseAll 8 (fun b =>
    let pmin := t.rf (PWM_BANKCFG.PMIN b)
    refuse (pmin != 0 && decide (pmin ≤ t.rf (PWM_BANKPHASE.PHASE b))) (imgOfs (PWM_BANKPHASE.adr b)) 70) ++
  refuseAll 24 (fun m =>
    let o := imgOfs (PWM_LEGSET.adr m)
    refuse (t.rf (PWM_LEGSET.MODE m) == 1 && decide (t.rf (PWM_BANKCFG.PMIN (m / 3)) < 2 * (t.rf (PWM_LEGSET.DT m) + t.rf (PWM_LEGSET.MINP m)))) o 69 ++
    refuse (t.rf (PWM_LEGSET.POLICY m) == 3) o 80) ++
  refuseAll 4 (fun k =>
    let l := t.rf (PWM_TRIPCFG.BLKLEG k)
    refuse (l != 31 && (decide (24 ≤ l) || t.rf (PWM_LEGSET.MODE l) != 3)) (imgOfs (PWM_TRIPCFG.adr k)) 88)

/-- R110, R114, R116, R121 and the SAMPSEL code: gate-link banks in use. A port that R105 can settle in a mode is judged
in it: in timed-edge mode where its rate can reach 100 Mbit/s, in level mode where timed-edge mode is not required
(DEDUCED, log entry 54). -/
def checkGlk (t : State) : List (Nat × Nat) :=
  refuseAll 8 fun b =>
    if !t.rb (PWM_BANKCFG.DEST b) || t.rf (PWM_BANKCFG.PMIN b) == 0 then []
    else
      let te := t.rf (GLK_PORTCFG.MAXRATE b) != 0
      let tc := cmdTime (t.rf (GLK_PORTCFG.MINRATE b))
      refuse (t.rf (GLK_PORTCFG.SAMPSEL b) == 3) (imgOfs (GLK_PORTCFG.adr b)) 129 ++
      refuse (te && decide (2000000 < t.rf (PWM_BANKCFG.PMIN b))) (imgOfs (PWM_BANKCFG.adr b)) 110 ++
      refuse (te && edgeRefused t b tc) (imgOfs (GLK_PORTCFG.adr b)) 114 ++
      refuseAll 3 (fun k =>
        let m := 3 * b + k
        let mode := t.rf (PWM_LEGSET.MODE m)
        let sw := mode == 1 || mode == 2
        refuse (sw && !t.rb (GLK_PORTCFG.REQTE b) && (decide (t.rf (PWM_LEGSET.DT m) < tc) || decide (t.rf (PWM_LEGSET.MINP m) < tc))) (imgOfs (PWM_LEGSET.adr m)) 116 ++
        refuse (sw && decide (t.rf (PWM_LEGSET.MINP m) < 10 * t.rf (GLK_PROTCFG.DSBLANK b))) (imgOfs (PWM_LEGSET.adr m)) 121)

/-! ### Feedback, converter, Tailstock, Tally, pairs, agreement -/

/-- The reserved codes of FBC fields, and R131's mode table. -/
def checkFbc (t : State) : List (Nat × Nat) :=
  refuseAll 16 fun n =>
    let o := imgOfs (FBC_CFG.adr n)
    let sent := t.rf (FBC_CFG.MODE n) == 5
    let nb := t.rf (FBC_SENTCFG.NIBBLES n)
    refuse (decide (6 ≤ t.rf (FBC_CFG.MODE n))) o 131 ++ refuse (t.rf (FBC_CFG.FILT n) == 0) o 131 ++
    refuse (t.rf (FBC_IDXCFG.IDXMODE n) == 3) (o + 4) 139 ++
    refuse (t.rb (FBC_SPCFG.EDGESEL n) && t.rf (FBC_CFG.MODE n) != fbQuad) (o + 12) 142 ++
    refuse (decide (2 ≤ t.rf (FBC_SENTCFG.CRCMODE n)) || t.rf (FBC_SENTCFG.SERIAL n) == 3 ||
      (sent && (nb == 0 || decide (6 < nb)))) (o + 16) 150

/-- CHMASK outside CHEN (R213). -/
def checkAdc (t : State) : List (Nat × Nat) :=
  refuseAll 16 fun n => refuse (clearBits 16 (t.rf (ADC_SEQCFG.CHMASK n)) (t.rf ADC_CFG.CHEN) != 0) (imgOfs (ADC_SEQCFG.adr n)) 213

/-- R261, R262, R266, R267: Tailstock. Outputs 0 and 4 of a lane lie on different paths, of which a JV2G has only the first. -/
def checkTsk (t : State) : List (Nat × Nat) :=
  let per := fun k => t.rf (TSK_OUTTEST.OTPER k)
  let pha := fun k => t.rf (TSK_OUTTEST.OTPH k)
  refuseAll 8 (fun n => refuse (t.rf (TSK_INCFG.TYPE n) == 3) (imgOfs (TSK_INCFG.adr n)) 261) ++
  refuseAll 8 (fun n => refuse (decide (t.rf (TSK_INCFG.TDISC n) < t.rf (TSK_INNEAR.NEAR n))) (imgOfs (TSK_INNEAR.adr n)) 262) ++
  refuse (!t.otp.jv2g && t.rb (TSK_OUTCFG.TESTEN 0) && t.rb (TSK_OUTCFG.TESTEN 4) && testsMeet (per 0) (pha 0) (per 4) (pha 4))
    (imgOfs (TSK_OUTTEST.adr 0)) 266 ++
  refuse (t.rb TSK_CHALCFG.EN && t.rf (SPN_ACT.ACTION (t.rf TSK_CHALCFG.ENTRY)) != 6) (imgOfs TSK_CHALCFG.adr) 267

/-- Ranges whose BLK is not "Refused" in Table TLY-3. -/
def blkAllowed (n : Nat) : Bool := decide (48 ≤ n) && decide (n < 144)

/-- R290: reactions. -/
def checkTly (t : State) : List (Nat × Nat) :=
  refuseAll 256 fun n =>
    let r := t.rf (TLY_SRCCFG.REACT n)
    refuse ((r.testBit 3 && !srcSafe (t.rf TLY_FWCLASS.SAFE) n) || (r.testBit 2 && !blkAllowed n)) (0x2000 + 4 * n) 290

/-- A lane address of SRAM or of a peripheral register (R246). -/
def itemMapped (a : Nat) : Bool :=
  a % 4 == 0 && ((decide (0x20000000 ≤ a) && decide (a < 0x20600000)) || (decide (0x40000000 ≤ a) && decide (a < 0x40170000)))

/-- R246 and REHOME naming its own pair: pairs and agreement items. -/
def State.checkPairs (s t : State) : List (Nat × Nat) :=
  refuseAll 3 (fun p => refuse (t.rf (SLP_PAIRCFG.REHOME p) == p) (imgOfs (SLP_PAIRCFG.adr p)) 232) ++
  refuseAll 3 (fun p =>
    let m := t.rf (SLP_PAIRCFG.IDLEENT p)
    refuse (t.rb (SLP_PAIRCFG.EN p) && (!t.rb (SPN_CLASSCFG.IDLE (t.rf (SPN_ACT.CLASS m))) || (t.rf (SPN_ACT.ACTION m) == 6 &&
      ownerPair (t.rf (SPN_ACT.TARGET m) % 32) != some p))) (imgOfs (SLP_PAIRCFG.adr p)) 234) ++
  refuse (decide (48 < t.rf LBR_AGRCFG.NITEMS)) (imgOfs LBR_AGRCFG.adr) 246 ++
  refuseAll (min 48 (t.rf LBR_AGRCFG.NITEMS)) (fun i =>
    let n := t.rf (LBR_ITEMCFG.MINCNT i)
    refuse (!itemMapped (t.rn (LBR_ITEMSRC.adr i))) (imgOfs (LBR_ITEMSRC.adr i)) 246 ++
    refuse (t.rf (LBR_ITEMCFG.TYPE i) == 3 || t.rf (LBR_ITEMCFG.RULE i) == 3 || n == 0 || (s.otp.jv2g && n == 3)) (imgOfs (LBR_ITEMCFG.adr i)) 246)

/-! ### Queues, arbiters, mailbox channels, CAN -/

/-- R367, R369, R387, R406; `t` holds the image's words, `u` the queues as admitted. -/
def checkQueues (t u : State) : List (Nat × Nat) :=
  refuseAll 128 (fun q => refuse (t.rb (QUE_CFG.EN q) && !t.ringOk q (t.rn (QUE_CFG.adr q)) (t.rn (QUE_BASE.adr q))) (imgOfs (QUE_BASE.adr q)) 369) ++
  refuseAll 34 (fun a => refuse (!u.tableOk a (u.arbTable a)) (0x3100 + 76 * a + 12) 367) ++
  refuseAll 6 (fun k =>
    let c := k + 2
    let o := t.rf (HMB_CHCFG.OWNER c)
    let rq := t.rf (HMB_CHPATH.REQ c)
    let rs := t.rf (HMB_CHPATH.RSP c)
    refuse (t.rb (HMB_CHCFG.EN c) && (t.rb (QUE_CFG.SPNPROD rq) || t.rb (QUE_CFG.SPNPROD rs) || (t.canRxOf rq).isSome ||
      (t.canTxOf rq).isSome || (t.canRxOf rs).isSome || (t.canTxOf rs).isSome || t.rf (QUE_CFG.PROD rq) != o || t.rf (QUE_CFG.CONS rq) != 1 || t.rf (QUE_CFG.PROD rs) != 1 ||
      t.rf (QUE_CFG.CONS rs) != o || o < 2 || !endAllowed o)) (imgOfs (HMB_CHPATH.adr c)) 387) ++
  refuseAll 2 (fun n => refuse (t.rb (CAN_CFG.EN n) && !u.rb (QUE_STAT.ADMIT (t.rf (CAN_CFG.RXQ n)))) (imgOfs (CAN_CFG.adr n)) 406)

/-! ### Airum -/

/-- Two spans overlap in some chain: (REPEXP, CHOFS, LK, SPAN) of each. -/
def spansMeet (a b : Nat × Nat × Nat × Nat) : Bool :=
  decide (a.2.2.1 < b.2.2.1 + b.2.2.2) && decide (b.2.2.1 < a.2.2.1 + a.2.2.2) &&
  a.2.1 % 2 ^ min a.1 b.1 == b.2.1 % 2 ^ min a.1 b.1

/-- The span of a context's slot in a set. -/
def slotSpan (t : State) (f k : Nat) : Nat × Nat × Nat × Nat :=
  (t.rf (ANW_FLOWSLOT.REPEXP f k), t.rf (ANW_FLOWSLOT.CHOFS f k), t.rf (ANW_FLOWSLOT.LK f k), t.rf (ANW_FLOWSLOT.SPAN f k))

/-- The largest payload of a span of `n` links (Table ANW-2); none where the rate does not allow the span. -/
def spanMax (gigabit : Bool) (n : Nat) : Option Nat :=
  if gigabit then (if 1 ≤ n ∧ n ≤ 25 then some (4 * (min (625 * n - 113) 1480 / 4)) else none)
  else (if 2 ≤ n ∧ n ≤ 25 then some (4 * (min (125 * n / 2 - 77) 1480 / 4)) else none)

/-- Bytes of a context's buffer, from the start of the region. -/
def flowRange (t : State) (f : Nat) : Nat × Nat :=
  (16 * t.rf (ANW_FLOWBUF.BUFOFS f), (if t.rb (ANW_FLOWCFG.DIR f) then 1 else 2) * t.rf (ANW_FLOWBUF.LEN f))

/-- R302, R303, R305, R312, R313, R326 and the KIND codes: node, sets and flow contexts. -/
def checkAnw (t : State) : List (Nat × Nat) :=
  let use := (List.range 512).filter (fun f => t.rb (ANW_FLOWCFG.EN f))
  let star := t.rf AST_CFG.MODE != 0
  refuse (star && !t.rb ANW_NODECFG.CS) (imgOfs ANW_NODECFG.adr) 302 ++
  use.flatMap fun f =>
    let o := 0x4000 + 32 * f
    let len := t.rf (ANW_FLOWBUF.LEN f)
    let sync := t.rf (ANW_FLOWCFG.KIND f) == kindSync || decide (flowSync 0 ≤ t.rf (ANW_FLOWCFG.FLOWID f))
    let r := flowRange t f
    refuse (decide (2 ≤ t.rf (ANW_FLOWCFG.KIND f))) o 330 ++
    refuse (len % 4 != 0 || decide (len < 4) || decide (1480 < len)) (o + 4) 305 ++
    refuse (decide (2 ^ 20 < r.1 + r.2) || use.any (fun g => decide (g < f) && overlaps r.1 r.2 (flowRange t g).1 (flowRange t g).2)) (o + 4) 313 ++
    refuseAll 4 (fun k =>
      if !t.rb (ANW_FLOWSLOT.EN f k) then []
      else
        let (rep, ch, lk, sp) := slotSpan t f k
        let w := o + 8 + 4 * k
        refuse (rep == 7 || decide (2 ^ rep ≤ ch) || decide (100 < lk + sp) ||
          (match spanMax (t.rb (ANW_SETCFG.MINRATE k)) sp with | some p => decide (p < len) | none => true)) w 312 ++
        refuse (t.rb (ANW_FLOWCFG.DIR f) && use.any (fun g => decide (g < f) && t.rb (ANW_FLOWCFG.DIR g) && t.rb (ANW_FLOWSLOT.EN g k) &&
          spansMeet (slotSpan t f k) (slotSpan t g k))) w 312 ++
        refuse (sync && (rep != 0 || t.rf (ANW_FLOWCFG.KIND f) != kindSync || (star && t.rb (ANW_FLOWCFG.DIR f) && lk != 0))) w 312)

/-- A window span: (REPEXP, CHOFS, LK, SPAN). -/
def winSpan (t : State) (k i : Nat) : Nat × Nat × Nat × Nat :=
  (t.rf (AST_WIN.REPEXP k i), t.rf (AST_WIN.CHOFS k i), t.rf (AST_WIN.LK k i), t.rf (AST_WIN.SPAN k i))

/-- Every link of a span lies in one of the windows, in every chain of a round that has the span. -/
def spanCovered (wins : List (Nat × Nat × Nat × Nat)) (x : Nat × Nat × Nat × Nat) : Bool :=
  let (rep, ch, lk, sp) := x
  (List.range 64).all (fun c => c % 2 ^ rep != ch ||
    (List.range sp).all (fun i => wins.any (fun (r, o, l, n) => c % 2 ^ r == o && decide (l ≤ lk + i) && decide (lk + i < l + n))))

/-- R331 MODE, R341: window tables and maps of a star lane; the spans of the own node, and those of the nodes its contexts
receive from, lie in their windows. -/
def checkStar (t : State) : List (Nat × Nat) :=
  let node := t.rf ANW_NODECFG.NODE
  refuse (t.rf AST_CFG.MODE == 3) (imgOfs AST_CFG.adr) 331 ++
  if t.rf AST_CFG.MODE = 0 then []
  else
    refuseAll 9 (fun n => refuse ((List.range 64).any (fun v => mapBit t n v && (List.range n).any (fun m => mapBit t m v))) (imgOfs (AST_PORTMAPLO.adr n)) 341) ++
    refuseAll 4 (fun k =>
      let wins := (List.range 256).filter (fun i => t.rb (AST_WIN.EN k i))
      wins.flatMap (fun i =>
        let v := t.rf (AST_WIN.NODE k i)
        refuse ((v != node && !(List.range 9).any (fun n => mapBit t n v)) ||
          wins.any (fun j => decide (j < i) && t.rf (AST_WIN.NODE k j) != v && spansMeet (winSpan t k i) (winSpan t k j))) (0x8000 + 1024 * k + 4 * i) 341) ++
      ((List.range 512).filter (fun f => t.rb (ANW_FLOWCFG.EN f) && t.rb (ANW_FLOWSLOT.EN f k))).flatMap (fun f =>
        let sender := if t.rb (ANW_FLOWCFG.DIR f) then node else t.rf (ANW_FLOWCFG.SENDER f)
        refuse (!spanCovered ((wins.filter (fun i => t.rf (AST_WIN.NODE k i) == sender)).map (winSpan t k)) (slotSpan t f k))
          (0x4000 + 32 * f + 8 + 4 * k) 341))

/-! ### Loop contexts -/

/-- A selector's or target's word names something absent: a disabled context, or a flow that is disabled or of the wrong
direction (R184). -/
def nameBad (t : State) (isFlow isCtx tx : Bool) (index : Nat) : Bool :=
  (isCtx && (decide (256 ≤ index) || !t.rb (LPE_CTXCFG.EN index))) ||
  (isFlow && (!t.rb (ANW_FLOWCFG.EN index) || t.rb (ANW_FLOWCFG.DIR index) != tx))

/-- A binary32 word lies outside a closed range. -/
def outside (lo hi w : Nat) : Bool := !(fle lo w && fle w hi)

/-- R177, R184: the records stored with an entry; `j` counts them. -/
def checkRecs (im : Img) (e : CtxEnt) (law : Nat) : List (Nat × Nat) :=
  refuseAll e.recs.length fun j =>
    let r := e.recs.getD j 0
    let o := e.ofs + 72 + 64 * j
    let w := fun k => imgWord im (o + 4 * k)
    if r = 3 then
      refuse (flt (w 2) (w 1) || flt (w 3) fOne || decide (2 < w 0)) o 177
    else refuse (law == 5 && (w 5 == 0 || outside 0 fOne (w 7))) (o + 20) 184

/-- R175, R177, R184, R427: one entry of the context list. A record of law FOC that is not stored reads CPE 0 (R427). -/
def checkCtx (t : State) (im : Img) (e : CtxEnt) : List (Nat × Nat) :=
  let c := 64 * (e.eng % 4) + e.ctx % 64
  let law := t.rf (LPE_CTXCFG.LAW c)
  let supv := t.rf (LPE_CTXCFG.SUPV c)
  let out := t.rf (LPE_CTXOUT.TYPE c)
  let hi := t.rn (LPE_CTXLIMHI.adr c)
  let lo := t.rn (LPE_CTXLIMLO.adr c)
  let sel := fun k => t.rn (LPE_CTXIN0.adr c + 4 * k)
  let ty := fun k => sel k / 2 ^ 28
  let o := e.ofs + 4
  refuse (decide (0xFFFF < e.ofs + e.size - 1) || decide (imgLength im < e.ofs + e.size) || decide (4 ≤ e.eng) || decide (64 ≤ e.ctx)) e.ofs 427 ++
  refuse (decide (6 ≤ law) || supv == 3) o 184 ++
  refuse (supv == 1 && (decide (3 < law) || !t.rb (LPE_CTXCFG.CALEN c) ||
    (List.range 256).any (fun d => d != c && t.rb (LPE_CTXCFG.EN d) && t.rf (LPE_CTXOUT.TYPE d) == 3 && t.rf (LPE_CTXOUT.INDEX d) == c))) o 175 ++
  refuseAll 3 (fun k => refuse (decide (8 ≤ ty k) || nameBad t (ty k == 6) (ty k == 5) false (sel k / 2 ^ 19 % 512)) (o + 4 + 4 * k) 184) ++
  refuse (decide (6 ≤ out) || nameBad t (out == 5) (out == 3 || out == 4) true (t.rf (LPE_CTXOUT.INDEX c)) || (out == 2 && law != 5)) (o + 16) 184 ++
  refuse (flt hi lo) (o + 32) 184 ++
  refuse (out == 1 && (outside 0 fOne lo || outside 0 fOne hi)) (o + 32) 184 ++
  refuse (law == 5 && (ty 0 != 3 || ty 1 != 1 || out != 2)) o 184 ++
  refuse (law == 5 && e.mask % 8 != 7) e.ofs 184 ++
  refuse (t.rb (LPE_CTXCFG.CALEN c) && e.mask / 8 % 2 == 0) o 177 ++
  checkRecs im e law

/-! ### Steering and brake records -/

/-- The inner stage of a context can exceed 110 µs (R209): the wait for its strike, at most the strike's period, and the
budget of its class. An extension step of application firmware is named nowhere in an image. -/
def innerLong (t : State) (c : Nat) : Bool :=
  (List.range 240).any (fun m => t.rn (SPN_PERIOD.adr m) != 0 && t.rf (SPN_ACT.ACTION m) == 3 && t.rf (SPN_ACT.TARGET m) == c &&
    decide (110000 < t.rn (SPN_PERIOD.adr m) + t.rf (SPN_CLASSCFG.BUDGET (t.rf (SPN_ACT.CLASS m)))))

/-- R188, R207, R256: the flow contexts and agreement items of the services. A span that ends by link 50 leaves 10 µs for
the forwarding of the star, which takes less than 1 µs. -/
def checkSvc (t : State) (im : Img) : List (Nat × Nat) :=
  (imgSvcFlows t.otp.jv2g im).flatMap (fun r =>
    let f := svcFlowOf r
    let o := 0x4000 + 32 * f
    refuse (imgByte im (0x40 + 47 + f / 64) != 1) (0x40 + 47 + f / 64) 188 ++
    refuse (!t.rb (ANW_FLOWCFG.EN f)) o 207 ++
    refuseAll 4 (fun k =>
      let (rep, _, lk, sp) := slotSpan t f k
      refuse (t.rb (ANW_SETCFG.EN k) && (!t.rb (ANW_FLOWSLOT.EN f k) || rep != 0 || decide (lk < 20) || decide (50 < lk + sp))) (o + 8 + 4 * k) 207)) ++
  (imgSvcInputs t.otp.jv2g im).flatMap (fun r =>
    refuse (t.rf (LBR_ITEMCFG.TYPE (svcItemOf r)) != 2) (imgOfs (LBR_ITEMCFG.adr (svcItemOf r))) 256)

/-- R194, R208, R209: the steering record. Its ranges hold whatever its ROLE (R208). The carrier that OUTER reads is not the one that
writes its set-point (R194). -/
def checkSteer (t : State) (im : Img) : List (Nat × Nat) :=
  let w := fun k => imgWord im (0x3000 + 4 * k)
  let o := fun k => 0x3000 + 4 * k
  let role := w 0
  let foc := w 2 % 256
  let outer := w 2 / 256 % 256
  let mag := w 4 % 2 ^ 31
  let aty := w 3 / 2 ^ 28
  refuse (decide (2 < role)) (o 0) 208 ++
  refuse (decide (7 < w 1 % 256) || decide (15 < w 1 / 256 % 256)) (o 1) 208 ++
  refuse (aty != 1 && aty != 7) (o 3) 208 ++
  refuse (outside 0x3A83126F fOne mag) (o 4) 208 ++
  refuse (outside 0x3D4CCCCD 0x3F99999A (w 5)) (o 5) 208 ++
  refuse (!flt 0 (w 6)) (o 6) 208 ++
  refuse (w 7 % 256 == 0 || w 7 / 256 % 4 == 0) (o 7) 208 ++
  refuse (w 8 == 0 || decide (1000 < w 8)) (o 8) 208 ++
  refuse (decide (w 9 % 65536 < 10) || decide (10000 < w 9 % 65536)) (o 9) 208 ++
  refuse (w 10 == 0 || decide (8 < w 10)) (o 10) 208 ++
  refuse (decide (125 < w 14 % 256) || decide (w 14 / 2 ^ 16 % 1024 < 50) || decide (1000 < w 14 / 2 ^ 16 % 1024)) (o 14) 208 ++
  refuse (w 15 != 0) (o 15) 208 ++
  if role = 0 then []
  else
    refuse (decide (246000 < t.rf (PWM_BANKCFG.PMIN (w 1 % 8)))) (o 1) 209 ++
    refuse (innerLong t foc) (o 2) 209 ++
    if role ≠ 1 then []
    else
      let ol := t.rf (LPE_CTXCFG.LAW outer)
      let s0 := t.rn (LPE_CTXIN0.adr outer)
      refuse (decide (3 < ol) || s0 / 2 ^ 28 != 5 || !(decide (192 ≤ s0 / 2 ^ 19 % 512) && decide (s0 / 2 ^ 19 % 512 < 198)) ||
        (t.rf (LPE_CTXOUT.TYPE (s0 / 2 ^ 19 % 512)) == 3 && t.rf (LPE_CTXOUT.INDEX (s0 / 2 ^ 19 % 512)) % 256 == outer) ||
        t.rf (LPE_CTXOUT.TYPE outer) != 3 || t.rf (LPE_CTXOUT.INDEX outer) % 256 != foc || t.rf (LPE_CTXOUT.TYPE foc) != 2 ||
        t.rf (LPE_CTXOUT.INDEX foc) != w 1 % 256) (o 2) 194

/-- The valve loop of a set: the context that the pressure loop drives (Table SVC-1, R209). -/
def imgValve (t : State) (im : Img) : Option Nat :=
  (([250, 251, 252, 253, 254, 255].map (fun m => t.rf (SPN_ACT.TARGET m) % 256)).find? (fun c => t.rn (LPE_CTXIN0.adr c) == imgBrake im 15)).bind
    (fun c => if t.rf (LPE_CTXOUT.TYPE c) = outCtxSp then some (t.rf (LPE_CTXOUT.INDEX c) % 256) else none)

/-- R208, R209: the brake record. -/
def checkBrake (t : State) (im : Img) : List (Nat × Nat) :=
  let w := fun k => imgWord im (0x3040 + 4 * k)
  let o := fun k => 0x3040 + 4 * k
  refuse (w 0 / 16 % 4 == 0) (o 0) 208 ++
  refuse (w 0 % 2 == 1 && (decide (246000 < t.rf (PWM_BANKCFG.PMIN (Config.valveBank % 8))) || (imgValve t im).any (innerLong t))) (o 0) 209 ++
  refuse (decide (7 < w 1 / 2 ^ 28)) (o 1) 208 ++ refuse (decide (7 < w 15 / 2 ^ 28)) (o 15) 208 ++
  refuse (decide (4095 < w 2)) (o 2) 208 ++ refuse (decide (4095 < w 3)) (o 3) 208 ++
  refuse (outside fHalf 0x41000000 (w 4)) (o 4) 208 ++
  refuse (outside 0 (w 4) (w 5)) (o 5) 208 ++
  refuse (outside 0x447A0000 0x48F42400 (w 6)) (o 6) 208 ++
  refuse (!flt 0 (w 7)) (o 7) 208 ++
  refuse (w 8 == 0 || decide (4 < w 8)) (o 8) 208 ++
  refuse (outside 0 fOne (w 9)) (o 9) 208 ++ refuse (outside 0 fOne (w 10)) (o 10) 208 ++
  refuse (w 13 == 0 || decide (8 < w 13)) (o 13) 208 ++ refuse (!flt 0 (w 14)) (o 14) 208

/-! ### The check -/

/-- Every refusal of an image. -/
def State.refusals (s : State) (im : Img) : List (Nat × Nat) :=
  let t := { State.reset with otp := s.otp }.loadRegs im
  let u := ({ State.reset with otp := s.otp }.bootImage im).asGranted.readmitAll
  s.checkHeader im ++ checkGrants im ++ s.checkVehicle t im ++ checkEntries t im ++ checkPwm t ++ checkGlk t ++ checkFbc t ++ checkAdc t ++
  checkTsk t ++ checkTly t ++ s.checkPairs t ++ checkQueues t u ++ checkAnw t ++ checkStar t ++
  (imgCtxs im).flatMap (checkCtx t im) ++ checkSteer t im ++ checkBrake t im ++ checkSvc t im

/-- The refusal at the lowest offset (R429): rule and offset; at one offset the lowest rule (DESIGN CHOICE, log entry 37). -/
def State.checkImage (s : State) (im : Img) : Option (Nat × Nat) :=
  (s.refusals im).foldl (fun (m : Option (Nat × Nat)) x =>
    match m with
    | none => some (x.2, x.1)
    | some (r, o) => if x.1 < o ∨ (x.1 = o ∧ x.2 < r) then some (x.2, x.1) else m) none

end Sys2Proof.Machine
end

