-- ==== Sys2Proof/Machine/Peek.lean ====
section
/-! DEFINITION. What a read returns: the registers whose fields follow other state, flash, TCM and memory, and the
captures of each requester (R22, R24, R47, R118, R137, R283). -/

namespace Sys2Proof.Machine

/-! ### Registers that follow other state -/

/-- A mask of the ports, banks or channels below `n` that satisfy a test. -/
def maskIf (n : Nat) (p : Nat → Bool) : Nat := maskOf ((List.range n).filter p)

/-- LANE_PEERS: FITTED from OTP, the own INSERVICE bit from the own state (R43). -/
def State.peekPeers (s : State) : Nat :=
  let own := 2 ^ s.otp.lane
  let serv := (s.rf LANE_PEERS.INSERVICE &&& (7 - own)) ||| (if s.st = stService then own else 0)
  serv * 2 ^ 16 + s.rf LANE_PEERS.BRIDGE_UP * 2 ^ 8 + (if s.otp.jv2g then 3 else 7)

/-- LANE_GRANTn with HONOURED (R29); unit 63 is fixed (R28). -/
def State.peekGrant (s : State) (n : Nat) : Nat :=
  if n = 63 then 0x80000001 else s.owner n + b2n (s.honoured (s.owner n)) * 2 ^ 31

/-- The LANE block. -/
def State.peekLane (s : State) (a : Nat) : Nat :=
  let n := s.rn a
  if a = LANE_ID.adr then 0x4A000000 + (if s.otp.jv2g then 2 else 3) * 2 ^ 16 + s.otp.lane % 4
  else if a = LANE_REV.adr then n / 2 ^ 16 * 2 ^ 16 + s.otp.sirev % 256 * 256 + s.otp.romrev % 256
  else if a = LANE_SERIAL_LO.adr then s.otp.serial % 2 ^ 32
  else if a = LANE_SERIAL_HI.adr then s.otp.serial / 2 ^ 32 % 2 ^ 32
  else if a = LANE_PEERS.adr then s.peekPeers
  else if a = LANE_PROFILE.adr then setBitTo n 15 (s.otp.lockProf != 0)
  else if LANE_GRANT.adr 0 ≤ a ∧ a ≤ LANE_GRANT.adr 63 then s.peekGrant ((a - LANE_GRANT.adr 0) / 4)
  else n

/-- The Spindle: GT and the rate are live. -/
def State.peekSpn (s : State) (a : Nat) : Nat :=
  if a = SPN_GT_LO.adr then s.gtLo
  else if a = SPN_GT_HI.adr then s.gt / 2 ^ 32 % 2 ^ 32
  else if a = SPN_RATE.adr then ofSigned 32 s.rate
  else if a = SPN_SYNCSTAT.adr then setBitTo (s.rn a) 4 (s.rb ANW_NODESTAT.NETVALID)
  else s.rn a

/-- PWM: FINEACT of a leg is live (R82). -/
def State.peekPwm (s : State) (a : Nat) : Nat :=
  match (List.range 24).find? (fun m => PWM_LEGSTAT.adr m == a) with
  | some m => (PWM_LEGSTAT.FINEACT m).putN (s.rn a) (b2n (s.fineAct m (s.leg m).act.fine))
  | none => s.rn a

/-- GLK_SUMMARY. HELD speaks of the banks driven over the gate link (DEDUCED, log entry 54: NOTUP counts). -/
def State.peekGlkSum (s : State) : Nat :=
  maskIf 8 (fun n => s.portSt n == glFailed) * 2 ^ 16 +
  maskIf 8 (fun b => s.linkBank b && (s.bankHeld b || [0, 1, 2].any (fun l => s.holdByte b l != 0))) * 2 ^ 8 + maskIf 8 s.portUp

/-- FBC_SUMMARY. -/
def State.peekFbcSum (s : State) : Nat :=
  maskIf 16 (fun n => s.rb (FBC_STAT.SUSPECT n)) * 2 ^ 16 + maskIf 16 (fun n => s.rb (FBC_STAT.LOSS n))

/-- The Tally: classes (R280, R298), the fixed LANE bits (R291). -/
def State.peekTly (s : State) (a : Nat) : Nat :=
  if TLY_CLASS.adr 0 ≤ a ∧ a ≤ TLY_CLASS.adr 7 then
    let k := (a - TLY_CLASS.adr 0) / 4
    maskIf 32 (fun i => srcSafe (s.rn TLY_FWCLASS.adr) (32 * k + i))
  else if a = TLY_SNAPGT.adr then s.gtLo
  else if a = TLY_FWCLASS.adr then s.rn a ||| 0x3F
  else if a = TLY_SRCCFG.adr 2 ∨ a = TLY_SRCCFG.adr 4 ∨ a = TLY_SRCCFG.adr 5 then
    let f := TLY_SRCCFG.REACT 0
    setBitTo (s.rn a) (f.lo + 3) true
  else s.rn a

/-- The injection token in force (R424). -/
def State.tokenNow (s : State) : Bool := s.ast.tokenEnd.isSome

/-- SEC_STAT. -/
def State.peekSecStat (s : State) : Nat :=
  b2n s.debugOff * 2 ^ 31 + b2n s.tokenNow * 2 ^ 30 + b2n s.certOk * 2 ^ 29 + b2n s.sec.nonce.isSome * 2 ^ 28 +
  s.otp.used1 % 16 * 2 ^ 24 + s.keySlot % 4 * 2 ^ 22

/-- SEC, NCH and DBG. -/
def State.peekSec (s : State) (a : Nat) : Nat :=
  if a = SEC_STAT.adr then s.peekSecStat
  else if SEC_PUBKEY.adr 0 ≤ a ∧ a ≤ SEC_PUBKEY.adr 7 then leAt s.idKey (a - SEC_PUBKEY.adr 0) 4
  else if NCH_CNT.adr 0 ≤ a ∧ a ≤ NCH_CNT.adr 4 then
    let n := (a - NCH_CNT.adr 0) / 4
    notchBudget n * 2 ^ 16 + s.notchUsed n
  else if a = NCH_LOGCNT.adr then s.flash.log.length % 4096
  else if a = NCH_LOCKPROF.adr then s.otp.lockProf % 256
  else if a = NCH_CMSSTAT.adr then setBitTo (s.rn a) 29 (s.activeSlot == 1)
  else if a = DBG_CTL.adr then b2n s.debugOff * 2 ^ 31 + b2n (s.st == stDebug) * 2 ^ 30
  else s.rn a

/-- PMU_MEAS: the measured values of the running millisecond, 0 in the first. -/
def State.peekMeas (s : State) : Nat :=
  let k := (s.now - s.pmu.releasedAt) / 1000000
  if k = 0 then 0
  else ofSigned 8 (Config.junction (s.now / 1000000)) * 2 ^ 24 + Config.vlaneMv (s.now / 1000000) % 65536

/-- A mapped register read without a side effect: captures are not used (R9, R242). -/
def State.peekReg (s : State) (a : Nat) : Nat :=
  let blk := (a - 0x40000000) / 0x10000
  if blk = 0 then s.peekLane a
  else if blk = 1 then s.peekSpn a
  else if blk = 2 then s.peekPwm a
  else if a = GLK_SUMMARY.adr then s.peekGlkSum
  else if a = FBC_SUMMARY.adr then s.peekFbcSum
  else if blk = 6 then
    ((List.range 3).find? (fun p => a == SLP_PAIRSTAT.adr p)).elim (s.rn a) (fun p => (SLP_PAIRSTAT.RECENT p).putN (s.rn a) (s.recent p))
  else if blk = 7 then s.peekTly a
  else if a = AST_PORTSTAT.adr 8 then setBitTo (s.rn a) 31 true
  else if a = AST_INJCTL.adr then setBitTo (s.rn a) 31 s.tokenNow
  else if a = STY_STAT.adr then setBitTo (s.rn a) 31 (s.st != stDebug)
  else if a = HMB_SUMMARY.adr then HMB_SUMMARY.PARKED.putN (s.rn a) (b2n s.parked)
  else if blk = 15 ∨ blk = 16 ∨ blk = 19 then s.peekSec a
  else if a = PMU_MEAS.adr then s.peekMeas
  else s.rn a

/-! ### Flash (Table SEC-6) -/

/-- A byte at an offset of a flash bank. -/
def State.flashByte (s : State) (bank o : Nat) : Byte :=
  if o < 0x300000 then (s.fwBytes bank 0 o 1).headD 0xFF
  else if o < 0x700000 then (s.fwBytes bank 1 (o - 0x300000) 1).headD 0xFF
  else if o < 0x77F000 then 0xFF
  else if o < 0x780000 then s.flash.cert.getD (o - 0x77F000) 0xFF
  else if o < 0x7C0000 then
    match s.flash.log[(o - 0x780000) / 128]? with
    | some e => e.getD ((o - 0x780000) % 128) 0xFF
    | none => 0xFF
  else if o < 0x7E0000 then
    let k := (o - 0x7C0000) / 0x10000
    let l := if (k == 1) == s.flash.half then s.flash.journal else s.flash.older
    match l[(o - 0x7C0000) % 0x10000 / 32]? with
    | some r =>
      let c := if bank = 0 then r.copy0 else r.copy1
      if c = .good then r.bytes.getD (o % 32) 0xFF else if c = .torn then Config.freeByte o else 0xFF
    | none => 0xFF
  else
    match s.flash.par.find? (fun x => x.1 == 2 * bank + (o - 0x7E0000) / 0x10000) with
    | some x => memByte x.2 (o % 0x10000)
    | none => 0xFF

/-! ### The address map (Table LANE-3) -/

/-- Where an address lies: 0 boot ROM, 1 TCM window, 2 SRAM, 3 a block's range, 4 flash, none unmapped. -/
def region (a : Nat) : Option Nat :=
  if a < 0x20000 then some 0
  else if 0x100000 ≤ a ∧ a < 0x140000 then some 1
  else if 0x20000000 ≤ a ∧ a < 0x20600000 then some 2
  else if 0x40000000 ≤ a ∧ a < 0x40170000 then some 3
  else if 0x60000000 ≤ a ∧ a < 0x61000000 then some 4
  else none

/-- The access of a requester reaches the address map: a loop engine has no TCM window (R20, R21). -/
def reaches (req a : Nat) : Bool :=
  match region a with
  | none => false
  | some 1 => !(16 ≤ req && req ≤ 19)
  | some _ => true

/-- The TCM that a requester sees: its own, of a pair the designated core's. -/
def State.tcmKey (s : State) (req : Nat) : Nat := if 2 ≤ req ∧ req ≤ 4 then s.desigCore (req - 2) else req

/-- The LBR endpoint that a JV2G lacks, the one that would face lane C: reserved offsets (R43). -/
def State.noEndpoint (s : State) (a : Nat) : Bool :=
  s.otp.jv2g && (a == LBR_EPSTAT.adr (s.endpoint 2) || a == LBR_ERRCNT.adr (s.endpoint 2))

/-- A word at an address as a requester's core sees it, without a side effect. -/
def State.peekAs (s : State) (req a : Nat) : Nat :=
  match region a with
  | some 0 => ofLe ((List.range 4).map (fun i => Config.romByte (a + i)))
  | some 1 => let m := mget [] s.tcm (s.tcmKey req); ofLe ((List.range 4).map (fun i => memByte m (a + i)))
  | some 2 => s.memWord a
  | some 3 => if (regRow a).isSome && !s.noEndpoint a then s.peekReg a % 2 ^ 32 else 0
  | some _ => let o := a - 0x60000000
              ofLe ((List.range 4).map (fun i => s.flashByte ((o + i) / 0x800000) ((o + i) % 0x800000)))
  | none => 0

/-- A word read live, as the probe multiplexer and the agreement capture read it (R9, R242). -/
def State.peek (s : State) (a : Nat) : Nat := s.peekAs 1 a

/-! ### Reads that make or use a capture -/

/-- A read of SPN_GT_LO captures the upper word for its requester (R47). -/
def State.gtLoRead (s : State) (req : Nat) : State :=
  { s with spn := { s.spn with gtCap := mset s.spn.gtCap req (s.gt / 2 ^ 32 % 2 ^ 32) }, rdata := s.gtLo }

/-- The address is that of instance `n` below `k` of a register. -/
def instOf (k : Nat) (adr : Nat → Nat) (a : Nat) : Option Nat := (List.range k).find? (fun n => adr n == a)

/-- The word a requester gets from a register of the captured ones: none where it reads live. -/
def State.captured (s : State) (req a : Nat) : Option Nat :=
  if a = SPN_GT_HI.adr then some (mget 0 s.spn.gtCap req)
  else if a = SLP_WHOAMI.adr then some req
  else if a = TLY_SNAPGT.adr then some (mget {} s.tly.snaps req).gt
  else match instOf 8 TLY_STAT.adr a with
  | some k => some ((mget {} s.tly.snaps req).stat.getD k 0)
  | none =>
    match instOf 8 GLK_SAMPB.adr a, instOf 8 GLK_SAMPC.adr a, instOf 8 GLK_SAMPSTAT.adr a with
    | some n, _, _ => some (mget {} s.glk.caps (8 * req + n)).b
    | _, some n, _ => some (mget {} s.glk.caps (8 * req + n)).c
    | _, _, some n => some (mget {} s.glk.caps (8 * req + n)).st
    | _, _, _ =>
      let c := mget {} s.tly.recs req
      if 0x40071000 ≤ a ∧ a < 0x40072000 then
        some (if a = TLY_RECLAST.adr c.src then c.last else if a = TLY_RECINFO.adr c.src then c.info
              else if a = TLY_RECCNT.adr c.src then c.cnt else s.rn a)
      else none

/-- A word read by a requester: the captures it makes or uses, and the word in `rdata`. A read of a SEC word that only
the Headstock reads returns 0 to another requester (R24). -/
def State.readWord (s : State) (req a : Nat) : State :=
  if a = SPN_GT_LO.adr then s.gtLoRead req
  else if a = TLY_STAT.adr 0 then s.stat0Read req
  else match instOf 8 GLK_SAMPA.adr a with
  | some n => s.sampaRead req n
  | none =>
    match instOf 16 FBC_POS.adr a with
    | some n => s.posRead req n
    | none =>
      match instOf 16 FBC_POSHI.adr a, instOf 16 FBC_STAT.adr a with
      | some n, _ =>
        let c := mget {} s.fbc.caps (16 * req + n)
        { s with rdata := c.hi.getD (s.rn a), fbc := { s.fbc with caps := mset s.fbc.caps (16 * req + n) { c with hi := none } } }
      | _, some n =>
        let c := mget {} s.fbc.caps (16 * req + n)
        { s with rdata := c.st.getD (s.rn a), fbc := { s.fbc with caps := mset s.fbc.caps (16 * req + n) { c with st := none } } }
      | none, none =>
        if 0x40071000 ≤ a ∧ a < 0x40072000 ∧ a % 16 = 0 then s.recFirstRead req ((a - 0x40071000) / 16)
        else if SEC_SIGBUF.adr 0 ≤ a ∧ a ≤ SEC_SIGBUF.adr 255 ∧ req ≠ 1 then { s with rdata := 0 }
        else { s with rdata := (s.captured req a).getD (s.peekAs req a) }

/-- GT_LO_READ (R47). -/
def execGtLoRead (req : Nat) (s : State) : Res := s.whenOn fun s => s.gtLoRead req

end Sys2Proof.Machine
end

