-- ==== Sys2Proof/Machine/Spindle.lean ====
section
/-! DEFINITION. The Spindle (chapter "Spindle: global time, strikes and slack"): the correction of GT, strike entries,
deadlines and the slack ledger. -/

namespace Sys2Proof.Machine

/-! ### Candidates and the correction (R48 to R51) -/

/-- RMAX and SMAX of R49. -/
def rMax : Int := 858993
def sMax : Int := 429497

/-- The eligible lanes with their offsets p_k (R48). A peer whose offset no time message has given since reset or bridge
loss is no candidate (DESIGN CHOICE, log entry 47: the spec is silent on it). -/
def State.eligible (s : State) : List (Nat × Int) :=
  (s.otp.lane, 0) ::
  (if s.rb SPN_CTRL.USEPEER then
    (s.peersOf.filter (fun k => s.bridgeUp k && (s.peer k).pvalid && ((s.peer k).hb.state == stIntegrate || (s.peer k).hb.state == stService))).map
      (fun k => (k, (s.peer k).poff))
  else [])

/-- The network offset of a lane in ns, where it is valid (R48): the node's own, kept in 1/16 ns, is cut toward zero
(DESIGN CHOICE, log entry 47: the spec gives no rounding). -/
def State.netOffOf (s : State) (k : Nat) : Option Int :=
  if k = s.otp.lane then (if s.rb ANW_NODESTAT.NETVALID then some (Int.tdiv s.anw.o 16) else none) else (s.peer k).netOff

/-- Candidates with a network offset, while USENET is 1. -/
def State.netCands (s : State) : List (Nat × Int) :=
  if s.rb SPN_CTRL.USENET then s.eligible.filterMap (fun x => (s.netOffOf x.1).map (fun o => (x.1, x.2 + o))) else []

/-- The candidate set (R48). -/
def State.cands (s : State) : List (Nat × Int) := if s.netCands.isEmpty then s.eligible else s.netCands

/-- The candidate set holds an external candidate (R51). -/
def State.external (s : State) : Bool := !s.netCands.isEmpty || decide (2 ≤ s.cands.length)

/-- The median; of an even count the mean of the two middle values, truncated toward zero (R48). -/
def medianI (l : List Int) : Int :=
  let t := sortI l
  let n := t.length
  if n % 2 = 1 then t.getD (n / 2) 0 else Int.tdiv (t.getD (n / 2 - 1) 0 + t.getD (n / 2) 0) 2

/-- Entry `m` is enabled, or a written change that waits will enable it (R55, R57). -/
def State.enabledSoon (s : State) (m : Nat) : Bool :=
  s.rb (SPN_ESTAT.ENABLED m) || s.spn.enPend.any (fun e => e.group == m / 16 && e.mask.testBit (m % 16))

/-- STEPLIM in ns. -/
def State.stepLim (s : State) : Nat := 10 * s.rf SPN_SYNCCFG.STEPLIM

/-- GT stepped (R49, R57): each entry's fire times go on from the new GT, running banks stop (R96), network time
stays as it is, and GT multiples met again are audited again (R381). -/
def State.gtStep (s : State) (d : Int) : State :=
  let gt := (((s.gt : Int) + d) % 2 ^ 64).toNat
  let s := { s with gt := gt, slew := 0, spn := { s.spn with gtLast := gt } }
  let s := (List.range 256).foldl (fun s m => if s.enabledSoon m then s.setEntry m { s.entry m with sinceGt := max (s.entry m).sinceGt gt } else s) s
  let s := { s with sty := { s.sty with lastChain := min s.sty.lastChain (gt / 500000) } }
  (s.setOff (s.anw.o - 16 * d)).banksStop

/-- Rate and slew corrected (R49). -/
def State.gtSlew (s : State) (d : Int) : State :=
  { s with rate := clampI (-rMax) rMax (s.rate + Int.tdiv (d * 4294967296) 400000)
           slew := clampI (-sMax) sMax (Int.tdiv (d * 4294967296) 50000) }

/-- ALIGNED and FINE after a correction (R50). -/
def State.alignJudge (s : State) (d : Int) : State :=
  let al := decide (d.natAbs ≤ 4)
  let s := if s.rb SPN_SYNCSTAT.ALIGNED && !al then { s with spn := { s.spn with unalignedAt := s.now } } else s
  let run := if d.natAbs ≤ 1 then min 20 (s.spn.fineRun + 1) else 0
  let s := { s with spn := { s.spn with fineRun := run } }
  ((s.wb SPN_SYNCSTAT.ALIGNED al).wb SPN_SYNCSTAT.FINE (decide (20 ≤ run))).wb SPN_SYNCSTAT.SLEWING (decide (s.slew.natAbs = sMax.natAbs))

/-- Consecutive corrections, up to 100, with the rate at its limit and other lanes in the candidate set (R452). -/
def State.pinnedRate (s : State) (others : Bool) : State :=
  let n := if decide (s.rate.natAbs = rMax.natAbs) && others then min 100 (s.spn.pinned + 1) else 0
  { s with spn := { s.spn with pinned := n } }

/-- Holdover ends at a correction with an external candidate (R51). -/
def State.holdEnd (s : State) (ext : Bool) : State :=
  if ext then
    let s := { s with spn := { s.spn with lastExt := some s.now } }
    if s.rb SPN_SYNCSTAT.HOLDOVER then (s.wb SPN_SYNCSTAT.HOLDOVER false).deassertSrc 18 else s
  else s

/-- GT_CORRECTION (R34, R48 to R51): at each interval of 50 000 ns a time message leaves on every bridge, and the target
is formed. -/
def execGtCorrection (s : State) : Res :=
  s.whenB (s.on && decide (s.spn.lastCorr + 50000 ≤ s.now)) fun s =>
    let s := s.bridgeAll clsTime (.time s.gt (s.netOffOf s.otp.lane))
    let c := s.cands
    let ext := s.external
    let d := medianI (c.map (·.2))
    let s := { s with spn := { s.spn with lastCorr := s.now } }
    let s := (s.setN SPN_OFFSET.adr (satSigned32 d)).wf SPN_SYNCSTAT.CAND (maskOf (c.map (·.1)))
    let far := decide (s.stepLim < d.natAbs)
    let s := if s.st != stService && s.rb SPN_CTRL.STEPEN && far then s.gtStep d
      else (if s.st == stService && far then s.raiseEv 17 0 else s).gtSlew d
    ((s.alignJudge d).pinnedRate (c.any (fun x => x.1 != s.otp.lane))).holdEnd ext

/-- HOLDOVER_ENTRY (R51): HOLD has passed since the last external candidate, or since the entry to INTEGRATE. -/
def execHoldoverEntry (s : State) : Res :=
  let base := match s.spn.lastExt with | some t => some t | none => if s.lane.integrated then some s.lane.integAt else none
  s.whenB (s.on && !s.rb SPN_SYNCSTAT.HOLDOVER && base.any (fun t => decide (t + 1000000 * s.rf SPN_SYNCCFG.HOLD ≤ s.now))) fun s =>
    { (s.wb SPN_SYNCSTAT.HOLDOVER true).assertSrc 18 0 with slew := 0 }

/-- SPEED_UPDATE (SPN_SPEED): the reference path as measured. -/
def execSpeedUpdate (mops : Nat) (s : State) : Res := s.whenOn fun s => s.wf SPN_SPEED.MOPS mops

/-! ### Enables (R55) -/

/-- A group's enables written: they take effect 200 ns after the grant (R55). -/
def State.grpenWrite (s : State) (g v : Nat) : State :=
  let s := s.wf (SPN_GRPEN.EN g) v
  { s with spn := { s.spn with enPend := s.spn.enPend ++ [{ group := g, mask := v % 65536, eff := s.gt + 200 }] } }

/-- GRPEN_WRITE (R55). -/
def execGrpenWrite (req group : Nat) (value : Word) (s : State) : Res :=
  s.whenOn fun s => s.granted req (24 + group) (SPN_GRPEN.adr group) false fun s => s.grpenWrite group value.toNat

/-- One written change of enables takes effect: an entry newly enabled fires from then on. -/
def State.enTake (s : State) (e : EnPend) : State :=
  (List.range 16).foldl (fun s i =>
    let m := 16 * e.group + i
    let on := e.mask.testBit i
    let s := if on && !s.rb (SPN_ESTAT.ENABLED m) then s.setEntry m { s.entry m with sinceGt := max (s.entry m).sinceGt e.eff } else s
    s.wb (SPN_ESTAT.ENABLED m) on) s

/-! ### Fire times (R52 to R54, R58) -/

/-- An entry can never launch: unused, or with an action, class, period or phase that R56 shuts out. -/
def State.entryIdle (s : State) (m : Nat) : Bool :=
  let p := s.rn (SPN_PERIOD.adr m)
  decide (p < 1000) || decide (p ≤ s.rn (SPN_PHASE.adr m)) || decide (7 ≤ s.rf (SPN_ACT.ACTION m)) ||
  s.rf (SPN_CLASSCFG.BUDGET (s.rf (SPN_ACT.CLASS m))) == 0

/-- The next fire time of an entry (R52, R56). -/
def State.nextFire (s : State) (m : Nat) : Option Nat :=
  if s.entryIdle m then none else some (firstAt (s.entry m).sinceGt (s.rn (SPN_PERIOD.adr m)) (s.rn (SPN_PHASE.adr m)))

/-- The fire time of entry `m` that has come and not been handled. -/
def State.fireDue (s : State) (m : Nat) : Option Nat :=
  (s.nextFire m).filter (fun t => decide (t ≤ s.gt) && s.enabledAt m t)

/-- A fire time of the group before `eff` has come and is still to be handled: it follows the old enables (R55). -/
def State.fireOpen (s : State) (g eff : Nat) : Bool :=
  (List.range 16).any (fun i => (s.fireDue (16 * g + i)).any (fun t => decide (t < eff)))

/-- Written changes of a group's enables take effect in turn, all bits of one together, up to one before which a fire
time is still to be handled (R55). -/
def State.enTakes (s : State) (g : Nat) : List EnPend → State
  | [] => s
  | e :: l =>
    if s.fireOpen g e.eff then s
    else (({ s with spn := { s.spn with enPend := s.spn.enPend.erase e } } : State).enTake e).enTakes g l

/-- GRPEN_EFFECT (R55): the due writes of a group take effect, oldest first. -/
def execGrpenEffect (group : Nat) (s : State) : Res :=
  s.whenOn fun s => s.enTakes group (s.spn.enPend.filter (fun e => e.group == group && decide (e.eff ≤ s.gt)))

/-- Detail of 16 and 19 (R68). -/
def spnDetail (m cls : Nat) : Nat := m % 256 + cls % 16 * 256

/-- A missed strike (R58). -/
def State.strikeMiss (s : State) (m cls : Nat) : State :=
  ((s.incSat (SPN_ESTAT.MISSES m)).incSat (SPN_CLASSSTAT.MISSES cls)).raiseEv 19 (spnDetail m cls)

/-- The action of Table SPN-1 launched; none where the target refuses it (R54). -/
def State.launch (s : State) (m t : Nat) (i : Inst) : Option State :=
  let g := i.target
  match i.action with
  | 0 => some s
  | 1 => s.requestCommit (g % 8) (some m)
  | 2 => s.adcLaunch (g % 16) (some m)
  | 3 => s.lpeLaunch { ctx := g % 256, fire := t, period := s.rn (SPN_PERIOD.adr m), entry := some m }
  | 4 => s.strikePost (g % 128) m t (s.entry m).count
  | 5 => s.strikeSeal (g % 512) m
  | 6 => some (s.irqTo (g % 32) (g / 256 % 32) m)
  | _ => none

/-- An overrun counted (R58). -/
def State.overrun (s : State) (m : Nat) (i : Inst) : State :=
  ((s.incSat (SPN_ESTAT.OVERRUNS m)).incSat (SPN_CLASSSTAT.OVERRUNS i.cls)).raiseEv 16 (spnDetail m i.cls)

/-- A margin recorded in the class's ledger (R61). -/
def State.ledger (s : State) (cls : Nat) (margin : Int) : State :=
  let old := toSigned 32 (s.rn (SPN_SLACK.adr cls))
  let v := if s.rb (SPN_CLASSSTAT.PRIMED cls) && decide (old ≤ margin) then old else margin
  ((s.setN (SPN_SLACK.adr cls) (satSigned32 v)).incWrap (SPN_CLASSCNT.DONE cls)).wb (SPN_CLASSSTAT.PRIMED cls) true

/-- The completion of an entry's instance is stamped with `t` and its margin recorded (R58, R60, R61). -/
def State.settleInst (s : State) (m : Nat) (i : Inst) (t : Nat) : State :=
  let s := if i.deadline < t ∧ !i.overrun then s.overrun m i else s
  let s := s.ledger i.cls ((i.deadline : Int) - (t : Int))
  (s.setEntry m { s.entry m with inst := none }).wb (SPN_ESTAT.OUTST m) false

/-- An instance whose action has completed is settled; any other stays outstanding. -/
def State.settleDone (s : State) (m : Nat) : State :=
  match (s.entry m).inst with
  | some i => (match i.doneAt with | some t => s.settleInst m i t | none => s)
  | none => s

/-- A fire time with its launch or miss (R54, R58, R64): NONE completes at launch, in an idle class with the margin B, and a posted
record once it is visible. The instance count is 1 in an entry's first record since the lane reset and an enable does not restart it
(DESIGN CHOICE, log entry 47). -/
def State.fire (s : State) (m t : Nat) : State :=
  let s := s.settleDone m
  let cls := s.rf (SPN_ACT.CLASS m)
  let b := s.rf (SPN_CLASSCFG.BUDGET cls)
  let e := s.entry m
  if e.inst.isSome then s.strikeMiss m cls
  else
    let i : Inst := { fire := t, deadline := t + b, cls, action := s.rf (SPN_ACT.ACTION m), target := s.rf (SPN_ACT.TARGET m) }
    let now_ := if i.action = 0 ∧ s.rb (SPN_CLASSCFG.IDLE cls) then some t else if i.action = 0 ∨ i.action = 4 then some s.gt else none
    let s1 := (s.setEntry m { e with inst := some { i with doneAt := now_ }, count := (e.count + 1) % 2 ^ 32 }).wb (SPN_ESTAT.OUTST m) true
    let s2 := (s1.launch m t i).getD (s.strikeMiss m cls)
    if i.action = 0 then s2.settleDone m else s2

/-- What an enabled fire time brings beside its launch: the agreement capture (R242), latches of COUNT channels (R142),
the challenge (R267). -/
def State.fireSides (s : State) (m t : Nat) : State :=
  let s := if s.rb LBR_AGRCFG.EN && s.rf LBR_AGRCFG.ENTRY == m then
      s.agrCapture t ((List.range (s.rf LBR_AGRCFG.NITEMS)).map (fun i => s.peek (s.rn (LBR_ITEMSRC.adr i)))) else s
  let s := s.countLatches m t
  if s.rb TSK_CHALCFG.EN && s.rf TSK_CHALCFG.ENTRY == m then
    s.challenge t (s.rf (SPN_CLASSCFG.BUDGET (s.rf (SPN_ACT.CLASS m)))) else s

/-- What it brings to the pairs: checkpoints (R223) and the strikes of an idle class (R64, R234, R239). -/
def State.firePairs (s : State) (m t : Nat) : State :=
  let o := s.rf (SPN_ACT.TARGET m) % 32
  (List.range 3).foldl (fun s p =>
    let s := if s.rf (SPN_ACT.ACTION m) == 6 && ownerPair o == some p && s.rf (SLP_PAIRCFG.CKCLASS p) == s.rf (SPN_ACT.CLASS m) &&
        s.runsLocked p then s.ckptDue p t else s
    if s.rb (SLP_PAIRCFG.EN p) && s.rf (SLP_PAIRCFG.IDLEENT p) == m && s.rb (SPN_CLASSCFG.IDLE (s.rf (SPN_ACT.CLASS m)))
    then s.idleFire p t else s) s

/-- Whether fire time `t'` of entry `m'` comes before fire time `t` of entry `m`: of fire times that came due at one tick
the lower entry goes first, else the earlier time (R53). -/
def State.firesFirst (s : State) (m t m' t' : Nat) : Bool :=
  let k := fun x => if s.spn.gtLast < x then s.spn.gtLast + 1 else x
  decide (k t' < k t) || (k t' == k t && decide (m' < m))

/-- No other entry's fire time is to be handled before fire time `t` of entry `m` (R53). -/
def State.fireTurn (s : State) (m t : Nat) : Bool :=
  !(List.range 256).any (fun m' => (s.fireDue m').any (fun t' => s.firesFirst m t m' t'))

/-- STRIKE_FIRE (R52 to R54, R58): the next fire time of an enabled entry has come, and its turn. -/
def execStrikeFire (entry : Nat) (s : State) : Res :=
  match s.fireDue entry with
  | none => .next s
  | some t => s.whenB (s.on && s.fireTurn entry t) fun s =>
      let s := s.fireSides entry t
      let s := s.fire entry t
      let s := s.setEntry entry { s.entry entry with sinceGt := t + 1 }
      s.firePairs entry t

/-! ### Completion and deadlines (R58 to R62) -/

/-- STRIKE_COMPLETE (R58, R60, R61): a completed action is stamped, its margin recorded. -/
def execStrikeComplete (entry : Nat) (s : State) : Res := s.whenOn fun s => s.settleDone entry

/-- STRIKE_DEADLINE (R58): an instance still outstanding after its deadline. -/
def execStrikeDeadline (entry : Nat) (s : State) : Res :=
  match (s.entry entry).inst with
  | none => .next s
  | some i => s.whenB (s.on && i.doneAt.isNone && !i.overrun && decide (i.deadline < s.gt)) fun s =>
      (s.overrun entry i).setEntry entry { s.entry entry with inst := some { i with overrun := true } }

/-- A write of SPN_DONE: the outstanding IRQ instance completes (R54, R67). -/
def State.spnDone (s : State) (m : Nat) : State :=
  match (s.entry m).inst with
  | some i => if i.action = 6 then s.strikeDone (some m) else s
  | none => s

/-- SPN_DONE (R54). -/
def execSpnDone (req entry : Nat) (s : State) : Res :=
  s.whenOn fun s => s.granted req (24 + entry / 16) SPN_DONE.adr false fun s => s.spnDone entry

/-- Ledgers of the named classes unprimed (R62). -/
def State.ledgerClear (s : State) (mask : Nat) : State :=
  (bitList 16 mask).foldl (fun s n =>
    ((s.setN (SPN_SLACK.adr n) 0x7FFFFFFF).setN (SPN_CLASSCNT.adr n) 0).setN (SPN_CLASSSTAT.adr n) 0) s

/-- SPN_LEDGER_CLR (R62). -/
def execSpnLedgerClr (req : Nat) (value : Word) (s : State) : Res :=
  s.whenOn fun s => s.headstockOnly req SPN_LEDGER_CLR.adr fun s => s.ledgerClear value.toNat

/-- STRIKE_SET (R56): the limits of R56, to the letter of which any phase is equal to or above a period of 0, so that an entry becomes
unused by the Headstock's write of its period alone; then the entry must be disabled with nothing outstanding. -/
def State.strikeSet (s : State) (ch m cls action period phase target : Nat) : State :=
  let s := s.entriesTake
  let b := s.rf (SPN_CLASSCFG.BUDGET (cls % 16))
  if 240 ≤ m ∨ 16 ≤ cls ∨ 7 ≤ action ∨ b = 0 ∨ period < 1000 ∨ period ≤ phase ∨ period < b then
    s.finish ch stInvalidParam []
  else if s.entryBusy m then s.finish ch stBusy []
  else
    let s := (s.setN (SPN_PERIOD.adr m) period).setN (SPN_PHASE.adr m) phase
    let s := s.setN (SPN_ACT.adr m) (action * 2 ^ 28 + cls * 2 ^ 24 + target % 65536)
    s.finish ch stOk []

def execStrikeSet (ch : Nat) (entry cls action : Byte) (period phase : Word) (target : BitVec 16) (s : State) : Res :=
  s.mailCmd ch 0x0102 (.strikeSet (Fin.ofNat 8 ch) entry cls action period phase target) fun s =>
    s.strikeSet ch entry.toNat cls.toNat action.toNat period.toNat phase.toNat target.toNat

end Sys2Proof.Machine
end

