-- ==== Sys2Proof/Machine/Services.lean ====
section
/-! DEFINITION. The steering and braking services (R185 to R214, R256): windings and circuits, agreed inputs, the service
law, delegated writes. -/

namespace Sys2Proof.Machine

/-! ### The records (R208, Tables SVC-6 and SVC-7) -/

def State.windBank (s : State) : Nat := s.steerW 1 % 8
def State.windEnc (s : State) : Nat := s.steerW 1 / 256 % 16
def State.focCtx (s : State) : Nat := s.steerW 2 % 256
def State.outerCtx (s : State) : Nat := s.steerW 2 / 256 % 256
def State.angIn (s : State) : Nat := s.steerW 3
def State.demAge (s : State) : Nat := s.steerW 10

/-- The carrier that a context reads by selector 0: a context of LE3. -/
def State.angleCarrier (s : State) : Nat := s.rf (LPE_CTXIN0.INDEX s.outerCtx) % 256

/-- The carrier among contexts 0 to 5 of LE3 whose output goes to CTXSP of context `c` (R192, R194). -/
def State.carrierTo (s : State) (c : Nat) : Option Nat :=
  ([0, 1, 2, 3, 4, 5].map (192 + ·)).find? (fun k => s.rf (LPE_CTXOUT.TYPE k) == outCtxSp && s.rf (LPE_CTXOUT.INDEX k) % 256 == c)

/-- The pressure loop: the outer loop (Table SVC-1) whose selector 0 is the circuit's pressure sensor; and the valve loop
it drives. -/
def State.pressCtx (s : State) : Option Nat :=
  ([250, 251, 252, 253, 254, 255].map (fun m => s.rf (SPN_ACT.TARGET m) % 256)).find? (fun c => s.rn (LPE_CTXIN0.adr c) == s.brakeW 15)
def State.valveCtx (s : State) : Option Nat :=
  s.pressCtx.bind (fun c => if s.rf (LPE_CTXOUT.TYPE c) = outCtxSp then some (s.rf (LPE_CTXOUT.INDEX c) % 256) else none)

/-- The brake valve's bank (DESIGN CHOICE, log entry 29). -/
def valveBank : Nat := Config.valveBank % 8

/-- Strike entries below 240 that launch a loop sample of context `c` or a commit of bank `b` (R197). -/
def State.innerEntries (s : State) (ctxs : List Nat) (b : Nat) : List Nat :=
  (List.range 240).filter (fun m => s.rn (SPN_PERIOD.adr m) != 0 &&
    ((s.rf (SPN_ACT.ACTION m) == 3 && ctxs.contains (s.rf (SPN_ACT.TARGET m) % 256)) ||
     (s.rf (SPN_ACT.ACTION m) == 1 && s.rf (SPN_ACT.TARGET m) % 8 == b)))

/-- The contexts of the winding and of the circuit. -/
def State.windCtxs (s : State) : List Nat := [s.focCtx]
def State.circCtxs (s : State) : List Nat := s.pressCtx.toList ++ s.valveCtx.toList

/-- The grant units of a bank and of the groups of its inner strikes. -/
def State.unitsOf (s : State) (ctxs : List Nat) (b : Nat) : List Nat := (b :: (s.innerEntries ctxs b).map (fun m => 24 + m / 16)).eraseDups

/-! ### Causes (R197, R205) -/

/-- A leg of a link bank is held for one of the reasons of a mask of GLK_LEGHOLD. -/
def State.legReason (s : State) (b mask : Nat) : Bool := s.linkBank b && [0, 1, 2].any (fun l => s.holdByte b l &&& mask != 0)

/-- Bits of GLK_LEGHOLD's leg bytes: 0 DESAT, 1 DUAL, 2 UVLO_HS, 3 UVLO_LS, 4 INTLK, 5 LATE. -/
def hdManual : Nat := 0x13

/-- The encoder's SUSPECT has lasted SUSPTO. -/
def State.suspLong (s : State) : Bool := s.svc.suspAt.any (fun t => decide (t + 1000000 * s.steerW 8 ≤ s.now))

/-- The carriers, 0 to 5, that feed these contexts: one reads the carrier by a selector, or its output goes to the
context's set-point (R193). -/
def State.carriersOf (s : State) (ctxs : List Nat) : List Nat :=
  (List.range 6).filter (fun k => ctxs.any (fun c =>
    (s.rf (LPE_CTXOUT.TYPE (192 + k)) == outCtxSp && s.rf (LPE_CTXOUT.INDEX (192 + k)) == c) ||
    (List.range 3).any (fun i =>
      let w := s.rn (LPE_CTXIN0.adr c + 4 * i)
      bits w 31 28 == 5 && bits w 27 19 == 192 + k)))

/-- A carrier that feeds these contexts has had no agreed value for three cycles (R193). -/
def State.carrierLost (s : State) (ctxs : List Nat) : Bool := (s.carriersOf ctxs).any (fun k => decide (3 ≤ mget 0 s.svc.lost k))

/-- The contexts whose carriers feed the winding: its FOC context, and the position loop in a ROLE 1 lane (R194). -/
def State.windFed (s : State) : List Nat := if s.steerRole = 1 then [s.focCtx, s.outerCtx] else [s.focCtx]

/-- A cause that keeps the winding out is present (R197); one that needs a command is (R198). -/
def State.windCause (s : State) : Bool :=
  let b := s.windBank
  let n := s.windEnc
  let h := s.rn (GLK_LEGHOLD.adr b)
  s.st != stService || (s.linkBank b && (bits h 26 24 != 0 || h.testBit 28)) || s.legReason b 0x1F ||
  s.rf (LPE_CTXSTAT.STATE s.focCtx) == cxFailed || s.rb (FBC_STAT.LOSS n) || s.suspLong ||
  ((s.fb n).illSusp && s.rb (FBC_STAT.SUSPECT n)) || s.carrierLost s.windFed
def State.windManual (s : State) : Bool := s.legReason s.windBank hdManual || s.rf (LPE_CTXSTAT.STATE s.focCtx) == cxFailed

/-- A leg of the bank is interlocked (R91). -/
def State.bankLatched (s : State) (b : Nat) : Bool := [0, 1, 2].any (fun l => s.rb (PWM_LEGSTAT.LATCH (3 * b + l)))

/-- The pressure sensor has read 0 or 4 095 for three cycles, and not yet another value for three (R205). -/
def State.pressFault (s : State) : Bool := decide (3 ≤ s.svc.pressBad)

/-- A cause that keeps the circuit out is present (R205); one that needs a command is. -/
def State.circCause (s : State) : Bool :=
  s.st != stService || s.circCtxs.any (fun c => s.rf (LPE_CTXSTAT.STATE c) == cxFailed) ||
  (s.linkBank valveBank && s.bankHeld valveBank) || s.legReason valveBank 0x3F || s.bankLatched valveBank || s.pressFault ||
  s.carrierLost s.circCtxs
def State.circManual (s : State) : Bool :=
  s.circCtxs.any (fun c => s.rf (LPE_CTXSTAT.STATE c) == cxFailed) || s.legReason valveBank hdManual || s.bankLatched valveBank

/-- What the services watch as time goes on: how long SUSPECT has stood and how long no cause has been present (R197,
R198). Part of every tick. -/
def State.svcWatch (s : State) : State :=
  let v := s.svc
  let susp := if s.steerRole = 0 ∨ !s.rb (FBC_STAT.SUSPECT s.windEnc) then none else some (v.suspAt.getD s.now)
  let w := if v.wind.st = 2 then { v.wind with clearAt := if s.windCause then none else some (v.wind.clearAt.getD s.now)
                                               manual := v.wind.manual || s.windManual } else v.wind
  let c := if v.circ.st = 2 then { v.circ with clearAt := if s.circCause then none else some (v.circ.clearAt.getD s.now)
                                               manual := v.circ.manual || s.circManual } else v.circ
  { s with svc := { v with suspAt := susp, wind := w, circ := c } }

/-! ### Writes of granted registers (R189, R190) -/

/-- A register the services write: strike enables, RUN of a bank, or a run-time word of a context. -/
def State.svcPut (s : State) (addr value : Nat) : State :=
  match (List.range 16).find? (fun g => SPN_GRPEN.adr g == addr), (List.range 8).find? (fun b => PWM_BANKCTL.adr b == addr) with
  | some g, _ => s.grpenWrite g value
  | _, some b => s.runWrite b (PWM_BANKCTL.RUN b |>.getN value |> (· != 0))
  | _, _ => s.setN addr value

/-- The bits of MASK in the register set to VALUE's. -/
def State.svcMasked (s : State) (addr mask value : Nat) : State :=
  s.svcPut addr (clearBits 32 (s.rn addr) mask ||| (value &&& mask))

/-- The request record of Table SVC-2. -/
def svcRecord (addr mask value seq by_ : Nat) : List Byte :=
  leBytes 4 addr ++ leBytes 4 mask ++ leBytes 4 value ++ leBytes 4 seq ++ leBytes 8 by_ ++ List.replicate 40 0

def State.setWind (s : State) (w : SvcUnit) : State := { s with svc := { s.svc with wind := w } }
def State.setCirc (s : State) (w : SvcUnit) : State := { s with svc := { s.svc with circ := w } }

/-- A write delegated to pair `p` (R189). A request whose queue has no credit is judged at BY like any other. -/
def State.svcDelegate (s : State) (p unit addr mask value : Nat) : State :=
  let by_ := s.gt + 1000 * (s.steerW 14 / 2 ^ 16 % 1024)
  let l := svcRecord addr mask value s.svc.reqSeq by_
  let s := (s.postBytes (s.steerW 14 % 256 + p) l).getD s
  { s with svc := { s.svc with reqSeq := (s.svc.reqSeq + 1) % 2 ^ 32, reqs := s.svc.reqs ++ [{ unit, addr, mask, value, by_ }] } }

/-- A vote on both bridges. -/
def State.svcVote (s : State) : State :=
  let s := s.redecide
  let s := s.bridgeAll clsVote (.vote s.myVote)
  { s with rdm := { s.rdm with lastVote := s.now, srst := false } }

/-- It is out and not yet on its way back. -/
def SvcUnit.isOut (w : SvcUnit) (circ : Bool) : Bool := w.st == 2 && !w.prog.contains (.live circ)

/-- A winding or circuit is in service: nothing is held out any more. -/
def SvcUnit.alive (w : SvcUnit) : SvcUnit := { w with st := 1, manual := false, clearAt := none, units := [] }

/-- One act of a service; the acts to try later, where it must wait for a move (R30). A write of a unit that the
Headstock holds is made; one of a pair's or core's unit is delegated (R189); for any other owner's the unit is moved to
the Headstock, the write made and the unit moved back (R190). -/
def State.svcOp (s : State) (op : SvcOp) : State × Option (List SvcOp) :=
  match op with
  | .take u => (s.moveTo u 1, none)
  | .held u => if s.owner u = 1 ∧ !s.moving u then (s, none) else (s, some [op])
  | .put u addr mask value =>
    if s.moving u then (s, some [op])
    else match ownerPair (s.owner u) with
    | some p => (s.svcDelegate p u addr mask value, none)
    | none =>
      if s.owner u = 1 then (s.svcMasked addr mask value, none)
      else (s.moveTo u 1, some [.held u, op, .give u (s.owner u)])
  | .restart c => (s.ctxRestart c, none)
  | .vote => (s.svcVote, none)
  | .live false => ((s.setWind s.svc.wind.alive).redecide, none)
  | .live true => (s.setCirc s.svc.circ.alive, none)
  | .give u o => (s.moveTo u o, none)
  | .back u => (s.moveTo u (s.lane.grantMap.getD u 1), none)

/-- Acts in order, up to one that waits; what is left. -/
def State.svcOps : List SvcOp → State → State × List SvcOp
  | [], s => (s, [])
  | op :: l, s =>
    match s.svcOp op with
    | (s, none) => State.svcOps l s
    | (s, some ops) => (s, ops ++ l)

/-- The services go on with what they have to do, as far as no move holds them up. -/
def State.svcGo (s : State) : State :=
  let r := State.svcOps s.svc.wind.prog s
  let s := r.1.setWind { r.1.svc.wind with prog := r.2 }
  let r := State.svcOps s.svc.circ.prog s
  let s := r.1.setCirc { r.1.svc.circ with prog := r.2 }
  let r := State.svcOps s.svc.prog s
  { r.1 with svc := { r.1.svc with prog := r.2 } }

/-- Acts that have nothing before them to wait for. -/
def State.svcDo (s : State) (l : List SvcOp) : State := { s with svc := { s.svc with prog := s.svc.prog ++ l } }.svcGo

/-- DELEGATION_DEADLINE (R189): the oldest request is judged at BY; a write that was not made raises 245, and the
service moves the unit to the Headstock under R30 and then writes. -/
def execDelegationDeadline (s : State) : Res :=
  match s.svc.reqs with
  | [] => .next s
  | q :: rest => s.whenB (s.on && decide (q.by_ ≤ s.gt)) fun s =>
      let s := { s with svc := { s.svc with reqs := rest } }
      if s.rn q.addr &&& q.mask = q.value &&& q.mask then s
      else
        let s := (s.raiseEv 245 (s.freeNat % 2 ^ 24)).used 1
        s.svcDo [.take q.unit, .held q.unit, .put q.unit q.addr q.mask q.value]

/-! ### Out and back (R197, R198, R205) -/

/-- Writes that set or clear the enables of strikes, one for each group. -/
def strikePuts (ms : List Nat) (on : Bool) : List SvcOp :=
  (ms.map (· / 16)).eraseDups.map (fun g =>
    let mask := maskOf ((ms.filter (fun m => m / 16 == g)).map (· % 16))
    .put (24 + g) (SPN_GRPEN.adr g) mask (if on then mask else 0))

/-- The write of RUN of a bank. -/
def runPut (b : Nat) (run : Bool) : SvcOp :=
  .put b (PWM_BANKCTL.adr b) (2 ^ (PWM_BANKCTL.RUN b).lo) (if run then 2 ^ (PWM_BANKCTL.RUN b).lo else 0)

/-- Steps 1 to 4 of a take-out: units to the Headstock, enables cleared, RUN := 0, and a vote. -/
def State.outOps (s : State) (ctxs : List Nat) (b : Nat) : List SvcOp :=
  let us := s.unitsOf ctxs b
  us.map .take ++ us.map .held ++ strikePuts (s.innerEntries ctxs b) false ++ [runPut b false, .vote]

/-- The return of a winding or circuit, or its first start: contexts restarted, RUN := 1, enables, AUTO, units back. -/
def State.inOps (s : State) (ctxs : List Nat) (b : Nat) (us : List Nat) (back circ : Bool) : List SvcOp :=
  (if back then ctxs.map .restart else []) ++ [runPut b true] ++ strikePuts (s.innerEntries ctxs b) true ++
  ctxs.map (fun c => .put (40 + c / 64) (LPE_CTXCTL.adr c) 1 1) ++ [.live circ] ++ us.map .back

/-- WINDING_TAKE_OUT (R197): a cause takes the winding out; 240. -/
def execWindingTakeOut (s : State) : Res :=
  s.whenB (s.on && s.steerRole != 0 && s.svc.wind.st != 2 && (s.svc.wind.st == 1 || s.st == stService) && s.windCause) fun s =>
    let s := (s.raiseEv 240 (s.freeNat % 2 ^ 24)).used 1
    (s.setWind { s.svc.wind with st := 2, units := s.unitsOf s.windCtxs s.windBank, manual := s.windManual, clearAt := none
                                 prog := s.svc.wind.prog ++ s.outOps s.windCtxs s.windBank }).svcGo

/-- CIRCUIT_TAKE_OUT (R205): 242. -/
def execCircuitTakeOut (s : State) : Res :=
  s.whenB (s.on && s.brakeRole && s.svc.circ.st != 2 && (s.svc.circ.st == 1 || s.st == stService) && s.circCause) fun s =>
    let s := (s.raiseEv 242 (s.freeNat % 2 ^ 24)).used 1
    (s.setCirc { s.svc.circ with st := 2, units := s.unitsOf s.circCtxs valveBank, manual := s.circManual, clearAt := none
                                 prog := s.svc.circ.prog ++ s.outOps s.circCtxs valveBank }).svcGo

/-- A unit may return by itself: WRQUIET without a cause, WRMAX not reached (R198). -/
def State.mayReturn (s : State) (w : SvcUnit) (circ : Bool) : Bool :=
  w.isOut circ && !w.manual && decide (w.returns < s.steerW 9 / 2 ^ 16 % 8) &&
  w.clearAt.any (fun t => decide (t + 1000000 * (s.steerW 9 % 65536) ≤ s.now))

/-- The winding begins to come into service, and the circuit. -/
def State.windIn (s : State) (back : Bool) (w : SvcUnit) : State :=
  (s.setWind { w with prog := w.prog ++ s.inOps s.windCtxs s.windBank w.units back false }).svcGo
def State.circIn (s : State) (back : Bool) (w : SvcUnit) : State :=
  (s.setCirc { w with prog := w.prog ++ s.inOps s.circCtxs valveBank w.units back true }).svcGo

/-- WINDING_RETURN (R198). -/
def execWindingReturn (s : State) : Res :=
  s.whenB (s.on && s.mayReturn s.svc.wind false && !s.windCause) fun s =>
    s.windIn true { s.svc.wind with returns := s.svc.wind.returns + 1 }

/-- CIRCUIT_RETURN (R205). -/
def execCircuitReturn (s : State) : Res :=
  s.whenB (s.on && s.mayReturn s.svc.circ true && !s.circCause) fun s =>
    s.circIn true { s.svc.circ with returns := s.svc.circ.returns + 1 }

/-- STEER_WINDING_RESTORE (R198): BUSY while a cause is present; a FAILED context is no longer one once restarted. -/
def execSteerWindingRestore (ch : Nat) (s : State) : Res :=
  s.mailCmd ch 0x0403 (.steerWindingRestore (Fin.ofNat 8 ch)) fun s =>
    if s.windCause then s.finish ch stBusy []
    else if s.svc.wind.isOut false then (s.windIn true s.svc.wind).finish ch stOk []
    else s.finish ch stOk []

/-- BRAKE_CIRCUIT_RESTORE (R205). -/
def execBrakeCircuitRestore (ch : Nat) (s : State) : Res :=
  s.mailCmd ch 0x0404 (.brakeCircuitRestore (Fin.ofNat 8 ch)) fun s =>
    if s.circCause then s.finish ch stBusy []
    else if s.svc.circ.isOut true then (s.circIn true s.svc.circ).finish ch stOk []
    else s.finish ch stOk []

/-! ### Inputs (R191, R193, R256) -/

/-- The capture word of an input: the one that its agreement item names (R256). -/
def State.svcWordOf (s : State) (r : Nat) : Nat := s.rn (LBR_ITEMSRC.adr (svcItemOf r))

/-- The agreed value of an input in the last instance, if there is one. -/
def State.agreed (s : State) (r : Nat) : Option Nat :=
  let i := svcItemOf r
  if s.rb (LBR_RESSTAT.NEW i) then some (s.rn (LBR_RESULT.adr i)) else none

/-- The inputs that the lane's services name (R191). -/
def State.svcInputs (s : State) : List Nat := imgSvcInputs s.otp.jv2g s.activeImg

/-- This lane's copy of a flow is present and at most `lim` chains old (R195, R202). -/
def State.flowFresh (s : State) (r lim : Nat) : Bool :=
  s.rb (ANW_FLOWSTAT.PRIMED (svcFlowOf r)) && decide (s.rf (ANW_FLOWSTAT.AGE (svcFlowOf r)) ≤ lim)

/-- A sensor as a binary32, by its selector word; NaN while it is missing (R256). -/
def State.sensor (s : State) (w : Nat) : Nat :=
  let n := bits w 27 19
  match bits w 31 28 with
  | 1 => if s.rb (FBC_STAT.LOSS n) then fNaN else fofInt (s.pos64 n)
  | 7 => if s.rb (FBC_STAT.LOSS n) ∨ !s.rb (FBC_STAT.SENTVALID n) then fNaN else fofNat (s.rf (FBC_SENTFAST.DATA n))
  | 4 => if s.rf (ADC_RESULT.COUNT n) = 0 ∨ 3 ≤ mget 0 s.svc.adcOld n then fNaN else fofNat (s.rf (ADC_RESULT.RESULT n))
  | _ => fNaN

/-- How many cycles each converter channel has brought no new result. -/
def State.adcAges (s : State) : State :=
  (List.range 16).foldl (fun s n =>
    let c := s.rf (ADC_RESULT.COUNT n)
    let old := if mget 65536 s.svc.adcMark n = c then mget 0 s.svc.adcOld n + 1 else 0
    { s with svc := { s.svc with adcMark := mset s.svc.adcMark n c, adcOld := mset s.svc.adcOld n (min 3 old) } }) s

/-- The flow and the payload word that carry an input (Table SVC-5), and the age limit of its copy: DEMAGE, or REGAGE for
the inverters' flows (R195, R202; for the steering status flows DESIGN CHOICE, log entry 29). -/
def State.flowInput (s : State) (r : Nat) : Nat × Nat × Nat :=
  if r = inMode then (0, 0, s.demAge) else if r = inFront then (0, 1, s.demAge) else if r = inRear then (0, 2, s.demAge)
  else if r = inDecel then (0, 3, s.demAge) else if r = inPark then (0, 4, s.demAge)
  else if r = inCabAngle then (1, 0, s.demAge) else if r = inCabPedal then (1, 2, s.demAge)
  else if 24 ≤ r then (12 + (r - 24), 3, s.demAge)
  else if 20 ≤ r then (2 + (r - 20), 1, s.brakeW 13)
  else (2 + (r - 16), 0, s.brakeW 13)

/-- The raw value of an input: its sensor, the position loop's output, or this lane's copy of a flow; NaN while it is
missing: a sensor under R256, the output of a loop that follows its peers (R200), a copy that is too old. -/
def State.inputNow (s : State) (r : Nat) : Nat :=
  let spd := bits s.angIn 27 19
  if r = inAngle then s.sensor s.angIn
  else if r = inSpeed then (if s.rb (FBC_STAT.SPVALID spd) && !s.rb (FBC_STAT.LOSS spd) then s.rn (FBC_SPEED.adr spd) else fNaN)
  else if r = inPedal then s.sensor (s.brakeW 1)
  else if r = inOuter then (if s.svc.follow then fNaN else s.rn (LPE_CTXOUTV.adr s.outerCtx))
  else
    let f := s.flowInput r
    if s.flowFresh f.1 f.2.2 then s.flowWord (svcFlowOf f.1) f.2.1 else fNaN

/-- A value staged in its capture word of lane SRAM. -/
def State.stage (s : State) (r v : Nat) : State :=
  if region (s.svcWordOf r) = some 2 then s.memStore (s.svcWordOf r) (leBytes 4 v) else s

/-- An instance of a service entry is outstanding: the Headstock has been interrupted. -/
def State.svcDue (s : State) (m : Nat) : Bool :=
  match (s.entry m).inst with
  | some i => i.action == 6 && i.doneAt.isNone
  | none => false

/-- SERVICE_CAPTURE (R191, R256): at entry 241 the raw inputs are staged. -/
def execServiceCapture (s : State) : Res :=
  s.whenB (s.on && s.svcDue 241) fun s =>
    let s := s.adcAges
    let vals := s.svcInputs.map (fun r => (r, s.inputNow r))
    (vals.foldl (fun s x => s.stage x.1 x.2) s).strikeDone (some 241)

/-- AGPERS consecutive cycles on one side of AGTOL set or clear a sensor's flag; setting it raises 241 (R191). A missing own value
counts as outside, and a cycle without an agreed value leaves the counts as they are (DESIGN CHOICE, log entry 29). -/
def State.agTol (s : State) (r : Nat) : State :=
  match s.agreed r with
  | none => s
  | some v =>
    let own := s.memWord (s.svcWordOf r)
    let out := isNaN own || flt (s.steerW 6) (fabs (fsub own v))
    let per := s.steerW 7 % 256
    let o := if out then min 255 (mget 0 s.svc.outside r + 1) else 0
    let i := if out then 0 else min 255 (mget 0 s.svc.inside r + 1)
    let was := s.svc.flagged.testBit r
    let now_ := if was then !(decide (per ≤ i)) else decide (per ≤ o)
    let s := { s with svc := { s.svc with outside := mset s.svc.outside r o, inside := mset s.svc.inside r i
                                          flagged := setBitTo s.svc.flagged r now_ } }
    if now_ && !was then (s.raiseEv 241 (s.freeNat % 2 ^ 24)).used 1 else s

/-- The pressure sensor's cycles at the ends of its range (R205). -/
def State.pressJudge (s : State) : State :=
  let v := s.sensor (s.brakeW 15)
  let bad := feq v 0 || feq v 0x457FF000
  let good := if bad || isNaN v then 0 else min 3 (s.svc.pressGood + 1)
  { s with svc := { s.svc with pressGood := good
                               pressBad := if bad then min 3 (s.svc.pressBad + 1) else if s.svc.pressBad = 3 ∧ good < 3 then 3 else 0 } }

/-- The last FILTN agreed values, newest first (R191, R461). -/
def State.filtPush (s : State) (l : List Nat) (v : Option Nat) : List Nat :=
  match v with | some v => (v :: l).take (s.steerW 7 / 256 % 4) | none => l

/-- The agreed park request, and since when it has been 1 (R206, R395). -/
def State.parkJudge (s : State) : State :=
  match s.agreed inPark with
  | none => s
  | some v => { s with svc := { s.svc with park := v != 0, parkSince := if v != 0 then some (s.svc.parkSince.getD s.now) else none } }

/-- The iq targets of the front steering status flows, where every one is agreed (R201). -/
def State.iqSum (s : State) : Option Nat :=
  let l := (fittedLanes s.otp.jv2g).map (fun k => s.agreed (inIq k))
  if l.all (·.isSome) then some ((l.filterMap id).foldl fadd 0) else none

/-- A ROLE 2 lane's inputs of the feedback law are agreed in this cycle (R193, R201). -/
def State.feedAgreed (s : State) : Bool := (s.agreed inAngle).isSome && (s.agreed inSpeed).isSome && s.iqSum.isSome

/-- A carrier's value has, or has not, an agreed result in this cycle (R193). -/
def State.lostStep (s : State) (c : Option Nat) (ok : Bool) : State :=
  match c with
  | none => s
  | some c =>
    if 192 ≤ c ∧ c < 198 then
      { s with svc := { s.svc with lost := mset s.svc.lost (c - 192) (if ok then 0 else min 3 (mget 0 s.svc.lost (c - 192) + 1)) } }
    else s

/-- The carriers of the lane counted: the measured angle's, or the feedback target's; demand carriers follow R195 and R202
instead (R193). -/
def State.carriersJudge (s : State) : State :=
  if s.steerRole = 1 then s.lostStep (some s.angleCarrier) (s.agreed inAngle).isSome
  else if s.steerRole = 2 then s.lostStep (s.carrierTo s.focCtx) s.feedAgreed else s

/-- SERVICE_AGREEMENT (R191, R193): at entry 242 the agreed values are read, disagreeing sensors flagged, lost carriers
and single sources counted (R253). -/
def execServiceAgreement (s : State) : Res :=
  s.whenB (s.on && s.svcDue 242) fun s =>
    let s := if s.steerRole = 0 then s else s.agTol inAngle
    let s := if s.steerRole = 2 then (s.agTol inSpeed).agTol inPedal else s
    let s := s.carriersJudge
    let s := s.svcInputs.foldl (fun s r =>
      let i := svcItemOf r
      let n := if s.rf (LBR_RESSTAT.COUNT i) < 2 then min 3 (mget 0 s.svc.single r + 1) else 0
      { s with svc := { s.svc with single := mset s.svc.single r n } }) s
    let s := { s with svc := { s.svc with angles := s.filtPush s.svc.angles (s.agreed inAngle)
                                          speeds := s.filtPush s.svc.speeds (s.agreed inSpeed)
                                          pedals := s.filtPush s.svc.pedals (s.agreed inPedal)
                                          pedalAt := if (s.agreed inPedal).isSome then some s.gtChain else s.svc.pedalAt } }
    let s := (if s.brakeRole then s.pressJudge else s).parkJudge
    s.redecide.strikeDone (some 242)

/-! ### The service law (R194 to R203, R206) -/

/-- The mean of binary32 values. -/
def fmean (l : List Nat) : Nat := if l.isEmpty then fNaN else fdiv (l.foldl fadd 0) (fofNat l.length)

/-- Windings in service in the module, by lane (R197). -/
def State.windMask (s : State) : Nat :=
  maskOf s.windLanes

/-- Brake circuits in service, by lane (R205). -/
def State.circMask (s : State) : Nat :=
  maskOf ((if s.svc.circ.st = 1 then [s.otp.lane] else []) ++
    s.memberPeers.filter (fun k => match (s.rdmPeer k).vote with | some v => !v.circOut | none => false))

/-- AUTH (R196): windings in service over fitted lanes. -/
def State.auth (s : State) : Nat := fdiv (fofNat (popcount 3 s.windMask)) (fofNat (s.peersOf.length + 1))

/-- A carrier's MAN written, and its entry enabled (R192): carriers 0 to 5 of LE3 have entries 244 to 249. -/
def State.carrierPut (s : State) (c v : Nat) : State :=
  let s := s.headWrite (40 + c / 64) (LPE_CTXMAN.adr c) fun s => s.setN (LPE_CTXMAN.adr c) v
  let m := 244 + (c - 192)
  if 192 ≤ c ∧ c < 198 ∧ s.rn (SPN_PERIOD.adr m) ≠ 0 ∧ !(s.rf (SPN_GRPEN.EN 15)).testBit (m % 16) then
    s.headWrite 39 (SPN_GRPEN.adr 15) fun s => s.grpenWrite 15 (setBitTo (s.rf (SPN_GRPEN.EN 15)) (m % 16) true)
  else s

/-- The demand of the computer flow, and of the handwheel, where they count (R195); a copy that is too old has been staged
as missing, so an agreed value is a fresh one. -/
def State.demComputer (s : State) : Option Nat :=
  if s.agreed inMode == some 1 then s.agreed (if s.brakeW 0 / 4 % 2 = 0 then inFront else inRear) else none
def State.demHandwheel (s : State) : Option Nat := (s.agreed inCabAngle).map (fmul (s.steerW 4))

/-- The steering demand (R195): computer, handwheel, or the last one with 244. -/
def State.steerDemand (s : State) : State :=
  match s.demComputer <|> s.demHandwheel with
  | some v => { s with svc := { s.svc with demand := some v, demLost := false } }
  | none => ({ s with svc := { s.svc with demLost := true } }.raiseEv 244 (s.freeNat % 2 ^ 24)).used 1

/-- Words of a sent service flow from word `k` on (Table SVC-5), in the flow's unit (R30, R188). -/
def State.flowWords (s : State) (r k : Nat) (ws : List Nat) : State :=
  let a := s.flowBase (svcFlowOf r) + 4 * k
  s.headWrite (47 + svcFlowOf r / 64) a fun s => s.memStore a (ws.flatMap (leBytes 4))

/-- The words of a sent service flow. -/
def State.flowPut (s : State) (r : Nat) (ws : List Nat) : State := s.flowWords r 0 ws

/-- One word of a sent service flow, where the service has a value for it; else the word stays. -/
def State.flowPut1 (s : State) (r k : Nat) (v : Option Nat) : State :=
  match v with
  | some v => s.flowWords r k [v]
  | none => s

/-- A carrier written where there is one and its value is agreed (R192, R193). -/
def State.carrierOpt (s : State) (c v : Option Nat) : State :=
  match c, v with
  | some c, some v => s.carrierPut c v
  | _, _ => s

/-- The position loop starts in AUTO; or, where it follows its peers, in MANUAL with their agreed output as MAN, and goes
over to AUTO once that value is its output: at once from WAIT (R155), else a sample later, since a transfer starts from
the last output (R168, R200; DEDUCED, log entry 55). -/
def State.outerRun (s : State) : State :=
  let c := s.outerCtx
  let auto := SvcOp.put (40 + c / 64) (LPE_CTXCTL.adr c) 1 1
  if !s.svc.follow then s.svcDo [auto]
  else match s.agreed inOuter with
  | none => { s with svc := { s.svc with followed := false } }
  | some v =>
    if s.svc.followed && s.rf (LPE_CTXSTAT.STATE c) == cxManual then
      { s with svc := { s.svc with follow := false, followed := false } }.svcDo [auto]
    else
      let man := SvcOp.put (40 + c / 64) (LPE_CTXMAN.adr c) (2 ^ 32 - 1) v
      if s.rf (LPE_CTXSTAT.STATE c) = cxWait then { s with svc := { s.svc with follow := false } }.svcDo [man, auto]
      else { s with svc := { s.svc with followed := true } }.svcDo [man]

/-- The first start of the winding, once its carriers hold agreed values (R190, R192). -/
def State.windStart (s : State) (fed : Bool) : State :=
  if s.svc.wind.st == 0 && s.svc.wind.prog.isEmpty && !s.windCause && fed then s.windIn false s.svc.wind else s

/-- The position loop goes over to AUTO in SERVICE once its carrier has an agreed angle, whatever its winding's state, so that its
output is its peers'; one that started while they were in service follows them (R197, R200). -/
def State.outerLaw (s : State) : State :=
  if s.svc.follow || (s.st == stService && (s.agreed inAngle).isSome && !s.rb (LPE_CTXCTL.AUTO s.outerCtx)) then s.outerRun else s

/-- The steering status flow. -/
def State.steerStatus (s : State) : State :=
  let s := (s.flowPut 8 [popcount 3 s.windMask, s.auth]).flowPut1 8 2 (s.agreed inAngle)
  (s.flowPut1 8 3 (some (s.rn (LPE_CTXOUTV.adr s.outerCtx)))).flowPut1 8 4 (some (b2n s.svc.demLost + 2 * b2n (s.svc.flagged != 0)))

/-- The law of a ROLE 1 lane. -/
def State.lawActuator (s : State) : State :=
  let s := (s.carrierOpt (some s.angleCarrier) (s.agreed inAngle)).steerDemand
  let s := s.carrierOpt (s.carrierTo s.outerCtx) (s.svc.demand.map (fun d => fclamp d (fneg (s.steerW 5)) (s.steerW 5)))
  ((s.windStart (s.agreed inAngle).isSome).outerLaw).steerStatus

/-- The feedback target of a ROLE 2 lane (R201). -/
def State.feedback (s : State) (angle speed l : Nat) : Nat :=
  let lim := s.steerW 13
  let v := fclamp (fadd (fmul (s.steerW 11) l) (fmul (s.steerW 12) speed)) (fneg lim) lim
  if fle (s.steerW 5) (fabs (fmul (s.steerW 4) angle)) then (if isZero angle then fmul (fneg lim) 0 else if fNeg? angle then lim else fneg lim)
  else v

/-- The mean of the last agreed values of an input, in a cycle that agreed one. -/
def State.meanNow (s : State) (r : Nat) (l : List Nat) : Option Nat := (s.agreed r).map (fun _ => fmean l)

/-- The feedback target in a cycle in which everything it rests on is agreed (R193, R201). -/
def State.feedNow (s : State) : Option Nat :=
  match s.meanNow inAngle s.svc.angles, s.meanNow inSpeed s.svc.speeds, s.iqSum with
  | some a, some v, some l => some (s.feedback a v l)
  | _, _, _ => none

/-- The cab flow: the words whose value is agreed in this cycle, and the flags (Table SVC-5). -/
def State.cabFlow (s : State) : State :=
  let s := ((s.flowPut1 9 0 (s.meanNow inAngle s.svc.angles)).flowPut1 9 1 (s.meanNow inSpeed s.svc.speeds))
  (s.flowPut1 9 2 (s.meanNow inPedal s.svc.pedals)).flowPut1 9 3 (some (b2n (s.svc.flagged != 0)))

/-- The law of a ROLE 2 lane. -/
def State.lawHandwheel (s : State) : State :=
  ((s.carrierOpt (s.carrierTo s.focCtx) s.feedNow).windStart s.feedNow.isSome).cabFlow

/-- Deceleration of the pedal curve (R202): a pedal value, PLO and PHI as numbers 0 to 4 095. -/
def State.pedalDecel (s : State) (p : Nat) : Nat :=
  let lo := fofNat (s.brakeW 2)
  let hi := fofNat (s.brakeW 3)
  if fle p lo then 0 else if fle hi p then s.brakeW 4
  else fdiv (fmul (s.brakeW 4) (fsub p lo)) (fsub hi lo)

/-- The pedal value that a lane uses: its own, averaged, in a ROLE 2 lane, where one was agreed in the last DEMAGE
chains; the cab flow's elsewhere (DEDUCED, log entry 55). -/
def State.pedalNow (s : State) : Option Nat :=
  if s.steerRole = 2 then
    (if s.svc.pedalAt.any (fun t => decide (s.gtChain ≤ t + s.demAge)) then some (fmean s.svc.pedals) else none)
  else s.agreed inCabPedal

/-- The deceleration demand a, and whether both terms are invalid (R202, R254, R255). -/
def State.decel (s : State) : Nat × Bool :=
  let ap := s.pedalNow.map s.pedalDecel
  let ac := s.agreed inDecel
  let l := ap.toList ++ ac.toList
  let a := if l.isEmpty then s.brakeW 5 else l.foldl fmax (l.headD 0)
  let a := if s.mission = misStop then fmax a (s.brakeW 5) else if s.mission = misPark then s.brakeW 4 else a
  (fclamp a 0 (s.brakeW 4), l.isEmpty)

/-- The agreed sums of achieved and available torque, while fresh (R202). -/
def State.regen (s : State) : Option (Nat × Nat) :=
  let n := s.brakeW 8
  let ts := (List.range n).map (fun i => (s.agreed (inTach i), s.agreed (inTavail i)))
  if ts.all (fun t => t.1.isSome && t.2.isSome) then
    some ((ts.map (fun t => t.1.getD 0)).foldl fadd 0, (ts.map (fun t => t.2.getD 0)).foldl fadd 0)
  else none

/-- What the brake law computes (R202). -/
structure BrakeOut where
  a : Nat
  fail : Bool
  noRegen : Bool
  freq : Nat
  ffr : Nat
  p : Nat
  short : Bool
  deriving DecidableEq, Repr

/-- The arithmetic of R202. -/
def State.brakeCalc (s : State) : BrakeOut :=
  let a := s.decel.1
  let f := fmul (s.brakeW 6) a
  let ktf := s.brakeW 7
  let rg := s.regen
  let freq := match rg with | some (_, av) => fmin (fmul (s.brakeW 9) f) (fdiv (fneg av) ktf) | none => 0
  let fach := match rg with | some (t, _) => fdiv (fneg t) ktf | none => 0
  let ffr := fmax (fsub f fach) 0
  let fax := fmul ffr (if s.brakeW 0 / 4 % 2 = 0 then s.brakeW 10 else fsub fOne (s.brakeW 10))
  let raw := fdiv fax (fmul (fofNat (popcount 3 s.circMask)) (s.brakeW 11))
  { a, fail := s.decel.2, noRegen := rg.isNone, freq, ffr, p := if isNaN raw then 0 else fmin raw (s.brakeW 12)
    short := flt (s.brakeW 12) raw }

/-- A firmware source of the services raised, with a detail the spec does not give (R214). -/
def State.svcRaise (s : State) (c : Bool) (n : Nat) : State := if c then (s.raiseEv n (s.freeNat % 2 ^ 24)).used 1 else s

/-- The brake status flow, and the regen request of a REGSRC lane (R203). -/
def State.brakeFlows (s : State) (o : BrakeOut) : State :=
  let s := s.flowPut 10 [o.a, o.ffr, popcount 3 s.circMask, b2n (s.rf TSK_OUTREQ.REQ &&& 0x11 == 0x11), b2n o.short + 2 * b2n o.fail]
  if s.brakeW 0 / 2 % 2 = 1 then
    s.flowPut 11 [fdiv (fmul (fneg o.freq) (s.brakeW 7)) (fofNat (s.brakeW 8)), o.freq, s.gtChain % 2 ^ 32]
  else s

/-- The first start of the circuit. -/
def State.circStart (s : State) : State := if s.svc.circ.st == 0 && s.svc.circ.prog.isEmpty && !s.circCause then s.circIn false s.svc.circ else s

/-- The law of a brake lane (R202, R203): the pressure demand goes to its carrier. -/
def State.lawBrake (s : State) : State :=
  let o := s.brakeCalc
  let s := (s.svcRaise o.fail 244).svcRaise o.noRegen 243
  let s := { s with svc := { s.svc with demFail := o.fail, shortfall := o.short, noRegen := o.noRegen } }
  ((s.carrierOpt (s.pressCtx.bind s.carrierTo) (some o.p)).circStart).brakeFlows o

/-- The spring brakes (R206): released in SERVICE in TRIAD or PAIR while the agreed park request is 0; a stale request
keeps the present state. -/
def State.springLaw (s : State) : State :=
  let s := s.springRule
  if s.st != stService || decide (rmPair < s.rmode) then s
  else if (s.agreed inPark).isNone then s
  else
    let q := clearBits 8 (s.rf TSK_OUTREQ.REQ) 0x11
    let v := if s.svc.park then q else q + 0x11
    if v = s.rf TSK_OUTREQ.REQ then s else s.outReq v

/-- SERVICE_LAW (R194 to R203, R206): at entry 243 carriers and flow buffers are written. -/
def execServiceLaw (s : State) : Res :=
  s.whenB (s.on && s.svcDue 243) fun s =>
    let s := if s.steerRole = 1 then s.lawActuator else if s.steerRole = 2 then s.lawHandwheel else s
    let s := if s.brakeRole then s.lawBrake else s
    s.springLaw.strikeDone (some 243)

/-- SVC_STATUS (R208): the records, windings and circuits in service, AUTH and the flags of
Table SVC-5: of the service that runs; where both run, the spec does not say how one word holds them (DESIGN CHOICE, log entry 29). -/
def execSvcStatus (ch : Nat) (s : State) : Res :=
  s.mailCmd ch 0x0402 (.svcStatus (Fin.ofNat 8 ch)) fun s =>
    let im := s.activeImg
    let fs := b2n s.svc.demLost + 2 * b2n (s.svc.flagged != 0)
    let fb := b2n s.svc.shortfall + 2 * b2n s.svc.demFail
    let flags := if !s.brakeRole then fs else if s.steerRole = 0 then fb else s.freeNat % 2 ^ 32
    (s.used 1).finish ch stOk (imgBytes im 0x3000 128 ++ leBytes 4 s.windMask ++ leBytes 4 s.circMask ++ leBytes 4 s.auth ++ leBytes 4 flags)

end Sys2Proof.Machine
end

