-- ==== Sys2Proof/Machine/Security.lean ====
section
/-! DEFINITION. The commands of the chapter "Security, commissioning and limited changes": keys and tokens, staging and
check, the journalled procedures, notches and firmware update. -/

namespace Sys2Proof.Machine

/-! ### What the commands share -/

def State.setProc (s : State) (p : Option Proc) : State := { s with sec := { s.sec with proc := p } }

/-- A procedure runs that other commands must wait for; a commit that ended at step 7 waits only for an INTENT (R433). -/
def State.procBusy (s : State) : Bool := match s.sec.proc with | some p => p.step != 12 | none => false

/-- A response is still on its way: unread in the SPI buffer, sealed on the flow, or waiting for credit. -/
def State.respWaits (s : State) (c : Nat) : Bool :=
  if c = 0 then s.spi.rsp.isSome
  else if c = 1 then
    !(s.flowSt (s.rf (HMB_CHPATH.RSP 1))).starts.isEmpty
  else !(s.chan c).wait.isEmpty

/-- The lane resets once the response of channel `c` has been sent (R422, R425, R442). -/
def State.resetAfter (s : State) (c : Nat) : State :=
  if s.respWaits c then { s with sec := { s.sec with resetDue := some c } } else s.laneReset rstCommand

/-- A procedure ends with a status on the channel that waits for it. -/
def State.procEnd (s : State) (p : Proc) (status : Nat) (payload : List Byte) : State :=
  let s := s.setProc none
  match p.ch with
  | some c => s.finish c status payload
  | none => s

/-- A recovery (R434, R442, R421): 228 and NCH_JOURNAL; outcome 1 completed, 2 aborted, 3 reverted. -/
def State.recovered (s : State) (op step outcome : Nat) : State :=
  (s.raiseEv 228 (op + step * 256)).setN NCH_JOURNAL.adr (op * 2 ^ 24 + step * 2 ^ 16 + outcome * 2 ^ 8)

/-- The staged image, or the one in force. -/
def State.ownImg (s : State) : Img := s.sec.staging.getD s.activeImg

/-- Commits left of counter 0. -/
def State.commitsLeft (s : State) : Nat := 1024 - s.otp.used0

/-! ### Staging (R428) -/

/-- Data written into an image whose unlisted bytes are `d`. -/
def imgPut (d : Byte) (im : Img) (o : Nat) : List Byte → Img
  | [] => im
  | b :: bs => imgPut d (if b = d then mdel im o else mset im o b) (o + 1) bs

/-- CMS_LOAD (R428). -/
def execCmsLoad (ch : Nat) (offset : Word) (data : List Byte) (s : State) : Res :=
  s.mailCmd ch 0x0600 (.cmsLoad (Fin.ofNat 8 ch) offset data) fun s =>
    let o := offset.toNat
    let n := data.length
    if n < 4 ∨ 1016 < n ∨ n % 4 ≠ 0 then s.finish ch stBadLength []
    else if s.procBusy then s.finish ch stBusy []
    else if o % 4 ≠ 0 ∨ 65536 < o + n then s.finish ch stInvalidParam []
    else
      let s := { s with sec := { s.sec with staging := some (imgPut 0 s.ownImg o data) } }
      (s.wf NCH_CMSSTAT.STAGE 1).finish ch stOk []

/-- CMS_ABORT (R428). -/
def execCmsAbort (ch : Nat) (s : State) : Res :=
  s.mailCmd ch 0x0603 (.cmsAbort (Fin.ofNat 8 ch)) fun s =>
    if s.procBusy then s.finish ch stBusy []
    else ({ s with sec := { s.sec with staging := none, digest := none } }.wf NCH_CMSSTAT.STAGE 0).finish ch stOk []

/-- CMS_READ (R400): bytes of the image in force. -/
def execCmsRead (ch : Nat) (offset count : Word) (s : State) : Res :=
  s.mailCmd ch 0x0604 (.cmsRead (Fin.ofNat 8 ch) offset count) fun s =>
    let n := count.toNat
    if n < 4 ∨ 1024 < n ∨ 65536 < offset.toNat + n then s.finish ch stInvalidParam []
    else s.finish ch stOk (imgBytes s.activeImg offset.toNat n)

/-- CMS_STATUS (R400). -/
def execCmsStatus (ch : Nat) (s : State) : Res :=
  s.mailCmd ch 0x0605 (.cmsStatus (Fin.ofNat 8 ch)) fun s =>
    let st := if s.sec.staging.isNone then 0 else if s.rf NCH_CMSSTAT.STAGE = 1 then 1 else 2
    s.finish ch stOk (valueChars s.activeV ++ leBytes 4 st ++ leBytes 4 s.commitsLeft)

/-! ### Check (R429, R430) -/

/-- The check ends refused: the lane, the rule and the offset. -/
def State.checkRefused (s : State) (lane rule ofs : Nat) : State :=
  let c := s.sec.checkCh
  let s := { s with sec := { s.sec with digest := none, checkCh := none } }
  match c with
  | some c => s.finish c stCheckRefused ([BitVec.ofNat 8 lane, 0, 0, 0] ++ leBytes 4 rule ++ leBytes 4 ofs ++ List.replicate 8 0)
  | none => s

/-- A check that waits for peers ends with a status where one of them takes no part. -/
def State.checkEnd (s : State) (status : Nat) : State :=
  match s.sec.checkCh with
  | some c => { s with sec := { s.sec with checkCh := none } }.finish c status []
  | none => s

/-- The check ends with the digest D: staging is CHECKED, and V goes to the caller. -/
def State.checkDone (s : State) (d : List Byte) : State :=
  let c := s.sec.checkCh
  let s := { s with sec := { s.sec with digest := some d, checkCh := none } }
  let s := if s.sec.staging.isSome then s.wf NCH_CMSSTAT.STAGE 2 else s
  match c with
  | some c => (s.used 1).finish c stOk ([Config.freeByte s.free, 0, 0, 0] ++ leBytes 8 0 ++ valueChars (valueOf d))
  | none => s

/-- The refusal that the answer names (R429): of the lowest lane's own refusal (lane, rule, offset), and R486 across the
lanes, where a lane's PROFILE exceeds the lowest MAXPROF, the one of the lower lane, and in one lane at the lower offset. -/
def checkWorst (found : Option (Nat × Nat × Nat)) (profs : List Nat) (cap : Nat) : Option (Nat × Nat × Nat) :=
  match found, profs.findIdx? (fun p => decide (cap < p)) with
  | none, none => none
  | none, some k => some (k, 486, 4)
  | some f, none => some f
  | some (l, rule, ofs), some k =>
    if l < k ∨ (l = k ∧ (ofs < 4 ∨ (ofs = 4 ∧ rule < 486))) then some (l, rule, ofs) else some (k, 486, 4)

/-- The refusal of the check, told to every lane. -/
def State.checkFound (s : State) (lane rule ofs : Nat) : State :=
  (s.bridgeAll clsModule (.bulk (.cmsRefused lane rule ofs))).checkRefused lane rule ofs

/-- The lane's turn in the chain: its image is checked, and hashed on to the next lane unless one is refused; the last
lane sends D, or the refusal. -/
def State.checkTurn (s : State) (chain : List Nat) (count : Nat) (profs : List Nat) (cap : Nat) (found : Option (Nat × Nat × Nat)) :
    State :=
  let im := s.ownImg
  let lane := s.otp.lane
  let found := match found with
    | some f => some f
    | none => (s.checkImage im).map (fun (rule, ofs) => (lane, rule, ofs))
  let profs := profs ++ [imgByte im 4]
  let cap := min cap (s.rf LANE_PROFILE.MAXPROF)
  let n := if found.isSome then 0 else imgLength im
  let h := shaBlocks (n / 128) chain (imgAll im)
  if lane + 1 = s.allLanes.length then
    match checkWorst found profs cap with
    | some (k, rule, ofs) => s.checkFound k rule ofs
    | none =>
      let d := shaFinish h (count + n) []
      (s.bridgeAll clsModule (.bulk (.cmsDigest d))).checkDone d
  else s.bridgeTo (lane + 1) clsModule (.bulk (.cmsCheck h (count + n) profs cap found))

/-- A module command of which a peer can take no part by the time it acts changes nothing (R398). -/
def State.withPeers (s : State) (ch : Nat) (k : State → State) : State :=
  if s.peerAbsent then s.finish ch stPeerAbsent [] else k s

/-- CMS_CHECK (R429, R430): the chain begins in lane A; an empty chain asks for it. -/
def execCmsCheck (ch : Nat) (s : State) : Res :=
  s.mailCmd ch 0x0601 (.cmsCheck (Fin.ofNat 8 ch)) fun s =>
    if s.procBusy then s.finish ch stBusy []
    else s.withPeers ch fun s =>
      let s := { s with sec := { s.sec with checkCh := some ch } }
      if s.otp.lane = 0 then s.checkTurn shaInit 0 [] 255 none else s.bridgeTo 0 clsModule (.bulk (.cmsCheck [] 0 [] 255 none))

/-! ### Commit (R431 to R434, Table SEC-9) -/

/-- Step 1 begins: the set that this lane will commit. -/
def State.commitBegin (s : State) (ch : Option Nat) : State :=
  let p : Proc := { kind := 1, step := 1, ch, v := valueOf (s.sec.digest.getD []), s := sha512 (imgAll s.ownImg), slot := 1 - s.activeSlot,
                    k := s.otp.used0 }
  let s := (s.setProc (some p)).wf NCH_CMSSTAT.STAGE 3
  s.outReq (s.rf TSK_OUTREQ.REQ)

/-- CMS_CONFIRM (R431, R399). What a peer's staging and counter answer is free (DESIGN CHOICE, log entry 30): staging not
CHECKED, counter 0 used up, or, where nothing is staged in this lane, another set CHECKED. -/
def execCmsConfirm (ch : Nat) (chars : Vector Byte 8) (s : State) : Res :=
  s.mailCmd ch 0x0602 (.cmsConfirm (Fin.ofNat 8 ch) chars) fun s =>
    let c := chars.toList
    let free := s.freeNat % 4
    if s.procBusy then s.finish ch stBusy []
    else s.withPeers ch fun s =>
    if (s.rf NCH_CMSSTAT.STAGE != 0 && s.rf NCH_CMSSTAT.STAGE != 2) || free == 1 then (s.used 1).finish ch stCheckRefused []
    else if s.sec.set && c == valueChars s.activeV && s.sec.staging.isNone then
      (if free == 3 then (s.used 1).finish ch stMismatch [] else (s.used 1).finish ch stOk (leBytes 4 s.commitsLeft))
    else if s.sec.digest.isNone || c != valueChars (valueOf (s.sec.digest.getD [])) then (s.used 1).finish ch stMismatch []
    else if s.otp.used0 == 1024 || free == 2 then (s.used 1).finish ch stExhausted []
    else ((s.used 1).bridgeAll clsModule (.bulk .cmsConfirm)).commitBegin (some ch)

/-- Every fitted peer has sent PREPARED, or one has sent INTENT: step 7 ends. -/
def State.commitGo (s : State) (p : Proc) : State :=
  if p.intent || s.peersOf.all (fun k => p.prepared.testBit k) then s.setProc (some { p with step := 8 }) else s.setProc (some p)

/-- The newest valid step that the boot found of a commit that awaits resolution. -/
def State.pendStep (s : State) : Nat := match s.sec.pend with | some r => r.step | none => stpPrepared

/-- A commit ends without the new set: ABORT, FAILED. -/
def State.commitAbort (s : State) (p : Proc) : State :=
  let s := (s.commitNow p stpAbort).wf NCH_CMSSTAT.STAGE (if s.sec.staging.isSome then 2 else 0)
  let st := s.pendStep
  let s := if p.resumed then ({ s with sec := { s.sec with pend := none } }.wb NCH_CMSSTAT.PENDING false).recovered opCommit st 2 else s
  s.procEnd p stFailed []

/-- Step 11: the new set becomes active. -/
def State.commitActivate (s : State) (p : Proc) : State :=
  let held := s.svcHeld
  let im := s.slotImg p.slot
  let st := s.pendStep
  let s := { s with sec := { s.sec with slot := p.slot, set := true, setOk := true, staging := none, digest := none, pend := none, vFormed := true } }
  let s := (((s.activateImage im held).nodeFollow s).starDly).eflEval.setV p.v
  let s := (s.wf NCH_CMSSTAT.STAGE 0).wb NCH_CMSSTAT.PENDING false
  let s := if p.resumed then s.recovered opCommit st 1 else s
  s.procEnd p stOk (leBytes 4 s.commitsLeft)

/-- A completed step of a commit. -/
def State.commitStep (s : State) (p : Proc) : State :=
  let next := fun (s : State) => s.setProc (some { p with step := p.step + 1 })
  let par := fun (m : SMap Img) => { s with flash := { s.flash with par := m } }
  match p.step with
  | 1 => next (s.commitRec p stpBegin)
  | 2 => next (par (mdel (mdel s.flash.par p.slot) (2 + p.slot)))
  | 3 => next (par (mset s.flash.par p.slot s.ownImg))
  | 4 => next (par (mset s.flash.par (2 + p.slot) s.ownImg))
  | 5 => next s
  | 6 => ((s.commitRec p stpPrepared).bridgeAll clsModule (.commit .prepared)).commitGo { p with step := 7, waitAt := s.now }
  | 8 => let p := { p with k := s.otp.used0 }
         ((s.commitRec p stpIntent).bridgeAll clsModule (.commit .intent)).setProc (some { p with step := 9 })
  | 9 => (s.notch 0).setProc (some { p with step := 10, notchGt := s.gt })
  | 10 => next ((s.commitRec p stpActive).notchLog 0 p.notchGt p.v)
  | 11 => s.commitActivate p
  | _ => s

/-- A PREPARED or INTENT of a peer (R433). -/
def State.commitIn (s : State) (peer : Nat) (msg : CommitMsg) : State :=
  match s.sec.proc with
  | none => s
  | some p =>
    if p.kind ≠ 1 ∨ p.resumed then s
    else
      let p := match msg with
        | .prepared => { p with prepared := setBitTo p.prepared peer true }
        | .intent => { p with intent := true }
      if p.step = 7 then s.commitGo p
      else if p.step = 12 ∧ p.intent then s.setProc (some { p with step := 8 })
      else s.setProc (some p)

/-- COMMIT_WAIT_TIMEOUT (R433): 50 ms at step 7. -/
def execCommitWaitTimeout (s : State) : Res :=
  match s.sec.proc with
  | none => .next s
  | some p => s.whenB (s.serves && p.kind == 1 && p.step == 7 && decide (p.waitAt + 50000000 ≤ s.now)) fun s =>
      (s.commitAbort p).setProc (some { p with step := 12, ch := none })

/-! ### Nonces, reports and certificates (R411, R412, R415) -/

/-- SEC_NONCE (R411). -/
def execSecNonce (ch : Nat) (s : State) : Res :=
  s.mailCmd ch 0x0700 (.secNonce (Fin.ofNat 8 ch)) fun s =>
    let n := s.freeBytes 16
    ({ s with sec := { s.sec with nonce := some (n, s.gt) } }.used 16).finish ch stOk n

/-- NONCE_EXPIRY (R411). -/
def execNonceExpiry (s : State) : Res :=
  match s.sec.nonce with
  | none => .next s
  | some (_, t) => s.whenB (s.on && decide (t + 60000000000 ≤ s.gt)) State.nonceUsed

/-- The fields of an attestation report (Table SEC-4), taken in one step. -/
def State.reportBody (s : State) (nonce : List Byte) : List Byte :=
  let flags := b2n s.debugOff + b2n (s.otp.lockProf != 0) * 2 + b2n (s.st != stDebug) * 4 + b2n s.certOk * 8 + b2n (s.rb SEC_BOOT.TRIAL) * 16
  leBytes 4 0x5454414A ++ [BitVec.ofNat 8 s.otp.lane, BitVec.ofNat 8 s.keySlot, BitVec.ofNat 8 s.otp.used1, BitVec.ofNat 8 flags] ++
  s.serialBytes ++ nonce ++ leBytes 8 s.gt ++ leBytes 4 (s.peekReg LANE_STATE.adr) ++ leBytes 4 (s.peekReg LANE_REV.adr) ++
  leBytes 4 (s.peekReg LANE_PROFILE.adr) ++ leBytes 8 s.activeV ++ (List.range 5).flatMap (fun n => leBytes 4 (s.notchUsed n)) ++
  sha512 (s.manifest s.sec.bank 0) ++ (if s.sec.appOk then sha512 (s.manifest s.sec.bank 1) else List.replicate 64 0)

/-- SEC_ATTEST (R415). -/
def execSecAttest (ch : Nat) (nonce : Vector Byte 16) (s : State) : Res :=
  s.mailCmd ch 0x0701 (.secAttest (Fin.ofNat 8 ch) nonce) fun s => s.finish ch stOk (s.signed (s.reportBody nonce.toList))

/-- SEC_CERT_READ (R412): the certificate record. -/
def execSecCertRead (ch : Nat) (s : State) : Res :=
  s.mailCmd ch 0x0702 (.secCertRead (Fin.ofNat 8 ch)) fun s =>
    s.finish ch stOk ((s.flash.cert ++ List.replicate 128 0xFF).take 128)

/-- NCH_LOG_READ (R437). -/
def execNchLogRead (ch : Nat) (entry : BitVec 16) (s : State) : Res :=
  s.mailCmd ch 0x070A (.nchLogRead (Fin.ofNat 8 ch) entry) fun s =>
    match s.flash.log[entry.toNat]? with
    | some e => s.finish ch stOk e
    | none => s.finish ch stInvalidParam []

/-! ### Debug and injection tokens (R414, R422, R424) -/

/-- The lane enters DEBUG (R422). -/
def State.enterDebug (s : State) : State :=
  if s.st = stDebug then s else (((s.raiseEv 225 0).toSt stDebug).nodeGoOff).outEval.redecide

/-- SEC_DEBUG_ENTER (R414, R422). -/
def execSecDebugEnter (ch : Nat) (token : List Byte) (s : State) : Res :=
  s.mailCmd ch 0x0703 (.secDebugEnter (Fin.ofNat 8 ch) token) fun s =>
    if s.debugOff then s.finish ch stDenied []
    else if s.tokenOk 1 token then (s.nonceUsed.enterDebug).finish ch stOk []
    else s.nonceUsed.finish ch stDenied []

/-- SEC_DEBUG_EXIT (R422). -/
def execSecDebugExit (ch : Nat) (s : State) : Res :=
  s.mailCmd ch 0x0704 (.secDebugExit (Fin.ofNat 8 ch)) fun s => (s.finish ch stOk []).resetAfter ch

/-- SEC_INJECT_TOKEN (R414, R424). -/
def execSecInjectToken (ch : Nat) (token : List Byte) (s : State) : Res :=
  s.mailCmd ch 0x0705 (.secInjectToken (Fin.ofNat 8 ch) token) fun s =>
    if s.debugOff then s.finish ch stDenied []
    else if s.tokenOk 2 token then
      let t := s.gt + 1000000000 * leAt token 64 4
      let s := s.nonceUsed
      ({ s with ast := { s.ast with tokenEnd := some t } }.setN SEC_TOKENEXP.adr t).finish ch stOk []
    else s.nonceUsed.finish ch stDenied []

/-- INJECT_TOKEN_LAPSE (R424). -/
def execInjectTokenLapse (s : State) : Res :=
  match s.ast.tokenEnd with
  | none => .next s
  | some t => s.whenB (s.on && decide (t ≤ s.gt)) State.endToken

/-! ### Orders (R413, R421, R425, R438 to R440) -/

/-- An order begins: INTENT, notch, EFFECT. -/
def State.orderBegin (s : State) (kind arg : Nat) (ch : Option Nat) : State :=
  let s := s.setProc (some { kind := 2, step := 1, ch, order := kind, arg })
  s.outReq (s.rf TSK_OUTREQ.REQ)

/-- The end of an order: SEC_REKEY answers with the new key and a certificate request, and a lane in DEBUG resets after
SEC_DEBUG_DISABLE. -/
def State.orderEnd (s : State) (p : Proc) : State :=
  let s := s.procEnd p stOk (if p.order = 3 then s.idKey ++ s.signed s.certBody else [])
  match p.ch with
  | some c => if p.order = 1 ∧ s.st = stDebug then s.resetAfter c else s
  | none => s

/-- A completed step of an order. -/
def State.orderStep (s : State) (p : Proc) : State :=
  let n := orderCounter p.order
  match p.step with
  | 1 => (s.journal (s.orderRec p.order p.arg 1)).setProc (some { p with step := 2 })
  | 2 => (s.notch n).setProc (some { p with step := 3, notchGt := s.gt })
  | _ => ((s.journal (s.orderRec p.order p.arg 3)).orderDone p.order p.arg p.notchGt).orderEnd p

/-- What every order checks first: its counter, then the order; `k` runs an accepted one. -/
def State.orderCmd (s : State) (ch kind : Nat) (order : List Byte) (k : State → State) : State :=
  if s.procBusy then s.finish ch stBusy []
  else if s.notchUsed (orderCounter kind) = notchBudget (orderCounter kind) then s.finish ch stExhausted []
  else if s.orderOk kind order then k s.nonceUsed
  else s.nonceUsed.finish ch stDenied []

/-- SEC_DEBUG_DISABLE (R425). -/
def execSecDebugDisable (ch : Nat) (order : List Byte) (s : State) : Res :=
  s.mailCmd ch 0x0706 (.secDebugDisable (Fin.ofNat 8 ch) order) fun s => s.orderCmd ch 1 order fun s => s.orderBegin 1 0 (some ch)

/-- SEC_ROOT_REVOKE (R439). -/
def execSecRootRevoke (ch : Nat) (order : List Byte) (s : State) : Res :=
  s.mailCmd ch 0x0707 (.secRootRevoke (Fin.ofNat 8 ch) order) fun s => s.orderCmd ch 2 order fun s =>
    let slot := s.otp.used1 + 1
    if s.manifestOk s.sec.bank 0 slot && s.manifestOk s.sec.bank 1 slot then s.orderBegin 2 0 (some ch)
    else s.finish ch stDenied []

/-- SEC_REKEY (R440). -/
def execSecRekey (ch : Nat) (order : List Byte) (s : State) : Res :=
  s.mailCmd ch 0x0708 (.secRekey (Fin.ofNat 8 ch) order) fun s => s.orderCmd ch 3 order fun s => s.orderBegin 3 0 (some ch)

/-- SEC_PROFILE_LOCK (R413, R438). What a peer's MAXPROF and counter answer is free (DESIGN CHOICE, log entry 30). -/
def execSecProfileLock (ch : Nat) (order : List Byte) (s : State) : Res :=
  s.mailCmd ch 0x0709 (.secProfileLock (Fin.ofNat 8 ch) order) fun s =>
    if s.procBusy then s.finish ch stBusy []
    else s.withPeers ch fun s => s.orderCmd ch 4 order fun s =>
    let p := leAt order 7 1
    let free := s.freeNat % 4
    if p = 0 ∨ s.rf LANE_PROFILE.MAXPROF < p ∨ free = 1 then (s.used 1).finish ch stInvalidParam []
    else if free = 2 then (s.used 1).finish ch stExhausted []
    else ((s.used 1).bridgeAll clsModule (.bulk (.profileLock order))).orderBegin 4 p (some ch)

/-- A profile lock that a peer has taken (R413): every check but the nonce. -/
def State.lockIn (s : State) (order : List Byte) : State :=
  let p := leAt order 7 1
  if s.orderFields 4 order && !s.procBusy && s.otp.used3 != 4 && p != 0 && decide (p ≤ s.rf LANE_PROFILE.MAXPROF)
  then s.orderBegin 4 p none else s

/-! ### Firmware update (R441 to R443) -/

/-- Image regions of a bank erased, to be written anew. -/
def State.bankErase (s : State) (b : Nat) : State :=
  { s with flash := { s.flash with fw := mdel (mdel s.flash.fw (2 * b)) (2 * b + 1), emptied := setBitTo s.flash.emptied b false } }

/-- A session ends without an activation: an ABORT record, and the bank it wrote is marked empty, not erased (R443,
R480). -/
def State.updDrop (s : State) (b : Nat) : State :=
  let s := s.updNow stpAbort b
  { s with flash := { s.flash with emptied := setBitTo s.flash.emptied b true } }

/-- UPD_BEGIN (R441, R480). -/
def execUpdBegin (ch : Nat) (image : Byte) (size : Word) (s : State) : Res :=
  s.mailCmd ch 0x0900 (.updBegin (Fin.ofNat 8 ch) image size) fun s =>
    let t := image.toNat
    let n := size.toNat
    let c := if s.otherBank = 0 then s.updCounts.1 else s.updCounts.2
    if s.procBusy || s.upd.isOpen || s.upd.trial then s.finish ch stBusy []
    else if 1 < t ∨ n < 4 ∨ fwSize t < n then s.finish ch stInvalidParam []
    else if 3000 ≤ c then s.finish ch stExhausted []
    else s.setProc (some { kind := 3, step := 1, ch := some ch, order := t, arg := n })

/-- A completed step of an opening: BEGIN, erase, copy of the other image. -/
def State.openStep (s : State) (p : Proc) : State :=
  let b := s.otherBank
  match p.step with
  | 1 => (s.updRec updBegin b).setProc (some { p with step := 2 })
  | 2 => (s.bankErase b).setProc (some { p with step := 3 })
  | _ =>
    let t := 1 - p.order
    let s := { s with flash := { s.flash with fw := mset s.flash.fw (2 * b + t) (mget [] s.flash.fw (2 * s.sec.bank + t)) } }
    let s := { s with upd := { s.upd with isOpen := true, type := p.order, size := p.arg, parts := [], verified := false } }
    (s.bridgeAll clsBulk (.updSession true)).procEnd p stOk []

/-- UPD_WRITE (R441). -/
def execUpdWrite (ch : Nat) (offset : Word) (data : List Byte) (s : State) : Res :=
  s.mailCmd ch 0x0901 (.updWrite (Fin.ofNat 8 ch) offset data) fun s =>
    let o := offset.toNat
    let n := data.length
    if n < 4 ∨ 1016 < n then s.finish ch stBadLength []
    else if !s.upd.isOpen || o % 4 != 0 || decide (s.upd.size < o + n) || s.upd.parts.any (fun p => decide (p.1 < o + n) && decide (o < p.1 + p.2))
    then s.finish ch stInvalidParam []
    else
      let i := 2 * s.otherBank + s.upd.type
      let s := { s with flash := { s.flash with fw := mset s.flash.fw i (imgPut 0xFF (mget [] s.flash.fw i) o data) } }
      { s with upd := { s.upd with parts := s.upd.parts ++ [(o, n)] } }.finish ch stOk []

/-- What UPD_VERIFY returns (R442). -/
def State.updResult (s : State) : Nat :=
  let b := s.otherBank
  let h := s.verifyImage b 0
  let m := s.fwMaxProf b
  if h ≠ 0 then h
  else if m < s.rf LANE_PROFILE.ACTIVE ∨ m < s.otp.lockProf then 1
  else s.verifyImage b 1

/-- UPD_VERIFY (R442). -/
def execUpdVerify (ch : Nat) (s : State) : Res :=
  s.mailCmd ch 0x0902 (.updVerify (Fin.ofNat 8 ch)) fun s =>
    { s with upd := { s.upd with verified := s.updResult == 0 } }.finish ch stOk (leBytes 4 s.updResult)

/-- UPD_ACTIVATE (R442). -/
def execUpdActivate (ch : Nat) (s : State) : Res :=
  s.mailCmd ch 0x0903 (.updActivate (Fin.ofNat 8 ch)) fun s =>
    if s.procBusy || !s.upd.verified then s.finish ch stBusy []
    else s.setProc (some { kind := 4, step := 1, ch := some ch })

/-- The ACTIVATE record is written: the response, and the reset. -/
def State.activateStep (s : State) (p : Proc) : State :=
  let s := (s.updRec updActivate s.otherBank).bridgeAll clsBulk (.updSession false)
  let s := { s with upd := { s.upd with isOpen := false } }.procEnd p stOk []
  s.resetAfter (p.ch.getD 8)

/-- UPD_ABORT (R443). -/
def execUpdAbort (ch : Nat) (s : State) : Res :=
  s.mailCmd ch 0x0904 (.updAbort (Fin.ofNat 8 ch)) fun s =>
    if !s.upd.isOpen then s.finish ch stOk []
    else
      let s := s.updDrop s.otherBank
      ({ s with upd := { trial := s.upd.trial } }.bridgeAll clsBulk (.updSession false)).finish ch stOk []

/-- UPD_STATUS (R443). -/
def execUpdStatus (ch : Nat) (s : State) : Res :=
  s.mailCmd ch 0x0905 (.updStatus (Fin.ofNat 8 ch)) fun s =>
    let st := if s.upd.trial then 3 else if !s.upd.isOpen then 0 else if s.upd.verified then 2 else 1
    s.finish ch stOk (leBytes 4 st ++ leBytes 4 ((s.upd.parts.map (·.2)).sum) ++ leBytes 4 s.sec.bank)

/-! ### Flash operations (R432, R433) -/

/-- A step that did not take: a notch is tried once more, a record after the notch until it takes, and before it the
procedure fails. -/
def State.procFail (s : State) (p : Proc) : State :=
  if p.kind = 1 then
    if p.step = 7 ∨ p.step = 12 ∨ 10 ≤ p.step then s
    else if p.step = 9 ∧ !p.retried then s.setProc (some { p with retried := true })
    else s.commitAbort p
  else if p.kind = 2 then
    if p.step = 3 then s
    else if p.step = 2 ∧ !p.retried then s.setProc (some { p with retried := true })
    else s.procEnd p stFailed []
  else if p.kind = 3 ∧ p.step ≠ 1 then (s.updDrop s.otherBank).procEnd p stFailed []
  else s.procEnd p stFailed []

/-- FLASH_OPERATION_DONE (R421, R432): the step in progress completes; `ok` is false where what was written does not read
back. -/
def execFlashOperationDone (ok : Bool) (s : State) : Res :=
  s.whenB s.serves fun s =>
    match s.sec.proc with
    | none => s
    | some p =>
      if !ok then s.procFail p
      else if p.kind = 1 then s.commitStep p
      else if p.kind = 2 then s.orderStep p
      else if p.kind = 3 then s.openStep p
      else s.activateStep p

end Sys2Proof.Machine
end

