-- ==== Sys2Proof/Machine/Lane.lean ====
section
/-! DEFINITION. Lane bridges, heartbeats and grants (chapter "Lanes, blocks and the module"). -/

namespace Sys2Proof.Machine

/-! ### Heartbeats (R33, R35, Table LANE-8) -/

/-- A check value with its valid bit, as eight bytes. -/
def checkBytes (v : Nat) (valid : Bool) : List Byte := leBytes 8 (if valid then v % 2 ^ 40 + 2 ^ 63 else 0)

/-- The payload of a heartbeat. -/
def Heartbeat.bytes (h : Heartbeat) : List Byte :=
  leBytes 4 h.seq ++ leBytes 1 (h.state % 16 + b2n h.ready * 16 + b2n h.pend * 32) ++ leBytes 1 h.profile ++ leBytes 1 (h.rmode % 4) ++
  leBytes 1 0 ++ checkBytes h.v h.vValid ++ checkBytes h.pv h.pvValid ++ leBytes 4 0

/-- The fields of a payload. -/
def heartbeatOf (l : List Byte) : Heartbeat :=
  let b := leAt l 4 1
  let v := leAt l 8 8
  let p := leAt l 16 8
  { seq := leAt l 0 4, state := b % 16, ready := b.testBit 4, pend := b.testBit 5, profile := leAt l 5 1, rmode := leAt l 6 1 % 4
    v := v % 2 ^ 40, vValid := v.testBit 63, pv := p % 2 ^ 40, pvValid := p.testBit 63 }

/-- The lane's own heartbeat. -/
def State.myHeartbeat (s : State) : Heartbeat :=
  let vv := s.sec.set && s.sec.vFormed
  let pv := match s.sec.pend with | some r => r.v % 2 ^ 40 | none => 0
  { seq := s.lane.hbSeq, state := s.st, ready := s.st == stIntegrate && s.lane.readyAt.isSome, pend := s.sec.pend.isSome
    profile := s.rf LANE_PROFILE.ACTIVE, rmode := s.rmode, v := if vv then s.activeV else 0, vValid := vv
    pv := pv, pvValid := s.sec.pend.isSome }

/-- A heartbeat to every fitted peer (R35). -/
def State.heartbeat (s : State) : State :=
  let s := s.bridgeAll clsHeartbeat (.heartbeat s.myHeartbeat.bytes)
  { s with lane := { s.lane with hbSeq := (s.lane.hbSeq + 1) % 2 ^ 32, hbLast := some s.now } }

/-! ### Readiness (R39, R435, R458) -/

/-- The lane is ready by R458, but for R39 and R435. -/
def State.readyBase (s : State) : Bool :=
  s.st == stIntegrate && s.tskRun && s.sec.appOk && s.sec.pend.isNone && s.rb SPN_SYNCSTAT.ALIGNED &&
  (s.nodeSt == nodeActive || decide (s.lane.integAt + 1000000 * s.rf PMU_STARTCFG.NETWAIT ≤ s.now)) &&
  (!s.rb LBR_AGRCFG.EN || s.agr.took)

/-- What keeps the lane out of SERVICE under R39: a peer in SERVICE with another profile, as the detail word of 226
(R445). -/
def State.profileBar (s : State) : Option Nat :=
  ((s.peersOf.filter s.bridgeUp).find? (fun k =>
    (s.peer k).hb.state == stService && (s.peer k).hb.profile != s.rf LANE_PROFILE.ACTIVE)).map (fun k => 2 + k * 256)

/-- What keeps it out under R435: its image against its ACTIVE record, then a peer's V against its own. -/
def State.valueBar (s : State) : Option Nat :=
  if !s.sec.setOk then some 3
  else ((s.peersOf.filter s.bridgeUp).find? (fun k => let h := (s.peer k).hb
    (h.state == stIntegrate || h.state == stService) && !(h.vValid && h.v == s.activeV))).map (fun k => 3 + k * 256)

/-- R39 or R435 keeps the lane out of SERVICE. -/
def State.serveBarred (s : State) : Bool := s.profileBar.isSome || s.valueBar.isSome

/-- The lane is ready, or has ceased to be; from then on each peer has PEERWAIT anew (R459). -/
def State.readyJudge (s : State) : State :=
  let ok := s.readyBase && !s.serveBarred
  if ok && s.lane.readyAt.isNone then
    s.peersOf.foldl (fun s k => s.setPeer k { s.peer k with leftOut := false }) { s with lane := { s.lane with readyAt := some s.now } }
  else if !ok && s.lane.readyAt.isSome then { s with lane := { s.lane with readyAt := none } }
  else s

/-- R39 and R435 are judged: 226 once for each refusal. -/
def State.serveJudge (s : State) : State :=
  if s.st ≠ stIntegrate ∨ s.sec.pend.isSome then s
  else
    let p := s.profileBar
    let v := s.valueBar
    let s := match p with | some d => if s.sec.mism39 then s else s.raiseEv 226 d | none => s
    let s := match v with | some d => if s.sec.mism435 then s else s.raiseEv 226 d | none => s
    { s with sec := { s.sec with mism39 := p.isSome, mism435 := v.isSome } }

/-- HEARTBEAT_SEND (R35): the first since the reset at once, every later one 100 µs after the last. -/
def execHeartbeatSend (s : State) : Res :=
  s.whenB (s.on && s.lane.hbLast.all (fun t => decide (t + 100000 ≤ s.now))) fun s => s.readyJudge.heartbeat

/-! ### What a heartbeat brings -/

/-- The bridge is up after the third valid heartbeat in a row; 8 ends when no bridge that has been up is lost. -/
def State.bridgeDeclareUp (s : State) (k : Nat) : State :=
  let s := (s.wbit LANE_PEERS.BRIDGE_UP k true).wb (LBR_EPSTAT.UP (s.endpoint k)) true
  let s := s.setPeer k { s.peer k with everUp := true }
  if s.peersOf.all (fun j => !(s.peer j).everUp || s.bridgeUp j) then s.deassertSrc 8 else s

/-- The peer's fields, from its newest valid heartbeat. -/
def State.peerFields (s : State) (k : Nat) (h : Heartbeat) : State :=
  let p := s.peer k
  let run := if p.run = 0 ∨ h.seq = (p.hb.seq + 1) % 2 ^ 32 then min 3 (p.run + 1) else 1
  let ready := if h.ready then (if p.readyAt.isNone then some s.now else p.readyAt) else none
  let svc := if h.state = stService then (if p.serviceGt.isNone then some s.gt else p.serviceGt) else none
  let s := s.setPeer k { p with run := run, lastHb := s.now, hb := h, readyAt := ready, serviceGt := svc }
  let e := s.endpoint k
  let s := ((s.wf (LBR_EPSTAT.PEER e) k).wf (LBR_EPSTAT.PROFILE e) h.profile).wf (LBR_EPSTAT.PSTATE e) h.state
  let s := s.wbit LANE_PEERS.INSERVICE k (h.state == stService)
  if run = 3 ∧ !s.bridgeUp k then s.bridgeDeclareUp k else s

/-- A peer that entered SERVICE together with this lane counts until it reports another state (R459). -/
def State.jointFields (s : State) (k : Nat) (h : Heartbeat) : State :=
  if (s.rdmPeer k).joint && h.state != stService then s.setRdmPeer k { s.rdmPeer k with joint := false } else s

/-- The peer reports to this lane: its bridge is up (R35) and it is not in DEBUG (R34). -/
def State.reports (s : State) (k : Nat) : Bool := s.bridgeUp k && (s.peer k).hb.state != stDebug

/-- A commit that awaits resolution follows a fitted peer's set (R434): the prepared value, and the lane completes it; any
other, and it keeps the old set. -/
def State.resolvePend (s : State) (h : Heartbeat) : State :=
  match s.sec.pend with
  | none => s
  | some r =>
    if s.st ≠ stIntegrate ∨ !h.vValid ∨ s.procBusy then s
    else
      let p : Proc := { kind := 1, step := 9, v := r.v, s := sha512 (imgAll (s.slotImg (r.target % 2))), slot := r.target % 2, k := r.k, resumed := true }
      if h.v = r.v then s.setProc (some p) else s.commitAbort p

/-- A heartbeat arrives. -/
def State.heartbeatIn (s : State) (k : Nat) (payload : List Byte) (crcOk : Bool) : State :=
  if !s.isPeer k then s
  else if !crcOk then s.incSat (LBR_ERRCNT.CRCERR (s.endpoint k))
  else
    let h := heartbeatOf payload
    let s := (s.peerFields k h).jointFields k h
    let s := if s.reports k then s.resolvePend h else s
    let s := if s.peerAbsent then s.checkEnd stPeerAbsent else s
    let s := s.serveJudge.readyJudge
    if s.st = stService then s.redecide else s

/-! ### The other messages -/

/-- A time message (R48): SPN_PEEROFFk, 0 for an absent or lost peer, and the peer's network offset. -/
def State.timeIn (s : State) (k : Nat) (offset : Int) (net : Option Int) : State :=
  if !s.isPeer k then s
  else (s.setPeer k { s.peer k with poff := offset, pvalid := true, netOff := net }).setN (SPN_PEEROFF.adr k)
    (if s.reports k then satSigned32 offset else 0)

/-- A summary (R297). -/
def State.summaryIn (s : State) (k : Nat) (eflLow : Bool) (faults : Nat) : State :=
  if !s.bridgeUp k then s else s.setPeer k { s.peer k with eflLow := eflLow, faults := faults }

/-- A lane that can take part in a module command (R398). -/
def State.takesPart (s : State) (k : Nat) : Bool :=
  s.serves && s.st != stDebug && s.bridgeUp k && (s.peer k).hb.state != stDebug && (s.peer k).hb.state != stBoot

/-- A message of a module command (R398, R429 to R431, R438). -/
def State.moduleIn (s : State) (k : Nat) (msg : Bulk) : State :=
  if !s.takesPart k then s
  else match msg with
    | .cmsCheck chain count profs cap found =>
      if s.procBusy then (s.bridgeAll clsModule (.bulk .cmsBusy)).checkEnd stBusy
      else if chain.isEmpty then (if s.otp.lane = 0 then s.checkTurn shaInit 0 [] 255 none else s)
      else if k + 1 = s.otp.lane then s.checkTurn chain count profs cap found else s
    | .cmsBusy => s.checkEnd stBusy
    | .cmsDigest d => s.checkDone d
    | .cmsRefused lane rule ofs => s.checkRefused lane rule ofs
    | .cmsConfirm =>
      if s.procBusy || s.sec.digest.isNone || s.otp.used0 == 1024 || s.rf NCH_CMSSTAT.STAGE == 1 then s else s.commitBegin none
    | .profileLock order => s.lockIn order

/-- A bridge message that its endpoint has received. -/
def bridgeRun (c : Instr) (s : State) : State :=
  match c with
  | .heartbeatReceive k p ok => s.heartbeatIn k p.toList ok
  | .timeMessageReceive k o n => s.timeIn k o n
  | .summaryReceive k e f => s.summaryIn k e f
  | .moduleCommandReceive k m => s.moduleIn k m
  | .agreementReceive k r o t w => s.agreementIn k r o t w
  | .voteReceive k v => s.voteIn k v
  | .commitPeerMessage k m => if s.takesPart k then s.commitIn k m else s
  | .updateCoordinationReceive k o => if s.bridgeUp k then s.setPeer k { s.peer k with updOpen := o } else s
  | _ => s

/-- A received bridge frame after a CORRUPT event: 8 header bytes, 28 payload bytes, the CRC (R31). With the CRC left it
is discarded; with it recomputed it is good, and a heartbeat's payload differs in one bit. -/
def bridgeFlip (k free param : Nat) (fix : Bool) (c : Instr) : Option Instr :=
  if 320 ≤ param then some c
  else if !fix then some (.heartbeatReceive (Fin.ofNat 3 k) (Vector.replicate 28 0) false)
  else if 288 ≤ param then
    match c with
    | .heartbeatReceive k p _ => some (.heartbeatReceive k p true)
    | c => some c
  else match c with
    | .heartbeatReceive k p _ =>
      if param < 64 then Config.corrupted param free c
      else some (.heartbeatReceive k (Vector.ofFn fun i => (flipBit p.toList (param - 64)).getD i.val 0) true)
    | c => Config.corrupted param free c

/-- A time message that arrives later by `d` ns: the two-way offset is shorter by half of it. -/
def bridgeShift (d : Nat) (c : Instr) : Instr :=
  match c with
  | .timeMessageReceive k o n => .timeMessageReceive k (o - (d / 2 : Nat)) n
  | c => c

/-- A frame at the bridge endpoint towards lane `k` (R33, R350): a bad CRC counts at the endpoint. -/
def State.bridgeRx (s : State) (k cls : Nat) (c : Instr) : Res :=
  s.whenB (s.on && s.isPeer k) fun s =>
    (s.used 1).recvInj injBridgeRx (s.endpoint k) cls 0 c (bridgeFlip k s.free) bridgeShift bridgeRun

/-- HEARTBEAT_RECEIVE (R33, R35). -/
def execHeartbeatReceive (peer : Nat) (payload : Vector Byte 28) (crcOk : Bool) (s : State) : Res :=
  s.bridgeRx peer clsHeartbeat (.heartbeatReceive (Fin.ofNat 3 peer) payload crcOk)

/-- TIME_MESSAGE_RECEIVE (R48). -/
def execTimeMessageReceive (peer : Nat) (offset : Int) (netOffset : Option Int) (s : State) : Res :=
  s.bridgeRx peer clsTime (.timeMessageReceive (Fin.ofNat 3 peer) offset netOffset)

/-- SUMMARY_RECEIVE (R297). -/
def execSummaryReceive (peer : Nat) (eflLow : Bool) (faults : Fin 257) (s : State) : Res :=
  s.bridgeRx peer clsSummary (.summaryReceive (Fin.ofNat 3 peer) eflLow faults)

/-- MODULE_COMMAND_RECEIVE (R398). -/
def execModuleCommandReceive (peer : Nat) (msg : Bulk) (s : State) : Res :=
  s.bridgeRx peer clsBulk (.moduleCommandReceive (Fin.ofNat 3 peer) msg)

/-- AGREEMENT_RECEIVE (R242). -/
def execAgreementReceive (peer round origin : Nat) (tag : Word) (words : List Word) (s : State) : Res :=
  s.bridgeRx peer clsAgreement (.agreementReceive (Fin.ofNat 3 peer) (Fin.ofNat 2 round) (Fin.ofNat 3 origin) tag words)

/-- VOTE_RECEIVE (R250 to R253). -/
def execVoteReceive (peer : Nat) (vote : Vote) (s : State) : Res :=
  s.bridgeRx peer clsVote (.voteReceive (Fin.ofNat 3 peer) vote)

/-- COMMIT_PEER_MESSAGE (R433). -/
def execCommitPeerMessage (peer : Nat) (msg : CommitMsg) (s : State) : Res :=
  s.bridgeRx peer clsBulk (.commitPeerMessage (Fin.ofNat 3 peer) msg)

/-- UPDATE_COORDINATION_RECEIVE (R394). -/
def execUpdateCoordinationReceive (peer : Nat) (sessionOpen : Bool) (s : State) : Res :=
  s.bridgeRx peer clsBulk (.updateCoordinationReceive (Fin.ofNat 3 peer) sessionOpen)

/-! ### Bridge loss (R33, R42) -/

/-- Lanes whose bridge has been up since the reset and is lost. -/
def State.lostMask (s : State) : Nat := maskOf (s.peersOf.filter (fun j => (s.peer j).everUp && !s.bridgeUp j))

/-- 8 LANE_BRIDGE_LOSS: asserted at the first loss; losses of one capture window are one raise. -/
def State.raiseLoss (s : State) (k : Nat) : State :=
  if !s.asserted 8 then s.assertSrc 8 (k + s.lostMask * 256)
  else
    let same := fun (r : Raise) => r.src == 8 && r.at_ == s.now
    { s with tly := { s.tly with raises := s.tly.raises.map (fun r =>
        if same r then { r with detail := min k (r.detail % 4) + s.lostMask * 256 } else r) } }

/-- BRIDGE_LOSS_TIMEOUT (R33). -/
def execBridgeLossTimeout (peer : Nat) (s : State) : Res :=
  s.whenB (s.on && s.isPeer peer && s.bridgeUp peer && decide ((s.peer peer).lastHb + 300000 ≤ s.now)) fun s =>
    let e := s.endpoint peer
    let s := (s.wbit LANE_PEERS.BRIDGE_UP peer false).wbit LANE_PEERS.INSERVICE peer false
    let s := (s.wb (LBR_EPSTAT.UP e) false).incSat (LBR_ERRCNT.LOSSES e)
    let s := s.setPeer peer { s.peer peer with run := 0, pvalid := false, netOff := none, updOpen := false, readyAt := none, serviceGt := none }
    let s := (s.setN (SPN_PEEROFF.adr peer) 0).raiseLoss peer
    (s.checkEnd stPeerAbsent).readyJudge.redecide

/-! ### Access faults (R22, R23) -/

/-- ACCESS_FAULT (R22, R23): an access that reaches nothing, or a store to boot ROM or flash; a read returns 0. -/
def execAccessFault (req addr : Nat) (write : Bool) (s : State) : Res :=
  s.whenB (s.on && (!reaches req addr || (write && (region addr == some 0 || region addr == some 4)))) fun s =>
    let s := s.accessFault addr req write
    if write then s else { s with rdata := 0 }

/-! ### Grants (R28, R30, R401) -/

/-- The owner codes that Table LANE-4 allows for a unit. -/
def unitAllows (u o : Nat) : Bool :=
  (1 ≤ o && o ≤ 4) || (8 ≤ o && o ≤ 13) || ((u ≤ 7 || (47 ≤ u && u ≤ 54)) && 16 ≤ o && o ≤ 19)

/-- A unit that the services need with the Headstock (R186, R188). -/
def State.svcUnit (s : State) (u : Nat) : Bool := u == 39 || u == 43 ||
  (imgSvcFlows s.otp.jv2g s.activeImg).any (fun r => 47 + svcFlowOf r / 64 == u)

/-- LANE_GRANT (R28, R30, R401). -/
def execLaneGrant (ch : Nat) (unit owner : Byte) (s : State) : Res :=
  s.mailCmd ch 0x0101 (.laneGrant (Fin.ofNat 8 ch) unit owner) fun s =>
    let u := unit.toNat
    let o := owner.toNat
    if 63 < u then s.finish ch stInvalidParam []
    else if u = 63 ∨ !unitAllows u o then s.finish ch stInvalidOwner []
    else if s.svcUnit u then s.finish ch stInvalidParam []
    else if s.moving u || s.svcHeld.contains u then s.finish ch stBusy []
    else if s.owner u = o then s.finish ch stOk []
    else s.startMove u o (some ch)

/-- GRANT_DRAIN_DONE (R30): the second step of the unit's move; a service that waits for the unit goes on, and a LANE_GRANT
that asked for the move completes. -/
def execGrantDrainDone (unit : Nat) (s : State) : Res :=
  match s.lane.moves.find? (fun m => m.1 == unit) with
  | none => .next s
  | some (_, m) => s.whenOn fun s =>
      let s := (s.endMove unit m).readmitAll.svcGo
      match m.ch with
      | some c => s.finish c stOk []
      | none => s

/-- LANE_INFO (R400). -/
def execLaneInfo (ch : Nat) (s : State) : Res :=
  s.mailCmd ch 0x0100 (.laneInfo (Fin.ofNat 8 ch)) fun s =>
    s.finish ch stOk ([LANE_ID.adr, LANE_REV.adr, LANE_SERIAL_LO.adr, LANE_SERIAL_HI.adr, LANE_STATE.adr, LANE_PEERS.adr,
      LANE_PROFILE.adr].flatMap (fun a => leBytes 4 (s.peekReg a)))

end Sys2Proof.Machine
end

