-- ==== Sys2Proof/Machine/Boot.lean ====
section
/-! DEFINITION. From the end of a reset to SERVICE (R417, R418, R434, R442, R453 to R462). -/

namespace Sys2Proof.Machine

/-! ### Loading images (R241, R417) -/

/-- Code and data segments of an image: load address and bytes. -/
def State.loadSegs (s : State) (bank type : Nat) : List (Nat × List Byte) :=
  let m := s.manifest bank type
  (List.range (manSegs m)).filterMap (fun i =>
    let (o, n) := manSeg m i
    if leAt m (44 + 80 * i) 1 ≤ 1 then some (leAt m (40 + 80 * i) 4, s.fwBytes bank type o n) else none)

/-- One segment stored: in the TCM of each of the given cores, or in SRAM. -/
def State.loadSeg (s : State) (keys : List Nat) (seg : Nat × List Byte) : State :=
  if region seg.1 = some 2 then s.memStore seg.1 seg.2
  else if region seg.1 = some 1 then
    { s with tcm := keys.foldl (fun t k => mset t k (memPuts (mget [] t k) seg.1 seg.2)) s.tcm }
  else s

/-- An image loaded for the given cores. -/
def State.loadImage (s : State) (bank type : Nat) (keys : List Nat) : State := (s.loadSegs bank type).foldl (fun s g => s.loadSeg keys g) s

/-! ### RESET_END, R35, R446, R456 -/

/-- RESET_END (R456): no cause holds the lane any more; BOOT, GT at 0, and the first heartbeat. -/
def execResetEnd (s : State) : Res :=
  s.whenB (s.st == stOff && !s.pmu.holdPower && !s.pmu.holdTherm && !s.pmu.holdRstn && !s.pmu.vioBad.testBit 0 &&
      decide (s.pmu.endAt ≤ s.now)) fun s =>
    let s := { s.toSt stBoot with gt := 0, frac := 0, pmu := { s.pmu with releasedAt := s.now, wdStopped := false } }
    let s := { s with spn := { s.spn with lastCorr := s.now } }
    s.heartbeat

/-! ### BOOT_COMPLETE (R417, R434, R442, R443) -/

/-- The bank that the ROM tries, and whether it is on trial (R442): a reset in a trial leads back to the old bank, and an
unfinished session leaves its bank empty. -/
def State.bootBank (s : State) : State × Nat × Bool :=
  match s.newest (fun r => r.op == opUpdate) with
  | none => (s, 0, false)
  | some r =>
    let b := r.target % 2
    if r.step = updActivate then (s.updNow updTrial b, b, true)
    else if r.step = updTrial then ((s.updNow updRevert (1 - b)).recovered opUpdate r.step 3, 1 - b, false)
    else if r.step = updBegin then ((s.updDrop b).recovered opUpdate r.step 2, s.bankActive, false)
    else (s, s.bankActive, false)

/-- 224 SEC_IMAGE_REJECT: the image type and its failing segment plus 1 (R445). -/
def State.imageReject (s : State) (type fail : Nat) : State := (s.raiseEv 224 (type + fail * 256)).wf SEC_BOOT.FAILSEG fail

/-- A bank's Headstock image is loaded and started. -/
def State.startHeadstock (s : State) (bank : Nat) (trial fallback : Bool) : State :=
  let s := { s with sec := { s.sec with bank := bank, hsOk := true }, upd := { s.upd with trial := trial } }
  let s := ((s.wf SEC_BOOT.BANK bank).wb SEC_BOOT.TRIAL trial).wb SEC_BOOT.FALLBACK fallback
  let s := (s.wf LANE_REV.FWREV (s.fwRev bank)).wf LANE_PROFILE.MAXPROF (s.fwMaxProf bank)
  s.loadImage bank 0 [1]

/-- The ROM's choice of a bank (R417): the journal's, else the other. A trial bank that fails is reverted. -/
def State.romBoot (s : State) : State :=
  let (s, b, trial) := s.bootBank
  let f := s.verifyImage b 0
  if f = 0 then s.startHeadstock b trial false
  else
    let s := s.imageReject 0 f
    let s := if trial then (s.updNow updRevert (1 - b)).recovered opUpdate updTrial 3 else s
    if s.verifyImage (1 - b) 0 = 0 then s.startHeadstock (1 - b) false true
    else { s.wf SEC_BOOT.FAILSEG (s.verifyImage (1 - b) 0) with pmu := { s.pmu with wdStopped := true } }

/-- The newest commit record resolved (R434). -/
def State.bootCommit (s : State) : State :=
  match s.newest (fun r => r.op == opCommit) with
  | none => s
  | some r =>
    if r.step = stpIntent ∧ s.otp.used0 = r.k + 1 then
      let p : Proc := { kind := 1, v := r.v, s := sha512 (imgAll (s.slotImg (r.target % 2))), slot := r.target % 2, k := r.k }
      (((s.commitNow p stpActive).notchLog 0 (s.freeNat % 2 ^ 64) r.v).used 1).recovered opCommit stpIntent 1
    else if r.step = stpPrepared ∨ r.step = stpIntent then
      { s with sec := { s.sec with pend := some r } }.wb NCH_CMSSTAT.PENDING true
    else if r.step = stpBegin then
      (s.commitNow { kind := 1, v := r.v, slot := r.target % 2, k := r.k } stpAbort).recovered opCommit stpBegin 2
    else s

/-- An order whose notch is programmed and whose effect is not recorded is completed (R421). -/
def State.bootOrder (s : State) : State :=
  match s.newest (fun r => r.op == opOrder) with
  | none => s
  | some r =>
    if r.step = 1 ∧ s.notchUsed (orderCounter r.target) = r.k + 1 then
      (((s.journalNow (s.orderRec r.target r.v 3)).orderDone r.target r.v (s.freeNat % 2 ^ 64)).used 1).recovered opOrder 1 1
    else s

/-- The set that the newest ACTIVE record names comes into force (R434, R435). -/
def State.bootSet (s : State) : State :=
  match s.activeRec with
  | none => s
  | some r =>
    let im := s.slotImg (r.target % 2)
    let s := { s with sec := { s.sec with slot := r.target % 2, set := true, setOk := sha512 (imgAll im) == r.s, vFormed := true } }
    (s.bootImage im).setV r.v

/-- ms since VLANE became valid, for a field of PMU_BOOTTIME. -/
def State.bootMs (s : State) : Nat := satN 1023 ((s.now - s.pmu.validAt) / 1000000)

/-- BOOT_COMPLETE (R417, R434, R456). -/
def execBootComplete (s : State) : Res :=
  s.whenB (s.st == stBoot && !s.sec.hsOk && !s.pmu.wdStopped) fun s =>
    let s := s.romBoot
    if !s.sec.hsOk then s
    else
      let s := s.bootOrder.bootCommit.bootSet
      (s.toSt stSelftest).wf PMU_BOOTTIME.TSELF s.bootMs

/-! ### SELFTEST_COMPLETE and the entry to INTEGRATE (R241, R418, R419, R457) -/

/-- The application image verified (R418): a verified image ends a trial (R442) and is loaded, and the pairs start. -/
def State.appBoot (s : State) : State :=
  let f := s.verifyImage s.sec.bank 1
  if f ≠ 0 then (s.imageReject 1 f).installCerts
  else
    let s := { s with sec := { s.sec with appOk := true } }.wb SEC_BOOT.APPOK true
    let s := if s.upd.trial then { s.updNow updCommitted s.sec.bank with upd := { s.upd with trial := false } } else s
    let keys := ((List.range 3).filter (fun p => s.rb (SLP_PAIRCFG.EN p))).flatMap (fun p => [8 + 2 * p, 9 + 2 * p])
    let s := s.installCerts.loadImage s.sec.bank 1 keys
    (List.range 3).foldl State.startPair s

/-- Blocks that start as the lane enters INTEGRATE from SELFTEST (R103, R148, R154, R261, R321, R342). -/
def State.startBlocks (s : State) : State := s.starStart.startUnits.inputsLive

/-- The lane enters INTEGRATE from SELFTEST (R27, R241, R297, R453). -/
def State.enterIntegrate (s : State) : State :=
  let s := ((s.toSt stIntegrate).wf PMU_BOOTTIME.TINTEG s.bootMs).loadGrants
  let s := { s with lane := { s.lane with integrated := true, integAt := s.now, readyAt := none }
                    pmu := { s.pmu with kickAt := s.now, nextA5 := false } }
  let s := (s.wb PMU_STAT.WDRUN true).vioJudge
  s.appBoot.startBlocks.eflEval

/-- The active set names a profile that this lane does not implement (R38). -/
def State.profileBad (s : State) : Bool :=
  let p := s.rf LANE_PROFILE.ACTIVE
  s.sec.set && (p == 0 || decide (s.rf LANE_PROFILE.MAXPROF < p))

/-- The outputs that step 7 pulses on: 0 and 4 only while no peer's heartbeat reports SERVICE (R457). -/
def State.selfPulses (s : State) : List Nat :=
  let alone := !s.peersOf.any (fun k => s.bridgeUp k && (s.peer k).hb.state == stService)
  (List.range 8).filter (fun k => alone || (k != 0 && k != 4))

/-- No comparator sticks: its exercise over every bit of every field, as in R236, passes (step 5). -/
def State.cmpGood (s : State) : Bool := s.cmpStuck.all (fun x => x.2.isNone)

/-- A step of self-test (Table PMU-3): its effect, and the bits of PMU_STSTAT that it sets where it fails. -/
def State.selfStep (r : SelfTest) (x : State × Nat) (k : Nat) : State × Nat :=
  let (s, f) := x
  match k with
  | 1 => (s, f + b2n (!r.tlySelf))
  | 2 => ({ s with mem := [] }, f + b2n (!r.sram) * 2)
  | 3 => ({ s with tcm := [] }, f + b2n (!r.tcm) * 4)
  | 4 => (s, f + b2n (!r.ckbuf) * 8 + b2n (!r.delay) * 16)
  | 5 => (s, f + b2n (!(r.cmp && s.cmpGood)) * 32)
  | 6 => (s, f + b2n (!r.sampler) * 128)
  | 7 => (s.selfPulses.foldl (fun s k => s.emit (.tskPulse k)) s, f + b2n (!r.tskrb) * 64)
  | _ => (if s.profileBad then s.raiseEv 226 1 else s, f + b2n s.profileBad * 256)

/-- The eight steps, in order. -/
def State.selfSteps (s : State) (r : SelfTest) : State × Nat := [1, 2, 3, 4, 5, 6, 7, 8].foldl (State.selfStep r) (s, 0)

/-- SELFTEST_COMPLETE (R38, R457): the steps have run; a failed one holds the lane in SELFTEST. -/
def execSelftestComplete (r : SelfTest) (s : State) : Res :=
  s.whenB (s.st == stSelftest && !s.rb PMU_STSTAT.DONE) fun s =>
    let (s, f) := s.selfSteps r
    let s := s.setN PMU_STSTAT.adr (2 ^ 31 + (if f = 0 then 2 ^ 30 else f))
    if f = 0 then s.enterIntegrate else { s with pmu := { s.pmu with wdStopped := true } }

/-! ### Entry to SERVICE (R458, R459) -/

/-- NETWAIT_EXPIRY (R458). -/
def execNetwaitExpiry (s : State) : Res :=
  s.whenB (s.st == stIntegrate && decide (s.lane.integAt + 1000000 * s.rf PMU_STARTCFG.NETWAIT ≤ s.now)) State.readyJudge

/-- A peer whose READY this lane waits for: its bridge up, out of SERVICE and DEBUG, and not left out. -/
def State.awaited (s : State) (k : Nat) : Bool :=
  let p := s.peer k
  s.bridgeUp k && p.hb.state != stService && p.hb.state != stDebug && !p.leftOut

/-- PEER_WAIT_TIMEOUT (R459). -/
def execPeerWaitTimeout (peer : Nat) (s : State) : Res :=
  s.whenB (s.st == stIntegrate && s.isPeer peer && (s.peer peer).readyAt.isNone &&
      s.lane.readyAt.any (fun t => decide (t + 1000000 * s.rf PMU_STARTCFG.PEERWAIT ≤ s.now))) fun s =>
    s.setPeer peer { s.peer peer with leftOut := true }

/-- When the lane may enter SERVICE at the earliest, before the wait for a multiple of 1 ms: when it became ready or the
last awaited peer did; none while one has not. -/
def State.entryFrom (s : State) : Option Nat :=
  let ps := s.peersOf.filter s.awaited
  if ps.any (fun k => (s.peer k).readyAt.isNone) then none
  else s.lane.readyAt.map (fun t => (ps.filterMap (fun k => (s.peer k).readyAt)).foldl max t)

/-- A lane that starts while its peers are in service starts its position loop in MANUAL (R200). -/
def State.followStart (s : State) : State :=
  let s := { s with svc := { s.svc with follow := s.peersOf.any (fun k => s.bridgeUp k && (s.peer k).hb.state == stService), followed := false } }
  if s.steerRole == 1 && s.svc.follow && s.rb (LPE_CTXCTL.AUTO s.outerCtx) then
    s.svcDo [.put (40 + s.outerCtx / 64) (LPE_CTXCTL.adr s.outerCtx) 1 0]
  else s

/-- What the members that are already in SERVICE hold binds a lane that enters it: HELD and the most severe mission
(R252, R253, R278). -/
def State.adoptMembers (s : State) : State :=
  s.memberPeers.foldl (fun s k => match (s.rdmPeer k).vote with | some v => s.adoptVote v | none => s) s

/-- The lane enters SERVICE (R456, R459); peers that were READY with it count as members for 3 ms. -/
def State.enterService (s : State) : State :=
  let s := ((s.toSt stService).wf PMU_BOOTTIME.TSERV s.bootMs)
  let s := { s with lane := { s.lane with serviceGt := s.gt / 1000000 * 1000000 } }
  let s := s.peersOf.foldl (fun s k =>
    let s := s.setRdmPeer k { s.rdmPeer k with joint := s.awaited k && (s.peer k).readyAt.isSome }
    s.setPeer k { s.peer k with leftOut := false }) s
  (if s.fit then s.followStart.adoptMembers else s.followStart).outEval.redecide

/-- SERVICE_ENTRY (R435, R459): at a GT multiple of 1 000 000 ns at least 1 ms after the lane and its peers were ready. -/
def execServiceEntry (s : State) : Res :=
  s.whenB (s.st == stIntegrate) fun s =>
    let s := s.serveJudge.readyJudge
    match s.entryFrom with
    | none => s
    | some t => if t + 1000000 + s.gt % 1000000 ≤ s.now then s.enterService else s

end Sys2Proof.Machine
end

