-- ==== Sys2Proof/Machine/Can.lean ====
section
/-! DEFINITION. The CAN FD controllers (R405 to R407). -/

namespace Sys2Proof.Machine

/-- CAN_STATn.STATE codes. -/
def canStopped : Nat := 0
def canActive : Nat := 1
def canPassive : Nat := 2
def canOff : Nat := 3

def State.canSt (s : State) (n : Nat) : Nat := s.rf (CAN_STAT.STATE n)

/-- The controller takes part in the bus: in use, error active or error passive, its pads powered (R450). -/
def State.canRuns (s : State) (n : Nat) : Bool :=
  s.rb (CAN_CFG.EN n) && !s.vioDead 1 && (s.canSt n == canActive || s.canSt n == canPassive)

/-- The received frame as a record of two entries (Table HMB-7). -/
def canRecord (f : CanFrame) : List Byte :=
  padTo 128 (leBytes 4 f.id ++ [BitVec.ofNat 8 f.dlc, BitVec.ofNat 8 (b2n f.esi), 0, 0] ++ leBytes 8 f.gt ++ padTo 64 f.data)

/-- A frame format the controller takes: bit 30 of the ID word marks CAN FD. -/
def State.canTakes (s : State) (n id : Nat) : Bool := s.rb (CAN_CFG.FD n) || !id.testBit 30

/-- Error active or error passive, by the error counters (ISO 11898-1; PRESUMED, log entry 13). -/
def State.canLevel (s : State) (n : Nat) : State :=
  s.wf (CAN_STAT.STATE n) (if 128 ≤ s.rf (CAN_STAT.TEC n) ∨ 128 ≤ s.rf (CAN_STAT.REC n) then canPassive else canActive)

/-- An error of a receiver: REC grows by 1, or by 8 (ISO 11898-1). -/
def State.canRxErr (s : State) (n d : Nat) : State := (s.wf (CAN_STAT.REC n) (min 255 (s.rf (CAN_STAT.REC n) + d))).canLevel n

/-- A frame received without error: REC falls by 1, from above 127 to 127 (ISO 11898-1). -/
def State.canRxGood (s : State) (n : Nat) : State :=
  (s.wf (CAN_STAT.REC n) (if 127 < s.rf (CAN_STAT.REC n) then 127 else s.rf (CAN_STAT.REC n) - 1)).canLevel n

/-- The received frame goes into RXQ (R406); a frame that finds FREE below 2 is dropped. -/
def State.canStore (s : State) (n : Nat) (f : CanFrame) : State :=
  let q := s.rf (CAN_CFG.RXQ n)
  if s.free_ q < 2 then s.incSat (CAN_STAT.RXDROP n)
  else match s.postBytes q (canRecord f) with
    | some t => t
    | none => (s.post q 2).incSat (CAN_STAT.RXDROP n)

/-- CAN_RECEIVE (R405, R406): a record into RXQ; a frame with an error counts in REC. -/
def execCanReceive (ctl : Nat) (frame : CanFrame) (s : State) : Res :=
  s.whenB (s.on && s.canRuns ctl && s.canTakes ctl frame.id) fun s =>
    match frame.fault with
    | .none => (s.canRxGood ctl).canStore ctl frame
    | .error => s.canRxErr ctl 1
    | .heavy => s.canRxErr ctl 8
    | .free => s

/-- The record at the front of TXQ, once its GT has come (R406). -/
def State.canDue (s : State) (n : Nat) : Option (List Byte) :=
  let q := s.rf (CAN_CFG.TXQ n)
  if s.inflight q < 2 then none
  else
    let r := s.peekBytes q 2
    if leAt r 8 8 ≤ s.gt then some r else none

/-- The record's two entries taken and returned. -/
def State.canReturn (s : State) (n : Nat) : State :=
  let q := s.rf (CAN_CFG.TXQ n)
  (s.take q 2).giveBack q 2

/-- Bus-off (R406, R407): the attempt on the record due ends and its entries are returned; no further record is taken. -/
def State.busOff (s : State) (n : Nat) : State :=
  let s := if (s.canDue n).isSome then s.canReturn n else s
  (s.wf (CAN_STAT.STATE n) canOff).wf (CAN_STAT.TEC n) 255

/-- An error of a transmitter: TEC grows by 8, and past 255 the controller is bus-off (ISO 11898-1). -/
def State.canTxErr (s : State) (n : Nat) : State :=
  if 255 < s.rf (CAN_STAT.TEC n) + 8 then s.busOff n else (s.wf (CAN_STAT.TEC n) (s.rf (CAN_STAT.TEC n) + 8)).canLevel n

/-- CAN_TRANSMIT (R405, R406): the record due is taken, its frame sent, its entries returned; an attempt with an error is
made again, and counts in TEC. A CAN FD record at a controller without FD is returned unsent. -/
def execCanTransmit (sending : CanSending) (s : State) : Res :=
  let ctl := sending.ctl.val
  match s.canDue ctl with
  | none => .next s
  | some r => s.whenB (s.on && s.canRuns ctl) fun s =>
      if !s.canTakes ctl (leAt r 0 4) then s.canReturn ctl
      else match sending.fault with
        | .none =>
          let s := (s.canReturn ctl).wf (CAN_STAT.TEC ctl) (s.rf (CAN_STAT.TEC ctl) - 1)
          (s.canLevel ctl).emit (.can ctl (r.take 80))
        | .error | .heavy => s.canTxErr ctl
        | .free => s

/-- CAN_BUS_OFF (R406, R407): the error that takes TEC of an error-passive controller past 255. -/
def execCanBusOff (ctl : Nat) (s : State) : Res :=
  s.whenB (s.on && s.canRuns ctl && decide (248 ≤ s.rf (CAN_STAT.TEC ctl))) fun s => s.busOff ctl

/-- A write of CAN_CTLn (R407): START starts a stopped controller, whose counters stand, or begins the recovery from bus-off, STOP halts. -/
def State.canCtl (s : State) (n : Nat) (start stop : Bool) : State :=
  if !s.rb (CAN_CFG.EN n) then s
  else
    let s :=
      if !start then s
      else if s.canSt n = canStopped then s.canLevel n
      else if s.canSt n = canOff then { s with canRec := setBitTo s.canRec n true }
      else s
    if !stop then s
    else
      let s := { s with canRec := setBitTo s.canRec n false }
      if s.canSt n = canOff then s else s.wf (CAN_STAT.STATE n) canStopped

/-- CAN_START (R407). -/
def execCanStart (req ctl : Nat) (s : State) : Res :=
  s.whenOn fun s => s.granted req (45 + ctl) (CAN_CTL.adr ctl) false fun s => s.canCtl ctl true false

/-- CAN_STOP (R407). -/
def execCanStop (req ctl : Nat) (s : State) : Res :=
  s.whenOn fun s => s.granted req (45 + ctl) (CAN_CTL.adr ctl) false fun s => s.canCtl ctl false true

/-- BUS_OFF_RECOVERY (R407): the recovery is complete; the error counters are 0 again and records are taken. -/
def execBusOffRecovery (ctl : Nat) (s : State) : Res :=
  s.whenB (s.on && s.canSt ctl == canOff && s.canRec.testBit ctl) fun s =>
    let s := { s with canRec := setBitTo s.canRec ctl false }
    ((s.wf (CAN_STAT.STATE ctl) canActive).wf (CAN_STAT.TEC ctl) 0).wf (CAN_STAT.REC ctl) 0

end Sys2Proof.Machine
end

