-- ==== Sys2Proof/Machine/Mailbox.lean ====
section
/-! DEFINITION. The mailbox as the Headstock serves it (R386 to R393): taking requests, interim and dropped responses,
and the paths responses go out by. -/

namespace Sys2Proof.Machine

/-! ### Responses leave (R387, R388, R403) -/

/-- The response of channel `c` has gone out: a reset that waits for it begins (R422, R425, R442). -/
def State.respGone (s : State) (c : Nat) : State := if s.sec.resetDue = some c then s.laneReset rstCommand else s

/-- The oldest response that waits for credit is posted where the credit has come (R387). -/
def State.respRetry (s : State) (c : Nat) : State :=
  match (s.chan c).wait with
  | [] => s
  | (l, _) :: t =>
    match s.postBytes (s.rf (HMB_CHPATH.RSP c)) l with
    | none => s
    | some s => let s := s.setChan c { s.chan c with wait := t }
      if t.isEmpty then s.respGone c else s

/-- Every queue channel's waiting response. -/
def State.respRetries (s : State) : State := (List.range 8).foldl State.respRetry s

/-- Entries returned to a queue's producer; a response that waits for them goes out. -/
def State.giveBackTo (s : State) (q n : Nat) : State := (s.giveBack q n).respRetries

/-- QUE_RETURN (R371). -/
def execQueReturn (req queue count : Nat) (s : State) : Res :=
  s.whenOn fun s => if s.isCons queue req false then s.giveBackTo queue count else s.violate (QUE_RET.adr queue) req 1

/-- RESPONSE_DROP (R387): a response that has lacked credit for 10 ms is dropped; the command's effect stands. -/
def execResponseDrop (ch : Nat) (s : State) : Res :=
  s.whenOn fun s =>
    let s := s.respRetry ch
    match (s.chan ch).wait with
    | [] => s
    | (_, t) :: rest =>
      if s.now < t + 10000000 then s
      else
        let s := (s.setChan ch { s.chan ch with wait := rest }).incSat (HMB_CHSTAT.RSPDROP ch)
        if rest.isEmpty then s.respGone ch else s

/-- SPAN_TRANSMIT (R304, R315); the span of channel 1's response flow carries the response out. -/
def execSpanTransmit (flow : Nat) (s : State) : Res :=
  match s.spanDue flow with
  | none => .next s
  | some lk => .next <|
      let t := s.spanRun flow lk
      let done := t.rn (ANW_FLOWCNT.adr flow) != s.rn (ANW_FLOWCNT.adr flow) && (t.flowSt flow).starts.isEmpty && decide ((t.flowSt flow).seals.length ≤ 1)
      if done && flow == s.rf (HMB_CHPATH.RSP 1) then t.respGone 1 else t

/-! ### Requests as commands (Table HMB-6) -/

/-- A byte of a payload. -/
def pB (p : List Byte) (o : Nat) : Byte := p.getD o 0

/-- A word of a payload. -/
def pW (p : List Byte) (o : Nat) : Word := BitVec.ofNat 32 (leAt p o 4)

/-- Two bytes of a payload. -/
def pH (p : List Byte) (o : Nat) : BitVec 16 := BitVec.ofNat 16 (leAt p o 2)

/-- Groups 0x01 to 0x05. -/
def parseA (c : Fin 8) (op : Nat) (p : List Byte) : Option Instr :=
  match op with
  | 0x0100 => some (.laneInfo c)
  | 0x0101 => some (.laneGrant c (pB p 0) (pB p 1))
  | 0x0102 => some (.strikeSet c (pB p 0) (pB p 1) (pB p 2) (pW p 4) (pW p 8) (pH p 12))
  | 0x0103 => some (.slpSplit c (pB p 0))
  | 0x0104 => some (.slpRejoin c (pB p 0))
  | 0x0105 => some (.tskOutSet c (pB p 0) (pB p 1))
  | 0x0106 => some (.queConfig c (pB p 0) (pW p 4) (pW p 8))
  | 0x0107 => some (.queDisable c (pB p 0))
  | 0x0108 => some (.arbPrioSet c (pB p 0) (pW p 4) (pW p 8))
  | 0x0109 => some (.arbTableSet c (pB p 0) (pB p 1) (Vector.ofFn fun i => pB p (4 + i.val)))
  | 0x0200 => some (.anwNodeRestart c)
  | 0x0201 => some (.astPortReadmit c (pB p 0))
  | 0x0300 => some (.pwmTripClear c (pB p 0))
  | 0x0301 => some (.pwmLegClear c (pB p 0))
  | 0x0302 => some (.glkPortRestart c (pB p 0))
  | 0x0303 => some (.glkLegClear c (pB p 0) (pB p 1))
  | 0x0400 => some (.lpeCtxRestart c (pB p 0) (pB p 1))
  | 0x0401 => some (.lpeCoefRead c (pB p 0) (pB p 1) (pB p 2))
  | 0x0402 => some (.svcStatus c)
  | 0x0403 => some (.steerWindingRestore c)
  | 0x0404 => some (.brakeCircuitRestore c)
  | 0x0500 => some (.fbcChanRestart c (pB p 0))
  | _ => none

/-- Groups 0x06 to 0x09. -/
def parseB (c : Fin 8) (op : Nat) (p : List Byte) : Option Instr :=
  match op with
  | 0x0600 => some (.cmsLoad c (pW p 0) (p.drop 8))
  | 0x0601 => some (.cmsCheck c)
  | 0x0602 => some (.cmsConfirm c (Vector.ofFn fun i => pB p i.val))
  | 0x0603 => some (.cmsAbort c)
  | 0x0604 => some (.cmsRead c (pW p 0) (pW p 4))
  | 0x0605 => some (.cmsStatus c)
  | 0x0700 => some (.secNonce c)
  | 0x0701 => some (.secAttest c (Vector.ofFn fun i => pB p i.val))
  | 0x0702 => some (.secCertRead c)
  | 0x0703 => some (.secDebugEnter c p)
  | 0x0704 => some (.secDebugExit c)
  | 0x0705 => some (.secInjectToken c p)
  | 0x0706 => some (.secDebugDisable c p)
  | 0x0707 => some (.secRootRevoke c p)
  | 0x0708 => some (.secRekey c p)
  | 0x0709 => some (.secProfileLock c p)
  | 0x070A => some (.nchLogRead c (pH p 0))
  | 0x0800 => some (.diagRead c (pW p 0) (pW p 4))
  | 0x0801 => some (.tlySetReaction c (pH p 0) (pW p 4))
  | 0x0802 => some (.tlyEflTest c (pH p 0))
  | 0x0803 => some (.astInjArm c (pB p 0) (pW p 4) (pW p 8) (pW p 12))
  | 0x0804 => some (.astInjStop c (pB p 0))
  | 0x0805 => some (.dbgProbeSet c (pB p 0) (pH p 2))
  | 0x0900 => some (.updBegin c (pB p 0) (pW p 4))
  | 0x0901 => some (.updWrite c (pW p 0) (p.drop 8))
  | 0x0902 => some (.updVerify c)
  | 0x0903 => some (.updActivate c)
  | 0x0904 => some (.updAbort c)
  | 0x0905 => some (.updStatus c)
  | _ => none

/-- The command that a request on a channel stands for (Table HMB-6). -/
def parseReq (c : Fin 8) (op : Nat) (p : List Byte) : Option Instr := (parseA c op p).orElse fun _ => parseB c op p

/-! ### Taking a request (R387 to R392) -/

/-- CHK of a message is right: over the header with CHK as 0, then the payload (Table HMB-2). -/
def chkOk (m : List Byte) : Bool :=
  leAt m 12 4 == crc32 (sliceB m 0 12 ++ [0, 0, 0, 0] ++ sliceB m 16 (leAt m 4 2))

/-- OPCODE, TAG and CHK of a message. -/
def msgKey (m : List Byte) : Nat × Nat × Nat := (leAt m 0 2, leAt m 2 2, leAt m 12 4)

/-- The number of entries a message takes in a queue. -/
def msgEntries (m : List Byte) : Nat := (16 + leAt m 4 2 + 63) / 64

/-- The message that waits on a channel: in the SPI request buffer, in a new payload of the request flow, or whole in
the request queue. -/
def State.chanMsg (s : State) (c : Nat) : Option (List Byte) :=
  if c = 0 then s.spi.req
  else if c = 1 then
    let f := s.rf (HMB_CHPATH.REQ 1)
    let m := s.memBytes (s.flowRxBase f) (s.rf (ANW_FLOWBUF.LEN f))
    if s.isRx f && s.rf (ANW_FLOWCNT.GOOD f) != (s.chan 1).mark.getD 0 && leAt m 0 2 != 0 then some m else none
  else
    let q := s.rf (HMB_CHPATH.REQ c)
    if s.inflight q = 0 then none
    else
      let n := msgEntries (s.peekBytes q 1)
      if n ≤ s.inflight q then some (s.peekBytes q n) else none

/-- The message repeats the last request of a tool channel (R389). -/
def State.isRepeat (s : State) (c : Nat) (m : List Byte) : Bool :=
  decide (c ≤ 1) && (s.chan c).last == some (msgKey m)

/-- The request that the Headstock may take from a channel now (R392): the last one has had its final response, on channel
0 it has been read; a repeat is served while its command runs once there is a response to send again. -/
def State.takeable (s : State) (c : Nat) : Option (List Byte) :=
  if !s.chanOn c then none
  else match s.chanMsg c with
    | none => none
    | some m =>
      let x := s.chan c
      if s.isRepeat c m && x.run.isSome then (if x.lastResp.isEmpty then none else some m)
      else if x.run.isSome || !s.chanClear c then none
      else some m

/-- The message taken from its path. -/
def State.chanPull (s : State) (c : Nat) (m : List Byte) : State :=
  if c = 0 then { s with spi := { s.spi with req := none } }.wb SPI_STAT.REQFULL false
  else if c = 1 then s.setChan 1 { s.chan 1 with mark := some (s.rf (ANW_FLOWCNT.GOOD (s.rf (HMB_CHPATH.REQ 1)))) }
  else
    let q := s.rf (HMB_CHPATH.REQ c)
    (s.take q (msgEntries m)).giveBack q (msgEntries m)

/-- The checks 1 to 6 of R391 on a request, and its start. -/
def State.serve (s : State) (c : Nat) (m : List Byte) : State :=
  let (op, tag, _) := msgKey m
  let len := leAt m 4 2
  if !chkOk m then (s.incSat (HMB_CHSTAT.ERRS c)).refuseReq c op tag stBadCheck
  else if 1024 < len then (s.incSat (HMB_CHSTAT.ERRS c)).refuseReq c op tag stBadLength
  else match opRow op with
    | none => s.refuseReq c op tag stUnknownOpcode
    | some row => s.admitReq c row tag len fun s => s.beginRun c row tag (parseReq (Fin.ofNat 8 c) op (sliceB m 16 len))

/-- A request taken (R389, R391): a request with RESP = 1 is discarded; a repeat is answered again; any other counts and
is served. -/
def State.takeReq (s : State) (c : Nat) (m : List Byte) : State :=
  let rep := s.isRepeat c m
  let s := s.chanPull c m
  if (leAt m 8 1).testBit 0 then { s with hmb := { s.hmb with served := c } }
  else if rep then
    let x := s.chan c
    { s with hmb := { s.hmb with served := c } }.respSend c x.run.isSome x.lastResp
  else (s.countReq c (leAt m 0 2) (leAt m 2 2) (some (msgKey m))).serve c m

/-- MAILBOX_REQUEST_TAKE (R386, R392): the next channel in round robin that has a request. -/
def execMailboxRequestTake (s : State) : Res :=
  s.whenB s.serves fun s =>
    let order := (List.range 8).map (fun i => (s.hmb.served + 1 + i) % 8)
    match order.findSome? (fun c => (s.takeable c).map (fun m => (c, m))) with
    | none => s
    | some (c, m) => s.takeReq c m

/-- INTERIM_RESPONSE (R393): 1 ms after a request was taken without a final response. -/
def execInterimResponse (ch : Nat) (s : State) : Res :=
  match (s.chan ch).run with
  | none => .next s
  | some r => s.whenB (s.on && !r.interim && decide (r.takenAt + 1000000 ≤ s.now)) fun s =>
      let s := s.setChan ch { s.chan ch with run := some { r with interim := true } }
      s.respond ch true (hmbBytes r.op r.tag (if s.respFits ch 16 then stInProgress else stBadLength) (respFlags true r.module) s.otp.lane [])

end Sys2Proof.Machine
end

