-- ==== Sys2Proof/Machine/Commands.lean ====
section
/-! DEFINITION. The mailbox commands that restart or configure a block (Table HMB-6, groups 0x01 to 0x05 and 0x08). -/

namespace Sys2Proof.Machine

/-! ### Outputs, queues and arbiters -/

/-- TSK_OUT_SET: the masked bits of TSK_OUTREQ.REQ; bits 0 and 4 are refused. -/
def execTskOutSet (ch : Nat) (mask value : Byte) (s : State) : Res :=
  s.mailCmd ch 0x0105 (.tskOutSet (Fin.ofNat 8 ch) mask value) fun s =>
    let m := mask.toNat
    if m &&& 0x11 ≠ 0 then s.finish ch stInvalidParam []
    else (s.outReq (clearBits 8 (s.rf TSK_OUTREQ.REQ) m ||| (value.toNat &&& m))).finish ch stOk []

/-- QUE_CONFIG (R369, R370, R374, R379): the words of a disabled queue, which must be admitted. -/
def State.queConfig (s : State) (ch q cfg base : Nat) : State :=
  if 127 < q then s.finish ch stInvalidParam []
  else if !endAllowed (bits cfg 23 19) || !endAllowed (bits cfg 18 14) then s.finish ch stInvalidOwner []
  else if !s.ringOk q cfg base || bits cfg 28 24 == 31 then s.finish ch stInvalidParam []
  else if s.rb (QUE_CFG.EN q) then s.finish ch stBusy []
  else
    let t := if cfg.testBit 31 then s.queEnable q cfg base
      else ((s.setN (QUE_CFG.adr q) (cfg &&& 0xFFFFC00F)).setN (QUE_BASE.adr q) (base &&& 0xFFFFFFC0)).readmit q
    if t.rb (QUE_STAT.ADMIT q) then t.finish ch stOk (leBytes 4 (t.rn (QUE_STAT.adr q))) else s.finish ch stNotAdmitted []

def execQueConfig (ch : Nat) (queue : Byte) (cfg base : Word) (s : State) : Res :=
  s.mailCmd ch 0x0106 (.queConfig (Fin.ofNat 8 ch) queue cfg base) fun s => s.queConfig ch queue.toNat cfg.toNat base.toNat

/-- QUE_DISABLE (R379). -/
def execQueDisable (ch : Nat) (queue : Byte) (s : State) : Res :=
  s.mailCmd ch 0x0107 (.queDisable (Fin.ofNat 8 ch) queue) fun s =>
    if 127 < queue.toNat then s.finish ch stInvalidParam [] else (s.queOff queue.toNat).finish ch stOk []

/-- ARB_PRIO_SET (R363). -/
def execArbPrioSet (ch : Nat) (arb : Byte) (lo hi : Word) (s : State) : Res :=
  s.mailCmd ch 0x0108 (.arbPrioSet (Fin.ofNat 8 ch) arb lo hi) fun s =>
    if 33 < arb.toNat then s.finish ch stInvalidParam [] else (s.prioWrite arb.toNat lo.toNat hi.toNat).finish ch stOk []

/-- ARB_TABLE_SET (R364, R367): the table not in force is written and switched to at the next wrap. -/
def State.arbTableSet (s : State) (ch a limit : Nat) (slots : List Byte) : State :=
  if 33 < a ∨ limit = 0 then s.finish ch stInvalidParam []
  else if s.rb (ARB_CTL.PEND a) then s.finish ch stBusy []
  else if !s.tableOk a (slots.map (·.toNat)) then s.finish ch stNotAdmitted []
  else
    let t := 1 - s.rf (ARB_CTL.ACTIVE a)
    let s := (List.range 16).foldl (fun s w => s.tableWrite a t w (leAt slots (4 * w) 4)) s
    ((s.limitSet a limit).switchReq a).finish ch stOk []

def execArbTableSet (ch : Nat) (arb limit : Byte) (slots : Vector Byte 64) (s : State) : Res :=
  s.mailCmd ch 0x0109 (.arbTableSet (Fin.ofNat 8 ch) arb limit slots) fun s =>
    s.arbTableSet ch arb.toNat limit.toNat slots.toList

/-! ### Network -/

/-- ANW_NODE_RESTART (R321): the node enters LISTEN where it may run with a link. -/
def execAnwNodeRestart (ch : Nat) (s : State) : Res :=
  s.mailCmd ch 0x0200 (.anwNodeRestart (Fin.ofNat 8 ch)) fun s =>
    (if s.nodeMay && s.nodeLink then s.enterListen.wb ANW_NODESTAT.NETVALID false else s).finish ch stOk []

/-- AST_PORT_READMIT (R346): PERM and ISOCNT cleared, and the port is readmitted. -/
def State.portReadmit (s : State) (n : Nat) : State :=
  let s := (s.wb (AST_PORTSTAT.PERM n) false).wf (AST_PORTSTAT.ISOCNT n) 0
  let s := if n < 8 then s.wbit AST_STAT.PERM n false else s
  (s.setStarPort n { s.starPort n with clean := 0 }).readmitPort n

def execAstPortReadmit (ch : Nat) (port : Byte) (s : State) : Res :=
  s.mailCmd ch 0x0201 (.astPortReadmit (Fin.ofNat 8 ch) port) fun s =>
    if 8 < port.toNat ∨ !s.isStar then s.finish ch stInvalidParam [] else (s.portReadmit port.toNat).finish ch stOk []

/-! ### PWM and gate links -/

/-- PWM_TRIP_CLEAR (R90): an input whose LEVEL is 1 stays tripped, and the command is refused. -/
def execPwmTripClear (ch : Nat) (mask : Byte) (s : State) : Res :=
  s.mailCmd ch 0x0300 (.pwmTripClear (Fin.ofNat 8 ch) mask) fun s =>
    let m := mask.toNat
    if 15 < m then s.finish ch stInvalidParam []
    else
      let busy := (s.rf PWM_TRIPSTAT.LEVEL &&& m) != 0
      let t := clearBits 4 (s.w1c PWM_TRIPSTAT.adr m) (s.rf PWM_TRIPSTAT.LEVEL)
      let s := (s.wf PWM_TRIPSTAT.TRIPPED (clearBits 4 (s.rf PWM_TRIPSTAT.TRIPPED) t)).tripRecalc
      s.finish ch (if busy then stBusy else stOk) []

/-- RELEASE for the legs of a mask: the next downstream frame of the port, at once or as soon as it is UP and its
transmit pair and queue are free (R112, R123). -/
def State.sendRelease (s : State) (n mask : Nat) : State :=
  (s.setPort n { s.port n with relDue := (s.port n).relDue ||| mask }).glkNext n

/-- PWM_LEG_CLEAR (R92, R123): LATCH clears, and the leg's INTLK hold is released. -/
def State.legClear (s : State) (m : Nat) : State :=
  let s := s.wb (PWM_LEGSTAT.LATCH m) false
  let n := m / 3
  let s := if s.linkBank n && (s.holdByte n (m % 3)).testBit 4 then (s.setHold n (m % 3) 4 false).sendRelease n (2 ^ (m % 3)) else s
  s.offLabel m

def execPwmLegClear (ch : Nat) (leg : Byte) (s : State) : Res :=
  s.mailCmd ch 0x0301 (.pwmLegClear (Fin.ofNat 8 ch) leg) fun s =>
    if 23 < leg.toNat then s.finish ch stInvalidParam [] else (s.legClear leg.toNat).finish ch stOk []

/-- GLK_PORT_RESTART (R103). -/
def execGlkPortRestart (ch : Nat) (port : Byte) (s : State) : Res :=
  s.mailCmd ch 0x0302 (.glkPortRestart (Fin.ofNat 8 ch) port) fun s =>
    if 7 < port.toNat ∨ !s.rb (GLK_PORTCFG.EN port.toNat) then s.finish ch stInvalidParam []
    else (s.glkBringup port.toNat).finish ch stOk []

/-- GLK_LEG_CLEAR (R123): the DESAT holds of the named legs, and with all three named the DUAL hold, are released. -/
def State.holdsClear (s : State) (n mask : Nat) : State :=
  let rel := (bitList 3 mask).filter (fun l => (s.holdByte n l).testBit 0 || (mask == 7 && (s.holdByte n l).testBit 1))
  let s := (bitList 3 mask).foldl (fun s l => s.setHold n l 0 false) s
  let s := if mask = 7 then [0, 1, 2].foldl (fun s l => s.setHold n l 1 false) s else s
  let s := s.setPort n { s.port n with dualLegs := clearBits 3 (s.port n).dualLegs mask }
  (s.sendRelease n (maskOf rel)).offLabels n

def execGlkLegClear (ch : Nat) (port mask : Byte) (s : State) : Res :=
  s.mailCmd ch 0x0303 (.glkLegClear (Fin.ofNat 8 ch) port mask) fun s =>
    let n := port.toNat
    let m := mask.toNat
    if 7 < n ∨ 7 < m then s.finish ch stInvalidParam []
    else if (s.rf (GLK_PSTAT.DESAT n) &&& m) ≠ 0 then s.finish ch stBusy []
    else (s.holdsClear n m).finish ch stOk []

/-! ### Loop contexts and feedback -/

/-- LPE_CTX_RESTART (R154, R171). -/
def execLpeCtxRestart (ch : Nat) (engine ctx : Byte) (s : State) : Res :=
  s.mailCmd ch 0x0400 (.lpeCtxRestart (Fin.ofNat 8 ch) engine ctx) fun s =>
    if 3 < engine.toNat ∨ 63 < ctx.toNat then s.finish ch stInvalidParam []
    else (s.ctxRestart (64 * engine.toNat + ctx.toNat)).finish ch stOk []

/-- LPE_COEF_READ: the sixteen words of a record. -/
def execLpeCoefRead (ch : Nat) (engine ctx record : Byte) (s : State) : Res :=
  s.mailCmd ch 0x0401 (.lpeCoefRead (Fin.ofNat 8 ch) engine ctx record) fun s =>
    if 3 < engine.toNat ∨ 63 < ctx.toNat ∨ 3 < record.toNat then s.finish ch stInvalidParam []
    else s.finish ch stOk ((List.range 16).flatMap (fun w => leBytes 4 (s.lpeRec (64 * engine.toNat + ctx.toNat) record.toNat w)))

/-- FBC_CHAN_RESTART (R148): a channel in use starts. -/
def execFbcChanRestart (ch : Nat) (chan : Byte) (s : State) : Res :=
  s.mailCmd ch 0x0500 (.fbcChanRestart (Fin.ofNat 8 ch) chan) fun s =>
    if 15 < chan.toNat then s.finish ch stInvalidParam []
    else (if s.rb (FBC_CFG.EN chan.toNat) then s.fbStart chan.toNat else s).finish ch stOk []

/-! ### Diagnosis -/

/-- DIAG_READ refuses an address: unmapped, unaligned, or of the SEC words only the Headstock reads. -/
def diagRefused (a : Nat) : Bool :=
  !reaches 1 a || a % 4 != 0 || (decide (SEC_SIGBUF.adr 0 ≤ a) && decide (a ≤ SEC_SIGBUF.adr 255))

/-- `n` words read from an address up as the Headstock reads them. -/
def State.diagWords (s : State) (a : Nat) : Nat → State × List Byte
  | 0 => (s, [])
  | n + 1 =>
    let t := s.readWord 1 a
    let r := t.diagWords (a + 4) n
    (r.1, leBytes 4 t.rdata ++ r.2)

/-- DIAG_READ. -/
def execDiagRead (ch : Nat) (addr count : Word) (s : State) : Res :=
  s.mailCmd ch 0x0800 (.diagRead (Fin.ofNat 8 ch) addr count) fun s =>
    let a := addr.toNat
    let n := count.toNat
    if n = 0 ∨ 256 < n ∨ (List.range n).any (fun i => diagRefused (a + 4 * i)) then s.finish ch stInvalidParam []
    else
      let r := s.diagWords a n
      r.1.finish ch stOk r.2

/-! ### Injection and probes -/

/-- The words of a rule are in range: a target of Table AST-2 with its port, and 1 to 255 events. -/
def ruleOk (tgt par : Nat) : Bool :=
  let t := bits tgt 31 28
  let p := bits tgt 27 24
  decide (1 ≤ bits par 23 16) && (if t ≤ 1 then decide (p ≤ 8) else if t ≤ 3 then decide (p ≤ 1) else decide (t ≤ 5) && decide (p ≤ 7))

/-- A rule's words written and the rule armed (R348): its counters start at 0. -/
def State.ruleArm (s : State) (r tgt par start : Nat) : State :=
  let s := ((s.setN (AST_INJTGT.adr r) tgt).setN (AST_INJPAR.adr r) par).setN (AST_INJSTART.adr r) start
  let s := { s with ast := { s.ast with matched := mdel s.ast.matched r } }
  (s.setN (AST_INJSTAT.adr r) 0).armChange (setBitTo (s.rf AST_INJCTL.ARM) r true)

/-- AST_INJ_ARM (R348). -/
def execAstInjArm (ch : Nat) (rule : Byte) (tgt par start : Word) (s : State) : Res :=
  s.mailCmd ch 0x0803 (.astInjArm (Fin.ofNat 8 ch) rule tgt par start) fun s =>
    let r := rule.toNat
    if s.debugOff || !s.tokenNow then s.finish ch stDenied []
    else if 7 < r ∨ !ruleOk tgt.toNat par.toNat then s.finish ch stInvalidParam []
    else if (s.rf AST_INJCTL.ARM).testBit r then s.finish ch stBusy []
    else (s.ruleArm r tgt.toNat par.toNat start.toNat).finish ch stOk []

/-- AST_INJ_STOP (R348). -/
def execAstInjStop (ch : Nat) (mask : Byte) (s : State) : Res :=
  s.mailCmd ch 0x0804 (.astInjStop (Fin.ofNat 8 ch) mask) fun s =>
    (s.armChange (clearBits 8 (s.rf AST_INJCTL.ARM) mask.toNat)).finish ch stOk []

/-- DBG_PROBE_SET (R423). -/
def execDbgProbeSet (ch : Nat) (pad : Byte) (signal : BitVec 16) (s : State) : Res :=
  s.mailCmd ch 0x0805 (.dbgProbeSet (Fin.ofNat 8 ch) pad signal) fun s =>
    if 3 < pad.toNat ∨ 1023 < signal.toNat then s.finish ch stInvalidParam []
    else ((s.wb (DBG_PROBE.EN pad.toNat) true).wf (DBG_PROBE.SIGNAL pad.toNat) signal.toNat).finish ch stOk []

/-- The level of a signal of Table DBG-1: none for pulses (launches, comparator matches, chain boundaries, accepted beacons,
forwarded frames), which leave no level behind; a reserved number reads 0. -/
def State.probeSignal (s : State) (n : Nat) : Option Bool :=
  let i := n - 608
  if n < 256 then some ((s.rf (TLY_STAT.FAULT (n / 32))).testBit (n % 32))
  else if n < 304 then let l := s.leg ((n - 256) / 2); some (if n % 2 = 0 then l.hiOn else l.loOn)
  else if n < 352 then some ((s.rf (FBC_LEVEL.LVL ((n - 304) / 3))).testBit ((n - 304) % 3))
  else if n < 608 then none
  else if n < 624 then some ((s.rf (if i % 2 = 0 then TSK_INSTAT.LVLA else TSK_INSTAT.LVLB)).testBit (i / 2))
  else if n < 632 then some (s.commanded (n - 624))
  else if n = 632 then some (s.rb TSK_STAT.LEVEL)
  else if n < 635 then some ((s.rf TSK_INSTAT2.SRSTLVL).testBit (n - 633))
  else if n < 641 then none
  else if n < 649 then some (s.portUp (n - 641))
  else if n < 660 then none
  else some false

/-- The level that probe pad `k` drives: low outside DEBUG and while it is not routed (R423); none where its signal is a
pulse. -/
def State.probePad (s : State) (k : Nat) : Option Bool :=
  if s.st = stDebug ∧ s.rb (DBG_PROBE.EN k) then s.probeSignal (s.rf (DBG_PROBE.SIGNAL k)) else some false

/-- PROBE_EVENT (R423): a change at a driven pad with EVT, to the level its signal has now, is written to the event log,
with the GT of the 10 ns sample that saw it (R475). -/
def execProbeEvent (pad : Nat) (level : Bool) (s : State) : Res :=
  s.whenB (s.st == stDebug && s.rb (DBG_PROBE.EN pad) && s.rb (DBG_PROBE.EVT pad) && (s.probePad pad).all (· == level)) fun s =>
    let j := s.rf DBG_EVTPTR.NEXT
    let s := (s.setN (DBG_EVTGT.adr j) ((s.gt + 9) / 10 * 10)).setN (DBG_EVT.adr j) (pad % 4 * 2 ^ 30 + b2n level * 2 ^ 29)
    let s := if j = 255 then s.wb DBG_EVTPTR.WRAPPED true else s
    s.wf DBG_EVTPTR.NEXT (j + 1)

end Sys2Proof.Machine
end

