-- ==== Sys2Proof/Machine/Power.lean ====
section
/-! DEFINITION. Supplies, monitors, watchdog and reset causes (R446 to R454, Table PMU-1). -/

namespace Sys2Proof.Machine

/-- Pmu state changed. -/
def State.setPmu (s : State) (p : PmuSt) : State := { s with pmu := p }

/-! ### Supplies (R446 to R450) -/

/-- POWER_LOSS (R297, R446): a power reset begins and holds; the lane without supply leaves x-EFL at high impedance. -/
def execPowerLoss (s : State) : Res :=
  let t := s.laneReset rstPower
  .next ((t.setPmu { t.pmu with holdPower := true, vlaneLost := true }).wb TLY_EFLSTAT.DRIVE false)

/-- VLANE_OVERVOLTAGE (R447): treated as a reset that begins with VLANE invalid. -/
def execVlaneOvervoltage (s : State) : Res := .next ((s.laneReset rstPower).setPmu { (s.laneReset rstPower).pmu with holdPower := true })

/-- POWER_VALID (R297, R446, R447): VLANE is valid; x-EFL is low until INTEGRATE. The time of start-up counts from VLANE valid
(R460), and the rails are in tolerance for 100 µs before BOOT (R456); an over-voltage that ends leaves both as they were. -/
def execPowerValid (s : State) : Res := s.whenB (s.st == stOff && s.pmu.holdPower) fun s =>
  let t := s.setPmu { s.pmu with holdPower := false, vlaneLost := false }
  let t := if s.pmu.vlaneLost then (t.setPmu { t.pmu with validAt := s.now }).holdUntil (s.now + 100000) else t
  let t := t.wb TLY_EFLSTAT.DRIVE true
  if s.rb TLY_EFLSTAT.DRIVE then t else { t with tly := { t.tly with eflSince := t.now } }

/-- A monitor's condition: its status bit, and its source asserted or ended. -/
def State.monitor (s : State) (f : Fld) (src detail : Nat) (on : Bool) : State :=
  let s := s.wb f on
  if !on then s.deassertSrc src else if s.asserted src then s else s.assertSrc src detail

/-- PMU_VLANE_UV (R448). -/
def execPmuVlaneUv (below : Bool) (s : State) : Res := s.whenOn fun s => s.monitor PMU_STAT.UV 0 0 below

/-- PMU_VLANE_OV (R448). -/
def execPmuVlaneOv (above : Bool) (s : State) : Res := s.whenOn fun s => s.monitor PMU_STAT.OV 1 0 above

/-- PMU_RAIL_FAULT (R449); no reset ends before the rails have been in tolerance for 100 µs (R456). -/
def execPmuRailFault (rail : Nat) (s : State) : Res :=
  .next ((if s.on then (s.wb PMU_STAT.RAILOK false).raiseEv 2 (rail % 4) else s).holdUntil (s.now + 100000))

/-- PMU_VIO_FAULT (R450): the banks out of range now; feedback samples before it saw the pads as they were. A reset does not end before
VIO1 has been good for 1 ms (R446); x-RSTN, an input of a faulted VIO1, reads 0, which resets the lane (R450, R454; DEDUCED, log
entry 56). -/
def execPmuVioFault (banks : Nat) (s : State) : Res :=
  let s := if s.on then (List.range 16).foldl State.fbCatch s else s
  let t := s.setPmu { s.pmu with vioBad := banks }
  let t := if s.pmu.vioBad.testBit 0 && !banks.testBit 0 then t.holdUntil (s.now + 1000000) else t
  .next (if !t.on then t else if t.vioDead 0 then t.vioJudge.laneReset rstPad else t.vioJudge)

/-- PMU_TEMP_HIGH (R451): the junction temperature as it crosses TJWARN. -/
def execPmuTempHigh (temp : Int) (s : State) : Res :=
  s.whenOn fun s => s.monitor PMU_STAT.TWARN 3 (ofSigned 8 temp) (decide ((s.rf PMU_MONCFG.TJWARN : Int) ≤ temp))

/-- THERMAL_SHUTDOWN (R451): the lane is held until the junction has cooled. -/
def execThermalShutdown (cooled : Bool) (s : State) : Res :=
  .next (if cooled then s.setPmu { s.pmu with holdTherm := false }
    else (s.laneReset rstThermal).setPmu { (s.laneReset rstThermal).pmu with holdTherm := true })

/-- LANE_OSC_FAULT (R452): the crystal, or the rate that has stayed at its limit for 100 corrections. -/
def execLaneOscFault (crystal : Bool) (s : State) : Res :=
  s.whenB (s.on && (crystal || s.spn.pinned == 100)) fun s =>
    let s := (s.wb PMU_STAT.OSCOK false).raiseEv 5 (if crystal then 1 else 2)
    if crystal then s else { s with spn := { s.spn with pinned := 0 } }

/-! ### Watchdog (R453) -/

/-- A kick (R453): a late one, an early one and a wrong value each raise 4, with the lowest cause that applies (R293). Before INTEGRATE the watchdog runs without
kicks. -/
def State.wdKick (s : State) (key : Nat) : State :=
  if !s.lane.integrated then s
  else
    let d := s.now - s.pmu.kickAt
    let want := if s.pmu.nextA5 then 0xA5 else 0x5A
    if 1000000 * s.rf PMU_WDCFG.WDTO + 100000 < d then s.raiseEv 4 2
    else if d < 1000000 * s.rf PMU_WDCFG.WDMIN then s.raiseEv 4 3
    else if key ≠ want then s.raiseEv 4 4
    else s.setPmu { s.pmu with kickAt := s.now, nextA5 := !s.pmu.nextA5 }

/-- PMU_WDKICK (R453). -/
def execPmuWdkick (req : Nat) (value : Word) (s : State) : Res :=
  s.whenOn fun s => s.headstockOnly req PMU_WDKICK.adr fun s => s.wdKick (value.toNat % 256)

/-- WATCHDOG_TIMEOUT (R453): no INTEGRATE within 500 ms of the reset's end, or no kick within WDTO. -/
def execWatchdogTimeout (s : State) : Res :=
  let due := if !s.lane.integrated then s.pmu.releasedAt + 500000000 else s.pmu.kickAt + 1000000 * s.rf PMU_WDCFG.WDTO
  s.whenB (s.on && !s.pmu.wdStopped && decide (due ≤ s.now)) fun s =>
    (s.raiseEv 4 (if !s.lane.integrated then 1 else 2)).setPmu { s.pmu with wdStopped := true }

/-! ### x-RSTN (R454) -/

/-- RSTN_LOW (R454): low for 10 µs a reset begins; it ends 50 µs after the release. -/
def execRstnLow (released : Bool) (s : State) : Res :=
  .next (if released then
      (if s.pmu.holdRstn then (s.setPmu { s.pmu with holdRstn := false }).holdUntil (s.now + 50000) else s)
    else (s.laneReset rstPad).setPmu { (s.laneReset rstPad).pmu with holdRstn := true })

end Sys2Proof.Machine
end

