-- ==== Sys2Proof/Machine/RegWrite.lean ====
section
/-! DEFINITION. REGISTER_WRITE: a store of a word anywhere in a lane's address map (R6 to R8, R22 to R30, R40, R43,
R313). -/

namespace Sys2Proof.Machine

/-- The word as its access types leave it (Table SCP-4): RW bits take the value, W1C bits written 1 clear, but not where
hardware writes them at the same elapsed time (R8, R167); every other bit stays. -/
def State.plainWrite (s : State) (r : RegRow) (a v : Nat) : State :=
  let rw := s.w1c a r.rw
  s.setN a (clearBits 32 (s.rn a) (rw ||| (r.w1c &&& s.w1c a v)) ||| (v &&& rw))

/-- The KIND under which a write is refused (R25, R26); none where its requester may write. -/
def State.writeKind (s : State) (req : Nat) (r : RegRow) (i a v : Nat) (early : Bool) : Option Nat :=
  let unit := fun u => if s.mayWrite req u early then none else some 1
  match r.own with
  | .status | .anyCore | .quePend => none
  | .headstock => if req = 1 then none else some 2
  | .granted u d => unit (u + i / d)
  | .entryGroup => unit (24 + (if a = SPN_DONE.adr then v % 256 else s.rf TSK_CHALCFG.ENTRY) / 16)
  | .flowUnit => unit (47 + v % 512 / 64)
  | .queEnd => if (if a = QUE_POST.adr i then s.isProd i req early else s.isCons i req early) then none else some 1
  | .newFlags => if a < TLY_NEWA.adr 0 ∧ req ≠ 1 then some 2 else none

/-- QUE_PENDk: the consumer end of a queue clears its bit (R377); a bit of another queue is refused. -/
def State.pendWrite (s : State) (req k a v : Nat) (early : Bool) : State :=
  let own := maskOf ((bitList 32 v).filter (fun i => s.isCons (32 * k + i) req early))
  let s := s.setN a (clearBits 32 (s.rn a) (s.w1c a own))
  if own = v then s else s.violate a req 1

/-- LANE_GRANTn: the Headstock's write moves the unit as LANE_GRANT does (R27, R28, R30, R41). -/
def State.grantWrite (s : State) (u o : Nat) : State :=
  if !s.up || u == 63 || !unitAllows u o || s.owner u == o || s.moving u then s
  else s.startMove u o none

/-- LANE_FAULT_INFO: clearing VALID also clears COUNT; a refused access at the same elapsed time is captured anew (R40). -/
def State.faultInfoWrite (s : State) (v : Nat) : State :=
  if !v.testBit 31 then s
  else match s.lane.lastFault.filter (fun x => x.1 == s.now) with
    | some (_, addr, info) => (s.setN LANE_FAULT_ADDR.adr addr).setN LANE_FAULT_INFO.adr info
    | none => (s.wb LANE_FAULT_INFO.VALID false).wf LANE_FAULT_INFO.COUNT 0

/-- PWM_TRIPSTAT (R90): TRIPPED stays while LEVEL is 1. -/
def State.tripWrite (s : State) (v : Nat) : State :=
  let v := s.w1c PWM_TRIPSTAT.adr v
  let t := clearBits 4 (v % 16) (s.rf PWM_TRIPSTAT.LEVEL)
  let s := s.wf PWM_TRIPSTAT.TRIPPED (clearBits 4 (s.rf PWM_TRIPSTAT.TRIPPED) t)
  (s.wf PWM_TRIPSTAT.BLANKSEEN (clearBits 4 (s.rf PWM_TRIPSTAT.BLANKSEEN) (v / 16 % 16))).tripRecalc

/-- SPN_PERIODm, SPN_PHASEm and SPN_ACTm: written only while the entry's effective enable and its outstanding flag are
both 0 (R56). -/
def State.entryWrite (s : State) (r : RegRow) (m a v : Nat) : State :=
  let s := s.entriesTake
  if s.entryBusy m then s else s.plainWrite r a v

/-- PWM_BANKCTLn: RUN (R70, R96) and COMMIT (R73). A write of both arms the bank first, so that its commit is taken
(DESIGN CHOICE, log entry 53: the spec gives no order). -/
def State.bankCtlWrite (s : State) (b v : Nat) : State :=
  let s := s.runWrite b (v.testBit 0)
  if v.testBit 1 then s.commitWrite b else s

/-- FBC_CTLn: DCIE, PRESET (R138), CLRSUSP (R133). -/
def State.fbcCtlWrite (s : State) (n v : Nat) : State :=
  let s := s.wb (FBC_CTL.DCIE n) (v.testBit 1)
  let s := if v.testBit 2 then s.presetWrite n else s
  if v.testBit 3 then s.wb (FBC_STAT.SUSPECT n) false else s

/-- TLY_SRCCFGn: a safety-classed or reserved source, and a LANE bit, are refused (R290). -/
def State.srcCfgWrite (s : State) (n v : Nat) : State :=
  if !srcListed n || srcSafe (s.rf TLY_FWCLASS.SAFE) n || v.testBit 30 then s else (s.setN (TLY_SRCCFG.adr n) v).eflEval

/-- TLY_CTRL.FORCE: only TLY_EFL_TEST sets it. -/
def State.forceWrite (s : State) (v : Nat) : State := if v.testBit 31 then s else (s.wb TLY_CTRL.FORCE false).eflEval

/-- AST_INJCTL.ARM: only AST_INJ_ARM sets a bit (R348). -/
def State.armWrite (s : State) (v : Nat) : State := s.armChange (s.rf AST_INJCTL.ARM &&& v)

/-- QUE_CFGq and QUE_BASEq: a queue is enabled, disabled or changed (R379). -/
def State.queCfgWrite (s : State) (q v : Nat) : State :=
  if s.rb (QUE_CFG.EN q) then
    (if v.testBit 31 then (s.setN (QUE_CFG.adr q) (v &&& 0xFFFFC00F)).readmit q else (s.setN (QUE_CFG.adr q) (v &&& 0xFFFFC00F)).queOff q)
  else if v.testBit 31 then s.queEnable q v (s.rn (QUE_BASE.adr q)) else s.setN (QUE_CFG.adr q) (v &&& 0xFFFFC00F)

/-- ARB_CTLa: LIMIT, and SWITCH (R364). -/
def State.arbCtlWrite (s : State) (a v : Nat) : State :=
  let s := s.limitSet a (v / 256 % 256)
  if v.testBit 31 then s.switchReq a else s

/-- What a write does at the registers whose writes act: the lane, the Spindle, PWM, FBC and the converter. -/
def State.actWriteA (s : State) (r : RegRow) (i a v : Nat) : Option State :=
  if r.base = LANE_GRANT.adr 0 then some (s.grantWrite i (v % 32))
  else if a = LANE_FAULT_INFO.adr then some (s.faultInfoWrite v)
  else if r.base = SPN_PERIOD.adr 0 ∨ r.base = SPN_PHASE.adr 0 ∨ r.base = SPN_ACT.adr 0 then some (s.entryWrite r i a v)
  else if r.base = SPN_GRPEN.adr 0 then some (s.grpenWrite i v)
  else if a = SPN_DONE.adr then some (s.spnDone (v % 256))
  else if a = SPN_LEDGER_CLR.adr then some (s.ledgerClear v)
  else if a = PWM_TRIPSTAT.adr then some (s.tripWrite v)
  else if r.base = PWM_BANKCTL.adr 0 then some (s.bankCtlWrite i v)
  else if r.base = FBC_CTL.adr 0 then some (s.fbcCtlWrite i v)
  else if a = ADC_SEQCTL.adr then some (s.adcStart (v % 65536))
  else if a = PMU_WDKICK.adr then some (s.wdKick (v % 256))
  else if r.base = CAN_CTL.adr 0 then some (s.canCtl i (v.testBit 0) (v.testBit 1))
  else none

/-- The same for the Tailstock, the Tally, the network, queues and arbiters. -/
def State.actWriteB (s : State) (req : Nat) (r : RegRow) (i j a v : Nat) (early : Bool) : Option State :=
  if a = TSK_OUTREQ.adr then some (s.outReq (v % 256))
  else if a = TSK_RESPONSE.adr then some (s.responseWrite v)
  else if a = TLY_CTRL.adr then some (s.forceWrite v)
  else if r.base = TLY_SRCCFG.adr 0 then some (s.srcCfgWrite i v)
  else if r.own = .newFlags then some (s.newClear req a v)
  else if a = TLY_FWRAISE.adr then some (s.fwRaise req v)
  else if a = ANW_HANDOFF.adr then some (if s.isTx (v % 512) then s.sealStart (v % 512) none none else s)
  else if a = AST_INJCTL.adr then some (s.armWrite v)
  else if r.base = AST_INJTGT.adr 0 ∨ r.base = AST_INJPAR.adr 0 ∨ r.base = AST_INJSTART.adr 0 then
    (if (s.rf AST_INJCTL.ARM).testBit i then some s else none)
  else if r.own = .quePend then some (s.pendWrite req i a v early)
  else if r.base = QUE_CFG.adr 0 then some (s.queCfgWrite i v)
  else if r.base = QUE_BASE.adr 0 then some ((s.setN a (v &&& 0xFFFFFFC0)).readmit i)
  else if r.base = QUE_POST.adr 0 then some (s.post i (v % 8192))
  else if r.base = QUE_TAKE.adr 0 then some (s.take i (v % 8192))
  else if r.base = QUE_RET.adr 0 then some (s.giveBackTo i (v % 8192))
  else if r.base = ARB_CTL.adr 0 then some (s.arbCtlWrite i v)
  else if r.base = ARB_PRIOLO.adr 0 then some (s.prioWrite i v (s.rn (ARB_PRIOHI.adr i)))
  else if r.base = ARB_PRIOHI.adr 0 then some (s.prioWrite i (s.rn (ARB_PRIOLO.adr i)) v)
  else if r.base = ARB_TBL.adr 0 0 then some (s.tableWrite i (j / 16) (j % 16) v)
  else if r.base = LPE_CTXX.adr 0 0 then some (s.writeSlot i j v)
  else none

/-- A write that its requester may make. -/
def State.regApply (s : State) (req : Nat) (r : RegRow) (i j a v : Nat) (early : Bool) : State :=
  (s.actWriteA r i a v).getD ((s.actWriteB req r i j a v early).getD (s.plainWrite r a v))

/-- A write to an address of a block: a reserved offset discards it (R22, R43). -/
def State.blockWrite (s : State) (req a v : Nat) (early : Bool) : State :=
  if s.noEndpoint a then s
  else match regRow a with
  | none => s
  | some (r, i, j) =>
    match s.writeKind req r i a v early with
    | some kind => s.violate a req kind
    | none => s.regApply req r i j a v early

/-- A store to lane SRAM; one that touches the buffer of a TX context passes the grant test of its unit (R313). -/
def State.sramWrite (s : State) (req a v : Nat) (early : Bool) : State :=
  let l := (leBytes 4 v).take (0x20600000 - a)
  let touched := s.txFlows.filter (fun f => decide (s.flowBase f < a + l.length) && decide (a < s.flowBase f + s.rf (ANW_FLOWBUF.LEN f)))
  if touched.all (fun f => s.mayWrite req (47 + f / 64) early) then s.memStore a l else s.violate a req 1

/-- The TCMs that a requester's store reaches: its own core's, of a pair both cores' (R21, R218). -/
def tcmKeys (req : Nat) : List Nat := if 2 ≤ req ∧ req ≤ 4 then [2 * req + 4, 2 * req + 5] else [req]

/-- The pages of a store count as written since the pair's last checkpoint (R225). -/
def State.markDirty (s : State) (p a n : Nat) : State :=
  let x := s.pair p
  let new := ((List.range n).map (fun i => tcmPage (a + i))).eraseDups.filter (fun k => !x.dirty.contains k)
  s.setPair p { x with dirty := x.dirty ++ new }

/-- A store through the TCM window. -/
def State.tcmWrite (s : State) (req a v : Nat) : State :=
  let l := (leBytes 4 v).take (0x140000 - a)
  let s := { s with tcm := (tcmKeys req).foldl (fun t k => mset t k (memPuts (mget [] s.tcm k) a l)) s.tcm }
  match ownerPair req with
  | some p => s.markDirty p a l.length
  | none => s

/-- A store at an address by a requester (Table LANE-3). -/
def State.store (s : State) (req a v : Nat) (early : Bool) : State :=
  if !reaches req a then s.accessFault a req true
  else match region a with
  | some 1 => s.tcmWrite req a v
  | some 2 => s.sramWrite req a v early
  | some 3 => s.blockWrite req a v early
  | _ => s.accessFault a req true

/-- REGISTER_WRITE (R22 to R30). -/
def execRegisterWrite (req addr : Nat) (value : Word) (early : Bool) (s : State) : Res :=
  s.whenOn fun s => s.store req addr value.toNat early

end Sys2Proof.Machine
end

