-- ==== Sys2Proof/Machine/PairPort.lean ====
section
/-! DEFINITION. OUTPUT_COMPARE: what the cores of a pair that runs LOCKED do, the delay registers, the comparison and the
release to the fabric (R215 to R221, R227, R229, R235, R237). -/

namespace Sys2Proof.Machine

/-- The five fields of an output, each with one parity bit in the delay registers (R216). -/
def outFields (o : CoreOut) : List Nat := [o.token.toNat, o.addr.toNat, o.data.toNat, o.bytes.toNat, b2n o.load]

/-- The parity bit of each field. -/
def outParity (o : CoreOut) : List Nat := (outFields o).map (fun f => (bitList 64 f).length % 2)

/-- The leading core may retire tokens up to `n`: the delay registers have room, no event waits to be taken before them, and a
resynchronisation replays no further than it stopped (R215, R219, R227, R234). -/
def State.leadMay (s : State) (p n : Nat) : Bool :=
  let x := s.pair p
  s.coresRun p && decide (x.lead ≤ n) && decide (n < 2 ^ 64) && decide (x.fifo.length < 32) &&
  x.events.all (fun e => decide (n < e.d.getD (n + 1))) && x.again.all (fun e => decide (n < e.1)) &&
  (s.pairSt p != pairResync || decide (n ≤ x.stop))

/-- The trailing core may retire tokens up to `n`: LAG tokens behind, or up to the leading core for a checkpoint (R215,
R223). -/
def State.trailMay (s : State) (p n : Nat) : Bool :=
  let x := s.pair p
  decide (x.trail ≤ n) &&
  ((s.coresRun p && decide (n + s.rf (SLP_PAIRCFG.LAG p) ≤ x.lead)) || (s.pairSt p == pairCkpt && decide (n ≤ x.lead)))

/-- An output of the leading core enters the delay registers (R216). -/
def State.leadOut (s : State) (p : Nat) (o : CoreOut) : State :=
  let e : DelayEntry := { out := o, par := outParity o }
  if s.leadMay p o.token.toNat then (s.leadTo p o.token.toNat).setFifo p ((s.pair p).fifo ++ [e]) else s

/-- An access of core `k`'s own TCM is no output (R216, R218): it goes straight to that TCM. -/
def State.tcmAct (s : State) (p k : Nat) (o : CoreOut) : State :=
  let a := o.addr.toNat
  if o.load then s
  else
    let bytes := (List.range 4).filter (fun i => o.bytes.toNat.testBit i && region (a + i) == some 1)
    let ram := bytes.foldl (fun m i => memPut m (a + i) (BitVec.ofNat 8 (o.data.toNat / 256 ^ i))) (mget [] s.tcm k)
    ({ s with tcm := mset s.tcm k ram }).markDirty p a 4

/-- The access goes to the core's own TCM. -/
def ownTcm (o : CoreOut) : Bool := region o.addr.toNat == some 1

/-- A released output acts as an access of the pair (R217): a store, in SRAM of its enabled bytes, or a load, which reads 0 and
raises 6 where nothing is mapped (R22). -/
def State.access (s : State) (p : Nat) (o : CoreOut) (early : Bool) : State :=
  let a := o.addr.toNat
  if o.load then (if reaches (2 + p) a then s.readWord (2 + p) a else { s.accessFault a (2 + p) false with rdata := 0 })
  else if region a = some 2 && o.bytes != 15 then
    s.store (2 + p) a (ofLe ((List.range 4).map (fun i =>
      if o.bytes.toNat.testBit i then BitVec.ofNat 8 (o.data.toNat / 256 ^ i) else memByte s.mem (a + i)))) early
  else s.store (2 + p) a o.data.toNat early

/-- The data of a load in the replay log (R220, R227). -/
def SlpPair.loadData (x : SlpPair) (token addr : Nat) : Option Nat :=
  x.log.findSome? (fun e => match e with
    | .load t a d => if t = token ∧ a = addr then some d else none
    | .event _ _ _ _ => none)

/-- An output that both comparators match (R217): released, but one that was released before a replay is only compared, a load's data
coming from the log (R227); a released load's data is logged (R221). -/
def State.release (s : State) (p : Nat) (o : CoreOut) (early : Bool) : State :=
  let x := s.pair p
  let k := o.token.toNat
  if k < x.hush then
    (if o.load then { s with rdata := (x.loadData k o.addr.toNat).getD s.rdata } else s)
  else
    let s := (s.setPair p { x with rel := k }).setN (SLP_RELTOK.adr p) k
    let s := (s.emit (.coreOut p o)).access p o early
    if o.load then s.logEntry p (.load k o.addr.toNat s.rdata) else s

/-- An output of the trailing core against the oldest entry (R217, R235, R237): a bad parity first, then the two comparators. With no
entry there is nothing it matches. -/
def State.trailOut (s : State) (p : Nat) (o : CoreOut) (early : Bool) : State :=
  if !s.trailMay p o.token.toNat then s
  else match (s.pair p).fifo with
  | [] => (s.raiseEv 144 p).restart p 1
  | e :: rest =>
    let s := (s.setPair p { s.pair p with trail := o.token.toNat }).setFifo p rest
    if e.par != outParity e.out then (s.raiseEv 150 p).restart p 3
    else
      let (a, b) := (s.matches p 0 e.out o, s.matches p 1 e.out o)
      if a != b then (s.raiseEv 149 p).restart p 2
      else if !a then (s.raiseEv 144 p).restart p 1
      else s.release p e.out early

/-- A bit of a stored field flips, its parity bit stays. -/
def State.upset (s : State) (p entry field bit : Nat) : State :=
  let ofs := [0, 64, 96, 128, 132].getD field 0
  let wd := [64, 32, 32, 4, 1].getD field 1
  s.setPair p { s.pair p with fifo := (s.pair p).fifo.modify entry (fun e => { e with out := flipOut e.out (ofs + bit % wd) }) }

/-- A page of a checkpoint copy loses its ECC. -/
def State.eccLoss (s : State) (p copy page : Nat) : State :=
  let x := s.pair p
  s.setPair p (if copy = 0 then { x with copy0 := { x.copy0 with bad := page :: x.copy0.bad } }
    else { x with copy1 := { x.copy1 with bad := page :: x.copy1.bad } })

/-- A bit of the second copy of a status word, a latch word or a record's counts flips (R299). -/
def State.tallyUpset (s : State) (a bit : Nat) : State :=
  let held := (instOf 8 TLY_STAT.adr a).isSome || (instOf 8 TLY_LATCH.adr a).isSome || (instOf 256 TLY_RECCNT.adr a).isSome
  if held then { s with tly := { s.tly with diff := mset s.tly.diff a (mget 0 s.tly.diff a ^^^ 2 ^ bit) } } else s

/-- The hardware is struck. -/
def State.struck (s : State) (p : Nat) (hit : Option PairHit) : State :=
  match hit with
  | none => s
  | some (.upset entry field bit) => if s.on then s.upset p entry.val field.val bit.val else s
  | some (.stuck i at_) => { s with cmpStuck := mset s.cmpStuck (2 * p + i.val) at_ }
  | some (.ecc copy page) => if s.on then s.eccLoss p copy.val page.val else s
  | some (.tally reg bit) => if s.on then s.tallyUpset reg.toNat bit.val else s
  | some (.parity n) => if s.on then { s with tly := { s.tly with badPar := n.val :: s.tly.badPar } } else s

/-- A core's registers hold these bytes. -/
def State.coreHolds (s : State) (c : Nat) (bytes : List Byte) : State :=
  if s.on then { s with coreRegs := mset s.coreRegs c bytes } else s

/-- The leading, designated core acts (R215, R216). While the pair runs SPLIT it only counts its tokens here: its accesses
are those of a requester of its own. In REJOIN both cores stand (R239). -/
def State.leads (s : State) (p : Nat) (act : Option CoreAct) : State :=
  let apart := s.runsSplit p && s.pairSt p != pairRejoin
  match act with
  | none => s
  | some (.out o _) =>
    if apart then s.leadTo p o.token.toNat
    else if !s.runsLocked p then s
    else if !ownTcm o then s.leadOut p o
    else if s.leadMay p o.token.toNat then (s.leadTo p o.token.toNat).tcmAct p (s.desigCore p) o else s
  | some (.run n) => if apart || s.runsLocked p && s.leadMay p n then s.leadTo p n else s
  | some (.regs bytes) => s.coreHolds (s.desigCore p) bytes
  | some .trapRet => s.trapEnd (if s.runsSplit p then s.desigCore p else 2 + p)

/-- The trailing core acts (R215, R217). -/
def State.trails (s : State) (p : Nat) (act : Option CoreAct) : State :=
  match act with
  | none => s
  | some (.out o early) =>
    if !s.runsLocked p then s
    else if !ownTcm o then s.trailOut p o early
    else if s.trailMay p o.token.toNat then
      (s.setPair p { s.pair p with trail := o.token.toNat }).tcmAct p (s.otherCore p) o
    else s
  | some (.run m) => if s.runsLocked p && s.trailMay p m then s.setPair p { s.pair p with trail := m } else s
  | some (.regs bytes) => s.coreHolds (s.otherCore p) bytes
  | some .trapRet => if s.runsSplit p then s.trapEnd (s.otherCore p) else s

/-- OUTPUT_COMPARE (R215 to R217, R227, R235, R237): what strikes the pair, what its leading core does and what its trailing
core does, in this order. -/
def execOutputCompare (pair : Nat) (hit : Option PairHit) (lead trail : Option CoreAct) (s : State) : Res :=
  .next (((s.struck pair hit).leads pair lead).trails pair trail)

end Sys2Proof.Machine
end

