-- ==== Sys2Proof/Machine/Ports.lean ====
section
/-! DEFINITION. The SPI service port (R403, R404), and frames that the injection unit releases (R350). -/

namespace Sys2Proof.Machine

/-! ### SPI -/

/-- The four bytes the port returns while a transaction opens: 0xA5, the status byte, RSPLEN. -/
def State.spiHead (s : State) : List Byte :=
  [0xA5, BitVec.ofNat 8 (b2n s.serves + b2n s.spi.req.isSome * 2 + b2n s.spi.rsp.isSome * 4 + b2n s.spi.err * 8 + s.st * 16)] ++
  leBytes 2 (s.rf SPI_STAT.RSPLEN)

/-- The port works: the lane is out of reset, its pads are powered (R450) and SPI_CFG.EN is 1. -/
def State.spiOn (s : State) : Bool := s.on && !s.vioDead 0 && s.rb SPI_CFG.EN

/-- ERR after a transaction. -/
def State.spiErr (s : State) (e : Bool) : State := { s with spi := { s.spi with err := e } }

/-- A discarded transaction (R404). -/
def State.spiDiscard (s : State) : State := (s.incSat SPI_STAT.FRAMEERR).spiErr true

/-- A write that finds the request buffer full (R404). -/
def State.spiFull (s : State) : State := if s.spi.req.isSome then (s.incSat SPI_STAT.OVR).spiErr true else s

/-- SPI_WRITE (R403, R404): one whole message into the request buffer. -/
def execSpiWrite (message : List Byte) (s : State) : Res :=
  s.whenB s.spiOn fun s =>
    let t := s.emit (.miso s.spiHead)
    if message.length < 16 ∨ 1040 < message.length then t.spiFull.spiDiscard
    else if s.spi.req.isSome then t.spiFull
    else ({ t with spi := { t.spi with req := some message } }.wb SPI_STAT.REQFULL true).spiErr false

/-- SPI_READ (R403): COUNT bytes of the response, padded with 0; the buffer is freed where COUNT reaches RSPLEN. -/
def execSpiRead (count : Nat) (s : State) : Res :=
  s.whenB s.spiOn fun s =>
    let l := s.spi.rsp.getD []
    let t := (s.emit (.miso (s.spiHead ++ padTo count l))).spiErr false
    if s.spi.rsp.isSome ∧ l.length ≤ count then
      let t := { t with spi := { t.spi with rsp := none, rspInterim := false } }
      ((t.wb SPI_STAT.RSPRDY false).wf SPI_STAT.RSPLEN 0).respGone 0
    else t

/-- SPI_POLL (R403). -/
def execSpiPoll (s : State) : Res := s.whenB s.spiOn fun s => (s.emit (.miso s.spiHead)).spiErr false

/-- SPI_FRAME_ERROR (R404): a bad COUNT, a write that ends early, an unknown CMD. -/
def execSpiFrameError (kind : SpiError) (s : State) : Res :=
  s.whenB s.spiOn fun s =>
    match kind with
    | .badCount | .short => (s.emit (.miso s.spiHead)).spiFull.spiDiscard
    | .unknownCmd => (s.emit (.miso s.spiHead)).spiDiscard

/-! ### Held frames (R350) -/

/-- A held frame that was received, as the block that takes it sees it `d` ns later. -/
def heldRx (d : Nat) (c : Instr) (s : State) : State :=
  match c with
  | .airumFrameReceive f => s.nodeRx { f with sfdGt := f.sfdGt + d }
  | .starFrameReceive n f => s.starRx n { f with sfdGt := f.sfdGt + d }
  | .capReceive .. | .cfgackReceive .. | .echoreplyReceive .. | .statusReceive .. | .upstreamFrameDiscard .. => glkRun (glkShift d c) s
  | c => bridgeRun (bridgeShift d c) s

/-- A held frame goes on its way. -/
def State.releaseHeld (s : State) (h : HeldFrame) : State :=
  match h.rx with
  | some c => heldRx (s.now - h.since) c s
  | none => sendHeld h s

/-- The frame waits behind a delayed one; no rule of its own holds it. -/
def untilDelay (h : HeldFrame) : Bool := h.rule.isNone

/-- Frames of a target that go out, in their order, and directly after each of them those that a REORDER rule held before
it came. -/
def releaseOrder (out : List HeldFrame) : List HeldFrame → List HeldFrame → List HeldFrame
  | _, [] => []
  | before, y :: t =>
    if y.reorder then releaseOrder out (before ++ [y]) t
    else if out.contains y then y :: before ++ releaseOrder out [] t else []

/-- INJECT_RELEASE (R350): the oldest frame of the rule whose time has come, and behind a delayed one the frames that waited
for it. -/
def execInjectRelease (rule : Nat) (s : State) : Res :=
  match s.ast.held.find? (fun h => h.rule == some rule) with
  | none => .next s
  | some h =>
    let same := s.heldAt h.target h.port
    let first := h.reorder || (same.filter (fun x => !x.reorder)).head? == some h
    s.whenB (s.on && decide (h.due ≤ s.now) && first) fun s =>
      let behind := ((same.filter (fun x => !x.reorder)).drop 1).takeWhile untilDelay
      let out := if h.reorder then [h] else releaseOrder (h :: behind) [] same
      let s := { s with ast := { s.ast with held := out.foldl (fun l x => l.erase x) s.ast.held } }
      out.foldl State.releaseHeld s

end Sys2Proof.Machine
end

