-- ==== Sys2Proof/Machine/Dispatch.lean ====
section
/-! DEFINITION. One arm per command: the meaning that exec runs. -/

namespace Sys2Proof.Machine

open Sys2Proof

/-- The effect of a command on everything but the queue. -/
def exec (i : Instr) (s : State) : Host.Outcome State Fault Refusal :=
  match i with
  -- LANE, bridges
  | .registerWrite req addr value early => Sys2Proof.Machine.execRegisterWrite req addr value early s
  | .accessFault req addr write => Sys2Proof.Machine.execAccessFault req addr write s
  | .grantDrainDone unit => Sys2Proof.Machine.execGrantDrainDone unit s
  | .gtLoRead req => Sys2Proof.Machine.execGtLoRead req s
  | .heartbeatSend => Sys2Proof.Machine.execHeartbeatSend s
  | .heartbeatReceive peer payload crcOk => Sys2Proof.Machine.execHeartbeatReceive peer payload crcOk s
  | .bridgeLossTimeout peer => Sys2Proof.Machine.execBridgeLossTimeout peer s
  | .timeMessageReceive peer offset netOffset => Sys2Proof.Machine.execTimeMessageReceive peer offset netOffset s
  | .summaryReceive peer eflLow faults => Sys2Proof.Machine.execSummaryReceive peer eflLow faults s
  | .moduleCommandReceive peer msg => Sys2Proof.Machine.execModuleCommandReceive peer msg s
  -- SPN
  | .gtCorrection => Sys2Proof.Machine.execGtCorrection s
  | .holdoverEntry => Sys2Proof.Machine.execHoldoverEntry s
  | .strikeFire entry => Sys2Proof.Machine.execStrikeFire entry s
  | .strikeComplete entry => Sys2Proof.Machine.execStrikeComplete entry s
  | .strikeDeadline entry => Sys2Proof.Machine.execStrikeDeadline entry s
  | .grpenWrite req group value => Sys2Proof.Machine.execGrpenWrite req group value s
  | .grpenEffect group => Sys2Proof.Machine.execGrpenEffect group s
  | .spnDone req entry => Sys2Proof.Machine.execSpnDone req entry s
  | .spnLedgerClr req value => Sys2Proof.Machine.execSpnLedgerClr req value s
  | .speedUpdate mops => Sys2Proof.Machine.execSpeedUpdate mops s
  -- PWM
  | .bankRunWrite req bank run => Sys2Proof.Machine.execBankRunWrite req bank run s
  | .bankCommit req bank => Sys2Proof.Machine.execBankCommit req bank s
  | .commitAccept bank => Sys2Proof.Machine.execCommitAccept bank s
  | .reloadDecision bank => Sys2Proof.Machine.execReloadDecision bank s
  | .periodBoundary bank => Sys2Proof.Machine.execPeriodBoundary bank s
  | .delayLineCalibration bank taps => Sys2Proof.Machine.execDelayLineCalibration bank taps s
  | .lineSwap bank => Sys2Proof.Machine.execLineSwap bank s
  | .tripAssert input => Sys2Proof.Machine.execTripAssert input s
  | .blankingClose input => Sys2Proof.Machine.execBlankingClose input s
  | .bothOnDetect leg => Sys2Proof.Machine.execBothOnDetect leg s
  -- GLK
  | .linkKeepalive port => Sys2Proof.Machine.execLinkKeepalive port s
  | .capReceive port record => Sys2Proof.Machine.execCapReceive port record s
  | .cfgackReceive port payload => Sys2Proof.Machine.execCfgackReceive port payload s
  | .rateChange port => Sys2Proof.Machine.execRateChange port s
  | .characterLock port gained => Sys2Proof.Machine.execCharacterLock port gained s
  | .echoreplyReceive port sequence roundTrip => Sys2Proof.Machine.execEchoreplyReceive port sequence roundTrip s
  | .echoRecheck port => Sys2Proof.Machine.execEchoRecheck port s
  | .syncSend port => Sys2Proof.Machine.execSyncSend port s
  | .negotiateTimeout port => Sys2Proof.Machine.execNegotiateTimeout port s
  | .bringupRetry port => Sys2Proof.Machine.execBringupRetry port s
  | .statusReceive port payload startGt => Sys2Proof.Machine.execStatusReceive port payload startGt s
  | .upstreamFrameDiscard port => Sys2Proof.Machine.execUpstreamFrameDiscard port s
  | .statusMissing port => Sys2Proof.Machine.execStatusMissing port s
  | .levelSend port => Sys2Proof.Machine.execLevelSend port s
  | .glkSampaRead req port => Sys2Proof.Machine.execGlkSampaRead req port s
  -- FBC
  | .fbcLevelChange chan a b z => Sys2Proof.Machine.execFbcLevelChange chan a b z s
  | .speedBoundUpdate chan => Sys2Proof.Machine.execSpeedBoundUpdate chan s
  | .speedStopTimeout chan => Sys2Proof.Machine.execSpeedStopTimeout chan s
  | .fbcPreset req chan => Sys2Proof.Machine.execFbcPreset req chan s
  | .fbcClrsusp req chan => Sys2Proof.Machine.execFbcClrsusp req chan s
  | .fbcPosRead req chan => Sys2Proof.Machine.execFbcPosRead req chan s
  | .sentFrame chan pulses => Sys2Proof.Machine.execSentFrame chan pulses s
  | .sentTimeout chan => Sys2Proof.Machine.execSentTimeout chan s
  -- LPE, converter
  | .loopSampleRun engine => Sys2Proof.Machine.execLoopSampleRun engine s
  | .adcStart req value => Sys2Proof.Machine.execAdcStart req value s
  | .adcConversionDone input => Sys2Proof.Machine.execAdcConversionDone input s
  -- services
  | .serviceCapture => Sys2Proof.Machine.execServiceCapture s
  | .serviceAgreement => Sys2Proof.Machine.execServiceAgreement s
  | .serviceLaw => Sys2Proof.Machine.execServiceLaw s
  | .delegationDeadline => Sys2Proof.Machine.execDelegationDeadline s
  | .windingTakeOut => Sys2Proof.Machine.execWindingTakeOut s
  | .windingReturn => Sys2Proof.Machine.execWindingReturn s
  | .circuitTakeOut => Sys2Proof.Machine.execCircuitTakeOut s
  | .circuitReturn => Sys2Proof.Machine.execCircuitReturn s
  -- SLP, LBR
  | .outputCompare pair hit lead trail => Sys2Proof.Machine.execOutputCompare pair hit lead trail s
  | .eventDelivery pair vector => Sys2Proof.Machine.execEventDelivery pair vector s
  | .checkpoint pair flip => Sys2Proof.Machine.execCheckpoint pair flip s
  | .restartLive pair => Sys2Proof.Machine.execRestartLive pair s
  | .resync pair other flip => Sys2Proof.Machine.execResync pair other flip s
  | .rejoin pair flip => Sys2Proof.Machine.execRejoin pair flip s
  | .rejoinTimeout pair => Sys2Proof.Machine.execRejoinTimeout pair s
  | .agreementReceive peer round origin tag words => Sys2Proof.Machine.execAgreementReceive peer round origin tag words s
  | .agreementResult => Sys2Proof.Machine.execAgreementResult s
  -- redundancy, Tailstock
  | .voteSend => Sys2Proof.Machine.execVoteSend s
  | .voteReceive peer vote => Sys2Proof.Machine.execVoteReceive peer vote s
  | .memberTimeout peer => Sys2Proof.Machine.execMemberTimeout peer s
  | .fitnessTimeout => Sys2Proof.Machine.execFitnessTimeout s
  | .parkEntry => Sys2Proof.Machine.execParkEntry s
  | .safetyInputDemand input a b => Sys2Proof.Machine.execSafetyInputDemand input a b s
  | .safetyInputHealthy input => Sys2Proof.Machine.execSafetyInputHealthy input s
  | .discrepancyFault input => Sys2Proof.Machine.execDiscrepancyFault input s
  | .discrepancyEnd input samples => Sys2Proof.Machine.execDiscrepancyEnd input samples s
  | .readbackMismatch output padOn => Sys2Proof.Machine.execReadbackMismatch output padOn s
  | .testPulseStart output => Sys2Proof.Machine.execTestPulseStart output s
  | .testPulseEnd output padOn => Sys2Proof.Machine.execTestPulseEnd output padOn s
  | .tskResponse req value => Sys2Proof.Machine.execTskResponse req value s
  | .challengeCheck => Sys2Proof.Machine.execChallengeCheck s
  | .pathDisagree output => Sys2Proof.Machine.execPathDisagree output s
  | .samplerFault => Sys2Proof.Machine.execSamplerFault s
  | .healthToggle => Sys2Proof.Machine.execHealthToggle s
  | .healthLoss => Sys2Proof.Machine.execHealthLoss s
  | .srstRelease samples => Sys2Proof.Machine.execSrstRelease samples s
  | .srstJammed => Sys2Proof.Machine.execSrstJammed s
  | .srstDiscrepancy => Sys2Proof.Machine.execSrstDiscrepancy s
  -- TLY
  | .sourceRaise => Sys2Proof.Machine.execSourceRaise s
  | .quietExpiry source => Sys2Proof.Machine.execQuietExpiry source s
  | .eflMinExpiry => Sys2Proof.Machine.execEflMinExpiry s
  | .eflTestEnd => Sys2Proof.Machine.execEflTestEnd s
  | .tlyStat0Read req => Sys2Proof.Machine.execTlyStat0Read req s
  | .tlyRecfirstRead req source => Sys2Proof.Machine.execTlyRecfirstRead req source s
  | .tlyFwraise req value => Sys2Proof.Machine.execTlyFwraise req value s
  | .tallySelfCheck => Sys2Proof.Machine.execTallySelfCheck s
  -- ANW
  | .networkChainBoundary => Sys2Proof.Machine.execNetworkChainBoundary s
  | .airumFrameReceive frame => Sys2Proof.Machine.execAirumFrameReceive frame s
  | .anwHandoff req flow => Sys2Proof.Machine.execAnwHandoff req flow s
  | .sealCutoff flow => Sys2Proof.Machine.execSealCutoff flow s
  | .sealComplete flow => Sys2Proof.Machine.execSealComplete flow s
  | .spanTransmit flow => Sys2Proof.Machine.execSpanTransmit flow s
  | .linkUp port gigabit roundTrips => Sys2Proof.Machine.execLinkUp port gigabit roundTrips s
  | .linkDown port => Sys2Proof.Machine.execLinkDown port s
  | .anRateAlternate port => Sys2Proof.Machine.execAnRateAlternate port s
  | .coldstartAttempt => Sys2Proof.Machine.execColdstartAttempt s
  | .backoffRetry => Sys2Proof.Machine.execBackoffRetry s
  -- AST
  | .starFrameReceive port frame => Sys2Proof.Machine.execStarFrameReceive port frame s
  | .frameCut input output => Sys2Proof.Machine.execFrameCut input output s
  | .coldstartHoldEnd => Sys2Proof.Machine.execColdstartHoldEnd s
  | .starChainBoundary => Sys2Proof.Machine.execStarChainBoundary s
  | .setPreferTimeout => Sys2Proof.Machine.execSetPreferTimeout s
  | .injectRelease rule => Sys2Proof.Machine.execInjectRelease rule s
  | .injectTokenLapse => Sys2Proof.Machine.execInjectTokenLapse s
  -- ARB, QUE, STY
  | .arbRequest arb port units => Sys2Proof.Machine.execArbRequest arb port units s
  | .arbUnitEnd arb => Sys2Proof.Machine.execArbUnitEnd arb s
  | .slotIdleAdvance arb => Sys2Proof.Machine.execSlotIdleAdvance arb s
  | .arbTableWrite req arb table word value => Sys2Proof.Machine.execArbTableWrite req arb table word value s
  | .quePost req queue count => Sys2Proof.Machine.execQuePost req queue count s
  | .queTake req queue count => Sys2Proof.Machine.execQueTake req queue count s
  | .queReturn req queue count => Sys2Proof.Machine.execQueReturn req queue count s
  | .steelyardAudit => Sys2Proof.Machine.execSteelyardAudit s
  -- HMB, SPI, CAN
  | .mailboxRequestTake => Sys2Proof.Machine.execMailboxRequestTake s
  | .interimResponse ch => Sys2Proof.Machine.execInterimResponse ch s
  | .responseDrop ch => Sys2Proof.Machine.execResponseDrop ch s
  | .spiWrite message => Sys2Proof.Machine.execSpiWrite message s
  | .spiRead count => Sys2Proof.Machine.execSpiRead count s
  | .spiPoll => Sys2Proof.Machine.execSpiPoll s
  | .spiFrameError kind => Sys2Proof.Machine.execSpiFrameError kind s
  | .canReceive ctl frame => Sys2Proof.Machine.execCanReceive ctl frame s
  | .canTransmit sending => Sys2Proof.Machine.execCanTransmit sending s
  | .canBusOff ctl => Sys2Proof.Machine.execCanBusOff ctl s
  | .canStart req ctl => Sys2Proof.Machine.execCanStart req ctl s
  | .canStop req ctl => Sys2Proof.Machine.execCanStop req ctl s
  -- mailbox commands (Table HMB-6)
  | .laneInfo ch => Sys2Proof.Machine.execLaneInfo ch s
  | .laneGrant ch unit owner => Sys2Proof.Machine.execLaneGrant ch unit owner s
  | .strikeSet ch entry cls action period phase target => Sys2Proof.Machine.execStrikeSet ch entry cls action period phase target s
  | .slpSplit ch pair => Sys2Proof.Machine.execSlpSplit ch pair s
  | .slpRejoin ch pair => Sys2Proof.Machine.execSlpRejoin ch pair s
  | .tskOutSet ch mask value => Sys2Proof.Machine.execTskOutSet ch mask value s
  | .queConfig ch queue cfg base => Sys2Proof.Machine.execQueConfig ch queue cfg base s
  | .queDisable ch queue => Sys2Proof.Machine.execQueDisable ch queue s
  | .arbPrioSet ch arb lo hi => Sys2Proof.Machine.execArbPrioSet ch arb lo hi s
  | .arbTableSet ch arb limit slots => Sys2Proof.Machine.execArbTableSet ch arb limit slots s
  | .anwNodeRestart ch => Sys2Proof.Machine.execAnwNodeRestart ch s
  | .astPortReadmit ch port => Sys2Proof.Machine.execAstPortReadmit ch port s
  | .pwmTripClear ch mask => Sys2Proof.Machine.execPwmTripClear ch mask s
  | .pwmLegClear ch leg => Sys2Proof.Machine.execPwmLegClear ch leg s
  | .glkPortRestart ch port => Sys2Proof.Machine.execGlkPortRestart ch port s
  | .glkLegClear ch port mask => Sys2Proof.Machine.execGlkLegClear ch port mask s
  | .lpeCtxRestart ch engine ctx => Sys2Proof.Machine.execLpeCtxRestart ch engine ctx s
  | .lpeCoefRead ch engine ctx record => Sys2Proof.Machine.execLpeCoefRead ch engine ctx record s
  | .svcStatus ch => Sys2Proof.Machine.execSvcStatus ch s
  | .steerWindingRestore ch => Sys2Proof.Machine.execSteerWindingRestore ch s
  | .brakeCircuitRestore ch => Sys2Proof.Machine.execBrakeCircuitRestore ch s
  | .fbcChanRestart ch chan => Sys2Proof.Machine.execFbcChanRestart ch chan s
  | .cmsLoad ch offset data => Sys2Proof.Machine.execCmsLoad ch offset data s
  | .cmsCheck ch => Sys2Proof.Machine.execCmsCheck ch s
  | .cmsConfirm ch chars => Sys2Proof.Machine.execCmsConfirm ch chars s
  | .cmsAbort ch => Sys2Proof.Machine.execCmsAbort ch s
  | .cmsRead ch offset count => Sys2Proof.Machine.execCmsRead ch offset count s
  | .cmsStatus ch => Sys2Proof.Machine.execCmsStatus ch s
  | .commitPeerMessage peer msg => Sys2Proof.Machine.execCommitPeerMessage peer msg s
  | .commitWaitTimeout => Sys2Proof.Machine.execCommitWaitTimeout s
  | .flashOperationDone ok => Sys2Proof.Machine.execFlashOperationDone ok s
  | .secNonce ch => Sys2Proof.Machine.execSecNonce ch s
  | .nonceExpiry => Sys2Proof.Machine.execNonceExpiry s
  | .secAttest ch nonce => Sys2Proof.Machine.execSecAttest ch nonce s
  | .secCertRead ch => Sys2Proof.Machine.execSecCertRead ch s
  | .secDebugEnter ch token => Sys2Proof.Machine.execSecDebugEnter ch token s
  | .secDebugExit ch => Sys2Proof.Machine.execSecDebugExit ch s
  | .secInjectToken ch token => Sys2Proof.Machine.execSecInjectToken ch token s
  | .secDebugDisable ch order => Sys2Proof.Machine.execSecDebugDisable ch order s
  | .secRootRevoke ch order => Sys2Proof.Machine.execSecRootRevoke ch order s
  | .secRekey ch order => Sys2Proof.Machine.execSecRekey ch order s
  | .secProfileLock ch order => Sys2Proof.Machine.execSecProfileLock ch order s
  | .nchLogRead ch entry => Sys2Proof.Machine.execNchLogRead ch entry s
  | .diagRead ch addr count => Sys2Proof.Machine.execDiagRead ch addr count s
  | .tlySetReaction ch source cfg => Sys2Proof.Machine.execTlySetReaction ch source cfg s
  | .tlyEflTest ch duration => Sys2Proof.Machine.execTlyEflTest ch duration s
  | .astInjArm ch rule tgt par start => Sys2Proof.Machine.execAstInjArm ch rule tgt par start s
  | .astInjStop ch mask => Sys2Proof.Machine.execAstInjStop ch mask s
  | .dbgProbeSet ch pad signal => Sys2Proof.Machine.execDbgProbeSet ch pad signal s
  | .probeEvent pad level => Sys2Proof.Machine.execProbeEvent pad level s
  | .updBegin ch image size => Sys2Proof.Machine.execUpdBegin ch image size s
  | .updWrite ch offset data => Sys2Proof.Machine.execUpdWrite ch offset data s
  | .updVerify ch => Sys2Proof.Machine.execUpdVerify ch s
  | .updActivate ch => Sys2Proof.Machine.execUpdActivate ch s
  | .updAbort ch => Sys2Proof.Machine.execUpdAbort ch s
  | .updStatus ch => Sys2Proof.Machine.execUpdStatus ch s
  -- PMU, reset, start-up
  | .powerValid => Sys2Proof.Machine.execPowerValid s
  | .powerLoss => Sys2Proof.Machine.execPowerLoss s
  | .vlaneOvervoltage => Sys2Proof.Machine.execVlaneOvervoltage s
  | .pmuVlaneUv below => Sys2Proof.Machine.execPmuVlaneUv below s
  | .pmuVlaneOv above => Sys2Proof.Machine.execPmuVlaneOv above s
  | .pmuRailFault rail => Sys2Proof.Machine.execPmuRailFault rail s
  | .pmuVioFault banks => Sys2Proof.Machine.execPmuVioFault banks s
  | .pmuTempHigh temp => Sys2Proof.Machine.execPmuTempHigh temp s
  | .thermalShutdown cooled => Sys2Proof.Machine.execThermalShutdown cooled s
  | .laneOscFault crystal => Sys2Proof.Machine.execLaneOscFault crystal s
  | .pmuWdkick req value => Sys2Proof.Machine.execPmuWdkick req value s
  | .watchdogTimeout => Sys2Proof.Machine.execWatchdogTimeout s
  | .rstnLow released => Sys2Proof.Machine.execRstnLow released s
  | .resetEnd => Sys2Proof.Machine.execResetEnd s
  | .bootComplete => Sys2Proof.Machine.execBootComplete s
  | .selftestComplete results => Sys2Proof.Machine.execSelftestComplete results s
  | .netwaitExpiry => Sys2Proof.Machine.execNetwaitExpiry s
  | .peerWaitTimeout peer => Sys2Proof.Machine.execPeerWaitTimeout peer s
  | .serviceEntry => Sys2Proof.Machine.execServiceEntry s
  | .switchEdge leg => Sys2Proof.Machine.execSwitchEdge leg s
  | .tripInputRelease input => Sys2Proof.Machine.execTripInputRelease input s
  | .busOffRecovery ctl => Sys2Proof.Machine.execBusOffRecovery ctl s
  | .updateCoordinationReceive peer sessionOpen => Sys2Proof.Machine.execUpdateCoordinationReceive peer sessionOpen s

end Sys2Proof.Machine
end

