-- ==== Sys2Proof/Machine/Tick.lean ====
section
/-! DEFINITION. One tick of the lane clock, 5 ns: what step does while no command waits. -/

namespace Sys2Proof.Machine

/-- GT with its fraction, in units of 2^-32 ns, after one tick: 5 ns adjusted by the rate correction and the slew, modulo
2^64 ns (R44). -/
def State.gtNext (s : State) : Nat :=
  ((((s.gt * 4294967296 + s.frac : Nat) : Int) + 5 * (4294967296 + s.rate + s.slew)) % 79228162514264337593543950336).toNat

/-- GT after a tick, and the network offset against it (R319); it stands at 0 while the lane is in OFF (R45). -/
def State.gtTick (s : State) : State :=
  if s.on then
    { s.offTrack (((s.frac : Int) + 5 * (s.rate + s.slew)) / 4294967296) with
      gt := s.gtNext / 4294967296, frac := s.gtNext % 4294967296, spn := { s.spn with gtLast := s.gt } }
  else s

/-- A tick: time passes, GT advances, the feedback lines are sampled (R130), the gate links send what they hold (R112), and what
the lane watches as time goes on is judged (R197, R198, R272, R458), as are entries that wait for new words (R56). -/
def State.tick (s : State) : State :=
  let t := { s.gtTick with now := s.now + 5 }
  if t.on then t.fbTick.glkFlows.svcWatch.hlthWatch.readyJudge.entriesTake else t

end Sys2Proof.Machine
end

