-- ==== Sys2Proof/Safety.lean ====
section
/-! DEFINITION. What counts as a safe run, in the terms the statements use: a step never stops, memory keeps its form, and
what a command leaves as it is. -/

namespace Sys2Proof.Machine

/-- A step never stops the lane. -/
def StepSafe (s : State) : Prop := ∃ t, step s = .next t

/-- Lane memory is in its canonical form: SRAM, every TCM, and the TCM images of each pair's two checkpoint copies. -/
def MemOk (s : State) : Prop :=
  Memory.wf s.mem = true ∧ (∀ k m, (k, m) ∈ s.tcm → Memory.wf m = true) ∧ ∀ p x, (p, x) ∈ s.slp → Memory.wf x.copy0.tcm = true ∧ Memory.wf x.copy1.tcm = true

/-- The clock's corrections lie within the limits of R49 and its fraction is below one
nanosecond. -/
abbrev ClockOk (s : State) : Prop :=
  -858993 ≤ s.rate ∧ s.rate ≤ 858993 ∧ -429497 ≤ s.slew ∧ s.slew ≤ 429497 ∧ s.frac < 2 ^ 32

/-- The register that an act of a service writes. -/
def SvcOp.addr? (op : SvcOp) : Option Nat :=
  match op with
  | .put _ addr _ _ => some addr
  | .take _ | .held _ | .restart _ | .vote | .live _ | .give _ _ | .back _ => none

/-- The registers that writes of the services still name: delegated ones, and those that wait for a move. -/
def State.svcAddrs (s : State) : List Nat :=
  s.svc.reqs.map (·.addr) ++ (s.svc.wind.prog ++ s.svc.circ.prog ++ s.svc.prog).filterMap SvcOp.addr?

/-- The lane state's code is one of OFF, BOOT, SELFTEST, INTEGRATE, SERVICE or DEBUG, and no write of the services that
waits names LANE_STATE. -/
abbrev StateOk (s : State) : Prop := s.st ≤ stDebug ∧ ∀ a ∈ s.svcAddrs, a ≠ LANE_STATE.adr

/-- Table PMU-2 allows this transition: from, to. -/
def Allowed (a b : Nat) : Prop :=
  b = stOff ∨ (a = stOff ∧ b = stBoot) ∨ (a = stBoot ∧ b = stSelftest) ∨ (a = stSelftest ∧ b = stIntegrate) ∨
  (a = stIntegrate ∧ b = stService) ∨ (a = stService ∧ b = stIntegrate) ∨
  ((a = stSelftest ∨ a = stIntegrate ∨ a = stService) ∧ b = stDebug)

/-- Two fields share no bit. -/
def Fld.apart (f g : Fld) : Prop := f.adr ≠ g.adr ∨ f.lo + f.wd ≤ g.lo ∨ g.lo + g.wd ≤ f.lo

/-- A whole register as a field. -/
def whole (a : Nat) : Fld := ⟨a, 0, 32⟩

/-- Every field of every register that shares no bit with a listed field is as before. -/
def RegsBut (l : List Fld) (s t : State) : Prop :=
  ∀ f : Fld, f.lo + f.wd ≤ 32 → (∀ g ∈ l, f.apart g) → t.rf f = s.rf f

/-- A raise of a source now, as the Tally will take it (R282). -/
def State.raiseOf (s : State) (src detail : Nat) : Raise := { src := src, detail := detail % 2 ^ 32, gt := s.gt, at_ := s.now }

/-- Exactly one raise was added, of this source with this detail. -/
def Raised (s t : State) (src detail : Nat) : Prop := t.tly.raises = s.tly.raises ++ [s.raiseOf src detail]

/-- The lane has sent exactly these messages more. -/
def Sent (s t : State) (l : List OutMsg) : Prop := t.outbox = s.outbox ++ l

/-- Lane memory reads the same at every address that is not one of `n` from `a`. -/
def MemBut (a n : Nat) (s t : State) : Prop := ∀ c, (c < a ∨ a + n ≤ c) → memByte t.mem c = memByte s.mem c

/-- An image or memory reads the same at every address that is not one of `n` from `a`. -/
def CellsBut (a n : Nat) (m m' : List Host.Cell) : Prop := ∀ c, (c < a ∨ a + n ≤ c) → memByte m' c = memByte m c

/-- A refused access was recorded (R22, R25, R26, R40): while VALID is 1 only COUNT moved, else the capture registers hold
the access and COUNT 1. -/
def Recorded (s t : State) (addr req kind : Nat) (wr : Bool) : Prop :=
  if s.rb LANE_FAULT_INFO.VALID then
    t.rf LANE_FAULT_INFO.COUNT = min (s.rf LANE_FAULT_INFO.COUNT + 1) 65535 ∧ RegsBut [LANE_FAULT_INFO.COUNT] s t
  else
    t.rn LANE_FAULT_ADDR.adr = addr % 2 ^ 32 ∧ t.rf LANE_FAULT_INFO.VALID = 1 ∧ t.rf LANE_FAULT_INFO.REQ = req % 32 ∧
    t.rf LANE_FAULT_INFO.KIND = kind % 4 ∧ t.rf LANE_FAULT_INFO.WR = b2n wr ∧ t.rf LANE_FAULT_INFO.COUNT = 1 ∧
    RegsBut [whole LANE_FAULT_ADDR.adr, whole LANE_FAULT_INFO.adr] s t

/-- A write was discarded for ownership: recorded, 7 raised, nothing else (R25, R26). -/
def Discarded (s t : State) (addr req kind : Nat) : Prop :=
  Recorded s t addr req kind true ∧ Raised s t 7 (faultDetail req kind true) ∧ 
    t = { s with regs := t.regs, tly := t.tly, lane := { s.lane with lastFault := t.lane.lastFault } }

/-- No injection rule is armed and no frame is held at a bridge pad towards lane `k`. -/
abbrev State.bridgeQuiet (s : State) (k : Nat) : Prop :=
  s.rf AST_INJCTL.ARM = 0 ∧ s.heldAt injBridgeRx (s.endpoint k) = []

/-- A mailbox request waits on channel `c` as this command: the lane serves, the channel is in use and the requests taken
before it have acted (R386, R391, R392). -/
abbrev State.Asked (s : State) (c : Nat) (cmd : Instr) (r : HmbRun) : Prop :=
  s.serves = true ∧ s.chanOn c = true ∧ (s.chan c).run = some r ∧ r.cmd = some cmd ∧ s.turnOf r.seq = true

/-- The state in which that command acts: the request no longer waits. -/
def State.taken (s : State) (c : Nat) (r : HmbRun) : State :=
  s.setChan c { s.chan c with run := some { r with cmd := none } }

end Sys2Proof.Machine
end

