-- ==== Sys2Proof/WellFormed.lean ====
section
/-! DEFINITION. Which commands are well formed: operands that come as numbers or lists stay in the ranges the spec gives
them. -/

namespace Sys2Proof

/-- A requester: the Headstock, a pair, a core or a loop engine (Table LANE-6). -/
def reqOk (r : Nat) : Bool := r == 1 || (2 ≤ r && r ≤ 4) || (8 ≤ r && r ≤ 13) || (16 ≤ r && r ≤ 19)

/-- A 32-bit lane address (Table LANE-3). -/
def addrOk (a : Nat) : Bool := decide (a < 2 ^ 32)

/-- A signed number of 32 bits. -/
def int32Ok (i : Int) : Bool := decide (-2147483648 ≤ i) && decide (i ≤ 2147483647)

/-- An Airum frame: 60 to 1 514 bytes from the destination address to the end of the client data (R306), with the whole
header of Table ANW-1. -/
def airumOk (f : AirumFrame) : Bool := decide (60 ≤ f.bytes.length) && decide (f.bytes.length ≤ 1514)

/-- A CAN frame (Table HMB-7). -/
def canOk (f : CanFrame) : Bool :=
  decide (f.id < 2 ^ 32) && decide (f.dlc < 16) && decide (f.gt < 2 ^ 64) && decide (f.data.length ≤ 64)

/-- A vote: relayed claims of other lanes (R250), codes of Table TSK-2. -/
def voteOk (v : Vote) : Bool :=
  decide (v.mission ≤ 2) && decide (v.stopGt < 2 ^ 64) && decide (v.causes < 16) && v.relayed.all (fun r => decide (r.1 ≤ 2))

/-- What a bulk message carries (R398, R429 to R431, R438). -/
def bulkOk (m : Bulk) : Bool :=
  match m with
  | .cmsCheck chain count profiles cap found => (chain.length == 0 || chain.length == 8) && decide (count ≤ 196608) && decide (profiles.length ≤ 2) && decide (cap < 256) &&
    found.all (fun x => decide (x.1 ≤ 2) && decide (x.2.2 < 65536))
  | .cmsDigest d => d.length == 64
  | .cmsRefused lane _ ofs => decide (lane ≤ 2) && decide (ofs < 65536)
  | .cmsConfirm | .cmsBusy => true
  | .profileLock order => order.length == 96

/-- What a core does (R215, R216): an output enables a byte at least, and token indices have 64 bits. -/
def actOk (a : Option CoreAct) : Bool :=
  match a with
  | some (.out o _) => o.bytes != 0
  | some (.run n) => decide (n < 2 ^ 64)
  | _ => true

/-- Data of CMS_LOAD: 4 to 1 016 bytes, a multiple of 4 (Table HMB-6). -/
def loadOk (d : List Byte) : Bool := decide (4 ≤ d.length) && decide (d.length ≤ 1016) && d.length % 4 == 0

/-- Data of UPD_WRITE: 4 to 1 016 bytes (Table HMB-6). -/
def updOk (d : List Byte) : Bool := decide (4 ≤ d.length) && decide (d.length ≤ 1016)

/-- A token is 144 bytes (Table SEC-3). -/
def tokenLenOk (t : List Byte) : Bool := t.length == 144

/-- A signed order is 96 bytes (Table SEC-2). -/
def orderLenOk (o : List Byte) : Bool := o.length == 96

/-- Commands that a requester of the lane makes: who it is. -/
def Instr.req? : Instr → Option Nat
  | .registerWrite r _ _ _ | .accessFault r _ _ | .gtLoRead r | .grpenWrite r _ _ | .spnDone r _ | .spnLedgerClr r _
  | .bankRunWrite r _ _ | .bankCommit r _ | .glkSampaRead r _ | .fbcPreset r _ | .fbcClrsusp r _ | .fbcPosRead r _
  | .adcStart r _ | .tskResponse r _ | .tlyStat0Read r | .tlyRecfirstRead r _ | .tlyFwraise r _ | .anwHandoff r _
  | .arbTableWrite r _ _ _ _ | .quePost r _ _ | .queTake r _ _ | .queReturn r _ _ | .canStart r _ | .canStop r _
  | .pmuWdkick r _ => some r.val
  | _ => none

/-- A command is well formed. -/
def Instr.wf (i : Instr) : Bool :=
  (match i.req? with | some r => reqOk r | none => true) &&
  match i with
  | .registerWrite _ a _ _ => addrOk a
  | .accessFault _ a _ => addrOk a
  | .timeMessageReceive _ o n => int32Ok o && (match n with | some x => int32Ok x | none => true)
  | .moduleCommandReceive _ m => bulkOk m
  | .outputCompare _ _ a b => actOk a && actOk b
  | .agreementReceive _ _ _ _ w => decide (w.length ≤ 48)
  | .voteReceive _ v => voteOk v
  | .airumFrameReceive f => airumOk f
  | .starFrameReceive _ f => airumOk f
  | .canReceive _ f => canOk f
  | .cmsLoad _ _ d => loadOk d
  | .updWrite _ _ d => updOk d
  | .secDebugEnter _ t => tokenLenOk t
  | .secInjectToken _ t => tokenLenOk t
  | .secDebugDisable _ o => orderLenOk o
  | .secRootRevoke _ o => orderLenOk o
  | .secRekey _ o => orderLenOk o
  | .secProfileLock _ o => orderLenOk o
  | .pmuTempHigh t => decide (-128 ≤ t) && decide (t ≤ 127)
  | _ => true

end Sys2Proof
end

