-- ==== Sys2Proof/Certificates/Slice0/Obligations.lean ====
section
/-! DEFINITION. The statements about the model. Each clause of a statement names the command, the conditions on the state
and the operands under which it has its effect, and the state it leaves; a clause's comment says which case it is. -/

section

open Sys2Proof Sys2Proof.Machine

/-- AGREEMENT_RECEIVE, no injection rule armed: round-1 words are kept as the peer's and, in INTEGRATE or SERVICE of a
three-lane module (R34), relayed to both peers; round-2 words are kept as the copy through that peer (R242).
AGREEMENT_RESULT: with every lane's words consistent and an item present in all three, LBR_RESULT holds the median by
TYPE, of two values the lower, the higher or the mean as RULE says, RESSTAT counts them with NEW 1, AGRINST is the tag
and DONE is 1; an item with fewer than MINCNT values keeps its result, NEW 0, and 154 is raised; a lane whose copies
differ is excluded and 153 raised (R243 to R245). MODULE_COMMAND_RECEIVE: a digest ends the check with V, a refusal
ends it refused, a confirm begins the commit, a shared profile lock the order of it (step by step as the model has it,
log entry 28); a lane with a procedure under way answers a check with the busy message (DESIGN CHOICE, log entry 28).
COMMIT_PEER_MESSAGE records PREPARED and INTENT, and the last PREPARED or any INTENT ends the wait (R398, R431, R433).
Every agreement of a lane with its own words ends with DONE and its instance's tag. -/
def Obligations.AgreementAndModuleMessages : Prop :=
  -- the median of three integers
  (∀ rule a b c : Nat, a < 2 ^ 32 → b < 2 ^ 32 → c < 2 ^ 32 →
     agrResult 1 rule [a, b, c] = max (min a b) (min (max a b) c) ∧
     toSigned 32 (agrResult 0 rule [a, b, c]) = max (min (toSigned 32 a) (toSigned 32 b)) (min (max (toSigned 32 a) (toSigned 32 b)) (toSigned 32 c))) ∧
  -- two integers: the lower, the higher, the mean
  (∀ a b : Nat, a < 2 ^ 32 → b < 2 ^ 32 →
     agrResult 1 1 [a, b] = min a b ∧ agrResult 1 2 [a, b] = max a b ∧ agrResult 1 0 [a, b] = (a + b) / 2 ∧
     toSigned 32 (agrResult 0 1 [a, b]) = min (toSigned 32 a) (toSigned 32 b) ∧ toSigned 32 (agrResult 0 2 [a, b]) = max (toSigned 32 a) (toSigned 32 b) ∧
     toSigned 32 (agrResult 0 0 [a, b]) = Int.tdiv (toSigned 32 a + toSigned 32 b) 2) ∧
  -- round 1
  (∀ (s : State) (k : Fin 3) (tag : Word) (w : List Word),
     s.on = true →
     s.isPeer k = true →
     s.bridgeQuiet k →
     s.bridgeUp k = true →
     s.rb LBR_AGRCFG.EN = true →
     s.otp.jv2g = false →
     (s.st == stIntegrate || s.st == stService) = true →
     s.ast.held = [] →
     ∃ t : State, exec (.agreementReceive k 0 k tag w) s = .next t ∧
       tagged tag.toNat ((t.agr.direct.find? (fun x => x.1 == k.val)).map (·.2)) = some (w.map (·.toNat)) ∧
       t.agr.own = s.agr.own ∧
       t.agr.via = s.agr.via ∧
       Sent s t ((s.peersOf.filter s.bridgeUp).map (fun j => .bridge j (.agreement 1 k tag.toNat (w.map (·.toNat))))) ∧
       RegsBut [] s t ∧
       t = { s with free := t.free, agr := t.agr, outbox := t.outbox }) ∧
  -- round 1 in another state or in a two-lane module: kept, and nothing is relayed
  (∀ (s : State) (k : Fin 3) (tag : Word) (w : List Word),
     s.on = true →
     s.isPeer k = true →
     s.bridgeQuiet k →
     s.bridgeUp k = true →
     s.rb LBR_AGRCFG.EN = true →
     ((s.st == stIntegrate || s.st == stService) = false ∨ s.otp.jv2g = true) →
     ∃ t : State, exec (.agreementReceive k 0 k tag w) s = .next t ∧
       tagged tag.toNat ((t.agr.direct.find? (fun x => x.1 == k.val)).map (·.2)) = some (w.map (·.toNat)) ∧
       t.agr.own = s.agr.own ∧
       t.agr.via = s.agr.via ∧
       t = { s with free := t.free, agr := t.agr }) ∧
  -- round 2
  (∀ (s : State) (k : Fin 3) (o : Fin 3) (tag : Word) (w : List Word),
     s.on = true →
     s.isPeer k = true →
     s.bridgeQuiet k →
     s.bridgeUp k = true →
     s.rb LBR_AGRCFG.EN = true →
     ∃ t : State, exec (.agreementReceive k 1 o tag w) s = .next t ∧
       tagged tag.toNat ((t.agr.via.find? (fun x => x.1 == 3 * k.val + o)).map (·.2)) = some (w.map (·.toNat)) ∧
       t.agr.own = s.agr.own ∧
       t.agr.direct = s.agr.direct ∧
       t = { s with free := t.free, agr := t.agr }) ∧
  -- agreement words while the agreement is off or the bridge down
  (∀ (s : State) (k : Fin 3) (o : Fin 3) (rd : Fin 2) (tag : Word) (w : List Word),
     s.on = true →
     s.isPeer k = true →
     s.bridgeQuiet k →
     (s.bridgeUp k = false ∨ s.rb LBR_AGRCFG.EN = false) →
     ∃ t : State, exec (.agreementReceive k rd o tag w) s = .next t ∧
       t = { s with free := t.free }) ∧
  -- results from three lanes
  (∀ (s : State) (own : AgrWords) (wA : List Nat) (wB : List Nat) (wC : List Nat) (ty : Nat),
     s.on = true →
     s.rb LBR_AGRCFG.EN = true →
     s.rb LBR_AGRSTAT.DONE = false →
     s.otp.jv2g = false →
     s.otp.lane < 3 →
     s.agr.own = some own →
     own.tag < 2 ^ 32 →
     s.rf LBR_AGRCFG.NITEMS ≤ 48 →
     s.laneWords own.tag (s.rf LBR_AGRCFG.NITEMS) 0 = .inl (some wA) →
     s.laneWords own.tag (s.rf LBR_AGRCFG.NITEMS) 1 = .inl (some wB) →
     s.laneWords own.tag (s.rf LBR_AGRCFG.NITEMS) 2 = .inl (some wC) →
     wA.length = s.rf LBR_AGRCFG.NITEMS →
     wB.length = s.rf LBR_AGRCFG.NITEMS →
     wC.length = s.rf LBR_AGRCFG.NITEMS →
     ∃ t : State, exec (.agreementResult) s = .next t ∧
       t.rn LBR_AGRINST.adr = own.tag ∧
       t.rb LBR_AGRSTAT.DONE = true ∧
       (∀ i : Fin 48, i.val < s.rf LBR_AGRCFG.NITEMS → (let ty := s.rf (LBR_ITEMCFG.TYPE i); agrMissing ty (wA.getD i 0) = false → agrMissing ty (wB.getD i 0) = false → agrMissing ty (wC.getD i 0) = false → t.rn (LBR_RESULT.adr i) = agrResult ty (s.rf (LBR_ITEMCFG.RULE i)) [wA.getD i 0, wB.getD i 0, wC.getD i 0] % 2 ^ 32 ∧ t.rb (LBR_RESSTAT.NEW i) = true ∧ t.rf (LBR_RESSTAT.COUNT i) = 3)) ∧
       (∀ i : Fin 48, s.rf LBR_AGRCFG.NITEMS ≤ i.val → t.rn (LBR_RESULT.adr i) = s.rn (LBR_RESULT.adr i) ∧ t.rn (LBR_RESSTAT.adr i) = s.rn (LBR_RESSTAT.adr i)) ∧
       t.agr = { s.agr with took := true } ∧
       t.outbox = s.outbox) ∧
  -- an item with fewer values than MINCNT
  (∀ (s : State) (own : AgrWords) (i : Fin 48),
     s.on = true →
     s.rb LBR_AGRCFG.EN = true →
     s.rb LBR_AGRSTAT.DONE = false →
     s.agr.own = some own →
     i.val < s.rf LBR_AGRCFG.NITEMS →
     (s.allLanes.filter (fun k => match s.laneWords own.tag (s.rf LBR_AGRCFG.NITEMS) k with | .inl (some w) => decide (i.val < w.length) && !agrMissing (s.rf (LBR_ITEMCFG.TYPE i)) (w.getD i 0) | _ => false)).length < s.rf (LBR_ITEMCFG.MINCNT i) →
     ∃ t : State, exec (.agreementResult) s = .next t ∧
       t.rn (LBR_RESULT.adr i) = s.rn (LBR_RESULT.adr i) ∧
       t.rb (LBR_RESSTAT.NEW i) = false ∧
       s.raiseOf 154 (i.val * 2 ^ 16) ∈ t.tly.raises) ∧
  -- a lane whose copies differ
  (∀ (s : State) (own : AgrWords) (k : Fin 3) (i : Nat),
     s.on = true →
     s.rb LBR_AGRCFG.EN = true →
     s.rb LBR_AGRSTAT.DONE = false →
     s.otp.jv2g = false →
     s.otp.lane < 3 →
     s.agr.own = some own →
     s.laneWords own.tag (s.rf LBR_AGRCFG.NITEMS) k = .inr i →
     ∃ t : State, exec (.agreementResult) s = .next t ∧
       s.raiseOf 153 (k.val + i * 2 ^ 16) ∈ t.tly.raises ∧
       (t.rn LBR_AGRSTAT.adr).testBit (4 + k) = true ∧
       (t.rn LBR_AGRSTAT.adr).testBit (8 + k) = false) ∧
  -- CMS_CHECK's digest
  (∀ (s : State) (k : Fin 3) (d : List Byte),
     s.on = true →
     s.isPeer k = true →
     s.bridgeQuiet k →
     s.takesPart k = true →
     s.sec.checkCh = none →
     s.sec.staging.isSome = true →
     ∃ t : State, exec (.moduleCommandReceive k (.cmsDigest d)) s = .next t ∧
       t.sec.digest = some d ∧
       t.rf NCH_CMSSTAT.STAGE = 2 ∧
       RegsBut [NCH_CMSSTAT.STAGE] s t ∧
       t = { s with regs := t.regs, free := t.free, sec := t.sec }) ∧
  -- a peer's refusal ends the check
  (∀ (s : State) (k : Fin 3) (l : Nat) (ru : Nat) (o : Nat) (ch : Fin 8),
     s.on = true →
     s.isPeer k = true →
     s.bridgeQuiet k →
     s.takesPart k = true →
     s.sec.checkCh = some ch.val →
     ∃ t : State, exec (.moduleCommandReceive k (.cmsRefused l ru o)) s = .next t ∧
       t.sec.digest = none ∧
       t.sec.checkCh = none ∧
       (t.chan ch).run = none ∧
       t.rf (HMB_CHSTAT.STATUS ch) = stCheckRefused) ∧
  -- a peer's busy message ends the check BUSY
  (∀ (s : State) (k : Fin 3) (ch : Fin 8),
     s.on = true →
     s.isPeer k = true →
     s.bridgeQuiet k →
     s.takesPart k = true →
     s.sec.checkCh = some ch.val →
     ∃ t : State, exec (.moduleCommandReceive k .cmsBusy) s = .next t ∧
       t.sec.checkCh = none ∧
       t.sec.digest = s.sec.digest ∧
       (t.chan ch).run = none ∧
       t.rf (HMB_CHSTAT.STATUS ch) = stBusy) ∧
  -- a check that reaches a lane with a procedure under way is answered busy
  (∀ (s : State) (k : Fin 3) (cn : List Nat) (n : Nat) (pf : List Nat) (cap : Nat) (f : Option (Nat × Nat × Nat)),
     s.on = true →
     s.isPeer k = true →
     s.bridgeQuiet k →
     s.takesPart k = true →
     s.procBusy = true →
     s.sec.checkCh = none →
     s.ast.held = [] →
     ∃ t : State, exec (.moduleCommandReceive k (.cmsCheck cn n pf cap f)) s = .next t ∧
       Sent s t ((s.peersOf.filter s.bridgeUp).map (fun j => .bridge j (.bulk .cmsBusy))) ∧
       RegsBut [] s t ∧
       t.sec = s.sec ∧
       t.flash = s.flash) ∧
  -- a shared profile lock begins its order
  (∀ (s : State) (k : Fin 3) (o : List Byte),
     s.on = true →
     s.isPeer k = true →
     s.bridgeQuiet k →
     s.takesPart k = true →
     s.sec.proc = none →
     s.otp.used3 < 4 →
     s.orderFields 4 o = true →
     1 ≤ leAt o 7 1 →
     leAt o 7 1 ≤ s.rf LANE_PROFILE.MAXPROF →
     ∃ t : State, exec (.moduleCommandReceive k (.profileLock o)) s = .next t ∧
       t.sec.proc = some { kind := 2, step := 1, ch := none, order := 4, arg := leAt o 7 1 } ∧
       t.otp = s.otp ∧
       t.flash = s.flash) ∧
  -- a confirm begins the commit
  (∀ (s : State) (k : Fin 3),
     s.on = true →
     s.isPeer k = true →
     s.bridgeQuiet k →
     s.takesPart k = true →
     s.sec.proc = none →
     s.sec.digest ≠ none →
     s.otp.used0 < 1024 →
     s.rf NCH_CMSSTAT.STAGE ≠ 1 →
     ∃ t : State, exec (.moduleCommandReceive k .cmsConfirm) s = .next t ∧
       t.sec.proc.any (fun p => p.kind == 1 && p.step == 1 && p.ch.isNone && p.slot == 1 - s.activeSlot && p.k == s.otp.used0) = true ∧
       t.rf NCH_CMSSTAT.STAGE = 3 ∧
       (t.rf TSK_OUTREQ.REQ).testBit 0 = false ∧
       (t.rf TSK_OUTREQ.REQ).testBit 4 = false ∧
       t.flash = s.flash ∧
       t.otp = s.otp) ∧
  -- the last PREPARED
  (∀ (s : State) (k : Fin 3) (p : Proc),
     s.on = true →
     s.isPeer k = true →
     s.bridgeQuiet k →
     s.takesPart k = true →
     s.sec.proc = some p →
     p.kind = 1 →
     p.resumed = false →
     p.step = 7 →
     (∀ j ∈ s.peersOf, j ≠ k.val → p.prepared.testBit j = true) →
     ∃ t : State, exec (.commitPeerMessage k .prepared) s = .next t ∧
       t.sec.proc.any (fun q => q.step == 8 && q.kind == 1) = true ∧
       t.flash = s.flash ∧
       t = { s with free := t.free, sec := t.sec }) ∧
  -- a PREPARED that is not the last
  (∀ (s : State) (k : Fin 3) (p : Proc) (j : Fin 3),
     s.on = true →
     s.isPeer k = true →
     s.bridgeQuiet k →
     s.takesPart k = true →
     s.sec.proc = some p →
     p.kind = 1 →
     p.resumed = false →
     p.step = 7 →
     p.intent = false →
     j ≠ k →
     s.isPeer j = true →
     p.prepared.testBit j = false →
     ∃ t : State, exec (.commitPeerMessage k .prepared) s = .next t ∧
       t.sec.proc = some { p with prepared := setBitTo p.prepared k true } ∧
       t = { s with free := t.free, sec := t.sec }) ∧
  -- an INTENT at the wait or after it ended
  (∀ (s : State) (k : Fin 3) (p : Proc),
     s.on = true →
     s.isPeer k = true →
     s.bridgeQuiet k →
     s.takesPart k = true →
     s.sec.proc = some p →
     p.kind = 1 →
     p.resumed = false →
     (p.step = 7 ∨ p.step = 12) →
     ∃ t : State, exec (.commitPeerMessage k .intent) s = .next t ∧
       t.sec.proc = some { p with intent := true, step := 8 } ∧
       t = { s with free := t.free, sec := t.sec }) ∧
  -- any agreement
  (∀ (s : State) (own : AgrWords),
     s.on = true →
     s.rb LBR_AGRCFG.EN = true →
     s.rb LBR_AGRSTAT.DONE = false →
     s.agr.own = some own →
     ∃ t : State, exec (.agreementResult) s = .next t ∧
       t.rn LBR_AGRINST.adr = own.tag % 2 ^ 32 ∧
       t.rb LBR_AGRSTAT.DONE = true ∧
       t.mem = s.mem ∧
       t.outbox = s.outbox ∧
       t.agr = { s.agr with took := t.agr.took })

/-- COLDSTART_ATTEMPT after CSWAIT chains in LISTEN, and BACKOFF_RETRY at its time: CSATT counts, the network offset is 0,
and a coldstart frame of the lowest enabled set that the port carries, with the chain of the node's own GT, is sent
(R303, R323). NETWORK_CHAIN_BOUNDARY of a node in SYNCUP after a full valid chain: ACTIVE (R322); of an ACTIVE node
after the third chain with fewer than two sync nodes: LISTEN, 179 with detail 1, INTLOST counted, NETVALID 0 (R324).
LINK_UP of a leaf: rate, cable delay, 16 echo frames, LISTEN (R310, R311, R321); LINK_DOWN of an ACTIVE node: 179 with
detail 4. ANW_NODE_RESTART: LISTEN. A leaf's link goes down in any state, and a leaf whose node is not OFF is then in
LISTEN; a link without the other rate stays at its rate. -/
def Obligations.NodeIntegration : Prop :=
  -- COLDSTART_ATTEMPT
  (∀ (s : State) (k : Fin 4),
     s.nodeSt = nodeListen →
     s.anw.launch = none →
     s.rb ANW_NODECFG.CS = true →
     s.nodeLink = true →
     (s.anw.listenGt + s.rf ANW_NODECFG.CSWAIT * 500000 + 499999) / 500000 * 500000 + 78 ≤ s.gt →
     s.ownSet = some k.val →
     s.rf AST_INJCTL.ARM = 0 →
     s.ast.held = [] →
     ∃ t : State, exec (.coldstartAttempt) s = .next t ∧
       t.nodeSt = nodeListen ∧
       t.anw.launch = some (s.gt / 500000 * 500000 + 80) ∧
       t.anw.o = 0 ∧
       t.rf ANW_NODESTAT.SSET = k ∧
       t.rf ANW_EVCNT.CSATT = min (s.rf ANW_EVCNT.CSATT + 1) 255 ∧
       t.rf ANW_NODESTAT.CH = s.gt / 500000 % 64 ∧
       t.rn ANW_ROUND.adr = s.gt / 500000 / 64 % 2 ^ 32 ∧
       t.rn ANW_NETOFF.adr = 0 ∧
       Sent s t [.airum s.nodePort (airumBytes s.chanCode (s.schedWord (ANW_SETID.adr k)) { flow := 0xFC0 + s.rf ANW_NODECFG.NODE, sset := k, node := s.rf ANW_NODECFG.NODE, kind := kindCold, ch := s.gt / 500000, len := 20, seq := (mget 0 s.anw.seqs (0xFC0 + s.rf ANW_NODECFG.NODE) + 1) % 2 ^ 32 } (s.syncPayload (s.gt / 500000 / 64) k)) true (s.gt / 500000 * 500000 + 80)] ∧
       RegsBut [ANW_NODESTAT.STATE, ANW_NODESTAT.SSET, ANW_NODESTAT.CH, whole ANW_ROUND.adr, ANW_EVCNT.CSATT, whole ANW_NETOFF.adr] s t) ∧
  -- BACKOFF_RETRY
  (∀ (s : State) (k : Fin 4),
     s.nodeSt = nodeBackoff →
     s.nodeLink = true →
     s.anw.retryGt ≤ s.gt →
     s.ownSet = some k.val →
     s.rf AST_INJCTL.ARM = 0 →
     s.ast.held = [] →
     ∃ t : State, exec (.backoffRetry) s = .next t ∧
       t.nodeSt = nodeListen ∧
       t.anw.launch = some s.anw.retryGt ∧
       t.anw.o = 0 ∧
       t.rf ANW_EVCNT.CSATT = min (s.rf ANW_EVCNT.CSATT + 1) 255 ∧
       t.rf ANW_NODESTAT.SSET = k ∧
       Sent s t [.airum s.nodePort (airumBytes s.chanCode (s.schedWord (ANW_SETID.adr k)) { flow := 0xFC0 + s.rf ANW_NODECFG.NODE, sset := k, node := s.rf ANW_NODECFG.NODE, kind := kindCold, ch := s.gt / 500000, len := 20, seq := (mget 0 s.anw.seqs (0xFC0 + s.rf ANW_NODECFG.NODE) + 1) % 2 ^ 32 } (s.syncPayload (s.gt / 500000 / 64) k)) true s.anw.retryGt]) ∧
  -- the boundary that ends the first full valid chain
  (∀ (s : State),
     s.on = true →
     s.rb ANW_NODECFG.EN = true →
     s.anw.chain < s.ntChain →
     s.nodeSt = nodeSyncup →
     s.anw.heard < s.anw.chain →
     s.fullValid = true →
     ∃ t : State, exec (.networkChainBoundary) s = .next t ∧
       t.nodeSt = nodeActive ∧
       t.anw.active = s.anw.chain + 1 ∧
       t.anw.firstActive = some (s.anw.firstActive.getD (s.anw.chain + 1)) ∧
       t.anw.launch = none ∧
       t.anw.chain = s.anw.chain + 1) ∧
  -- three chains with fewer than two sync nodes
  (∀ (s : State),
     s.on = true →
     s.rb ANW_NODECFG.EN = true →
     s.anw.chain < s.ntChain →
     (s.nodeSt = nodeActive ∨ s.nodeSt = nodePassive) →
     s.syncNodes.length < 2 →
     2 ≤ s.anw.lowRun →
     s.anw.badRound = false →
     s.anw.badSet = false →
     s.anw.roundRun < 2 →
     s.anw.setRun < 2 →
     ∃ t : State, exec (.networkChainBoundary) s = .next t ∧
       t.nodeSt = nodeListen ∧
       t.rb ANW_NODESTAT.NETVALID = false ∧
       t.rf ANW_EVCNT.INTLOST = min (s.rf ANW_EVCNT.INTLOST + 1) 255 ∧
       t.rb AST_STAT.ENFORCE = false ∧
       s.raiseOf 179 1 ∈ t.tly.raises) ∧
  -- LINK_UP of a leaf
  (∀ (s : State) (g : Bool) (l : List Nat),
     s.on = true →
     s.isStar = false →
     s.rb ANW_NODECFG.EN = true →
     s.rb ANW_NODESTAT.LINKUP = false →
     rateOk (s.rb ANW_PORTCFG.AN) (s.rb ANW_PORTCFG.MAXRATE) (s.rb ANW_PORTCFG.MINRATE) g = true →
     l ≠ [] →
     32000 * l.length ≤ l.sum + 16000 * l.length →
     l.sum < 2 ^ 32 * l.length →
     s.rf AST_INJCTL.ARM = 0 →
     s.ast.held = [] →
     ∃ t : State, exec (.linkUp 0 g l) s = .next t ∧
       t.rb ANW_NODESTAT.LINKUP = true ∧
       t.rb ANW_NODESTAT.RATE = g ∧
       t.rn ANW_PORTDLY.adr = (l.sum / l.length - 16000) / 2 ∧
       t.outbox.length = s.outbox.length + 16 ∧
       t.nodeSt = (if s.nodeMay then nodeListen else s.nodeSt)) ∧
  -- LINK_DOWN of an ACTIVE leaf
  (∀ (s : State),
     s.on = true →
     s.isStar = false →
     s.rb ANW_NODESTAT.LINKUP = true →
     (s.nodeSt = nodeActive ∨ s.nodeSt = nodePassive) →
     ∃ t : State, exec (.linkDown 0) s = .next t ∧
       t.rb ANW_NODESTAT.LINKUP = false ∧
       t.nodeSt = nodeListen ∧
       t.rb ANW_NODESTAT.NETVALID = false ∧
       Raised s t 179 4 ∧
       t.rf ANW_EVCNT.INTLOST = min (s.rf ANW_EVCNT.INTLOST + 1) 255 ∧
       RegsBut [ANW_NODESTAT.LINKUP, ANW_NODESTAT.STATE, ANW_NODESTAT.NETVALID, ANW_EVCNT.INTLOST, ANW_SWSTAT.SWPEND, AST_STAT.ENFORCE] s t) ∧
  -- AN_RATE_ALTERNATE of a leaf (R310)
  (∀ (s : State) (g : Option Bool) (t0 : Nat),
     s.on = true →
     s.isStar = false →
     s.rb ANW_PORTCFG.AN = true →
     s.rb ANW_NODESTAT.LINKUP = false →
     mget (none, s.pmu.releasedAt) s.anw.forced 0 = (g, t0) →
     t0 + 200000000 ≤ s.now →
     ∃ t : State, exec (.anRateAlternate 0) s = .next t ∧
       mget (none, 0) t.anw.forced 0 = (some (if s.rb ANW_PORTCFG.MAXRATE = s.rb ANW_PORTCFG.MINRATE ∨ g = none then s.rb ANW_PORTCFG.MAXRATE else g = some false), s.now) ∧
       RegsBut [] s t ∧
       t = { s with anw := t.anw }) ∧
  -- ANW_NODE_RESTART
  (∀ (s : State) (ch : Fin 8) (r : HmbRun),
     s.Asked ch (.anwNodeRestart ch) r →
     s.nodeMay = true →
     s.nodeLink = true →
     ∃ t : State, exec (.anwNodeRestart ch) s = .next (t.finish ch stOk []) ∧
       t.nodeSt = nodeListen ∧
       t.rb ANW_NODESTAT.NETVALID = false ∧
       t.anw.listenGt = s.gt ∧
       t.anw.launch = none ∧
       RegsBut [ANW_NODESTAT.STATE, ANW_NODESTAT.NETVALID, ANW_SWSTAT.SWPEND, AST_STAT.ENFORCE] s t) ∧
  -- LINK_DOWN of any leaf
  (∀ (s : State),
     s.on = true →
     s.isStar = false →
     s.rb ANW_NODESTAT.LINKUP = true →
     ∃ t : State, exec (.linkDown 0) s = .next t ∧
       t.rb ANW_NODESTAT.LINKUP = false ∧
       t.nodeSt = (if s.nodeSt = nodeOff then nodeOff else nodeListen) ∧
       mget (some true, 0) t.anw.forced 0 = (none, s.now) ∧
       t.mem = s.mem ∧
       t.outbox = s.outbox) ∧
  -- AN_RATE_ALTERNATE of any leaf
  (∀ (s : State) (g : Option Bool) (t0 : Nat),
     s.on = true →
     s.isStar = false →
     s.rb ANW_PORTCFG.AN = true →
     s.rb ANW_NODESTAT.LINKUP = false →
     mget (none, s.pmu.releasedAt) s.anw.forced 0 = (g, t0) →
     t0 + 200000000 ≤ s.now →
     ∃ t : State, exec (.anRateAlternate 0) s = .next t ∧
       mget (none, 0) t.anw.forced 0 = (some (if s.rb ANW_PORTCFG.MAXRATE = s.rb ANW_PORTCFG.MINRATE ∨ g = none then s.rb ANW_PORTCFG.MAXRATE else g = some false), s.now) ∧
       RegsBut [] s t ∧
       t = { s with anw := t.anw })

/-- AIRUM_FRAME_RECEIVE at a leaf, no injection rule armed: a frame outside the channel's range, or at a node in OFF,
changes nothing (R306); a bad FCS counts in FCSERR and raises 176; a bad end-to-end CRC at an expected frame counts in
E2EERR and raises 177 with the context (R316). A frame of a context's flow, sender and length, in its span on network
time: its payload stands in the other half of the RX buffer, HALF flips, SEQ, PRIMED, GOOD and AGE follow, and no byte
outside that half changes (R317). A notice of collision sends a node with an open attempt into BACKOFF with 180
(R323). In LISTEN the first sync or coldstart frame gives round, chain and set, and SYNCUP; another SETID raises 179
with detail 3 (R322). -/
def Obligations.FramesReceived : Prop :=
  -- not a frame of the channel, or a node in OFF
  (∀ (s : State) (fr : AirumFrame),
     s.on = true →
     s.isStar = false →
     s.rf AST_INJCTL.ARM = 0 →
     s.ast.held = [] →
     (s.nodeSt = nodeOff ∨ airumRange s.chanCode fr.bytes = false) →
     ∃ t : State, exec (.airumFrameReceive fr) s = .next t ∧
       t = s) ∧
  -- a bad FCS
  (∀ (s : State) (fr : AirumFrame),
     s.on = true →
     s.isStar = false →
     s.rf AST_INJCTL.ARM = 0 →
     s.ast.held = [] →
     s.nodeSt ≠ nodeOff →
     airumRange s.chanCode fr.bytes = true →
     fr.fcsOk = false →
     ∃ t : State, exec (.airumFrameReceive fr) s = .next t ∧
       t.rf ANW_ERRCNT.FCSERR = min (s.rf ANW_ERRCNT.FCSERR + 1) 65535 ∧
       Raised s t 176 0 ∧
       RegsBut [ANW_ERRCNT.FCSERR] s t ∧
       t = { s with regs := t.regs, tly := t.tly }) ∧
  -- a bad end-to-end CRC
  (∀ (s : State) (fr : AirumFrame) (f : Fin 512),
     s.on = true →
     s.isStar = false →
     s.rf AST_INJCTL.ARM = 0 →
     s.ast.held = [] →
     s.nodeSt ≠ nodeOff →
     ((s.nodeSt = nodeListen ∨ s.nodeSt = nodeBackoff) → (hdrOf fr.bytes).kind = kindData) →
     airumRange s.chanCode fr.bytes = true →
     fr.fcsOk = true →
     (hdrOf fr.bytes).ver = 1 →
     (hdrOf fr.bytes).kind ≠ kindCold →
     s.rxMatch (hdrOf fr.bytes) = [f.val] →
     e2eGood s.chanCode (s.schedWord (ANW_SETID.adr (hdrOf fr.bytes).sset)) fr.bytes = false →
     ∃ t : State, exec (.airumFrameReceive fr) s = .next t ∧
       t.rf ANW_ERRCNT.E2EERR = min (s.rf ANW_ERRCNT.E2EERR + 1) 65535 ∧
       Raised s t 177 f ∧
       RegsBut [ANW_ERRCNT.E2EERR] s t ∧
       t = { s with regs := t.regs, tly := t.tly }) ∧
  -- an accepted payload
  (∀ (s : State) (fr : AirumFrame) (f : Fin 512),
     s.on = true →
     s.isStar = false →
     s.rf AST_INJCTL.ARM = 0 →
     s.ast.held = [] →
     s.nodeSt ≠ nodeOff →
     airumRange s.chanCode fr.bytes = true →
     fr.fcsOk = true →
     (hdrOf fr.bytes).ver = 1 →
     (hdrOf fr.bytes).kind = kindData →
     s.rxMatch (hdrOf fr.bytes) = [f.val] →
     e2eGood s.chanCode (s.schedWord (ANW_SETID.adr (hdrOf fr.bytes).sset)) fr.bytes = true →
     s.inSpan f fr.sfdGt (hdrOf fr.bytes) = true →
     (payloadOf fr.bytes).length = s.rf (ANW_FLOWBUF.LEN f) →
     (s.flowSt f).missed = none →
     ∃ t : State, exec (.airumFrameReceive fr) s = .next t ∧
       t.rf (ANW_FLOWSTAT.HALF f) = 1 - s.rf (ANW_FLOWSTAT.HALF f) ∧
       (List.range (s.rf (ANW_FLOWBUF.LEN f))).map (fun i => memByte t.mem (t.flowRxBase f + i)) = payloadOf fr.bytes ∧
       MemBut (t.flowRxBase f) (s.rf (ANW_FLOWBUF.LEN f)) s t ∧
       t.rf (ANW_FLOWSTAT.PRIMED f) = 1 ∧
       t.rf (ANW_FLOWSTAT.SEQ f) = (hdrOf fr.bytes).seq % 65536 ∧
       t.rf (ANW_FLOWCNT.GOOD f) = (s.rf (ANW_FLOWCNT.GOOD f) + 1) % 65536 ∧
       t.rf (ANW_FLOWCNT.LOST f) = s.rf (ANW_FLOWCNT.LOST f) ∧
       t.rf (ANW_FLOWSTAT.AGE f) = min 255 ((hdrOf fr.bytes).age + (s.anw.chain - s.nt16 fr.sfdGt / 8000000))) ∧
  -- a notice of collision
  (∀ (s : State) (fr : AirumFrame) (t0 : Nat),
     s.on = true →
     s.isStar = false →
     s.rf AST_INJCTL.ARM = 0 →
     s.ast.held = [] →
     s.nodeSt ≠ nodeOff →
     airumRange s.chanCode fr.bytes = true →
     fr.fcsOk = true →
     (hdrOf fr.bytes).ver = 1 →
     (hdrOf fr.bytes).kind = kindCold →
     (hdrOf fr.bytes).coll = true →
     e2eGood s.chanCode (s.schedWord (ANW_SETID.adr (hdrOf fr.bytes).sset)) fr.bytes = true →
     s.anw.launch = some t0 →
     ∃ t : State, exec (.airumFrameReceive fr) s = .next t ∧
       t.nodeSt = nodeBackoff ∧
       t.anw.retryGt = t0 + (2 + 2 * s.rf ANW_NODECFG.NODE) * 500000 ∧
       t.anw.launch = none ∧
       Raised s t 180 (s.rf ANW_NODECFG.NODE) ∧
       t.rf ANW_EVCNT.COLL = min (s.rf ANW_EVCNT.COLL + 1) 255 ∧
       RegsBut [ANW_NODESTAT.STATE, ANW_EVCNT.COLL] s t ∧
       t = { s with regs := t.regs, tly := t.tly, anw := t.anw }) ∧
  -- the first frame in LISTEN
  (∀ (s : State) (fr : AirumFrame) (f : Fin 512),
     s.on = true →
     s.isStar = false →
     s.rf AST_INJCTL.ARM = 0 →
     s.ast.held = [] →
     (s.nodeSt = nodeListen ∨ s.nodeSt = nodeBackoff) →
     airumRange s.chanCode fr.bytes = true →
     fr.fcsOk = true →
     (hdrOf fr.bytes).ver = 1 →
     (hdrOf fr.bytes).kind = kindSync →
     (hdrOf fr.bytes).len = 20 →
     s.rxMatch (hdrOf fr.bytes) = [f.val] →
     e2eGood s.chanCode (leAt (payloadOf fr.bytes) 12 4) fr.bytes = true →
     leAt (payloadOf fr.bytes) 12 4 = s.schedWord (ANW_SETID.adr (leAt (payloadOf fr.bytes) 4 1 % 4)) →
     s.carries (leAt (payloadOf fr.bytes) 4 1 % 4) = true →
     ∃ t : State, exec (.airumFrameReceive fr) s = .next t ∧
       t.nodeSt = nodeSyncup ∧
       t.rf ANW_NODESTAT.SSET = leAt (payloadOf fr.bytes) 4 1 % 4 ∧
       t.rf ANW_NODESTAT.CH = (hdrOf fr.bytes).ch % 64 ∧
       t.rn ANW_ROUND.adr = leAt (payloadOf fr.bytes) 0 4 % 2 ^ 32 ∧
       t.anw.heard = leAt (payloadOf fr.bytes) 0 4 * 64 + (hdrOf fr.bytes).ch ∧
       t.anw.o = - s.deviation fr.sfdGt ((leAt (payloadOf fr.bytes) 0 4 * 64 + (hdrOf fr.bytes).ch) * 500000 + 5000 * (hdrOf fr.bytes).lk) (hdrOf fr.bytes) (leAt (payloadOf fr.bytes) 16 4) ∧
       t.anw.launch = none) ∧
  -- a frame of another set ID in LISTEN
  (∀ (s : State) (fr : AirumFrame) (f : Fin 512),
     s.on = true →
     s.isStar = false →
     s.rf AST_INJCTL.ARM = 0 →
     s.ast.held = [] →
     (s.nodeSt = nodeListen ∨ s.nodeSt = nodeBackoff) →
     airumRange s.chanCode fr.bytes = true →
     fr.fcsOk = true →
     (hdrOf fr.bytes).ver = 1 →
     (hdrOf fr.bytes).kind = kindSync →
     (hdrOf fr.bytes).len = 20 →
     s.rxMatch (hdrOf fr.bytes) = [f.val] →
     e2eGood s.chanCode (leAt (payloadOf fr.bytes) 12 4) fr.bytes = true →
     leAt (payloadOf fr.bytes) 12 4 ≠ s.schedWord (ANW_SETID.adr (leAt (payloadOf fr.bytes) 4 1 % 4)) →
     ∃ t : State, exec (.airumFrameReceive fr) s = .next t ∧
       t.nodeSt = s.nodeSt ∧
       Raised s t 179 3 ∧
       RegsBut [] s t)

/-- ANW_HANDOFF and SEAL_CUTOFF begin a seal of a TX context: a copy of its buffer; SEAL_COMPLETE makes it the newest
completed one (R314). SPAN_TRANSMIT of a data context with one seal: an ACTIVE node sends its payload with the next
SEQ and counts GOOD; a node that is not ACTIVE drops the span and counts LOST (R315). NETWORK_CHAIN_BOUNDARY: the
network offset becomes minus the mean of the deviations without the extremes, NETVALID ends without any, every primed
RX context's AGE moves on and a span without a frame counts in LOST, and CH and ROUND name the new chain (R317, R319).
A seal that a strike entry launched completes the same, and with it the entry's instance. -/
def Obligations.FlowsAndNetworkTime : Prop :=
  -- ANW_HANDOFF
  (∀ (s : State) (req : Fin 32) (f : Fin 512),
     s.on = true →
     s.mayWrite req (47 + f / 64) false = true →
     s.isTx f = true →
     ∃ t : State, exec (.anwHandoff req f) s = .next t ∧
       (t.flowSt f).starts = (s.flowSt f).starts ++ [{ payload := s.memBytes (s.flowBase f) (s.rf (ANW_FLOWBUF.LEN f)) }] ∧
       (t.flowSt f).seals = (s.flowSt f).seals ∧
       t.mem = s.mem ∧
       RegsBut [] s t ∧
       t = { s with anw := t.anw }) ∧
  -- ANW_HANDOFF of another context
  (∀ (s : State) (req : Fin 32) (f : Fin 512),
     s.on = true →
     s.mayWrite req (47 + f / 64) false = true →
     s.isTx f = false →
     ∃ t : State, exec (.anwHandoff req f) s = .next t ∧
       t = s) ∧
  -- SEAL_CUTOFF
  (∀ (s : State) (f : Fin 512) (c : Nat),
     s.on = true →
     s.isTx f = true →
     s.rb (ANW_FLOWCFG.HANDOFF f) = true →
     s.cutoffChain f = some c →
     ∃ t : State, exec (.sealCutoff f) s = .next t ∧
       (t.flowSt f).starts = (s.flowSt f).starts ++ [{ payload := s.memBytes (s.flowBase f) (s.rf (ANW_FLOWBUF.LEN f)), auto := some c }] ∧
       (t.flowSt f).cut = some c ∧
       t = { s with anw := t.anw }) ∧
  -- SEAL_COMPLETE
  (∀ (s : State) (f : Fin 512) (q : Seal) (l : List Seal),
     s.on = true →
     (s.flowSt f).starts = q :: l →
     q.entry = none →
     ∃ t : State, exec (.sealComplete f) s = .next t ∧
       (t.flowSt f).starts = l ∧
       (t.flowSt f).seals = (s.flowSt f).seals ++ [{ q with doneGt := s.gt }] ∧
       t.rb (ANW_FLOWSTAT.PRIMED f) = true ∧
       RegsBut [ANW_FLOWSTAT.PRIMED f] s t ∧
       t = { s with regs := t.regs, anw := t.anw }) ∧
  -- a data span of an ACTIVE node
  (∀ (s : State) (f : Fin 512) (k : Nat) (q : Seal),
     s.spanDue f = some k →
     s.rf (ANW_FLOWCFG.KIND f) = kindData →
     s.nodeSt = nodeActive →
     s.nodeLink = true →
     s.srb (ANW_FLOWSLOT.EN f s.sset) = true →
     (s.flowSt f).seals = [q] →
     q.auto = none →
     q.doneGt + 2020 ≤ s.gt / 500000 * 500000 + 5000 * k →
     (s.flowSt f).starts = [] →
     f.val ≠ s.rf (HMB_CHPATH.RSP 1) →
     s.rf AST_INJCTL.ARM = 0 →
     s.ast.held = [] →
     ∃ t : State, exec (.spanTransmit f) s = .next t ∧
       t.rf (ANW_FLOWCNT.GOOD f) = (s.rf (ANW_FLOWCNT.GOOD f) + 1) % 65536 ∧
       t.rf (ANW_FLOWCNT.LOST f) = s.rf (ANW_FLOWCNT.LOST f) ∧
       t.rf (ANW_FLOWSTAT.SEQ f) = (mget 0 s.anw.seqs (s.rf (ANW_FLOWCFG.FLOWID f)) + 1) % 2 ^ 32 % 65536 ∧
       t.rf (ANW_FLOWSTAT.AGE f) = min 15 (s.gt / 500000 - q.doneGt / 500000) ∧
       (t.flowSt f).sent = some (s.gt / 500000) ∧
       (t.flowSt f).seals = [q] ∧
       Sent s t [.airum s.nodePort (airumBytes s.chanCode (s.schedWord (ANW_SETID.adr s.sset)) { flow := s.rf (ANW_FLOWCFG.FLOWID f), sset := s.sset, node := s.rf ANW_NODECFG.NODE, ch := s.gt / 500000, lk := k, age := min 15 (s.gt / 500000 - q.doneGt / 500000), len := q.payload.length, seq := (mget 0 s.anw.seqs (s.rf (ANW_FLOWCFG.FLOWID f)) + 1) % 2 ^ 32 } q.payload) true (s.gt / 500000 * 500000 + 5000 * k + 80)] ∧
       RegsBut [ANW_FLOWCNT.GOOD f, whole (ANW_FLOWSTAT.adr f)] s t) ∧
  -- a data span of a node that is not ACTIVE
  (∀ (s : State) (f : Fin 512) (k : Nat) (q : Seal),
     s.spanDue f = some k →
     s.rf (ANW_FLOWCFG.KIND f) = kindData →
     s.nodeSt ≠ nodeActive →
     (s.flowSt f).seals = [q] →
     q.auto = none →
     q.doneGt + 2020 ≤ s.gt / 500000 * 500000 + 5000 * k →
     f.val ≠ s.rf (HMB_CHPATH.RSP 1) →
     ∃ t : State, exec (.spanTransmit f) s = .next t ∧
       t.rf (ANW_FLOWCNT.LOST f) = (s.rf (ANW_FLOWCNT.LOST f) + 1) % 65536 ∧
       t.rf (ANW_FLOWCNT.GOOD f) = s.rf (ANW_FLOWCNT.GOOD f) ∧
       (t.flowSt f).sent = some (s.gt / 500000) ∧
       t.outbox = s.outbox ∧
       RegsBut [ANW_FLOWCNT.LOST f] s t) ∧
  -- a chain boundary
  (∀ (s : State),
     s.on = true →
     s.rb ANW_NODECFG.EN = true →
     s.anw.chain < s.ntChain →
     ∃ t : State, exec (.networkChainBoundary) s = .next t ∧
       t.anw.chain = (if nodeSyncup ≤ s.nodeSt ∧ s.nodeSt ≤ nodePassive then s.anw.chain + 1 else s.ntChain) ∧
       t.anw.syncs = [] ∧
       t.rf ANW_NODESTAT.CH = t.anw.chain % 64 ∧
       t.rn ANW_ROUND.adr = t.anw.chain / 64 % 2 ^ 32 ∧
       t.mem = s.mem ∧
       t.outbox = s.outbox ∧
       ((s.anw.syncs.filter (fun r => r.node != s.rf ANW_NODECFG.NODE)) = [] → t.rb ANW_NODESTAT.NETVALID = false ∧ t.anw.o = s.anw.o) ∧
       ((s.anw.syncs.filter (fun r => r.node != s.rf ANW_NODECFG.NODE)) ≠ [] → t.anw.o = offsetOf ((s.anw.syncs.filter (fun r => r.node != s.rf ANW_NODECFG.NODE)).map (·.dev)))) ∧
  -- RX contexts at a chain boundary
  (∀ (s : State) (f : Fin 512),
     s.on = true →
     s.rb ANW_NODECFG.EN = true →
     s.anw.chain < s.ntChain →
     s.isRx f = true →
     s.rb (ANW_FLOWSTAT.PRIMED f) = true →
     ∃ t : State, exec (.networkChainBoundary) s = .next t ∧
       t.rf (ANW_FLOWSTAT.AGE f) = min (s.rf (ANW_FLOWSTAT.AGE f) + 1) 255 ∧
       t.rf (ANW_FLOWCNT.LOST f) = (if (s.spanIn f s.sset s.anw.chain).isSome && decide ((s.flowSt f).got ≠ some s.anw.chain) then (s.rf (ANW_FLOWCNT.LOST f) + 1) % 65536 else s.rf (ANW_FLOWCNT.LOST f)) ∧
       t.rf (ANW_FLOWCNT.GOOD f) = s.rf (ANW_FLOWCNT.GOOD f)) ∧
  -- any seal
  (∀ (s : State) (f : Fin 512) (q : Seal) (l : List Seal),
     s.on = true →
     (s.flowSt f).starts = q :: l →
     ∃ t : State, exec (.sealComplete f) s = .next t ∧
       (t.flowSt f).starts = l ∧
       (t.flowSt f).seals = (s.flowSt f).seals ++ [{ q with doneGt := s.gt }] ∧
       t.rb (ANW_FLOWSTAT.PRIMED f) = true ∧
       (∀ m : Nat, q.entry = some m → (t.entry m).inst.all (fun i => i.doneAt.isSome) = true) ∧
       RegsBut [ANW_FLOWSTAT.PRIMED f] s t ∧
       t = { s with regs := t.regs, anw := t.anw, spn := t.spn })

/-- STRIKE_SET writes the three words of an entry below 240 that R56 allows and that is neither enabled nor outstanding:
else INVALID_PARAM or BUSY; a period of 0, which no phase lies below, is INVALID_PARAM by the letter of R56; that
INVALID_PARAM comes before BUSY is the model's reading (log entries 14 and 47), and no entry of a newly activated set
waits for its instance here. TSK_OUT_SET sets the masked request bits; bits 0 and 4 are INVALID_PARAM. PWM_TRIP_CLEAR
clears the named inputs whose LEVEL is 0 and answers BUSY where one is 1 (R90). PWM_LEG_CLEAR clears LATCH (R92).
GLK_PORT_RESTART starts a bring-up, GLK_LEG_CLEAR releases the named desaturation holds, BUSY while the partner
reports one (R103, R123). LPE_CTX_RESTART and FBC_CHAN_RESTART start a context and a channel (R148, R154);
LPE_COEF_READ answers with a record's sixteen words. An index out of range is INVALID_PARAM. -/
def Obligations.BlockCommands : Prop :=
  -- STRIKE_SET
  (∀ (s : State) (ch : Fin 8) (m : Byte) (cls : Byte) (act : Byte) (per : Word) (ph : Word) (tg : BitVec 16) (r : HmbRun),
     s.Asked ch (.strikeSet ch m cls act per ph tg) r →
     s.spn.waiting = [] →
     m.toNat < 240 →
     cls.toNat < 16 →
     act.toNat < 7 →
     s.rf (SPN_CLASSCFG.BUDGET cls.toNat) ≠ 0 →
     1000 ≤ per.toNat →
     ph.toNat < per.toNat →
     s.rf (SPN_CLASSCFG.BUDGET cls.toNat) ≤ per.toNat →
     s.enabledAt m.toNat s.gt = false →
     (s.entry m.toNat).inst = none →
     ∃ t : State, exec (.strikeSet ch m cls act per ph tg) s = .next (t.finish ch stOk []) ∧
       t.rn (SPN_PERIOD.adr m.toNat) = per.toNat ∧
       t.rn (SPN_PHASE.adr m.toNat) = ph.toNat ∧
       t.rf (SPN_ACT.ACTION m.toNat) = act.toNat ∧
       t.rf (SPN_ACT.CLASS m.toNat) = cls.toNat ∧
       t.rf (SPN_ACT.TARGET m.toNat) = tg.toNat ∧
       RegsBut [whole (SPN_PERIOD.adr m.toNat), whole (SPN_PHASE.adr m.toNat), whole (SPN_ACT.adr m.toNat)] s t ∧
       t = { s with regs := t.regs, hmb := t.hmb }) ∧
  -- STRIKE_SET beyond the limits
  (∀ (s : State) (ch : Fin 8) (m : Byte) (cls : Byte) (act : Byte) (per : Word) (ph : Word) (tg : BitVec 16) (r : HmbRun),
     s.Asked ch (.strikeSet ch m cls act per ph tg) r →
     s.spn.waiting = [] →
     (240 ≤ m.toNat ∨ 16 ≤ cls.toNat ∨ 7 ≤ act.toNat ∨ per.toNat < 1000 ∨ per.toNat ≤ ph.toNat) →
     ∃ t : State, exec (.strikeSet ch m cls act per ph tg) s = .next (t.finish ch stInvalidParam []) ∧
       t = s.taken ch r) ∧
  -- STRIKE_SET of an entry that is enabled or outstanding
  (∀ (s : State) (ch : Fin 8) (m : Byte) (cls : Byte) (act : Byte) (per : Word) (ph : Word) (tg : BitVec 16) (r : HmbRun),
     s.Asked ch (.strikeSet ch m cls act per ph tg) r →
     s.spn.waiting = [] →
     m.toNat < 240 →
     cls.toNat < 16 →
     act.toNat < 7 →
     s.rf (SPN_CLASSCFG.BUDGET cls.toNat) ≠ 0 →
     1000 ≤ per.toNat →
     ph.toNat < per.toNat →
     s.rf (SPN_CLASSCFG.BUDGET cls.toNat) ≤ per.toNat →
     (s.enabledAt m.toNat s.gt = true ∨ (s.entry m.toNat).inst.isSome = true) →
     ∃ t : State, exec (.strikeSet ch m cls act per ph tg) s = .next (t.finish ch stBusy []) ∧
       t = s.taken ch r) ∧
  -- TSK_OUT_SET
  (∀ (s : State) (ch : Fin 8) (mask : Byte) (v : Byte) (r : HmbRun),
     s.Asked ch (.tskOutSet ch mask v) r →
     mask.toNat &&& 0x11 = 0 →
     s.outHold = false →
     ∃ t : State, exec (.tskOutSet ch mask v) s = .next (t.finish ch stOk []) ∧
       t.rf TSK_OUTREQ.REQ = (clearBits 8 (s.rf TSK_OUTREQ.REQ) mask.toNat ||| (v.toNat &&& mask.toNat))) ∧
  -- TSK_OUT_SET of a service output
  (∀ (s : State) (ch : Fin 8) (mask : Byte) (v : Byte) (r : HmbRun),
     s.Asked ch (.tskOutSet ch mask v) r →
     mask.toNat &&& 0x11 ≠ 0 →
     ∃ t : State, exec (.tskOutSet ch mask v) s = .next (t.finish ch stInvalidParam []) ∧
       t = s.taken ch r) ∧
  -- PWM_TRIP_CLEAR
  (∀ (s : State) (ch : Fin 8) (mask : Byte) (r : HmbRun),
     s.Asked ch (.pwmTripClear ch mask) r →
     mask.toNat < 16 →
     s.rf PWM_TRIPSTAT.LEVEL &&& mask.toNat = 0 →
     ∃ t : State, exec (.pwmTripClear ch mask) s = .next (t.finish ch stOk []) ∧
       t.rf PWM_TRIPSTAT.TRIPPED = clearBits 4 (s.rf PWM_TRIPSTAT.TRIPPED) mask.toNat ∧
       (∀ b : Fin 8, t.rb (PWM_BANKSTAT.TRIPPED b) = (s.rb (PWM_BANKSTAT.TRIPPED b) && decide (∃ k : Fin 4, (t.rf PWM_TRIPSTAT.TRIPPED).testBit k = true ∧ (s.rf (PWM_TRIPCFG.BANKS k)).testBit b = true))) ∧
       RegsBut (PWM_TRIPSTAT.TRIPPED :: (List.range 8).map PWM_BANKSTAT.TRIPPED ++ (List.range 24).map PWM_LEGSTAT.OFFCAUSE) s t) ∧
  -- PWM_TRIP_CLEAR with an input still at 1
  (∀ (s : State) (ch : Fin 8) (mask : Byte) (r : HmbRun),
     s.Asked ch (.pwmTripClear ch mask) r →
     mask.toNat < 16 →
     s.rf PWM_TRIPSTAT.LEVEL &&& mask.toNat ≠ 0 →
     ∃ t : State, exec (.pwmTripClear ch mask) s = .next (t.finish ch stBusy []) ∧
       (∀ k : Fin 4, (s.rf PWM_TRIPSTAT.LEVEL).testBit k = true → (t.rf PWM_TRIPSTAT.TRIPPED).testBit k = (s.rf PWM_TRIPSTAT.TRIPPED).testBit k)) ∧
  -- PWM_LEG_CLEAR of a bank without a gate link
  (∀ (s : State) (ch : Fin 8) (leg : Byte) (r : HmbRun),
     s.Asked ch (.pwmLegClear ch leg) r →
     leg.toNat ≤ 23 →
     s.linkBank (leg.toNat / 3) = false →
     ∃ t : State, exec (.pwmLegClear ch leg) s = .next (t.finish ch stOk []) ∧
       t.rb (PWM_LEGSTAT.LATCH leg.toNat) = false ∧
       (t.rf (PWM_LEGSTAT.OFFCAUSE leg.toNat) = 0 ↔ s.rf (PWM_LEGSTAT.OFFCAUSE leg.toNat) = 0) ∧
       RegsBut [PWM_LEGSTAT.LATCH leg.toNat, PWM_LEGSTAT.OFFCAUSE leg.toNat] s t ∧
       t = { s with regs := t.regs, hmb := t.hmb }) ∧
  -- PWM_LEG_CLEAR of a gate-link bank
  (∀ (s : State) (ch : Fin 8) (leg : Byte) (r : HmbRun),
     s.Asked ch (.pwmLegClear ch leg) r →
     leg.toNat ≤ 23 →
     s.linkBank (leg.toNat / 3) = true →
     ∃ t : State, exec (.pwmLegClear ch leg) s = .next (t.finish ch stOk []) ∧
       t.rb (PWM_LEGSTAT.LATCH leg.toNat) = false ∧
       (t.holdByte (leg.toNat / 3) (leg.toNat % 3)).testBit 4 = false) ∧
  -- PWM_LEG_CLEAR of no leg
  (∀ (s : State) (ch : Fin 8) (leg : Byte) (r : HmbRun),
     s.Asked ch (.pwmLegClear ch leg) r →
     23 < leg.toNat →
     ∃ t : State, exec (.pwmLegClear ch leg) s = .next (t.finish ch stInvalidParam []) ∧
       t = s.taken ch r) ∧
  -- GLK_PORT_RESTART
  (∀ (s : State) (ch : Fin 8) (port : Byte) (r : HmbRun),
     s.Asked ch (.glkPortRestart ch port) r →
     port.toNat ≤ 7 →
     s.rb (GLK_PORTCFG.EN port.toNat) = true →
     ∃ t : State, exec (.glkPortRestart ch port) s = .next (t.finish ch stOk []) ∧
       t.portSt port.toNat = glLock ∧
       t.rf (GLK_LINKSTAT.TRIES port.toNat) = 1) ∧
  -- GLK_PORT_RESTART of no port in use
  (∀ (s : State) (ch : Fin 8) (port : Byte) (r : HmbRun),
     s.Asked ch (.glkPortRestart ch port) r →
     (7 < port.toNat ∨ s.rb (GLK_PORTCFG.EN port.toNat) = false) →
     ∃ t : State, exec (.glkPortRestart ch port) s = .next (t.finish ch stInvalidParam []) ∧
       t = s.taken ch r) ∧
  -- GLK_LEG_CLEAR
  (∀ (s : State) (ch : Fin 8) (port : Byte) (mask : Byte) (r : HmbRun),
     s.Asked ch (.glkLegClear ch port mask) r →
     port.toNat ≤ 7 →
     mask.toNat ≤ 7 →
     s.rf (GLK_PSTAT.DESAT port.toNat) &&& mask.toNat = 0 →
     ∃ t : State, exec (.glkLegClear ch port mask) s = .next (t.finish ch stOk []) ∧
       (∀ l : Fin 3, mask.toNat.testBit l = true → (t.holdByte port.toNat l).testBit 0 = false) ∧
       (mask.toNat = 7 → ∀ l : Fin 3, (t.holdByte port.toNat l).testBit 1 = false) ∧
       (∀ l : Fin 3, mask.toNat.testBit l = false → t.holdByte port.toNat l = s.holdByte port.toNat l)) ∧
  -- GLK_LEG_CLEAR while the partner reports desaturation
  (∀ (s : State) (ch : Fin 8) (port : Byte) (mask : Byte) (r : HmbRun),
     s.Asked ch (.glkLegClear ch port mask) r →
     port.toNat ≤ 7 →
     mask.toNat ≤ 7 →
     s.rf (GLK_PSTAT.DESAT port.toNat) &&& mask.toNat ≠ 0 →
     ∃ t : State, exec (.glkLegClear ch port mask) s = .next (t.finish ch stBusy []) ∧
       t = s.taken ch r) ∧
  -- LPE_CTX_RESTART
  (∀ (s : State) (ch : Fin 8) (eng : Byte) (ctx : Byte) (r : HmbRun),
     s.Asked ch (.lpeCtxRestart ch eng ctx) r →
     eng.toNat ≤ 3 →
     ctx.toNat ≤ 63 →
     ∃ t : State, exec (.lpeCtxRestart ch eng ctx) s = .next (t.finish ch stOk []) ∧
       (let c := 64 * eng.toNat + ctx.toNat; t.rf (LPE_CTXSTAT.STATE c) = (if s.rb (LPE_CTXCFG.EN c) then cxWait else cxOff) ∧ t.rb (LPE_CTXSTAT.PRIMED c) = false ∧ t.rb (LPE_CTXSTAT.FALLBACK c) = false ∧ t.rn (LPE_CTXCNT.adr c) = 0 ∧ t.rn (LPE_CTXOUTV.adr c) = 0 ∧ t.rn (LPE_CTXINTG.adr c) = 0 ∧ t.rn (LPE_CTXSPACT.adr c) = 0 ∧ (t.ctx c).writes = (s.ctx c).writes) ∧
       t = { s with regs := t.regs, hmb := t.hmb, lpe := t.lpe }) ∧
  -- LPE_CTX_RESTART of no context
  (∀ (s : State) (ch : Fin 8) (eng : Byte) (ctx : Byte) (r : HmbRun),
     s.Asked ch (.lpeCtxRestart ch eng ctx) r →
     (3 < eng.toNat ∨ 63 < ctx.toNat) →
     ∃ t : State, exec (.lpeCtxRestart ch eng ctx) s = .next (t.finish ch stInvalidParam []) ∧
       t = s.taken ch r) ∧
  -- LPE_COEF_READ
  (∀ (s : State) (ch : Fin 8) (eng : Byte) (ctx : Byte) (rc : Byte) (r : HmbRun),
     s.Asked ch (.lpeCoefRead ch eng ctx rc) r →
     eng.toNat ≤ 3 →
     ctx.toNat ≤ 63 →
     rc.toNat ≤ 3 →
     ∃ t : State, exec (.lpeCoefRead ch eng ctx rc) s = .next (t.finish ch stOk ((List.range 16).flatMap (fun w => leBytes 4 (s.lpeRec (64 * eng.toNat + ctx.toNat) rc.toNat w)))) ∧
       t = s.taken ch r) ∧
  -- LPE_COEF_READ of no record
  (∀ (s : State) (ch : Fin 8) (eng : Byte) (ctx : Byte) (rc : Byte) (r : HmbRun),
     s.Asked ch (.lpeCoefRead ch eng ctx rc) r →
     (3 < eng.toNat ∨ 63 < ctx.toNat ∨ 3 < rc.toNat) →
     ∃ t : State, exec (.lpeCoefRead ch eng ctx rc) s = .next (t.finish ch stInvalidParam []) ∧
       t = s.taken ch r) ∧
  -- FBC_CHAN_RESTART of a channel in use
  (∀ (s : State) (ch : Fin 8) (n : Byte) (r : HmbRun),
     s.Asked ch (.fbcChanRestart ch n) r →
     n.toNat ≤ 15 →
     s.rb (FBC_CFG.EN n.toNat) = true →
     ∃ t : State, exec (.fbcChanRestart ch n) s = .next (t.finish ch stOk []) ∧
       t.rn (FBC_POS.adr n.toNat) = 0 ∧
       t.rn (FBC_POSHI.adr n.toNat) = 0 ∧
       t.rn (FBC_STAT.adr n.toNat) = 0 ∧
       t.rn (FBC_SPEED.adr n.toNat) = 0 ∧
       (t.fb n.toNat).raw = 0 ∧
       (t.fb n.toNat).known = false ∧
       (t.fb n.toNat).pins = (s.fb n.toNat).pins ∧
       t.rf (FBC_LEVEL.SECT n.toNat) = 7 ∧
       RegsBut [FBC_LEVEL.SECT n.toNat, whole (FBC_POS.adr n.toNat), whole (FBC_POSHI.adr n.toNat), whole (FBC_STAT.adr n.toNat), whole (FBC_SPEED.adr n.toNat), FBC_SENTSLOW.VALID n.toNat] s t) ∧
  -- FBC_CHAN_RESTART of a channel not in use
  (∀ (s : State) (ch : Fin 8) (n : Byte) (r : HmbRun),
     s.Asked ch (.fbcChanRestart ch n) r →
     n.toNat ≤ 15 →
     s.rb (FBC_CFG.EN n.toNat) = false →
     ∃ t : State, exec (.fbcChanRestart ch n) s = .next (t.finish ch stOk []) ∧
       t = s.taken ch r) ∧
  -- FBC_CHAN_RESTART of no channel
  (∀ (s : State) (ch : Fin 8) (n : Byte) (r : HmbRun),
     s.Asked ch (.fbcChanRestart ch n) r →
     15 < n.toNat →
     ∃ t : State, exec (.fbcChanRestart ch n) s = .next (t.finish ch stInvalidParam []) ∧
       t = s.taken ch r)

/-- LANE_INFO answers with LANE_ID, LANE_REV, the serial number, LANE_STATE, LANE_PEERS and LANE_PROFILE (R400). DIAG_READ
of 1 to 256 words at mapped aligned addresses answers with the words as the Headstock reads them; a count of 0 or
above 256 and an address that is unmapped or refused are INVALID_PARAM, and so is an unaligned one, the model's
reading (log entry 14). DBG_PROBE_SET drives a pad with a signal; a pad above 3 or a signal above 1 023 is
INVALID_PARAM. PROBE_EVENT in DEBUG writes the event log at NEXT, with GT rounded up to a tick of the probe (the
model's reading, log entry 47), and NEXT moves on and wraps (R423). SEC_CERT_READ answers with the certificate record,
NCH_LOG_READ with a written entry of the notch log, CMS_READ with the image in force, CMS_STATUS with V, the stage and
the commits left, UPD_STATUS with the session (R400, R412, R437, R443). -/
def Obligations.ReadingCommands : Prop :=
  -- LANE_INFO
  (∀ (s : State) (ch : Fin 8) (r : HmbRun),
     s.Asked ch (.laneInfo ch) r →
     ∃ t : State, exec (.laneInfo ch) s = .next (t.finish ch stOk ([LANE_ID.adr, LANE_REV.adr, LANE_SERIAL_LO.adr, LANE_SERIAL_HI.adr, LANE_STATE.adr, LANE_PEERS.adr, LANE_PROFILE.adr].flatMap (fun a => leBytes 4 (s.peekReg a)))) ∧
       t = s.taken ch r) ∧
  -- DIAG_READ of a word of SRAM
  (∀ (s : State) (ch : Fin 8) (a : Word) (r : HmbRun),
     s.Asked ch (.diagRead ch a 1) r →
     0x20000000 ≤ a.toNat →
     a.toNat < 0x20600000 →
     a.toNat % 4 = 0 →
     ∃ t : State, exec (.diagRead ch a 1) s = .next (t.finish ch stOk (leBytes 4 (s.memWord a.toNat))) ∧
       t.mem = s.mem ∧
       RegsBut [] s t) ∧
  -- DIAG_READ
  (∀ (s : State) (ch : Fin 8) (a : Word) (n : Word) (r : HmbRun),
     s.Asked ch (.diagRead ch a n) r →
     1 ≤ n.toNat →
     n.toNat ≤ 256 →
     (List.range n.toNat).any (fun i => diagRefused (a.toNat + 4 * i)) = false →
     ∃ t : State, exec (.diagRead ch a n) s = .next (t.finish ch stOk ((s.taken ch r).diagWords a.toNat n.toNat).2) ∧
       t.mem = s.mem) ∧
  -- DIAG_READ refused
  (∀ (s : State) (ch : Fin 8) (a : Word) (n : Word) (r : HmbRun),
     s.Asked ch (.diagRead ch a n) r →
     (n.toNat = 0 ∨ 256 < n.toNat ∨ (List.range n.toNat).any (fun i => diagRefused (a.toNat + 4 * i)) = true) →
     ∃ t : State, exec (.diagRead ch a n) s = .next (t.finish ch stInvalidParam []) ∧
       t = s.taken ch r) ∧
  -- DBG_PROBE_SET
  (∀ (s : State) (ch : Fin 8) (pad : Byte) (sig : BitVec 16) (r : HmbRun),
     s.Asked ch (.dbgProbeSet ch pad sig) r →
     pad.toNat ≤ 3 →
     sig.toNat ≤ 1023 →
     ∃ t : State, exec (.dbgProbeSet ch pad sig) s = .next (t.finish ch stOk []) ∧
       t.rb (DBG_PROBE.EN pad.toNat) = true ∧
       t.rf (DBG_PROBE.SIGNAL pad.toNat) = sig.toNat ∧
       RegsBut [DBG_PROBE.EN pad.toNat, DBG_PROBE.SIGNAL pad.toNat] s t ∧
       t = { s with regs := t.regs, hmb := t.hmb }) ∧
  -- DBG_PROBE_SET refused
  (∀ (s : State) (ch : Fin 8) (pad : Byte) (sig : BitVec 16) (r : HmbRun),
     s.Asked ch (.dbgProbeSet ch pad sig) r →
     (3 < pad.toNat ∨ 1023 < sig.toNat) →
     ∃ t : State, exec (.dbgProbeSet ch pad sig) s = .next (t.finish ch stInvalidParam []) ∧
       t = s.taken ch r) ∧
  -- PROBE_EVENT
  (∀ (s : State) (pad : Fin 4) (lv : Bool) (j : Nat),
     s.st = stDebug →
     s.rb (DBG_PROBE.EN pad) = true →
     s.rb (DBG_PROBE.EVT pad) = true →
     s.rf DBG_EVTPTR.NEXT = j →
     (s.probePad pad).all (· == lv) = true →
     ∃ t : State, exec (.probeEvent pad lv) s = .next t ∧
       t.rn (DBG_EVTGT.adr j) = (s.gt + 9) / 10 * 10 % 2 ^ 32 ∧
       t.rn (DBG_EVT.adr j) = pad.val * 2 ^ 30 + b2n lv * 2 ^ 29 ∧
       t.rf DBG_EVTPTR.NEXT = (j + 1) % 256 ∧
       t.rb DBG_EVTPTR.WRAPPED = (s.rb DBG_EVTPTR.WRAPPED || decide (j = 255)) ∧
       RegsBut [whole (DBG_EVTGT.adr j), whole (DBG_EVT.adr j), DBG_EVTPTR.NEXT, DBG_EVTPTR.WRAPPED] s t ∧
       t = { s with regs := t.regs }) ∧
  -- PROBE_EVENT outside DEBUG, or of a pad that is not logged
  (∀ (s : State) (pad : Fin 4) (lv : Bool),
     (s.st ≠ stDebug ∨ s.rb (DBG_PROBE.EN pad) = false ∨ s.rb (DBG_PROBE.EVT pad) = false) →
     ∃ t : State, exec (.probeEvent pad lv) s = .next t ∧
       t = s) ∧
  -- SEC_CERT_READ
  (∀ (s : State) (ch : Fin 8) (r : HmbRun),
     s.Asked ch (.secCertRead ch) r →
     ∃ t : State, exec (.secCertRead ch) s = .next (t.finish ch stOk ((s.flash.cert ++ List.replicate 128 0xFF).take 128)) ∧
       t = s.taken ch r) ∧
  -- NCH_LOG_READ
  (∀ (s : State) (ch : Fin 8) (i : BitVec 16) (e : List Byte) (r : HmbRun),
     s.Asked ch (.nchLogRead ch i) r →
     s.flash.log[i.toNat]? = some e →
     ∃ t : State, exec (.nchLogRead ch i) s = .next (t.finish ch stOk e) ∧
       t = s.taken ch r) ∧
  -- NCH_LOG_READ of an entry not written
  (∀ (s : State) (ch : Fin 8) (i : BitVec 16) (r : HmbRun),
     s.Asked ch (.nchLogRead ch i) r →
     s.flash.log.length ≤ i.toNat →
     ∃ t : State, exec (.nchLogRead ch i) s = .next (t.finish ch stInvalidParam []) ∧
       t = s.taken ch r) ∧
  -- CMS_READ
  (∀ (s : State) (ch : Fin 8) (o : Word) (n : Word) (r : HmbRun),
     s.Asked ch (.cmsRead ch o n) r →
     4 ≤ n.toNat →
     n.toNat ≤ 1024 →
     o.toNat + n.toNat ≤ 65536 →
     ∃ t : State, exec (.cmsRead ch o n) s = .next (t.finish ch stOk (imgBytes s.activeImg o.toNat n.toNat)) ∧
       t = s.taken ch r) ∧
  -- CMS_READ refused
  (∀ (s : State) (ch : Fin 8) (o : Word) (n : Word) (r : HmbRun),
     s.Asked ch (.cmsRead ch o n) r →
     (n.toNat < 4 ∨ 1024 < n.toNat ∨ 65536 < o.toNat + n.toNat) →
     ∃ t : State, exec (.cmsRead ch o n) s = .next (t.finish ch stInvalidParam []) ∧
       t = s.taken ch r) ∧
  -- CMS_STATUS
  (∀ (s : State) (ch : Fin 8) (r : HmbRun),
     s.Asked ch (.cmsStatus ch) r →
     ∃ t : State, exec (.cmsStatus ch) s = .next (t.finish ch stOk (valueChars s.activeV ++ leBytes 4 (if s.sec.staging.isNone then 0 else if s.rf NCH_CMSSTAT.STAGE = 1 then 1 else 2) ++ leBytes 4 s.commitsLeft)) ∧
       t = s.taken ch r) ∧
  -- UPD_STATUS
  (∀ (s : State) (ch : Fin 8) (r : HmbRun),
     s.Asked ch (.updStatus ch) r →
     ∃ t : State, exec (.updStatus ch) s = .next (t.finish ch stOk (leBytes 4 (if s.upd.trial then 3 else if !s.upd.isOpen then 0 else if s.upd.verified then 2 else 1) ++ leBytes 4 ((s.upd.parts.map (·.2)).sum) ++ leBytes 4 s.sec.bank)) ∧
       t = s.taken ch r)

/-- FBC_LEVEL_CHANGE sets the levels at the channel's pads. Of a channel sampled up to now, VIO3 good, in QUAD mode with a
known reference, Z inactive and no preset waiting: where FILT samples have not agreed, or the level is the filtered
one, no register changes (R130). Where it is the FILT-th agreeing sample, of the levels after POL: where A and B both
change, ILLCNT counts up to its limit, SUSPECT is set, 96 is raised, the speed is unprimed and RAW and the position
stay (R133). Where one changes, RAW moves by one count, up along the sequence 00, 01, 11, 10 of (B, A) and down
against it (REV reverses it), DIR says which and DIRV is set (R132, R135). Each clause ends with what is as before.
SPEED_BOUND_UPDATE, each microsecond while the time since the last qualifying edge exceeds the last interval, writes
the speed that an edge now would give; SPEED_STOP_TIMEOUT, after SPTO without a qualifying edge, sets the speed to 0
and STOP. Nothing else changes. -/
def Obligations.FeedbackSamples : Prop :=
  -- the pads
  (∀ (s : State) (n : Fin 16) (a : Bool) (b : Bool) (z : Bool),
     s.on = true →
     ∃ t : State, exec (.fbcLevelChange n a b z) s = .next t ∧
       (t.fb n).pins = b2n a + 2 * b2n b + 4 * b2n z) ∧
  -- both channels change: an illegal step (R133)
  (∀ (s : State) (n : Fin 16) (a : Bool) (b : Bool) (z : Bool),
     s.on = true →
     s.now / 10 ≤ (s.fb n).nextSample →
     s.vioDead 2 = false →
     s.fbUse n = true →
     s.rf (FBC_CFG.MODE n) = fbQuad →
     (s.fb n).known = true →
     (s.fb n).preset = false →
     ((b2n a + 2 * b2n b + 4 * b2n z) ^^^ s.rf (FBC_CFG.POL n)).testBit 2 = false →
     (∀ i : Fin 3, s.rf (FBC_CFG.FILT n) ≤ (s.fb n).agree.getD i 0 + 1) →
     (s.rf (FBC_LEVEL.LVL n)).testBit 0 ≠ ((b2n a + 2 * b2n b + 4 * b2n z) ^^^ s.rf (FBC_CFG.POL n)).testBit 0 →
     (s.rf (FBC_LEVEL.LVL n)).testBit 1 ≠ ((b2n a + 2 * b2n b + 4 * b2n z) ^^^ s.rf (FBC_CFG.POL n)).testBit 1 →
     ∃ t : State, exec (.fbcLevelChange n a b z) s = .next t ∧
       t.rf (FBC_ERRCNT.ILLCNT n) = min (s.rf (FBC_ERRCNT.ILLCNT n) + 1) 65535 ∧
       t.rf (FBC_STAT.SUSPECT n) = 1 ∧
       t.rf (FBC_STAT.SPVALID n) = 0 ∧
       t.rn (FBC_SPEED.adr n) = 0 ∧
       Raised s t 96 n ∧
       t.rf (FBC_LEVEL.LVL n) = ((b2n a + 2 * b2n b + 4 * b2n z) ^^^ s.rf (FBC_CFG.POL n)) ∧
       (t.fb n).raw = (s.fb n).raw ∧
       RegsBut [FBC_LEVEL.LVL n, FBC_LEVEL.SECT n, FBC_ERRCNT.ILLCNT n, FBC_STAT.SUSPECT n, FBC_STAT.SPVALID n, whole (FBC_SPEED.adr n)] s t ∧
       t = { s with regs := t.regs, tly := t.tly, fbc := t.fbc }) ∧
  -- one channel changes: a legal step (R132, R135)
  (∀ (s : State) (n : Fin 16) (a : Bool) (b : Bool) (z : Bool),
     s.on = true →
     s.now / 10 ≤ (s.fb n).nextSample →
     s.vioDead 2 = false →
     s.fbUse n = true →
     s.rf (FBC_CFG.MODE n) = fbQuad →
     (s.fb n).known = true →
     (s.fb n).preset = false →
     ((b2n a + 2 * b2n b + 4 * b2n z) ^^^ s.rf (FBC_CFG.POL n)).testBit 2 = false →
     (∀ i : Fin 3, s.rf (FBC_CFG.FILT n) ≤ (s.fb n).agree.getD i 0 + 1) →
     ((s.rf (FBC_LEVEL.LVL n)).testBit 0 ≠ ((b2n a + 2 * b2n b + 4 * b2n z) ^^^ s.rf (FBC_CFG.POL n)).testBit 0) ≠ ((s.rf (FBC_LEVEL.LVL n)).testBit 1 ≠ ((b2n a + 2 * b2n b + 4 * b2n z) ^^^ s.rf (FBC_CFG.POL n)).testBit 1) →
     (s.fb n).watch = false →
     ∃ t : State, exec (.fbcLevelChange n a b z) s = .next t ∧
       (let up := ((s.rf (FBC_LEVEL.LVL n)).testBit 0 == ((b2n a + 2 * b2n b + 4 * b2n z) ^^^ s.rf (FBC_CFG.POL n)).testBit 1) != s.rb (FBC_CFG.REV n); t.rf (FBC_STAT.DIR n) = b2n up ∧ (t.fb n).raw = (if up then ((s.fb n).raw + 1) % 2 ^ 32 else (if (s.fb n).raw % 2 ^ 32 = 0 then 2 ^ 32 - 1 else (s.fb n).raw % 2 ^ 32 - 1))) ∧
       t.rf (FBC_STAT.DIRV n) = 1 ∧
       t.rf (FBC_LEVEL.LVL n) = ((b2n a + 2 * b2n b + 4 * b2n z) ^^^ s.rf (FBC_CFG.POL n)) ∧
       t.rf (FBC_STAT.SUSPECT n) = s.rf (FBC_STAT.SUSPECT n) ∧
       RegsBut [FBC_LEVEL.LVL n, FBC_LEVEL.SECT n, whole (FBC_POS.adr n), whole (FBC_POSHI.adr n), whole (FBC_STAT.adr n), whole (FBC_SPEED.adr n)] s t ∧
       t = { s with regs := t.regs, tly := t.tly, fbc := t.fbc, free := t.free, hwSet := t.hwSet }) ∧
  -- neither changes
  (∀ (s : State) (n : Fin 16) (a : Bool) (b : Bool) (z : Bool),
     s.on = true →
     s.now / 10 ≤ (s.fb n).nextSample →
     s.vioDead 2 = false →
     s.fbUse n = true →
     s.rf (FBC_CFG.MODE n) = fbQuad →
     (s.fb n).known = true →
     (s.fb n).preset = false →
     ((b2n a + 2 * b2n b + 4 * b2n z) ^^^ s.rf (FBC_CFG.POL n)).testBit 2 = false →
     ((b2n a + 2 * b2n b + 4 * b2n z) ^^^ s.rf (FBC_CFG.POL n)) = (s.rf (FBC_LEVEL.LVL n)) →
     ∃ t : State, exec (.fbcLevelChange n a b z) s = .next t ∧
       RegsBut [] s t ∧
       t = { s with fbc := t.fbc }) ∧
  -- a change that FILT samples have not seen (R130)
  (∀ (s : State) (n : Fin 16) (a : Bool) (b : Bool) (z : Bool),
     s.on = true →
     s.now / 10 ≤ (s.fb n).nextSample →
     s.vioDead 2 = false →
     s.fbUse n = true →
     s.rf (FBC_CFG.MODE n) = fbQuad →
     (s.fb n).known = true →
     (s.fb n).preset = false →
     ((b2n a + 2 * b2n b + 4 * b2n z) ^^^ s.rf (FBC_CFG.POL n)).testBit 2 = false →
     (∀ i : Fin 3, (s.fb n).agree.getD i 0 + 1 < s.rf (FBC_CFG.FILT n)) →
     ∃ t : State, exec (.fbcLevelChange n a b z) s = .next t ∧
       RegsBut [] s t ∧
       t = { s with fbc := t.fbc }) ∧
  -- SPEED_BOUND_UPDATE (R142)
  (∀ (s : State) (n : Fin 16) (dt : Nat),
     s.fbUse n = true →
     s.rb (FBC_SPCFG.SPMETH n) = false →
     (s.fb n).edges = 2 →
     (s.fb n).interval = some dt →
     s.rb (FBC_STAT.STOP n) = false →
     (s.fb n).stamp + dt < s.gt →
     (s.fb n).boundAt + 1000 ≤ s.now →
     ∃ t : State, exec (.speedBoundUpdate n) s = .next t ∧
       t.rn (FBC_SPEED.adr n) = s.speedOf (s.fb n).up (s.cpe n) (s.gt - (s.fb n).stamp) % 2 ^ 32 ∧
       RegsBut [whole (FBC_SPEED.adr n)] s t ∧
       t = { s with regs := t.regs, fbc := t.fbc }) ∧
  -- SPEED_STOP_TIMEOUT (R142)
  (∀ (s : State) (n : Fin 16),
     s.fbUse n = true →
     s.rb (FBC_SPCFG.SPMETH n) = false →
     s.rb (FBC_STAT.SPVALID n) = true →
     s.rb (FBC_STAT.STOP n) = false →
     (s.fb n).stamp + 10000 * s.rf (FBC_SPCFG.SPTO n) ≤ s.gt →
     ∃ t : State, exec (.speedStopTimeout n) s = .next t ∧
       t.rn (FBC_SPEED.adr n) = 0 ∧
       t.rf (FBC_STAT.STOP n) = 1 ∧
       RegsBut [whole (FBC_SPEED.adr n), FBC_STAT.STOP n] s t ∧
       t = { s with regs := t.regs })

/-- FBC_PRESET by a requester that may write waits for the channel's next sample, which loads RAW and FBC_POSn with
FBC_PRESETn, plus the step that the sample counts, clears FBC_POSHIn and SUSPECT and sets REF; FBC_CLRSUSP clears
SUSPECT; FBC_POS_READ returns FBC_POSn and captures FBC_POSHIn and FBC_STATn for the next read of each by that
requester, and changes no register. SENT_FRAME on a SENT channel with a tick reference: a frame that fails the format
check counts in FMTERR and raises 101, one that fails its CRC counts in CRCERR and raises 98; both age the value and
leave FBC_SENTFASTn. The first frame after a start or a loss only sets the tick reference. SENT_TIMEOUT after SENTTO
without a valid frame clears SENTVALID, sets LOSS, raises 99 and unprimes the speed. -/
def Obligations.FeedbackCommandsAndSent : Prop :=
  -- FBC_PRESET waits for the next sample (R138)
  (∀ (s : State) (req : Fin 32) (n : Fin 16),
     s.on = true →
     s.mayWrite req (8 + n) false = true →
     ∃ t : State, exec (.fbcPreset req n) s = .next t ∧
       (t.fb n).preset = true) ∧
  -- FBC_PRESET of a channel sampled up to now
  (∀ (s : State) (req : Fin 32) (n : Fin 16),
     s.on = true →
     s.mayWrite req (8 + n) false = true →
     s.now / 10 ≤ (s.fb n).nextSample →
     ∃ t : State, exec (.fbcPreset req n) s = .next t ∧
       t = s.setFb n { s.fb n with preset := true }) ∧
  -- the sample that finds the preset (R138)
  (∀ (s : State) (n : Fin 16) (a : Bool) (b : Bool) (z : Bool),
     s.on = true →
     s.now / 10 ≤ (s.fb n).nextSample →
     s.vioDead 2 = false →
     s.fbUse n = true →
     s.rf (FBC_CFG.MODE n) = fbQuad →
     (s.fb n).known = true →
     (s.fb n).preset = true →
     ((b2n a + 2 * b2n b + 4 * b2n z) ^^^ s.rf (FBC_CFG.POL n)).testBit 2 = false →
     ((b2n a + 2 * b2n b + 4 * b2n z) ^^^ s.rf (FBC_CFG.POL n)) = (s.rf (FBC_LEVEL.LVL n)) →
     ∃ t : State, exec (.fbcLevelChange n a b z) s = .next t ∧
       t.rn (FBC_POS.adr n) = s.rn (FBC_PRESET.adr n) ∧
       (t.fb n).raw = s.rn (FBC_PRESET.adr n) ∧
       (t.fb n).preset = false ∧
       t.rn (FBC_POSHI.adr n) = 0 ∧
       t.rf (FBC_STAT.REF n) = 1 ∧
       t.rf (FBC_STAT.SUSPECT n) = 0 ∧
       RegsBut [whole (FBC_POS.adr n), whole (FBC_POSHI.adr n), FBC_STAT.REF n, FBC_STAT.SUSPECT n, FBC_LEVEL.SECT n] s t ∧
       t = { s with regs := t.regs, fbc := t.fbc }) ∧
  -- the sample that finds the preset and a legal step (R138, R149)
  (∀ (s : State) (n : Fin 16) (a : Bool) (b : Bool) (z : Bool),
     s.on = true →
     s.now / 10 ≤ (s.fb n).nextSample →
     s.vioDead 2 = false →
     s.fbUse n = true →
     s.rf (FBC_CFG.MODE n) = fbQuad →
     (s.fb n).known = true →
     (s.fb n).preset = true →
     ((b2n a + 2 * b2n b + 4 * b2n z) ^^^ s.rf (FBC_CFG.POL n)).testBit 2 = false →
     (∀ i : Fin 3, s.rf (FBC_CFG.FILT n) ≤ (s.fb n).agree.getD i 0 + 1) →
     ((s.rf (FBC_LEVEL.LVL n)).testBit 0 ≠ ((b2n a + 2 * b2n b + 4 * b2n z) ^^^ s.rf (FBC_CFG.POL n)).testBit 0) ≠ ((s.rf (FBC_LEVEL.LVL n)).testBit 1 ≠ ((b2n a + 2 * b2n b + 4 * b2n z) ^^^ s.rf (FBC_CFG.POL n)).testBit 1) →
     (s.fb n).watch = false →
     ∃ t : State, exec (.fbcLevelChange n a b z) s = .next t ∧
       (let up := ((s.rf (FBC_LEVEL.LVL n)).testBit 0 == ((b2n a + 2 * b2n b + 4 * b2n z) ^^^ s.rf (FBC_CFG.POL n)).testBit 1) != s.rb (FBC_CFG.REV n); let p := s.rn (FBC_PRESET.adr n); (t.fb n).raw = (if up then (p + 1) % 2 ^ 32 else if p = 0 then 2 ^ 32 - 1 else p - 1)) ∧
       t.rn (FBC_POS.adr n) = (t.fb n).raw ∧
       (t.fb n).preset = false ∧
       t.rf (FBC_STAT.REF n) = 1 ∧
       t.rf (FBC_STAT.SUSPECT n) = 0 ∧
       RegsBut [FBC_LEVEL.LVL n, FBC_LEVEL.SECT n, whole (FBC_POS.adr n), whole (FBC_POSHI.adr n), whole (FBC_STAT.adr n), whole (FBC_SPEED.adr n)] s t) ∧
  -- FBC_CLRSUSP (R133)
  (∀ (s : State) (req : Fin 32) (n : Fin 16),
     s.on = true →
     s.mayWrite req (8 + n) false = true →
     ∃ t : State, exec (.fbcClrsusp req n) s = .next t ∧
       t.rf (FBC_STAT.SUSPECT n) = 0 ∧
       RegsBut [FBC_STAT.SUSPECT n] s t ∧
       t = { s with regs := t.regs }) ∧
  -- FBC_POS_READ (R137)
  (∀ (s : State) (req : Fin 32) (n : Fin 16),
     s.on = true →
     ∃ t : State, exec (.fbcPosRead req n) s = .next t ∧
       t.rdata = s.rn (FBC_POS.adr n) ∧
       mget {} t.fbc.caps (16 * req + n) = { hi := some (s.rn (FBC_POSHI.adr n)), st := some (s.rn (FBC_STAT.adr n)) } ∧
       t = { s with rdata := t.rdata, fbc := t.fbc }) ∧
  -- the first frame (R144)
  (∀ (s : State) (n : Fin 16) (p : List Nat),
     s.on = true →
     s.fbUse n = true →
     s.vioDead 2 = false →
     s.rf (FBC_CFG.MODE n) = fbSent →
     (s.fb n).prevCal = none →
     ∃ t : State, exec (.sentFrame n p) s = .next t ∧
       (t.fb n).prevCal = some (p.headD 0) ∧
       RegsBut [] s t ∧
       t = { s with fbc := t.fbc }) ∧
  -- a good frame (R144, R146)
  (∀ (s : State) (n : Fin 16) (p : List Nat) (cal : Nat),
     s.on = true →
     s.fbUse n = true →
     s.vioDead 2 = false →
     s.rf (FBC_CFG.MODE n) = fbSent →
     (s.fb n).prevCal = some cal →
     s.sentCheck n p = 0 →
     ∃ t : State, exec (.sentFrame n p) s = .next t ∧
       t.rf (FBC_STAT.SENTVALID n) = 1 ∧
       t.rf (FBC_STAT.SENTAGE n) = 0 ∧
       t.rf (FBC_STAT.LOSS n) = 0 ∧
       (t.fb n).validAt = s.now ∧
       (t.fb n).prevCal = some (p.headD 0) ∧
       t.rf (FBC_SENTFAST.SCN n) = (ticks (p.headD 0) (p.getD 1 0) - 12) % 16 ∧
       RegsBut [whole (FBC_SENTFAST.adr n), FBC_STAT.SENTVALID n, FBC_STAT.SENTAGE n, FBC_STAT.LOSS n, whole (FBC_SENTSLOW.adr n), FBC_SENTCNT.CRCERR n] s t ∧
       t = { s with regs := t.regs, tly := t.tly, fbc := t.fbc }) ∧
  -- a frame that fails a check (R144, R145)
  (∀ (s : State) (n : Fin 16) (p : List Nat),
     s.on = true →
     s.fbUse n = true →
     s.vioDead 2 = false →
     s.rf (FBC_CFG.MODE n) = fbSent →
     (s.fb n).prevCal ≠ none →
     s.sentCheck n p ≠ 0 →
     ∃ t : State, exec (.sentFrame n p) s = .next t ∧
       (s.sentCheck n p = 1 → t.rf (FBC_SENTCNT.FMTERR n) = min (s.rf (FBC_SENTCNT.FMTERR n) + 1) 65535 ∧ t.rf (FBC_SENTCNT.CRCERR n) = s.rf (FBC_SENTCNT.CRCERR n) ∧ Raised s t 101 n) ∧
       (s.sentCheck n p ≠ 1 → t.rf (FBC_SENTCNT.CRCERR n) = min (s.rf (FBC_SENTCNT.CRCERR n) + 1) 65535 ∧ t.rf (FBC_SENTCNT.FMTERR n) = s.rf (FBC_SENTCNT.FMTERR n) ∧ Raised s t 98 n) ∧
       t.rf (FBC_STAT.SENTAGE n) = min (s.rf (FBC_STAT.SENTAGE n) + 1) 255 ∧
       RegsBut [FBC_SENTCNT.FMTERR n, FBC_SENTCNT.CRCERR n, FBC_STAT.SENTAGE n] s t ∧
       t = { s with regs := t.regs, tly := t.tly, fbc := t.fbc }) ∧
  -- SENT_TIMEOUT (R147)
  (∀ (s : State) (n : Fin 16),
     s.on = true →
     s.fbUse n = true →
     s.rf (FBC_CFG.MODE n) = fbSent →
     s.rb (FBC_STAT.LOSS n) = false →
     (s.fb n).validAt + 100000 * s.rf (FBC_SENTCFG.SENTTO n) ≤ s.now →
     ∃ t : State, exec (.sentTimeout n) s = .next t ∧
       t.rf (FBC_STAT.SENTVALID n) = 0 ∧
       t.rf (FBC_STAT.LOSS n) = 1 ∧
       t.rf (FBC_STAT.SPVALID n) = 0 ∧
       t.rn (FBC_SPEED.adr n) = 0 ∧
       Raised s t 99 n ∧
       (t.fb n).prevCal = none ∧
       RegsBut [FBC_STAT.SENTVALID n, FBC_STAT.LOSS n, FBC_STAT.SPVALID n, whole (FBC_SPEED.adr n)] s t ∧
       t = { s with regs := t.regs, tly := t.tly, fbc := t.fbc })

/-- With no injection rule armed: CAP_RECEIVE in LOCK records the partner's capability; where R105 settles, the CFG frame
goes out and the port is in CONFIG, where it does not, FAILCODE tells why, 69 is raised, and the port is FAILED or
retries in 100 ms (R104 to R106). CFGACK_RECEIVE of the CFG sent lets RATE_CHANGE follow 10 µs later into TRAIN,
another one fails with code 6 (R103). CHARACTER_LOCK gained in level mode ends bring-up; lost before UP it fails with
code 9. NEGOTIATE_TIMEOUT in LOCK after 10 ms fails with code 1; BRINGUP_RETRY starts the next attempt. That a port
shows DOWN while a retry waits is the model's choice (log entry 54). Character lock in timed-edge mode sends the first
echo request. -/
def Obligations.GateLinkBringup : Prop :=
  -- a capability record that settles
  (∀ (s : State) (n : Fin 8) (c : Vector Byte 20),
     s.on = true →
     s.rf AST_INJCTL.ARM = 0 →
     s.ast.held = [] →
     s.portSt n = glLock →
     (s.settle n c.toList).fail = 0 →
     ∃ t : State, exec (.capReceive n c) s = .next t ∧
       t.portSt n = glConfig ∧
       t.rn (GLK_PCAP0.adr n) = leAt c.toList 0 4 ∧
       t.rn (GLK_PCAP1.adr n) = leAt c.toList 4 4 ∧
       t.rn (GLK_ISCALE.adr n) = leAt c.toList 8 4 ∧
       t.rn (GLK_USCALE.adr n) = leAt c.toList 12 4 ∧
       t.rn (GLK_PID.adr n) = leAt c.toList 16 4 ∧
       (t.port n).rate = (s.settle n c.toList).rate ∧
       (t.port n).te = (s.settle n c.toList).te ∧
       Sent s t [.glk n gfCfg (t.port n).cfg (glkCheck gfCfg (t.port n).cfg)] ∧
       (t.port n).cfg.length = 16 ∧
       RegsBut [whole (GLK_PCAP0.adr n), whole (GLK_PCAP1.adr n), whole (GLK_ISCALE.adr n), whole (GLK_USCALE.adr n), whole (GLK_PID.adr n), GLK_LINKSTAT.STATE n] s t ∧
       t = { s with regs := t.regs, glk := t.glk, outbox := t.outbox }) ∧
  -- a capability record that does not settle
  (∀ (s : State) (n : Fin 8) (c : Vector Byte 20),
     s.on = true →
     s.rf AST_INJCTL.ARM = 0 →
     s.ast.held = [] →
     s.portSt n = glLock →
     (s.settle n c.toList).fail ≠ 0 →
     ∃ t : State, exec (.capReceive n c) s = .next t ∧
       t.rf (GLK_LINKSTAT.FAILCODE n) = (s.settle n c.toList).fail ∧
       Raised s t 69 (n + (s.settle n c.toList).fail * 65536) ∧
       (if s.rb (GLK_PORTCFG.AUTORETRY n) && decide (s.rf (GLK_LINKSTAT.TRIES n) < 3) then t.portSt n = glDown ∧ (t.port n).retryAt = some (s.now + 100000000) else t.portSt n = glFailed ∧ (t.port n).retryAt = none) ∧
       t = { s with regs := t.regs, glk := t.glk, tly := t.tly }) ∧
  -- CFGACK of the CFG sent
  (∀ (s : State) (n : Fin 8) (c : Vector Byte 16),
     s.on = true →
     s.rf AST_INJCTL.ARM = 0 →
     s.ast.held = [] →
     s.portSt n = glConfig →
     (s.port n).ackAt = none →
     c.toList = (s.port n).cfg →
     ∃ t : State, exec (.cfgackReceive n c) s = .next t ∧
       (t.port n).ackAt = some s.now ∧
       RegsBut [] s t ∧
       t = { s with glk := t.glk }) ∧
  -- CFGACK of something else
  (∀ (s : State) (n : Fin 8) (c : Vector Byte 16),
     s.on = true →
     s.rf AST_INJCTL.ARM = 0 →
     s.ast.held = [] →
     s.portSt n = glConfig →
     (s.port n).ackAt = none →
     c.toList ≠ (s.port n).cfg →
     ∃ t : State, exec (.cfgackReceive n c) s = .next t ∧
       t.rf (GLK_LINKSTAT.FAILCODE n) = 6 ∧
       Raised s t 69 (n + 6 * 65536) ∧
       t = { s with regs := t.regs, glk := t.glk, tly := t.tly }) ∧
  -- RATE_CHANGE
  (∀ (s : State) (n : Fin 8) (a : Nat),
     s.portSt n = glConfig →
     (s.port n).ackAt = some a →
     a + 10000 ≤ s.now →
     (s.port n).rate < 4 →
     ∃ t : State, exec (.rateChange n) s = .next t ∧
       t.portSt n = glTrain ∧
       t.rf (GLK_LINKSTAT.RATE n) = (s.port n).rate ∧
       t.rf (GLK_LINKSTAT.MODE n) = b2n (s.port n).te ∧
       (t.port n).trainAt = s.now ∧
       (t.port n).locked = false ∧
       RegsBut [whole (GLK_LINKSTAT.adr n)] s t ∧
       t = { s with regs := t.regs, glk := t.glk }) ∧
  -- character lock in level mode
  (∀ (s : State) (n : Fin 8),
     s.portSt n = glTrain →
     (s.port n).locked = false →
     (s.port n).te = false →
     s.linkBank n = false →
     ∃ t : State, exec (.characterLock n true) s = .next t ∧
       t.portSt n = glUp ∧
       t.rf (GLK_LEGHOLD.NOTUP n) = 0 ∧
       t.rf (GLK_LEGHOLD.LINK n) = 0 ∧
       (t.port n).locked = true ∧
       RegsBut [GLK_LINKSTAT.STATE n, GLK_LEGHOLD.NOTUP n, GLK_LEGHOLD.LINK n, GLK_LEGHOLD.TIME n, GLK_LEGHOLD.EXEC n] s t ∧
       t = { s with regs := t.regs, glk := t.glk }) ∧
  -- character lock in level mode, whatever bank the port carries
  (∀ (s : State) (n : Fin 8),
     s.portSt n = glTrain →
     (s.port n).locked = false →
     (s.port n).te = false →
     ∃ t : State, exec (.characterLock n true) s = .next t ∧
       t.portSt n = glUp ∧
       t.rf (GLK_LEGHOLD.NOTUP n) = 0 ∧
       t.rf (GLK_LEGHOLD.LINK n) = 0 ∧
       t.rf (GLK_LEGHOLD.TIME n) = 0 ∧
       t.rf (GLK_LEGHOLD.EXEC n) = 0 ∧
       (t.port n).locked = true) ∧
  -- character lock lost
  (∀ (s : State) (n : Fin 8),
     (s.portSt n = glConfig ∨ s.portSt n = glTrain) →
     ∃ t : State, exec (.characterLock n false) s = .next t ∧
       t.rf (GLK_LINKSTAT.FAILCODE n) = 9 ∧
       Raised s t 69 (n + 9 * 65536) ∧
       t = { s with regs := t.regs, glk := t.glk, tly := t.tly }) ∧
  -- no valid CAP in 10 ms
  (∀ (s : State) (n : Fin 8),
     s.portSt n = glLock →
     (s.port n).attemptAt + 10000000 ≤ s.now →
     ∃ t : State, exec (.negotiateTimeout n) s = .next t ∧
       t.rf (GLK_LINKSTAT.FAILCODE n) = 1 ∧
       Raised s t 69 (n + 65536) ∧
       t.portSt n ≠ glLock ∧
       RegsBut [GLK_LINKSTAT.FAILCODE n, GLK_LINKSTAT.STATE n] s t ∧
       t = { s with regs := t.regs, glk := t.glk, tly := t.tly }) ∧
  -- a retry
  (∀ (s : State) (n : Fin 8) (a : Nat),
     (s.port n).retryAt = some a →
     a ≤ s.now →
     ∃ t : State, exec (.bringupRetry n) s = .next t ∧
       t.portSt n = glLock ∧
       t.rf (GLK_LINKSTAT.TRIES n) = min (s.rf (GLK_LINKSTAT.TRIES n) + 1) 3 ∧
       (t.port n).attemptAt = s.now ∧
       (t.port n).retryAt = none ∧
       RegsBut [GLK_LINKSTAT.STATE n, GLK_LINKSTAT.TRIES n] s t ∧
       t = { s with regs := t.regs, glk := t.glk }) ∧
  -- character lock in timed-edge mode
  (∀ (s : State) (n : Fin 8),
     s.rf AST_INJCTL.ARM = 0 →
     s.ast.held = [] →
     s.portSt n = glTrain →
     (s.port n).locked = false →
     (s.port n).te = true →
     (s.port n).relDue = 0 →
     ∃ t : State, exec (.characterLock n true) s = .next t ∧
       (t.port n).locked = true ∧
       (t.port n).echoOut = true ∧
       (t.port n).echoSeq = ((s.port n).echoSeq + 1) % 256 ∧
       t.outbox.length = s.outbox.length + 1 ∧
       RegsBut [] s t ∧
       t = { s with free := t.free, glk := t.glk, outbox := t.outbox })

/-- With no injection rule armed: the first 15 echo replies in TRAIN are summed and each is followed by the next ECHO
(R108). With the transmit pair free, no command or release queued, and a frame that completes before the bank's next
reload decision (R112), ECHO_RECHECK starts one exchange at a chain boundary on an UP timed-edge port, SYNC_SEND sends
GT and GLK_DELAYn (R108), and LINK_KEEPALIVE sends IDLE in timed-edge mode and the last LEVEL frame in level mode
after 5 µs without a frame (R102). A RELEASE that waits goes ahead of an ECHO or LEVEL frame (R123). LEVEL_SEND sends
the LEVEL frame of a planned switch change its lead ahead of it, or repeats the last one at a sample instant (R116).
GLK_SAMPA_READ returns GLK_SAMPAn and captures the other sample words for its requester (R118). -/
def Obligations.GateLinkTime : Prop :=
  -- an echo reply
  (∀ (s : State) (n : Fin 8) (q : Byte) (x : Nat),
     s.on = true →
     s.rf AST_INJCTL.ARM = 0 →
     s.ast.held = [] →
     s.portSt n = glTrain →
     (s.port n).echoOut = true →
     q.toNat = (s.port n).echoSeq →
     (s.port n).echoes < 15 →
     ∃ t : State, exec (.echoreplyReceive n q x) s = .next t ∧
       (t.port n).echoes = (s.port n).echoes + 1 ∧
       (t.port n).echoSum = (s.port n).echoSum + x ∧
       (t.port n).echoSeq = ((s.port n).echoSeq + 1) % 256 ∧
       (t.port n).echoOut = true ∧
       (t.port n).relDue = 0 ∧
       Sent s t ((if (s.port n).relDue = 0 then [] else [.glk n gfRelease [BitVec.ofNat 8 (s.port n).relDue] (glkCheck gfRelease [BitVec.ofNat 8 (s.port n).relDue])]) ++ [.glk n gfEcho [BitVec.ofNat 8 (((s.port n).echoSeq + 1) % 256)] (glkCheck gfEcho [BitVec.ofNat 8 (((s.port n).echoSeq + 1) % 256)])]) ∧
       RegsBut [] s t ∧
       t = { s with glk := t.glk, outbox := t.outbox }) ∧
  -- a recheck
  (∀ (s : State) (n : Fin 8),
     s.rf AST_INJCTL.ARM = 0 →
     s.ast.held = [] →
     s.portUp n = true →
     s.portTe n = true →
     (s.port n).recheckGt < s.gt / 500000 →
     s.lineFree n = true →
     (s.port n).queue = [] →
     (s.port n).relDue = 0 →
     s.frameClear n gfEcho = true →
     ∃ t : State, exec (.echoRecheck n) s = .next t ∧
       (t.port n).recheckGt = s.gt / 500000 ∧
       (t.port n).echoOut = true ∧
       Sent s t [.glk n gfEcho [BitVec.ofNat 8 (((s.port n).echoSeq + 1) % 256)] (glkCheck gfEcho [BitVec.ofNat 8 (((s.port n).echoSeq + 1) % 256)])] ∧
       t = { s with glk := t.glk, outbox := t.outbox }) ∧
  -- a SYNC frame
  (∀ (s : State) (n : Fin 8),
     s.rf AST_INJCTL.ARM = 0 →
     s.ast.held = [] →
     s.portUp n = true →
     s.portTe n = true →
     (s.port n).lastSync + 10000 ≤ s.now →
     s.lineFree n = true →
     (s.port n).queue = [] →
     (s.port n).relDue = 0 →
     (s.port n).echoDue = false →
     s.frameClear n gfSync = true →
     ∃ t : State, exec (.syncSend n) s = .next t ∧
       Sent s t [.glk n gfSync (leBytes 8 s.gt ++ leBytes 4 (s.rn (GLK_DELAY.adr n))) (glkCheck gfSync (leBytes 8 s.gt ++ leBytes 4 (s.rn (GLK_DELAY.adr n))))] ∧
       (t.port n).lastSync = s.now ∧
       t = { s with glk := t.glk, outbox := t.outbox }) ∧
  -- a keepalive
  (∀ (s : State) (n : Fin 8),
     s.rf AST_INJCTL.ARM = 0 →
     s.ast.held = [] →
     s.portUp n = true →
     (s.port n).lastDown + 5000 ≤ s.now →
     s.lineFree n = true →
     (s.port n).queue = [] →
     (s.port n).relDue = 0 →
     s.frameClear n (s.keepKind n) = true →
     ∃ t : State, exec (.linkKeepalive n) s = .next t ∧
       Sent s t [if s.portTe n then .glk n gfIdle [] (glkCheck gfIdle []) else .glk n gfLevel [BitVec.ofNat 8 (s.port n).level] (glkCheck gfLevel [BitVec.ofNat 8 (s.port n).level])] ∧
       (t.port n).lastDown = s.now ∧
       t = { s with glk := t.glk, outbox := t.outbox }) ∧
  -- a sample in level mode
  (∀ (s : State) (n : Fin 8),
     s.rf AST_INJCTL.ARM = 0 →
     s.ast.held = [] →
     s.portUp n = true →
     s.portTe n = false →
     s.linkBank n = true →
     (s.nextEdge n).filter (fun t => decide (t ≤ 32 * s.gt + 31 + s.levelLead n)) = none →
     (s.port n).levelSamples.any (fun x => decide (x ≤ s.gt)) = true →
     ∃ t : State, exec (.levelSend n) s = .next t ∧
       Sent s t ((if (s.port n).relDue = 0 then [] else [.glk n gfRelease [BitVec.ofNat 8 (s.port n).relDue] (glkCheck gfRelease [BitVec.ofNat 8 (s.port n).relDue])]) ++ [.glk n gfLevel [BitVec.ofNat 8 (s.port n).level] (glkCheck gfLevel [BitVec.ofNat 8 (s.port n).level])]) ∧
       (t.port n).relDue = 0 ∧
       (t.port n).levelSamples = (s.port n).levelSamples.filter (fun x => !decide (x ≤ s.gt)) ∧
       (t.port n).setsDue = (s.port n).setsDue ++ (s.port n).levelSamples.filter (fun x => decide (x ≤ s.gt)) ∧
       (t.port n).level = (s.port n).level ∧
       RegsBut [] s t ∧
       t = { s with glk := t.glk, outbox := t.outbox }) ∧
  -- a switch change in level mode
  (∀ (s : State) (n : Fin 8) (x : Nat),
     s.rf AST_INJCTL.ARM = 0 →
     s.ast.held = [] →
     s.portUp n = true →
     s.portTe n = false →
     s.linkBank n = true →
     (s.nextEdge n).filter (fun t => decide (t ≤ 32 * s.gt + 31 + s.levelLead n)) = some x →
     ∃ t : State, exec (.levelSend n) s = .next t ∧
       (t.port n).level = t.levelMask n ∧
       (if t.levelMask n = (s.port n).level then t.outbox = s.outbox else Sent s t ((if (s.port n).relDue = 0 then [] else [.glk n gfRelease [BitVec.ofNat 8 (s.port n).relDue] (glkCheck gfRelease [BitVec.ofNat 8 (s.port n).relDue])]) ++ [.glk n gfLevel [BitVec.ofNat 8 (t.levelMask n)] (glkCheck gfLevel [BitVec.ofNat 8 (t.levelMask n)])])) ∧
       (∀ m ∈ t.drivenLegs n, ∀ e ∈ t.edgesAhead m, x < e.t) ∧
       (t.port n).levelSamples = (s.port n).levelSamples ∧
       RegsBut [] s t ∧
       t = { s with pwm := { s.pwm with legs := t.pwm.legs }, glk := t.glk, outbox := t.outbox }) ∧
  -- GLK_SAMPA_READ
  (∀ (s : State) (req : Fin 32) (n : Fin 8),
     s.on = true →
     ∃ t : State, exec (.glkSampaRead req n) s = .next t ∧
       t.rdata = s.rn (GLK_SAMPA.adr n) ∧
       mget {} t.glk.caps (8 * req + n) = { b := s.rn (GLK_SAMPB.adr n), c := s.rn (GLK_SAMPC.adr n), st := s.rn (GLK_SAMPSTAT.adr n) } ∧
       t = { s with rdata := t.rdata, glk := t.glk })

/-- With no injection rule armed: every STATUS frame on an UP port is recorded in GLK_PSTATn and in EXEC and restarts the
wait for the next; in timed-edge mode one without SYNCOK holds the bank for TIME and starts bring-up anew. One on an
UP level-mode port that reports one fresh DESAT and nothing else holds that leg, raises 67 and keeps the rest (R119,
R120); EXEC takes the frame's count. UPSTREAM_FRAME_DISCARD before the next frame is due only counts in CRCERR (R101);
that it is due 4 980 ns after the last start is the model's reading (log entry 16). STATUS_MISSING counts in MISSED
and towards link loss; the third in a row is link loss: 64, LINK held, bring-up anew (R124). The DESAT clause is about
level mode. Each missing frame is counted, whatever samples it was to carry. -/
def Obligations.GateLinkStatus : Prop :=
  -- any STATUS frame on an UP port
  (∀ (s : State) (n : Fin 8) (st : Vector Byte 20) (g : Nat),
     s.on = true →
     s.rf AST_INJCTL.ARM = 0 →
     s.ast.held = [] →
     s.portUp n = true →
     ∃ t : State, exec (.statusReceive n st g) s = .next t ∧
       t.rf (GLK_CMDCNT.EXEC n) = st[5].toNat ∧
       (t.port n).lastStart = g ∧
       (t.port n).missRun = 0 ∧
       t.rn (GLK_PSTAT.adr n) = st[4].toNat * 2 ^ 24 + st[0].toNat * 2 ^ 16 + st[1].toNat % 64 * 2 ^ 8 + st[2].toNat / 64 % 2 * 2 ^ 7 + st[3].toNat / 128 * 2 ^ 6 + st[2].toNat / 8 % 8 * 2 ^ 3 + st[2].toNat % 8 ∧
       (s.portTe n = true → st[3].toNat < 128 → t.portSt n = glLock ∧ t.rf (GLK_LEGHOLD.TIME n) = 1)) ∧
  -- a fresh DESAT
  (∀ (s : State) (n : Fin 8) (l : Fin 3) (st : Vector Byte 20) (g : Nat),
     s.on = true →
     s.rf AST_INJCTL.ARM = 0 →
     s.ast.held = [] →
     s.portUp n = true →
     s.portTe n = false →
     st[1].toNat % 64 = 0 →
     st[2].toNat = 2 ^ l.val →
     st[3].toNat = 0 →
     toSigned 8 (st[4].toNat) < toSigned 8 (s.rf (GLK_STATCFG.TWARN n)) →
     s.rf (GLK_LEGHOLD.LEGn n) = 0 →
     s.rb (GLK_LEGHOLD.OTSD n) = false →
     (s.port n).hot = false →
     (∀ i : Fin 8, s.rn (GLK_LEGHOLD.adr i) = 0 ∧ (s.port i).hot = false) →
     s.linkBank n = true →
     s.asserted 65 = false →
     s.asserted 66 = false →
     s.asserted 72 = false →
     ∃ t : State, exec (.statusReceive n st g) s = .next t ∧
       t.holdByte n l = 1 ∧
       (∀ j : Fin 3, j ≠ l → t.holdByte n j = 0) ∧
       Raised s t 67 (n + 2 ^ l.val * 256) ∧
       t.rf (GLK_CMDCNT.EXEC n) = st[5].toNat ∧
       (t.port n).lastStart = g ∧
       (t.port n).missRun = 0 ∧
       (s.rf (PWM_LEGSET.MODE (3 * n + l)) = modeComp → t.rf (PWM_LEGSTAT.PRIMED (3 * n + l)) = 0)) ∧
  -- a discarded frame
  (∀ (s : State) (n : Fin 8),
     s.on = true →
     s.gt < (s.port n).lastStart + 4980 →
     s.rf AST_INJCTL.ARM = 0 →
     s.ast.held = [] →
     ∃ t : State, exec (.upstreamFrameDiscard n) s = .next t ∧
       t.rf (GLK_ERRCNT.CRCERR n) = min (s.rf (GLK_ERRCNT.CRCERR n) + 1) 65535 ∧
       RegsBut [GLK_ERRCNT.CRCERR n] s t ∧
       t = { s with regs := t.regs, free := t.free }) ∧
  -- a missing frame
  (∀ (s : State) (n : Fin 8),
     s.portUp n = true →
     (s.port n).lastStart + 5020 ≤ s.gt →
     (s.port n).missRun < 2 →
     (s.port n).setsDue = [] →
     ∃ t : State, exec (.statusMissing n) s = .next t ∧
       t.rf (GLK_ERRCNT.MISSED n) = min (s.rf (GLK_ERRCNT.MISSED n) + 1) 65535 ∧
       (t.port n).missRun = (s.port n).missRun + 1 ∧
       (t.port n).lastStart = (s.port n).lastStart + 5020 ∧
       RegsBut [GLK_ERRCNT.MISSED n] s t ∧
       t = { s with regs := t.regs, glk := t.glk }) ∧
  -- the third missing frame, whatever bank the port carries (R124)
  (∀ (s : State) (n : Fin 8),
     s.portUp n = true →
     (s.port n).lastStart + 5020 ≤ s.gt →
     (s.port n).missRun = 2 →
     (s.port n).setsDue = [] →
     ∃ t : State, exec (.statusMissing n) s = .next t ∧
       t.portSt n = glLock ∧
       t.rf (GLK_LEGHOLD.LINK n) = 1 ∧
       t.rf (GLK_LEGHOLD.NOTUP n) = 1 ∧
       t.rf (GLK_LINKSTAT.TRIES n) = 1 ∧
       Raised s t 64 n) ∧
  -- the third missing frame (R124)
  (∀ (s : State) (n : Fin 8),
     s.portUp n = true →
     (s.port n).lastStart + 5020 ≤ s.gt →
     (s.port n).missRun = 2 →
     (s.port n).setsDue = [] →
     s.linkBank n = false →
     ∃ t : State, exec (.statusMissing n) s = .next t ∧
       t.portSt n = glLock ∧
       t.rf (GLK_LEGHOLD.LINK n) = 1 ∧
       t.rf (GLK_LEGHOLD.NOTUP n) = 1 ∧
       t.rf (GLK_SAMPSTAT.VALID n) = 0 ∧
       t.rf (GLK_LINKSTAT.TRIES n) = 1 ∧
       Raised s t 64 n) ∧
  -- any missing frame
  (∀ (s : State) (n : Fin 8),
     s.portUp n = true →
     (s.port n).lastStart + 5020 ≤ s.gt →
     (s.port n).missRun < 2 →
     ∃ t : State, exec (.statusMissing n) s = .next t ∧
       t.rf (GLK_ERRCNT.MISSED n) = min (s.rf (GLK_ERRCNT.MISSED n) + 1) 65535 ∧
       (t.port n).missRun = (s.port n).missRun + 1 ∧
       (t.port n).lastStart = (s.port n).lastStart + 5020 ∧
       t.portUp n = true ∧
       t.outbox = s.outbox)

/-- MAILBOX_REQUEST_TAKE of a request in the SPI buffer, channel 0 next in turn: REQS counts and CHLAST holds its opcode
and tag; a wrong CHK, an opcode of no command and a length that Table HMB-6 does not allow are answered BAD_CHECK,
UNKNOWN_OPCODE and BAD_LENGTH, the first and last counted in ERRS; one that group, state or exclusion refuse is
answered with that status (R391); any other waits as its command. A repeat is answered again with the last response
and not executed (R389); a message with RESP is discarded. A mailbox command that its channel's taken request is not,
or before which another taken request has yet to act, changes nothing (R392). Every mailbox command's request, as
Table HMB-6 lays it out, has a right CHK and stands for that command (R390). MAILBOX_REQUEST_TAKE serves the channels
in turn: it takes the request of the next channel after the one last served that has one. -/
def Obligations.MailboxRequests : Prop :=
  -- a wrong CHK
  (∀ (s : State) (m : List Byte),
     s.serves = true →
     s.hmb.served = 7 →
     s.takeable 0 = some m →
     (leAt m 8 1).testBit 0 = false →
     s.isRepeat 0 m = false →
     chkOk m = false →
     ∃ t : State, exec (.mailboxRequestTake) s = .next t ∧
       t.spi.rsp = some (hmbBytes (leAt m 0 2) (leAt m 2 2) stBadCheck (respFlags false ((opRow (leAt m 0 2)).any (·.module))) s.otp.lane []) ∧
       t.rf (HMB_CHCNT.REQS 0) = (s.rf (HMB_CHCNT.REQS 0) + 1) % 2 ^ 32 ∧
       t.rf (HMB_CHSTAT.ERRS 0) = min (s.rf (HMB_CHSTAT.ERRS 0) + 1) 255 ∧
       t.rf (HMB_CHSTAT.STATUS 0) = stBadCheck ∧
       (t.chan 0).run = none ∧
       t.spi.req = none) ∧
  -- an unknown opcode
  (∀ (s : State) (m : List Byte),
     s.serves = true →
     s.hmb.served = 7 →
     s.takeable 0 = some m →
     (leAt m 8 1).testBit 0 = false →
     s.isRepeat 0 m = false →
     chkOk m = true →
     leAt m 4 2 ≤ 1024 →
     opRow (leAt m 0 2) = none →
     ∃ t : State, exec (.mailboxRequestTake) s = .next t ∧
       t.spi.rsp = some (hmbBytes (leAt m 0 2) (leAt m 2 2) stUnknownOpcode (respFlags false ((opRow (leAt m 0 2)).any (·.module))) s.otp.lane []) ∧
       t.rf (HMB_CHSTAT.ERRS 0) = s.rf (HMB_CHSTAT.ERRS 0) ∧
       t.rf (HMB_CHSTAT.STATUS 0) = stUnknownOpcode ∧
       (t.chan 0).run = none) ∧
  -- a length not allowed
  (∀ (s : State) (m : List Byte) (row : OpRow),
     s.serves = true →
     s.hmb.served = 7 →
     s.takeable 0 = some m →
     (leAt m 8 1).testBit 0 = false →
     s.isRepeat 0 m = false →
     chkOk m = true →
     opRow (leAt m 0 2) = some row →
     (leAt m 4 2 < row.min ∨ row.max < leAt m 4 2) →
     leAt m 4 2 ≤ 1024 →
     ∃ t : State, exec (.mailboxRequestTake) s = .next t ∧
       t.spi.rsp = some (hmbBytes (leAt m 0 2) (leAt m 2 2) stBadLength (respFlags false ((opRow (leAt m 0 2)).any (·.module))) s.otp.lane []) ∧
       t.rf (HMB_CHSTAT.ERRS 0) = min (s.rf (HMB_CHSTAT.ERRS 0) + 1) 255 ∧
       t.rf (HMB_CHSTAT.STATUS 0) = stBadLength ∧
       (t.chan 0).run = none) ∧
  -- a request refused by group, state or exclusion
  (∀ (s : State) (m : List Byte) (row : OpRow) (code : Nat),
     s.serves = true →
     s.hmb.served = 7 →
     s.takeable 0 = some m →
     (leAt m 8 1).testBit 0 = false →
     s.isRepeat 0 m = false →
     chkOk m = true →
     opRow (leAt m 0 2) = some row →
     row.min ≤ leAt m 4 2 →
     leAt m 4 2 ≤ row.max →
     (leAt m 4 2 - row.min) % row.step = 0 →
     leAt m 4 2 ≤ 1024 →
     s.gate 0 row = some code →
     ∃ t : State, exec (.mailboxRequestTake) s = .next t ∧
       t.spi.rsp = some (hmbBytes (leAt m 0 2) (leAt m 2 2) code (respFlags false ((opRow (leAt m 0 2)).any (·.module))) s.otp.lane []) ∧
       (t.chan 0).run = none ∧
       t.rf (HMB_CHSTAT.STATUS 0) = code % 65536) ∧
  -- an accepted request
  (∀ (s : State) (m : List Byte) (row : OpRow),
     s.serves = true →
     s.hmb.served = 7 →
     s.takeable 0 = some m →
     (leAt m 8 1).testBit 0 = false →
     s.isRepeat 0 m = false →
     chkOk m = true →
     opRow (leAt m 0 2) = some row →
     row.min ≤ leAt m 4 2 →
     leAt m 4 2 ≤ row.max →
     (leAt m 4 2 - row.min) % row.step = 0 →
     leAt m 4 2 ≤ 1024 →
     s.gate 0 row = none →
     ∃ t : State, exec (.mailboxRequestTake) s = .next t ∧
       (t.chan 0).run = some { op := row.op, tag := leAt m 2 2, takenAt := s.now, module := row.module, cmd := parseReq 0 (leAt m 0 2) (sliceB m 16 (leAt m 4 2)), seq := s.hmb.taken } ∧
       t.hmb.taken = s.hmb.taken + 1 ∧
       (t.chan 0).last = some (msgKey m) ∧
       t.spi.rsp = s.spi.rsp ∧
       t.spi.req = none ∧
       t.hmb.served = 0 ∧
       t.rf (HMB_CHLAST.OPCODE 0) = leAt m 0 2 ∧
       t.rf (HMB_CHLAST.TAG 0) = leAt m 2 2 ∧
       (row.exclusive = true → t.rb HMB_SUMMARY.LONG = true ∧ t.rf HMB_SUMMARY.LONGOP = row.op ∧ (t.rf TSK_OUTREQ.REQ).testBit 0 = false ∧ (t.rf TSK_OUTREQ.REQ).testBit 4 = false)) ∧
  -- a repeat
  (∀ (s : State) (m : List Byte),
     s.serves = true →
     s.hmb.served = 7 →
     s.takeable 0 = some m →
     (leAt m 8 1).testBit 0 = false →
     s.isRepeat 0 m = true →
     ∃ t : State, exec (.mailboxRequestTake) s = .next t ∧
       t.spi.rsp = some (s.chan 0).lastResp ∧
       t.spi.req = none ∧
       (t.chan 0).run = (s.chan 0).run ∧
       RegsBut [SPI_STAT.RSPRDY, SPI_STAT.RSPLEN, SPI_STAT.REQFULL] s t) ∧
  -- a message with RESP
  (∀ (s : State) (m : List Byte),
     s.serves = true →
     s.hmb.served = 7 →
     s.takeable 0 = some m →
     (leAt m 8 1).testBit 0 = true →
     ∃ t : State, exec (.mailboxRequestTake) s = .next t ∧
       t.spi = { s.spi with req := none } ∧
       (t.chan 0).run = (s.chan 0).run ∧
       RegsBut [SPI_STAT.REQFULL] s t) ∧
  -- every mailbox command's request
  (∀ (i : Instr) (c : Fin 8) (op tag : Nat) (p : List Byte), i.wf = true → mailReq i = some (c, op, p) → tag < 65536 →
     chkOk (hmbBytes op tag 0 0 0 p) = true ∧ msgKey (hmbBytes op tag 0 0 0 p) = (op, tag, leAt (hmbBytes op tag 0 0 0 p) 12 4) ∧
     leAt (hmbBytes op tag 0 0 0 p) 4 2 = p.length ∧ (hmbBytes op tag 0 0 0 p).drop 16 = p ∧
     (∃ row, opRow op = some row ∧ row.min ≤ p.length ∧ p.length ≤ row.max ∧ (p.length - row.min) % row.step = 0) ∧
     parseReq c op p = some i) ∧
  -- a mailbox command whose turn has not come, or that is not the request its channel runs
  (∀ (i : Instr) (s : State) (c : Fin 8) (op : Nat) (p : List Byte) (r : HmbRun), mailReq i = some (c, op, p) → (s.chan c).run = some r →
     (r.cmd ≠ some i ∨ s.turnOf r.seq = false) → exec i s = .next s) ∧
  -- any request, in turn
  (∀ (s : State) (c : Nat) (m : List Byte),
     s.serves = true →
     ((List.range 8).map (fun i => (s.hmb.served + 1 + i) % 8)).findSome? (fun j => (s.takeable j).map (fun x => (j, x))) = some (c, m) →
     ∃ t : State, exec (.mailboxRequestTake) s = .next t ∧
       t = s.takeReq c m ∧
       t.hmb.served = c) ∧
  -- no request
  (∀ (s : State),
     s.serves = true →
     (∀ j : Fin 8, s.takeable j = none) →
     ∃ t : State, exec (.mailboxRequestTake) s = .next t ∧
       t = s)

/-- The final response of a request on the SPI channel stands in the response buffer whole, with its opcode, tag, status,
flags and CHK, RSPRDY and RSPLEN show it, the channel is free, and an exclusive command's hold ends (R390, R395,
R403). INTERIM_RESPONSE 1 ms after a request was taken: IN_PROGRESS with INTERIM (R393). RESPONSE_DROP on a queue
channel: without credit for 10 ms the response is dropped and counted in RSPDROP (R387). SPI_READ of the whole
response frees the buffer; SPI_WRITE of 16 to 1 040 bytes fills a free request buffer, any write to a full one counts
in OVR, another length in FRAMEERR (R403, R404). -/
def Obligations.MailboxAnswers : Prop :=
  -- the final response on the SPI channel
  (∀ (s : State) (r : HmbRun) (status : Nat) (pl : List Byte), (s.chan 0).run = some r → pl.length ≤ 1024 →
     (s.finish 0 status pl).spi.rsp = some (hmbBytes r.op r.tag status (respFlags false r.module) s.otp.lane pl) ∧
     (s.finish 0 status pl).rb SPI_STAT.RSPRDY = true ∧ (s.finish 0 status pl).rf SPI_STAT.RSPLEN = 16 + pl.length ∧
     ((s.finish 0 status pl).chan 0).run = none ∧ (s.finish 0 status pl).rf (HMB_CHSTAT.STATUS 0) = status % 65536 ∧
     (s.rb HMB_SUMMARY.LONG = true → s.rf HMB_SUMMARY.LONGCH = 0 → s.rf HMB_SUMMARY.LONGOP = r.op → (s.finish 0 status pl).rb HMB_SUMMARY.LONG = false) ∧
     RegsBut [SPI_STAT.RSPRDY, SPI_STAT.RSPLEN, HMB_CHSTAT.STATUS 0, whole HMB_SUMMARY.adr] s (s.finish 0 status pl)) ∧
  -- INTERIM_RESPONSE on the SPI channel
  (∀ (s : State) (q : HmbRun),
     (s.chan 0).run = some q →
     s.on = true →
     q.interim = false →
     q.takenAt + 1000000 ≤ s.now →
     ∃ t : State, exec (.interimResponse 0) s = .next t ∧
       t.spi.rsp = some (hmbBytes q.op q.tag stInProgress (respFlags true q.module) s.otp.lane []) ∧
       t.spi.rspInterim = true ∧
       (t.chan 0).run = some { q with interim := true } ∧
       t.rb SPI_STAT.RSPRDY = true ∧
       t.rf SPI_STAT.RSPLEN = 16 ∧
       RegsBut [SPI_STAT.RSPRDY, SPI_STAT.RSPLEN] s t) ∧
  -- RESPONSE_DROP without credit
  (∀ (s : State) (ch : Fin 8) (l : List Byte) (t0 : Nat) (rest : List (List Byte × Nat)),
     s.on = true →
     (s.chan ch).wait = (l, t0) :: rest →
     s.postBytes (s.rf (HMB_CHPATH.RSP ch)) l = none →
     t0 + 10000000 ≤ s.now →
     s.sec.resetDue = none →
     ∃ t : State, exec (.responseDrop ch) s = .next t ∧
       (t.chan ch).wait = rest ∧
       t.rf (HMB_CHSTAT.RSPDROP ch) = min (s.rf (HMB_CHSTAT.RSPDROP ch) + 1) 255 ∧
       RegsBut [HMB_CHSTAT.RSPDROP ch] s t ∧
       t = { s with regs := t.regs, hmb := t.hmb }) ∧
  -- RESPONSE_DROP with credit come
  (∀ (s : State) (ch : Fin 8) (l : List Byte) (t0 : Nat) (u : State),
     s.on = true →
     (s.chan ch).wait = [(l, t0)] →
     s.postBytes (s.rf (HMB_CHPATH.RSP ch)) l = some u →
     s.sec.resetDue = none →
     ∃ t : State, exec (.responseDrop ch) s = .next t ∧
       (t.chan ch).wait = [] ∧
       t.regs = u.regs ∧
       t.mem = u.mem) ∧
  -- SPI_WRITE into a free buffer
  (∀ (s : State) (m : List Byte),
     s.spiOn = true →
     16 ≤ m.length →
     m.length ≤ 1040 →
     s.spi.req = none →
     ∃ t : State, exec (.spiWrite m) s = .next t ∧
       t.spi.req = some m ∧
       t.spi.err = false ∧
       t.rb SPI_STAT.REQFULL = true ∧
       Sent s t [.miso s.spiHead] ∧
       RegsBut [SPI_STAT.REQFULL] s t) ∧
  -- SPI_WRITE into a full one
  (∀ (s : State) (m : List Byte),
     s.spiOn = true →
     16 ≤ m.length →
     m.length ≤ 1040 →
     s.spi.req ≠ none →
     ∃ t : State, exec (.spiWrite m) s = .next t ∧
       t.spi = { s.spi with err := true } ∧
       t.rf SPI_STAT.OVR = min (s.rf SPI_STAT.OVR + 1) 255 ∧
       Sent s t [.miso s.spiHead] ∧
       RegsBut [SPI_STAT.OVR] s t) ∧
  -- SPI_WRITE of another length into a full buffer
  (∀ (s : State) (m : List Byte),
     s.spiOn = true →
     (m.length < 16 ∨ 1040 < m.length) →
     s.spi.req ≠ none →
     ∃ t : State, exec (.spiWrite m) s = .next t ∧
       t.spi = { s.spi with err := true } ∧
       t.rf SPI_STAT.OVR = min (s.rf SPI_STAT.OVR + 1) 255 ∧
       t.rf SPI_STAT.FRAMEERR = min (s.rf SPI_STAT.FRAMEERR + 1) 255 ∧
       RegsBut [SPI_STAT.OVR, SPI_STAT.FRAMEERR] s t) ∧
  -- SPI_WRITE of another length into a free one
  (∀ (s : State) (m : List Byte),
     s.spiOn = true →
     (m.length < 16 ∨ 1040 < m.length) →
     s.spi.req = none →
     ∃ t : State, exec (.spiWrite m) s = .next t ∧
       t.spi = { s.spi with err := true } ∧
       t.rf SPI_STAT.FRAMEERR = min (s.rf SPI_STAT.FRAMEERR + 1) 255 ∧
       RegsBut [SPI_STAT.FRAMEERR] s t) ∧
  -- SPI_FRAME_ERROR: a write cut short, or with a bad COUNT, that finds the buffer full
  (∀ (s : State) (e : SpiError),
     s.spiOn = true →
     e ≠ .unknownCmd →
     s.spi.req ≠ none →
     ∃ t : State, exec (.spiFrameError e) s = .next t ∧
       t.spi = { s.spi with err := true } ∧
       t.rf SPI_STAT.OVR = min (s.rf SPI_STAT.OVR + 1) 255 ∧
       t.rf SPI_STAT.FRAMEERR = min (s.rf SPI_STAT.FRAMEERR + 1) 255 ∧
       RegsBut [SPI_STAT.OVR, SPI_STAT.FRAMEERR] s t) ∧
  -- SPI_FRAME_ERROR: any other
  (∀ (s : State) (e : SpiError),
     s.spiOn = true →
     (e = .unknownCmd ∨ s.spi.req = none) →
     ∃ t : State, exec (.spiFrameError e) s = .next t ∧
       t.spi = { s.spi with err := true } ∧
       t.rf SPI_STAT.FRAMEERR = min (s.rf SPI_STAT.FRAMEERR + 1) 255 ∧
       RegsBut [SPI_STAT.FRAMEERR] s t) ∧
  -- SPI_READ of a whole response
  (∀ (s : State) (n : Fin 65536) (l : List Byte),
     s.spiOn = true →
     s.spi.rsp = some l →
     l.length ≤ n.val →
     s.sec.resetDue = none →
     ∃ t : State, exec (.spiRead n) s = .next t ∧
       Sent s t [.miso (s.spiHead ++ padTo n.val l)] ∧
       t.spi = { s.spi with rsp := none, rspInterim := false, err := false } ∧
       t.rb SPI_STAT.RSPRDY = false ∧
       t.rf SPI_STAT.RSPLEN = 0 ∧
       RegsBut [SPI_STAT.RSPRDY, SPI_STAT.RSPLEN] s t) ∧
  -- SPI_READ of a part, or of none
  (∀ (s : State) (n : Fin 65536),
     s.spiOn = true →
     s.spi.rsp.all (fun l => decide (n.val < l.length)) = true →
     ∃ t : State, exec (.spiRead n) s = .next t ∧
       Sent s t [.miso (s.spiHead ++ padTo n.val (s.spi.rsp.getD []))] ∧
       t = { s with spi := { s.spi with err := false }, outbox := t.outbox }) ∧
  -- SPI_POLL
  (∀ (s : State),
     s.spiOn = true →
     ∃ t : State, exec (.spiPoll) s = .next t ∧
       Sent s t [.miso s.spiHead] ∧
       t = { s with spi := { s.spi with err := false }, outbox := t.outbox })

/-- CAN_RECEIVE at a running controller: a frame that finds two free entries in RXQ is posted as the record of Table HMB-7
in its two entries; one that finds fewer is dropped and counts in RXDROP (R406). CAN_TRANSMIT of a due record: its two
entries are taken and returned and the frame is sent. An error in a frame received or sent counts in REC or TEC, which
make the controller error active or passive, and TEC past 255 bus-off (ISO 11898-1). CAN_BUS_OFF stops the controller
with STATE 3; CAN_START from there begins recovery, and BUS_OFF_RECOVERY makes it error active with both counters 0;
CAN_START of a stopped controller starts it, error passive where a kept counter is 128 or more, CAN_STOP stops a
running one (R407). The moves of TEC and REC and the states they give are ISO 11898-1's, outside the spec, and a
record the controller cannot send goes back unsent: the model's, log entry 13 (PRESUMED). A frame that finds room in a
queue in use is stored, also where the queue raises its interrupt or its entries wrap. -/
def Obligations.CanControllers : Prop :=
  -- a received frame with room
  (∀ (s : State) (n : Fin 2) (f : CanFrame) (q : Nat),
     s.on = true →
     s.canRuns n = true →
     s.canTakes n f.id = true →
     f.fault = .none →
     s.rf (CAN_CFG.RXQ n) = q →
     2 ≤ s.free_ q →
     s.rb (QUE_CFG.EN q) = true →
     s.rb (QUE_STAT.ADMIT q) = true →
     s.rb (QUE_CFG.IRQEN q) = false →
     s.entryAt q (s.inflight q) + 64 = s.entryAt q (s.inflight q + 1) →
     s.inflight q + 2 < 8192 →
     ∃ t : State, exec (.canReceive n f) s = .next t ∧
       t.free_ q = s.free_ q - 2 ∧
       t.inflight q = s.inflight q + 2 ∧
       t.memBytes (s.entryAt q (s.inflight q)) 128 = canRecord f ∧
       MemBut (s.entryAt q (s.inflight q)) 128 s t ∧
       t.rf (CAN_STAT.REC n) = (if 127 < s.rf (CAN_STAT.REC n) then 127 else s.rf (CAN_STAT.REC n) - 1) ∧
       t.canSt n = (if 128 ≤ t.rf (CAN_STAT.TEC n) ∨ 128 ≤ t.rf (CAN_STAT.REC n) then canPassive else canActive) ∧
       RegsBut [QUE_CNT.FREE q, QUE_CNT.INFLIGHT q, QUE_STAT.LASTPOST q, CAN_STAT.REC n, CAN_STAT.STATE n] s t) ∧
  -- a received frame without room
  (∀ (s : State) (n : Fin 2) (f : CanFrame) (q : Nat),
     s.on = true →
     s.canRuns n = true →
     s.canTakes n f.id = true →
     f.fault = .none →
     s.rf (CAN_CFG.RXQ n) = q →
     s.free_ q < 2 →
     ∃ t : State, exec (.canReceive n f) s = .next t ∧
       t.rf (CAN_STAT.RXDROP n) = min (s.rf (CAN_STAT.RXDROP n) + 1) 255 ∧
       t.rf (CAN_STAT.REC n) = (if 127 < s.rf (CAN_STAT.REC n) then 127 else s.rf (CAN_STAT.REC n) - 1) ∧
       t.canSt n = (if 128 ≤ t.rf (CAN_STAT.TEC n) ∨ 128 ≤ t.rf (CAN_STAT.REC n) then canPassive else canActive) ∧
       t.mem = s.mem ∧
       RegsBut [CAN_STAT.RXDROP n, CAN_STAT.REC n, CAN_STAT.STATE n] s t) ∧
  -- a received frame with an error
  (∀ (s : State) (n : Fin 2) (f : CanFrame),
     s.on = true →
     s.canRuns n = true →
     s.canTakes n f.id = true →
     (f.fault = .error ∨ f.fault = .heavy) →
     ∃ t : State, exec (.canReceive n f) s = .next t ∧
       t.rf (CAN_STAT.REC n) = min 255 (s.rf (CAN_STAT.REC n) + (if f.fault = .error then 1 else 8)) ∧
       t.canSt n = (if 128 ≤ t.rf (CAN_STAT.TEC n) ∨ 128 ≤ t.rf (CAN_STAT.REC n) then canPassive else canActive) ∧
       t = { s with regs := t.regs } ∧
       RegsBut [CAN_STAT.REC n, CAN_STAT.STATE n] s t) ∧
  -- a received frame whose error counts nothing
  (∀ (s : State) (n : Fin 2) (f : CanFrame),
     f.fault = .free →
     ∃ t : State, exec (.canReceive n f) s = .next t ∧
       t = s) ∧
  -- a record due, with an error in sending it
  (∀ (s : State) (n : Fin 2) (l : List Byte),
     s.canDue n = some l →
     s.on = true →
     s.canRuns n = true →
     s.canTakes n (leAt l 0 4) = true →
     s.rf (CAN_STAT.TEC n) ≤ 247 →
     ∃ t : State, exec (.canTransmit ⟨n, .error⟩) s = .next t ∧
       t.rf (CAN_STAT.TEC n) = s.rf (CAN_STAT.TEC n) + 8 ∧
       t.canSt n = (if 128 ≤ t.rf (CAN_STAT.TEC n) ∨ 128 ≤ t.rf (CAN_STAT.REC n) then canPassive else canActive) ∧
       t = { s with regs := t.regs } ∧
       RegsBut [CAN_STAT.TEC n, CAN_STAT.STATE n] s t) ∧
  -- a record due, with the error that takes TEC past 255
  (∀ (s : State) (n : Fin 2) (l : List Byte) (q : Nat),
     s.canDue n = some l →
     s.on = true →
     s.canRuns n = true →
     s.canTakes n (leAt l 0 4) = true →
     248 ≤ s.rf (CAN_STAT.TEC n) →
     s.rf (CAN_CFG.TXQ n) = q →
     s.free_ q + 2 < 8192 →
     s.held q + 2 < 8192 →
     ∃ t : State, exec (.canTransmit ⟨n, .error⟩) s = .next t ∧
       t.canSt n = canOff ∧
       t.rf (CAN_STAT.TEC n) = 255 ∧
       t.free_ q = s.free_ q + 2 ∧
       t.inflight q = s.inflight q - 2 ∧
       t.outbox = s.outbox ∧
       RegsBut [QUE_CNT.FREE q, QUE_CNT.INFLIGHT q, QUE_POS.CIDX q, CAN_STAT.TEC n, CAN_STAT.STATE n] s t) ∧
  -- a record due that the controller cannot send
  (∀ (s : State) (n : Fin 2) (k : CanFault) (l : List Byte) (q : Nat),
     s.canDue n = some l →
     s.on = true →
     s.canRuns n = true →
     s.canTakes n (leAt l 0 4) = false →
     s.rf (CAN_CFG.TXQ n) = q →
     s.free_ q + 2 < 8192 →
     s.held q + 2 < 8192 →
     ∃ t : State, exec (.canTransmit ⟨n, k⟩) s = .next t ∧
       t.outbox = s.outbox ∧
       t.free_ q = s.free_ q + 2 ∧
       t.inflight q = s.inflight q - 2 ∧
       RegsBut [QUE_CNT.FREE q, QUE_CNT.INFLIGHT q, QUE_POS.CIDX q] s t) ∧
  -- a record due
  (∀ (s : State) (n : Fin 2) (l : List Byte) (q : Nat),
     s.canDue n = some l →
     s.on = true →
     s.canRuns n = true →
     s.canTakes n (leAt l 0 4) = true →
     s.rf (CAN_CFG.TXQ n) = q →
     s.free_ q + 2 < 8192 →
     s.held q + 2 < 8192 →
     ∃ t : State, exec (.canTransmit ⟨n, .none⟩) s = .next t ∧
       Sent s t [.can n (l.take 80)] ∧
       t.free_ q = s.free_ q + 2 ∧
       t.inflight q = s.inflight q - 2 ∧
       t.held q = s.held q ∧
       t.cidx q = (s.cidx q + 2) % s.queSize q % 4096 ∧
       t.rf (CAN_STAT.TEC n) = s.rf (CAN_STAT.TEC n) - 1 ∧
       t.canSt n = (if 128 ≤ t.rf (CAN_STAT.TEC n) ∨ 128 ≤ t.rf (CAN_STAT.REC n) then canPassive else canActive) ∧
       RegsBut [QUE_CNT.FREE q, QUE_CNT.INFLIGHT q, QUE_POS.CIDX q, CAN_STAT.TEC n, CAN_STAT.STATE n] s t) ∧
  -- bus-off
  (∀ (s : State) (n : Fin 2),
     s.on = true →
     s.canRuns n = true →
     s.canDue n = none →
     248 ≤ s.rf (CAN_STAT.TEC n) →
     ∃ t : State, exec (.canBusOff n) s = .next t ∧
       t.canSt n = canOff ∧
       t.rf (CAN_STAT.TEC n) = 255 ∧
       RegsBut [CAN_STAT.STATE n, CAN_STAT.TEC n] s t ∧
       t = { s with regs := t.regs }) ∧
  -- bus-off while a record is being sent
  (∀ (s : State) (n : Fin 2) (l : List Byte) (q : Nat),
     s.on = true →
     s.canRuns n = true →
     s.canDue n = some l →
     248 ≤ s.rf (CAN_STAT.TEC n) →
     s.rf (CAN_CFG.TXQ n) = q →
     s.free_ q + 2 < 8192 →
     s.held q + 2 < 8192 →
     ∃ t : State, exec (.canBusOff n) s = .next t ∧
       t.canSt n = canOff ∧
       t.rf (CAN_STAT.TEC n) = 255 ∧
       t.free_ q = s.free_ q + 2 ∧
       t.inflight q = s.inflight q - 2 ∧
       t.outbox = s.outbox ∧
       RegsBut [QUE_CNT.FREE q, QUE_CNT.INFLIGHT q, QUE_POS.CIDX q, CAN_STAT.STATE n, CAN_STAT.TEC n] s t) ∧
  -- start of a stopped controller
  (∀ (s : State) (req : Fin 32) (n : Fin 2),
     s.on = true →
     s.mayWrite req (45 + n) false = true →
     s.rb (CAN_CFG.EN n) = true →
     s.canSt n = canStopped →
     ∃ t : State, exec (.canStart req n) s = .next t ∧
       t.canSt n = (if 128 ≤ s.rf (CAN_STAT.TEC n) ∨ 128 ≤ s.rf (CAN_STAT.REC n) then canPassive else canActive) ∧
       RegsBut [CAN_STAT.STATE n] s t ∧
       t = { s with regs := t.regs }) ∧
  -- start in bus-off
  (∀ (s : State) (req : Fin 32) (n : Fin 2),
     s.on = true →
     s.mayWrite req (45 + n) false = true →
     s.rb (CAN_CFG.EN n) = true →
     s.canSt n = canOff →
     ∃ t : State, exec (.canStart req n) s = .next t ∧
       t.canRec.testBit n = true ∧
       t = { s with canRec := t.canRec }) ∧
  -- stop of a running controller
  (∀ (s : State) (req : Fin 32) (n : Fin 2),
     s.on = true →
     s.mayWrite req (45 + n) false = true →
     s.canRuns n = true →
     ∃ t : State, exec (.canStop req n) s = .next t ∧
       t.canSt n = canStopped ∧
       RegsBut [CAN_STAT.STATE n] s t) ∧
  -- the end of recovery
  (∀ (s : State) (n : Fin 2),
     s.on = true →
     s.canSt n = canOff →
     s.canRec.testBit n = true →
     ∃ t : State, exec (.busOffRecovery n) s = .next t ∧
       t.canSt n = canActive ∧
       t.rf (CAN_STAT.TEC n) = 0 ∧
       t.rf (CAN_STAT.REC n) = 0 ∧
       t.canRec.testBit n = false ∧
       RegsBut [CAN_STAT.STATE n, CAN_STAT.TEC n, CAN_STAT.REC n] s t) ∧
  -- a start by another requester
  (∀ (s : State) (req : Fin 32) (n : Fin 2),
     s.on = true →
     s.mayWrite req (45 + n) false = false →
     ∃ t : State, exec (.canStart req n) s = .next t ∧
       Discarded s t (CAN_CTL.adr n) req 1) ∧
  -- a stop by another requester
  (∀ (s : State) (req : Fin 32) (n : Fin 2),
     s.on = true →
     s.mayWrite req (45 + n) false = false →
     ∃ t : State, exec (.canStop req n) s = .next t ∧
       Discarded s t (CAN_CTL.adr n) req 1) ∧
  -- any received frame with room
  (∀ (s : State) (n : Fin 2) (f : CanFrame) (q : Fin 128),
     s.on = true →
     s.canRuns n = true →
     s.canTakes n f.id = true →
     f.fault = .none →
     s.rf (CAN_CFG.RXQ n) = q →
     2 ≤ s.free_ q →
     s.rb (QUE_CFG.EN q) = true →
     s.rb (QUE_STAT.ADMIT q) = true →
     s.inflight q + 2 < 8192 →
     ∃ t : State, exec (.canReceive n f) s = .next t ∧
       t.free_ q = s.free_ q - 2 ∧
       t.inflight q = s.inflight q + 2 ∧
       t.rf (CAN_STAT.REC n) = (if 127 < s.rf (CAN_STAT.REC n) then 127 else s.rf (CAN_STAT.REC n) - 1))

/-- A REGISTER_WRITE to a Headstock-owned register by any other requester (R25) changes nothing but the access capture and
the raise of 7 LANE_GRANT_VIOLATION, with KIND 2; SPN_LEDGER_CLR, PMU_WDKICK, the arbiters' slot tables and the
Headstock's firmware sources have commands of their own. -/
def Obligations.RegisterOwnership : Prop :=
  -- any Headstock-owned register
  (∀ (s : State) (req : Fin 32) (a : Nat) (v : Word) (e : Bool) (row : RegRow) (i : Nat) (j : Nat),
     s.on = true →
     req.val ≠ 1 →
     regRow a = some (row, i, j) →
     row.own = .headstock →
     s.noEndpoint a = false →
     ∃ t : State, exec (.registerWrite req a v e) s = .next t ∧
       Discarded s t a req 2) ∧
  -- the ledger clear
  (∀ (s : State) (req : Fin 32) (v : Word),
     s.on = true →
     req.val ≠ 1 →
     ∃ t : State, exec (.spnLedgerClr req v) s = .next t ∧
       Discarded s t SPN_LEDGER_CLR.adr req 2) ∧
  -- a watchdog kick
  (∀ (s : State) (req : Fin 32) (v : Word),
     s.on = true →
     req.val ≠ 1 →
     ∃ t : State, exec (.pmuWdkick req v) s = .next t ∧
       Discarded s t PMU_WDKICK.adr req 2) ∧
  -- a slot table
  (∀ (s : State) (req : Fin 32) (b : Fin 34) (k : Fin 2) (w : Fin 16) (v : Word),
     s.on = true →
     req.val ≠ 1 →
     ∃ t : State, exec (.arbTableWrite req b k w v) s = .next t ∧
       Discarded s t (ARB_TBL.adr b (16 * k.val + w.val)) req 2) ∧
  -- a Headstock firmware source
  (∀ (s : State) (req : Fin 32) (v : Word),
     s.on = true →
     req.val ≠ 1 →
     v.toNat % 16 < 6 →
     ∃ t : State, exec (.tlyFwraise req v) s = .next t ∧
       Discarded s t TLY_FWRAISE.adr req 2)

/-- A REGISTER_WRITE to a register of a grant unit, and each command that is such a write, changes nothing but the access
capture (KIND 1) and the raise of 7 when the requester does not hold the unit with an honoured grant and did not issue
the write before a move of the unit began. A REGISTER_WRITE to a register without an action of its own, by a requester
that may write it: each RW bit takes the value (where hardware sets none of them in the same instant), each W1C bit
written 1 clears unless hardware sets it in the same instant (R8), every other bit of the register and every other
register stay (R7). A store to lane SRAM outside every TX buffer writes the four bytes of its word, least significant
first, and nothing else (R4); that an unaligned address is taken as it is given is the model's choice (log entry 52). -/
def Obligations.RegisterUnits : Prop :=
  -- any register of a grant unit
  (∀ (s : State) (req : Fin 32) (a : Nat) (v : Word) (e : Bool) (row : RegRow) (i : Nat) (j : Nat) (u : Nat) (d : Nat),
     s.on = true →
     regRow a = some (row, i, j) →
     row.own = .granted u d →
     s.noEndpoint a = false →
     s.mayWrite req (u + i / d) e = false →
     ∃ t : State, exec (.registerWrite req a v e) s = .next t ∧
       Discarded s t a req 1) ∧
  -- PWM banks
  (∀ (s : State) (req : Fin 32) (b : Fin 8) (run : Bool),
     s.on = true →
     s.mayWrite req b false = false →
     ∃ t : State, exec (.bankRunWrite req b run) s = .next t ∧
       Discarded s t (PWM_BANKCTL.adr b) req 1) ∧
  -- PWM commits
  (∀ (s : State) (req : Fin 32) (b : Fin 8),
     s.on = true →
     s.mayWrite req b false = false →
     ∃ t : State, exec (.bankCommit req b) s = .next t ∧
       Discarded s t (PWM_BANKCTL.adr b) req 1) ∧
  -- feedback presets
  (∀ (s : State) (req : Fin 32) (n : Fin 16),
     s.on = true →
     s.mayWrite req (8 + n) false = false →
     ∃ t : State, exec (.fbcPreset req n) s = .next t ∧
       Discarded s t (FBC_CTL.adr n) req 1) ∧
  -- cleared suspicions
  (∀ (s : State) (req : Fin 32) (n : Fin 16),
     s.on = true →
     s.mayWrite req (8 + n) false = false →
     ∃ t : State, exec (.fbcClrsusp req n) s = .next t ∧
       Discarded s t (FBC_CTL.adr n) req 1) ∧
  -- strike enables
  (∀ (s : State) (req : Fin 32) (g : Fin 16) (v : Word),
     s.on = true →
     s.mayWrite req (24 + g) false = false →
     ∃ t : State, exec (.grpenWrite req g v) s = .next t ∧
       Discarded s t (SPN_GRPEN.adr g) req 1) ∧
  -- strike completions
  (∀ (s : State) (req : Fin 32) (m : Fin 256),
     s.on = true →
     s.mayWrite req (24 + m / 16) false = false →
     ∃ t : State, exec (.spnDone req m) s = .next t ∧
       Discarded s t SPN_DONE.adr req 1) ∧
  -- a plain register
  (∀ (s : State) (req : Fin 32) (a : Nat) (v : Word) (e : Bool) (row : RegRow) (i : Nat) (j : Nat),
     s.on = true →
     regRow a = some (row, i, j) →
     s.hwMask a &&& row.rw = 0 →
     s.noEndpoint a = false →
     s.writeKind req row i a v.toNat e = none →
     s.actWriteA row i a v.toNat = none →
     s.actWriteB req row i j a v.toNat e = none →
     ∃ t : State, exec (.registerWrite req a v e) s = .next t ∧
       (∀ k : Fin 32, (t.rn a).testBit k = (if row.rw.testBit k then v.toNat.testBit k else (s.rn a).testBit k && !(row.w1c.testBit k && v.toNat.testBit k && !(s.hwMask a).testBit k))) ∧
       RegsBut [whole a] s t ∧
       t = { s with regs := t.regs }) ∧
  -- lane SRAM
  (∀ (s : State) (req : Fin 32) (a : Nat) (v : Word) (e : Bool),
     s.on = true →
     0x20000000 ≤ a →
     a + 4 ≤ 0x20600000 →
     s.txFlows.find? (fun f => decide (s.flowBase f ≤ a) && decide (a < s.flowBase f + s.rf (ANW_FLOWBUF.LEN f))) = none →
     ∃ t : State, exec (.registerWrite req a v e) s = .next t ∧
       t.memWord a = v.toNat ∧
       MemBut a 4 s t ∧
       t = { s with mem := t.mem })

/-- ACCESS_FAULT: an access outside the lane's address map, or a write to boot ROM or flash, raises 6 LANE_ACCESS_FAULT
and is recorded with KIND 0 (R22, R23); a read returns 0. A REGISTER_WRITE there does the same, and one to a reserved
offset of a block changes nothing. LANE_GRANT of a unit that is not moving, not held by a service and not needed by
one, to another owner that Table LANE-4 allows: the unit's owner becomes NONE and the move waits, with no answer yet
(R30). GRANT_DRAIN_DONE ends the move: the new owner holds the unit, and the command is answered OK; stated where no
service waits for the unit and no queue is enabled, so that nothing else follows the move. LANE_GRANT of unit 63, or
to an owner not allowed, is refused with INVALID_OWNER and changes nothing (R28). -/
def Obligations.AccessFaultsAndGrants : Prop :=
  -- ACCESS_FAULT
  (∀ (s : State) (req : Fin 32) (a : Nat) (w : Bool),
     s.on = true →
     (reaches req a = false ∨ (w = true ∧ (region a = some 0 ∨ region a = some 4))) →
     ∃ t : State, exec (.accessFault req a w) s = .next t ∧
       Recorded s t a req 0 w ∧
       Raised s t 6 (faultDetail req 0 w) ∧
       (w = false → t.rdata = 0) ∧
       (w = true → t.rdata = s.rdata) ∧
       t = { s with regs := t.regs, tly := t.tly, rdata := t.rdata, lane := { s.lane with lastFault := t.lane.lastFault } }) ∧
  -- a store that reaches nothing
  (∀ (s : State) (req : Fin 32) (a : Nat) (v : Word) (e : Bool),
     s.on = true →
     (reaches req a = false ∨ region a = some 0 ∨ region a = some 4) →
     ∃ t : State, exec (.registerWrite req a v e) s = .next t ∧
       Recorded s t a req 0 true ∧
       Raised s t 6 (faultDetail req 0 true) ∧
       t = { s with regs := t.regs, tly := t.tly, lane := { s.lane with lastFault := t.lane.lastFault } }) ∧
  -- a store to a reserved offset
  (∀ (s : State) (req : Fin 32) (a : Nat) (v : Word) (e : Bool),
     s.on = true →
     region a = some 3 →
     regRow a = none →
     ∃ t : State, exec (.registerWrite req a v e) s = .next t ∧
       t = s) ∧
  -- the first step
  (∀ (s : State) (ch : Fin 8) (u : Byte) (o : Byte) (r : HmbRun),
     s.Asked ch (.laneGrant ch u o) r →
     u.toNat < 63 →
     unitAllows u.toNat o.toNat = true →
     s.svcUnit u.toNat = false →
     s.lane.moves.any (fun m => m.1 == u.toNat) = false →
     s.svcHeld.contains u.toNat = false →
     s.owner u.toNat ≠ o.toNat →
     ∃ t : State, exec (.laneGrant ch u o) s = .next t ∧
       t.rf (LANE_GRANT.OWNER u.toNat) = 0 ∧
       mget {} t.lane.moves u.toNat = { old := s.owner u.toNat, new := o.toNat, ch := some ch.val } ∧
       ((t.chan ch).run = some { r with cmd := none }) ∧
       RegsBut [LANE_GRANT.OWNER u.toNat] s t ∧
       t = { s with regs := t.regs, lane := t.lane, hmb := t.hmb }) ∧
  -- the refusal of R28
  (∀ (s : State) (ch : Fin 8) (u : Byte) (o : Byte) (r : HmbRun),
     s.Asked ch (.laneGrant ch u o) r →
     u.toNat ≤ 63 →
     (u.toNat = 63 ∨ unitAllows u.toNat o.toNat = false) →
     ∃ t : State, exec (.laneGrant ch u o) s = .next (t.finish ch stInvalidOwner []) ∧
       t = s.taken ch r) ∧
  -- the second step, of a command
  (∀ (s : State) (u : Fin 64) (m : GrantMove) (c : Nat),
     s.on = true →
     s.lane.moves.find? (fun x => x.1 == u.val) = some (u.val, m) →
     m.ch = some c →
     m.next = none →
     s.svc.prog = [] →
     s.svc.wind.prog = [] →
     s.svc.circ.prog = [] →
     (∀ q : Fin 128, s.rb (QUE_CFG.EN q) = false) →
     ∃ t : State, exec (.grantDrainDone u) s = .next t ∧
       t = ({ s.wf (LANE_GRANT.OWNER u) m.new with lane := { s.lane with moves := mdel s.lane.moves u } }).finish c stOk [] ∧
       t.rf (LANE_GRANT.OWNER u) = m.new % 32) ∧
  -- the second step, of a service or an activation
  (∀ (s : State) (u : Fin 64) (m : GrantMove),
     s.on = true →
     s.lane.moves.find? (fun x => x.1 == u.val) = some (u.val, m) →
     m.ch = none →
     m.next = none →
     s.svc.prog = [] →
     s.svc.wind.prog = [] →
     s.svc.circ.prog = [] →
     (∀ q : Fin 128, s.rb (QUE_CFG.EN q) = false) →
     ∃ t : State, exec (.grantDrainDone u) s = .next t ∧
       t.rf (LANE_GRANT.OWNER u) = m.new % 32 ∧
       t.lane.moves = mdel s.lane.moves u ∧
       RegsBut [LANE_GRANT.OWNER u] s t ∧
       t = { s with regs := t.regs, lane := t.lane }) ∧
  -- the second step of a unit that is bound further: it moves on at once
  (∀ (s : State) (u : Fin 64) (m : GrantMove) (o : Nat),
     s.on = true →
     s.lane.moves = [(u.val, m)] →
     m.ch = none →
     m.next = some o →
     m.new < 32 →
     m.new ≠ o →
     s.svc.prog = [] →
     s.svc.wind.prog = [] →
     s.svc.circ.prog = [] →
     (∀ q : Fin 128, s.rb (QUE_CFG.EN q) = false) →
     ∃ t : State, exec (.grantDrainDone u) s = .next t ∧
       t.rf (LANE_GRANT.OWNER u) = 0 ∧
       t.lane.moves = [(u.val, { old := m.new, new := o, ch := none, next := none })] ∧
       RegsBut [LANE_GRANT.OWNER u] s t ∧
       t = { s with regs := t.regs, lane := t.lane })

/-- With no injection rule armed: HEARTBEAT_SEND sends the lane's heartbeat to every fitted peer and counts SEQ on; a
HEARTBEAT_RECEIVE with a bad CRC only counts at its endpoint (R33); a good one gives the endpoint's registers the
sender's state and profile, and the third in sequence brings the bridge up; TIME_MESSAGE_RECEIVE gives SPN_PEEROFFk
and the peer's network offset (R48); SUMMARY_RECEIVE and UPDATE_COORDINATION_RECEIVE over an up bridge give the peer's
x-EFL state, its count of sources in fault, and whether it holds a session open. BRIDGE_LOSS_TIMEOUT outside SERVICE:
BRIDGE_UP and INSERVICE of the peer clear, LBR_EPSTATk.UP reads 0 while PROFILE and PSTATE stay, LOSSES counts, the
peer's offset is no longer valid, and 8 LANE_BRIDGE_LOSS is asserted with the lost lane and the mask of lost lanes
(R33, R42). A good heartbeat is received in every state. -/
def Obligations.BridgeMessages : Prop :=
  -- HEARTBEAT_SEND (R35)
  (∀ (s : State),
     s.on = true →
     s.lane.hbLast.all (fun x => decide (x + 100000 ≤ s.now)) = true →
     s.rf AST_INJCTL.ARM = 0 →
     s.ast.held = [] →
     ∃ t : State, exec (.heartbeatSend) s = .next t ∧
       Sent s t (s.peersOf.map (fun k => .bridge k (.heartbeat s.readyJudge.myHeartbeat.bytes))) ∧
       t.lane.hbSeq = (s.lane.hbSeq + 1) % 2 ^ 32 ∧
       t.lane.hbLast = some s.now ∧
       t = { s with lane := t.lane, outbox := t.outbox }) ∧
  -- a heartbeat with a bad CRC (R33)
  (∀ (s : State) (k : Fin 3) (p : Vector Byte 28),
     s.on = true →
     s.isPeer k = true →
     s.bridgeQuiet k →
     ∃ t : State, exec (.heartbeatReceive k p false) s = .next t ∧
       t.rf (LBR_ERRCNT.CRCERR (s.endpoint k)) = min (s.rf (LBR_ERRCNT.CRCERR (s.endpoint k)) + 1) 65535 ∧
       RegsBut [LBR_ERRCNT.CRCERR (s.endpoint k)] s t ∧
       t = { s with regs := t.regs, free := t.free }) ∧
  -- a good heartbeat, outside SERVICE and with no commit to resolve
  (∀ (s : State) (k : Fin 3) (p : Vector Byte 28),
     s.on = true →
     s.isPeer k = true →
     s.bridgeQuiet k →
     s.st ≠ stService →
     s.sec.pend = none →
     s.sec.checkCh = none →
     ∃ t : State, exec (.heartbeatReceive k p true) s = .next t ∧
       t.rf (LBR_EPSTAT.PSTATE (s.endpoint k)) = p[4].toNat % 16 ∧
       t.rf (LBR_EPSTAT.PROFILE (s.endpoint k)) = p[5].toNat ∧
       t.rf (LBR_EPSTAT.PEER (s.endpoint k)) = k ∧
       (t.peer k).lastHb = s.now ∧
       (t.peer k).hb = heartbeatOf p.toList ∧
       ((s.peer k).run = 2 → (heartbeatOf p.toList).seq = ((s.peer k).hb.seq + 1) % 2 ^ 32 → t.bridgeUp k = true) ∧
       ((s.peer k).run = 0 → s.bridgeUp k = false → t.bridgeUp k = false) ∧
       RegsBut [whole (LBR_EPSTAT.adr (s.endpoint k)), LANE_PEERS.INSERVICE, LANE_PEERS.BRIDGE_UP] s t ∧
       t = { s with regs := t.regs, free := t.free, lane := t.lane, tly := t.tly, rdm := t.rdm, sec := { s.sec with mism39 := t.sec.mism39, mism435 := t.sec.mism435 } }) ∧
  -- TIME_MESSAGE_RECEIVE (R48)
  (∀ (s : State) (k : Fin 3) (o : Int) (x : Option Int),
     s.on = true →
     s.isPeer k = true →
     s.bridgeQuiet k →
     s.reports k = true →
     -2147483648 ≤ o →
     o ≤ 2147483647 →
     ∃ t : State, exec (.timeMessageReceive k o x) s = .next t ∧
       toSigned 32 (t.rn (SPN_PEEROFF.adr k)) = o ∧
       (t.peer k).netOff = x ∧
       (t.peer k).poff = o ∧
       (t.peer k).pvalid = true ∧
       RegsBut [whole (SPN_PEEROFF.adr k)] s t ∧
       t = { s with regs := t.regs, free := t.free, lane := t.lane }) ∧
  -- a time message of a peer that is lost or in DEBUG (R34, R48)
  (∀ (s : State) (k : Fin 3) (o : Int) (x : Option Int),
     s.on = true →
     s.isPeer k = true →
     s.bridgeQuiet k →
     s.reports k = false →
     ∃ t : State, exec (.timeMessageReceive k o x) s = .next t ∧
       t.rn (SPN_PEEROFF.adr k) = 0 ∧
       RegsBut [whole (SPN_PEEROFF.adr k)] s t ∧
       t = { s with regs := t.regs, free := t.free, lane := t.lane }) ∧
  -- SUMMARY_RECEIVE (R297)
  (∀ (s : State) (k : Fin 3) (low : Bool) (f : Fin 257),
     s.on = true →
     s.isPeer k = true →
     s.bridgeQuiet k →
     s.bridgeUp k = true →
     ∃ t : State, exec (.summaryReceive k low f) s = .next t ∧
       (t.peer k).eflLow = low ∧
       (t.peer k).faults = f ∧
       t = { s with free := t.free, lane := t.lane }) ∧
  -- UPDATE_COORDINATION_RECEIVE (R394)
  (∀ (s : State) (k : Fin 3) (o : Bool),
     s.on = true →
     s.isPeer k = true →
     s.bridgeQuiet k →
     s.bridgeUp k = true →
     ∃ t : State, exec (.updateCoordinationReceive k o) s = .next t ∧
       (t.peer k).updOpen = o ∧
       t = { s with free := t.free, lane := t.lane }) ∧
  -- GT_LO_READ (R47)
  (∀ (s : State) (req : Fin 32),
     s.on = true →
     ∃ t : State, exec (.gtLoRead req) s = .next t ∧
       t.rdata = s.gt % 2 ^ 32 ∧
       mget 0 t.spn.gtCap req = s.gt / 2 ^ 32 % 2 ^ 32 ∧
       (∀ q : Fin 32, q ≠ req → mget 0 t.spn.gtCap q = mget 0 s.spn.gtCap q) ∧
       t = { s with rdata := t.rdata, spn := t.spn }) ∧
  -- in any state
  (∀ (s : State) (k : Fin 3),
     s.on = true →
     s.isPeer k = true →
     s.bridgeUp k = true →
     (s.peer k).lastHb + 300000 ≤ s.now →
     ∃ t : State, exec (.bridgeLossTimeout k) s = .next t ∧
       t.bridgeUp k = false ∧
       (t.peer k).pvalid = false ∧
       (t.peer k).run = 0 ∧
       t.rn (SPN_PEEROFF.adr k) = 0) ∧
  -- the first loss
  (∀ (s : State) (k : Fin 3),
     s.on = true →
     s.isPeer k = true →
     s.bridgeUp k = true →
     (s.peer k).lastHb + 300000 ≤ s.now →
     s.st ≠ stService →
     s.asserted 8 = false →
     s.sec.checkCh = none →
     (s.peer k).everUp = true →
     ∃ t : State, exec (.bridgeLossTimeout k) s = .next t ∧
       t.bridgeUp k = false ∧
       (t.rf LANE_PEERS.INSERVICE).testBit k = false ∧
       t.rf (LBR_EPSTAT.UP (s.endpoint k)) = 0 ∧
       t.rf (LBR_EPSTAT.PSTATE (s.endpoint k)) = s.rf (LBR_EPSTAT.PSTATE (s.endpoint k)) ∧
       t.rf (LBR_EPSTAT.PROFILE (s.endpoint k)) = s.rf (LBR_EPSTAT.PROFILE (s.endpoint k)) ∧
       t.rf (LBR_ERRCNT.LOSSES (s.endpoint k)) = min (s.rf (LBR_ERRCNT.LOSSES (s.endpoint k)) + 1) 65535 ∧
       (t.peer k).pvalid = false ∧
       (t.peer k).run = 0 ∧
       t.asserted 8 = true ∧
       (∃ x ∈ t.tly.raises, x.src = 8 ∧ x.at_ = s.now ∧ x.detail % 4 = k ∧ (x.detail / 256).testBit k = true)) ∧
  -- any good heartbeat
  (∀ (s : State) (k : Fin 3) (p : Vector Byte 28),
     s.on = true →
     s.isPeer k = true →
     s.bridgeQuiet k →
     ∃ t : State, exec (.heartbeatReceive k p true) s = .next t ∧
       (t.peer k).lastHb = s.now ∧
       (t.peer k).hb = heartbeatOf p.toList ∧
       t.mem = s.mem ∧
       t.rf (LBR_EPSTAT.PSTATE (s.endpoint k)) = p[4].toNat % 16)

/-- LOOP_SAMPLE_RUN takes the oldest launch of the engine's queue and counts it in SAMPLES (R180). A context that is OFF
or FAILED only latches the fire time and INSUSP, and keeps its output. A context of the law PI in MANUAL with no
selectors, no calibration, no supervision and finite values gives MAN, clamped to LIMLO and LIMHI, as its output
(R166, R168), and stays in MANUAL. ADC_START of one sequence by a holder of unit 44: an idle converter runs it, with
BUSY set, CURSEQ and the channels of CHMASK to convert; a busy one queues it, up to four; a sequence that is disabled,
has no channels or finds the queue full counts in REFUSED (R212). ADC_CONVERSION_DONE writes RESULT and COUNT of the
channel in one write, COUNT passing from 65 535 to 1 (R211); while channels remain the sequence runs on. That named
sequences launch in ascending order, and the rounding of RESULT (R472), are the model's readings (log entry 18). Any
launch, whatever the context's law and state, is taken from the queue and run; any set of sequences that ADC_START
names is launched in ascending order, and a finished conversion is written whatever follows it; after the last channel
the next queued sequence starts, or the converter is idle. -/
def Obligations.LoopSamplesAndConverter : Prop :=
  -- a context that is OFF or FAILED
  (∀ (s : State) (e : Fin 4) (l : Launch) (q : List Launch),
     s.on = true →
     s.lpeQueue e = l :: q →
     l.ctx / 64 = e →
     l.entry = none →
     (s.rf (LPE_CTXSTAT.STATE l.ctx) = cxOff ∨ s.rf (LPE_CTXSTAT.STATE l.ctx) = cxFailed) →
     ∃ t : State, exec (.loopSampleRun e) s = .next t ∧
       s.lpeQueue e = l :: t.lpeQueue e ∧
       t.rf (LPE_ENGSTAT.QDEPTH e) = q.length % 32 ∧
       t.rf (LPE_ENGCNT.SAMPLES e) = (s.rf (LPE_ENGCNT.SAMPLES e) + 1) % 2 ^ 32 ∧
       t.rn (LPE_CTXSAMPGT.adr l.ctx) = l.fire % 2 ^ 32 ∧
       t.rf (LPE_CTXSTAT.STATE l.ctx) = s.rf (LPE_CTXSTAT.STATE l.ctx) ∧
       RegsBut [LPE_ENGSTAT.QDEPTH e, LPE_ENGCNT.SAMPLES e, whole (LPE_CTXSAMPGT.adr l.ctx), LPE_CTXSTAT.INSUSP l.ctx] s t ∧
       t = { s with regs := t.regs, lpe := t.lpe }) ∧
  -- a context in MANUAL
  (∀ (s : State) (e : Fin 4) (l : Launch) (q : List Launch),
     s.on = true →
     s.lpeQueue e = l :: q →
     l.ctx / 64 = e →
     l.entry = none →
     s.rf (LPE_CTXSTAT.STATE l.ctx) = cxManual →
     s.rf (LPE_CTXCFG.LAW l.ctx) = lawPI →
     s.rb (LPE_CTXCFG.CALEN l.ctx) = false →
     s.rf (LPE_CTXCFG.SUPV l.ctx) = 0 →
     s.rb (LPE_CTXCTL.AUTO l.ctx) = false →
     s.rf (LPE_CTXIN0.TYPE l.ctx) = 0 →
     s.rf (LPE_CTXIN1.TYPE l.ctx) = 0 →
     s.rf (LPE_CTXIN2.TYPE l.ctx) = 0 →
     s.rf (LPE_CTXOUT.TYPE l.ctx) = outNone →
     (∀ a ∈ [LPE_CTXMAN.adr l.ctx, LPE_CTXLIMLO.adr l.ctx, LPE_CTXLIMHI.adr l.ctx, LPE_CTXVUNSAT.adr l.ctx, LPE_CTXINTG.adr l.ctx, LPE_CTXHIST.adr l.ctx 0, LPE_CTXSPACT.adr l.ctx, LPE_CTXOUTV.adr l.ctx, LPE_CTXRESID.adr l.ctx], isFin (s.rn a) = true) →
     ∃ t : State, exec (.loopSampleRun e) s = .next t ∧
       t.rn (LPE_CTXOUTV.adr l.ctx) = fclamp (s.rn (LPE_CTXMAN.adr l.ctx)) (s.rn (LPE_CTXLIMLO.adr l.ctx)) (s.rn (LPE_CTXLIMHI.adr l.ctx)) ∧
       t.rf (LPE_CTXSTAT.PRIMED l.ctx) = 1 ∧
       t.rf (LPE_CTXSTAT.STATE l.ctx) = cxManual ∧
       t.rf (LPE_CTXSTAT.BANK l.ctx) = s.rf (LPE_CTXCTL.BANKREQ l.ctx) ∧
       t.rn (LPE_CTXSAMPGT.adr l.ctx) = l.fire % 2 ^ 32 ∧
       t.rf (LPE_ENGCNT.SAMPLES e) = (s.rf (LPE_ENGCNT.SAMPLES e) + 1) % 2 ^ 32 ∧
       t.tly = s.tly ∧
       t.mem = s.mem) ∧
  -- a sequence on an idle converter
  (∀ (s : State) (req : Fin 32) (n : Fin 16),
     s.on = true →
     s.mayWrite req 44 false = true →
     s.rb ADC_CFG.EN = true →
     s.rb (ADC_SEQCFG.EN n) = true →
     s.rf (ADC_SEQCFG.CHMASK n) ≠ 0 →
     s.adc.cur = none →
     ∃ t : State, exec (.adcStart req (BitVec.ofNat 32 (2 ^ n.val))) s = .next t ∧
       t.adc.cur = some (n.val, none) ∧
       t.adc.left = bitList 16 (s.rf (ADC_SEQCFG.CHMASK n)) ∧
       t.adc.queue = [] ∧
       t.rf ADC_STAT.BUSY = 1 ∧
       t.rf ADC_STAT.CURSEQ = n ∧
       t.rf ADC_STAT.QDEPTH = 0 ∧
       RegsBut [ADC_STAT.BUSY, ADC_STAT.CURSEQ, ADC_STAT.QDEPTH] s t ∧
       t = { s with regs := t.regs, adc := t.adc }) ∧
  -- a sequence on a busy converter
  (∀ (s : State) (req : Fin 32) (n : Fin 16),
     s.on = true →
     s.mayWrite req 44 false = true →
     s.rb ADC_CFG.EN = true →
     s.rb (ADC_SEQCFG.EN n) = true →
     s.rf (ADC_SEQCFG.CHMASK n) ≠ 0 →
     s.adc.cur ≠ none →
     s.adc.queue.length < 4 →
     ∃ t : State, exec (.adcStart req (BitVec.ofNat 32 (2 ^ n.val))) s = .next t ∧
       t.adc.queue = s.adc.queue ++ [(n.val, none)] ∧
       t.adc.cur = s.adc.cur ∧
       t.rf ADC_STAT.QDEPTH = s.adc.queue.length + 1 ∧
       RegsBut [ADC_STAT.QDEPTH] s t ∧
       t = { s with regs := t.regs, adc := t.adc }) ∧
  -- a refused sequence
  (∀ (s : State) (req : Fin 32) (n : Fin 16),
     s.on = true →
     s.mayWrite req 44 false = true →
     (s.rb (ADC_SEQCFG.EN n) = false ∨ s.rf (ADC_SEQCFG.CHMASK n) = 0 ∨ (s.adc.cur ≠ none ∧ 4 ≤ s.adc.queue.length)) →
     ∃ t : State, exec (.adcStart req (BitVec.ofNat 32 (2 ^ n.val))) s = .next t ∧
       t.rf ADC_STAT.REFUSED = min (s.rf ADC_STAT.REFUSED + 1) 255 ∧
       RegsBut [ADC_STAT.REFUSED] s t ∧
       t = { s with regs := t.regs }) ∧
  -- a conversion with channels left
  (∀ (s : State) (nv : Nat) (n : Nat) (m : Nat) (left : List Nat),
     s.on = true →
     s.adc.cur ≠ none →
     s.adc.left = n :: m :: left →
     n < 16 →
     ∃ t : State, exec (.adcConversionDone nv) s = .next t ∧
       t.rf (ADC_RESULT.RESULT n) = min 4095 ((8192 * nv + 2500000000) / 5000000000) ∧
       t.rf (ADC_RESULT.COUNT n) = (if s.rf (ADC_RESULT.COUNT n) = 65535 then 1 else s.rf (ADC_RESULT.COUNT n) + 1) ∧
       t.adc.left = m :: left ∧
       RegsBut [whole (ADC_RESULT.adr n)] s t ∧
       t = { s with regs := t.regs, adc := t.adc }) ∧
  -- any launch
  (∀ (s : State) (e : Fin 4) (l : Launch) (q : List Launch),
     s.on = true →
     s.lpeQueue e = l :: q →
     ∃ t : State, exec (.loopSampleRun e) s = .next t ∧
       t = (((s.setLpeQueue e q).sample l).incWrap (LPE_ENGCNT.SAMPLES e)).strikeDone l.entry ∧
       t.lpeQueue e = q ∧
       t.mem = s.mem ∧
       t.outbox = s.outbox) ∧
  -- named sequences on an idle converter: the lowest runs
  (∀ (s : State) (req : Fin 32) (v : Word) (n : Fin 16) (l : List Nat),
     s.on = true →
     s.mayWrite req 44 false = true →
     s.rb ADC_CFG.EN = true →
     s.adc.cur = none →
     bitList 16 (v.toNat % 65536) = n.val :: l →
     s.rb (ADC_SEQCFG.EN n) = true →
     s.rf (ADC_SEQCFG.CHMASK n) ≠ 0 →
     ∃ t : State, exec (.adcStart req v) s = .next t ∧
       t.adc.cur = some (n.val, none) ∧
       t.adc.left = bitList 16 (s.rf (ADC_SEQCFG.CHMASK n)) ∧
       t.rf ADC_STAT.BUSY = 1 ∧
       t.rf ADC_STAT.CURSEQ = n ∧
       (∀ x ∈ t.adc.queue, x.1 ∈ l ∧ s.rb (ADC_SEQCFG.EN x.1) = true ∧ x.2 = none) ∧
       t.adc.queue.length ≤ 4 ∧
       RegsBut [ADC_STAT.BUSY, ADC_STAT.CURSEQ, ADC_STAT.QDEPTH, ADC_STAT.REFUSED] s t ∧
       t = { s with regs := t.regs, adc := t.adc }) ∧
  -- named sequences on a busy converter: the one that runs goes on
  (∀ (s : State) (req : Fin 32) (v : Word),
     s.on = true →
     s.mayWrite req 44 false = true →
     s.adc.cur ≠ none →
     ∃ t : State, exec (.adcStart req v) s = .next t ∧
       t.adc.cur = s.adc.cur ∧
       t.adc.left = s.adc.left ∧
       s.adc.queue <+: t.adc.queue ∧
       t.adc.queue.length ≤ max 4 s.adc.queue.length ∧
       (∀ x ∈ t.adc.queue.drop s.adc.queue.length, (v.toNat % 65536).testBit x.1 = true ∧ s.rb (ADC_SEQCFG.EN x.1) = true) ∧
       RegsBut [ADC_STAT.QDEPTH, ADC_STAT.REFUSED] s t ∧
       t = { s with regs := t.regs, adc := t.adc }) ∧
  -- any conversion
  (∀ (s : State) (nv : Nat) (j : Nat × Option Nat) (n : Fin 16) (left : List Nat),
     s.on = true →
     s.adc.cur = some j →
     s.adc.left = n.val :: left →
     ∃ t : State, exec (.adcConversionDone nv) s = .next t ∧
       t.rf (ADC_RESULT.RESULT n) = min 4095 ((2 * 4096 * nv + 2500000000) / 5000000000) ∧
       t.rf (ADC_RESULT.COUNT n) = (if s.rf (ADC_RESULT.COUNT n) = 65535 then 1 else s.rf (ADC_RESULT.COUNT n) + 1) ∧
       t.mem = s.mem ∧
       t.tly = s.tly ∧
       t.outbox = s.outbox) ∧
  -- the last conversion, and a sequence is queued
  (∀ (s : State) (nv : Nat) (j : Nat × Option Nat) (n : Fin 16) (m : Fin 16) (e : Option Nat) (q : List (Nat × Option Nat)),
     s.on = true →
     s.adc.cur = some j →
     s.adc.left = [n.val] →
     s.adc.queue = (m.val, e) :: q →
     ∃ t : State, exec (.adcConversionDone nv) s = .next t ∧
       t.adc.cur = some (m.val, e) ∧
       t.adc.left = bitList 16 (s.rf (ADC_SEQCFG.CHMASK m)) ∧
       t.adc.queue = q ∧
       t.rf ADC_STAT.BUSY = 1 ∧
       t.rf ADC_STAT.CURSEQ = m ∧
       t.rf ADC_STAT.QDEPTH = q.length % 8) ∧
  -- the last conversion, and nothing is queued
  (∀ (s : State) (nv : Nat) (j : Nat × Option Nat) (n : Fin 16),
     s.on = true →
     s.adc.cur = some j →
     s.adc.left = [n.val] →
     s.adc.queue = [] →
     ∃ t : State, exec (.adcConversionDone nv) s = .next t ∧
       t.adc.cur = none ∧
       t.adc.left = [] ∧
       t.adc.queue = [] ∧
       t.rf ADC_STAT.BUSY = 0 ∧
       t.rf ADC_STAT.QDEPTH = 0)

/-- OUTPUT_COMPARE of a pair that runs LOCKED: what strikes the pair, then what its leading core does, then its trailing
core. An output of the leading core, where it may run on, enters the delay registers with a parity bit for each field,
and the lead token is its token (R215, R216); an access of a core's own TCM is no output and goes straight to it
(R216). Tokens are held before an event that waits for them and where a resynchronisation stops (R219, R234). While
the pair runs SPLIT the designated core only counts its tokens here (R239). An output of the trailing core takes the
oldest entry: with good parity and a match of both comparators it is released, RELTOK is its token, a store acts in
SRAM and a load's data goes into the replay log, whose 4 096th entry raises 151 and forces a checkpoint (R217, R221).
A restart marks the tokens up to RELTOK: in the replay, and where the trailing core follows after it, an output of
such a token is only compared, and a load gets its data from the log (R227). A bad parity, a comparator that alone
reports a difference and a mismatch raise 150, 149 and 144 and restart the pair: both cores hold the registers and the
pages of the newest checkpoint copy with a correct ECC, the tokens are its token, the delay registers are empty, the
cause is recorded and RESTARTS counts (R227 to R231). With two restarts within the last second the pair fails instead,
with 147 (R231), with no good copy with 152 (R230). That one command holds what strikes the pair, then the leading
core's act, then the trailing core's, is the model's choice (log entry 26). -/
def Obligations.PairOutputs : Prop :=
  -- the leading core
  (∀ (s : State) (p : Fin 3) (out : CoreOut) (early : Bool),
     s.runsLocked p = true →
     ownTcm out = false →
     s.leadMay p out.token.toNat = true →
     ∃ t : State, exec (.outputCompare p none (some (.out out early)) none) s = .next t ∧
       (t.pair p).fifo = (s.pair p).fifo ++ [{ out := out, par := outParity out }] ∧
       (outParity out).length = 5 ∧
       (t.pair p).lead = out.token.toNat ∧
       t.rn (SLP_TOKLO.adr p) = out.token.toNat % 2 ^ 32 ∧
       t.rf (SLP_PAIRSTAT.FIFO p) = (s.pair p).fifo.length + 1 ∧
       RegsBut [SLP_PAIRSTAT.FIFO p, whole (SLP_TOKLO.adr p)] s t ∧
       t = { s with regs := t.regs, slp := t.slp }) ∧
  -- a store of the leading core to its own TCM is no output
  (∀ (s : State) (p : Fin 3) (out : CoreOut) (early : Bool),
     s.runsLocked p = true →
     s.leadMay p out.token.toNat = true →
     out.load = false →
     out.bytes = 15 →
     0x100000 ≤ out.addr.toNat →
     out.addr.toNat < 0x13FFFD →
     ∃ t : State, exec (.outputCompare p none (some (.out out early)) none) s = .next t ∧
       (t.pair p).fifo = (s.pair p).fifo ∧
       (t.pair p).lead = out.token.toNat ∧
       t.outbox = s.outbox ∧
       t.mem = s.mem ∧
       ((List.range 4).all (fun i => memByte (mget [] t.tcm (s.desigCore p)) (out.addr.toNat + i) == BitVec.ofNat 8 (out.data.toNat / 256 ^ i))) = true ∧
       CellsBut out.addr.toNat 4 (mget [] s.tcm (s.desigCore p)) (mget [] t.tcm (s.desigCore p)) ∧
       mget [] t.tcm (s.otherCore p) = mget [] s.tcm (s.otherCore p) ∧
       tcmPage out.addr.toNat ∈ (t.pair p).dirty ∧
       RegsBut [whole (SLP_TOKLO.adr p)] s t) ∧
  -- a store of the trailing core to its own TCM
  (∀ (s : State) (p : Fin 3) (out : CoreOut) (early : Bool),
     s.runsLocked p = true →
     s.trailMay p out.token.toNat = true →
     out.load = false →
     out.bytes = 15 →
     0x100000 ≤ out.addr.toNat →
     out.addr.toNat < 0x13FFFD →
     ∃ t : State, exec (.outputCompare p none none (some (.out out early))) s = .next t ∧
       (t.pair p).fifo = (s.pair p).fifo ∧
       (t.pair p).trail = out.token.toNat ∧
       t.outbox = s.outbox ∧
       t.mem = s.mem ∧
       ((List.range 4).all (fun i => memByte (mget [] t.tcm (s.otherCore p)) (out.addr.toNat + i) == BitVec.ofNat 8 (out.data.toNat / 256 ^ i))) = true ∧
       CellsBut out.addr.toNat 4 (mget [] s.tcm (s.otherCore p)) (mget [] t.tcm (s.otherCore p)) ∧
       mget [] t.tcm (s.desigCore p) = mget [] s.tcm (s.desigCore p) ∧
       RegsBut [] s t) ∧
  -- a store to SRAM released
  (∀ (s : State) (p : Fin 3) (out : CoreOut) (early : Bool) (e : DelayEntry) (l : List DelayEntry),
     (s.pairSt p = pairLocked ∨ s.pairSt p = pairCkpt) →
     (s.pair p).hush ≤ e.out.token.toNat →
     s.trailMay p out.token.toNat = true →
     ownTcm out = false →
     (s.pair p).fifo = e :: l →
     e.par = outParity e.out →
     s.matches p 0 e.out out = true →
     s.matches p 1 e.out out = true →
     e.out.load = false →
     e.out.bytes = 15 →
     0x20000000 ≤ e.out.addr.toNat →
     e.out.addr.toNat < 0x205FFFFD →
     (∀ f ∈ s.txFlows, e.out.addr.toNat < s.flowBase f ∨ s.flowBase f + s.rf (ANW_FLOWBUF.LEN f) ≤ e.out.addr.toNat) →
     ∃ t : State, exec (.outputCompare p none none (some (.out out early))) s = .next t ∧
       Sent s t [.coreOut p e.out] ∧
       t.memWord e.out.addr.toNat = e.out.data.toNat ∧
       MemBut e.out.addr.toNat 4 s t ∧
       t.rn (SLP_RELTOK.adr p) = e.out.token.toNat % 2 ^ 32 ∧
       (t.pair p).rel = e.out.token.toNat ∧
       (t.pair p).fifo = l ∧
       (t.pair p).trail = out.token.toNat ∧
       t.pairSt p = s.pairSt p ∧
       RegsBut [SLP_PAIRSTAT.FIFO p, whole (SLP_RELTOK.adr p)] s t) ∧
  -- a load's data logged
  (∀ (s : State) (p : Fin 3) (out : CoreOut) (early : Bool) (e : DelayEntry) (l : List DelayEntry),
     (s.pairSt p = pairLocked ∨ s.pairSt p = pairCkpt) →
     (s.pair p).hush ≤ e.out.token.toNat →
     s.trailMay p out.token.toNat = true →
     ownTcm out = false →
     (s.pair p).fifo = e :: l →
     e.par = outParity e.out →
     s.matches p 0 e.out out = true →
     s.matches p 1 e.out out = true →
     e.out.load = true →
     0x20000000 ≤ e.out.addr.toNat →
     e.out.addr.toNat < 0x20600000 →
     (s.pair p).log.length < 4095 →
     ∃ t : State, exec (.outputCompare p none none (some (.out out early))) s = .next t ∧
       Sent s t [.coreOut p e.out] ∧
       t.rdata = s.memWord e.out.addr.toNat ∧
       (t.pair p).log = .load e.out.token.toNat e.out.addr.toNat t.rdata :: (s.pair p).log ∧
       t.rf (SLP_LOG.FILL p) = (s.pair p).log.length + 1 ∧
       (t.pair p).rel = e.out.token.toNat ∧
       t.tly = s.tly ∧
       t.mem = s.mem ∧
       t.pairSt p = s.pairSt p ∧
       (t.pair p).ckDue = (s.pair p).ckDue) ∧
  -- the entry that fills the log
  (∀ (s : State) (p : Fin 3) (out : CoreOut) (early : Bool) (e : DelayEntry) (l : List DelayEntry),
     s.pairSt p = pairLocked →
     s.latent p = false →
     (s.pair p).hush ≤ e.out.token.toNat →
     s.trailMay p out.token.toNat = true →
     ownTcm out = false →
     (s.pair p).fifo = e :: l →
     e.par = outParity e.out →
     s.matches p 0 e.out out = true →
     s.matches p 1 e.out out = true →
     e.out.load = true →
     0x20000000 ≤ e.out.addr.toNat →
     e.out.addr.toNat < 0x20600000 →
     (s.pair p).log.length = 4095 →
     ∃ t : State, exec (.outputCompare p none none (some (.out out early))) s = .next t ∧
       Sent s t [.coreOut p e.out] ∧
       t.rf (SLP_LOG.FILL p) = 4096 ∧
       Raised s t 151 p ∧
       t.pairSt p = pairCkpt ∧
       (t.pair p).ckDue = some s.gt) ∧
  -- an output released before a replay
  (∀ (s : State) (p : Fin 3) (out : CoreOut) (early : Bool) (e : DelayEntry) (l : List DelayEntry),
     e.out.token.toNat < (s.pair p).hush →
     s.trailMay p out.token.toNat = true →
     ownTcm out = false →
     (s.pair p).fifo = e :: l →
     e.par = outParity e.out →
     s.matches p 0 e.out out = true →
     s.matches p 1 e.out out = true →
     ∃ t : State, exec (.outputCompare p none none (some (.out out early))) s = .next t ∧
       t.rdata = (if e.out.load then ((s.pair p).loadData e.out.token.toNat e.out.addr.toNat).getD s.rdata else s.rdata) ∧
       (t.pair p).fifo = l ∧
       (t.pair p).rel = (s.pair p).rel ∧
       (t.pair p).trail = out.token.toNat ∧
       RegsBut [SLP_PAIRSTAT.FIFO p] s t ∧
       t = { s with rdata := t.rdata, regs := t.regs, slp := t.slp }) ∧
  -- tokens without an output
  (∀ (s : State) (p : Fin 3) (n : Nat) (m : Nat),
     s.runsLocked p = true →
     s.leadMay p n = true →
     m + s.rf (SLP_PAIRCFG.LAG p) ≤ n →
     (s.pair p).trail ≤ m →
     ∃ t : State, exec (.outputCompare p none (some (.run n)) (some (.run m))) s = .next t ∧
       (t.pair p).lead = n ∧
       (t.pair p).trail = m ∧
       t.rn (SLP_TOKLO.adr p) = n % 2 ^ 32 ∧
       RegsBut [whole (SLP_TOKLO.adr p)] s t ∧
       t = { s with regs := t.regs, slp := t.slp }) ∧
  -- bad parity
  (∀ (s : State) (p : Fin 3) (out : CoreOut) (early : Bool) (e : DelayEntry) (l : List DelayEntry) (c : CkCopy),
     s.runsLocked p = true →
     s.trailMay p out.token.toNat = true →
     ownTcm out = false →
     (s.pair p).fifo = e :: l →
     s.recent p < 2 →
     (s.pair p).newest = some c →
     e.par ≠ outParity e.out →
     ∃ t : State, exec (.outputCompare p none none (some (.out out early))) s = .next t ∧
       t.pairSt p = pairRestart ∧
       t.rf (SLP_PAIRSTAT.RESTARTS p) = min (s.rf (SLP_PAIRSTAT.RESTARTS p) + 1) 255 ∧
       t.rn (SLP_LASTRSTGT.adr p) = s.gt % 2 ^ 32 ∧
       (t.pair p).lead = (s.pair p).ck ∧
       (t.pair p).trail = (s.pair p).ck ∧
       (t.pair p).rel = (s.pair p).rel ∧
       (t.pair p).hush = max (s.pair p).hush ((s.pair p).rel + 1) ∧
       (t.pair p).log = (s.pair p).log ∧
       t.rn (SLP_TOKLO.adr p) = (s.pair p).ck % 2 ^ 32 ∧
       (t.pair p).again = logEvents (s.pair p).log ∧
       (t.pair p).restarts = (s.gt :: (s.pair p).restarts).take 2 ∧
       (t.pair p).fifo = [] ∧
       t.rf (SLP_PAIRSTAT.FIFO p) = 0 ∧
       t.outbox = s.outbox ∧
       t.rf (SLP_LASTRST.CAUSE p) = 3 ∧
       Raised s t 150 p ∧
       mget [] t.tcm (8 + 2 * p.val) = copyPages (s.pair p).dirty c.tcm (mget [] s.tcm (8 + 2 * p.val)) ∧
       mget [] t.tcm (9 + 2 * p.val) = copyPages (s.pair p).dirty c.tcm (mget [] s.tcm (9 + 2 * p.val)) ∧
       mget [] t.coreRegs (8 + 2 * p.val) = c.regs ∧
       mget [] t.coreRegs (9 + 2 * p.val) = c.regs ∧
       t.rf (SLP_LOG.CKECC p) = (if (s.pair p).copy0.bad = [] ∧ (s.pair p).copy1.bad = [] then s.rf (SLP_LOG.CKECC p) else min (s.rf (SLP_LOG.CKECC p) + 1) 31) ∧
       RegsBut [SLP_PAIRSTAT.STATE p, SLP_PAIRSTAT.RESTARTS p, SLP_PAIRSTAT.FIFO p, SLP_LASTRST.CAUSE p, SLP_LOG.CKECC p, whole (SLP_LASTRSTGT.adr p), whole (SLP_TOKLO.adr p), whole SLP_SUMMARY.adr] s t) ∧
  -- the comparators disagree
  (∀ (s : State) (p : Fin 3) (out : CoreOut) (early : Bool) (e : DelayEntry) (l : List DelayEntry) (c : CkCopy),
     s.runsLocked p = true →
     s.trailMay p out.token.toNat = true →
     ownTcm out = false →
     (s.pair p).fifo = e :: l →
     s.recent p < 2 →
     (s.pair p).newest = some c →
     e.par = outParity e.out →
     s.matches p 0 e.out out ≠ s.matches p 1 e.out out →
     ∃ t : State, exec (.outputCompare p none none (some (.out out early))) s = .next t ∧
       t.pairSt p = pairRestart ∧
       t.rf (SLP_PAIRSTAT.RESTARTS p) = min (s.rf (SLP_PAIRSTAT.RESTARTS p) + 1) 255 ∧
       t.rn (SLP_LASTRSTGT.adr p) = s.gt % 2 ^ 32 ∧
       (t.pair p).lead = (s.pair p).ck ∧
       (t.pair p).trail = (s.pair p).ck ∧
       (t.pair p).rel = (s.pair p).rel ∧
       (t.pair p).hush = max (s.pair p).hush ((s.pair p).rel + 1) ∧
       (t.pair p).log = (s.pair p).log ∧
       t.rn (SLP_TOKLO.adr p) = (s.pair p).ck % 2 ^ 32 ∧
       (t.pair p).again = logEvents (s.pair p).log ∧
       (t.pair p).restarts = (s.gt :: (s.pair p).restarts).take 2 ∧
       (t.pair p).fifo = [] ∧
       t.rf (SLP_PAIRSTAT.FIFO p) = 0 ∧
       t.outbox = s.outbox ∧
       t.rf (SLP_LASTRST.CAUSE p) = 2 ∧
       Raised s t 149 p ∧
       mget [] t.tcm (8 + 2 * p.val) = copyPages (s.pair p).dirty c.tcm (mget [] s.tcm (8 + 2 * p.val)) ∧
       mget [] t.tcm (9 + 2 * p.val) = copyPages (s.pair p).dirty c.tcm (mget [] s.tcm (9 + 2 * p.val)) ∧
       mget [] t.coreRegs (8 + 2 * p.val) = c.regs ∧
       mget [] t.coreRegs (9 + 2 * p.val) = c.regs ∧
       t.rf (SLP_LOG.CKECC p) = (if (s.pair p).copy0.bad = [] ∧ (s.pair p).copy1.bad = [] then s.rf (SLP_LOG.CKECC p) else min (s.rf (SLP_LOG.CKECC p) + 1) 31) ∧
       RegsBut [SLP_PAIRSTAT.STATE p, SLP_PAIRSTAT.RESTARTS p, SLP_PAIRSTAT.FIFO p, SLP_LASTRST.CAUSE p, SLP_LOG.CKECC p, whole (SLP_LASTRSTGT.adr p), whole (SLP_TOKLO.adr p), whole SLP_SUMMARY.adr] s t) ∧
  -- a mismatch
  (∀ (s : State) (p : Fin 3) (out : CoreOut) (early : Bool) (e : DelayEntry) (l : List DelayEntry) (c : CkCopy),
     s.runsLocked p = true →
     s.trailMay p out.token.toNat = true →
     ownTcm out = false →
     (s.pair p).fifo = e :: l →
     s.recent p < 2 →
     (s.pair p).newest = some c →
     e.par = outParity e.out →
     s.matches p 0 e.out out = false →
     s.matches p 1 e.out out = false →
     ∃ t : State, exec (.outputCompare p none none (some (.out out early))) s = .next t ∧
       t.pairSt p = pairRestart ∧
       t.rf (SLP_PAIRSTAT.RESTARTS p) = min (s.rf (SLP_PAIRSTAT.RESTARTS p) + 1) 255 ∧
       t.rn (SLP_LASTRSTGT.adr p) = s.gt % 2 ^ 32 ∧
       (t.pair p).lead = (s.pair p).ck ∧
       (t.pair p).trail = (s.pair p).ck ∧
       (t.pair p).rel = (s.pair p).rel ∧
       (t.pair p).hush = max (s.pair p).hush ((s.pair p).rel + 1) ∧
       (t.pair p).log = (s.pair p).log ∧
       t.rn (SLP_TOKLO.adr p) = (s.pair p).ck % 2 ^ 32 ∧
       (t.pair p).again = logEvents (s.pair p).log ∧
       (t.pair p).restarts = (s.gt :: (s.pair p).restarts).take 2 ∧
       (t.pair p).fifo = [] ∧
       t.rf (SLP_PAIRSTAT.FIFO p) = 0 ∧
       t.outbox = s.outbox ∧
       t.rf (SLP_LASTRST.CAUSE p) = 1 ∧
       Raised s t 144 p ∧
       mget [] t.tcm (8 + 2 * p.val) = copyPages (s.pair p).dirty c.tcm (mget [] s.tcm (8 + 2 * p.val)) ∧
       mget [] t.tcm (9 + 2 * p.val) = copyPages (s.pair p).dirty c.tcm (mget [] s.tcm (9 + 2 * p.val)) ∧
       mget [] t.coreRegs (8 + 2 * p.val) = c.regs ∧
       mget [] t.coreRegs (9 + 2 * p.val) = c.regs ∧
       t.rf (SLP_LOG.CKECC p) = (if (s.pair p).copy0.bad = [] ∧ (s.pair p).copy1.bad = [] then s.rf (SLP_LOG.CKECC p) else min (s.rf (SLP_LOG.CKECC p) + 1) 31) ∧
       RegsBut [SLP_PAIRSTAT.STATE p, SLP_PAIRSTAT.RESTARTS p, SLP_PAIRSTAT.FIFO p, SLP_LASTRST.CAUSE p, SLP_LOG.CKECC p, whole (SLP_LASTRSTGT.adr p), whole (SLP_TOKLO.adr p), whole SLP_SUMMARY.adr] s t) ∧
  -- the newest copy that is good
  (∀ (s : State) (p : Fin 3) (c : CkCopy),
     (s.pair p).copy0.bad = [] →
     c = (if (s.pair p).copy1.bad = [] ∧ (s.pair p).copy0.stamp < (s.pair p).copy1.stamp then (s.pair p).copy1 else (s.pair p).copy0) →
     ∃ t : State, exec (.outputCompare p none none none) s = .next t ∧
       (s.pair p).newest = some c) ∧
  -- no good copy
  (∀ (s : State) (p : Fin 3) (out : CoreOut) (early : Bool) (e : DelayEntry) (l : List DelayEntry),
     s.runsLocked p = true →
     s.trailMay p out.token.toNat = true →
     ownTcm out = false →
     (s.pair p).fifo = e :: l →
     s.recent p < 2 →
     e.par = outParity e.out →
     s.matches p 0 e.out out = false →
     s.matches p 1 e.out out = false →
     (s.pair p).copy0.bad ≠ [] →
     (s.pair p).copy1.bad ≠ [] →
     (s.pair p).splitCh = none →
     (s.pair p).rejoinCh = none →
     ∃ t : State, exec (.outputCompare p none none (some (.out out early))) s = .next t ∧
       t.pairSt p = pairFailed ∧
       s.raiseOf 144 p ∈ t.tly.raises ∧
       s.raiseOf 152 p ∈ t.tly.raises) ∧
  -- a third restart within a second
  (∀ (s : State) (p : Fin 3) (out : CoreOut) (early : Bool) (e : DelayEntry) (l : List DelayEntry),
     s.runsLocked p = true →
     s.trailMay p out.token.toNat = true →
     ownTcm out = false →
     (s.pair p).fifo = e :: l →
     2 ≤ s.recent p →
     e.par = outParity e.out →
     s.matches p 0 e.out out = false →
     s.matches p 1 e.out out = false →
     s.hmb.chans = [] →
     (s.pair p).splitCh = none →
     (s.pair p).rejoinCh = none →
     ∃ t : State, exec (.outputCompare p none none (some (.out out early))) s = .next t ∧
       t.pairSt p = pairFailed ∧
       s.raiseOf 144 p ∈ t.tly.raises ∧
       s.raiseOf 147 p ∈ t.tly.raises ∧
       (t.pair p).events = [] ∧
       (t.pair p).fifo = [] ∧
       t.latent p = false ∧
       (t.rf SLP_SUMMARY.FAILED).testBit p = true ∧
       t.rn SLP_REHOMEINFO.adr = p ∧
       (∀ u : Fin 63, t.owner u ≠ 2 + p.val ∧ t.owner u ≠ 8 + 2 * p.val ∧ t.owner u ≠ 9 + 2 * p.val) ∧
       (∀ u : Fin 63, s.owner u = 2 + p.val → mget default t.lane.moves u = { old := 2 + p.val, new := (s.rehomeTarget p).getD 1, ch := none })) ∧
  -- the designated core's tokens while the pair runs SPLIT
  (∀ (s : State) (p : Fin 3) (n : Nat),
     s.runsSplit p = true →
     ∃ t : State, exec (.outputCompare p none (some (.run n)) none) s = .next t ∧
       (t.pair p).lead = max (s.pair p).lead n ∧
       t.rn (SLP_TOKLO.adr p) = max (s.pair p).lead n % 2 ^ 32 ∧
       RegsBut [whole (SLP_TOKLO.adr p)] s t ∧
       t = { s with regs := t.regs, slp := t.slp }) ∧
  -- the designated core's output while the pair runs SPLIT: only its token counts here
  (∀ (s : State) (p : Fin 3) (out : CoreOut) (early : Bool),
     s.runsSplit p = true →
     ∃ t : State, exec (.outputCompare p none (some (.out out early)) none) s = .next t ∧
       (t.pair p).lead = max (s.pair p).lead out.token.toNat ∧
       (t.pair p).fifo = (s.pair p).fifo ∧
       RegsBut [whole (SLP_TOKLO.adr p)] s t ∧
       t = { s with regs := t.regs, slp := t.slp }) ∧
  -- tokens held before an event that waits for them
  (∀ (s : State) (p : Fin 3) (n : Nat) (e : PortEvent) (d : Nat),
     s.runsLocked p = true →
     e ∈ (s.pair p).events →
     e.d = some d →
     d ≤ n →
     ∃ t : State, exec (.outputCompare p none (some (.run n)) none) s = .next t ∧
       t = s) ∧
  -- tokens held where a resynchronisation stops
  (∀ (s : State) (p : Fin 3) (n : Nat),
     s.pairSt p = pairResync →
     (s.pair p).stop < n →
     ∃ t : State, exec (.outputCompare p none (some (.run n)) none) s = .next t ∧
       t = s) ∧
  -- the trap handler of the pair's receiver returns: a held trap is taken
  (∀ (s : State) (p : Fin 3),
     s.runsSplit p = false →
     s.trapOf (2 + p) = some true →
     ∃ t : State, exec (.outputCompare p none (some .trapRet) none) s = .next t ∧
       Sent s t [.nmi (2 + p)] ∧
       t.trapOf (2 + p) = some false ∧
       t.regs = s.regs) ∧
  -- the trap handler returns with none held
  (∀ (s : State) (p : Fin 3),
     s.runsSplit p = false →
     s.trapOf (2 + p) = some false →
     ∃ t : State, exec (.outputCompare p none (some .trapRet) none) s = .next t ∧
       t.outbox = s.outbox ∧
       t.trapOf (2 + p) = none ∧
       t.regs = s.regs) ∧
  -- a leading core's output of a pair that runs neither LOCKED nor SPLIT
  (∀ (s : State) (p : Fin 3) (out : CoreOut) (early : Bool),
     s.runsLocked p = false →
     s.runsSplit p = false →
     ∃ t : State, exec (.outputCompare p none (some (.out out early)) none) s = .next t ∧
       t = s) ∧
  -- a trailing core's
  (∀ (s : State) (p : Fin 3) (out : CoreOut) (early : Bool),
     s.runsLocked p = false →
     ∃ t : State, exec (.outputCompare p none none (some (.out out early))) s = .next t ∧
       t = s) ∧
  -- tokens of a pair that runs neither
  (∀ (s : State) (p : Fin 3) (n : Nat) (m : Nat),
     s.runsLocked p = false →
     s.runsSplit p = false →
     ∃ t : State, exec (.outputCompare p none (some (.run n)) (some (.run m))) s = .next t ∧
       t = s) ∧
  -- a bit of the Tally's second copy: the copies disagree
  (∀ (s : State) (p : Fin 3) (n : Fin 8) (k : Fin 32),
     s.on = true →
     s.tly.diff = [] →
     ∃ t : State, exec (.outputCompare p (some (.tally (BitVec.ofNat 32 (TLY_STAT.adr n.val)) k)) none none) s = .next t ∧
       mget 0 t.tly.diff (TLY_STAT.adr n.val) = 2 ^ k.val ∧
       t.regs = s.regs ∧
       t.outbox = s.outbox) ∧
  -- the parity of a source's record
  (∀ (s : State) (p : Fin 3) (n : Fin 256),
     s.on = true →
     ∃ t : State, exec (.outputCompare p (some (.parity n)) none none) s = .next t ∧
       n.val ∈ t.tly.badPar ∧
       t.regs = s.regs ∧
       t.outbox = s.outbox) ∧
  -- the leading core's registers
  (∀ (s : State) (p : Fin 3) (b : List Byte),
     s.on = true →
     ∃ t : State, exec (.outputCompare p none (some (.regs b)) none) s = .next t ∧
       t = { s with coreRegs := mset s.coreRegs (s.desigCore p) b }) ∧
  -- the trailing core's registers
  (∀ (s : State) (p : Fin 3) (b : List Byte),
     s.on = true →
     ∃ t : State, exec (.outputCompare p none none (some (.regs b))) s = .next t ∧
       t = { s with coreRegs := mset s.coreRegs (s.otherCore p) b }) ∧
  -- a disturbance, the leading core and the trailing core in one command, in this order
  (∀ (s : State) (p : Fin 3) (h : Option PairHit) (a : Option CoreAct) (b : Option CoreAct),
     ∃ t : State, exec (.outputCompare p h a b) s = .next t ∧
       t = ((s.struck p h).leads p a).trails p b) ∧
  -- a stuck comparator
  (∀ (s : State) (p : Fin 3) (i : Fin 2) (a : Option Bool),
     ∃ t : State, exec (.outputCompare p (some (.stuck i a)) none none) s = .next t ∧
       t = { s with cmpStuck := mset s.cmpStuck (2 * p.val + i.val) a }) ∧
  -- a page without ECC
  (∀ (s : State) (p : Fin 3) (i : Fin 2) (k : Fin 256),
     s.on = true →
     ∃ t : State, exec (.outputCompare p (some (.ecc i k)) none none) s = .next t ∧
       t = s.setPair p (if i = 0 then { s.pair p with copy0 := { (s.pair p).copy0 with bad := k.val :: (s.pair p).copy0.bad } } else { s.pair p with copy1 := { (s.pair p).copy1 with bad := k.val :: (s.pair p).copy1.bad } })) ∧
  -- an upset bit: the parity of the field no longer fits
  (∀ (s : State) (p : Fin 3) (o : CoreOut) (l : List DelayEntry) (k : Fin 64),
     s.on = true →
     (s.pair p).fifo = { out := o, par := outParity o } :: l →
     ∃ t : State, exec (.outputCompare p (some (.upset 0 0 k)) none none) s = .next t ∧
       (t.pair p).fifo = { out := { o with token := o.token ^^^ BitVec.ofNat 64 (2 ^ k.val) }, par := outParity o } :: l ∧
       outParity o ≠ outParity { o with token := o.token ^^^ BitVec.ofNat 64 (2 ^ k.val) } ∧
       RegsBut [] s t)

/-- CHECKPOINT of a pair stopped for one waits until the trailing core has retired the leading core's token; then: with
equal digests of the two cores and a passed exercise it is written (the digest, the token, the fire time, and into
both copies the designated core's registers and the pages written since), the log is empty, LATENT ends; different
digests raise 145 and leave the pair LATENT; a failed exercise raises 146 and fails the pair; while LATENT only the
exercise runs (R223 to R226, R233, R236). RESTART_LIVE 2 µs after a restart, once the replay has passed RELTOK and
taken every log entry: LOCKED again, LATENT cleared (R227); after a resynchronisation: its final checkpoint (R234).
RESYNC restores a LATENT pair (R234). EVENT_DELIVERY hands over the event of the lowest delivery index (R219), as what
it is, an interrupt, the Tally interrupt or a trap, a trap being held one deep in the trap handler (R296); in a replay
it gives every event of the log again, in order (R227). A log filled while LATENT, or full as LATENT begins, asks once
for the resynchronisation and raises 151 (R221). The mask of the digest is the model's free constant, and a waiting
event is handed over whatever vector the command of a Tally event names: the model's choices (log entry 26). -/
def Obligations.PairCheckpoints : Prop :=
  -- equal digests
  (∀ (s : State) (p : Fin 3) (f : Option (Fin 2097152)),
     s.pairSt p = pairCkpt →
     (s.pair p).fifo = [] →
     (s.pair p).trail = (s.pair p).lead →
     s.exerciseOk p = true →
     (s.disturbed (s.otherCore p) f).coreCrc (8 + 2 * p.val) = (s.disturbed (s.otherCore p) f).coreCrc (9 + 2 * p.val) →
     (s.latent p = false ∨ (s.pair p).resyncEnd = true) →
     s.rb (SLP_PAIRSTAT.SPLITREQ p) = false →
     ∃ t : State, exec (.checkpoint p f) s = .next t ∧
       t.pairSt p = pairLocked ∧
       t.rn (SLP_DIGLO.adr p) + t.rn (SLP_DIGHI.adr p) * 2 ^ 32 = s.coreCrc (s.desigCore p) ^^^ Config.digestMask ∧
       t.rn (SLP_CKTOK.adr p) = (s.pair p).lead % 2 ^ 32 ∧
       t.rn (SLP_CKGT.adr p) = (s.pair p).ckDue.getD s.gt % 2 ^ 32 ∧
       t.rb (SLP_PAIRSTAT.CKVALID p) = true ∧
       t.rf (SLP_LOG.FILL p) = 0 ∧
       (t.pair p).log = [] ∧
       t.rf (SLP_LOG.DIRTY p) = min 255 (s.pair p).dirty.length ∧
       (t.pair p).dirty = [] ∧
       t.latent p = false ∧
       (t.pair p).ck = (s.pair p).lead ∧
       (t.pair p).copy0 = (s.pair p).copy0.write ((s.pair p).copy0.stamp + 1) (mget [] s.coreRegs (s.desigCore p)) (mget [] s.tcm (s.desigCore p)) (s.pair p).dirty ∧
       (t.pair p).copy1.regs = mget [] s.coreRegs (s.desigCore p) ∧
       t.tly = s.tly ∧
       t.outbox = s.outbox) ∧
  -- equal digests with a split requested
  (∀ (s : State) (p : Fin 3) (f : Option (Fin 2097152)) (ch : Fin 8),
     s.pairSt p = pairCkpt →
     (s.pair p).fifo = [] →
     (s.pair p).trail = (s.pair p).lead →
     s.exerciseOk p = true →
     (s.disturbed (s.otherCore p) f).coreCrc (8 + 2 * p.val) = (s.disturbed (s.otherCore p) f).coreCrc (9 + 2 * p.val) →
     s.latent p = false →
     s.rb (SLP_PAIRSTAT.SPLITREQ p) = true →
     (s.pair p).splitCh = some ch.val →
     (s.pair p).events = [] →
     ∃ t : State, exec (.checkpoint p f) s = .next t ∧
       t.pairSt p = pairSplit ∧
       t.rb (SLP_PAIRSTAT.SPLITREQ p) = false ∧
       (t.pair p).splitCh = none ∧
       (t.rf SLP_SUMMARY.SPLIT).testBit p = true ∧
       (∀ u : Fin 63, s.owner u = 2 + p.val → t.owner u = s.desigCore p) ∧
       (t.chan ch).run = none) ∧
  -- different digests
  (∀ (s : State) (p : Fin 3) (f : Option (Fin 2097152)),
     s.pairSt p = pairCkpt →
     (s.pair p).fifo = [] →
     (s.pair p).trail = (s.pair p).lead →
     s.exerciseOk p = true →
     (s.disturbed (s.otherCore p) f).coreCrc (8 + 2 * p.val) ≠ (s.disturbed (s.otherCore p) f).coreCrc (9 + 2 * p.val) →
     s.latent p = false →
     (s.pair p).resyncEnd = false →
     s.rb (SLP_PAIRSTAT.SPLITREQ p) = false →
     (s.pair p).log.length < 4096 →
     ∃ t : State, exec (.checkpoint p f) s = .next t ∧
       t.pairSt p = pairLocked ∧
       t.latent p = true ∧
       (t.rf SLP_SUMMARY.LATENT).testBit p = true ∧
       Raised s t 145 p ∧
       t.rn (SLP_CKTOK.adr p) = s.rn (SLP_CKTOK.adr p) ∧
       (t.pair p).copy0 = (s.pair p).copy0 ∧
       (t.pair p).copy1 = (s.pair p).copy1 ∧
       (t.pair p).log = (s.pair p).log) ∧
  -- different digests with a full log: it asks for the resynchronisation
  (∀ (s : State) (p : Fin 3) (f : Option (Fin 2097152)),
     s.pairSt p = pairCkpt →
     (s.pair p).fifo = [] →
     (s.pair p).trail = (s.pair p).lead →
     s.exerciseOk p = true →
     (s.disturbed (s.otherCore p) f).coreCrc (8 + 2 * p.val) ≠ (s.disturbed (s.otherCore p) f).coreCrc (9 + 2 * p.val) →
     s.latent p = false →
     (s.pair p).resyncEnd = false →
     (s.pair p).logDue = false →
     4096 ≤ (s.pair p).log.length →
     ∃ t : State, exec (.checkpoint p f) s = .next t ∧
       t.pairSt p = pairLocked ∧
       t.latent p = true ∧
       s.raiseOf 145 p ∈ t.tly.raises ∧
       s.raiseOf 151 p ∈ t.tly.raises ∧
       (t.pair p).resyncDue = true ∧
       (t.pair p).logDue = true) ∧
  -- a checkpoint waits for the trailing core
  (∀ (s : State) (p : Fin 3) (f : Option (Fin 2097152)),
     s.pairSt p = pairCkpt →
     (s.pair p).trail ≠ (s.pair p).lead →
     ∃ t : State, exec (.checkpoint p f) s = .next t ∧
       t = s) ∧
  -- different digests at the end of a resynchronisation
  (∀ (s : State) (p : Fin 3) (f : Option (Fin 2097152)),
     s.pairSt p = pairCkpt →
     (s.pair p).fifo = [] →
     (s.pair p).trail = (s.pair p).lead →
     s.exerciseOk p = true →
     (s.disturbed (s.otherCore p) f).coreCrc (8 + 2 * p.val) ≠ (s.disturbed (s.otherCore p) f).coreCrc (9 + 2 * p.val) →
     (s.pair p).resyncEnd = true →
     s.recent p < 2 →
     (s.pair p).copy0.bad = [] →
     ∃ t : State, exec (.checkpoint p f) s = .next t ∧
       t.pairSt p = pairRestart ∧
       Raised s t 145 p ∧
       t.rf (SLP_LASTRST.CAUSE p) = 4) ∧
  -- a failed exercise
  (∀ (s : State) (p : Fin 3) (f : Option (Fin 2097152)),
     s.pairSt p = pairCkpt →
     (s.pair p).fifo = [] →
     (s.pair p).trail = (s.pair p).lead →
     s.exerciseOk p = false →
     (s.disturbed (s.otherCore p) f).coreCrc (8 + 2 * p.val) = (s.disturbed (s.otherCore p) f).coreCrc (9 + 2 * p.val) →
     ∃ t : State, exec (.checkpoint p f) s = .next t ∧
       t.pairSt p = pairFailed ∧
       s.raiseOf 146 p ∈ t.tly.raises ∧
       s.raiseOf 147 p ∈ t.tly.raises) ∧
  -- while LATENT only the exercise
  (∀ (s : State) (p : Fin 3) (f : Option (Fin 2097152)),
     s.pairSt p = pairCkpt →
     (s.pair p).fifo = [] →
     (s.pair p).trail = (s.pair p).lead →
     s.latent p = true →
     (s.pair p).resyncEnd = false →
     s.exerciseOk p = true →
     ∃ t : State, exec (.checkpoint p f) s = .next t ∧
       t.pairSt p = pairLocked ∧
       t.latent p = true ∧
       t.tly = s.tly ∧
       t.rn (SLP_CKTOK.adr p) = s.rn (SLP_CKTOK.adr p) ∧
       t.rn (SLP_DIGLO.adr p) = s.rn (SLP_DIGLO.adr p) ∧
       (t.pair p).log = (s.pair p).log ∧
       (t.pair p).exBit = ((s.pair p).exBit + 1) % 133) ∧
  -- the exercise: each comparator reports a flipped bit, and no difference where there is none
  (∀ (s : State) (p : Fin 3) (f : Option (Fin 2097152)),
     mget none s.cmpStuck (2 * p.val) = none →
     mget none s.cmpStuck (2 * p.val + 1) = none →
     (s.pair p).exBit < 133 →
     ∃ t : State, exec (.checkpoint p f) s = .next t ∧
       s.exerciseOk p = true) ∧
  -- replay done
  (∀ (s : State) (p : Fin 3),
     s.pairSt p = pairRestart →
     (s.pair p).began + 2000 ≤ s.gt →
     (s.pair p).replayed = true →
     ∃ t : State, exec (.restartLive p) s = .next t ∧
       t.pairSt p = (if (s.pair p).ckDue.isSome then pairCkpt else pairLocked) ∧
       t.latent p = false ∧
       RegsBut [SLP_PAIRSTAT.STATE p, SLP_PAIRSTAT.LATENT p, whole (SLP_TOKLO.adr p), whole SLP_SUMMARY.adr] s t) ∧
  -- a replay that has not taken its log
  (∀ (s : State) (p : Fin 3),
     (s.pair p).replayed = false →
     ∃ t : State, exec (.restartLive p) s = .next t ∧
       t = s) ∧
  -- a replay with events still to give again
  (∀ (s : State) (p : Fin 3),
     (s.pair p).again ≠ [] →
     ∃ t : State, exec (.restartLive p) s = .next t ∧
       t = s) ∧
  -- a resynchronisation has caught up
  (∀ (s : State) (p : Fin 3),
     s.pairSt p = pairResync →
     (s.pair p).replayed = true →
     (s.pair p).stop ≤ (s.pair p).lead →
     ∃ t : State, exec (.restartLive p) s = .next t ∧
       t.pairSt p = pairCkpt ∧
       (t.pair p).resyncEnd = true ∧
       t.latent p = s.latent p) ∧
  -- a resynchronisation begins
  (∀ (s : State) (p : Fin 3) (o : Bool) (c : CkCopy),
     s.pairSt p = pairLocked →
     s.latent p = true →
     (s.pair p).resyncDue = true →
     (s.pair p).newest = some c →
     ∃ t : State, exec (.resync p o none) s = .next t ∧
       t.pairSt p = pairResync ∧
       t.rf (SLP_LASTRST.CAUSE p) = 4 ∧
       (t.pair p).resyncDue = false ∧
       (t.pair p).lead = (s.pair p).ck ∧
       (t.pair p).stop = (s.pair p).lead ∧
       (t.pair p).log = (s.pair p).log ∧
       (t.pair p).again = logEvents (s.pair p).log ∧
       t.rf (SLP_PAIRSTAT.RESTARTS p) = s.rf (SLP_PAIRSTAT.RESTARTS p) ∧
       mget [] t.tcm (8 + 2 * p.val) = copyPages (s.pair p).dirty c.tcm (mget [] s.tcm (8 + 2 * p.val)) ∧
       mget [] t.tcm (9 + 2 * p.val) = copyPages (s.pair p).dirty c.tcm (mget [] s.tcm (9 + 2 * p.val)) ∧
       mget [] t.coreRegs (8 + 2 * p.val) = c.regs ∧
       mget [] t.coreRegs (9 + 2 * p.val) = c.regs ∧
       t.rf (SLP_LOG.CKECC p) = (if (s.pair p).copy0.bad = [] ∧ (s.pair p).copy1.bad = [] then s.rf (SLP_LOG.CKECC p) else min (s.rf (SLP_LOG.CKECC p) + 1) 31) ∧
       RegsBut [SLP_PAIRSTAT.STATE p, SLP_PAIRSTAT.RESTARTS p, SLP_PAIRSTAT.FIFO p, SLP_LASTRST.CAUSE p, SLP_LOG.CKECC p, whole (SLP_LASTRSTGT.adr p), whole (SLP_TOKLO.adr p), whole SLP_SUMMARY.adr] s t) ∧
  -- a resynchronisation with a disturbed copy
  (∀ (s : State) (p : Fin 3) (o : Bool) (n : Fin 2097152) (c : CkCopy) (k : Nat) (m : List Host.Cell),
     s.pairSt p = pairLocked →
     s.latent p = true →
     (s.pair p).resyncDue = true →
     (s.pair p).newest = some c →
     k = (if o then s.otherCore p else s.desigCore p) →
     m = copyPages (s.pair p).dirty c.tcm (mget [] s.tcm k) →
     ∃ t : State, exec (.resync p o (some n)) s = .next t ∧
       t.pairSt p = pairResync ∧
       mget [] t.tcm k = memPut m (0x100000 + n.val / 8) (memByte m (0x100000 + n.val / 8) ^^^ BitVec.ofNat 8 (2 ^ (n.val % 8))) ∧
       (t.pair p).lead = (s.pair p).ck ∧
       (t.pair p).stop = (s.pair p).lead) ∧
  -- an event is delivered
  (∀ (s : State) (p : Fin 3) (v : Fin 32) (e : PortEvent),
     s.pairSt p = pairLocked →
     nextEvent (s.pair p).events = some e →
     e.named v = true →
     e.src < 1024 →
     (s.pair p).log.length < 4095 →
     ∃ t : State, exec (.eventDelivery p v) s = .next t ∧
       Sent s t [e.out (2 + p)] ∧
       (t.pair p).events = (s.pair p).events.erase e ∧
       (t.pair p).log = .event (e.d.getD 0) e.vector e.src e.owner :: (s.pair p).log ∧
       (t.pair p).lead = max (s.pair p).lead (e.d.getD 0 - 1) ∧
       t.rf (SLP_LOG.FILL p) = (s.pair p).log.length + 1 ∧
       RegsBut [SLP_LOG.FILL p, whole (SLP_TOKLO.adr p)] s t) ∧
  -- what an event is to its receiver
  (∀ (s : State) (p : Fin 3) (v : Fin 32) (e : PortEvent),
     ∃ t : State, exec (.eventDelivery p v) s = .next t ∧
       (e.src < 512 → e.out (2 + p) = .irq (2 + p) e.vector e.src) ∧
       (512 ≤ e.src → e.src < 1024 → e.out (2 + p) = .tallyIrq (2 + p)) ∧
       (e.named v = true ↔ e.vector = v.val ∨ 512 ≤ e.src)) ∧
  -- a trap is taken
  (∀ (s : State) (p : Fin 3) (v : Fin 32) (e : PortEvent),
     s.pairSt p = pairLocked →
     nextEvent (s.pair p).events = some e →
     1024 ≤ e.src →
     s.trapOf (2 + p) = none →
     ∃ t : State, exec (.eventDelivery p v) s = .next t ∧
       Sent s t [.nmi (2 + p)] ∧
       t.trapOf (2 + p) = some false ∧
       (t.pair p).events = (s.pair p).events.erase e) ∧
  -- a trap that comes in the handler is held, one deep
  (∀ (s : State) (p : Fin 3) (v : Fin 32) (e : PortEvent),
     s.pairSt p = pairLocked →
     nextEvent (s.pair p).events = some e →
     1024 ≤ e.src →
     s.trapOf (2 + p) ≠ none →
     ∃ t : State, exec (.eventDelivery p v) s = .next t ∧
       t.outbox = s.outbox ∧
       t.trapOf (2 + p) = some true ∧
       (t.pair p).events = (s.pair p).events.erase e) ∧
  -- an event of the log given again in a replay
  (∀ (s : State) (p : Fin 3) (v : Fin 32) (e : PortEvent) (d : Nat) (l : List (Nat × PortEvent)),
     s.pairSt p ≠ pairLocked →
     s.coresRun p = true →
     (s.pair p).again = (d, e) :: l →
     e.named v = true →
     e.src < 1024 →
     ∃ t : State, exec (.eventDelivery p v) s = .next t ∧
       Sent s t [e.out (2 + p)] ∧
       (t.pair p).again = l ∧
       (t.pair p).log = (s.pair p).log ∧
       (t.pair p).events = (s.pair p).events ∧
       (t.pair p).lead = max (s.pair p).lead (d - 1) ∧
       RegsBut [whole (SLP_TOKLO.adr p)] s t) ∧
  -- the replay of a restart has every event of the log to give again
  (∀ (s : State) (p : Fin 3) (x : List LogRec) (d : Nat) (v : Nat) (w : Nat) (o : Nat),
     ∃ t : State, exec (.eventDelivery p 0) s = .next t ∧
       logEvents (.event d v w o :: x) = logEvents x ++ [(d, { vector := v, src := w, owner := o })]) ∧
  -- a log filled while LATENT asks once for the resynchronisation
  (∀ (s : State) (p : Fin 3) (v : Fin 32) (e : PortEvent),
     s.pairSt p = pairLocked →
     s.latent p = true →
     nextEvent (s.pair p).events = some e →
     e.named v = true →
     e.src < 1024 →
     4095 ≤ (s.pair p).log.length →
     ∃ t : State, exec (.eventDelivery p v) s = .next t ∧
       ((s.pair p).logDue = false → Raised s t 151 p) ∧
       ((s.pair p).logDue = false → (t.pair p).resyncDue = true) ∧
       ((s.pair p).logDue = true → t.tly.raises = s.tly.raises) ∧
       (t.pair p).logDue = true ∧
       t.pairSt p = pairLocked)

/-- SLP_SPLIT: a pair that is off or has failed, or none of the three, is INVALID_PARAM; one already apart is OK; one that
restarts, resynchronises, rejoins, is LATENT or has a split requested is BUSY; else SPLITREQ is set and the command
ends with the split, or FAILED with 148 where the checkpoint finds the digests different (R238). SLP_REJOIN likewise
with REJOINREQ (R239). REJOIN within 200 µs with a passed exercise and equal digests: the other core holds the
designated core's registers and TCM, the pair is LOCKED with a checkpoint of all pages and its cores' units are the
pair's again; a failed exercise or digest, and REJOIN_TIMEOUT, raise 148 and leave the designated core alone with
every unit (R239, R240). Every REJOIN in time ends in LOCKED or, where the exercise or the digests fail, with the
designated core alone, whatever channel asked for it. -/
def Obligations.PairSplitRejoin : Prop :=
  -- SLP_SPLIT of no usable pair
  (∀ (s : State) (ch : Fin 8) (pair : Byte) (r : HmbRun),
     s.Asked ch (.slpSplit ch pair) r →
     (2 < pair.toNat ∨ s.pairSt pair.toNat = pairOff ∨ s.pairSt pair.toNat = pairFailed) →
     ∃ t : State, exec (.slpSplit ch pair) s = .next (t.finish ch stInvalidParam []) ∧
       t = s.taken ch r) ∧
  -- SLP_SPLIT of a pair already apart
  (∀ (s : State) (ch : Fin 8) (pair : Byte) (r : HmbRun),
     s.Asked ch (.slpSplit ch pair) r →
     pair.toNat ≤ 2 →
     (s.pairSt pair.toNat = pairSplit ∨ s.pairSt pair.toNat = pairSingle) →
     ∃ t : State, exec (.slpSplit ch pair) s = .next (t.finish ch stOk []) ∧
       t = s.taken ch r) ∧
  -- SLP_SPLIT while busy
  (∀ (s : State) (ch : Fin 8) (pair : Byte) (r : HmbRun),
     s.Asked ch (.slpSplit ch pair) r →
     pair.toNat ≤ 2 →
     s.pairSt pair.toNat = pairLocked →
     (s.latent pair.toNat = true ∨ s.rb (SLP_PAIRSTAT.SPLITREQ pair.toNat) = true) →
     ∃ t : State, exec (.slpSplit ch pair) s = .next (t.finish ch stBusy []) ∧
       t = s.taken ch r) ∧
  -- SLP_SPLIT while the pair restarts, resynchronises or rejoins
  (∀ (s : State) (ch : Fin 8) (pair : Byte) (r : HmbRun),
     s.Asked ch (.slpSplit ch pair) r →
     pair.toNat ≤ 2 →
     (s.pairSt pair.toNat = pairRestart ∨ s.pairSt pair.toNat = pairResync ∨ s.pairSt pair.toNat = pairRejoin) →
     ∃ t : State, exec (.slpSplit ch pair) s = .next (t.finish ch stBusy []) ∧
       t = s.taken ch r) ∧
  -- SLP_SPLIT while a checkpoint is due and a split is requested or the pair is LATENT
  (∀ (s : State) (ch : Fin 8) (pair : Byte) (r : HmbRun),
     s.Asked ch (.slpSplit ch pair) r →
     pair.toNat ≤ 2 →
     s.pairSt pair.toNat = pairCkpt →
     (s.latent pair.toNat = true ∨ s.rb (SLP_PAIRSTAT.SPLITREQ pair.toNat) = true) →
     ∃ t : State, exec (.slpSplit ch pair) s = .next (t.finish ch stBusy []) ∧
       t = s.taken ch r) ∧
  -- a requested split ends with a latent mismatch: FAILED, and the pair stays LOCKED
  (∀ (s : State) (p : Fin 3) (f : Option (Fin 2097152)) (ch : Fin 8),
     s.pairSt p = pairCkpt →
     (s.pair p).fifo = [] →
     (s.pair p).trail = (s.pair p).lead →
     s.exerciseOk p = true →
     (s.disturbed (s.otherCore p) f).coreCrc (8 + 2 * p.val) ≠ (s.disturbed (s.otherCore p) f).coreCrc (9 + 2 * p.val) →
     s.latent p = false →
     (s.pair p).resyncEnd = false →
     s.rb (SLP_PAIRSTAT.SPLITREQ p) = true →
     (s.pair p).splitCh = some ch.val →
     (s.pair p).log.length < 4096 →
     (s.chan ch).run.isSome = true →
     ∃ t : State, exec (.checkpoint p f) s = .next t ∧
       t.pairSt p = pairLocked ∧
       t.latent p = true ∧
       s.raiseOf 145 p ∈ t.tly.raises ∧
       s.raiseOf 148 p ∈ t.tly.raises ∧
       t.rb (SLP_PAIRSTAT.SPLITREQ p) = false ∧
       (t.pair p).splitCh = none ∧
       (t.chan ch).run = none ∧
       t.rf (HMB_CHSTAT.STATUS ch) = (if s.respFits ch 16 then stFailed else stBadLength) ∧
       (∀ u : Fin 63, t.owner u = s.owner u)) ∧
  -- SLP_SPLIT accepted
  (∀ (s : State) (ch : Fin 8) (pair : Byte) (r : HmbRun),
     s.Asked ch (.slpSplit ch pair) r →
     pair.toNat ≤ 2 →
     (s.pairSt pair.toNat = pairLocked ∨ s.pairSt pair.toNat = pairCkpt) →
     s.latent pair.toNat = false →
     s.rb (SLP_PAIRSTAT.SPLITREQ pair.toNat) = false →
     ∃ t : State, exec (.slpSplit ch pair) s = .next t ∧
       t.rb (SLP_PAIRSTAT.SPLITREQ pair.toNat) = true ∧
       (t.pair pair.toNat).splitCh = some ch.val ∧
       t.pairSt pair.toNat = s.pairSt pair.toNat ∧
       RegsBut [SLP_PAIRSTAT.SPLITREQ pair.toNat] s t ∧
       t.outbox = s.outbox) ∧
  -- SLP_REJOIN of no usable pair
  (∀ (s : State) (ch : Fin 8) (pair : Byte) (r : HmbRun),
     s.Asked ch (.slpRejoin ch pair) r →
     (2 < pair.toNat ∨ s.pairSt pair.toNat = pairOff ∨ s.pairSt pair.toNat = pairFailed) →
     ∃ t : State, exec (.slpRejoin ch pair) s = .next (t.finish ch stInvalidParam []) ∧
       t = s.taken ch r) ∧
  -- SLP_REJOIN of a pair that runs LOCKED
  (∀ (s : State) (ch : Fin 8) (pair : Byte) (r : HmbRun),
     s.Asked ch (.slpRejoin ch pair) r →
     pair.toNat ≤ 2 →
     s.runsLocked pair.toNat = true →
     ∃ t : State, exec (.slpRejoin ch pair) s = .next (t.finish ch stOk []) ∧
       t = s.taken ch r) ∧
  -- SLP_REJOIN while busy
  (∀ (s : State) (ch : Fin 8) (pair : Byte) (r : HmbRun),
     s.Asked ch (.slpRejoin ch pair) r →
     pair.toNat ≤ 2 →
     s.pairSt pair.toNat = pairRejoin →
     ∃ t : State, exec (.slpRejoin ch pair) s = .next (t.finish ch stBusy []) ∧
       t = s.taken ch r) ∧
  -- SLP_REJOIN accepted
  (∀ (s : State) (ch : Fin 8) (pair : Byte) (r : HmbRun),
     s.Asked ch (.slpRejoin ch pair) r →
     pair.toNat ≤ 2 →
     (s.pairSt pair.toNat = pairSplit ∨ s.pairSt pair.toNat = pairSingle) →
     s.rb (SLP_PAIRSTAT.REJOINREQ pair.toNat) = false →
     ∃ t : State, exec (.slpRejoin ch pair) s = .next t ∧
       t.rb (SLP_PAIRSTAT.REJOINREQ pair.toNat) = true ∧
       (t.pair pair.toNat).rejoinCh = some ch.val ∧
       RegsBut [SLP_PAIRSTAT.REJOINREQ pair.toNat] s t ∧
       t.outbox = s.outbox) ∧
  -- REJOIN done
  (∀ (s : State) (p : Fin 3),
     s.pairSt p = pairRejoin →
     s.gt ≤ (s.pair p).rejoinAt + 200000 →
     s.exerciseOk p = true →
     (s.pair p).rejoinCh = none →
     ∃ t : State, exec (.rejoin p none) s = .next t ∧
       t.pairSt p = pairLocked ∧
       mget [] t.tcm (s.otherCore p) = mget [] s.tcm (s.desigCore p) ∧
       mget [] t.coreRegs (s.otherCore p) = mget [] s.coreRegs (s.desigCore p) ∧
       (t.pair p).ck = (s.pair p).lead ∧
       t.rf (SLP_LOG.DIRTY p) = 255 ∧
       t.rn (SLP_CKGT.adr p) = (s.pair p).rejoinAt % 2 ^ 32 ∧
       t.rb (SLP_PAIRSTAT.REJOINREQ p) = false ∧
       (∀ u : Fin 63, s.owner u = 8 + 2 * p.val ∨ s.owner u = 9 + 2 * p.val → t.owner u = 2 + p.val) ∧
       (∀ u : Fin 63, s.owner u ≠ 8 + 2 * p.val → s.owner u ≠ 9 + 2 * p.val → t.owner u = s.owner u) ∧
       t.tly = { s.tly with traps := t.tly.traps } ∧
       t.trapOf (2 + p) = s.trapOf (s.desigCore p)) ∧
  -- REJOIN with a copy whose digest differs
  (∀ (s : State) (p : Fin 3) (n : Fin 2097152),
     s.pairSt p = pairRejoin →
     s.gt ≤ (s.pair p).rejoinAt + 200000 →
     s.exerciseOk p = true →
     (s.pair p).rejoinCh = none →
     (s.pair p).events = [] →
     s.coreCrc (s.desigCore p) ≠ (({ s with tcm := mset s.tcm (s.otherCore p) (mget [] s.tcm (s.desigCore p)), coreRegs := mset s.coreRegs (s.otherCore p) (mget [] s.coreRegs (s.desigCore p)) } : State).tcmFlip (s.otherCore p) n).coreCrc (s.otherCore p) →
     ∃ t : State, exec (.rejoin p (some n)) s = .next t ∧
       t.pairSt p = pairSingle ∧
       Raised s t 148 p ∧
       (∀ u : Fin 63, s.owner u = s.otherCore p → t.owner u = s.desigCore p) ∧
       t.rb (SLP_PAIRSTAT.REJOINREQ p) = false ∧
       (t.rf SLP_SUMMARY.SPLIT).testBit p = true ∧
       mget [] t.tcm (s.desigCore p) = mget [] s.tcm (s.desigCore p)) ∧
  -- REJOIN with a disturbed copy
  (∀ (s : State) (p : Fin 3) (n : Fin 2097152),
     s.pairSt p = pairRejoin →
     s.gt ≤ (s.pair p).rejoinAt + 200000 →
     s.exerciseOk p = true →
     (s.pair p).rejoinCh = none →
     (s.pair p).events = [] →
     mget [] s.tcm (s.desigCore p) = [] →
     mget [] s.coreRegs (s.desigCore p) = [] →
     ∃ t : State, exec (.rejoin p (some n)) s = .next t ∧
       t.pairSt p = pairSingle ∧
       Raised s t 148 p ∧
       (∀ u : Fin 63, s.owner u = s.otherCore p → t.owner u = s.desigCore p) ∧
       t.rb (SLP_PAIRSTAT.REJOINREQ p) = false ∧
       (t.rf SLP_SUMMARY.SPLIT).testBit p = true) ∧
  -- REJOIN with a failed exercise
  (∀ (s : State) (p : Fin 3),
     s.pairSt p = pairRejoin →
     s.gt ≤ (s.pair p).rejoinAt + 200000 →
     s.exerciseOk p = false →
     ∃ t : State, exec (.rejoin p none) s = .next t ∧
       t.pairSt p = pairSingle ∧
       s.raiseOf 146 p ∈ t.tly.raises ∧
       s.raiseOf 148 p ∈ t.tly.raises) ∧
  -- REJOIN_TIMEOUT
  (∀ (s : State) (p : Fin 3),
     s.pairSt p = pairRejoin →
     (s.pair p).rejoinAt + 200000 < s.gt →
     (s.pair p).rejoinCh = none →
     (s.pair p).events = [] →
     ∃ t : State, exec (.rejoinTimeout p) s = .next t ∧
       t.pairSt p = pairSingle ∧
       Raised s t 148 p ∧
       (∀ u : Fin 63, s.owner u = s.otherCore p → t.owner u = s.desigCore p) ∧
       t.rb (SLP_PAIRSTAT.REJOINREQ p) = false) ∧
  -- any REJOIN in time
  (∀ (s : State) (p : Fin 3) (f : Option (Fin 2097152)),
     s.pairSt p = pairRejoin →
     s.gt ≤ (s.pair p).rejoinAt + 200000 →
     ∃ t : State, exec (.rejoin p f) s = .next t ∧
       (t.pairSt p = pairLocked ∨ t.pairSt p = pairSingle) ∧
       (t.pairSt p = pairLocked → s.exerciseOk p = true) ∧
       (f = none → s.exerciseOk p = true → t.pairSt p = pairLocked) ∧
       t.rb (SLP_PAIRSTAT.REJOINREQ p) = false ∧
       (t.pair p).rejoinCh = none) ∧
  -- any REJOIN_TIMEOUT
  (∀ (s : State) (p : Fin 3),
     s.pairSt p = pairRejoin →
     (s.pair p).rejoinAt + 200000 < s.gt →
     ∃ t : State, exec (.rejoinTimeout p) s = .next t ∧
       t.pairSt p = pairSingle ∧
       s.raiseOf 148 p ∈ t.tly.raises ∧
       t.rb (SLP_PAIRSTAT.REJOINREQ p) = false ∧
       (t.pair p).rejoinCh = none)

/-- BANK_RUN_WRITE by a holder of the bank's unit: 1 arms a stopped bank in use, with its legs unprimed; 0 stops a bank of
the pads, with RUN, RUNNING and PEND 0 and its pending set discarded (R70, R96). BANK_COMMIT puts a request with its
GT at the bank's arbiter, and has no effect while the bank is disabled (R73, R75, R96). COMMIT_ACCEPT takes the oldest
request of a started bank: the shadows become the pending set whole, SUPERSEDED tells that an older one was replaced,
NEXT that a reload decision came before it (R73, R75, R76). A commit that a strike entry launched is taken the same. -/
def Obligations.PwmRunAndCommit : Prop :=
  -- arming
  (∀ (s : State) (req : Fin 32) (b : Fin 8),
     s.on = true →
     s.mayWrite req b false = true →
     s.rb (PWM_BANKCTL.RUN b) = false →
     s.rf (PWM_BANKCFG.PMIN b) ≠ 0 →
     ∃ t : State, exec (.bankRunWrite req b true) s = .next t ∧
       t.rf (PWM_BANKCTL.RUN b) = 1 ∧
       (∀ m ∈ s.drivenLegs b, t.rf (PWM_LEGSTAT.PRIMED m) = 0 ∧ t.rn (PWM_LEGACC.adr m) = 0 ∧ t.rn (PWM_LEGDITH.adr m) = 0) ∧
       (t.bank b).started = false ∧
       RegsBut (PWM_BANKCTL.RUN b :: [3 * b.val, 3 * b.val + 1, 3 * b.val + 2].flatMap (fun m => [whole (PWM_LEGACC.adr m), whole (PWM_LEGACC2.adr m), whole (PWM_LEGDITH.adr m), whole (PWM_LEGSTAT.adr m)])) s t ∧
       t = { s with regs := t.regs, pwm := t.pwm }) ∧
  -- stopping a bank of the pads
  (∀ (s : State) (req : Fin 32) (b : Fin 8),
     s.on = true →
     s.mayWrite req b false = true →
     s.rb (PWM_BANKCTL.RUN b) = true →
     s.linkBank b = false →
     ∃ t : State, exec (.bankRunWrite req b false) s = .next t ∧
       t.rf (PWM_BANKCTL.RUN b) = 0 ∧
       t.rf (PWM_BANKSTAT.RUNNING b) = 0 ∧
       t.rf (PWM_BANKSTAT.PEND b) = 0 ∧
       (t.bank b).pend = none ∧
       (∀ m ∈ s.drivenLegs b, (t.leg m).hiOn = false ∧ (t.leg m).loOn = false ∧ t.rf (PWM_LEGSTAT.PRIMED m) = 0) ∧
       RegsBut ([PWM_BANKCTL.RUN b, PWM_BANKSTAT.RUNNING b, PWM_BANKSTAT.PEND b] ++ [3 * b.val, 3 * b.val + 1, 3 * b.val + 2].flatMap (fun m => [whole (PWM_LEGACC.adr m), whole (PWM_LEGACC2.adr m), whole (PWM_LEGDITH.adr m), whole (PWM_LEGSTAT.adr m)])) s t ∧
       t = { s with regs := t.regs, pwm := t.pwm }) ∧
  -- a commit of an enabled bank
  (∀ (s : State) (req : Fin 32) (b : Fin 8),
     s.on = true →
     s.mayWrite req b false = true →
     s.bankEnabled b = true →
     ∃ t : State, exec (.bankCommit req b) s = .next t ∧
       (t.bank b).reqs = (s.bank b).reqs ++ [{ at_ := s.gt }] ∧
       RegsBut [] s t ∧
       t = { s with pwm := t.pwm }) ∧
  -- a commit of a disabled bank (R96)
  (∀ (s : State) (req : Fin 32) (b : Fin 8),
     s.on = true →
     s.mayWrite req b false = true →
     s.bankEnabled b = false →
     ∃ t : State, exec (.bankCommit req b) s = .next t ∧
       t = s) ∧
  -- an accepted commit of a started bank
  (∀ (s : State) (b : Fin 8) (q : CommitReq) (rest : List CommitReq),
     (s.bank b).reqs = q :: rest →
     (s.bank b).started = true →
     ((s.bank b).decided = true ∨ q.at_ < s.reloadAt b) →
     q.entry = none →
     q.stopped = false →
     s.rb (PWM_BANKCTL.RUN b) = true →
     ∃ t : State, exec (.commitAccept b) s = .next t ∧
       (t.bank b).pend = some (s.shadows b) ∧
       (t.bank b).reqs = rest ∧
       t.rf (PWM_BANKSTAT.PEND b) = 1 ∧
       t.rf (PWM_BANKSTAT.NEXT b) = b2n q.lost ∧
       t.rf (PWM_BANKSTAT.SUPERSEDED b) = (if (s.bank b).pend.isSome then 1 else s.rf (PWM_BANKSTAT.SUPERSEDED b)) ∧
       RegsBut [PWM_BANKSTAT.PEND b, PWM_BANKSTAT.NEXT b, PWM_BANKSTAT.SUPERSEDED b] s t ∧
       t = { s with regs := t.regs, pwm := t.pwm }) ∧
  -- any accepted commit of a started bank
  (∀ (s : State) (b : Fin 8) (q : CommitReq) (rest : List CommitReq),
     (s.bank b).reqs = q :: rest →
     (s.bank b).started = true →
     ((s.bank b).decided = true ∨ q.at_ < s.reloadAt b) →
     q.stopped = false →
     s.rb (PWM_BANKCTL.RUN b) = true →
     ∃ t : State, exec (.commitAccept b) s = .next t ∧
       (t.bank b).pend = some (s.shadows b) ∧
       (t.bank b).reqs = rest ∧
       t.rf (PWM_BANKSTAT.PEND b) = 1 ∧
       t.rf (PWM_BANKSTAT.NEXT b) = b2n q.lost ∧
       (∀ m : Nat, q.entry = some m → (t.entry m).inst.all (fun i => i.doneAt.isSome) = true) ∧
       RegsBut [PWM_BANKSTAT.PEND b, PWM_BANKSTAT.NEXT b, PWM_BANKSTAT.SUPERSEDED b] s t ∧
       t = { s with regs := t.regs, pwm := t.pwm, spn := t.spn, hwSet := t.hwSet }) ∧
  -- the first accepted commit of a bank
  (∀ (s : State) (b : Fin 8) (q : CommitReq) (rest : List CommitReq),
     (s.bank b).reqs = q :: rest →
     (s.bank b).started = false →
     q.stopped = false →
     s.rb (PWM_BANKCTL.RUN b) = true →
     s.periodOk b (s.shadows b).period = true →
     ∃ t : State, exec (.commitAccept b) s = .next t ∧
       (t.bank b).pend = some (s.shadows b) ∧
       (t.bank b).started = true ∧
       (t.bank b).decided = false ∧
       (t.bank b).reqs = rest ∧
       t.rf (PWM_BANKSTAT.PEND b) = 1 ∧
       (t.bank b).nextB = firstAt (s.gt + s.rlead b + 20) (s.shadows b).period (s.rf (PWM_BANKPHASE.PHASE b)))

/-- RELOAD_DECISION of a running bank of the pads with no leg in use: a pending set with a legal period is the coming one,
PEND is 0, the decision stands; a set whose period R69 does not allow is rejected with PERR and 53 PWM_COMMIT_REJECT
(R74, R77). PERIOD_BOUNDARY after a decision: the coming set's period and duties apply, PWM_APPLYGTn holds the
boundary's GT, DITHK counts, and the next boundary is one period on (R70 to R75). SWITCH_EDGE of a leg of the pads
drives its switch at the planned time (R72). -/
def Obligations.PwmReload : Prop :=
  -- a decision with a legal set
  (∀ (s : State) (b : Fin 8) (set : BankSet),
     (s.bank b).started = true →
     (s.bank b).decided = false →
     s.reloadAt b ≤ s.gt →
     (s.bank b).reqs = [] →
     (s.bank b).pend = some set →
     s.periodOk b set.period = true →
     s.linkBank b = false →
     (∀ l : Fin 3, s.rf (PWM_LEGSET.MODE (3 * b + l)) = 0) →
     ∃ t : State, exec (.reloadDecision b) s = .next t ∧
       (t.bank b).coming = some set ∧
       (t.bank b).decided = true ∧
       (t.bank b).pend = none ∧
       t.rf (PWM_BANKSTAT.PEND b) = 0 ∧
       RegsBut [PWM_BANKSTAT.PEND b] s t ∧
       t = { s with regs := t.regs, pwm := t.pwm }) ∧
  -- a decision that rejects the set (R77)
  (∀ (s : State) (b : Fin 8) (set : BankSet),
     (s.bank b).started = true →
     (s.bank b).decided = false →
     s.reloadAt b ≤ s.gt →
     (s.bank b).reqs = [] →
     (s.bank b).pend = some set →
     s.periodOk b set.period = false →
     s.linkBank b = false →
     s.rb (PWM_BANKSTAT.RUNNING b) = false →
     ∃ t : State, exec (.reloadDecision b) s = .next t ∧
       (t.bank b).started = false ∧
       (t.bank b).pend = none ∧
       t.rf (PWM_BANKSTAT.PEND b) = 0 ∧
       t.rf (PWM_BANKSTAT.PERR b) = 1 ∧
       Raised s t 53 (b * 256) ∧
       RegsBut [PWM_BANKSTAT.PEND b, PWM_BANKSTAT.PERR b] s t ∧
       t = { s with regs := t.regs, pwm := t.pwm, tly := t.tly, hwSet := t.hwSet }) ∧
  -- a boundary
  (∀ (s : State) (b : Fin 8) (set : BankSet),
     (s.bank b).started = true →
     (s.bank b).decided = true →
     (s.bank b).nextB ≤ s.gt →
     (s.bank b).coming = some set →
     s.linkBank b = false →
     ∃ t : State, exec (.periodBoundary b) s = .next t ∧
       t.rf (PWM_PERIOD.PERIOD b) = set.period % 2 ^ 24 ∧
       t.rn (PWM_APPLYGT.adr b) = (s.bank b).nextB % 2 ^ 32 ∧
       (t.bank b).lastB = (s.bank b).nextB ∧
       (t.bank b).nextB = (s.bank b).nextB + set.period % 2 ^ 24 ∧
       (t.bank b).decided = false ∧
       (t.bank b).coming = none ∧
       t.rf (PWM_BANKSTAT.RUNNING b) = 1 ∧
       t.rf (PWM_BANKSTAT.DITHK b) = (if s.rb (PWM_BANKSTAT.RUNNING b) then (s.rf (PWM_BANKSTAT.DITHK b) + 1) % 16 else 0) ∧
       (∀ l : Fin 3, (t.leg (3 * b + l)).act = set.leg l ∧ t.rf (PWM_DUTY.C (3 * b + l)) = (set.leg l).c % 2 ^ 29) ∧
       t = { s with regs := t.regs, pwm := t.pwm }) ∧
  -- a due decision of any bank with a legal pending set
  (∀ (s : State) (b : Fin 8) (set : BankSet),
     (s.bank b).started = true →
     (s.bank b).decided = false →
     s.reloadAt b ≤ s.gt →
     (∀ q ∈ (s.bank b).reqs, s.reloadAt b < q.at_ + 20) →
     (s.bank b).pend = some set →
     s.periodOk b set.period = true →
     ∃ t : State, exec (.reloadDecision b) s = .next t ∧
       (t.bank b).coming = some set ∧
       (t.bank b).decided = true ∧
       (t.bank b).pend = none ∧
       (t.bank b).nextB = (s.bank b).nextB ∧
       t.rf (PWM_BANKSTAT.PEND b) = 0) ∧
  -- a due decision of a running bank without a pending set
  (∀ (s : State) (b : Fin 8),
     (s.bank b).started = true →
     (s.bank b).decided = false →
     s.reloadAt b ≤ s.gt →
     (∀ q ∈ (s.bank b).reqs, s.reloadAt b < q.at_ + 20) →
     (s.bank b).pend = none →
     s.rb (PWM_BANKSTAT.RUNNING b) = true →
     ∃ t : State, exec (.reloadDecision b) s = .next t ∧
       (t.bank b).coming = none ∧
       (t.bank b).decided = true ∧
       (t.bank b).nextB = (s.bank b).nextB) ∧
  -- a due boundary of any bank
  (∀ (s : State) (b : Fin 8),
     (s.bank b).started = true →
     (s.bank b).decided = true →
     (s.bank b).nextB ≤ s.gt →
     ∃ t : State, exec (.periodBoundary b) s = .next t ∧
       (t.bank b).lastB = (s.bank b).nextB ∧
       (t.bank b).nextB = (s.bank b).nextB + t.rf (PWM_PERIOD.PERIOD b) ∧
       t.rf (PWM_PERIOD.PERIOD b) = ((s.bank b).coming.map (fun x => x.period % 2 ^ 24)).getD (s.rf (PWM_PERIOD.PERIOD b)) ∧
       (t.bank b).decided = false ∧
       (t.bank b).coming = none ∧
       t.rf (PWM_BANKSTAT.RUNNING b) = 1) ∧
  -- the end of a TIMER leg's high interval
  (∀ (s : State) (m : Fin 24) (e : Edge) (rest : List Edge),
     (s.leg m).plan = e :: rest →
     s.rf (PWM_LEGSET.MODE m) = modeTimer →
     e.t ≤ 32 * s.gt + 31 →
     e.hi = true →
     e.on = false →
     ∃ t : State, exec (.switchEdge m) s = .next t ∧
       (t.leg m).plan = rest ∧
       (t.leg m).hiOn = false ∧
       RegsBut [] s t ∧
       t = { s with pwm := t.pwm }) ∧
  -- the start of one, with no blanking window open
  (∀ (s : State) (m : Fin 24) (e : Edge) (rest : List Edge),
     (s.leg m).plan = e :: rest →
     s.rf (PWM_LEGSET.MODE m) = modeTimer →
     e.t ≤ 32 * s.gt + 31 →
     e.hi = true →
     e.on = true →
     (s.leg m).hiOn = false →
     s.pwm.blank = [] →
     ∃ t : State, exec (.switchEdge m) s = .next t ∧
       (t.leg m).plan = rest ∧
       (t.leg m).hiOn = true ∧
       (∀ k : Fin 4, s.rb (PWM_TRIPCFG.EN k) = true → s.rf (PWM_TRIPCFG.BLKLEG k) = m → mget 0 t.pwm.blank k ≤ e.t + 320 * s.rf (PWM_TRIPCFG.BLKMAX k) ∧ (rest.find? (fun x => x.hi && !x.on && decide (e.t ≤ x.t))).all (fun x => decide (mget 0 t.pwm.blank k ≤ x.t)) = true) ∧
       RegsBut [] s t ∧
       t = { s with pwm := t.pwm }) ∧
  -- an edge of a leg of the pads
  (∀ (s : State) (m : Fin 24) (e : Edge) (rest : List Edge),
     (s.leg m).plan = e :: rest →
     s.linkBank (m / 3) = false →
     s.rf (PWM_LEGSET.MODE m) ≠ modeTimer →
     e.t ≤ 32 * s.gt + 31 →
     ∃ t : State, exec (.switchEdge m) s = .next t ∧
       (t.leg m).plan = rest ∧
       (if e.hi then (t.leg m).hiOn = e.on ∧ (t.leg m).loOn = (s.leg m).loOn else (t.leg m).loOn = e.on ∧ (t.leg m).hiOn = (s.leg m).hiOn) ∧
       RegsBut [] s t ∧
       t = { s with pwm := t.pwm })

/-- DELAY_LINE_CALIBRATION counts in CALCNT; a result of 28 to 36 taps on a bank that does not run sets CALOK, on a
running bank waits for LINE_SWAP at a later boundary, and a result outside the range changes nothing else until the
last good one is more than 500 µs old, when CALOK clears and 52 is raised once (R83). BOTH_ON_DETECT of a leg whose
live commands are both on latches it: LATCH 1, OFFCAUSE 2, PRIMED 0, its switches off, and 48 PWM_BOTH_ON (R91).
TRIP_ASSERT of an enabled input that was inactive sets LEVEL; outside its blanking window it trips: TRIPPED of the
input and of every bank it names, 50 PWM_TRIP; inside, it sets BLANKSEEN and raises 51 (R87 to R89). BLANKING_CLOSE
trips if an assertion that began in the window lasts, and else only ends the window. TRIP_INPUT_RELEASE clears LEVEL
and leaves TRIPPED (R87, R90). -/
def Obligations.PwmTripsAndInterlock : Prop :=
  -- a good calibration of a bank that does not run
  (∀ (s : State) (b : Fin 8) (x : Nat),
     s.on = true →
     28 ≤ x →
     x ≤ 36 →
     s.rb (PWM_BANKSTAT.RUNNING b) = false →
     ∃ t : State, exec (.delayLineCalibration b x) s = .next t ∧
       (t.rf PWM_FINESTAT.CALOK).testBit b = true ∧
       t.rf PWM_FINESTAT.CALCNT = (s.rf PWM_FINESTAT.CALCNT + 1) % 65536 ∧
       (∀ c : Fin 8, c ≠ b → (t.rf PWM_FINESTAT.CALOK).testBit c = (s.rf PWM_FINESTAT.CALOK).testBit c) ∧
       RegsBut [PWM_FINESTAT.CALOK, PWM_FINESTAT.CALCNT] s t ∧
       t = { s with regs := t.regs, pwm := t.pwm }) ∧
  -- a good calibration of a running bank
  (∀ (s : State) (b : Fin 8) (x : Nat),
     s.on = true →
     28 ≤ x →
     x ≤ 36 →
     s.rb (PWM_BANKSTAT.RUNNING b) = true →
     ∃ t : State, exec (.delayLineCalibration b x) s = .next t ∧
       (t.bank b).swapAt = some s.gt ∧
       t.rf PWM_FINESTAT.CALCNT = (s.rf PWM_FINESTAT.CALCNT + 1) % 65536 ∧
       RegsBut [PWM_FINESTAT.CALCNT] s t ∧
       t = { s with regs := t.regs, pwm := t.pwm }) ∧
  -- a bad calibration soon after a good one
  (∀ (s : State) (b : Fin 8) (x : Nat),
     s.on = true →
     (x < 28 ∨ 36 < x) →
     s.now ≤ (s.bank b).calGood.getD s.pmu.releasedAt + 500000 →
     ∃ t : State, exec (.delayLineCalibration b x) s = .next t ∧
       t.rf PWM_FINESTAT.CALCNT = (s.rf PWM_FINESTAT.CALCNT + 1) % 65536 ∧
       RegsBut [PWM_FINESTAT.CALCNT] s t ∧
       t = { s with regs := t.regs }) ∧
  -- a bad calibration 500 µs after the last good one
  (∀ (s : State) (b : Fin 8) (x : Nat),
     s.on = true →
     (x < 28 ∨ 36 < x) →
     (s.bank b).calGood.getD s.pmu.releasedAt + 500000 < s.now →
     (s.bank b).calEpisode = false →
     ∃ t : State, exec (.delayLineCalibration b x) s = .next t ∧
       (t.rf PWM_FINESTAT.CALOK).testBit b = false ∧
       (t.bank b).calEpisode = true ∧
       t.rf PWM_FINESTAT.CALCNT = (s.rf PWM_FINESTAT.CALCNT + 1) % 65536 ∧
       (if s.linkBank b = false ∧ s.rf (PWM_BANKCFG.PMIN b) ≠ 0 then Raised s t 52 (b * 256) else t.tly = s.tly) ∧
       RegsBut [PWM_FINESTAT.CALCNT, PWM_FINESTAT.CALOK] s t) ∧
  -- LINE_SWAP at a boundary after it
  (∀ (s : State) (b : Fin 8) (g : Nat),
     (s.bank b).swapAt = some g →
     g < (s.bank b).lastB →
     ∃ t : State, exec (.lineSwap b) s = .next t ∧
       (t.rf PWM_FINESTAT.CALOK).testBit b = true ∧
       (t.bank b).swapAt = none ∧
       RegsBut [PWM_FINESTAT.CALOK] s t ∧
       t = { s with regs := t.regs, pwm := t.pwm }) ∧
  -- BOTH_ON_DETECT
  (∀ (s : State) (m : Fin 24),
     s.on = true →
     (s.rf (PWM_LEGSET.MODE m) = modeComp ∨ s.rf (PWM_LEGSET.MODE m) = modeIndep) →
     (s.leg m).hiOn = true →
     (s.leg m).loOn = true →
     ∃ t : State, exec (.bothOnDetect m) s = .next t ∧
       t.rf (PWM_LEGSTAT.LATCH m) = 1 ∧
       t.rf (PWM_LEGSTAT.OFFCAUSE m) = 2 ∧
       t.rf (PWM_LEGSTAT.PRIMED m) = 0 ∧
       (t.leg m).hiOn = false ∧
       (t.leg m).loOn = false ∧
       (t.leg m).plan = [] ∧
       Raised s t 48 (m + m / 3 * 256) ∧
       RegsBut [whole (PWM_LEGACC.adr m), whole (PWM_LEGACC2.adr m), whole (PWM_LEGDITH.adr m), whole (PWM_LEGSTAT.adr m)] s t ∧
       t = { s with regs := t.regs, pwm := t.pwm, tly := t.tly }) ∧
  -- a trip
  (∀ (s : State) (k : Fin 4),
     s.on = true →
     s.rb (PWM_TRIPCFG.EN k) = true →
     s.vioDead 1 = false →
     (s.rf PWM_TRIPSTAT.LEVEL).testBit k = false →
     s.blanked k = false →
     ∃ t : State, exec (.tripAssert k) s = .next t ∧
       (t.rf PWM_TRIPSTAT.LEVEL).testBit k = true ∧
       (t.rf PWM_TRIPSTAT.TRIPPED).testBit k = true ∧
       (∀ b : Fin 8, (s.rf (PWM_TRIPCFG.BANKS k)).testBit b = true → t.rf (PWM_BANKSTAT.TRIPPED b) = 1 ∧ (t.bank b).pend = none) ∧
       (∀ b : Fin 8, (s.rf (PWM_TRIPCFG.BANKS k)).testBit b = false → t.reg (PWM_BANKSTAT.adr b) = s.reg (PWM_BANKSTAT.adr b)) ∧
       Raised s t 50 (lowBit 8 (s.rf (PWM_TRIPCFG.BANKS k)) * 256 + k * 65536)) ∧
  -- an assertion inside the window
  (∀ (s : State) (k : Fin 4),
     s.on = true →
     s.rb (PWM_TRIPCFG.EN k) = true →
     s.vioDead 1 = false →
     (s.rf PWM_TRIPSTAT.LEVEL).testBit k = false →
     s.blanked k = true →
     ∃ t : State, exec (.tripAssert k) s = .next t ∧
       (t.rf PWM_TRIPSTAT.LEVEL).testBit k = true ∧
       (t.rf PWM_TRIPSTAT.BLANKSEEN).testBit k = true ∧
       Raised s t 51 (pwmDetail (s.rf (PWM_TRIPCFG.BLKLEG k)) (s.rf (PWM_TRIPCFG.BLKLEG k) / 3) k) ∧
       RegsBut [PWM_TRIPSTAT.LEVEL, PWM_TRIPSTAT.BLANKSEEN] s t ∧
       t = { s with regs := t.regs, tly := t.tly, hwSet := t.hwSet, pwm := { s.pwm with tripIn := t.pwm.tripIn, blankHit := t.pwm.blankHit } }) ∧
  -- the window ends without an assertion that began in it and lasts
  (∀ (s : State) (k : Fin 4),
     mget 0 s.pwm.blank k ≠ 0 →
     s.blanked k = false →
     ((s.rf PWM_TRIPSTAT.LEVEL).testBit k = false ∨ s.pwm.blankHit.testBit k = false) →
     ∃ t : State, exec (.blankingClose k) s = .next t ∧
       mget 0 t.pwm.blank k = 0 ∧
       t = { s with pwm := t.pwm }) ∧
  -- the window ends while an assertion that began in it lasts
  (∀ (s : State) (k : Fin 4),
     mget 0 s.pwm.blank k ≠ 0 →
     s.blanked k = false →
     (s.rf PWM_TRIPSTAT.LEVEL).testBit k = true →
     s.pwm.blankHit.testBit k = true →
     ∃ t : State, exec (.blankingClose k) s = .next t ∧
       mget 0 t.pwm.blank k = 0 ∧
       (t.rf PWM_TRIPSTAT.TRIPPED).testBit k = true ∧
       Raised s t 50 (lowBit 8 (s.rf (PWM_TRIPCFG.BANKS k)) * 256 + k * 65536)) ∧
  -- the release
  (∀ (s : State) (k : Fin 4),
     s.on = true →
     s.vioDead 1 = false →
     ∃ t : State, exec (.tripInputRelease k) s = .next t ∧
       (t.rf PWM_TRIPSTAT.LEVEL).testBit k = false ∧
       t.rf PWM_TRIPSTAT.TRIPPED = s.rf PWM_TRIPSTAT.TRIPPED ∧
       (∀ j : Fin 4, j ≠ k → (t.rf PWM_TRIPSTAT.LEVEL).testBit j = (s.rf PWM_TRIPSTAT.LEVEL).testBit j) ∧
       RegsBut [PWM_TRIPSTAT.LEVEL] s t ∧
       t = { s with regs := t.regs, pwm := { s.pwm with tripIn := t.pwm.tripIn, blankHit := t.pwm.blankHit } })

/-- In every state in which FREE, INFLIGHT and HELD of a queue sum to its size: an accepted POST, TAKE or RETURN of the
end that may make it moves n from the one count to the next and the sum stays the size; TAKE advances CIDX; with IRQEN
a post sets the queue's pending bit. A count of 0 or beyond what it draws from is refused: no count moves, 209 is
raised, OVERFLOW counts, and a post sets LASTPOST to NO_CREDIT; a POST to a queue disabled or not admitted sets
NOT_ADMITTED, counts in NOTADMIT and raises nothing (R371). A doorbell of another requester is discarded with KIND 1
(R370). -/
def Obligations.QueueDoorbells : Prop :=
  -- POST
  (∀ (s : State) (req : Fin 32) (q : Fin 128) (n : Fin 8192),
     s.on = true →
     s.isProd q req false = true →
     s.rb (QUE_CFG.EN q) = true →
     s.rb (QUE_STAT.ADMIT q) = true →
     n.val ≠ 0 →
     n.val ≤ s.free_ q →
     s.free_ q + s.inflight q + s.held q = s.queSize q →
     s.rf (QUE_CFG.SIZEEXP q) ≤ 12 →
     ∃ t : State, exec (.quePost req q n) s = .next t ∧
       t.free_ q = s.free_ q - n ∧
       t.inflight q = s.inflight q + n ∧
       t.held q = s.held q ∧
       t.free_ q + t.inflight q + t.held q = s.queSize q ∧
       t.rf (QUE_STAT.LASTPOST q) = 0 ∧
       (s.rb (QUE_CFG.IRQEN q) = true → (t.rf (QUE_PEND.PEND (q / 32))).testBit (q % 32) = true) ∧
       (s.rb (QUE_CFG.IRQEN q) = false → t.slp = s.slp ∧ t.outbox = s.outbox) ∧
       t.tly = s.tly ∧
       t.mem = s.mem ∧
       RegsBut [QUE_CNT.FREE q, QUE_CNT.INFLIGHT q, QUE_STAT.LASTPOST q, QUE_PEND.PEND (q / 32)] s t) ∧
  -- POST without credit
  (∀ (s : State) (req : Fin 32) (q : Fin 128) (n : Fin 8192),
     s.on = true →
     s.isProd q req false = true →
     s.rb (QUE_CFG.EN q) = true →
     s.rb (QUE_STAT.ADMIT q) = true →
     (n.val = 0 ∨ s.free_ q < n) →
     ∃ t : State, exec (.quePost req q n) s = .next t ∧
       t.rf (QUE_STAT.LASTPOST q) = 1 ∧
       t.rf QUE_SUMMARY.OVERFLOW = min (s.rf QUE_SUMMARY.OVERFLOW + 1) 65535 ∧
       Raised s t 209 (q + 256) ∧
       RegsBut [QUE_STAT.LASTPOST q, QUE_SUMMARY.OVERFLOW] s t ∧
       t = { s with regs := t.regs, tly := t.tly }) ∧
  -- POST not admitted
  (∀ (s : State) (req : Fin 32) (q : Fin 128) (n : Fin 8192),
     s.on = true →
     s.isProd q req false = true →
     (s.rb (QUE_CFG.EN q) = false ∨ s.rb (QUE_STAT.ADMIT q) = false) →
     ∃ t : State, exec (.quePost req q n) s = .next t ∧
       t.rf (QUE_STAT.LASTPOST q) = 2 ∧
       t.rf QUE_SUMMARY.NOTADMIT = min (s.rf QUE_SUMMARY.NOTADMIT + 1) 65535 ∧
       RegsBut [QUE_STAT.LASTPOST q, QUE_SUMMARY.NOTADMIT] s t ∧
       t = { s with regs := t.regs }) ∧
  -- TAKE
  (∀ (s : State) (req : Fin 32) (q : Fin 128) (n : Fin 8192),
     s.on = true →
     s.isCons q req false = true →
     n.val ≠ 0 →
     n.val ≤ s.inflight q →
     s.free_ q + s.inflight q + s.held q = s.queSize q →
     s.rf (QUE_CFG.SIZEEXP q) ≤ 12 →
     ∃ t : State, exec (.queTake req q n) s = .next t ∧
       t.inflight q = s.inflight q - n ∧
       t.held q = s.held q + n ∧
       t.cidx q = (s.cidx q + n) % s.queSize q ∧
       t.free_ q = s.free_ q ∧
       t.free_ q + t.inflight q + t.held q = s.queSize q ∧
       RegsBut [QUE_CNT.INFLIGHT q, QUE_POS.HELD q, QUE_POS.CIDX q] s t ∧
       t = { s with regs := t.regs, sty := t.sty }) ∧
  -- TAKE beyond INFLIGHT
  (∀ (s : State) (req : Fin 32) (q : Fin 128) (n : Fin 8192),
     s.on = true →
     s.isCons q req false = true →
     (n.val = 0 ∨ s.inflight q < n) →
     ∃ t : State, exec (.queTake req q n) s = .next t ∧
       t.rf QUE_SUMMARY.OVERFLOW = min (s.rf QUE_SUMMARY.OVERFLOW + 1) 65535 ∧
       Raised s t 209 (q + 512) ∧
       RegsBut [QUE_SUMMARY.OVERFLOW] s t ∧
       t = { s with regs := t.regs, tly := t.tly }) ∧
  -- RETURN
  (∀ (s : State) (req : Fin 32) (q : Fin 128) (n : Fin 8192),
     s.on = true →
     s.isCons q req false = true →
     n.val ≠ 0 →
     n.val ≤ s.held q →
     s.free_ q + s.inflight q + s.held q = s.queSize q →
     s.rf (QUE_CFG.SIZEEXP q) ≤ 12 →
     ∃ t : State, exec (.queReturn req q n) s = .next t ∧
       t.held q = s.held q - n ∧
       t.free_ q = s.free_ q + n ∧
       t.inflight q = s.inflight q ∧
       t.free_ q + t.inflight q + t.held q = s.queSize q ∧
       RegsBut [QUE_POS.HELD q, QUE_CNT.FREE q] s t ∧
       t = { s with regs := t.regs, sty := t.sty }) ∧
  -- RETURN beyond HELD
  (∀ (s : State) (req : Fin 32) (q : Fin 128) (n : Fin 8192),
     s.on = true →
     s.isCons q req false = true →
     (n.val = 0 ∨ s.held q < n) →
     ∃ t : State, exec (.queReturn req q n) s = .next t ∧
       t.rf QUE_SUMMARY.OVERFLOW = min (s.rf QUE_SUMMARY.OVERFLOW + 1) 65535 ∧
       Raised s t 209 (q + 768) ∧
       RegsBut [QUE_SUMMARY.OVERFLOW] s t ∧
       t = { s with regs := t.regs, tly := t.tly }) ∧
  -- a POST of another requester
  (∀ (s : State) (req : Fin 32) (q : Fin 128) (n : Fin 8192),
     s.on = true →
     s.isProd q req false = false →
     ∃ t : State, exec (.quePost req q n) s = .next t ∧
       Discarded s t (QUE_POST.adr q) req 1) ∧
  -- a TAKE of another requester
  (∀ (s : State) (req : Fin 32) (q : Fin 128) (n : Fin 8192),
     s.on = true →
     s.isCons q req false = false →
     ∃ t : State, exec (.queTake req q n) s = .next t ∧
       Discarded s t (QUE_TAKE.adr q) req 1) ∧
  -- a RETURN of another requester
  (∀ (s : State) (req : Fin 32) (q : Fin 128) (n : Fin 8192),
     s.on = true →
     s.isCons q req false = false →
     ∃ t : State, exec (.queReturn req q n) s = .next t ∧
       Discarded s t (QUE_RET.adr q) req 1)

/-- QUE_CONFIG of a disabled queue with allowed ends and a ring inside one bank, EN 1: FREE is the size, INFLIGHT, HELD
and CIDX 0, LASTPOST OK, and it answers OK with QUE_STAT when the producer owns the slots (R374, R379), else
NOT_ADMITTED with nothing changed; with EN 0 the words are written in the same two cases; an end that is not allowed
is INVALID_OWNER (R370), an enabled queue BUSY. QUE_DISABLE clears every count. STEELYARD_AUDIT writes STY_AUDITGT;
with every balance kept it reports nothing, and a queue whose counts do not balance raises 211 and counts in FAILS
(R380, R381). -/
def Obligations.QueueConfiguration : Prop :=
  -- enabled and admitted
  (∀ (s : State) (ch : Fin 8) (q : Byte) (c : Word) (b : Word) (r : HmbRun),
     s.Asked ch (.queConfig ch q c b) r →
     q.toNat ≤ 127 →
     endAllowed (c.toNat / 2 ^ 19 % 32) = true →
     endAllowed (c.toNat / 2 ^ 14 % 32) = true →
     s.ringOk q.toNat c.toNat b.toNat = true →
     c.toNat / 2 ^ 24 % 32 ≠ 31 →
     s.rb (QUE_CFG.EN q.toNat) = false →
     c.toNat.testBit 31 = true →
     ((s.taken ch r).queEnable q.toNat c.toNat b.toNat).rb (QUE_STAT.ADMIT q.toNat) = true →
     ∃ t : State, exec (.queConfig ch q c b) s = .next (t.finish ch stOk (leBytes 4 (t.rn (QUE_STAT.adr q.toNat)))) ∧
       t.rb (QUE_CFG.EN q.toNat) = true ∧
       t.free_ q.toNat = 2 ^ (c.toNat % 16) ∧
       t.inflight q.toNat = 0 ∧
       t.held q.toNat = 0 ∧
       t.cidx q.toNat = 0 ∧
       t.rf (QUE_STAT.LASTPOST q.toNat) = 0 ∧
       t.rn (QUE_BASE.adr q.toNat) = b.toNat ∧
       t.rb (QUE_STAT.ADMIT q.toNat) = true ∧
       RegsBut [whole (QUE_CFG.adr q.toNat), whole (QUE_BASE.adr q.toNat), whole (QUE_CNT.adr q.toNat), whole (QUE_POS.adr q.toNat), whole (QUE_STAT.adr q.toNat)] s t) ∧
  -- not admitted
  (∀ (s : State) (ch : Fin 8) (q : Byte) (c : Word) (b : Word) (r : HmbRun),
     s.Asked ch (.queConfig ch q c b) r →
     q.toNat ≤ 127 →
     endAllowed (c.toNat / 2 ^ 19 % 32) = true →
     endAllowed (c.toNat / 2 ^ 14 % 32) = true →
     s.ringOk q.toNat c.toNat b.toNat = true →
     c.toNat / 2 ^ 24 % 32 ≠ 31 →
     s.rb (QUE_CFG.EN q.toNat) = false →
     c.toNat.testBit 31 = true →
     ((s.taken ch r).queEnable q.toNat c.toNat b.toNat).rb (QUE_STAT.ADMIT q.toNat) = false →
     ∃ t : State, exec (.queConfig ch q c b) s = .next (t.finish ch stNotAdmitted []) ∧
       t = s.taken ch r) ∧
  -- configured without EN, and admitted
  (∀ (s : State) (ch : Fin 8) (q : Byte) (c : Word) (b : Word) (r : HmbRun),
     s.Asked ch (.queConfig ch q c b) r →
     q.toNat ≤ 127 →
     endAllowed (c.toNat / 2 ^ 19 % 32) = true →
     endAllowed (c.toNat / 2 ^ 14 % 32) = true →
     s.ringOk q.toNat c.toNat b.toNat = true →
     c.toNat / 2 ^ 24 % 32 ≠ 31 →
     s.rb (QUE_CFG.EN q.toNat) = false →
     c.toNat.testBit 31 = false →
     ((((s.taken ch r).setN (QUE_CFG.adr q.toNat) (c.toNat &&& 0xFFFFC00F)).setN (QUE_BASE.adr q.toNat) (b.toNat &&& 0xFFFFFFC0)).readmit q.toNat).rb (QUE_STAT.ADMIT q.toNat) = true →
     ∃ t : State, exec (.queConfig ch q c b) s = .next (t.finish ch stOk (leBytes 4 (t.rn (QUE_STAT.adr q.toNat)))) ∧
       t.rb (QUE_CFG.EN q.toNat) = false ∧
       t.rf (QUE_CFG.SIZEEXP q.toNat) = c.toNat % 16 ∧
       t.rn (QUE_BASE.adr q.toNat) = b.toNat ∧
       t.rb (QUE_STAT.ADMIT q.toNat) = true ∧
       RegsBut [whole (QUE_CFG.adr q.toNat), whole (QUE_BASE.adr q.toNat), whole (QUE_STAT.adr q.toNat)] s t) ∧
  -- configured without EN, and not admitted
  (∀ (s : State) (ch : Fin 8) (q : Byte) (c : Word) (b : Word) (r : HmbRun),
     s.Asked ch (.queConfig ch q c b) r →
     q.toNat ≤ 127 →
     endAllowed (c.toNat / 2 ^ 19 % 32) = true →
     endAllowed (c.toNat / 2 ^ 14 % 32) = true →
     s.ringOk q.toNat c.toNat b.toNat = true →
     c.toNat / 2 ^ 24 % 32 ≠ 31 →
     s.rb (QUE_CFG.EN q.toNat) = false →
     c.toNat.testBit 31 = false →
     ((((s.taken ch r).setN (QUE_CFG.adr q.toNat) (c.toNat &&& 0xFFFFC00F)).setN (QUE_BASE.adr q.toNat) (b.toNat &&& 0xFFFFFFC0)).readmit q.toNat).rb (QUE_STAT.ADMIT q.toNat) = false →
     ∃ t : State, exec (.queConfig ch q c b) s = .next (t.finish ch stNotAdmitted []) ∧
       t = s.taken ch r) ∧
  -- an end that is not allowed
  (∀ (s : State) (ch : Fin 8) (q : Byte) (c : Word) (b : Word) (r : HmbRun),
     s.Asked ch (.queConfig ch q c b) r →
     q.toNat ≤ 127 →
     (endAllowed (c.toNat / 2 ^ 19 % 32) = false ∨ endAllowed (c.toNat / 2 ^ 14 % 32) = false) →
     ∃ t : State, exec (.queConfig ch q c b) s = .next (t.finish ch stInvalidOwner []) ∧
       t = s.taken ch r) ∧
  -- an enabled queue
  (∀ (s : State) (ch : Fin 8) (q : Byte) (c : Word) (b : Word) (r : HmbRun),
     s.Asked ch (.queConfig ch q c b) r →
     q.toNat ≤ 127 →
     endAllowed (c.toNat / 2 ^ 19 % 32) = true →
     endAllowed (c.toNat / 2 ^ 14 % 32) = true →
     s.ringOk q.toNat c.toNat b.toNat = true →
     c.toNat / 2 ^ 24 % 32 ≠ 31 →
     s.rb (QUE_CFG.EN q.toNat) = true →
     ∃ t : State, exec (.queConfig ch q c b) s = .next (t.finish ch stBusy []) ∧
       t = s.taken ch r) ∧
  -- QUE_DISABLE
  (∀ (s : State) (ch : Fin 8) (q : Byte) (r : HmbRun),
     s.Asked ch (.queDisable ch q) r →
     q.toNat ≤ 127 →
     ∃ t : State, exec (.queDisable ch q) s = .next (t.finish ch stOk []) ∧
       t.rb (QUE_CFG.EN q.toNat) = false ∧
       t.rn (QUE_CNT.adr q.toNat) = 0 ∧
       t.rn (QUE_POS.adr q.toNat) = 0 ∧
       RegsBut [QUE_CFG.EN q.toNat, whole (QUE_CNT.adr q.toNat), whole (QUE_POS.adr q.toNat)] s t) ∧
  -- an audit that finds nothing
  (∀ (s : State),
     s.on = true →
     s.sty.lastChain < s.gt / 500000 →
     s.auditList.all (fun x => x.2.2 == 0) = true →
     ∃ t : State, exec (.steelyardAudit) s = .next t ∧
       t.rn STY_AUDITGT.adr = s.gt / 500000 * 500000 % 2 ^ 32 ∧
       t.sty.lastChain = s.gt / 500000 ∧
       t.tly = s.tly ∧
       RegsBut [whole STY_AUDITGT.adr] s t) ∧
  -- a queue out of balance
  (∀ (s : State) (q : Fin 128),
     s.on = true →
     s.sty.lastChain < s.gt / 500000 →
     s.rb (QUE_CFG.EN q) = true →
     s.free_ q + s.inflight q + s.held q ≠ s.queSize q →
     ∃ t : State, exec (.steelyardAudit) s = .next t ∧
       s.raiseOf 211 (q + 512) ∈ t.tly.raises ∧
       (s.rf STY_STAT.FAILS < t.rf STY_STAT.FAILS ∨ t.rf STY_STAT.FAILS = 65535) ∧
       t.rb STY_FAILINFO.VALID = true ∧
       t.rn STY_AUDITGT.adr = s.gt / 500000 * 500000 % 2 ^ 32)

/-- With no switch pending and no priority write in the last 10 ns: ARB_REQUEST at a free resource starts a unit of the
requesting port; a request at a busy one waits, and a port's next transfer behind the one on its way. At ARB_UNIT_END
with other ports requesting, the port whose reserved slot SLOT points at wins; where there is none, a non-privileged
port at LIMIT wins; else the higher PRIO (R357); the winner's WAIT is 0, each loser's one more, SLOT steps, DECISIONS
counts. With nobody requesting the resource is free, and SLOT_IDLE_ADVANCE steps SLOT every 50 ns while no port
requests (R358). A read at the flash port does not end while a program or erase step occupies its bank (R362); which
bank it names is the model's free value (log entry 19). A request at a free resource is granted to the requester that
the decision chooses, whatever else waits; an idle slot passes with a switch pending, too. -/
def Obligations.Arbitration : Prop :=
  -- a request at a free resource
  (∀ (s : State) (a : Fin 27) (p : Fin 16) (n : Fin 65),
     s.on = true →
     portWired a p = true →
     n.val ≠ 0 →
     s.rb (ARB_STAT.BUSY a) = false →
     (s.arbiter a).units = [] →
     s.rb (ARB_CTL.PEND a) = false →
     ∃ t : State, exec (.arbRequest (Fin.ofNat 34 a) p n) s = .next t ∧
       t.rb (ARB_STAT.BUSY a) = true ∧
       t.rf (ARB_STAT.HOLDER a) = p ∧
       (t.rf (ARB_STAT.REQ a)).testBit p = decide (1 < n.val) ∧
       mget 0 (t.arbiter a).units p = n - 1 ∧
       t.arbWait a p = 0 ∧
       t.rf (ARB_DEC.DECISIONS a) = (s.rf (ARB_DEC.DECISIONS a) + 1) % 2 ^ 32 ∧
       t.rf (ARB_STAT.SLOT a) = (s.rf (ARB_STAT.SLOT a) + 1) % 64 ∧
       (∀ o : Fin 16, o ≠ p → t.arbWait a o = s.arbWait a o) ∧
       t.tly = s.tly) ∧
  -- a request at a busy one
  (∀ (s : State) (a : Fin 27) (p : Fin 16) (n : Fin 65),
     s.on = true →
     portWired a p = true →
     n.val ≠ 0 →
     s.rb (ARB_STAT.BUSY a) = true →
     s.arbTransfers a p = false →
     ∃ t : State, exec (.arbRequest (Fin.ofNat 34 a) p n) s = .next t ∧
       (t.rf (ARB_STAT.REQ a)).testBit p = true ∧
       mget 0 (t.arbiter a).units p = n ∧
       t.rf (ARB_STAT.HOLDER a) = s.rf (ARB_STAT.HOLDER a) ∧
       RegsBut [ARB_STAT.REQ a] s t ∧
       t = { s with regs := t.regs, arb := t.arb }) ∧
  -- a request of a port whose transfer is on its way
  (∀ (s : State) (a : Fin 27) (p : Fin 16) (n : Fin 65),
     s.on = true →
     portWired a p = true →
     n.val ≠ 0 →
     s.arbTransfers a p = true →
     ∃ t : State, exec (.arbRequest (Fin.ofNat 34 a) p n) s = .next t ∧
       mget [] (t.arbiter a).behind p = mget [] (s.arbiter a).behind p ++ [n.val] ∧
       (t.arbiter a).units = (s.arbiter a).units ∧
       t = { s with arb := t.arb }) ∧
  -- the reserved slot
  (∀ (s : State) (a : Fin 27) (p : Fin 16) (o : Fin 16),
     (a.val ≠ 24 ∨ s.sec.proc = none) →
     s.on = true →
     s.rb (ARB_STAT.BUSY a) = true →
     s.rf (ARB_STAT.HOLDER a) ≠ p →
     s.rf (ARB_STAT.HOLDER a) ≠ o →
     p ≠ o →
     (s.arbiter a).units = [(p.val, 1), (o.val, 1)] →
     mget [] (s.arbiter a).behind (s.rf (ARB_STAT.HOLDER a)) = [] →
     s.slotOf a (s.rf (ARB_STAT.SLOT a)) = some o.val →
     s.rb (ARB_CTL.PEND a) = false →
     ∃ t : State, exec (.arbUnitEnd (Fin.ofNat 34 a)) s = .next t ∧
       t.rf (ARB_STAT.HOLDER a) = o ∧
       t.arbWait a o = 0 ∧
       t.arbWait a p = min (s.arbWait a p + 1) 255 ∧
       t.rf (ARB_STAT.SLOT a) = (s.rf (ARB_STAT.SLOT a) + 1) % 64 ∧
       t.rf (ARB_DEC.DECISIONS a) = (s.rf (ARB_DEC.DECISIONS a) + 1) % 2 ^ 32 ∧
       t.rb (ARB_STAT.BUSY a) = true) ∧
  -- the forced win
  (∀ (s : State) (a : Fin 27) (p : Fin 16) (o : Fin 16),
     (a.val ≠ 24 ∨ s.sec.proc = none) →
     s.on = true →
     s.rb (ARB_STAT.BUSY a) = true →
     s.rf (ARB_STAT.HOLDER a) ≠ p →
     s.rf (ARB_STAT.HOLDER a) ≠ o →
     p ≠ o →
     (s.arbiter a).units = [(p.val, 1), (o.val, 1)] →
     mget [] (s.arbiter a).behind (s.rf (ARB_STAT.HOLDER a)) = [] →
     s.slotOf a (s.rf (ARB_STAT.SLOT a)) = none →
     portPriv o = false →
     s.rf (ARB_CTL.LIMIT a) ≤ s.arbWait a o →
     (portPriv p = true ∨ s.arbWait a p < s.rf (ARB_CTL.LIMIT a)) →
     s.rb (ARB_CTL.PEND a) = false →
     ∃ t : State, exec (.arbUnitEnd (Fin.ofNat 34 a)) s = .next t ∧
       t.rf (ARB_STAT.HOLDER a) = o ∧
       t.arbWait a o = 0 ∧
       t.arbWait a p = min (s.arbWait a p + 1) 255) ∧
  -- the background ranking
  (∀ (s : State) (a : Fin 27) (p : Fin 16) (o : Fin 16),
     (a.val ≠ 24 ∨ s.sec.proc = none) →
     s.on = true →
     s.rb (ARB_STAT.BUSY a) = true →
     s.rf (ARB_STAT.HOLDER a) ≠ p →
     s.rf (ARB_STAT.HOLDER a) ≠ o →
     p ≠ o →
     (s.arbiter a).units = [(p.val, 1), (o.val, 1)] →
     mget [] (s.arbiter a).behind (s.rf (ARB_STAT.HOLDER a)) = [] →
     (s.arbiter a).prioAt = none →
     s.slotOf a (s.rf (ARB_STAT.SLOT a)) = none →
     s.arbWait a o < s.rf (ARB_CTL.LIMIT a) →
     s.arbWait a p < s.rf (ARB_CTL.LIMIT a) →
     prioOf (s.rn (ARB_PRIOLO.adr a)) (s.rn (ARB_PRIOHI.adr a)) p < prioOf (s.rn (ARB_PRIOLO.adr a)) (s.rn (ARB_PRIOHI.adr a)) o →
     s.rb (ARB_CTL.PEND a) = false →
     ∃ t : State, exec (.arbUnitEnd (Fin.ofNat 34 a)) s = .next t ∧
       t.rf (ARB_STAT.HOLDER a) = o ∧
       t.arbWait a o = 0 ∧
       t.arbWait a p = min (s.arbWait a p + 1) 255) ∧
  -- a unit ends while another port requests
  (∀ (s : State) (a : Fin 34),
     (a.val ≠ 24 ∨ s.sec.proc = none) →
     s.on = true →
     s.rb (ARB_STAT.BUSY a) = true →
     (s.arbiter a).units.any (fun u => u.1 != s.rf (ARB_STAT.HOLDER a) && u.2 != 0) = true →
     (s.arbiter a).units.all (fun u => decide (u.1 < 16)) = true →
     mget [] (s.arbiter a).behind (s.rf (ARB_STAT.HOLDER a)) = [] →
     ∃ t : State, exec (.arbUnitEnd a) s = .next t ∧
       t.rb (ARB_STAT.BUSY a) = true ∧
       (s.arbiter a).units.any (fun u => u.1 == t.rf (ARB_STAT.HOLDER a) && u.2 != 0) = true ∧
       t.arbWait a (t.rf (ARB_STAT.HOLDER a)) = 0 ∧
       t.rf (ARB_DEC.DECISIONS a) = (s.rf (ARB_DEC.DECISIONS a) + 1) % 2 ^ 32 ∧
       t.rf (ARB_STAT.SLOT a) = (s.rf (ARB_STAT.SLOT a) + 1) % 64 ∧
       (t.arbiter a).idleAt = s.now) ∧
  -- a unit ends and only its holder has more
  (∀ (s : State) (a : Fin 34) (n : Nat),
     (a.val ≠ 24 ∨ s.sec.proc = none) →
     s.on = true →
     s.rb (ARB_STAT.BUSY a) = true →
     (s.arbiter a).units = [(s.rf (ARB_STAT.HOLDER a), n + 1)] →
     ∃ t : State, exec (.arbUnitEnd a) s = .next t ∧
       t.rb (ARB_STAT.BUSY a) = true ∧
       t.rf (ARB_STAT.HOLDER a) = s.rf (ARB_STAT.HOLDER a) ∧
       mget 0 (t.arbiter a).units (s.rf (ARB_STAT.HOLDER a)) = n ∧
       RegsBut [ARB_STAT.REQ a] s t ∧
       t = { s with regs := t.regs, arb := t.arb }) ∧
  -- a unit ends and nobody requests
  (∀ (s : State) (a : Fin 27),
     (a.val ≠ 24 ∨ s.sec.proc = none) →
     s.on = true →
     s.rb (ARB_STAT.BUSY a) = true →
     (s.arbiter a).units = [] →
     mget [] (s.arbiter a).behind (s.rf (ARB_STAT.HOLDER a)) = [] →
     ∃ t : State, exec (.arbUnitEnd (Fin.ofNat 34 a)) s = .next t ∧
       t.rb (ARB_STAT.BUSY a) = false ∧
       RegsBut [ARB_STAT.BUSY a] s t ∧
       t = { s with regs := t.regs, arb := t.arb }) ∧
  -- a unit ends, the last of its transfer, and its port has another
  (∀ (s : State) (a : Fin 27) (n : Nat) (l : List Nat),
     (a.val ≠ 24 ∨ s.sec.proc = none) →
     s.on = true →
     s.rb (ARB_STAT.BUSY a) = true →
     (s.arbiter a).units = [] →
     mget [] (s.arbiter a).behind (s.rf (ARB_STAT.HOLDER a)) = n :: l →
     n ≠ 0 →
     ∃ t : State, exec (.arbUnitEnd (Fin.ofNat 34 a)) s = .next t ∧
       t.rb (ARB_STAT.BUSY a) = true ∧
       t.rf (ARB_STAT.HOLDER a) = s.rf (ARB_STAT.HOLDER a) ∧
       mget 0 (t.arbiter a).units (s.rf (ARB_STAT.HOLDER a)) = n - 1 ∧
       mget [] (t.arbiter a).behind (s.rf (ARB_STAT.HOLDER a)) = l ∧
       t.rf (ARB_DEC.DECISIONS a) = (s.rf (ARB_DEC.DECISIONS a) + 1) % 2 ^ 32) ∧
  -- a unit at the flash port while a program or erase step runs: whether it names the step's bank, and so does not end, is a free value (R362)
  (∀ (s : State) (p : Proc),
     s.on = true →
     s.rb (ARB_STAT.BUSY 24) = true →
     s.sec.proc = some p →
     ∃ t : State, exec (.arbUnitEnd 24) s = .next t ∧
       (Config.freeBool s.free = true → t = { s with free := s.free + 1 }) ∧
       t.mem = s.mem ∧
       t.flash = s.flash ∧
       t.sec = s.sec) ∧
  -- SLOT_IDLE_ADVANCE
  (∀ (s : State) (a : Fin 34),
     s.on = true →
     s.rf (ARB_STAT.REQ a) = 0 →
     (s.arbiter a).idleAt + 50 ≤ s.now →
     s.rb (ARB_CTL.PEND a) = false →
     ∃ t : State, exec (.slotIdleAdvance a) s = .next t ∧
       t.rf (ARB_STAT.SLOT a) = (s.rf (ARB_STAT.SLOT a) + 1) % 64 ∧
       (t.arbiter a).idleAt = s.now ∧
       RegsBut [ARB_STAT.SLOT a] s t ∧
       t = { s with regs := t.regs, arb := t.arb }) ∧
  -- a switch at the wrap (R364)
  (∀ (s : State) (a : Fin 34),
     s.on = true →
     s.rf (ARB_STAT.REQ a) = 0 →
     (s.arbiter a).idleAt + 50 ≤ s.now →
     s.rb (ARB_CTL.PEND a) = true →
     s.rf (ARB_STAT.SLOT a) = 63 →
     (s.arbiter a).switchAt + 10 ≤ s.now →
     ∃ t : State, exec (.slotIdleAdvance a) s = .next t ∧
       t.rf (ARB_STAT.SLOT a) = 0 ∧
       t.rf (ARB_CTL.ACTIVE a) = 1 - s.rf (ARB_CTL.ACTIVE a) ∧
       t.rb (ARB_CTL.PEND a) = false ∧
       RegsBut ([ARB_STAT.SLOT a, ARB_CTL.ACTIVE a, ARB_CTL.PEND a] ++ (List.range 128).map (fun q => whole (QUE_STAT.adr q))) s t) ∧
  -- any request at a free resource
  (∀ (s : State) (a : Fin 27) (p : Fin 16) (n : Fin 65),
     s.on = true →
     portWired a p = true →
     n.val ≠ 0 →
     s.rb (ARB_STAT.BUSY a) = false →
     ∃ t : State, exec (.arbRequest (Fin.ofNat 34 a) p n) s = .next t ∧
       t.rb (ARB_STAT.BUSY a) = true ∧
       t.rf (ARB_DEC.DECISIONS a) = (s.rf (ARB_DEC.DECISIONS a) + 1) % 2 ^ 32 ∧
       t.rf (ARB_STAT.SLOT a) = (s.rf (ARB_STAT.SLOT a) + 1) % 64) ∧
  -- any idle slot
  (∀ (s : State) (a : Fin 34),
     s.on = true →
     s.rf (ARB_STAT.REQ a) = 0 →
     (s.arbiter a).idleAt + 50 ≤ s.now →
     ∃ t : State, exec (.slotIdleAdvance a) s = .next t ∧
       t.rf (ARB_STAT.SLOT a) = (s.rf (ARB_STAT.SLOT a) + 1) % 64 ∧
       (t.arbiter a).idleAt = s.now ∧
       RegsBut ([ARB_STAT.SLOT a, ARB_CTL.ACTIVE a, ARB_CTL.PEND a, ARB_CTL.NEXT a] ++ (List.range 128).map (fun q => whole (QUE_STAT.adr q))) s t ∧
       (s.rb (ARB_CTL.PEND a) = false → RegsBut [ARB_STAT.SLOT a] s t) ∧
       t.mem = s.mem)

/-- ARB_TABLE_WRITE of the Headstock to a table neither in force nor pending writes the word with the reserved bits 0; to
one in force or pending it is discarded, counts in TBLREJ and raises 212 (R365); of another requester it is discarded
with KIND 2 (R25). ARB_PRIO_SET writes both priority words and no wait counter (R363). ARB_TABLE_SET writes the table
not in force, LIMIT, and requests the switch; with a switch pending it is BUSY (R364); a table that leaves a bound
undefined is NOT_ADMITTED (R367). -/
def Obligations.ArbiterTables : Prop :=
  -- a table not in force
  (∀ (s : State) (a : Fin 34) (k : Fin 2) (w : Fin 16) (v : Word),
     s.on = true →
     k.val ≠ s.rf (ARB_CTL.ACTIVE a) →
     s.rb (ARB_CTL.PEND a) = false →
     ∃ t : State, exec (.arbTableWrite 1 a k w v) s = .next t ∧
       t.rn (ARB_TBL.adr a (16 * k + w)) = v.toNat &&& 0x8F8F8F8F ∧
       RegsBut [whole (ARB_TBL.adr a (16 * k + w))] s t ∧
       t = { s with regs := t.regs }) ∧
  -- a table in force or pending
  (∀ (s : State) (a : Fin 34) (k : Fin 2) (w : Fin 16) (v : Word),
     s.on = true →
     (k.val = s.rf (ARB_CTL.ACTIVE a) ∨ s.rb (ARB_CTL.PEND a) = true) →
     ∃ t : State, exec (.arbTableWrite 1 a k w v) s = .next t ∧
       t.rf ARB_SUMMARY.TBLREJ = min (s.rf ARB_SUMMARY.TBLREJ + 1) 65535 ∧
       Raised s t 212 a ∧
       RegsBut [ARB_SUMMARY.TBLREJ] s t ∧
       t = { s with regs := t.regs, tly := t.tly }) ∧
  -- another requester
  (∀ (s : State) (req : Fin 32) (a : Fin 34) (k : Fin 2) (w : Fin 16) (v : Word),
     s.on = true →
     req.val ≠ 1 →
     ∃ t : State, exec (.arbTableWrite req a k w v) s = .next t ∧
       Discarded s t (ARB_TBL.adr a (16 * k + w)) req 2) ∧
  -- ARB_PRIO_SET
  (∀ (s : State) (ch : Fin 8) (a : Byte) (lo : Word) (hi : Word) (r : HmbRun),
     s.Asked ch (.arbPrioSet ch a lo hi) r →
     a.toNat ≤ 33 →
     ∃ t : State, exec (.arbPrioSet ch a lo hi) s = .next (t.finish ch stOk []) ∧
       t.reg (ARB_PRIOLO.adr a.toNat) = lo ∧
       t.reg (ARB_PRIOHI.adr a.toNat) = hi ∧
       RegsBut [whole (ARB_PRIOLO.adr a.toNat), whole (ARB_PRIOHI.adr a.toNat)] s t) ∧
  -- ARB_TABLE_SET
  (∀ (s : State) (ch : Fin 8) (a : Byte) (l : Byte) (sl : Vector Byte 64) (r : HmbRun),
     s.Asked ch (.arbTableSet ch a l sl) r →
     a.toNat ≤ 33 →
     l.toNat ≠ 0 →
     s.rb (ARB_CTL.PEND a.toNat) = false →
     s.tableOk a.toNat (sl.toList.map (·.toNat)) = true →
     ∃ t : State, exec (.arbTableSet ch a l sl) s = .next (t.finish ch stOk []) ∧
       (∀ w : Fin 16, t.rn (ARB_TBL.adr a.toNat (16 * (1 - s.rf (ARB_CTL.ACTIVE a.toNat)) + w)) = leAt sl.toList (4 * w) 4 &&& 0x8F8F8F8F) ∧
       t.rf (ARB_CTL.LIMIT a.toNat) = l.toNat ∧
       t.rb (ARB_CTL.PEND a.toNat) = true ∧
       t.rb (ARB_CTL.NEXT a.toNat) = false ∧
       t.rf (ARB_CTL.ACTIVE a.toNat) = s.rf (ARB_CTL.ACTIVE a.toNat) ∧
       (∀ w : Fin 16, t.rn (ARB_TBL.adr a.toNat (16 * s.rf (ARB_CTL.ACTIVE a.toNat) + w)) = s.rn (ARB_TBL.adr a.toNat (16 * s.rf (ARB_CTL.ACTIVE a.toNat) + w)))) ∧
  -- ARB_TABLE_SET with a switch pending
  (∀ (s : State) (ch : Fin 8) (a : Byte) (l : Byte) (sl : Vector Byte 64) (r : HmbRun),
     s.Asked ch (.arbTableSet ch a l sl) r →
     a.toNat ≤ 33 →
     l.toNat ≠ 0 →
     s.rb (ARB_CTL.PEND a.toNat) = true →
     ∃ t : State, exec (.arbTableSet ch a l sl) s = .next (t.finish ch stBusy []) ∧
       t = s.taken ch r) ∧
  -- ARB_TABLE_SET without a needed slot
  (∀ (s : State) (ch : Fin 8) (a : Byte) (l : Byte) (sl : Vector Byte 64) (r : HmbRun),
     s.Asked ch (.arbTableSet ch a l sl) r →
     a.toNat ≤ 33 →
     l.toNat ≠ 0 →
     s.rb (ARB_CTL.PEND a.toNat) = false →
     s.tableOk a.toNat (sl.toList.map (·.toNat)) = false →
     ∃ t : State, exec (.arbTableSet ch a l sl) s = .next (t.finish ch stNotAdmitted []) ∧
       t = s.taken ch r)

/-- VOTE_SEND in INTEGRATE or SERVICE, no injection rule armed: the vote goes to every peer whose bridge is up (R250), and
RMODE stands in LANE_STATE and TSK_MODESTAT as R252 gives it: HALT for an unfit lane; TRIAD or PAIR for a fit one with
two peers or one as members, all in CONTINUE with HELD 0 and two windings in service, its mission unchanged; with
none, SOLO with HELD 1 and the mission STOP for cause 0, its STOPGT now. A lane whose HELD is set stays in SOLO.
VOTE_RECEIVE of a member's vote in CONTINUE: its HELD gives SOLO and STOP; its STOP is adopted with cause 3 and the
earliest STOPGT; its PARK gives PARK, HALT and no output requested (R253, R255). -/
def Obligations.RedundancyModes : Prop :=
  -- an unfit lane
  (∀ (s : State),
     s.st = stIntegrate →
     s.rf AST_INJCTL.ARM = 0 →
     s.ast.held = [] →
     ∃ t : State, exec (.voteSend) s = .next t ∧
       t.rmode = rmHalt ∧
       t.rf TSK_MODESTAT.RMODE = rmHalt ∧
       t.rf TSK_MODESTAT.MEMBERS = maskOf s.memberPeers % 8 ∧
       t.mission = s.mission ∧
       Sent s t ((s.peersOf.filter s.bridgeUp).map (fun k => .bridge k (.vote s.redecide.myVote))) ∧
       t.rdm.lastVote = s.now) ∧
  -- two members or one
  (∀ (s : State),
     s.fit = true →
     s.rf AST_INJCTL.ARM = 0 →
     s.ast.held = [] →
     s.mission = misContinue →
     s.heldMode = false →
     s.singleSource = false →
     (∀ k ∈ s.memberPeers, (s.rdmPeer k).vote.all (fun v => v.mission == misContinue && !v.held) = true) →
     s.memberPeers ≠ [] →
     2 ≤ s.windingsIn →
     ∃ t : State, exec (.voteSend) s = .next t ∧
       t.rmode = (if s.memberPeers.length = 2 then rmTriad else rmPair) ∧
       t.rf TSK_MODESTAT.RMODE = t.rmode ∧
       t.rf TSK_MODESTAT.MEMBERS = maskOf (s.memberPeers ++ [s.otp.lane]) % 8 ∧
       t.mission = misContinue ∧
       t.heldMode = false ∧
       t.rf TSK_MODESTAT.STOPCAUSE = s.rf TSK_MODESTAT.STOPCAUSE ∧
       (s.rmode < t.rmode → s.raiseOf 166 (t.rmode + s.rmode * 16) ∈ t.tly.raises) ∧
       (t.rmode ≤ s.rmode → t.tly = s.tly) ∧
       Sent s t ((s.peersOf.filter s.bridgeUp).map (fun k => .bridge k (.vote s.redecide.myVote))) ∧
       RegsBut [LANE_STATE.RMODE, TSK_MODESTAT.RMODE, TSK_MODESTAT.MEMBERS] s t) ∧
  -- no member (R252, R253)
  (∀ (s : State),
     s.fit = true →
     s.otp.lane < 3 →
     s.rf AST_INJCTL.ARM = 0 →
     s.ast.held = [] →
     s.mission = misContinue →
     s.heldMode = false →
     s.singleSource = false →
     s.memberPeers = [] →
     ∃ t : State, exec (.voteSend) s = .next t ∧
       t.rmode = rmSolo ∧
       t.rf TSK_MODESTAT.RMODE = rmSolo ∧
       t.heldMode = true ∧
       t.mission = misStop ∧
       (t.rf TSK_MODESTAT.STOPCAUSE).testBit 0 = true ∧
       t.rdm.stopGt = s.gt ∧
       t.stopGt = s.gt % 2 ^ 64 ∧
       t.rf TSK_MODESTAT.MEMBERS = 2 ^ s.otp.lane ∧
       (t.rf TSK_OUTREQ.REQ).testBit 0 = false ∧
       (t.rf TSK_OUTREQ.REQ).testBit 4 = false ∧
       Sent s t ((s.peersOf.filter s.bridgeUp).map (fun k => .bridge k (.vote s.redecide.myVote)))) ∧
  -- a lane whose HELD is set (R252)
  (∀ (s : State),
     s.fit = true →
     s.rf AST_INJCTL.ARM = 0 →
     s.ast.held = [] →
     s.mission ≠ misPark →
     s.heldMode = true →
     ∃ t : State, exec (.voteSend) s = .next t ∧
       t.rmode = rmSolo ∧
       t.rf TSK_MODESTAT.RMODE = rmSolo ∧
       t.heldMode = true ∧
       (s.mission = misContinue → t.mission = misStop) ∧
       (t.rf TSK_MODESTAT.STOPCAUSE).testBit 0 = true ∧
       Sent s t ((s.peersOf.filter s.bridgeUp).map (fun k => .bridge k (.vote s.redecide.myVote)))) ∧
  -- the vote of a member that reports HELD
  (∀ (s : State) (k : Fin 3) (v : Vote),
     s.fit = true →
     s.isPeer k = true →
     s.bridgeQuiet k →
     s.bridgeUp k = true →
     (s.peer k).hb.state ≠ stDebug →
     s.mission = misContinue →
     v.fit = true →
     v.inService = true →
     v.relayed = [] →
     (s.rdmPeer k).claim.all (fun c => decide ((v.seq + 2 ^ 32 - c.1) % 2 ^ 32 < 2 ^ 31)) = true →
     v.held = true →
     v.mission = misContinue →
     ∃ t : State, exec (.voteReceive k v) s = .next t ∧
       t.rmode = rmSolo ∧
       t.heldMode = true ∧
       t.mission = misStop ∧
       (t.rf TSK_MODESTAT.STOPCAUSE).testBit 0 = true ∧
       (t.rf TSK_MODESTAT.MEMBERS).testBit k = true) ∧
  -- the vote of a member in STOP
  (∀ (s : State) (k : Fin 3) (v : Vote),
     s.fit = true →
     s.isPeer k = true →
     s.bridgeQuiet k →
     s.bridgeUp k = true →
     (s.peer k).hb.state ≠ stDebug →
     s.mission = misContinue →
     v.fit = true →
     v.inService = true →
     v.relayed = [] →
     (s.rdmPeer k).claim.all (fun c => decide ((v.seq + 2 ^ 32 - c.1) % 2 ^ 32 < 2 ^ 31)) = true →
     s.heldMode = false →
     v.held = false →
     v.mission = misStop →
     v.stopGt < s.gt →
     (∀ j ∈ s.memberPeers, j ≠ k → (s.rdmPeer j).vote.all (fun x => x.mission != misStop) = true) →
     ∃ t : State, exec (.voteReceive k v) s = .next t ∧
       t.rmode = (if t.memberPeers.length = 2 then rmTriad else rmPair) ∧
       t.mission = misStop ∧
       (t.rf TSK_MODESTAT.STOPCAUSE).testBit 3 = true ∧
       t.stopGt = v.stopGt % 2 ^ 64 ∧
       t.rdm.stopGt = s.gt) ∧
  -- the vote of a member in PARK
  (∀ (s : State) (k : Fin 3) (v : Vote),
     s.fit = true →
     s.isPeer k = true →
     s.bridgeQuiet k →
     s.bridgeUp k = true →
     (s.peer k).hb.state ≠ stDebug →
     s.mission = misContinue →
     v.fit = true →
     v.inService = true →
     v.relayed = [] →
     (s.rdmPeer k).claim.all (fun c => decide ((v.seq + 2 ^ 32 - c.1) % 2 ^ 32 < 2 ^ 31)) = true →
     v.mission = misPark →
     ∃ t : State, exec (.voteReceive k v) s = .next t ∧
       t.rmode = rmHalt ∧
       t.rf TSK_MODESTAT.RMODE = rmHalt ∧
       t.mission = misPark ∧
       t.rf TSK_OUTREQ.REQ = 0)

/-- VOTE_RECEIVE in INTEGRATE or SERVICE over an up bridge: a claim with a newer sequence number replaces the older, and a
fit one keeps the peer alive from now; an older one is ignored, unless none has come for 3 ms, from when any claim is
taken (the model's reading, log entry 35); a lane in BOOT takes no vote (R250, R251). MEMBER_TIMEOUT 3 ms after the
last fit claim: the peer is a member no longer unless it entered SERVICE with this lane. FITNESS_TIMEOUT: the lane
leaves SERVICE for INTEGRATE with RMODE HALT, every output off and the grant map of the active set in force (R249).
PARK_ENTRY 30 s after STOPGT (R254). A mission reset clears MISSION, HELD, STOPCAUSE and STOPGT (R257). Every vote
that arrives in INTEGRATE or SERVICE over a bridge that is up, of a peer that is not in DEBUG, is kept with its
sender's claim. -/
def Obligations.MembersAndFitness : Prop :=
  -- a first claim
  (∀ (s : State) (k : Fin 3) (v : Vote),
     s.on = true →
     s.isPeer k = true →
     s.bridgeQuiet k →
     s.st = stIntegrate →
     s.bridgeUp k = true →
     (s.peer k).hb.state ≠ stDebug →
     (s.rdmPeer k).claim = none →
     v.relayed = [] →
     ∃ t : State, exec (.voteReceive k v) s = .next t ∧
       (t.rdmPeer k).claim = some (v.seq, v.fit, v.inService) ∧
       (t.rdmPeer k).vote = some v ∧
       (t.rdmPeer k).direct = some (v.fit, v.inService, v.seq) ∧
       (v.fit = true → (t.rdmPeer k).alive = true ∧ (t.rdmPeer k).freshAt = s.now) ∧
       (v.fit = true → v.inService = true → t.isMember k = true) ∧
       t.st = stIntegrate) ∧
  -- a newer claim replaces the older
  (∀ (s : State) (k : Fin 3) (v : Vote) (q : Nat) (f : Bool) (w : Bool),
     s.on = true →
     s.isPeer k = true →
     s.bridgeQuiet k →
     s.st = stIntegrate →
     s.bridgeUp k = true →
     (s.peer k).hb.state ≠ stDebug →
     (s.rdmPeer k).claim = some (q, f, w) →
     v.relayed = [] →
     q < v.seq →
     v.seq < 2 ^ 32 →
     v.seq < q + 2 ^ 31 →
     ∃ t : State, exec (.voteReceive k v) s = .next t ∧
       (t.rdmPeer k).claim = some (v.seq, v.fit, v.inService) ∧
       (t.rdmPeer k).vote = some v ∧
       (t.rdmPeer k).direct = some (v.fit, v.inService, v.seq) ∧
       (v.fit = true → (t.rdmPeer k).alive = true ∧ (t.rdmPeer k).freshAt = s.now) ∧
       (v.fit = true → v.inService = true → t.isMember k = true) ∧
       t.st = stIntegrate) ∧
  -- an older claim
  (∀ (s : State) (k : Fin 3) (v : Vote) (q : Nat) (f : Bool) (w : Bool),
     s.on = true →
     s.isPeer k = true →
     s.bridgeQuiet k →
     s.st = stIntegrate →
     s.bridgeUp k = true →
     (s.peer k).hb.state ≠ stDebug →
     (s.rdmPeer k).claim = some (q, f, w) →
     s.now < (s.rdmPeer k).claimAt + 3000000 →
     v.relayed = [] →
     q < 2 ^ 32 →
     v.seq < q →
     q ≤ v.seq + 2 ^ 31 →
     ∃ t : State, exec (.voteReceive k v) s = .next t ∧
       (t.rdmPeer k).claim = some (q, f, w) ∧
       (t.rdmPeer k).alive = (s.rdmPeer k).alive ∧
       (t.rdmPeer k).freshAt = (s.rdmPeer k).freshAt) ∧
  -- an older claim, where none has come for 3 ms
  (∀ (s : State) (k : Fin 3) (v : Vote) (q : Nat) (f : Bool) (w : Bool),
     s.on = true →
     s.isPeer k = true →
     s.bridgeQuiet k →
     s.st = stIntegrate →
     s.bridgeUp k = true →
     (s.peer k).hb.state ≠ stDebug →
     (s.rdmPeer k).claim = some (q, f, w) →
     (s.rdmPeer k).claimAt + 3000000 ≤ s.now →
     v.relayed = [] →
     ∃ t : State, exec (.voteReceive k v) s = .next t ∧
       (t.rdmPeer k).claim = some (v.seq, v.fit, v.inService) ∧
       (v.fit = true → (t.rdmPeer k).alive = true ∧ (t.rdmPeer k).freshAt = s.now)) ∧
  -- a vote in BOOT or SELFTEST
  (∀ (s : State) (k : Fin 3) (v : Vote),
     s.on = true →
     s.isPeer k = true →
     s.bridgeQuiet k →
     (s.st = stBoot ∨ s.st = stSelftest) →
     ∃ t : State, exec (.voteReceive k v) s = .next t ∧
       t = { s with free := t.free }) ∧
  -- MEMBER_TIMEOUT
  (∀ (s : State) (k : Fin 3),
     s.on = true →
     s.isPeer k = true →
     (s.rdmPeer k).alive = true →
     (s.rdmPeer k).freshAt + 3000000 ≤ s.now →
     ∃ t : State, exec (.memberTimeout k) s = .next t ∧
       (t.rdmPeer k).alive = false ∧
       (t.rdmPeer k).claim = none ∧
       ((s.rdmPeer k).joint = false → t.isMember k = false) ∧
       ((s.rdmPeer k).joint = false → (t.rf TSK_MODESTAT.MEMBERS).testBit k = false)) ∧
  -- FITNESS_TIMEOUT
  (∀ (s : State),
     s.st = stService →
     s.alignOk = false →
     ∃ t : State, exec (.fitnessTimeout) s = .next t ∧
       t.st = stIntegrate ∧
       t.rf LANE_STATE.PREV = stService ∧
       t.rmode = rmHalt ∧
       t.rf TSK_MODESTAT.RMODE = rmHalt ∧
       t.rf TSK_OUTSTAT.ON = 0 ∧
       t.lane.integAt = s.now ∧
       t.fit = false ∧
       (∀ u : Fin 63, u.val ∉ s.svcHeld → s.moving u = false → t.owner u = s.lane.grantMap.getD u 1 % 32)) ∧
  -- PARK_ENTRY
  (∀ (s : State),
     s.on = true →
     s.mission = misStop →
     s.stopGt + 30000000000 ≤ s.gt →
     ∃ t : State, exec (.parkEntry) s = .next t ∧
       t.mission = misPark ∧
       t.rmode = rmHalt ∧
       t.rf TSK_MODESTAT.RMODE = rmHalt ∧
       t.rf TSK_OUTREQ.REQ = 0 ∧
       (∀ k : Fin 8, (t.rf TSK_OUTSTAT.ON).testBit k = false) ∧
       (s.rmode < rmHalt → s.raiseOf 166 (3 + s.rmode * 16) ∈ t.tly.raises)) ∧
  -- a mission reset
  (∀ (s : State) (p : Nat),
     s.on = true →
     10000 ≤ p →
     p ≤ 500000 →
     s.rb TSK_SRSTSTAT.JAMMED = false →
     s.tsk.pressBad = false →
     s.svc.parkSince.isSome = true →
     s.fit = true →
     s.memberPeers.length = 2 →
     2 ≤ s.windingsIn →
     s.singleSource = false →
     (∀ k ∈ s.memberPeers, (s.rdmPeer k).vote.all (fun v => v.mission == misContinue && !v.held) = true) →
     ∃ t : State, exec (.srstRelease p) s = .next t ∧
       t.mission = misContinue ∧
       t.heldMode = false ∧
       t.rf TSK_MODESTAT.STOPCAUSE = 0 ∧
       t.stopGt = 0 ∧
       t.rmode = rmTriad ∧
       t.rf TSK_SRSTSTAT.ACCEPTS = min (s.rf TSK_SRSTSTAT.ACCEPTS + 1) 32767) ∧
  -- any vote
  (∀ (s : State) (k : Fin 3) (v : Vote),
     s.on = true →
     s.isPeer k = true →
     s.bridgeQuiet k →
     (s.st = stIntegrate ∨ s.st = stService) →
     s.bridgeUp k = true →
     (s.peer k).hb.state ≠ stDebug →
     ∃ t : State, exec (.voteReceive k v) s = .next t ∧
       (t.rdmPeer k).vote = some v ∧
       (t.rdmPeer k).direct = some (v.fit, v.inService, v.seq) ∧
       t.mem = s.mem)

/-- CMS_LOAD writes its data into staging, which starts as a copy of the set in force, and sets the stage LOADED;
CMS_ABORT drops it; both are BUSY during a commit (R428). CMS_CHECK in lane A checks its image and hands the hash, or
its refusal with rule and offset, on to lane B; the last lane sends every lane the digest, or the refusal of the
lowest lane at its lowest offset (R429, R430, R486). CMS_CONFIRM: OK for the set in force, CHECK_REFUSED without a
checked set, MISMATCH for other characters, else the commit begins (R431); what the peers answer is the model's free
value (log entry 30), so that this lane's OK or commit becomes CHECK_REFUSED or MISMATCH for some of its values. The
step and record codes are log entry 27, and that a step which does not read back ends the commit is log entry 40: both
the model's. Each FLASH_OPERATION_DONE of a commit does its step of Table SEC-9: BEGIN, erase, two copies, PREPARED to
the peers, INTENT, one notch, ACTIVE with its notch-log entry, and the new set in force; without every PREPARED in 50
ms the commit is aborted and the old set stays (R432, R433). COMMIT_WAIT_TIMEOUT aborts a commit that a channel waits
for, too. -/
def Obligations.Commissioning : Prop :=
  -- CMS_LOAD
  (∀ (s : State) (ch : Fin 8) (o : Word) (d : List Byte) (r : HmbRun),
     s.Asked ch (.cmsLoad ch o d) r →
     4 ≤ d.length →
     d.length ≤ 1016 →
     d.length % 4 = 0 →
     s.sec.proc = none →
     o.toNat % 4 = 0 →
     o.toNat + d.length ≤ 65536 →
     ∃ t : State, exec (.cmsLoad ch o d) s = .next (t.finish ch stOk []) ∧
       t.rf NCH_CMSSTAT.STAGE = 1 ∧
       imgBytes (t.sec.staging.getD []) o.toNat d.length = d ∧
       CellsBut o.toNat d.length (s.sec.staging.getD s.activeImg) (t.sec.staging.getD []) ∧
       RegsBut [NCH_CMSSTAT.STAGE] s t ∧
       t.flash = s.flash) ∧
  -- CMS_LOAD at a bad offset
  (∀ (s : State) (ch : Fin 8) (o : Word) (d : List Byte) (r : HmbRun),
     s.Asked ch (.cmsLoad ch o d) r →
     4 ≤ d.length →
     d.length ≤ 1016 →
     d.length % 4 = 0 →
     s.sec.proc = none →
     (o.toNat % 4 ≠ 0 ∨ 65536 < o.toNat + d.length) →
     ∃ t : State, exec (.cmsLoad ch o d) s = .next (t.finish ch stInvalidParam []) ∧
       t = s.taken ch r) ∧
  -- CMS_LOAD during a commit
  (∀ (s : State) (ch : Fin 8) (o : Word) (d : List Byte) (r : HmbRun),
     s.Asked ch (.cmsLoad ch o d) r →
     4 ≤ d.length →
     d.length ≤ 1016 →
     d.length % 4 = 0 →
     s.procBusy = true →
     ∃ t : State, exec (.cmsLoad ch o d) s = .next (t.finish ch stBusy []) ∧
       t = s.taken ch r) ∧
  -- CMS_ABORT
  (∀ (s : State) (ch : Fin 8) (r : HmbRun),
     s.Asked ch (.cmsAbort ch) r →
     s.sec.proc = none →
     ∃ t : State, exec (.cmsAbort ch) s = .next (t.finish ch stOk []) ∧
       t.sec.staging = none ∧
       t.sec.digest = none ∧
       t.rf NCH_CMSSTAT.STAGE = 0 ∧
       t.flash = s.flash ∧
       RegsBut [NCH_CMSSTAT.STAGE] s t) ∧
  -- CMS_ABORT during a commit
  (∀ (s : State) (ch : Fin 8) (r : HmbRun),
     s.Asked ch (.cmsAbort ch) r →
     s.procBusy = true →
     ∃ t : State, exec (.cmsAbort ch) s = .next (t.finish ch stBusy []) ∧
       t = s.taken ch r) ∧
  -- CMS_CHECK in lane A
  (∀ (s : State) (ch : Fin 8) (r : HmbRun),
     s.Asked ch (.cmsCheck ch) r →
     s.sec.proc = none →
     s.peerAbsent = false →
     s.otp.lane = 0 →
     s.otp.jv2g = false →
     s.rf AST_INJCTL.ARM = 0 →
     s.ast.held = [] →
     ∃ t : State, exec (.cmsCheck ch) s = .next t ∧
       (s.checkImage s.ownImg = none → t.sec.checkCh = some ch.val ∧ Sent s t ((if s.bridgeUp 1 then [1] else []).map (fun k => .bridge k (.bulk (.cmsCheck (shaBlocks (imgLength s.ownImg / 128) shaInit (imgAll s.ownImg)) (imgLength s.ownImg) [imgByte s.ownImg 4] (min 255 (s.rf LANE_PROFILE.MAXPROF)) none))))) ∧
       (s.checkImage s.ownImg ≠ none → (let x := (s.checkImage s.ownImg).getD (0, 0); t.sec.checkCh = some ch.val ∧ Sent s t ((if s.bridgeUp 1 then [1] else []).map (fun k => .bridge k (.bulk (.cmsCheck shaInit 0 [imgByte s.ownImg 4] (min 255 (s.rf LANE_PROFILE.MAXPROF)) (some (0, x.1, x.2)))))))) ∧
       t.flash = s.flash) ∧
  -- CMS_CHECK in another lane asks lane A
  (∀ (s : State) (ch : Fin 8) (r : HmbRun),
     s.Asked ch (.cmsCheck ch) r →
     s.sec.proc = none →
     s.peerAbsent = false →
     s.otp.lane ≠ 0 →
     s.otp.lane ≤ 2 →
     s.bridgeUp 0 = true →
     s.rf AST_INJCTL.ARM = 0 →
     s.ast.held = [] →
     ∃ t : State, exec (.cmsCheck ch) s = .next t ∧
       t.sec.checkCh = some ch.val ∧
       Sent s t [.bridge 0 (.bulk (.cmsCheck [] 0 [] 255 none))] ∧
       RegsBut [] s t) ∧
  -- CMS_CHECK in the last lane of the chain: the digest, or the refusal of the lowest lane at its lowest offset
  (∀ (s : State) (cn : List Nat) (n : Nat) (pf : List Nat) (cap : Nat) (f : Option (Nat × Nat × Nat)),
     s.on = true →
     s.isPeer 1 = true →
     s.bridgeQuiet 1 →
     s.takesPart 1 = true →
     s.sec.proc = none →
     s.otp.lane = 2 →
     s.otp.jv2g = false →
     cn ≠ [] →
     s.sec.checkCh = none →
     s.ast.held = [] →
     ∃ t : State, exec (.moduleCommandReceive 1 (.cmsCheck cn n pf cap f)) s = .next t ∧
       (checkWorst (match f with | some g => some g | none => (s.checkImage s.ownImg).map (fun x => (2, x.1, x.2))) (pf ++ [imgByte s.ownImg 4]) (min cap (s.rf LANE_PROFILE.MAXPROF)) = none → t.sec.digest = some (shaFinish (shaBlocks (imgLength s.ownImg / 128) cn (imgAll s.ownImg)) (n + imgLength s.ownImg) []) ∧ Sent s t ((s.peersOf.filter s.bridgeUp).map (fun k => .bridge k (.bulk (.cmsDigest (shaFinish (shaBlocks (imgLength s.ownImg / 128) cn (imgAll s.ownImg)) (n + imgLength s.ownImg) []))))) ∧ (s.sec.staging.isSome = true → t.rf NCH_CMSSTAT.STAGE = 2)) ∧
       (checkWorst (match f with | some g => some g | none => (s.checkImage s.ownImg).map (fun x => (2, x.1, x.2))) (pf ++ [imgByte s.ownImg 4]) (min cap (s.rf LANE_PROFILE.MAXPROF)) ≠ none → (let x := (checkWorst (match f with | some g => some g | none => (s.checkImage s.ownImg).map (fun x => (2, x.1, x.2))) (pf ++ [imgByte s.ownImg 4]) (min cap (s.rf LANE_PROFILE.MAXPROF))).getD (0, 0, 0); t.sec.digest = none ∧ Sent s t ((s.peersOf.filter s.bridgeUp).map (fun k => .bridge k (.bulk (.cmsRefused x.1 x.2.1 x.2.2)))))) ∧
       t.flash = s.flash ∧
       t.otp = s.otp) ∧
  -- CMS_CHECK during a commit
  (∀ (s : State) (ch : Fin 8) (r : HmbRun),
     s.Asked ch (.cmsCheck ch) r →
     s.procBusy = true →
     ∃ t : State, exec (.cmsCheck ch) s = .next (t.finish ch stBusy []) ∧
       t = s.taken ch r) ∧
  -- CMS_CONFIRM of the set in force; what the peers answer is the model's free value
  (∀ (s : State) (ch : Fin 8) (c : Vector Byte 8) (r : HmbRun),
     s.Asked ch (.cmsConfirm ch c) r →
     s.sec.proc = none →
     s.peerAbsent = false →
     s.sec.set = true →
     c.toList = valueChars s.activeV →
     s.sec.staging = none →
     s.rf NCH_CMSSTAT.STAGE = 0 →
     ∃ t : State, exec (.cmsConfirm ch c) s = .next (t.finish ch (if s.freeNat % 4 = 1 then stCheckRefused else if s.freeNat % 4 = 3 then stMismatch else stOk) (if s.freeNat % 4 = 1 ∨ s.freeNat % 4 = 3 then [] else leBytes 4 s.commitsLeft)) ∧
       t = (s.taken ch r).used 1) ∧
  -- CMS_CONFIRM during a commit
  (∀ (s : State) (ch : Fin 8) (c : Vector Byte 8) (r : HmbRun),
     s.Asked ch (.cmsConfirm ch c) r →
     s.procBusy = true →
     ∃ t : State, exec (.cmsConfirm ch c) s = .next (t.finish ch stBusy []) ∧
       t = s.taken ch r) ∧
  -- CMS_CONFIRM of a set that is not checked
  (∀ (s : State) (ch : Fin 8) (c : Vector Byte 8) (r : HmbRun),
     s.Asked ch (.cmsConfirm ch c) r →
     s.sec.proc = none →
     s.peerAbsent = false →
     s.sec.set = false →
     s.rf NCH_CMSSTAT.STAGE = 1 →
     ∃ t : State, exec (.cmsConfirm ch c) s = .next (t.finish ch stCheckRefused []) ∧
       t = (s.taken ch r).used 1) ∧
  -- CMS_CONFIRM of a checked set; what the peers answer is the model's free value
  (∀ (s : State) (ch : Fin 8) (q : HmbRun) (c : Vector Byte 8) (d : List Byte),
     s.Asked ch (.cmsConfirm ch c) q →
     s.sec.proc = none →
     s.peerAbsent = false →
     s.rf NCH_CMSSTAT.STAGE = 2 →
     s.sec.digest = some d →
     s.sec.staging.isSome = true →
     s.otp.used0 < 1024 →
     s.rf AST_INJCTL.ARM = 0 →
     s.ast.held = [] →
     ∃ t : State, exec (.cmsConfirm ch c) s = .next t ∧
       (c.toList = valueChars (valueOf d) → s.freeNat % 4 = 0 → t.sec.proc.any (fun p => p.kind == 1 && p.step == 1 && p.ch == some ch.val && p.v == valueOf d && p.slot == 1 - s.activeSlot && p.k == s.otp.used0) = true ∧ t.rf NCH_CMSSTAT.STAGE = 3 ∧ (∀ k ∈ s.peersOf, s.bridgeUp k = true → OutMsg.bridge k (.bulk .cmsConfirm) ∈ t.outbox)) ∧
       (c.toList ≠ valueChars (valueOf d) → s.freeNat % 4 ≠ 1 → t.sec.proc = none ∧ (t.chan ch).run = none ∧ t.rf (HMB_CHSTAT.STATUS ch) = stMismatch) ∧
       (s.freeNat % 4 = 1 → t.rf (HMB_CHSTAT.STATUS ch) = stCheckRefused) ∧
       t.flash = s.flash ∧
       t.otp = s.otp) ∧
  -- step 1: BEGIN
  (∀ (s : State) (p : Proc),
     s.serves = true →
     s.sec.proc = some p →
     p.kind = 1 →
     p.step = 1 →
     ∃ t : State, exec (.flashOperationDone true) s = .next t ∧
       (t.flash.journal.getLast?.map (fun q => (q.op, q.step, q.target, q.v, q.k))) = some (opCommit, stpBegin, p.slot, p.v, p.k) ∧
       t.sec.proc = some { p with step := 2 } ∧
       t.flash.par = s.flash.par ∧
       t = { s with flash := t.flash, sec := t.sec }) ∧
  -- step 2: erase
  (∀ (s : State) (p : Proc),
     s.serves = true →
     s.sec.proc = some p →
     p.kind = 1 →
     p.step = 2 →
     p.slot ≤ 1 →
     (s.flash.par.map (·.1)).Pairwise (· < ·) →
     ∃ t : State, exec (.flashOperationDone true) s = .next t ∧
       mget [] t.flash.par p.slot = [] ∧
       mget [] t.flash.par (2 + p.slot) = [] ∧
       mget [] t.flash.par (1 - p.slot) = mget [] s.flash.par (1 - p.slot) ∧
       t.sec.proc = some { p with step := 3 } ∧
       t.flash.journal = s.flash.journal) ∧
  -- step 3: the first copy
  (∀ (s : State) (p : Proc),
     s.serves = true →
     s.sec.proc = some p →
     p.kind = 1 →
     p.step = 3 →
     ∃ t : State, exec (.flashOperationDone true) s = .next t ∧
       mget [] t.flash.par p.slot = s.ownImg ∧
       t.sec.proc = some { p with step := 4 }) ∧
  -- step 4: the second copy
  (∀ (s : State) (p : Proc),
     s.serves = true →
     s.sec.proc = some p →
     p.kind = 1 →
     p.step = 4 →
     ∃ t : State, exec (.flashOperationDone true) s = .next t ∧
       mget [] t.flash.par (2 + p.slot) = s.ownImg ∧
       t.sec.proc = some { p with step := 5 }) ∧
  -- step 5: read back
  (∀ (s : State) (p : Proc),
     s.serves = true →
     s.sec.proc = some p →
     p.kind = 1 →
     p.step = 5 →
     ∃ t : State, exec (.flashOperationDone true) s = .next t ∧
       t.sec.proc = some { p with step := 6 } ∧
       t = { s with sec := t.sec }) ∧
  -- step 6: PREPARED
  (∀ (s : State) (p : Proc),
     s.serves = true →
     s.sec.proc = some p →
     p.kind = 1 →
     p.step = 6 →
     s.rf AST_INJCTL.ARM = 0 →
     s.ast.held = [] →
     ∃ t : State, exec (.flashOperationDone true) s = .next t ∧
       (t.flash.journal.getLast?.map (fun q => (q.op, q.step, q.target, q.v, q.k))) = some (opCommit, stpPrepared, p.slot, p.v, p.k) ∧
       t.sec.proc.any (fun q => (q.step == 7 || q.step == 8) && q.waitAt == s.now) = true ∧
       Sent s t ((s.peersOf.filter s.bridgeUp).map (fun k => .bridge k (.commit .prepared)))) ∧
  -- step 8: INTENT
  (∀ (s : State) (p : Proc),
     s.serves = true →
     s.sec.proc = some p →
     p.kind = 1 →
     p.step = 8 →
     s.rf AST_INJCTL.ARM = 0 →
     s.ast.held = [] →
     ∃ t : State, exec (.flashOperationDone true) s = .next t ∧
       (t.flash.journal.getLast?.map (fun q => (q.op, q.step, q.target, q.v, q.k))) = some (opCommit, stpIntent, p.slot, p.v, s.otp.used0) ∧
       t.sec.proc = some { p with k := s.otp.used0, step := 9 } ∧
       Sent s t ((s.peersOf.filter s.bridgeUp).map (fun k => .bridge k (.commit .intent)))) ∧
  -- step 9: the notch
  (∀ (s : State) (p : Proc),
     s.serves = true →
     s.sec.proc = some p →
     p.kind = 1 →
     p.step = 9 →
     ∃ t : State, exec (.flashOperationDone true) s = .next t ∧
       t.otp = { s.otp with used0 := s.otp.used0 + 1 } ∧
       t.sec.proc = some { p with step := 10, notchGt := s.gt } ∧
       (s.otp.used0 + 1 = 1024 → Raised s t 227 0) ∧
       (s.otp.used0 + 1 ≠ 1024 → t.tly = s.tly) ∧
       t.flash = s.flash) ∧
  -- step 10: ACTIVE and the notch log
  (∀ (s : State) (p : Proc),
     s.serves = true →
     s.sec.proc = some p →
     p.kind = 1 →
     p.step = 10 →
     ∃ t : State, exec (.flashOperationDone true) s = .next t ∧
       (t.flash.journal.getLast?.map (fun q => (q.op, q.step, q.target, q.v, q.k))) = some (opCommit, stpActive, p.slot, p.v, p.k) ∧
       t.flash.log.length = s.flash.log.length + 1 ∧
       t.flash.log.take s.flash.log.length = s.flash.log ∧
       t.sec.proc = some { p with step := 11 }) ∧
  -- step 11: the new set in force
  (∀ (s : State) (p : Proc),
     s.serves = true →
     s.sec.proc = some p →
     p.kind = 1 →
     p.step = 11 →
     p.ch = none →
     p.resumed = false →
     ∃ t : State, exec (.flashOperationDone true) s = .next t ∧
       t.sec.slot = p.slot ∧
       t.sec.set = true ∧
       t.sec.setOk = true ∧
       t.sec.staging = none ∧
       t.sec.proc = none ∧
       t.rf NCH_CMSSTAT.STAGE = 0 ∧
       t.activeV = p.v % 2 ^ 40 ∧
       t.activeImg = s.slotImg p.slot ∧
       t.flash = s.flash) ∧
  -- a step before the notch that does not read back
  (∀ (s : State) (p : Proc),
     s.serves = true →
     s.sec.proc = some p →
     p.kind = 1 →
     p.step ≤ 6 →
     p.ch = none →
     p.resumed = false →
     ∃ t : State, exec (.flashOperationDone false) s = .next t ∧
       (t.flash.journal.getLast?.map (fun q => (q.op, q.step, q.target, q.v, q.k))) = some (opCommit, stpAbort, p.slot, p.v, p.k) ∧
       t.sec.proc = none ∧
       t.otp = s.otp ∧
       t.sec.set = s.sec.set ∧
       t.sec.slot = s.sec.slot) ∧
  -- the notch that does not read back is tried once more
  (∀ (s : State) (p : Proc),
     s.serves = true →
     s.sec.proc = some p →
     p.kind = 1 →
     p.step = 9 →
     p.retried = false →
     ∃ t : State, exec (.flashOperationDone false) s = .next t ∧
       t.sec.proc = some { p with retried := true } ∧
       t = { s with sec := t.sec }) ∧
  -- COMMIT_WAIT_TIMEOUT
  (∀ (s : State) (p : Proc),
     s.serves = true →
     s.sec.proc = some p →
     p.kind = 1 →
     p.step = 7 →
     p.waitAt + 50000000 ≤ s.now →
     p.ch = none →
     p.resumed = false →
     ∃ t : State, exec (.commitWaitTimeout) s = .next t ∧
       (t.flash.journal.getLast?.map (fun q => (q.op, q.step, q.target, q.v, q.k))) = some (opCommit, stpAbort, p.slot, p.v, p.k) ∧
       t.sec.proc = some { p with step := 12, ch := none } ∧
       t.procBusy = false ∧
       t.otp = s.otp ∧
       t.sec.set = s.sec.set ∧
       t.sec.slot = s.sec.slot ∧
       t.activeV = s.activeV) ∧
  -- any COMMIT_WAIT_TIMEOUT
  (∀ (s : State) (p : Proc),
     s.serves = true →
     s.sec.proc = some p →
     p.kind = 1 →
     p.step = 7 →
     p.waitAt + 50000000 ≤ s.now →
     ∃ t : State, exec (.commitWaitTimeout) s = .next t ∧
       t.sec.proc = some { p with step := 12, ch := none } ∧
       t.otp = s.otp ∧
       t.sec.slot = s.sec.slot ∧
       t.activeV = s.activeV)

/-- SEC_NONCE makes a nonce, which lasts 60 s or until one object has been checked against it (R411). Every field of a
SEC_ATTEST report is taken in one step at the GT it carries (R415). With an accepted token SEC_DEBUG_ENTER takes the
lane into DEBUG and raises 225, SEC_INJECT_TOKEN puts an injection token in force; another token is DENIED, and both
are while debug is disabled (R414, R422, R424). SEC_DEBUG_EXIT answers and the lane resets. SEC_DEBUG_DISABLE,
SEC_ROOT_REVOKE, SEC_REKEY and SEC_PROFILE_LOCK with an accepted order begin its steps: INTENT record, notch, EFFECT;
a used counter is EXHAUSTED, another order DENIED, and either check consumes the nonce (R413, R421, R425, R438 to
R440). What the peers answer to SEC_PROFILE_LOCK is the model's free value (log entry 30), and the record codes of an
order are the model's (log entry 27). -/
def Obligations.SecurityOrders : Prop :=
  -- SEC_NONCE
  (∀ (s : State) (ch : Fin 8) (r : HmbRun),
     s.Asked ch (.secNonce ch) r →
     ∃ t : State, exec (.secNonce ch) s = .next (t.finish ch stOk (s.freeBytes 16)) ∧
       t.sec.nonce = some (s.freeBytes 16, s.gt) ∧
       t.nonceIs (s.freeBytes 16) = true ∧
       RegsBut [] s t ∧
       t.otp = s.otp) ∧
  -- NONCE_EXPIRY
  (∀ (s : State) (l : List Byte) (g : Nat),
     s.on = true →
     s.sec.nonce = some (l, g) →
     g + 60000000000 ≤ s.gt →
     ∃ t : State, exec (.nonceExpiry) s = .next t ∧
       t.sec.nonce = none ∧
       t = { s with sec := t.sec }) ∧
  -- a nonce not yet 60 s old
  (∀ (s : State) (l : List Byte) (g : Nat),
     s.sec.nonce = some (l, g) →
     s.gt < g + 60000000000 →
     ∃ t : State, exec (.nonceExpiry) s = .next t ∧
       t = s) ∧
  -- SEC_ATTEST
  (∀ (s : State) (ch : Fin 8) (nc : Vector Byte 16) (r : HmbRun),
     s.Asked ch (.secAttest ch nc) r →
     ∃ t : State, exec (.secAttest ch nc) s = .next (t.finish ch stOk (s.signed (s.reportBody nc.toList))) ∧
       t = s.taken ch r) ∧
  -- SEC_DEBUG_ENTER with an accepted token
  (∀ (s : State) (ch : Fin 8) (o : List Byte) (r : HmbRun),
     s.Asked ch (.secDebugEnter ch o) r →
     s.debugOff = false →
     s.tokenOk 1 o = true →
     s.st = stIntegrate →
     ∃ t : State, exec (.secDebugEnter ch o) s = .next (t.finish ch stOk []) ∧
       t.st = stDebug ∧
       t.rf LANE_STATE.PREV = stIntegrate ∧
       t.sec.nonce = none ∧
       s.raiseOf 225 0 ∈ t.tly.raises ∧
       t.rmode = rmHalt) ∧
  -- SEC_DEBUG_ENTER with an accepted token in any state that serves
  (∀ (s : State) (ch : Fin 8) (o : List Byte) (r : HmbRun),
     s.Asked ch (.secDebugEnter ch o) r →
     s.debugOff = false →
     s.tokenOk 1 o = true →
     ∃ t : State, exec (.secDebugEnter ch o) s = .next (t.finish ch stOk []) ∧
       t.st = stDebug ∧
       (s.st ≠ stDebug → t.rf LANE_STATE.PREV = s.st ∧ s.raiseOf 225 0 ∈ t.tly.raises) ∧
       t.sec.nonce = none) ∧
  -- SEC_DEBUG_ENTER with another token
  (∀ (s : State) (ch : Fin 8) (o : List Byte) (r : HmbRun),
     s.Asked ch (.secDebugEnter ch o) r →
     s.debugOff = false →
     s.tokenOk 1 o = false →
     ∃ t : State, exec (.secDebugEnter ch o) s = .next (t.finish ch stDenied []) ∧
       t = (s.taken ch r).nonceUsed) ∧
  -- SEC_DEBUG_ENTER and SEC_INJECT_TOKEN while debug is disabled
  (∀ (s : State) (ch : Fin 8) (o : List Byte) (r : HmbRun),
     s.Asked ch (.secDebugEnter ch o) r →
     s.debugOff = true →
     ∃ t : State, exec (.secDebugEnter ch o) s = .next (t.finish ch stDenied []) ∧
       t = s.taken ch r) ∧
  -- the same
  (∀ (s : State) (ch : Fin 8) (o : List Byte) (r : HmbRun),
     s.Asked ch (.secInjectToken ch o) r →
     s.debugOff = true →
     ∃ t : State, exec (.secInjectToken ch o) s = .next (t.finish ch stDenied []) ∧
       t = s.taken ch r) ∧
  -- SEC_INJECT_TOKEN with an accepted token
  (∀ (s : State) (ch : Fin 8) (o : List Byte) (r : HmbRun),
     s.Asked ch (.secInjectToken ch o) r →
     s.debugOff = false →
     s.tokenOk 2 o = true →
     ∃ t : State, exec (.secInjectToken ch o) s = .next (t.finish ch stOk []) ∧
       t.ast.tokenEnd = some (s.gt + 1000000000 * leAt o 64 4) ∧
       t.tokenNow = true ∧
       t.sec.nonce = none ∧
       t.st = s.st ∧
       t.rn SEC_TOKENEXP.adr = (s.gt + 1000000000 * leAt o 64 4) % 2 ^ 32 ∧
       RegsBut [whole SEC_TOKENEXP.adr] s t) ∧
  -- SEC_INJECT_TOKEN with another token
  (∀ (s : State) (ch : Fin 8) (o : List Byte) (r : HmbRun),
     s.Asked ch (.secInjectToken ch o) r →
     s.debugOff = false →
     s.tokenOk 2 o = false →
     ∃ t : State, exec (.secInjectToken ch o) s = .next (t.finish ch stDenied []) ∧
       t = (s.taken ch r).nonceUsed) ∧
  -- SEC_DEBUG_EXIT on the SPI channel: the lane resets when the response has been read
  (∀ (s : State) (r : HmbRun),
     s.Asked 0 (.secDebugExit 0) r →
     ∃ t : State, exec (.secDebugExit 0) s = .next t ∧
       t.spi.rsp = some (hmbBytes r.op r.tag stOk (respFlags false r.module) s.otp.lane []) ∧
       t.sec.resetDue = some 0 ∧
       t.st = s.st) ∧
  -- SEC_DEBUG_EXIT on a queue channel whose response waits for no credit
  (∀ (s : State) (ch : Fin 8) (r : HmbRun),
     s.Asked ch (.secDebugExit ch) r →
     (s.finish ch stOk []).respWaits ch = false →
     ∃ t : State, exec (.secDebugExit ch) s = .next t ∧
       t.st = stOff ∧
       t.rf LANE_STATE.PREV = s.st ∧
       t.rf PMU_RSTSRC.CAUSE = 4 ∧
       t.rf PMU_RSTSRC.COUNT = min (s.rf PMU_RSTSRC.COUNT + 1) 65535 ∧
       t.gt = 0 ∧
       t.flash = s.flash ∧
       t.otp = s.otp) ∧
  -- SEC_DEBUG_DISABLE with an accepted order
  (∀ (s : State) (ch : Fin 8) (o : List Byte) (r : HmbRun),
     s.Asked ch (.secDebugDisable ch o) r →
     s.sec.proc = none →
     s.notchUsed (orderCounter 1) < notchBudget (orderCounter 1) →
     s.orderOk 1 o = true →
     ∃ t : State, exec (.secDebugDisable ch o) s = .next t ∧
       t.sec.proc = some { kind := 2, step := 1, ch := some ch.val, order := 1, arg := 0 } ∧
       t.sec.nonce = none ∧
       t.otp = s.otp ∧
       t.flash = s.flash ∧
       (t.chan ch).run.isSome = true) ∧
  -- SEC_REKEY with an accepted order
  (∀ (s : State) (ch : Fin 8) (o : List Byte) (r : HmbRun),
     s.Asked ch (.secRekey ch o) r →
     s.sec.proc = none →
     s.notchUsed (orderCounter 3) < notchBudget (orderCounter 3) →
     s.orderOk 3 o = true →
     ∃ t : State, exec (.secRekey ch o) s = .next t ∧
       t.sec.proc = some { kind := 2, step := 1, ch := some ch.val, order := 3, arg := 0 } ∧
       t.sec.nonce = none ∧
       t.otp = s.otp ∧
       t.flash = s.flash ∧
       (t.chan ch).run.isSome = true) ∧
  -- SEC_ROOT_REVOKE with an accepted order
  (∀ (s : State) (ch : Fin 8) (o : List Byte) (r : HmbRun),
     s.Asked ch (.secRootRevoke ch o) r →
     s.sec.proc = none →
     s.notchUsed (orderCounter 2) < notchBudget (orderCounter 2) →
     s.orderOk 2 o = true →
     s.manifestOk s.sec.bank 0 (s.otp.used1 + 1) = true →
     s.manifestOk s.sec.bank 1 (s.otp.used1 + 1) = true →
     ∃ t : State, exec (.secRootRevoke ch o) s = .next t ∧
       t.sec.proc = some { kind := 2, step := 1, ch := some ch.val, order := 2, arg := 0 } ∧
       t.sec.nonce = none ∧
       t.otp = s.otp ∧
       t.flash = s.flash ∧
       (t.chan ch).run.isSome = true) ∧
  -- SEC_ROOT_REVOKE whose images do not verify under the next root
  (∀ (s : State) (ch : Fin 8) (o : List Byte) (r : HmbRun),
     s.Asked ch (.secRootRevoke ch o) r →
     s.sec.proc = none →
     s.notchUsed 1 < notchBudget 1 →
     s.orderOk 2 o = true →
     s.manifestOk s.sec.bank 0 (s.otp.used1 + 1) = false →
     ∃ t : State, exec (.secRootRevoke ch o) s = .next (t.finish ch stDenied []) ∧
       t = (s.taken ch r).nonceUsed) ∧
  -- SEC_PROFILE_LOCK with an accepted order; what the peers answer is the model's free value
  (∀ (s : State) (ch : Fin 8) (r : HmbRun) (o : List Byte),
     s.Asked ch (.secProfileLock ch o) r →
     s.sec.proc = none →
     s.peerAbsent = false →
     s.otp.used3 < 4 →
     s.orderOk 4 o = true →
     1 ≤ leAt o 7 1 →
     leAt o 7 1 ≤ s.rf LANE_PROFILE.MAXPROF →
     s.rf AST_INJCTL.ARM = 0 →
     s.ast.held = [] →
     ∃ t : State, exec (.secProfileLock ch o) s = .next t ∧
       (s.freeNat % 4 = 0 ∨ s.freeNat % 4 = 3 → t.sec.proc = some { kind := 2, step := 1, ch := some ch.val, order := 4, arg := leAt o 7 1 } ∧ (∀ k ∈ s.peersOf, s.bridgeUp k = true → OutMsg.bridge k (.bulk (.profileLock o)) ∈ t.outbox)) ∧
       (s.freeNat % 4 = 1 → (t.chan ch).run = none ∧ t.rf (HMB_CHSTAT.STATUS ch) = stInvalidParam ∧ t.sec.proc = none) ∧
       (s.freeNat % 4 = 2 → (t.chan ch).run = none ∧ t.rf (HMB_CHSTAT.STATUS ch) = stExhausted ∧ t.sec.proc = none) ∧
       t.sec.nonce = none ∧
       t.otp = s.otp) ∧
  -- SEC_DEBUG_DISABLE of a counter that is used up, and any order during a procedure
  (∀ (s : State) (ch : Fin 8) (o : List Byte) (r : HmbRun),
     s.Asked ch (.secDebugDisable ch o) r →
     s.sec.proc = none →
     s.notchUsed (orderCounter 1) = notchBudget (orderCounter 1) →
     ∃ t : State, exec (.secDebugDisable ch o) s = .next (t.finish ch stExhausted []) ∧
       t = s.taken ch r) ∧
  -- SEC_ROOT_REVOKE of a counter that is used up, and any order during a procedure
  (∀ (s : State) (ch : Fin 8) (o : List Byte) (r : HmbRun),
     s.Asked ch (.secRootRevoke ch o) r →
     s.sec.proc = none →
     s.notchUsed (orderCounter 2) = notchBudget (orderCounter 2) →
     ∃ t : State, exec (.secRootRevoke ch o) s = .next (t.finish ch stExhausted []) ∧
       t = s.taken ch r) ∧
  -- SEC_REKEY of a counter that is used up, and any order during a procedure
  (∀ (s : State) (ch : Fin 8) (o : List Byte) (r : HmbRun),
     s.Asked ch (.secRekey ch o) r →
     s.sec.proc = none →
     s.notchUsed (orderCounter 3) = notchBudget (orderCounter 3) →
     ∃ t : State, exec (.secRekey ch o) s = .next (t.finish ch stExhausted []) ∧
       t = s.taken ch r) ∧
  -- SEC_PROFILE_LOCK of a counter that is used up, and any order during a procedure
  (∀ (s : State) (ch : Fin 8) (o : List Byte) (r : HmbRun),
     s.Asked ch (.secProfileLock ch o) r →
     s.sec.proc = none →
     s.notchUsed (orderCounter 4) = notchBudget (orderCounter 4) →
     s.peerAbsent = false →
     ∃ t : State, exec (.secProfileLock ch o) s = .next (t.finish ch stExhausted []) ∧
       t = s.taken ch r) ∧
  -- SEC_DEBUG_DISABLE with another order
  (∀ (s : State) (ch : Fin 8) (o : List Byte) (r : HmbRun),
     s.Asked ch (.secDebugDisable ch o) r →
     s.sec.proc = none →
     s.notchUsed (orderCounter 1) < notchBudget (orderCounter 1) →
     s.orderOk 1 o = false →
     ∃ t : State, exec (.secDebugDisable ch o) s = .next (t.finish ch stDenied []) ∧
       t = (s.taken ch r).nonceUsed) ∧
  -- SEC_ROOT_REVOKE with another order
  (∀ (s : State) (ch : Fin 8) (o : List Byte) (r : HmbRun),
     s.Asked ch (.secRootRevoke ch o) r →
     s.sec.proc = none →
     s.notchUsed (orderCounter 2) < notchBudget (orderCounter 2) →
     s.orderOk 2 o = false →
     ∃ t : State, exec (.secRootRevoke ch o) s = .next (t.finish ch stDenied []) ∧
       t = (s.taken ch r).nonceUsed) ∧
  -- SEC_REKEY with another order
  (∀ (s : State) (ch : Fin 8) (o : List Byte) (r : HmbRun),
     s.Asked ch (.secRekey ch o) r →
     s.sec.proc = none →
     s.notchUsed (orderCounter 3) < notchBudget (orderCounter 3) →
     s.orderOk 3 o = false →
     ∃ t : State, exec (.secRekey ch o) s = .next (t.finish ch stDenied []) ∧
       t = (s.taken ch r).nonceUsed) ∧
  -- SEC_PROFILE_LOCK with another order
  (∀ (s : State) (ch : Fin 8) (o : List Byte) (r : HmbRun),
     s.Asked ch (.secProfileLock ch o) r →
     s.sec.proc = none →
     s.notchUsed (orderCounter 4) < notchBudget (orderCounter 4) →
     s.orderOk 4 o = false →
     s.peerAbsent = false →
     ∃ t : State, exec (.secProfileLock ch o) s = .next (t.finish ch stDenied []) ∧
       t = (s.taken ch r).nonceUsed) ∧
  -- an order's INTENT record
  (∀ (s : State) (p : Proc),
     s.serves = true →
     s.sec.proc = some p →
     p.kind = 2 →
     p.step = 1 →
     ∃ t : State, exec (.flashOperationDone true) s = .next t ∧
       (t.flash.journal.getLast?.map (fun q => (q.op, q.step, q.target, q.v, q.k))) = some (opOrder, 1, p.order, p.arg, s.notchUsed (orderCounter p.order)) ∧
       t.sec.proc = some { p with step := 2 } ∧
       t.otp = s.otp) ∧
  -- an order's notch: SEC_DEBUG_DISABLE
  (∀ (s : State) (p : Proc),
     s.serves = true →
     s.sec.proc = some p →
     p.kind = 2 →
     p.step = 2 →
     p.order = 1 →
     ∃ t : State, exec (.flashOperationDone true) s = .next t ∧
       t.otp = { s.otp with used4 := s.otp.used4 + 1 } ∧
       t.sec.proc = some { p with step := 3, notchGt := s.gt } ∧
       t.flash = s.flash) ∧
  -- an order's notch: SEC_ROOT_REVOKE
  (∀ (s : State) (p : Proc),
     s.serves = true →
     s.sec.proc = some p →
     p.kind = 2 →
     p.step = 2 →
     p.order = 2 →
     ∃ t : State, exec (.flashOperationDone true) s = .next t ∧
       t.otp = { s.otp with used1 := s.otp.used1 + 1 } ∧
       t.sec.proc = some { p with step := 3, notchGt := s.gt } ∧
       t.flash = s.flash) ∧
  -- an order's notch: SEC_REKEY
  (∀ (s : State) (p : Proc),
     s.serves = true →
     s.sec.proc = some p →
     p.kind = 2 →
     p.step = 2 →
     p.order = 3 →
     ∃ t : State, exec (.flashOperationDone true) s = .next t ∧
       t.otp = { s.otp with used2 := s.otp.used2 + 1 } ∧
       t.sec.proc = some { p with step := 3, notchGt := s.gt } ∧
       t.flash = s.flash) ∧
  -- an order's notch: SEC_PROFILE_LOCK
  (∀ (s : State) (p : Proc),
     s.serves = true →
     s.sec.proc = some p →
     p.kind = 2 →
     p.step = 2 →
     p.order = 4 →
     ∃ t : State, exec (.flashOperationDone true) s = .next t ∧
       t.otp = { s.otp with used3 := s.otp.used3 + 1 } ∧
       t.sec.proc = some { p with step := 3, notchGt := s.gt } ∧
       t.flash = s.flash) ∧
  -- EFFECT of SEC_ROOT_REVOKE
  (∀ (s : State) (p : Proc),
     s.serves = true →
     s.sec.proc = some p →
     p.kind = 2 →
     p.step = 3 →
     p.order = 2 →
     p.ch = none →
     ∃ t : State, exec (.flashOperationDone true) s = .next t ∧
       t.otp = s.otp ∧
       t.sec.proc = none ∧
       (t.flash.journal.getLast?.map (fun q => (q.op, q.step, q.target, q.v, q.k))) = some (opOrder, 3, 2, p.arg, s.otp.used1) ∧
       t.flash.log.length = s.flash.log.length + 1) ∧
  -- EFFECT of SEC_DEBUG_DISABLE
  (∀ (s : State) (p : Proc),
     s.serves = true →
     s.st ≠ stDebug →
     s.sec.proc = some p →
     p.kind = 2 →
     p.step = 3 →
     p.order = 1 →
     p.ch = none →
     ∃ t : State, exec (.flashOperationDone true) s = .next t ∧
       t.otp = s.otp ∧
       t.ast.tokenEnd = none ∧
       t.sec.proc = none ∧
       (t.flash.journal.getLast?.map (fun q => (q.op, q.step, q.target, q.v, q.k))) = some (opOrder, 3, 1, p.arg, s.otp.used4) ∧
       t.flash.log.length = s.flash.log.length + 1) ∧
  -- EFFECT of SEC_PROFILE_LOCK
  (∀ (s : State) (p : Proc),
     s.serves = true →
     s.sec.proc = some p →
     p.kind = 2 →
     p.step = 3 →
     p.order = 4 →
     p.ch = none →
     ∃ t : State, exec (.flashOperationDone true) s = .next t ∧
       t.otp = { s.otp with lockProf := p.arg } ∧
       t.sec.proc = none ∧
       t.flash.log.length = s.flash.log.length + 1) ∧
  -- EFFECT of SEC_REKEY
  (∀ (s : State) (p : Proc),
     s.serves = true →
     s.sec.proc = some p →
     p.kind = 2 →
     p.step = 3 →
     p.order = 3 →
     p.ch = none →
     ∃ t : State, exec (.flashOperationDone true) s = .next t ∧
       t.otp = { s.otp with seeds := s.otp.seeds ++ [ofLe (s.freeBytes 32)] } ∧
       t.keySlot = s.otp.seeds.length ∧
       t.sec.proc = none)

/-- UPD_BEGIN: BUSY with a procedure, an open session or a trial; a type above 1 and a size below 4 or above the region
INVALID_PARAM; EXHAUSTED after 3 000 updates of the bank (R441, R480); else its steps: BEGIN record, erase of both
regions of the bank not booted, copy of the other image, and the session is open. UPD_WRITE within the size, at a
multiple of 4 and in bytes not yet written, puts the data into the region; any other is INVALID_PARAM. UPD_VERIFY
answers 0 or the failing segment plus 1. BUSY during a session or a trial, that UPD_WRITE keeps an earlier
verification, and what a step that does not read back leaves are the model's readings (log entry 40); the record codes
are log entry 27. UPD_ACTIVATE: BUSY unless verified; else the ACTIVATE record. UPD_ABORT ends the session with the
inactive bank marked empty and both banks' contents unchanged (R442, R443). UPD_ABORT ends any open session. -/
def Obligations.FirmwareUpdate : Prop :=
  -- UPD_BEGIN
  (∀ (s : State) (ch : Fin 8) (ty : Byte) (n : Word) (r : HmbRun),
     s.Asked ch (.updBegin ch ty n) r →
     s.sec.proc = none →
     s.upd.isOpen = false →
     s.upd.trial = false →
     ty.toNat ≤ 1 →
     4 ≤ n.toNat →
     n.toNat ≤ fwSize ty.toNat →
     (if s.otherBank = 0 then s.updCounts.1 else s.updCounts.2) < 3000 →
     ∃ t : State, exec (.updBegin ch ty n) s = .next t ∧
       t.sec.proc = some { kind := 3, step := 1, ch := some ch.val, order := ty.toNat, arg := n.toNat } ∧
       t.flash = s.flash ∧
       (t.chan ch).run.isSome = true) ∧
  -- UPD_BEGIN refused as busy
  (∀ (s : State) (ch : Fin 8) (ty : Byte) (n : Word) (r : HmbRun),
     s.Asked ch (.updBegin ch ty n) r →
     (s.procBusy = true ∨ s.upd.isOpen = true ∨ s.upd.trial = true) →
     ∃ t : State, exec (.updBegin ch ty n) s = .next (t.finish ch stBusy []) ∧
       t = s.taken ch r) ∧
  -- UPD_BEGIN out of range
  (∀ (s : State) (ch : Fin 8) (ty : Byte) (n : Word) (r : HmbRun),
     s.Asked ch (.updBegin ch ty n) r →
     s.sec.proc = none →
     s.upd.isOpen = false →
     s.upd.trial = false →
     (1 < ty.toNat ∨ n.toNat < 4 ∨ fwSize ty.toNat < n.toNat) →
     ∃ t : State, exec (.updBegin ch ty n) s = .next (t.finish ch stInvalidParam []) ∧
       t = s.taken ch r) ∧
  -- UPD_BEGIN of a bank updated 3 000 times
  (∀ (s : State) (ch : Fin 8) (ty : Byte) (n : Word) (r : HmbRun),
     s.Asked ch (.updBegin ch ty n) r →
     s.sec.proc = none →
     s.upd.isOpen = false →
     s.upd.trial = false →
     ty.toNat ≤ 1 →
     4 ≤ n.toNat →
     n.toNat ≤ fwSize ty.toNat →
     3000 ≤ (if s.otherBank = 0 then s.updCounts.1 else s.updCounts.2) →
     ∃ t : State, exec (.updBegin ch ty n) s = .next (t.finish ch stExhausted []) ∧
       t = s.taken ch r) ∧
  -- the BEGIN record
  (∀ (s : State) (p : Proc),
     s.serves = true →
     s.sec.proc = some p →
     p.kind = 3 →
     p.step = 1 →
     ∃ t : State, exec (.flashOperationDone true) s = .next t ∧
       (t.flash.journal.getLast?.map (fun q => (q.op, q.step, q.target))) = some (opUpdate, updBegin, s.otherBank) ∧
       t.updCounts = (if s.otherBank = 0 then (s.updCounts.1 + 1, s.updCounts.2) else (s.updCounts.1, s.updCounts.2 + 1)) ∧
       t.sec.proc = some { p with step := 2 } ∧
       t.flash.fw = s.flash.fw) ∧
  -- the erase
  (∀ (s : State) (p : Proc),
     s.serves = true →
     s.sec.proc = some p →
     p.kind = 3 →
     p.step = 2 →
     (s.flash.fw.map (·.1)).Pairwise (· < ·) →
     s.sec.bank ≤ 1 →
     ∃ t : State, exec (.flashOperationDone true) s = .next t ∧
       mget [] t.flash.fw (2 * s.otherBank) = [] ∧
       mget [] t.flash.fw (2 * s.otherBank + 1) = [] ∧
       t.flash.emptied = setBitTo s.flash.emptied s.otherBank false ∧
       mget [] t.flash.fw (2 * s.sec.bank) = mget [] s.flash.fw (2 * s.sec.bank) ∧
       mget [] t.flash.fw (2 * s.sec.bank + 1) = mget [] s.flash.fw (2 * s.sec.bank + 1) ∧
       t.sec.proc = some { p with step := 3 }) ∧
  -- the copy of the other image opens the session
  (∀ (s : State) (p : Proc),
     s.serves = true →
     s.sec.proc = some p →
     p.kind = 3 →
     p.step = 3 →
     p.order ≤ 1 →
     p.ch = none →
     s.rf AST_INJCTL.ARM = 0 →
     s.ast.held = [] →
     ∃ t : State, exec (.flashOperationDone true) s = .next t ∧
       mget [] t.flash.fw (2 * s.otherBank + (1 - p.order)) = mget [] s.flash.fw (2 * s.sec.bank + (1 - p.order)) ∧
       t.upd.isOpen = true ∧
       t.upd.type = p.order ∧
       t.upd.size = p.arg ∧
       t.upd.parts = [] ∧
       t.upd.verified = false ∧
       t.sec.proc = none ∧
       (s.sendsClass clsBulk = true → Sent s t ((s.peersOf.filter s.bridgeUp).map (fun k => .bridge k (.updSession true))))) ∧
  -- a BEGIN record that does not read back
  (∀ (s : State) (p : Proc),
     s.serves = true →
     s.sec.proc = some p →
     p.kind = 3 →
     p.step = 1 →
     p.ch = none →
     ∃ t : State, exec (.flashOperationDone false) s = .next t ∧
       t.flash = s.flash ∧
       t.sec.proc = none ∧
       t.upd = s.upd) ∧
  -- a later step of an opening that does not read back
  (∀ (s : State) (p : Proc),
     s.serves = true →
     s.sec.proc = some p →
     p.kind = 3 →
     p.step ≠ 1 →
     p.ch = none →
     ∃ t : State, exec (.flashOperationDone false) s = .next t ∧
       (t.flash.journal.getLast?.map (fun q => (q.op, q.step, q.target))) = some (opUpdate, stpAbort, s.otherBank) ∧
       t.flash.emptied = setBitTo s.flash.emptied s.otherBank true ∧
       t.flash.fw = s.flash.fw ∧
       t.sec.proc = none ∧
       t.upd = s.upd) ∧
  -- UPD_WRITE
  (∀ (s : State) (ch : Fin 8) (o : Word) (d : List Byte) (r : HmbRun),
     s.Asked ch (.updWrite ch o d) r →
     4 ≤ d.length →
     d.length ≤ 1016 →
     s.upd.isOpen = true →
     o.toNat % 4 = 0 →
     o.toNat + d.length ≤ s.upd.size →
     s.upd.parts.any (fun p => decide (p.1 < o.toNat + d.length) && decide (o.toNat < p.1 + p.2)) = false →
     ∃ t : State, exec (.updWrite ch o d) s = .next (t.finish ch stOk []) ∧
       t.fwBytes s.otherBank s.upd.type o.toNat d.length = d ∧
       t.upd.parts = s.upd.parts ++ [(o.toNat, d.length)] ∧
       t.upd.verified = s.upd.verified ∧
       t.fwBytes s.otherBank s.upd.type 0 o.toNat = s.fwBytes s.otherBank s.upd.type 0 o.toNat ∧
       t.sec = s.sec) ∧
  -- UPD_WRITE refused
  (∀ (s : State) (ch : Fin 8) (o : Word) (d : List Byte) (r : HmbRun),
     s.Asked ch (.updWrite ch o d) r →
     4 ≤ d.length →
     d.length ≤ 1016 →
     (s.upd.isOpen = false ∨ o.toNat % 4 ≠ 0 ∨ s.upd.size < o.toNat + d.length ∨ s.upd.parts.any (fun p => decide (p.1 < o.toNat + d.length) && decide (o.toNat < p.1 + p.2)) = true) →
     ∃ t : State, exec (.updWrite ch o d) s = .next (t.finish ch stInvalidParam []) ∧
       t = s.taken ch r) ∧
  -- UPD_VERIFY
  (∀ (s : State) (ch : Fin 8) (r : HmbRun),
     s.Asked ch (.updVerify ch) r →
     ∃ t : State, exec (.updVerify ch) s = .next (t.finish ch stOk (leBytes 4 s.updResult)) ∧
       t.upd.verified = (s.updResult == 0) ∧
       t.flash = s.flash ∧
       RegsBut [] s t) ∧
  -- UPD_ACTIVATE of a verified session
  (∀ (s : State) (ch : Fin 8) (r : HmbRun),
     s.Asked ch (.updActivate ch) r →
     s.sec.proc = none →
     s.upd.verified = true →
     ∃ t : State, exec (.updActivate ch) s = .next t ∧
       t.sec.proc = some { kind := 4, step := 1, ch := some ch.val } ∧
       t.flash = s.flash) ∧
  -- UPD_ACTIVATE without one
  (∀ (s : State) (ch : Fin 8) (r : HmbRun),
     s.Asked ch (.updActivate ch) r →
     (s.upd.verified = false ∨ s.procBusy = true) →
     ∃ t : State, exec (.updActivate ch) s = .next (t.finish ch stBusy []) ∧
       t = s.taken ch r) ∧
  -- the ACTIVATE record of a request on the SPI channel is written: the session closes, and the lane resets once the response has been read
  (∀ (s : State) (p : Proc),
     s.serves = true →
     s.sec.proc = some p →
     p.kind = 4 →
     p.ch = some 0 →
     (s.chan 0).run.isSome = true →
     ∃ t : State, exec (.flashOperationDone true) s = .next t ∧
       (t.flash.journal.getLast?.map (fun q => (q.op, q.step, q.target))) = some (opUpdate, updActivate, s.otherBank) ∧
       t.upd.isOpen = false ∧
       t.sec.resetDue = some 0 ∧
       t.sec.proc = none ∧
       t.st = s.st) ∧
  -- UPD_ABORT of a session
  (∀ (s : State) (ch : Fin 8) (r : HmbRun),
     s.Asked ch (.updAbort ch) r →
     s.upd.isOpen = true →
     s.rf AST_INJCTL.ARM = 0 →
     s.ast.held = [] →
     ∃ t : State, exec (.updAbort ch) s = .next (t.finish ch stOk []) ∧
       (t.flash.journal.getLast?.map (fun q => (q.op, q.step, q.target))) = some (opUpdate, stpAbort, s.otherBank) ∧
       t.upd.isOpen = false ∧
       t.flash.emptied = setBitTo s.flash.emptied s.otherBank true ∧
       t.flash.fw = s.flash.fw) ∧
  -- UPD_ABORT without a session
  (∀ (s : State) (ch : Fin 8) (r : HmbRun),
     s.Asked ch (.updAbort ch) r →
     s.upd.isOpen = false →
     ∃ t : State, exec (.updAbort ch) s = .next (t.finish ch stOk []) ∧
       t = s.taken ch r) ∧
  -- UPD_ABORT of any session
  (∀ (s : State) (ch : Fin 8) (r : HmbRun),
     s.Asked ch (.updAbort ch) r →
     s.upd.isOpen = true →
     ∃ t : State, exec (.updAbort ch) s = .next (t.finish ch stOk []) ∧
       t.upd.isOpen = false ∧
       t.upd.verified = false ∧
       t.upd.trial = s.upd.trial)

/-- GT_CORRECTION at its interval: a time message with GT and the lane's network offset leaves for every peer (R34),
SPN_OFFSET holds the median of the candidate set and CAND the lanes in it; with an offset within STEPLIM the rate
moves by offset × 2^32 / 400 000 within ± RMAX, the slew becomes offset × 2^32 / 50 000 within ± SMAX, and GT itself
stays; outside SERVICE with STEPEN 1 and an offset beyond STEPLIM, GT steps by it and the slew is 0 (R48, R49).
ALIGNED is |offset| ≤ 4 (R50). in SERVICE, and with STEPEN 0, an offset beyond STEPLIM makes no step: the slew takes
it within its limits, and SERVICE raises 17 SPN_GT_STEP_NEEDED (R49). HOLDOVER_ENTRY, once HOLD has passed without an
external candidate, sets HOLDOVER, asserts 18 and sets the slew to 0 (R51). SPEED_UPDATE gives SPN_SPEED the measured
reference path. -/
def Obligations.SpindleCorrection : Prop :=
  -- a correction that slews (R49)
  (∀ (s : State) (d : Int),
     s.on = true →
     s.spn.lastCorr + 50000 ≤ s.now →
     s.rf AST_INJCTL.ARM = 0 →
     s.ast.held = [] →
     d = medianI (s.cands.map (·.2)) →
     d.natAbs ≤ s.stepLim →
     ∃ t : State, exec (.gtCorrection) s = .next t ∧
       t.gt = s.gt ∧
       t.rn SPN_OFFSET.adr = satSigned32 d ∧
       t.rf SPN_SYNCSTAT.CAND = maskOf (s.cands.map (·.1)) % 8 ∧
       t.rate = clampI (-858993) 858993 (s.rate + Int.tdiv (d * 4294967296) 400000) ∧
       t.slew = clampI (-429497) 429497 (Int.tdiv (d * 4294967296) 50000) ∧
       t.rf SPN_SYNCSTAT.ALIGNED = b2n (decide (d.natAbs ≤ 4)) ∧
       t.spn.lastCorr = s.now ∧
       Sent s t (s.peersOf.map (fun k => .bridge k (.time s.gt (s.netOffOf s.otp.lane)))) ∧
       RegsBut [whole SPN_OFFSET.adr, whole SPN_SYNCSTAT.adr, PMU_STAT.OSCOK] s t ∧
       t = { s with regs := t.regs, rate := t.rate, slew := t.slew, spn := t.spn, tly := t.tly, outbox := t.outbox }) ∧
  -- a correction that slews, with peers
  (∀ (s : State) (d : Int),
     s.on = true →
     s.spn.lastCorr + 50000 ≤ s.now →
     d = medianI (s.cands.map (·.2)) →
     2 ≤ s.cands.length →
     d.natAbs ≤ s.stepLim →
     ∃ t : State, exec (.gtCorrection) s = .next t ∧
       t.gt = s.gt ∧
       t.rn SPN_OFFSET.adr = satSigned32 d ∧
       t.spn.lastExt = some s.now) ∧
  -- a step outside SERVICE (R49)
  (∀ (s : State) (d : Int),
     s.on = true →
     s.spn.lastCorr + 50000 ≤ s.now →
     d = medianI (s.cands.map (·.2)) →
     s.stepLim < d.natAbs →
     s.st ≠ stService →
     s.rb SPN_CTRL.STEPEN = true →
     ∃ t : State, exec (.gtCorrection) s = .next t ∧
       t.gt = (((s.gt : Int) + d) % 2 ^ 64).toNat ∧
       t.slew = 0 ∧
       t.rate = s.rate ∧
       t.rn SPN_OFFSET.adr = satSigned32 d ∧
       t.rf SPN_SYNCSTAT.ALIGNED = b2n (decide (d.natAbs ≤ 4))) ∧
  -- an offset beyond STEPLIM in SERVICE, or with STEPEN 0: no step (R49)
  (∀ (s : State) (d : Int),
     s.on = true →
     s.spn.lastCorr + 50000 ≤ s.now →
     s.rf AST_INJCTL.ARM = 0 →
     s.ast.held = [] →
     d = medianI (s.cands.map (·.2)) →
     s.stepLim < d.natAbs →
     (s.st = stService ∨ s.rb SPN_CTRL.STEPEN = false) →
     ∃ t : State, exec (.gtCorrection) s = .next t ∧
       t.gt = s.gt ∧
       t.rn SPN_OFFSET.adr = satSigned32 d ∧
       t.rate = clampI (-858993) 858993 (s.rate + Int.tdiv (d * 4294967296) 400000) ∧
       t.slew = clampI (-429497) 429497 (Int.tdiv (d * 4294967296) 50000) ∧
       (s.st = stService → s.raiseOf 17 0 ∈ t.tly.raises) ∧
       t.rf SPN_SYNCSTAT.ALIGNED = b2n (decide (d.natAbs ≤ 4)) ∧
       RegsBut [whole SPN_OFFSET.adr, whole SPN_SYNCSTAT.adr, PMU_STAT.OSCOK] s t ∧
       t = { s with regs := t.regs, rate := t.rate, slew := t.slew, spn := t.spn, tly := t.tly, outbox := t.outbox }) ∧
  -- HOLDOVER_ENTRY (R51)
  (∀ (s : State) (e : Nat),
     s.on = true →
     s.rb SPN_SYNCSTAT.HOLDOVER = false →
     s.spn.lastExt = some e →
     e + 1000000 * s.rf SPN_SYNCCFG.HOLD ≤ s.now →
     ∃ t : State, exec (.holdoverEntry) s = .next t ∧
       t.rf SPN_SYNCSTAT.HOLDOVER = 1 ∧
       t.asserted 18 = true ∧
       t.slew = 0 ∧
       Raised s t 18 0 ∧
       RegsBut [SPN_SYNCSTAT.HOLDOVER] s t ∧
       t = { s with regs := t.regs, slew := 0, tly := t.tly }) ∧
  -- SPEED_UPDATE
  (∀ (s : State) (x : Fin 65536),
     s.on = true →
     ∃ t : State, exec (.speedUpdate x) s = .next t ∧
       t.rf SPN_SPEED.MOPS = x ∧
       RegsBut [SPN_SPEED.MOPS] s t ∧
       t = { s with regs := t.regs })

/-- STRIKE_FIRE of an enabled entry whose fire time has come, in its turn: the entry goes on from the tick after it. With
nothing attached to the entry beside its action: where an instance is still outstanding the strike is missed, MISSES
of entry and class count and 19 SPN_STRIKE_MISSED is raised (R58); where none is, an instance with the deadline of its
class's budget begins (R54, R59): NONE completes at once, in an idle class with its whole budget as margin (R64), else
at the GT of its launch (R58, R61); PWM_COMMIT puts a request into its bank's arbiter, ADC starts or queues its
sequence, LOOP_SAMPLE queues its context's sample, each outstanding until the block reports, and QUEUE_POST writes and
posts the strike record (R54, R73, R180, R212, R373); IRQ sends its vector to the receiver of its owner code and stays
outstanding; an action whose target refuses it is missed. STRIKE_COMPLETE of an instance whose action has completed:
it is no longer outstanding, DONE counts, and the margin, deadline less completion, enters the class's slack where
that was unprimed or larger (R61); a completion after the deadline not yet counted counts an overrun and raises 16.
STRIKE_DEADLINE of an instance outstanding after its deadline counts one overrun of the entry and of the class and
raises 16, once (R58). -/
def Obligations.StrikeFiresAndEnds : Prop :=
  -- any fire time, in its turn
  (∀ (s : State) (m : Fin 256) (f : Nat),
     s.on = true →
     s.fireDue m = some f →
     s.fireTurn m f = true →
     ∃ t : State, exec (.strikeFire m) s = .next t ∧
       (t.entry m).sinceGt = f + 1) ∧
  -- a missed strike (R58)
  (∀ (s : State) (m : Fin 256) (f : Nat) (i : Inst),
     s.on = true →
     s.fireDue m = some f →
     s.fireTurn m f = true →
     (s.entry m).inst = some i →
     i.doneAt = none →
     s.rb LBR_AGRCFG.EN = false →
     s.rb TSK_CHALCFG.EN = false →
     (∀ n : Fin 16, s.fbUse n = false) →
     (∀ p : Fin 3, s.rb (SLP_PAIRCFG.EN p) = false ∧ s.runsLocked p = false) →
     ∃ t : State, exec (.strikeFire m) s = .next t ∧
       t.rf (SPN_ESTAT.MISSES m) = min (s.rf (SPN_ESTAT.MISSES m) + 1) 255 ∧
       Raised s t 19 (m + (s.rf (SPN_ACT.CLASS m)) * 256) ∧
       (t.entry m).inst = some i ∧
       (t.entry m).count = (s.entry m).count ∧
       RegsBut [SPN_ESTAT.MISSES m, SPN_CLASSSTAT.MISSES (s.rf (SPN_ACT.CLASS m))] s t ∧
       t = { s with regs := t.regs, tly := t.tly, spn := t.spn }) ∧
  -- a strike without an action in an idle class (R54, R64)
  (∀ (s : State) (m : Fin 256) (f : Nat),
     s.on = true →
     s.fireDue m = some f →
     s.fireTurn m f = true →
     (s.entry m).inst = none →
     s.rf (SPN_ACT.ACTION m) = 0 →
     s.rb (SPN_CLASSCFG.IDLE (s.rf (SPN_ACT.CLASS m))) = true →
     s.rb LBR_AGRCFG.EN = false →
     s.rb TSK_CHALCFG.EN = false →
     (∀ n : Fin 16, s.fbUse n = false) →
     (∀ p : Fin 3, s.rb (SLP_PAIRCFG.EN p) = false ∧ s.runsLocked p = false) →
     ∃ t : State, exec (.strikeFire m) s = .next t ∧
       t.rf (SPN_ESTAT.OUTST m) = 0 ∧
       (t.entry m).inst = none ∧
       (t.entry m).count = ((s.entry m).count + 1) % 2 ^ 32 ∧
       t.rf (SPN_CLASSCNT.DONE (s.rf (SPN_ACT.CLASS m))) = (s.rf (SPN_CLASSCNT.DONE (s.rf (SPN_ACT.CLASS m))) + 1) % 2 ^ 32 ∧
       t.rf (SPN_CLASSSTAT.PRIMED (s.rf (SPN_ACT.CLASS m))) = 1 ∧
       (s.rb (SPN_CLASSSTAT.PRIMED (s.rf (SPN_ACT.CLASS m))) = false → t.rn (SPN_SLACK.adr (s.rf (SPN_ACT.CLASS m))) = s.rf (SPN_CLASSCFG.BUDGET (s.rf (SPN_ACT.CLASS m)))) ∧
       RegsBut [SPN_ESTAT.OUTST m, whole (SPN_SLACK.adr (s.rf (SPN_ACT.CLASS m))), whole (SPN_CLASSCNT.adr (s.rf (SPN_ACT.CLASS m))), SPN_CLASSSTAT.PRIMED (s.rf (SPN_ACT.CLASS m))] s t ∧
       t = { s with regs := t.regs, spn := t.spn }) ∧
  -- a strike without an action in a class that is not idle (R54, R58, R61)
  (∀ (s : State) (m : Fin 256) (f : Nat),
     s.on = true →
     s.fireDue m = some f →
     s.fireTurn m f = true →
     (s.entry m).inst = none →
     s.rf (SPN_ACT.ACTION m) = 0 →
     s.rb (SPN_CLASSCFG.IDLE (s.rf (SPN_ACT.CLASS m))) = false →
     s.gt ≤ f + s.rf (SPN_CLASSCFG.BUDGET (s.rf (SPN_ACT.CLASS m))) →
     s.rb LBR_AGRCFG.EN = false →
     s.rb TSK_CHALCFG.EN = false →
     (∀ n : Fin 16, s.fbUse n = false) →
     (∀ p : Fin 3, s.rb (SLP_PAIRCFG.EN p) = false ∧ s.runsLocked p = false) →
     ∃ t : State, exec (.strikeFire m) s = .next t ∧
       t.rf (SPN_ESTAT.OUTST m) = 0 ∧
       (t.entry m).inst = none ∧
       (t.entry m).count = ((s.entry m).count + 1) % 2 ^ 32 ∧
       t.rf (SPN_CLASSCNT.DONE (s.rf (SPN_ACT.CLASS m))) = (s.rf (SPN_CLASSCNT.DONE (s.rf (SPN_ACT.CLASS m))) + 1) % 2 ^ 32 ∧
       t.rf (SPN_CLASSSTAT.PRIMED (s.rf (SPN_ACT.CLASS m))) = 1 ∧
       (s.rb (SPN_CLASSSTAT.PRIMED (s.rf (SPN_ACT.CLASS m))) = false → t.rn (SPN_SLACK.adr (s.rf (SPN_ACT.CLASS m))) = f + s.rf (SPN_CLASSCFG.BUDGET (s.rf (SPN_ACT.CLASS m))) - s.gt) ∧
       RegsBut [SPN_ESTAT.OUTST m, whole (SPN_SLACK.adr (s.rf (SPN_ACT.CLASS m))), whole (SPN_CLASSCNT.adr (s.rf (SPN_ACT.CLASS m))), SPN_CLASSSTAT.PRIMED (s.rf (SPN_ACT.CLASS m))] s t ∧
       t = { s with regs := t.regs, spn := t.spn }) ∧
  -- a PWM_COMMIT strike of an enabled bank (R54, R73)
  (∀ (s : State) (m : Fin 256) (f : Nat),
     s.on = true →
     s.fireDue m = some f →
     s.fireTurn m f = true →
     (s.entry m).inst = none →
     s.rf (SPN_ACT.ACTION m) = 1 →
     s.bankEnabled (s.rf (SPN_ACT.TARGET m) % 8) = true →
     s.rb LBR_AGRCFG.EN = false →
     s.rb TSK_CHALCFG.EN = false →
     (∀ n : Fin 16, s.fbUse n = false) →
     (∀ p : Fin 3, s.rb (SLP_PAIRCFG.EN p) = false ∧ s.runsLocked p = false) →
     ∃ t : State, exec (.strikeFire m) s = .next t ∧
       (t.bank (s.rf (SPN_ACT.TARGET m) % 8)).reqs = (s.bank (s.rf (SPN_ACT.TARGET m) % 8)).reqs ++ [{ at_ := s.gt, entry := some m.val }] ∧
       t.rf (SPN_ESTAT.OUTST m) = 1 ∧
       (t.entry m).inst = some { fire := f, deadline := f + s.rf (SPN_CLASSCFG.BUDGET (s.rf (SPN_ACT.CLASS m))), cls := s.rf (SPN_ACT.CLASS m), action := 1, target := s.rf (SPN_ACT.TARGET m) } ∧
       (t.entry m).count = ((s.entry m).count + 1) % 2 ^ 32 ∧
       RegsBut [SPN_ESTAT.OUTST m] s t ∧
       t = { s with regs := t.regs, spn := t.spn, pwm := t.pwm }) ∧
  -- an ADC strike on an idle converter (R54, R212)
  (∀ (s : State) (m : Fin 256) (f : Nat),
     s.on = true →
     s.fireDue m = some f →
     s.fireTurn m f = true →
     (s.entry m).inst = none →
     s.rf (SPN_ACT.ACTION m) = 2 →
     s.rb ADC_CFG.EN = true →
     s.rb (ADC_SEQCFG.EN (s.rf (SPN_ACT.TARGET m) % 16)) = true →
     s.rf (ADC_SEQCFG.CHMASK (s.rf (SPN_ACT.TARGET m) % 16)) ≠ 0 →
     s.adc.cur = none →
     s.rb LBR_AGRCFG.EN = false →
     s.rb TSK_CHALCFG.EN = false →
     (∀ n : Fin 16, s.fbUse n = false) →
     (∀ p : Fin 3, s.rb (SLP_PAIRCFG.EN p) = false ∧ s.runsLocked p = false) →
     ∃ t : State, exec (.strikeFire m) s = .next t ∧
       t.adc.cur = some (s.rf (SPN_ACT.TARGET m) % 16, some m.val) ∧
       t.adc.left = bitList 16 (s.rf (ADC_SEQCFG.CHMASK (s.rf (SPN_ACT.TARGET m) % 16))) ∧
       t.rf ADC_STAT.BUSY = 1 ∧
       t.rf ADC_STAT.CURSEQ = s.rf (SPN_ACT.TARGET m) % 16 ∧
       (t.entry m).inst = some { fire := f, deadline := f + s.rf (SPN_CLASSCFG.BUDGET (s.rf (SPN_ACT.CLASS m))), cls := s.rf (SPN_ACT.CLASS m), action := 2, target := s.rf (SPN_ACT.TARGET m) } ∧
       RegsBut [SPN_ESTAT.OUTST m, ADC_STAT.BUSY, ADC_STAT.CURSEQ, ADC_STAT.QDEPTH] s t ∧
       t = { s with regs := t.regs, spn := t.spn, adc := t.adc }) ∧
  -- an ADC strike on a busy converter with room in its queue (R54, R212)
  (∀ (s : State) (m : Fin 256) (f : Nat),
     s.on = true →
     s.fireDue m = some f →
     s.fireTurn m f = true →
     (s.entry m).inst = none →
     s.rf (SPN_ACT.ACTION m) = 2 →
     s.rb ADC_CFG.EN = true →
     s.rb (ADC_SEQCFG.EN (s.rf (SPN_ACT.TARGET m) % 16)) = true →
     s.rf (ADC_SEQCFG.CHMASK (s.rf (SPN_ACT.TARGET m) % 16)) ≠ 0 →
     s.adc.cur ≠ none →
     s.adc.queue.length < 4 →
     s.rb LBR_AGRCFG.EN = false →
     s.rb TSK_CHALCFG.EN = false →
     (∀ n : Fin 16, s.fbUse n = false) →
     (∀ p : Fin 3, s.rb (SLP_PAIRCFG.EN p) = false ∧ s.runsLocked p = false) →
     ∃ t : State, exec (.strikeFire m) s = .next t ∧
       t.adc.queue = s.adc.queue ++ [(s.rf (SPN_ACT.TARGET m) % 16, some m.val)] ∧
       t.adc.cur = s.adc.cur ∧
       t.rf ADC_STAT.QDEPTH = s.adc.queue.length + 1 ∧
       (t.entry m).inst = some { fire := f, deadline := f + s.rf (SPN_CLASSCFG.BUDGET (s.rf (SPN_ACT.CLASS m))), cls := s.rf (SPN_ACT.CLASS m), action := 2, target := s.rf (SPN_ACT.TARGET m) } ∧
       RegsBut [SPN_ESTAT.OUTST m, ADC_STAT.QDEPTH] s t ∧
       t = { s with regs := t.regs, spn := t.spn, adc := t.adc }) ∧
  -- a LOOP_SAMPLE strike of an enabled context (R54, R180)
  (∀ (s : State) (m : Fin 256) (f : Nat),
     s.on = true →
     s.fireDue m = some f →
     s.fireTurn m f = true →
     (s.entry m).inst = none →
     s.rf (SPN_ACT.ACTION m) = 3 →
     s.rb (LPE_CTXCFG.EN (s.rf (SPN_ACT.TARGET m) % 256)) = true →
     (s.lpeQueue (s.rf (SPN_ACT.TARGET m) % 256 / 64)).length < 16 →
     s.rb LBR_AGRCFG.EN = false →
     s.rb TSK_CHALCFG.EN = false →
     (∀ n : Fin 16, s.fbUse n = false) →
     (∀ p : Fin 3, s.rb (SLP_PAIRCFG.EN p) = false ∧ s.runsLocked p = false) →
     ∃ t : State, exec (.strikeFire m) s = .next t ∧
       t.lpeQueue (s.rf (SPN_ACT.TARGET m) % 256 / 64) = s.lpeQueue (s.rf (SPN_ACT.TARGET m) % 256 / 64) ++ [{ ctx := s.rf (SPN_ACT.TARGET m) % 256, fire := f, period := s.rn (SPN_PERIOD.adr m), entry := some m.val }] ∧
       (t.entry m).inst = some { fire := f, deadline := f + s.rf (SPN_CLASSCFG.BUDGET (s.rf (SPN_ACT.CLASS m))), cls := s.rf (SPN_ACT.CLASS m), action := 3, target := s.rf (SPN_ACT.TARGET m) } ∧
       t.rf (SPN_ESTAT.OUTST m) = 1 ∧
       RegsBut [SPN_ESTAT.OUTST m, LPE_ENGSTAT.QMAX (s.rf (SPN_ACT.TARGET m) % 256 / 64), LPE_ENGSTAT.QDEPTH (s.rf (SPN_ACT.TARGET m) % 256 / 64)] s t ∧
       t = { s with regs := t.regs, spn := t.spn, lpe := t.lpe }) ∧
  -- a QUEUE_POST strike into a queue with room (R54, R373)
  (∀ (s : State) (m : Fin 256) (f : Nat),
     s.on = true →
     s.fireDue m = some f →
     s.fireTurn m f = true →
     (s.entry m).inst = none →
     s.rf (SPN_ACT.ACTION m) = 4 →
     s.rb (QUE_CFG.EN (s.rf (SPN_ACT.TARGET m) % 128)) = true →
     1 ≤ s.free_ (s.rf (SPN_ACT.TARGET m) % 128) →
     s.inflight (s.rf (SPN_ACT.TARGET m) % 128) + 1 < 8192 →
     s.rb (QUE_STAT.ADMIT (s.rf (SPN_ACT.TARGET m) % 128)) = true →
     s.rb (QUE_CFG.SPNPROD (s.rf (SPN_ACT.TARGET m) % 128)) = true →
     s.rb (QUE_CFG.IRQEN (s.rf (SPN_ACT.TARGET m) % 128)) = false →
     (s.canRxOf (s.rf (SPN_ACT.TARGET m) % 128)).isNone = true →
     s.rb LBR_AGRCFG.EN = false →
     s.rb TSK_CHALCFG.EN = false →
     (∀ n : Fin 16, s.fbUse n = false) →
     (∀ p : Fin 3, s.rb (SLP_PAIRCFG.EN p) = false ∧ s.runsLocked p = false) →
     ∃ t : State, exec (.strikeFire m) s = .next t ∧
       t.memBytes (s.entryAt (s.rf (SPN_ACT.TARGET m) % 128) (s.inflight (s.rf (SPN_ACT.TARGET m) % 128))) 64 = strikeRecord m f (((s.entry m).count + 1) % 2 ^ 32) ∧
       MemBut (s.entryAt (s.rf (SPN_ACT.TARGET m) % 128) (s.inflight (s.rf (SPN_ACT.TARGET m) % 128))) 64 s t ∧
       t.free_ (s.rf (SPN_ACT.TARGET m) % 128) = s.free_ (s.rf (SPN_ACT.TARGET m) % 128) - 1 ∧
       t.inflight (s.rf (SPN_ACT.TARGET m) % 128) = s.inflight (s.rf (SPN_ACT.TARGET m) % 128) + 1 ∧
       (t.entry m).inst = some { fire := f, deadline := f + s.rf (SPN_CLASSCFG.BUDGET (s.rf (SPN_ACT.CLASS m))), cls := s.rf (SPN_ACT.CLASS m), action := 4, target := s.rf (SPN_ACT.TARGET m), doneAt := some s.gt } ∧
       RegsBut [SPN_ESTAT.OUTST m, QUE_CNT.FREE (s.rf (SPN_ACT.TARGET m) % 128), QUE_CNT.INFLIGHT (s.rf (SPN_ACT.TARGET m) % 128)] s t) ∧
  -- an action that its target refuses: the strike is missed (R54)
  (∀ (s : State) (m : Fin 256) (f : Nat),
     s.on = true →
     s.fireDue m = some f →
     s.fireTurn m f = true →
     (s.entry m).inst = none →
     ((s.rf (SPN_ACT.ACTION m) = 1 ∧ s.bankEnabled (s.rf (SPN_ACT.TARGET m) % 8) = false) ∨ (s.rf (SPN_ACT.ACTION m) = 2 ∧ (s.rb ADC_CFG.EN = false ∨ s.rb (ADC_SEQCFG.EN (s.rf (SPN_ACT.TARGET m) % 16)) = false)) ∨ (s.rf (SPN_ACT.ACTION m) = 3 ∧ s.rb (LPE_CTXCFG.EN (s.rf (SPN_ACT.TARGET m) % 256)) = false) ∨ (s.rf (SPN_ACT.ACTION m) = 4 ∧ (s.rb (QUE_CFG.EN (s.rf (SPN_ACT.TARGET m) % 128)) = false ∨ s.free_ (s.rf (SPN_ACT.TARGET m) % 128) = 0))) →
     s.rb LBR_AGRCFG.EN = false →
     s.rb TSK_CHALCFG.EN = false →
     (∀ n : Fin 16, s.fbUse n = false) →
     (∀ p : Fin 3, s.rb (SLP_PAIRCFG.EN p) = false ∧ s.runsLocked p = false) →
     ∃ t : State, exec (.strikeFire m) s = .next t ∧
       t.rf (SPN_ESTAT.MISSES m) = min (s.rf (SPN_ESTAT.MISSES m) + 1) 255 ∧
       Raised s t 19 (m + (s.rf (SPN_ACT.CLASS m)) * 256) ∧
       (t.entry m).inst = none ∧
       t.mem = s.mem ∧
       t.outbox = s.outbox ∧
       RegsBut [SPN_ESTAT.MISSES m, SPN_CLASSSTAT.MISSES (s.rf (SPN_ACT.CLASS m))] s t) ∧
  -- an IRQ strike to a receiver that is no pair (R54)
  (∀ (s : State) (m : Fin 256) (f : Nat),
     s.on = true →
     s.fireDue m = some f →
     s.fireTurn m f = true →
     (s.entry m).inst = none →
     s.rf (SPN_ACT.ACTION m) = 6 →
     (s.receiver (s.rf (SPN_ACT.TARGET m) % 32)).all (fun o => (ownerPair o).isNone) = true →
     s.rb LBR_AGRCFG.EN = false →
     s.rb TSK_CHALCFG.EN = false →
     (∀ n : Fin 16, s.fbUse n = false) →
     (∀ p : Fin 3, s.rb (SLP_PAIRCFG.EN p) = false ∧ s.runsLocked p = false) →
     ∃ t : State, exec (.strikeFire m) s = .next t ∧
       t.rf (SPN_ESTAT.OUTST m) = 1 ∧
       (t.entry m).count = ((s.entry m).count + 1) % 2 ^ 32 ∧
       (t.entry m).inst = some { fire := f, deadline := f + s.rf (SPN_CLASSCFG.BUDGET (s.rf (SPN_ACT.CLASS m))), cls := s.rf (SPN_ACT.CLASS m), action := 6, target := s.rf (SPN_ACT.TARGET m) } ∧
       Sent s t ((s.receiver (s.rf (SPN_ACT.TARGET m) % 32)).map (fun o => OutMsg.irq o (s.rf (SPN_ACT.TARGET m) / 256 % 32) m)).toList ∧
       RegsBut [SPN_ESTAT.OUTST m] s t ∧
       t = { s with regs := t.regs, spn := t.spn, outbox := t.outbox }) ∧
  -- an AIRUM_TX strike of a context that does not transmit (R54, R315)
  (∀ (s : State) (m : Fin 256) (f : Nat),
     s.on = true →
     s.fireDue m = some f →
     s.fireTurn m f = true →
     (s.entry m).inst = none →
     s.rf (SPN_ACT.ACTION m) = 5 →
     s.isTx (s.rf (SPN_ACT.TARGET m) % 512) = false →
     s.rb LBR_AGRCFG.EN = false →
     s.rb TSK_CHALCFG.EN = false →
     (∀ n : Fin 16, s.fbUse n = false) →
     (∀ p : Fin 3, s.rb (SLP_PAIRCFG.EN p) = false ∧ s.runsLocked p = false) →
     ∃ t : State, exec (.strikeFire m) s = .next t ∧
       t.rf (SPN_ESTAT.MISSES m) = min (s.rf (SPN_ESTAT.MISSES m) + 1) 255 ∧
       Raised s t 19 (m + (s.rf (SPN_ACT.CLASS m)) * 256) ∧
       (t.entry m).inst = none ∧
       RegsBut [SPN_ESTAT.MISSES m, SPN_CLASSSTAT.MISSES (s.rf (SPN_ACT.CLASS m))] s t) ∧
  -- STRIKE_COMPLETE in time (R60, R61)
  (∀ (s : State) (m : Fin 256) (i : Inst) (c : Nat),
     s.on = true →
     (s.entry m).inst = some i →
     i.doneAt = some c →
     c ≤ i.deadline →
     i.deadline < c + 2147483648 →
     i.cls < 16 →
     ∃ t : State, exec (.strikeComplete m) s = .next t ∧
       t.rf (SPN_ESTAT.OUTST m) = 0 ∧
       (t.entry m).inst = none ∧
       t.rf (SPN_CLASSCNT.DONE i.cls) = (s.rf (SPN_CLASSCNT.DONE i.cls) + 1) % 2 ^ 32 ∧
       t.rf (SPN_CLASSSTAT.PRIMED i.cls) = 1 ∧
       toSigned 32 (t.rn (SPN_SLACK.adr i.cls)) = (if s.rb (SPN_CLASSSTAT.PRIMED i.cls) then min (toSigned 32 (s.rn (SPN_SLACK.adr i.cls))) ((i.deadline : Int) - c) else (i.deadline : Int) - c) ∧
       RegsBut [SPN_ESTAT.OUTST m, whole (SPN_SLACK.adr i.cls), whole (SPN_CLASSCNT.adr i.cls), SPN_CLASSSTAT.PRIMED i.cls] s t ∧
       t = { s with regs := t.regs, spn := t.spn }) ∧
  -- STRIKE_COMPLETE after the deadline (R58)
  (∀ (s : State) (m : Fin 256) (i : Inst) (c : Nat),
     s.on = true →
     (s.entry m).inst = some i →
     i.doneAt = some c →
     i.deadline < c →
     i.overrun = false →
     c ≤ i.deadline + 2147483648 →
     i.cls < 16 →
     ∃ t : State, exec (.strikeComplete m) s = .next t ∧
       t.rf (SPN_ESTAT.OUTST m) = 0 ∧
       (t.entry m).inst = none ∧
       t.rf (SPN_ESTAT.OVERRUNS m) = min (s.rf (SPN_ESTAT.OVERRUNS m) + 1) 255 ∧
       t.rf (SPN_CLASSSTAT.OVERRUNS i.cls) = min (s.rf (SPN_CLASSSTAT.OVERRUNS i.cls) + 1) 255 ∧
       Raised s t 16 (m + i.cls * 256) ∧
       toSigned 32 (t.rn (SPN_SLACK.adr i.cls)) = (if s.rb (SPN_CLASSSTAT.PRIMED i.cls) then min (toSigned 32 (s.rn (SPN_SLACK.adr i.cls))) ((i.deadline : Int) - c) else (i.deadline : Int) - c)) ∧
  -- STRIKE_DEADLINE (R58)
  (∀ (s : State) (m : Fin 256) (i : Inst),
     s.on = true →
     (s.entry m).inst = some i →
     i.doneAt = none →
     i.overrun = false →
     i.deadline < s.gt →
     i.cls < 16 →
     ∃ t : State, exec (.strikeDeadline m) s = .next t ∧
       (t.entry m).inst = some { i with overrun := true } ∧
       t.rf (SPN_ESTAT.OVERRUNS m) = min (s.rf (SPN_ESTAT.OVERRUNS m) + 1) 255 ∧
       t.rf (SPN_CLASSSTAT.OVERRUNS i.cls) = min (s.rf (SPN_CLASSSTAT.OVERRUNS i.cls) + 1) 255 ∧
       Raised s t 16 (m + i.cls * 256) ∧
       RegsBut [SPN_ESTAT.OVERRUNS m, SPN_CLASSSTAT.OVERRUNS i.cls] s t ∧
       t = { s with regs := t.regs, tly := t.tly, spn := t.spn })

/-- GRPEN_WRITE by a holder of the group's unit writes SPN_GRPENg and takes effect 200 ns later (R55); GRPEN_EFFECT
applies one due write of the group to the enables of its 16 entries, once no fire time before it is still to be
handled; SPN_DONE completes the outstanding IRQ instance of its entry (R54) and no other; SPN_LEDGER_CLR by the
Headstock unprimes exactly the classes named (R62). -/
def Obligations.StrikeWrites : Prop :=
  -- GRPEN_WRITE
  (∀ (s : State) (req : Fin 32) (g : Fin 16) (v : Word),
     s.on = true →
     s.mayWrite req (24 + g) false = true →
     ∃ t : State, exec (.grpenWrite req g v) s = .next t ∧
       t.rf (SPN_GRPEN.EN g) = v.toNat % 65536 ∧
       t.spn.enPend = s.spn.enPend ++ [{ group := g, mask := v.toNat % 65536, eff := s.gt + 200 }] ∧
       RegsBut [SPN_GRPEN.EN g] s t ∧
       t = { s with regs := t.regs, spn := t.spn }) ∧
  -- GRPEN_EFFECT, one write due and no earlier fire time open
  (∀ (s : State) (g : Fin 16) (e : EnPend),
     s.on = true →
     s.spn.enPend = [e] →
     e.group = g →
     e.eff ≤ s.gt →
     s.fireOpen g e.eff = false →
     ∃ t : State, exec (.grpenEffect g) s = .next t ∧
       (∀ i : Fin 16, t.rf (SPN_ESTAT.ENABLED (16 * g + i)) = b2n (e.mask.testBit i)) ∧
       t.spn.enPend = [] ∧
       RegsBut ((List.range 16).map (fun i => SPN_ESTAT.ENABLED (16 * g + i))) s t ∧
       t = { s with regs := t.regs, spn := t.spn }) ∧
  -- GRPEN_EFFECT while an earlier fire time is open (R55)
  (∀ (s : State) (g : Fin 16) (e : EnPend),
     s.on = true →
     s.spn.enPend = [e] →
     s.fireOpen g e.eff = true →
     ∃ t : State, exec (.grpenEffect g) s = .next t ∧
       t = s) ∧
  -- SPN_DONE of an IRQ instance
  (∀ (s : State) (req : Fin 32) (m : Fin 256) (i : Inst),
     s.on = true →
     s.mayWrite req (24 + m / 16) false = true →
     (s.entry m).inst = some i →
     i.action = 6 →
     i.doneAt = none →
     ∃ t : State, exec (.spnDone req m) s = .next t ∧
       (t.entry m).inst = some { i with doneAt := some s.gt } ∧
       RegsBut [] s t ∧
       t = { s with spn := t.spn }) ∧
  -- SPN_DONE with no IRQ instance outstanding
  (∀ (s : State) (req : Fin 32) (m : Fin 256),
     s.on = true →
     s.mayWrite req (24 + m / 16) false = true →
     (s.entry m).inst.elim true (fun i => i.action != 6) = true →
     ∃ t : State, exec (.spnDone req m) s = .next t ∧
       t = s) ∧
  -- SPN_LEDGER_CLR
  (∀ (s : State) (v : Word),
     s.on = true →
     ∃ t : State, exec (.spnLedgerClr 1 v) s = .next t ∧
       (∀ n : Fin 16, if v.toNat.testBit n then t.rn (SPN_SLACK.adr n) = 0x7FFFFFFF ∧ t.rn (SPN_CLASSCNT.adr n) = 0 ∧ t.rn (SPN_CLASSSTAT.adr n) = 0 else t.rn (SPN_SLACK.adr n) = s.rn (SPN_SLACK.adr n) ∧ t.rn (SPN_CLASSCNT.adr n) = s.rn (SPN_CLASSCNT.adr n) ∧ t.rn (SPN_CLASSSTAT.adr n) = s.rn (SPN_CLASSSTAT.adr n)) ∧
       RegsBut ((List.range 16).flatMap (fun n => [whole (SPN_SLACK.adr n), whole (SPN_CLASSCNT.adr n), whole (SPN_CLASSSTAT.adr n)])) s t ∧
       t = { s with regs := t.regs })

/-- STAR_FRAME_RECEIVE while windows are enforced, no rule armed: a frame that meets a window of its port from that
window's node is forwarded once to each other output, and FRAMES counts (R334, R342); any other frame is not
forwarded: it is a violation of the judged kind, with its GT in AST_LASTVIOLGT and 192 raised, START counted, VIOLS or
LATERUN counted (R342, R344); the BABN-th of a chain raises 194 and isolates the port, with 193 asserted and ISOCNT
counted (R344). An isolated port forwards nothing (R345). Without enforcement data frames are discarded without count
(R338). -/
def Obligations.StarWindows : Prop :=
  -- a frame that meets its window
  (∀ (s : State) (n : Fin 9) (fr : AirumFrame) (w : Win),
     s.on = true →
     s.isStar = true →
     s.outUp n = true →
     s.rf AST_INJCTL.ARM = 0 →
     s.ast.held = [] →
     airumRange s.chanCode fr.bytes = true →
     s.rb AST_STAT.ENFORCE = true →
     (hdrOf fr.bytes).kind = kindData →
     s.judge n (s.nt16 fr.sfdGt) (sourceNode fr.bytes) = .inl w →
     s.rb (AST_PORTSTAT.ISO n) = false →
     ∃ t : State, exec (.starFrameReceive n fr) s = .next t ∧
       t.rf (AST_PORTFWD.FRAMES n) = (s.rf (AST_PORTFWD.FRAMES n) + 1) % 2 ^ 32 ∧
       t.outbox.length + t.ast.cuts.length = s.outbox.length + s.ast.cuts.length + (s.outputs n (sourceNode fr.bytes) false).length ∧
       t.tly = s.tly ∧
       RegsBut [AST_PORTFWD.FRAMES n] s t) ∧
  -- a frame that meets none, not late
  (∀ (s : State) (n : Fin 9) (fr : AirumFrame) (k : Nat) (d : Int),
     s.on = true →
     s.isStar = true →
     s.outUp n = true →
     s.rf AST_INJCTL.ARM = 0 →
     s.ast.held = [] →
     airumRange s.chanCode fr.bytes = true →
     s.rb AST_STAT.ENFORCE = true →
     (hdrOf fr.bytes).kind ≠ kindEcho →
     s.judge n (s.nt16 fr.sfdGt) (sourceNode fr.bytes) = .inr (k, d) →
     k ≠ violLate →
     ∃ t : State, exec (.starFrameReceive n fr) s = .next t ∧
       t.rf (AST_LASTVIOL.KIND n) = k ∧
       t.rn (AST_LASTVIOLGT.adr n) = s.gt % 2 ^ 32 ∧
       t.outbox = s.outbox ∧
       t.rf (AST_PORTERR.START n) = min (s.rf (AST_PORTERR.START n) + 1) 65535 ∧
       t.rf (AST_PORTSTAT.VIOLS n) = min (s.rf (AST_PORTSTAT.VIOLS n) + 1) 15 ∧
       s.raiseOf 192 (n + k * 16) ∈ t.tly.raises ∧
       (s.rf AST_GUARDCFG.BABN ≤ t.rf (AST_PORTSTAT.VIOLS n) → t.rb (AST_PORTSTAT.ISO n) = true ∧ (s.rb (AST_PORTSTAT.ISO n) = false → s.raiseOf 194 n ∈ t.tly.raises ∧ t.asserted 193 = true ∧ t.rf (AST_PORTSTAT.ISOCNT n) = min (s.rf (AST_PORTSTAT.ISOCNT n) + 1) 15)) ∧
       (t.rf (AST_PORTSTAT.VIOLS n) < s.rf AST_GUARDCFG.BABN → t.rb (AST_PORTSTAT.ISO n) = s.rb (AST_PORTSTAT.ISO n)) ∧
       RegsBut [whole (AST_LASTVIOL.adr n), whole (AST_LASTVIOLGT.adr n), AST_PORTERR.START n, AST_PORTERR.CUT n, AST_PORTSTAT.VIOLS n, AST_PORTSTAT.LATERUN n, AST_PORTSTAT.ISO n, AST_PORTSTAT.PERM n, AST_PORTSTAT.ISOCNT n, AST_STAT.ISOLATED, AST_STAT.ISO8, AST_STAT.PERM] s t) ∧
  -- a late frame
  (∀ (s : State) (n : Fin 9) (fr : AirumFrame) (d : Int),
     s.on = true →
     s.isStar = true →
     s.outUp n = true →
     s.rf AST_INJCTL.ARM = 0 →
     s.ast.held = [] →
     airumRange s.chanCode fr.bytes = true →
     s.rb AST_STAT.ENFORCE = true →
     (hdrOf fr.bytes).kind ≠ kindEcho →
     s.judge n (s.nt16 fr.sfdGt) (sourceNode fr.bytes) = .inr (violLate, d) →
     (s.starPort n).late = false →
     ∃ t : State, exec (.starFrameReceive n fr) s = .next t ∧
       t.rf (AST_LASTVIOL.KIND n) = violLate ∧
       t.rn (AST_LASTVIOLGT.adr n) = s.gt % 2 ^ 32 ∧
       t.outbox = s.outbox ∧
       t.rf (AST_PORTERR.START n) = min (s.rf (AST_PORTERR.START n) + 1) 65535 ∧
       t.rf (AST_PORTSTAT.LATERUN n) = min (s.rf (AST_PORTSTAT.LATERUN n) + 1) 63 ∧
       t.rf (AST_PORTSTAT.VIOLS n) = s.rf (AST_PORTSTAT.VIOLS n) ∧
       s.raiseOf 192 (n + violLate * 16) ∈ t.tly.raises ∧
       (t.starPort n).late = true ∧
       (s.rf AST_GUARDCFG.LATEN ≤ t.rf (AST_PORTSTAT.LATERUN n) → t.rb (AST_PORTSTAT.ISO n) = true) ∧
       RegsBut [whole (AST_LASTVIOL.adr n), whole (AST_LASTVIOLGT.adr n), AST_PORTERR.START n, AST_PORTERR.CUT n, AST_PORTSTAT.VIOLS n, AST_PORTSTAT.LATERUN n, AST_PORTSTAT.ISO n, AST_PORTSTAT.PERM n, AST_PORTSTAT.ISOCNT n, AST_STAT.ISOLATED, AST_STAT.ISO8, AST_STAT.PERM] s t) ∧
  -- an isolated port
  (∀ (s : State) (n : Fin 9) (fr : AirumFrame) (w : Win),
     s.on = true →
     s.isStar = true →
     s.outUp n = true →
     s.rf AST_INJCTL.ARM = 0 →
     s.ast.held = [] →
     airumRange s.chanCode fr.bytes = true →
     s.rb AST_STAT.ENFORCE = true →
     (hdrOf fr.bytes).kind ≠ kindEcho →
     s.judge n (s.nt16 fr.sfdGt) (sourceNode fr.bytes) = .inl w →
     s.rb (AST_PORTSTAT.ISO n) = true →
     ∃ t : State, exec (.starFrameReceive n fr) s = .next t ∧
       t = s) ∧
  -- a data frame in start-up mode
  (∀ (s : State) (n : Fin 9) (fr : AirumFrame),
     s.on = true →
     s.isStar = true →
     s.outUp n = true →
     s.rf AST_INJCTL.ARM = 0 →
     s.ast.held = [] →
     airumRange s.chanCode fr.bytes = true →
     s.rb AST_STAT.ENFORCE = false →
     (hdrOf fr.bytes).kind = kindData →
     ∃ t : State, exec (.starFrameReceive n fr) s = .next t ∧
       t = s)

/-- FRAME_CUT: the frame leaves cut with a bad FCS, and its input port has a violation of kind CUT with 192 (R343).
COLDSTART_HOLD_END of a frame that collides with none: it is forwarded and counts in ADMITTED, unless its port has
been isolated meanwhile (R345); when the last hold of two colliding frames ends, neither is forwarded and a notice to
each counts in NOTICES (R339). STAR_CHAIN_BOUNDARY: VIOLS begins anew, a port isolated without PERM is readmitted
after READMIT clean chains, and windows are enforced once the own node is ACTIVE (R338, R344, R345). AST_PORT_READMIT
clears PERM, ISOCNT and ISO (R346), at once as the model reads it (log entry 46). SET_PREFER_TIMEOUT announces the set
preferred for 1 s (R327). LINK_UP and LINK_DOWN of a star port show in its status (R310). A star port's rate
alternates likewise. A cut frame goes out short at each output, a cold-start frame held without a collision goes out,
and one of several collisions ends, whatever else is held; a held frame is released in its turn. -/
def Obligations.StarPorts : Prop :=
  -- FRAME_CUT
  (∀ (s : State) (n : Fin 9) (o : Fin 9) (d : CutDue),
     s.on = true →
     s.ast.cuts = [d] →
     d.input = n →
     d.output = o →
     d.cutGt ≤ s.gt →
     d.counted = false →
     s.rf AST_GUARDCFG.BABN > s.rf (AST_PORTSTAT.VIOLS n) + 1 →
     s.rf AST_INJCTL.ARM = 0 →
     s.ast.held = [] →
     ∃ t : State, exec (.frameCut n o) s = .next t ∧
       t.ast.cuts = [] ∧
       Sent s t [.airum o d.bytes false d.launch] ∧
       Raised s t 192 (n + violCut * 16) ∧
       t.rf (AST_LASTVIOL.KIND n) = violCut ∧
       t.rf (AST_PORTERR.CUT n) = min (s.rf (AST_PORTERR.CUT n) + 1) 65535 ∧
       t.rf (AST_PORTSTAT.VIOLS n) = min (s.rf (AST_PORTSTAT.VIOLS n) + 1) 15 ∧
       RegsBut [whole (AST_LASTVIOL.adr n), whole (AST_LASTVIOLGT.adr n), AST_PORTERR.CUT n, AST_PORTSTAT.VIOLS n] s t) ∧
  -- a hold without collision
  (∀ (s : State) (h : Hold),
     s.on = true →
     s.ast.holds = [h] →
     h.ended = false →
     h.collides = false →
     h.frame.sfdGt + 5000 < s.gt →
     s.rb (AST_PORTSTAT.ISO h.port) = false →
     s.outputs h.port (sourceNode h.frame.bytes) true ≠ [] →
     s.rf AST_INJCTL.ARM = 0 →
     s.ast.held = [] →
     ∃ t : State, exec (.coldstartHoldEnd) s = .next t ∧
       t.ast.holds = [] ∧
       t.rf AST_CSCNT.ADMITTED = min (s.rf AST_CSCNT.ADMITTED + 1) 255 ∧
       t.rf (AST_PORTFWD.FRAMES h.port) = (s.rf (AST_PORTFWD.FRAMES h.port) + 1) % 2 ^ 32 ∧
       t.outbox.length = s.outbox.length + (s.outputs h.port (sourceNode h.frame.bytes) true).length ∧
       RegsBut [AST_CSCNT.ADMITTED, AST_PORTFWD.FRAMES h.port] s t) ∧
  -- a hold of a port isolated meanwhile
  (∀ (s : State) (h : Hold),
     s.on = true →
     s.ast.holds = [h] →
     h.ended = false →
     h.collides = false →
     h.frame.sfdGt + 5000 < s.gt →
     s.rb (AST_PORTSTAT.ISO h.port) = true →
     ∃ t : State, exec (.coldstartHoldEnd) s = .next t ∧
       t.ast.holds = [] ∧
       t.outbox = s.outbox ∧
       RegsBut [] s t) ∧
  -- the last hold of a collision
  (∀ (s : State) (h : Hold) (g : Hold),
     s.on = true →
     s.ast.holds = [g, h] →
     g ≠ h →
     g.ended = true →
     g.collides = true →
     h.ended = false →
     h.collides = true →
     h.frame.sfdGt + 5000 < s.gt →
     s.rf AST_INJCTL.ARM = 0 →
     s.ast.held = [] →
     ∃ t : State, exec (.coldstartHoldEnd) s = .next t ∧
       t.ast.holds = [] ∧
       t.rf AST_CSCNT.NOTICES = min (s.rf AST_CSCNT.NOTICES + 2) 255 ∧
       t.outbox.length = s.outbox.length + 2 ∧
       RegsBut [AST_CSCNT.NOTICES] s t) ∧
  -- STAR_CHAIN_BOUNDARY, any port
  (∀ (s : State) (n : Fin 9),
     s.on = true →
     s.isStar = true →
     s.ast.chain < s.ntChain →
     ∃ t : State, exec (.starChainBoundary) s = .next t ∧
       t.rf (AST_PORTSTAT.VIOLS n) = 0 ∧
       ((s.starPort n).late = false → t.rf (AST_PORTSTAT.LATERUN n) = 0) ∧
       (t.starPort n).viol = false ∧
       (t.starPort n).clean = (if (s.starPort n).viol then 0 else (s.starPort n).clean + 1) ∧
       t.rb (AST_PORTSTAT.ISO n) = (s.rb (AST_PORTSTAT.ISO n) && !(!s.rb (AST_PORTSTAT.PERM n) && decide (s.rf AST_GUARDCFG.READMIT ≤ (t.starPort n).clean))) ∧
       t.ast.chain = s.ntChain ∧
       (s.ownIn = true → s.anw.active < s.ntChain → t.rb AST_STAT.ENFORCE = true) ∧
       t.rf (AST_PORTSTAT.ISOCNT n) = s.rf (AST_PORTSTAT.ISOCNT n)) ∧
  -- AST_PORT_READMIT
  (∀ (s : State) (ch : Fin 8) (p : Byte) (r : HmbRun),
     s.Asked ch (.astPortReadmit ch p) r →
     p.toNat ≤ 8 →
     s.isStar = true →
     ∃ t : State, exec (.astPortReadmit ch p) s = .next (t.finish ch stOk []) ∧
       t.rf (AST_PORTSTAT.PERM p.toNat) = 0 ∧
       t.rf (AST_PORTSTAT.ISOCNT p.toNat) = 0 ∧
       t.rf (AST_PORTSTAT.ISO p.toNat) = 0 ∧
       (p.toNat < 8 → (t.rf AST_STAT.PERM).testBit p.toNat = false ∧ (t.rf AST_STAT.ISOLATED).testBit p.toNat = false) ∧
       (p.toNat = 8 → t.rf AST_STAT.ISO8 = 0) ∧
       RegsBut [AST_PORTSTAT.PERM p.toNat, AST_PORTSTAT.ISOCNT p.toNat, AST_PORTSTAT.ISO p.toNat, AST_STAT.PERM, AST_STAT.ISOLATED, AST_STAT.ISO8] s t) ∧
  -- SET_PREFER_TIMEOUT
  (∀ (s : State) (k : Nat) (t0 : Nat),
     s.anw.prefer = some (k, t0) →
     s.rf AST_CFG.MODE = 1 →
     t0 + 1000000000 ≤ s.now →
     s.preferred = some k →
     s.rb ANW_SWSTAT.SWPEND = false →
     ∃ t : State, exec (.setPreferTimeout) s = .next t ∧
       t.anw.announce = some k ∧
       t.anw.prefer = none ∧
       t = { s with anw := t.anw }) ∧
  -- LINK_UP of a star port
  (∀ (s : State) (p : Fin 8) (g : Bool) (l : List Nat),
     s.isStar = true →
     s.on = true →
     s.rb (AST_PORTCFG.EN p) = true →
     s.rb (AST_PORTSTAT.LINKUP p) = false →
     rateOk (s.rb (AST_PORTCFG.AN p)) (s.rb (AST_PORTCFG.MAXRATE p)) (s.rb (AST_PORTCFG.MINRATE p)) g = true →
     ∃ t : State, exec (.linkUp p g l) s = .next t ∧
       t.rb (AST_PORTSTAT.LINKUP p) = true ∧
       t.rb (AST_PORTSTAT.RATE p) = g ∧
       (t.rf AST_STAT.LINKUP).testBit p = true ∧
       t.rn (AST_PORTDLY.adr p) = s.rn (AST_PORTDLY.adr p) ∧
       RegsBut [AST_PORTSTAT.LINKUP p, AST_PORTSTAT.RATE p, AST_STAT.LINKUP] s t) ∧
  -- LINK_DOWN of a star port
  (∀ (s : State) (p : Fin 8),
     s.isStar = true →
     s.on = true →
     s.rb (AST_PORTSTAT.LINKUP p) = true →
     ∃ t : State, exec (.linkDown p) s = .next t ∧
       t.rb (AST_PORTSTAT.LINKUP p) = false ∧
       (t.rf AST_STAT.LINKUP).testBit p = false ∧
       RegsBut [AST_PORTSTAT.LINKUP p, AST_STAT.LINKUP] s t) ∧
  -- AN_RATE_ALTERNATE of a star port
  (∀ (s : State) (n : Fin 8) (g : Option Bool) (t0 : Nat),
     s.on = true →
     s.isStar = true →
     s.rb (AST_PORTCFG.AN n) = true →
     s.rb (AST_PORTCFG.EN n) = true →
     s.rb (AST_PORTSTAT.LINKUP n) = false →
     mget (none, s.pmu.releasedAt) s.anw.forced n = (g, t0) →
     t0 + 200000000 ≤ s.now →
     ∃ t : State, exec (.anRateAlternate n) s = .next t ∧
       mget (none, 0) t.anw.forced n = (some (if s.rb (AST_PORTCFG.MAXRATE n) = s.rb (AST_PORTCFG.MINRATE n) ∨ g = none then s.rb (AST_PORTCFG.MAXRATE n) else g = some false), s.now) ∧
       RegsBut [] s t ∧
       t = { s with anw := t.anw }) ∧
  -- any FRAME_CUT
  (∀ (s : State) (n : Fin 9) (o : Fin 9) (d : CutDue),
     s.on = true →
     s.ast.cuts.find? (fun c => c.input == n.val && c.output == o.val) = some d →
     d.cutGt ≤ s.gt →
     s.rf AST_INJCTL.ARM = 0 →
     s.ast.held = [] →
     ∃ t : State, exec (.frameCut n o) s = .next t ∧
       t.outbox = s.outbox ++ [.airum o d.bytes false d.launch] ∧
       d ∉ t.ast.cuts ∧
       (d.counted = true → RegsBut [] s t)) ∧
  -- any hold without collision
  (∀ (s : State) (h : Hold),
     s.on = true →
     s.ast.holds.find? (fun x => !x.ended && decide (x.frame.sfdGt + 5000 < s.gt)) = some h →
     h.collides = false →
     s.rb (AST_PORTSTAT.ISO h.port) = false →
     s.outputs h.port (sourceNode h.frame.bytes) true ≠ [] →
     ∃ t : State, exec (.coldstartHoldEnd) s = .next t ∧
       t.rf AST_CSCNT.ADMITTED = min (s.rf AST_CSCNT.ADMITTED + 1) 255 ∧
       t.ast.holds = s.ast.holds.filter (· ≠ h)) ∧
  -- a collision of which another frame is still held
  (∀ (s : State) (h : Hold) (g : Hold),
     s.on = true →
     s.ast.holds.find? (fun x => !x.ended && decide (x.frame.sfdGt + 5000 < s.gt)) = some h →
     h.collides = true →
     g ∈ s.ast.holds →
     g ≠ h →
     g.collides = true →
     g.ended = false →
     ∃ t : State, exec (.coldstartHoldEnd) s = .next t ∧
       t.ast.holds = s.ast.holds.map (fun x => if x = h then { x with ended := true } else x) ∧
       t.outbox = s.outbox ∧
       RegsBut [] s t)

/-- AST_INJ_ARM of an idle rule with a token in force and words that Table AST-2 allows: the rule's registers hold them,
DONE and SEEN are 0, the rule is armed and 195 is asserted; without a token it is DENIED (R348, R352). A rule that
matches every frame removes a received heartbeat (DROP), or makes it fail its CRC (CORRUPT with FIXCHK 0), or holds
it, for 100 µs or until the next frame of the target (REORDER) or for PARAM × 10 ns (DELAY); it counts and logs the
event with its rule and action, and disarms after COUNT (R349 to R351). AST_INJ_STOP disarms the masked rules;
INJECT_TOKEN_LAPSE all (R424). INJECT_RELEASE sends a held frame whose time has come, once. A held frame whose turn
has come is released, whatever else is held. -/
def Obligations.FaultInjection : Prop :=
  -- AST_INJ_ARM
  (∀ (s : State) (ch : Fin 8) (k : Byte) (g : Word) (a : Word) (st : Word) (r : HmbRun),
     s.Asked ch (.astInjArm ch k g a st) r →
     s.debugOff = false →
     s.tokenNow = true →
     k.toNat ≤ 7 →
     ruleOk g.toNat a.toNat = true →
     (s.rf AST_INJCTL.ARM).testBit k.toNat = false →
     ∃ t : State, exec (.astInjArm ch k g a st) s = .next (t.finish ch stOk []) ∧
       (t.rf AST_INJCTL.ARM).testBit k.toNat = true ∧
       t.reg (AST_INJTGT.adr k.toNat) = g ∧
       t.reg (AST_INJPAR.adr k.toNat) = a ∧
       t.reg (AST_INJSTART.adr k.toNat) = st ∧
       t.rf (AST_INJSTAT.DONE k.toNat) = 0 ∧
       t.rf (AST_INJSTAT.SEEN k.toNat) = 0 ∧
       (s.rf AST_INJCTL.ARM = 0 → t.asserted 195 = true) ∧
       RegsBut [AST_INJCTL.ARM, whole (AST_INJTGT.adr k.toNat), whole (AST_INJPAR.adr k.toNat), whole (AST_INJSTART.adr k.toNat), whole (AST_INJSTAT.adr k.toNat)] s t) ∧
  -- AST_INJ_ARM without a token
  (∀ (s : State) (ch : Fin 8) (k : Byte) (g : Word) (a : Word) (st : Word) (r : HmbRun),
     s.Asked ch (.astInjArm ch k g a st) r →
     (s.debugOff = true ∨ s.tokenNow = false) →
     ∃ t : State, exec (.astInjArm ch k g a st) s = .next (t.finish ch stDenied []) ∧
       t = s.taken ch r) ∧
  -- AST_INJ_STOP
  (∀ (s : State) (ch : Fin 8) (m : Byte) (r : HmbRun),
     s.Asked ch (.astInjStop ch m) r →
     ∃ t : State, exec (.astInjStop ch m) s = .next (t.finish ch stOk []) ∧
       (∀ k : Fin 8, (t.rf AST_INJCTL.ARM).testBit k = ((s.rf AST_INJCTL.ARM).testBit k && !m.toNat.testBit k)) ∧
       (t.rf AST_INJCTL.ARM = 0 → t.asserted 195 = false) ∧
       RegsBut [AST_INJCTL.ARM] s t) ∧
  -- INJECT_TOKEN_LAPSE
  (∀ (s : State) (e : Nat),
     s.on = true →
     s.ast.tokenEnd = some e →
     e ≤ s.gt →
     ∃ t : State, exec (.injectTokenLapse) s = .next t ∧
       t.rf AST_INJCTL.ARM = 0 ∧
       t.ast.tokenEnd = none ∧
       t.asserted 195 = false ∧
       RegsBut [AST_INJCTL.ARM] s t) ∧
  -- a heartbeat removed
  (∀ (s : State) (k : Fin 8) (p : Fin 3) (pl : Vector Byte 28) (ok : Bool),
     s.on = true →
     s.isPeer p = true →
     s.ast.held = [] →
     s.rf AST_INJCTL.ARM = 2 ^ k.val →
     s.injMatches k injBridgeRx (s.endpoint p) clsHeartbeat s.gt = true →
     s.rf (AST_INJPAR.SKIP k) = 0 →
     s.rf (AST_INJTGT.EVERY k) ≤ 1 →
     s.rf (AST_INJTGT.ACTION k) = 0 →
     s.rf (AST_INJSTAT.SEEN k) = 0 →
     s.rf (AST_INJSTAT.DONE k) = 0 →
     s.rf (AST_INJPAR.COUNT k) = 1 →
     ∃ t : State, exec (.heartbeatReceive p pl ok) s = .next t ∧
       t.rf (AST_INJSTAT.DONE k) = 1 ∧
       t.rf (AST_INJSTAT.SEEN k) = 1 ∧
       t.rf AST_INJCTL.ARM = 0 ∧
       t.asserted 195 = false ∧
       t.lane = s.lane ∧
       t.rn (AST_INJLOGGT.adr (s.rf AST_INJLOGPTR.NEXT)) = s.gt % 2 ^ 32 ∧
       t.rn (AST_INJLOG.adr (s.rf AST_INJLOGPTR.NEXT)) = k.val * 2 ^ 29 ∧
       t.ast.held = [] ∧
       t.rf AST_INJLOGPTR.NEXT = (s.rf AST_INJLOGPTR.NEXT + 1) % 64 ∧
       t.outbox = s.outbox ∧
       RegsBut [AST_INJSTAT.DONE k, AST_INJSTAT.SEEN k, AST_INJCTL.ARM, whole (AST_INJLOGGT.adr (s.rf AST_INJLOGPTR.NEXT)), whole (AST_INJLOG.adr (s.rf AST_INJLOGPTR.NEXT)), whole AST_INJLOGPTR.adr] s t) ∧
  -- a heartbeat under CORRUPT, its CRC left
  (∀ (s : State) (k : Fin 8) (p : Fin 3) (pl : Vector Byte 28) (ok : Bool),
     s.on = true →
     s.isPeer p = true →
     s.ast.held = [] →
     s.rf AST_INJCTL.ARM = 2 ^ k.val →
     s.injMatches k injBridgeRx (s.endpoint p) clsHeartbeat s.gt = true →
     s.rf (AST_INJPAR.SKIP k) = 0 →
     s.rf (AST_INJTGT.EVERY k) ≤ 1 →
     s.rf (AST_INJTGT.ACTION k) = 1 →
     s.rf (AST_INJSTAT.SEEN k) = 0 →
     s.rf (AST_INJSTAT.DONE k) = 0 →
     s.rf (AST_INJPAR.COUNT k) = 1 →
     s.rb (AST_INJTGT.FIXCHK k) = false →
     s.rf (AST_INJPAR.PARAM k) < 320 →
     ∃ t : State, exec (.heartbeatReceive p pl ok) s = .next t ∧
       t.rf (AST_INJSTAT.DONE k) = 1 ∧
       t.rf (AST_INJSTAT.SEEN k) = 1 ∧
       t.rf AST_INJCTL.ARM = 0 ∧
       t.lane = s.lane ∧
       t.rn (AST_INJLOGGT.adr (s.rf AST_INJLOGPTR.NEXT)) = s.gt % 2 ^ 32 ∧
       t.rn (AST_INJLOG.adr (s.rf AST_INJLOGPTR.NEXT)) = k.val * 2 ^ 29 + 1 * 2 ^ 24 ∧
       t.rf AST_INJLOGPTR.NEXT = (s.rf AST_INJLOGPTR.NEXT + 1) % 64 ∧
       t.outbox = s.outbox ∧
       t.rf (LBR_ERRCNT.CRCERR (s.endpoint p)) = min (s.rf (LBR_ERRCNT.CRCERR (s.endpoint p)) + 1) 65535 ∧
       t.ast.held = [] ∧
       RegsBut [AST_INJSTAT.DONE k, AST_INJSTAT.SEEN k, AST_INJCTL.ARM, whole (AST_INJLOGGT.adr (s.rf AST_INJLOGPTR.NEXT)), whole (AST_INJLOG.adr (s.rf AST_INJLOGPTR.NEXT)), whole AST_INJLOGPTR.adr, LBR_ERRCNT.CRCERR (s.endpoint p)] s t) ∧
  -- a heartbeat under REORDER
  (∀ (s : State) (k : Fin 8) (p : Fin 3) (pl : Vector Byte 28) (ok : Bool),
     s.on = true →
     s.isPeer p = true →
     s.ast.held = [] →
     s.rf AST_INJCTL.ARM = 2 ^ k.val →
     s.injMatches k injBridgeRx (s.endpoint p) clsHeartbeat s.gt = true →
     s.rf (AST_INJPAR.SKIP k) = 0 →
     s.rf (AST_INJTGT.EVERY k) ≤ 1 →
     s.rf (AST_INJTGT.ACTION k) = 2 →
     s.rf (AST_INJSTAT.SEEN k) = 0 →
     s.rf (AST_INJSTAT.DONE k) = 0 →
     s.rf (AST_INJPAR.COUNT k) = 1 →
     ∃ t : State, exec (.heartbeatReceive p pl ok) s = .next t ∧
       t.rf (AST_INJSTAT.DONE k) = 1 ∧
       t.rf (AST_INJSTAT.SEEN k) = 1 ∧
       t.rf AST_INJCTL.ARM = 0 ∧
       t.lane = s.lane ∧
       t.rn (AST_INJLOGGT.adr (s.rf AST_INJLOGPTR.NEXT)) = s.gt % 2 ^ 32 ∧
       t.rn (AST_INJLOG.adr (s.rf AST_INJLOGPTR.NEXT)) = k.val * 2 ^ 29 + 2 * 2 ^ 24 ∧
       t.rf AST_INJLOGPTR.NEXT = (s.rf AST_INJLOGPTR.NEXT + 1) % 64 ∧
       t.outbox = s.outbox ∧
       t.ast.held = [{ target := injBridgeRx, port := s.endpoint p, rule := some k.val, reorder := true, since := s.now, due := s.now + 100000, rx := some (.heartbeatReceive p pl ok) }] ∧
       RegsBut [AST_INJSTAT.DONE k, AST_INJSTAT.SEEN k, AST_INJCTL.ARM, whole (AST_INJLOGGT.adr (s.rf AST_INJLOGPTR.NEXT)), whole (AST_INJLOG.adr (s.rf AST_INJLOGPTR.NEXT)), whole AST_INJLOGPTR.adr] s t) ∧
  -- a heartbeat under DELAY
  (∀ (s : State) (k : Fin 8) (p : Fin 3) (pl : Vector Byte 28) (ok : Bool),
     s.on = true →
     s.isPeer p = true →
     s.ast.held = [] →
     s.rf AST_INJCTL.ARM = 2 ^ k.val →
     s.injMatches k injBridgeRx (s.endpoint p) clsHeartbeat s.gt = true →
     s.rf (AST_INJPAR.SKIP k) = 0 →
     s.rf (AST_INJTGT.EVERY k) ≤ 1 →
     s.rf (AST_INJTGT.ACTION k) = 3 →
     s.rf (AST_INJSTAT.SEEN k) = 0 →
     s.rf (AST_INJSTAT.DONE k) = 0 →
     s.rf (AST_INJPAR.COUNT k) = 1 →
     ∃ t : State, exec (.heartbeatReceive p pl ok) s = .next t ∧
       t.rf (AST_INJSTAT.DONE k) = 1 ∧
       t.rf (AST_INJSTAT.SEEN k) = 1 ∧
       t.rf AST_INJCTL.ARM = 0 ∧
       t.lane = s.lane ∧
       t.rn (AST_INJLOGGT.adr (s.rf AST_INJLOGPTR.NEXT)) = s.gt % 2 ^ 32 ∧
       t.rn (AST_INJLOG.adr (s.rf AST_INJLOGPTR.NEXT)) = k.val * 2 ^ 29 + 3 * 2 ^ 24 ∧
       t.rf AST_INJLOGPTR.NEXT = (s.rf AST_INJLOGPTR.NEXT + 1) % 64 ∧
       t.outbox = s.outbox ∧
       t.ast.held = [{ target := injBridgeRx, port := s.endpoint p, rule := some k.val, reorder := false, since := s.now, due := s.now + 10 * s.rf (AST_INJPAR.PARAM k), rx := some (.heartbeatReceive p pl ok) }] ∧
       RegsBut [AST_INJSTAT.DONE k, AST_INJSTAT.SEEN k, AST_INJCTL.ARM, whole (AST_INJLOGGT.adr (s.rf AST_INJLOGPTR.NEXT)), whole (AST_INJLOG.adr (s.rf AST_INJLOGPTR.NEXT)), whole AST_INJLOGPTR.adr] s t) ∧
  -- INJECT_RELEASE of a frame to be sent
  (∀ (s : State) (k : Fin 8) (h : HeldFrame) (m : OutMsg),
     s.on = true →
     s.ast.held = [h] →
     h.rule = some k.val →
     h.due ≤ s.now →
     h.rx = none →
     h.tx = some m →
     ∃ t : State, exec (.injectRelease k) s = .next t ∧
       t.ast.held = [] ∧
       Sent s t [m] ∧
       t = { s with ast := t.ast, outbox := t.outbox }) ∧
  -- INJECT_RELEASE in its turn
  (∀ (s : State) (k : Fin 8) (h : HeldFrame) (m : OutMsg),
     s.on = true →
     s.ast.held.find? (fun x => x.rule == some k.val) = some h →
     h.due ≤ s.now →
     h.reorder = true →
     h.rx = none →
     h.tx = some m →
     ∃ t : State, exec (.injectRelease k) s = .next t ∧
       t.outbox = s.outbox ++ [m] ∧
       t.ast.held = s.ast.held.erase h ∧
       RegsBut [] s t)

/-- SERVICE_CAPTURE of an outstanding instance of entry 241: each input that the services name is staged in the SRAM word
that its agreement item names, the rest of SRAM stays, and the entry's instance is done (R256). SERVICE_AGREEMENT of
entry 242: the inputs that fewer than two lanes brought count, up to 3 (R253); a lane's carrier without agreed values
counts, up to 3 (R193); the agreed values enter the filters; a sensor outside AGTOL for AGPERS cycles is flagged and
241 raised, one inside is counted inside (R191). Without an outstanding instance nothing happens. SERVICE_LAW of an
outstanding instance of entry 243, the winding and the circuit not starting. A ROLE 1 lane takes the computer's
demand, else the handwheel's, else it keeps the last one and raises 244, and writes it, clamped, to the carrier of its
position loop, once it has one (R192, R195); a position loop that follows its peers takes their agreed output as MAN,
and goes over to AUTO once it holds it (R200): MAN first and AUTO at a later sample is the model's reading (log entry
55). A ROLE 2 lane writes the feedback target to the carrier of its winding while all it rests on is agreed, and else
keeps the carrier (R193, R201). A brake lane writes the pressure demand of R202 to its circuit's carrier and raises
244 while both terms are invalid. Outside SERVICE, or in SOLO or HALT, both spring brake outputs are requested off
(R206). The instance is done. Each of the three ends its strike instance when it has run, whatever the lane's role. -/
def Obligations.ServiceInputsAndLaws : Prop :=
  -- capture
  (∀ (s : State) (q : Nat),
     s.on = true →
     s.svcDue 241 = true →
     q ∈ s.svcInputs →
     (∀ p ∈ s.svcInputs, s.svcWordOf p % 4 = 0 ∧ region (s.svcWordOf p) = some 2) →
     ∃ t : State, exec (.serviceCapture) s = .next t ∧
       (t.entry 241).inst = ((s.entry 241).inst.map (fun i => { i with doneAt := some s.gt })) ∧
       (∃ p ∈ s.svcInputs, s.svcWordOf p = s.svcWordOf q ∧ t.memWord (s.svcWordOf q) = s.adcAges.inputNow p % 2 ^ 32) ∧
       (∀ a : Fin 4096, (∀ p ∈ s.svcInputs, 0x20000000 + a.val < s.svcWordOf p ∨ s.svcWordOf p + 4 ≤ 0x20000000 + a.val) → memByte t.mem (0x20000000 + a.val) = memByte s.mem (0x20000000 + a.val)) ∧
       RegsBut [] s t ∧
       t.outbox = s.outbox) ∧
  -- capture in a ROLE 2 lane
  (∀ (s : State),
     s.on = true →
     s.svcDue 241 = true →
     s.steerRole = 2 →
     ∃ t : State, exec (.serviceCapture) s = .next t ∧
       (t.entry 241).inst = ((s.entry 241).inst.map (fun i => { i with doneAt := some s.gt })) ∧
       (∀ n : Fin 16, mget 0 t.svc.adcOld n = if mget 65536 s.svc.adcMark n = s.rf (ADC_RESULT.COUNT n) then min 3 (mget 0 s.svc.adcOld n + 1) else 0) ∧
       RegsBut [] s t ∧
       t = { s with mem := t.mem, spn := t.spn, svc := t.svc }) ∧
  -- capture where no service runs
  (∀ (s : State),
     s.on = true →
     s.svcDue 241 = true →
     s.steerRole = 0 →
     s.brakeRole = false →
     ∃ t : State, exec (.serviceCapture) s = .next t ∧
       (t.entry 241).inst = ((s.entry 241).inst.map (fun i => { i with doneAt := some s.gt })) ∧
       t.mem = s.mem ∧
       RegsBut [] s t ∧
       (∀ n : Fin 16, mget 0 t.svc.adcOld n = if mget 65536 s.svc.adcMark n = s.rf (ADC_RESULT.COUNT n) then min 3 (mget 0 s.svc.adcOld n + 1) else 0)) ∧
  -- no instance due
  (∀ (s : State),
     s.svcDue 241 = false →
     ∃ t : State, exec (.serviceCapture) s = .next t ∧
       t = s) ∧
  -- agreement
  (∀ (s : State),
     s.on = true →
     s.svcDue 242 = true →
     ∃ t : State, exec (.serviceAgreement) s = .next t ∧
       (t.entry 242).inst = ((s.entry 242).inst.map (fun i => { i with doneAt := some s.gt })) ∧
       (∀ q ∈ s.svcInputs, mget 0 t.svc.single q = if s.rf (LBR_RESSTAT.COUNT (svcItemOf q)) < 2 then min 3 (mget 0 s.svc.single q + 1) else 0) ∧
       (∀ k : Fin 6, s.steerRole = 1 → s.angleCarrier = 192 + k.val → mget 0 t.svc.lost k = if (s.agreed inAngle).isSome then 0 else min 3 (mget 0 s.svc.lost k + 1)) ∧
       (∀ k : Fin 6, s.steerRole = 2 → s.carrierTo s.focCtx = some (192 + k.val) → mget 0 t.svc.lost k = if s.feedAgreed then 0 else min 3 (mget 0 s.svc.lost k + 1)) ∧
       t.svc.angles = s.filtPush s.svc.angles (s.agreed inAngle) ∧
       t.svc.speeds = s.filtPush s.svc.speeds (s.agreed inSpeed) ∧
       t.svc.pedals = s.filtPush s.svc.pedals (s.agreed inPedal) ∧
       t.mem = s.mem) ∧
  -- a sensor judged against the agreed value
  (∀ (s : State) (v : Nat),
     s.on = true →
     s.svcDue 242 = true →
     s.steerRole = 1 →
     s.agreed inAngle = some v →
     ∃ t : State, exec (.serviceAgreement) s = .next t ∧
       (let own := s.memWord (s.svcWordOf inAngle); let out := isNaN own || flt (s.steerW 6) (fabs (fsub own v)); mget 0 t.svc.outside inAngle = (if out then min 255 (mget 0 s.svc.outside inAngle + 1) else 0) ∧ mget 0 t.svc.inside inAngle = (if out then 0 else min 255 (mget 0 s.svc.inside inAngle + 1)) ∧ (out = true → s.svc.flagged.testBit inAngle = false → 0 < s.steerW 7 % 256 → (t.svc.flagged.testBit inAngle = decide (s.steerW 7 % 256 ≤ mget 0 s.svc.outside inAngle + 1 ∧ s.steerW 7 % 256 ≤ 255)) ∧ (t.svc.flagged.testBit inAngle = true → s.raiseOf 241 (s.freeNat % 2 ^ 24) ∈ t.tly.raises)))) ∧
  -- ROLE 1: the steering demand
  (∀ (s : State) (c : Fin 256),
     s.on = true →
     s.svcDue 243 = true →
     s.steerRole = 1 →
     s.brakeRole = false →
     (s.svc.wind.st = 2 ∨ (s.svc.wind.st = 1 ∧ s.rb (LPE_CTXCTL.AUTO s.outerCtx) = true)) →
     s.svc.follow = false →
     s.carrierTo s.outerCtx = some c.val →
     s.headHolds (40 + c / 64) = true →
     ∃ t : State, exec (.serviceLaw) s = .next t ∧
       (t.entry 243).inst = ((s.entry 243).inst.map (fun i => { i with doneAt := some s.gt })) ∧
       t.svc.demand = ((s.demComputer <|> s.demHandwheel) <|> s.svc.demand) ∧
       t.svc.demLost = (s.demComputer <|> s.demHandwheel).isNone ∧
       t.svc.demand.all (fun d => t.rn (LPE_CTXMAN.adr c) == fclamp d (fneg (s.steerW 5)) (s.steerW 5) % 2 ^ 32) = true ∧
       (t.svc.demLost = true → s.raiseOf 244 (s.freeNat % 2 ^ 24) ∈ t.tly.raises) ∧
       (s.angleCarrier ≠ c.val → s.headHolds (40 + s.angleCarrier / 64) = true → (s.agreed inAngle).all (fun v => t.rn (LPE_CTXMAN.adr s.angleCarrier) == v % 2 ^ 32) = true)) ∧
  -- ROLE 1: a position loop that follows its peers (R200)
  (∀ (s : State) (v : Nat),
     s.on = true →
     s.svcDue 243 = true →
     s.steerRole = 1 →
     s.brakeRole = false →
     s.svc.wind.st ≠ 0 →
     s.rb (LPE_CTXCTL.AUTO s.outerCtx) = false →
     s.svc.follow = true →
     s.svc.followed = false →
     s.agreed inOuter = some v →
     s.rf (LPE_CTXSTAT.STATE s.outerCtx) ≠ cxWait →
     s.owner (40 + s.outerCtx / 64) = 1 →
     s.moving (40 + s.outerCtx / 64) = false →
     s.svc.wind.prog = [] →
     s.svc.circ.prog = [] →
     s.svc.prog = [] →
     ∃ t : State, exec (.serviceLaw) s = .next t ∧
       (t.entry 243).inst = ((s.entry 243).inst.map (fun i => { i with doneAt := some s.gt })) ∧
       t.rn (LPE_CTXMAN.adr s.outerCtx) = v % 2 ^ 32 ∧
       t.svc.followed = true ∧
       t.rb (LPE_CTXCTL.AUTO s.outerCtx) = false) ∧
  -- ROLE 1: one that holds its peers' output goes over to AUTO (R200)
  (∀ (s : State) (v : Nat),
     s.on = true →
     s.svcDue 243 = true →
     s.steerRole = 1 →
     s.brakeRole = false →
     s.svc.wind.st ≠ 0 →
     s.rb (LPE_CTXCTL.AUTO s.outerCtx) = false →
     s.svc.follow = true →
     s.svc.followed = true →
     s.agreed inOuter = some v →
     s.rf (LPE_CTXSTAT.STATE s.outerCtx) = cxManual →
     s.owner (40 + s.outerCtx / 64) = 1 →
     s.moving (40 + s.outerCtx / 64) = false →
     s.svc.wind.prog = [] →
     s.svc.circ.prog = [] →
     s.svc.prog = [] →
     ∃ t : State, exec (.serviceLaw) s = .next t ∧
       (t.entry 243).inst = ((s.entry 243).inst.map (fun i => { i with doneAt := some s.gt })) ∧
       t.svc.follow = false ∧
       t.rb (LPE_CTXCTL.AUTO s.outerCtx) = true) ∧
  -- ROLE 2: the feedback target
  (∀ (s : State) (c : Fin 256),
     s.on = true →
     s.svcDue 243 = true →
     s.steerRole = 2 →
     s.brakeRole = false →
     s.svc.wind.st ≠ 0 →
     s.carrierTo s.focCtx = some c.val →
     s.headHolds (40 + c / 64) = true →
     ∃ t : State, exec (.serviceLaw) s = .next t ∧
       (t.entry 243).inst = ((s.entry 243).inst.map (fun i => { i with doneAt := some s.gt })) ∧
       t.rn (LPE_CTXMAN.adr c) = (s.feedNow.map (· % 2 ^ 32)).getD (s.rn (LPE_CTXMAN.adr c)) ∧
       s.feedNow.isSome = s.feedAgreed ∧
       s.feedNow.all (fun w => w == s.feedback (fmean s.svc.angles) (fmean s.svc.speeds) (s.iqSum.getD 0)) = true ∧
       t.svc = s.svc) ∧
  -- a brake lane: the pressure demand
  (∀ (s : State) (c : Fin 256),
     s.on = true →
     s.svcDue 243 = true →
     s.steerRole = 0 →
     s.brakeRole = true →
     s.svc.circ.st ≠ 0 →
     s.pressCtx.bind s.carrierTo = some c.val →
     s.headHolds (40 + c / 64) = true →
     ∃ t : State, exec (.serviceLaw) s = .next t ∧
       (t.entry 243).inst = ((s.entry 243).inst.map (fun i => { i with doneAt := some s.gt })) ∧
       t.rn (LPE_CTXMAN.adr c) = s.brakeCalc.p % 2 ^ 32 ∧
       t.svc.demFail = s.decel.2 ∧
       (s.decel.2 = true → s.raiseOf 244 (s.freeNat % 2 ^ 24) ∈ t.tly.raises) ∧
       t.svc.noRegen = s.regen.isNone ∧
       t.svc.shortfall = s.brakeCalc.short) ∧
  -- the spring brakes outside SERVICE, and in SOLO and HALT
  (∀ (s : State),
     s.on = true →
     s.svcDue 243 = true →
     s.steerRole = 0 →
     s.brakeRole = false →
     (s.st ≠ stService ∨ rmPair < s.rmode) →
     ∃ t : State, exec (.serviceLaw) s = .next t ∧
       (t.entry 243).inst = ((s.entry 243).inst.map (fun i => { i with doneAt := some s.gt })) ∧
       t.rf TSK_OUTREQ.REQ = clearBits 8 (s.rf TSK_OUTREQ.REQ) 0x11 ∧
       t.mem = s.mem ∧
       t.svc = s.svc) ∧
  -- the spring brakes in SERVICE, in TRIAD or PAIR
  (∀ (s : State) (v : Nat),
     s.st = stService →
     s.rmode ≤ rmPair →
     s.svcDue 243 = true →
     s.steerRole = 0 →
     s.brakeRole = false →
     s.agreed inPark = some v →
     s.outHold = false →
     ∃ t : State, exec (.serviceLaw) s = .next t ∧
       (t.entry 243).inst = ((s.entry 243).inst.map (fun i => { i with doneAt := some s.gt })) ∧
       t.rf TSK_OUTREQ.REQ = clearBits 8 (s.rf TSK_OUTREQ.REQ) 0x11 + (if s.svc.park then 0 else 0x11)) ∧
  -- any capture
  (∀ (s : State),
     s.on = true →
     s.svcDue 241 = true →
     ∃ t : State, exec (.serviceCapture) s = .next t ∧
       (t.entry 241).inst.all (fun i => i.doneAt.isSome) = true ∧
       t.svcDue 241 = false ∧
       t.outbox = s.outbox) ∧
  -- any judgement
  (∀ (s : State),
     s.on = true →
     s.svcDue 242 = true →
     ∃ t : State, exec (.serviceAgreement) s = .next t ∧
       (t.entry 242).inst.all (fun i => i.doneAt.isSome) = true ∧
       t.svcDue 242 = false) ∧
  -- any law
  (∀ (s : State),
     s.on = true →
     s.svcDue 243 = true →
     ∃ t : State, exec (.serviceLaw) s = .next t ∧
       (t.entry 243).inst.all (fun i => i.doneAt.isSome) = true ∧
       t.svcDue 243 = false)

/-- WINDING_TAKE_OUT of a winding in service with a cause present: it is out, 240 is raised, its units move to the
Headstock under R30, and once the Headstock holds them the enables of the strikes that launch its context and its
bank's commits are clear, RUN of its bank is 0 and the vote that names it goes to every peer whose bridge is up
(R197); CIRCUIT_TAKE_OUT likewise with 242 (R205). WINDING_RETURN without a cause for WRQUIET, WRMAX returns not
reached, and CIRCUIT_RETURN: in service again, the return counted (R198, R205). STEER_WINDING_RESTORE and
BRAKE_CIRCUIT_RESTORE: BUSY while a cause is present; else OK, and one that is out is in service again.
DELEGATION_DEADLINE, at BY of the oldest delegated write: a register that shows the write ends it, for one that does
not 245 is raised, its unit moves to the Headstock, and the lane writes it once it holds the unit (R189). SVC_STATUS
answers with the records in force (R208). OK for a restore of a unit that is not out, or in a lane without the role,
is the model's reading (log entry 36), and so is the flags word of SVC_STATUS (log entry 29). A winding or circuit
that a cause takes out is out at once, whatever other moves still wait, and a delegated write that was not made by its
time is taken from the list with 245. -/
def Obligations.ServiceUnits : Prop :=
  -- a winding goes out
  (∀ (s : State),
     s.on = true →
     s.steerRole ≠ 0 →
     s.svc.wind.st = 1 →
     s.windCause = true →
     s.svc.wind.prog = [] →
     s.svc.circ.prog = [] →
     s.svc.prog = [] →
     ∃ t : State, exec (.windingTakeOut) s = .next t ∧
       t.svc.wind.st = 2 ∧
       t.svc.wind.units = s.unitsOf s.windCtxs s.windBank ∧
       t.svc.wind.manual = s.windManual ∧
       t.svc.wind.returns = s.svc.wind.returns ∧
       s.raiseOf 240 (s.freeNat % 2 ^ 24) ∈ t.tly.raises ∧
       (∀ u ∈ s.unitsOf s.windCtxs s.windBank, t.owner u = 1 ∨ t.moving u = true) ∧
       ((∀ u ∈ s.unitsOf s.windCtxs s.windBank, s.owner u = 1 ∧ s.moving u = false) → t.rf (PWM_BANKCTL.RUN s.windBank) = 0 ∧ t.rdm.lastVote = s.now ∧ t.svc.wind.prog = [])) ∧
  -- a winding whose units the Headstock holds: the enables clear, and the vote that names it leaves
  (∀ (s : State),
     (s.st = stIntegrate ∨ s.st = stService) →
     s.steerRole ≠ 0 →
     s.svc.wind.st = 1 →
     s.windCause = true →
     s.rf AST_INJCTL.ARM = 0 →
     s.ast.held = [] →
     (∀ u ∈ s.unitsOf s.windCtxs s.windBank, s.owner u = 1 ∧ s.moving u = false) →
     s.svc.wind.prog = [] →
     s.svc.circ.prog = [] →
     s.svc.prog = [] →
     ∃ t : State, exec (.windingTakeOut) s = .next t ∧
       (∀ e ∈ s.innerEntries s.windCtxs s.windBank, (t.rf (SPN_GRPEN.EN (e / 16))).testBit (e % 16) = false) ∧
       t.rf (PWM_BANKCTL.RUN (s.windBank)) = 0 ∧
       (∀ k ∈ s.peersOf, s.bridgeUp k = true → t.outbox.any (fun m => match m with | .bridge j (.vote v) => j == k && v.windOut | _ => false) = true)) ∧
  -- a winding in service without a cause
  (∀ (s : State),
     s.svc.wind.st = 1 →
     s.windCause = false →
     ∃ t : State, exec (.windingTakeOut) s = .next t ∧
       t = s) ∧
  -- a circuit goes out
  (∀ (s : State),
     s.on = true →
     s.brakeRole = true →
     s.svc.circ.st = 1 →
     s.circCause = true →
     s.svc.wind.prog = [] →
     s.svc.circ.prog = [] →
     s.svc.prog = [] →
     ∃ t : State, exec (.circuitTakeOut) s = .next t ∧
       t.svc.circ.st = 2 ∧
       t.svc.circ.units = s.unitsOf s.circCtxs valveBank ∧
       t.svc.circ.manual = s.circManual ∧
       t.svc.circ.returns = s.svc.circ.returns ∧
       s.raiseOf 242 (s.freeNat % 2 ^ 24) ∈ t.tly.raises ∧
       (∀ u ∈ s.unitsOf s.circCtxs valveBank, t.owner u = 1 ∨ t.moving u = true) ∧
       ((∀ u ∈ s.unitsOf s.circCtxs valveBank, s.owner u = 1 ∧ s.moving u = false) → t.rf (PWM_BANKCTL.RUN valveBank) = 0 ∧ t.rdm.lastVote = s.now ∧ t.svc.circ.prog = [])) ∧
  -- a circuit whose units the Headstock holds: the enables clear, and the vote that names it leaves
  (∀ (s : State),
     (s.st = stIntegrate ∨ s.st = stService) →
     s.brakeRole = true →
     s.svc.circ.st = 1 →
     s.circCause = true →
     s.rf AST_INJCTL.ARM = 0 →
     s.ast.held = [] →
     (∀ u ∈ s.unitsOf s.circCtxs valveBank, s.owner u = 1 ∧ s.moving u = false) →
     s.svc.wind.prog = [] →
     s.svc.circ.prog = [] →
     s.svc.prog = [] →
     ∃ t : State, exec (.circuitTakeOut) s = .next t ∧
       (∀ e ∈ s.innerEntries s.circCtxs valveBank, (t.rf (SPN_GRPEN.EN (e / 16))).testBit (e % 16) = false) ∧
       t.rf (PWM_BANKCTL.RUN (valveBank)) = 0 ∧
       (∀ k ∈ s.peersOf, s.bridgeUp k = true → t.outbox.any (fun m => match m with | .bridge j (.vote v) => j == k && v.circOut | _ => false) = true)) ∧
  -- a winding begins to return
  (∀ (s : State),
     s.on = true →
     s.mayReturn s.svc.wind false = true →
     s.windCause = false →
     ∃ t : State, exec (.windingReturn) s = .next t ∧
       t.svc.wind.returns = s.svc.wind.returns + 1) ∧
  -- a winding returns whose units the Headstock holds
  (∀ (s : State),
     s.on = true →
     s.mayReturn s.svc.wind false = true →
     s.windCause = false →
     (∀ u ∈ s.unitsOf s.windCtxs s.windBank, s.owner u = 1 ∧ s.moving u = false) →
     (∀ c ∈ s.windCtxs, s.owner (40 + c / 64) = 1 ∧ s.moving (40 + c / 64) = false) →
     s.svc.wind.prog = [] →
     s.svc.circ.prog = [] →
     s.svc.prog = [] →
     ∃ t : State, exec (.windingReturn) s = .next t ∧
       t.svc.wind.st = 1 ∧
       t.svc.wind.returns = s.svc.wind.returns + 1 ∧
       t.svc.wind.units = [] ∧
       t.svc.wind.manual = false ∧
       t.svc.wind.prog = [] ∧
       t.rb (LPE_CTXCTL.AUTO s.focCtx) = true ∧
       (∀ u ∈ s.svc.wind.units, t.owner u = s.lane.grantMap.getD u 1 ∨ t.moving u = true)) ∧
  -- a winding out of returns, or held for a command, stays out
  (∀ (s : State),
     s.svc.wind.st = 2 →
     (s.svc.wind.manual = true ∨ s.steerW 9 / 2 ^ 16 % 8 ≤ s.svc.wind.returns) →
     ∃ t : State, exec (.windingReturn) s = .next t ∧
       t = s) ∧
  -- a circuit begins to return
  (∀ (s : State),
     s.on = true →
     s.mayReturn s.svc.circ true = true →
     s.circCause = false →
     ∃ t : State, exec (.circuitReturn) s = .next t ∧
       t.svc.circ.returns = s.svc.circ.returns + 1) ∧
  -- a circuit returns whose units the Headstock holds
  (∀ (s : State),
     s.on = true →
     s.mayReturn s.svc.circ true = true →
     s.circCause = false →
     (∀ u ∈ s.unitsOf s.circCtxs valveBank, s.owner u = 1 ∧ s.moving u = false) →
     (∀ c ∈ s.circCtxs, s.owner (40 + c / 64) = 1 ∧ s.moving (40 + c / 64) = false) →
     s.svc.wind.prog = [] →
     s.svc.circ.prog = [] →
     s.svc.prog = [] →
     ∃ t : State, exec (.circuitReturn) s = .next t ∧
       t.svc.circ.st = 1 ∧
       t.svc.circ.returns = s.svc.circ.returns + 1 ∧
       t.svc.circ.units = [] ∧
       t.svc.circ.manual = false ∧
       t.svc.circ.prog = [] ∧
       (∀ c ∈ s.circCtxs, t.rb (LPE_CTXCTL.AUTO c) = true)) ∧
  -- STEER_WINDING_RESTORE with a cause
  (∀ (s : State) (ch : Fin 8) (r : HmbRun),
     s.Asked ch (.steerWindingRestore ch) r →
     s.windCause = true →
     ∃ t : State, exec (.steerWindingRestore ch) s = .next (t.finish ch stBusy []) ∧
       t = s.taken ch r) ∧
  -- STEER_WINDING_RESTORE of a winding that is out
  (∀ (s : State) (ch : Fin 8) (r : HmbRun),
     s.Asked ch (.steerWindingRestore ch) r →
     s.windCause = false →
     s.svc.wind.st = 2 →
     (∀ u ∈ s.unitsOf s.windCtxs s.windBank, s.owner u = 1 ∧ s.moving u = false) →
     (∀ c ∈ s.windCtxs, s.owner (40 + c / 64) = 1 ∧ s.moving (40 + c / 64) = false) →
     s.svc.wind.prog = [] →
     s.svc.circ.prog = [] →
     s.svc.prog = [] →
     ∃ t : State, exec (.steerWindingRestore ch) s = .next (t.finish ch stOk []) ∧
       t.svc.wind.st = 1 ∧
       t.svc.wind.returns = s.svc.wind.returns ∧
       t.svc.wind.manual = false) ∧
  -- STEER_WINDING_RESTORE of one in service
  (∀ (s : State) (ch : Fin 8) (r : HmbRun),
     s.Asked ch (.steerWindingRestore ch) r →
     s.windCause = false →
     s.svc.wind.st ≠ 2 →
     ∃ t : State, exec (.steerWindingRestore ch) s = .next (t.finish ch stOk []) ∧
       t = s.taken ch r) ∧
  -- BRAKE_CIRCUIT_RESTORE with a cause
  (∀ (s : State) (ch : Fin 8) (r : HmbRun),
     s.Asked ch (.brakeCircuitRestore ch) r →
     s.circCause = true →
     ∃ t : State, exec (.brakeCircuitRestore ch) s = .next (t.finish ch stBusy []) ∧
       t = s.taken ch r) ∧
  -- BRAKE_CIRCUIT_RESTORE of a circuit that is out
  (∀ (s : State) (ch : Fin 8) (r : HmbRun),
     s.Asked ch (.brakeCircuitRestore ch) r →
     s.circCause = false →
     s.svc.circ.st = 2 →
     (∀ u ∈ s.unitsOf s.circCtxs valveBank, s.owner u = 1 ∧ s.moving u = false) →
     (∀ c ∈ s.circCtxs, s.owner (40 + c / 64) = 1 ∧ s.moving (40 + c / 64) = false) →
     s.svc.wind.prog = [] →
     s.svc.circ.prog = [] →
     s.svc.prog = [] →
     ∃ t : State, exec (.brakeCircuitRestore ch) s = .next (t.finish ch stOk []) ∧
       t.svc.circ.st = 1 ∧
       t.svc.circ.returns = s.svc.circ.returns ∧
       t.svc.circ.manual = false) ∧
  -- BRAKE_CIRCUIT_RESTORE of one in service
  (∀ (s : State) (ch : Fin 8) (r : HmbRun),
     s.Asked ch (.brakeCircuitRestore ch) r →
     s.circCause = false →
     s.svc.circ.st ≠ 2 →
     ∃ t : State, exec (.brakeCircuitRestore ch) s = .next (t.finish ch stOk []) ∧
       t = s.taken ch r) ∧
  -- a delegated write that was made
  (∀ (s : State) (q : SvcReq) (l : List SvcReq),
     s.on = true →
     s.svc.reqs = q :: l →
     q.by_ ≤ s.gt →
     s.rn q.addr &&& q.mask = q.value &&& q.mask →
     ∃ t : State, exec (.delegationDeadline) s = .next t ∧
       t.svc.reqs = l ∧
       RegsBut [] s t ∧
       t = { s with svc := t.svc }) ∧
  -- a delegated write that was not made: the unit moves to the Headstock
  (∀ (s : State) (q : SvcReq) (l : List SvcReq),
     s.on = true →
     s.svc.reqs = q :: l →
     q.by_ ≤ s.gt →
     s.rn q.addr &&& q.mask ≠ q.value &&& q.mask →
     s.owner q.unit ≠ 1 →
     s.moving q.unit = false →
     q.unit < 63 →
     (∀ u : Fin 63, LANE_GRANT.adr u ≠ q.addr) →
     s.svc.wind.prog = [] →
     s.svc.circ.prog = [] →
     s.svc.prog = [] →
     ∃ t : State, exec (.delegationDeadline) s = .next t ∧
       t.svc.reqs = l ∧
       t.owner q.unit = 0 ∧
       t.moving q.unit = true ∧
       t.svc.prog = [.held q.unit, .put q.unit q.addr q.mask q.value] ∧
       s.raiseOf 245 (s.freeNat % 2 ^ 24) ∈ t.tly.raises ∧
       RegsBut [LANE_GRANT.OWNER q.unit] s t ∧
       t.mem = s.mem) ∧
  -- a delegated write of a context's register that was not made, the unit the Headstock's
  (∀ (s : State) (q : SvcReq) (l : List SvcReq) (c : Fin 256),
     s.on = true →
     s.svc.reqs = q :: l →
     q.by_ ≤ s.gt →
     q.addr = LPE_CTXCTL.adr c →
     q.unit = 40 + c.val / 64 →
     s.rn q.addr &&& q.mask ≠ q.value &&& q.mask →
     s.owner q.unit = 1 →
     s.moving q.unit = false →
     s.svc.wind.prog = [] →
     s.svc.circ.prog = [] →
     s.svc.prog = [] →
     ∃ t : State, exec (.delegationDeadline) s = .next t ∧
       t.svc.reqs = l ∧
       t.owner q.unit = 1 ∧
       s.raiseOf 245 (s.freeNat % 2 ^ 24) ∈ t.tly.raises ∧
       t.rn q.addr = (clearBits 32 (s.rn q.addr) q.mask ||| (q.value &&& q.mask)) % 2 ^ 32 ∧
       RegsBut [whole q.addr] s t ∧
       t.mem = s.mem) ∧
  -- SVC_STATUS where only the steering service runs
  (∀ (s : State) (ch : Fin 8) (r : HmbRun),
     s.Asked ch (.svcStatus ch) r →
     s.brakeRole = false →
     ∃ t : State, exec (.svcStatus ch) s = .next (t.finish ch stOk (imgBytes s.activeImg 0x3000 128 ++ leBytes 4 s.windMask ++ leBytes 4 s.circMask ++ leBytes 4 s.auth ++ leBytes 4 (b2n s.svc.demLost + 2 * b2n (s.svc.flagged != 0)))) ∧
       t = (s.taken ch r).used 1) ∧
  -- SVC_STATUS where only the braking service runs
  (∀ (s : State) (ch : Fin 8) (r : HmbRun),
     s.Asked ch (.svcStatus ch) r →
     s.brakeRole = true →
     s.steerRole = 0 →
     ∃ t : State, exec (.svcStatus ch) s = .next (t.finish ch stOk (imgBytes s.activeImg 0x3000 128 ++ leBytes 4 s.windMask ++ leBytes 4 s.circMask ++ leBytes 4 s.auth ++ leBytes 4 (b2n s.svc.shortfall + 2 * b2n s.svc.demFail))) ∧
       t = (s.taken ch r).used 1) ∧
  -- SVC_STATUS where both services run
  (∀ (s : State) (ch : Fin 8) (r : HmbRun),
     s.Asked ch (.svcStatus ch) r →
     s.brakeRole = true →
     s.steerRole ≠ 0 →
     ∃ t : State, exec (.svcStatus ch) s = .next (t.finish ch stOk (imgBytes s.activeImg 0x3000 128 ++ leBytes 4 s.windMask ++ leBytes 4 s.circMask ++ leBytes 4 s.auth ++ leBytes 4 (s.freeNat % 2 ^ 32))) ∧
       t = (s.taken ch r).used 1) ∧
  -- a winding goes out, whatever waits
  (∀ (s : State),
     s.on = true →
     s.steerRole ≠ 0 →
     s.svc.wind.st ≠ 2 →
     (s.svc.wind.st = 1 ∨ s.st = stService) →
     s.windCause = true →
     ∃ t : State, exec (.windingTakeOut) s = .next t ∧
       t.svc.wind.st = 2 ∧
       t.svc.wind.units = s.unitsOf s.windCtxs s.windBank ∧
       s.raiseOf 240 (s.freeNat % 2 ^ 24) ∈ t.tly.raises) ∧
  -- a circuit goes out, whatever waits
  (∀ (s : State),
     s.on = true →
     s.brakeRole = true →
     s.svc.circ.st = 1 →
     s.circCause = true →
     ∃ t : State, exec (.circuitTakeOut) s = .next t ∧
       t.svc.circ.st = 2 ∧
       t.svc.circ.units = s.unitsOf s.circCtxs valveBank ∧
       s.raiseOf 242 (s.freeNat % 2 ^ 24) ∈ t.tly.raises) ∧
  -- any delegated write that was not made
  (∀ (s : State) (q : SvcReq) (l : List SvcReq),
     s.on = true →
     s.svc.reqs = q :: l →
     q.by_ ≤ s.gt →
     s.rn q.addr &&& q.mask ≠ q.value &&& q.mask →
     (∀ u : Fin 63, LANE_GRANT.adr u ≠ q.addr) →
     ∃ t : State, exec (.delegationDeadline) s = .next t ∧
       s.raiseOf 245 (s.freeNat % 2 ^ 24) ∈ t.tly.raises ∧
       t.mem = s.mem)

/-- SOURCE_RAISE of one source without a reaction, once the capture window of its raise has closed (R282): an IDLE source
opens, with RECFIRST and RECLAST the GT of the raise, RECINFO its detail, MERGE 0, its status bit and NEW bit set and
the Headstock interrupted, LATCHED where RECOV is at a non-zero LIMIT (R284, R288); an OPEN or LATCHED one only moves
MERGE and RECLAST (R285). QUIET_EXPIRY of an OPEN source no longer asserted, more than QUIET ms after its last
assertion: IDLE, the status bit clear, RECOV counted, the record kept (R286). A LATCHED source stays in fault (R287).
A capture window that has closed is taken whole: no raise of its instant still waits. -/
def Obligations.TallyRecords : Prop :=
  -- opening
  (∀ (s : State) (n : Fin 256) (x : Raise),
     s.on = true →
     s.tly.raises = [x] →
     x.at_ < s.now →
     s.tly.copiesAgree = true →
     x.src = n →
     srcListed n = true →
     s.rf (TLY_SRCCFG.REACT n) = 0 →
     n.val ≠ 2 →
     n.val ≠ 4 →
     n.val ≠ 5 →
     s.srcState n = tlyIdle →
     s.rf AST_INJCTL.ARM = 0 →
     ∃ t : State, exec (.sourceRaise) s = .next t ∧
       t.rn (TLY_RECFIRST.adr n) = x.gt % 2 ^ 32 ∧
       t.rn (TLY_RECLAST.adr n) = x.gt % 2 ^ 32 ∧
       t.rn (TLY_RECINFO.adr n) = x.detail % 2 ^ 32 ∧
       t.rf (TLY_RECCNT.MERGE n) = 0 ∧
       t.rf (TLY_RECCNT.RECOV n) = s.rf (TLY_RECCNT.RECOV n) ∧
       t.srcState n = (if s.rf (TLY_SRCCFG.LIMIT n) ≠ 0 ∧ s.rf (TLY_RECCNT.RECOV n) = s.rf (TLY_SRCCFG.LIMIT n) then tlyLatched else tlyOpen) ∧
       (t.rf (TLY_STAT.FAULT (n.val / 32))).testBit (n.val % 32) = true ∧
       (t.rf (TLY_NEWH.NEW (n.val / 32))).testBit (n.val % 32) = true ∧
       t.rf TLY_SUMMARY.FAULTCNT = (s.rf TLY_SUMMARY.FAULTCNT + 1) % 512 ∧
       (t.srcState n = tlyLatched → (t.rf (TLY_LATCH.LATCHED (n.val / 32))).testBit (n.val % 32) = true) ∧
       .tallyIrq 1 ∈ t.outbox ∧
       t.tly.raises = [] ∧
       RegsBut [whole (TLY_RECFIRST.adr n), whole (TLY_RECLAST.adr n), whole (TLY_RECINFO.adr n), whole (TLY_RECCNT.adr n), TLY_STAT.FAULT (n / 32), TLY_LATCH.LATCHED (n / 32), TLY_NEWH.NEW (n / 32), whole TLY_SUMMARY.adr, TLY_EFLSTAT.DRIVE, TLY_EFLSTAT.HOLDMIN, TLY_EFLSTAT.PAD] s t) ∧
  -- merging
  (∀ (s : State) (n : Fin 256) (x : Raise),
     s.on = true →
     s.tly.raises = [x] →
     x.at_ < s.now →
     s.tly.copiesAgree = true →
     x.src = n →
     srcListed n = true →
     s.rf (TLY_SRCCFG.REACT n) = 0 →
     n.val ≠ 2 →
     n.val ≠ 4 →
     n.val ≠ 5 →
     s.srcState n ≠ tlyIdle →
     s.rf AST_INJCTL.ARM = 0 →
     ∃ t : State, exec (.sourceRaise) s = .next t ∧
       t.rf (TLY_RECCNT.MERGE n) = min (s.rf (TLY_RECCNT.MERGE n) + 1) 65535 ∧
       t.rn (TLY_RECLAST.adr n) = x.gt % 2 ^ 32 ∧
       t.rn (TLY_RECFIRST.adr n) = s.rn (TLY_RECFIRST.adr n) ∧
       t.rn (TLY_RECINFO.adr n) = s.rn (TLY_RECINFO.adr n) ∧
       t.srcState n = s.srcState n ∧
       t.tly.raises = [] ∧
       RegsBut [TLY_RECCNT.MERGE n, whole (TLY_RECLAST.adr n), TLY_EFLSTAT.DRIVE, TLY_EFLSTAT.HOLDMIN, TLY_EFLSTAT.PAD] s t) ∧
  -- QUIET_EXPIRY
  (∀ (s : State) (n : Fin 256),
     s.on = true →
     s.srcState n = tlyOpen →
     s.asserted n = false →
     s.tly.raises = [] →
     s.tly.copiesAgree = true →
     (mget ({} : SrcSt) s.tly.src n).endAt + 1000000 * mget 0 s.tly.quiet n < s.now →
     s.rf AST_INJCTL.ARM = 0 →
     ∃ t : State, exec (.quietExpiry n) s = .next t ∧
       t.srcState n = tlyIdle ∧
       (t.rf (TLY_STAT.FAULT (n.val / 32))).testBit (n.val % 32) = false ∧
       t.rf (TLY_RECCNT.RECOV n) = min (s.rf (TLY_RECCNT.RECOV n) + 1) 255 ∧
       t.rf TLY_SUMMARY.FAULTCNT = s.rf TLY_SUMMARY.FAULTCNT - 1 ∧
       t.rf (TLY_RECCNT.MERGE n) = s.rf (TLY_RECCNT.MERGE n) ∧
       RegsBut [TLY_RECCNT.STATE n, TLY_RECCNT.RECOV n, TLY_STAT.FAULT (n / 32), TLY_SUMMARY.FAULTCNT, TLY_EFLSTAT.DRIVE, TLY_EFLSTAT.HOLDMIN, TLY_EFLSTAT.PAD] s t) ∧
  -- a latched source
  (∀ (s : State) (n : Fin 256),
     s.srcState n = tlyLatched →
     ∃ t : State, exec (.quietExpiry n) s = .next t ∧
       t = s) ∧
  -- any closed window
  (∀ (s : State) (x : Raise) (l : List Raise),
     s.on = true →
     s.tly.raises = x :: l →
     x.at_ < s.now →
     ∃ t : State, exec (.sourceRaise) s = .next t ∧
       t = s.raiseWindow ∧
       t.tly.raises.all (fun y => y.at_ != x.at_) = true ∧
       (∀ y ∈ l, y.at_ ≠ x.at_ → y ∈ t.tly.raises ∨ t.st = stOff))

/-- SOURCE_RAISE of a source with EPIN drives x-EFL low from now; with LANE, at the opening and at every merge, the lane
resets: STATE OFF, PREV the state it left, cause 1, and TLY_RSTCAUSE, TLY_RSTINFO and TLY_RSTGT name the raise (R289,
R293, R294); LANE of sources 2, 4 and 5 acts whatever REACT says (R291); with BLK, a gate-link raise restarts bring-up
of its port. TALLY_SELF_CHECK resets the lane with 0x100 where the copies differ and does nothing where they agree
(R299). EFL_MIN_EXPIRY without a cause releases x-EFL; EFL_TEST_END ends FORCE (R297). -/
def Obligations.TallyReactions : Prop :=
  -- EPIN
  (∀ (s : State) (n : Fin 256) (x : Raise),
     s.on = true →
     s.tly.raises = [x] →
     x.at_ < s.now →
     s.tly.copiesAgree = true →
     x.src = n →
     srcListed n = true →
     s.rf (TLY_SRCCFG.REACT n) = 16 →
     n.val ≠ 2 →
     n.val ≠ 4 →
     n.val ≠ 5 →
     ∃ t : State, exec (.sourceRaise) s = .next t ∧
       t.rb TLY_EFLSTAT.DRIVE = true ∧
       t.rb TLY_EFLSTAT.PAD = false ∧
       (s.rb TLY_EFLSTAT.DRIVE = false → t.tly.eflSince = s.now) ∧
       t.srcState n ≠ tlyIdle) ∧
  -- LANE
  (∀ (s : State) (n : Fin 256) (x : Raise),
     s.on = true →
     s.tly.raises = [x] →
     x.at_ < s.now →
     s.tly.copiesAgree = true →
     x.src = n →
     srcListed n = true →
     ((s.rf (TLY_SRCCFG.REACT n)).testBit 3 = true ∨ n.val = 2 ∨ n.val = 4 ∨ n.val = 5) →
     (s.rf (TLY_SRCCFG.REACT n)).testBit 2 = false →
     s.sec.proc = none →
     s.sec.recAt = none →
     ∃ t : State, exec (.sourceRaise) s = .next t ∧
       t.st = stOff ∧
       t.rf LANE_STATE.PREV = s.st ∧
       t.rf PMU_RSTSRC.CAUSE = rstTally ∧
       t.rf PMU_RSTSRC.COUNT = min (s.rf PMU_RSTSRC.COUNT + 1) 65535 ∧
       t.rn TLY_RSTCAUSE.adr = n ∧
       t.rn TLY_RSTINFO.adr = x.detail % 2 ^ 32 ∧
       t.rn TLY_RSTGT.adr = x.gt % 2 ^ 32 ∧
       t.pmu.endAt = max s.pmu.endAt (s.now + 50000) ∧
       t.tly.raises = [] ∧
       t.flash = s.flash ∧
       t.otp = s.otp ∧
       t.pending = s.pending) ∧
  -- BLK of a gate-link source
  (∀ (s : State) (n : Fin 256) (x : Raise) (p : Fin 8),
     s.on = true →
     s.tly.raises = [x] →
     x.at_ < s.now →
     s.tly.copiesAgree = true →
     x.src = n →
     srcListed n = true →
     64 ≤ n.val →
     n.val < 96 →
     s.rf (TLY_SRCCFG.REACT n) = 4 →
     x.detail % 8 = p →
     s.rb (GLK_PORTCFG.EN p) = true →
     s.srcState n ≠ tlyIdle →
     ∃ t : State, exec (.sourceRaise) s = .next t ∧
       t.portSt p = glLock ∧
       t.rf (TLY_RECCNT.MERGE n) = min (s.rf (TLY_RECCNT.MERGE n) + 1) 65535) ∧
  -- copies that agree
  (∀ (s : State),
     s.tly.copiesAgree = true →
     ∃ t : State, exec (.tallySelfCheck) s = .next t ∧
       t = s) ∧
  -- copies that differ
  (∀ (s : State),
     s.on = true →
     s.tly.copiesAgree = false →
     ∃ t : State, exec (.tallySelfCheck) s = .next t ∧
       t.st = stOff ∧
       t.rn TLY_RSTCAUSE.adr = 0x100 ∧
       t.rn TLY_RSTINFO.adr = 0 ∧
       t.rf PMU_RSTSRC.CAUSE = rstTally ∧
       t.rb TLY_EFLSTAT.DRIVE = true) ∧
  -- EFL_MIN_EXPIRY without a cause
  (∀ (s : State),
     s.on = true →
     s.eflCause = false →
     s.tly.eflSince + 1000000 * s.rf TLY_CTRL.EFLMIN ≤ s.now →
     ∃ t : State, exec (.eflMinExpiry) s = .next t ∧
       t.rb TLY_EFLSTAT.DRIVE = false ∧
       t.rb TLY_EFLSTAT.HOLDMIN = false ∧
       t.rb TLY_EFLSTAT.PAD = !s.vioDead 0 ∧
       (s.rf AST_INJCTL.ARM = 0 → RegsBut [TLY_EFLSTAT.DRIVE, TLY_EFLSTAT.HOLDMIN, TLY_EFLSTAT.PAD] s t)) ∧
  -- EFL_TEST_END
  (∀ (s : State) (e : Nat),
     s.on = true →
     s.tly.eflTestEnd = some e →
     e ≤ s.now →
     ∃ t : State, exec (.eflTestEnd) s = .next t ∧
       t.rb TLY_CTRL.FORCE = false ∧
       t.tly.eflTestEnd = none ∧
       (s.rf AST_INJCTL.ARM = 0 → RegsBut [TLY_CTRL.FORCE, TLY_EFLSTAT.DRIVE, TLY_EFLSTAT.HOLDMIN, TLY_EFLSTAT.PAD] s t))

/-- A read of TLY_STAT0 captures the eight status words and GT for its requester, a read of TLY_RECFIRST its record, and
nothing else (R283). TLY_FWRAISE raises FW source 240 + NUM with DETAIL for the Headstock, for an application core or
pair from FW6 on; any other is discarded with KIND 2 (R298). TLY_SET_REACTION writes TLY_SRCCFG of a listed source
that is not safety-classed; a safety-classed or reserved source, or a LANE bit, is INVALID_PARAM (R290). TLY_EFL_TEST
drives x-EFL low for 1 to 10 000 ms (R297). -/
def Obligations.TallyAccess : Prop :=
  -- TLY_STAT0_READ
  (∀ (s : State) (req : Fin 32),
     s.on = true →
     ∃ t : State, exec (.tlyStat0Read req) s = .next t ∧
       t.rdata = s.rn (TLY_STAT.adr 0) ∧
       mget {} t.tly.snaps req = { stat := (List.range 8).map (fun k => s.rn (TLY_STAT.adr k)), gt := s.gt % 2 ^ 32 } ∧
       (∀ q : Fin 32, q ≠ req → mget {} t.tly.snaps q = mget {} s.tly.snaps q) ∧
       t = { s with rdata := t.rdata, tly := t.tly }) ∧
  -- TLY_RECFIRST_READ
  (∀ (s : State) (req : Fin 32) (n : Fin 256),
     s.on = true →
     ∃ t : State, exec (.tlyRecfirstRead req n) s = .next t ∧
       t.rdata = s.rn (TLY_RECFIRST.adr n) ∧
       mget {} t.tly.recs req = { src := n, last := s.rn (TLY_RECLAST.adr n), info := s.rn (TLY_RECINFO.adr n), cnt := s.rn (TLY_RECCNT.adr n) } ∧
       t = { s with rdata := t.rdata, tly := t.tly }) ∧
  -- TLY_FWRAISE of the Headstock
  (∀ (s : State) (v : Word),
     s.on = true →
     ∃ t : State, exec (.tlyFwraise 1 v) s = .next t ∧
       Raised s t (240 + v.toNat % 16) (v.toNat / 256) ∧
       t = { s with tly := t.tly }) ∧
  -- TLY_FWRAISE of a pair or core
  (∀ (s : State) (req : Fin 32) (v : Word),
     s.on = true →
     ((2 ≤ req.val ∧ req.val ≤ 4) ∨ (8 ≤ req.val ∧ req.val ≤ 13)) →
     s.honoured req = true →
     6 ≤ v.toNat % 16 →
     ∃ t : State, exec (.tlyFwraise req v) s = .next t ∧
       Raised s t (240 + v.toNat % 16) (v.toNat / 256) ∧
       t = { s with tly := t.tly }) ∧
  -- TLY_FWRAISE of FW0 to FW5 by another
  (∀ (s : State) (req : Fin 32) (v : Word),
     s.on = true →
     req.val ≠ 1 →
     v.toNat % 16 < 6 →
     ∃ t : State, exec (.tlyFwraise req v) s = .next t ∧
       Discarded s t TLY_FWRAISE.adr req 2) ∧
  -- TLY_SET_REACTION
  (∀ (s : State) (ch : Fin 8) (n : BitVec 16) (c : Word) (r : HmbRun),
     s.Asked ch (.tlySetReaction ch n c) r →
     srcListed n.toNat = true →
     srcSafe (s.rf TLY_FWCLASS.SAFE) n.toNat = false →
     c.getLsbD 30 = false →
     ownerCode (c.toNat / 2 ^ 22 % 32) = true →
     0 < c.toNat / 256 % 2 ^ 14 →
     c.toNat / 256 % 2 ^ 14 ≤ 10000 →
     ∃ t : State, exec (.tlySetReaction ch n c) s = .next (t.finish ch stOk []) ∧
       t.reg (TLY_SRCCFG.adr n.toNat) = c ∧
       (s.rf AST_INJCTL.ARM = 0 → RegsBut [whole (TLY_SRCCFG.adr n.toNat), TLY_EFLSTAT.DRIVE, TLY_EFLSTAT.HOLDMIN, TLY_EFLSTAT.PAD] s t)) ∧
  -- TLY_SET_REACTION refused
  (∀ (s : State) (ch : Fin 8) (n : BitVec 16) (c : Word) (r : HmbRun),
     s.Asked ch (.tlySetReaction ch n c) r →
     (srcListed n.toNat = false ∨ srcSafe (s.rf TLY_FWCLASS.SAFE) n.toNat = true ∨ c.getLsbD 30 = true) →
     ∃ t : State, exec (.tlySetReaction ch n c) s = .next (t.finish ch stInvalidParam []) ∧
       t = s.taken ch r) ∧
  -- TLY_EFL_TEST
  (∀ (s : State) (ch : Fin 8) (d : BitVec 16) (r : HmbRun),
     s.Asked ch (.tlyEflTest ch d) r →
     0 < d.toNat →
     d.toNat ≤ 10000 →
     ∃ t : State, exec (.tlyEflTest ch d) s = .next (t.finish ch stOk []) ∧
       t.rb TLY_CTRL.FORCE = true ∧
       t.rb TLY_EFLSTAT.DRIVE = true ∧
       t.rb TLY_EFLSTAT.PAD = false ∧
       t.tly.eflTestEnd = some (s.now + 1000000 * d.toNat) ∧
       (s.rf AST_INJCTL.ARM = 0 → RegsBut [TLY_CTRL.FORCE, TLY_EFLSTAT.DRIVE, TLY_EFLSTAT.HOLDMIN, TLY_EFLSTAT.PAD] s t)) ∧
  -- TLY_EFL_TEST of no duration or too long a one
  (∀ (s : State) (ch : Fin 8) (d : BitVec 16) (r : HmbRun),
     s.Asked ch (.tlyEflTest ch d) r →
     (d.toNat = 0 ∨ 10000 < d.toNat) →
     ∃ t : State, exec (.tlyEflTest ch d) s = .next (t.finish ch stInvalidParam []) ∧
       t = s.taken ch r)

/-- SAFETY_INPUT_DEMAND of an input in use: its levels are those of the two pads, channel B's inverted for an antivalent
input, it is in demand, and every output whose EMASK names it is off (R261, R264). SAFETY_INPUT_HEALTHY: the demand
ends unless its DISC latch is set or, with RESTART manual, no SRST has been accepted, which WAITRST shows.
DISCREPANCY_FAULT sets DISC, enters demand, counts and names the input, and raises 160; DISCREPANCY_END counts a near
miss and the longest episode (R262). -/
def Obligations.SafetyInputs : Prop :=
  -- SAFETY_INPUT_DEMAND
  (∀ (s : State) (n : Fin 8) (a : Bool) (b : Bool),
     s.on = true →
     s.inUse n = true →
     (a && s.chanB n b) = false →
     ∃ t : State, exec (.safetyInputDemand n a b) s = .next t ∧
       (t.rf TSK_INSTAT.DEMAND).testBit n = true ∧
       (t.rf TSK_INSTAT.LVLA).testBit n = a ∧
       (s.rf (TSK_INCFG.TYPE n) ≠ 2 → (t.rf TSK_INSTAT.LVLB).testBit n = b) ∧
       (s.rf (TSK_INCFG.TYPE n) = 2 → (t.rf TSK_INSTAT.LVLB).testBit n = !b) ∧
       (∀ k : Fin 8, (t.rf (TSK_OUTCFG.EMASK k)).testBit n = true → (t.rf TSK_OUTSTAT.ON).testBit k = false) ∧
       (∀ k : Fin 8, (t.rf TSK_OUTSTAT.ON).testBit k = t.outOn k) ∧
       (∀ m : Fin 8, m ≠ n → (t.rf TSK_INSTAT.DEMAND).testBit m = (s.rf TSK_INSTAT.DEMAND).testBit m) ∧
       RegsBut [TSK_INSTAT.LVLA, TSK_INSTAT.LVLB, TSK_INSTAT.DEMAND, TSK_INSTAT2.WAITRST, TSK_OUTSTAT.ON, TSK_OUTSTAT.RB] s t ∧
       t = { s with regs := t.regs, tsk := t.tsk }) ∧
  -- SAFETY_INPUT_HEALTHY
  (∀ (s : State) (n : Fin 8),
     s.on = true →
     s.inUse n = true →
     ∃ t : State, exec (.safetyInputHealthy n) s = .next t ∧
       (t.rf TSK_INSTAT.LVLA).testBit n = true ∧
       (t.rf TSK_INSTAT.LVLB).testBit n = true ∧
       (t.rf TSK_INSTAT.DEMAND).testBit n = ((s.rf TSK_INSTAT.DISC).testBit n || (s.rb (TSK_INCFG.RESTART n) && !(s.safeIn n).srst)) ∧
       (t.rf TSK_INSTAT2.WAITRST).testBit n = (t.rf TSK_INSTAT.DEMAND).testBit n ∧
       (∀ k : Fin 8, (t.rf TSK_OUTSTAT.ON).testBit k = t.outOn k) ∧
       RegsBut [TSK_INSTAT.LVLA, TSK_INSTAT.LVLB, TSK_INSTAT.DEMAND, TSK_INSTAT2.WAITRST, TSK_OUTSTAT.ON, TSK_OUTSTAT.RB] s t ∧
       t = { s with regs := t.regs, tsk := t.tsk }) ∧
  -- DISCREPANCY_FAULT
  (∀ (s : State) (n : Fin 8),
     s.on = true →
     s.inUse n = true →
     ∃ t : State, exec (.discrepancyFault n) s = .next t ∧
       (t.rf TSK_INSTAT.DISC).testBit n = true ∧
       (t.rf TSK_INSTAT.DEMAND).testBit n = true ∧
       t.rf TSK_DISCINFO.INPUT = n ∧
       t.rf TSK_DISCINFO.COUNT = min (s.rf TSK_DISCINFO.COUNT + 1) 65535 ∧
       Raised s t 160 n ∧
       (∀ k : Fin 8, (t.rf TSK_OUTSTAT.ON).testBit k = t.outOn k) ∧
       RegsBut [TSK_INSTAT.DISC, TSK_INSTAT.DEMAND, TSK_INSTAT2.WAITRST, TSK_DISCINFO.INPUT, TSK_DISCINFO.COUNT, TSK_OUTSTAT.ON, TSK_OUTSTAT.RB] s t ∧
       t = { s with regs := t.regs, tsk := t.tsk, tly := t.tly }) ∧
  -- DISCREPANCY_END
  (∀ (s : State) (n : Fin 8) (d : Nat),
     s.on = true →
     s.inUse n = true →
     d < 100 * s.rf (TSK_INCFG.TDISC n) →
     ∃ t : State, exec (.discrepancyEnd n d) s = .next t ∧
       t.rf (TSK_NEARCNT.NEARMISS n) = (if s.rf (TSK_INNEAR.NEAR n) ≠ 0 ∧ 100 * s.rf (TSK_INNEAR.NEAR n) ≤ d then min (s.rf (TSK_NEARCNT.NEARMISS n) + 1) 65535 else s.rf (TSK_NEARCNT.NEARMISS n)) ∧
       t.rf (TSK_NEARCNT.LONGEST n) = max (s.rf (TSK_NEARCNT.LONGEST n)) (d / 100) ∧
       RegsBut [TSK_NEARCNT.NEARMISS n, TSK_NEARCNT.LONGEST n] s t ∧
       t = { s with regs := t.regs })

/-- READBACK_MISMATCH: an output commanded on and read off latches RBFAIL and goes off; one commanded off and read on puts
the Tailstock in SAFE with SAFECAUSE 3; both raise 164 (R265). Within 50 µs of the output's last commanded change it
does nothing. TEST_PULSE_START of an output that is on, with tests enabled and a new instant, sets TESTING and its pad
goes off; TEST_PULSE_END clears it, the pad follows, and a pad still on is stuck on (R266). SAMPLER_FAULT raises 165
and enters SAFE with cause 2 (R270). In SAFE every output is off, x-HLTH is low, and a lane in SERVICE leaves it
(R249, R271). -/
def Obligations.SafetyOutputs : Prop :=
  -- an output that does not switch on
  (∀ (s : State) (k : Fin 8),
     s.on = true →
     (s.rf TSK_OUTSTAT.ON).testBit k = true →
     (s.rf TSK_OUTSTAT.TESTING).testBit k = false →
     (s.tsk.cmdAt.find? (fun x => x.1 == k.val)).all (fun x => decide (x.2 + 50000 ≤ s.now)) = true →
     ∃ t : State, exec (.readbackMismatch k false) s = .next t ∧
       (t.rf TSK_OUTSTAT.RBFAIL).testBit k = true ∧
       (t.rf TSK_OUTSTAT.ON).testBit k = false ∧
       (t.rf TSK_OUTSTAT.RB).testBit k = false ∧
       Raised s t 164 k ∧
       (∀ j : Fin 8, (t.rf TSK_OUTSTAT.ON).testBit j = t.outOn j) ∧
       RegsBut [TSK_OUTSTAT.RBFAIL, TSK_OUTSTAT.ON, TSK_OUTSTAT.RB] s t ∧
       t = { s with regs := t.regs, tsk := t.tsk, tly := t.tly }) ∧
  -- an output that does not switch off, in RUN
  (∀ (s : State) (k : Fin 8),
     s.on = true →
     s.commanded k = false →
     s.tskRun = true →
     (s.tsk.cmdAt.find? (fun x => x.1 == k.val)).all (fun x => decide (x.2 + 50000 ≤ s.now)) = true →
     ∃ t : State, exec (.readbackMismatch k true) s = .next t ∧
       t.tskRun = false ∧
       t.rf TSK_STAT.SAFECAUSE = 3 ∧
       t.rf TSK_OUTSTAT.ON = 0 ∧
       t.rb TSK_STAT.HLTHON = false ∧
       t.rb TSK_STAT.LEVEL = false ∧
       s.raiseOf 164 k ∈ t.tly.raises ∧
       t.st ≠ stService ∧
       (s.st ≠ stService → t.st = s.st) ∧
       (s.st = stService → t.st = stIntegrate)) ∧
  -- a pad within 50 µs of the last commanded change
  (∀ (s : State) (k : Fin 8) (p : Bool) (t0 : Nat),
     s.on = true →
     s.tsk.cmdAt.find? (fun x => x.1 == k.val) = some (k.val, t0) →
     s.now < t0 + 50000 →
     ∃ t : State, exec (.readbackMismatch k p) s = .next t ∧
       t = s) ∧
  -- SAMPLER_FAULT in RUN
  (∀ (s : State),
     s.on = true →
     s.tskRun = true →
     ∃ t : State, exec (.samplerFault) s = .next t ∧
       t.tskRun = false ∧
       t.rf TSK_STAT.SAFECAUSE = 2 ∧
       t.rf TSK_OUTSTAT.ON = 0 ∧
       t.rb TSK_STAT.HLTHON = false ∧
       t.rb TSK_STAT.LEVEL = false ∧
       s.raiseOf 165 0 ∈ t.tly.raises ∧
       t.st ≠ stService ∧
       (s.st ≠ stService → t.st = s.st)) ∧
  -- TEST_PULSE_START
  (∀ (s : State) (k : Fin 8) (g : Nat),
     s.testInstant k = some g →
     s.rb (TSK_OUTCFG.TESTEN k) = true →
     (s.rf TSK_OUTSTAT.ON).testBit k = true →
     mget 0 s.tsk.testGt k ≠ g →
     ∃ t : State, exec (.testPulseStart k) s = .next t ∧
       (t.rf TSK_OUTSTAT.TESTING).testBit k = true ∧
       t.rf TSK_OUTSTAT.ON = s.rf TSK_OUTSTAT.ON ∧
       ((s.rf TSK_OUTSTAT.TESTING).testBit k = false → (t.rf TSK_OUTSTAT.RB).testBit k = false) ∧
       RegsBut [TSK_OUTSTAT.TESTING, TSK_OUTSTAT.RB] s t ∧
       t = { s with regs := t.regs, tsk := t.tsk }) ∧
  -- TEST_PULSE_END with the pad off
  (∀ (s : State) (k : Fin 8),
     (s.rf TSK_OUTSTAT.TESTING).testBit k = true →
     mget 0 s.tsk.testGt k + 10000 * s.rf (TSK_OUTCFG.OTW k) ≤ s.gt →
     ∃ t : State, exec (.testPulseEnd k false) s = .next t ∧
       (t.rf TSK_OUTSTAT.TESTING).testBit k = false ∧
       ((s.rf TSK_OUTSTAT.ON).testBit k = true → (t.rf TSK_OUTSTAT.RB).testBit k = true) ∧
       RegsBut [TSK_OUTSTAT.TESTING, TSK_OUTSTAT.RB] s t ∧
       t = { s with regs := t.regs, tsk := t.tsk }) ∧
  -- TEST_PULSE_END with the pad on, in RUN
  (∀ (s : State) (k : Fin 8),
     (s.rf TSK_OUTSTAT.TESTING).testBit k = true →
     mget 0 s.tsk.testGt k + 10000 * s.rf (TSK_OUTCFG.OTW k) ≤ s.gt →
     s.tskRun = true →
     ∃ t : State, exec (.testPulseEnd k true) s = .next t ∧
       (t.rf TSK_OUTSTAT.TESTING).testBit k = false ∧
       t.tskRun = false ∧
       t.rf TSK_STAT.SAFECAUSE = 3 ∧
       t.rf TSK_OUTSTAT.ON = 0 ∧
       s.raiseOf 164 k ∈ t.tly.raises) ∧
  -- PATH_DISAGREE (R269)
  (∀ (s : State) (k : Fin 8) (t0 : Nat),
     s.on = true →
     s.tsk.pathAt.find? (fun x => x.1 == k.val) = some (k.val, t0, false) →
     t0 + 1000000 * s.rf TSK_CTRL.PDTIME ≤ s.now →
     ∃ t : State, exec (.pathDisagree k) s = .next t ∧
       Raised s t 162 k ∧
       t.tsk.pathAt = mset s.tsk.pathAt k (t0, true) ∧
       t = { s with tsk := t.tsk, tly := t.tly })

/-- TSK_RESPONSE by a requester that may write it is taken once, within the interval, and has no other effect.
CHALLENGE_CHECK at the end of the interval: a right response counts in OKCNT and clears FAILRUN; a wrong or missing
one raises 163 and counts in FAILCNT and FAILRUN, and the second in a row puts the Tailstock in SAFE with SAFECAUSE 1
(R268). -/
def Obligations.Challenge : Prop :=
  -- the first response
  (∀ (s : State) (req : Fin 32) (v : Word) (e : Nat),
     s.on = true →
     s.mayWrite req (24 + s.rf TSK_CHALCFG.ENTRY / 16) false = true →
     s.tsk.chalEnd = some e →
     s.gt < e →
     s.tsk.resp = none →
     ∃ t : State, exec (.tskResponse req v) s = .next t ∧
       t = { s with tsk := { s.tsk with resp := some v.toNat } }) ∧
  -- a later response, or one outside the interval
  (∀ (s : State) (req : Fin 32) (v : Word),
     s.on = true →
     s.mayWrite req (24 + s.rf TSK_CHALCFG.ENTRY / 16) false = true →
     (s.tsk.chalEnd = none ∨ s.tsk.resp ≠ none ∨ s.tsk.chalEnd.elim false (fun e => decide (e ≤ s.gt)) = true) →
     ∃ t : State, exec (.tskResponse req v) s = .next t ∧
       t = s) ∧
  -- a right response
  (∀ (s : State) (e : Nat),
     s.on = true →
     s.tsk.chalEnd = some e →
     e ≤ s.gt →
     s.tsk.resp = some s.rightResponse →
     ∃ t : State, exec (.challengeCheck) s = .next t ∧
       t.rf TSK_CHALSTAT.OKCNT = (s.rf TSK_CHALSTAT.OKCNT + 1) % 65536 ∧
       t.rf TSK_CHALSTAT.FAILRUN = 0 ∧
       t.tsk.chalEnd = none ∧
       t.tly = s.tly ∧
       RegsBut [TSK_CHALSTAT.OKCNT, TSK_CHALSTAT.FAILRUN] s t ∧
       t = { s with regs := t.regs, tsk := t.tsk }) ∧
  -- the first failure
  (∀ (s : State) (e : Nat),
     s.on = true →
     s.tsk.chalEnd = some e →
     e ≤ s.gt →
     s.tsk.resp ≠ some s.rightResponse →
     s.rf TSK_CHALSTAT.FAILRUN = 0 →
     ∃ t : State, exec (.challengeCheck) s = .next t ∧
       t.rf TSK_CHALSTAT.FAILCNT = min (s.rf TSK_CHALSTAT.FAILCNT + 1) 255 ∧
       t.rf TSK_CHALSTAT.FAILRUN = 1 ∧
       t.tsk.chalEnd = none ∧
       Raised s t 163 0 ∧
       RegsBut [TSK_CHALSTAT.FAILCNT, TSK_CHALSTAT.FAILRUN] s t ∧
       t = { s with regs := t.regs, tsk := t.tsk, tly := t.tly }) ∧
  -- the second failure in a row
  (∀ (s : State) (e : Nat),
     s.on = true →
     s.tsk.chalEnd = some e →
     e ≤ s.gt →
     s.tsk.resp ≠ some s.rightResponse →
     s.rf TSK_CHALSTAT.FAILRUN = 1 →
     s.tskRun = true →
     ∃ t : State, exec (.challengeCheck) s = .next t ∧
       t.rf TSK_CHALSTAT.FAILRUN = 2 ∧
       t.tskRun = false ∧
       t.rf TSK_STAT.SAFECAUSE = 1 ∧
       t.rf TSK_OUTSTAT.ON = 0 ∧
       s.raiseOf 163 0 ∈ t.tly.raises)

/-- HEALTH_TOGGLE of a healthy lane changes the level of x-HLTH at a new chain; HEALTH_LOSS drives it low (R272).
SRST_RELEASE of a press of 10 000 to 500 000 samples, not jammed and without a discrepancy, is accepted: ACCEPTS
counts, TSK_SRSTGT holds the GT, RBFAIL clears, and an input whose both channels are healthy and were 0 together since
its fault loses DISC (R263, R273, R276); any other press only ends, its length in LASTP. SRST_JAMMED sets JAMMED and
raises 161; SRST_DISCREPANCY raises 160 with input 8 (R274, R275). Any press of the accepted length counts, also while
PARK's wait runs. -/
def Obligations.HealthAndSafetyReset : Prop :=
  -- HEALTH_TOGGLE
  (∀ (s : State),
     s.healthy = true →
     s.tsk.hlthChain < s.gt / 500000 →
     ∃ t : State, exec (.healthToggle) s = .next t ∧
       t.rb TSK_STAT.HLTHON = true ∧
       t.rb TSK_STAT.LEVEL = !s.rb TSK_STAT.LEVEL ∧
       t.tsk.hlthChain = s.gt / 500000 ∧
       RegsBut [TSK_STAT.HLTHON, TSK_STAT.LEVEL] s t ∧
       t = { s with regs := t.regs, tsk := t.tsk }) ∧
  -- HEALTH_LOSS
  (∀ (s : State),
     s.on = true →
     s.rb TSK_STAT.HLTHON = true →
     s.healthy = false →
     ∃ t : State, exec (.healthLoss) s = .next t ∧
       t.rb TSK_STAT.HLTHON = false ∧
       t.rb TSK_STAT.LEVEL = false ∧
       RegsBut [TSK_STAT.HLTHON, TSK_STAT.LEVEL] s t ∧
       t = { s with regs := t.regs }) ∧
  -- an accepted press
  (∀ (s : State) (p : Nat),
     s.on = true →
     10000 ≤ p →
     p ≤ 500000 →
     s.rb TSK_SRSTSTAT.JAMMED = false →
     s.tsk.pressBad = false →
     s.svc.parkSince = none →
     ∃ t : State, exec (.srstRelease p) s = .next t ∧
       t.rf TSK_SRSTSTAT.ACCEPTS = min (s.rf TSK_SRSTSTAT.ACCEPTS + 1) 32767 ∧
       t.rn TSK_SRSTGT.adr = s.gt % 2 ^ 32 ∧
       t.rf TSK_SRSTSTAT.LASTP = p / 100 ∧
       t.rf TSK_OUTSTAT.RBFAIL = 0 ∧
       t.rdm.srst = true ∧
       (∀ n : Fin 8, (t.rf TSK_INSTAT.DISC).testBit n = ((s.rf TSK_INSTAT.DISC).testBit n && !((s.safeIn n).healthy && (s.safeIn n).zero))) ∧
       (∀ n : Fin 8, (t.safeIn n).srst = (s.safeIn n).healthy) ∧
       t.rf TSK_INSTAT2.SRSTLVL = 0 ∧
       t.tly = s.tly ∧
       RegsBut [whole TSK_SRSTGT.adr, whole TSK_SRSTSTAT.adr, TSK_OUTSTAT.RBFAIL, TSK_INSTAT.DISC, TSK_INSTAT.DEMAND, TSK_INSTAT2.WAITRST, TSK_INSTAT2.SRSTLVL, TSK_OUTSTAT.ON, TSK_OUTSTAT.RB] s t ∧
       t = { s with regs := t.regs, tsk := t.tsk, rdm := t.rdm }) ∧
  -- a press that is not accepted
  (∀ (s : State) (p : Nat),
     s.on = true →
     (p < 10000 ∨ 500000 < p ∨ s.rb TSK_SRSTSTAT.JAMMED = true ∨ s.tsk.pressBad = true) →
     ∃ t : State, exec (.srstRelease p) s = .next t ∧
       t.rf TSK_SRSTSTAT.LASTP = min (p / 100) 65535 ∧
       t.rf TSK_SRSTSTAT.JAMMED = 0 ∧
       t.rf TSK_INSTAT2.SRSTLVL = 0 ∧
       t.tsk.pressBad = false ∧
       RegsBut [TSK_SRSTSTAT.LASTP, TSK_SRSTSTAT.JAMMED, TSK_INSTAT2.SRSTLVL] s t ∧
       t = { s with regs := t.regs, tsk := t.tsk }) ∧
  -- SRST_JAMMED
  (∀ (s : State),
     s.on = true →
     s.rb TSK_SRSTSTAT.JAMMED = false →
     ∃ t : State, exec (.srstJammed) s = .next t ∧
       t.rf TSK_SRSTSTAT.JAMMED = 1 ∧
       t.rf TSK_INSTAT2.SRSTLVL ≠ 0 ∧
       Raised s t 161 8 ∧
       RegsBut [TSK_SRSTSTAT.JAMMED, TSK_INSTAT2.SRSTLVL] s t ∧
       t = { s with regs := t.regs, tly := t.tly, free := t.free }) ∧
  -- SRST_DISCREPANCY
  (∀ (s : State),
     s.on = true →
     s.tsk.pressBad = false →
     ∃ t : State, exec (.srstDiscrepancy) s = .next t ∧
       t.tsk.pressBad = true ∧
       t.rf TSK_DISCINFO.INPUT = 8 ∧
       t.rf TSK_DISCINFO.COUNT = min (s.rf TSK_DISCINFO.COUNT + 1) 65535 ∧
       Raised s t 160 8 ∧
       RegsBut [TSK_DISCINFO.INPUT, TSK_DISCINFO.COUNT, TSK_INSTAT2.SRSTLVL] s t ∧
       t = { s with regs := t.regs, tly := t.tly, free := t.free, tsk := t.tsk }) ∧
  -- any accepted press
  (∀ (s : State) (p : Nat),
     s.on = true →
     10000 ≤ p →
     p ≤ 500000 →
     s.rb TSK_SRSTSTAT.JAMMED = false →
     s.tsk.pressBad = false →
     ∃ t : State, exec (.srstRelease p) s = .next t ∧
       t.rf TSK_SRSTSTAT.ACCEPTS = min (s.rf TSK_SRSTSTAT.ACCEPTS + 1) 32767 ∧
       t.rn TSK_SRSTGT.adr = s.gt % 2 ^ 32 ∧
       t.rf TSK_SRSTSTAT.LASTP = p / 100 ∧
       t.rdm.srst = true ∧
       t.mem = s.mem)

/-- POWER_LOSS and VLANE_OVERVOLTAGE: the lane is in OFF with PREV its state before, GT 0, and RSTSRC 0; the power hold
lasts until POWER_VALID (R446, R447). THERMAL_SHUTDOWN and RSTN_LOW: OFF, with CAUSE 2 and 3 and COUNT one more, held
until cooled, and until 50 µs after the release (R451, R454); a coinciding raise that resets the lane is the cause
recorded; VIO1 out of range holds a reset too (R446). Flash, OTP and the waiting commands are kept; registers take
their reset values, every Tailstock output is off and the bridges are down (R455). A cause during a reset extends it
and its own cause is kept, but a power cause replaces it (R455). What a reset leaves of a record that is being written
is a free value (log entry 24), and that VIO1 holds a reset of any cause is the model's reading (log entry 44).
RESET_END, once no hold is left: BOOT, with the first heartbeat (R456). -/
def Obligations.ResetCauses : Prop :=
  -- power loss
  (∀ (s : State),
     s.st ≠ stOff →
     s.sec.proc = none →
     s.sec.recAt = none →
     ∃ t : State, exec (.powerLoss) s = .next t ∧
       t.rb TLY_EFLSTAT.DRIVE = false ∧
       t.st = stOff ∧
       t.rf LANE_STATE.PREV = s.st ∧
       t.rn PMU_RSTSRC.adr = 0 ∧
       t.pmu.holdPower = true ∧
       t.gt = 0 ∧
       t.rf TSK_OUTSTAT.ON = 0 ∧
       t.rf TLY_RSTCAUSE.POR = 1 ∧
       t.flash = s.flash ∧
       t.otp = s.otp ∧
       t.pending = s.pending ∧
       t.outbox = s.outbox ∧
       t.now = s.now) ∧
  -- VLANE overvoltage
  (∀ (s : State),
     s.st ≠ stOff →
     s.sec.proc = none →
     s.sec.recAt = none →
     ∃ t : State, exec (.vlaneOvervoltage) s = .next t ∧
       t.st = stOff ∧
       t.rf LANE_STATE.PREV = s.st ∧
       t.rn PMU_RSTSRC.adr = 0 ∧
       t.pmu.holdPower = true ∧
       t.gt = 0 ∧
       t.rf TSK_OUTSTAT.ON = 0 ∧
       t.flash = s.flash ∧
       t.otp = s.otp ∧
       t.pending = s.pending ∧
       t.outbox = s.outbox ∧
       t.now = s.now) ∧
  -- power loss during a reset
  (∀ (s : State),
     s.st = stOff →
     ∃ t : State, exec (.powerLoss) s = .next t ∧
       t.st = stOff ∧
       t.rn PMU_RSTSRC.adr = 0 ∧
       t.pmu.holdPower = true ∧
       t.rf LANE_STATE.PREV = s.rf LANE_STATE.PREV) ∧
  -- power valid
  (∀ (s : State),
     s.st = stOff →
     s.pmu.holdPower = true →
     ∃ t : State, exec (.powerValid) s = .next t ∧
       t.pmu = { s.pmu with holdPower := false, vlaneLost := false, validAt := (if s.pmu.vlaneLost then s.now else s.pmu.validAt), endAt := (if s.pmu.vlaneLost then max s.pmu.endAt (s.now + 100000) else s.pmu.endAt) } ∧
       t.rb TLY_EFLSTAT.DRIVE = true ∧
       RegsBut [TLY_EFLSTAT.DRIVE] s t ∧
       t.tly = (if s.rb TLY_EFLSTAT.DRIVE then s.tly else { s.tly with eflSince := s.now }) ∧
       t = { s with pmu := t.pmu, regs := t.regs, tly := t.tly }) ∧
  -- thermal shutdown
  (∀ (s : State),
     s.st ≠ stOff →
     s.sec.proc = none →
     s.sec.recAt = none →
     s.laneRaise = none →
     ∃ t : State, exec (.thermalShutdown false) s = .next t ∧
       t.st = stOff ∧
       t.rf LANE_STATE.PREV = s.st ∧
       t.rf PMU_RSTSRC.CAUSE = 2 ∧
       t.rf PMU_RSTSRC.COUNT = min (s.rf PMU_RSTSRC.COUNT + 1) 65535 ∧
       t.gt = 0 ∧
       t.pmu.endAt = s.pmu.endAt ∧
       t.rf TSK_OUTSTAT.ON = 0 ∧
       t.rf LANE_PEERS.BRIDGE_UP = 0 ∧
       t.tly.raises = [] ∧
       t.spn.entries = [] ∧
       t.sec = { slot := (s.activeRec.map (fun a => a.target % 2)).getD 0 } ∧
       t.rf LANE_PROFILE.ACTIVE = s.profileReset ∧
       RegsBut [whole PMU_RSTSRC.adr, whole TLY_RSTCAUSE.adr, whole TLY_RSTINFO.adr, whole TLY_RSTGT.adr, whole LANE_STATE.adr, LANE_PROFILE.ACTIVE, whole NCH_CHECKLO.adr, whole NCH_CHECKHI.adr] State.reset t ∧
       t.flash = s.flash ∧
       t.otp = s.otp ∧
       t.pending = s.pending ∧
       t.outbox = s.outbox ∧
       t.now = s.now ∧
       t.pmu.holdTherm = true) ∧
  -- a cause that coincides with a raise whose reaction is LANE: the lower cause is recorded
  (∀ (s : State) (x : Raise),
     s.st ≠ stOff →
     s.laneRaise = some x →
     ∃ t : State, exec (.thermalShutdown false) s = .next t ∧
       t.st = stOff ∧
       t.rf LANE_STATE.PREV = s.st ∧
       t.rf PMU_RSTSRC.CAUSE = 1 ∧
       t.rf PMU_RSTSRC.COUNT = min (s.rf PMU_RSTSRC.COUNT + 1) 65535 ∧
       t.rn TLY_RSTCAUSE.adr = x.src % 2 ^ 32 ∧
       t.rn TLY_RSTINFO.adr = x.detail % 2 ^ 32 ∧
       t.rn TLY_RSTGT.adr = x.gt % 2 ^ 32 ∧
       t.pmu.holdTherm = true ∧
       t.pmu.endAt = max s.pmu.endAt (s.now + 50000) ∧
       t.otp = s.otp ∧
       t.pending = s.pending) ∧
  -- a cause while a record of a procedure is being written (R421)
  (∀ (s : State) (p : Proc),
     s.st ≠ stOff →
     s.sec.proc = some p →
     s.sec.recAt = none →
     s.laneRaise = none →
     ∃ t : State, exec (.thermalShutdown false) s = .next t ∧
       t.st = stOff ∧
       t.rf PMU_RSTSRC.CAUSE = 2 ∧
       t.flash.par = s.flash.par ∧
       t.flash.fw = s.flash.fw ∧
       s.flash.log <+: t.flash.log ∧
       t.flash.log.length ≤ s.flash.log.length + 1 ∧
       (¬(p.kind = 1 ∧ p.step = 10) → ¬(p.kind = 2 ∧ p.step = 3) → t.flash.log = s.flash.log ∧ t.otp = s.otp) ∧
       (s.flash.journal.length < 2048 → t.flash.journal.take s.flash.journal.length = s.flash.journal ∧ t.flash.journal.length ≤ s.flash.journal.length + 1) ∧
       t.sec.proc = none) ∧
  -- cooled
  (∀ (s : State),
     ∃ t : State, exec (.thermalShutdown true) s = .next t ∧
       t = { s with pmu := { s.pmu with holdTherm := false } }) ∧
  -- x-RSTN low
  (∀ (s : State),
     s.st ≠ stOff →
     s.sec.proc = none →
     s.sec.recAt = none →
     s.laneRaise = none →
     ∃ t : State, exec (.rstnLow false) s = .next t ∧
       t.st = stOff ∧
       t.rf LANE_STATE.PREV = s.st ∧
       t.rf PMU_RSTSRC.CAUSE = 3 ∧
       t.rf PMU_RSTSRC.COUNT = min (s.rf PMU_RSTSRC.COUNT + 1) 65535 ∧
       t.gt = 0 ∧
       t.pmu.endAt = s.pmu.endAt ∧
       t.rf TSK_OUTSTAT.ON = 0 ∧
       t.rf LANE_PEERS.BRIDGE_UP = 0 ∧
       t.tly.raises = [] ∧
       t.spn.entries = [] ∧
       t.sec = { slot := (s.activeRec.map (fun a => a.target % 2)).getD 0 } ∧
       t.rf LANE_PROFILE.ACTIVE = s.profileReset ∧
       RegsBut [whole PMU_RSTSRC.adr, whole TLY_RSTCAUSE.adr, whole TLY_RSTINFO.adr, whole TLY_RSTGT.adr, whole LANE_STATE.adr, LANE_PROFILE.ACTIVE, whole NCH_CHECKLO.adr, whole NCH_CHECKHI.adr] State.reset t ∧
       t.flash = s.flash ∧
       t.otp = s.otp ∧
       t.pending = s.pending ∧
       t.outbox = s.outbox ∧
       t.now = s.now ∧
       t.pmu.holdRstn = true) ∧
  -- x-RSTN released
  (∀ (s : State),
     s.pmu.holdRstn = true →
     ∃ t : State, exec (.rstnLow true) s = .next t ∧
       t.pmu.holdRstn = false ∧
       t.pmu.endAt = max s.pmu.endAt (s.now + 50000) ∧
       t = { s with pmu := t.pmu }) ∧
  -- a later cause during a reset
  (∀ (s : State),
     s.st = stOff →
     s.pmu.beganAt < s.now →
     ∃ t : State, exec (.thermalShutdown false) s = .next t ∧
       t.rn PMU_RSTSRC.adr = s.rn PMU_RSTSRC.adr ∧
       t.pmu = { s.pmu with holdTherm := true } ∧
       RegsBut [] s t) ∧
  -- the reset ends
  (∀ (s : State),
     s.st = stOff →
     s.pmu.holdPower = false →
     s.pmu.holdTherm = false →
     s.pmu.holdRstn = false →
     s.pmu.vioBad.testBit 0 = false →
     s.pmu.endAt ≤ s.now →
     s.rf AST_INJCTL.ARM = 0 →
     s.ast.held = [] →
     ∃ t : State, exec (.resetEnd) s = .next t ∧
       t.st = stBoot ∧
       t.rf LANE_STATE.PREV = stOff ∧
       t.gt = 0 ∧
       t.pmu.releasedAt = s.now ∧
       t.lane.hbLast = s.now ∧
       t.outbox.length = s.outbox.length + s.peersOf.length ∧
       RegsBut [whole LANE_STATE.adr, PMU_STAT.VIOOK] s t ∧
       t.flash = s.flash) ∧
  -- a reset that is still held
  (∀ (s : State),
     s.st = stOff →
     (s.pmu.holdPower = true ∨ s.pmu.holdTherm = true ∨ s.pmu.holdRstn = true ∨ s.pmu.vioBad.testBit 0 = true ∨ s.now < s.pmu.endAt) →
     ∃ t : State, exec (.resetEnd) s = .next t ∧
       t = s) ∧
  -- VIO1 in range again during a reset: it holds the reset for 1 ms more (R446)
  (∀ (s : State) (b : Fin 8),
     s.st = stOff →
     s.pmu.vioBad.testBit 0 = true →
     b.val.testBit 0 = false →
     ∃ t : State, exec (.pmuVioFault b) s = .next t ∧
       t.pmu = { s.pmu with vioBad := b, endAt := max s.pmu.endAt (s.now + 1000000) } ∧
       t = { s with pmu := t.pmu })

/-- PMU_VLANE_UV, PMU_VLANE_OV and PMU_TEMP_HIGH set their PMU_STAT bit and assert sources 0, 1 and 3 while the condition
lasts (R448, R451). PMU_RAIL_FAULT, LANE_OSC_FAULT clear RAILOK and OSCOK and raise 2 and 5 (R449, R452).
PMU_VIO_FAULT asserts 9 with the monitored banks in use that are out of range (R450); with VIO1 out of range x-RSTN
reads 0 and the lane resets with cause 3, the model's reading (log entry 56). PMU_WDKICK from INTEGRATE on: the due
key within WDMIN to WDTO is accepted; a late kick, an early one and a wrong key each raise 4, with the lowest cause
that applies (R293), a kick before INTEGRATE changes nothing (the model's reading, log entry 44); another requester's
write is discarded. WATCHDOG_TIMEOUT raises 4, 500 ms after reset release without INTEGRATE, or WDTO after the last
kick (R453). -/
def Obligations.MonitorsAndWatchdog : Prop :=
  -- VLANE below UVTH arises
  (∀ (s : State),
     s.on = true →
     s.asserted 0 = false →
     ∃ t : State, exec (.pmuVlaneUv true) s = .next t ∧
       t.rb PMU_STAT.UV = true ∧
       Raised s t 0 0 ∧
       t.asserted 0 = true ∧
       RegsBut [PMU_STAT.UV] s t ∧
       t = { s with regs := t.regs, tly := t.tly }) ∧
  -- VLANE below UVTH stands already
  (∀ (s : State),
     s.on = true →
     s.asserted 0 = true →
     ∃ t : State, exec (.pmuVlaneUv true) s = .next t ∧
       t.rb PMU_STAT.UV = true ∧
       t.tly = s.tly ∧
       RegsBut [PMU_STAT.UV] s t) ∧
  -- VLANE below UVTH ends
  (∀ (s : State),
     s.on = true →
     ∃ t : State, exec (.pmuVlaneUv false) s = .next t ∧
       t.rb PMU_STAT.UV = false ∧
       t.asserted 0 = false ∧
       t.tly.raises = s.tly.raises ∧
       RegsBut [PMU_STAT.UV] s t) ∧
  -- VLANE above OVTH arises
  (∀ (s : State),
     s.on = true →
     s.asserted 1 = false →
     ∃ t : State, exec (.pmuVlaneOv true) s = .next t ∧
       t.rb PMU_STAT.OV = true ∧
       Raised s t 1 0 ∧
       t.asserted 1 = true ∧
       RegsBut [PMU_STAT.OV] s t ∧
       t = { s with regs := t.regs, tly := t.tly }) ∧
  -- VLANE above OVTH stands already
  (∀ (s : State),
     s.on = true →
     s.asserted 1 = true →
     ∃ t : State, exec (.pmuVlaneOv true) s = .next t ∧
       t.rb PMU_STAT.OV = true ∧
       t.tly = s.tly ∧
       RegsBut [PMU_STAT.OV] s t) ∧
  -- VLANE above OVTH ends
  (∀ (s : State),
     s.on = true →
     ∃ t : State, exec (.pmuVlaneOv false) s = .next t ∧
       t.rb PMU_STAT.OV = false ∧
       t.asserted 1 = false ∧
       t.tly.raises = s.tly.raises ∧
       RegsBut [PMU_STAT.OV] s t) ∧
  -- the junction at or above TJWARN
  (∀ (s : State) (x : Int),
     s.on = true →
     s.asserted 3 = false →
     (s.rf PMU_MONCFG.TJWARN : Int) ≤ x →
     ∃ t : State, exec (.pmuTempHigh x) s = .next t ∧
       t.rb PMU_STAT.TWARN = true ∧
       Raised s t 3 (ofSigned 8 x) ∧
       t.asserted 3 = true ∧
       RegsBut [PMU_STAT.TWARN] s t) ∧
  -- the junction below TJWARN
  (∀ (s : State) (x : Int),
     s.on = true →
     x < (s.rf PMU_MONCFG.TJWARN : Int) →
     ∃ t : State, exec (.pmuTempHigh x) s = .next t ∧
       t.rb PMU_STAT.TWARN = false ∧
       t.asserted 3 = false ∧
       t.tly.raises = s.tly.raises ∧
       RegsBut [PMU_STAT.TWARN] s t) ∧
  -- a rail fault
  (∀ (s : State) (k : Fin 4),
     s.on = true →
     ∃ t : State, exec (.pmuRailFault k) s = .next t ∧
       t.rb PMU_STAT.RAILOK = false ∧
       Raised s t 2 k ∧
       RegsBut [PMU_STAT.RAILOK] s t ∧
       t = { s with regs := t.regs, tly := t.tly, pmu := { s.pmu with endAt := max s.pmu.endAt (s.now + 100000) } }) ∧
  -- an oscillator fault: of the crystal, or of a rate at its limit for 100 corrections
  (∀ (s : State) (x : Bool),
     s.on = true →
     (x = true ∨ s.spn.pinned = 100) →
     ∃ t : State, exec (.laneOscFault x) s = .next t ∧
       t.rb PMU_STAT.OSCOK = false ∧
       Raised s t 5 (if x then 1 else 2) ∧
       RegsBut [PMU_STAT.OSCOK] s t ∧
       t.spn = (if x then s.spn else { s.spn with pinned := 0 }) ∧
       t = { s with regs := t.regs, tly := t.tly, spn := t.spn }) ∧
  -- no oscillator fault before that
  (∀ (s : State),
     s.spn.pinned < 100 →
     ∃ t : State, exec (.laneOscFault false) s = .next t ∧
       t = s) ∧
  -- the VIO banks as they are now, VIO1 in range
  (∀ (s : State) (b : Fin 8),
     s.on = true →
     b.val.testBit 0 = false →
     ∃ t : State, exec (.pmuVioFault b) s = .next t ∧
       t.pmu.vioBad = b.val ∧
       t.rf PMU_STAT.VIOOK = clearBits 3 s.vioMon b.val ∧
       t.asserted 9 = decide (b.val &&& (s.rf PMU_VIOCFG.USED ||| 1) &&& s.vioMon ≠ 0)) ∧
  -- monitored VIO banks out of range, no feedback sample due and no trip input in use
  (∀ (s : State) (b : Fin 8),
     s.on = true →
     (∀ n : Fin 16, s.now / 10 ≤ (s.fb n).nextSample) →
     (∀ k : Fin 4, s.rb (PWM_TRIPCFG.EN k) = false) →
     s.rf PWM_TRIPSTAT.LEVEL = 0 →
     s.asserted 9 = false →
     b.val.testBit 0 = false →
     b.val &&& (s.rf PMU_VIOCFG.USED ||| 1) &&& s.vioMon ≠ 0 →
     ∃ t : State, exec (.pmuVioFault b) s = .next t ∧
       Raised s t 9 (b.val &&& (s.rf PMU_VIOCFG.USED ||| 1) &&& s.vioMon) ∧
       RegsBut [PMU_STAT.VIOOK, TLY_EFLSTAT.PAD] s t ∧
       t.rb TLY_EFLSTAT.PAD = !s.rb TLY_EFLSTAT.DRIVE ∧
       t = { s with regs := t.regs, tly := t.tly, pmu := { s.pmu with vioBad := b, endAt := t.pmu.endAt } }) ∧
  -- VIO1 out of range: x-RSTN reads 0, and the lane resets (log entry 56)
  (∀ (s : State) (b : Fin 8),
     s.on = true →
     b.val.testBit 0 = true →
     s.sec.proc = none →
     s.sec.recAt = none →
     s.laneRaise = none →
     ∃ t : State, exec (.pmuVioFault b) s = .next t ∧
       t.st = stOff ∧
       t.rf LANE_STATE.PREV = s.st ∧
       t.rf PMU_RSTSRC.CAUSE = 3 ∧
       t.rf PMU_RSTSRC.COUNT = min (s.rf PMU_RSTSRC.COUNT + 1) 65535 ∧
       t.pmu.vioBad = b.val ∧
       t.gt = 0 ∧
       t.flash = s.flash ∧
       t.otp = s.otp) ∧
  -- VIO banks in range, no feedback sample due and no trip input in use
  (∀ (s : State),
     s.on = true →
     (∀ n : Fin 16, s.now / 10 ≤ (s.fb n).nextSample) →
     (∀ k : Fin 4, s.rb (PWM_TRIPCFG.EN k) = false) →
     s.rf PWM_TRIPSTAT.LEVEL = 0 →
     ∃ t : State, exec (.pmuVioFault 0) s = .next t ∧
       t.pmu.vioBad = 0 ∧
       t.asserted 9 = false ∧
       t.tly.raises = s.tly.raises ∧
       t.rb TLY_EFLSTAT.PAD = !s.rb TLY_EFLSTAT.DRIVE ∧
       RegsBut [PMU_STAT.VIOOK, TLY_EFLSTAT.PAD] s t) ∧
  -- an accepted kick
  (∀ (s : State) (v : Word),
     s.on = true →
     s.lane.integrated = true →
     v.toNat % 256 = (if s.pmu.nextA5 then 0xA5 else 0x5A) →
     s.pmu.kickAt + 1000000 * s.rf PMU_WDCFG.WDMIN ≤ s.now →
     s.now ≤ s.pmu.kickAt + 1000000 * s.rf PMU_WDCFG.WDTO →
     ∃ t : State, exec (.pmuWdkick 1 v) s = .next t ∧
       t.pmu = { s.pmu with kickAt := s.now, nextA5 := !s.pmu.nextA5 } ∧
       t = { s with pmu := t.pmu }) ∧
  -- a wrong, an early and a late kick
  (∀ (s : State) (v : Word) (c : Nat),
     s.on = true →
     s.lane.integrated = true →
     s.pmu.kickAt ≤ s.now →
     ((c = 4 ∧ v.toNat % 256 ≠ (if s.pmu.nextA5 then 0xA5 else 0x5A) ∧ s.pmu.kickAt + 1000000 * s.rf PMU_WDCFG.WDMIN ≤ s.now ∧ s.now ≤ s.pmu.kickAt + 1000000 * s.rf PMU_WDCFG.WDTO) ∨ (c = 3 ∧ s.now < s.pmu.kickAt + 1000000 * s.rf PMU_WDCFG.WDMIN ∧ s.now ≤ s.pmu.kickAt + 1000000 * s.rf PMU_WDCFG.WDTO + 100000) ∨ (c = 2 ∧ s.pmu.kickAt + 1000000 * s.rf PMU_WDCFG.WDTO + 100000 < s.now)) →
     ∃ t : State, exec (.pmuWdkick 1 v) s = .next t ∧
       Raised s t 4 c ∧
       t = { s with tly := t.tly }) ∧
  -- a kick before INTEGRATE
  (∀ (s : State) (v : Word),
     s.on = true →
     s.lane.integrated = false →
     ∃ t : State, exec (.pmuWdkick 1 v) s = .next t ∧
       t = s) ∧
  -- a kick by another requester
  (∀ (s : State) (req : Fin 32) (v : Word),
     s.on = true →
     req ≠ 1 →
     ∃ t : State, exec (.pmuWdkick req v) s = .next t ∧
       Discarded s t PMU_WDKICK.adr req 2) ∧
  -- no kick in time
  (∀ (s : State),
     s.on = true →
     s.lane.integrated = true →
     s.pmu.wdStopped = false →
     s.pmu.kickAt + 1000000 * s.rf PMU_WDCFG.WDTO ≤ s.now →
     ∃ t : State, exec (.watchdogTimeout) s = .next t ∧
       Raised s t 4 2 ∧
       t.pmu.wdStopped = true ∧
       t = { s with tly := t.tly, pmu := t.pmu }) ∧
  -- no INTEGRATE within 500 ms
  (∀ (s : State),
     s.on = true →
     s.lane.integrated = false →
     s.pmu.wdStopped = false →
     s.pmu.releasedAt + 500000000 ≤ s.now →
     ∃ t : State, exec (.watchdogTimeout) s = .next t ∧
       Raised s t 4 1 ∧
       t.pmu.wdStopped = true ∧
       t = { s with tly := t.tly, pmu := t.pmu })

/-- BOOT_COMPLETE: the first bank whose Headstock image verifies is started and the lane is in SELFTEST, with FALLBACK
where it is the other one; with neither the lane stays in BOOT, its watchdog stopped, and 224 is raised, once for both
(the model's reading, log entry 41; R417, R453). SELFTEST_COMPLETE: SRAM and every TCM are 0; with every step passed
and no bad profile the lane is in INTEGRATE, the grants loaded and the watchdog running; a failed step, or a profile
it does not implement, with 226, holds it in SELFTEST (R38, R418, R457). NETWAIT_EXPIRY judges readiness,
PEER_WAIT_TIMEOUT leaves a peer out (R458, R459). SERVICE_ENTRY at least 1 ms after the lane and its awaited peers
were ready: SERVICE (R459). Each transition writes PREV (R456). BOOT_COMPLETE leads to SELFTEST with Headstock code
that verifies, whatever the journal holds. -/
def Obligations.StartUp : Prop :=
  -- the first bank verifies
  (∀ (s : State),
     s.st = stBoot →
     s.sec.hsOk = false →
     s.pmu.wdStopped = false →
     s.flash.journal = [] →
     s.verifyImage 0 0 = 0 →
     s.otp.used0 = 0 →
     s.sec.set = false →
     ∃ t : State, exec (.bootComplete) s = .next t ∧
       t.st = stSelftest ∧
       t.rf LANE_STATE.PREV = stBoot ∧
       t.sec.hsOk = true ∧
       t.sec.bank = 0 ∧
       t.rf SEC_BOOT.BANK = 0 ∧
       t.rb SEC_BOOT.FALLBACK = false ∧
       t.rf LANE_REV.FWREV = s.fwRev 0 % 65536 ∧
       t.rf LANE_PROFILE.MAXPROF = s.fwMaxProf 0 ∧
       t.tly = s.tly ∧
       t.sec.set = false) ∧
  -- the other bank verifies
  (∀ (s : State),
     s.st = stBoot →
     s.sec.hsOk = false →
     s.pmu.wdStopped = false →
     s.flash.journal = [] →
     s.verifyImage 0 0 ≠ 0 →
     s.verifyImage 1 0 = 0 →
     ∃ t : State, exec (.bootComplete) s = .next t ∧
       t.st = stSelftest ∧
       t.rf LANE_STATE.PREV = stBoot ∧
       t.sec.hsOk = true ∧
       t.sec.bank = 1 ∧
       t.rf SEC_BOOT.BANK = 1 ∧
       t.rb SEC_BOOT.FALLBACK = true ∧
       Raised s t 224 (0 + s.verifyImage 0 0 * 256)) ∧
  -- neither verifies
  (∀ (s : State),
     s.st = stBoot →
     s.sec.hsOk = false →
     s.pmu.wdStopped = false →
     s.flash.journal = [] →
     s.verifyImage 0 0 ≠ 0 →
     s.verifyImage 1 0 ≠ 0 →
     ∃ t : State, exec (.bootComplete) s = .next t ∧
       t.st = stBoot ∧
       t.sec.hsOk = false ∧
       t.pmu.wdStopped = true ∧
       Raised s t 224 (0 + s.verifyImage 0 0 * 256) ∧
       t.flash = s.flash) ∧
  -- self-test passed
  (∀ (s : State),
     s.st = stSelftest →
     s.rb PMU_STSTAT.DONE = false →
     s.cmpGood = true →
     s.profileBad = false →
     ∃ t : State, exec (.selftestComplete ⟨true, true, true, true, true, true, true, true⟩) s = .next t ∧
       t.st = stIntegrate ∧
       t.rf LANE_STATE.PREV = stSelftest ∧
       t.rb PMU_STSTAT.DONE = true ∧
       t.rb PMU_STAT.WDRUN = true ∧
       t.lane.integrated = true ∧
       t.lane.integAt = s.now ∧
       t.pmu.kickAt = s.now) ∧
  -- self-test passed, no application image
  (∀ (s : State),
     s.st = stSelftest →
     s.rb PMU_STSTAT.DONE = false →
     s.cmpGood = true →
     s.profileBad = false →
     s.verifyImage s.sec.bank 1 ≠ 0 →
     s.lane.moves = [] →
     ∃ t : State, exec (.selftestComplete ⟨true, true, true, true, true, true, true, true⟩) s = .next t ∧
       t.st = stIntegrate ∧
       t.rf LANE_STATE.PREV = stSelftest ∧
       t.mem = [] ∧
       t.tcm = [] ∧
       t.rb PMU_STSTAT.DONE = true ∧
       t.rb PMU_STAT.WDRUN = true ∧
       t.lane.integrated = true ∧
       t.lane.integAt = s.now ∧
       t.pmu.kickAt = s.now ∧
       s.raiseOf 224 (1 + s.verifyImage s.sec.bank 1 * 256) ∈ t.tly.raises ∧
       t.rb SEC_BOOT.APPOK = s.rb SEC_BOOT.APPOK ∧
       (∀ u : Fin 63, u.val ∉ s.svcHeld → t.owner u = s.lane.grantMap.getD u 1 % 32)) ∧
  -- a failed step
  (∀ (s : State) (e : SelfTest),
     s.st = stSelftest →
     s.rb PMU_STSTAT.DONE = false →
     s.profileBad = false →
     (b2n (!e.tlySelf) + b2n (!e.sram) * 2 + b2n (!e.tcm) * 4 + b2n (!e.ckbuf) * 8 + b2n (!e.delay) * 16 + b2n (!(e.cmp && s.cmpGood)) * 32 + b2n (!e.tskrb) * 64 + b2n (!e.sampler) * 128) ≠ 0 →
     ∃ t : State, exec (.selftestComplete e) s = .next t ∧
       t.st = stSelftest ∧
       t.mem = [] ∧
       t.tcm = [] ∧
       t.rn PMU_STSTAT.adr = 2 ^ 31 + (b2n (!e.tlySelf) + b2n (!e.sram) * 2 + b2n (!e.tcm) * 4 + b2n (!e.ckbuf) * 8 + b2n (!e.delay) * 16 + b2n (!(e.cmp && s.cmpGood)) * 32 + b2n (!e.tskrb) * 64 + b2n (!e.sampler) * 128) ∧
       Sent s t (s.selfPulses.map (fun k => .tskPulse k)) ∧
       t.pmu.wdStopped = true ∧
       t.tly = s.tly ∧
       RegsBut [whole PMU_STSTAT.adr] s t) ∧
  -- a profile that the lane does not implement
  (∀ (s : State),
     s.st = stSelftest →
     s.rb PMU_STSTAT.DONE = false →
     s.cmpGood = true →
     s.profileBad = true →
     ∃ t : State, exec (.selftestComplete ⟨true, true, true, true, true, true, true, true⟩) s = .next t ∧
       t.st = stSelftest ∧
       Raised s t 226 1 ∧
       t.rn PMU_STSTAT.adr = 2 ^ 31 + 256 ∧
       t.pmu.wdStopped = true) ∧
  -- NETWAIT
  (∀ (s : State),
     s.st = stIntegrate →
     s.lane.integAt + 1000000 * s.rf PMU_STARTCFG.NETWAIT ≤ s.now →
     ∃ t : State, exec (.netwaitExpiry) s = .next t ∧
       (t.lane.readyAt.isSome = (s.readyBase && !s.serveBarred)) ∧
       (s.lane.readyAt.isSome = true → s.readyBase = true → s.serveBarred = false → t.lane.readyAt = s.lane.readyAt) ∧
       t = { s with lane := t.lane }) ∧
  -- PEERWAIT
  (∀ (s : State) (k : Fin 3) (t0 : Nat),
     s.st = stIntegrate →
     s.isPeer k = true →
     (s.peer k).readyAt = none →
     s.lane.readyAt = some t0 →
     t0 + 1000000 * s.rf PMU_STARTCFG.PEERWAIT ≤ s.now →
     ∃ t : State, exec (.peerWaitTimeout k) s = .next t ∧
       t = s.setPeer k { s.peer k with leftOut := true } ∧
       t.awaited k = false) ∧
  -- entry to SERVICE
  (∀ (s : State) (t0 : Nat) (f : Nat),
     s.st = stIntegrate →
     s.sec.pend = none →
     s.readyBase = true →
     s.serveBarred = false →
     s.lane.readyAt = some t0 →
     s.entryFrom = some f →
     f + 1000000 + s.gt % 1000000 ≤ s.now →
     ∃ t : State, exec (.serviceEntry) s = .next t ∧
       t.st = stService ∧
       t.rf LANE_STATE.PREV = stIntegrate ∧
       t.lane.serviceGt = s.gt / 1000000 * 1000000 ∧
       s.outbox <+: t.outbox) ∧
  -- a lane that is not ready stays
  (∀ (s : State),
     s.st = stIntegrate →
     s.readyBase = false →
     ∃ t : State, exec (.serviceEntry) s = .next t ∧
       t.st = stIntegrate ∧
       t.lane.readyAt = none ∧
       RegsBut [] s t) ∧
  -- BOOT_COMPLETE whatever the journal
  (∀ (s : State),
     s.st = stBoot →
     s.sec.hsOk = false →
     s.pmu.wdStopped = false →
     s.verifyImage 0 0 = 0 →
     s.verifyImage 1 0 = 0 →
     ∃ t : State, exec (.bootComplete) s = .next t ∧
       t.st = stSelftest ∧
       t.rf LANE_STATE.PREV = stBoot ∧
       t.sec.hsOk = true)

/-- For every command c, state s and queue l: step of s with c waiting in front of l is exec of c on s with l waiting
(MAILBOX and bus commands arrive one at a time; log entry 3). -/
def Obligations.StepRunsFront : Prop :=
  -- the front runs
  (∀ (c : Instr) (s : State) (l : List Instr), step { s with pending := c :: l } = exec c { s with pending := l })

/-- With no command waiting a step is a tick of the lane clock: elapsed time grows by 5 ns. In every lane state after OFF,
GT with its 32-bit fraction advances by 5 ns adjusted by the rate correction and the slew, modulo 2^64 ns, so that GT
advances by 4, 5 or 6 ns while the corrections lie within R49's limits and GT does not wrap; where no entry of a newly
activated set waits for its words, no feedback channel has a sample that does something and no gate link holds a
frame, only time, the network offset, the star's next chain boundary where network time lies behind it, readiness,
health and what the services watch change, and nothing is sent. In OFF, GT stands. That the tick stands on the empty
queue is the model's choice (log entry 32). -/
def Obligations.TickAdvances : Prop :=
  -- a tick
  (∀ s : State, s.pending = [] → s.on = true → ClockOk s → s.gt < 2 ^ 64 →
     ∃ t : State, step s = .next t ∧ t.now = s.now + 5 ∧
    ((t.gt * 2 ^ 32 + t.frac : Nat) : Int) = (((s.gt * 2 ^ 32 + s.frac : Nat) : Int) + 5 * (2 ^ 32 + s.rate + s.slew)) % 2 ^ 96 ∧ t.frac < 2 ^ 32 ∧ t.gt < 2 ^ 64 ∧
    (s.gt + 6 < 2 ^ 64 → t.gt = s.gt + 4 ∨ t.gt = s.gt + 5 ∨ t.gt = s.gt + 6)) ∧
  -- what a tick leaves as it is
  (∀ s : State, s.pending = [] → s.on = true → s.spn.waiting = [] → (∀ n : Fin 16, s.fbBusy n = false) →
     (∀ n ∈ s.glk.ports.map (·.1), (s.port n).queue = [] ∧ (s.port n).relDue = 0 ∧ (s.port n).echoDue = false ∧ (s.port n).syncDue = false) →
     ∃ t : State, step s = .next t ∧ RegsBut [whole ANW_NETOFF.adr] s t ∧
    t = { s with now := t.now, gt := t.gt, frac := t.frac, regs := t.regs, spn := { s.spn with gtLast := s.gt }, anw := t.anw, ast := { s.ast with chain := t.ast.chain }, glk := t.glk, svc := t.svc, tsk := t.tsk, lane := t.lane }) ∧
  -- a tick in OFF
  (∀ s : State, s.pending = [] → s.on = false → ∃ t : State, step s = .next t ∧ t = { s with now := s.now + 5 })

/-- State.reset is lane A of a JV3G in BOOT with GT 0 and no command waiting (log entry 1); RMODE is HALT, every grant
unit is the Headstock's, no bridge is up, no output is on, no pair runs, no queue is enabled, LANE_PROFILE holds
0x0001_0001 (profile 1 in force, MAXPROF 1), RSTCAUSE says power and no source is active; memory lists nothing, the
clock's corrections are 0, the state's code is legal and memory is in its canonical form. -/
def Obligations.ResetState : Prop :=
  -- reset
  (State.reset.pending = [] ∧ State.reset.st = stBoot ∧ State.reset.gt = 0 ∧ State.reset.rmode = rmHalt ∧ (∀ u : Fin 63, State.reset.owner u = 1) ∧
     State.reset.rf LANE_PEERS.BRIDGE_UP = 0 ∧ State.reset.rf TSK_OUTSTAT.ON = 0 ∧ (∀ p : Fin 3, State.reset.pairSt p = pairOff) ∧
     (∀ q : Fin 128, State.reset.rb (QUE_CFG.EN q) = false) ∧ State.reset.rn LANE_PROFILE.adr = 0x00010001 ∧ State.reset.rb TLY_RSTCAUSE.POR = true ∧
     (∀ k : Fin 8, State.reset.rn (TLY_STAT.adr k) = 0) ∧ (∀ n : Fin 16, State.reset.rn (SPN_SLACK.adr n) = 0x7FFFFFFF) ∧
     State.reset.mem = [] ∧ State.reset.tcm = [] ∧ MemOk State.reset ∧ ClockOk State.reset ∧ StateOk State.reset)

/-- For every state there is a next state: every command of the table has its effect, or none, and a tick passes while
none waits. The block has no fault and no refusal. -/
def Obligations.StepNeverStops : Prop :=
  -- a step answers
  (∀ s : State, StepSafe s)

/-- From every state whose SRAM, TCM and checkpoint memories are in their canonical form, whose rate correction, slew and
fraction lie within the limits of R44 and R49, and whose lane state has one of its six codes while no write of the
services that waits names LANE_STATE, each step, whatever command is at the front of the queue, leads to such a state. -/
def Obligations.StepKeepsInvariant : Prop :=
  -- memory
  (∀ s t : State, MemOk s → step s = .next t → MemOk t) ∧
  -- the clock
  (∀ s t : State, ClockOk s → step s = .next t → ClockOk t) ∧
  -- the lane state
  (∀ s t : State, StateOk s → step s = .next t → StateOk t)

/-- From a state in SERVICE with the clock's corrections within their limits and GT not about to wrap (R46: after 584
years), no step, whatever command is at the front, makes GT smaller or moves it by more than a tick's 6 ns, unless a
reset begins. In every state from BOOT to DEBUG a tick makes GT larger. A step that begins a lane reset leaves GT 0. -/
def Obligations.TimeInService : Prop :=
  -- in SERVICE
  (∀ s t : State, ClockOk s → s.gt + 6 < 2 ^ 64 → s.st = stService → step s = .next t → t.st ≠ stOff → s.gt ≤ t.gt ∧ t.gt ≤ s.gt + 6) ∧
  -- GT keeps running
  (∀ s t : State, ClockOk s → StateOk s → s.gt + 6 < 2 ^ 64 → s.on = true → s.pending = [] → step s = .next t → s.gt < t.gt) ∧
  -- a reset
  (∀ s t : State, StateOk s → s.st ≠ stOff → step s = .next t → t.st = stOff → t.gt = 0)

/-- From every legal lane state, with no waiting write of the services that names LANE_STATE (the invariant of the step),
a command either leaves LANE_STATE.STATE as it is, or takes it along a row of Table PMU-2 (any state to OFF, OFF to
BOOT, BOOT to SELFTEST, SELFTEST to INTEGRATE, INTEGRATE to SERVICE and back, and SELFTEST, INTEGRATE or SERVICE to
DEBUG) with PREV the state before. Only RESET_END leaves OFF, only BOOT_COMPLETE leads to SELFTEST, only
SELFTEST_COMPLETE leads from SELFTEST to INTEGRATE, only SERVICE_ENTRY leads to SERVICE and only SEC_DEBUG_ENTER leads
to DEBUG. -/
def Obligations.StateTransitions : Prop :=
  -- transitions
  (∀ (s t : State) (c : Instr), StateOk s → exec c s = .next t → t.st ≠ s.st →
     Allowed s.st t.st ∧ t.rf LANE_STATE.PREV = s.st ∧
    (s.st = stOff → c = .resetEnd) ∧ (t.st = stSelftest → c = .bootComplete) ∧
    (t.st = stIntegrate → s.st = stSelftest → ∃ r, c = .selftestComplete r) ∧ (t.st = stService → c = .serviceEntry) ∧
    (t.st = stDebug → ∃ ch tok, c = .secDebugEnter ch tok))

/-- For every heartbeat whose fields lie in their ranges, a value whose valid flag is false being 0, the 28 bytes of Table
LANE-8 that the lane sends are read by its peer as the same fields (R35). -/
def Obligations.HeartbeatFields : Prop :=
  -- the round trip
  (∀ h : Heartbeat, h.seq < 2 ^ 32 → h.state < 16 → h.profile < 256 → h.rmode < 4 → h.v < 2 ^ 40 → h.pv < 2 ^ 40 → (h.vValid = false → h.v = 0) → (h.pvValid = false → h.pv = 0) →
     h.bytes.length = 28 ∧ heartbeatOf h.bytes = h)

end
end

