-- ==== Sys2Proof/Laws/Maps.lean ====
section
/-! SUPPORT. Laws of the finite maps and of lane memory: what a read returns after a write, and that every write of
memory keeps the canonical form. -/

namespace Sys2Proof.Machine

@[simp] theorem mget_nil {α : Type} (d : α) (i : Nat) : mget d [] i = d := rfl

/-- A read after a write: the value written at its key, the old value elsewhere. -/
theorem mget_mset {α : Type} (d : α) (m : SMap α) (i j : Nat) (v : α) :
    mget d (mset m i v) j = if j = i then v else mget d m j := by
  induction m with
  | nil => simp [mset, mget]
  | cons h t ih =>
    obtain ⟨k, x⟩ := h
    simp only [mset]
    split_ifs with h1 h2 <;> simp only [mget] <;> split_ifs <;> simp_all

@[simp] theorem mget_mset_same {α : Type} (d : α) (m : SMap α) (i : Nat) (v : α) : mget d (mset m i v) i = v := by
  simp [mget_mset]

@[simp] theorem mget_mset_ne {α : Type} (d : α) (m : SMap α) {i j : Nat} (v : α) (h : j ≠ i) :
    mget d (mset m i v) j = mget d m j := by simp [mget_mset, h]

/-- A removed key reads as the default, every other key as before. -/
theorem mget_mdel {α : Type} (d : α) (m : SMap α) (i j : Nat) :
    mget d (mdel m i) j = if j = i then d else mget d m j := by
  induction m with
  | nil => simp [mdel, mget]
  | cons h t ih =>
    obtain ⟨k, x⟩ := h
    simp only [mdel]
    split_ifs with h1 h2 <;> simp_all [mget]

/-- A byte of memory after a write of one byte. -/
theorem memByte_memPut (m : List Host.Cell) (a c : Nat) (b : Byte) :
    memByte (memPut m a b) c = if c = a then b else memByte m c := by
  unfold memByte memPut
  split_ifs with h h2 h2 <;> simp [mget_mdel, h2, h]

/-- A byte outside the bytes written reads as before. -/
theorem memByte_memPuts_of_out (l : List Byte) :
    ∀ (m : List Host.Cell) (a c : Nat), (c < a ∨ a + l.length ≤ c) → memByte (memPuts m a l) c = memByte m c := by
  induction l with
  | nil => intros; rfl
  | cons b t ih =>
    intro m a c h
    simp only [List.length_cons] at h
    rw [memPuts, ih _ _ _ (by omega), memByte_memPut, if_neg (by omega)]

/-- A byte among the bytes written reads as written. -/
theorem memByte_memPuts_of_in (l : List Byte) :
    ∀ (m : List Host.Cell) (a i : Nat) (h : i < l.length), memByte (memPuts m a l) (a + i) = l[i] := by
  induction l with
  | nil => intro _ _ i h; simp at h
  | cons b t ih =>
    intro m a i h
    cases i with
    | zero => rw [memPuts, memByte_memPuts_of_out _ _ _ _ (by omega), memByte_memPut]; simp
    | succ i =>
      have := ih (memPut m a b) (a + 1) i (by simpa using h)
      rw [memPuts, show a + (i + 1) = a + 1 + i by omega, this]; simp

/-- Every key of a memory lies at or above a bound. -/
def Above (b : Nat) (m : List Host.Cell) : Prop := ∀ c ∈ m, b ≤ c.1

theorem wf_cons {a : Nat} {b : Byte} {t : List Host.Cell} :
    Memory.wf ((a, b) :: t) = true ↔ b ≠ 0 ∧ Above (a + 1) t ∧ Memory.wf t = true := by
  induction t generalizing a b with
  | nil => simp [Memory.wf, Above]
  | cons h t ih =>
    obtain ⟨a', b'⟩ := h
    simp only [Memory.wf, Bool.and_eq_true, decide_eq_true_eq, bne_iff_ne, ne_eq]
    rw [ih]
    constructor
    · rintro ⟨⟨h1, h2⟩, h3, h4, h5⟩
      refine ⟨h1, ?_, h3, h4, h5⟩
      intro c hc
      rcases List.mem_cons.1 hc with rfl | hc
      · exact h2
      · have := h4 c hc; omega
    · rintro ⟨h1, h2, h3, h4, h5⟩
      exact ⟨⟨h1, h2 (a', b') (by simp)⟩, h3, h4, h5⟩

theorem above_mset {b i : Nat} {m : List Host.Cell} {v : Byte} (h : Above b m) (hi : b ≤ i) : Above b (mset m i v) := by
  induction m with
  | nil => intro c hc; simp [mset] at hc; subst hc; exact hi
  | cons x t ih =>
    obtain ⟨k, w⟩ := x
    have hk : b ≤ k := h (k, w) (by simp)
    have ht : Above b t := fun c hc => h c (by simp [hc])
    intro c hc
    simp only [mset] at hc
    split_ifs at hc with h1 h2
    · rcases List.mem_cons.1 hc with rfl | hc
      · exact hi
      · exact h c hc
    · rcases List.mem_cons.1 hc with rfl | hc
      · exact hi
      · exact ht c hc
    · rcases List.mem_cons.1 hc with rfl | hc
      · exact hk
      · exact ih ht c hc

theorem above_mdel {b i : Nat} {m : List Host.Cell} (h : Above b m) : Above b (mdel m i) := by
  induction m with
  | nil => exact h
  | cons x t ih =>
    obtain ⟨k, w⟩ := x
    have ht : Above b t := fun c hc => h c (by simp [hc])
    simp only [mdel]
    split_ifs
    · exact ih ht
    · intro c hc
      rcases List.mem_cons.1 hc with rfl | hc
      · exact h _ (by simp)
      · exact ih ht c hc

theorem wf_mset {m : List Host.Cell} {i : Nat} {v : Byte} (hv : v ≠ 0) (h : Memory.wf m = true) :
    Memory.wf (mset m i v) = true := by
  induction m with
  | nil => exact bne_iff_ne.2 hv
  | cons x t ih =>
    obtain ⟨k, w⟩ := x
    obtain ⟨hw, ha, ht⟩ := wf_cons.1 h
    simp only [mset]
    split_ifs with h1 h2
    · refine wf_cons.2 ⟨hv, ?_, h⟩
      intro c hc
      rcases List.mem_cons.1 hc with rfl | hc
      · exact h1
      · have := ha c hc; omega
    · subst h2; exact wf_cons.2 ⟨hv, ha, ht⟩
    · exact wf_cons.2 ⟨hw, above_mset ha (by omega), ih ht⟩

theorem wf_mdel {m : List Host.Cell} {i : Nat} (h : Memory.wf m = true) : Memory.wf (mdel m i) = true := by
  induction m with
  | nil => rfl
  | cons x t ih =>
    obtain ⟨k, w⟩ := x
    obtain ⟨hw, ha, ht⟩ := wf_cons.1 h
    simp only [mdel]
    split_ifs
    · exact ih ht
    · exact wf_cons.2 ⟨hw, above_mdel ha, ih ht⟩

/-- A write of one byte keeps the canonical form. -/
theorem wf_memPut {m : List Host.Cell} (a : Nat) (b : Byte) (h : Memory.wf m = true) : Memory.wf (memPut m a b) = true := by
  unfold memPut
  split_ifs with hb
  · exact wf_mdel h
  · exact wf_mset hb h

/-- A write of bytes keeps the canonical form. -/
theorem wf_memPuts (l : List Byte) :
    ∀ {m : List Host.Cell} (a : Nat), Memory.wf m = true → Memory.wf (memPuts m a l) = true := by
  induction l with
  | nil => intro m a h; exact h
  | cons b t ih => intro m a h; exact ih (a + 1) (wf_memPut a b h)

/-- A store to lane SRAM keeps the canonical form. -/
theorem wf_memStore {s : State} (a : Nat) (l : List Byte) (h : Memory.wf s.mem = true) :
    Memory.wf (s.memStore a l).mem = true := wf_memPuts l a h

/-- A byte of lane SRAM outside a store. -/
theorem memStore_out (s : State) (a c : Nat) (l : List Byte) (h : c < a ∨ a + l.length ≤ c) :
    memByte (s.memStore a l).mem c = memByte s.mem c := memByte_memPuts_of_out l _ _ _ h

end Sys2Proof.Machine
end

