-- ==== Sys2Proof/Laws/Registers.lean ====
section
/-! SUPPORT. Laws of the register file: a register and a field read after a write. -/

namespace Sys2Proof.Machine

/-- A register after a write of one register. -/
theorem reg_setReg (s : State) (a b : Nat) (v : Word) : (s.setReg a v).reg b = if b = a then v else s.reg b := by
  unfold State.reg State.setReg
  split_ifs with h h2 h2 <;> simp [mget_mdel, h2, h]

@[simp] theorem reg_setReg_same (s : State) (a : Nat) (v : Word) : (s.setReg a v).reg a = v := by simp [reg_setReg]

theorem reg_setReg_ne (s : State) {a b : Nat} (v : Word) (h : b ≠ a) : (s.setReg a v).reg b = s.reg b := by
  simp [reg_setReg, h]

/-- A register as a number after a write of a number. -/
theorem rn_setN (s : State) (a b n : Nat) : (s.setN a n).rn b = if b = a then n % 2 ^ 32 else s.rn b := by
  unfold State.rn State.setN
  rw [reg_setReg]; split_ifs <;> simp

theorem rn_lt (s : State) (a : Nat) : s.rn a < 2 ^ 32 := (s.reg a).isLt

/-- A word with a field put, in parts: what lies below the field, the field, what lies above it. -/
theorem putN_eq (f : Fld) (n v : Nat) :
    f.putN n v = n % 2 ^ f.lo + 2 ^ f.lo * (v % 2 ^ f.wd + 2 ^ f.wd * (n / 2 ^ (f.lo + f.wd))) := by
  unfold Fld.putN Fld.getN
  rw [Nat.shiftRight_eq_div_pow]
  have h1 : n = n % 2 ^ f.lo + 2 ^ f.lo * (n / 2 ^ f.lo) := (Nat.mod_add_div n (2 ^ f.lo)).symm
  have h2 : n / 2 ^ f.lo = n / 2 ^ f.lo % 2 ^ f.wd + 2 ^ f.wd * (n / 2 ^ f.lo / 2 ^ f.wd) :=
    (Nat.mod_add_div (n / 2 ^ f.lo) (2 ^ f.wd)).symm
  rw [Nat.div_div_eq_div_mul, ← Nat.pow_add] at h2
  generalize n / 2 ^ (f.lo + f.wd) = c at *
  generalize n % 2 ^ f.lo = a at *
  generalize n / 2 ^ f.lo % 2 ^ f.wd = b at *
  generalize n / 2 ^ f.lo = e at *
  subst h2
  have h3 : n - b * 2 ^ f.lo = a + 2 ^ f.lo * (2 ^ f.wd * c) := by
    rw [h1, Nat.mul_add]
    rw [Nat.mul_comm b]
    omega
  rw [h3, Nat.mul_add]
  rw [Nat.mul_comm (v % 2 ^ f.wd)]
  omega

/-- Each bit of a word with a field put. -/
theorem putN_testBit (f : Fld) (n v i : Nat) :
    (f.putN n v).testBit i =
      if i < f.lo then n.testBit i else if i < f.lo + f.wd then v.testBit (i - f.lo) else n.testBit i := by
  rw [putN_eq, Nat.add_comm, Nat.testBit_two_pow_mul_add _ (Nat.mod_lt _ (by positivity))]
  rw [Nat.add_comm (v % 2 ^ f.wd), Nat.testBit_two_pow_mul_add _ (Nat.mod_lt _ (by positivity))]
  simp only [Nat.testBit_mod_two_pow, Nat.testBit_div_two_pow]
  split_ifs with h1 h2 h3 h4 h5 <;> first | omega | simp_all
  congr 1; omega

theorem getN_testBit (f : Fld) (n i : Nat) : (f.getN n).testBit i = (decide (i < f.wd) && n.testBit (f.lo + i)) := by
  unfold Fld.getN
  simp [Nat.testBit_mod_two_pow, Nat.testBit_shiftRight]

/-- The field that was put. -/
theorem getN_putN (f : Fld) (n v : Nat) : f.getN (f.putN n v) = v % 2 ^ f.wd := by
  apply Nat.eq_of_testBit_eq
  intro i
  rw [getN_testBit, putN_testBit, Nat.testBit_mod_two_pow]
  by_cases h : i < f.wd <;> simp [h]

/-- Another field of the same word. -/
theorem getN_putN_other (f g : Fld) (n v : Nat) (h : f.lo + f.wd ≤ g.lo ∨ g.lo + g.wd ≤ f.lo) :
    g.getN (f.putN n v) = g.getN n := by
  apply Nat.eq_of_testBit_eq
  intro i
  rw [getN_testBit, getN_testBit, putN_testBit]
  by_cases hi : i < g.wd
  · simp only [hi, decide_true, Bool.true_and]
    split_ifs <;> first | rfl | omega
  · simp [hi]

theorem putN_lt (f : Fld) (n v : Nat) (hf : f.lo + f.wd ≤ 32) (hn : n < 2 ^ 32) : f.putN n v < 2 ^ 32 := by
  apply Nat.lt_pow_two_of_testBit
  intro i hi
  rw [putN_testBit]
  have := Nat.testBit_lt_two_pow (Nat.lt_of_lt_of_le hn (Nat.pow_le_pow_right (by norm_num) hi))
  split_ifs <;> first | exact this | omega

theorem getN_mod (f : Fld) (n : Nat) (hf : f.lo + f.wd ≤ 32) : f.getN (n % 2 ^ 32) = f.getN n := by
  apply Nat.eq_of_testBit_eq
  intro i
  rw [getN_testBit, getN_testBit, Nat.testBit_mod_two_pow]
  by_cases hi : i < f.wd
  · have : f.lo + i < 32 := by omega
    simp [hi, this]
  · simp [hi]

theorem getN_lt (f : Fld) (n : Nat) : f.getN n < 2 ^ f.wd := Nat.mod_lt _ (by positivity)

/-- A field's bound. -/
theorem rf_lt (s : State) (f : Fld) : s.rf f < 2 ^ f.wd := getN_lt f _

/-- A field after it is written. -/
theorem rf_wf_same (s : State) (f : Fld) (v : Nat) (hf : f.lo + f.wd ≤ 32) : (s.wf f v).rf f = v % 2 ^ f.wd := by
  unfold State.rf State.wf
  rw [rn_setN, if_pos rfl, getN_mod _ _ hf, getN_putN]

/-- A field of another register, or of other bits, is as before. -/
theorem rf_wf_other (s : State) (f g : Fld) (v : Nat) (hg : g.lo + g.wd ≤ 32)
    (h : g.adr ≠ f.adr ∨ f.lo + f.wd ≤ g.lo ∨ g.lo + g.wd ≤ f.lo) : (s.wf f v).rf g = s.rf g := by
  unfold State.rf State.wf
  rw [rn_setN]
  by_cases ha : g.adr = f.adr
  · rw [if_pos ha, getN_mod _ _ hg, getN_putN_other _ _ _ _ (by tauto), ha]
  · rw [if_neg ha]

/-- A register other than the field's is as before. -/
theorem reg_wf_ne (s : State) (f : Fld) (v a : Nat) (h : a ≠ f.adr) : (s.wf f v).reg a = s.reg a :=
  reg_setReg_ne s _ h

theorem reg_setN_ne (s : State) (a b n : Nat) (h : b ≠ a) : (s.setN a n).reg b = s.reg b := reg_setReg_ne s _ h

/-- A field of a register after the register is set. -/
theorem rf_setN (s : State) (a n : Nat) (f : Fld) (hf : f.lo + f.wd ≤ 32) :
    (s.setN a n).rf f = if f.adr = a then f.getN n else s.rf f := by
  unfold State.rf
  rw [rn_setN]
  split_ifs
  · exact getN_mod f n hf
  · rfl

/-! ### The writes that are writes of one field -/

theorem wb_eq (s : State) (f : Fld) (b : Bool) : s.wb f b = s.wf f (b2n b) := rfl
theorem wi_eq (s : State) (f : Fld) (i : Int) : s.wi f i = s.wf f (ofSigned f.wd i) := rfl
theorem wbit_eq (s : State) (f : Fld) (i : Nat) (b : Bool) : s.wbit f i b = s.wf f (setBitTo (s.rf f) i b) := rfl
theorem incSat_eq (s : State) (f : Fld) : s.incSat f = s.wf f (satN (2 ^ f.wd - 1) (s.rf f + 1)) := rfl
theorem incWrap_eq (s : State) (f : Fld) : s.incWrap f = s.wf f (s.rf f + 1) := rfl
theorem addSat_eq (s : State) (f : Fld) (n : Nat) : s.addSat f n = s.wf f (satN (2 ^ f.wd - 1) (s.rf f + n)) := rfl

/-- A saturated count fits its field. -/
theorem satN_mod (w n : Nat) : satN (2 ^ w - 1) n % 2 ^ w = satN (2 ^ w - 1) n := by
  apply Nat.mod_eq_of_lt
  have : 0 < 2 ^ w := by positivity
  unfold satN; split_ifs <;> omega

/-- A one-bit field holds 0 or 1. -/
theorem b2n_mod (b : Bool) : b2n b % 2 ^ 1 = b2n b := by cases b <;> rfl

theorem b2n_ne (b : Bool) : (b2n b != 0) = b := by cases b <;> rfl

/-- A one-bit field after it is written. -/
theorem rb_wb_same (s : State) (f : Fld) (b : Bool) (h1 : f.wd = 1) (hf : f.lo + f.wd ≤ 32) : (s.wb f b).rb f = b := by
  unfold State.rb
  rw [wb_eq, rf_wf_same _ _ _ hf, h1, b2n_mod, b2n_ne]

end Sys2Proof.Machine
end

