-- ==== Sys2Proof/Laws/State.lean ====
section
/-! SUPPORT. What each named update of the state leaves as it is: one lemma for each field and update, true by rfl. -/

namespace Sys2Proof.Machine

/-! ### State.setReg -/

@[simp] theorem setReg_pending (s : State) (a : Nat) (v : Word) : (s.setReg a v).pending = s.pending := rfl
@[simp] theorem setReg_otp (s : State) (a : Nat) (v : Word) : (s.setReg a v).otp = s.otp := rfl
@[simp] theorem setReg_flash (s : State) (a : Nat) (v : Word) : (s.setReg a v).flash = s.flash := rfl
@[simp] theorem setReg_now (s : State) (a : Nat) (v : Word) : (s.setReg a v).now = s.now := rfl
@[simp] theorem setReg_gt (s : State) (a : Nat) (v : Word) : (s.setReg a v).gt = s.gt := rfl
@[simp] theorem setReg_frac (s : State) (a : Nat) (v : Word) : (s.setReg a v).frac = s.frac := rfl
@[simp] theorem setReg_rate (s : State) (a : Nat) (v : Word) : (s.setReg a v).rate = s.rate := rfl
@[simp] theorem setReg_slew (s : State) (a : Nat) (v : Word) : (s.setReg a v).slew = s.slew := rfl
@[simp] theorem setReg_hwSet (s : State) (a : Nat) (v : Word) : (s.setReg a v).hwSet = s.hwSet := rfl
@[simp] theorem setReg_mem (s : State) (a : Nat) (v : Word) : (s.setReg a v).mem = s.mem := rfl
@[simp] theorem setReg_tcm (s : State) (a : Nat) (v : Word) : (s.setReg a v).tcm = s.tcm := rfl
@[simp] theorem setReg_rdata (s : State) (a : Nat) (v : Word) : (s.setReg a v).rdata = s.rdata := rfl
@[simp] theorem setReg_free (s : State) (a : Nat) (v : Word) : (s.setReg a v).free = s.free := rfl
@[simp] theorem setReg_outbox (s : State) (a : Nat) (v : Word) : (s.setReg a v).outbox = s.outbox := rfl
@[simp] theorem setReg_lane (s : State) (a : Nat) (v : Word) : (s.setReg a v).lane = s.lane := rfl
@[simp] theorem setReg_spn (s : State) (a : Nat) (v : Word) : (s.setReg a v).spn = s.spn := rfl
@[simp] theorem setReg_tly (s : State) (a : Nat) (v : Word) : (s.setReg a v).tly = s.tly := rfl
@[simp] theorem setReg_hmb (s : State) (a : Nat) (v : Word) : (s.setReg a v).hmb = s.hmb := rfl
@[simp] theorem setReg_spi (s : State) (a : Nat) (v : Word) : (s.setReg a v).spi = s.spi := rfl
@[simp] theorem setReg_canRec (s : State) (a : Nat) (v : Word) : (s.setReg a v).canRec = s.canRec := rfl
@[simp] theorem setReg_pmu (s : State) (a : Nat) (v : Word) : (s.setReg a v).pmu = s.pmu := rfl
@[simp] theorem setReg_pwm (s : State) (a : Nat) (v : Word) : (s.setReg a v).pwm = s.pwm := rfl
@[simp] theorem setReg_glk (s : State) (a : Nat) (v : Word) : (s.setReg a v).glk = s.glk := rfl
@[simp] theorem setReg_fbc (s : State) (a : Nat) (v : Word) : (s.setReg a v).fbc = s.fbc := rfl
@[simp] theorem setReg_lpe (s : State) (a : Nat) (v : Word) : (s.setReg a v).lpe = s.lpe := rfl
@[simp] theorem setReg_adc (s : State) (a : Nat) (v : Word) : (s.setReg a v).adc = s.adc := rfl
@[simp] theorem setReg_arb (s : State) (a : Nat) (v : Word) : (s.setReg a v).arb = s.arb := rfl
@[simp] theorem setReg_sty (s : State) (a : Nat) (v : Word) : (s.setReg a v).sty = s.sty := rfl
@[simp] theorem setReg_anw (s : State) (a : Nat) (v : Word) : (s.setReg a v).anw = s.anw := rfl
@[simp] theorem setReg_ast (s : State) (a : Nat) (v : Word) : (s.setReg a v).ast = s.ast := rfl
@[simp] theorem setReg_svc (s : State) (a : Nat) (v : Word) : (s.setReg a v).svc = s.svc := rfl
@[simp] theorem setReg_upd (s : State) (a : Nat) (v : Word) : (s.setReg a v).upd = s.upd := rfl
@[simp] theorem setReg_slp (s : State) (a : Nat) (v : Word) : (s.setReg a v).slp = s.slp := rfl
@[simp] theorem setReg_coreRegs (s : State) (a : Nat) (v : Word) : (s.setReg a v).coreRegs = s.coreRegs := rfl
@[simp] theorem setReg_cmpStuck (s : State) (a : Nat) (v : Word) : (s.setReg a v).cmpStuck = s.cmpStuck := rfl
@[simp] theorem setReg_agr (s : State) (a : Nat) (v : Word) : (s.setReg a v).agr = s.agr := rfl
@[simp] theorem setReg_sec (s : State) (a : Nat) (v : Word) : (s.setReg a v).sec = s.sec := rfl
@[simp] theorem setReg_rdm (s : State) (a : Nat) (v : Word) : (s.setReg a v).rdm = s.rdm := rfl
@[simp] theorem setReg_tsk (s : State) (a : Nat) (v : Word) : (s.setReg a v).tsk = s.tsk := rfl

/-! ### State.setN -/

@[simp] theorem setN_pending (s : State) (a n : Nat) : (s.setN a n).pending = s.pending := rfl
@[simp] theorem setN_otp (s : State) (a n : Nat) : (s.setN a n).otp = s.otp := rfl
@[simp] theorem setN_flash (s : State) (a n : Nat) : (s.setN a n).flash = s.flash := rfl
@[simp] theorem setN_now (s : State) (a n : Nat) : (s.setN a n).now = s.now := rfl
@[simp] theorem setN_gt (s : State) (a n : Nat) : (s.setN a n).gt = s.gt := rfl
@[simp] theorem setN_frac (s : State) (a n : Nat) : (s.setN a n).frac = s.frac := rfl
@[simp] theorem setN_rate (s : State) (a n : Nat) : (s.setN a n).rate = s.rate := rfl
@[simp] theorem setN_slew (s : State) (a n : Nat) : (s.setN a n).slew = s.slew := rfl
@[simp] theorem setN_hwSet (s : State) (a n : Nat) : (s.setN a n).hwSet = s.hwSet := rfl
@[simp] theorem setN_mem (s : State) (a n : Nat) : (s.setN a n).mem = s.mem := rfl
@[simp] theorem setN_tcm (s : State) (a n : Nat) : (s.setN a n).tcm = s.tcm := rfl
@[simp] theorem setN_rdata (s : State) (a n : Nat) : (s.setN a n).rdata = s.rdata := rfl
@[simp] theorem setN_free (s : State) (a n : Nat) : (s.setN a n).free = s.free := rfl
@[simp] theorem setN_outbox (s : State) (a n : Nat) : (s.setN a n).outbox = s.outbox := rfl
@[simp] theorem setN_lane (s : State) (a n : Nat) : (s.setN a n).lane = s.lane := rfl
@[simp] theorem setN_spn (s : State) (a n : Nat) : (s.setN a n).spn = s.spn := rfl
@[simp] theorem setN_tly (s : State) (a n : Nat) : (s.setN a n).tly = s.tly := rfl
@[simp] theorem setN_hmb (s : State) (a n : Nat) : (s.setN a n).hmb = s.hmb := rfl
@[simp] theorem setN_spi (s : State) (a n : Nat) : (s.setN a n).spi = s.spi := rfl
@[simp] theorem setN_canRec (s : State) (a n : Nat) : (s.setN a n).canRec = s.canRec := rfl
@[simp] theorem setN_pmu (s : State) (a n : Nat) : (s.setN a n).pmu = s.pmu := rfl
@[simp] theorem setN_pwm (s : State) (a n : Nat) : (s.setN a n).pwm = s.pwm := rfl
@[simp] theorem setN_glk (s : State) (a n : Nat) : (s.setN a n).glk = s.glk := rfl
@[simp] theorem setN_fbc (s : State) (a n : Nat) : (s.setN a n).fbc = s.fbc := rfl
@[simp] theorem setN_lpe (s : State) (a n : Nat) : (s.setN a n).lpe = s.lpe := rfl
@[simp] theorem setN_adc (s : State) (a n : Nat) : (s.setN a n).adc = s.adc := rfl
@[simp] theorem setN_arb (s : State) (a n : Nat) : (s.setN a n).arb = s.arb := rfl
@[simp] theorem setN_sty (s : State) (a n : Nat) : (s.setN a n).sty = s.sty := rfl
@[simp] theorem setN_anw (s : State) (a n : Nat) : (s.setN a n).anw = s.anw := rfl
@[simp] theorem setN_ast (s : State) (a n : Nat) : (s.setN a n).ast = s.ast := rfl
@[simp] theorem setN_svc (s : State) (a n : Nat) : (s.setN a n).svc = s.svc := rfl
@[simp] theorem setN_upd (s : State) (a n : Nat) : (s.setN a n).upd = s.upd := rfl
@[simp] theorem setN_slp (s : State) (a n : Nat) : (s.setN a n).slp = s.slp := rfl
@[simp] theorem setN_coreRegs (s : State) (a n : Nat) : (s.setN a n).coreRegs = s.coreRegs := rfl
@[simp] theorem setN_cmpStuck (s : State) (a n : Nat) : (s.setN a n).cmpStuck = s.cmpStuck := rfl
@[simp] theorem setN_agr (s : State) (a n : Nat) : (s.setN a n).agr = s.agr := rfl
@[simp] theorem setN_sec (s : State) (a n : Nat) : (s.setN a n).sec = s.sec := rfl
@[simp] theorem setN_rdm (s : State) (a n : Nat) : (s.setN a n).rdm = s.rdm := rfl
@[simp] theorem setN_tsk (s : State) (a n : Nat) : (s.setN a n).tsk = s.tsk := rfl

/-! ### State.wf -/

@[simp] theorem wf_pending (s : State) (f : Fld) (v : Nat) : (s.wf f v).pending = s.pending := rfl
@[simp] theorem wf_otp (s : State) (f : Fld) (v : Nat) : (s.wf f v).otp = s.otp := rfl
@[simp] theorem wf_flash (s : State) (f : Fld) (v : Nat) : (s.wf f v).flash = s.flash := rfl
@[simp] theorem wf_now (s : State) (f : Fld) (v : Nat) : (s.wf f v).now = s.now := rfl
@[simp] theorem wf_gt (s : State) (f : Fld) (v : Nat) : (s.wf f v).gt = s.gt := rfl
@[simp] theorem wf_frac (s : State) (f : Fld) (v : Nat) : (s.wf f v).frac = s.frac := rfl
@[simp] theorem wf_rate (s : State) (f : Fld) (v : Nat) : (s.wf f v).rate = s.rate := rfl
@[simp] theorem wf_slew (s : State) (f : Fld) (v : Nat) : (s.wf f v).slew = s.slew := rfl
@[simp] theorem wf_hwSet (s : State) (f : Fld) (v : Nat) : (s.wf f v).hwSet = s.hwSet := rfl
@[simp] theorem wf_mem (s : State) (f : Fld) (v : Nat) : (s.wf f v).mem = s.mem := rfl
@[simp] theorem wf_tcm (s : State) (f : Fld) (v : Nat) : (s.wf f v).tcm = s.tcm := rfl
@[simp] theorem wf_rdata (s : State) (f : Fld) (v : Nat) : (s.wf f v).rdata = s.rdata := rfl
@[simp] theorem wf_free (s : State) (f : Fld) (v : Nat) : (s.wf f v).free = s.free := rfl
@[simp] theorem wf_outbox (s : State) (f : Fld) (v : Nat) : (s.wf f v).outbox = s.outbox := rfl
@[simp] theorem wf_lane (s : State) (f : Fld) (v : Nat) : (s.wf f v).lane = s.lane := rfl
@[simp] theorem wf_spn (s : State) (f : Fld) (v : Nat) : (s.wf f v).spn = s.spn := rfl
@[simp] theorem wf_tly (s : State) (f : Fld) (v : Nat) : (s.wf f v).tly = s.tly := rfl
@[simp] theorem wf_hmb (s : State) (f : Fld) (v : Nat) : (s.wf f v).hmb = s.hmb := rfl
@[simp] theorem wf_spi (s : State) (f : Fld) (v : Nat) : (s.wf f v).spi = s.spi := rfl
@[simp] theorem wf_canRec (s : State) (f : Fld) (v : Nat) : (s.wf f v).canRec = s.canRec := rfl
@[simp] theorem wf_pmu (s : State) (f : Fld) (v : Nat) : (s.wf f v).pmu = s.pmu := rfl
@[simp] theorem wf_pwm (s : State) (f : Fld) (v : Nat) : (s.wf f v).pwm = s.pwm := rfl
@[simp] theorem wf_glk (s : State) (f : Fld) (v : Nat) : (s.wf f v).glk = s.glk := rfl
@[simp] theorem wf_fbc (s : State) (f : Fld) (v : Nat) : (s.wf f v).fbc = s.fbc := rfl
@[simp] theorem wf_lpe (s : State) (f : Fld) (v : Nat) : (s.wf f v).lpe = s.lpe := rfl
@[simp] theorem wf_adc (s : State) (f : Fld) (v : Nat) : (s.wf f v).adc = s.adc := rfl
@[simp] theorem wf_arb (s : State) (f : Fld) (v : Nat) : (s.wf f v).arb = s.arb := rfl
@[simp] theorem wf_sty (s : State) (f : Fld) (v : Nat) : (s.wf f v).sty = s.sty := rfl
@[simp] theorem wf_anw (s : State) (f : Fld) (v : Nat) : (s.wf f v).anw = s.anw := rfl
@[simp] theorem wf_ast (s : State) (f : Fld) (v : Nat) : (s.wf f v).ast = s.ast := rfl
@[simp] theorem wf_svc (s : State) (f : Fld) (v : Nat) : (s.wf f v).svc = s.svc := rfl
@[simp] theorem wf_upd (s : State) (f : Fld) (v : Nat) : (s.wf f v).upd = s.upd := rfl
@[simp] theorem wf_slp (s : State) (f : Fld) (v : Nat) : (s.wf f v).slp = s.slp := rfl
@[simp] theorem wf_coreRegs (s : State) (f : Fld) (v : Nat) : (s.wf f v).coreRegs = s.coreRegs := rfl
@[simp] theorem wf_cmpStuck (s : State) (f : Fld) (v : Nat) : (s.wf f v).cmpStuck = s.cmpStuck := rfl
@[simp] theorem wf_agr (s : State) (f : Fld) (v : Nat) : (s.wf f v).agr = s.agr := rfl
@[simp] theorem wf_sec (s : State) (f : Fld) (v : Nat) : (s.wf f v).sec = s.sec := rfl
@[simp] theorem wf_rdm (s : State) (f : Fld) (v : Nat) : (s.wf f v).rdm = s.rdm := rfl
@[simp] theorem wf_tsk (s : State) (f : Fld) (v : Nat) : (s.wf f v).tsk = s.tsk := rfl

/-! ### State.emit -/

@[simp] theorem emit_pending (s : State) (m : OutMsg) : (s.emit m).pending = s.pending := rfl
@[simp] theorem emit_otp (s : State) (m : OutMsg) : (s.emit m).otp = s.otp := rfl
@[simp] theorem emit_flash (s : State) (m : OutMsg) : (s.emit m).flash = s.flash := rfl
@[simp] theorem emit_now (s : State) (m : OutMsg) : (s.emit m).now = s.now := rfl
@[simp] theorem emit_gt (s : State) (m : OutMsg) : (s.emit m).gt = s.gt := rfl
@[simp] theorem emit_frac (s : State) (m : OutMsg) : (s.emit m).frac = s.frac := rfl
@[simp] theorem emit_rate (s : State) (m : OutMsg) : (s.emit m).rate = s.rate := rfl
@[simp] theorem emit_slew (s : State) (m : OutMsg) : (s.emit m).slew = s.slew := rfl
@[simp] theorem emit_regs (s : State) (m : OutMsg) : (s.emit m).regs = s.regs := rfl
@[simp] theorem emit_hwSet (s : State) (m : OutMsg) : (s.emit m).hwSet = s.hwSet := rfl
@[simp] theorem emit_mem (s : State) (m : OutMsg) : (s.emit m).mem = s.mem := rfl
@[simp] theorem emit_tcm (s : State) (m : OutMsg) : (s.emit m).tcm = s.tcm := rfl
@[simp] theorem emit_rdata (s : State) (m : OutMsg) : (s.emit m).rdata = s.rdata := rfl
@[simp] theorem emit_free (s : State) (m : OutMsg) : (s.emit m).free = s.free := rfl
@[simp] theorem emit_lane (s : State) (m : OutMsg) : (s.emit m).lane = s.lane := rfl
@[simp] theorem emit_spn (s : State) (m : OutMsg) : (s.emit m).spn = s.spn := rfl
@[simp] theorem emit_tly (s : State) (m : OutMsg) : (s.emit m).tly = s.tly := rfl
@[simp] theorem emit_hmb (s : State) (m : OutMsg) : (s.emit m).hmb = s.hmb := rfl
@[simp] theorem emit_spi (s : State) (m : OutMsg) : (s.emit m).spi = s.spi := rfl
@[simp] theorem emit_canRec (s : State) (m : OutMsg) : (s.emit m).canRec = s.canRec := rfl
@[simp] theorem emit_pmu (s : State) (m : OutMsg) : (s.emit m).pmu = s.pmu := rfl
@[simp] theorem emit_pwm (s : State) (m : OutMsg) : (s.emit m).pwm = s.pwm := rfl
@[simp] theorem emit_glk (s : State) (m : OutMsg) : (s.emit m).glk = s.glk := rfl
@[simp] theorem emit_fbc (s : State) (m : OutMsg) : (s.emit m).fbc = s.fbc := rfl
@[simp] theorem emit_lpe (s : State) (m : OutMsg) : (s.emit m).lpe = s.lpe := rfl
@[simp] theorem emit_adc (s : State) (m : OutMsg) : (s.emit m).adc = s.adc := rfl
@[simp] theorem emit_arb (s : State) (m : OutMsg) : (s.emit m).arb = s.arb := rfl
@[simp] theorem emit_sty (s : State) (m : OutMsg) : (s.emit m).sty = s.sty := rfl
@[simp] theorem emit_anw (s : State) (m : OutMsg) : (s.emit m).anw = s.anw := rfl
@[simp] theorem emit_ast (s : State) (m : OutMsg) : (s.emit m).ast = s.ast := rfl
@[simp] theorem emit_svc (s : State) (m : OutMsg) : (s.emit m).svc = s.svc := rfl
@[simp] theorem emit_upd (s : State) (m : OutMsg) : (s.emit m).upd = s.upd := rfl
@[simp] theorem emit_slp (s : State) (m : OutMsg) : (s.emit m).slp = s.slp := rfl
@[simp] theorem emit_coreRegs (s : State) (m : OutMsg) : (s.emit m).coreRegs = s.coreRegs := rfl
@[simp] theorem emit_cmpStuck (s : State) (m : OutMsg) : (s.emit m).cmpStuck = s.cmpStuck := rfl
@[simp] theorem emit_agr (s : State) (m : OutMsg) : (s.emit m).agr = s.agr := rfl
@[simp] theorem emit_sec (s : State) (m : OutMsg) : (s.emit m).sec = s.sec := rfl
@[simp] theorem emit_rdm (s : State) (m : OutMsg) : (s.emit m).rdm = s.rdm := rfl
@[simp] theorem emit_tsk (s : State) (m : OutMsg) : (s.emit m).tsk = s.tsk := rfl
@[simp] theorem emit_reg (s : State) (m : OutMsg) (x : Nat) : (s.emit m).reg x = s.reg x := rfl
@[simp] theorem emit_rn (s : State) (m : OutMsg) (x : Nat) : (s.emit m).rn x = s.rn x := rfl
@[simp] theorem emit_rf (s : State) (m : OutMsg) (x : Fld) : (s.emit m).rf x = s.rf x := rfl

/-! ### State.raiseEv -/

@[simp] theorem raiseEv_pending (s : State) (n d : Nat) : (s.raiseEv n d).pending = s.pending := rfl
@[simp] theorem raiseEv_otp (s : State) (n d : Nat) : (s.raiseEv n d).otp = s.otp := rfl
@[simp] theorem raiseEv_flash (s : State) (n d : Nat) : (s.raiseEv n d).flash = s.flash := rfl
@[simp] theorem raiseEv_now (s : State) (n d : Nat) : (s.raiseEv n d).now = s.now := rfl
@[simp] theorem raiseEv_gt (s : State) (n d : Nat) : (s.raiseEv n d).gt = s.gt := rfl
@[simp] theorem raiseEv_frac (s : State) (n d : Nat) : (s.raiseEv n d).frac = s.frac := rfl
@[simp] theorem raiseEv_rate (s : State) (n d : Nat) : (s.raiseEv n d).rate = s.rate := rfl
@[simp] theorem raiseEv_slew (s : State) (n d : Nat) : (s.raiseEv n d).slew = s.slew := rfl
@[simp] theorem raiseEv_regs (s : State) (n d : Nat) : (s.raiseEv n d).regs = s.regs := rfl
@[simp] theorem raiseEv_hwSet (s : State) (n d : Nat) : (s.raiseEv n d).hwSet = s.hwSet := rfl
@[simp] theorem raiseEv_mem (s : State) (n d : Nat) : (s.raiseEv n d).mem = s.mem := rfl
@[simp] theorem raiseEv_tcm (s : State) (n d : Nat) : (s.raiseEv n d).tcm = s.tcm := rfl
@[simp] theorem raiseEv_rdata (s : State) (n d : Nat) : (s.raiseEv n d).rdata = s.rdata := rfl
@[simp] theorem raiseEv_free (s : State) (n d : Nat) : (s.raiseEv n d).free = s.free := rfl
@[simp] theorem raiseEv_outbox (s : State) (n d : Nat) : (s.raiseEv n d).outbox = s.outbox := rfl
@[simp] theorem raiseEv_lane (s : State) (n d : Nat) : (s.raiseEv n d).lane = s.lane := rfl
@[simp] theorem raiseEv_spn (s : State) (n d : Nat) : (s.raiseEv n d).spn = s.spn := rfl
@[simp] theorem raiseEv_hmb (s : State) (n d : Nat) : (s.raiseEv n d).hmb = s.hmb := rfl
@[simp] theorem raiseEv_spi (s : State) (n d : Nat) : (s.raiseEv n d).spi = s.spi := rfl
@[simp] theorem raiseEv_canRec (s : State) (n d : Nat) : (s.raiseEv n d).canRec = s.canRec := rfl
@[simp] theorem raiseEv_pmu (s : State) (n d : Nat) : (s.raiseEv n d).pmu = s.pmu := rfl
@[simp] theorem raiseEv_pwm (s : State) (n d : Nat) : (s.raiseEv n d).pwm = s.pwm := rfl
@[simp] theorem raiseEv_glk (s : State) (n d : Nat) : (s.raiseEv n d).glk = s.glk := rfl
@[simp] theorem raiseEv_fbc (s : State) (n d : Nat) : (s.raiseEv n d).fbc = s.fbc := rfl
@[simp] theorem raiseEv_lpe (s : State) (n d : Nat) : (s.raiseEv n d).lpe = s.lpe := rfl
@[simp] theorem raiseEv_adc (s : State) (n d : Nat) : (s.raiseEv n d).adc = s.adc := rfl
@[simp] theorem raiseEv_arb (s : State) (n d : Nat) : (s.raiseEv n d).arb = s.arb := rfl
@[simp] theorem raiseEv_sty (s : State) (n d : Nat) : (s.raiseEv n d).sty = s.sty := rfl
@[simp] theorem raiseEv_anw (s : State) (n d : Nat) : (s.raiseEv n d).anw = s.anw := rfl
@[simp] theorem raiseEv_ast (s : State) (n d : Nat) : (s.raiseEv n d).ast = s.ast := rfl
@[simp] theorem raiseEv_svc (s : State) (n d : Nat) : (s.raiseEv n d).svc = s.svc := rfl
@[simp] theorem raiseEv_upd (s : State) (n d : Nat) : (s.raiseEv n d).upd = s.upd := rfl
@[simp] theorem raiseEv_slp (s : State) (n d : Nat) : (s.raiseEv n d).slp = s.slp := rfl
@[simp] theorem raiseEv_coreRegs (s : State) (n d : Nat) : (s.raiseEv n d).coreRegs = s.coreRegs := rfl
@[simp] theorem raiseEv_cmpStuck (s : State) (n d : Nat) : (s.raiseEv n d).cmpStuck = s.cmpStuck := rfl
@[simp] theorem raiseEv_agr (s : State) (n d : Nat) : (s.raiseEv n d).agr = s.agr := rfl
@[simp] theorem raiseEv_sec (s : State) (n d : Nat) : (s.raiseEv n d).sec = s.sec := rfl
@[simp] theorem raiseEv_rdm (s : State) (n d : Nat) : (s.raiseEv n d).rdm = s.rdm := rfl
@[simp] theorem raiseEv_tsk (s : State) (n d : Nat) : (s.raiseEv n d).tsk = s.tsk := rfl
@[simp] theorem raiseEv_reg (s : State) (n d : Nat) (x : Nat) : (s.raiseEv n d).reg x = s.reg x := rfl
@[simp] theorem raiseEv_rn (s : State) (n d : Nat) (x : Nat) : (s.raiseEv n d).rn x = s.rn x := rfl
@[simp] theorem raiseEv_rf (s : State) (n d : Nat) (x : Fld) : (s.raiseEv n d).rf x = s.rf x := rfl

/-! ### State.assertSrc -/

@[simp] theorem assertSrc_pending (s : State) (n d : Nat) : (s.assertSrc n d).pending = s.pending := rfl
@[simp] theorem assertSrc_otp (s : State) (n d : Nat) : (s.assertSrc n d).otp = s.otp := rfl
@[simp] theorem assertSrc_flash (s : State) (n d : Nat) : (s.assertSrc n d).flash = s.flash := rfl
@[simp] theorem assertSrc_now (s : State) (n d : Nat) : (s.assertSrc n d).now = s.now := rfl
@[simp] theorem assertSrc_gt (s : State) (n d : Nat) : (s.assertSrc n d).gt = s.gt := rfl
@[simp] theorem assertSrc_frac (s : State) (n d : Nat) : (s.assertSrc n d).frac = s.frac := rfl
@[simp] theorem assertSrc_rate (s : State) (n d : Nat) : (s.assertSrc n d).rate = s.rate := rfl
@[simp] theorem assertSrc_slew (s : State) (n d : Nat) : (s.assertSrc n d).slew = s.slew := rfl
@[simp] theorem assertSrc_regs (s : State) (n d : Nat) : (s.assertSrc n d).regs = s.regs := rfl
@[simp] theorem assertSrc_hwSet (s : State) (n d : Nat) : (s.assertSrc n d).hwSet = s.hwSet := rfl
@[simp] theorem assertSrc_mem (s : State) (n d : Nat) : (s.assertSrc n d).mem = s.mem := rfl
@[simp] theorem assertSrc_tcm (s : State) (n d : Nat) : (s.assertSrc n d).tcm = s.tcm := rfl
@[simp] theorem assertSrc_rdata (s : State) (n d : Nat) : (s.assertSrc n d).rdata = s.rdata := rfl
@[simp] theorem assertSrc_free (s : State) (n d : Nat) : (s.assertSrc n d).free = s.free := rfl
@[simp] theorem assertSrc_outbox (s : State) (n d : Nat) : (s.assertSrc n d).outbox = s.outbox := rfl
@[simp] theorem assertSrc_lane (s : State) (n d : Nat) : (s.assertSrc n d).lane = s.lane := rfl
@[simp] theorem assertSrc_spn (s : State) (n d : Nat) : (s.assertSrc n d).spn = s.spn := rfl
@[simp] theorem assertSrc_hmb (s : State) (n d : Nat) : (s.assertSrc n d).hmb = s.hmb := rfl
@[simp] theorem assertSrc_spi (s : State) (n d : Nat) : (s.assertSrc n d).spi = s.spi := rfl
@[simp] theorem assertSrc_canRec (s : State) (n d : Nat) : (s.assertSrc n d).canRec = s.canRec := rfl
@[simp] theorem assertSrc_pmu (s : State) (n d : Nat) : (s.assertSrc n d).pmu = s.pmu := rfl
@[simp] theorem assertSrc_pwm (s : State) (n d : Nat) : (s.assertSrc n d).pwm = s.pwm := rfl
@[simp] theorem assertSrc_glk (s : State) (n d : Nat) : (s.assertSrc n d).glk = s.glk := rfl
@[simp] theorem assertSrc_fbc (s : State) (n d : Nat) : (s.assertSrc n d).fbc = s.fbc := rfl
@[simp] theorem assertSrc_lpe (s : State) (n d : Nat) : (s.assertSrc n d).lpe = s.lpe := rfl
@[simp] theorem assertSrc_adc (s : State) (n d : Nat) : (s.assertSrc n d).adc = s.adc := rfl
@[simp] theorem assertSrc_arb (s : State) (n d : Nat) : (s.assertSrc n d).arb = s.arb := rfl
@[simp] theorem assertSrc_sty (s : State) (n d : Nat) : (s.assertSrc n d).sty = s.sty := rfl
@[simp] theorem assertSrc_anw (s : State) (n d : Nat) : (s.assertSrc n d).anw = s.anw := rfl
@[simp] theorem assertSrc_ast (s : State) (n d : Nat) : (s.assertSrc n d).ast = s.ast := rfl
@[simp] theorem assertSrc_svc (s : State) (n d : Nat) : (s.assertSrc n d).svc = s.svc := rfl
@[simp] theorem assertSrc_upd (s : State) (n d : Nat) : (s.assertSrc n d).upd = s.upd := rfl
@[simp] theorem assertSrc_slp (s : State) (n d : Nat) : (s.assertSrc n d).slp = s.slp := rfl
@[simp] theorem assertSrc_coreRegs (s : State) (n d : Nat) : (s.assertSrc n d).coreRegs = s.coreRegs := rfl
@[simp] theorem assertSrc_cmpStuck (s : State) (n d : Nat) : (s.assertSrc n d).cmpStuck = s.cmpStuck := rfl
@[simp] theorem assertSrc_agr (s : State) (n d : Nat) : (s.assertSrc n d).agr = s.agr := rfl
@[simp] theorem assertSrc_sec (s : State) (n d : Nat) : (s.assertSrc n d).sec = s.sec := rfl
@[simp] theorem assertSrc_rdm (s : State) (n d : Nat) : (s.assertSrc n d).rdm = s.rdm := rfl
@[simp] theorem assertSrc_tsk (s : State) (n d : Nat) : (s.assertSrc n d).tsk = s.tsk := rfl
@[simp] theorem assertSrc_reg (s : State) (n d : Nat) (x : Nat) : (s.assertSrc n d).reg x = s.reg x := rfl
@[simp] theorem assertSrc_rn (s : State) (n d : Nat) (x : Nat) : (s.assertSrc n d).rn x = s.rn x := rfl
@[simp] theorem assertSrc_rf (s : State) (n d : Nat) (x : Fld) : (s.assertSrc n d).rf x = s.rf x := rfl

/-! ### State.used -/

@[simp] theorem used_pending (s : State) (n : Nat) : (s.used n).pending = s.pending := rfl
@[simp] theorem used_otp (s : State) (n : Nat) : (s.used n).otp = s.otp := rfl
@[simp] theorem used_flash (s : State) (n : Nat) : (s.used n).flash = s.flash := rfl
@[simp] theorem used_now (s : State) (n : Nat) : (s.used n).now = s.now := rfl
@[simp] theorem used_gt (s : State) (n : Nat) : (s.used n).gt = s.gt := rfl
@[simp] theorem used_frac (s : State) (n : Nat) : (s.used n).frac = s.frac := rfl
@[simp] theorem used_rate (s : State) (n : Nat) : (s.used n).rate = s.rate := rfl
@[simp] theorem used_slew (s : State) (n : Nat) : (s.used n).slew = s.slew := rfl
@[simp] theorem used_regs (s : State) (n : Nat) : (s.used n).regs = s.regs := rfl
@[simp] theorem used_hwSet (s : State) (n : Nat) : (s.used n).hwSet = s.hwSet := rfl
@[simp] theorem used_mem (s : State) (n : Nat) : (s.used n).mem = s.mem := rfl
@[simp] theorem used_tcm (s : State) (n : Nat) : (s.used n).tcm = s.tcm := rfl
@[simp] theorem used_rdata (s : State) (n : Nat) : (s.used n).rdata = s.rdata := rfl
@[simp] theorem used_outbox (s : State) (n : Nat) : (s.used n).outbox = s.outbox := rfl
@[simp] theorem used_lane (s : State) (n : Nat) : (s.used n).lane = s.lane := rfl
@[simp] theorem used_spn (s : State) (n : Nat) : (s.used n).spn = s.spn := rfl
@[simp] theorem used_tly (s : State) (n : Nat) : (s.used n).tly = s.tly := rfl
@[simp] theorem used_hmb (s : State) (n : Nat) : (s.used n).hmb = s.hmb := rfl
@[simp] theorem used_spi (s : State) (n : Nat) : (s.used n).spi = s.spi := rfl
@[simp] theorem used_canRec (s : State) (n : Nat) : (s.used n).canRec = s.canRec := rfl
@[simp] theorem used_pmu (s : State) (n : Nat) : (s.used n).pmu = s.pmu := rfl
@[simp] theorem used_pwm (s : State) (n : Nat) : (s.used n).pwm = s.pwm := rfl
@[simp] theorem used_glk (s : State) (n : Nat) : (s.used n).glk = s.glk := rfl
@[simp] theorem used_fbc (s : State) (n : Nat) : (s.used n).fbc = s.fbc := rfl
@[simp] theorem used_lpe (s : State) (n : Nat) : (s.used n).lpe = s.lpe := rfl
@[simp] theorem used_adc (s : State) (n : Nat) : (s.used n).adc = s.adc := rfl
@[simp] theorem used_arb (s : State) (n : Nat) : (s.used n).arb = s.arb := rfl
@[simp] theorem used_sty (s : State) (n : Nat) : (s.used n).sty = s.sty := rfl
@[simp] theorem used_anw (s : State) (n : Nat) : (s.used n).anw = s.anw := rfl
@[simp] theorem used_ast (s : State) (n : Nat) : (s.used n).ast = s.ast := rfl
@[simp] theorem used_svc (s : State) (n : Nat) : (s.used n).svc = s.svc := rfl
@[simp] theorem used_upd (s : State) (n : Nat) : (s.used n).upd = s.upd := rfl
@[simp] theorem used_slp (s : State) (n : Nat) : (s.used n).slp = s.slp := rfl
@[simp] theorem used_coreRegs (s : State) (n : Nat) : (s.used n).coreRegs = s.coreRegs := rfl
@[simp] theorem used_cmpStuck (s : State) (n : Nat) : (s.used n).cmpStuck = s.cmpStuck := rfl
@[simp] theorem used_agr (s : State) (n : Nat) : (s.used n).agr = s.agr := rfl
@[simp] theorem used_sec (s : State) (n : Nat) : (s.used n).sec = s.sec := rfl
@[simp] theorem used_rdm (s : State) (n : Nat) : (s.used n).rdm = s.rdm := rfl
@[simp] theorem used_tsk (s : State) (n : Nat) : (s.used n).tsk = s.tsk := rfl
@[simp] theorem used_reg (s : State) (n : Nat) (x : Nat) : (s.used n).reg x = s.reg x := rfl
@[simp] theorem used_rn (s : State) (n : Nat) (x : Nat) : (s.used n).rn x = s.rn x := rfl
@[simp] theorem used_rf (s : State) (n : Nat) (x : Fld) : (s.used n).rf x = s.rf x := rfl

/-! ### State.memStore -/

@[simp] theorem memStore_pending (s : State) (a : Nat) (l : List Byte) : (s.memStore a l).pending = s.pending := rfl
@[simp] theorem memStore_otp (s : State) (a : Nat) (l : List Byte) : (s.memStore a l).otp = s.otp := rfl
@[simp] theorem memStore_flash (s : State) (a : Nat) (l : List Byte) : (s.memStore a l).flash = s.flash := rfl
@[simp] theorem memStore_now (s : State) (a : Nat) (l : List Byte) : (s.memStore a l).now = s.now := rfl
@[simp] theorem memStore_gt (s : State) (a : Nat) (l : List Byte) : (s.memStore a l).gt = s.gt := rfl
@[simp] theorem memStore_frac (s : State) (a : Nat) (l : List Byte) : (s.memStore a l).frac = s.frac := rfl
@[simp] theorem memStore_rate (s : State) (a : Nat) (l : List Byte) : (s.memStore a l).rate = s.rate := rfl
@[simp] theorem memStore_slew (s : State) (a : Nat) (l : List Byte) : (s.memStore a l).slew = s.slew := rfl
@[simp] theorem memStore_regs (s : State) (a : Nat) (l : List Byte) : (s.memStore a l).regs = s.regs := rfl
@[simp] theorem memStore_hwSet (s : State) (a : Nat) (l : List Byte) : (s.memStore a l).hwSet = s.hwSet := rfl
@[simp] theorem memStore_tcm (s : State) (a : Nat) (l : List Byte) : (s.memStore a l).tcm = s.tcm := rfl
@[simp] theorem memStore_rdata (s : State) (a : Nat) (l : List Byte) : (s.memStore a l).rdata = s.rdata := rfl
@[simp] theorem memStore_free (s : State) (a : Nat) (l : List Byte) : (s.memStore a l).free = s.free := rfl
@[simp] theorem memStore_outbox (s : State) (a : Nat) (l : List Byte) : (s.memStore a l).outbox = s.outbox := rfl
@[simp] theorem memStore_lane (s : State) (a : Nat) (l : List Byte) : (s.memStore a l).lane = s.lane := rfl
@[simp] theorem memStore_spn (s : State) (a : Nat) (l : List Byte) : (s.memStore a l).spn = s.spn := rfl
@[simp] theorem memStore_tly (s : State) (a : Nat) (l : List Byte) : (s.memStore a l).tly = s.tly := rfl
@[simp] theorem memStore_hmb (s : State) (a : Nat) (l : List Byte) : (s.memStore a l).hmb = s.hmb := rfl
@[simp] theorem memStore_spi (s : State) (a : Nat) (l : List Byte) : (s.memStore a l).spi = s.spi := rfl
@[simp] theorem memStore_canRec (s : State) (a : Nat) (l : List Byte) : (s.memStore a l).canRec = s.canRec := rfl
@[simp] theorem memStore_pmu (s : State) (a : Nat) (l : List Byte) : (s.memStore a l).pmu = s.pmu := rfl
@[simp] theorem memStore_pwm (s : State) (a : Nat) (l : List Byte) : (s.memStore a l).pwm = s.pwm := rfl
@[simp] theorem memStore_glk (s : State) (a : Nat) (l : List Byte) : (s.memStore a l).glk = s.glk := rfl
@[simp] theorem memStore_fbc (s : State) (a : Nat) (l : List Byte) : (s.memStore a l).fbc = s.fbc := rfl
@[simp] theorem memStore_lpe (s : State) (a : Nat) (l : List Byte) : (s.memStore a l).lpe = s.lpe := rfl
@[simp] theorem memStore_adc (s : State) (a : Nat) (l : List Byte) : (s.memStore a l).adc = s.adc := rfl
@[simp] theorem memStore_arb (s : State) (a : Nat) (l : List Byte) : (s.memStore a l).arb = s.arb := rfl
@[simp] theorem memStore_sty (s : State) (a : Nat) (l : List Byte) : (s.memStore a l).sty = s.sty := rfl
@[simp] theorem memStore_anw (s : State) (a : Nat) (l : List Byte) : (s.memStore a l).anw = s.anw := rfl
@[simp] theorem memStore_ast (s : State) (a : Nat) (l : List Byte) : (s.memStore a l).ast = s.ast := rfl
@[simp] theorem memStore_svc (s : State) (a : Nat) (l : List Byte) : (s.memStore a l).svc = s.svc := rfl
@[simp] theorem memStore_upd (s : State) (a : Nat) (l : List Byte) : (s.memStore a l).upd = s.upd := rfl
@[simp] theorem memStore_slp (s : State) (a : Nat) (l : List Byte) : (s.memStore a l).slp = s.slp := rfl
@[simp] theorem memStore_coreRegs (s : State) (a : Nat) (l : List Byte) : (s.memStore a l).coreRegs = s.coreRegs := rfl
@[simp] theorem memStore_cmpStuck (s : State) (a : Nat) (l : List Byte) : (s.memStore a l).cmpStuck = s.cmpStuck := rfl
@[simp] theorem memStore_agr (s : State) (a : Nat) (l : List Byte) : (s.memStore a l).agr = s.agr := rfl
@[simp] theorem memStore_sec (s : State) (a : Nat) (l : List Byte) : (s.memStore a l).sec = s.sec := rfl
@[simp] theorem memStore_rdm (s : State) (a : Nat) (l : List Byte) : (s.memStore a l).rdm = s.rdm := rfl
@[simp] theorem memStore_tsk (s : State) (a : Nat) (l : List Byte) : (s.memStore a l).tsk = s.tsk := rfl
@[simp] theorem memStore_reg (s : State) (a : Nat) (l : List Byte) (x : Nat) : (s.memStore a l).reg x = s.reg x := rfl
@[simp] theorem memStore_rn (s : State) (a : Nat) (l : List Byte) (x : Nat) : (s.memStore a l).rn x = s.rn x := rfl
@[simp] theorem memStore_rf (s : State) (a : Nat) (l : List Byte) (x : Fld) : (s.memStore a l).rf x = s.rf x := rfl

/-! ### State.setPeer -/

@[simp] theorem setPeer_pending (s : State) (k : Nat) (p : PeerSt) : (s.setPeer k p).pending = s.pending := rfl
@[simp] theorem setPeer_otp (s : State) (k : Nat) (p : PeerSt) : (s.setPeer k p).otp = s.otp := rfl
@[simp] theorem setPeer_flash (s : State) (k : Nat) (p : PeerSt) : (s.setPeer k p).flash = s.flash := rfl
@[simp] theorem setPeer_now (s : State) (k : Nat) (p : PeerSt) : (s.setPeer k p).now = s.now := rfl
@[simp] theorem setPeer_gt (s : State) (k : Nat) (p : PeerSt) : (s.setPeer k p).gt = s.gt := rfl
@[simp] theorem setPeer_frac (s : State) (k : Nat) (p : PeerSt) : (s.setPeer k p).frac = s.frac := rfl
@[simp] theorem setPeer_rate (s : State) (k : Nat) (p : PeerSt) : (s.setPeer k p).rate = s.rate := rfl
@[simp] theorem setPeer_slew (s : State) (k : Nat) (p : PeerSt) : (s.setPeer k p).slew = s.slew := rfl
@[simp] theorem setPeer_regs (s : State) (k : Nat) (p : PeerSt) : (s.setPeer k p).regs = s.regs := rfl
@[simp] theorem setPeer_hwSet (s : State) (k : Nat) (p : PeerSt) : (s.setPeer k p).hwSet = s.hwSet := rfl
@[simp] theorem setPeer_mem (s : State) (k : Nat) (p : PeerSt) : (s.setPeer k p).mem = s.mem := rfl
@[simp] theorem setPeer_tcm (s : State) (k : Nat) (p : PeerSt) : (s.setPeer k p).tcm = s.tcm := rfl
@[simp] theorem setPeer_rdata (s : State) (k : Nat) (p : PeerSt) : (s.setPeer k p).rdata = s.rdata := rfl
@[simp] theorem setPeer_free (s : State) (k : Nat) (p : PeerSt) : (s.setPeer k p).free = s.free := rfl
@[simp] theorem setPeer_outbox (s : State) (k : Nat) (p : PeerSt) : (s.setPeer k p).outbox = s.outbox := rfl
@[simp] theorem setPeer_spn (s : State) (k : Nat) (p : PeerSt) : (s.setPeer k p).spn = s.spn := rfl
@[simp] theorem setPeer_tly (s : State) (k : Nat) (p : PeerSt) : (s.setPeer k p).tly = s.tly := rfl
@[simp] theorem setPeer_hmb (s : State) (k : Nat) (p : PeerSt) : (s.setPeer k p).hmb = s.hmb := rfl
@[simp] theorem setPeer_spi (s : State) (k : Nat) (p : PeerSt) : (s.setPeer k p).spi = s.spi := rfl
@[simp] theorem setPeer_canRec (s : State) (k : Nat) (p : PeerSt) : (s.setPeer k p).canRec = s.canRec := rfl
@[simp] theorem setPeer_pmu (s : State) (k : Nat) (p : PeerSt) : (s.setPeer k p).pmu = s.pmu := rfl
@[simp] theorem setPeer_pwm (s : State) (k : Nat) (p : PeerSt) : (s.setPeer k p).pwm = s.pwm := rfl
@[simp] theorem setPeer_glk (s : State) (k : Nat) (p : PeerSt) : (s.setPeer k p).glk = s.glk := rfl
@[simp] theorem setPeer_fbc (s : State) (k : Nat) (p : PeerSt) : (s.setPeer k p).fbc = s.fbc := rfl
@[simp] theorem setPeer_lpe (s : State) (k : Nat) (p : PeerSt) : (s.setPeer k p).lpe = s.lpe := rfl
@[simp] theorem setPeer_adc (s : State) (k : Nat) (p : PeerSt) : (s.setPeer k p).adc = s.adc := rfl
@[simp] theorem setPeer_arb (s : State) (k : Nat) (p : PeerSt) : (s.setPeer k p).arb = s.arb := rfl
@[simp] theorem setPeer_sty (s : State) (k : Nat) (p : PeerSt) : (s.setPeer k p).sty = s.sty := rfl
@[simp] theorem setPeer_anw (s : State) (k : Nat) (p : PeerSt) : (s.setPeer k p).anw = s.anw := rfl
@[simp] theorem setPeer_ast (s : State) (k : Nat) (p : PeerSt) : (s.setPeer k p).ast = s.ast := rfl
@[simp] theorem setPeer_svc (s : State) (k : Nat) (p : PeerSt) : (s.setPeer k p).svc = s.svc := rfl
@[simp] theorem setPeer_upd (s : State) (k : Nat) (p : PeerSt) : (s.setPeer k p).upd = s.upd := rfl
@[simp] theorem setPeer_slp (s : State) (k : Nat) (p : PeerSt) : (s.setPeer k p).slp = s.slp := rfl
@[simp] theorem setPeer_coreRegs (s : State) (k : Nat) (p : PeerSt) : (s.setPeer k p).coreRegs = s.coreRegs := rfl
@[simp] theorem setPeer_cmpStuck (s : State) (k : Nat) (p : PeerSt) : (s.setPeer k p).cmpStuck = s.cmpStuck := rfl
@[simp] theorem setPeer_agr (s : State) (k : Nat) (p : PeerSt) : (s.setPeer k p).agr = s.agr := rfl
@[simp] theorem setPeer_sec (s : State) (k : Nat) (p : PeerSt) : (s.setPeer k p).sec = s.sec := rfl
@[simp] theorem setPeer_rdm (s : State) (k : Nat) (p : PeerSt) : (s.setPeer k p).rdm = s.rdm := rfl
@[simp] theorem setPeer_tsk (s : State) (k : Nat) (p : PeerSt) : (s.setPeer k p).tsk = s.tsk := rfl
@[simp] theorem setPeer_reg (s : State) (k : Nat) (p : PeerSt) (x : Nat) : (s.setPeer k p).reg x = s.reg x := rfl
@[simp] theorem setPeer_rn (s : State) (k : Nat) (p : PeerSt) (x : Nat) : (s.setPeer k p).rn x = s.rn x := rfl
@[simp] theorem setPeer_rf (s : State) (k : Nat) (p : PeerSt) (x : Fld) : (s.setPeer k p).rf x = s.rf x := rfl

/-! ### State.setPair -/

@[simp] theorem setPair_pending (s : State) (k : Nat) (p : SlpPair) : (s.setPair k p).pending = s.pending := rfl
@[simp] theorem setPair_otp (s : State) (k : Nat) (p : SlpPair) : (s.setPair k p).otp = s.otp := rfl
@[simp] theorem setPair_flash (s : State) (k : Nat) (p : SlpPair) : (s.setPair k p).flash = s.flash := rfl
@[simp] theorem setPair_now (s : State) (k : Nat) (p : SlpPair) : (s.setPair k p).now = s.now := rfl
@[simp] theorem setPair_gt (s : State) (k : Nat) (p : SlpPair) : (s.setPair k p).gt = s.gt := rfl
@[simp] theorem setPair_frac (s : State) (k : Nat) (p : SlpPair) : (s.setPair k p).frac = s.frac := rfl
@[simp] theorem setPair_rate (s : State) (k : Nat) (p : SlpPair) : (s.setPair k p).rate = s.rate := rfl
@[simp] theorem setPair_slew (s : State) (k : Nat) (p : SlpPair) : (s.setPair k p).slew = s.slew := rfl
@[simp] theorem setPair_regs (s : State) (k : Nat) (p : SlpPair) : (s.setPair k p).regs = s.regs := rfl
@[simp] theorem setPair_hwSet (s : State) (k : Nat) (p : SlpPair) : (s.setPair k p).hwSet = s.hwSet := rfl
@[simp] theorem setPair_mem (s : State) (k : Nat) (p : SlpPair) : (s.setPair k p).mem = s.mem := rfl
@[simp] theorem setPair_tcm (s : State) (k : Nat) (p : SlpPair) : (s.setPair k p).tcm = s.tcm := rfl
@[simp] theorem setPair_rdata (s : State) (k : Nat) (p : SlpPair) : (s.setPair k p).rdata = s.rdata := rfl
@[simp] theorem setPair_free (s : State) (k : Nat) (p : SlpPair) : (s.setPair k p).free = s.free := rfl
@[simp] theorem setPair_outbox (s : State) (k : Nat) (p : SlpPair) : (s.setPair k p).outbox = s.outbox := rfl
@[simp] theorem setPair_lane (s : State) (k : Nat) (p : SlpPair) : (s.setPair k p).lane = s.lane := rfl
@[simp] theorem setPair_spn (s : State) (k : Nat) (p : SlpPair) : (s.setPair k p).spn = s.spn := rfl
@[simp] theorem setPair_tly (s : State) (k : Nat) (p : SlpPair) : (s.setPair k p).tly = s.tly := rfl
@[simp] theorem setPair_hmb (s : State) (k : Nat) (p : SlpPair) : (s.setPair k p).hmb = s.hmb := rfl
@[simp] theorem setPair_spi (s : State) (k : Nat) (p : SlpPair) : (s.setPair k p).spi = s.spi := rfl
@[simp] theorem setPair_canRec (s : State) (k : Nat) (p : SlpPair) : (s.setPair k p).canRec = s.canRec := rfl
@[simp] theorem setPair_pmu (s : State) (k : Nat) (p : SlpPair) : (s.setPair k p).pmu = s.pmu := rfl
@[simp] theorem setPair_pwm (s : State) (k : Nat) (p : SlpPair) : (s.setPair k p).pwm = s.pwm := rfl
@[simp] theorem setPair_glk (s : State) (k : Nat) (p : SlpPair) : (s.setPair k p).glk = s.glk := rfl
@[simp] theorem setPair_fbc (s : State) (k : Nat) (p : SlpPair) : (s.setPair k p).fbc = s.fbc := rfl
@[simp] theorem setPair_lpe (s : State) (k : Nat) (p : SlpPair) : (s.setPair k p).lpe = s.lpe := rfl
@[simp] theorem setPair_adc (s : State) (k : Nat) (p : SlpPair) : (s.setPair k p).adc = s.adc := rfl
@[simp] theorem setPair_arb (s : State) (k : Nat) (p : SlpPair) : (s.setPair k p).arb = s.arb := rfl
@[simp] theorem setPair_sty (s : State) (k : Nat) (p : SlpPair) : (s.setPair k p).sty = s.sty := rfl
@[simp] theorem setPair_anw (s : State) (k : Nat) (p : SlpPair) : (s.setPair k p).anw = s.anw := rfl
@[simp] theorem setPair_ast (s : State) (k : Nat) (p : SlpPair) : (s.setPair k p).ast = s.ast := rfl
@[simp] theorem setPair_svc (s : State) (k : Nat) (p : SlpPair) : (s.setPair k p).svc = s.svc := rfl
@[simp] theorem setPair_upd (s : State) (k : Nat) (p : SlpPair) : (s.setPair k p).upd = s.upd := rfl
@[simp] theorem setPair_coreRegs (s : State) (k : Nat) (p : SlpPair) : (s.setPair k p).coreRegs = s.coreRegs := rfl
@[simp] theorem setPair_cmpStuck (s : State) (k : Nat) (p : SlpPair) : (s.setPair k p).cmpStuck = s.cmpStuck := rfl
@[simp] theorem setPair_agr (s : State) (k : Nat) (p : SlpPair) : (s.setPair k p).agr = s.agr := rfl
@[simp] theorem setPair_sec (s : State) (k : Nat) (p : SlpPair) : (s.setPair k p).sec = s.sec := rfl
@[simp] theorem setPair_rdm (s : State) (k : Nat) (p : SlpPair) : (s.setPair k p).rdm = s.rdm := rfl
@[simp] theorem setPair_tsk (s : State) (k : Nat) (p : SlpPair) : (s.setPair k p).tsk = s.tsk := rfl
@[simp] theorem setPair_reg (s : State) (k : Nat) (p : SlpPair) (x : Nat) : (s.setPair k p).reg x = s.reg x := rfl
@[simp] theorem setPair_rn (s : State) (k : Nat) (p : SlpPair) (x : Nat) : (s.setPair k p).rn x = s.rn x := rfl
@[simp] theorem setPair_rf (s : State) (k : Nat) (p : SlpPair) (x : Fld) : (s.setPair k p).rf x = s.rf x := rfl

/-! ### State.setEntry -/

@[simp] theorem setEntry_pending (s : State) (k : Nat) (p : EntrySt) : (s.setEntry k p).pending = s.pending := rfl
@[simp] theorem setEntry_otp (s : State) (k : Nat) (p : EntrySt) : (s.setEntry k p).otp = s.otp := rfl
@[simp] theorem setEntry_flash (s : State) (k : Nat) (p : EntrySt) : (s.setEntry k p).flash = s.flash := rfl
@[simp] theorem setEntry_now (s : State) (k : Nat) (p : EntrySt) : (s.setEntry k p).now = s.now := rfl
@[simp] theorem setEntry_gt (s : State) (k : Nat) (p : EntrySt) : (s.setEntry k p).gt = s.gt := rfl
@[simp] theorem setEntry_frac (s : State) (k : Nat) (p : EntrySt) : (s.setEntry k p).frac = s.frac := rfl
@[simp] theorem setEntry_rate (s : State) (k : Nat) (p : EntrySt) : (s.setEntry k p).rate = s.rate := rfl
@[simp] theorem setEntry_slew (s : State) (k : Nat) (p : EntrySt) : (s.setEntry k p).slew = s.slew := rfl
@[simp] theorem setEntry_regs (s : State) (k : Nat) (p : EntrySt) : (s.setEntry k p).regs = s.regs := rfl
@[simp] theorem setEntry_hwSet (s : State) (k : Nat) (p : EntrySt) : (s.setEntry k p).hwSet = s.hwSet := rfl
@[simp] theorem setEntry_mem (s : State) (k : Nat) (p : EntrySt) : (s.setEntry k p).mem = s.mem := rfl
@[simp] theorem setEntry_tcm (s : State) (k : Nat) (p : EntrySt) : (s.setEntry k p).tcm = s.tcm := rfl
@[simp] theorem setEntry_rdata (s : State) (k : Nat) (p : EntrySt) : (s.setEntry k p).rdata = s.rdata := rfl
@[simp] theorem setEntry_free (s : State) (k : Nat) (p : EntrySt) : (s.setEntry k p).free = s.free := rfl
@[simp] theorem setEntry_outbox (s : State) (k : Nat) (p : EntrySt) : (s.setEntry k p).outbox = s.outbox := rfl
@[simp] theorem setEntry_lane (s : State) (k : Nat) (p : EntrySt) : (s.setEntry k p).lane = s.lane := rfl
@[simp] theorem setEntry_tly (s : State) (k : Nat) (p : EntrySt) : (s.setEntry k p).tly = s.tly := rfl
@[simp] theorem setEntry_hmb (s : State) (k : Nat) (p : EntrySt) : (s.setEntry k p).hmb = s.hmb := rfl
@[simp] theorem setEntry_spi (s : State) (k : Nat) (p : EntrySt) : (s.setEntry k p).spi = s.spi := rfl
@[simp] theorem setEntry_canRec (s : State) (k : Nat) (p : EntrySt) : (s.setEntry k p).canRec = s.canRec := rfl
@[simp] theorem setEntry_pmu (s : State) (k : Nat) (p : EntrySt) : (s.setEntry k p).pmu = s.pmu := rfl
@[simp] theorem setEntry_pwm (s : State) (k : Nat) (p : EntrySt) : (s.setEntry k p).pwm = s.pwm := rfl
@[simp] theorem setEntry_glk (s : State) (k : Nat) (p : EntrySt) : (s.setEntry k p).glk = s.glk := rfl
@[simp] theorem setEntry_fbc (s : State) (k : Nat) (p : EntrySt) : (s.setEntry k p).fbc = s.fbc := rfl
@[simp] theorem setEntry_lpe (s : State) (k : Nat) (p : EntrySt) : (s.setEntry k p).lpe = s.lpe := rfl
@[simp] theorem setEntry_adc (s : State) (k : Nat) (p : EntrySt) : (s.setEntry k p).adc = s.adc := rfl
@[simp] theorem setEntry_arb (s : State) (k : Nat) (p : EntrySt) : (s.setEntry k p).arb = s.arb := rfl
@[simp] theorem setEntry_sty (s : State) (k : Nat) (p : EntrySt) : (s.setEntry k p).sty = s.sty := rfl
@[simp] theorem setEntry_anw (s : State) (k : Nat) (p : EntrySt) : (s.setEntry k p).anw = s.anw := rfl
@[simp] theorem setEntry_ast (s : State) (k : Nat) (p : EntrySt) : (s.setEntry k p).ast = s.ast := rfl
@[simp] theorem setEntry_svc (s : State) (k : Nat) (p : EntrySt) : (s.setEntry k p).svc = s.svc := rfl
@[simp] theorem setEntry_upd (s : State) (k : Nat) (p : EntrySt) : (s.setEntry k p).upd = s.upd := rfl
@[simp] theorem setEntry_slp (s : State) (k : Nat) (p : EntrySt) : (s.setEntry k p).slp = s.slp := rfl
@[simp] theorem setEntry_coreRegs (s : State) (k : Nat) (p : EntrySt) : (s.setEntry k p).coreRegs = s.coreRegs := rfl
@[simp] theorem setEntry_cmpStuck (s : State) (k : Nat) (p : EntrySt) : (s.setEntry k p).cmpStuck = s.cmpStuck := rfl
@[simp] theorem setEntry_agr (s : State) (k : Nat) (p : EntrySt) : (s.setEntry k p).agr = s.agr := rfl
@[simp] theorem setEntry_sec (s : State) (k : Nat) (p : EntrySt) : (s.setEntry k p).sec = s.sec := rfl
@[simp] theorem setEntry_rdm (s : State) (k : Nat) (p : EntrySt) : (s.setEntry k p).rdm = s.rdm := rfl
@[simp] theorem setEntry_tsk (s : State) (k : Nat) (p : EntrySt) : (s.setEntry k p).tsk = s.tsk := rfl
@[simp] theorem setEntry_reg (s : State) (k : Nat) (p : EntrySt) (x : Nat) : (s.setEntry k p).reg x = s.reg x := rfl
@[simp] theorem setEntry_rn (s : State) (k : Nat) (p : EntrySt) (x : Nat) : (s.setEntry k p).rn x = s.rn x := rfl
@[simp] theorem setEntry_rf (s : State) (k : Nat) (p : EntrySt) (x : Fld) : (s.setEntry k p).rf x = s.rf x := rfl

/-! ### State.setLeg -/

@[simp] theorem setLeg_pending (s : State) (k : Nat) (p : LegSt) : (s.setLeg k p).pending = s.pending := rfl
@[simp] theorem setLeg_otp (s : State) (k : Nat) (p : LegSt) : (s.setLeg k p).otp = s.otp := rfl
@[simp] theorem setLeg_flash (s : State) (k : Nat) (p : LegSt) : (s.setLeg k p).flash = s.flash := rfl
@[simp] theorem setLeg_now (s : State) (k : Nat) (p : LegSt) : (s.setLeg k p).now = s.now := rfl
@[simp] theorem setLeg_gt (s : State) (k : Nat) (p : LegSt) : (s.setLeg k p).gt = s.gt := rfl
@[simp] theorem setLeg_frac (s : State) (k : Nat) (p : LegSt) : (s.setLeg k p).frac = s.frac := rfl
@[simp] theorem setLeg_rate (s : State) (k : Nat) (p : LegSt) : (s.setLeg k p).rate = s.rate := rfl
@[simp] theorem setLeg_slew (s : State) (k : Nat) (p : LegSt) : (s.setLeg k p).slew = s.slew := rfl
@[simp] theorem setLeg_regs (s : State) (k : Nat) (p : LegSt) : (s.setLeg k p).regs = s.regs := rfl
@[simp] theorem setLeg_hwSet (s : State) (k : Nat) (p : LegSt) : (s.setLeg k p).hwSet = s.hwSet := rfl
@[simp] theorem setLeg_mem (s : State) (k : Nat) (p : LegSt) : (s.setLeg k p).mem = s.mem := rfl
@[simp] theorem setLeg_tcm (s : State) (k : Nat) (p : LegSt) : (s.setLeg k p).tcm = s.tcm := rfl
@[simp] theorem setLeg_rdata (s : State) (k : Nat) (p : LegSt) : (s.setLeg k p).rdata = s.rdata := rfl
@[simp] theorem setLeg_free (s : State) (k : Nat) (p : LegSt) : (s.setLeg k p).free = s.free := rfl
@[simp] theorem setLeg_outbox (s : State) (k : Nat) (p : LegSt) : (s.setLeg k p).outbox = s.outbox := rfl
@[simp] theorem setLeg_lane (s : State) (k : Nat) (p : LegSt) : (s.setLeg k p).lane = s.lane := rfl
@[simp] theorem setLeg_spn (s : State) (k : Nat) (p : LegSt) : (s.setLeg k p).spn = s.spn := rfl
@[simp] theorem setLeg_tly (s : State) (k : Nat) (p : LegSt) : (s.setLeg k p).tly = s.tly := rfl
@[simp] theorem setLeg_hmb (s : State) (k : Nat) (p : LegSt) : (s.setLeg k p).hmb = s.hmb := rfl
@[simp] theorem setLeg_spi (s : State) (k : Nat) (p : LegSt) : (s.setLeg k p).spi = s.spi := rfl
@[simp] theorem setLeg_canRec (s : State) (k : Nat) (p : LegSt) : (s.setLeg k p).canRec = s.canRec := rfl
@[simp] theorem setLeg_pmu (s : State) (k : Nat) (p : LegSt) : (s.setLeg k p).pmu = s.pmu := rfl
@[simp] theorem setLeg_glk (s : State) (k : Nat) (p : LegSt) : (s.setLeg k p).glk = s.glk := rfl
@[simp] theorem setLeg_fbc (s : State) (k : Nat) (p : LegSt) : (s.setLeg k p).fbc = s.fbc := rfl
@[simp] theorem setLeg_lpe (s : State) (k : Nat) (p : LegSt) : (s.setLeg k p).lpe = s.lpe := rfl
@[simp] theorem setLeg_adc (s : State) (k : Nat) (p : LegSt) : (s.setLeg k p).adc = s.adc := rfl
@[simp] theorem setLeg_arb (s : State) (k : Nat) (p : LegSt) : (s.setLeg k p).arb = s.arb := rfl
@[simp] theorem setLeg_sty (s : State) (k : Nat) (p : LegSt) : (s.setLeg k p).sty = s.sty := rfl
@[simp] theorem setLeg_anw (s : State) (k : Nat) (p : LegSt) : (s.setLeg k p).anw = s.anw := rfl
@[simp] theorem setLeg_ast (s : State) (k : Nat) (p : LegSt) : (s.setLeg k p).ast = s.ast := rfl
@[simp] theorem setLeg_svc (s : State) (k : Nat) (p : LegSt) : (s.setLeg k p).svc = s.svc := rfl
@[simp] theorem setLeg_upd (s : State) (k : Nat) (p : LegSt) : (s.setLeg k p).upd = s.upd := rfl
@[simp] theorem setLeg_slp (s : State) (k : Nat) (p : LegSt) : (s.setLeg k p).slp = s.slp := rfl
@[simp] theorem setLeg_coreRegs (s : State) (k : Nat) (p : LegSt) : (s.setLeg k p).coreRegs = s.coreRegs := rfl
@[simp] theorem setLeg_cmpStuck (s : State) (k : Nat) (p : LegSt) : (s.setLeg k p).cmpStuck = s.cmpStuck := rfl
@[simp] theorem setLeg_agr (s : State) (k : Nat) (p : LegSt) : (s.setLeg k p).agr = s.agr := rfl
@[simp] theorem setLeg_sec (s : State) (k : Nat) (p : LegSt) : (s.setLeg k p).sec = s.sec := rfl
@[simp] theorem setLeg_rdm (s : State) (k : Nat) (p : LegSt) : (s.setLeg k p).rdm = s.rdm := rfl
@[simp] theorem setLeg_tsk (s : State) (k : Nat) (p : LegSt) : (s.setLeg k p).tsk = s.tsk := rfl
@[simp] theorem setLeg_reg (s : State) (k : Nat) (p : LegSt) (x : Nat) : (s.setLeg k p).reg x = s.reg x := rfl
@[simp] theorem setLeg_rn (s : State) (k : Nat) (p : LegSt) (x : Nat) : (s.setLeg k p).rn x = s.rn x := rfl
@[simp] theorem setLeg_rf (s : State) (k : Nat) (p : LegSt) (x : Fld) : (s.setLeg k p).rf x = s.rf x := rfl

/-! ### State.setBank -/

@[simp] theorem setBank_pending (s : State) (k : Nat) (p : BankSt) : (s.setBank k p).pending = s.pending := rfl
@[simp] theorem setBank_otp (s : State) (k : Nat) (p : BankSt) : (s.setBank k p).otp = s.otp := rfl
@[simp] theorem setBank_flash (s : State) (k : Nat) (p : BankSt) : (s.setBank k p).flash = s.flash := rfl
@[simp] theorem setBank_now (s : State) (k : Nat) (p : BankSt) : (s.setBank k p).now = s.now := rfl
@[simp] theorem setBank_gt (s : State) (k : Nat) (p : BankSt) : (s.setBank k p).gt = s.gt := rfl
@[simp] theorem setBank_frac (s : State) (k : Nat) (p : BankSt) : (s.setBank k p).frac = s.frac := rfl
@[simp] theorem setBank_rate (s : State) (k : Nat) (p : BankSt) : (s.setBank k p).rate = s.rate := rfl
@[simp] theorem setBank_slew (s : State) (k : Nat) (p : BankSt) : (s.setBank k p).slew = s.slew := rfl
@[simp] theorem setBank_regs (s : State) (k : Nat) (p : BankSt) : (s.setBank k p).regs = s.regs := rfl
@[simp] theorem setBank_hwSet (s : State) (k : Nat) (p : BankSt) : (s.setBank k p).hwSet = s.hwSet := rfl
@[simp] theorem setBank_mem (s : State) (k : Nat) (p : BankSt) : (s.setBank k p).mem = s.mem := rfl
@[simp] theorem setBank_tcm (s : State) (k : Nat) (p : BankSt) : (s.setBank k p).tcm = s.tcm := rfl
@[simp] theorem setBank_rdata (s : State) (k : Nat) (p : BankSt) : (s.setBank k p).rdata = s.rdata := rfl
@[simp] theorem setBank_free (s : State) (k : Nat) (p : BankSt) : (s.setBank k p).free = s.free := rfl
@[simp] theorem setBank_outbox (s : State) (k : Nat) (p : BankSt) : (s.setBank k p).outbox = s.outbox := rfl
@[simp] theorem setBank_lane (s : State) (k : Nat) (p : BankSt) : (s.setBank k p).lane = s.lane := rfl
@[simp] theorem setBank_spn (s : State) (k : Nat) (p : BankSt) : (s.setBank k p).spn = s.spn := rfl
@[simp] theorem setBank_tly (s : State) (k : Nat) (p : BankSt) : (s.setBank k p).tly = s.tly := rfl
@[simp] theorem setBank_hmb (s : State) (k : Nat) (p : BankSt) : (s.setBank k p).hmb = s.hmb := rfl
@[simp] theorem setBank_spi (s : State) (k : Nat) (p : BankSt) : (s.setBank k p).spi = s.spi := rfl
@[simp] theorem setBank_canRec (s : State) (k : Nat) (p : BankSt) : (s.setBank k p).canRec = s.canRec := rfl
@[simp] theorem setBank_pmu (s : State) (k : Nat) (p : BankSt) : (s.setBank k p).pmu = s.pmu := rfl
@[simp] theorem setBank_glk (s : State) (k : Nat) (p : BankSt) : (s.setBank k p).glk = s.glk := rfl
@[simp] theorem setBank_fbc (s : State) (k : Nat) (p : BankSt) : (s.setBank k p).fbc = s.fbc := rfl
@[simp] theorem setBank_lpe (s : State) (k : Nat) (p : BankSt) : (s.setBank k p).lpe = s.lpe := rfl
@[simp] theorem setBank_adc (s : State) (k : Nat) (p : BankSt) : (s.setBank k p).adc = s.adc := rfl
@[simp] theorem setBank_arb (s : State) (k : Nat) (p : BankSt) : (s.setBank k p).arb = s.arb := rfl
@[simp] theorem setBank_sty (s : State) (k : Nat) (p : BankSt) : (s.setBank k p).sty = s.sty := rfl
@[simp] theorem setBank_anw (s : State) (k : Nat) (p : BankSt) : (s.setBank k p).anw = s.anw := rfl
@[simp] theorem setBank_ast (s : State) (k : Nat) (p : BankSt) : (s.setBank k p).ast = s.ast := rfl
@[simp] theorem setBank_svc (s : State) (k : Nat) (p : BankSt) : (s.setBank k p).svc = s.svc := rfl
@[simp] theorem setBank_upd (s : State) (k : Nat) (p : BankSt) : (s.setBank k p).upd = s.upd := rfl
@[simp] theorem setBank_slp (s : State) (k : Nat) (p : BankSt) : (s.setBank k p).slp = s.slp := rfl
@[simp] theorem setBank_coreRegs (s : State) (k : Nat) (p : BankSt) : (s.setBank k p).coreRegs = s.coreRegs := rfl
@[simp] theorem setBank_cmpStuck (s : State) (k : Nat) (p : BankSt) : (s.setBank k p).cmpStuck = s.cmpStuck := rfl
@[simp] theorem setBank_agr (s : State) (k : Nat) (p : BankSt) : (s.setBank k p).agr = s.agr := rfl
@[simp] theorem setBank_sec (s : State) (k : Nat) (p : BankSt) : (s.setBank k p).sec = s.sec := rfl
@[simp] theorem setBank_rdm (s : State) (k : Nat) (p : BankSt) : (s.setBank k p).rdm = s.rdm := rfl
@[simp] theorem setBank_tsk (s : State) (k : Nat) (p : BankSt) : (s.setBank k p).tsk = s.tsk := rfl
@[simp] theorem setBank_reg (s : State) (k : Nat) (p : BankSt) (x : Nat) : (s.setBank k p).reg x = s.reg x := rfl
@[simp] theorem setBank_rn (s : State) (k : Nat) (p : BankSt) (x : Nat) : (s.setBank k p).rn x = s.rn x := rfl
@[simp] theorem setBank_rf (s : State) (k : Nat) (p : BankSt) (x : Fld) : (s.setBank k p).rf x = s.rf x := rfl

/-! ### State.setPort -/

@[simp] theorem setPort_pending (s : State) (k : Nat) (p : PortSt) : (s.setPort k p).pending = s.pending := rfl
@[simp] theorem setPort_otp (s : State) (k : Nat) (p : PortSt) : (s.setPort k p).otp = s.otp := rfl
@[simp] theorem setPort_flash (s : State) (k : Nat) (p : PortSt) : (s.setPort k p).flash = s.flash := rfl
@[simp] theorem setPort_now (s : State) (k : Nat) (p : PortSt) : (s.setPort k p).now = s.now := rfl
@[simp] theorem setPort_gt (s : State) (k : Nat) (p : PortSt) : (s.setPort k p).gt = s.gt := rfl
@[simp] theorem setPort_frac (s : State) (k : Nat) (p : PortSt) : (s.setPort k p).frac = s.frac := rfl
@[simp] theorem setPort_rate (s : State) (k : Nat) (p : PortSt) : (s.setPort k p).rate = s.rate := rfl
@[simp] theorem setPort_slew (s : State) (k : Nat) (p : PortSt) : (s.setPort k p).slew = s.slew := rfl
@[simp] theorem setPort_regs (s : State) (k : Nat) (p : PortSt) : (s.setPort k p).regs = s.regs := rfl
@[simp] theorem setPort_hwSet (s : State) (k : Nat) (p : PortSt) : (s.setPort k p).hwSet = s.hwSet := rfl
@[simp] theorem setPort_mem (s : State) (k : Nat) (p : PortSt) : (s.setPort k p).mem = s.mem := rfl
@[simp] theorem setPort_tcm (s : State) (k : Nat) (p : PortSt) : (s.setPort k p).tcm = s.tcm := rfl
@[simp] theorem setPort_rdata (s : State) (k : Nat) (p : PortSt) : (s.setPort k p).rdata = s.rdata := rfl
@[simp] theorem setPort_free (s : State) (k : Nat) (p : PortSt) : (s.setPort k p).free = s.free := rfl
@[simp] theorem setPort_outbox (s : State) (k : Nat) (p : PortSt) : (s.setPort k p).outbox = s.outbox := rfl
@[simp] theorem setPort_lane (s : State) (k : Nat) (p : PortSt) : (s.setPort k p).lane = s.lane := rfl
@[simp] theorem setPort_spn (s : State) (k : Nat) (p : PortSt) : (s.setPort k p).spn = s.spn := rfl
@[simp] theorem setPort_tly (s : State) (k : Nat) (p : PortSt) : (s.setPort k p).tly = s.tly := rfl
@[simp] theorem setPort_hmb (s : State) (k : Nat) (p : PortSt) : (s.setPort k p).hmb = s.hmb := rfl
@[simp] theorem setPort_spi (s : State) (k : Nat) (p : PortSt) : (s.setPort k p).spi = s.spi := rfl
@[simp] theorem setPort_canRec (s : State) (k : Nat) (p : PortSt) : (s.setPort k p).canRec = s.canRec := rfl
@[simp] theorem setPort_pmu (s : State) (k : Nat) (p : PortSt) : (s.setPort k p).pmu = s.pmu := rfl
@[simp] theorem setPort_pwm (s : State) (k : Nat) (p : PortSt) : (s.setPort k p).pwm = s.pwm := rfl
@[simp] theorem setPort_fbc (s : State) (k : Nat) (p : PortSt) : (s.setPort k p).fbc = s.fbc := rfl
@[simp] theorem setPort_lpe (s : State) (k : Nat) (p : PortSt) : (s.setPort k p).lpe = s.lpe := rfl
@[simp] theorem setPort_adc (s : State) (k : Nat) (p : PortSt) : (s.setPort k p).adc = s.adc := rfl
@[simp] theorem setPort_arb (s : State) (k : Nat) (p : PortSt) : (s.setPort k p).arb = s.arb := rfl
@[simp] theorem setPort_sty (s : State) (k : Nat) (p : PortSt) : (s.setPort k p).sty = s.sty := rfl
@[simp] theorem setPort_anw (s : State) (k : Nat) (p : PortSt) : (s.setPort k p).anw = s.anw := rfl
@[simp] theorem setPort_ast (s : State) (k : Nat) (p : PortSt) : (s.setPort k p).ast = s.ast := rfl
@[simp] theorem setPort_svc (s : State) (k : Nat) (p : PortSt) : (s.setPort k p).svc = s.svc := rfl
@[simp] theorem setPort_upd (s : State) (k : Nat) (p : PortSt) : (s.setPort k p).upd = s.upd := rfl
@[simp] theorem setPort_slp (s : State) (k : Nat) (p : PortSt) : (s.setPort k p).slp = s.slp := rfl
@[simp] theorem setPort_coreRegs (s : State) (k : Nat) (p : PortSt) : (s.setPort k p).coreRegs = s.coreRegs := rfl
@[simp] theorem setPort_cmpStuck (s : State) (k : Nat) (p : PortSt) : (s.setPort k p).cmpStuck = s.cmpStuck := rfl
@[simp] theorem setPort_agr (s : State) (k : Nat) (p : PortSt) : (s.setPort k p).agr = s.agr := rfl
@[simp] theorem setPort_sec (s : State) (k : Nat) (p : PortSt) : (s.setPort k p).sec = s.sec := rfl
@[simp] theorem setPort_rdm (s : State) (k : Nat) (p : PortSt) : (s.setPort k p).rdm = s.rdm := rfl
@[simp] theorem setPort_tsk (s : State) (k : Nat) (p : PortSt) : (s.setPort k p).tsk = s.tsk := rfl
@[simp] theorem setPort_reg (s : State) (k : Nat) (p : PortSt) (x : Nat) : (s.setPort k p).reg x = s.reg x := rfl
@[simp] theorem setPort_rn (s : State) (k : Nat) (p : PortSt) (x : Nat) : (s.setPort k p).rn x = s.rn x := rfl
@[simp] theorem setPort_rf (s : State) (k : Nat) (p : PortSt) (x : Fld) : (s.setPort k p).rf x = s.rf x := rfl

/-! ### State.setFb -/

@[simp] theorem setFb_pending (s : State) (k : Nat) (p : ChanFb) : (s.setFb k p).pending = s.pending := rfl
@[simp] theorem setFb_otp (s : State) (k : Nat) (p : ChanFb) : (s.setFb k p).otp = s.otp := rfl
@[simp] theorem setFb_flash (s : State) (k : Nat) (p : ChanFb) : (s.setFb k p).flash = s.flash := rfl
@[simp] theorem setFb_now (s : State) (k : Nat) (p : ChanFb) : (s.setFb k p).now = s.now := rfl
@[simp] theorem setFb_gt (s : State) (k : Nat) (p : ChanFb) : (s.setFb k p).gt = s.gt := rfl
@[simp] theorem setFb_frac (s : State) (k : Nat) (p : ChanFb) : (s.setFb k p).frac = s.frac := rfl
@[simp] theorem setFb_rate (s : State) (k : Nat) (p : ChanFb) : (s.setFb k p).rate = s.rate := rfl
@[simp] theorem setFb_slew (s : State) (k : Nat) (p : ChanFb) : (s.setFb k p).slew = s.slew := rfl
@[simp] theorem setFb_regs (s : State) (k : Nat) (p : ChanFb) : (s.setFb k p).regs = s.regs := rfl
@[simp] theorem setFb_hwSet (s : State) (k : Nat) (p : ChanFb) : (s.setFb k p).hwSet = s.hwSet := rfl
@[simp] theorem setFb_mem (s : State) (k : Nat) (p : ChanFb) : (s.setFb k p).mem = s.mem := rfl
@[simp] theorem setFb_tcm (s : State) (k : Nat) (p : ChanFb) : (s.setFb k p).tcm = s.tcm := rfl
@[simp] theorem setFb_rdata (s : State) (k : Nat) (p : ChanFb) : (s.setFb k p).rdata = s.rdata := rfl
@[simp] theorem setFb_free (s : State) (k : Nat) (p : ChanFb) : (s.setFb k p).free = s.free := rfl
@[simp] theorem setFb_outbox (s : State) (k : Nat) (p : ChanFb) : (s.setFb k p).outbox = s.outbox := rfl
@[simp] theorem setFb_lane (s : State) (k : Nat) (p : ChanFb) : (s.setFb k p).lane = s.lane := rfl
@[simp] theorem setFb_spn (s : State) (k : Nat) (p : ChanFb) : (s.setFb k p).spn = s.spn := rfl
@[simp] theorem setFb_tly (s : State) (k : Nat) (p : ChanFb) : (s.setFb k p).tly = s.tly := rfl
@[simp] theorem setFb_hmb (s : State) (k : Nat) (p : ChanFb) : (s.setFb k p).hmb = s.hmb := rfl
@[simp] theorem setFb_spi (s : State) (k : Nat) (p : ChanFb) : (s.setFb k p).spi = s.spi := rfl
@[simp] theorem setFb_canRec (s : State) (k : Nat) (p : ChanFb) : (s.setFb k p).canRec = s.canRec := rfl
@[simp] theorem setFb_pmu (s : State) (k : Nat) (p : ChanFb) : (s.setFb k p).pmu = s.pmu := rfl
@[simp] theorem setFb_pwm (s : State) (k : Nat) (p : ChanFb) : (s.setFb k p).pwm = s.pwm := rfl
@[simp] theorem setFb_glk (s : State) (k : Nat) (p : ChanFb) : (s.setFb k p).glk = s.glk := rfl
@[simp] theorem setFb_lpe (s : State) (k : Nat) (p : ChanFb) : (s.setFb k p).lpe = s.lpe := rfl
@[simp] theorem setFb_adc (s : State) (k : Nat) (p : ChanFb) : (s.setFb k p).adc = s.adc := rfl
@[simp] theorem setFb_arb (s : State) (k : Nat) (p : ChanFb) : (s.setFb k p).arb = s.arb := rfl
@[simp] theorem setFb_sty (s : State) (k : Nat) (p : ChanFb) : (s.setFb k p).sty = s.sty := rfl
@[simp] theorem setFb_anw (s : State) (k : Nat) (p : ChanFb) : (s.setFb k p).anw = s.anw := rfl
@[simp] theorem setFb_ast (s : State) (k : Nat) (p : ChanFb) : (s.setFb k p).ast = s.ast := rfl
@[simp] theorem setFb_svc (s : State) (k : Nat) (p : ChanFb) : (s.setFb k p).svc = s.svc := rfl
@[simp] theorem setFb_upd (s : State) (k : Nat) (p : ChanFb) : (s.setFb k p).upd = s.upd := rfl
@[simp] theorem setFb_slp (s : State) (k : Nat) (p : ChanFb) : (s.setFb k p).slp = s.slp := rfl
@[simp] theorem setFb_coreRegs (s : State) (k : Nat) (p : ChanFb) : (s.setFb k p).coreRegs = s.coreRegs := rfl
@[simp] theorem setFb_cmpStuck (s : State) (k : Nat) (p : ChanFb) : (s.setFb k p).cmpStuck = s.cmpStuck := rfl
@[simp] theorem setFb_agr (s : State) (k : Nat) (p : ChanFb) : (s.setFb k p).agr = s.agr := rfl
@[simp] theorem setFb_sec (s : State) (k : Nat) (p : ChanFb) : (s.setFb k p).sec = s.sec := rfl
@[simp] theorem setFb_rdm (s : State) (k : Nat) (p : ChanFb) : (s.setFb k p).rdm = s.rdm := rfl
@[simp] theorem setFb_tsk (s : State) (k : Nat) (p : ChanFb) : (s.setFb k p).tsk = s.tsk := rfl
@[simp] theorem setFb_reg (s : State) (k : Nat) (p : ChanFb) (x : Nat) : (s.setFb k p).reg x = s.reg x := rfl
@[simp] theorem setFb_rn (s : State) (k : Nat) (p : ChanFb) (x : Nat) : (s.setFb k p).rn x = s.rn x := rfl
@[simp] theorem setFb_rf (s : State) (k : Nat) (p : ChanFb) (x : Fld) : (s.setFb k p).rf x = s.rf x := rfl

/-! ### State.setCtx -/

@[simp] theorem setCtx_pending (s : State) (k : Nat) (p : CtxSt) : (s.setCtx k p).pending = s.pending := rfl
@[simp] theorem setCtx_otp (s : State) (k : Nat) (p : CtxSt) : (s.setCtx k p).otp = s.otp := rfl
@[simp] theorem setCtx_flash (s : State) (k : Nat) (p : CtxSt) : (s.setCtx k p).flash = s.flash := rfl
@[simp] theorem setCtx_now (s : State) (k : Nat) (p : CtxSt) : (s.setCtx k p).now = s.now := rfl
@[simp] theorem setCtx_gt (s : State) (k : Nat) (p : CtxSt) : (s.setCtx k p).gt = s.gt := rfl
@[simp] theorem setCtx_frac (s : State) (k : Nat) (p : CtxSt) : (s.setCtx k p).frac = s.frac := rfl
@[simp] theorem setCtx_rate (s : State) (k : Nat) (p : CtxSt) : (s.setCtx k p).rate = s.rate := rfl
@[simp] theorem setCtx_slew (s : State) (k : Nat) (p : CtxSt) : (s.setCtx k p).slew = s.slew := rfl
@[simp] theorem setCtx_regs (s : State) (k : Nat) (p : CtxSt) : (s.setCtx k p).regs = s.regs := rfl
@[simp] theorem setCtx_hwSet (s : State) (k : Nat) (p : CtxSt) : (s.setCtx k p).hwSet = s.hwSet := rfl
@[simp] theorem setCtx_mem (s : State) (k : Nat) (p : CtxSt) : (s.setCtx k p).mem = s.mem := rfl
@[simp] theorem setCtx_tcm (s : State) (k : Nat) (p : CtxSt) : (s.setCtx k p).tcm = s.tcm := rfl
@[simp] theorem setCtx_rdata (s : State) (k : Nat) (p : CtxSt) : (s.setCtx k p).rdata = s.rdata := rfl
@[simp] theorem setCtx_free (s : State) (k : Nat) (p : CtxSt) : (s.setCtx k p).free = s.free := rfl
@[simp] theorem setCtx_outbox (s : State) (k : Nat) (p : CtxSt) : (s.setCtx k p).outbox = s.outbox := rfl
@[simp] theorem setCtx_lane (s : State) (k : Nat) (p : CtxSt) : (s.setCtx k p).lane = s.lane := rfl
@[simp] theorem setCtx_spn (s : State) (k : Nat) (p : CtxSt) : (s.setCtx k p).spn = s.spn := rfl
@[simp] theorem setCtx_tly (s : State) (k : Nat) (p : CtxSt) : (s.setCtx k p).tly = s.tly := rfl
@[simp] theorem setCtx_hmb (s : State) (k : Nat) (p : CtxSt) : (s.setCtx k p).hmb = s.hmb := rfl
@[simp] theorem setCtx_spi (s : State) (k : Nat) (p : CtxSt) : (s.setCtx k p).spi = s.spi := rfl
@[simp] theorem setCtx_canRec (s : State) (k : Nat) (p : CtxSt) : (s.setCtx k p).canRec = s.canRec := rfl
@[simp] theorem setCtx_pmu (s : State) (k : Nat) (p : CtxSt) : (s.setCtx k p).pmu = s.pmu := rfl
@[simp] theorem setCtx_pwm (s : State) (k : Nat) (p : CtxSt) : (s.setCtx k p).pwm = s.pwm := rfl
@[simp] theorem setCtx_glk (s : State) (k : Nat) (p : CtxSt) : (s.setCtx k p).glk = s.glk := rfl
@[simp] theorem setCtx_fbc (s : State) (k : Nat) (p : CtxSt) : (s.setCtx k p).fbc = s.fbc := rfl
@[simp] theorem setCtx_adc (s : State) (k : Nat) (p : CtxSt) : (s.setCtx k p).adc = s.adc := rfl
@[simp] theorem setCtx_arb (s : State) (k : Nat) (p : CtxSt) : (s.setCtx k p).arb = s.arb := rfl
@[simp] theorem setCtx_sty (s : State) (k : Nat) (p : CtxSt) : (s.setCtx k p).sty = s.sty := rfl
@[simp] theorem setCtx_anw (s : State) (k : Nat) (p : CtxSt) : (s.setCtx k p).anw = s.anw := rfl
@[simp] theorem setCtx_ast (s : State) (k : Nat) (p : CtxSt) : (s.setCtx k p).ast = s.ast := rfl
@[simp] theorem setCtx_svc (s : State) (k : Nat) (p : CtxSt) : (s.setCtx k p).svc = s.svc := rfl
@[simp] theorem setCtx_upd (s : State) (k : Nat) (p : CtxSt) : (s.setCtx k p).upd = s.upd := rfl
@[simp] theorem setCtx_slp (s : State) (k : Nat) (p : CtxSt) : (s.setCtx k p).slp = s.slp := rfl
@[simp] theorem setCtx_coreRegs (s : State) (k : Nat) (p : CtxSt) : (s.setCtx k p).coreRegs = s.coreRegs := rfl
@[simp] theorem setCtx_cmpStuck (s : State) (k : Nat) (p : CtxSt) : (s.setCtx k p).cmpStuck = s.cmpStuck := rfl
@[simp] theorem setCtx_agr (s : State) (k : Nat) (p : CtxSt) : (s.setCtx k p).agr = s.agr := rfl
@[simp] theorem setCtx_sec (s : State) (k : Nat) (p : CtxSt) : (s.setCtx k p).sec = s.sec := rfl
@[simp] theorem setCtx_rdm (s : State) (k : Nat) (p : CtxSt) : (s.setCtx k p).rdm = s.rdm := rfl
@[simp] theorem setCtx_tsk (s : State) (k : Nat) (p : CtxSt) : (s.setCtx k p).tsk = s.tsk := rfl
@[simp] theorem setCtx_reg (s : State) (k : Nat) (p : CtxSt) (x : Nat) : (s.setCtx k p).reg x = s.reg x := rfl
@[simp] theorem setCtx_rn (s : State) (k : Nat) (p : CtxSt) (x : Nat) : (s.setCtx k p).rn x = s.rn x := rfl
@[simp] theorem setCtx_rf (s : State) (k : Nat) (p : CtxSt) (x : Fld) : (s.setCtx k p).rf x = s.rf x := rfl

/-! ### State.setChan -/

@[simp] theorem setChan_pending (s : State) (k : Nat) (p : ChanSt) : (s.setChan k p).pending = s.pending := rfl
@[simp] theorem setChan_otp (s : State) (k : Nat) (p : ChanSt) : (s.setChan k p).otp = s.otp := rfl
@[simp] theorem setChan_flash (s : State) (k : Nat) (p : ChanSt) : (s.setChan k p).flash = s.flash := rfl
@[simp] theorem setChan_now (s : State) (k : Nat) (p : ChanSt) : (s.setChan k p).now = s.now := rfl
@[simp] theorem setChan_gt (s : State) (k : Nat) (p : ChanSt) : (s.setChan k p).gt = s.gt := rfl
@[simp] theorem setChan_frac (s : State) (k : Nat) (p : ChanSt) : (s.setChan k p).frac = s.frac := rfl
@[simp] theorem setChan_rate (s : State) (k : Nat) (p : ChanSt) : (s.setChan k p).rate = s.rate := rfl
@[simp] theorem setChan_slew (s : State) (k : Nat) (p : ChanSt) : (s.setChan k p).slew = s.slew := rfl
@[simp] theorem setChan_regs (s : State) (k : Nat) (p : ChanSt) : (s.setChan k p).regs = s.regs := rfl
@[simp] theorem setChan_hwSet (s : State) (k : Nat) (p : ChanSt) : (s.setChan k p).hwSet = s.hwSet := rfl
@[simp] theorem setChan_mem (s : State) (k : Nat) (p : ChanSt) : (s.setChan k p).mem = s.mem := rfl
@[simp] theorem setChan_tcm (s : State) (k : Nat) (p : ChanSt) : (s.setChan k p).tcm = s.tcm := rfl
@[simp] theorem setChan_rdata (s : State) (k : Nat) (p : ChanSt) : (s.setChan k p).rdata = s.rdata := rfl
@[simp] theorem setChan_free (s : State) (k : Nat) (p : ChanSt) : (s.setChan k p).free = s.free := rfl
@[simp] theorem setChan_outbox (s : State) (k : Nat) (p : ChanSt) : (s.setChan k p).outbox = s.outbox := rfl
@[simp] theorem setChan_lane (s : State) (k : Nat) (p : ChanSt) : (s.setChan k p).lane = s.lane := rfl
@[simp] theorem setChan_spn (s : State) (k : Nat) (p : ChanSt) : (s.setChan k p).spn = s.spn := rfl
@[simp] theorem setChan_tly (s : State) (k : Nat) (p : ChanSt) : (s.setChan k p).tly = s.tly := rfl
@[simp] theorem setChan_spi (s : State) (k : Nat) (p : ChanSt) : (s.setChan k p).spi = s.spi := rfl
@[simp] theorem setChan_canRec (s : State) (k : Nat) (p : ChanSt) : (s.setChan k p).canRec = s.canRec := rfl
@[simp] theorem setChan_pmu (s : State) (k : Nat) (p : ChanSt) : (s.setChan k p).pmu = s.pmu := rfl
@[simp] theorem setChan_pwm (s : State) (k : Nat) (p : ChanSt) : (s.setChan k p).pwm = s.pwm := rfl
@[simp] theorem setChan_glk (s : State) (k : Nat) (p : ChanSt) : (s.setChan k p).glk = s.glk := rfl
@[simp] theorem setChan_fbc (s : State) (k : Nat) (p : ChanSt) : (s.setChan k p).fbc = s.fbc := rfl
@[simp] theorem setChan_lpe (s : State) (k : Nat) (p : ChanSt) : (s.setChan k p).lpe = s.lpe := rfl
@[simp] theorem setChan_adc (s : State) (k : Nat) (p : ChanSt) : (s.setChan k p).adc = s.adc := rfl
@[simp] theorem setChan_arb (s : State) (k : Nat) (p : ChanSt) : (s.setChan k p).arb = s.arb := rfl
@[simp] theorem setChan_sty (s : State) (k : Nat) (p : ChanSt) : (s.setChan k p).sty = s.sty := rfl
@[simp] theorem setChan_anw (s : State) (k : Nat) (p : ChanSt) : (s.setChan k p).anw = s.anw := rfl
@[simp] theorem setChan_ast (s : State) (k : Nat) (p : ChanSt) : (s.setChan k p).ast = s.ast := rfl
@[simp] theorem setChan_svc (s : State) (k : Nat) (p : ChanSt) : (s.setChan k p).svc = s.svc := rfl
@[simp] theorem setChan_upd (s : State) (k : Nat) (p : ChanSt) : (s.setChan k p).upd = s.upd := rfl
@[simp] theorem setChan_slp (s : State) (k : Nat) (p : ChanSt) : (s.setChan k p).slp = s.slp := rfl
@[simp] theorem setChan_coreRegs (s : State) (k : Nat) (p : ChanSt) : (s.setChan k p).coreRegs = s.coreRegs := rfl
@[simp] theorem setChan_cmpStuck (s : State) (k : Nat) (p : ChanSt) : (s.setChan k p).cmpStuck = s.cmpStuck := rfl
@[simp] theorem setChan_agr (s : State) (k : Nat) (p : ChanSt) : (s.setChan k p).agr = s.agr := rfl
@[simp] theorem setChan_sec (s : State) (k : Nat) (p : ChanSt) : (s.setChan k p).sec = s.sec := rfl
@[simp] theorem setChan_rdm (s : State) (k : Nat) (p : ChanSt) : (s.setChan k p).rdm = s.rdm := rfl
@[simp] theorem setChan_tsk (s : State) (k : Nat) (p : ChanSt) : (s.setChan k p).tsk = s.tsk := rfl
@[simp] theorem setChan_reg (s : State) (k : Nat) (p : ChanSt) (x : Nat) : (s.setChan k p).reg x = s.reg x := rfl
@[simp] theorem setChan_rn (s : State) (k : Nat) (p : ChanSt) (x : Nat) : (s.setChan k p).rn x = s.rn x := rfl
@[simp] theorem setChan_rf (s : State) (k : Nat) (p : ChanSt) (x : Fld) : (s.setChan k p).rf x = s.rf x := rfl

/-! ### State.setArbiter -/

@[simp] theorem setArbiter_pending (s : State) (k : Nat) (p : ArbSt) : (s.setArbiter k p).pending = s.pending := rfl
@[simp] theorem setArbiter_otp (s : State) (k : Nat) (p : ArbSt) : (s.setArbiter k p).otp = s.otp := rfl
@[simp] theorem setArbiter_flash (s : State) (k : Nat) (p : ArbSt) : (s.setArbiter k p).flash = s.flash := rfl
@[simp] theorem setArbiter_now (s : State) (k : Nat) (p : ArbSt) : (s.setArbiter k p).now = s.now := rfl
@[simp] theorem setArbiter_gt (s : State) (k : Nat) (p : ArbSt) : (s.setArbiter k p).gt = s.gt := rfl
@[simp] theorem setArbiter_frac (s : State) (k : Nat) (p : ArbSt) : (s.setArbiter k p).frac = s.frac := rfl
@[simp] theorem setArbiter_rate (s : State) (k : Nat) (p : ArbSt) : (s.setArbiter k p).rate = s.rate := rfl
@[simp] theorem setArbiter_slew (s : State) (k : Nat) (p : ArbSt) : (s.setArbiter k p).slew = s.slew := rfl
@[simp] theorem setArbiter_regs (s : State) (k : Nat) (p : ArbSt) : (s.setArbiter k p).regs = s.regs := rfl
@[simp] theorem setArbiter_hwSet (s : State) (k : Nat) (p : ArbSt) : (s.setArbiter k p).hwSet = s.hwSet := rfl
@[simp] theorem setArbiter_mem (s : State) (k : Nat) (p : ArbSt) : (s.setArbiter k p).mem = s.mem := rfl
@[simp] theorem setArbiter_tcm (s : State) (k : Nat) (p : ArbSt) : (s.setArbiter k p).tcm = s.tcm := rfl
@[simp] theorem setArbiter_rdata (s : State) (k : Nat) (p : ArbSt) : (s.setArbiter k p).rdata = s.rdata := rfl
@[simp] theorem setArbiter_free (s : State) (k : Nat) (p : ArbSt) : (s.setArbiter k p).free = s.free := rfl
@[simp] theorem setArbiter_outbox (s : State) (k : Nat) (p : ArbSt) : (s.setArbiter k p).outbox = s.outbox := rfl
@[simp] theorem setArbiter_lane (s : State) (k : Nat) (p : ArbSt) : (s.setArbiter k p).lane = s.lane := rfl
@[simp] theorem setArbiter_spn (s : State) (k : Nat) (p : ArbSt) : (s.setArbiter k p).spn = s.spn := rfl
@[simp] theorem setArbiter_tly (s : State) (k : Nat) (p : ArbSt) : (s.setArbiter k p).tly = s.tly := rfl
@[simp] theorem setArbiter_hmb (s : State) (k : Nat) (p : ArbSt) : (s.setArbiter k p).hmb = s.hmb := rfl
@[simp] theorem setArbiter_spi (s : State) (k : Nat) (p : ArbSt) : (s.setArbiter k p).spi = s.spi := rfl
@[simp] theorem setArbiter_canRec (s : State) (k : Nat) (p : ArbSt) : (s.setArbiter k p).canRec = s.canRec := rfl
@[simp] theorem setArbiter_pmu (s : State) (k : Nat) (p : ArbSt) : (s.setArbiter k p).pmu = s.pmu := rfl
@[simp] theorem setArbiter_pwm (s : State) (k : Nat) (p : ArbSt) : (s.setArbiter k p).pwm = s.pwm := rfl
@[simp] theorem setArbiter_glk (s : State) (k : Nat) (p : ArbSt) : (s.setArbiter k p).glk = s.glk := rfl
@[simp] theorem setArbiter_fbc (s : State) (k : Nat) (p : ArbSt) : (s.setArbiter k p).fbc = s.fbc := rfl
@[simp] theorem setArbiter_lpe (s : State) (k : Nat) (p : ArbSt) : (s.setArbiter k p).lpe = s.lpe := rfl
@[simp] theorem setArbiter_adc (s : State) (k : Nat) (p : ArbSt) : (s.setArbiter k p).adc = s.adc := rfl
@[simp] theorem setArbiter_sty (s : State) (k : Nat) (p : ArbSt) : (s.setArbiter k p).sty = s.sty := rfl
@[simp] theorem setArbiter_anw (s : State) (k : Nat) (p : ArbSt) : (s.setArbiter k p).anw = s.anw := rfl
@[simp] theorem setArbiter_ast (s : State) (k : Nat) (p : ArbSt) : (s.setArbiter k p).ast = s.ast := rfl
@[simp] theorem setArbiter_svc (s : State) (k : Nat) (p : ArbSt) : (s.setArbiter k p).svc = s.svc := rfl
@[simp] theorem setArbiter_upd (s : State) (k : Nat) (p : ArbSt) : (s.setArbiter k p).upd = s.upd := rfl
@[simp] theorem setArbiter_slp (s : State) (k : Nat) (p : ArbSt) : (s.setArbiter k p).slp = s.slp := rfl
@[simp] theorem setArbiter_coreRegs (s : State) (k : Nat) (p : ArbSt) : (s.setArbiter k p).coreRegs = s.coreRegs := rfl
@[simp] theorem setArbiter_cmpStuck (s : State) (k : Nat) (p : ArbSt) : (s.setArbiter k p).cmpStuck = s.cmpStuck := rfl
@[simp] theorem setArbiter_agr (s : State) (k : Nat) (p : ArbSt) : (s.setArbiter k p).agr = s.agr := rfl
@[simp] theorem setArbiter_sec (s : State) (k : Nat) (p : ArbSt) : (s.setArbiter k p).sec = s.sec := rfl
@[simp] theorem setArbiter_rdm (s : State) (k : Nat) (p : ArbSt) : (s.setArbiter k p).rdm = s.rdm := rfl
@[simp] theorem setArbiter_tsk (s : State) (k : Nat) (p : ArbSt) : (s.setArbiter k p).tsk = s.tsk := rfl
@[simp] theorem setArbiter_reg (s : State) (k : Nat) (p : ArbSt) (x : Nat) : (s.setArbiter k p).reg x = s.reg x := rfl
@[simp] theorem setArbiter_rn (s : State) (k : Nat) (p : ArbSt) (x : Nat) : (s.setArbiter k p).rn x = s.rn x := rfl
@[simp] theorem setArbiter_rf (s : State) (k : Nat) (p : ArbSt) (x : Fld) : (s.setArbiter k p).rf x = s.rf x := rfl

/-! ### State.setFlow -/

@[simp] theorem setFlow_pending (s : State) (k : Nat) (p : FlowSt) : (s.setFlow k p).pending = s.pending := rfl
@[simp] theorem setFlow_otp (s : State) (k : Nat) (p : FlowSt) : (s.setFlow k p).otp = s.otp := rfl
@[simp] theorem setFlow_flash (s : State) (k : Nat) (p : FlowSt) : (s.setFlow k p).flash = s.flash := rfl
@[simp] theorem setFlow_now (s : State) (k : Nat) (p : FlowSt) : (s.setFlow k p).now = s.now := rfl
@[simp] theorem setFlow_gt (s : State) (k : Nat) (p : FlowSt) : (s.setFlow k p).gt = s.gt := rfl
@[simp] theorem setFlow_frac (s : State) (k : Nat) (p : FlowSt) : (s.setFlow k p).frac = s.frac := rfl
@[simp] theorem setFlow_rate (s : State) (k : Nat) (p : FlowSt) : (s.setFlow k p).rate = s.rate := rfl
@[simp] theorem setFlow_slew (s : State) (k : Nat) (p : FlowSt) : (s.setFlow k p).slew = s.slew := rfl
@[simp] theorem setFlow_regs (s : State) (k : Nat) (p : FlowSt) : (s.setFlow k p).regs = s.regs := rfl
@[simp] theorem setFlow_hwSet (s : State) (k : Nat) (p : FlowSt) : (s.setFlow k p).hwSet = s.hwSet := rfl
@[simp] theorem setFlow_mem (s : State) (k : Nat) (p : FlowSt) : (s.setFlow k p).mem = s.mem := rfl
@[simp] theorem setFlow_tcm (s : State) (k : Nat) (p : FlowSt) : (s.setFlow k p).tcm = s.tcm := rfl
@[simp] theorem setFlow_rdata (s : State) (k : Nat) (p : FlowSt) : (s.setFlow k p).rdata = s.rdata := rfl
@[simp] theorem setFlow_free (s : State) (k : Nat) (p : FlowSt) : (s.setFlow k p).free = s.free := rfl
@[simp] theorem setFlow_outbox (s : State) (k : Nat) (p : FlowSt) : (s.setFlow k p).outbox = s.outbox := rfl
@[simp] theorem setFlow_lane (s : State) (k : Nat) (p : FlowSt) : (s.setFlow k p).lane = s.lane := rfl
@[simp] theorem setFlow_spn (s : State) (k : Nat) (p : FlowSt) : (s.setFlow k p).spn = s.spn := rfl
@[simp] theorem setFlow_tly (s : State) (k : Nat) (p : FlowSt) : (s.setFlow k p).tly = s.tly := rfl
@[simp] theorem setFlow_hmb (s : State) (k : Nat) (p : FlowSt) : (s.setFlow k p).hmb = s.hmb := rfl
@[simp] theorem setFlow_spi (s : State) (k : Nat) (p : FlowSt) : (s.setFlow k p).spi = s.spi := rfl
@[simp] theorem setFlow_canRec (s : State) (k : Nat) (p : FlowSt) : (s.setFlow k p).canRec = s.canRec := rfl
@[simp] theorem setFlow_pmu (s : State) (k : Nat) (p : FlowSt) : (s.setFlow k p).pmu = s.pmu := rfl
@[simp] theorem setFlow_pwm (s : State) (k : Nat) (p : FlowSt) : (s.setFlow k p).pwm = s.pwm := rfl
@[simp] theorem setFlow_glk (s : State) (k : Nat) (p : FlowSt) : (s.setFlow k p).glk = s.glk := rfl
@[simp] theorem setFlow_fbc (s : State) (k : Nat) (p : FlowSt) : (s.setFlow k p).fbc = s.fbc := rfl
@[simp] theorem setFlow_lpe (s : State) (k : Nat) (p : FlowSt) : (s.setFlow k p).lpe = s.lpe := rfl
@[simp] theorem setFlow_adc (s : State) (k : Nat) (p : FlowSt) : (s.setFlow k p).adc = s.adc := rfl
@[simp] theorem setFlow_arb (s : State) (k : Nat) (p : FlowSt) : (s.setFlow k p).arb = s.arb := rfl
@[simp] theorem setFlow_sty (s : State) (k : Nat) (p : FlowSt) : (s.setFlow k p).sty = s.sty := rfl
@[simp] theorem setFlow_ast (s : State) (k : Nat) (p : FlowSt) : (s.setFlow k p).ast = s.ast := rfl
@[simp] theorem setFlow_svc (s : State) (k : Nat) (p : FlowSt) : (s.setFlow k p).svc = s.svc := rfl
@[simp] theorem setFlow_upd (s : State) (k : Nat) (p : FlowSt) : (s.setFlow k p).upd = s.upd := rfl
@[simp] theorem setFlow_slp (s : State) (k : Nat) (p : FlowSt) : (s.setFlow k p).slp = s.slp := rfl
@[simp] theorem setFlow_coreRegs (s : State) (k : Nat) (p : FlowSt) : (s.setFlow k p).coreRegs = s.coreRegs := rfl
@[simp] theorem setFlow_cmpStuck (s : State) (k : Nat) (p : FlowSt) : (s.setFlow k p).cmpStuck = s.cmpStuck := rfl
@[simp] theorem setFlow_agr (s : State) (k : Nat) (p : FlowSt) : (s.setFlow k p).agr = s.agr := rfl
@[simp] theorem setFlow_sec (s : State) (k : Nat) (p : FlowSt) : (s.setFlow k p).sec = s.sec := rfl
@[simp] theorem setFlow_rdm (s : State) (k : Nat) (p : FlowSt) : (s.setFlow k p).rdm = s.rdm := rfl
@[simp] theorem setFlow_tsk (s : State) (k : Nat) (p : FlowSt) : (s.setFlow k p).tsk = s.tsk := rfl
@[simp] theorem setFlow_reg (s : State) (k : Nat) (p : FlowSt) (x : Nat) : (s.setFlow k p).reg x = s.reg x := rfl
@[simp] theorem setFlow_rn (s : State) (k : Nat) (p : FlowSt) (x : Nat) : (s.setFlow k p).rn x = s.rn x := rfl
@[simp] theorem setFlow_rf (s : State) (k : Nat) (p : FlowSt) (x : Fld) : (s.setFlow k p).rf x = s.rf x := rfl

/-! ### State.setStarPort -/

@[simp] theorem setStarPort_pending (s : State) (k : Nat) (p : StarPort) : (s.setStarPort k p).pending = s.pending := rfl
@[simp] theorem setStarPort_otp (s : State) (k : Nat) (p : StarPort) : (s.setStarPort k p).otp = s.otp := rfl
@[simp] theorem setStarPort_flash (s : State) (k : Nat) (p : StarPort) : (s.setStarPort k p).flash = s.flash := rfl
@[simp] theorem setStarPort_now (s : State) (k : Nat) (p : StarPort) : (s.setStarPort k p).now = s.now := rfl
@[simp] theorem setStarPort_gt (s : State) (k : Nat) (p : StarPort) : (s.setStarPort k p).gt = s.gt := rfl
@[simp] theorem setStarPort_frac (s : State) (k : Nat) (p : StarPort) : (s.setStarPort k p).frac = s.frac := rfl
@[simp] theorem setStarPort_rate (s : State) (k : Nat) (p : StarPort) : (s.setStarPort k p).rate = s.rate := rfl
@[simp] theorem setStarPort_slew (s : State) (k : Nat) (p : StarPort) : (s.setStarPort k p).slew = s.slew := rfl
@[simp] theorem setStarPort_regs (s : State) (k : Nat) (p : StarPort) : (s.setStarPort k p).regs = s.regs := rfl
@[simp] theorem setStarPort_hwSet (s : State) (k : Nat) (p : StarPort) : (s.setStarPort k p).hwSet = s.hwSet := rfl
@[simp] theorem setStarPort_mem (s : State) (k : Nat) (p : StarPort) : (s.setStarPort k p).mem = s.mem := rfl
@[simp] theorem setStarPort_tcm (s : State) (k : Nat) (p : StarPort) : (s.setStarPort k p).tcm = s.tcm := rfl
@[simp] theorem setStarPort_rdata (s : State) (k : Nat) (p : StarPort) : (s.setStarPort k p).rdata = s.rdata := rfl
@[simp] theorem setStarPort_free (s : State) (k : Nat) (p : StarPort) : (s.setStarPort k p).free = s.free := rfl
@[simp] theorem setStarPort_outbox (s : State) (k : Nat) (p : StarPort) : (s.setStarPort k p).outbox = s.outbox := rfl
@[simp] theorem setStarPort_lane (s : State) (k : Nat) (p : StarPort) : (s.setStarPort k p).lane = s.lane := rfl
@[simp] theorem setStarPort_spn (s : State) (k : Nat) (p : StarPort) : (s.setStarPort k p).spn = s.spn := rfl
@[simp] theorem setStarPort_tly (s : State) (k : Nat) (p : StarPort) : (s.setStarPort k p).tly = s.tly := rfl
@[simp] theorem setStarPort_hmb (s : State) (k : Nat) (p : StarPort) : (s.setStarPort k p).hmb = s.hmb := rfl
@[simp] theorem setStarPort_spi (s : State) (k : Nat) (p : StarPort) : (s.setStarPort k p).spi = s.spi := rfl
@[simp] theorem setStarPort_canRec (s : State) (k : Nat) (p : StarPort) : (s.setStarPort k p).canRec = s.canRec := rfl
@[simp] theorem setStarPort_pmu (s : State) (k : Nat) (p : StarPort) : (s.setStarPort k p).pmu = s.pmu := rfl
@[simp] theorem setStarPort_pwm (s : State) (k : Nat) (p : StarPort) : (s.setStarPort k p).pwm = s.pwm := rfl
@[simp] theorem setStarPort_glk (s : State) (k : Nat) (p : StarPort) : (s.setStarPort k p).glk = s.glk := rfl
@[simp] theorem setStarPort_fbc (s : State) (k : Nat) (p : StarPort) : (s.setStarPort k p).fbc = s.fbc := rfl
@[simp] theorem setStarPort_lpe (s : State) (k : Nat) (p : StarPort) : (s.setStarPort k p).lpe = s.lpe := rfl
@[simp] theorem setStarPort_adc (s : State) (k : Nat) (p : StarPort) : (s.setStarPort k p).adc = s.adc := rfl
@[simp] theorem setStarPort_arb (s : State) (k : Nat) (p : StarPort) : (s.setStarPort k p).arb = s.arb := rfl
@[simp] theorem setStarPort_sty (s : State) (k : Nat) (p : StarPort) : (s.setStarPort k p).sty = s.sty := rfl
@[simp] theorem setStarPort_anw (s : State) (k : Nat) (p : StarPort) : (s.setStarPort k p).anw = s.anw := rfl
@[simp] theorem setStarPort_svc (s : State) (k : Nat) (p : StarPort) : (s.setStarPort k p).svc = s.svc := rfl
@[simp] theorem setStarPort_upd (s : State) (k : Nat) (p : StarPort) : (s.setStarPort k p).upd = s.upd := rfl
@[simp] theorem setStarPort_slp (s : State) (k : Nat) (p : StarPort) : (s.setStarPort k p).slp = s.slp := rfl
@[simp] theorem setStarPort_coreRegs (s : State) (k : Nat) (p : StarPort) : (s.setStarPort k p).coreRegs = s.coreRegs := rfl
@[simp] theorem setStarPort_cmpStuck (s : State) (k : Nat) (p : StarPort) : (s.setStarPort k p).cmpStuck = s.cmpStuck := rfl
@[simp] theorem setStarPort_agr (s : State) (k : Nat) (p : StarPort) : (s.setStarPort k p).agr = s.agr := rfl
@[simp] theorem setStarPort_sec (s : State) (k : Nat) (p : StarPort) : (s.setStarPort k p).sec = s.sec := rfl
@[simp] theorem setStarPort_rdm (s : State) (k : Nat) (p : StarPort) : (s.setStarPort k p).rdm = s.rdm := rfl
@[simp] theorem setStarPort_tsk (s : State) (k : Nat) (p : StarPort) : (s.setStarPort k p).tsk = s.tsk := rfl
@[simp] theorem setStarPort_reg (s : State) (k : Nat) (p : StarPort) (x : Nat) : (s.setStarPort k p).reg x = s.reg x := rfl
@[simp] theorem setStarPort_rn (s : State) (k : Nat) (p : StarPort) (x : Nat) : (s.setStarPort k p).rn x = s.rn x := rfl
@[simp] theorem setStarPort_rf (s : State) (k : Nat) (p : StarPort) (x : Fld) : (s.setStarPort k p).rf x = s.rf x := rfl

/-! ### State.setRdmPeer -/

@[simp] theorem setRdmPeer_pending (s : State) (k : Nat) (p : RdmPeer) : (s.setRdmPeer k p).pending = s.pending := rfl
@[simp] theorem setRdmPeer_otp (s : State) (k : Nat) (p : RdmPeer) : (s.setRdmPeer k p).otp = s.otp := rfl
@[simp] theorem setRdmPeer_flash (s : State) (k : Nat) (p : RdmPeer) : (s.setRdmPeer k p).flash = s.flash := rfl
@[simp] theorem setRdmPeer_now (s : State) (k : Nat) (p : RdmPeer) : (s.setRdmPeer k p).now = s.now := rfl
@[simp] theorem setRdmPeer_gt (s : State) (k : Nat) (p : RdmPeer) : (s.setRdmPeer k p).gt = s.gt := rfl
@[simp] theorem setRdmPeer_frac (s : State) (k : Nat) (p : RdmPeer) : (s.setRdmPeer k p).frac = s.frac := rfl
@[simp] theorem setRdmPeer_rate (s : State) (k : Nat) (p : RdmPeer) : (s.setRdmPeer k p).rate = s.rate := rfl
@[simp] theorem setRdmPeer_slew (s : State) (k : Nat) (p : RdmPeer) : (s.setRdmPeer k p).slew = s.slew := rfl
@[simp] theorem setRdmPeer_regs (s : State) (k : Nat) (p : RdmPeer) : (s.setRdmPeer k p).regs = s.regs := rfl
@[simp] theorem setRdmPeer_hwSet (s : State) (k : Nat) (p : RdmPeer) : (s.setRdmPeer k p).hwSet = s.hwSet := rfl
@[simp] theorem setRdmPeer_mem (s : State) (k : Nat) (p : RdmPeer) : (s.setRdmPeer k p).mem = s.mem := rfl
@[simp] theorem setRdmPeer_tcm (s : State) (k : Nat) (p : RdmPeer) : (s.setRdmPeer k p).tcm = s.tcm := rfl
@[simp] theorem setRdmPeer_rdata (s : State) (k : Nat) (p : RdmPeer) : (s.setRdmPeer k p).rdata = s.rdata := rfl
@[simp] theorem setRdmPeer_free (s : State) (k : Nat) (p : RdmPeer) : (s.setRdmPeer k p).free = s.free := rfl
@[simp] theorem setRdmPeer_outbox (s : State) (k : Nat) (p : RdmPeer) : (s.setRdmPeer k p).outbox = s.outbox := rfl
@[simp] theorem setRdmPeer_lane (s : State) (k : Nat) (p : RdmPeer) : (s.setRdmPeer k p).lane = s.lane := rfl
@[simp] theorem setRdmPeer_spn (s : State) (k : Nat) (p : RdmPeer) : (s.setRdmPeer k p).spn = s.spn := rfl
@[simp] theorem setRdmPeer_tly (s : State) (k : Nat) (p : RdmPeer) : (s.setRdmPeer k p).tly = s.tly := rfl
@[simp] theorem setRdmPeer_hmb (s : State) (k : Nat) (p : RdmPeer) : (s.setRdmPeer k p).hmb = s.hmb := rfl
@[simp] theorem setRdmPeer_spi (s : State) (k : Nat) (p : RdmPeer) : (s.setRdmPeer k p).spi = s.spi := rfl
@[simp] theorem setRdmPeer_canRec (s : State) (k : Nat) (p : RdmPeer) : (s.setRdmPeer k p).canRec = s.canRec := rfl
@[simp] theorem setRdmPeer_pmu (s : State) (k : Nat) (p : RdmPeer) : (s.setRdmPeer k p).pmu = s.pmu := rfl
@[simp] theorem setRdmPeer_pwm (s : State) (k : Nat) (p : RdmPeer) : (s.setRdmPeer k p).pwm = s.pwm := rfl
@[simp] theorem setRdmPeer_glk (s : State) (k : Nat) (p : RdmPeer) : (s.setRdmPeer k p).glk = s.glk := rfl
@[simp] theorem setRdmPeer_fbc (s : State) (k : Nat) (p : RdmPeer) : (s.setRdmPeer k p).fbc = s.fbc := rfl
@[simp] theorem setRdmPeer_lpe (s : State) (k : Nat) (p : RdmPeer) : (s.setRdmPeer k p).lpe = s.lpe := rfl
@[simp] theorem setRdmPeer_adc (s : State) (k : Nat) (p : RdmPeer) : (s.setRdmPeer k p).adc = s.adc := rfl
@[simp] theorem setRdmPeer_arb (s : State) (k : Nat) (p : RdmPeer) : (s.setRdmPeer k p).arb = s.arb := rfl
@[simp] theorem setRdmPeer_sty (s : State) (k : Nat) (p : RdmPeer) : (s.setRdmPeer k p).sty = s.sty := rfl
@[simp] theorem setRdmPeer_anw (s : State) (k : Nat) (p : RdmPeer) : (s.setRdmPeer k p).anw = s.anw := rfl
@[simp] theorem setRdmPeer_ast (s : State) (k : Nat) (p : RdmPeer) : (s.setRdmPeer k p).ast = s.ast := rfl
@[simp] theorem setRdmPeer_svc (s : State) (k : Nat) (p : RdmPeer) : (s.setRdmPeer k p).svc = s.svc := rfl
@[simp] theorem setRdmPeer_upd (s : State) (k : Nat) (p : RdmPeer) : (s.setRdmPeer k p).upd = s.upd := rfl
@[simp] theorem setRdmPeer_slp (s : State) (k : Nat) (p : RdmPeer) : (s.setRdmPeer k p).slp = s.slp := rfl
@[simp] theorem setRdmPeer_coreRegs (s : State) (k : Nat) (p : RdmPeer) : (s.setRdmPeer k p).coreRegs = s.coreRegs := rfl
@[simp] theorem setRdmPeer_cmpStuck (s : State) (k : Nat) (p : RdmPeer) : (s.setRdmPeer k p).cmpStuck = s.cmpStuck := rfl
@[simp] theorem setRdmPeer_agr (s : State) (k : Nat) (p : RdmPeer) : (s.setRdmPeer k p).agr = s.agr := rfl
@[simp] theorem setRdmPeer_sec (s : State) (k : Nat) (p : RdmPeer) : (s.setRdmPeer k p).sec = s.sec := rfl
@[simp] theorem setRdmPeer_tsk (s : State) (k : Nat) (p : RdmPeer) : (s.setRdmPeer k p).tsk = s.tsk := rfl
@[simp] theorem setRdmPeer_reg (s : State) (k : Nat) (p : RdmPeer) (x : Nat) : (s.setRdmPeer k p).reg x = s.reg x := rfl
@[simp] theorem setRdmPeer_rn (s : State) (k : Nat) (p : RdmPeer) (x : Nat) : (s.setRdmPeer k p).rn x = s.rn x := rfl
@[simp] theorem setRdmPeer_rf (s : State) (k : Nat) (p : RdmPeer) (x : Fld) : (s.setRdmPeer k p).rf x = s.rf x := rfl

/-! ### State.setSafeIn -/

@[simp] theorem setSafeIn_pending (s : State) (k : Nat) (p : SafeIn) : (s.setSafeIn k p).pending = s.pending := rfl
@[simp] theorem setSafeIn_otp (s : State) (k : Nat) (p : SafeIn) : (s.setSafeIn k p).otp = s.otp := rfl
@[simp] theorem setSafeIn_flash (s : State) (k : Nat) (p : SafeIn) : (s.setSafeIn k p).flash = s.flash := rfl
@[simp] theorem setSafeIn_now (s : State) (k : Nat) (p : SafeIn) : (s.setSafeIn k p).now = s.now := rfl
@[simp] theorem setSafeIn_gt (s : State) (k : Nat) (p : SafeIn) : (s.setSafeIn k p).gt = s.gt := rfl
@[simp] theorem setSafeIn_frac (s : State) (k : Nat) (p : SafeIn) : (s.setSafeIn k p).frac = s.frac := rfl
@[simp] theorem setSafeIn_rate (s : State) (k : Nat) (p : SafeIn) : (s.setSafeIn k p).rate = s.rate := rfl
@[simp] theorem setSafeIn_slew (s : State) (k : Nat) (p : SafeIn) : (s.setSafeIn k p).slew = s.slew := rfl
@[simp] theorem setSafeIn_regs (s : State) (k : Nat) (p : SafeIn) : (s.setSafeIn k p).regs = s.regs := rfl
@[simp] theorem setSafeIn_hwSet (s : State) (k : Nat) (p : SafeIn) : (s.setSafeIn k p).hwSet = s.hwSet := rfl
@[simp] theorem setSafeIn_mem (s : State) (k : Nat) (p : SafeIn) : (s.setSafeIn k p).mem = s.mem := rfl
@[simp] theorem setSafeIn_tcm (s : State) (k : Nat) (p : SafeIn) : (s.setSafeIn k p).tcm = s.tcm := rfl
@[simp] theorem setSafeIn_rdata (s : State) (k : Nat) (p : SafeIn) : (s.setSafeIn k p).rdata = s.rdata := rfl
@[simp] theorem setSafeIn_free (s : State) (k : Nat) (p : SafeIn) : (s.setSafeIn k p).free = s.free := rfl
@[simp] theorem setSafeIn_outbox (s : State) (k : Nat) (p : SafeIn) : (s.setSafeIn k p).outbox = s.outbox := rfl
@[simp] theorem setSafeIn_lane (s : State) (k : Nat) (p : SafeIn) : (s.setSafeIn k p).lane = s.lane := rfl
@[simp] theorem setSafeIn_spn (s : State) (k : Nat) (p : SafeIn) : (s.setSafeIn k p).spn = s.spn := rfl
@[simp] theorem setSafeIn_tly (s : State) (k : Nat) (p : SafeIn) : (s.setSafeIn k p).tly = s.tly := rfl
@[simp] theorem setSafeIn_hmb (s : State) (k : Nat) (p : SafeIn) : (s.setSafeIn k p).hmb = s.hmb := rfl
@[simp] theorem setSafeIn_spi (s : State) (k : Nat) (p : SafeIn) : (s.setSafeIn k p).spi = s.spi := rfl
@[simp] theorem setSafeIn_canRec (s : State) (k : Nat) (p : SafeIn) : (s.setSafeIn k p).canRec = s.canRec := rfl
@[simp] theorem setSafeIn_pmu (s : State) (k : Nat) (p : SafeIn) : (s.setSafeIn k p).pmu = s.pmu := rfl
@[simp] theorem setSafeIn_pwm (s : State) (k : Nat) (p : SafeIn) : (s.setSafeIn k p).pwm = s.pwm := rfl
@[simp] theorem setSafeIn_glk (s : State) (k : Nat) (p : SafeIn) : (s.setSafeIn k p).glk = s.glk := rfl
@[simp] theorem setSafeIn_fbc (s : State) (k : Nat) (p : SafeIn) : (s.setSafeIn k p).fbc = s.fbc := rfl
@[simp] theorem setSafeIn_lpe (s : State) (k : Nat) (p : SafeIn) : (s.setSafeIn k p).lpe = s.lpe := rfl
@[simp] theorem setSafeIn_adc (s : State) (k : Nat) (p : SafeIn) : (s.setSafeIn k p).adc = s.adc := rfl
@[simp] theorem setSafeIn_arb (s : State) (k : Nat) (p : SafeIn) : (s.setSafeIn k p).arb = s.arb := rfl
@[simp] theorem setSafeIn_sty (s : State) (k : Nat) (p : SafeIn) : (s.setSafeIn k p).sty = s.sty := rfl
@[simp] theorem setSafeIn_anw (s : State) (k : Nat) (p : SafeIn) : (s.setSafeIn k p).anw = s.anw := rfl
@[simp] theorem setSafeIn_ast (s : State) (k : Nat) (p : SafeIn) : (s.setSafeIn k p).ast = s.ast := rfl
@[simp] theorem setSafeIn_svc (s : State) (k : Nat) (p : SafeIn) : (s.setSafeIn k p).svc = s.svc := rfl
@[simp] theorem setSafeIn_upd (s : State) (k : Nat) (p : SafeIn) : (s.setSafeIn k p).upd = s.upd := rfl
@[simp] theorem setSafeIn_slp (s : State) (k : Nat) (p : SafeIn) : (s.setSafeIn k p).slp = s.slp := rfl
@[simp] theorem setSafeIn_coreRegs (s : State) (k : Nat) (p : SafeIn) : (s.setSafeIn k p).coreRegs = s.coreRegs := rfl
@[simp] theorem setSafeIn_cmpStuck (s : State) (k : Nat) (p : SafeIn) : (s.setSafeIn k p).cmpStuck = s.cmpStuck := rfl
@[simp] theorem setSafeIn_agr (s : State) (k : Nat) (p : SafeIn) : (s.setSafeIn k p).agr = s.agr := rfl
@[simp] theorem setSafeIn_sec (s : State) (k : Nat) (p : SafeIn) : (s.setSafeIn k p).sec = s.sec := rfl
@[simp] theorem setSafeIn_rdm (s : State) (k : Nat) (p : SafeIn) : (s.setSafeIn k p).rdm = s.rdm := rfl
@[simp] theorem setSafeIn_reg (s : State) (k : Nat) (p : SafeIn) (x : Nat) : (s.setSafeIn k p).reg x = s.reg x := rfl
@[simp] theorem setSafeIn_rn (s : State) (k : Nat) (p : SafeIn) (x : Nat) : (s.setSafeIn k p).rn x = s.rn x := rfl
@[simp] theorem setSafeIn_rf (s : State) (k : Nat) (p : SafeIn) (x : Fld) : (s.setSafeIn k p).rf x = s.rf x := rfl

/-! ### State.setPmu -/

@[simp] theorem setPmu_pending (s : State) (p : PmuSt) : (s.setPmu p).pending = s.pending := rfl
@[simp] theorem setPmu_otp (s : State) (p : PmuSt) : (s.setPmu p).otp = s.otp := rfl
@[simp] theorem setPmu_flash (s : State) (p : PmuSt) : (s.setPmu p).flash = s.flash := rfl
@[simp] theorem setPmu_now (s : State) (p : PmuSt) : (s.setPmu p).now = s.now := rfl
@[simp] theorem setPmu_gt (s : State) (p : PmuSt) : (s.setPmu p).gt = s.gt := rfl
@[simp] theorem setPmu_frac (s : State) (p : PmuSt) : (s.setPmu p).frac = s.frac := rfl
@[simp] theorem setPmu_rate (s : State) (p : PmuSt) : (s.setPmu p).rate = s.rate := rfl
@[simp] theorem setPmu_slew (s : State) (p : PmuSt) : (s.setPmu p).slew = s.slew := rfl
@[simp] theorem setPmu_regs (s : State) (p : PmuSt) : (s.setPmu p).regs = s.regs := rfl
@[simp] theorem setPmu_hwSet (s : State) (p : PmuSt) : (s.setPmu p).hwSet = s.hwSet := rfl
@[simp] theorem setPmu_mem (s : State) (p : PmuSt) : (s.setPmu p).mem = s.mem := rfl
@[simp] theorem setPmu_tcm (s : State) (p : PmuSt) : (s.setPmu p).tcm = s.tcm := rfl
@[simp] theorem setPmu_rdata (s : State) (p : PmuSt) : (s.setPmu p).rdata = s.rdata := rfl
@[simp] theorem setPmu_free (s : State) (p : PmuSt) : (s.setPmu p).free = s.free := rfl
@[simp] theorem setPmu_outbox (s : State) (p : PmuSt) : (s.setPmu p).outbox = s.outbox := rfl
@[simp] theorem setPmu_lane (s : State) (p : PmuSt) : (s.setPmu p).lane = s.lane := rfl
@[simp] theorem setPmu_spn (s : State) (p : PmuSt) : (s.setPmu p).spn = s.spn := rfl
@[simp] theorem setPmu_tly (s : State) (p : PmuSt) : (s.setPmu p).tly = s.tly := rfl
@[simp] theorem setPmu_hmb (s : State) (p : PmuSt) : (s.setPmu p).hmb = s.hmb := rfl
@[simp] theorem setPmu_spi (s : State) (p : PmuSt) : (s.setPmu p).spi = s.spi := rfl
@[simp] theorem setPmu_canRec (s : State) (p : PmuSt) : (s.setPmu p).canRec = s.canRec := rfl
@[simp] theorem setPmu_pwm (s : State) (p : PmuSt) : (s.setPmu p).pwm = s.pwm := rfl
@[simp] theorem setPmu_glk (s : State) (p : PmuSt) : (s.setPmu p).glk = s.glk := rfl
@[simp] theorem setPmu_fbc (s : State) (p : PmuSt) : (s.setPmu p).fbc = s.fbc := rfl
@[simp] theorem setPmu_lpe (s : State) (p : PmuSt) : (s.setPmu p).lpe = s.lpe := rfl
@[simp] theorem setPmu_adc (s : State) (p : PmuSt) : (s.setPmu p).adc = s.adc := rfl
@[simp] theorem setPmu_arb (s : State) (p : PmuSt) : (s.setPmu p).arb = s.arb := rfl
@[simp] theorem setPmu_sty (s : State) (p : PmuSt) : (s.setPmu p).sty = s.sty := rfl
@[simp] theorem setPmu_anw (s : State) (p : PmuSt) : (s.setPmu p).anw = s.anw := rfl
@[simp] theorem setPmu_ast (s : State) (p : PmuSt) : (s.setPmu p).ast = s.ast := rfl
@[simp] theorem setPmu_svc (s : State) (p : PmuSt) : (s.setPmu p).svc = s.svc := rfl
@[simp] theorem setPmu_upd (s : State) (p : PmuSt) : (s.setPmu p).upd = s.upd := rfl
@[simp] theorem setPmu_slp (s : State) (p : PmuSt) : (s.setPmu p).slp = s.slp := rfl
@[simp] theorem setPmu_coreRegs (s : State) (p : PmuSt) : (s.setPmu p).coreRegs = s.coreRegs := rfl
@[simp] theorem setPmu_cmpStuck (s : State) (p : PmuSt) : (s.setPmu p).cmpStuck = s.cmpStuck := rfl
@[simp] theorem setPmu_agr (s : State) (p : PmuSt) : (s.setPmu p).agr = s.agr := rfl
@[simp] theorem setPmu_sec (s : State) (p : PmuSt) : (s.setPmu p).sec = s.sec := rfl
@[simp] theorem setPmu_rdm (s : State) (p : PmuSt) : (s.setPmu p).rdm = s.rdm := rfl
@[simp] theorem setPmu_tsk (s : State) (p : PmuSt) : (s.setPmu p).tsk = s.tsk := rfl
@[simp] theorem setPmu_reg (s : State) (p : PmuSt) (x : Nat) : (s.setPmu p).reg x = s.reg x := rfl
@[simp] theorem setPmu_rn (s : State) (p : PmuSt) (x : Nat) : (s.setPmu p).rn x = s.rn x := rfl
@[simp] theorem setPmu_rf (s : State) (p : PmuSt) (x : Fld) : (s.setPmu p).rf x = s.rf x := rfl

/-! ### State.setProc -/

@[simp] theorem setProc_pending (s : State) (p : Option Proc) : (s.setProc p).pending = s.pending := rfl
@[simp] theorem setProc_otp (s : State) (p : Option Proc) : (s.setProc p).otp = s.otp := rfl
@[simp] theorem setProc_flash (s : State) (p : Option Proc) : (s.setProc p).flash = s.flash := rfl
@[simp] theorem setProc_now (s : State) (p : Option Proc) : (s.setProc p).now = s.now := rfl
@[simp] theorem setProc_gt (s : State) (p : Option Proc) : (s.setProc p).gt = s.gt := rfl
@[simp] theorem setProc_frac (s : State) (p : Option Proc) : (s.setProc p).frac = s.frac := rfl
@[simp] theorem setProc_rate (s : State) (p : Option Proc) : (s.setProc p).rate = s.rate := rfl
@[simp] theorem setProc_slew (s : State) (p : Option Proc) : (s.setProc p).slew = s.slew := rfl
@[simp] theorem setProc_regs (s : State) (p : Option Proc) : (s.setProc p).regs = s.regs := rfl
@[simp] theorem setProc_hwSet (s : State) (p : Option Proc) : (s.setProc p).hwSet = s.hwSet := rfl
@[simp] theorem setProc_mem (s : State) (p : Option Proc) : (s.setProc p).mem = s.mem := rfl
@[simp] theorem setProc_tcm (s : State) (p : Option Proc) : (s.setProc p).tcm = s.tcm := rfl
@[simp] theorem setProc_rdata (s : State) (p : Option Proc) : (s.setProc p).rdata = s.rdata := rfl
@[simp] theorem setProc_free (s : State) (p : Option Proc) : (s.setProc p).free = s.free := rfl
@[simp] theorem setProc_outbox (s : State) (p : Option Proc) : (s.setProc p).outbox = s.outbox := rfl
@[simp] theorem setProc_lane (s : State) (p : Option Proc) : (s.setProc p).lane = s.lane := rfl
@[simp] theorem setProc_spn (s : State) (p : Option Proc) : (s.setProc p).spn = s.spn := rfl
@[simp] theorem setProc_tly (s : State) (p : Option Proc) : (s.setProc p).tly = s.tly := rfl
@[simp] theorem setProc_hmb (s : State) (p : Option Proc) : (s.setProc p).hmb = s.hmb := rfl
@[simp] theorem setProc_spi (s : State) (p : Option Proc) : (s.setProc p).spi = s.spi := rfl
@[simp] theorem setProc_canRec (s : State) (p : Option Proc) : (s.setProc p).canRec = s.canRec := rfl
@[simp] theorem setProc_pmu (s : State) (p : Option Proc) : (s.setProc p).pmu = s.pmu := rfl
@[simp] theorem setProc_pwm (s : State) (p : Option Proc) : (s.setProc p).pwm = s.pwm := rfl
@[simp] theorem setProc_glk (s : State) (p : Option Proc) : (s.setProc p).glk = s.glk := rfl
@[simp] theorem setProc_fbc (s : State) (p : Option Proc) : (s.setProc p).fbc = s.fbc := rfl
@[simp] theorem setProc_lpe (s : State) (p : Option Proc) : (s.setProc p).lpe = s.lpe := rfl
@[simp] theorem setProc_adc (s : State) (p : Option Proc) : (s.setProc p).adc = s.adc := rfl
@[simp] theorem setProc_arb (s : State) (p : Option Proc) : (s.setProc p).arb = s.arb := rfl
@[simp] theorem setProc_sty (s : State) (p : Option Proc) : (s.setProc p).sty = s.sty := rfl
@[simp] theorem setProc_anw (s : State) (p : Option Proc) : (s.setProc p).anw = s.anw := rfl
@[simp] theorem setProc_ast (s : State) (p : Option Proc) : (s.setProc p).ast = s.ast := rfl
@[simp] theorem setProc_svc (s : State) (p : Option Proc) : (s.setProc p).svc = s.svc := rfl
@[simp] theorem setProc_upd (s : State) (p : Option Proc) : (s.setProc p).upd = s.upd := rfl
@[simp] theorem setProc_slp (s : State) (p : Option Proc) : (s.setProc p).slp = s.slp := rfl
@[simp] theorem setProc_coreRegs (s : State) (p : Option Proc) : (s.setProc p).coreRegs = s.coreRegs := rfl
@[simp] theorem setProc_cmpStuck (s : State) (p : Option Proc) : (s.setProc p).cmpStuck = s.cmpStuck := rfl
@[simp] theorem setProc_agr (s : State) (p : Option Proc) : (s.setProc p).agr = s.agr := rfl
@[simp] theorem setProc_rdm (s : State) (p : Option Proc) : (s.setProc p).rdm = s.rdm := rfl
@[simp] theorem setProc_tsk (s : State) (p : Option Proc) : (s.setProc p).tsk = s.tsk := rfl
@[simp] theorem setProc_reg (s : State) (p : Option Proc) (x : Nat) : (s.setProc p).reg x = s.reg x := rfl
@[simp] theorem setProc_rn (s : State) (p : Option Proc) (x : Nat) : (s.setProc p).rn x = s.rn x := rfl
@[simp] theorem setProc_rf (s : State) (p : Option Proc) (x : Fld) : (s.setProc p).rf x = s.rf x := rfl

/-! ### State.setWind -/

@[simp] theorem setWind_pending (s : State) (p : SvcUnit) : (s.setWind p).pending = s.pending := rfl
@[simp] theorem setWind_otp (s : State) (p : SvcUnit) : (s.setWind p).otp = s.otp := rfl
@[simp] theorem setWind_flash (s : State) (p : SvcUnit) : (s.setWind p).flash = s.flash := rfl
@[simp] theorem setWind_now (s : State) (p : SvcUnit) : (s.setWind p).now = s.now := rfl
@[simp] theorem setWind_gt (s : State) (p : SvcUnit) : (s.setWind p).gt = s.gt := rfl
@[simp] theorem setWind_frac (s : State) (p : SvcUnit) : (s.setWind p).frac = s.frac := rfl
@[simp] theorem setWind_rate (s : State) (p : SvcUnit) : (s.setWind p).rate = s.rate := rfl
@[simp] theorem setWind_slew (s : State) (p : SvcUnit) : (s.setWind p).slew = s.slew := rfl
@[simp] theorem setWind_regs (s : State) (p : SvcUnit) : (s.setWind p).regs = s.regs := rfl
@[simp] theorem setWind_hwSet (s : State) (p : SvcUnit) : (s.setWind p).hwSet = s.hwSet := rfl
@[simp] theorem setWind_mem (s : State) (p : SvcUnit) : (s.setWind p).mem = s.mem := rfl
@[simp] theorem setWind_tcm (s : State) (p : SvcUnit) : (s.setWind p).tcm = s.tcm := rfl
@[simp] theorem setWind_rdata (s : State) (p : SvcUnit) : (s.setWind p).rdata = s.rdata := rfl
@[simp] theorem setWind_free (s : State) (p : SvcUnit) : (s.setWind p).free = s.free := rfl
@[simp] theorem setWind_outbox (s : State) (p : SvcUnit) : (s.setWind p).outbox = s.outbox := rfl
@[simp] theorem setWind_lane (s : State) (p : SvcUnit) : (s.setWind p).lane = s.lane := rfl
@[simp] theorem setWind_spn (s : State) (p : SvcUnit) : (s.setWind p).spn = s.spn := rfl
@[simp] theorem setWind_tly (s : State) (p : SvcUnit) : (s.setWind p).tly = s.tly := rfl
@[simp] theorem setWind_hmb (s : State) (p : SvcUnit) : (s.setWind p).hmb = s.hmb := rfl
@[simp] theorem setWind_spi (s : State) (p : SvcUnit) : (s.setWind p).spi = s.spi := rfl
@[simp] theorem setWind_canRec (s : State) (p : SvcUnit) : (s.setWind p).canRec = s.canRec := rfl
@[simp] theorem setWind_pmu (s : State) (p : SvcUnit) : (s.setWind p).pmu = s.pmu := rfl
@[simp] theorem setWind_pwm (s : State) (p : SvcUnit) : (s.setWind p).pwm = s.pwm := rfl
@[simp] theorem setWind_glk (s : State) (p : SvcUnit) : (s.setWind p).glk = s.glk := rfl
@[simp] theorem setWind_fbc (s : State) (p : SvcUnit) : (s.setWind p).fbc = s.fbc := rfl
@[simp] theorem setWind_lpe (s : State) (p : SvcUnit) : (s.setWind p).lpe = s.lpe := rfl
@[simp] theorem setWind_adc (s : State) (p : SvcUnit) : (s.setWind p).adc = s.adc := rfl
@[simp] theorem setWind_arb (s : State) (p : SvcUnit) : (s.setWind p).arb = s.arb := rfl
@[simp] theorem setWind_sty (s : State) (p : SvcUnit) : (s.setWind p).sty = s.sty := rfl
@[simp] theorem setWind_anw (s : State) (p : SvcUnit) : (s.setWind p).anw = s.anw := rfl
@[simp] theorem setWind_ast (s : State) (p : SvcUnit) : (s.setWind p).ast = s.ast := rfl
@[simp] theorem setWind_upd (s : State) (p : SvcUnit) : (s.setWind p).upd = s.upd := rfl
@[simp] theorem setWind_slp (s : State) (p : SvcUnit) : (s.setWind p).slp = s.slp := rfl
@[simp] theorem setWind_coreRegs (s : State) (p : SvcUnit) : (s.setWind p).coreRegs = s.coreRegs := rfl
@[simp] theorem setWind_cmpStuck (s : State) (p : SvcUnit) : (s.setWind p).cmpStuck = s.cmpStuck := rfl
@[simp] theorem setWind_agr (s : State) (p : SvcUnit) : (s.setWind p).agr = s.agr := rfl
@[simp] theorem setWind_sec (s : State) (p : SvcUnit) : (s.setWind p).sec = s.sec := rfl
@[simp] theorem setWind_rdm (s : State) (p : SvcUnit) : (s.setWind p).rdm = s.rdm := rfl
@[simp] theorem setWind_tsk (s : State) (p : SvcUnit) : (s.setWind p).tsk = s.tsk := rfl
@[simp] theorem setWind_reg (s : State) (p : SvcUnit) (x : Nat) : (s.setWind p).reg x = s.reg x := rfl
@[simp] theorem setWind_rn (s : State) (p : SvcUnit) (x : Nat) : (s.setWind p).rn x = s.rn x := rfl
@[simp] theorem setWind_rf (s : State) (p : SvcUnit) (x : Fld) : (s.setWind p).rf x = s.rf x := rfl

/-! ### State.setCirc -/

@[simp] theorem setCirc_pending (s : State) (p : SvcUnit) : (s.setCirc p).pending = s.pending := rfl
@[simp] theorem setCirc_otp (s : State) (p : SvcUnit) : (s.setCirc p).otp = s.otp := rfl
@[simp] theorem setCirc_flash (s : State) (p : SvcUnit) : (s.setCirc p).flash = s.flash := rfl
@[simp] theorem setCirc_now (s : State) (p : SvcUnit) : (s.setCirc p).now = s.now := rfl
@[simp] theorem setCirc_gt (s : State) (p : SvcUnit) : (s.setCirc p).gt = s.gt := rfl
@[simp] theorem setCirc_frac (s : State) (p : SvcUnit) : (s.setCirc p).frac = s.frac := rfl
@[simp] theorem setCirc_rate (s : State) (p : SvcUnit) : (s.setCirc p).rate = s.rate := rfl
@[simp] theorem setCirc_slew (s : State) (p : SvcUnit) : (s.setCirc p).slew = s.slew := rfl
@[simp] theorem setCirc_regs (s : State) (p : SvcUnit) : (s.setCirc p).regs = s.regs := rfl
@[simp] theorem setCirc_hwSet (s : State) (p : SvcUnit) : (s.setCirc p).hwSet = s.hwSet := rfl
@[simp] theorem setCirc_mem (s : State) (p : SvcUnit) : (s.setCirc p).mem = s.mem := rfl
@[simp] theorem setCirc_tcm (s : State) (p : SvcUnit) : (s.setCirc p).tcm = s.tcm := rfl
@[simp] theorem setCirc_rdata (s : State) (p : SvcUnit) : (s.setCirc p).rdata = s.rdata := rfl
@[simp] theorem setCirc_free (s : State) (p : SvcUnit) : (s.setCirc p).free = s.free := rfl
@[simp] theorem setCirc_outbox (s : State) (p : SvcUnit) : (s.setCirc p).outbox = s.outbox := rfl
@[simp] theorem setCirc_lane (s : State) (p : SvcUnit) : (s.setCirc p).lane = s.lane := rfl
@[simp] theorem setCirc_spn (s : State) (p : SvcUnit) : (s.setCirc p).spn = s.spn := rfl
@[simp] theorem setCirc_tly (s : State) (p : SvcUnit) : (s.setCirc p).tly = s.tly := rfl
@[simp] theorem setCirc_hmb (s : State) (p : SvcUnit) : (s.setCirc p).hmb = s.hmb := rfl
@[simp] theorem setCirc_spi (s : State) (p : SvcUnit) : (s.setCirc p).spi = s.spi := rfl
@[simp] theorem setCirc_canRec (s : State) (p : SvcUnit) : (s.setCirc p).canRec = s.canRec := rfl
@[simp] theorem setCirc_pmu (s : State) (p : SvcUnit) : (s.setCirc p).pmu = s.pmu := rfl
@[simp] theorem setCirc_pwm (s : State) (p : SvcUnit) : (s.setCirc p).pwm = s.pwm := rfl
@[simp] theorem setCirc_glk (s : State) (p : SvcUnit) : (s.setCirc p).glk = s.glk := rfl
@[simp] theorem setCirc_fbc (s : State) (p : SvcUnit) : (s.setCirc p).fbc = s.fbc := rfl
@[simp] theorem setCirc_lpe (s : State) (p : SvcUnit) : (s.setCirc p).lpe = s.lpe := rfl
@[simp] theorem setCirc_adc (s : State) (p : SvcUnit) : (s.setCirc p).adc = s.adc := rfl
@[simp] theorem setCirc_arb (s : State) (p : SvcUnit) : (s.setCirc p).arb = s.arb := rfl
@[simp] theorem setCirc_sty (s : State) (p : SvcUnit) : (s.setCirc p).sty = s.sty := rfl
@[simp] theorem setCirc_anw (s : State) (p : SvcUnit) : (s.setCirc p).anw = s.anw := rfl
@[simp] theorem setCirc_ast (s : State) (p : SvcUnit) : (s.setCirc p).ast = s.ast := rfl
@[simp] theorem setCirc_upd (s : State) (p : SvcUnit) : (s.setCirc p).upd = s.upd := rfl
@[simp] theorem setCirc_slp (s : State) (p : SvcUnit) : (s.setCirc p).slp = s.slp := rfl
@[simp] theorem setCirc_coreRegs (s : State) (p : SvcUnit) : (s.setCirc p).coreRegs = s.coreRegs := rfl
@[simp] theorem setCirc_cmpStuck (s : State) (p : SvcUnit) : (s.setCirc p).cmpStuck = s.cmpStuck := rfl
@[simp] theorem setCirc_agr (s : State) (p : SvcUnit) : (s.setCirc p).agr = s.agr := rfl
@[simp] theorem setCirc_sec (s : State) (p : SvcUnit) : (s.setCirc p).sec = s.sec := rfl
@[simp] theorem setCirc_rdm (s : State) (p : SvcUnit) : (s.setCirc p).rdm = s.rdm := rfl
@[simp] theorem setCirc_tsk (s : State) (p : SvcUnit) : (s.setCirc p).tsk = s.tsk := rfl
@[simp] theorem setCirc_reg (s : State) (p : SvcUnit) (x : Nat) : (s.setCirc p).reg x = s.reg x := rfl
@[simp] theorem setCirc_rn (s : State) (p : SvcUnit) (x : Nat) : (s.setCirc p).rn x = s.rn x := rfl
@[simp] theorem setCirc_rf (s : State) (p : SvcUnit) (x : Fld) : (s.setCirc p).rf x = s.rf x := rfl

/-! ### State.deassertSrc -/

@[simp] theorem deassertSrc_pending (s : State) (n : Nat) : (s.deassertSrc n).pending = s.pending := by unfold State.deassertSrc; split <;> rfl
@[simp] theorem deassertSrc_otp (s : State) (n : Nat) : (s.deassertSrc n).otp = s.otp := by unfold State.deassertSrc; split <;> rfl
@[simp] theorem deassertSrc_flash (s : State) (n : Nat) : (s.deassertSrc n).flash = s.flash := by unfold State.deassertSrc; split <;> rfl
@[simp] theorem deassertSrc_now (s : State) (n : Nat) : (s.deassertSrc n).now = s.now := by unfold State.deassertSrc; split <;> rfl
@[simp] theorem deassertSrc_gt (s : State) (n : Nat) : (s.deassertSrc n).gt = s.gt := by unfold State.deassertSrc; split <;> rfl
@[simp] theorem deassertSrc_frac (s : State) (n : Nat) : (s.deassertSrc n).frac = s.frac := by unfold State.deassertSrc; split <;> rfl
@[simp] theorem deassertSrc_rate (s : State) (n : Nat) : (s.deassertSrc n).rate = s.rate := by unfold State.deassertSrc; split <;> rfl
@[simp] theorem deassertSrc_slew (s : State) (n : Nat) : (s.deassertSrc n).slew = s.slew := by unfold State.deassertSrc; split <;> rfl
@[simp] theorem deassertSrc_regs (s : State) (n : Nat) : (s.deassertSrc n).regs = s.regs := by unfold State.deassertSrc; split <;> rfl
@[simp] theorem deassertSrc_hwSet (s : State) (n : Nat) : (s.deassertSrc n).hwSet = s.hwSet := by unfold State.deassertSrc; split <;> rfl
@[simp] theorem deassertSrc_mem (s : State) (n : Nat) : (s.deassertSrc n).mem = s.mem := by unfold State.deassertSrc; split <;> rfl
@[simp] theorem deassertSrc_tcm (s : State) (n : Nat) : (s.deassertSrc n).tcm = s.tcm := by unfold State.deassertSrc; split <;> rfl
@[simp] theorem deassertSrc_rdata (s : State) (n : Nat) : (s.deassertSrc n).rdata = s.rdata := by unfold State.deassertSrc; split <;> rfl
@[simp] theorem deassertSrc_free (s : State) (n : Nat) : (s.deassertSrc n).free = s.free := by unfold State.deassertSrc; split <;> rfl
@[simp] theorem deassertSrc_outbox (s : State) (n : Nat) : (s.deassertSrc n).outbox = s.outbox := by unfold State.deassertSrc; split <;> rfl
@[simp] theorem deassertSrc_lane (s : State) (n : Nat) : (s.deassertSrc n).lane = s.lane := by unfold State.deassertSrc; split <;> rfl
@[simp] theorem deassertSrc_spn (s : State) (n : Nat) : (s.deassertSrc n).spn = s.spn := by unfold State.deassertSrc; split <;> rfl
@[simp] theorem deassertSrc_hmb (s : State) (n : Nat) : (s.deassertSrc n).hmb = s.hmb := by unfold State.deassertSrc; split <;> rfl
@[simp] theorem deassertSrc_spi (s : State) (n : Nat) : (s.deassertSrc n).spi = s.spi := by unfold State.deassertSrc; split <;> rfl
@[simp] theorem deassertSrc_canRec (s : State) (n : Nat) : (s.deassertSrc n).canRec = s.canRec := by unfold State.deassertSrc; split <;> rfl
@[simp] theorem deassertSrc_pmu (s : State) (n : Nat) : (s.deassertSrc n).pmu = s.pmu := by unfold State.deassertSrc; split <;> rfl
@[simp] theorem deassertSrc_pwm (s : State) (n : Nat) : (s.deassertSrc n).pwm = s.pwm := by unfold State.deassertSrc; split <;> rfl
@[simp] theorem deassertSrc_glk (s : State) (n : Nat) : (s.deassertSrc n).glk = s.glk := by unfold State.deassertSrc; split <;> rfl
@[simp] theorem deassertSrc_fbc (s : State) (n : Nat) : (s.deassertSrc n).fbc = s.fbc := by unfold State.deassertSrc; split <;> rfl
@[simp] theorem deassertSrc_lpe (s : State) (n : Nat) : (s.deassertSrc n).lpe = s.lpe := by unfold State.deassertSrc; split <;> rfl
@[simp] theorem deassertSrc_adc (s : State) (n : Nat) : (s.deassertSrc n).adc = s.adc := by unfold State.deassertSrc; split <;> rfl
@[simp] theorem deassertSrc_arb (s : State) (n : Nat) : (s.deassertSrc n).arb = s.arb := by unfold State.deassertSrc; split <;> rfl
@[simp] theorem deassertSrc_sty (s : State) (n : Nat) : (s.deassertSrc n).sty = s.sty := by unfold State.deassertSrc; split <;> rfl
@[simp] theorem deassertSrc_anw (s : State) (n : Nat) : (s.deassertSrc n).anw = s.anw := by unfold State.deassertSrc; split <;> rfl
@[simp] theorem deassertSrc_ast (s : State) (n : Nat) : (s.deassertSrc n).ast = s.ast := by unfold State.deassertSrc; split <;> rfl
@[simp] theorem deassertSrc_svc (s : State) (n : Nat) : (s.deassertSrc n).svc = s.svc := by unfold State.deassertSrc; split <;> rfl
@[simp] theorem deassertSrc_upd (s : State) (n : Nat) : (s.deassertSrc n).upd = s.upd := by unfold State.deassertSrc; split <;> rfl
@[simp] theorem deassertSrc_slp (s : State) (n : Nat) : (s.deassertSrc n).slp = s.slp := by unfold State.deassertSrc; split <;> rfl
@[simp] theorem deassertSrc_coreRegs (s : State) (n : Nat) : (s.deassertSrc n).coreRegs = s.coreRegs := by unfold State.deassertSrc; split <;> rfl
@[simp] theorem deassertSrc_cmpStuck (s : State) (n : Nat) : (s.deassertSrc n).cmpStuck = s.cmpStuck := by unfold State.deassertSrc; split <;> rfl
@[simp] theorem deassertSrc_agr (s : State) (n : Nat) : (s.deassertSrc n).agr = s.agr := by unfold State.deassertSrc; split <;> rfl
@[simp] theorem deassertSrc_sec (s : State) (n : Nat) : (s.deassertSrc n).sec = s.sec := by unfold State.deassertSrc; split <;> rfl
@[simp] theorem deassertSrc_rdm (s : State) (n : Nat) : (s.deassertSrc n).rdm = s.rdm := by unfold State.deassertSrc; split <;> rfl
@[simp] theorem deassertSrc_tsk (s : State) (n : Nat) : (s.deassertSrc n).tsk = s.tsk := by unfold State.deassertSrc; split <;> rfl
@[simp] theorem deassertSrc_rf (s : State) (n : Nat) (x : Fld) : (s.deassertSrc n).rf x = s.rf x := by unfold State.deassertSrc; split <;> rfl

/-! ### What the setters set -/

theorem peer_setPeer (s : State) (k j : Nat) (p : PeerSt) : (s.setPeer k p).peer j = if j = k then p else s.peer j := mget_mset _ _ _ _ _
theorem pair_setPair (s : State) (k j : Nat) (p : SlpPair) : (s.setPair k p).pair j = if j = k then p else s.pair j := mget_mset _ _ _ _ _
theorem entry_setEntry (s : State) (k j : Nat) (p : EntrySt) : (s.setEntry k p).entry j = if j = k then p else s.entry j := mget_mset _ _ _ _ _
theorem leg_setLeg (s : State) (k j : Nat) (p : LegSt) : (s.setLeg k p).leg j = if j = k then p else s.leg j := mget_mset _ _ _ _ _
theorem bank_setBank (s : State) (k j : Nat) (p : BankSt) : (s.setBank k p).bank j = if j = k then p else s.bank j := mget_mset _ _ _ _ _
theorem port_setPort (s : State) (k j : Nat) (p : PortSt) : (s.setPort k p).port j = if j = k then p else s.port j := mget_mset _ _ _ _ _
theorem fb_setFb (s : State) (k j : Nat) (p : ChanFb) : (s.setFb k p).fb j = if j = k then p else s.fb j := mget_mset _ _ _ _ _
theorem chan_setChan (s : State) (k j : Nat) (p : ChanSt) : (s.setChan k p).chan j = if j = k then p else s.chan j := mget_mset _ _ _ _ _
theorem flowSt_setFlow (s : State) (k j : Nat) (p : FlowSt) : (s.setFlow k p).flowSt j = if j = k then p else s.flowSt j := mget_mset _ _ _ _ _
theorem rdmPeer_setRdmPeer (s : State) (k j : Nat) (p : RdmPeer) : (s.setRdmPeer k p).rdmPeer j = if j = k then p else s.rdmPeer j := mget_mset _ _ _ _ _
theorem safeIn_setSafeIn (s : State) (k j : Nat) (p : SafeIn) : (s.setSafeIn k p).safeIn j = if j = k then p else s.safeIn j := mget_mset _ _ _ _ _
theorem arbiter_setArbiter (s : State) (k j : Nat) (p : ArbSt) : (s.setArbiter k p).arbiter j = if j = k then p else s.arbiter j := mget_mset _ _ _ _ _
theorem starPort_setStarPort (s : State) (k j : Nat) (p : StarPort) : (s.setStarPort k p).starPort j = if j = k then p else s.starPort j := mget_mset _ _ _ _ _
theorem ctx_setCtx (s : State) (k j : Nat) (p : CtxSt) : (s.setCtx k p).ctx j = if j = k then p else s.ctx j := mget_mset _ _ _ _ _

end Sys2Proof.Machine
end

