-- ==== Sys2Proof/Laws/Frames.lean ====
section
/-! SUPPORT. How frames compose: what is left as it is by a write of a field, by another update, by one after the other. -/

namespace Sys2Proof.Machine

theorem RegsBut.refl (l : List Fld) (s : State) : RegsBut l s s := fun _ _ _ => rfl

theorem RegsBut.trans {l : List Fld} {s t u : State} (h : RegsBut l s t) (k : RegsBut l t u) : RegsBut l s u :=
  fun f hf hl => (k f hf hl).trans (h f hf hl)

/-- A field of the list is written. -/
theorem RegsBut.wf {l : List Fld} {s t : State} {f : Fld} {v : Nat} (hm : f ∈ l) (h : RegsBut l s t) : RegsBut l s (t.wf f v) :=
  fun g hg hl => (rf_wf_other t f g v hg (by have := hl f hm; unfold Fld.apart at this; tauto)).trans (h g hg hl)

theorem RegsBut.wb {l : List Fld} {s t : State} {f : Fld} {v : Bool} (hm : f ∈ l) (h : RegsBut l s t) : RegsBut l s (t.wb f v) := h.wf hm
theorem RegsBut.wi {l : List Fld} {s t : State} {f : Fld} {v : Int} (hm : f ∈ l) (h : RegsBut l s t) : RegsBut l s (t.wi f v) := h.wf hm
theorem RegsBut.wbit {l : List Fld} {s t : State} {f : Fld} {i : Nat} {b : Bool} (hm : f ∈ l) (h : RegsBut l s t) :
    RegsBut l s (t.wbit f i b) := h.wf hm
theorem RegsBut.incSat {l : List Fld} {s t : State} {f : Fld} (hm : f ∈ l) (h : RegsBut l s t) : RegsBut l s (t.incSat f) := h.wf hm
theorem RegsBut.incWrap {l : List Fld} {s t : State} {f : Fld} (hm : f ∈ l) (h : RegsBut l s t) : RegsBut l s (t.incWrap f) := h.wf hm
theorem RegsBut.addSat {l : List Fld} {s t : State} {f : Fld} {n : Nat} (hm : f ∈ l) (h : RegsBut l s t) : RegsBut l s (t.addSat f n) :=
  h.wf hm

/-- A register that stands in the list whole is written. -/
theorem RegsBut.setN {l : List Fld} {s t : State} {a n : Nat} (hm : whole a ∈ l) (h : RegsBut l s t) : RegsBut l s (t.setN a n) := by
  intro g hg hl
  rw [rf_setN _ _ _ _ hg]
  split_ifs with ha
  · by_cases hw : g.wd = 0
    · have e1 : g.getN n = 0 := by have := getN_lt g n; rw [hw] at this; omega
      have e2 : s.rf g = 0 := by have := rf_lt s g; rw [hw] at this; omega
      rw [e1, e2]
    · have := hl _ hm; unfold Fld.apart whole at this; simp only at this; omega
  · exact h g hg hl

/-- An update of something else. -/
theorem RegsBut.of_regs {l : List Fld} {s t u : State} (hu : u.regs = t.regs) (h : RegsBut l s t) : RegsBut l s u := by
  intro g hg hl
  rw [← h g hg hl]
  simp [State.rf, State.rn, State.reg, hu]

theorem RegsBut.mono {l m : List Fld} {s t : State} (hs : l ⊆ m) (h : RegsBut l s t) : RegsBut m s t :=
  fun f hf hl => h f hf (fun g hg => hl g (hs hg))

theorem RegsBut.ite {l : List Fld} {s t u : State} {c : Prop} [Decidable c] (h : RegsBut l s t) (k : RegsBut l s u) :
    RegsBut l s (if c then t else u) := by split_ifs <;> assumption

theorem RegsBut.foldl {α : Type} {l : List Fld} {g : State → α → State} (hg : ∀ t x, RegsBut l t (g t x)) :
    ∀ (xs : List α) (s : State), RegsBut l s (xs.foldl g s)
  | [], s => RegsBut.refl l s
  | x :: xs, s => (hg s x).trans (RegsBut.foldl hg xs (g s x))

/-- A register none of whose fields is listed is as before. -/
theorem RegsBut.reg {l : List Fld} {s t : State} {a : Nat} (h : RegsBut l s t) (ha : ∀ g ∈ l, a ≠ g.adr) : t.reg a = s.reg a := by
  have := h (whole a) (by simp [whole]) (fun g hg => Or.inl (ha g hg))
  have hw : ∀ u : State, u.rf (whole a) = (u.reg a).toNat := fun u => by
    simp only [State.rf, Fld.getN, whole, State.rn, Nat.shiftRight_zero]
    exact Nat.mod_eq_of_lt (u.reg a).isLt
  rw [hw, hw] at this
  exact BitVec.eq_of_toNat_eq this

end Sys2Proof.Machine
end

