-- ==== Sys2Proof/Tests/Slice0.lean ====
section
/-! SUPPORT. Tests of the model: ill-formed commands are refused, worked values of the spec, and the witnesses of the
statements. -/

namespace Sys2Proof.Machine

set_option Elab.async false
set_option linter.unusedVariables false

/-- A lane in SERVICE with nothing configured: the state the tests start from. -/
def State.serv : State := ({ State.reset with now := 10000000, gt := 2000000000 }).wf LANE_STATE.STATE 4

/-! ### Ill-formed commands: one for each check of WellFormed -/

theorem test_wf_requester : (Instr.registerWrite 5 0x40000000 0 false).wf = false ∧ (Instr.registerWrite 1 0x40000000 0 false).wf = true := by decide
theorem test_wf_address : (Instr.accessFault 1 (2 ^ 32) true).wf = false := by decide
theorem test_wf_offset : (Instr.timeMessageReceive 1 2147483648 none).wf = false := by decide
theorem test_wf_net_offset : (Instr.timeMessageReceive 1 0 (some (-2147483649))).wf = false := by decide
theorem test_wf_bulk : (Instr.moduleCommandReceive 1 (.cmsDigest [1])).wf = false := by decide
theorem test_wf_output : (Instr.outputCompare 0 none (some (.out ⟨1, 0x20000000, 0, 0, true⟩ false)) none).wf = false := by decide
theorem test_wf_tokens : (Instr.outputCompare 0 none none (some (.run (2 ^ 64)))).wf = false := by decide +kernel
theorem test_wf_frame : (Instr.airumFrameReceive { bytes := List.replicate 59 0, fcsOk := true, sfdGt := 0 }).wf = false := by decide +kernel
theorem test_wf_star_frame : (Instr.starFrameReceive 0 { bytes := List.replicate 1515 0, fcsOk := true, sfdGt := 0 }).wf = false := by decide +kernel
theorem test_wf_order : (Instr.moduleCommandReceive 1 (.profileLock (List.replicate 95 0))).wf = false := by decide +kernel
theorem test_wf_chain : (Instr.moduleCommandReceive 1 (.cmsCheck [1] 0 [] 255 none)).wf = false := by decide
theorem test_wf_refused : (Instr.moduleCommandReceive 1 (.cmsRefused 3 0 0)).wf = false := by decide
theorem test_wf_agreement : (Instr.agreementReceive 1 0 1 5 (List.replicate 49 0)).wf = false := by decide
theorem test_wf_vote :
    (Instr.voteReceive 1 { fit := true, seq := 1, inService := true, relayed := [], mission := 3, held := false, stopGt := 0, causes := 0, srst := false, windOut := false, circOut := false }).wf = false := by decide
theorem test_wf_can : (Instr.canReceive 0 { id := 1, dlc := 16, esi := false, gt := 0, data := [] }).wf = false := by decide
theorem test_wf_load : (Instr.cmsLoad 0 0 [1, 2, 3, 4, 5]).wf = false := by decide
theorem test_wf_update : (Instr.updWrite 0 0 [1, 2, 3]).wf = false := by decide
theorem test_wf_token : (Instr.secDebugEnter 0 (List.replicate 96 0)).wf = false := by decide +kernel
theorem test_wf_signed_order : (Instr.secRekey 0 (List.replicate 144 0)).wf = false := by decide +kernel
theorem test_wf_temperature : (Instr.pmuTempHigh 128).wf = false := by decide

/-! ### Worked examples and published values -/

/-- The worked example after R80, periods 0, 2 and 5: S = 500 ns, DROP_CARRY, 180.25 ns commanded (in 1/32 ns). -/
theorem test_valve_example :
    (onTimeComp 5768 100000 500 0 0 0 0 false ⟨0, 0, 0, 0⟩ = ⟨⟨181 * 32, -24, 0, 0⟩, 0, true⟩) ∧
    (onTimeComp 5768 100000 500 0 0 0 2 false ⟨361 * 32, -16, 0, 0⟩ = ⟨⟨0, -8, 0, 0⟩, 541 * 32, false⟩) ∧
    (onTimeComp 5768 100000 500 0 0 0 5 false ⟨361 * 32, -24, 0, 0⟩ = ⟨⟨0, -16, 0, 0⟩, 541 * 32, false⟩) := by decide +kernel

/-- The state of the worked example after R114: three COMP legs, DT 250, MINP 400, centre aligned, PMIN 50 000,
SAMPSEL 2. -/
def State.edgeExample : State :=
  [0, 1, 2].foldl (fun s m => ((s.wf (PWM_LEGSET.MODE m) 1).wf (PWM_LEGSET.DT m) 250).wf (PWM_LEGSET.MINP m) 400)
    (((State.serv.wf (PWM_BANKCFG.PMIN 0) 50000).wf (PWM_BANKCFG.ALIGN 0) 1).wf (GLK_PORTCFG.SAMPSEL 0) 2)

/-- It is refused at 200 Mbit/s (300 ns a command) and accepted at 400 Mbit/s (150 ns). -/
theorem test_edge_example : edgeRefused State.edgeExample 0 300 = true ∧ edgeRefused State.edgeExample 0 150 = false := by
  decide +kernel

/-- SHA-512 of "abc" (FIPS 180-4), its first and last bytes. -/
theorem test_sha512 :
    (sha512 [0x61, 0x62, 0x63]).take 8 = [0xdd, 0xaf, 0x35, 0xa1, 0x93, 0x61, 0x7a, 0xba] ∧ (sha512 [0x61, 0x62, 0x63]).drop 60 = [0xa5, 0x4c, 0xa4, 0x9f] := by decide +kernel

/-- CRC-32 of "123456789" (IEEE 802.3). -/
theorem test_crc32 : crc32 [0x31, 0x32, 0x33, 0x34, 0x35, 0x36, 0x37, 0x38, 0x39] = 0xCBF43926 := by decide +kernel

/-- RFC 8032, test 1: the public key of the seed. -/
theorem test_ed25519 :
    edPublic [0x9d, 0x61, 0xb1, 0x9d, 0xef, 0xfd, 0x5a, 0x60, 0xba, 0x84, 0x4a, 0xf4, 0x92, 0xec, 0x2c, 0xc4,
      0x44, 0x49, 0xc5, 0x69, 0x7b, 0x32, 0x69, 0x19, 0x70, 0x3b, 0xac, 0x03, 0x1c, 0xae, 0x7f, 0x60] =
    [0xd7, 0x5a, 0x98, 0x01, 0x82, 0xb1, 0x0a, 0xb7, 0xd5, 0x4b, 0xfe, 0xd3, 0xc9, 0x64, 0x07, 0x3a,
      0x0e, 0xe1, 0x72, 0xf3, 0xda, 0xa6, 0x23, 0x25, 0xaf, 0x02, 0x1a, 0x68, 0xf7, 0x07, 0x51, 0x1a] := by decide +kernel

/-- binary32: 1 + 2^-24 rounds to even, 1/3 rounds to nearest, and a sum of opposite infinities is NaN. -/
theorem test_float :
    fadd 0x3F800000 0x33800000 = 0x3F800000 ∧ fdiv 0x3F800000 0x40400000 = 0x3EAAAAAB ∧ isNaN (fadd 0x7F800000 0xFF800000) = true := by
  decide +kernel

/-- A check value of forty zero bits is eight letters A (R430). -/
theorem test_value_chars : valueChars 0 = List.replicate 8 65 ∧ valueChars (2 ^ 40 - 1) = List.replicate 8 55 := by decide +kernel

/-- A waiting command runs before any tick, and its successor waits on. -/
theorem test_queue :
    (match step { State.serv with pending := [.gtLoRead 1, .powerLoss] } with
     | .next t => t.pending == [.powerLoss] && t.rdata == 2000000000 && t.now == 10000000
     | _ => false) = true := by decide +kernel

/-- An empty queue is a tick of 5 ns. -/
theorem test_tick : (match step State.serv with | .next t => t.gt == 2000000005 && t.now == 10000005 | _ => false) = true := by decide +kernel

/-! ### Witnesses: for every statement with hypotheses a state and operands that meet them, clause by clause -/

theorem wit_AgreementAndModuleMessages :
    ((5 : Nat) < 2 ^ 32 ∧ agrResult 1 0 [5, 9, 7] = 7) ∧
    ((5 : Nat) < 2 ^ 32 ∧ agrResult 1 0 [5, 8] = 6) ∧
    (let k : Fin 3 := 1; let tag : Word := 77; let w : List Word := [5, 6]; let s : State := ((State.serv.wf AST_INJCTL.ARM 0).wf LANE_PEERS.BRIDGE_UP 6 |>.wb LBR_AGRCFG.EN true)
    (s.on = true) ∧ (s.isPeer k = true) ∧ (s.bridgeQuiet k) ∧ (s.bridgeUp k = true) ∧ (s.rb LBR_AGRCFG.EN = true) ∧ (s.otp.jv2g = false) ∧ ((s.st == stIntegrate || s.st == stService) = true) ∧ (s.ast.held = [])) ∧
    (let k : Fin 3 := 1; let tag : Word := 77; let w : List Word := [5, 6]; let s : State := (({ (State.serv.wf AST_INJCTL.ARM 0).wf LANE_PEERS.BRIDGE_UP 6 |>.wb LBR_AGRCFG.EN true with otp := { State.serv.otp with jv2g := true } } : State).wf LANE_PEERS.BRIDGE_UP 6)
    (s.on = true) ∧ (s.isPeer k = true) ∧ (s.bridgeQuiet k) ∧ (s.bridgeUp k = true) ∧ (s.rb LBR_AGRCFG.EN = true) ∧ ((s.st == stIntegrate || s.st == stService) = false ∨ s.otp.jv2g = true)) ∧
    (let k : Fin 3 := 1; let o : Fin 3 := 0; let tag : Word := 77; let w : List Word := [5, 6]; let s : State := ((State.serv.wf AST_INJCTL.ARM 0).wf LANE_PEERS.BRIDGE_UP 6 |>.wb LBR_AGRCFG.EN true)
    (s.on = true) ∧ (s.isPeer k = true) ∧ (s.bridgeQuiet k) ∧ (s.bridgeUp k = true) ∧ (s.rb LBR_AGRCFG.EN = true)) ∧
    (let k : Fin 3 := 1; let o : Fin 3 := 0; let rd : Fin 2 := 1; let tag : Word := 77; let w : List Word := [5, 6]; let s : State := ((State.serv.wf AST_INJCTL.ARM 0).wf LBR_AGRCFG.EN 0)
    (s.on = true) ∧ (s.isPeer k = true) ∧ (s.bridgeQuiet k) ∧ (s.bridgeUp k = false ∨ s.rb LBR_AGRCFG.EN = false)) ∧
    (let own : AgrWords := { tag := 77, words := [5, 9] }; let wA : List Nat := [5, 9]; let wB : List Nat := [6, 8]; let wC : List Nat := [1, 12]; let ty : Nat := 0; let s : State := ({ State.serv.wf LBR_AGRCFG.EN 1 |>.wf LBR_AGRCFG.NITEMS 2 |>.wf LBR_AGRSTAT.DONE 0 |>.wf (LBR_ITEMCFG.TYPE 0) ty |>.wf (LBR_ITEMCFG.RULE 0) 1 |>.wf (LBR_ITEMCFG.MINCNT 0) 2 |>.wf (LBR_ITEMCFG.TYPE 1) ty |>.wf (LBR_ITEMCFG.RULE 1) 2 |>.wf (LBR_ITEMCFG.MINCNT 1) 2 with agr := { own := some { tag := 77, words := [5, 9] }, direct := [(1, { tag := 77, words := [6, 8] }), (2, { tag := 77, words := [1, 12] })] } })
    (s.on = true) ∧ (s.rb LBR_AGRCFG.EN = true) ∧ (s.rb LBR_AGRSTAT.DONE = false) ∧ (s.otp.jv2g = false) ∧ (s.otp.lane < 3) ∧ (s.agr.own = some own) ∧ (own.tag < 2 ^ 32) ∧ (s.rf LBR_AGRCFG.NITEMS ≤ 48) ∧ (s.laneWords own.tag (s.rf LBR_AGRCFG.NITEMS) 0 = .inl (some wA)) ∧ (s.laneWords own.tag (s.rf LBR_AGRCFG.NITEMS) 1 = .inl (some wB)) ∧ (s.laneWords own.tag (s.rf LBR_AGRCFG.NITEMS) 2 = .inl (some wC)) ∧ (wA.length = s.rf LBR_AGRCFG.NITEMS) ∧ (wB.length = s.rf LBR_AGRCFG.NITEMS) ∧ (wC.length = s.rf LBR_AGRCFG.NITEMS)) ∧
    (let own : AgrWords := { tag := 77, words := [5, 9] }; let i : Fin 48 := 0; let s : State := ({ State.serv.wf LBR_AGRCFG.EN 1 |>.wf LBR_AGRCFG.NITEMS 2 |>.wf LBR_AGRSTAT.DONE 0 |>.wf (LBR_ITEMCFG.TYPE 0) 1 |>.wf (LBR_ITEMCFG.RULE 0) 1 |>.wf (LBR_ITEMCFG.MINCNT 0) 3 |>.wf (LBR_ITEMCFG.TYPE 1) 1 |>.wf (LBR_ITEMCFG.RULE 1) 2 |>.wf (LBR_ITEMCFG.MINCNT 1) 2 with agr := { own := some { tag := 77, words := [5, 9] }, direct := [(1, { tag := 77, words := [6, 8] })] } })
    (s.on = true) ∧ (s.rb LBR_AGRCFG.EN = true) ∧ (s.rb LBR_AGRSTAT.DONE = false) ∧ (s.agr.own = some own) ∧ (i.val < s.rf LBR_AGRCFG.NITEMS) ∧ ((s.allLanes.filter (fun k => match s.laneWords own.tag (s.rf LBR_AGRCFG.NITEMS) k with | .inl (some w) => decide (i.val < w.length) && !agrMissing (s.rf (LBR_ITEMCFG.TYPE i)) (w.getD i 0) | _ => false)).length < s.rf (LBR_ITEMCFG.MINCNT i))) ∧
    (let own : AgrWords := { tag := 77, words := [5, 9] }; let k : Fin 3 := 1; let i : Nat := 1; let s : State := ({ State.serv.wf LBR_AGRCFG.EN 1 |>.wf LBR_AGRCFG.NITEMS 2 |>.wf LBR_AGRSTAT.DONE 0 |>.wf (LBR_ITEMCFG.TYPE 0) 1 |>.wf (LBR_ITEMCFG.RULE 0) 1 |>.wf (LBR_ITEMCFG.MINCNT 0) 2 |>.wf (LBR_ITEMCFG.TYPE 1) 1 |>.wf (LBR_ITEMCFG.RULE 1) 2 |>.wf (LBR_ITEMCFG.MINCNT 1) 2 with agr := { via := [(7, { tag := 77, words := [6, 7] })], own := some { tag := 77, words := [5, 9] }, direct := [(1, { tag := 77, words := [6, 8] }), (2, { tag := 77, words := [1, 12] })] } })
    (s.on = true) ∧ (s.rb LBR_AGRCFG.EN = true) ∧ (s.rb LBR_AGRSTAT.DONE = false) ∧ (s.otp.jv2g = false) ∧ (s.otp.lane < 3) ∧ (s.agr.own = some own) ∧ (s.laneWords own.tag (s.rf LBR_AGRCFG.NITEMS) k = .inr i)) ∧
    (let k : Fin 3 := 1; let d : List Byte := [7]; let s : State := (({ State.serv.wf AST_INJCTL.ARM 0 |>.wf LANE_PEERS.BRIDGE_UP 6 with sec := { State.serv.sec with staging := some [], checkCh := none } } : State).setPeer k { hb := { state := 3 } })
    (s.on = true) ∧ (s.isPeer k = true) ∧ (s.bridgeQuiet k) ∧ (s.takesPart k = true) ∧ (s.sec.checkCh = none) ∧ (s.sec.staging.isSome = true)) ∧
    (let k : Fin 3 := 1; let l : Nat := 2; let ru : Nat := 56; let o : Nat := 12; let ch : Fin 8 := 0; let s : State := (((({ State.serv.wf AST_INJCTL.ARM 0 |>.wf LANE_PEERS.BRIDGE_UP 6 with sec := { State.serv.sec with checkCh := some 0 } } : State).setPeer k { hb := { state := 3 } }).setChan 0 { run := some { op := 0x601 } }))
    (s.on = true) ∧ (s.isPeer k = true) ∧ (s.bridgeQuiet k) ∧ (s.takesPart k = true) ∧ (s.sec.checkCh = some ch.val)) ∧
    (let k : Fin 3 := 1; let ch : Fin 8 := 0; let s : State := (((({ State.serv.wf AST_INJCTL.ARM 0 |>.wf LANE_PEERS.BRIDGE_UP 6 with sec := { State.serv.sec with checkCh := some 0 } } : State).setPeer k { hb := { state := 3 } }).setChan 0 { run := some { op := 0x601 } }))
    (s.on = true) ∧ (s.isPeer k = true) ∧ (s.bridgeQuiet k) ∧ (s.takesPart k = true) ∧ (s.sec.checkCh = some ch.val)) ∧
    (let k : Fin 3 := 1; let cn : List Nat := []; let n : Nat := 0; let pf : List Nat := []; let cap : Nat := 255; let f : Option (Nat × Nat × Nat) := none; let s : State := (({ State.serv.wf AST_INJCTL.ARM 0 |>.wf LANE_PEERS.BRIDGE_UP 6 with sec := { State.serv.sec with proc := some { kind := 1, step := 3 }, checkCh := none } } : State).setPeer k { hb := { state := 3 } })
    (s.on = true) ∧ (s.isPeer k = true) ∧ (s.bridgeQuiet k) ∧ (s.takesPart k = true) ∧ (s.procBusy = true) ∧ (s.sec.checkCh = none) ∧ (s.ast.held = [])) ∧
    (let k : Fin 3 := 1; let o : List Byte := [74, 79, 82, 68, 4, 0, 0, 1] ++ leBytes 8 0 ++ (List.replicate 16 7 ++ leBytes 64 1); let s : State := (({ State.serv.wf AST_INJCTL.ARM 0 |>.wf LANE_PEERS.BRIDGE_UP 6 |>.wf LANE_PROFILE.MAXPROF 1 with otp := { State.serv.otp with used3 := 1 }, sec := { State.serv.sec with proc := none } } : State).setPeer k { hb := { state := 3 } })
    (s.on = true) ∧ (s.isPeer k = true) ∧ (s.bridgeQuiet k) ∧ (s.takesPart k = true) ∧ (s.sec.proc = none) ∧ (s.otp.used3 < 4) ∧ (s.orderFields 4 o = true) ∧ (1 ≤ leAt o 7 1) ∧ (leAt o 7 1 ≤ s.rf LANE_PROFILE.MAXPROF)) ∧
    (let k : Fin 3 := 1; let s : State := (({ State.serv.wf AST_INJCTL.ARM 0 |>.wf LANE_PEERS.BRIDGE_UP 6 |>.wf NCH_CMSSTAT.STAGE 2 with sec := { State.serv.sec with digest := some [7], proc := none } } : State).setPeer k { hb := { state := 3 } })
    (s.on = true) ∧ (s.isPeer k = true) ∧ (s.bridgeQuiet k) ∧ (s.takesPart k = true) ∧ (s.sec.proc = none) ∧ (s.sec.digest ≠ none) ∧ (s.otp.used0 < 1024) ∧ (s.rf NCH_CMSSTAT.STAGE ≠ 1)) ∧
    (let k : Fin 3 := 1; let p : Proc := { kind := 1, step := 7, prepared := 4 }; let s : State := (({ State.serv.wf AST_INJCTL.ARM 0 |>.wf LANE_PEERS.BRIDGE_UP 6 with sec := { State.serv.sec with proc := some p } } : State).setPeer k { hb := { state := 3 } })
    (s.on = true) ∧ (s.isPeer k = true) ∧ (s.bridgeQuiet k) ∧ (s.takesPart k = true) ∧ (s.sec.proc = some p) ∧ (p.kind = 1) ∧ (p.resumed = false) ∧ (p.step = 7) ∧ ((∀ j ∈ s.peersOf, j ≠ k.val → p.prepared.testBit j = true))) ∧
    (let k : Fin 3 := 1; let p : Proc := { kind := 1, step := 7, prepared := 0 }; let j : Fin 3 := 2; let s : State := (({ State.serv.wf AST_INJCTL.ARM 0 |>.wf LANE_PEERS.BRIDGE_UP 6 with sec := { State.serv.sec with proc := some p } } : State).setPeer k { hb := { state := 3 } })
    (s.on = true) ∧ (s.isPeer k = true) ∧ (s.bridgeQuiet k) ∧ (s.takesPart k = true) ∧ (s.sec.proc = some p) ∧ (p.kind = 1) ∧ (p.resumed = false) ∧ (p.step = 7) ∧ (p.intent = false) ∧ (j ≠ k) ∧ (s.isPeer j = true) ∧ (p.prepared.testBit j = false)) ∧
    (let k : Fin 3 := 1; let p : Proc := { kind := 1, step := 12 }; let s : State := (({ State.serv.wf AST_INJCTL.ARM 0 |>.wf LANE_PEERS.BRIDGE_UP 6 with sec := { State.serv.sec with proc := some p } } : State).setPeer k { hb := { state := 3 } })
    (s.on = true) ∧ (s.isPeer k = true) ∧ (s.bridgeQuiet k) ∧ (s.takesPart k = true) ∧ (s.sec.proc = some p) ∧ (p.kind = 1) ∧ (p.resumed = false) ∧ (p.step = 7 ∨ p.step = 12)) ∧
    (let own : AgrWords := { tag := 77, words := [5, 9, 3] }; let s : State := (({ State.serv.wf LBR_AGRCFG.EN 1 |>.wf LBR_AGRCFG.NITEMS 3 |>.setN LBR_AGRSTAT.adr 0 with agr := { State.serv.agr with own := some own } } : State))
    (s.on = true) ∧ (s.rb LBR_AGRCFG.EN = true) ∧ (s.rb LBR_AGRSTAT.DONE = false) ∧ (s.agr.own = some own)) :=
  by
  iterate 18 refine And.intro (by decide +kernel) ?_
  decide +kernel

theorem wit_NodeIntegration :
    (let k : Fin 4 := 1; let s : State := ({ (State.serv.wf AST_INJCTL.ARM 0 |>.wf AST_CFG.MODE 0).wf ANW_NODESTAT.STATE 1 |>.wf ANW_NODECFG.CS 1 |>.wf ANW_NODECFG.CSWAIT 3 |>.wf ANW_NODESTAT.LINKUP 1 |>.wf ANW_NODESTAT.RATE 1 |>.wf (ANW_SETCFG.EN 0) 0 |>.wf (ANW_SETCFG.EN 1) 1 with anw := { State.serv.anw with launch := none, listenGt := 0 } })
    (s.nodeSt = nodeListen) ∧ (s.anw.launch = none) ∧ (s.rb ANW_NODECFG.CS = true) ∧ (s.nodeLink = true) ∧ ((s.anw.listenGt + s.rf ANW_NODECFG.CSWAIT * 500000 + 499999) / 500000 * 500000 + 78 ≤ s.gt) ∧ (s.ownSet = some k.val) ∧ (s.rf AST_INJCTL.ARM = 0) ∧ (s.ast.held = [])) ∧
    (let k : Fin 4 := 1; let s : State := ({ (State.serv.wf AST_INJCTL.ARM 0 |>.wf AST_CFG.MODE 0).wf ANW_NODESTAT.STATE 2 |>.wf ANW_NODESTAT.LINKUP 1 |>.wf ANW_NODESTAT.RATE 1 |>.wf (ANW_SETCFG.EN 0) 0 |>.wf (ANW_SETCFG.EN 1) 1 with anw := { State.serv.anw with retryGt := 7 } })
    (s.nodeSt = nodeBackoff) ∧ (s.nodeLink = true) ∧ (s.anw.retryGt ≤ s.gt) ∧ (s.ownSet = some k.val) ∧ (s.rf AST_INJCTL.ARM = 0) ∧ (s.ast.held = [])) ∧
    (let s : State := ({ (State.serv.wf AST_INJCTL.ARM 0 |>.wf AST_CFG.MODE 0).wf ANW_NODESTAT.STATE 3 |>.wf ANW_NODECFG.EN 1 with anw := { State.serv.anw with o := 0, chain := 9, heard := 7, syncs := [{ node := 3, dev := 5, beacon := true }, { node := 4, dev := 9 }] } })
    (s.on = true) ∧ (s.rb ANW_NODECFG.EN = true) ∧ (s.anw.chain < s.ntChain) ∧ (s.nodeSt = nodeSyncup) ∧ (s.anw.heard < s.anw.chain) ∧ (s.fullValid = true)) ∧
    (let s : State := ({ (State.serv.wf AST_INJCTL.ARM 0 |>.wf AST_CFG.MODE 0).wf ANW_NODESTAT.STATE 4 |>.wf ANW_NODECFG.EN 1 with anw := { State.serv.anw with o := 0, chain := 9, syncs := [], lowRun := 2 } })
    (s.on = true) ∧ (s.rb ANW_NODECFG.EN = true) ∧ (s.anw.chain < s.ntChain) ∧ (s.nodeSt = nodeActive ∨ s.nodeSt = nodePassive) ∧ (s.syncNodes.length < 2) ∧ (2 ≤ s.anw.lowRun) ∧ (s.anw.badRound = false) ∧ (s.anw.badSet = false) ∧ (s.anw.roundRun < 2) ∧ (s.anw.setRun < 2)) ∧
    (let g : Bool := true; let l : List Nat := [20000, 20010]; let s : State := ((State.serv.wf AST_INJCTL.ARM 0 |>.wf AST_CFG.MODE 0).wf ANW_NODECFG.EN 1 |>.wf ANW_NODESTAT.LINKUP 0 |>.wf ANW_PORTCFG.MAXRATE 1 |>.wf ANW_PORTCFG.MINRATE 0)
    (s.on = true) ∧ (s.isStar = false) ∧ (s.rb ANW_NODECFG.EN = true) ∧ (s.rb ANW_NODESTAT.LINKUP = false) ∧ (rateOk (s.rb ANW_PORTCFG.AN) (s.rb ANW_PORTCFG.MAXRATE) (s.rb ANW_PORTCFG.MINRATE) g = true) ∧ (l ≠ []) ∧ (32000 * l.length ≤ l.sum + 16000 * l.length) ∧ (l.sum < 2 ^ 32 * l.length) ∧ (s.rf AST_INJCTL.ARM = 0) ∧ (s.ast.held = [])) ∧
    (let s : State := ((State.serv.wf AST_INJCTL.ARM 0 |>.wf AST_CFG.MODE 0).wf ANW_NODESTAT.STATE 4 |>.wf ANW_NODESTAT.LINKUP 1)
    (s.on = true) ∧ (s.isStar = false) ∧ (s.rb ANW_NODESTAT.LINKUP = true) ∧ (s.nodeSt = nodeActive ∨ s.nodeSt = nodePassive)) ∧
    (let g : Option Bool := some true; let t0 : Nat := 7; let s : State := ({ { (State.serv.wf AST_INJCTL.ARM 0 |>.wf AST_CFG.MODE 0).wf ANW_PORTCFG.AN 1 |>.wf ANW_NODESTAT.LINKUP 0 |>.wf ANW_PORTCFG.MAXRATE 1 |>.wf ANW_PORTCFG.MINRATE 0 with anw := { State.serv.anw with forced := [(0, (g, t0))] } } with now := 300000000 })
    (s.on = true) ∧ (s.isStar = false) ∧ (s.rb ANW_PORTCFG.AN = true) ∧ (s.rb ANW_NODESTAT.LINKUP = false) ∧ (mget (none, s.pmu.releasedAt) s.anw.forced 0 = (g, t0)) ∧ (t0 + 200000000 ≤ s.now)) ∧
    (let ch : Fin 8 := 0; let r : HmbRun := { op := 0x200, tag := 7, takenAt := 3, cmd := some (.anwNodeRestart ch) }; let s : State := ((((State.serv.wf AST_INJCTL.ARM 0 |>.wf AST_CFG.MODE 0).wf ANW_NODECFG.EN 1 |>.wf ANW_NODESTAT.LINKUP 1 |>.wf LANE_STATE.STATE 3).setChan ch { (State.serv.chan ch) with run := some r }).wb (HMB_CHCFG.EN ch) true)
    (s.Asked ch (.anwNodeRestart ch) r) ∧ (s.nodeMay = true) ∧ (s.nodeLink = true)) ∧
    (let s : State := (State.serv.wf AST_CFG.MODE 0 |>.wf ANW_NODESTAT.LINKUP 1)
    (s.on = true) ∧ (s.isStar = false) ∧ (s.rb ANW_NODESTAT.LINKUP = true)) ∧
    (let g : Option Bool := some true; let t0 : Nat := 5; let s : State := ({ State.serv.wf AST_CFG.MODE 0 |>.wf ANW_NODESTAT.LINKUP 0 |>.wf ANW_PORTCFG.AN 1 with now := State.serv.now + 900000000, anw := { State.serv.anw with forced := [(0, (g, t0))] } })
    (s.on = true) ∧ (s.isStar = false) ∧ (s.rb ANW_PORTCFG.AN = true) ∧ (s.rb ANW_NODESTAT.LINKUP = false) ∧ (mget (none, s.pmu.releasedAt) s.anw.forced 0 = (g, t0)) ∧ (t0 + 200000000 ≤ s.now)) :=
  by
  iterate 9 refine And.intro (by decide +kernel) ?_
  decide +kernel

theorem wit_FramesReceived :
    (let fr : AirumFrame := { bytes := [1, 2], fcsOk := true, sfdGt := 5 }; let s : State := ((State.serv.wf AST_INJCTL.ARM 0 |>.wf AST_CFG.MODE 0).wf ANW_NODESTAT.STATE 4)
    (s.on = true) ∧ (s.isStar = false) ∧ (s.rf AST_INJCTL.ARM = 0) ∧ (s.ast.held = []) ∧ (s.nodeSt = nodeOff ∨ airumRange s.chanCode fr.bytes = false)) ∧
    (let fr : AirumFrame := { bytes := airumBytes 0x0A 0x1234 { flow := 0x120, sset := 0, node := 5, kind := 0, ch := 16, lk := 24, age := 1, len := 8, seq := 77 } ([1]), fcsOk := false, sfdGt := State.serv.gt }; let s : State := ((State.serv.wf AST_INJCTL.ARM 0 |>.wf AST_CFG.MODE 0).wf ANW_NODESTAT.STATE 4)
    (s.on = true) ∧ (s.isStar = false) ∧ (s.rf AST_INJCTL.ARM = 0) ∧ (s.ast.held = []) ∧ (s.nodeSt ≠ nodeOff) ∧ (airumRange s.chanCode fr.bytes = true) ∧ (fr.fcsOk = false)) ∧
    (let fr : AirumFrame := { bytes := (airumBytes 0x0A 1 { flow := 0x120, sset := 0, node := 5, kind := 0, ch := 16, lk := 24, age := 1, len := 8, seq := 77 } [1, 2, 3, 4, 5, 6, 7, 8]), fcsOk := true, sfdGt := 5 }; let f : Fin 512 := 9; let s : State := ((((State.serv.wf AST_INJCTL.ARM 0 |>.wf AST_CFG.MODE 0).wf ANW_NODESTAT.STATE 4)) |>.setN (ANW_FLOWCFG.adr f) (2 ^ 31 + 0 * 2 ^ 27 + 5 * 2 ^ 12 + 0x120) |>.setN (ANW_FLOWBUF.adr f) (8 * 2 ^ 16 + 4) |>.setN (ANW_FLOWSLOT.adr f 0) (2 ^ 31 + 2 ^ 15 + 24) |>.wf ANW_NODESTAT.SSET 0 |>.setN ANW_BUFBASE.adr 0x20100000)
    (s.on = true) ∧ (s.isStar = false) ∧ (s.rf AST_INJCTL.ARM = 0) ∧ (s.ast.held = []) ∧ (s.nodeSt ≠ nodeOff) ∧ ((s.nodeSt = nodeListen ∨ s.nodeSt = nodeBackoff) → (hdrOf fr.bytes).kind = kindData) ∧ (airumRange s.chanCode fr.bytes = true) ∧ (fr.fcsOk = true) ∧ ((hdrOf fr.bytes).ver = 1) ∧ ((hdrOf fr.bytes).kind ≠ kindCold) ∧ (s.rxMatch (hdrOf fr.bytes) = [f.val]) ∧ (e2eGood s.chanCode (s.schedWord (ANW_SETID.adr (hdrOf fr.bytes).sset)) fr.bytes = false)) ∧
    (let fr : AirumFrame := { bytes := airumBytes 0x0A 0x1234 { flow := 0x120, sset := 0, node := 5, kind := 0, ch := State.serv.gt / 500000 % 64, lk := 24, age := 1, len := 8, seq := 77 } [1, 2, 3, 4, 5, 6, 7, 8], fcsOk := true, sfdGt := State.serv.gt / 500000 * 500000 + 121000 }; let f : Fin 512 := 9; let s : State := ({ ((((State.serv.wf AST_INJCTL.ARM 0 |>.wf AST_CFG.MODE 0).wf ANW_NODESTAT.STATE 4 |>.setN (ANW_SETID.adr 0) 0x1234 |>.setN (ANW_SETID.adr 1) 0x1234 |>.setN (ANW_SETID.adr 2) 0x1234 |>.setN (ANW_SETID.adr 3) 0x1234)) |>.setN (ANW_FLOWCFG.adr f) (2 ^ 31 + 0 * 2 ^ 27 + 5 * 2 ^ 12 + 0x120) |>.setN (ANW_FLOWBUF.adr f) (8 * 2 ^ 16 + 4) |>.setN (ANW_FLOWSLOT.adr f 0) (2 ^ 31 + 2 ^ 15 + 24) |>.wf ANW_NODESTAT.SSET 0 |>.setN ANW_BUFBASE.adr 0x20100000) with anw := { State.serv.anw with o := 0, flows := [] } })
    (s.on = true) ∧ (s.isStar = false) ∧ (s.rf AST_INJCTL.ARM = 0) ∧ (s.ast.held = []) ∧ (s.nodeSt ≠ nodeOff) ∧ (airumRange s.chanCode fr.bytes = true) ∧ (fr.fcsOk = true) ∧ ((hdrOf fr.bytes).ver = 1) ∧ ((hdrOf fr.bytes).kind = kindData) ∧ (s.rxMatch (hdrOf fr.bytes) = [f.val]) ∧ (e2eGood s.chanCode (s.schedWord (ANW_SETID.adr (hdrOf fr.bytes).sset)) fr.bytes = true) ∧ (s.inSpan f fr.sfdGt (hdrOf fr.bytes) = true) ∧ ((payloadOf fr.bytes).length = s.rf (ANW_FLOWBUF.LEN f)) ∧ ((s.flowSt f).missed = none)) ∧
    (let fr : AirumFrame := { bytes := airumBytes 0x0A 0x1234 { flow := 0xFC7, sset := 0, node := 7, kind := 2, coll := true, len := 0 } ([]), fcsOk := true, sfdGt := State.serv.gt }; let t0 : Nat := 55; let s : State := ({ (State.serv.wf AST_INJCTL.ARM 0 |>.wf AST_CFG.MODE 0).wf ANW_NODESTAT.STATE 1 |>.setN (ANW_SETID.adr 0) 0x1234 |>.setN (ANW_SETID.adr 1) 0x1234 |>.setN (ANW_SETID.adr 2) 0x1234 |>.setN (ANW_SETID.adr 3) 0x1234 with anw := { State.serv.anw with launch := some t0 } })
    (s.on = true) ∧ (s.isStar = false) ∧ (s.rf AST_INJCTL.ARM = 0) ∧ (s.ast.held = []) ∧ (s.nodeSt ≠ nodeOff) ∧ (airumRange s.chanCode fr.bytes = true) ∧ (fr.fcsOk = true) ∧ ((hdrOf fr.bytes).ver = 1) ∧ ((hdrOf fr.bytes).kind = kindCold) ∧ ((hdrOf fr.bytes).coll = true) ∧ (e2eGood s.chanCode (s.schedWord (ANW_SETID.adr (hdrOf fr.bytes).sset)) fr.bytes = true) ∧ (s.anw.launch = some t0)) ∧
    (let fr : AirumFrame := { bytes := airumBytes 0x0A 0x1234 { flow := 0xFC7, sset := 0, node := 7, kind := 1, ch := 9, lk := 1, len := 20 } (leBytes 4 13 ++ [0, 0, 0, 0, 0, 0, 0, 0] ++ leBytes 4 0x1234 ++ leBytes 4 50), fcsOk := true, sfdGt := State.serv.gt }; let f : Fin 512 := 9; let s : State := ((((State.serv.wf AST_INJCTL.ARM 0 |>.wf AST_CFG.MODE 0).wf ANW_NODESTAT.STATE 1 |>.wf ANW_NODESTAT.RATE 1 |>.setN (ANW_SETID.adr 0) 0x1234 |>.setN (ANW_SETID.adr 1) 0x1234 |>.setN (ANW_SETID.adr 2) 0x1234 |>.setN (ANW_SETID.adr 3) 0x1234)) |>.setN (ANW_FLOWCFG.adr f) (2 ^ 31 + 7 * 2 ^ 12 + 0xFC7) |>.setN (ANW_FLOWBUF.adr f) (20 * 2 ^ 16 + 4) |>.setN (ANW_FLOWSLOT.adr f 0) (2 ^ 31 + 2 ^ 15 + 1))
    (s.on = true) ∧ (s.isStar = false) ∧ (s.rf AST_INJCTL.ARM = 0) ∧ (s.ast.held = []) ∧ (s.nodeSt = nodeListen ∨ s.nodeSt = nodeBackoff) ∧ (airumRange s.chanCode fr.bytes = true) ∧ (fr.fcsOk = true) ∧ ((hdrOf fr.bytes).ver = 1) ∧ ((hdrOf fr.bytes).kind = kindSync) ∧ ((hdrOf fr.bytes).len = 20) ∧ (s.rxMatch (hdrOf fr.bytes) = [f.val]) ∧ (e2eGood s.chanCode (leAt (payloadOf fr.bytes) 12 4) fr.bytes = true) ∧ (leAt (payloadOf fr.bytes) 12 4 = s.schedWord (ANW_SETID.adr (leAt (payloadOf fr.bytes) 4 1 % 4))) ∧ (s.carries (leAt (payloadOf fr.bytes) 4 1 % 4) = true)) ∧
    (let fr : AirumFrame := { bytes := airumBytes 0x0A 0x1234 { flow := 0xFC7, sset := 0, node := 7, kind := 1, ch := 9, lk := 1, len := 20 } (leBytes 4 13 ++ [0, 0, 0, 0, 0, 0, 0, 0] ++ leBytes 4 0x1234 ++ leBytes 4 50), fcsOk := true, sfdGt := State.serv.gt }; let f : Fin 512 := 9; let s : State := ((((State.serv.wf AST_INJCTL.ARM 0 |>.wf AST_CFG.MODE 0).wf ANW_NODESTAT.STATE 1)) |>.setN (ANW_FLOWCFG.adr f) (2 ^ 31 + 7 * 2 ^ 12 + 0xFC7) |>.setN (ANW_FLOWBUF.adr f) (20 * 2 ^ 16 + 4) |>.setN (ANW_SETID.adr 0) 0x999)
    (s.on = true) ∧ (s.isStar = false) ∧ (s.rf AST_INJCTL.ARM = 0) ∧ (s.ast.held = []) ∧ (s.nodeSt = nodeListen ∨ s.nodeSt = nodeBackoff) ∧ (airumRange s.chanCode fr.bytes = true) ∧ (fr.fcsOk = true) ∧ ((hdrOf fr.bytes).ver = 1) ∧ ((hdrOf fr.bytes).kind = kindSync) ∧ ((hdrOf fr.bytes).len = 20) ∧ (s.rxMatch (hdrOf fr.bytes) = [f.val]) ∧ (e2eGood s.chanCode (leAt (payloadOf fr.bytes) 12 4) fr.bytes = true) ∧ (leAt (payloadOf fr.bytes) 12 4 ≠ s.schedWord (ANW_SETID.adr (leAt (payloadOf fr.bytes) 4 1 % 4)))) :=
  by
  iterate 6 refine And.intro (by decide +kernel) ?_
  decide +kernel

theorem wit_FlowsAndNetworkTime :
    (let req : Fin 32 := 1; let f : Fin 512 := 100; let s : State := (State.serv.wf (LANE_GRANT.OWNER (47 + f / 64)) req |>.wf (ANW_FLOWCFG.EN f) 1 |>.wf (ANW_FLOWCFG.DIR f) 1)
    (s.on = true) ∧ (s.mayWrite req (47 + f / 64) false = true) ∧ (s.isTx f = true)) ∧
    (let req : Fin 32 := 1; let f : Fin 512 := 100; let s : State := (State.serv.wf (LANE_GRANT.OWNER (47 + f / 64)) req |>.wf (ANW_FLOWCFG.DIR f) 0)
    (s.on = true) ∧ (s.mayWrite req (47 + f / 64) false = true) ∧ (s.isTx f = false)) ∧
    (let f : Fin 512 := 100; let c : Nat := 4000; let s : State := ({ (State.serv |>.wf (ANW_FLOWCFG.EN f) 1 |>.wf (ANW_FLOWCFG.DIR f) 1 |>.wf (ANW_FLOWCFG.HANDOFF f) 1 |>.setN (ANW_FLOWSLOT.adr f (State.serv.rf ANW_NODESTAT.SSET)) (2 ^ 31 + 2 ^ 15 + 24)) with gt := 2000118500, anw := { State.serv.anw with flows := [] } })
    (s.on = true) ∧ (s.isTx f = true) ∧ (s.rb (ANW_FLOWCFG.HANDOFF f) = true) ∧ (s.cutoffChain f = some c)) ∧
    (let f : Fin 512 := 100; let q : Seal := { payload := [7] }; let l : List Seal := []; let s : State := (State.serv.setFlow f { starts := q :: l })
    (s.on = true) ∧ ((s.flowSt f).starts = q :: l) ∧ (q.entry = none)) ∧
    (let f : Fin 512 := 100; let k : Nat := 24; let q : Seal := { payload := [7, 8], doneGt := 1990000000 }; let s : State := ({ ((State.serv.wf AST_INJCTL.ARM 0 |>.wf AST_CFG.MODE 0) |>.wf (ANW_FLOWCFG.EN f) 1 |>.wf (ANW_FLOWCFG.DIR f) 1 |>.wf (ANW_FLOWCFG.KIND f) 0 |>.wf ANW_NODESTAT.STATE 4 |>.wf ANW_NODESTAT.LINKUP 1 |>.setN (ANW_FLOWSLOT.adr f (State.serv.rf ANW_NODESTAT.SSET)) (2 ^ 31 + 2 ^ 15 + 24)).setN (HMB_CHPATH.adr 1) 0 with gt := 2000120100 }.setFlow f { seals := [q] })
    (s.spanDue f = some k) ∧ (s.rf (ANW_FLOWCFG.KIND f) = kindData) ∧ (s.nodeSt = nodeActive) ∧ (s.nodeLink = true) ∧ (s.srb (ANW_FLOWSLOT.EN f s.sset) = true) ∧ ((s.flowSt f).seals = [q]) ∧ (q.auto = none) ∧ (q.doneGt + 2020 ≤ s.gt / 500000 * 500000 + 5000 * k) ∧ ((s.flowSt f).starts = []) ∧ (f.val ≠ s.rf (HMB_CHPATH.RSP 1)) ∧ (s.rf AST_INJCTL.ARM = 0) ∧ (s.ast.held = [])) ∧
    (let f : Fin 512 := 100; let k : Nat := 24; let q : Seal := { payload := [7, 8], doneGt := 1990000000 }; let s : State := ({ ((State.serv.wf AST_INJCTL.ARM 0 |>.wf AST_CFG.MODE 0) |>.wf (ANW_FLOWCFG.EN f) 1 |>.wf (ANW_FLOWCFG.DIR f) 1 |>.wf (ANW_FLOWCFG.KIND f) 0 |>.wf ANW_NODESTAT.STATE 5 |>.setN (ANW_FLOWSLOT.adr f (State.serv.rf ANW_NODESTAT.SSET)) (2 ^ 31 + 2 ^ 15 + 24)).setN (HMB_CHPATH.adr 1) 0 with gt := 2000120100 }.setFlow f { seals := [q] })
    (s.spanDue f = some k) ∧ (s.rf (ANW_FLOWCFG.KIND f) = kindData) ∧ (s.nodeSt ≠ nodeActive) ∧ ((s.flowSt f).seals = [q]) ∧ (q.auto = none) ∧ (q.doneGt + 2020 ≤ s.gt / 500000 * 500000 + 5000 * k) ∧ (f.val ≠ s.rf (HMB_CHPATH.RSP 1))) ∧
    (let s : State := ({ (State.serv.wf AST_INJCTL.ARM 0 |>.wf AST_CFG.MODE 0).wf ANW_NODECFG.EN 1 with anw := { State.serv.anw with o := 0, chain := 9, syncs := (if State.serv.now % 2 = 0 then [] else [{ node := 60, dev := 16 }, { node := 61, dev := -5 }, { node := 62, dev := 900 }]) } })
    (s.on = true) ∧ (s.rb ANW_NODECFG.EN = true) ∧ (s.anw.chain < s.ntChain)) ∧
    (let f : Fin 512 := 9; let s : State := ({ (State.serv.wf AST_INJCTL.ARM 0 |>.wf AST_CFG.MODE 0).wf ANW_NODECFG.EN 1 |>.wf (ANW_FLOWCFG.EN f) 1 |>.wf (ANW_FLOWCFG.DIR f) 0 |>.wf (ANW_FLOWSTAT.PRIMED f) 1 |>.setN (ANW_FLOWSLOT.adr f (State.serv.rf ANW_NODESTAT.SSET)) (2 ^ 31 + 2 ^ 15 + 24) with anw := { State.serv.anw with o := 0, chain := 9, syncs := [] } })
    (s.on = true) ∧ (s.rb ANW_NODECFG.EN = true) ∧ (s.anw.chain < s.ntChain) ∧ (s.isRx f = true) ∧ (s.rb (ANW_FLOWSTAT.PRIMED f) = true)) ∧
    (let f : Fin 512 := 7; let q : Seal := { entry := some 9 }; let l : List Seal := []; let s : State := (State.serv.setFlow f { State.serv.flowSt f with starts := q :: l })
    (s.on = true) ∧ ((s.flowSt f).starts = q :: l)) :=
  by
  iterate 8 refine And.intro (by decide +kernel) ?_
  decide +kernel

theorem wit_BlockCommands :
    (let ch : Fin 8 := 0; let m : Byte := 17; let cls : Byte := 3; let act : Byte := 2; let per : Word := 5000; let ph : Word := 77; let tg : BitVec 16 := 9; let r : HmbRun := { op := 0x102, tag := 7, takenAt := 3, cmd := some (.strikeSet ch m cls act per ph tg) }; let s : State := (((State.serv.wf (SPN_CLASSCFG.BUDGET 3) 500 |>.wf (SPN_ESTAT.ENABLED 17) 0).setChan ch { (State.serv.chan ch) with run := some r }).wb (HMB_CHCFG.EN ch) true)
    (s.Asked ch (.strikeSet ch m cls act per ph tg) r) ∧ (s.spn.waiting = []) ∧ (m.toNat < 240) ∧ (cls.toNat < 16) ∧ (act.toNat < 7) ∧ (s.rf (SPN_CLASSCFG.BUDGET cls.toNat) ≠ 0) ∧ (1000 ≤ per.toNat) ∧ (ph.toNat < per.toNat) ∧ (s.rf (SPN_CLASSCFG.BUDGET cls.toNat) ≤ per.toNat) ∧ (s.enabledAt m.toNat s.gt = false) ∧ ((s.entry m.toNat).inst = none)) ∧
    (let ch : Fin 8 := 0; let m : Byte := 17; let cls : Byte := 3; let act : Byte := 2; let per : Word := 500; let ph : Word := 77; let tg : BitVec 16 := 9; let r : HmbRun := { op := 0x102, tag := 7, takenAt := 3, cmd := some (.strikeSet ch m cls act per ph tg) }; let s : State := (((State.serv).setChan ch { (State.serv.chan ch) with run := some r }).wb (HMB_CHCFG.EN ch) true)
    (s.Asked ch (.strikeSet ch m cls act per ph tg) r) ∧ (s.spn.waiting = []) ∧ (240 ≤ m.toNat ∨ 16 ≤ cls.toNat ∨ 7 ≤ act.toNat ∨ per.toNat < 1000 ∨ per.toNat ≤ ph.toNat)) ∧
    (let ch : Fin 8 := 0; let m : Byte := 17; let cls : Byte := 3; let act : Byte := 2; let per : Word := 5000; let ph : Word := 77; let tg : BitVec 16 := 9; let r : HmbRun := { op := 0x102, tag := 7, takenAt := 3, cmd := some (.strikeSet ch m cls act per ph tg) }; let s : State := (((State.serv.wf (SPN_CLASSCFG.BUDGET 3) 500 |>.wf (SPN_ESTAT.ENABLED 17) 1).setChan ch { (State.serv.chan ch) with run := some r }).wb (HMB_CHCFG.EN ch) true)
    (s.Asked ch (.strikeSet ch m cls act per ph tg) r) ∧ (s.spn.waiting = []) ∧ (m.toNat < 240) ∧ (cls.toNat < 16) ∧ (act.toNat < 7) ∧ (s.rf (SPN_CLASSCFG.BUDGET cls.toNat) ≠ 0) ∧ (1000 ≤ per.toNat) ∧ (ph.toNat < per.toNat) ∧ (s.rf (SPN_CLASSCFG.BUDGET cls.toNat) ≤ per.toNat) ∧ (s.enabledAt m.toNat s.gt = true ∨ (s.entry m.toNat).inst.isSome = true)) ∧
    (let ch : Fin 8 := 0; let mask : Byte := 0xEE; let v : Byte := 0x22; let r : HmbRun := { op := 0x105, tag := 7, takenAt := 3, cmd := some (.tskOutSet ch mask v) }; let s : State := (((State.serv).setChan ch { (State.serv.chan ch) with run := some r }).wb (HMB_CHCFG.EN ch) true)
    (s.Asked ch (.tskOutSet ch mask v) r) ∧ (mask.toNat &&& 0x11 = 0) ∧ (s.outHold = false)) ∧
    (let ch : Fin 8 := 0; let mask : Byte := 0x10; let v : Byte := 0; let r : HmbRun := { op := 0x105, tag := 7, takenAt := 3, cmd := some (.tskOutSet ch mask v) }; let s : State := (((State.serv).setChan ch { (State.serv.chan ch) with run := some r }).wb (HMB_CHCFG.EN ch) true)
    (s.Asked ch (.tskOutSet ch mask v) r) ∧ (mask.toNat &&& 0x11 ≠ 0)) ∧
    (let ch : Fin 8 := 0; let mask : Byte := 3; let r : HmbRun := { op := 0x300, tag := 7, takenAt := 3, cmd := some (.pwmTripClear ch mask) }; let s : State := (((State.serv.wf PWM_TRIPSTAT.LEVEL 0 |>.wf PWM_TRIPSTAT.TRIPPED 7).setChan ch { (State.serv.chan ch) with run := some r }).wb (HMB_CHCFG.EN ch) true)
    (s.Asked ch (.pwmTripClear ch mask) r) ∧ (mask.toNat < 16) ∧ (s.rf PWM_TRIPSTAT.LEVEL &&& mask.toNat = 0)) ∧
    (let ch : Fin 8 := 0; let mask : Byte := 3; let r : HmbRun := { op := 0x300, tag := 7, takenAt := 3, cmd := some (.pwmTripClear ch mask) }; let s : State := (((State.serv.wf PWM_TRIPSTAT.LEVEL 2 |>.wf PWM_TRIPSTAT.TRIPPED 7).setChan ch { (State.serv.chan ch) with run := some r }).wb (HMB_CHCFG.EN ch) true)
    (s.Asked ch (.pwmTripClear ch mask) r) ∧ (mask.toNat < 16) ∧ (s.rf PWM_TRIPSTAT.LEVEL &&& mask.toNat ≠ 0)) ∧
    (let ch : Fin 8 := 0; let leg : Byte := 4; let r : HmbRun := { op := 0x301, tag := 7, takenAt := 3, cmd := some (.pwmLegClear ch leg) }; let s : State := (((State.serv.wf (PWM_BANKCFG.DEST 1) 0 |>.wf (PWM_LEGSTAT.LATCH 4) 1).setChan ch { (State.serv.chan ch) with run := some r }).wb (HMB_CHCFG.EN ch) true)
    (s.Asked ch (.pwmLegClear ch leg) r) ∧ (leg.toNat ≤ 23) ∧ (s.linkBank (leg.toNat / 3) = false)) ∧
    (let ch : Fin 8 := 0; let leg : Byte := 4; let r : HmbRun := { op := 0x301, tag := 7, takenAt := 3, cmd := some (.pwmLegClear ch leg) }; let s : State := (((State.serv.wf (PWM_BANKCFG.DEST 1) 1 |>.wf (PWM_LEGSTAT.LATCH 4) 1 |>.wf (GLK_LEGHOLD.LEGn 1) 0x1000).setChan ch { (State.serv.chan ch) with run := some r }).wb (HMB_CHCFG.EN ch) true)
    (s.Asked ch (.pwmLegClear ch leg) r) ∧ (leg.toNat ≤ 23) ∧ (s.linkBank (leg.toNat / 3) = true)) ∧
    (let ch : Fin 8 := 0; let leg : Byte := 24; let r : HmbRun := { op := 0x301, tag := 7, takenAt := 3, cmd := some (.pwmLegClear ch leg) }; let s : State := (((State.serv).setChan ch { (State.serv.chan ch) with run := some r }).wb (HMB_CHCFG.EN ch) true)
    (s.Asked ch (.pwmLegClear ch leg) r) ∧ (23 < leg.toNat)) ∧
    (let ch : Fin 8 := 0; let port : Byte := 2; let r : HmbRun := { op := 0x302, tag := 7, takenAt := 3, cmd := some (.glkPortRestart ch port) }; let s : State := (((State.serv.wf (GLK_PORTCFG.EN 2) 1).setChan ch { (State.serv.chan ch) with run := some r }).wb (HMB_CHCFG.EN ch) true)
    (s.Asked ch (.glkPortRestart ch port) r) ∧ (port.toNat ≤ 7) ∧ (s.rb (GLK_PORTCFG.EN port.toNat) = true)) ∧
    (let ch : Fin 8 := 0; let port : Byte := 2; let r : HmbRun := { op := 0x302, tag := 7, takenAt := 3, cmd := some (.glkPortRestart ch port) }; let s : State := (((State.serv.wf (GLK_PORTCFG.EN 2) 0).setChan ch { (State.serv.chan ch) with run := some r }).wb (HMB_CHCFG.EN ch) true)
    (s.Asked ch (.glkPortRestart ch port) r) ∧ (7 < port.toNat ∨ s.rb (GLK_PORTCFG.EN port.toNat) = false)) ∧
    (let ch : Fin 8 := 0; let port : Byte := 2; let mask : Byte := 5; let r : HmbRun := { op := 0x303, tag := 7, takenAt := 3, cmd := some (.glkLegClear ch port mask) }; let s : State := (((State.serv.wf (GLK_PSTAT.DESAT 2) 0 |>.wf (GLK_LEGHOLD.LEGn 2) 0x030303).setChan ch { (State.serv.chan ch) with run := some r }).wb (HMB_CHCFG.EN ch) true)
    (s.Asked ch (.glkLegClear ch port mask) r) ∧ (port.toNat ≤ 7) ∧ (mask.toNat ≤ 7) ∧ (s.rf (GLK_PSTAT.DESAT port.toNat) &&& mask.toNat = 0)) ∧
    (let ch : Fin 8 := 0; let port : Byte := 2; let mask : Byte := 5; let r : HmbRun := { op := 0x303, tag := 7, takenAt := 3, cmd := some (.glkLegClear ch port mask) }; let s : State := (((State.serv.wf (GLK_PSTAT.DESAT 2) 4).setChan ch { (State.serv.chan ch) with run := some r }).wb (HMB_CHCFG.EN ch) true)
    (s.Asked ch (.glkLegClear ch port mask) r) ∧ (port.toNat ≤ 7) ∧ (mask.toNat ≤ 7) ∧ (s.rf (GLK_PSTAT.DESAT port.toNat) &&& mask.toNat ≠ 0)) ∧
    (let ch : Fin 8 := 0; let eng : Byte := 2; let ctx : Byte := 9; let r : HmbRun := { op := 0x400, tag := 7, takenAt := 3, cmd := some (.lpeCtxRestart ch eng ctx) }; let s : State := (((State.serv).setChan ch { (State.serv.chan ch) with run := some r }).wb (HMB_CHCFG.EN ch) true)
    (s.Asked ch (.lpeCtxRestart ch eng ctx) r) ∧ (eng.toNat ≤ 3) ∧ (ctx.toNat ≤ 63)) ∧
    (let ch : Fin 8 := 0; let eng : Byte := 2; let ctx : Byte := 64; let r : HmbRun := { op := 0x400, tag := 7, takenAt := 3, cmd := some (.lpeCtxRestart ch eng ctx) }; let s : State := (((State.serv).setChan ch { (State.serv.chan ch) with run := some r }).wb (HMB_CHCFG.EN ch) true)
    (s.Asked ch (.lpeCtxRestart ch eng ctx) r) ∧ (3 < eng.toNat ∨ 63 < ctx.toNat)) ∧
    (let ch : Fin 8 := 0; let eng : Byte := 2; let ctx : Byte := 9; let rc : Byte := 1; let r : HmbRun := { op := 0x401, tag := 7, takenAt := 3, cmd := some (.lpeCoefRead ch eng ctx rc) }; let s : State := (((State.serv).setChan ch { (State.serv.chan ch) with run := some r }).wb (HMB_CHCFG.EN ch) true)
    (s.Asked ch (.lpeCoefRead ch eng ctx rc) r) ∧ (eng.toNat ≤ 3) ∧ (ctx.toNat ≤ 63) ∧ (rc.toNat ≤ 3)) ∧
    (let ch : Fin 8 := 0; let eng : Byte := 2; let ctx : Byte := 9; let rc : Byte := 4; let r : HmbRun := { op := 0x401, tag := 7, takenAt := 3, cmd := some (.lpeCoefRead ch eng ctx rc) }; let s : State := (((State.serv).setChan ch { (State.serv.chan ch) with run := some r }).wb (HMB_CHCFG.EN ch) true)
    (s.Asked ch (.lpeCoefRead ch eng ctx rc) r) ∧ (3 < eng.toNat ∨ 63 < ctx.toNat ∨ 3 < rc.toNat)) ∧
    (let ch : Fin 8 := 0; let n : Byte := 3; let r : HmbRun := { op := 0x500, tag := 7, takenAt := 3, cmd := some (.fbcChanRestart ch n) }; let s : State := (((State.serv.wf (FBC_CFG.EN 3) 1 |>.wf (FBC_CFG.MODE 3) 1).setChan ch { (State.serv.chan ch) with run := some r }).wb (HMB_CHCFG.EN ch) true)
    (s.Asked ch (.fbcChanRestart ch n) r) ∧ (n.toNat ≤ 15) ∧ (s.rb (FBC_CFG.EN n.toNat) = true)) ∧
    (let ch : Fin 8 := 0; let n : Byte := 3; let r : HmbRun := { op := 0x500, tag := 7, takenAt := 3, cmd := some (.fbcChanRestart ch n) }; let s : State := (((State.serv.wf (FBC_CFG.EN 3) 0).setChan ch { (State.serv.chan ch) with run := some r }).wb (HMB_CHCFG.EN ch) true)
    (s.Asked ch (.fbcChanRestart ch n) r) ∧ (n.toNat ≤ 15) ∧ (s.rb (FBC_CFG.EN n.toNat) = false)) ∧
    (let ch : Fin 8 := 0; let n : Byte := 16; let r : HmbRun := { op := 0x500, tag := 7, takenAt := 3, cmd := some (.fbcChanRestart ch n) }; let s : State := (((State.serv).setChan ch { (State.serv.chan ch) with run := some r }).wb (HMB_CHCFG.EN ch) true)
    (s.Asked ch (.fbcChanRestart ch n) r) ∧ (15 < n.toNat)) :=
  by
  iterate 20 refine And.intro (by decide +kernel) ?_
  decide +kernel

theorem wit_ReadingCommands :
    (let ch : Fin 8 := 0; let r : HmbRun := { op := 0x100, tag := 7, takenAt := 3, cmd := some (.laneInfo ch) }; let s : State := (((State.serv).setChan ch { (State.serv.chan ch) with run := some r }).wb (HMB_CHCFG.EN ch) true)
    (s.Asked ch (.laneInfo ch) r)) ∧
    (let ch : Fin 8 := 0; let a : Word := 0x20000040; let r : HmbRun := { op := 0x800, tag := 7, takenAt := 3, cmd := some (.diagRead ch a 1) }; let s : State := ((({ State.serv with mem := [(0x20000040, 7)] }).setChan ch { (State.serv.chan ch) with run := some r }).wb (HMB_CHCFG.EN ch) true)
    (s.Asked ch (.diagRead ch a 1) r) ∧ (0x20000000 ≤ a.toNat) ∧ (a.toNat < 0x20600000) ∧ (a.toNat % 4 = 0)) ∧
    (let ch : Fin 8 := 0; let a : Word := 0x40000000; let n : Word := 3; let r : HmbRun := { op := 0x800, tag := 7, takenAt := 3, cmd := some (.diagRead ch a n) }; let s : State := (((State.serv).setChan ch { (State.serv.chan ch) with run := some r }).wb (HMB_CHCFG.EN ch) true)
    (s.Asked ch (.diagRead ch a n) r) ∧ (1 ≤ n.toNat) ∧ (n.toNat ≤ 256) ∧ ((List.range n.toNat).any (fun i => diagRefused (a.toNat + 4 * i)) = false)) ∧
    (let ch : Fin 8 := 0; let a : Word := 0x40000002; let n : Word := 3; let r : HmbRun := { op := 0x800, tag := 7, takenAt := 3, cmd := some (.diagRead ch a n) }; let s : State := (((State.serv).setChan ch { (State.serv.chan ch) with run := some r }).wb (HMB_CHCFG.EN ch) true)
    (s.Asked ch (.diagRead ch a n) r) ∧ (n.toNat = 0 ∨ 256 < n.toNat ∨ (List.range n.toNat).any (fun i => diagRefused (a.toNat + 4 * i)) = true)) ∧
    (let ch : Fin 8 := 0; let pad : Byte := 2; let sig : BitVec 16 := 77; let r : HmbRun := { op := 0x805, tag := 7, takenAt := 3, cmd := some (.dbgProbeSet ch pad sig) }; let s : State := (((State.serv).setChan ch { (State.serv.chan ch) with run := some r }).wb (HMB_CHCFG.EN ch) true)
    (s.Asked ch (.dbgProbeSet ch pad sig) r) ∧ (pad.toNat ≤ 3) ∧ (sig.toNat ≤ 1023)) ∧
    (let ch : Fin 8 := 0; let pad : Byte := 2; let sig : BitVec 16 := 1024; let r : HmbRun := { op := 0x805, tag := 7, takenAt := 3, cmd := some (.dbgProbeSet ch pad sig) }; let s : State := (((State.serv).setChan ch { (State.serv.chan ch) with run := some r }).wb (HMB_CHCFG.EN ch) true)
    (s.Asked ch (.dbgProbeSet ch pad sig) r) ∧ (3 < pad.toNat ∨ 1023 < sig.toNat)) ∧
    (let pad : Fin 4 := 2; let lv : Bool := true; let j : Nat := 255; let s : State := (State.serv.wf LANE_STATE.STATE 5 |>.wf (DBG_PROBE.EN 2) 1 |>.wf (DBG_PROBE.EVT 2) 1 |>.wf DBG_EVTPTR.NEXT 255 |>.wf (DBG_PROBE.SIGNAL 2) (304 + 3 * 5 + 1) |>.wf (FBC_LEVEL.LVL 5) 2)
    (s.st = stDebug) ∧ (s.rb (DBG_PROBE.EN pad) = true) ∧ (s.rb (DBG_PROBE.EVT pad) = true) ∧ (s.rf DBG_EVTPTR.NEXT = j) ∧ ((s.probePad pad).all (· == lv) = true)) ∧
    (let pad : Fin 4 := 2; let lv : Bool := true; let s : State := (State.serv)
    (s.st ≠ stDebug ∨ s.rb (DBG_PROBE.EN pad) = false ∨ s.rb (DBG_PROBE.EVT pad) = false)) ∧
    (let ch : Fin 8 := 0; let r : HmbRun := { op := 0x702, tag := 7, takenAt := 3, cmd := some (.secCertRead ch) }; let s : State := (((State.serv).setChan ch { (State.serv.chan ch) with run := some r }).wb (HMB_CHCFG.EN ch) true)
    (s.Asked ch (.secCertRead ch) r)) ∧
    (let ch : Fin 8 := 0; let i : BitVec 16 := 1; let e : List Byte := [2]; let r : HmbRun := { op := 0x70a, tag := 7, takenAt := 3, cmd := some (.nchLogRead ch i) }; let s : State := ((({ State.serv with flash := { State.serv.flash with log := [[1], [2]] } }).setChan ch { (State.serv.chan ch) with run := some r }).wb (HMB_CHCFG.EN ch) true)
    (s.Asked ch (.nchLogRead ch i) r) ∧ (s.flash.log[i.toNat]? = some e)) ∧
    (let ch : Fin 8 := 0; let i : BitVec 16 := 5; let r : HmbRun := { op := 0x70a, tag := 7, takenAt := 3, cmd := some (.nchLogRead ch i) }; let s : State := ((({ State.serv with flash := { State.serv.flash with log := [[1], [2]] } }).setChan ch { (State.serv.chan ch) with run := some r }).wb (HMB_CHCFG.EN ch) true)
    (s.Asked ch (.nchLogRead ch i) r) ∧ (s.flash.log.length ≤ i.toNat)) ∧
    (let ch : Fin 8 := 0; let o : Word := 0; let n : Word := 64; let r : HmbRun := { op := 0x604, tag := 7, takenAt := 3, cmd := some (.cmsRead ch o n) }; let s : State := (((State.serv).setChan ch { (State.serv.chan ch) with run := some r }).wb (HMB_CHCFG.EN ch) true)
    (s.Asked ch (.cmsRead ch o n) r) ∧ (4 ≤ n.toNat) ∧ (n.toNat ≤ 1024) ∧ (o.toNat + n.toNat ≤ 65536)) ∧
    (let ch : Fin 8 := 0; let o : Word := 65535; let n : Word := 64; let r : HmbRun := { op := 0x604, tag := 7, takenAt := 3, cmd := some (.cmsRead ch o n) }; let s : State := (((State.serv).setChan ch { (State.serv.chan ch) with run := some r }).wb (HMB_CHCFG.EN ch) true)
    (s.Asked ch (.cmsRead ch o n) r) ∧ (n.toNat < 4 ∨ 1024 < n.toNat ∨ 65536 < o.toNat + n.toNat)) ∧
    (let ch : Fin 8 := 0; let r : HmbRun := { op := 0x605, tag := 7, takenAt := 3, cmd := some (.cmsStatus ch) }; let s : State := (((State.serv).setChan ch { (State.serv.chan ch) with run := some r }).wb (HMB_CHCFG.EN ch) true)
    (s.Asked ch (.cmsStatus ch) r)) ∧
    (let ch : Fin 8 := 0; let r : HmbRun := { op := 0x905, tag := 7, takenAt := 3, cmd := some (.updStatus ch) }; let s : State := ((({ State.serv with upd := { isOpen := true, parts := [(0, 4), (8, 12)] } }).setChan ch { (State.serv.chan ch) with run := some r }).wb (HMB_CHCFG.EN ch) true)
    (s.Asked ch (.updStatus ch) r)) :=
  by
  iterate 14 refine And.intro (by decide +kernel) ?_
  decide +kernel

theorem wit_FeedbackSamples :
    (let n : Fin 16 := 3; let a : Bool := true; let b : Bool := true; let z : Bool := false; let s : State := (({ State.serv with pmu := { State.serv.pmu with vioBad := 0 } }.wf (FBC_CFG.EN n) 1 |>.wf (FBC_CFG.MODE n) 1 |>.wf (FBC_CFG.POL n) 4 |>.wf (FBC_CFG.FILT n) 3).setFb n { State.serv.fb n with started := true, known := true, preset := false, watch := false, nextSample := State.serv.now / 10, agree := [2, 2, 2] })
    (s.on = true)) ∧
    (let n : Fin 16 := 3; let a : Bool := true; let b : Bool := true; let z : Bool := true; let s : State := (({ State.serv with pmu := { State.serv.pmu with vioBad := 0 } }.wf (FBC_CFG.EN n) 1 |>.wf (FBC_CFG.MODE n) 1 |>.wf (FBC_CFG.POL n) 4 |>.wf (FBC_CFG.FILT n) 3 |>.wf (FBC_LEVEL.LVL n) 0).setFb n { State.serv.fb n with started := true, known := true, preset := false, watch := false, nextSample := State.serv.now / 10, agree := [2, 2, 2] })
    (s.on = true) ∧ (s.now / 10 ≤ (s.fb n).nextSample) ∧ (s.vioDead 2 = false) ∧ (s.fbUse n = true) ∧ (s.rf (FBC_CFG.MODE n) = fbQuad) ∧ ((s.fb n).known = true) ∧ ((s.fb n).preset = false) ∧ (((b2n a + 2 * b2n b + 4 * b2n z) ^^^ s.rf (FBC_CFG.POL n)).testBit 2 = false) ∧ ((∀ i : Fin 3, s.rf (FBC_CFG.FILT n) ≤ (s.fb n).agree.getD i 0 + 1)) ∧ ((s.rf (FBC_LEVEL.LVL n)).testBit 0 ≠ ((b2n a + 2 * b2n b + 4 * b2n z) ^^^ s.rf (FBC_CFG.POL n)).testBit 0) ∧ ((s.rf (FBC_LEVEL.LVL n)).testBit 1 ≠ ((b2n a + 2 * b2n b + 4 * b2n z) ^^^ s.rf (FBC_CFG.POL n)).testBit 1)) ∧
    (let n : Fin 16 := 3; let a : Bool := true; let b : Bool := false; let z : Bool := true; let s : State := (({ State.serv with pmu := { State.serv.pmu with vioBad := 0 } }.wf (FBC_CFG.EN n) 1 |>.wf (FBC_CFG.MODE n) 1 |>.wf (FBC_CFG.POL n) 4 |>.wf (FBC_CFG.FILT n) 3 |>.wf (FBC_LEVEL.LVL n) 0).setFb n { State.serv.fb n with started := true, known := true, preset := false, watch := false, nextSample := State.serv.now / 10, agree := [2, 2, 2] })
    (s.on = true) ∧ (s.now / 10 ≤ (s.fb n).nextSample) ∧ (s.vioDead 2 = false) ∧ (s.fbUse n = true) ∧ (s.rf (FBC_CFG.MODE n) = fbQuad) ∧ ((s.fb n).known = true) ∧ ((s.fb n).preset = false) ∧ (((b2n a + 2 * b2n b + 4 * b2n z) ^^^ s.rf (FBC_CFG.POL n)).testBit 2 = false) ∧ ((∀ i : Fin 3, s.rf (FBC_CFG.FILT n) ≤ (s.fb n).agree.getD i 0 + 1)) ∧ (((s.rf (FBC_LEVEL.LVL n)).testBit 0 ≠ ((b2n a + 2 * b2n b + 4 * b2n z) ^^^ s.rf (FBC_CFG.POL n)).testBit 0) ≠ ((s.rf (FBC_LEVEL.LVL n)).testBit 1 ≠ ((b2n a + 2 * b2n b + 4 * b2n z) ^^^ s.rf (FBC_CFG.POL n)).testBit 1)) ∧ ((s.fb n).watch = false)) ∧
    (let n : Fin 16 := 3; let a : Bool := true; let b : Bool := false; let z : Bool := true; let s : State := (({ State.serv with pmu := { State.serv.pmu with vioBad := 0 } }.wf (FBC_CFG.EN n) 1 |>.wf (FBC_CFG.MODE n) 1 |>.wf (FBC_CFG.POL n) 4 |>.wf (FBC_CFG.FILT n) 3 |>.wf (FBC_LEVEL.LVL n) 1).setFb n { State.serv.fb n with started := true, known := true, preset := false, watch := false, nextSample := State.serv.now / 10, agree := [2, 2, 2] })
    (s.on = true) ∧ (s.now / 10 ≤ (s.fb n).nextSample) ∧ (s.vioDead 2 = false) ∧ (s.fbUse n = true) ∧ (s.rf (FBC_CFG.MODE n) = fbQuad) ∧ ((s.fb n).known = true) ∧ ((s.fb n).preset = false) ∧ (((b2n a + 2 * b2n b + 4 * b2n z) ^^^ s.rf (FBC_CFG.POL n)).testBit 2 = false) ∧ (((b2n a + 2 * b2n b + 4 * b2n z) ^^^ s.rf (FBC_CFG.POL n)) = (s.rf (FBC_LEVEL.LVL n)))) ∧
    (let n : Fin 16 := 3; let a : Bool := false; let b : Bool := true; let z : Bool := true; let s : State := (({ State.serv with pmu := { State.serv.pmu with vioBad := 0 } }.wf (FBC_CFG.EN n) 1 |>.wf (FBC_CFG.MODE n) 1 |>.wf (FBC_CFG.POL n) 4 |>.wf (FBC_CFG.FILT n) 3 |>.wf (FBC_LEVEL.LVL n) 1 |>.wf (FBC_CFG.FILT n) 9).setFb n { State.serv.fb n with started := true, known := true, preset := false, watch := false, nextSample := State.serv.now / 10, agree := [2, 2, 2] })
    (s.on = true) ∧ (s.now / 10 ≤ (s.fb n).nextSample) ∧ (s.vioDead 2 = false) ∧ (s.fbUse n = true) ∧ (s.rf (FBC_CFG.MODE n) = fbQuad) ∧ ((s.fb n).known = true) ∧ ((s.fb n).preset = false) ∧ (((b2n a + 2 * b2n b + 4 * b2n z) ^^^ s.rf (FBC_CFG.POL n)).testBit 2 = false) ∧ ((∀ i : Fin 3, (s.fb n).agree.getD i 0 + 1 < s.rf (FBC_CFG.FILT n)))) ∧
    (let n : Fin 16 := 3; let dt : Nat := 5000; let s : State := ((((((State.serv.wf (FBC_CFG.EN n) 1).wf (FBC_CFG.MODE n) 1).wf (FBC_SPCFG.SPMETH n) 0).wf (FBC_STAT.STOP n) 0).setFb n { started := true, edges := 2, interval := some dt, stamp := 100 }))
    (s.fbUse n = true) ∧ (s.rb (FBC_SPCFG.SPMETH n) = false) ∧ ((s.fb n).edges = 2) ∧ ((s.fb n).interval = some dt) ∧ (s.rb (FBC_STAT.STOP n) = false) ∧ ((s.fb n).stamp + dt < s.gt) ∧ ((s.fb n).boundAt + 1000 ≤ s.now)) ∧
    (let n : Fin 16 := 3; let s : State := ((((((State.serv.wf (FBC_CFG.EN n) 1).wf (FBC_CFG.MODE n) 1).wf (FBC_SPCFG.SPMETH n) 0).wf (FBC_STAT.STOP n) 0).wf (FBC_STAT.SPVALID n) 1).setFb n { State.serv.fb n with started := true })
    (s.fbUse n = true) ∧ (s.rb (FBC_SPCFG.SPMETH n) = false) ∧ (s.rb (FBC_STAT.SPVALID n) = true) ∧ (s.rb (FBC_STAT.STOP n) = false) ∧ ((s.fb n).stamp + 10000 * s.rf (FBC_SPCFG.SPTO n) ≤ s.gt)) :=
  by
  iterate 6 refine And.intro (by decide +kernel) ?_
  decide +kernel

theorem wit_FeedbackCommandsAndSent :
    (let req : Fin 32 := 1; let n : Fin 16 := 3; let s : State := (State.serv.wf (LANE_GRANT.OWNER (8 + n)) req)
    (s.on = true) ∧ (s.mayWrite req (8 + n) false = true)) ∧
    (let req : Fin 32 := 1; let n : Fin 16 := 3; let s : State := ((State.serv.wf (LANE_GRANT.OWNER (8 + n)) req).setFb n { nextSample := State.serv.now / 10 })
    (s.on = true) ∧ (s.mayWrite req (8 + n) false = true) ∧ (s.now / 10 ≤ (s.fb n).nextSample)) ∧
    (let n : Fin 16 := 3; let a : Bool := true; let b : Bool := false; let z : Bool := true; let s : State := (({ State.serv with pmu := { State.serv.pmu with vioBad := 0 } }.wf (FBC_CFG.EN n) 1 |>.wf (FBC_CFG.MODE n) 1 |>.wf (FBC_CFG.POL n) 4 |>.wf (FBC_CFG.FILT n) 3 |>.wf (FBC_LEVEL.LVL n) 1).setFb n { State.serv.fb n with started := true, known := true, preset := true, watch := false, nextSample := State.serv.now / 10, agree := [2, 2, 2] })
    (s.on = true) ∧ (s.now / 10 ≤ (s.fb n).nextSample) ∧ (s.vioDead 2 = false) ∧ (s.fbUse n = true) ∧ (s.rf (FBC_CFG.MODE n) = fbQuad) ∧ ((s.fb n).known = true) ∧ ((s.fb n).preset = true) ∧ (((b2n a + 2 * b2n b + 4 * b2n z) ^^^ s.rf (FBC_CFG.POL n)).testBit 2 = false) ∧ (((b2n a + 2 * b2n b + 4 * b2n z) ^^^ s.rf (FBC_CFG.POL n)) = (s.rf (FBC_LEVEL.LVL n)))) ∧
    (let n : Fin 16 := 3; let a : Bool := true; let b : Bool := false; let z : Bool := true; let s : State := (({ State.serv with pmu := { State.serv.pmu with vioBad := 0 } }.wf (FBC_CFG.EN n) 1 |>.wf (FBC_CFG.MODE n) 1 |>.wf (FBC_CFG.POL n) 4 |>.wf (FBC_CFG.FILT n) 3 |>.wf (FBC_LEVEL.LVL n) 0 |>.setN (FBC_PRESET.adr n) (if State.serv.now % 2 = 0 then 0 else 77)).setFb n { State.serv.fb n with started := true, known := true, preset := true, watch := false, nextSample := State.serv.now / 10, agree := [2, 2, 2] })
    (s.on = true) ∧ (s.now / 10 ≤ (s.fb n).nextSample) ∧ (s.vioDead 2 = false) ∧ (s.fbUse n = true) ∧ (s.rf (FBC_CFG.MODE n) = fbQuad) ∧ ((s.fb n).known = true) ∧ ((s.fb n).preset = true) ∧ (((b2n a + 2 * b2n b + 4 * b2n z) ^^^ s.rf (FBC_CFG.POL n)).testBit 2 = false) ∧ ((∀ i : Fin 3, s.rf (FBC_CFG.FILT n) ≤ (s.fb n).agree.getD i 0 + 1)) ∧ (((s.rf (FBC_LEVEL.LVL n)).testBit 0 ≠ ((b2n a + 2 * b2n b + 4 * b2n z) ^^^ s.rf (FBC_CFG.POL n)).testBit 0) ≠ ((s.rf (FBC_LEVEL.LVL n)).testBit 1 ≠ ((b2n a + 2 * b2n b + 4 * b2n z) ^^^ s.rf (FBC_CFG.POL n)).testBit 1)) ∧ ((s.fb n).watch = false)) ∧
    (let req : Fin 32 := 16; let n : Fin 16 := 3; let s : State := (State.serv.wf (LANE_GRANT.OWNER (8 + n)) req)
    (s.on = true) ∧ (s.mayWrite req (8 + n) false = true)) ∧
    (let req : Fin 32 := 1; let n : Fin 16 := 3; let s : State := (State.serv)
    (s.on = true)) ∧
    (let n : Fin 16 := 3; let p : List Nat := [16800, 5100]; let s : State := ((({ State.serv with pmu := { State.serv.pmu with vioBad := 0 } }.wf (FBC_CFG.EN n) 1).wf (FBC_CFG.MODE n) 5).setFb n { started := true })
    (s.on = true) ∧ (s.fbUse n = true) ∧ (s.vioDead 2 = false) ∧ (s.rf (FBC_CFG.MODE n) = fbSent) ∧ ((s.fb n).prevCal = none)) ∧
    (let n : Fin 16 := 3; let p : List Nat := [16800, 3900, 5100, 300 * (12 + sentCrc false [5])]; let cal : Nat := 16800; let s : State := (((({ State.serv with pmu := { State.serv.pmu with vioBad := 0 } }.wf (FBC_CFG.EN n) 1).wf (FBC_CFG.MODE n) 5).setFb n { State.serv.fb n with started := true, prevCal := some cal, validAt := 5 }).wf (FBC_SENTCFG.TICK n) 300 |>.wf (FBC_SENTCFG.NIBBLES n) 1 |>.wf (FBC_SENTCFG.CRCMODE n) 0 |>.wf (FBC_SENTCFG.PAUSE n) 0 |>.wf (FBC_SENTCFG.FIXLEN n) 0)
    (s.on = true) ∧ (s.fbUse n = true) ∧ (s.vioDead 2 = false) ∧ (s.rf (FBC_CFG.MODE n) = fbSent) ∧ ((s.fb n).prevCal = some cal) ∧ (s.sentCheck n p = 0)) ∧
    (let n : Fin 16 := 3; let p : List Nat := [0]; let s : State := (((({ State.serv with pmu := { State.serv.pmu with vioBad := 0 } }.wf (FBC_CFG.EN n) 1).wf (FBC_CFG.MODE n) 5).setFb n { State.serv.fb n with started := true, prevCal := some 16800, validAt := 5 }))
    (s.on = true) ∧ (s.fbUse n = true) ∧ (s.vioDead 2 = false) ∧ (s.rf (FBC_CFG.MODE n) = fbSent) ∧ ((s.fb n).prevCal ≠ none) ∧ (s.sentCheck n p ≠ 0)) ∧
    (let n : Fin 16 := 3; let s : State := (((({ State.serv with pmu := { State.serv.pmu with vioBad := 0 } }.wf (FBC_CFG.EN n) 1).wf (FBC_CFG.MODE n) 5).setFb n { State.serv.fb n with started := true, prevCal := some 16800, validAt := 5 }).wf (FBC_STAT.LOSS n) 0)
    (s.on = true) ∧ (s.fbUse n = true) ∧ (s.rf (FBC_CFG.MODE n) = fbSent) ∧ (s.rb (FBC_STAT.LOSS n) = false) ∧ ((s.fb n).validAt + 100000 * s.rf (FBC_SENTCFG.SENTTO n) ≤ s.now)) :=
  by
  iterate 9 refine And.intro (by decide +kernel) ?_
  decide +kernel

theorem wit_GateLinkBringup :
    (let n : Fin 8 := 2; let c : Vector Byte 20 := #v[1,15,3,15,0,0,0,0,0,0,0,0,0,0,0,0,0,0,0,0]; let s : State := ((State.serv.wf AST_INJCTL.ARM 0).wf (GLK_LINKSTAT.STATE n) 1 |>.wf (GLK_PORTCFG.MAXRATE n) 3 |>.wf (GLK_PORTCFG.MINRATE n) 0 |>.wf (GLK_PORTCFG.REQTE n) 0 |>.wf (GLK_PORTCFG.REQSAMP n) 0 |>.wf (PWM_BANKCFG.DEST n) 0)
    (s.on = true) ∧ (s.rf AST_INJCTL.ARM = 0) ∧ (s.ast.held = []) ∧ (s.portSt n = glLock) ∧ ((s.settle n c.toList).fail = 0)) ∧
    (let n : Fin 8 := 2; let c : Vector Byte 20 := Vector.replicate 20 0; let s : State := ((State.serv.wf AST_INJCTL.ARM 0).wf (GLK_LINKSTAT.STATE n) 1)
    (s.on = true) ∧ (s.rf AST_INJCTL.ARM = 0) ∧ (s.ast.held = []) ∧ (s.portSt n = glLock) ∧ ((s.settle n c.toList).fail ≠ 0)) ∧
    (let n : Fin 8 := 2; let c : Vector Byte 16 := Vector.replicate 16 7; let s : State := ((State.serv.wf AST_INJCTL.ARM 0).wf (GLK_LINKSTAT.STATE n) 3 |>.setPort n { cfg := List.replicate 16 7 })
    (s.on = true) ∧ (s.rf AST_INJCTL.ARM = 0) ∧ (s.ast.held = []) ∧ (s.portSt n = glConfig) ∧ ((s.port n).ackAt = none) ∧ (c.toList = (s.port n).cfg)) ∧
    (let n : Fin 8 := 2; let c : Vector Byte 16 := Vector.replicate 16 7; let s : State := ((State.serv.wf AST_INJCTL.ARM 0).wf (GLK_LINKSTAT.STATE n) 3 |>.setPort n { cfg := List.replicate 16 6 })
    (s.on = true) ∧ (s.rf AST_INJCTL.ARM = 0) ∧ (s.ast.held = []) ∧ (s.portSt n = glConfig) ∧ ((s.port n).ackAt = none) ∧ (c.toList ≠ (s.port n).cfg)) ∧
    (let n : Fin 8 := 2; let a : Nat := 500; let s : State := (State.serv.wf (GLK_LINKSTAT.STATE n) 3 |>.setPort n { ackAt := some a, rate := 2, te := true })
    (s.portSt n = glConfig) ∧ ((s.port n).ackAt = some a) ∧ (a + 10000 ≤ s.now) ∧ ((s.port n).rate < 4)) ∧
    (let n : Fin 8 := 2; let s : State := (State.serv.wf (GLK_LINKSTAT.STATE n) 4 |>.wf (PWM_BANKCFG.DEST n) 0)
    (s.portSt n = glTrain) ∧ ((s.port n).locked = false) ∧ ((s.port n).te = false) ∧ (s.linkBank n = false)) ∧
    (let n : Fin 8 := 2; let s : State := (State.serv.wf (GLK_LINKSTAT.STATE n) 4 |>.wf (PWM_BANKCFG.DEST n) 1)
    (s.portSt n = glTrain) ∧ ((s.port n).locked = false) ∧ ((s.port n).te = false)) ∧
    (let n : Fin 8 := 2; let s : State := (State.serv.wf (GLK_LINKSTAT.STATE n) 4)
    (s.portSt n = glConfig ∨ s.portSt n = glTrain)) ∧
    (let n : Fin 8 := 2; let s : State := (State.serv.wf (GLK_LINKSTAT.STATE n) 1)
    (s.portSt n = glLock) ∧ ((s.port n).attemptAt + 10000000 ≤ s.now)) ∧
    (let n : Fin 8 := 2; let a : Nat := 8; let s : State := (State.serv.setPort n { retryAt := some a })
    ((s.port n).retryAt = some a) ∧ (a ≤ s.now)) ∧
    (let n : Fin 8 := 3; let s : State := ((({ State.serv.wf AST_INJCTL.ARM 0 with ast := { State.serv.ast with held := [] } } : State).wf (GLK_LINKSTAT.STATE n) 4).setPort n { State.serv.port n with locked := false, te := true, echoSeq := 255, relDue := 0 })
    (s.rf AST_INJCTL.ARM = 0) ∧ (s.ast.held = []) ∧ (s.portSt n = glTrain) ∧ ((s.port n).locked = false) ∧ ((s.port n).te = true) ∧ ((s.port n).relDue = 0)) :=
  by
  iterate 10 refine And.intro (by decide +kernel) ?_
  decide +kernel

theorem wit_GateLinkTime :
    (let n : Fin 8 := 2; let q : Byte := 9; let x : Nat := 70; let s : State := ((State.serv.wf AST_INJCTL.ARM 0).wf (GLK_LINKSTAT.STATE n) 4 |>.setPort n { echoOut := true, echoSeq := 9, echoes := 3 })
    (s.on = true) ∧ (s.rf AST_INJCTL.ARM = 0) ∧ (s.ast.held = []) ∧ (s.portSt n = glTrain) ∧ ((s.port n).echoOut = true) ∧ (q.toNat = (s.port n).echoSeq) ∧ ((s.port n).echoes < 15)) ∧
    (let n : Fin 8 := 2; let s : State := ((State.serv.wf AST_INJCTL.ARM 0).wf (GLK_LINKSTAT.STATE n) 5 |>.wf (GLK_LINKSTAT.MODE n) 1)
    (s.rf AST_INJCTL.ARM = 0) ∧ (s.ast.held = []) ∧ (s.portUp n = true) ∧ (s.portTe n = true) ∧ ((s.port n).recheckGt < s.gt / 500000) ∧ (s.lineFree n = true) ∧ ((s.port n).queue = []) ∧ ((s.port n).relDue = 0) ∧ (s.frameClear n gfEcho = true)) ∧
    (let n : Fin 8 := 2; let s : State := ((State.serv.wf AST_INJCTL.ARM 0).wf (GLK_LINKSTAT.STATE n) 5 |>.wf (GLK_LINKSTAT.MODE n) 1)
    (s.rf AST_INJCTL.ARM = 0) ∧ (s.ast.held = []) ∧ (s.portUp n = true) ∧ (s.portTe n = true) ∧ ((s.port n).lastSync + 10000 ≤ s.now) ∧ (s.lineFree n = true) ∧ ((s.port n).queue = []) ∧ ((s.port n).relDue = 0) ∧ ((s.port n).echoDue = false) ∧ (s.frameClear n gfSync = true)) ∧
    (let n : Fin 8 := 2; let s : State := ((State.serv.wf AST_INJCTL.ARM 0).wf (GLK_LINKSTAT.STATE n) 5)
    (s.rf AST_INJCTL.ARM = 0) ∧ (s.ast.held = []) ∧ (s.portUp n = true) ∧ ((s.port n).lastDown + 5000 ≤ s.now) ∧ (s.lineFree n = true) ∧ ((s.port n).queue = []) ∧ ((s.port n).relDue = 0) ∧ (s.frameClear n (s.keepKind n) = true)) ∧
    (let n : Fin 8 := 2; let s : State := ((State.serv.wf AST_INJCTL.ARM 0).wf (GLK_LINKSTAT.STATE n) 5 |>.wf (GLK_LINKSTAT.MODE n) 0 |>.wf (PWM_BANKCFG.DEST n) 1 |>.setN (PWM_LEGSET.adr (3*n)) 0 |>.setN (PWM_LEGSET.adr (3*n+1)) 0 |>.setN (PWM_LEGSET.adr (3*n+2)) 0 |>.setPort n { levelSamples := [77, 99999999999999], level := 9 })
    (s.rf AST_INJCTL.ARM = 0) ∧ (s.ast.held = []) ∧ (s.portUp n = true) ∧ (s.portTe n = false) ∧ (s.linkBank n = true) ∧ ((s.nextEdge n).filter (fun t => decide (t ≤ 32 * s.gt + 31 + s.levelLead n)) = none) ∧ ((s.port n).levelSamples.any (fun x => decide (x ≤ s.gt)) = true)) ∧
    (let n : Fin 8 := 2; let x : Nat := 32 * 2000000000; let s : State := ((State.serv.wf AST_INJCTL.ARM 0).wf (GLK_LINKSTAT.STATE n) 5 |>.wf (GLK_LINKSTAT.MODE n) 0 |>.wf (PWM_BANKCFG.DEST n) 1 |>.setN (PWM_LEGSET.adr (3*n)) 0 |>.setN (PWM_LEGSET.adr (3*n+1)) 0 |>.setN (PWM_LEGSET.adr (3*n+2)) 0 |>.wf (PWM_LEGSET.MODE (3 * n)) 1 |>.wf (PWM_LEGSET.MODE (3 * n + 2)) 2 |>.setLeg (3 * n) { plan := [{ t := 32 * State.serv.gt, hi := true, on := true }, { t := 32 * State.serv.gt + 9000, hi := true, on := false }] })
    (s.rf AST_INJCTL.ARM = 0) ∧ (s.ast.held = []) ∧ (s.portUp n = true) ∧ (s.portTe n = false) ∧ (s.linkBank n = true) ∧ ((s.nextEdge n).filter (fun t => decide (t ≤ 32 * s.gt + 31 + s.levelLead n)) = some x)) ∧
    (let req : Fin 32 := 9; let n : Fin 8 := 2; let s : State := (State.serv)
    (s.on = true)) :=
  by
  iterate 6 refine And.intro (by decide +kernel) ?_
  decide +kernel

theorem wit_GateLinkStatus :
    (let n : Fin 8 := 2; let st : Vector Byte 20 := #v[0,0,0,0,20,7,0,0,0,0,0,0,0,0,0,0,0,0,0,0]; let g : Nat := 900; let s : State := ((State.serv.wf AST_INJCTL.ARM 0).wf (GLK_LINKSTAT.STATE n) 5 |>.wf (PWM_BANKCFG.DEST n) 1)
    (s.on = true) ∧ (s.rf AST_INJCTL.ARM = 0) ∧ (s.ast.held = []) ∧ (s.portUp n = true)) ∧
    (let n : Fin 8 := 2; let l : Fin 3 := 1; let st : Vector Byte 20 := #v[0,0,2,0,20,7,0,0,0,0,0,0,0,0,0,0,0,0,0,0]; let g : Nat := 900; let s : State := (let a := (List.range 8).foldl (fun a i => a.setN (GLK_LEGHOLD.adr i) 0) (State.serv.wf AST_INJCTL.ARM 0); a.wf (GLK_LINKSTAT.STATE n) 5 |>.wf (GLK_LINKSTAT.MODE n) 0 |>.wf (GLK_STATCFG.TWARN n) 100 |>.wf (PWM_BANKCFG.DEST n) 1)
    (s.on = true) ∧ (s.rf AST_INJCTL.ARM = 0) ∧ (s.ast.held = []) ∧ (s.portUp n = true) ∧ (s.portTe n = false) ∧ (st[1].toNat % 64 = 0) ∧ (st[2].toNat = 2 ^ l.val) ∧ (st[3].toNat = 0) ∧ (toSigned 8 (st[4].toNat) < toSigned 8 (s.rf (GLK_STATCFG.TWARN n))) ∧ (s.rf (GLK_LEGHOLD.LEGn n) = 0) ∧ (s.rb (GLK_LEGHOLD.OTSD n) = false) ∧ ((s.port n).hot = false) ∧ ((∀ i : Fin 8, s.rn (GLK_LEGHOLD.adr i) = 0 ∧ (s.port i).hot = false)) ∧ (s.linkBank n = true) ∧ (s.asserted 65 = false) ∧ (s.asserted 66 = false) ∧ (s.asserted 72 = false)) ∧
    (let n : Fin 8 := 2; let s : State := (State.serv.wf AST_INJCTL.ARM 0 |>.setPort n { lastStart := State.serv.gt })
    (s.on = true) ∧ (s.gt < (s.port n).lastStart + 4980) ∧ (s.rf AST_INJCTL.ARM = 0) ∧ (s.ast.held = [])) ∧
    (let n : Fin 8 := 2; let s : State := (State.serv.wf (GLK_LINKSTAT.STATE n) 5 |>.setPort n { missRun := 1 })
    (s.portUp n = true) ∧ ((s.port n).lastStart + 5020 ≤ s.gt) ∧ ((s.port n).missRun < 2) ∧ ((s.port n).setsDue = [])) ∧
    (let n : Fin 8 := 2; let s : State := (State.serv.wf (GLK_LINKSTAT.STATE n) 5 |>.setPort n { missRun := 2 } |>.wf (PWM_BANKCFG.DEST n) 1)
    (s.portUp n = true) ∧ ((s.port n).lastStart + 5020 ≤ s.gt) ∧ ((s.port n).missRun = 2) ∧ ((s.port n).setsDue = [])) ∧
    (let n : Fin 8 := 2; let s : State := (State.serv.wf (GLK_LINKSTAT.STATE n) 5 |>.setPort n { missRun := 2 } |>.wf (PWM_BANKCFG.DEST n) 0)
    (s.portUp n = true) ∧ ((s.port n).lastStart + 5020 ≤ s.gt) ∧ ((s.port n).missRun = 2) ∧ ((s.port n).setsDue = []) ∧ (s.linkBank n = false)) ∧
    (let n : Fin 8 := 3; let s : State := ((State.serv.wf (GLK_LINKSTAT.STATE n) 5).setPort n { State.serv.port n with lastStart := 5, missRun := 1, setsDue := [3, 5000] })
    (s.portUp n = true) ∧ ((s.port n).lastStart + 5020 ≤ s.gt) ∧ ((s.port n).missRun < 2)) :=
  by
  iterate 6 refine And.intro (by decide +kernel) ?_
  decide +kernel

theorem wit_MailboxRequests :
    (let m : List Byte := (hmbBytes 0x100 7 0 0 0 ([])).set 12 9; let s : State := ({ State.serv with spi := { State.serv.spi with req := some m, rsp := none }, hmb := { State.serv.hmb with served := 7, chans := [] } })
    (s.serves = true) ∧ (s.hmb.served = 7) ∧ (s.takeable 0 = some m) ∧ ((leAt m 8 1).testBit 0 = false) ∧ (s.isRepeat 0 m = false) ∧ (chkOk m = false)) ∧
    (let m : List Byte := hmbBytes 0xA00 7 0 0 0 ([]); let s : State := ({ State.serv with spi := { State.serv.spi with req := some m, rsp := none }, hmb := { State.serv.hmb with served := 7, chans := [] } })
    (s.serves = true) ∧ (s.hmb.served = 7) ∧ (s.takeable 0 = some m) ∧ ((leAt m 8 1).testBit 0 = false) ∧ (s.isRepeat 0 m = false) ∧ (chkOk m = true) ∧ (leAt m 4 2 ≤ 1024) ∧ (opRow (leAt m 0 2) = none)) ∧
    (let m : List Byte := hmbBytes 0x101 7 0 0 0 ([1]); let row : OpRow := ⟨0x0101, .r, false, false, 2, 2, 1⟩; let s : State := ({ State.serv with spi := { State.serv.spi with req := some m, rsp := none }, hmb := { State.serv.hmb with served := 7, chans := [] } })
    (s.serves = true) ∧ (s.hmb.served = 7) ∧ (s.takeable 0 = some m) ∧ ((leAt m 8 1).testBit 0 = false) ∧ (s.isRepeat 0 m = false) ∧ (chkOk m = true) ∧ (opRow (leAt m 0 2) = some row) ∧ (leAt m 4 2 < row.min ∨ row.max < leAt m 4 2) ∧ (leAt m 4 2 ≤ 1024)) ∧
    (let m : List Byte := hmbBytes 0x101 7 0 0 0 ([1, 2]); let row : OpRow := ⟨0x0101, .r, false, false, 2, 2, 1⟩; let code : Nat := stNotPermitted; let s : State := ({ State.serv.wf (HMB_CHCFG.GROUPS 0) 0 with spi := { State.serv.spi with req := some m, rsp := none }, hmb := { State.serv.hmb with served := 7, chans := [] } })
    (s.serves = true) ∧ (s.hmb.served = 7) ∧ (s.takeable 0 = some m) ∧ ((leAt m 8 1).testBit 0 = false) ∧ (s.isRepeat 0 m = false) ∧ (chkOk m = true) ∧ (opRow (leAt m 0 2) = some row) ∧ (row.min ≤ leAt m 4 2) ∧ (leAt m 4 2 ≤ row.max) ∧ ((leAt m 4 2 - row.min) % row.step = 0) ∧ (leAt m 4 2 ≤ 1024) ∧ (s.gate 0 row = some code)) ∧
    (let m : List Byte := hmbBytes 0x101 0x55 0 0 0 ([1, 2]); let row : OpRow := ⟨0x0101, .r, false, false, 2, 2, 1⟩; let s : State := ({ State.serv.wf (HMB_CHCFG.GROUPS 0) 511 with spi := { State.serv.spi with req := some m, rsp := none }, hmb := { State.serv.hmb with served := 7, chans := [] } })
    (s.serves = true) ∧ (s.hmb.served = 7) ∧ (s.takeable 0 = some m) ∧ ((leAt m 8 1).testBit 0 = false) ∧ (s.isRepeat 0 m = false) ∧ (chkOk m = true) ∧ (opRow (leAt m 0 2) = some row) ∧ (row.min ≤ leAt m 4 2) ∧ (leAt m 4 2 ≤ row.max) ∧ ((leAt m 4 2 - row.min) % row.step = 0) ∧ (leAt m 4 2 ≤ 1024) ∧ (s.gate 0 row = none)) ∧
    (let m : List Byte := hmbBytes 0x101 0x55 0 0 0 ([1, 2]); let s : State := ({ State.serv with spi := { State.serv.spi with req := some m, rsp := none }, hmb := { State.serv.hmb with served := 7, chans := [(0, { last := some (msgKey m), lastResp := [1, 2] })] } })
    (s.serves = true) ∧ (s.hmb.served = 7) ∧ (s.takeable 0 = some m) ∧ ((leAt m 8 1).testBit 0 = false) ∧ (s.isRepeat 0 m = true)) ∧
    (let m : List Byte := hmbBytes 0x101 7 0 1 0 ([1, 2]); let s : State := ({ State.serv with spi := { State.serv.spi with req := some m, rsp := none }, hmb := { State.serv.hmb with served := 7, chans := [] } })
    (s.serves = true) ∧ (s.hmb.served = 7) ∧ (s.takeable 0 = some m) ∧ ((leAt m 8 1).testBit 0 = true)) ∧
    ((let s : State := State.serv.setChan 0 { run := some { op := 0x100, cmd := some (.laneInfo 0), seq := 3 } } |>.setChan 4 { run := some { op := 0x100, cmd := some (.laneInfo 4), seq := 2 } }
    mailReq (.laneInfo 0) = some (0, 0x100, []) ∧ (s.chan 0).run = some { op := 0x100, cmd := some (.laneInfo 0), seq := 3 } ∧ s.turnOf 3 = false)) ∧
    ((Instr.queConfig 3 5 0x80084004 0x20100400).wf = true ∧ mailReq (.queConfig 3 5 0x80084004 0x20100400) = some (3, 0x106, [5, 0, 0, 0, 4, 64, 8, 128, 0, 4, 16, 32])) ∧
    (let c : Nat := 0; let m : List Byte := hmbBytes 0x101 7 0 0 0 [1, 2]; let s : State := ({ State.serv with spi := { State.serv.spi with req := some m, rsp := none }, hmb := { State.serv.hmb with served := 3, chans := [] } })
    (s.serves = true) ∧ (((List.range 8).map (fun i => (s.hmb.served + 1 + i) % 8)).findSome? (fun j => (s.takeable j).map (fun x => (j, x))) = some (c, m))) ∧
    (let s : State := ({ State.serv with spi := { State.serv.spi with req := none }, hmb := { State.serv.hmb with served := 3, chans := [] } })
    (s.serves = true) ∧ ((∀ j : Fin 8, s.takeable j = none))) :=
  by
  iterate 10 refine And.intro (by decide +kernel) ?_
  decide +kernel

theorem wit_MailboxAnswers :
    (let s : State := State.serv.setChan 0 { run := some { op := 0x101, tag := 5 } }
    ((s.chan 0).run = some { op := 0x101, tag := 5 })) ∧
    (let q : HmbRun := { op := 0x101, tag := 5, takenAt := 3 }; let s : State := (State.serv.setChan 0 { run := some q })
    ((s.chan 0).run = some q) ∧ (s.on = true) ∧ (q.interim = false) ∧ (q.takenAt + 1000000 ≤ s.now)) ∧
    (let ch : Fin 8 := 4; let l : List Byte := [1]; let t0 : Nat := 0; let rest : List (List Byte × Nat) := [([2], 5)]; let s : State := ({ State.serv.wf (QUE_CFG.EN (State.serv.rf (HMB_CHPATH.RSP ch))) 0 with sec := {} }.setChan ch { wait := (l, t0) :: rest })
    (s.on = true) ∧ ((s.chan ch).wait = (l, t0) :: rest) ∧ (s.postBytes (s.rf (HMB_CHPATH.RSP ch)) l = none) ∧ (t0 + 10000000 ≤ s.now) ∧ (s.sec.resetDue = none)) ∧
    (let ch : Fin 8 := 4; let l : List Byte := [1]; let t0 : Nat := 0; let u : State := ((({ State.serv.wf (QUE_CFG.EN 9) 1 |>.wf (QUE_STAT.ADMIT 9) 1 |>.wf (QUE_CFG.IRQEN 9) 0 |>.wf (QUE_CFG.SIZEEXP 9) 4 |>.wf (QUE_CNT.FREE 9) 16 |>.setN (QUE_BASE.adr 9) 0x20100000 |>.wf (HMB_CHPATH.RSP ch) 9 with sec := {} } : State).setChan ch { wait := [(l, t0)] }).postBytes 9 l).getD State.serv; let s : State := ({ State.serv.wf (QUE_CFG.EN 9) 1 |>.wf (QUE_STAT.ADMIT 9) 1 |>.wf (QUE_CFG.IRQEN 9) 0 |>.wf (QUE_CFG.SIZEEXP 9) 4 |>.wf (QUE_CNT.FREE 9) 16 |>.setN (QUE_BASE.adr 9) 0x20100000 |>.wf (HMB_CHPATH.RSP ch) 9 with sec := {} }.setChan ch { wait := [(l, t0)] })
    (s.on = true) ∧ ((s.chan ch).wait = [(l, t0)]) ∧ (s.postBytes (s.rf (HMB_CHPATH.RSP ch)) l = some u) ∧ (s.sec.resetDue = none)) ∧
    (let m : List Byte := List.replicate 20 1; let s : State := ({ State.serv.wf SPI_CFG.EN 1 with spi := { State.serv.spi with req := none } })
    (s.spiOn = true) ∧ (16 ≤ m.length) ∧ (m.length ≤ 1040) ∧ (s.spi.req = none)) ∧
    (let m : List Byte := List.replicate 20 1; let s : State := ({ State.serv.wf SPI_CFG.EN 1 with spi := { State.serv.spi with req := some [] } })
    (s.spiOn = true) ∧ (16 ≤ m.length) ∧ (m.length ≤ 1040) ∧ (s.spi.req ≠ none)) ∧
    (let m : List Byte := [1]; let s : State := ({ State.serv.wf SPI_CFG.EN 1 with spi := { State.serv.spi with req := some [] } })
    (s.spiOn = true) ∧ (m.length < 16 ∨ 1040 < m.length) ∧ (s.spi.req ≠ none)) ∧
    (let m : List Byte := [1]; let s : State := (State.serv.wf SPI_CFG.EN 1)
    (s.spiOn = true) ∧ (m.length < 16 ∨ 1040 < m.length) ∧ (s.spi.req = none)) ∧
    (let e : SpiError := .short; let s : State := ({ State.serv.wf SPI_CFG.EN 1 with spi := { State.serv.spi with req := some [] } })
    (s.spiOn = true) ∧ (e ≠ .unknownCmd) ∧ (s.spi.req ≠ none)) ∧
    (let e : SpiError := .unknownCmd; let s : State := ({ State.serv.wf SPI_CFG.EN 1 with spi := { State.serv.spi with req := if e = .unknownCmd then some [] else none } })
    (s.spiOn = true) ∧ (e = .unknownCmd ∨ s.spi.req = none)) ∧
    (let n : Fin 65536 := 20; let l : List Byte := List.replicate 20 7; let s : State := ({ State.serv.wf SPI_CFG.EN 1 with sec := {}, spi := { State.serv.spi with rsp := some l } })
    (s.spiOn = true) ∧ (s.spi.rsp = some l) ∧ (l.length ≤ n.val) ∧ (s.sec.resetDue = none)) ∧
    (let n : Fin 65536 := 12; let s : State := ({ State.serv.wf SPI_CFG.EN 1 with spi := { State.serv.spi with rsp := some (List.replicate 20 7) } })
    (s.spiOn = true) ∧ (s.spi.rsp.all (fun l => decide (n.val < l.length)) = true)) ∧
    (let s : State := (State.serv.wf SPI_CFG.EN 1)
    (s.spiOn = true)) :=
  by
  iterate 12 refine And.intro (by decide +kernel) ?_
  decide +kernel

theorem wit_CanControllers :
    (let n : Fin 2 := 1; let f : CanFrame := { id := 0x123, dlc := 2, esi := false, gt := 77, data := [5, 6] }; let q : Nat := 9; let s : State := (State.serv.wf (CAN_CFG.EN n) 1 |>.wf (CAN_STAT.STATE n) 1 |>.wf (CAN_CFG.RXQ n) 9 |>.wf (QUE_CFG.EN 9) 1 |>.wf (QUE_STAT.ADMIT 9) 1 |>.wf (QUE_CFG.IRQEN 9) 0 |>.wf (QUE_CFG.SIZEEXP 9) 4 |>.setN (QUE_CNT.adr 9) 12 |>.setN (QUE_BASE.adr 9) 0x20100000 |>.setN (QUE_POS.adr 9) 0)
    (s.on = true) ∧ (s.canRuns n = true) ∧ (s.canTakes n f.id = true) ∧ (f.fault = .none) ∧ (s.rf (CAN_CFG.RXQ n) = q) ∧ (2 ≤ s.free_ q) ∧ (s.rb (QUE_CFG.EN q) = true) ∧ (s.rb (QUE_STAT.ADMIT q) = true) ∧ (s.rb (QUE_CFG.IRQEN q) = false) ∧ (s.entryAt q (s.inflight q) + 64 = s.entryAt q (s.inflight q + 1)) ∧ (s.inflight q + 2 < 8192)) ∧
    (let n : Fin 2 := 1; let f : CanFrame := { id := 0x123, dlc := 2, esi := false, gt := 77, data := [5, 6] }; let q : Nat := 9; let s : State := (State.serv.wf (CAN_CFG.EN n) 1 |>.wf (CAN_STAT.STATE n) 1 |>.wf (CAN_CFG.RXQ n) 9 |>.wf (QUE_CFG.EN 9) 1 |>.wf (QUE_STAT.ADMIT 9) 1 |>.wf (QUE_CFG.IRQEN 9) 0 |>.wf (QUE_CFG.SIZEEXP 9) 4 |>.setN (QUE_CNT.adr 9) 1 |>.setN (QUE_BASE.adr 9) 0x20100000 |>.setN (QUE_POS.adr 9) 0)
    (s.on = true) ∧ (s.canRuns n = true) ∧ (s.canTakes n f.id = true) ∧ (f.fault = .none) ∧ (s.rf (CAN_CFG.RXQ n) = q) ∧ (s.free_ q < 2)) ∧
    (let n : Fin 2 := 1; let f : CanFrame := { id := 0x123, dlc := 2, esi := false, gt := 77, data := [5, 6], fault := .heavy }; let s : State := (State.serv.wf (CAN_CFG.EN n) 1 |>.wf (CAN_STAT.STATE n) 1)
    (s.on = true) ∧ (s.canRuns n = true) ∧ (s.canTakes n f.id = true) ∧ (f.fault = .error ∨ f.fault = .heavy)) ∧
    (let n : Fin 2 := 1; let f : CanFrame := { id := 0x123, dlc := 2, esi := false, gt := 77, data := [5, 6], fault := .free }; let s : State := (State.serv.wf (CAN_CFG.EN n) 1 |>.wf (CAN_STAT.STATE n) 1)
    (f.fault = .free)) ∧
    (let n : Fin 2 := 1; let l : List Byte := List.replicate 128 0; let s : State := ({ State.serv.wf (CAN_CFG.EN n) 1 |>.wf (CAN_STAT.STATE n) 1 |>.wf (CAN_CFG.TXQ n) 9 |>.wf (QUE_CFG.EN 9) 1 |>.wf (QUE_STAT.ADMIT 9) 1 |>.wf (QUE_CFG.IRQEN 9) 0 |>.wf (QUE_CFG.SIZEEXP 9) 4 |>.setN (QUE_CNT.adr 9) (12 + 4 * 65536) |>.setN (QUE_BASE.adr 9) 0x20100000 |>.setN (QUE_POS.adr 9) 0 |>.wf (CAN_CFG.FD n) 1 |>.wf (CAN_STAT.TEC n) 9 with mem := [] })
    (s.canDue n = some l) ∧ (s.on = true) ∧ (s.canRuns n = true) ∧ (s.canTakes n (leAt l 0 4) = true) ∧ (s.rf (CAN_STAT.TEC n) ≤ 247)) ∧
    (let n : Fin 2 := 1; let l : List Byte := List.replicate 128 0; let q : Nat := 9; let s : State := ({ State.serv.wf (CAN_CFG.EN n) 1 |>.wf (CAN_STAT.STATE n) 1 |>.wf (CAN_CFG.TXQ n) 9 |>.wf (QUE_CFG.EN 9) 1 |>.wf (QUE_STAT.ADMIT 9) 1 |>.wf (QUE_CFG.IRQEN 9) 0 |>.wf (QUE_CFG.SIZEEXP 9) 4 |>.setN (QUE_CNT.adr 9) (12 + 4 * 65536) |>.setN (QUE_BASE.adr 9) 0x20100000 |>.setN (QUE_POS.adr 9) 0 |>.wf (CAN_CFG.FD n) 1 |>.wf (CAN_STAT.TEC n) 250 with mem := [] })
    (s.canDue n = some l) ∧ (s.on = true) ∧ (s.canRuns n = true) ∧ (s.canTakes n (leAt l 0 4) = true) ∧ (248 ≤ s.rf (CAN_STAT.TEC n)) ∧ (s.rf (CAN_CFG.TXQ n) = q) ∧ (s.free_ q + 2 < 8192) ∧ (s.held q + 2 < 8192)) ∧
    (let n : Fin 2 := 1; let k : CanFault := .none; let l : List Byte := [0, 0, 0, 0x40] ++ List.replicate 124 0; let q : Nat := 9; let s : State := ({ State.serv.wf (CAN_CFG.EN n) 1 |>.wf (CAN_STAT.STATE n) 1 |>.wf (CAN_CFG.TXQ n) 9 |>.wf (QUE_CFG.EN 9) 1 |>.wf (QUE_STAT.ADMIT 9) 1 |>.wf (QUE_CFG.IRQEN 9) 0 |>.wf (QUE_CFG.SIZEEXP 9) 4 |>.setN (QUE_CNT.adr 9) (12 + 4 * 65536) |>.setN (QUE_BASE.adr 9) 0x20100000 |>.setN (QUE_POS.adr 9) 0 |>.wf (CAN_CFG.FD n) 0 with mem := [(0x20100003, 0x40)] })
    (s.canDue n = some l) ∧ (s.on = true) ∧ (s.canRuns n = true) ∧ (s.canTakes n (leAt l 0 4) = false) ∧ (s.rf (CAN_CFG.TXQ n) = q) ∧ (s.free_ q + 2 < 8192) ∧ (s.held q + 2 < 8192)) ∧
    (let n : Fin 2 := 1; let l : List Byte := List.replicate 128 0; let q : Nat := 9; let s : State := ({ State.serv.wf (CAN_CFG.EN n) 1 |>.wf (CAN_STAT.STATE n) 1 |>.wf (CAN_CFG.TXQ n) 9 |>.wf (QUE_CFG.EN 9) 1 |>.wf (QUE_STAT.ADMIT 9) 1 |>.wf (QUE_CFG.IRQEN 9) 0 |>.wf (QUE_CFG.SIZEEXP 9) 4 |>.setN (QUE_CNT.adr 9) (12 + 4 * 65536) |>.setN (QUE_BASE.adr 9) 0x20100000 |>.setN (QUE_POS.adr 9) 0 |>.wf (CAN_CFG.FD n) 1 with mem := [] })
    (s.canDue n = some l) ∧ (s.on = true) ∧ (s.canRuns n = true) ∧ (s.canTakes n (leAt l 0 4) = true) ∧ (s.rf (CAN_CFG.TXQ n) = q) ∧ (s.free_ q + 2 < 8192) ∧ (s.held q + 2 < 8192)) ∧
    (let n : Fin 2 := 1; let s : State := (State.serv.wf (CAN_CFG.EN n) 1 |>.wf (CAN_STAT.STATE n) 1 |>.wf (CAN_CFG.TXQ n) 9 |>.wf (QUE_CFG.EN 9) 1 |>.wf (QUE_STAT.ADMIT 9) 1 |>.wf (QUE_CFG.IRQEN 9) 0 |>.wf (QUE_CFG.SIZEEXP 9) 4 |>.setN (QUE_CNT.adr 9) 1 |>.setN (QUE_BASE.adr 9) 0x20100000 |>.setN (QUE_POS.adr 9) 0 |>.wf (CAN_STAT.TEC n) 248)
    (s.on = true) ∧ (s.canRuns n = true) ∧ (s.canDue n = none) ∧ (248 ≤ s.rf (CAN_STAT.TEC n))) ∧
    (let n : Fin 2 := 1; let l : List Byte := List.replicate 128 0; let q : Nat := 9; let s : State := ({ State.serv.wf (CAN_CFG.EN n) 1 |>.wf (CAN_STAT.STATE n) 1 |>.wf (CAN_CFG.TXQ n) 9 |>.wf (QUE_CFG.EN 9) 1 |>.wf (QUE_STAT.ADMIT 9) 1 |>.wf (QUE_CFG.IRQEN 9) 0 |>.wf (QUE_CFG.SIZEEXP 9) 4 |>.setN (QUE_CNT.adr 9) (12 + 4 * 65536) |>.setN (QUE_BASE.adr 9) 0x20100000 |>.setN (QUE_POS.adr 9) 0 |>.wf (CAN_CFG.FD n) 1 |>.wf (CAN_STAT.TEC n) 250 with mem := [] })
    (s.on = true) ∧ (s.canRuns n = true) ∧ (s.canDue n = some l) ∧ (248 ≤ s.rf (CAN_STAT.TEC n)) ∧ (s.rf (CAN_CFG.TXQ n) = q) ∧ (s.free_ q + 2 < 8192) ∧ (s.held q + 2 < 8192)) ∧
    (let req : Fin 32 := 1; let n : Fin 2 := 1; let s : State := (State.serv.wf (LANE_GRANT.OWNER (45 + n)) req |>.wf (CAN_CFG.EN n) 1 |>.wf (CAN_STAT.STATE n) 1 |>.wf (CAN_STAT.STATE n) 0)
    (s.on = true) ∧ (s.mayWrite req (45 + n) false = true) ∧ (s.rb (CAN_CFG.EN n) = true) ∧ (s.canSt n = canStopped)) ∧
    (let req : Fin 32 := 1; let n : Fin 2 := 1; let s : State := (State.serv.wf (LANE_GRANT.OWNER (45 + n)) req |>.wf (CAN_CFG.EN n) 1 |>.wf (CAN_STAT.STATE n) 1 |>.wf (CAN_STAT.STATE n) 3)
    (s.on = true) ∧ (s.mayWrite req (45 + n) false = true) ∧ (s.rb (CAN_CFG.EN n) = true) ∧ (s.canSt n = canOff)) ∧
    (let req : Fin 32 := 1; let n : Fin 2 := 1; let s : State := (State.serv.wf (LANE_GRANT.OWNER (45 + n)) req |>.wf (CAN_CFG.EN n) 1 |>.wf (CAN_STAT.STATE n) 1)
    (s.on = true) ∧ (s.mayWrite req (45 + n) false = true) ∧ (s.canRuns n = true)) ∧
    (let n : Fin 2 := 1; let s : State := ({ State.serv.wf (CAN_CFG.EN n) 1 |>.wf (CAN_STAT.STATE n) 1 |>.wf (CAN_STAT.STATE n) 3 with canRec := 3 })
    (s.on = true) ∧ (s.canSt n = canOff) ∧ (s.canRec.testBit n = true)) ∧
    (let req : Fin 32 := 3; let n : Fin 2 := 1; let s : State := (State.serv)
    (s.on = true) ∧ (s.mayWrite req (45 + n) false = false)) ∧
    (let req : Fin 32 := 3; let n : Fin 2 := 1; let s : State := (State.serv)
    (s.on = true) ∧ (s.mayWrite req (45 + n) false = false)) ∧
    (let n : Fin 2 := 1; let f : CanFrame := { id := 0x123, dlc := 2, esi := false, gt := 77, data := [5, 6] }; let q : Fin 128 := 9; let s : State := (State.serv.wf (CAN_CFG.EN n) 1 |>.wf (CAN_STAT.STATE n) 1 |>.wf (CAN_CFG.RXQ n) 9 |>.wf (QUE_CFG.EN 9) 1 |>.wf (QUE_STAT.ADMIT 9) 1 |>.wf (QUE_CFG.IRQEN 9) 0 |>.wf (QUE_CFG.SIZEEXP 9) 4 |>.setN (QUE_CNT.adr 9) 12 |>.setN (QUE_BASE.adr 9) 0x20100000 |>.setN (QUE_POS.adr 9) 0)
    (s.on = true) ∧ (s.canRuns n = true) ∧ (s.canTakes n f.id = true) ∧ (f.fault = .none) ∧ (s.rf (CAN_CFG.RXQ n) = q) ∧ (2 ≤ s.free_ q) ∧ (s.rb (QUE_CFG.EN q) = true) ∧ (s.rb (QUE_STAT.ADMIT q) = true) ∧ (s.inflight q + 2 < 8192)) :=
  by
  iterate 16 refine And.intro (by decide +kernel) ?_
  decide +kernel

theorem wit_RegisterOwnership :
    (let req : Fin 32 := 3; let a : Nat := SPN_CTRL.adr; let v : Word := 5; let e : Bool := false; let row : RegRow := (regRow a).elim ⟨0,0,0,0,0,0,0,0,0,0,.status⟩ (·.1); let i : Nat := 0; let j : Nat := 0; let s : State := (State.serv)
    (s.on = true) ∧ (req.val ≠ 1) ∧ (regRow a = some (row, i, j)) ∧ (row.own = .headstock) ∧ (s.noEndpoint a = false)) ∧
    (let req : Fin 32 := 3; let v : Word := 5; let s : State := (State.serv)
    (s.on = true) ∧ (req.val ≠ 1)) ∧
    (let req : Fin 32 := 3; let v : Word := 5; let s : State := (State.serv)
    (s.on = true) ∧ (req.val ≠ 1)) ∧
    (let req : Fin 32 := 3; let b : Fin 34 := 5; let k : Fin 2 := 1; let w : Fin 16 := 7; let v : Word := 9; let s : State := (State.serv)
    (s.on = true) ∧ (req.val ≠ 1)) ∧
    (let req : Fin 32 := 3; let v : Word := 5; let s : State := (State.serv)
    (s.on = true) ∧ (req.val ≠ 1) ∧ (v.toNat % 16 < 6)) :=
  by
  iterate 4 refine And.intro (by decide +kernel) ?_
  decide +kernel

theorem wit_RegisterUnits :
    (let req : Fin 32 := 2; let a : Nat := PWM_PERIODSH.adr 2; let v : Word := 5; let e : Bool := false; let row : RegRow := (regRow a).elim ⟨0,0,0,0,0,0,0,0,0,0,.status⟩ (·.1); let i : Nat := 2; let j : Nat := 0; let u : Nat := 0; let d : Nat := 1; let s : State := (State.serv)
    (s.on = true) ∧ (regRow a = some (row, i, j)) ∧ (row.own = .granted u d) ∧ (s.noEndpoint a = false) ∧ (s.mayWrite req (u + i / d) e = false)) ∧
    (let req : Fin 32 := 2; let b : Fin 8 := 3; let run : Bool := true; let s : State := (State.serv)
    (s.on = true) ∧ (s.mayWrite req b false = false)) ∧
    (let req : Fin 32 := 2; let b : Fin 8 := 3; let s : State := (State.serv)
    (s.on = true) ∧ (s.mayWrite req b false = false)) ∧
    (let req : Fin 32 := 2; let n : Fin 16 := 3; let s : State := (State.serv)
    (s.on = true) ∧ (s.mayWrite req (8 + n) false = false)) ∧
    (let req : Fin 32 := 2; let n : Fin 16 := 3; let s : State := (State.serv)
    (s.on = true) ∧ (s.mayWrite req (8 + n) false = false)) ∧
    (let req : Fin 32 := 2; let g : Fin 16 := 3; let v : Word := 9; let s : State := (State.serv)
    (s.on = true) ∧ (s.mayWrite req (24 + g) false = false)) ∧
    (let req : Fin 32 := 2; let m : Fin 256 := 33; let s : State := (State.serv)
    (s.on = true) ∧ (s.mayWrite req (24 + m / 16) false = false)) ∧
    (let req : Fin 32 := 1; let a : Nat := TSK_CTRL.adr; let v : Word := 0x12345678; let e : Bool := false; let row : RegRow := (regRow a).elim ⟨0,0,0,0,0,0,0,0,0,0,.status⟩ (·.1); let i : Nat := 0; let j : Nat := 0; let s : State := ({ State.serv with hwSet := [(a, State.serv.now, ((regRow a).elim 0 (·.1.w1c)) &&& 0x55555555)] })
    (s.on = true) ∧ (regRow a = some (row, i, j)) ∧ (s.hwMask a &&& row.rw = 0) ∧ (s.noEndpoint a = false) ∧ (s.writeKind req row i a v.toNat e = none) ∧ (s.actWriteA row i a v.toNat = none) ∧ (s.actWriteB req row i j a v.toNat e = none)) ∧
    (let req : Fin 32 := 9; let a : Nat := 0x20001002; let v : Word := 0x00340056; let e : Bool := false; let s : State := (State.serv)
    (s.on = true) ∧ (0x20000000 ≤ a) ∧ (a + 4 ≤ 0x20600000) ∧ (s.txFlows.find? (fun f => decide (s.flowBase f ≤ a) && decide (a < s.flowBase f + s.rf (ANW_FLOWBUF.LEN f))) = none)) :=
  by
  iterate 8 refine And.intro (by decide +kernel) ?_
  decide +kernel

theorem wit_AccessFaultsAndGrants :
    (let req : Fin 32 := 9; let a : Nat := 0x60000010; let w : Bool := true; let s : State := (State.serv)
    (s.on = true) ∧ (reaches req a = false ∨ (w = true ∧ (region a = some 0 ∨ region a = some 4)))) ∧
    (let req : Fin 32 := 16; let a : Nat := 0x00100000; let v : Word := 7; let e : Bool := false; let s : State := (State.serv)
    (s.on = true) ∧ (reaches req a = false ∨ region a = some 0 ∨ region a = some 4)) ∧
    (let req : Fin 32 := 16; let a : Nat := 0x40000008 + 0x200; let v : Word := 7; let e : Bool := false; let s : State := (State.serv)
    (s.on = true) ∧ (region a = some 3) ∧ (regRow a = none)) ∧
    (let ch : Fin 8 := 0; let u : Byte := 2; let o : Byte := 9; let r : HmbRun := { op := 0x101, tag := 7, takenAt := 3, cmd := some (.laneGrant ch u o) }; let s : State := (((State.serv).setChan ch { (State.serv.chan ch) with run := some r }).wb (HMB_CHCFG.EN ch) true)
    (s.Asked ch (.laneGrant ch u o) r) ∧ (u.toNat < 63) ∧ (unitAllows u.toNat o.toNat = true) ∧ (s.svcUnit u.toNat = false) ∧ (s.lane.moves.any (fun m => m.1 == u.toNat) = false) ∧ (s.svcHeld.contains u.toNat = false) ∧ (s.owner u.toNat ≠ o.toNat)) ∧
    (let ch : Fin 8 := 0; let u : Byte := 63; let o : Byte := 1; let r : HmbRun := { op := 0x101, tag := 7, takenAt := 3, cmd := some (.laneGrant ch u o) }; let s : State := (((State.serv).setChan ch { (State.serv.chan ch) with run := some r }).wb (HMB_CHCFG.EN ch) true)
    (s.Asked ch (.laneGrant ch u o) r) ∧ (u.toNat ≤ 63) ∧ (u.toNat = 63 ∨ unitAllows u.toNat o.toNat = false)) ∧
    (let u : Fin 64 := 2; let m : GrantMove := { old := 1, new := 9, ch := some 0 }; let c : Nat := 0; let s : State := (({ (State.serv) with lane := { State.serv.lane with moves := [(u.val, m)] }, svc := { State.serv.svc with prog := [], wind := { State.serv.svc.wind with prog := [] }, circ := { State.serv.svc.circ with prog := [] } } }).setChan 0 { run := some { op := 0x101 } })
    (s.on = true) ∧ (s.lane.moves.find? (fun x => x.1 == u.val) = some (u.val, m)) ∧ (m.ch = some c) ∧ (m.next = none) ∧ (s.svc.prog = []) ∧ (s.svc.wind.prog = []) ∧ (s.svc.circ.prog = []) ∧ ((∀ q : Fin 128, s.rb (QUE_CFG.EN q) = false))) ∧
    (let u : Fin 64 := 2; let m : GrantMove := { old := 1, new := 9, ch := none }; let s : State := (({ (State.serv) with lane := { State.serv.lane with moves := [(u.val, m)] }, svc := { State.serv.svc with prog := [], wind := { State.serv.svc.wind with prog := [] }, circ := { State.serv.svc.circ with prog := [] } } }))
    (s.on = true) ∧ (s.lane.moves.find? (fun x => x.1 == u.val) = some (u.val, m)) ∧ (m.ch = none) ∧ (m.next = none) ∧ (s.svc.prog = []) ∧ (s.svc.wind.prog = []) ∧ (s.svc.circ.prog = []) ∧ ((∀ q : Fin 128, s.rb (QUE_CFG.EN q) = false))) ∧
    (let u : Fin 64 := 2; let m : GrantMove := { old := 1, new := 9, ch := none, next := some 8 }; let o : Nat := 8; let s : State := (({ (State.serv) with lane := { State.serv.lane with moves := [(u.val, m)] }, svc := { State.serv.svc with prog := [], wind := { State.serv.svc.wind with prog := [] }, circ := { State.serv.svc.circ with prog := [] } } }))
    (s.on = true) ∧ (s.lane.moves = [(u.val, m)]) ∧ (m.ch = none) ∧ (m.next = some o) ∧ (m.new < 32) ∧ (m.new ≠ o) ∧ (s.svc.prog = []) ∧ (s.svc.wind.prog = []) ∧ (s.svc.circ.prog = []) ∧ ((∀ q : Fin 128, s.rb (QUE_CFG.EN q) = false))) :=
  by
  iterate 7 refine And.intro (by decide +kernel) ?_
  decide +kernel

theorem wit_BridgeMessages :
    (let s : State := (State.serv.wf AST_INJCTL.ARM 0)
    (s.on = true) ∧ (s.lane.hbLast.all (fun x => decide (x + 100000 ≤ s.now)) = true) ∧ (s.rf AST_INJCTL.ARM = 0) ∧ (s.ast.held = [])) ∧
    (let k : Fin 3 := 1; let p : Vector Byte 28 := Vector.replicate 28 0; let s : State := (State.serv.wf AST_INJCTL.ARM 0)
    (s.on = true) ∧ (s.isPeer k = true) ∧ (s.bridgeQuiet k)) ∧
    (let k : Fin 3 := 1; let p : Vector Byte 28 := Vector.replicate 28 1; let s : State := (((State.serv.wf AST_INJCTL.ARM 0).wf LANE_STATE.STATE 3).setPeer k { run := 2 })
    (s.on = true) ∧ (s.isPeer k = true) ∧ (s.bridgeQuiet k) ∧ (s.st ≠ stService) ∧ (s.sec.pend = none) ∧ (s.sec.checkCh = none)) ∧
    (let k : Fin 3 := 2; let o : Int := -5; let x : Option Int := some 40; let s : State := (((State.serv.wf AST_INJCTL.ARM 0).wf LANE_PEERS.BRIDGE_UP 6).setPeer k { hb := { state := 4 } })
    (s.on = true) ∧ (s.isPeer k = true) ∧ (s.bridgeQuiet k) ∧ (s.reports k = true) ∧ (-2147483648 ≤ o) ∧ (o ≤ 2147483647)) ∧
    (let k : Fin 3 := 2; let o : Int := -5; let x : Option Int := some 40; let s : State := (((State.serv.wf AST_INJCTL.ARM 0).wf LANE_PEERS.BRIDGE_UP 6).setPeer k { hb := { state := 5 } })
    (s.on = true) ∧ (s.isPeer k = true) ∧ (s.bridgeQuiet k) ∧ (s.reports k = false)) ∧
    (let k : Fin 3 := 2; let low : Bool := true; let f : Fin 257 := 3; let s : State := ((State.serv.wf AST_INJCTL.ARM 0).wf LANE_PEERS.BRIDGE_UP 6)
    (s.on = true) ∧ (s.isPeer k = true) ∧ (s.bridgeQuiet k) ∧ (s.bridgeUp k = true)) ∧
    (let k : Fin 3 := 2; let o : Bool := true; let s : State := ((State.serv.wf AST_INJCTL.ARM 0).wf LANE_PEERS.BRIDGE_UP 6)
    (s.on = true) ∧ (s.isPeer k = true) ∧ (s.bridgeQuiet k) ∧ (s.bridgeUp k = true)) ∧
    (let req : Fin 32 := 9; let s : State := ({ State.serv with gt := 5 * 2^33, spn := { State.serv.spn with gtCap := [(3, 7)] } })
    (s.on = true)) ∧
    (let k : Fin 3 := 2; let s : State := (((State.serv.wf LANE_PEERS.BRIDGE_UP 6).setPeer k { lastHb := 5, everUp := true }))
    (s.on = true) ∧ (s.isPeer k = true) ∧ (s.bridgeUp k = true) ∧ ((s.peer k).lastHb + 300000 ≤ s.now)) ∧
    (let k : Fin 3 := 2; let s : State := (((State.serv.wf LANE_PEERS.BRIDGE_UP 6).wf LANE_STATE.STATE 3).setPeer k { lastHb := 5, everUp := true })
    (s.on = true) ∧ (s.isPeer k = true) ∧ (s.bridgeUp k = true) ∧ ((s.peer k).lastHb + 300000 ≤ s.now) ∧ (s.st ≠ stService) ∧ (s.asserted 8 = false) ∧ (s.sec.checkCh = none) ∧ ((s.peer k).everUp = true)) ∧
    (let k : Fin 3 := 1; let p : Vector Byte 28 := Vector.replicate 28 7; let s : State := (({ State.serv.wf AST_INJCTL.ARM 0 with ast := { State.serv.ast with held := [] } } : State))
    (s.on = true) ∧ (s.isPeer k = true) ∧ (s.bridgeQuiet k)) :=
  by
  iterate 10 refine And.intro (by decide +kernel) ?_
  decide +kernel

theorem wit_LoopSamplesAndConverter :
    (let e : Fin 4 := 2; let l : Launch := { ctx := 64 * e + 5, fire := 777, period := 100000 }; let q : List Launch := []; let s : State := (({ State.serv with lpe := { State.serv.lpe with queues := [(e.val, l :: q)] } }).wf (LPE_CTXSTAT.STATE l.ctx) 4)
    (s.on = true) ∧ (s.lpeQueue e = l :: q) ∧ (l.ctx / 64 = e) ∧ (l.entry = none) ∧ (s.rf (LPE_CTXSTAT.STATE l.ctx) = cxOff ∨ s.rf (LPE_CTXSTAT.STATE l.ctx) = cxFailed)) ∧
    (let e : Fin 4 := 2; let l : Launch := { ctx := 64 * e + 5, fire := 777, period := 100000 }; let q : List Launch := []; let s : State := (let a := ({ State.serv with lpe := { State.serv.lpe with queues := [(e.val, l :: q)] } }).wf (LPE_CTXSTAT.STATE l.ctx) 2 |>.setN (LPE_CTXCFG.adr l.ctx) 0 |>.wf (LPE_CTXCTL.AUTO l.ctx) 0 |>.setN (LPE_CTXIN0.adr l.ctx) 0 |>.setN (LPE_CTXIN1.adr l.ctx) 0 |>.setN (LPE_CTXIN2.adr l.ctx) 0 |>.setN (LPE_CTXOUT.adr l.ctx) 0; let a := [LPE_CTXVUNSAT.adr l.ctx, LPE_CTXINTG.adr l.ctx, LPE_CTXHIST.adr l.ctx 0, LPE_CTXSPACT.adr l.ctx, LPE_CTXOUTV.adr l.ctx, LPE_CTXRESID.adr l.ctx].foldl (fun a x => a.setN x 0x3F800000) a; a.setN (LPE_CTXMAN.adr l.ctx) 0x41200000 |>.setN (LPE_CTXLIMLO.adr l.ctx) 0 |>.setN (LPE_CTXLIMHI.adr l.ctx) 0x40000000)
    (s.on = true) ∧ (s.lpeQueue e = l :: q) ∧ (l.ctx / 64 = e) ∧ (l.entry = none) ∧ (s.rf (LPE_CTXSTAT.STATE l.ctx) = cxManual) ∧ (s.rf (LPE_CTXCFG.LAW l.ctx) = lawPI) ∧ (s.rb (LPE_CTXCFG.CALEN l.ctx) = false) ∧ (s.rf (LPE_CTXCFG.SUPV l.ctx) = 0) ∧ (s.rb (LPE_CTXCTL.AUTO l.ctx) = false) ∧ (s.rf (LPE_CTXIN0.TYPE l.ctx) = 0) ∧ (s.rf (LPE_CTXIN1.TYPE l.ctx) = 0) ∧ (s.rf (LPE_CTXIN2.TYPE l.ctx) = 0) ∧ (s.rf (LPE_CTXOUT.TYPE l.ctx) = outNone) ∧ ((∀ a ∈ [LPE_CTXMAN.adr l.ctx, LPE_CTXLIMLO.adr l.ctx, LPE_CTXLIMHI.adr l.ctx, LPE_CTXVUNSAT.adr l.ctx, LPE_CTXINTG.adr l.ctx, LPE_CTXHIST.adr l.ctx 0, LPE_CTXSPACT.adr l.ctx, LPE_CTXOUTV.adr l.ctx, LPE_CTXRESID.adr l.ctx], isFin (s.rn a) = true))) ∧
    (let req : Fin 32 := 1; let n : Fin 16 := 3; let s : State := (State.serv.wf (LANE_GRANT.OWNER 44) req |>.wf ADC_CFG.EN 1 |>.wf (ADC_SEQCFG.EN n) 1 |>.wf (ADC_SEQCFG.CHMASK n) 5)
    (s.on = true) ∧ (s.mayWrite req 44 false = true) ∧ (s.rb ADC_CFG.EN = true) ∧ (s.rb (ADC_SEQCFG.EN n) = true) ∧ (s.rf (ADC_SEQCFG.CHMASK n) ≠ 0) ∧ (s.adc.cur = none)) ∧
    (let req : Fin 32 := 1; let n : Fin 16 := 3; let s : State := ({ State.serv.wf (LANE_GRANT.OWNER 44) req |>.wf ADC_CFG.EN 1 |>.wf (ADC_SEQCFG.EN n) 1 |>.wf (ADC_SEQCFG.CHMASK n) 5 with adc := { cur := some (2, none), left := [1], queue := [(7, none)] } })
    (s.on = true) ∧ (s.mayWrite req 44 false = true) ∧ (s.rb ADC_CFG.EN = true) ∧ (s.rb (ADC_SEQCFG.EN n) = true) ∧ (s.rf (ADC_SEQCFG.CHMASK n) ≠ 0) ∧ (s.adc.cur ≠ none) ∧ (s.adc.queue.length < 4)) ∧
    (let req : Fin 32 := 1; let n : Fin 16 := 3; let s : State := (State.serv.wf (LANE_GRANT.OWNER 44) req |>.wf (ADC_SEQCFG.EN n) 0)
    (s.on = true) ∧ (s.mayWrite req 44 false = true) ∧ (s.rb (ADC_SEQCFG.EN n) = false ∨ s.rf (ADC_SEQCFG.CHMASK n) = 0 ∨ (s.adc.cur ≠ none ∧ 4 ≤ s.adc.queue.length))) ∧
    (let nv : Nat := 1250000000; let n : Nat := 3; let m : Nat := 4; let left : List Nat := []; let s : State := ({ State.serv with adc := { cur := some (2, none), left := n :: m :: left, queue := [(7, none)] } })
    (s.on = true) ∧ (s.adc.cur ≠ none) ∧ (s.adc.left = n :: m :: left) ∧ (n < 16)) ∧
    (let e : Fin 4 := 2; let l : Launch := { ctx := 133, fire := 777, period := 100000, entry := some 9 }; let q : List Launch := []; let s : State := ({ State.serv with lpe := { State.serv.lpe with queues := [(e.val, l :: q)] } })
    (s.on = true) ∧ (s.lpeQueue e = l :: q)) ∧
    (let req : Fin 32 := 1; let v : Word := 0xF8; let n : Fin 16 := 3; let l : List Nat := [4, 5, 6, 7]; let s : State := ({ State.serv.wf (LANE_GRANT.OWNER 44) req |>.wf ADC_CFG.EN 1 |>.wf (ADC_SEQCFG.EN n) 1 |>.wf (ADC_SEQCFG.CHMASK n) 5 with adc := {} })
    (s.on = true) ∧ (s.mayWrite req 44 false = true) ∧ (s.rb ADC_CFG.EN = true) ∧ (s.adc.cur = none) ∧ (bitList 16 (v.toNat % 65536) = n.val :: l) ∧ (s.rb (ADC_SEQCFG.EN n) = true) ∧ (s.rf (ADC_SEQCFG.CHMASK n) ≠ 0)) ∧
    (let req : Fin 32 := 1; let v : Word := 0xF8; let s : State := ({ State.serv.wf (LANE_GRANT.OWNER 44) req |>.wf ADC_CFG.EN 1 |>.wf (ADC_SEQCFG.EN 3) 1 |>.wf (ADC_SEQCFG.CHMASK 3) 5 with adc := { cur := some (2, none), left := [1], queue := [(7, none)] } })
    (s.on = true) ∧ (s.mayWrite req 44 false = true) ∧ (s.adc.cur ≠ none)) ∧
    (let nv : Nat := 1250000000; let j : Nat × Option Nat := (2, some 9); let n : Fin 16 := 4; let left : List Nat := []; let s : State := ({ State.serv with adc := { cur := some j, left := n.val :: left, queue := [(7, none)] } })
    (s.on = true) ∧ (s.adc.cur = some j) ∧ (s.adc.left = n.val :: left)) ∧
    (let nv : Nat := 1250000000; let j : Nat × Option Nat := (2, some 9); let n : Fin 16 := 4; let m : Fin 16 := 5; let e : Option Nat := some 3; let q : List (Nat × Option Nat) := []; let s : State := ({ State.serv with adc := { cur := some j, left := [n.val], queue := (m.val, e) :: q } })
    (s.on = true) ∧ (s.adc.cur = some j) ∧ (s.adc.left = [n.val]) ∧ (s.adc.queue = (m.val, e) :: q)) ∧
    (let nv : Nat := 1250000000; let j : Nat × Option Nat := (2, some 9); let n : Fin 16 := 4; let s : State := ({ State.serv with adc := { cur := some j, left := [n.val], queue := [] } })
    (s.on = true) ∧ (s.adc.cur = some j) ∧ (s.adc.left = [n.val]) ∧ (s.adc.queue = [])) :=
  by
  iterate 11 refine And.intro (by decide +kernel) ?_
  decide +kernel

theorem wit_PairOutputs :
    (let p : Fin 3 := 1; let out : CoreOut := { token := 77, addr := 0x20000010, data := 5, bytes := 15, load := false }; let early : Bool := false; let s : State := (State.serv.wf (SLP_PAIRSTAT.STATE p) 1)
    (s.runsLocked p = true) ∧ (ownTcm out = false) ∧ (s.leadMay p out.token.toNat = true)) ∧
    (let p : Fin 3 := 1; let out : CoreOut := { token := 77, addr := 0x100010, data := 5, bytes := 15, load := false }; let early : Bool := false; let s : State := ({ (State.serv.wf (SLP_PAIRSTAT.STATE p) 1) with tcm := [(10, [(0x100012, 3)])] })
    (s.runsLocked p = true) ∧ (s.leadMay p out.token.toNat = true) ∧ (out.load = false) ∧ (out.bytes = 15) ∧ (0x100000 ≤ out.addr.toNat) ∧ (out.addr.toNat < 0x13FFFD)) ∧
    (let p : Fin 3 := 1; let out : CoreOut := { token := 77, addr := 0x100010, data := 5, bytes := 15, load := false }; let early : Bool := false; let s : State := ((let a : State := (State.serv.wf (SLP_PAIRSTAT.STATE p) 1 |>.wf (SLP_PAIRCFG.LAG p) 8); a.setPair p { a.pair p with lead := 99 }))
    (s.runsLocked p = true) ∧ (s.trailMay p out.token.toNat = true) ∧ (out.load = false) ∧ (out.bytes = 15) ∧ (0x100000 ≤ out.addr.toNat) ∧ (out.addr.toNat < 0x13FFFD)) ∧
    (let p : Fin 3 := 1; let out : CoreOut := { token := 77, addr := 0x20000010, data := 5, bytes := 15, load := false }; let early : Bool := false; let e : DelayEntry := { out := { token := 77, addr := 0x20000010, data := 5, bytes := 15, load := false }, par := outParity ({ token := 77, addr := 0x20000010, data := 5, bytes := 15, load := false }) }; let l : List DelayEntry := []; let s : State := ((let a : State := (State.serv.wf (SLP_PAIRSTAT.STATE p) 1 |>.wf (SLP_PAIRCFG.LAG p) 8); a.setPair p { a.pair p with fifo := [e], lead := 99 }))
    (s.pairSt p = pairLocked ∨ s.pairSt p = pairCkpt) ∧ ((s.pair p).hush ≤ e.out.token.toNat) ∧ (s.trailMay p out.token.toNat = true) ∧ (ownTcm out = false) ∧ ((s.pair p).fifo = e :: l) ∧ (e.par = outParity e.out) ∧ (s.matches p 0 e.out out = true) ∧ (s.matches p 1 e.out out = true) ∧ (e.out.load = false) ∧ (e.out.bytes = 15) ∧ (0x20000000 ≤ e.out.addr.toNat) ∧ (e.out.addr.toNat < 0x205FFFFD) ∧ ((∀ f ∈ s.txFlows, e.out.addr.toNat < s.flowBase f ∨ s.flowBase f + s.rf (ANW_FLOWBUF.LEN f) ≤ e.out.addr.toNat))) ∧
    (let p : Fin 3 := 1; let out : CoreOut := { token := 77, addr := 0x20000010, data := 5, bytes := 15, load := true }; let early : Bool := false; let e : DelayEntry := { out := { token := 77, addr := 0x20000010, data := 5, bytes := 15, load := true }, par := outParity ({ token := 77, addr := 0x20000010, data := 5, bytes := 15, load := true }) }; let l : List DelayEntry := []; let s : State := ((let a : State := ({ State.serv.wf (SLP_PAIRSTAT.STATE p) 1 |>.wf (SLP_PAIRCFG.LAG p) 8 with mem := [(0x20000010, 7)] }); a.setPair p { a.pair p with fifo := [e], lead := 99 }))
    (s.pairSt p = pairLocked ∨ s.pairSt p = pairCkpt) ∧ ((s.pair p).hush ≤ e.out.token.toNat) ∧ (s.trailMay p out.token.toNat = true) ∧ (ownTcm out = false) ∧ ((s.pair p).fifo = e :: l) ∧ (e.par = outParity e.out) ∧ (s.matches p 0 e.out out = true) ∧ (s.matches p 1 e.out out = true) ∧ (e.out.load = true) ∧ (0x20000000 ≤ e.out.addr.toNat) ∧ (e.out.addr.toNat < 0x20600000) ∧ ((s.pair p).log.length < 4095)) ∧
    (let p : Fin 3 := 1; let out : CoreOut := { token := 77, addr := 0x20000010, data := 5, bytes := 15, load := true }; let early : Bool := false; let e : DelayEntry := { out := { token := 77, addr := 0x20000010, data := 5, bytes := 15, load := true }, par := outParity ({ token := 77, addr := 0x20000010, data := 5, bytes := 15, load := true }) }; let l : List DelayEntry := []; let s : State := ((let a : State := (State.serv.wf (SLP_PAIRSTAT.STATE p) 1 |>.wf (SLP_PAIRCFG.LAG p) 8 |>.wf (SLP_PAIRSTAT.LATENT p) 0); a.setPair p { a.pair p with fifo := [e], lead := 99, log := List.replicate 4095 (.load 1 2 3) }))
    (s.pairSt p = pairLocked) ∧ (s.latent p = false) ∧ ((s.pair p).hush ≤ e.out.token.toNat) ∧ (s.trailMay p out.token.toNat = true) ∧ (ownTcm out = false) ∧ ((s.pair p).fifo = e :: l) ∧ (e.par = outParity e.out) ∧ (s.matches p 0 e.out out = true) ∧ (s.matches p 1 e.out out = true) ∧ (e.out.load = true) ∧ (0x20000000 ≤ e.out.addr.toNat) ∧ (e.out.addr.toNat < 0x20600000) ∧ ((s.pair p).log.length = 4095)) ∧
    (let p : Fin 3 := 1; let out : CoreOut := { token := 77, addr := 0x20000010, data := 5, bytes := 15, load := true }; let early : Bool := false; let e : DelayEntry := { out := { token := 77, addr := 0x20000010, data := 5, bytes := 15, load := true }, par := outParity ({ token := 77, addr := 0x20000010, data := 5, bytes := 15, load := true }) }; let l : List DelayEntry := []; let s : State := ((let a : State := (State.serv.wf (SLP_PAIRSTAT.STATE p) 5 |>.wf (SLP_PAIRCFG.LAG p) 8); a.setPair p { a.pair p with fifo := [e], lead := 99, rel := 80, hush := 81, log := [.load 77 0x20000010 1234] }))
    (e.out.token.toNat < (s.pair p).hush) ∧ (s.trailMay p out.token.toNat = true) ∧ (ownTcm out = false) ∧ ((s.pair p).fifo = e :: l) ∧ (e.par = outParity e.out) ∧ (s.matches p 0 e.out out = true) ∧ (s.matches p 1 e.out out = true)) ∧
    (let p : Fin 3 := 1; let n : Nat := 77; let m : Nat := 60; let s : State := (State.serv.wf (SLP_PAIRSTAT.STATE p) 1 |>.wf (SLP_PAIRCFG.LAG p) 8)
    (s.runsLocked p = true) ∧ (s.leadMay p n = true) ∧ (m + s.rf (SLP_PAIRCFG.LAG p) ≤ n) ∧ ((s.pair p).trail ≤ m)) ∧
    (let p : Fin 3 := 1; let out : CoreOut := { token := 77, addr := 0x20000010, data := 5, bytes := 15, load := false }; let early : Bool := false; let e : DelayEntry := { out := { token := 77, addr := 0x20000010, data := 5, bytes := 15, load := false }, par := [9] }; let l : List DelayEntry := []; let c : CkCopy := { stamp := 4, regs := [1, 3], tcm := [(0x100004, 8)], bad := [] }; let s : State := ((let a : State := (State.serv.wf (SLP_PAIRSTAT.STATE p) 1 |>.wf (SLP_PAIRCFG.LAG p) 8); a.setPair p { a.pair p with copy0 := { stamp := 3, regs := [1, 2], tcm := [(0x100004, 9)], bad := [] }, copy1 := { stamp := 4, regs := [1, 3], tcm := [(0x100004, 8)], bad := [] }, dirty := [0, 3], ck := 60, fifo := [e], lead := 99 }))
    (s.runsLocked p = true) ∧ (s.trailMay p out.token.toNat = true) ∧ (ownTcm out = false) ∧ ((s.pair p).fifo = e :: l) ∧ (s.recent p < 2) ∧ ((s.pair p).newest = some c) ∧ (e.par ≠ outParity e.out)) ∧
    (let p : Fin 3 := 1; let out : CoreOut := { token := 77, addr := 0x20000010, data := 5, bytes := 15, load := false }; let early : Bool := false; let e : DelayEntry := { out := { token := 77, addr := 0x20000010, data := 5, bytes := 15, load := false }, par := outParity ({ token := 77, addr := 0x20000010, data := 5, bytes := 15, load := false }) }; let l : List DelayEntry := []; let c : CkCopy := { stamp := 4, regs := [1, 3], tcm := [(0x100004, 8)], bad := [] }; let s : State := ({ (let a : State := (State.serv.wf (SLP_PAIRSTAT.STATE p) 1 |>.wf (SLP_PAIRCFG.LAG p) 8); a.setPair p { a.pair p with copy0 := { stamp := 3, regs := [1, 2], tcm := [(0x100004, 9)], bad := [] }, copy1 := { stamp := 4, regs := [1, 3], tcm := [(0x100004, 8)], bad := [] }, dirty := [0, 3], ck := 60, fifo := [e], lead := 99 }) with cmpStuck := [(2 * p.val, some false)] })
    (s.runsLocked p = true) ∧ (s.trailMay p out.token.toNat = true) ∧ (ownTcm out = false) ∧ ((s.pair p).fifo = e :: l) ∧ (s.recent p < 2) ∧ ((s.pair p).newest = some c) ∧ (e.par = outParity e.out) ∧ (s.matches p 0 e.out out ≠ s.matches p 1 e.out out)) ∧
    (let p : Fin 3 := 1; let out : CoreOut := { token := 77, addr := 0x20000010, data := 5, bytes := 15, load := false }; let early : Bool := false; let e : DelayEntry := { out := { token := 77, addr := 0x20000010, data := 5, bytes := 15, load := true }, par := outParity ({ token := 77, addr := 0x20000010, data := 5, bytes := 15, load := true }) }; let l : List DelayEntry := []; let c : CkCopy := { stamp := 4, regs := [1, 3], tcm := [(0x100004, 8)], bad := [] }; let s : State := ((let a : State := (State.serv.wf (SLP_PAIRSTAT.STATE p) 1 |>.wf (SLP_PAIRCFG.LAG p) 8); a.setPair p { a.pair p with copy0 := { stamp := 3, regs := [1, 2], tcm := [(0x100004, 9)], bad := [] }, copy1 := { stamp := 4, regs := [1, 3], tcm := [(0x100004, 8)], bad := [] }, dirty := [0, 3], ck := 60, fifo := [e], lead := 99 }))
    (s.runsLocked p = true) ∧ (s.trailMay p out.token.toNat = true) ∧ (ownTcm out = false) ∧ ((s.pair p).fifo = e :: l) ∧ (s.recent p < 2) ∧ ((s.pair p).newest = some c) ∧ (e.par = outParity e.out) ∧ (s.matches p 0 e.out out = false) ∧ (s.matches p 1 e.out out = false)) ∧
    (let p : Fin 3 := 1; let c : CkCopy := { stamp := 4, regs := [1, 3], tcm := [(0x100004, 8)], bad := [] }; let s : State := ((let a : State := (State.serv.wf (SLP_PAIRSTAT.STATE p) 0); a.setPair p { a.pair p with copy0 := { stamp := 3, regs := [1, 2], tcm := [(0x100004, 9)], bad := [] }, copy1 := { stamp := 4, regs := [1, 3], tcm := [(0x100004, 8)], bad := (if State.serv.now % 2 = 0 then [] else [7]) }, dirty := [0, 3], ck := 60 }))
    ((s.pair p).copy0.bad = []) ∧ (c = (if (s.pair p).copy1.bad = [] ∧ (s.pair p).copy0.stamp < (s.pair p).copy1.stamp then (s.pair p).copy1 else (s.pair p).copy0))) ∧
    (let p : Fin 3 := 1; let out : CoreOut := { token := 77, addr := 0x20000010, data := 5, bytes := 15, load := false }; let early : Bool := false; let e : DelayEntry := { out := { token := 77, addr := 0x20000010, data := 5, bytes := 15, load := true }, par := outParity ({ token := 77, addr := 0x20000010, data := 5, bytes := 15, load := true }) }; let l : List DelayEntry := []; let s : State := ((let a : State := (State.serv.wf (SLP_PAIRSTAT.STATE p) 1 |>.wf (SLP_PAIRCFG.LAG p) 8); a.setPair p { a.pair p with fifo := [e], lead := 99, copy0 := { bad := [3] }, copy1 := { bad := [4] } }))
    (s.runsLocked p = true) ∧ (s.trailMay p out.token.toNat = true) ∧ (ownTcm out = false) ∧ ((s.pair p).fifo = e :: l) ∧ (s.recent p < 2) ∧ (e.par = outParity e.out) ∧ (s.matches p 0 e.out out = false) ∧ (s.matches p 1 e.out out = false) ∧ ((s.pair p).copy0.bad ≠ []) ∧ ((s.pair p).copy1.bad ≠ []) ∧ ((s.pair p).splitCh = none) ∧ ((s.pair p).rejoinCh = none)) ∧
    (let p : Fin 3 := 1; let out : CoreOut := { token := 77, addr := 0x20000010, data := 5, bytes := 15, load := false }; let early : Bool := false; let e : DelayEntry := { out := { token := 77, addr := 0x20000010, data := 5, bytes := 15, load := true }, par := outParity ({ token := 77, addr := 0x20000010, data := 5, bytes := 15, load := true }) }; let l : List DelayEntry := []; let s : State := ((let a : State := ({ (State.serv.wf (SLP_PAIRSTAT.STATE p) 1 |>.wf (SLP_PAIRCFG.LAG p) 8) with hmb := { State.serv.hmb with chans := [] } }); a.setPair p { a.pair p with restarts := [State.serv.gt - 1, State.serv.gt - 2], fifo := [e], lead := 99 }))
    (s.runsLocked p = true) ∧ (s.trailMay p out.token.toNat = true) ∧ (ownTcm out = false) ∧ ((s.pair p).fifo = e :: l) ∧ (2 ≤ s.recent p) ∧ (e.par = outParity e.out) ∧ (s.matches p 0 e.out out = false) ∧ (s.matches p 1 e.out out = false) ∧ (s.hmb.chans = []) ∧ ((s.pair p).splitCh = none) ∧ ((s.pair p).rejoinCh = none)) ∧
    (let p : Fin 3 := 1; let n : Nat := 77; let s : State := ((let a : State := (State.serv.wf (SLP_PAIRSTAT.STATE p) 2); a.setPair p { a.pair p with lead := 3 }))
    (s.runsSplit p = true)) ∧
    (let p : Fin 3 := 1; let out : CoreOut := { token := 77, addr := 0x20000010, data := 5, bytes := 15, load := false }; let early : Bool := true; let s : State := ((let a : State := (State.serv.wf (SLP_PAIRSTAT.STATE p) 3); a.setPair p { a.pair p with lead := 3 }))
    (s.runsSplit p = true)) ∧
    (let p : Fin 3 := 1; let n : Nat := 7; let e : PortEvent := { vector := 5, d := some 7 }; let d : Nat := 7; let s : State := ((let a : State := (State.serv.wf (SLP_PAIRSTAT.STATE p) 1); a.setPair p { a.pair p with events := [{ vector := 5, d := some 7 }] }))
    (s.runsLocked p = true) ∧ (e ∈ (s.pair p).events) ∧ (e.d = some d) ∧ (d ≤ n)) ∧
    (let p : Fin 3 := 1; let n : Nat := 10; let s : State := ((let a : State := (State.serv.wf (SLP_PAIRSTAT.STATE p) 6); a.setPair p { a.pair p with stop := 9 }))
    (s.pairSt p = pairResync) ∧ ((s.pair p).stop < n)) ∧
    (let p : Fin 3 := 1; let s : State := (({ (State.serv.wf (SLP_PAIRSTAT.STATE p) 1) with tly := { State.serv.tly with traps := [(2 + p.val, true)] } } : State))
    (s.runsSplit p = false) ∧ (s.trapOf (2 + p) = some true)) ∧
    (let p : Fin 3 := 1; let s : State := (({ (State.serv.wf (SLP_PAIRSTAT.STATE p) 1) with tly := { State.serv.tly with traps := [(2 + p.val, false)] } } : State))
    (s.runsSplit p = false) ∧ (s.trapOf (2 + p) = some false)) ∧
    (let p : Fin 3 := 1; let out : CoreOut := { token := 77, addr := 0x20000010, data := 5, bytes := 15, load := false }; let early : Bool := true; let s : State := (State.serv.wf (SLP_PAIRSTAT.STATE p) 8)
    (s.runsLocked p = false) ∧ (s.runsSplit p = false)) ∧
    (let p : Fin 3 := 1; let out : CoreOut := { token := 77, addr := 0x20000010, data := 5, bytes := 15, load := false }; let early : Bool := true; let s : State := (State.serv.wf (SLP_PAIRSTAT.STATE p) 2)
    (s.runsLocked p = false)) ∧
    (let p : Fin 3 := 1; let n : Nat := 5; let m : Nat := 4; let s : State := (State.serv.wf (SLP_PAIRSTAT.STATE p) 8)
    (s.runsLocked p = false) ∧ (s.runsSplit p = false)) ∧
    (let p : Fin 3 := 1; let n : Fin 8 := 3; let k : Fin 32 := 9; let s : State := (State.serv)
    (s.on = true) ∧ (s.tly.diff = [])) ∧
    (let p : Fin 3 := 1; let n : Fin 256 := 144; let s : State := (State.serv)
    (s.on = true)) ∧
    (let p : Fin 3 := 1; let b : List Byte := [1, 2]; let s : State := (State.serv)
    (s.on = true)) ∧
    (let p : Fin 3 := 1; let b : List Byte := [1, 2]; let s : State := (State.serv)
    (s.on = true)) ∧
    (let p : Fin 3 := 1; let i : Fin 2 := 1; let k : Fin 256 := 77; let s : State := (State.serv)
    (s.on = true)) ∧
    (let p : Fin 3 := 1; let o : CoreOut := { token := 77, addr := 0x20000010, data := 5, bytes := 15, load := false }; let l : List DelayEntry := []; let k : Fin 64 := 9; let s : State := ((let a : State := (State.serv); a.setPair p { a.pair p with fifo := [{ out := o, par := outParity o }] }))
    (s.on = true) ∧ ((s.pair p).fifo = { out := o, par := outParity o } :: l)) :=
  by
  iterate 28 refine And.intro (by decide +kernel) ?_
  decide +kernel

theorem wit_PairCheckpoints :
    (let p : Fin 3 := 1; let f : Option (Fin 2097152) := none; let s : State := ((let a : State := ({ (State.serv.wf (SLP_PAIRSTAT.STATE p) 4 |>.wf (SLP_PAIRSTAT.LATENT p) 0 |>.wf (SLP_PAIRSTAT.SPLITREQ p) 0 : State) with tcm := [(8 + 2 * p.val, [(0x100404, 9)]), (9 + 2 * p.val, [(0x100404, 9)])], coreRegs := [(8 + 2 * p.val, [1, 2]), (9 + 2 * p.val, [1, 2])] }); a.setPair p { a.pair p with copy0 := { stamp := 3, regs := [1, 2], tcm := [(0x100004, 9)], bad := [] }, copy1 := { stamp := 4, regs := [1, 3], tcm := [(0x100004, 8)], bad := [] }, dirty := [0, 3], ck := 60, lead := 90, trail := 90 }))
    (s.pairSt p = pairCkpt) ∧ ((s.pair p).fifo = []) ∧ ((s.pair p).trail = (s.pair p).lead) ∧ (s.exerciseOk p = true) ∧ ((s.disturbed (s.otherCore p) f).coreCrc (8 + 2 * p.val) = (s.disturbed (s.otherCore p) f).coreCrc (9 + 2 * p.val)) ∧ (s.latent p = false ∨ (s.pair p).resyncEnd = true) ∧ (s.rb (SLP_PAIRSTAT.SPLITREQ p) = false)) ∧
    (let p : Fin 3 := 1; let f : Option (Fin 2097152) := none; let ch : Fin 8 := 0; let s : State := ((let a : State := (State.serv.wf (SLP_PAIRSTAT.STATE p) 4 |>.wf (SLP_PAIRSTAT.LATENT p) 0 |>.wf (SLP_PAIRSTAT.SPLITREQ p) 1); a.setPair p { a.pair p with splitCh := some 0, events := [] }))
    (s.pairSt p = pairCkpt) ∧ ((s.pair p).fifo = []) ∧ ((s.pair p).trail = (s.pair p).lead) ∧ (s.exerciseOk p = true) ∧ ((s.disturbed (s.otherCore p) f).coreCrc (8 + 2 * p.val) = (s.disturbed (s.otherCore p) f).coreCrc (9 + 2 * p.val)) ∧ (s.latent p = false) ∧ (s.rb (SLP_PAIRSTAT.SPLITREQ p) = true) ∧ ((s.pair p).splitCh = some ch.val) ∧ ((s.pair p).events = [])) ∧
    (let p : Fin 3 := 1; let f : Option (Fin 2097152) := none; let s : State := ((let a : State := ({ (State.serv.wf (SLP_PAIRSTAT.STATE p) 4 |>.wf (SLP_PAIRSTAT.LATENT p) 0 |>.wf (SLP_PAIRSTAT.SPLITREQ p) 0 : State) with tcm := [(8 + 2 * p.val, [(0x100404, 9)]), (9 + 2 * p.val, [(0x100404, 8)])], coreRegs := [(8 + 2 * p.val, [1, 2]), (9 + 2 * p.val, [1, 2])] }); a.setPair p { a.pair p with copy0 := { stamp := 3, regs := [1, 2], tcm := [(0x100004, 9)], bad := [] }, copy1 := { stamp := 4, regs := [1, 3], tcm := [(0x100004, 8)], bad := [] }, dirty := [0, 3], ck := 60, lead := 90, trail := 90 }))
    (s.pairSt p = pairCkpt) ∧ ((s.pair p).fifo = []) ∧ ((s.pair p).trail = (s.pair p).lead) ∧ (s.exerciseOk p = true) ∧ ((s.disturbed (s.otherCore p) f).coreCrc (8 + 2 * p.val) ≠ (s.disturbed (s.otherCore p) f).coreCrc (9 + 2 * p.val)) ∧ (s.latent p = false) ∧ ((s.pair p).resyncEnd = false) ∧ (s.rb (SLP_PAIRSTAT.SPLITREQ p) = false) ∧ ((s.pair p).log.length < 4096)) ∧
    (let p : Fin 3 := 1; let f : Option (Fin 2097152) := none; let s : State := ((let a : State := ({ (State.serv.wf (SLP_PAIRSTAT.STATE p) 4 |>.wf (SLP_PAIRSTAT.LATENT p) 0 : State) with tcm := [(8 + 2 * p.val, [(0x100404, 9)]), (9 + 2 * p.val, [(0x100404, 8)])], coreRegs := [(8 + 2 * p.val, [1, 2]), (9 + 2 * p.val, [1, 2])] }); a.setPair p { a.pair p with copy0 := { stamp := 3, regs := [1, 2], tcm := [(0x100004, 9)], bad := [] }, copy1 := { stamp := 4, regs := [1, 3], tcm := [(0x100004, 8)], bad := [] }, dirty := [0, 3], ck := 60, log := List.replicate 4096 (.load 1 2 3) }))
    (s.pairSt p = pairCkpt) ∧ ((s.pair p).fifo = []) ∧ ((s.pair p).trail = (s.pair p).lead) ∧ (s.exerciseOk p = true) ∧ ((s.disturbed (s.otherCore p) f).coreCrc (8 + 2 * p.val) ≠ (s.disturbed (s.otherCore p) f).coreCrc (9 + 2 * p.val)) ∧ (s.latent p = false) ∧ ((s.pair p).resyncEnd = false) ∧ ((s.pair p).logDue = false) ∧ (4096 ≤ (s.pair p).log.length)) ∧
    (let p : Fin 3 := 1; let f : Option (Fin 2097152) := none; let s : State := ((let a : State := (State.serv.wf (SLP_PAIRSTAT.STATE p) 4); a.setPair p { a.pair p with lead := 9, trail := 7 }))
    (s.pairSt p = pairCkpt) ∧ ((s.pair p).trail ≠ (s.pair p).lead)) ∧
    (let p : Fin 3 := 1; let f : Option (Fin 2097152) := none; let s : State := ((let a : State := ({ (State.serv.wf (SLP_PAIRSTAT.STATE p) 4 : State) with tcm := [(8 + 2 * p.val, [(0x100404, 9)]), (9 + 2 * p.val, [(0x100404, 8)])], coreRegs := [(8 + 2 * p.val, [1, 2]), (9 + 2 * p.val, [1, 2])] }); a.setPair p { a.pair p with copy0 := { stamp := 3, regs := [1, 2], tcm := [(0x100004, 9)], bad := [] }, copy1 := { stamp := 4, regs := [1, 3], tcm := [(0x100004, 8)], bad := [] }, dirty := [0, 3], ck := 60, lead := 90, trail := 90, resyncEnd := true }))
    (s.pairSt p = pairCkpt) ∧ ((s.pair p).fifo = []) ∧ ((s.pair p).trail = (s.pair p).lead) ∧ (s.exerciseOk p = true) ∧ ((s.disturbed (s.otherCore p) f).coreCrc (8 + 2 * p.val) ≠ (s.disturbed (s.otherCore p) f).coreCrc (9 + 2 * p.val)) ∧ ((s.pair p).resyncEnd = true) ∧ (s.recent p < 2) ∧ ((s.pair p).copy0.bad = [])) ∧
    (let p : Fin 3 := 1; let f : Option (Fin 2097152) := none; let s : State := ({ ({ (State.serv.wf (SLP_PAIRSTAT.STATE p) 4 : State) with tcm := [(8 + 2 * p.val, [(0x100404, 9)]), (9 + 2 * p.val, [(0x100404, 9)])], coreRegs := [(8 + 2 * p.val, [1, 2]), (9 + 2 * p.val, [1, 2])] } : State) with cmpStuck := [(2 * p.val + 1, some true)] })
    (s.pairSt p = pairCkpt) ∧ ((s.pair p).fifo = []) ∧ ((s.pair p).trail = (s.pair p).lead) ∧ (s.exerciseOk p = false) ∧ ((s.disturbed (s.otherCore p) f).coreCrc (8 + 2 * p.val) = (s.disturbed (s.otherCore p) f).coreCrc (9 + 2 * p.val))) ∧
    (let p : Fin 3 := 1; let f : Option (Fin 2097152) := none; let s : State := ({ (State.serv.wf (SLP_PAIRSTAT.STATE p) 4 |>.wf (SLP_PAIRSTAT.LATENT p) 1 : State) with tcm := [(8 + 2 * p.val, [(0x100404, 9)]), (9 + 2 * p.val, [(0x100404, 8)])], coreRegs := [(8 + 2 * p.val, [1, 2]), (9 + 2 * p.val, [1, 2])] })
    (s.pairSt p = pairCkpt) ∧ ((s.pair p).fifo = []) ∧ ((s.pair p).trail = (s.pair p).lead) ∧ (s.latent p = true) ∧ ((s.pair p).resyncEnd = false) ∧ (s.exerciseOk p = true)) ∧
    (let p : Fin 3 := 1; let f : Option (Fin 2097152) := none; let s : State := ((let a : State := (State.serv.wf (SLP_PAIRSTAT.STATE p) 0); a.setPair p { a.pair p with exBit := 132 }))
    (mget none s.cmpStuck (2 * p.val) = none) ∧ (mget none s.cmpStuck (2 * p.val + 1) = none) ∧ ((s.pair p).exBit < 133)) ∧
    (let p : Fin 3 := 1; let s : State := ((let a : State := (State.serv.wf (SLP_PAIRSTAT.STATE p) 5); a.setPair p { a.pair p with lead := 9, rel := 7, log := [.load 8 4 4, .event 3 1 2 2] }))
    (s.pairSt p = pairRestart) ∧ ((s.pair p).began + 2000 ≤ s.gt) ∧ ((s.pair p).replayed = true)) ∧
    (let p : Fin 3 := 1; let s : State := ((let a : State := (State.serv.wf (SLP_PAIRSTAT.STATE p) 5); a.setPair p { a.pair p with lead := 9, rel := 7, log := [.load 10 4 4, .event 3 1 2 2] }))
    ((s.pair p).replayed = false)) ∧
    (let p : Fin 3 := 1; let s : State := ((let a : State := (State.serv.wf (SLP_PAIRSTAT.STATE p) 5); a.setPair p { a.pair p with lead := 9, rel := 7, again := [(8, {})] }))
    ((s.pair p).again ≠ [])) ∧
    (let p : Fin 3 := 1; let s : State := ((let a : State := (State.serv.wf (SLP_PAIRSTAT.STATE p) 6); a.setPair p { a.pair p with lead := 9, rel := 7, stop := 9 }))
    (s.pairSt p = pairResync) ∧ ((s.pair p).replayed = true) ∧ ((s.pair p).stop ≤ (s.pair p).lead)) ∧
    (let p : Fin 3 := 1; let o : Bool := true; let c : CkCopy := { stamp := 4, regs := [1, 3], tcm := [(0x100004, 8)], bad := [] }; let s : State := ((let a : State := (State.serv.wf (SLP_PAIRSTAT.STATE p) 1 |>.wf (SLP_PAIRSTAT.LATENT p) 1); a.setPair p { a.pair p with copy0 := { stamp := 3, regs := [1, 2], tcm := [(0x100004, 9)], bad := [] }, copy1 := { stamp := 4, regs := [1, 3], tcm := [(0x100004, 8)], bad := [] }, dirty := [0, 3], ck := 60, resyncDue := true }))
    (s.pairSt p = pairLocked) ∧ (s.latent p = true) ∧ ((s.pair p).resyncDue = true) ∧ ((s.pair p).newest = some c)) ∧
    (let p : Fin 3 := 1; let o : Bool := true; let n : Fin 2097152 := 77; let c : CkCopy := { stamp := 4, regs := [1, 3], tcm := [(0x100004, 8)], bad := [] }; let k : Nat := 11; let m : List Host.Cell := [(0x100004, 8)]; let s : State := ((let a : State := (State.serv.wf (SLP_PAIRSTAT.STATE p) 1 |>.wf (SLP_PAIRSTAT.LATENT p) 1 |>.wf (SLP_PAIRCFG.DESIG p) 0); a.setPair p { a.pair p with copy0 := { stamp := 3, regs := [1, 2], tcm := [(0x100004, 9)], bad := [] }, copy1 := { stamp := 4, regs := [1, 3], tcm := [(0x100004, 8)], bad := [] }, dirty := [0, 3], ck := 60, resyncDue := true }))
    (s.pairSt p = pairLocked) ∧ (s.latent p = true) ∧ ((s.pair p).resyncDue = true) ∧ ((s.pair p).newest = some c) ∧ (k = (if o then s.otherCore p else s.desigCore p)) ∧ (m = copyPages (s.pair p).dirty c.tcm (mget [] s.tcm k))) ∧
    (let p : Fin 3 := 1; let v : Fin 32 := 5; let e : PortEvent := { vector := 5, src := 3, owner := 2, at_ := 5, d := some 10 }; let s : State := ((let a : State := (State.serv.wf (SLP_PAIRSTAT.STATE p) 1); a.setPair p { a.pair p with events := [{ vector := 9, src := 1, owner := 2, at_ := 5, d := some 11 }, { vector := 5, src := 3, owner := 2, at_ := 5, d := some 10 }, { vector := 1, src := 3, owner := 2, at_ := 6, d := some 12 }] }))
    (s.pairSt p = pairLocked) ∧ (nextEvent (s.pair p).events = some e) ∧ (e.named v = true) ∧ (e.src < 1024) ∧ ((s.pair p).log.length < 4095)) ∧
    (let p : Fin 3 := 1; let v : Fin 32 := 5; let e : PortEvent := { vector := 5, src := 1024, owner := 2, at_ := 5, d := some 10 }; let s : State := ((let a : State := ({ State.serv with tly := { State.serv.tly with traps := [] } }.wf (SLP_PAIRSTAT.STATE p) 1); a.setPair p { a.pair p with events := [{ vector := 9, src := 1, owner := 2, at_ := 5, d := some 11 }, { vector := 5, src := 1024, owner := 2, at_ := 5, d := some 10 }, { vector := 1, src := 3, owner := 2, at_ := 6, d := some 12 }] }))
    (s.pairSt p = pairLocked) ∧ (nextEvent (s.pair p).events = some e) ∧ (1024 ≤ e.src) ∧ (s.trapOf (2 + p) = none)) ∧
    (let p : Fin 3 := 1; let v : Fin 32 := 5; let e : PortEvent := { vector := 5, src := 1024, owner := 2, at_ := 5, d := some 10 }; let s : State := ((let a : State := ({ State.serv with tly := { State.serv.tly with traps := [(2 + p.val, false)] } }.wf (SLP_PAIRSTAT.STATE p) 1); a.setPair p { a.pair p with events := [{ vector := 9, src := 1, owner := 2, at_ := 5, d := some 11 }, { vector := 5, src := 1024, owner := 2, at_ := 5, d := some 10 }, { vector := 1, src := 3, owner := 2, at_ := 6, d := some 12 }] }))
    (s.pairSt p = pairLocked) ∧ (nextEvent (s.pair p).events = some e) ∧ (1024 ≤ e.src) ∧ (s.trapOf (2 + p) ≠ none)) ∧
    (let p : Fin 3 := 1; let v : Fin 32 := 5; let e : PortEvent := { vector := 5, src := 3, owner := 2, at_ := 5, d := some 10 }; let d : Nat := 10; let l : List (Nat × PortEvent) := [(12, { vector := 5, src := 4, owner := 2, at_ := 5, d := some 10 })]; let s : State := ((let a : State := (State.serv.wf (SLP_PAIRSTAT.STATE p) 6); a.setPair p { a.pair p with again := [(10, { vector := 5, src := 3, owner := 2, at_ := 5, d := some 10 }), (12, { vector := 5, src := 4, owner := 2, at_ := 5, d := some 10 })] }))
    (s.pairSt p ≠ pairLocked) ∧ (s.coresRun p = true) ∧ ((s.pair p).again = (d, e) :: l) ∧ (e.named v = true) ∧ (e.src < 1024)) ∧
    (let p : Fin 3 := 1; let v : Fin 32 := 5; let e : PortEvent := { vector := 5, src := 3, owner := 2, at_ := 5, d := some 10 }; let s : State := ((let a : State := (State.serv.wf (SLP_PAIRSTAT.STATE p) 1 |>.wf (SLP_PAIRSTAT.LATENT p) 1); a.setPair p { a.pair p with events := [{ vector := 9, src := 1, owner := 2, at_ := 5, d := some 11 }, { vector := 5, src := 3, owner := 2, at_ := 5, d := some 10 }, { vector := 1, src := 3, owner := 2, at_ := 6, d := some 12 }], logDue := decide (State.serv.now % 2 = 0), log := List.replicate 4095 (.load 1 2 3) }))
    (s.pairSt p = pairLocked) ∧ (s.latent p = true) ∧ (nextEvent (s.pair p).events = some e) ∧ (e.named v = true) ∧ (e.src < 1024) ∧ (4095 ≤ (s.pair p).log.length)) :=
  by
  iterate 19 refine And.intro (by decide +kernel) ?_
  decide +kernel

theorem wit_PairSplitRejoin :
    (let ch : Fin 8 := 0; let pair : Byte := 1; let r : HmbRun := { op := 0x103, tag := 7, takenAt := 3, cmd := some (.slpSplit ch pair) }; let s : State := (((State.serv.wf (SLP_PAIRSTAT.STATE 1) 8).setChan ch { (State.serv.chan ch) with run := some r }).wb (HMB_CHCFG.EN ch) true)
    (s.Asked ch (.slpSplit ch pair) r) ∧ (2 < pair.toNat ∨ s.pairSt pair.toNat = pairOff ∨ s.pairSt pair.toNat = pairFailed)) ∧
    (let ch : Fin 8 := 0; let pair : Byte := 1; let r : HmbRun := { op := 0x103, tag := 7, takenAt := 3, cmd := some (.slpSplit ch pair) }; let s : State := (((State.serv.wf (SLP_PAIRSTAT.STATE 1) 3).setChan ch { (State.serv.chan ch) with run := some r }).wb (HMB_CHCFG.EN ch) true)
    (s.Asked ch (.slpSplit ch pair) r) ∧ (pair.toNat ≤ 2) ∧ (s.pairSt pair.toNat = pairSplit ∨ s.pairSt pair.toNat = pairSingle)) ∧
    (let ch : Fin 8 := 0; let pair : Byte := 1; let r : HmbRun := { op := 0x103, tag := 7, takenAt := 3, cmd := some (.slpSplit ch pair) }; let s : State := (((State.serv.wf (SLP_PAIRSTAT.STATE 1) 1 |>.wf (SLP_PAIRSTAT.LATENT 1) 1).setChan ch { (State.serv.chan ch) with run := some r }).wb (HMB_CHCFG.EN ch) true)
    (s.Asked ch (.slpSplit ch pair) r) ∧ (pair.toNat ≤ 2) ∧ (s.pairSt pair.toNat = pairLocked) ∧ (s.latent pair.toNat = true ∨ s.rb (SLP_PAIRSTAT.SPLITREQ pair.toNat) = true)) ∧
    (let ch : Fin 8 := 0; let pair : Byte := 1; let r : HmbRun := { op := 0x103, tag := 7, takenAt := 3, cmd := some (.slpSplit ch pair) }; let s : State := (((State.serv.wf (SLP_PAIRSTAT.STATE 1) (5 + State.serv.now % 3)).setChan ch { (State.serv.chan ch) with run := some r }).wb (HMB_CHCFG.EN ch) true)
    (s.Asked ch (.slpSplit ch pair) r) ∧ (pair.toNat ≤ 2) ∧ (s.pairSt pair.toNat = pairRestart ∨ s.pairSt pair.toNat = pairResync ∨ s.pairSt pair.toNat = pairRejoin)) ∧
    (let ch : Fin 8 := 0; let pair : Byte := 1; let r : HmbRun := { op := 0x103, tag := 7, takenAt := 3, cmd := some (.slpSplit ch pair) }; let s : State := (((State.serv.wf (SLP_PAIRSTAT.STATE 1) 4 |>.wf (SLP_PAIRSTAT.LATENT 1) 1).setChan ch { (State.serv.chan ch) with run := some r }).wb (HMB_CHCFG.EN ch) true)
    (s.Asked ch (.slpSplit ch pair) r) ∧ (pair.toNat ≤ 2) ∧ (s.pairSt pair.toNat = pairCkpt) ∧ (s.latent pair.toNat = true ∨ s.rb (SLP_PAIRSTAT.SPLITREQ pair.toNat) = true)) ∧
    (let p : Fin 3 := 1; let f : Option (Fin 2097152) := none; let ch : Fin 8 := 0; let s : State := (((let a : State := ({ (State.serv.wf (SLP_PAIRSTAT.STATE p) 4 |>.wf (SLP_PAIRSTAT.LATENT p) 0 |>.wf (SLP_PAIRSTAT.SPLITREQ p) 1 : State) with tcm := [(8 + 2 * p.val, [(0x100404, 9)]), (9 + 2 * p.val, [(0x100404, 8)])], coreRegs := [(8 + 2 * p.val, [1, 2]), (9 + 2 * p.val, [1, 2])] }); a.setPair p { a.pair p with splitCh := some 0, resyncEnd := false, lead := 90, trail := 90, fifo := [], log := [] })).setChan 0 { run := some { op := 0x103 } })
    (s.pairSt p = pairCkpt) ∧ ((s.pair p).fifo = []) ∧ ((s.pair p).trail = (s.pair p).lead) ∧ (s.exerciseOk p = true) ∧ ((s.disturbed (s.otherCore p) f).coreCrc (8 + 2 * p.val) ≠ (s.disturbed (s.otherCore p) f).coreCrc (9 + 2 * p.val)) ∧ (s.latent p = false) ∧ ((s.pair p).resyncEnd = false) ∧ (s.rb (SLP_PAIRSTAT.SPLITREQ p) = true) ∧ ((s.pair p).splitCh = some ch.val) ∧ ((s.pair p).log.length < 4096) ∧ ((s.chan ch).run.isSome = true)) ∧
    (let ch : Fin 8 := 0; let pair : Byte := 1; let r : HmbRun := { op := 0x103, tag := 7, takenAt := 3, cmd := some (.slpSplit ch pair) }; let s : State := (((State.serv.wf (SLP_PAIRSTAT.STATE 1) 1 |>.wf (SLP_PAIRSTAT.LATENT 1) 0 |>.wf (SLP_PAIRSTAT.SPLITREQ 1) 0).setChan ch { (State.serv.chan ch) with run := some r }).wb (HMB_CHCFG.EN ch) true)
    (s.Asked ch (.slpSplit ch pair) r) ∧ (pair.toNat ≤ 2) ∧ (s.pairSt pair.toNat = pairLocked ∨ s.pairSt pair.toNat = pairCkpt) ∧ (s.latent pair.toNat = false) ∧ (s.rb (SLP_PAIRSTAT.SPLITREQ pair.toNat) = false)) ∧
    (let ch : Fin 8 := 0; let pair : Byte := 1; let r : HmbRun := { op := 0x104, tag := 7, takenAt := 3, cmd := some (.slpRejoin ch pair) }; let s : State := (((State.serv.wf (SLP_PAIRSTAT.STATE 1) 8).setChan ch { (State.serv.chan ch) with run := some r }).wb (HMB_CHCFG.EN ch) true)
    (s.Asked ch (.slpRejoin ch pair) r) ∧ (2 < pair.toNat ∨ s.pairSt pair.toNat = pairOff ∨ s.pairSt pair.toNat = pairFailed)) ∧
    (let ch : Fin 8 := 0; let pair : Byte := 1; let r : HmbRun := { op := 0x104, tag := 7, takenAt := 3, cmd := some (.slpRejoin ch pair) }; let s : State := (((State.serv.wf (SLP_PAIRSTAT.STATE 1) 1).setChan ch { (State.serv.chan ch) with run := some r }).wb (HMB_CHCFG.EN ch) true)
    (s.Asked ch (.slpRejoin ch pair) r) ∧ (pair.toNat ≤ 2) ∧ (s.runsLocked pair.toNat = true)) ∧
    (let ch : Fin 8 := 0; let pair : Byte := 1; let r : HmbRun := { op := 0x104, tag := 7, takenAt := 3, cmd := some (.slpRejoin ch pair) }; let s : State := (((State.serv.wf (SLP_PAIRSTAT.STATE 1) 7).setChan ch { (State.serv.chan ch) with run := some r }).wb (HMB_CHCFG.EN ch) true)
    (s.Asked ch (.slpRejoin ch pair) r) ∧ (pair.toNat ≤ 2) ∧ (s.pairSt pair.toNat = pairRejoin)) ∧
    (let ch : Fin 8 := 0; let pair : Byte := 1; let r : HmbRun := { op := 0x104, tag := 7, takenAt := 3, cmd := some (.slpRejoin ch pair) }; let s : State := (((State.serv.wf (SLP_PAIRSTAT.STATE 1) 2 |>.wf (SLP_PAIRSTAT.REJOINREQ 1) 0).setChan ch { (State.serv.chan ch) with run := some r }).wb (HMB_CHCFG.EN ch) true)
    (s.Asked ch (.slpRejoin ch pair) r) ∧ (pair.toNat ≤ 2) ∧ (s.pairSt pair.toNat = pairSplit ∨ s.pairSt pair.toNat = pairSingle) ∧ (s.rb (SLP_PAIRSTAT.REJOINREQ pair.toNat) = false)) ∧
    (let p : Fin 3 := 1; let s : State := ((let a : State := ({ (State.serv.wf (SLP_PAIRSTAT.STATE p) 7 |>.wf (SLP_PAIRCFG.DESIG p) 1 : State) with tcm := [(8 + 2 * p.val, [(0x100404, 9)]), (9 + 2 * p.val, [(0x100404, 8)])], coreRegs := [(8 + 2 * p.val, [1, 2]), (9 + 2 * p.val, [1, 2])] }); a.setPair p { a.pair p with rejoinAt := State.serv.gt - 5, rejoinCh := none, lead := 90 }))
    (s.pairSt p = pairRejoin) ∧ (s.gt ≤ (s.pair p).rejoinAt + 200000) ∧ (s.exerciseOk p = true) ∧ ((s.pair p).rejoinCh = none)) ∧
    (let p : Fin 3 := 1; let n : Fin 2097152 := 77; let s : State := ((let a : State := ({ (State.serv.wf (SLP_PAIRSTAT.STATE p) 7 |>.wf (SLP_PAIRCFG.DESIG p) 1 : State) with tcm := [(8 + 2 * p.val, [(0x100404, 9)]), (9 + 2 * p.val, [(0x100404, 9)])], coreRegs := [(8 + 2 * p.val, [1, 2]), (9 + 2 * p.val, [1, 2])] }); a.setPair p { a.pair p with rejoinAt := State.serv.gt - 5, rejoinCh := none, events := [] }))
    (s.pairSt p = pairRejoin) ∧ (s.gt ≤ (s.pair p).rejoinAt + 200000) ∧ (s.exerciseOk p = true) ∧ ((s.pair p).rejoinCh = none) ∧ ((s.pair p).events = []) ∧ (s.coreCrc (s.desigCore p) ≠ (({ s with tcm := mset s.tcm (s.otherCore p) (mget [] s.tcm (s.desigCore p)), coreRegs := mset s.coreRegs (s.otherCore p) (mget [] s.coreRegs (s.desigCore p)) } : State).tcmFlip (s.otherCore p) n).coreCrc (s.otherCore p))) ∧
    (let p : Fin 3 := 1; let n : Fin 2097152 := 77; let s : State := ((let a : State := (State.serv.wf (SLP_PAIRSTAT.STATE p) 7 |>.wf (SLP_PAIRCFG.DESIG p) 1); a.setPair p { a.pair p with rejoinAt := State.serv.gt - 5, rejoinCh := none, events := [] }))
    (s.pairSt p = pairRejoin) ∧ (s.gt ≤ (s.pair p).rejoinAt + 200000) ∧ (s.exerciseOk p = true) ∧ ((s.pair p).rejoinCh = none) ∧ ((s.pair p).events = []) ∧ (mget [] s.tcm (s.desigCore p) = []) ∧ (mget [] s.coreRegs (s.desigCore p) = [])) ∧
    (let p : Fin 3 := 1; let s : State := ({ ((let a : State := (State.serv.wf (SLP_PAIRSTAT.STATE p) 7); a.setPair p { a.pair p with rejoinAt := State.serv.gt - 5 }) : State) with cmpStuck := [(2 * p.val, some false)] })
    (s.pairSt p = pairRejoin) ∧ (s.gt ≤ (s.pair p).rejoinAt + 200000) ∧ (s.exerciseOk p = false)) ∧
    (let p : Fin 3 := 1; let s : State := ((let a : State := (State.serv.wf (SLP_PAIRSTAT.STATE p) 7); a.setPair p { a.pair p with rejoinAt := 5, rejoinCh := none, events := [] }))
    (s.pairSt p = pairRejoin) ∧ ((s.pair p).rejoinAt + 200000 < s.gt) ∧ ((s.pair p).rejoinCh = none) ∧ ((s.pair p).events = [])) ∧
    (let p : Fin 3 := 1; let f : Option (Fin 2097152) := none; let s : State := (let a := State.serv.wf (SLP_PAIRSTAT.STATE p) 7; a.setPair p { State.serv.pair p with rejoinAt := State.serv.gt - 5 })
    (s.pairSt p = pairRejoin) ∧ (s.gt ≤ (s.pair p).rejoinAt + 200000)) ∧
    (let p : Fin 3 := 1; let s : State := (let a := State.serv.wf (SLP_PAIRSTAT.STATE p) 7; a.setPair p { State.serv.pair p with rejoinAt := State.serv.gt - 300000 })
    (s.pairSt p = pairRejoin) ∧ ((s.pair p).rejoinAt + 200000 < s.gt)) :=
  by
  iterate 17 refine And.intro (by decide +kernel) ?_
  decide +kernel

theorem wit_PwmRunAndCommit :
    (let req : Fin 32 := 1; let b : Fin 8 := 2; let s : State := (((((State.serv.wf (LANE_GRANT.OWNER b) req).wf (PWM_BANKCTL.RUN b) 0).wf (PWM_BANKCFG.PMIN b) 10000).wf (PWM_LEGSET.MODE (3 * b)) 1))
    (s.on = true) ∧ (s.mayWrite req b false = true) ∧ (s.rb (PWM_BANKCTL.RUN b) = false) ∧ (s.rf (PWM_BANKCFG.PMIN b) ≠ 0)) ∧
    (let req : Fin 32 := 1; let b : Fin 8 := 2; let s : State := (((((State.serv.wf (LANE_GRANT.OWNER b) req).wf (PWM_BANKCTL.RUN b) 1).wf (PWM_BANKCFG.DEST b) 0).wf (PWM_LEGSET.MODE (3 * b)) 1))
    (s.on = true) ∧ (s.mayWrite req b false = true) ∧ (s.rb (PWM_BANKCTL.RUN b) = true) ∧ (s.linkBank b = false)) ∧
    (let req : Fin 32 := 1; let b : Fin 8 := 2; let s : State := (((((State.serv.wf (LANE_GRANT.OWNER b) req).wf (PWM_BANKCTL.RUN b) 1).wf (PWM_BANKCFG.DEST b) 0).wf (PWM_BANKCFG.PMIN b) 10000))
    (s.on = true) ∧ (s.mayWrite req b false = true) ∧ (s.bankEnabled b = true)) ∧
    (let req : Fin 32 := 1; let b : Fin 8 := 2; let s : State := (((State.serv.wf (LANE_GRANT.OWNER b) req).wf (PWM_BANKCTL.RUN b) 0))
    (s.on = true) ∧ (s.mayWrite req b false = true) ∧ (s.bankEnabled b = false)) ∧
    (let b : Fin 8 := 2; let q : CommitReq := { at_ := 9 }; let rest : List CommitReq := []; let s : State := ((((State.serv.wf (PWM_BANKCTL.RUN b) 1).wf (PWM_BANKCFG.DEST b) 0).setBank b { started := true, nextB := State.serv.gt + 50000, reqs := q :: rest }))
    ((s.bank b).reqs = q :: rest) ∧ ((s.bank b).started = true) ∧ (((s.bank b).decided = true ∨ q.at_ < s.reloadAt b)) ∧ (q.entry = none) ∧ (q.stopped = false) ∧ (s.rb (PWM_BANKCTL.RUN b) = true)) ∧
    (let b : Fin 8 := 3; let q : CommitReq := { entry := some 9 }; let rest : List CommitReq := []; let s : State := ((State.serv.wf (PWM_BANKCTL.RUN b) 1).setBank b { State.serv.bank b with reqs := q :: rest, started := true, decided := true })
    ((s.bank b).reqs = q :: rest) ∧ ((s.bank b).started = true) ∧ (((s.bank b).decided = true ∨ q.at_ < s.reloadAt b)) ∧ (q.stopped = false) ∧ (s.rb (PWM_BANKCTL.RUN b) = true)) ∧
    (let b : Fin 8 := 3; let q : CommitReq := { entry := some 9 }; let rest : List CommitReq := []; let s : State := ((State.serv.wf (PWM_BANKCTL.RUN b) 1 |>.wf (PWM_PERIODSH.PERIOD b) 100000 |>.wf (PWM_BANKCFG.PMIN b) 100).setBank b { State.serv.bank b with reqs := q :: rest, started := false, decided := false })
    ((s.bank b).reqs = q :: rest) ∧ ((s.bank b).started = false) ∧ (q.stopped = false) ∧ (s.rb (PWM_BANKCTL.RUN b) = true) ∧ (s.periodOk b (s.shadows b).period = true)) :=
  by
  iterate 6 refine And.intro (by decide +kernel) ?_
  decide +kernel

theorem wit_PwmReload :
    (let b : Fin 8 := 2; let set : BankSet := { period := 50000 }; let s : State := (((((State.serv.wf (PWM_BANKCFG.DEST b) 0).wf (PWM_BANKCFG.PMIN b) 10000).setN (PWM_LEGSET.adr (3*b)) 0).setN (PWM_LEGSET.adr (3*b+1)) 0).setN (PWM_LEGSET.adr (3*b+2)) 0 |>.setBank b { started := true, nextB := State.serv.gt + 100, pend := some set })
    ((s.bank b).started = true) ∧ ((s.bank b).decided = false) ∧ (s.reloadAt b ≤ s.gt) ∧ ((s.bank b).reqs = []) ∧ ((s.bank b).pend = some set) ∧ (s.periodOk b set.period = true) ∧ (s.linkBank b = false) ∧ ((∀ l : Fin 3, s.rf (PWM_LEGSET.MODE (3 * b + l)) = 0))) ∧
    (let b : Fin 8 := 2; let set : BankSet := { period := 5 }; let s : State := (((((State.serv.wf (PWM_BANKCFG.DEST b) 0).wf (PWM_BANKCFG.PMIN b) 10000).wf (PWM_BANKSTAT.RUNNING b) 0)).setBank b { started := true, nextB := State.serv.gt + 100, pend := some set })
    ((s.bank b).started = true) ∧ ((s.bank b).decided = false) ∧ (s.reloadAt b ≤ s.gt) ∧ ((s.bank b).reqs = []) ∧ ((s.bank b).pend = some set) ∧ (s.periodOk b set.period = false) ∧ (s.linkBank b = false) ∧ (s.rb (PWM_BANKSTAT.RUNNING b) = false)) ∧
    (let b : Fin 8 := 2; let set : BankSet := { period := 50000, l0 := { c := 700 } }; let s : State := ((State.serv.wf (PWM_BANKCFG.DEST b) 0).setBank b { started := true, decided := true, nextB := State.serv.gt, coming := some set })
    ((s.bank b).started = true) ∧ ((s.bank b).decided = true) ∧ ((s.bank b).nextB ≤ s.gt) ∧ ((s.bank b).coming = some set) ∧ (s.linkBank b = false)) ∧
    (let b : Fin 8 := 2; let set : BankSet := { period := 50000 }; let s : State := ((((State.serv.wf (PWM_BANKCFG.PMIN b) 10000).wf (PWM_LEGSET.MODE (3 * b)) 1).wf (PWM_LEGSET.DT (3 * b)) 500).setBank b { started := true, nextB := State.serv.gt + 100, pend := some set })
    ((s.bank b).started = true) ∧ ((s.bank b).decided = false) ∧ (s.reloadAt b ≤ s.gt) ∧ ((∀ q ∈ (s.bank b).reqs, s.reloadAt b < q.at_ + 20)) ∧ ((s.bank b).pend = some set) ∧ (s.periodOk b set.period = true)) ∧
    (let b : Fin 8 := 2; let s : State := (((State.serv.wf (PWM_BANKSTAT.RUNNING b) 1).wf (PWM_LEGSET.MODE (3 * b)) 1).setBank b { started := true, nextB := State.serv.gt + 100 })
    ((s.bank b).started = true) ∧ ((s.bank b).decided = false) ∧ (s.reloadAt b ≤ s.gt) ∧ ((∀ q ∈ (s.bank b).reqs, s.reloadAt b < q.at_ + 20)) ∧ ((s.bank b).pend = none) ∧ (s.rb (PWM_BANKSTAT.RUNNING b) = true)) ∧
    (let b : Fin 8 := 2; let s : State := (State.serv.setBank b { started := true, decided := true, nextB := State.serv.gt })
    ((s.bank b).started = true) ∧ ((s.bank b).decided = true) ∧ ((s.bank b).nextB ≤ s.gt)) ∧
    (let m : Fin 24 := 7; let e : Edge := { t := 64, hi := true, on := false }; let rest : List Edge := []; let s : State := ((State.serv.wf (PWM_LEGSET.MODE m) modeTimer).setLeg m { hiOn := true, plan := e :: rest })
    ((s.leg m).plan = e :: rest) ∧ (s.rf (PWM_LEGSET.MODE m) = modeTimer) ∧ (e.t ≤ 32 * s.gt + 31) ∧ (e.hi = true) ∧ (e.on = false)) ∧
    (let m : Fin 24 := 7; let e : Edge := { t := 64, hi := true, on := true }; let rest : List Edge := []; let s : State := ({ ((State.serv.wf (PWM_LEGSET.MODE m) modeTimer).wf (PWM_TRIPCFG.EN 2) 1 |>.wf (PWM_TRIPCFG.BLKLEG 2) m) with pwm := { State.serv.pwm with blank := [] } }.setLeg m { plan := e :: rest })
    ((s.leg m).plan = e :: rest) ∧ (s.rf (PWM_LEGSET.MODE m) = modeTimer) ∧ (e.t ≤ 32 * s.gt + 31) ∧ (e.hi = true) ∧ (e.on = true) ∧ ((s.leg m).hiOn = false) ∧ (s.pwm.blank = [])) ∧
    (let m : Fin 24 := 7; let e : Edge := { t := 64, hi := true, on := true }; let rest : List Edge := []; let s : State := ((((State.serv.wf (PWM_BANKCFG.DEST (m / 3)) 0).wf (PWM_LEGSET.MODE m) 1).setLeg m { plan := e :: rest }))
    ((s.leg m).plan = e :: rest) ∧ (s.linkBank (m / 3) = false) ∧ (s.rf (PWM_LEGSET.MODE m) ≠ modeTimer) ∧ (e.t ≤ 32 * s.gt + 31)) :=
  by
  iterate 8 refine And.intro (by decide +kernel) ?_
  decide +kernel

theorem wit_PwmTripsAndInterlock :
    (let b : Fin 8 := 2; let x : Nat := 28; let s : State := (State.serv.wf (PWM_BANKSTAT.RUNNING b) 0)
    (s.on = true) ∧ (28 ≤ x) ∧ (x ≤ 36) ∧ (s.rb (PWM_BANKSTAT.RUNNING b) = false)) ∧
    (let b : Fin 8 := 2; let x : Nat := 36; let s : State := (State.serv.wf (PWM_BANKSTAT.RUNNING b) 1)
    (s.on = true) ∧ (28 ≤ x) ∧ (x ≤ 36) ∧ (s.rb (PWM_BANKSTAT.RUNNING b) = true)) ∧
    (let b : Fin 8 := 2; let x : Nat := 27; let s : State := (State.serv.setBank b { calGood := some State.serv.now })
    (s.on = true) ∧ (x < 28 ∨ 36 < x) ∧ (s.now ≤ (s.bank b).calGood.getD s.pmu.releasedAt + 500000)) ∧
    (let b : Fin 8 := 2; let x : Nat := 27; let s : State := (State.serv.setBank b { calGood := some 5 })
    (s.on = true) ∧ (x < 28 ∨ 36 < x) ∧ ((s.bank b).calGood.getD s.pmu.releasedAt + 500000 < s.now) ∧ ((s.bank b).calEpisode = false)) ∧
    (let b : Fin 8 := 2; let g : Nat := 27; let s : State := (State.serv.setBank b { swapAt := some g, lastB := 50 })
    ((s.bank b).swapAt = some g) ∧ (g < (s.bank b).lastB)) ∧
    (let m : Fin 24 := 23; let s : State := ((State.serv.wf (PWM_LEGSET.MODE m) 1).setLeg m { hiOn := true, loOn := true })
    (s.on = true) ∧ (s.rf (PWM_LEGSET.MODE m) = modeComp ∨ s.rf (PWM_LEGSET.MODE m) = modeIndep) ∧ ((s.leg m).hiOn = true) ∧ ((s.leg m).loOn = true)) ∧
    (let k : Fin 4 := 2; let s : State := ((State.serv.wf (PWM_TRIPCFG.EN k) 1).wf PWM_TRIPSTAT.LEVEL 0 |>.wf (PWM_TRIPCFG.BANKS k) 6)
    (s.on = true) ∧ (s.rb (PWM_TRIPCFG.EN k) = true) ∧ (s.vioDead 1 = false) ∧ ((s.rf PWM_TRIPSTAT.LEVEL).testBit k = false) ∧ (s.blanked k = false)) ∧
    (let k : Fin 4 := 2; let s : State := ({ (State.serv.wf (PWM_TRIPCFG.EN k) 1).wf PWM_TRIPSTAT.LEVEL 0 with pwm := { State.serv.pwm with blank := [(k.val, 32 * State.serv.gt + 500)] } })
    (s.on = true) ∧ (s.rb (PWM_TRIPCFG.EN k) = true) ∧ (s.vioDead 1 = false) ∧ ((s.rf PWM_TRIPSTAT.LEVEL).testBit k = false) ∧ (s.blanked k = true)) ∧
    (let k : Fin 4 := 2; let s : State := ({ State.serv.wf PWM_TRIPSTAT.LEVEL 0 with pwm := { State.serv.pwm with blank := [(k.val, 500)] } })
    (mget 0 s.pwm.blank k ≠ 0) ∧ (s.blanked k = false) ∧ ((s.rf PWM_TRIPSTAT.LEVEL).testBit k = false ∨ s.pwm.blankHit.testBit k = false)) ∧
    (let k : Fin 4 := 2; let s : State := ({ State.serv.wf PWM_TRIPSTAT.LEVEL 15 with pwm := { State.serv.pwm with blank := [(k.val, 500)], blankHit := 15 } })
    (mget 0 s.pwm.blank k ≠ 0) ∧ (s.blanked k = false) ∧ ((s.rf PWM_TRIPSTAT.LEVEL).testBit k = true) ∧ (s.pwm.blankHit.testBit k = true)) ∧
    (let k : Fin 4 := 2; let s : State := (State.serv.wf PWM_TRIPSTAT.LEVEL 15)
    (s.on = true) ∧ (s.vioDead 1 = false)) :=
  by
  iterate 10 refine And.intro (by decide +kernel) ?_
  decide +kernel

theorem wit_QueueDoorbells :
    (let req : Fin 32 := 1; let q : Fin 128 := 5; let n : Fin 8192 := 3; let s : State := ((State.serv.wf (QUE_CFG.EN q) 1 |>.wf (QUE_CFG.SPNPROD q) 0 |>.wf (QUE_CFG.PROD q) 1 |>.wf (QUE_CFG.CONS q) 1 |>.wf (QUE_CFG.SIZEEXP q) 4 |>.wf (CAN_CFG.EN 0) 0 |>.wf (CAN_CFG.EN 1) 0 |>.wf (QUE_STAT.ADMIT q) 1 |>.setN (QUE_CNT.adr q) (10 + 4 * 65536) |>.wf (QUE_POS.HELD q) (2)))
    (s.on = true) ∧ (s.isProd q req false = true) ∧ (s.rb (QUE_CFG.EN q) = true) ∧ (s.rb (QUE_STAT.ADMIT q) = true) ∧ (n.val ≠ 0) ∧ (n.val ≤ s.free_ q) ∧ (s.free_ q + s.inflight q + s.held q = s.queSize q) ∧ (s.rf (QUE_CFG.SIZEEXP q) ≤ 12)) ∧
    (let req : Fin 32 := 1; let q : Fin 128 := 5; let n : Fin 8192 := 11; let s : State := ((State.serv.wf (QUE_CFG.EN q) 1 |>.wf (QUE_CFG.SPNPROD q) 0 |>.wf (QUE_CFG.PROD q) 1 |>.wf (QUE_CFG.CONS q) 1 |>.wf (QUE_CFG.SIZEEXP q) 4 |>.wf (CAN_CFG.EN 0) 0 |>.wf (CAN_CFG.EN 1) 0 |>.wf (QUE_STAT.ADMIT q) 1 |>.setN (QUE_CNT.adr q) (10 + 4 * 65536) |>.wf (QUE_POS.HELD q) (2)))
    (s.on = true) ∧ (s.isProd q req false = true) ∧ (s.rb (QUE_CFG.EN q) = true) ∧ (s.rb (QUE_STAT.ADMIT q) = true) ∧ (n.val = 0 ∨ s.free_ q < n)) ∧
    (let req : Fin 32 := 1; let q : Fin 128 := 5; let n : Fin 8192 := 1; let s : State := ((State.serv.wf (QUE_CFG.EN q) 1 |>.wf (QUE_CFG.SPNPROD q) 0 |>.wf (QUE_CFG.PROD q) 1 |>.wf (QUE_CFG.CONS q) 1 |>.wf (QUE_CFG.SIZEEXP q) 4 |>.wf (CAN_CFG.EN 0) 0 |>.wf (CAN_CFG.EN 1) 0 |>.wf (QUE_STAT.ADMIT q) 1 |>.setN (QUE_CNT.adr q) (10 + 4 * 65536) |>.wf (QUE_POS.HELD q) (2) |>.wf (QUE_STAT.ADMIT q) 0))
    (s.on = true) ∧ (s.isProd q req false = true) ∧ (s.rb (QUE_CFG.EN q) = false ∨ s.rb (QUE_STAT.ADMIT q) = false)) ∧
    (let req : Fin 32 := 1; let q : Fin 128 := 5; let n : Fin 8192 := 3; let s : State := ((State.serv.wf (QUE_CFG.EN q) 1 |>.wf (QUE_CFG.SPNPROD q) 0 |>.wf (QUE_CFG.PROD q) 1 |>.wf (QUE_CFG.CONS q) 1 |>.wf (QUE_CFG.SIZEEXP q) 4 |>.wf (CAN_CFG.EN 0) 0 |>.wf (CAN_CFG.EN 1) 0 |>.wf (QUE_STAT.ADMIT q) 1 |>.setN (QUE_CNT.adr q) (6 + 8 * 65536) |>.wf (QUE_POS.HELD q) (2)))
    (s.on = true) ∧ (s.isCons q req false = true) ∧ (n.val ≠ 0) ∧ (n.val ≤ s.inflight q) ∧ (s.free_ q + s.inflight q + s.held q = s.queSize q) ∧ (s.rf (QUE_CFG.SIZEEXP q) ≤ 12)) ∧
    (let req : Fin 32 := 1; let q : Fin 128 := 5; let n : Fin 8192 := 9; let s : State := ((State.serv.wf (QUE_CFG.EN q) 1 |>.wf (QUE_CFG.SPNPROD q) 0 |>.wf (QUE_CFG.PROD q) 1 |>.wf (QUE_CFG.CONS q) 1 |>.wf (QUE_CFG.SIZEEXP q) 4 |>.wf (CAN_CFG.EN 0) 0 |>.wf (CAN_CFG.EN 1) 0 |>.wf (QUE_STAT.ADMIT q) 1 |>.setN (QUE_CNT.adr q) (6 + 8 * 65536) |>.wf (QUE_POS.HELD q) (2)))
    (s.on = true) ∧ (s.isCons q req false = true) ∧ (n.val = 0 ∨ s.inflight q < n)) ∧
    (let req : Fin 32 := 1; let q : Fin 128 := 5; let n : Fin 8192 := 3; let s : State := ((State.serv.wf (QUE_CFG.EN q) 1 |>.wf (QUE_CFG.SPNPROD q) 0 |>.wf (QUE_CFG.PROD q) 1 |>.wf (QUE_CFG.CONS q) 1 |>.wf (QUE_CFG.SIZEEXP q) 4 |>.wf (CAN_CFG.EN 0) 0 |>.wf (CAN_CFG.EN 1) 0 |>.wf (QUE_STAT.ADMIT q) 1 |>.setN (QUE_CNT.adr q) (2 + 6 * 65536) |>.wf (QUE_POS.HELD q) (8)))
    (s.on = true) ∧ (s.isCons q req false = true) ∧ (n.val ≠ 0) ∧ (n.val ≤ s.held q) ∧ (s.free_ q + s.inflight q + s.held q = s.queSize q) ∧ (s.rf (QUE_CFG.SIZEEXP q) ≤ 12)) ∧
    (let req : Fin 32 := 1; let q : Fin 128 := 5; let n : Fin 8192 := 9; let s : State := ((State.serv.wf (QUE_CFG.EN q) 1 |>.wf (QUE_CFG.SPNPROD q) 0 |>.wf (QUE_CFG.PROD q) 1 |>.wf (QUE_CFG.CONS q) 1 |>.wf (QUE_CFG.SIZEEXP q) 4 |>.wf (CAN_CFG.EN 0) 0 |>.wf (CAN_CFG.EN 1) 0 |>.wf (QUE_STAT.ADMIT q) 1 |>.setN (QUE_CNT.adr q) (2 + 6 * 65536) |>.wf (QUE_POS.HELD q) (8)))
    (s.on = true) ∧ (s.isCons q req false = true) ∧ (n.val = 0 ∨ s.held q < n)) ∧
    (let req : Fin 32 := 2; let q : Fin 128 := 5; let n : Fin 8192 := 9; let s : State := ((State.serv.wf (QUE_CFG.EN q) 1 |>.wf (QUE_CFG.SPNPROD q) 0 |>.wf (QUE_CFG.PROD q) 1 |>.wf (QUE_CFG.CONS q) 1 |>.wf (QUE_CFG.SIZEEXP q) 4 |>.wf (CAN_CFG.EN 0) 0 |>.wf (CAN_CFG.EN 1) 0 |>.wf (QUE_STAT.ADMIT q) 1 |>.setN (QUE_CNT.adr q) (2 + 6 * 65536) |>.wf (QUE_POS.HELD q) (8)))
    (s.on = true) ∧ (s.isProd q req false = false)) ∧
    (let req : Fin 32 := 2; let q : Fin 128 := 5; let n : Fin 8192 := 9; let s : State := ((State.serv.wf (QUE_CFG.EN q) 1 |>.wf (QUE_CFG.SPNPROD q) 0 |>.wf (QUE_CFG.PROD q) 1 |>.wf (QUE_CFG.CONS q) 1 |>.wf (QUE_CFG.SIZEEXP q) 4 |>.wf (CAN_CFG.EN 0) 0 |>.wf (CAN_CFG.EN 1) 0 |>.wf (QUE_STAT.ADMIT q) 1 |>.setN (QUE_CNT.adr q) (2 + 6 * 65536) |>.wf (QUE_POS.HELD q) (8)))
    (s.on = true) ∧ (s.isCons q req false = false)) ∧
    (let req : Fin 32 := 2; let q : Fin 128 := 5; let n : Fin 8192 := 9; let s : State := ((State.serv.wf (QUE_CFG.EN q) 1 |>.wf (QUE_CFG.SPNPROD q) 0 |>.wf (QUE_CFG.PROD q) 1 |>.wf (QUE_CFG.CONS q) 1 |>.wf (QUE_CFG.SIZEEXP q) 4 |>.wf (CAN_CFG.EN 0) 0 |>.wf (CAN_CFG.EN 1) 0 |>.wf (QUE_STAT.ADMIT q) 1 |>.setN (QUE_CNT.adr q) (2 + 6 * 65536) |>.wf (QUE_POS.HELD q) (8)))
    (s.on = true) ∧ (s.isCons q req false = false)) :=
  by
  iterate 9 refine And.intro (by decide +kernel) ?_
  decide +kernel

theorem wit_QueueConfiguration :
    (let ch : Fin 8 := 0; let q : Byte := 5; let c : Word := BitVec.ofNat 32 (2^31 + 2^19 + 2^14 + 4); let b : Word := 0x20100400; let r : HmbRun := { op := 0x106, tag := 7, takenAt := 3, cmd := some (.queConfig ch q c b) }; let s : State := (((State.serv.setN (QUE_CFG.adr q.toNat) 0 |>.setN ANW_BUFBASE.adr 0x20500000 |>.setN (ARB_TBL.adr 4 (16 * State.serv.rf (ARB_CTL.ACTIVE 4))) 0x80 |>.setN (ARB_TBL.adr 25 (16 * State.serv.rf (ARB_CTL.ACTIVE 25))) 0x80 |>.wf (CAN_CFG.EN 0) 0 |>.wf (CAN_CFG.EN 1) 0).setChan ch { (State.serv.chan ch) with run := some r }).wb (HMB_CHCFG.EN ch) true)
    (s.Asked ch (.queConfig ch q c b) r) ∧ (q.toNat ≤ 127) ∧ (endAllowed (c.toNat / 2 ^ 19 % 32) = true) ∧ (endAllowed (c.toNat / 2 ^ 14 % 32) = true) ∧ (s.ringOk q.toNat c.toNat b.toNat = true) ∧ (c.toNat / 2 ^ 24 % 32 ≠ 31) ∧ (s.rb (QUE_CFG.EN q.toNat) = false) ∧ (c.toNat.testBit 31 = true) ∧ (((s.taken ch r).queEnable q.toNat c.toNat b.toNat).rb (QUE_STAT.ADMIT q.toNat) = true)) ∧
    (let ch : Fin 8 := 0; let q : Byte := 5; let c : Word := BitVec.ofNat 32 (2^31 + 3 * 2^19 + 2^14 + 4); let b : Word := 0x20100400; let r : HmbRun := { op := 0x106, tag := 7, takenAt := 3, cmd := some (.queConfig ch q c b) }; let s : State := (((State.serv.setN (QUE_CFG.adr q.toNat) 0 |>.setN ANW_BUFBASE.adr 0x20500000 |>.wf (CAN_CFG.EN 0) 0 |>.wf (CAN_CFG.EN 1) 0).setChan ch { (State.serv.chan ch) with run := some r }).wb (HMB_CHCFG.EN ch) true)
    (s.Asked ch (.queConfig ch q c b) r) ∧ (q.toNat ≤ 127) ∧ (endAllowed (c.toNat / 2 ^ 19 % 32) = true) ∧ (endAllowed (c.toNat / 2 ^ 14 % 32) = true) ∧ (s.ringOk q.toNat c.toNat b.toNat = true) ∧ (c.toNat / 2 ^ 24 % 32 ≠ 31) ∧ (s.rb (QUE_CFG.EN q.toNat) = false) ∧ (c.toNat.testBit 31 = true) ∧ (((s.taken ch r).queEnable q.toNat c.toNat b.toNat).rb (QUE_STAT.ADMIT q.toNat) = false)) ∧
    (let ch : Fin 8 := 0; let q : Byte := 5; let c : Word := BitVec.ofNat 32 (2^19 + 2^14 + 4); let b : Word := 0x20100400; let r : HmbRun := { op := 0x106, tag := 7, takenAt := 3, cmd := some (.queConfig ch q c b) }; let s : State := (((State.serv.setN (QUE_CFG.adr q.toNat) 0 |>.setN ANW_BUFBASE.adr 0x20500000 |>.setN (ARB_TBL.adr 4 (16 * State.serv.rf (ARB_CTL.ACTIVE 4))) 0x80 |>.setN (ARB_TBL.adr 25 (16 * State.serv.rf (ARB_CTL.ACTIVE 25))) 0x80 |>.wf (CAN_CFG.EN 0) 0 |>.wf (CAN_CFG.EN 1) 0).setChan ch { (State.serv.chan ch) with run := some r }).wb (HMB_CHCFG.EN ch) true)
    (s.Asked ch (.queConfig ch q c b) r) ∧ (q.toNat ≤ 127) ∧ (endAllowed (c.toNat / 2 ^ 19 % 32) = true) ∧ (endAllowed (c.toNat / 2 ^ 14 % 32) = true) ∧ (s.ringOk q.toNat c.toNat b.toNat = true) ∧ (c.toNat / 2 ^ 24 % 32 ≠ 31) ∧ (s.rb (QUE_CFG.EN q.toNat) = false) ∧ (c.toNat.testBit 31 = false) ∧ (((((s.taken ch r).setN (QUE_CFG.adr q.toNat) (c.toNat &&& 0xFFFFC00F)).setN (QUE_BASE.adr q.toNat) (b.toNat &&& 0xFFFFFFC0)).readmit q.toNat).rb (QUE_STAT.ADMIT q.toNat) = true)) ∧
    (let ch : Fin 8 := 0; let q : Byte := 5; let c : Word := BitVec.ofNat 32 (3 * 2^19 + 2^14 + 4); let b : Word := 0x20100400; let r : HmbRun := { op := 0x106, tag := 7, takenAt := 3, cmd := some (.queConfig ch q c b) }; let s : State := (((State.serv.setN (QUE_CFG.adr q.toNat) 0 |>.setN ANW_BUFBASE.adr 0x20500000 |>.wf (CAN_CFG.EN 0) 0 |>.wf (CAN_CFG.EN 1) 0).setChan ch { (State.serv.chan ch) with run := some r }).wb (HMB_CHCFG.EN ch) true)
    (s.Asked ch (.queConfig ch q c b) r) ∧ (q.toNat ≤ 127) ∧ (endAllowed (c.toNat / 2 ^ 19 % 32) = true) ∧ (endAllowed (c.toNat / 2 ^ 14 % 32) = true) ∧ (s.ringOk q.toNat c.toNat b.toNat = true) ∧ (c.toNat / 2 ^ 24 % 32 ≠ 31) ∧ (s.rb (QUE_CFG.EN q.toNat) = false) ∧ (c.toNat.testBit 31 = false) ∧ (((((s.taken ch r).setN (QUE_CFG.adr q.toNat) (c.toNat &&& 0xFFFFC00F)).setN (QUE_BASE.adr q.toNat) (b.toNat &&& 0xFFFFFFC0)).readmit q.toNat).rb (QUE_STAT.ADMIT q.toNat) = false)) ∧
    (let ch : Fin 8 := 0; let q : Byte := 5; let c : Word := BitVec.ofNat 32 (2^31 + 16 * 2^19 + 4); let b : Word := 0x20100400; let r : HmbRun := { op := 0x106, tag := 7, takenAt := 3, cmd := some (.queConfig ch q c b) }; let s : State := (((State.serv).setChan ch { (State.serv.chan ch) with run := some r }).wb (HMB_CHCFG.EN ch) true)
    (s.Asked ch (.queConfig ch q c b) r) ∧ (q.toNat ≤ 127) ∧ (endAllowed (c.toNat / 2 ^ 19 % 32) = false ∨ endAllowed (c.toNat / 2 ^ 14 % 32) = false)) ∧
    (let ch : Fin 8 := 0; let q : Byte := 5; let c : Word := BitVec.ofNat 32 (2^31 + 4); let b : Word := 0x20100400; let r : HmbRun := { op := 0x106, tag := 7, takenAt := 3, cmd := some (.queConfig ch q c b) }; let s : State := (((State.serv.wf (QUE_CFG.EN q.toNat) 1 |>.setN ANW_BUFBASE.adr 0x20500000).setChan ch { (State.serv.chan ch) with run := some r }).wb (HMB_CHCFG.EN ch) true)
    (s.Asked ch (.queConfig ch q c b) r) ∧ (q.toNat ≤ 127) ∧ (endAllowed (c.toNat / 2 ^ 19 % 32) = true) ∧ (endAllowed (c.toNat / 2 ^ 14 % 32) = true) ∧ (s.ringOk q.toNat c.toNat b.toNat = true) ∧ (c.toNat / 2 ^ 24 % 32 ≠ 31) ∧ (s.rb (QUE_CFG.EN q.toNat) = true)) ∧
    (let ch : Fin 8 := 0; let q : Byte := 5; let r : HmbRun := { op := 0x107, tag := 7, takenAt := 3, cmd := some (.queDisable ch q) }; let s : State := (((State.serv).setChan ch { (State.serv.chan ch) with run := some r }).wb (HMB_CHCFG.EN ch) true)
    (s.Asked ch (.queDisable ch q) r) ∧ (q.toNat ≤ 127)) ∧
    (let s : State := ({ (State.serv) with sty := {}, pwm := {} })
    (s.on = true) ∧ (s.sty.lastChain < s.gt / 500000) ∧ (s.auditList.all (fun x => x.2.2 == 0) = true)) ∧
    (let q : Fin 128 := 5; let s : State := ({ (State.serv.wf (QUE_CFG.EN q) 1 |>.wf (QUE_CFG.SPNPROD q) 0 |>.wf (QUE_CFG.PROD q) 1 |>.wf (QUE_CFG.CONS q) 1 |>.wf (QUE_CFG.SIZEEXP q) 4 |>.wf (CAN_CFG.EN 0) 0 |>.wf (CAN_CFG.EN 1) 0 |>.wf (QUE_STAT.ADMIT q) 1 |>.setN (QUE_CNT.adr q) (1 + 2 * 65536) |>.wf (QUE_POS.HELD q) (3)) with sty := {} })
    (s.on = true) ∧ (s.sty.lastChain < s.gt / 500000) ∧ (s.rb (QUE_CFG.EN q) = true) ∧ (s.free_ q + s.inflight q + s.held q ≠ s.queSize q)) :=
  by
  iterate 8 refine And.intro (by decide +kernel) ?_
  decide +kernel

theorem wit_Arbitration :
    (let a : Fin 27 := 3; let p : Fin 16 := 5; let n : Fin 65 := 2; let s : State := (({ State.serv with arb := [] } |>.wf (ARB_STAT.BUSY a) 0 |>.wf (ARB_CTL.PEND a) 0).setArbiter a { units := [] })
    (s.on = true) ∧ (portWired a p = true) ∧ (n.val ≠ 0) ∧ (s.rb (ARB_STAT.BUSY a) = false) ∧ ((s.arbiter a).units = []) ∧ (s.rb (ARB_CTL.PEND a) = false)) ∧
    (let a : Fin 27 := 3; let p : Fin 16 := 5; let n : Fin 65 := 2; let s : State := (({ State.serv with arb := [] } |>.wf (ARB_STAT.BUSY a) 1).setArbiter a { units := [(2, 1)] })
    (s.on = true) ∧ (portWired a p = true) ∧ (n.val ≠ 0) ∧ (s.rb (ARB_STAT.BUSY a) = true) ∧ (s.arbTransfers a p = false)) ∧
    (let a : Fin 27 := 3; let p : Fin 16 := 5; let n : Fin 65 := 2; let s : State := (({ State.serv with arb := [] } |>.wf (ARB_STAT.BUSY a) 1).setArbiter a { units := [(p.val, 1)], behind := [(p.val, [9])] })
    (s.on = true) ∧ (portWired a p = true) ∧ (n.val ≠ 0) ∧ (s.arbTransfers a p = true)) ∧
    (let a : Fin 27 := 3; let p : Fin 16 := 5; let o : Fin 16 := 2; let s : State := (({ State.serv with arb := [] } |>.wf (ARB_STAT.BUSY a) 1 |>.wf (ARB_CTL.PEND a) 0 |>.wf (ARB_STAT.HOLDER a) 15 |>.wf (ARB_STAT.SLOT a) 8 |>.setN (ARB_TBL.adr a (16 * State.serv.rf (ARB_CTL.ACTIVE a) + 2)) (128 + o)).setArbiter a { units := [(p.val, 1), (o.val, 1)] })
    (a.val ≠ 24 ∨ s.sec.proc = none) ∧ (s.on = true) ∧ (s.rb (ARB_STAT.BUSY a) = true) ∧ (s.rf (ARB_STAT.HOLDER a) ≠ p) ∧ (s.rf (ARB_STAT.HOLDER a) ≠ o) ∧ (p ≠ o) ∧ ((s.arbiter a).units = [(p.val, 1), (o.val, 1)]) ∧ (mget [] (s.arbiter a).behind (s.rf (ARB_STAT.HOLDER a)) = []) ∧ (s.slotOf a (s.rf (ARB_STAT.SLOT a)) = some o.val) ∧ (s.rb (ARB_CTL.PEND a) = false)) ∧
    (let a : Fin 27 := 3; let p : Fin 16 := 7; let o : Fin 16 := 2; let s : State := (({ State.serv with arb := [] } |>.wf (ARB_STAT.BUSY a) 1 |>.wf (ARB_CTL.PEND a) 0 |>.wf (ARB_STAT.HOLDER a) 15 |>.wf (ARB_STAT.SLOT a) 8 |>.setN (ARB_TBL.adr a (16 * State.serv.rf (ARB_CTL.ACTIVE a) + 2)) 0 |>.wf (ARB_CTL.LIMIT a) 16 |>.setArbWait a o 40).setArbiter a { units := [(p.val, 1), (o.val, 1)] })
    (a.val ≠ 24 ∨ s.sec.proc = none) ∧ (s.on = true) ∧ (s.rb (ARB_STAT.BUSY a) = true) ∧ (s.rf (ARB_STAT.HOLDER a) ≠ p) ∧ (s.rf (ARB_STAT.HOLDER a) ≠ o) ∧ (p ≠ o) ∧ ((s.arbiter a).units = [(p.val, 1), (o.val, 1)]) ∧ (mget [] (s.arbiter a).behind (s.rf (ARB_STAT.HOLDER a)) = []) ∧ (s.slotOf a (s.rf (ARB_STAT.SLOT a)) = none) ∧ (portPriv o = false) ∧ (s.rf (ARB_CTL.LIMIT a) ≤ s.arbWait a o) ∧ (portPriv p = true ∨ s.arbWait a p < s.rf (ARB_CTL.LIMIT a)) ∧ (s.rb (ARB_CTL.PEND a) = false)) ∧
    (let a : Fin 27 := 3; let p : Fin 16 := 7; let o : Fin 16 := 2; let s : State := (({ State.serv with arb := [] } |>.wf (ARB_STAT.BUSY a) 1 |>.wf (ARB_CTL.PEND a) 0 |>.wf (ARB_STAT.HOLDER a) 15 |>.wf (ARB_STAT.SLOT a) 8 |>.setN (ARB_TBL.adr a (16 * State.serv.rf (ARB_CTL.ACTIVE a) + 2)) 0 |>.wf (ARB_CTL.LIMIT a) 16 |>.setArbWait a o 4 |>.setArbWait a p 9 |>.setN (ARB_PRIOLO.adr a) (2 * 16 ^ (o.val % 8)) |>.setN (ARB_PRIOHI.adr a) 0).setArbiter a { units := [(p.val, 1), (o.val, 1)] })
    (a.val ≠ 24 ∨ s.sec.proc = none) ∧ (s.on = true) ∧ (s.rb (ARB_STAT.BUSY a) = true) ∧ (s.rf (ARB_STAT.HOLDER a) ≠ p) ∧ (s.rf (ARB_STAT.HOLDER a) ≠ o) ∧ (p ≠ o) ∧ ((s.arbiter a).units = [(p.val, 1), (o.val, 1)]) ∧ (mget [] (s.arbiter a).behind (s.rf (ARB_STAT.HOLDER a)) = []) ∧ ((s.arbiter a).prioAt = none) ∧ (s.slotOf a (s.rf (ARB_STAT.SLOT a)) = none) ∧ (s.arbWait a o < s.rf (ARB_CTL.LIMIT a)) ∧ (s.arbWait a p < s.rf (ARB_CTL.LIMIT a)) ∧ (prioOf (s.rn (ARB_PRIOLO.adr a)) (s.rn (ARB_PRIOHI.adr a)) p < prioOf (s.rn (ARB_PRIOLO.adr a)) (s.rn (ARB_PRIOHI.adr a)) o) ∧ (s.rb (ARB_CTL.PEND a) = false)) ∧
    (let a : Fin 34 := 3; let s : State := (({ State.serv with arb := [] } |>.wf (ARB_STAT.BUSY a) 1).setArbiter a { units := [(3, 2), (7, 1), (11, 1)] })
    (a.val ≠ 24 ∨ s.sec.proc = none) ∧ (s.on = true) ∧ (s.rb (ARB_STAT.BUSY a) = true) ∧ ((s.arbiter a).units.any (fun u => u.1 != s.rf (ARB_STAT.HOLDER a) && u.2 != 0) = true) ∧ ((s.arbiter a).units.all (fun u => decide (u.1 < 16)) = true) ∧ (mget [] (s.arbiter a).behind (s.rf (ARB_STAT.HOLDER a)) = [])) ∧
    (let a : Fin 34 := 3; let n : Nat := 2; let s : State := ((State.serv.wf (ARB_STAT.BUSY a) 1).setArbiter a { units := [(State.serv.rf (ARB_STAT.HOLDER a), n + 1)] })
    (a.val ≠ 24 ∨ s.sec.proc = none) ∧ (s.on = true) ∧ (s.rb (ARB_STAT.BUSY a) = true) ∧ ((s.arbiter a).units = [(s.rf (ARB_STAT.HOLDER a), n + 1)])) ∧
    (let a : Fin 27 := 3; let s : State := (({ State.serv with arb := [] } |>.wf (ARB_STAT.BUSY a) 1).setArbiter a { units := [] })
    (a.val ≠ 24 ∨ s.sec.proc = none) ∧ (s.on = true) ∧ (s.rb (ARB_STAT.BUSY a) = true) ∧ ((s.arbiter a).units = []) ∧ (mget [] (s.arbiter a).behind (s.rf (ARB_STAT.HOLDER a)) = [])) ∧
    (let a : Fin 27 := 3; let n : Nat := 4; let l : List Nat := [7]; let s : State := ((State.serv.wf (ARB_STAT.BUSY a) 1).setArbiter a { behind := [(State.serv.rf (ARB_STAT.HOLDER a), n :: l)] })
    (a.val ≠ 24 ∨ s.sec.proc = none) ∧ (s.on = true) ∧ (s.rb (ARB_STAT.BUSY a) = true) ∧ ((s.arbiter a).units = []) ∧ (mget [] (s.arbiter a).behind (s.rf (ARB_STAT.HOLDER a)) = n :: l) ∧ (n ≠ 0)) ∧
    (let p : Proc := { kind := 1, step := 3 }; let s : State := ({ State.serv.wf (ARB_STAT.BUSY 24) 1 with sec := { State.serv.sec with proc := some p } })
    (s.on = true) ∧ (s.rb (ARB_STAT.BUSY 24) = true) ∧ (s.sec.proc = some p)) ∧
    (let a : Fin 34 := 3; let s : State := (({ State.serv with arb := [] } |>.wf (ARB_STAT.BUSY a) 0 |>.wf (ARB_STAT.REQ a) 0 |>.wf (ARB_CTL.PEND a) 0).setArbiter a { units := [] })
    (s.on = true) ∧ (s.rf (ARB_STAT.REQ a) = 0) ∧ ((s.arbiter a).idleAt + 50 ≤ s.now) ∧ (s.rb (ARB_CTL.PEND a) = false)) ∧
    (let a : Fin 34 := 3; let s : State := (({ State.serv with arb := [] } |>.wf (ARB_STAT.BUSY a) 0 |>.wf (ARB_STAT.REQ a) 0 |>.wf (ARB_CTL.PEND a) 1 |>.wf (ARB_STAT.SLOT a) 63).setArbiter a { units := [] })
    (s.on = true) ∧ (s.rf (ARB_STAT.REQ a) = 0) ∧ ((s.arbiter a).idleAt + 50 ≤ s.now) ∧ (s.rb (ARB_CTL.PEND a) = true) ∧ (s.rf (ARB_STAT.SLOT a) = 63) ∧ ((s.arbiter a).switchAt + 10 ≤ s.now)) ∧
    (let a : Fin 27 := 5; let p : Fin 16 := 1; let n : Fin 65 := 3; let s : State := (State.serv.wf (ARB_STAT.BUSY a) 0)
    (s.on = true) ∧ (portWired a p = true) ∧ (n.val ≠ 0) ∧ (s.rb (ARB_STAT.BUSY a) = false)) ∧
    (let a : Fin 34 := 5; let s : State := ((State.serv.wf (ARB_STAT.BUSY a) 0 |>.wf (ARB_STAT.REQ a) 0).setArbiter a {})
    (s.on = true) ∧ (s.rf (ARB_STAT.REQ a) = 0) ∧ ((s.arbiter a).idleAt + 50 ≤ s.now)) :=
  by
  iterate 14 refine And.intro (by decide +kernel) ?_
  decide +kernel

theorem wit_ArbiterTables :
    (let a : Fin 34 := 3; let k : Fin 2 := 1; let w : Fin 16 := 4; let v : Word := 0x818283FF; let s : State := (State.serv.wf (ARB_CTL.ACTIVE a) (1 - k) |>.wf (ARB_CTL.PEND a) 0)
    (s.on = true) ∧ (k.val ≠ s.rf (ARB_CTL.ACTIVE a)) ∧ (s.rb (ARB_CTL.PEND a) = false)) ∧
    (let a : Fin 34 := 3; let k : Fin 2 := 1; let w : Fin 16 := 4; let v : Word := 0x818283FF; let s : State := (State.serv.wf (ARB_CTL.ACTIVE a) k)
    (s.on = true) ∧ (k.val = s.rf (ARB_CTL.ACTIVE a) ∨ s.rb (ARB_CTL.PEND a) = true)) ∧
    (let req : Fin 32 := 9; let a : Fin 34 := 3; let k : Fin 2 := 1; let w : Fin 16 := 4; let v : Word := 0x818283FF; let s : State := (State.serv)
    (s.on = true) ∧ (req.val ≠ 1)) ∧
    (let ch : Fin 8 := 0; let a : Byte := 3; let lo : Word := 0x12345678; let hi : Word := 0x9ABCDEF0; let r : HmbRun := { op := 0x108, tag := 7, takenAt := 3, cmd := some (.arbPrioSet ch a lo hi) }; let s : State := (((State.serv).setChan ch { (State.serv.chan ch) with run := some r }).wb (HMB_CHCFG.EN ch) true)
    (s.Asked ch (.arbPrioSet ch a lo hi) r) ∧ (a.toNat ≤ 33)) ∧
    (let ch : Fin 8 := 0; let a : Byte := 30; let l : Byte := 9; let sl : Vector Byte 64 := Vector.replicate 64 0x8B; let r : HmbRun := { op := 0x109, tag := 7, takenAt := 3, cmd := some (.arbTableSet ch a l sl) }; let s : State := (((State.serv.wf (ARB_CTL.PEND a.toNat) 0).setChan ch { (State.serv.chan ch) with run := some r }).wb (HMB_CHCFG.EN ch) true)
    (s.Asked ch (.arbTableSet ch a l sl) r) ∧ (a.toNat ≤ 33) ∧ (l.toNat ≠ 0) ∧ (s.rb (ARB_CTL.PEND a.toNat) = false) ∧ (s.tableOk a.toNat (sl.toList.map (·.toNat)) = true)) ∧
    (let ch : Fin 8 := 0; let a : Byte := 30; let l : Byte := 9; let sl : Vector Byte 64 := Vector.replicate 64 0x8B; let r : HmbRun := { op := 0x109, tag := 7, takenAt := 3, cmd := some (.arbTableSet ch a l sl) }; let s : State := (((State.serv.wf (ARB_CTL.PEND a.toNat) 1).setChan ch { (State.serv.chan ch) with run := some r }).wb (HMB_CHCFG.EN ch) true)
    (s.Asked ch (.arbTableSet ch a l sl) r) ∧ (a.toNat ≤ 33) ∧ (l.toNat ≠ 0) ∧ (s.rb (ARB_CTL.PEND a.toNat) = true)) ∧
    (let ch : Fin 8 := 0; let a : Byte := 25; let l : Byte := 9; let sl : Vector Byte 64 := Vector.replicate 64 0x8B; let r : HmbRun := { op := 0x109, tag := 7, takenAt := 3, cmd := some (.arbTableSet ch a l sl) }; let s : State := (((State.serv.wf (ARB_CTL.PEND a.toNat) 0).setChan ch { (State.serv.chan ch) with run := some r }).wb (HMB_CHCFG.EN ch) true)
    (s.Asked ch (.arbTableSet ch a l sl) r) ∧ (a.toNat ≤ 33) ∧ (l.toNat ≠ 0) ∧ (s.rb (ARB_CTL.PEND a.toNat) = false) ∧ (s.tableOk a.toNat (sl.toList.map (·.toNat)) = false)) :=
  by
  iterate 6 refine And.intro (by decide +kernel) ?_
  decide +kernel

theorem wit_RedundancyModes :
    (let s : State := ({ ((State.serv).wf LANE_STATE.STATE 4 |>.wf SPN_SYNCSTAT.ALIGNED 1 |>.wf TSK_STAT.STATE 0 |>.wf AST_INJCTL.ARM 0 |>.wf TSK_MODESTAT.MISSION 0 |>.wf TSK_MODESTAT.HELD 0 |>.wf TSK_MODESTAT.STOPCAUSE 0 |>.wf LANE_STATE.STATE 3) with svc := { State.serv.svc with wind := { State.serv.svc.wind with st := 1 }, single := [] } })
    (s.st = stIntegrate) ∧ (s.rf AST_INJCTL.ARM = 0) ∧ (s.ast.held = [])) ∧
    (let s : State := (({ ((State.serv).wf LANE_STATE.STATE 4 |>.wf SPN_SYNCSTAT.ALIGNED 1 |>.wf TSK_STAT.STATE 0 |>.wf AST_INJCTL.ARM 0 |>.wf TSK_MODESTAT.MISSION 0 |>.wf TSK_MODESTAT.HELD 0 |>.wf TSK_MODESTAT.STOPCAUSE 0) with svc := { State.serv.svc with wind := { State.serv.svc.wind with st := 1 }, single := [] } }).setRdmPeer 1 ({ claim := some (5, true, true), alive := true, freshAt := 9900000, vote := some ({ fit := true, seq := 5, inService := true, relayed := [], mission := 0, held := false, stopGt := 0, causes := 0, srst := false, windOut := false, circOut := false }) }) |>.setRdmPeer 2 ({ claim := some (5, true, true), alive := true, freshAt := 9900000, vote := some ({ fit := true, seq := 5, inService := true, relayed := [], mission := 0, held := false, stopGt := 0, causes := 0, srst := false, windOut := false, circOut := false }) }) |>.wf LANE_PEERS.BRIDGE_UP 6)
    (s.fit = true) ∧ (s.rf AST_INJCTL.ARM = 0) ∧ (s.ast.held = []) ∧ (s.mission = misContinue) ∧ (s.heldMode = false) ∧ (s.singleSource = false) ∧ ((∀ k ∈ s.memberPeers, (s.rdmPeer k).vote.all (fun v => v.mission == misContinue && !v.held) = true)) ∧ (s.memberPeers ≠ []) ∧ (2 ≤ s.windingsIn)) ∧
    (let s : State := ({ { ((State.serv).wf LANE_STATE.STATE 4 |>.wf SPN_SYNCSTAT.ALIGNED 1 |>.wf TSK_STAT.STATE 0 |>.wf AST_INJCTL.ARM 0 |>.wf TSK_MODESTAT.MISSION 0 |>.wf TSK_MODESTAT.HELD 0 |>.wf TSK_MODESTAT.STOPCAUSE 0) with svc := { State.serv.svc with wind := { State.serv.svc.wind with st := 1 }, single := [] } } with rdm := {} })
    (s.fit = true) ∧ (s.otp.lane < 3) ∧ (s.rf AST_INJCTL.ARM = 0) ∧ (s.ast.held = []) ∧ (s.mission = misContinue) ∧ (s.heldMode = false) ∧ (s.singleSource = false) ∧ (s.memberPeers = [])) ∧
    (let s : State := ({ ((State.serv).wf LANE_STATE.STATE 4 |>.wf SPN_SYNCSTAT.ALIGNED 1 |>.wf TSK_STAT.STATE 0 |>.wf AST_INJCTL.ARM 0 |>.wf TSK_MODESTAT.MISSION 0 |>.wf TSK_MODESTAT.HELD 0 |>.wf TSK_MODESTAT.STOPCAUSE 0 |>.wf TSK_MODESTAT.HELD 1) with svc := { State.serv.svc with wind := { State.serv.svc.wind with st := 1 }, single := [] } })
    (s.fit = true) ∧ (s.rf AST_INJCTL.ARM = 0) ∧ (s.ast.held = []) ∧ (s.mission ≠ misPark) ∧ (s.heldMode = true)) ∧
    (let k : Fin 3 := 1; let v : Vote := { fit := true, seq := 5, inService := true, relayed := [], mission := 0, held := true, stopGt := 0, causes := 0, srst := false, windOut := false, circOut := false }; let s : State := ({ { ((State.serv).wf LANE_STATE.STATE 4 |>.wf SPN_SYNCSTAT.ALIGNED 1 |>.wf TSK_STAT.STATE 0 |>.wf AST_INJCTL.ARM 0 |>.wf TSK_MODESTAT.MISSION 0 |>.wf TSK_MODESTAT.HELD 0 |>.wf TSK_MODESTAT.STOPCAUSE 0 |>.wf LANE_PEERS.BRIDGE_UP 6) with svc := { State.serv.svc with wind := { State.serv.svc.wind with st := 1 }, single := [] } } with rdm := {} }.setPeer k { hb := { state := 4 } })
    (s.fit = true) ∧ (s.isPeer k = true) ∧ (s.bridgeQuiet k) ∧ (s.bridgeUp k = true) ∧ ((s.peer k).hb.state ≠ stDebug) ∧ (s.mission = misContinue) ∧ (v.fit = true) ∧ (v.inService = true) ∧ (v.relayed = []) ∧ ((s.rdmPeer k).claim.all (fun c => decide ((v.seq + 2 ^ 32 - c.1) % 2 ^ 32 < 2 ^ 31)) = true) ∧ (v.held = true) ∧ (v.mission = misContinue)) ∧
    (let k : Fin 3 := 1; let v : Vote := { fit := true, seq := 5, inService := true, relayed := [], mission := 1, held := false, stopGt := 77, causes := 0, srst := false, windOut := false, circOut := false }; let s : State := ({ { ((State.serv).wf LANE_STATE.STATE 4 |>.wf SPN_SYNCSTAT.ALIGNED 1 |>.wf TSK_STAT.STATE 0 |>.wf AST_INJCTL.ARM 0 |>.wf TSK_MODESTAT.MISSION 0 |>.wf TSK_MODESTAT.HELD 0 |>.wf TSK_MODESTAT.STOPCAUSE 0 |>.wf LANE_PEERS.BRIDGE_UP 6) with svc := { State.serv.svc with wind := { State.serv.svc.wind with st := 1 }, single := [] } } with rdm := {} }.setPeer k { hb := { state := 4 } })
    (s.fit = true) ∧ (s.isPeer k = true) ∧ (s.bridgeQuiet k) ∧ (s.bridgeUp k = true) ∧ ((s.peer k).hb.state ≠ stDebug) ∧ (s.mission = misContinue) ∧ (v.fit = true) ∧ (v.inService = true) ∧ (v.relayed = []) ∧ ((s.rdmPeer k).claim.all (fun c => decide ((v.seq + 2 ^ 32 - c.1) % 2 ^ 32 < 2 ^ 31)) = true) ∧ (s.heldMode = false) ∧ (v.held = false) ∧ (v.mission = misStop) ∧ (v.stopGt < s.gt) ∧ ((∀ j ∈ s.memberPeers, j ≠ k → (s.rdmPeer j).vote.all (fun x => x.mission != misStop) = true))) ∧
    (let k : Fin 3 := 1; let v : Vote := { fit := true, seq := 5, inService := true, relayed := [], mission := 2, held := false, stopGt := 0, causes := 0, srst := false, windOut := false, circOut := false }; let s : State := ({ { ((State.serv).wf LANE_STATE.STATE 4 |>.wf SPN_SYNCSTAT.ALIGNED 1 |>.wf TSK_STAT.STATE 0 |>.wf AST_INJCTL.ARM 0 |>.wf TSK_MODESTAT.MISSION 0 |>.wf TSK_MODESTAT.HELD 0 |>.wf TSK_MODESTAT.STOPCAUSE 0 |>.wf LANE_PEERS.BRIDGE_UP 6) with svc := { State.serv.svc with wind := { State.serv.svc.wind with st := 1 }, single := [] } } with rdm := {} }.setPeer k { hb := { state := 4 } })
    (s.fit = true) ∧ (s.isPeer k = true) ∧ (s.bridgeQuiet k) ∧ (s.bridgeUp k = true) ∧ ((s.peer k).hb.state ≠ stDebug) ∧ (s.mission = misContinue) ∧ (v.fit = true) ∧ (v.inService = true) ∧ (v.relayed = []) ∧ ((s.rdmPeer k).claim.all (fun c => decide ((v.seq + 2 ^ 32 - c.1) % 2 ^ 32 < 2 ^ 31)) = true) ∧ (v.mission = misPark)) :=
  by
  iterate 6 refine And.intro (by decide +kernel) ?_
  decide +kernel

theorem wit_MembersAndFitness :
    (let k : Fin 3 := 1; let v : Vote := { fit := true, seq := 5, inService := true, relayed := [], mission := 0, held := false, stopGt := 0, causes := 0, srst := false, windOut := false, circOut := false }; let s : State := ({ { ((State.serv).wf LANE_STATE.STATE 4 |>.wf SPN_SYNCSTAT.ALIGNED 1 |>.wf TSK_STAT.STATE 0 |>.wf AST_INJCTL.ARM 0 |>.wf TSK_MODESTAT.MISSION 0 |>.wf TSK_MODESTAT.HELD 0 |>.wf TSK_MODESTAT.STOPCAUSE 0 |>.wf LANE_STATE.STATE 3 |>.wf LANE_PEERS.BRIDGE_UP 6) with svc := { State.serv.svc with wind := { State.serv.svc.wind with st := 1 }, single := [] } } with rdm := {} }.setPeer k { hb := { state := 4 } })
    (s.on = true) ∧ (s.isPeer k = true) ∧ (s.bridgeQuiet k) ∧ (s.st = stIntegrate) ∧ (s.bridgeUp k = true) ∧ ((s.peer k).hb.state ≠ stDebug) ∧ ((s.rdmPeer k).claim = none) ∧ (v.relayed = [])) ∧
    (let k : Fin 3 := 1; let v : Vote := { fit := true, seq := 11, inService := true, relayed := [], mission := 0, held := false, stopGt := 0, causes := 0, srst := false, windOut := false, circOut := false }; let q : Nat := 9; let f : Bool := true; let w : Bool := true; let s : State := ({ { ((State.serv).wf LANE_STATE.STATE 4 |>.wf SPN_SYNCSTAT.ALIGNED 1 |>.wf TSK_STAT.STATE 0 |>.wf AST_INJCTL.ARM 0 |>.wf TSK_MODESTAT.MISSION 0 |>.wf TSK_MODESTAT.HELD 0 |>.wf TSK_MODESTAT.STOPCAUSE 0 |>.wf LANE_STATE.STATE 3 |>.wf LANE_PEERS.BRIDGE_UP 6) with svc := { State.serv.svc with wind := { State.serv.svc.wind with st := 1 }, single := [] } } with rdm := {} }.setPeer k { hb := { state := 4 } } |>.setRdmPeer k { claim := some (q, f, w), claimAt := State.serv.now })
    (s.on = true) ∧ (s.isPeer k = true) ∧ (s.bridgeQuiet k) ∧ (s.st = stIntegrate) ∧ (s.bridgeUp k = true) ∧ ((s.peer k).hb.state ≠ stDebug) ∧ ((s.rdmPeer k).claim = some (q, f, w)) ∧ (v.relayed = []) ∧ (q < v.seq) ∧ (v.seq < 2 ^ 32) ∧ (v.seq < q + 2 ^ 31)) ∧
    (let k : Fin 3 := 1; let v : Vote := { fit := true, seq := 5, inService := true, relayed := [], mission := 0, held := false, stopGt := 0, causes := 0, srst := false, windOut := false, circOut := false }; let q : Nat := 9; let f : Bool := true; let w : Bool := true; let s : State := ({ { ((State.serv).wf LANE_STATE.STATE 4 |>.wf SPN_SYNCSTAT.ALIGNED 1 |>.wf TSK_STAT.STATE 0 |>.wf AST_INJCTL.ARM 0 |>.wf TSK_MODESTAT.MISSION 0 |>.wf TSK_MODESTAT.HELD 0 |>.wf TSK_MODESTAT.STOPCAUSE 0 |>.wf LANE_STATE.STATE 3 |>.wf LANE_PEERS.BRIDGE_UP 6) with svc := { State.serv.svc with wind := { State.serv.svc.wind with st := 1 }, single := [] } } with rdm := {} }.setPeer k { hb := { state := 4 } } |>.setRdmPeer k { claim := some (q, f, w), claimAt := State.serv.now })
    (s.on = true) ∧ (s.isPeer k = true) ∧ (s.bridgeQuiet k) ∧ (s.st = stIntegrate) ∧ (s.bridgeUp k = true) ∧ ((s.peer k).hb.state ≠ stDebug) ∧ ((s.rdmPeer k).claim = some (q, f, w)) ∧ (s.now < (s.rdmPeer k).claimAt + 3000000) ∧ (v.relayed = []) ∧ (q < 2 ^ 32) ∧ (v.seq < q) ∧ (q ≤ v.seq + 2 ^ 31)) ∧
    (let k : Fin 3 := 1; let v : Vote := { fit := true, seq := 5, inService := true, relayed := [], mission := 0, held := false, stopGt := 0, causes := 0, srst := false, windOut := false, circOut := false }; let q : Nat := 9; let f : Bool := true; let w : Bool := true; let s : State := ({ { ((State.serv).wf LANE_STATE.STATE 4 |>.wf SPN_SYNCSTAT.ALIGNED 1 |>.wf TSK_STAT.STATE 0 |>.wf AST_INJCTL.ARM 0 |>.wf TSK_MODESTAT.MISSION 0 |>.wf TSK_MODESTAT.HELD 0 |>.wf TSK_MODESTAT.STOPCAUSE 0 |>.wf LANE_STATE.STATE 3 |>.wf LANE_PEERS.BRIDGE_UP 6) with svc := { State.serv.svc with wind := { State.serv.svc.wind with st := 1 }, single := [] } } with rdm := {} }.setPeer k { hb := { state := 4 } } |>.setRdmPeer k { claim := some (q, f, w), claimAt := 0 })
    (s.on = true) ∧ (s.isPeer k = true) ∧ (s.bridgeQuiet k) ∧ (s.st = stIntegrate) ∧ (s.bridgeUp k = true) ∧ ((s.peer k).hb.state ≠ stDebug) ∧ ((s.rdmPeer k).claim = some (q, f, w)) ∧ ((s.rdmPeer k).claimAt + 3000000 ≤ s.now) ∧ (v.relayed = [])) ∧
    (let k : Fin 3 := 1; let v : Vote := { fit := true, seq := 5, inService := true, relayed := [], mission := 0, held := false, stopGt := 0, causes := 0, srst := false, windOut := false, circOut := false }; let s : State := (State.serv.wf LANE_STATE.STATE 1 |>.wf AST_INJCTL.ARM 0)
    (s.on = true) ∧ (s.isPeer k = true) ∧ (s.bridgeQuiet k) ∧ (s.st = stBoot ∨ s.st = stSelftest)) ∧
    (let k : Fin 3 := 1; let s : State := ({ ((State.serv).wf LANE_STATE.STATE 4 |>.wf SPN_SYNCSTAT.ALIGNED 1 |>.wf TSK_STAT.STATE 0 |>.wf AST_INJCTL.ARM 0 |>.wf TSK_MODESTAT.MISSION 0 |>.wf TSK_MODESTAT.HELD 0 |>.wf TSK_MODESTAT.STOPCAUSE 0) with svc := { State.serv.svc with wind := { State.serv.svc.wind with st := 1 }, single := [] } }.setRdmPeer k { alive := true, freshAt := 3 })
    (s.on = true) ∧ (s.isPeer k = true) ∧ ((s.rdmPeer k).alive = true) ∧ ((s.rdmPeer k).freshAt + 3000000 ≤ s.now)) ∧
    (let s : State := (State.serv.wf LANE_STATE.STATE 4 |>.wf SPN_SYNCSTAT.ALIGNED 0 |>.wf TSK_CTRL.FITPERS 2)
    (s.st = stService) ∧ (s.alignOk = false)) ∧
    (let s : State := ({ { ((State.serv).wf LANE_STATE.STATE 4 |>.wf SPN_SYNCSTAT.ALIGNED 1 |>.wf TSK_STAT.STATE 0 |>.wf AST_INJCTL.ARM 0) with svc := { State.serv.svc with wind := { State.serv.svc.wind with st := 1 }, single := [] } }.wf TSK_MODESTAT.MISSION 1 |>.setN TSK_STOPGTLO.adr 5 |>.setN TSK_STOPGTHI.adr 0 with gt := 40000000000 })
    (s.on = true) ∧ (s.mission = misStop) ∧ (s.stopGt + 30000000000 ≤ s.gt)) ∧
    (let p : Nat := 20000; let s : State := (({ { ((State.serv).wf LANE_STATE.STATE 4 |>.wf SPN_SYNCSTAT.ALIGNED 1 |>.wf TSK_STAT.STATE 0 |>.wf AST_INJCTL.ARM 0 |>.wf TSK_MODESTAT.MISSION 0 |>.wf TSK_MODESTAT.HELD 0 |>.wf TSK_MODESTAT.STOPCAUSE 0 |>.wf TSK_MODESTAT.MISSION 1 |>.wf TSK_MODESTAT.HELD 1 |>.wf TSK_SRSTSTAT.JAMMED 0) with svc := { State.serv.svc with wind := { State.serv.svc.wind with st := 1 }, single := [] } } with svc := { State.serv.svc with wind := { State.serv.svc.wind with st := 1 }, single := [], parkSince := some 5 } }).setRdmPeer 1 ({ claim := some (5, true, true), alive := true, freshAt := 9900000, vote := some ({ fit := true, seq := 5, inService := true, relayed := [], mission := 0, held := false, stopGt := 0, causes := 0, srst := false, windOut := false, circOut := false }) }) |>.setRdmPeer 2 ({ claim := some (5, true, true), alive := true, freshAt := 9900000, vote := some ({ fit := true, seq := 5, inService := true, relayed := [], mission := 0, held := false, stopGt := 0, causes := 0, srst := false, windOut := false, circOut := false }) }))
    (s.on = true) ∧ (10000 ≤ p) ∧ (p ≤ 500000) ∧ (s.rb TSK_SRSTSTAT.JAMMED = false) ∧ (s.tsk.pressBad = false) ∧ (s.svc.parkSince.isSome = true) ∧ (s.fit = true) ∧ (s.memberPeers.length = 2) ∧ (2 ≤ s.windingsIn) ∧ (s.singleSource = false) ∧ ((∀ k ∈ s.memberPeers, (s.rdmPeer k).vote.all (fun v => v.mission == misContinue && !v.held) = true))) ∧
    (let k : Fin 3 := 1; let v : Vote := { seq := 5, fit := true, inService := true, held := false, stopGt := 0, causes := 0, srst := false, windOut := 0, circOut := 0, relayed := [], mission := 0 }; let s : State := ((({ State.serv.wf AST_INJCTL.ARM 0 with ast := { State.serv.ast with held := [] } } : State).wf LANE_PEERS.BRIDGE_UP 6).wf LANE_STATE.STATE (3 + State.serv.now % 2) |>.setPeer k { hb := { state := 3 } })
    (s.on = true) ∧ (s.isPeer k = true) ∧ (s.bridgeQuiet k) ∧ (s.st = stIntegrate ∨ s.st = stService) ∧ (s.bridgeUp k = true) ∧ ((s.peer k).hb.state ≠ stDebug)) :=
  by
  iterate 9 refine And.intro (by decide +kernel) ?_
  decide +kernel

theorem wit_Commissioning :
    (let ch : Fin 8 := 0; let o : Word := 8; let d : List Byte := [1, 2, 3, 4]; let r : HmbRun := { op := 0x600, tag := 7, takenAt := 3, cmd := some (.cmsLoad ch o d) }; let s : State := ((({ (State.serv : State) with sec := { State.serv.sec with proc := none, staging := none } }).setChan ch { (State.serv.chan ch) with run := some r }).wb (HMB_CHCFG.EN ch) true)
    (s.Asked ch (.cmsLoad ch o d) r) ∧ (4 ≤ d.length) ∧ (d.length ≤ 1016) ∧ (d.length % 4 = 0) ∧ (s.sec.proc = none) ∧ (o.toNat % 4 = 0) ∧ (o.toNat + d.length ≤ 65536)) ∧
    (let ch : Fin 8 := 0; let o : Word := 65534; let d : List Byte := [1, 2, 3, 4]; let r : HmbRun := { op := 0x600, tag := 7, takenAt := 3, cmd := some (.cmsLoad ch o d) }; let s : State := ((({ (State.serv : State) with sec := { State.serv.sec with proc := none } }).setChan ch { (State.serv.chan ch) with run := some r }).wb (HMB_CHCFG.EN ch) true)
    (s.Asked ch (.cmsLoad ch o d) r) ∧ (4 ≤ d.length) ∧ (d.length ≤ 1016) ∧ (d.length % 4 = 0) ∧ (s.sec.proc = none) ∧ (o.toNat % 4 ≠ 0 ∨ 65536 < o.toNat + d.length)) ∧
    (let ch : Fin 8 := 0; let o : Word := 8; let d : List Byte := [1, 2, 3, 4]; let r : HmbRun := { op := 0x600, tag := 7, takenAt := 3, cmd := some (.cmsLoad ch o d) }; let s : State := ((({ (State.serv : State) with sec := { State.serv.sec with proc := some { kind := 1, step := 3 } } }).setChan ch { (State.serv.chan ch) with run := some r }).wb (HMB_CHCFG.EN ch) true)
    (s.Asked ch (.cmsLoad ch o d) r) ∧ (4 ≤ d.length) ∧ (d.length ≤ 1016) ∧ (d.length % 4 = 0) ∧ (s.procBusy = true)) ∧
    (let ch : Fin 8 := 0; let r : HmbRun := { op := 0x603, tag := 7, takenAt := 3, cmd := some (.cmsAbort ch) }; let s : State := ((({ (State.serv : State) with sec := { State.serv.sec with proc := none, staging := some [(5, 7)] } }).setChan ch { (State.serv.chan ch) with run := some r }).wb (HMB_CHCFG.EN ch) true)
    (s.Asked ch (.cmsAbort ch) r) ∧ (s.sec.proc = none)) ∧
    (let ch : Fin 8 := 0; let r : HmbRun := { op := 0x603, tag := 7, takenAt := 3, cmd := some (.cmsAbort ch) }; let s : State := ((({ (State.serv : State) with sec := { State.serv.sec with proc := some { kind := 1, step := 3 } } }).setChan ch { (State.serv.chan ch) with run := some r }).wb (HMB_CHCFG.EN ch) true)
    (s.Asked ch (.cmsAbort ch) r) ∧ (s.procBusy = true)) ∧
    (let ch : Fin 8 := 0; let r : HmbRun := { op := 0x601, tag := 7, takenAt := 3, cmd := some (.cmsCheck 0) }; let s : State := ((({ (State.serv.wf AST_INJCTL.ARM 0 |>.wf LANE_PEERS.BRIDGE_UP 6 : State) with sec := { State.serv.sec with proc := none } } : State).setChan ch { (State.serv.chan ch) with run := some r }).wb (HMB_CHCFG.EN ch) true)
    (s.Asked ch (.cmsCheck ch) r) ∧ (s.sec.proc = none) ∧ (s.peerAbsent = false) ∧ (s.otp.lane = 0) ∧ (s.otp.jv2g = false) ∧ (s.rf AST_INJCTL.ARM = 0) ∧ (s.ast.held = [])) ∧
    (let ch : Fin 8 := 0; let r : HmbRun := { op := 0x601, tag := 7, takenAt := 3, cmd := some (.cmsCheck 0) }; let s : State := ((({ ({ (State.serv.wf AST_INJCTL.ARM 0 |>.wf LANE_PEERS.BRIDGE_UP 7 : State) with sec := { State.serv.sec with proc := none } } : State) with otp := { State.serv.otp with lane := 1 } } : State).setChan ch { (State.serv.chan ch) with run := some r }).wb (HMB_CHCFG.EN ch) true)
    (s.Asked ch (.cmsCheck ch) r) ∧ (s.sec.proc = none) ∧ (s.peerAbsent = false) ∧ (s.otp.lane ≠ 0) ∧ (s.otp.lane ≤ 2) ∧ (s.bridgeUp 0 = true) ∧ (s.rf AST_INJCTL.ARM = 0) ∧ (s.ast.held = [])) ∧
    (let cn : List Nat := shaInit; let n : Nat := 0; let pf : List Nat := [1, 1]; let cap : Nat := 255; let f : Option (Nat × Nat × Nat) := none; let s : State := ((({ State.serv.wf AST_INJCTL.ARM 0 |>.wf LANE_PEERS.BRIDGE_UP 3 with otp := { State.serv.otp with lane := 2, jv2g := false }, sec := { State.serv.sec with proc := none, checkCh := none, digest := none } } : State).setPeer 0 { hb := { state := 3 } }).setPeer 1 { hb := { state := 3 } })
    (s.on = true) ∧ (s.isPeer 1 = true) ∧ (s.bridgeQuiet 1) ∧ (s.takesPart 1 = true) ∧ (s.sec.proc = none) ∧ (s.otp.lane = 2) ∧ (s.otp.jv2g = false) ∧ (cn ≠ []) ∧ (s.sec.checkCh = none) ∧ (s.ast.held = [])) ∧
    (let ch : Fin 8 := 0; let r : HmbRun := { op := 0x601, tag := 7, takenAt := 3, cmd := some (.cmsCheck ch) }; let s : State := ((({ (State.serv : State) with sec := { State.serv.sec with proc := some { kind := 1, step := 3 } } }).setChan ch { (State.serv.chan ch) with run := some r }).wb (HMB_CHCFG.EN ch) true)
    (s.Asked ch (.cmsCheck ch) r) ∧ (s.procBusy = true)) ∧
    (let ch : Fin 8 := 0; let c : Vector Byte 8 := Vector.replicate 8 65; let r : HmbRun := { op := 0x602, tag := 7, takenAt := 3, cmd := some (.cmsConfirm ch c) }; let s : State := ((({ (State.serv.wf LANE_PEERS.BRIDGE_UP 7 |>.setPeer 0 { hb := { state := 3 } } |>.setPeer 1 { hb := { state := 3 } } |>.setPeer 2 { hb := { state := 3 } } |>.setN NCH_CHECKLO.adr 0 |>.setN NCH_CHECKHI.adr 0 |>.wf NCH_CMSSTAT.STAGE 0 : State) with sec := { State.serv.sec with proc := none, set := true, staging := none } }).setChan ch { (State.serv.chan ch) with run := some r }).wb (HMB_CHCFG.EN ch) true)
    (s.Asked ch (.cmsConfirm ch c) r) ∧ (s.sec.proc = none) ∧ (s.peerAbsent = false) ∧ (s.sec.set = true) ∧ (c.toList = valueChars s.activeV) ∧ (s.sec.staging = none) ∧ (s.rf NCH_CMSSTAT.STAGE = 0)) ∧
    (let ch : Fin 8 := 0; let c : Vector Byte 8 := Vector.replicate 8 65; let r : HmbRun := { op := 0x602, tag := 7, takenAt := 3, cmd := some (.cmsConfirm ch c) }; let s : State := ((({ (State.serv : State) with sec := { State.serv.sec with proc := some { kind := 1, step := 3 } } }).setChan ch { (State.serv.chan ch) with run := some r }).wb (HMB_CHCFG.EN ch) true)
    (s.Asked ch (.cmsConfirm ch c) r) ∧ (s.procBusy = true)) ∧
    (let ch : Fin 8 := 0; let c : Vector Byte 8 := Vector.replicate 8 65; let r : HmbRun := { op := 0x602, tag := 7, takenAt := 3, cmd := some (.cmsConfirm ch c) }; let s : State := ((({ (State.serv.wf LANE_PEERS.BRIDGE_UP 7 |>.setPeer 0 { hb := { state := 3 } } |>.setPeer 1 { hb := { state := 3 } } |>.setPeer 2 { hb := { state := 3 } } |>.wf NCH_CMSSTAT.STAGE 1 : State) with sec := { State.serv.sec with proc := none, set := false } }).setChan ch { (State.serv.chan ch) with run := some r }).wb (HMB_CHCFG.EN ch) true)
    (s.Asked ch (.cmsConfirm ch c) r) ∧ (s.sec.proc = none) ∧ (s.peerAbsent = false) ∧ (s.sec.set = false) ∧ (s.rf NCH_CMSSTAT.STAGE = 1)) ∧
    (let ch : Fin 8 := 0; let q : HmbRun := { op := 0x602, tag := 7, takenAt := 3, cmd := some (.cmsConfirm 0 (Vector.replicate 8 65)) }; let c : Vector Byte 8 := Vector.replicate 8 65; let d : List Byte := [0, 0, 0, 0, 0, 9]; let s : State := ((({ (State.serv.wf AST_INJCTL.ARM 0 |>.wf LANE_PEERS.BRIDGE_UP 6 |>.wf NCH_CMSSTAT.STAGE 2 : State) with sec := { State.serv.sec with proc := none, staging := some [(5, 7)], digest := some d } } : State).setChan ch { (State.serv.chan ch) with run := some q }).wb (HMB_CHCFG.EN ch) true)
    (s.Asked ch (.cmsConfirm ch c) q) ∧ (s.sec.proc = none) ∧ (s.peerAbsent = false) ∧ (s.rf NCH_CMSSTAT.STAGE = 2) ∧ (s.sec.digest = some d) ∧ (s.sec.staging.isSome = true) ∧ (s.otp.used0 < 1024) ∧ (s.rf AST_INJCTL.ARM = 0) ∧ (s.ast.held = [])) ∧
    (let p : Proc := { kind := 1, step := 1, ch := none, v := 99, slot := 1, k := 4, notchGt := 5 }; let s : State := ({ (State.serv.wf AST_INJCTL.ARM 0 |>.wf LANE_PEERS.BRIDGE_UP 6 : State) with sec := { State.serv.sec with proc := some p, staging := some [(5, 7)] } })
    (s.serves = true) ∧ (s.sec.proc = some p) ∧ (p.kind = 1) ∧ (p.step = 1)) ∧
    (let p : Proc := { kind := 1, step := 2, ch := none, v := 99, slot := 1, k := 4, notchGt := 5 }; let s : State := ({ ({ (State.serv.wf AST_INJCTL.ARM 0 |>.wf LANE_PEERS.BRIDGE_UP 6 : State) with sec := { State.serv.sec with proc := some p, staging := some [(5, 7)] } } : State) with flash := { State.serv.flash with par := [(0, [(1, 2)]), (1, [(1, 3)])] } })
    (s.serves = true) ∧ (s.sec.proc = some p) ∧ (p.kind = 1) ∧ (p.step = 2) ∧ (p.slot ≤ 1) ∧ ((s.flash.par.map (·.1)).Pairwise (· < ·))) ∧
    (let p : Proc := { kind := 1, step := 3, ch := none, v := 99, slot := 1, k := 4, notchGt := 5 }; let s : State := ({ (State.serv.wf AST_INJCTL.ARM 0 |>.wf LANE_PEERS.BRIDGE_UP 6 : State) with sec := { State.serv.sec with proc := some p, staging := some [(5, 7)] } })
    (s.serves = true) ∧ (s.sec.proc = some p) ∧ (p.kind = 1) ∧ (p.step = 3)) ∧
    (let p : Proc := { kind := 1, step := 4, ch := none, v := 99, slot := 1, k := 4, notchGt := 5 }; let s : State := ({ (State.serv.wf AST_INJCTL.ARM 0 |>.wf LANE_PEERS.BRIDGE_UP 6 : State) with sec := { State.serv.sec with proc := some p, staging := some [(5, 7)] } })
    (s.serves = true) ∧ (s.sec.proc = some p) ∧ (p.kind = 1) ∧ (p.step = 4)) ∧
    (let p : Proc := { kind := 1, step := 5, ch := none, v := 99, slot := 1, k := 4, notchGt := 5 }; let s : State := ({ (State.serv.wf AST_INJCTL.ARM 0 |>.wf LANE_PEERS.BRIDGE_UP 6 : State) with sec := { State.serv.sec with proc := some p, staging := some [(5, 7)] } })
    (s.serves = true) ∧ (s.sec.proc = some p) ∧ (p.kind = 1) ∧ (p.step = 5)) ∧
    (let p : Proc := { kind := 1, step := 6, ch := none, v := 99, slot := 1, k := 4, notchGt := 5 }; let s : State := ({ (State.serv.wf AST_INJCTL.ARM 0 |>.wf LANE_PEERS.BRIDGE_UP 6 : State) with sec := { State.serv.sec with proc := some p, staging := some [(5, 7)] } })
    (s.serves = true) ∧ (s.sec.proc = some p) ∧ (p.kind = 1) ∧ (p.step = 6) ∧ (s.rf AST_INJCTL.ARM = 0) ∧ (s.ast.held = [])) ∧
    (let p : Proc := { kind := 1, step := 8, ch := none, v := 99, slot := 1, k := 4, notchGt := 5 }; let s : State := ({ (State.serv.wf AST_INJCTL.ARM 0 |>.wf LANE_PEERS.BRIDGE_UP 6 : State) with sec := { State.serv.sec with proc := some p, staging := some [(5, 7)] } })
    (s.serves = true) ∧ (s.sec.proc = some p) ∧ (p.kind = 1) ∧ (p.step = 8) ∧ (s.rf AST_INJCTL.ARM = 0) ∧ (s.ast.held = [])) ∧
    (let p : Proc := { kind := 1, step := 9, ch := none, v := 99, slot := 1, k := 4, notchGt := 5 }; let s : State := ({ (State.serv.wf AST_INJCTL.ARM 0 |>.wf LANE_PEERS.BRIDGE_UP 6 : State) with sec := { State.serv.sec with proc := some p, staging := some [(5, 7)] } })
    (s.serves = true) ∧ (s.sec.proc = some p) ∧ (p.kind = 1) ∧ (p.step = 9)) ∧
    (let p : Proc := { kind := 1, step := 10, ch := none, v := 99, slot := 1, k := 4, notchGt := 5 }; let s : State := ({ (State.serv.wf AST_INJCTL.ARM 0 |>.wf LANE_PEERS.BRIDGE_UP 6 : State) with sec := { State.serv.sec with proc := some p, staging := some [(5, 7)] } })
    (s.serves = true) ∧ (s.sec.proc = some p) ∧ (p.kind = 1) ∧ (p.step = 10)) ∧
    (let p : Proc := { kind := 1, step := 11, ch := none, v := 99, slot := 1, k := 4, notchGt := 5 }; let s : State := ({ (State.serv.wf AST_INJCTL.ARM 0 |>.wf LANE_PEERS.BRIDGE_UP 6 : State) with sec := { State.serv.sec with proc := some p, staging := some [(5, 7)] } })
    (s.serves = true) ∧ (s.sec.proc = some p) ∧ (p.kind = 1) ∧ (p.step = 11) ∧ (p.ch = none) ∧ (p.resumed = false)) ∧
    (let p : Proc := { kind := 1, step := 3, ch := none, v := 99, slot := 1, k := 4, notchGt := 5 }; let s : State := ({ (State.serv.wf AST_INJCTL.ARM 0 |>.wf LANE_PEERS.BRIDGE_UP 6 : State) with sec := { State.serv.sec with proc := some p, staging := some [(5, 7)] } })
    (s.serves = true) ∧ (s.sec.proc = some p) ∧ (p.kind = 1) ∧ (p.step ≤ 6) ∧ (p.ch = none) ∧ (p.resumed = false)) ∧
    (let p : Proc := { kind := 1, step := 9, ch := none, v := 99, slot := 1, k := 4, notchGt := 5 }; let s : State := ({ (State.serv.wf AST_INJCTL.ARM 0 |>.wf LANE_PEERS.BRIDGE_UP 6 : State) with sec := { State.serv.sec with proc := some p, staging := some [(5, 7)] } })
    (s.serves = true) ∧ (s.sec.proc = some p) ∧ (p.kind = 1) ∧ (p.step = 9) ∧ (p.retried = false)) ∧
    (let p : Proc := { kind := 1, step := 7, ch := none, v := 99, slot := 1, k := 4, notchGt := 5 }; let s : State := ({ ({ (State.serv.wf AST_INJCTL.ARM 0 |>.wf LANE_PEERS.BRIDGE_UP 6 : State) with sec := { State.serv.sec with proc := some p, staging := some [(5, 7)] } } : State) with now := 60000000 })
    (s.serves = true) ∧ (s.sec.proc = some p) ∧ (p.kind = 1) ∧ (p.step = 7) ∧ (p.waitAt + 50000000 ≤ s.now) ∧ (p.ch = none) ∧ (p.resumed = false)) ∧
    (let p : Proc := { kind := 1, step := 7, slot := 1, ch := some 3, waitAt := 5 }; let s : State := ({ State.serv.wf AST_INJCTL.ARM 0 with now := State.serv.now + 99000000, sec := { State.serv.sec with proc := some p } })
    (s.serves = true) ∧ (s.sec.proc = some p) ∧ (p.kind = 1) ∧ (p.step = 7) ∧ (p.waitAt + 50000000 ≤ s.now)) :=
  by
  iterate 26 refine And.intro (by decide +kernel) ?_
  decide +kernel

theorem wit_SecurityOrders :
    (let ch : Fin 8 := 0; let r : HmbRun := { op := 0x700, tag := 7, takenAt := 3, cmd := some (.secNonce ch) }; let s : State := (((State.serv).setChan ch { (State.serv.chan ch) with run := some r }).wb (HMB_CHCFG.EN ch) true)
    (s.Asked ch (.secNonce ch) r)) ∧
    (let l : List Byte := [7]; let g : Nat := 5; let s : State := ({ ({ (State.serv : State) with sec := { State.serv.sec with nonce := some (l, g) } } : State) with gt := 70000000000 })
    (s.on = true) ∧ (s.sec.nonce = some (l, g)) ∧ (g + 60000000000 ≤ s.gt)) ∧
    (let l : List Byte := [7]; let g : Nat := State.serv.gt; let s : State := ({ (State.serv : State) with sec := { State.serv.sec with nonce := some (l, g) } })
    (s.sec.nonce = some (l, g)) ∧ (s.gt < g + 60000000000)) ∧
    (let ch : Fin 8 := 0; let nc : Vector Byte 16 := Vector.replicate 16 7; let r : HmbRun := { op := 0x701, tag := 7, takenAt := 3, cmd := some (.secAttest ch nc) }; let s : State := (((State.serv).setChan ch { (State.serv.chan ch) with run := some r }).wb (HMB_CHCFG.EN ch) true)
    (s.Asked ch (.secAttest ch nc) r)) ∧
    (let ch : Fin 8 := 0; let o : List Byte := [74, 68, 66, 71, 1, 0, 0, 0] ++ leBytes 8 0 ++ (List.replicate 16 7 ++ (edPublic (leBytes 32 0) ++ (leBytes 4 0 ++ (leBytes 12 0 ++ leBytes 64 1)))); let r : HmbRun := { op := 0x703, tag := 7, takenAt := 3, cmd := some (.secDebugEnter ch o) }; let s : State := ((({ (State.serv.wf LANE_STATE.STATE 3 : State) with sec := { State.serv.sec with nonce := some (List.replicate 16 7, State.serv.gt), proc := none } }).setChan ch { (State.serv.chan ch) with run := some r }).wb (HMB_CHCFG.EN ch) true)
    (s.Asked ch (.secDebugEnter ch o) r) ∧ (s.debugOff = false) ∧ (s.tokenOk 1 o = true) ∧ (s.st = stIntegrate)) ∧
    (let ch : Fin 8 := 0; let o : List Byte := [74, 68, 66, 71, 1, 0, 0, 0] ++ leBytes 8 0 ++ (List.replicate 16 7 ++ (edPublic (leBytes 32 0) ++ (leBytes 4 0 ++ (leBytes 12 0 ++ leBytes 64 1)))); let r : HmbRun := { op := 0x703, tag := 7, takenAt := 3, cmd := some (.secDebugEnter ch o) }; let s : State := ((({ (State.serv : State) with sec := { State.serv.sec with nonce := some (List.replicate 16 7, State.serv.gt), proc := none } }).setChan ch { (State.serv.chan ch) with run := some r }).wb (HMB_CHCFG.EN ch) true)
    (s.Asked ch (.secDebugEnter ch o) r) ∧ (s.debugOff = false) ∧ (s.tokenOk 1 o = true)) ∧
    (let ch : Fin 8 := 0; let o : List Byte := [74, 68, 66, 71, 2, 0, 0, 0] ++ leBytes 8 0 ++ (List.replicate 16 7 ++ (edPublic (leBytes 32 0) ++ (leBytes 4 5 ++ (leBytes 12 0 ++ leBytes 64 1)))); let r : HmbRun := { op := 0x703, tag := 7, takenAt := 3, cmd := some (.secDebugEnter ch o) }; let s : State := ((({ (State.serv : State) with sec := { State.serv.sec with nonce := some (List.replicate 16 7, State.serv.gt), proc := none } }).setChan ch { (State.serv.chan ch) with run := some r }).wb (HMB_CHCFG.EN ch) true)
    (s.Asked ch (.secDebugEnter ch o) r) ∧ (s.debugOff = false) ∧ (s.tokenOk 1 o = false)) ∧
    (let ch : Fin 8 := 0; let o : List Byte := []; let r : HmbRun := { op := 0x703, tag := 7, takenAt := 3, cmd := some (.secDebugEnter ch o) }; let s : State := ((({ State.serv with otp := { State.serv.otp with used4 := 1 } }).setChan ch { (State.serv.chan ch) with run := some r }).wb (HMB_CHCFG.EN ch) true)
    (s.Asked ch (.secDebugEnter ch o) r) ∧ (s.debugOff = true)) ∧
    (let ch : Fin 8 := 0; let o : List Byte := []; let r : HmbRun := { op := 0x705, tag := 7, takenAt := 3, cmd := some (.secInjectToken ch o) }; let s : State := ((({ State.serv with otp := { State.serv.otp with used4 := 1 } }).setChan ch { (State.serv.chan ch) with run := some r }).wb (HMB_CHCFG.EN ch) true)
    (s.Asked ch (.secInjectToken ch o) r) ∧ (s.debugOff = true)) ∧
    (let ch : Fin 8 := 0; let o : List Byte := [74, 68, 66, 71, 2, 0, 0, 0] ++ leBytes 8 0 ++ (List.replicate 16 7 ++ (edPublic (leBytes 32 0) ++ (leBytes 4 5 ++ (leBytes 12 0 ++ leBytes 64 1)))); let r : HmbRun := { op := 0x705, tag := 7, takenAt := 3, cmd := some (.secInjectToken ch o) }; let s : State := ((({ (State.serv : State) with sec := { State.serv.sec with nonce := some (List.replicate 16 7, State.serv.gt), proc := none } }).setChan ch { (State.serv.chan ch) with run := some r }).wb (HMB_CHCFG.EN ch) true)
    (s.Asked ch (.secInjectToken ch o) r) ∧ (s.debugOff = false) ∧ (s.tokenOk 2 o = true)) ∧
    (let ch : Fin 8 := 0; let o : List Byte := [74, 68, 66, 71, 1, 0, 0, 0] ++ leBytes 8 0 ++ (List.replicate 16 7 ++ (edPublic (leBytes 32 0) ++ (leBytes 4 0 ++ (leBytes 12 0 ++ leBytes 64 1)))); let r : HmbRun := { op := 0x705, tag := 7, takenAt := 3, cmd := some (.secInjectToken ch o) }; let s : State := ((({ (State.serv : State) with sec := { State.serv.sec with nonce := some (List.replicate 16 7, State.serv.gt), proc := none } }).setChan ch { (State.serv.chan ch) with run := some r }).wb (HMB_CHCFG.EN ch) true)
    (s.Asked ch (.secInjectToken ch o) r) ∧ (s.debugOff = false) ∧ (s.tokenOk 2 o = false)) ∧
    (let r : HmbRun := { op := 0x704, tag := 7, takenAt := 3, cmd := some (.secDebugExit 0) }; let s : State := ((State.serv.setChan 0 { (State.serv.chan 0) with run := some r }).wb (HMB_CHCFG.EN 0) true)
    (s.Asked 0 (.secDebugExit 0) r)) ∧
    (let ch : Fin 8 := 4; let r : HmbRun := { op := 0x704, tag := 7, takenAt := 3, cmd := some (.secDebugExit 4) }; let s : State := (((State.serv.setChan ch { (State.serv.chan ch) with run := some r, wait := [] }).wb (HMB_CHCFG.EN ch) true).wf (HMB_CHPATH.RSP ch) 9 |>.wf (QUE_CFG.EN 9) 1 |>.wf (QUE_STAT.ADMIT 9) 1 |>.wf (QUE_CFG.SIZEEXP 9) 4 |>.wf (QUE_CNT.FREE 9) 16 |>.setN (QUE_BASE.adr 9) 0x20100000)
    (s.Asked ch (.secDebugExit ch) r) ∧ ((s.finish ch stOk []).respWaits ch = false)) ∧
    (let ch : Fin 8 := 0; let o : List Byte := [74, 79, 82, 68, 1, 0, 0, 0] ++ leBytes 8 0 ++ (List.replicate 16 7 ++ leBytes 64 1); let r : HmbRun := { op := 0x706, tag := 7, takenAt := 3, cmd := some (.secDebugDisable ch o) }; let s : State := ((({ (State.serv : State) with sec := { State.serv.sec with nonce := some (List.replicate 16 7, State.serv.gt), proc := none } }).setChan ch { (State.serv.chan ch) with run := some r }).wb (HMB_CHCFG.EN ch) true)
    (s.Asked ch (.secDebugDisable ch o) r) ∧ (s.sec.proc = none) ∧ (s.notchUsed (orderCounter 1) < notchBudget (orderCounter 1)) ∧ (s.orderOk 1 o = true)) ∧
    (let ch : Fin 8 := 0; let o : List Byte := [74, 79, 82, 68, 3, 0, 0, 0] ++ leBytes 8 0 ++ (List.replicate 16 7 ++ leBytes 64 1); let r : HmbRun := { op := 0x708, tag := 7, takenAt := 3, cmd := some (.secRekey ch o) }; let s : State := ((({ (State.serv : State) with sec := { State.serv.sec with nonce := some (List.replicate 16 7, State.serv.gt), proc := none } }).setChan ch { (State.serv.chan ch) with run := some r }).wb (HMB_CHCFG.EN ch) true)
    (s.Asked ch (.secRekey ch o) r) ∧ (s.sec.proc = none) ∧ (s.notchUsed (orderCounter 3) < notchBudget (orderCounter 3)) ∧ (s.orderOk 3 o = true)) ∧
    (let ch : Fin 8 := 0; let o : List Byte := [74, 79, 82, 68, 2, 0, 1, 0] ++ leBytes 8 0 ++ (List.replicate 16 7 ++ leBytes 64 1); let r : HmbRun := { op := 0x707, tag := 7, takenAt := 3, cmd := some (.secRootRevoke ch o) }; let s : State := ((({ ({ (State.serv : State) with sec := { State.serv.sec with nonce := some (List.replicate 16 7, State.serv.gt), proc := none, bank := 0 } } : State) with flash := { State.serv.flash with fw := [0, 1].map (fun y => (y, ((leBytes 4 0x4E414D4A ++ [BitVec.ofNat 8 y, 1, 1, 0, 1, 0, 1, 0] ++ List.replicate 20 0 ++ List.replicate 80 0 ++ leBytes 64 1).zipIdx.map (fun (b : Byte × Nat) => (b.2, b.1))))) } }).setChan ch { (State.serv.chan ch) with run := some r }).wb (HMB_CHCFG.EN ch) true)
    (s.Asked ch (.secRootRevoke ch o) r) ∧ (s.sec.proc = none) ∧ (s.notchUsed (orderCounter 2) < notchBudget (orderCounter 2)) ∧ (s.orderOk 2 o = true) ∧ (s.manifestOk s.sec.bank 0 (s.otp.used1 + 1) = true) ∧ (s.manifestOk s.sec.bank 1 (s.otp.used1 + 1) = true)) ∧
    (let ch : Fin 8 := 0; let o : List Byte := [74, 79, 82, 68, 2, 0, 1, 0] ++ leBytes 8 0 ++ (List.replicate 16 7 ++ leBytes 64 1); let r : HmbRun := { op := 0x707, tag := 7, takenAt := 3, cmd := some (.secRootRevoke ch o) }; let s : State := ((({ ({ (State.serv : State) with sec := { State.serv.sec with nonce := some (List.replicate 16 7, State.serv.gt), proc := none, bank := 0 } } : State) with flash := {} }).setChan ch { (State.serv.chan ch) with run := some r }).wb (HMB_CHCFG.EN ch) true)
    (s.Asked ch (.secRootRevoke ch o) r) ∧ (s.sec.proc = none) ∧ (s.notchUsed 1 < notchBudget 1) ∧ (s.orderOk 2 o = true) ∧ (s.manifestOk s.sec.bank 0 (s.otp.used1 + 1) = false)) ∧
    (let ch : Fin 8 := 0; let r : HmbRun := { op := 0x709, tag := 7, takenAt := 3, cmd := some (.secProfileLock 0 ([74, 79, 82, 68, 4, 0, 0, 1] ++ leBytes 8 0 ++ (List.replicate 16 7 ++ leBytes 64 1))) }; let o : List Byte := [74, 79, 82, 68, 4, 0, 0, 1] ++ leBytes 8 0 ++ (List.replicate 16 7 ++ leBytes 64 1); let s : State := ((({ (State.serv.wf AST_INJCTL.ARM 0 |>.wf LANE_PEERS.BRIDGE_UP 6 |>.wf LANE_PROFILE.MAXPROF 1 : State) with sec := { State.serv.sec with nonce := some (List.replicate 16 7, State.serv.gt), proc := none } } : State).setChan ch { (State.serv.chan ch) with run := some r }).wb (HMB_CHCFG.EN ch) true)
    (s.Asked ch (.secProfileLock ch o) r) ∧ (s.sec.proc = none) ∧ (s.peerAbsent = false) ∧ (s.otp.used3 < 4) ∧ (s.orderOk 4 o = true) ∧ (1 ≤ leAt o 7 1) ∧ (leAt o 7 1 ≤ s.rf LANE_PROFILE.MAXPROF) ∧ (s.rf AST_INJCTL.ARM = 0) ∧ (s.ast.held = [])) ∧
    (let ch : Fin 8 := 0; let o : List Byte := []; let r : HmbRun := { op := 0x706, tag := 7, takenAt := 3, cmd := some (.secDebugDisable ch o) }; let s : State := ((({ ({ (State.serv : State) with sec := { State.serv.sec with proc := none } } : State) with otp := { State.serv.otp with used1 := 15, used2 := 3, used3 := 4, used4 := 1 } }).setChan ch { (State.serv.chan ch) with run := some r }).wb (HMB_CHCFG.EN ch) true)
    (s.Asked ch (.secDebugDisable ch o) r) ∧ (s.sec.proc = none) ∧ (s.notchUsed (orderCounter 1) = notchBudget (orderCounter 1))) ∧
    (let ch : Fin 8 := 0; let o : List Byte := []; let r : HmbRun := { op := 0x707, tag := 7, takenAt := 3, cmd := some (.secRootRevoke ch o) }; let s : State := ((({ ({ (State.serv : State) with sec := { State.serv.sec with proc := none } } : State) with otp := { State.serv.otp with used1 := 15, used2 := 3, used3 := 4, used4 := 1 } }).setChan ch { (State.serv.chan ch) with run := some r }).wb (HMB_CHCFG.EN ch) true)
    (s.Asked ch (.secRootRevoke ch o) r) ∧ (s.sec.proc = none) ∧ (s.notchUsed (orderCounter 2) = notchBudget (orderCounter 2))) ∧
    (let ch : Fin 8 := 0; let o : List Byte := []; let r : HmbRun := { op := 0x708, tag := 7, takenAt := 3, cmd := some (.secRekey ch o) }; let s : State := ((({ ({ (State.serv : State) with sec := { State.serv.sec with proc := none } } : State) with otp := { State.serv.otp with used1 := 15, used2 := 3, used3 := 4, used4 := 1 } }).setChan ch { (State.serv.chan ch) with run := some r }).wb (HMB_CHCFG.EN ch) true)
    (s.Asked ch (.secRekey ch o) r) ∧ (s.sec.proc = none) ∧ (s.notchUsed (orderCounter 3) = notchBudget (orderCounter 3))) ∧
    (let ch : Fin 8 := 0; let o : List Byte := []; let r : HmbRun := { op := 0x709, tag := 7, takenAt := 3, cmd := some (.secProfileLock ch o) }; let s : State := ((({ ({ (State.serv.wf LANE_PEERS.BRIDGE_UP 7 |>.setPeer 0 { hb := { state := 3 } } |>.setPeer 1 { hb := { state := 3 } } |>.setPeer 2 { hb := { state := 3 } } : State) with sec := { State.serv.sec with proc := none } } : State) with otp := { State.serv.otp with used1 := 15, used2 := 3, used3 := 4, used4 := 1 } }).setChan ch { (State.serv.chan ch) with run := some r }).wb (HMB_CHCFG.EN ch) true)
    (s.Asked ch (.secProfileLock ch o) r) ∧ (s.sec.proc = none) ∧ (s.notchUsed (orderCounter 4) = notchBudget (orderCounter 4)) ∧ (s.peerAbsent = false)) ∧
    (let ch : Fin 8 := 0; let o : List Byte := [7, 8]; let r : HmbRun := { op := 0x706, tag := 7, takenAt := 3, cmd := some (.secDebugDisable ch o) }; let s : State := ((({ (State.serv : State) with sec := { State.serv.sec with nonce := some (List.replicate 16 7, State.serv.gt), proc := none } }).setChan ch { (State.serv.chan ch) with run := some r }).wb (HMB_CHCFG.EN ch) true)
    (s.Asked ch (.secDebugDisable ch o) r) ∧ (s.sec.proc = none) ∧ (s.notchUsed (orderCounter 1) < notchBudget (orderCounter 1)) ∧ (s.orderOk 1 o = false)) ∧
    (let ch : Fin 8 := 0; let o : List Byte := [7, 8]; let r : HmbRun := { op := 0x707, tag := 7, takenAt := 3, cmd := some (.secRootRevoke ch o) }; let s : State := ((({ (State.serv : State) with sec := { State.serv.sec with nonce := some (List.replicate 16 7, State.serv.gt), proc := none } }).setChan ch { (State.serv.chan ch) with run := some r }).wb (HMB_CHCFG.EN ch) true)
    (s.Asked ch (.secRootRevoke ch o) r) ∧ (s.sec.proc = none) ∧ (s.notchUsed (orderCounter 2) < notchBudget (orderCounter 2)) ∧ (s.orderOk 2 o = false)) ∧
    (let ch : Fin 8 := 0; let o : List Byte := [7, 8]; let r : HmbRun := { op := 0x708, tag := 7, takenAt := 3, cmd := some (.secRekey ch o) }; let s : State := ((({ (State.serv : State) with sec := { State.serv.sec with nonce := some (List.replicate 16 7, State.serv.gt), proc := none } }).setChan ch { (State.serv.chan ch) with run := some r }).wb (HMB_CHCFG.EN ch) true)
    (s.Asked ch (.secRekey ch o) r) ∧ (s.sec.proc = none) ∧ (s.notchUsed (orderCounter 3) < notchBudget (orderCounter 3)) ∧ (s.orderOk 3 o = false)) ∧
    (let ch : Fin 8 := 0; let o : List Byte := [7, 8]; let r : HmbRun := { op := 0x709, tag := 7, takenAt := 3, cmd := some (.secProfileLock ch o) }; let s : State := ((({ (State.serv.wf LANE_PEERS.BRIDGE_UP 7 |>.setPeer 0 { hb := { state := 3 } } |>.setPeer 1 { hb := { state := 3 } } |>.setPeer 2 { hb := { state := 3 } } : State) with sec := { State.serv.sec with nonce := some (List.replicate 16 7, State.serv.gt), proc := none } }).setChan ch { (State.serv.chan ch) with run := some r }).wb (HMB_CHCFG.EN ch) true)
    (s.Asked ch (.secProfileLock ch o) r) ∧ (s.sec.proc = none) ∧ (s.notchUsed (orderCounter 4) < notchBudget (orderCounter 4)) ∧ (s.orderOk 4 o = false) ∧ (s.peerAbsent = false)) ∧
    (let p : Proc := { kind := 2, step := 1, order := 1 }; let s : State := ({ (State.serv : State) with sec := { State.serv.sec with proc := some p } })
    (s.serves = true) ∧ (s.sec.proc = some p) ∧ (p.kind = 2) ∧ (p.step = 1)) ∧
    (let p : Proc := { kind := 2, step := 2, order := 1 }; let s : State := ({ (State.serv : State) with sec := { State.serv.sec with proc := some p } })
    (s.serves = true) ∧ (s.sec.proc = some p) ∧ (p.kind = 2) ∧ (p.step = 2) ∧ (p.order = 1)) ∧
    (let p : Proc := { kind := 2, step := 2, order := 2 }; let s : State := ({ (State.serv : State) with sec := { State.serv.sec with proc := some p } })
    (s.serves = true) ∧ (s.sec.proc = some p) ∧ (p.kind = 2) ∧ (p.step = 2) ∧ (p.order = 2)) ∧
    (let p : Proc := { kind := 2, step := 2, order := 3 }; let s : State := ({ (State.serv : State) with sec := { State.serv.sec with proc := some p } })
    (s.serves = true) ∧ (s.sec.proc = some p) ∧ (p.kind = 2) ∧ (p.step = 2) ∧ (p.order = 3)) ∧
    (let p : Proc := { kind := 2, step := 2, order := 4 }; let s : State := ({ (State.serv : State) with sec := { State.serv.sec with proc := some p } })
    (s.serves = true) ∧ (s.sec.proc = some p) ∧ (p.kind = 2) ∧ (p.step = 2) ∧ (p.order = 4)) ∧
    (let p : Proc := { kind := 2, step := 3, order := 2 }; let s : State := ({ (State.serv : State) with sec := { State.serv.sec with proc := some p } })
    (s.serves = true) ∧ (s.sec.proc = some p) ∧ (p.kind = 2) ∧ (p.step = 3) ∧ (p.order = 2) ∧ (p.ch = none)) ∧
    (let p : Proc := { kind := 2, step := 3, order := 1 }; let s : State := ({ (State.serv : State) with sec := { State.serv.sec with proc := some p } })
    (s.serves = true) ∧ (s.st ≠ stDebug) ∧ (s.sec.proc = some p) ∧ (p.kind = 2) ∧ (p.step = 3) ∧ (p.order = 1) ∧ (p.ch = none)) ∧
    (let p : Proc := { kind := 2, step := 3, order := 4, arg := 1 }; let s : State := ({ (State.serv : State) with sec := { State.serv.sec with proc := some p } })
    (s.serves = true) ∧ (s.sec.proc = some p) ∧ (p.kind = 2) ∧ (p.step = 3) ∧ (p.order = 4) ∧ (p.ch = none)) ∧
    (let p : Proc := { kind := 2, step := 3, order := 3 }; let s : State := ({ (State.serv : State) with sec := { State.serv.sec with proc := some p } })
    (s.serves = true) ∧ (s.sec.proc = some p) ∧ (p.kind = 2) ∧ (p.step = 3) ∧ (p.order = 3) ∧ (p.ch = none)) :=
  by
  iterate 34 refine And.intro (by decide +kernel) ?_
  decide +kernel

theorem wit_FirmwareUpdate :
    (let ch : Fin 8 := 0; let ty : Byte := 1; let n : Word := 4096; let r : HmbRun := { op := 0x900, tag := 7, takenAt := 3, cmd := some (.updBegin ch ty n) }; let s : State := ((({ ({ (State.serv : State) with sec := { State.serv.sec with proc := none } } : State) with upd := { State.serv.upd with isOpen := false, trial := false } }).setChan ch { (State.serv.chan ch) with run := some r }).wb (HMB_CHCFG.EN ch) true)
    (s.Asked ch (.updBegin ch ty n) r) ∧ (s.sec.proc = none) ∧ (s.upd.isOpen = false) ∧ (s.upd.trial = false) ∧ (ty.toNat ≤ 1) ∧ (4 ≤ n.toNat) ∧ (n.toNat ≤ fwSize ty.toNat) ∧ ((if s.otherBank = 0 then s.updCounts.1 else s.updCounts.2) < 3000)) ∧
    (let ch : Fin 8 := 0; let ty : Byte := 1; let n : Word := 4096; let r : HmbRun := { op := 0x900, tag := 7, takenAt := 3, cmd := some (.updBegin ch ty n) }; let s : State := ((({ (State.serv : State) with upd := { State.serv.upd with isOpen := true } }).setChan ch { (State.serv.chan ch) with run := some r }).wb (HMB_CHCFG.EN ch) true)
    (s.Asked ch (.updBegin ch ty n) r) ∧ (s.procBusy = true ∨ s.upd.isOpen = true ∨ s.upd.trial = true)) ∧
    (let ch : Fin 8 := 0; let ty : Byte := 0; let n : Word := 0x300001; let r : HmbRun := { op := 0x900, tag := 7, takenAt := 3, cmd := some (.updBegin ch ty n) }; let s : State := ((({ ({ (State.serv : State) with sec := { State.serv.sec with proc := none } } : State) with upd := { State.serv.upd with isOpen := false, trial := false } }).setChan ch { (State.serv.chan ch) with run := some r }).wb (HMB_CHCFG.EN ch) true)
    (s.Asked ch (.updBegin ch ty n) r) ∧ (s.sec.proc = none) ∧ (s.upd.isOpen = false) ∧ (s.upd.trial = false) ∧ (1 < ty.toNat ∨ n.toNat < 4 ∨ fwSize ty.toNat < n.toNat)) ∧
    (let ch : Fin 8 := 0; let ty : Byte := 0; let n : Word := 4096; let r : HmbRun := { op := 0x900, tag := 7, takenAt := 3, cmd := some (.updBegin ch ty n) }; let s : State := ((({ ({ ({ (State.serv : State) with sec := { State.serv.sec with proc := none, bank := 0 } } : State) with upd := { State.serv.upd with isOpen := false, trial := false } } : State) with flash := { State.serv.flash with journal := [{ op := 2, step := 3, k := 3000 }] } }).setChan ch { (State.serv.chan ch) with run := some r }).wb (HMB_CHCFG.EN ch) true)
    (s.Asked ch (.updBegin ch ty n) r) ∧ (s.sec.proc = none) ∧ (s.upd.isOpen = false) ∧ (s.upd.trial = false) ∧ (ty.toNat ≤ 1) ∧ (4 ≤ n.toNat) ∧ (n.toNat ≤ fwSize ty.toNat) ∧ (3000 ≤ (if s.otherBank = 0 then s.updCounts.1 else s.updCounts.2))) ∧
    (let p : Proc := { kind := 3, step := 1, order := 1 }; let s : State := ({ ({ (State.serv : State) with sec := { State.serv.sec with proc := some p } } : State) with flash := { State.serv.flash with fw := [(0, [(1, 2)])] } })
    (s.serves = true) ∧ (s.sec.proc = some p) ∧ (p.kind = 3) ∧ (p.step = 1)) ∧
    (let p : Proc := { kind := 3, step := 2, order := 1 }; let s : State := ({ ({ (State.serv : State) with sec := { State.serv.sec with proc := some p } } : State) with flash := { State.serv.flash with fw := [(0, [(1, 2)]), (1, [(1, 3)]), (2, [(1, 4)]), (3, [(1, 5)])] } })
    (s.serves = true) ∧ (s.sec.proc = some p) ∧ (p.kind = 3) ∧ (p.step = 2) ∧ ((s.flash.fw.map (·.1)).Pairwise (· < ·)) ∧ (s.sec.bank ≤ 1)) ∧
    (let p : Proc := { kind := 3, step := 3, order := 1, arg := 4096 }; let s : State := ({ ({ (State.serv.wf AST_INJCTL.ARM 0 |>.wf LANE_PEERS.BRIDGE_UP 6 : State) with sec := { State.serv.sec with proc := some p } } : State) with flash := { State.serv.flash with fw := [(0, [(1, 2)])] } })
    (s.serves = true) ∧ (s.sec.proc = some p) ∧ (p.kind = 3) ∧ (p.step = 3) ∧ (p.order ≤ 1) ∧ (p.ch = none) ∧ (s.rf AST_INJCTL.ARM = 0) ∧ (s.ast.held = [])) ∧
    (let p : Proc := { kind := 3, step := 1, order := 1 }; let s : State := ({ (State.serv : State) with sec := { State.serv.sec with proc := some p } })
    (s.serves = true) ∧ (s.sec.proc = some p) ∧ (p.kind = 3) ∧ (p.step = 1) ∧ (p.ch = none)) ∧
    (let p : Proc := { kind := 3, step := 2, order := 1 }; let s : State := ({ (State.serv : State) with sec := { State.serv.sec with proc := some p } })
    (s.serves = true) ∧ (s.sec.proc = some p) ∧ (p.kind = 3) ∧ (p.step ≠ 1) ∧ (p.ch = none)) ∧
    (let ch : Fin 8 := 0; let o : Word := 8; let d : List Byte := [1, 255, 3, 4]; let r : HmbRun := { op := 0x901, tag := 7, takenAt := 3, cmd := some (.updWrite ch o d) }; let s : State := ((({ (State.serv : State) with upd := { State.serv.upd with isOpen := true, size := 4096, parts := [(0, 8)] } }).setChan ch { (State.serv.chan ch) with run := some r }).wb (HMB_CHCFG.EN ch) true)
    (s.Asked ch (.updWrite ch o d) r) ∧ (4 ≤ d.length) ∧ (d.length ≤ 1016) ∧ (s.upd.isOpen = true) ∧ (o.toNat % 4 = 0) ∧ (o.toNat + d.length ≤ s.upd.size) ∧ (s.upd.parts.any (fun p => decide (p.1 < o.toNat + d.length) && decide (o.toNat < p.1 + p.2)) = false)) ∧
    (let ch : Fin 8 := 0; let o : Word := 4; let d : List Byte := [1, 2, 3, 4]; let r : HmbRun := { op := 0x901, tag := 7, takenAt := 3, cmd := some (.updWrite ch o d) }; let s : State := ((({ (State.serv : State) with upd := { State.serv.upd with isOpen := true, size := 4096, parts := [(0, 8)] } }).setChan ch { (State.serv.chan ch) with run := some r }).wb (HMB_CHCFG.EN ch) true)
    (s.Asked ch (.updWrite ch o d) r) ∧ (4 ≤ d.length) ∧ (d.length ≤ 1016) ∧ (s.upd.isOpen = false ∨ o.toNat % 4 ≠ 0 ∨ s.upd.size < o.toNat + d.length ∨ s.upd.parts.any (fun p => decide (p.1 < o.toNat + d.length) && decide (o.toNat < p.1 + p.2)) = true)) ∧
    (let ch : Fin 8 := 0; let r : HmbRun := { op := 0x902, tag := 7, takenAt := 3, cmd := some (.updVerify ch) }; let s : State := (((State.serv).setChan ch { (State.serv.chan ch) with run := some r }).wb (HMB_CHCFG.EN ch) true)
    (s.Asked ch (.updVerify ch) r)) ∧
    (let ch : Fin 8 := 0; let r : HmbRun := { op := 0x903, tag := 7, takenAt := 3, cmd := some (.updActivate ch) }; let s : State := ((({ ({ (State.serv : State) with sec := { State.serv.sec with proc := none } } : State) with upd := { State.serv.upd with isOpen := true, verified := true } }).setChan ch { (State.serv.chan ch) with run := some r }).wb (HMB_CHCFG.EN ch) true)
    (s.Asked ch (.updActivate ch) r) ∧ (s.sec.proc = none) ∧ (s.upd.verified = true)) ∧
    (let ch : Fin 8 := 0; let r : HmbRun := { op := 0x903, tag := 7, takenAt := 3, cmd := some (.updActivate ch) }; let s : State := ((({ (State.serv : State) with upd := { State.serv.upd with verified := false } }).setChan ch { (State.serv.chan ch) with run := some r }).wb (HMB_CHCFG.EN ch) true)
    (s.Asked ch (.updActivate ch) r) ∧ (s.upd.verified = false ∨ s.procBusy = true)) ∧
    (let p : Proc := { kind := 4, step := 1, ch := some 0 }; let s : State := ((({ (State.serv : State) with sec := { State.serv.sec with proc := some p } } : State).setChan 0 { (State.serv.chan 0) with run := some { op := 0x903, tag := 7 } }).wb (HMB_CHCFG.EN 0) true)
    (s.serves = true) ∧ (s.sec.proc = some p) ∧ (p.kind = 4) ∧ (p.ch = some 0) ∧ ((s.chan 0).run.isSome = true)) ∧
    (let ch : Fin 8 := 0; let r : HmbRun := { op := 0x904, tag := 7, takenAt := 3, cmd := some (.updAbort ch) }; let s : State := ((({ ({ (State.serv.wf AST_INJCTL.ARM 0 : State) with upd := { State.serv.upd with isOpen := true } } : State) with flash := { State.serv.flash with fw := [(0, [(1, 2)]), (1, [(1, 3)]), (2, [(1, 4)]), (3, [(1, 5)])] } }).setChan ch { (State.serv.chan ch) with run := some r }).wb (HMB_CHCFG.EN ch) true)
    (s.Asked ch (.updAbort ch) r) ∧ (s.upd.isOpen = true) ∧ (s.rf AST_INJCTL.ARM = 0) ∧ (s.ast.held = [])) ∧
    (let ch : Fin 8 := 0; let r : HmbRun := { op := 0x904, tag := 7, takenAt := 3, cmd := some (.updAbort ch) }; let s : State := ((({ (State.serv : State) with upd := { State.serv.upd with isOpen := false } }).setChan ch { (State.serv.chan ch) with run := some r }).wb (HMB_CHCFG.EN ch) true)
    (s.Asked ch (.updAbort ch) r) ∧ (s.upd.isOpen = false)) ∧
    (let ch : Fin 8 := 0; let r : HmbRun := { op := 0x904, tag := 7, takenAt := 3, cmd := some (.updAbort ch) }; let s : State := ((({ State.serv with upd := { isOpen := true, size := 64 } }).setChan ch { (State.serv.chan ch) with run := some r }).wb (HMB_CHCFG.EN ch) true)
    (s.Asked ch (.updAbort ch) r) ∧ (s.upd.isOpen = true)) :=
  by
  iterate 17 refine And.intro (by decide +kernel) ?_
  decide +kernel

theorem wit_SpindleCorrection :
    (let d : Int := 0; let s : State := (State.serv.wf SPN_SYNCCFG.STEPLIM 200 |>.wf AST_INJCTL.ARM 0)
    (s.on = true) ∧ (s.spn.lastCorr + 50000 ≤ s.now) ∧ (s.rf AST_INJCTL.ARM = 0) ∧ (s.ast.held = []) ∧ (d = medianI (s.cands.map (·.2))) ∧ (d.natAbs ≤ s.stepLim)) ∧
    (let d : Int := 12; let s : State := ((((State.serv.wf SPN_SYNCCFG.STEPLIM 200).wf SPN_CTRL.USEPEER 1).wf SPN_CTRL.USENET 0).wf LANE_PEERS.BRIDGE_UP 6 |>.setPeer 1 { pvalid := true, poff := 30, hb := { state := 4 } } |>.setPeer 2 { pvalid := true, poff := 12, hb := { state := 3 } })
    (s.on = true) ∧ (s.spn.lastCorr + 50000 ≤ s.now) ∧ (d = medianI (s.cands.map (·.2))) ∧ (2 ≤ s.cands.length) ∧ (d.natAbs ≤ s.stepLim)) ∧
    (let d : Int := 1200; let s : State := (((((State.serv.wf SPN_SYNCCFG.STEPLIM 1).wf SPN_CTRL.USEPEER 1).wf SPN_CTRL.USENET 0).wf SPN_CTRL.STEPEN 1).wf LANE_PEERS.BRIDGE_UP 6 |>.wf LANE_STATE.STATE 3 |>.setPeer 1 { pvalid := true, poff := 3000, hb := { state := 4 } } |>.setPeer 2 { pvalid := true, poff := 1200, hb := { state := 3 } })
    (s.on = true) ∧ (s.spn.lastCorr + 50000 ≤ s.now) ∧ (d = medianI (s.cands.map (·.2))) ∧ (s.stepLim < d.natAbs) ∧ (s.st ≠ stService) ∧ (s.rb SPN_CTRL.STEPEN = true)) ∧
    (let d : Int := 1200; let s : State := (((((State.serv.wf AST_INJCTL.ARM 0 |>.wf SPN_SYNCCFG.STEPLIM 1).wf SPN_CTRL.USEPEER 1).wf SPN_CTRL.USENET 0).wf SPN_CTRL.STEPEN 1).wf LANE_PEERS.BRIDGE_UP 6 |>.wf LANE_STATE.STATE 4 |>.setPeer 1 { pvalid := true, poff := 3000, hb := { state := 4 } } |>.setPeer 2 { pvalid := true, poff := 1200, hb := { state := 3 } })
    (s.on = true) ∧ (s.spn.lastCorr + 50000 ≤ s.now) ∧ (s.rf AST_INJCTL.ARM = 0) ∧ (s.ast.held = []) ∧ (d = medianI (s.cands.map (·.2))) ∧ (s.stepLim < d.natAbs) ∧ (s.st = stService ∨ s.rb SPN_CTRL.STEPEN = false)) ∧
    (let e : Nat := 4; let s : State := ({ (State.serv.wf SPN_SYNCCFG.HOLD 5).wf SPN_SYNCSTAT.HOLDOVER 0 with spn := { State.serv.spn with lastExt := some e } })
    (s.on = true) ∧ (s.rb SPN_SYNCSTAT.HOLDOVER = false) ∧ (s.spn.lastExt = some e) ∧ (e + 1000000 * s.rf SPN_SYNCCFG.HOLD ≤ s.now)) ∧
    (let x : Fin 65536 := 1000; let s : State := (State.serv)
    (s.on = true)) :=
  by
  iterate 5 refine And.intro (by decide +kernel) ?_
  decide +kernel

theorem wit_StrikeFiresAndEnds :
    (let m : Fin 256 := 7; let f : Nat := 30; let s : State := (let a := ((State.serv.setN (SPN_PERIOD.adr m) 1000).setN (SPN_PHASE.adr m) 30).wf LBR_AGRCFG.EN 0; let a := ((a.wf TSK_CHALCFG.EN 0).wf (SPN_ESTAT.ENABLED m) 1).setN (SPN_ACT.adr m) (0 * 2 ^ 28 + 3 * 2 ^ 24 + 0x201); let a := a.wf (SPN_CLASSCFG.BUDGET 3) 500; let a := (List.range 16).foldl (fun a n => a.wf (FBC_CFG.EN n) 0) a; let a := (List.range 3).foldl (fun a n => (a.wf (SLP_PAIRCFG.EN n) 0).wf (SLP_PAIRSTAT.STATE n) 0) a; a)
    (s.on = true) ∧ (s.fireDue m = some f) ∧ (s.fireTurn m f = true)) ∧
    (let m : Fin 256 := 7; let f : Nat := 30; let i : Inst := { deadline := 5 }; let s : State := (let a := ((State.serv.setN (SPN_PERIOD.adr m) 1000).setN (SPN_PHASE.adr m) 30).wf LBR_AGRCFG.EN 0; let a := ((a.wf TSK_CHALCFG.EN 0).wf (SPN_ESTAT.ENABLED m) 1).setN (SPN_ACT.adr m) (0 * 2 ^ 28 + 3 * 2 ^ 24 + 0x201); let a := a.wf (SPN_CLASSCFG.BUDGET 3) 500; let a := (List.range 16).foldl (fun a n => a.wf (FBC_CFG.EN n) 0) a; let a := (List.range 3).foldl (fun a n => (a.wf (SLP_PAIRCFG.EN n) 0).wf (SLP_PAIRSTAT.STATE n) 0) a; a.setEntry m { inst := some i })
    (s.on = true) ∧ (s.fireDue m = some f) ∧ (s.fireTurn m f = true) ∧ ((s.entry m).inst = some i) ∧ (i.doneAt = none) ∧ (s.rb LBR_AGRCFG.EN = false) ∧ (s.rb TSK_CHALCFG.EN = false) ∧ ((∀ n : Fin 16, s.fbUse n = false)) ∧ ((∀ p : Fin 3, s.rb (SLP_PAIRCFG.EN p) = false ∧ s.runsLocked p = false))) ∧
    (let m : Fin 256 := 7; let f : Nat := 30; let s : State := (let a := ((State.serv.setN (SPN_PERIOD.adr m) 1000).setN (SPN_PHASE.adr m) 30).wf LBR_AGRCFG.EN 0; let a := ((a.wf TSK_CHALCFG.EN 0).wf (SPN_ESTAT.ENABLED m) 1).setN (SPN_ACT.adr m) (0 * 2 ^ 28 + 3 * 2 ^ 24 + 0x201); let a := a.wf (SPN_CLASSCFG.BUDGET 3) 500; let a := (List.range 16).foldl (fun a n => a.wf (FBC_CFG.EN n) 0) a; let a := (List.range 3).foldl (fun a n => (a.wf (SLP_PAIRCFG.EN n) 0).wf (SLP_PAIRSTAT.STATE n) 0) a; a.wf (SPN_CLASSCFG.IDLE 3) 1)
    (s.on = true) ∧ (s.fireDue m = some f) ∧ (s.fireTurn m f = true) ∧ ((s.entry m).inst = none) ∧ (s.rf (SPN_ACT.ACTION m) = 0) ∧ (s.rb (SPN_CLASSCFG.IDLE (s.rf (SPN_ACT.CLASS m))) = true) ∧ (s.rb LBR_AGRCFG.EN = false) ∧ (s.rb TSK_CHALCFG.EN = false) ∧ ((∀ n : Fin 16, s.fbUse n = false)) ∧ ((∀ p : Fin 3, s.rb (SLP_PAIRCFG.EN p) = false ∧ s.runsLocked p = false))) ∧
    (let m : Fin 256 := 7; let f : Nat := State.serv.gt / 1000 * 1000 - 970; let s : State := (let a := ((State.serv.setN (SPN_PERIOD.adr m) 1000).setN (SPN_PHASE.adr m) 30).wf LBR_AGRCFG.EN 0; let a := ((a.wf TSK_CHALCFG.EN 0).wf (SPN_ESTAT.ENABLED m) 1).setN (SPN_ACT.adr m) (0 * 2 ^ 28 + 3 * 2 ^ 24 + 0x201); let a := a.wf (SPN_CLASSCFG.BUDGET 3) 500; let a := (List.range 16).foldl (fun a n => a.wf (FBC_CFG.EN n) 0) a; let a := (List.range 3).foldl (fun a n => (a.wf (SLP_PAIRCFG.EN n) 0).wf (SLP_PAIRSTAT.STATE n) 0) a; (a.wf (SPN_CLASSCFG.IDLE 3) 0 |>.wf (SPN_CLASSCFG.BUDGET 3) 60000).setEntry m { sinceGt := f })
    (s.on = true) ∧ (s.fireDue m = some f) ∧ (s.fireTurn m f = true) ∧ ((s.entry m).inst = none) ∧ (s.rf (SPN_ACT.ACTION m) = 0) ∧ (s.rb (SPN_CLASSCFG.IDLE (s.rf (SPN_ACT.CLASS m))) = false) ∧ (s.gt ≤ f + s.rf (SPN_CLASSCFG.BUDGET (s.rf (SPN_ACT.CLASS m)))) ∧ (s.rb LBR_AGRCFG.EN = false) ∧ (s.rb TSK_CHALCFG.EN = false) ∧ ((∀ n : Fin 16, s.fbUse n = false)) ∧ ((∀ p : Fin 3, s.rb (SLP_PAIRCFG.EN p) = false ∧ s.runsLocked p = false))) ∧
    (let m : Fin 256 := 7; let f : Nat := 30; let s : State := (let a := ((State.serv.setN (SPN_PERIOD.adr m) 1000).setN (SPN_PHASE.adr m) 30).wf LBR_AGRCFG.EN 0; let a := ((a.wf TSK_CHALCFG.EN 0).wf (SPN_ESTAT.ENABLED m) 1).setN (SPN_ACT.adr m) (1 * 2 ^ 28 + 3 * 2 ^ 24 + 0x201); let a := a.wf (SPN_CLASSCFG.BUDGET 3) 500; let a := (List.range 16).foldl (fun a n => a.wf (FBC_CFG.EN n) 0) a; let a := (List.range 3).foldl (fun a n => (a.wf (SLP_PAIRCFG.EN n) 0).wf (SLP_PAIRSTAT.STATE n) 0) a; a.wf (PWM_BANKCTL.RUN 1) 1 |>.wf (PWM_BANKCFG.DEST 1) 0 |>.wf (PWM_BANKCFG.PMIN 1) 10000)
    (s.on = true) ∧ (s.fireDue m = some f) ∧ (s.fireTurn m f = true) ∧ ((s.entry m).inst = none) ∧ (s.rf (SPN_ACT.ACTION m) = 1) ∧ (s.bankEnabled (s.rf (SPN_ACT.TARGET m) % 8) = true) ∧ (s.rb LBR_AGRCFG.EN = false) ∧ (s.rb TSK_CHALCFG.EN = false) ∧ ((∀ n : Fin 16, s.fbUse n = false)) ∧ ((∀ p : Fin 3, s.rb (SLP_PAIRCFG.EN p) = false ∧ s.runsLocked p = false))) ∧
    (let m : Fin 256 := 7; let f : Nat := 30; let s : State := ({ (let a := ((State.serv.setN (SPN_PERIOD.adr m) 1000).setN (SPN_PHASE.adr m) 30).wf LBR_AGRCFG.EN 0; let a := ((a.wf TSK_CHALCFG.EN 0).wf (SPN_ESTAT.ENABLED m) 1).setN (SPN_ACT.adr m) (2 * 2 ^ 28 + 3 * 2 ^ 24 + 0x201); let a := a.wf (SPN_CLASSCFG.BUDGET 3) 500; let a := (List.range 16).foldl (fun a n => a.wf (FBC_CFG.EN n) 0) a; let a := (List.range 3).foldl (fun a n => (a.wf (SLP_PAIRCFG.EN n) 0).wf (SLP_PAIRSTAT.STATE n) 0) a; a.wf ADC_CFG.EN 1 |>.wf (ADC_SEQCFG.EN 1) 1 |>.wf (ADC_SEQCFG.CHMASK 1) 5 : State) with adc := {} })
    (s.on = true) ∧ (s.fireDue m = some f) ∧ (s.fireTurn m f = true) ∧ ((s.entry m).inst = none) ∧ (s.rf (SPN_ACT.ACTION m) = 2) ∧ (s.rb ADC_CFG.EN = true) ∧ (s.rb (ADC_SEQCFG.EN (s.rf (SPN_ACT.TARGET m) % 16)) = true) ∧ (s.rf (ADC_SEQCFG.CHMASK (s.rf (SPN_ACT.TARGET m) % 16)) ≠ 0) ∧ (s.adc.cur = none) ∧ (s.rb LBR_AGRCFG.EN = false) ∧ (s.rb TSK_CHALCFG.EN = false) ∧ ((∀ n : Fin 16, s.fbUse n = false)) ∧ ((∀ p : Fin 3, s.rb (SLP_PAIRCFG.EN p) = false ∧ s.runsLocked p = false))) ∧
    (let m : Fin 256 := 7; let f : Nat := 30; let s : State := ({ (let a := ((State.serv.setN (SPN_PERIOD.adr m) 1000).setN (SPN_PHASE.adr m) 30).wf LBR_AGRCFG.EN 0; let a := ((a.wf TSK_CHALCFG.EN 0).wf (SPN_ESTAT.ENABLED m) 1).setN (SPN_ACT.adr m) (2 * 2 ^ 28 + 3 * 2 ^ 24 + 0x201); let a := a.wf (SPN_CLASSCFG.BUDGET 3) 500; let a := (List.range 16).foldl (fun a n => a.wf (FBC_CFG.EN n) 0) a; let a := (List.range 3).foldl (fun a n => (a.wf (SLP_PAIRCFG.EN n) 0).wf (SLP_PAIRSTAT.STATE n) 0) a; a.wf ADC_CFG.EN 1 |>.wf (ADC_SEQCFG.EN 1) 1 |>.wf (ADC_SEQCFG.CHMASK 1) 5 : State) with adc := { cur := some (2, none), left := [1], queue := [(7, none)] } })
    (s.on = true) ∧ (s.fireDue m = some f) ∧ (s.fireTurn m f = true) ∧ ((s.entry m).inst = none) ∧ (s.rf (SPN_ACT.ACTION m) = 2) ∧ (s.rb ADC_CFG.EN = true) ∧ (s.rb (ADC_SEQCFG.EN (s.rf (SPN_ACT.TARGET m) % 16)) = true) ∧ (s.rf (ADC_SEQCFG.CHMASK (s.rf (SPN_ACT.TARGET m) % 16)) ≠ 0) ∧ (s.adc.cur ≠ none) ∧ (s.adc.queue.length < 4) ∧ (s.rb LBR_AGRCFG.EN = false) ∧ (s.rb TSK_CHALCFG.EN = false) ∧ ((∀ n : Fin 16, s.fbUse n = false)) ∧ ((∀ p : Fin 3, s.rb (SLP_PAIRCFG.EN p) = false ∧ s.runsLocked p = false))) ∧
    (let m : Fin 256 := 7; let f : Nat := 30; let s : State := ({ (let a := ((State.serv.setN (SPN_PERIOD.adr m) 1000).setN (SPN_PHASE.adr m) 30).wf LBR_AGRCFG.EN 0; let a := ((a.wf TSK_CHALCFG.EN 0).wf (SPN_ESTAT.ENABLED m) 1).setN (SPN_ACT.adr m) (3 * 2 ^ 28 + 3 * 2 ^ 24 + 0x201); let a := a.wf (SPN_CLASSCFG.BUDGET 3) 500; let a := (List.range 16).foldl (fun a n => a.wf (FBC_CFG.EN n) 0) a; let a := (List.range 3).foldl (fun a n => (a.wf (SLP_PAIRCFG.EN n) 0).wf (SLP_PAIRSTAT.STATE n) 0) a; a.wf (LPE_CTXCFG.EN 1) 1 : State) with lpe := { State.serv.lpe with queues := [] } })
    (s.on = true) ∧ (s.fireDue m = some f) ∧ (s.fireTurn m f = true) ∧ ((s.entry m).inst = none) ∧ (s.rf (SPN_ACT.ACTION m) = 3) ∧ (s.rb (LPE_CTXCFG.EN (s.rf (SPN_ACT.TARGET m) % 256)) = true) ∧ ((s.lpeQueue (s.rf (SPN_ACT.TARGET m) % 256 / 64)).length < 16) ∧ (s.rb LBR_AGRCFG.EN = false) ∧ (s.rb TSK_CHALCFG.EN = false) ∧ ((∀ n : Fin 16, s.fbUse n = false)) ∧ ((∀ p : Fin 3, s.rb (SLP_PAIRCFG.EN p) = false ∧ s.runsLocked p = false))) ∧
    (let m : Fin 256 := 7; let f : Nat := 30; let s : State := (let a := ((State.serv.setN (SPN_PERIOD.adr m) 1000).setN (SPN_PHASE.adr m) 30).wf LBR_AGRCFG.EN 0; let a := ((a.wf TSK_CHALCFG.EN 0).wf (SPN_ESTAT.ENABLED m) 1).setN (SPN_ACT.adr m) (4 * 2 ^ 28 + 3 * 2 ^ 24 + 0x201); let a := a.wf (SPN_CLASSCFG.BUDGET 3) 500; let a := (List.range 16).foldl (fun a n => a.wf (FBC_CFG.EN n) 0) a; let a := (List.range 3).foldl (fun a n => (a.wf (SLP_PAIRCFG.EN n) 0).wf (SLP_PAIRSTAT.STATE n) 0) a; a.wf (QUE_CFG.EN 1) 1 |>.wf (QUE_CFG.SPNPROD 1) 1 |>.wf (QUE_CFG.IRQEN 1) 0 |>.wf (QUE_CFG.SIZEEXP 1) 4 |>.wf (CAN_CFG.EN 0) 0 |>.wf (CAN_CFG.EN 1) 0 |>.wf (QUE_STAT.ADMIT 1) 1 |>.setN (QUE_CNT.adr 1) 12 |>.setN (QUE_BASE.adr 1) 0x20100000)
    (s.on = true) ∧ (s.fireDue m = some f) ∧ (s.fireTurn m f = true) ∧ ((s.entry m).inst = none) ∧ (s.rf (SPN_ACT.ACTION m) = 4) ∧ (s.rb (QUE_CFG.EN (s.rf (SPN_ACT.TARGET m) % 128)) = true) ∧ (1 ≤ s.free_ (s.rf (SPN_ACT.TARGET m) % 128)) ∧ (s.inflight (s.rf (SPN_ACT.TARGET m) % 128) + 1 < 8192) ∧ (s.rb (QUE_STAT.ADMIT (s.rf (SPN_ACT.TARGET m) % 128)) = true) ∧ (s.rb (QUE_CFG.SPNPROD (s.rf (SPN_ACT.TARGET m) % 128)) = true) ∧ (s.rb (QUE_CFG.IRQEN (s.rf (SPN_ACT.TARGET m) % 128)) = false) ∧ ((s.canRxOf (s.rf (SPN_ACT.TARGET m) % 128)).isNone = true) ∧ (s.rb LBR_AGRCFG.EN = false) ∧ (s.rb TSK_CHALCFG.EN = false) ∧ ((∀ n : Fin 16, s.fbUse n = false)) ∧ ((∀ p : Fin 3, s.rb (SLP_PAIRCFG.EN p) = false ∧ s.runsLocked p = false))) ∧
    (let m : Fin 256 := 7; let f : Nat := 30; let s : State := (let a := ((State.serv.setN (SPN_PERIOD.adr m) 1000).setN (SPN_PHASE.adr m) 30).wf LBR_AGRCFG.EN 0; let a := ((a.wf TSK_CHALCFG.EN 0).wf (SPN_ESTAT.ENABLED m) 1).setN (SPN_ACT.adr m) ((1 + State.serv.now % 4) * 2 ^ 28 + 3 * 2 ^ 24 + 0x201); let a := a.wf (SPN_CLASSCFG.BUDGET 3) 500; let a := (List.range 16).foldl (fun a n => a.wf (FBC_CFG.EN n) 0) a; let a := (List.range 3).foldl (fun a n => (a.wf (SLP_PAIRCFG.EN n) 0).wf (SLP_PAIRSTAT.STATE n) 0) a; a.wf (PWM_BANKCTL.RUN 1) 0 |>.wf ADC_CFG.EN 0 |>.wf (LPE_CTXCFG.EN 1) 0 |>.wf (QUE_CFG.EN 1) 0)
    (s.on = true) ∧ (s.fireDue m = some f) ∧ (s.fireTurn m f = true) ∧ ((s.entry m).inst = none) ∧ ((s.rf (SPN_ACT.ACTION m) = 1 ∧ s.bankEnabled (s.rf (SPN_ACT.TARGET m) % 8) = false) ∨ (s.rf (SPN_ACT.ACTION m) = 2 ∧ (s.rb ADC_CFG.EN = false ∨ s.rb (ADC_SEQCFG.EN (s.rf (SPN_ACT.TARGET m) % 16)) = false)) ∨ (s.rf (SPN_ACT.ACTION m) = 3 ∧ s.rb (LPE_CTXCFG.EN (s.rf (SPN_ACT.TARGET m) % 256)) = false) ∨ (s.rf (SPN_ACT.ACTION m) = 4 ∧ (s.rb (QUE_CFG.EN (s.rf (SPN_ACT.TARGET m) % 128)) = false ∨ s.free_ (s.rf (SPN_ACT.TARGET m) % 128) = 0))) ∧ (s.rb LBR_AGRCFG.EN = false) ∧ (s.rb TSK_CHALCFG.EN = false) ∧ ((∀ n : Fin 16, s.fbUse n = false)) ∧ ((∀ p : Fin 3, s.rb (SLP_PAIRCFG.EN p) = false ∧ s.runsLocked p = false))) ∧
    (let m : Fin 256 := 7; let f : Nat := 30; let s : State := (let a := ((State.serv.setN (SPN_PERIOD.adr m) 1000).setN (SPN_PHASE.adr m) 30).wf LBR_AGRCFG.EN 0; let a := ((a.wf TSK_CHALCFG.EN 0).wf (SPN_ESTAT.ENABLED m) 1).setN (SPN_ACT.adr m) (6 * 2 ^ 28 + 3 * 2 ^ 24 + 0x201); let a := a.wf (SPN_CLASSCFG.BUDGET 3) 500; let a := (List.range 16).foldl (fun a n => a.wf (FBC_CFG.EN n) 0) a; let a := (List.range 3).foldl (fun a n => (a.wf (SLP_PAIRCFG.EN n) 0).wf (SLP_PAIRSTAT.STATE n) 0) a; a)
    (s.on = true) ∧ (s.fireDue m = some f) ∧ (s.fireTurn m f = true) ∧ ((s.entry m).inst = none) ∧ (s.rf (SPN_ACT.ACTION m) = 6) ∧ ((s.receiver (s.rf (SPN_ACT.TARGET m) % 32)).all (fun o => (ownerPair o).isNone) = true) ∧ (s.rb LBR_AGRCFG.EN = false) ∧ (s.rb TSK_CHALCFG.EN = false) ∧ ((∀ n : Fin 16, s.fbUse n = false)) ∧ ((∀ p : Fin 3, s.rb (SLP_PAIRCFG.EN p) = false ∧ s.runsLocked p = false))) ∧
    (let m : Fin 256 := 7; let f : Nat := 30; let s : State := (let a := ((State.serv.setN (SPN_PERIOD.adr m) 1000).setN (SPN_PHASE.adr m) 30).wf LBR_AGRCFG.EN 0; let a := ((a.wf TSK_CHALCFG.EN 0).wf (SPN_ESTAT.ENABLED m) 1).setN (SPN_ACT.adr m) (5 * 2 ^ 28 + 3 * 2 ^ 24 + 0x201); let a := a.wf (SPN_CLASSCFG.BUDGET 3) 500; let a := (List.range 16).foldl (fun a n => a.wf (FBC_CFG.EN n) 0) a; let a := (List.range 3).foldl (fun a n => (a.wf (SLP_PAIRCFG.EN n) 0).wf (SLP_PAIRSTAT.STATE n) 0) a; a.wf (ANW_FLOWCFG.EN 1) 0)
    (s.on = true) ∧ (s.fireDue m = some f) ∧ (s.fireTurn m f = true) ∧ ((s.entry m).inst = none) ∧ (s.rf (SPN_ACT.ACTION m) = 5) ∧ (s.isTx (s.rf (SPN_ACT.TARGET m) % 512) = false) ∧ (s.rb LBR_AGRCFG.EN = false) ∧ (s.rb TSK_CHALCFG.EN = false) ∧ ((∀ n : Fin 16, s.fbUse n = false)) ∧ ((∀ p : Fin 3, s.rb (SLP_PAIRCFG.EN p) = false ∧ s.runsLocked p = false))) ∧
    (let m : Fin 256 := 7; let i : Inst := { deadline := 500, cls := 3, doneAt := some 420 }; let c : Nat := 420; let s : State := (State.serv.setEntry m { inst := some i })
    (s.on = true) ∧ ((s.entry m).inst = some i) ∧ (i.doneAt = some c) ∧ (c ≤ i.deadline) ∧ (i.deadline < c + 2147483648) ∧ (i.cls < 16)) ∧
    (let m : Fin 256 := 7; let i : Inst := { deadline := 500, cls := 3, doneAt := some 520 }; let c : Nat := 520; let s : State := (State.serv.setEntry m { inst := some i })
    (s.on = true) ∧ ((s.entry m).inst = some i) ∧ (i.doneAt = some c) ∧ (i.deadline < c) ∧ (i.overrun = false) ∧ (c ≤ i.deadline + 2147483648) ∧ (i.cls < 16)) ∧
    (let m : Fin 256 := 7; let i : Inst := { deadline := 500, cls := 3 }; let s : State := (State.serv.setEntry m { inst := some i })
    (s.on = true) ∧ ((s.entry m).inst = some i) ∧ (i.doneAt = none) ∧ (i.overrun = false) ∧ (i.deadline < s.gt) ∧ (i.cls < 16)) :=
  by
  iterate 14 refine And.intro (by decide +kernel) ?_
  decide +kernel

theorem wit_StrikeWrites :
    (let req : Fin 32 := 1; let g : Fin 16 := 5; let v : Word := 0x8001; let s : State := (State.serv.wf (LANE_GRANT.OWNER (24 + g)) req)
    (s.on = true) ∧ (s.mayWrite req (24 + g) false = true)) ∧
    (let g : Fin 16 := 5; let e : EnPend := { group := 5, mask := 0x8003, eff := 10 }; let s : State := ({ State.serv with spn := { State.serv.spn with enPend := [e] } })
    (s.on = true) ∧ (s.spn.enPend = [e]) ∧ (e.group = g) ∧ (e.eff ≤ s.gt) ∧ (s.fireOpen g e.eff = false)) ∧
    (let g : Fin 16 := 5; let e : EnPend := { group := 5, mask := 0x8003, eff := 1999990000 }; let s : State := ({ (((State.serv.setN (SPN_PERIOD.adr 83) 1000).setN (SPN_PHASE.adr 83) 30).setN (SPN_ACT.adr 83) 0).wf (SPN_CLASSCFG.BUDGET 0) 500 with spn := { State.serv.spn with enPend := [e], entries := [(83, { sinceGt := State.serv.gt - 900000 })] } }.wf (SPN_ESTAT.ENABLED 83) 1)
    (s.on = true) ∧ (s.spn.enPend = [e]) ∧ (s.fireOpen g e.eff = true)) ∧
    (let req : Fin 32 := 1; let m : Fin 256 := 33; let i : Inst := { action := 6 }; let s : State := ((State.serv.wf (LANE_GRANT.OWNER (24 + m / 16)) req).setEntry m { inst := some i })
    (s.on = true) ∧ (s.mayWrite req (24 + m / 16) false = true) ∧ ((s.entry m).inst = some i) ∧ (i.action = 6) ∧ (i.doneAt = none)) ∧
    (let req : Fin 32 := 1; let m : Fin 256 := 33; let s : State := (State.serv.wf (LANE_GRANT.OWNER (24 + m / 16)) req)
    (s.on = true) ∧ (s.mayWrite req (24 + m / 16) false = true) ∧ ((s.entry m).inst.elim true (fun i => i.action != 6) = true)) ∧
    (let v : Word := 0x8001; let s : State := (State.serv)
    (s.on = true)) :=
  by
  iterate 5 refine And.intro (by decide +kernel) ?_
  decide +kernel

theorem wit_StarWindows :
    (let n : Fin 9 := 3; let fr : AirumFrame := { bytes := airumBytes 0x0A 0x1234 { flow := 0x120, sset := 0, node := 5, kind := 0, ch := 16, lk := 30, len := 8, seq := 77 } [1, 2, 3, 4, 5, 6, 7, 8], fcsOk := true, sfdGt := State.serv.gt / 500000 * 500000 + 150090 }; let w : Win := ⟨5, State.serv.gt / 500000 * 8000000 + 2400000, State.serv.gt / 500000 * 8000000 + 2480000⟩; let s : State := ({ (List.range 256).foldl (fun (a : State) (i : Nat) => a.wf (AST_WIN.EN (State.serv.rf ANW_NODESTAT.SSET) i) 0) ((State.serv.wf AST_INJCTL.ARM 0 |>.wf AST_CFG.MODE 1 |>.wf (AST_PORTCFG.EN n) 1 |>.wf (AST_PORTSTAT.LINKUP n) 1).wf AST_STAT.ENFORCE 1 |>.setN (AST_PORTMAPLO.adr n) (2 ^ 5 + 2 ^ 6) |>.wf (AST_GUARDCFG.WTOL) 100 |>.wf (AST_PORTSTAT.ISO n) 0 |>.wf (AST_PORTCFG.TRUNK n) 0 |>.setN (AST_PORTDLY.adr n) 0 |>.wf ANW_NODECFG.NODE 5) |>.setN (AST_WIN.adr (State.serv.rf ANW_NODESTAT.SSET) 0) (2 ^ 31 + 5 * 2 ^ 24 + 2 ^ 10 + 30) with anw := { State.serv.anw with o := 0 } })
    (s.on = true) ∧ (s.isStar = true) ∧ (s.outUp n = true) ∧ (s.rf AST_INJCTL.ARM = 0) ∧ (s.ast.held = []) ∧ (airumRange s.chanCode fr.bytes = true) ∧ (s.rb AST_STAT.ENFORCE = true) ∧ ((hdrOf fr.bytes).kind = kindData) ∧ (s.judge n (s.nt16 fr.sfdGt) (sourceNode fr.bytes) = .inl w) ∧ (s.rb (AST_PORTSTAT.ISO n) = false)) ∧
    (let n : Fin 9 := 3; let fr : AirumFrame := { bytes := airumBytes 0x0A 0x1234 { flow := 0x120, sset := 0, node := 5, kind := 0, ch := 16, lk := 30, len := 8, seq := 77 } [1, 2, 3, 4, 5, 6, 7, 8], fcsOk := true, sfdGt := State.serv.gt / 500000 * 500000 + 150090 }; let k : Nat := violSender; let d : Int := 0; let s : State := ({ (List.range 256).foldl (fun (a : State) (i : Nat) => a.wf (AST_WIN.EN (State.serv.rf ANW_NODESTAT.SSET) i) 0) ((State.serv.wf AST_INJCTL.ARM 0 |>.wf AST_CFG.MODE 1 |>.wf (AST_PORTCFG.EN n) 1 |>.wf (AST_PORTSTAT.LINKUP n) 1).wf AST_STAT.ENFORCE 1 |>.setN (AST_PORTMAPLO.adr n) (2 ^ 5 + 2 ^ 6) |>.wf (AST_GUARDCFG.WTOL) 100 |>.wf (AST_PORTSTAT.ISO n) 0 |>.wf (AST_PORTCFG.TRUNK n) 0 |>.setN (AST_PORTDLY.adr n) 0 |>.wf ANW_NODECFG.NODE 5) |>.setN (AST_WIN.adr (State.serv.rf ANW_NODESTAT.SSET) 0) (2 ^ 31 + 6 * 2 ^ 24 + 2 ^ 10 + 30) with anw := { State.serv.anw with o := 0 } })
    (s.on = true) ∧ (s.isStar = true) ∧ (s.outUp n = true) ∧ (s.rf AST_INJCTL.ARM = 0) ∧ (s.ast.held = []) ∧ (airumRange s.chanCode fr.bytes = true) ∧ (s.rb AST_STAT.ENFORCE = true) ∧ ((hdrOf fr.bytes).kind ≠ kindEcho) ∧ (s.judge n (s.nt16 fr.sfdGt) (sourceNode fr.bytes) = .inr (k, d)) ∧ (k ≠ violLate)) ∧
    (let n : Fin 9 := 3; let fr : AirumFrame := { bytes := airumBytes 0x0A 0x1234 { flow := 0x120, sset := 0, node := 5, kind := 0, ch := 16, lk := 30, len := 8, seq := 77 } [1, 2, 3, 4, 5, 6, 7, 8], fcsOk := true, sfdGt := State.serv.gt / 500000 * 500000 + 151900 }; let d : Int := 1820; let s : State := ({ (List.range 256).foldl (fun (a : State) (i : Nat) => a.wf (AST_WIN.EN (State.serv.rf ANW_NODESTAT.SSET) i) 0) ((State.serv.wf AST_INJCTL.ARM 0 |>.wf AST_CFG.MODE 1 |>.wf (AST_PORTCFG.EN n) 1 |>.wf (AST_PORTSTAT.LINKUP n) 1).wf AST_STAT.ENFORCE 1 |>.setN (AST_PORTMAPLO.adr n) (2 ^ 5 + 2 ^ 6) |>.wf (AST_GUARDCFG.WTOL) 100 |>.wf (AST_PORTSTAT.ISO n) 0 |>.wf (AST_PORTCFG.TRUNK n) 0 |>.setN (AST_PORTDLY.adr n) 0 |>.wf ANW_NODECFG.NODE 5) |>.setN (AST_WIN.adr (State.serv.rf ANW_NODESTAT.SSET) 0) (2 ^ 31 + 5 * 2 ^ 24 + 2 ^ 10 + 30) with anw := { State.serv.anw with o := 0 } })
    (s.on = true) ∧ (s.isStar = true) ∧ (s.outUp n = true) ∧ (s.rf AST_INJCTL.ARM = 0) ∧ (s.ast.held = []) ∧ (airumRange s.chanCode fr.bytes = true) ∧ (s.rb AST_STAT.ENFORCE = true) ∧ ((hdrOf fr.bytes).kind ≠ kindEcho) ∧ (s.judge n (s.nt16 fr.sfdGt) (sourceNode fr.bytes) = .inr (violLate, d)) ∧ ((s.starPort n).late = false)) ∧
    (let n : Fin 9 := 3; let fr : AirumFrame := { bytes := airumBytes 0x0A 0x1234 { flow := 0x120, sset := 0, node := 5, kind := 0, ch := 16, lk := 30, len := 8, seq := 77 } [1, 2, 3, 4, 5, 6, 7, 8], fcsOk := true, sfdGt := State.serv.gt / 500000 * 500000 + 150090 }; let w : Win := ⟨5, State.serv.gt / 500000 * 8000000 + 2400000, State.serv.gt / 500000 * 8000000 + 2480000⟩; let s : State := ({ (List.range 256).foldl (fun (a : State) (i : Nat) => a.wf (AST_WIN.EN (State.serv.rf ANW_NODESTAT.SSET) i) 0) ((State.serv.wf AST_INJCTL.ARM 0 |>.wf AST_CFG.MODE 1 |>.wf (AST_PORTCFG.EN n) 1 |>.wf (AST_PORTSTAT.LINKUP n) 1).wf AST_STAT.ENFORCE 1 |>.setN (AST_PORTMAPLO.adr n) (2 ^ 5 + 2 ^ 6) |>.wf (AST_GUARDCFG.WTOL) 100 |>.wf (AST_PORTSTAT.ISO n) 1 |>.wf (AST_PORTCFG.TRUNK n) 0 |>.setN (AST_PORTDLY.adr n) 0 |>.wf ANW_NODECFG.NODE 5) |>.setN (AST_WIN.adr (State.serv.rf ANW_NODESTAT.SSET) 0) (2 ^ 31 + 5 * 2 ^ 24 + 2 ^ 10 + 30) with anw := { State.serv.anw with o := 0 } })
    (s.on = true) ∧ (s.isStar = true) ∧ (s.outUp n = true) ∧ (s.rf AST_INJCTL.ARM = 0) ∧ (s.ast.held = []) ∧ (airumRange s.chanCode fr.bytes = true) ∧ (s.rb AST_STAT.ENFORCE = true) ∧ ((hdrOf fr.bytes).kind ≠ kindEcho) ∧ (s.judge n (s.nt16 fr.sfdGt) (sourceNode fr.bytes) = .inl w) ∧ (s.rb (AST_PORTSTAT.ISO n) = true)) ∧
    (let n : Fin 9 := 3; let fr : AirumFrame := { bytes := airumBytes 0x0A 0x1234 { flow := 0x120, sset := 0, node := 5, kind := 0, ch := 16, lk := 30, len := 8, seq := 77 } [1, 2, 3, 4, 5, 6, 7, 8], fcsOk := true, sfdGt := State.serv.gt / 500000 * 500000 + 5 }; let s : State := ((State.serv.wf AST_INJCTL.ARM 0 |>.wf AST_CFG.MODE 1 |>.wf (AST_PORTCFG.EN n) 1 |>.wf (AST_PORTSTAT.LINKUP n) 1).wf AST_STAT.ENFORCE 0)
    (s.on = true) ∧ (s.isStar = true) ∧ (s.outUp n = true) ∧ (s.rf AST_INJCTL.ARM = 0) ∧ (s.ast.held = []) ∧ (airumRange s.chanCode fr.bytes = true) ∧ (s.rb AST_STAT.ENFORCE = false) ∧ ((hdrOf fr.bytes).kind = kindData)) :=
  by
  iterate 4 refine And.intro (by decide +kernel) ?_
  decide +kernel

theorem wit_StarPorts :
    (let n : Fin 9 := 3; let o : Fin 9 := 4; let d : CutDue := { input := 3, output := 4, bytes := [1], cutGt := 5 }; let s : State := ({ State.serv.wf AST_INJCTL.ARM 0 |>.wf (AST_PORTSTAT.VIOLS n) 3 |>.wf AST_GUARDCFG.BABN 9 with ast := { State.serv.ast with cuts := [d] } })
    (s.on = true) ∧ (s.ast.cuts = [d]) ∧ (d.input = n) ∧ (d.output = o) ∧ (d.cutGt ≤ s.gt) ∧ (d.counted = false) ∧ (s.rf AST_GUARDCFG.BABN > s.rf (AST_PORTSTAT.VIOLS n) + 1) ∧ (s.rf AST_INJCTL.ARM = 0) ∧ (s.ast.held = [])) ∧
    (let h : Hold := { port := 3, node := 5, frame := { bytes := [1], fcsOk := true, sfdGt := 5 } }; let s : State := ({ State.serv.wf AST_INJCTL.ARM 0 |>.wf AST_CFG.MODE 1 |>.wf (AST_PORTSTAT.ISO h.port) 0 with ast := { State.serv.ast with holds := [h] } })
    (s.on = true) ∧ (s.ast.holds = [h]) ∧ (h.ended = false) ∧ (h.collides = false) ∧ (h.frame.sfdGt + 5000 < s.gt) ∧ (s.rb (AST_PORTSTAT.ISO h.port) = false) ∧ (s.outputs h.port (sourceNode h.frame.bytes) true ≠ []) ∧ (s.rf AST_INJCTL.ARM = 0) ∧ (s.ast.held = [])) ∧
    (let h : Hold := { port := 3, node := 5, frame := { bytes := [1], fcsOk := true, sfdGt := 5 } }; let s : State := ({ State.serv.wf AST_INJCTL.ARM 0 |>.wf AST_CFG.MODE 1 |>.wf (AST_PORTSTAT.ISO h.port) 1 with ast := { State.serv.ast with holds := [h] } })
    (s.on = true) ∧ (s.ast.holds = [h]) ∧ (h.ended = false) ∧ (h.collides = false) ∧ (h.frame.sfdGt + 5000 < s.gt) ∧ (s.rb (AST_PORTSTAT.ISO h.port) = true)) ∧
    (let h : Hold := { port := 3, node := 5, frame := { bytes := [1], fcsOk := true, sfdGt := 5 }, collides := true }; let g : Hold := { port := 4, node := 6, frame := { bytes := [1], fcsOk := true, sfdGt := 4 }, collides := true, ended := true }; let s : State := ({ State.serv.wf AST_INJCTL.ARM 0 |>.wf AST_CFG.MODE 1 with ast := { State.serv.ast with holds := [g, h] } })
    (s.on = true) ∧ (s.ast.holds = [g, h]) ∧ (g ≠ h) ∧ (g.ended = true) ∧ (g.collides = true) ∧ (h.ended = false) ∧ (h.collides = true) ∧ (h.frame.sfdGt + 5000 < s.gt) ∧ (s.rf AST_INJCTL.ARM = 0) ∧ (s.ast.held = [])) ∧
    (let n : Fin 9 := 3; let s : State := ({ (State.serv.wf AST_INJCTL.ARM 0 |>.wf AST_CFG.MODE 1 |>.wf (AST_PORTCFG.EN n) 1 |>.wf (AST_PORTSTAT.LINKUP n) 1).wf (AST_PORTSTAT.ISO n) 1 |>.wf AST_GUARDCFG.READMIT 1 with anw := { State.serv.anw with o := 0 } }.setStarPort n { clean := 0 })
    (s.on = true) ∧ (s.isStar = true) ∧ (s.ast.chain < s.ntChain)) ∧
    (let ch : Fin 8 := 0; let p : Byte := 3; let r : HmbRun := { op := 0x201, tag := 7, takenAt := 3, cmd := some (.astPortReadmit ch p) }; let s : State := (((State.serv.wf AST_CFG.MODE 1).setChan ch { (State.serv.chan ch) with run := some r }).wb (HMB_CHCFG.EN ch) true)
    (s.Asked ch (.astPortReadmit ch p) r) ∧ (p.toNat ≤ 8) ∧ (s.isStar = true)) ∧
    (let k : Nat := 1; let t0 : Nat := 7; let s : State := ({ State.serv.wf AST_CFG.MODE 1 |>.wf (ANW_SETCFG.EN 0) 0 |>.wf (ANW_SETCFG.EN 1) 1 |>.wf (ANW_SETCFG.MINRATE 1) 0 |>.wf ANW_SWSTAT.SWPEND 0 with now := 2000000000, anw := { State.serv.anw with prefer := some (k, t0) } })
    (s.anw.prefer = some (k, t0)) ∧ (s.rf AST_CFG.MODE = 1) ∧ (t0 + 1000000000 ≤ s.now) ∧ (s.preferred = some k) ∧ (s.rb ANW_SWSTAT.SWPEND = false)) ∧
    (let p : Fin 8 := 3; let g : Bool := true; let l : List Nat := []; let s : State := (State.serv.wf AST_CFG.MODE 1 |>.wf (AST_PORTCFG.EN p) 1 |>.wf (AST_PORTSTAT.LINKUP p) 0 |>.wf (AST_PORTCFG.MAXRATE p) 1)
    (s.isStar = true) ∧ (s.on = true) ∧ (s.rb (AST_PORTCFG.EN p) = true) ∧ (s.rb (AST_PORTSTAT.LINKUP p) = false) ∧ (rateOk (s.rb (AST_PORTCFG.AN p)) (s.rb (AST_PORTCFG.MAXRATE p)) (s.rb (AST_PORTCFG.MINRATE p)) g = true)) ∧
    (let p : Fin 8 := 3; let s : State := (State.serv.wf AST_CFG.MODE 1 |>.wf (AST_PORTSTAT.LINKUP p) 1)
    (s.isStar = true) ∧ (s.on = true) ∧ (s.rb (AST_PORTSTAT.LINKUP p) = true)) ∧
    (let n : Fin 8 := 3; let g : Option Bool := none; let t0 : Nat := 5; let s : State := ({ State.serv.wf AST_CFG.MODE 1 |>.wf (AST_PORTSTAT.LINKUP n) 0 |>.wf (AST_PORTCFG.EN n) 1 |>.wf (AST_PORTCFG.AN n) 1 with now := State.serv.now + 900000000, anw := { State.serv.anw with forced := [(n.val, (g, t0))] } })
    (s.on = true) ∧ (s.isStar = true) ∧ (s.rb (AST_PORTCFG.AN n) = true) ∧ (s.rb (AST_PORTCFG.EN n) = true) ∧ (s.rb (AST_PORTSTAT.LINKUP n) = false) ∧ (mget (none, s.pmu.releasedAt) s.anw.forced n = (g, t0)) ∧ (t0 + 200000000 ≤ s.now)) ∧
    (let n : Fin 9 := 3; let o : Fin 9 := 4; let d : CutDue := { input := 3, output := 4, bytes := [1], cutGt := 5 }; let s : State := ({ State.serv.wf AST_INJCTL.ARM 0 with ast := { State.serv.ast with held := [], cuts := [{ input := 8, output := 7, bytes := [], cutGt := 3 }, d, { d with output := 5 }] } })
    (s.on = true) ∧ (s.ast.cuts.find? (fun c => c.input == n.val && c.output == o.val) = some d) ∧ (d.cutGt ≤ s.gt) ∧ (s.rf AST_INJCTL.ARM = 0) ∧ (s.ast.held = [])) ∧
    (let h : Hold := { port := 3, node := 5, frame := { bytes := [1], fcsOk := true, sfdGt := 5 } }; let s : State := ({ State.serv.wf AST_INJCTL.ARM 0 |>.wf AST_CFG.MODE 1 |>.wf (AST_PORTSTAT.ISO h.port) 0 with ast := { State.serv.ast with holds := [{ h with ended := true, collides := true }, h, { h with node := 9 }] } })
    (s.on = true) ∧ (s.ast.holds.find? (fun x => !x.ended && decide (x.frame.sfdGt + 5000 < s.gt)) = some h) ∧ (h.collides = false) ∧ (s.rb (AST_PORTSTAT.ISO h.port) = false) ∧ (s.outputs h.port (sourceNode h.frame.bytes) true ≠ [])) ∧
    (let h : Hold := { port := 3, node := 5, frame := { bytes := [1], fcsOk := true, sfdGt := 5 }, collides := true }; let g : Hold := { port := 4, node := 6, frame := { bytes := [1], fcsOk := true, sfdGt := 9000 }, collides := true }; let s : State := ({ State.serv with ast := { State.serv.ast with holds := [h, g] } })
    (s.on = true) ∧ (s.ast.holds.find? (fun x => !x.ended && decide (x.frame.sfdGt + 5000 < s.gt)) = some h) ∧ (h.collides = true) ∧ (g ∈ s.ast.holds) ∧ (g ≠ h) ∧ (g.collides = true) ∧ (g.ended = false)) :=
  by
  iterate 12 refine And.intro (by decide +kernel) ?_
  decide +kernel

theorem wit_FaultInjection :
    (let ch : Fin 8 := 0; let k : Byte := 3; let g : Word := 2 ^ 29; let a : Word := 2 ^ 16; let st : Word := 77; let r : HmbRun := { op := 0x803, tag := 7, takenAt := 3, cmd := some (.astInjArm ch k g a st) }; let s : State := ((({ State.serv.wf AST_INJCTL.ARM 0 with ast := { State.serv.ast with tokenEnd := some (State.serv.gt + 900) } }).setChan ch { (State.serv.chan ch) with run := some r }).wb (HMB_CHCFG.EN ch) true)
    (s.Asked ch (.astInjArm ch k g a st) r) ∧ (s.debugOff = false) ∧ (s.tokenNow = true) ∧ (k.toNat ≤ 7) ∧ (ruleOk g.toNat a.toNat = true) ∧ ((s.rf AST_INJCTL.ARM).testBit k.toNat = false)) ∧
    (let ch : Fin 8 := 0; let k : Byte := 3; let g : Word := 2 ^ 29; let a : Word := 2 ^ 16; let st : Word := 0; let r : HmbRun := { op := 0x803, tag := 7, takenAt := 3, cmd := some (.astInjArm ch k g a st) }; let s : State := ((({ State.serv with ast := { State.serv.ast with tokenEnd := none } }).setChan ch { (State.serv.chan ch) with run := some r }).wb (HMB_CHCFG.EN ch) true)
    (s.Asked ch (.astInjArm ch k g a st) r) ∧ (s.debugOff = true ∨ s.tokenNow = false)) ∧
    (let ch : Fin 8 := 0; let m : Byte := 255; let r : HmbRun := { op := 0x804, tag := 7, takenAt := 3, cmd := some (.astInjStop ch m) }; let s : State := (((State.serv).setChan ch { (State.serv.chan ch) with run := some r }).wb (HMB_CHCFG.EN ch) true)
    (s.Asked ch (.astInjStop ch m) r)) ∧
    (let e : Nat := 5; let s : State := ({ State.serv with ast := { State.serv.ast with tokenEnd := some e } })
    (s.on = true) ∧ (s.ast.tokenEnd = some e) ∧ (e ≤ s.gt)) ∧
    (let k : Fin 8 := 3; let p : Fin 3 := 1; let pl : Vector Byte 28 := Vector.replicate 28 0; let ok : Bool := true; let s : State := ({ State.serv.setN AST_INJCTL.adr (2 ^ k.val) |>.setN (AST_INJTGT.adr k) (3 * 2 ^ 28 + State.serv.endpoint p * 2 ^ 24 + 2 ^ 20) |>.setN (AST_INJPAR.adr k) (2 ^ 16) |>.setN (AST_INJSTAT.adr k) 0 |>.setN (AST_INJSTART.adr k) 0 with ast := { State.serv.ast with held := [] } })
    (s.on = true) ∧ (s.isPeer p = true) ∧ (s.ast.held = []) ∧ (s.rf AST_INJCTL.ARM = 2 ^ k.val) ∧ (s.injMatches k injBridgeRx (s.endpoint p) clsHeartbeat s.gt = true) ∧ (s.rf (AST_INJPAR.SKIP k) = 0) ∧ (s.rf (AST_INJTGT.EVERY k) ≤ 1) ∧ (s.rf (AST_INJTGT.ACTION k) = 0) ∧ (s.rf (AST_INJSTAT.SEEN k) = 0) ∧ (s.rf (AST_INJSTAT.DONE k) = 0) ∧ (s.rf (AST_INJPAR.COUNT k) = 1)) ∧
    (let k : Fin 8 := 3; let p : Fin 3 := 1; let pl : Vector Byte 28 := Vector.replicate 28 0; let ok : Bool := true; let s : State := ({ State.serv.setN AST_INJCTL.adr (2 ^ k.val) |>.setN (AST_INJTGT.adr k) (3 * 2 ^ 28 + State.serv.endpoint p * 2 ^ 24 + 2 ^ 20) |>.wf (AST_INJTGT.ACTION k) 1 |>.wf (AST_INJTGT.FIXCHK k) 0 |>.setN (AST_INJPAR.adr k) (2 ^ 16) |>.wf (AST_INJPAR.PARAM k) 77 |>.setN (AST_INJSTAT.adr k) 0 |>.setN (AST_INJSTART.adr k) 0 with ast := { State.serv.ast with held := [] } })
    (s.on = true) ∧ (s.isPeer p = true) ∧ (s.ast.held = []) ∧ (s.rf AST_INJCTL.ARM = 2 ^ k.val) ∧ (s.injMatches k injBridgeRx (s.endpoint p) clsHeartbeat s.gt = true) ∧ (s.rf (AST_INJPAR.SKIP k) = 0) ∧ (s.rf (AST_INJTGT.EVERY k) ≤ 1) ∧ (s.rf (AST_INJTGT.ACTION k) = 1) ∧ (s.rf (AST_INJSTAT.SEEN k) = 0) ∧ (s.rf (AST_INJSTAT.DONE k) = 0) ∧ (s.rf (AST_INJPAR.COUNT k) = 1) ∧ (s.rb (AST_INJTGT.FIXCHK k) = false) ∧ (s.rf (AST_INJPAR.PARAM k) < 320)) ∧
    (let k : Fin 8 := 3; let p : Fin 3 := 1; let pl : Vector Byte 28 := Vector.replicate 28 0; let ok : Bool := true; let s : State := ({ State.serv.setN AST_INJCTL.adr (2 ^ k.val) |>.setN (AST_INJTGT.adr k) (3 * 2 ^ 28 + State.serv.endpoint p * 2 ^ 24 + 2 ^ 20) |>.wf (AST_INJTGT.ACTION k) 2 |>.wf (AST_INJTGT.FIXCHK k) 0 |>.setN (AST_INJPAR.adr k) (2 ^ 16) |>.wf (AST_INJPAR.PARAM k) 77 |>.setN (AST_INJSTAT.adr k) 0 |>.setN (AST_INJSTART.adr k) 0 with ast := { State.serv.ast with held := [] } })
    (s.on = true) ∧ (s.isPeer p = true) ∧ (s.ast.held = []) ∧ (s.rf AST_INJCTL.ARM = 2 ^ k.val) ∧ (s.injMatches k injBridgeRx (s.endpoint p) clsHeartbeat s.gt = true) ∧ (s.rf (AST_INJPAR.SKIP k) = 0) ∧ (s.rf (AST_INJTGT.EVERY k) ≤ 1) ∧ (s.rf (AST_INJTGT.ACTION k) = 2) ∧ (s.rf (AST_INJSTAT.SEEN k) = 0) ∧ (s.rf (AST_INJSTAT.DONE k) = 0) ∧ (s.rf (AST_INJPAR.COUNT k) = 1)) ∧
    (let k : Fin 8 := 3; let p : Fin 3 := 1; let pl : Vector Byte 28 := Vector.replicate 28 0; let ok : Bool := true; let s : State := ({ State.serv.setN AST_INJCTL.adr (2 ^ k.val) |>.setN (AST_INJTGT.adr k) (3 * 2 ^ 28 + State.serv.endpoint p * 2 ^ 24 + 2 ^ 20) |>.wf (AST_INJTGT.ACTION k) 3 |>.wf (AST_INJTGT.FIXCHK k) 0 |>.setN (AST_INJPAR.adr k) (2 ^ 16) |>.wf (AST_INJPAR.PARAM k) 77 |>.setN (AST_INJSTAT.adr k) 0 |>.setN (AST_INJSTART.adr k) 0 with ast := { State.serv.ast with held := [] } })
    (s.on = true) ∧ (s.isPeer p = true) ∧ (s.ast.held = []) ∧ (s.rf AST_INJCTL.ARM = 2 ^ k.val) ∧ (s.injMatches k injBridgeRx (s.endpoint p) clsHeartbeat s.gt = true) ∧ (s.rf (AST_INJPAR.SKIP k) = 0) ∧ (s.rf (AST_INJTGT.EVERY k) ≤ 1) ∧ (s.rf (AST_INJTGT.ACTION k) = 3) ∧ (s.rf (AST_INJSTAT.SEEN k) = 0) ∧ (s.rf (AST_INJSTAT.DONE k) = 0) ∧ (s.rf (AST_INJPAR.COUNT k) = 1)) ∧
    (let k : Fin 8 := 3; let h : HeldFrame := { target := 2, port := 0, rule := some 3, due := 5, tx := some (.tallyIrq 1) }; let m : OutMsg := .tallyIrq 1; let s : State := ({ State.serv with ast := { State.serv.ast with held := [h] } })
    (s.on = true) ∧ (s.ast.held = [h]) ∧ (h.rule = some k.val) ∧ (h.due ≤ s.now) ∧ (h.rx = none) ∧ (h.tx = some m)) ∧
    (let k : Fin 8 := 3; let h : HeldFrame := { target := 2, port := 0, rule := some 3, due := 5, tx := some (.tallyIrq 1), reorder := true }; let m : OutMsg := .tallyIrq 1; let s : State := ({ State.serv with ast := { State.serv.ast with held := [{ target := 2, port := 0, rule := some 5, due := 9, tx := some (.tallyIrq 2) }, h] } })
    (s.on = true) ∧ (s.ast.held.find? (fun x => x.rule == some k.val) = some h) ∧ (h.due ≤ s.now) ∧ (h.reorder = true) ∧ (h.rx = none) ∧ (h.tx = some m)) :=
  by
  iterate 9 refine And.intro (by decide +kernel) ?_
  decide +kernel

theorem wit_ServiceInputsAndLaws :
    (let s : State := ({ ({ (State.serv.wf LANE_STATE.STATE 4 |>.wf (LPE_CTXIN0.INDEX 192) 197 |>.wf (LPE_CTXOUT.TYPE 194) outCtxSp |>.wf (LPE_CTXOUT.INDEX 194) 192 |>.wf (LPE_CTXOUT.TYPE 195) outCtxSp |>.wf (LPE_CTXOUT.INDEX 195) 198 |>.wf (LPE_CTXOUT.TYPE 192) 0 |>.wf (LPE_CTXOUT.TYPE 193) 0 |>.setEntry 241 { inst := some { fire := 1, deadline := 9, action := 6 } } : State) with sec := { State.serv.sec with set := true, slot := 0 }, flash := { State.serv.flash with par := [(0, [(12288, 2), (12292, 3), (12293, 2), (12296, 198), (12297, 192), (12302, 16), (12303, 16), (12310, 128), (12311, 63), (12324, 1), (12326, 2), (12328, 3)])] } } : State) with svc := { State.serv.svc with  } })
    (s.on = true) ∧ (s.svcDue 241 = true) ∧ (s.steerRole = 2)) ∧
    (let s : State := ({ ({ (State.serv.wf LANE_STATE.STATE 4 |>.setEntry 241 { inst := some { fire := 1, deadline := 9, action := 6 } } : State) with sec := { State.serv.sec with set := true, slot := 0 }, flash := { State.serv.flash with par := [(0, [])] } } : State) with svc := { State.serv.svc with  } })
    (s.on = true) ∧ (s.svcDue 241 = true) ∧ (s.steerRole = 0) ∧ (s.brakeRole = false)) ∧
    (let s : State := (State.serv.setEntry 241 {})
    (s.svcDue 241 = false)) ∧
    (let s : State := ({ ({ (State.serv.wf LANE_STATE.STATE 4 |>.wf (LPE_CTXIN0.INDEX 192) 197 |>.wf (LPE_CTXOUT.TYPE 194) outCtxSp |>.wf (LPE_CTXOUT.INDEX 194) 192 |>.wf (LPE_CTXOUT.TYPE 195) outCtxSp |>.wf (LPE_CTXOUT.INDEX 195) 198 |>.wf (LPE_CTXOUT.TYPE 192) 0 |>.wf (LPE_CTXOUT.TYPE 193) 0 |>.setEntry 242 { inst := some { fire := 1, deadline := 9, action := 6 } } : State) with sec := { State.serv.sec with set := true, slot := 0 }, flash := { State.serv.flash with par := [(0, [(12288, 1), (12292, 3), (12293, 2), (12296, 198), (12297, 192), (12302, 16), (12303, 16), (12310, 128), (12311, 63), (12324, 1), (12326, 2), (12328, 3)])] } } : State) with svc := { State.serv.svc with lost := [(0, 2)], single := [(0, 1), (1, 2)] } })
    (s.on = true) ∧ (s.svcDue 242 = true)) ∧
    (let c : Fin 256 := 194; let s : State := ({ ({ (State.serv.wf LANE_STATE.STATE 4 |>.wf (LPE_CTXIN0.INDEX 192) 197 |>.wf (LPE_CTXOUT.TYPE 194) outCtxSp |>.wf (LPE_CTXOUT.INDEX 194) 192 |>.wf (LPE_CTXOUT.TYPE 195) outCtxSp |>.wf (LPE_CTXOUT.INDEX 195) 198 |>.wf (LPE_CTXOUT.TYPE 192) 0 |>.wf (LPE_CTXOUT.TYPE 193) 0 |>.setEntry 243 { inst := some { fire := 1, deadline := 9, action := 6 } } |>.wf (LANE_GRANT.OWNER 43) 1 : State) with sec := { State.serv.sec with set := true, slot := 0 }, flash := { State.serv.flash with par := [(0, [(12288, 1), (12292, 3), (12293, 2), (12296, 198), (12297, 192), (12302, 16), (12303, 16), (12310, 128), (12311, 63), (12324, 1), (12326, 2), (12328, 3)])] } } : State) with svc := { State.serv.svc with wind := { st := 2 }, demand := some 0x3f000000, follow := false } })
    (s.on = true) ∧ (s.svcDue 243 = true) ∧ (s.steerRole = 1) ∧ (s.brakeRole = false) ∧ (s.svc.wind.st = 2 ∨ (s.svc.wind.st = 1 ∧ s.rb (LPE_CTXCTL.AUTO s.outerCtx) = true)) ∧ (s.svc.follow = false) ∧ (s.carrierTo s.outerCtx = some c.val) ∧ (s.headHolds (40 + c / 64) = true)) ∧
    (let c : Fin 256 := 195; let s : State := ((List.range 48).foldl (fun (a : State) i => a.setN (LBR_RESSTAT.adr i) (2 ^ (LBR_RESSTAT.NEW 0).lo)) ({ ({ (State.serv.wf LANE_STATE.STATE 4 |>.wf (LPE_CTXIN0.INDEX 192) 197 |>.wf (LPE_CTXOUT.TYPE 194) outCtxSp |>.wf (LPE_CTXOUT.INDEX 194) 192 |>.wf (LPE_CTXOUT.TYPE 195) outCtxSp |>.wf (LPE_CTXOUT.INDEX 195) 198 |>.wf (LPE_CTXOUT.TYPE 192) 0 |>.wf (LPE_CTXOUT.TYPE 193) 0 |>.setEntry 243 { inst := some { fire := 1, deadline := 9, action := 6 } } |>.wf (LANE_GRANT.OWNER 43) 1 : State) with sec := { State.serv.sec with set := true, slot := 0 }, flash := { State.serv.flash with par := [(0, [(12288, 2), (12292, 3), (12293, 2), (12296, 198), (12297, 192), (12302, 16), (12303, 16), (12310, 128), (12311, 63), (12324, 1), (12326, 2), (12328, 3)])] } } : State) with svc := { State.serv.svc with wind := { st := 2 }, angles := [0x3f000000, 0x3f800000] } }))
    (s.on = true) ∧ (s.svcDue 243 = true) ∧ (s.steerRole = 2) ∧ (s.brakeRole = false) ∧ (s.svc.wind.st ≠ 0) ∧ (s.carrierTo s.focCtx = some c.val) ∧ (s.headHolds (40 + c / 64) = true)) ∧
    (let c : Fin 256 := 193; let s : State := ({ ({ (State.serv.wf LANE_STATE.STATE 4 |>.wf (SPN_ACT.TARGET 250) 200 |>.setN (LPE_CTXIN0.adr 200) 0x40000005 |>.wf (LPE_CTXOUT.TYPE 193) outCtxSp |>.wf (LPE_CTXOUT.INDEX 193) 200 |>.wf (LPE_CTXOUT.TYPE 192) 0 |>.setEntry 243 { inst := some { fire := 1, deadline := 9, action := 6 } } |>.wf (LANE_GRANT.OWNER 43) 1 : State) with sec := { State.serv.sec with set := true, slot := 0 }, flash := { State.serv.flash with par := [(0, [(12352, 1), (12370, 160), (12371, 64), (12375, 64), (12378, 122), (12379, 68), (12382, 32), (12383, 65), (12395, 63), (12398, 128), (12399, 63), (12403, 67), (12412, 5), (12415, 64)])] } } : State) with svc := { State.serv.svc with circ := { st := 2 } } })
    (s.on = true) ∧ (s.svcDue 243 = true) ∧ (s.steerRole = 0) ∧ (s.brakeRole = true) ∧ (s.svc.circ.st ≠ 0) ∧ (s.pressCtx.bind s.carrierTo = some c.val) ∧ (s.headHolds (40 + c / 64) = true)) ∧
    (let s : State := ({ ({ (State.serv.wf LANE_STATE.STATE 3 |>.setEntry 243 { inst := some { fire := 1, deadline := 9, action := 6 } } |>.wf LANE_STATE.RMODE 0 |>.wf TSK_OUTREQ.REQ 0x13 : State) with sec := { State.serv.sec with set := true, slot := 0 }, flash := { State.serv.flash with par := [(0, [])] } } : State) with svc := { State.serv.svc with  } })
    (s.on = true) ∧ (s.svcDue 243 = true) ∧ (s.steerRole = 0) ∧ (s.brakeRole = false) ∧ (s.st ≠ stService ∨ rmPair < s.rmode)) ∧
    (let s : State := (State.serv.setEntry 241 { State.serv.entry 241 with inst := some { action := 6, doneAt := none } })
    (s.on = true) ∧ (s.svcDue 241 = true)) ∧
    (let s : State := (State.serv.setEntry 242 { State.serv.entry 242 with inst := some { action := 6, doneAt := none } })
    (s.on = true) ∧ (s.svcDue 242 = true)) ∧
    (let s : State := (State.serv.setEntry 243 { State.serv.entry 243 with inst := some { action := 6, doneAt := none } })
    (s.on = true) ∧ (s.svcDue 243 = true)) :=
  by
  iterate 10 refine And.intro (by decide +kernel) ?_
  decide +kernel

theorem wit_ServiceUnits :
    (let s : State := ({ ({ ((if State.serv.now % 2 = 0 then (List.range 63).foldl (fun (a : State) u => a.wf (LANE_GRANT.OWNER u) 1) { (State.serv.wf LANE_STATE.STATE 3 : State) with lane := { State.serv.lane with moves := [] } } else State.serv.wf LANE_STATE.STATE 3) |>.wf (LPE_CTXIN0.INDEX 192) 197 |>.wf (LPE_CTXOUT.TYPE 194) outCtxSp |>.wf (LPE_CTXOUT.INDEX 194) 192 |>.wf (LPE_CTXOUT.TYPE 195) outCtxSp |>.wf (LPE_CTXOUT.INDEX 195) 198 |>.wf (LPE_CTXOUT.TYPE 192) 0 |>.wf (LPE_CTXOUT.TYPE 193) 0 : State) with sec := { State.serv.sec with set := true, slot := 0 }, flash := { State.serv.flash with par := [(0, [(12288, 1), (12292, 3), (12293, 2), (12296, 198), (12297, 192), (12302, 16), (12303, 16), (12310, 128), (12311, 63), (12324, 1), (12326, 2), (12328, 3)])] } } : State) with svc := { State.serv.svc with wind := { st := 1 } } })
    (s.on = true) ∧ (s.steerRole ≠ 0) ∧ (s.svc.wind.st = 1) ∧ (s.windCause = true) ∧ (s.svc.wind.prog = []) ∧ (s.svc.circ.prog = []) ∧ (s.svc.prog = [])) ∧
    (let s : State := ({ ({ ({ (((List.range 63).foldl (fun (a : State) u => a.wf (LANE_GRANT.OWNER u) 1) { (State.serv.wf LANE_STATE.STATE 3 : State) with lane := { State.serv.lane with moves := [] } }).wf AST_INJCTL.ARM 0 |>.wf LANE_PEERS.BRIDGE_UP 7 |>.setN (SPN_PERIOD.adr 20) 1000 |>.setN (SPN_ACT.adr 20) 0x300000C6 |>.wf (SPN_GRPEN.EN 1) 0xFFFF |>.wf (LPE_CTXIN0.INDEX 192) 197 |>.wf (LPE_CTXOUT.TYPE 194) outCtxSp |>.wf (LPE_CTXOUT.INDEX 194) 192 |>.wf (LPE_CTXOUT.TYPE 195) outCtxSp |>.wf (LPE_CTXOUT.INDEX 195) 198 |>.wf (LPE_CTXOUT.TYPE 192) 0 |>.wf (LPE_CTXOUT.TYPE 193) 0 : State) with sec := { State.serv.sec with set := true, slot := 0 }, flash := { State.serv.flash with par := [(0, [(12288, 1), (12292, 3), (12293, 2), (12296, 198), (12297, 192), (12302, 16), (12303, 16), (12310, 128), (12311, 63), (12324, 1), (12326, 2), (12328, 3)])] } } : State) with svc := { State.serv.svc with wind := { st := 1 } } } : State) with ast := { State.serv.ast with held := [] } })
    (s.st = stIntegrate ∨ s.st = stService) ∧ (s.steerRole ≠ 0) ∧ (s.svc.wind.st = 1) ∧ (s.windCause = true) ∧ (s.rf AST_INJCTL.ARM = 0) ∧ (s.ast.held = []) ∧ ((∀ u ∈ s.unitsOf s.windCtxs s.windBank, s.owner u = 1 ∧ s.moving u = false)) ∧ (s.svc.wind.prog = []) ∧ (s.svc.circ.prog = []) ∧ (s.svc.prog = [])) ∧
    (let s : State := ({ ({ (State.serv.wf LANE_STATE.STATE 4 |>.setN (GLK_LEGHOLD.adr 3) 0 |>.wf (LPE_CTXSTAT.STATE 198) 0 |>.wf (FBC_STAT.LOSS 2) 0 |>.wf (FBC_STAT.SUSPECT 2) 0 |>.wf (LPE_CTXIN0.INDEX 192) 197 |>.wf (LPE_CTXOUT.TYPE 194) outCtxSp |>.wf (LPE_CTXOUT.INDEX 194) 192 |>.wf (LPE_CTXOUT.TYPE 195) outCtxSp |>.wf (LPE_CTXOUT.INDEX 195) 198 |>.wf (LPE_CTXOUT.TYPE 192) 0 |>.wf (LPE_CTXOUT.TYPE 193) 0 : State) with sec := { State.serv.sec with set := true, slot := 0 }, flash := { State.serv.flash with par := [(0, [(12288, 1), (12292, 3), (12293, 2), (12296, 198), (12297, 192), (12302, 16), (12303, 16), (12310, 128), (12311, 63), (12324, 1), (12326, 2), (12328, 3)])] } } : State) with svc := { State.serv.svc with wind := { st := 1 }, lost := [], suspAt := none } })
    (s.svc.wind.st = 1) ∧ (s.windCause = false)) ∧
    (let s : State := ({ ({ ((if State.serv.now % 2 = 0 then (List.range 63).foldl (fun (a : State) u => a.wf (LANE_GRANT.OWNER u) 1) { (State.serv.wf LANE_STATE.STATE 3 : State) with lane := { State.serv.lane with moves := [] } } else State.serv.wf LANE_STATE.STATE 3) |>.wf (SPN_ACT.TARGET 250) 200 |>.setN (LPE_CTXIN0.adr 200) 0x40000005 |>.wf (LPE_CTXOUT.TYPE 193) outCtxSp |>.wf (LPE_CTXOUT.INDEX 193) 200 |>.wf (LPE_CTXOUT.TYPE 192) 0 : State) with sec := { State.serv.sec with set := true, slot := 0 }, flash := { State.serv.flash with par := [(0, [(12352, 1), (12370, 160), (12371, 64), (12375, 64), (12378, 122), (12379, 68), (12382, 32), (12383, 65), (12395, 63), (12398, 128), (12399, 63), (12403, 67), (12412, 5), (12415, 64)])] } } : State) with svc := { State.serv.svc with circ := { st := 1 } } })
    (s.on = true) ∧ (s.brakeRole = true) ∧ (s.svc.circ.st = 1) ∧ (s.circCause = true) ∧ (s.svc.wind.prog = []) ∧ (s.svc.circ.prog = []) ∧ (s.svc.prog = [])) ∧
    (let s : State := ({ ({ (State.serv.wf LANE_STATE.STATE 4 |>.setN (GLK_LEGHOLD.adr 3) 0 |>.wf (LPE_CTXSTAT.STATE 198) 0 |>.wf (FBC_STAT.LOSS 2) 0 |>.wf (FBC_STAT.SUSPECT 2) 0 |>.wf (LPE_CTXIN0.INDEX 192) 197 |>.wf (LPE_CTXOUT.TYPE 194) outCtxSp |>.wf (LPE_CTXOUT.INDEX 194) 192 |>.wf (LPE_CTXOUT.TYPE 195) outCtxSp |>.wf (LPE_CTXOUT.INDEX 195) 198 |>.wf (LPE_CTXOUT.TYPE 192) 0 |>.wf (LPE_CTXOUT.TYPE 193) 0 : State) with sec := { State.serv.sec with set := true, slot := 0 }, flash := { State.serv.flash with par := [(0, [(12288, 1), (12292, 3), (12293, 2), (12296, 198), (12297, 192), (12302, 16), (12303, 16), (12310, 128), (12311, 63), (12324, 1), (12326, 2), (12328, 3)])] } } : State) with svc := { State.serv.svc with wind := { st := 2, clearAt := some 3 }, lost := [], suspAt := none } })
    (s.on = true) ∧ (s.mayReturn s.svc.wind false = true) ∧ (s.windCause = false)) ∧
    (let s : State := ({ ({ (((List.range 63).foldl (fun (a : State) u => a.wf (LANE_GRANT.OWNER u) 1) { (State.serv.wf LANE_STATE.STATE 4 : State) with lane := { State.serv.lane with moves := [] } }) |>.setN (GLK_LEGHOLD.adr 3) 0 |>.wf (LPE_CTXSTAT.STATE 198) 0 |>.wf (FBC_STAT.LOSS 2) 0 |>.wf (FBC_STAT.SUSPECT 2) 0 |>.wf (LPE_CTXIN0.INDEX 192) 197 |>.wf (LPE_CTXOUT.TYPE 194) outCtxSp |>.wf (LPE_CTXOUT.INDEX 194) 192 |>.wf (LPE_CTXOUT.TYPE 195) outCtxSp |>.wf (LPE_CTXOUT.INDEX 195) 198 |>.wf (LPE_CTXOUT.TYPE 192) 0 |>.wf (LPE_CTXOUT.TYPE 193) 0 : State) with sec := { State.serv.sec with set := true, slot := 0 }, flash := { State.serv.flash with par := [(0, [(12288, 1), (12292, 3), (12293, 2), (12296, 198), (12297, 192), (12302, 16), (12303, 16), (12310, 128), (12311, 63), (12324, 1), (12326, 2), (12328, 3)])] } } : State) with svc := { State.serv.svc with wind := { st := 2, clearAt := some 3, units := [3, 30] }, lost := [], suspAt := none } })
    (s.on = true) ∧ (s.mayReturn s.svc.wind false = true) ∧ (s.windCause = false) ∧ ((∀ u ∈ s.unitsOf s.windCtxs s.windBank, s.owner u = 1 ∧ s.moving u = false)) ∧ ((∀ c ∈ s.windCtxs, s.owner (40 + c / 64) = 1 ∧ s.moving (40 + c / 64) = false)) ∧ (s.svc.wind.prog = []) ∧ (s.svc.circ.prog = []) ∧ (s.svc.prog = [])) ∧
    (let s : State := ({ ({ (State.serv.wf LANE_STATE.STATE 4 |>.wf (LPE_CTXIN0.INDEX 192) 197 |>.wf (LPE_CTXOUT.TYPE 194) outCtxSp |>.wf (LPE_CTXOUT.INDEX 194) 192 |>.wf (LPE_CTXOUT.TYPE 195) outCtxSp |>.wf (LPE_CTXOUT.INDEX 195) 198 |>.wf (LPE_CTXOUT.TYPE 192) 0 |>.wf (LPE_CTXOUT.TYPE 193) 0 : State) with sec := { State.serv.sec with set := true, slot := 0 }, flash := { State.serv.flash with par := [(0, [(12288, 1), (12292, 3), (12293, 2), (12296, 198), (12297, 192), (12302, 16), (12303, 16), (12310, 128), (12311, 63), (12324, 1), (12326, 2), (12328, 3)])] } } : State) with svc := { State.serv.svc with wind := { st := 2, clearAt := some 3, returns := 2 } } })
    (s.svc.wind.st = 2) ∧ (s.svc.wind.manual = true ∨ s.steerW 9 / 2 ^ 16 % 8 ≤ s.svc.wind.returns)) ∧
    (let ch : Fin 8 := 0; let r : HmbRun := { op := 0x403, tag := 7, takenAt := 3, cmd := some (.steerWindingRestore ch) }; let s : State := ((({ ({ (State.serv.wf LANE_STATE.STATE 3 |>.wf (LPE_CTXIN0.INDEX 192) 197 |>.wf (LPE_CTXOUT.TYPE 194) outCtxSp |>.wf (LPE_CTXOUT.INDEX 194) 192 |>.wf (LPE_CTXOUT.TYPE 195) outCtxSp |>.wf (LPE_CTXOUT.INDEX 195) 198 |>.wf (LPE_CTXOUT.TYPE 192) 0 |>.wf (LPE_CTXOUT.TYPE 193) 0 : State) with sec := { State.serv.sec with set := true, slot := 0 }, flash := { State.serv.flash with par := [(0, [(12288, 1), (12292, 3), (12293, 2), (12296, 198), (12297, 192), (12302, 16), (12303, 16), (12310, 128), (12311, 63), (12324, 1), (12326, 2), (12328, 3)])] } } : State) with svc := { State.serv.svc with  } }).setChan ch { (State.serv.chan ch) with run := some r }).wb (HMB_CHCFG.EN ch) true)
    (s.Asked ch (.steerWindingRestore ch) r) ∧ (s.windCause = true)) ∧
    (let ch : Fin 8 := 0; let r : HmbRun := { op := 0x403, tag := 7, takenAt := 3, cmd := some (.steerWindingRestore ch) }; let s : State := ((({ ({ (((List.range 63).foldl (fun (a : State) u => a.wf (LANE_GRANT.OWNER u) 1) { (State.serv.wf LANE_STATE.STATE 4 : State) with lane := { State.serv.lane with moves := [] } }) |>.setN (GLK_LEGHOLD.adr 3) 0 |>.wf (LPE_CTXSTAT.STATE 198) 0 |>.wf (FBC_STAT.LOSS 2) 0 |>.wf (FBC_STAT.SUSPECT 2) 0 |>.wf (LPE_CTXIN0.INDEX 192) 197 |>.wf (LPE_CTXOUT.TYPE 194) outCtxSp |>.wf (LPE_CTXOUT.INDEX 194) 192 |>.wf (LPE_CTXOUT.TYPE 195) outCtxSp |>.wf (LPE_CTXOUT.INDEX 195) 198 |>.wf (LPE_CTXOUT.TYPE 192) 0 |>.wf (LPE_CTXOUT.TYPE 193) 0 : State) with sec := { State.serv.sec with set := true, slot := 0 }, flash := { State.serv.flash with par := [(0, [(12288, 1), (12292, 3), (12293, 2), (12296, 198), (12297, 192), (12302, 16), (12303, 16), (12310, 128), (12311, 63), (12324, 1), (12326, 2), (12328, 3)])] } } : State) with svc := { State.serv.svc with wind := { st := 2 }, lost := [], suspAt := none } }).setChan ch { (State.serv.chan ch) with run := some r }).wb (HMB_CHCFG.EN ch) true)
    (s.Asked ch (.steerWindingRestore ch) r) ∧ (s.windCause = false) ∧ (s.svc.wind.st = 2) ∧ ((∀ u ∈ s.unitsOf s.windCtxs s.windBank, s.owner u = 1 ∧ s.moving u = false)) ∧ ((∀ c ∈ s.windCtxs, s.owner (40 + c / 64) = 1 ∧ s.moving (40 + c / 64) = false)) ∧ (s.svc.wind.prog = []) ∧ (s.svc.circ.prog = []) ∧ (s.svc.prog = [])) ∧
    (let ch : Fin 8 := 0; let r : HmbRun := { op := 0x403, tag := 7, takenAt := 3, cmd := some (.steerWindingRestore ch) }; let s : State := ((({ ({ (State.serv.wf LANE_STATE.STATE 4 |>.setN (GLK_LEGHOLD.adr 3) 0 |>.wf (LPE_CTXSTAT.STATE 198) 0 |>.wf (FBC_STAT.LOSS 2) 0 |>.wf (FBC_STAT.SUSPECT 2) 0 |>.wf (LPE_CTXIN0.INDEX 192) 197 |>.wf (LPE_CTXOUT.TYPE 194) outCtxSp |>.wf (LPE_CTXOUT.INDEX 194) 192 |>.wf (LPE_CTXOUT.TYPE 195) outCtxSp |>.wf (LPE_CTXOUT.INDEX 195) 198 |>.wf (LPE_CTXOUT.TYPE 192) 0 |>.wf (LPE_CTXOUT.TYPE 193) 0 : State) with sec := { State.serv.sec with set := true, slot := 0 }, flash := { State.serv.flash with par := [(0, [(12288, 1), (12292, 3), (12293, 2), (12296, 198), (12297, 192), (12302, 16), (12303, 16), (12310, 128), (12311, 63), (12324, 1), (12326, 2), (12328, 3)])] } } : State) with svc := { State.serv.svc with wind := { st := 1 }, lost := [], suspAt := none } }).setChan ch { (State.serv.chan ch) with run := some r }).wb (HMB_CHCFG.EN ch) true)
    (s.Asked ch (.steerWindingRestore ch) r) ∧ (s.windCause = false) ∧ (s.svc.wind.st ≠ 2)) ∧
    (let ch : Fin 8 := 0; let r : HmbRun := { op := 0x404, tag := 7, takenAt := 3, cmd := some (.brakeCircuitRestore ch) }; let s : State := ((({ ({ (State.serv.wf LANE_STATE.STATE 3 |>.wf (SPN_ACT.TARGET 250) 200 |>.setN (LPE_CTXIN0.adr 200) 0x40000005 |>.wf (LPE_CTXOUT.TYPE 193) outCtxSp |>.wf (LPE_CTXOUT.INDEX 193) 200 |>.wf (LPE_CTXOUT.TYPE 192) 0 : State) with sec := { State.serv.sec with set := true, slot := 0 }, flash := { State.serv.flash with par := [(0, [(12352, 1), (12370, 160), (12371, 64), (12375, 64), (12378, 122), (12379, 68), (12382, 32), (12383, 65), (12395, 63), (12398, 128), (12399, 63), (12403, 67), (12412, 5), (12415, 64)])] } } : State) with svc := { State.serv.svc with  } }).setChan ch { (State.serv.chan ch) with run := some r }).wb (HMB_CHCFG.EN ch) true)
    (s.Asked ch (.brakeCircuitRestore ch) r) ∧ (s.circCause = true)) ∧
    (let q : SvcReq := { unit := 41, addr := LPE_CTXCTL.adr 64, mask := 1, value := State.serv.rn (LPE_CTXCTL.adr 64), by_ := 5 }; let l : List SvcReq := []; let s : State := ({ (State.serv : State) with svc := { State.serv.svc with reqs := q :: l } })
    (s.on = true) ∧ (s.svc.reqs = q :: l) ∧ (q.by_ ≤ s.gt) ∧ (s.rn q.addr &&& q.mask = q.value &&& q.mask)) ∧
    (let q : SvcReq := { unit := 41, addr := LPE_CTXCTL.adr 64, mask := 1, value := 1, by_ := 5 }; let l : List SvcReq := []; let s : State := ({ (State.serv : State) with svc := { State.serv.svc with reqs := q :: l } }.wf (LPE_CTXCTL.AUTO 64) 0 |>.wf (LANE_GRANT.OWNER 41) 3 |> fun a => { a with lane := { a.lane with moves := [] } })
    (s.on = true) ∧ (s.svc.reqs = q :: l) ∧ (q.by_ ≤ s.gt) ∧ (s.rn q.addr &&& q.mask ≠ q.value &&& q.mask) ∧ (s.owner q.unit ≠ 1) ∧ (s.moving q.unit = false) ∧ (q.unit < 63) ∧ ((∀ u : Fin 63, LANE_GRANT.adr u ≠ q.addr)) ∧ (s.svc.wind.prog = []) ∧ (s.svc.circ.prog = []) ∧ (s.svc.prog = [])) ∧
    (let q : SvcReq := { unit := 41, addr := LPE_CTXCTL.adr 64, mask := 1, value := 1, by_ := 5 }; let l : List SvcReq := []; let c : Fin 256 := 64; let s : State := ((List.range 63).foldl (fun (a : State) u => a.wf (LANE_GRANT.OWNER u) 1) { ({ (State.serv : State) with svc := { State.serv.svc with reqs := q :: l } }.wf (LPE_CTXCTL.AUTO c) 0 : State) with lane := { State.serv.lane with moves := [] } })
    (s.on = true) ∧ (s.svc.reqs = q :: l) ∧ (q.by_ ≤ s.gt) ∧ (q.addr = LPE_CTXCTL.adr c) ∧ (q.unit = 40 + c.val / 64) ∧ (s.rn q.addr &&& q.mask ≠ q.value &&& q.mask) ∧ (s.owner q.unit = 1) ∧ (s.moving q.unit = false) ∧ (s.svc.wind.prog = []) ∧ (s.svc.circ.prog = []) ∧ (s.svc.prog = [])) ∧
    (let ch : Fin 8 := 0; let r : HmbRun := { op := 0x402, tag := 7, takenAt := 3, cmd := some (.svcStatus ch) }; let s : State := ((({ ({ (State.serv.wf LANE_STATE.STATE 4 |>.wf (LPE_CTXIN0.INDEX 192) 197 |>.wf (LPE_CTXOUT.TYPE 194) outCtxSp |>.wf (LPE_CTXOUT.INDEX 194) 192 |>.wf (LPE_CTXOUT.TYPE 195) outCtxSp |>.wf (LPE_CTXOUT.INDEX 195) 198 |>.wf (LPE_CTXOUT.TYPE 192) 0 |>.wf (LPE_CTXOUT.TYPE 193) 0 : State) with sec := { State.serv.sec with set := true, slot := 0 }, flash := { State.serv.flash with par := [(0, [(12288, 1), (12292, 3), (12293, 2), (12296, 198), (12297, 192), (12302, 16), (12303, 16), (12310, 128), (12311, 63), (12324, 1), (12326, 2), (12328, 3)])] } } : State) with svc := { State.serv.svc with  } }).setChan ch { (State.serv.chan ch) with run := some r }).wb (HMB_CHCFG.EN ch) true)
    (s.Asked ch (.svcStatus ch) r) ∧ (s.brakeRole = false)) ∧
    (let ch : Fin 8 := 0; let r : HmbRun := { op := 0x402, tag := 7, takenAt := 3, cmd := some (.svcStatus ch) }; let s : State := ((({ ({ (State.serv.wf LANE_STATE.STATE 4 |>.wf (SPN_ACT.TARGET 250) 200 |>.setN (LPE_CTXIN0.adr 200) 0x40000005 |>.wf (LPE_CTXOUT.TYPE 193) outCtxSp |>.wf (LPE_CTXOUT.INDEX 193) 200 |>.wf (LPE_CTXOUT.TYPE 192) 0 : State) with sec := { State.serv.sec with set := true, slot := 0 }, flash := { State.serv.flash with par := [(0, [(12352, 1), (12370, 160), (12371, 64), (12375, 64), (12378, 122), (12379, 68), (12382, 32), (12383, 65), (12395, 63), (12398, 128), (12399, 63), (12403, 67), (12412, 5), (12415, 64)])] } } : State) with svc := { State.serv.svc with  } }).setChan ch { (State.serv.chan ch) with run := some r }).wb (HMB_CHCFG.EN ch) true)
    (s.Asked ch (.svcStatus ch) r) ∧ (s.brakeRole = true) ∧ (s.steerRole = 0)) ∧
    (let ch : Fin 8 := 0; let r : HmbRun := { op := 0x402, tag := 7, takenAt := 3, cmd := some (.svcStatus ch) }; let s : State := ((({ ({ (State.serv.wf LANE_STATE.STATE 4 |>.wf (SPN_ACT.TARGET 250) 200 |>.setN (LPE_CTXIN0.adr 200) 0x40000005 |>.wf (LPE_CTXOUT.TYPE 193) outCtxSp |>.wf (LPE_CTXOUT.INDEX 193) 200 |>.wf (LPE_CTXOUT.TYPE 192) 0 : State) with sec := { State.serv.sec with set := true, slot := 0 }, flash := { State.serv.flash with par := [(0, [(12288, 1), (12292, 3), (12293, 2), (12296, 198), (12297, 192), (12302, 16), (12303, 16), (12310, 128), (12311, 63), (12324, 1), (12326, 2), (12328, 3), (12352, 1), (12370, 160), (12371, 64), (12375, 64), (12378, 122), (12379, 68), (12382, 32), (12383, 65), (12395, 63), (12398, 128), (12399, 63), (12403, 67), (12412, 5), (12415, 64)])] } } : State) with svc := { State.serv.svc with  } }).setChan ch { (State.serv.chan ch) with run := some r }).wb (HMB_CHCFG.EN ch) true)
    (s.Asked ch (.svcStatus ch) r) ∧ (s.brakeRole = true) ∧ (s.steerRole ≠ 0)) ∧
    (let s : State := ({ ({ ((if State.serv.now % 2 = 0 then (List.range 63).foldl (fun (a : State) u => a.wf (LANE_GRANT.OWNER u) 1) { (State.serv.wf LANE_STATE.STATE 3 : State) with lane := { State.serv.lane with moves := [] } } else State.serv.wf LANE_STATE.STATE 3) |>.wf (LPE_CTXIN0.INDEX 192) 197 |>.wf (LPE_CTXOUT.TYPE 194) outCtxSp |>.wf (LPE_CTXOUT.INDEX 194) 192 |>.wf (LPE_CTXOUT.TYPE 195) outCtxSp |>.wf (LPE_CTXOUT.INDEX 195) 198 |>.wf (LPE_CTXOUT.TYPE 192) 0 |>.wf (LPE_CTXOUT.TYPE 193) 0 : State) with sec := { State.serv.sec with set := true, slot := 0 }, flash := { State.serv.flash with par := [(0, [(12288, 1), (12292, 3), (12293, 2), (12296, 198), (12297, 192), (12302, 16), (12303, 16), (12310, 128), (12311, 63), (12324, 1), (12326, 2), (12328, 3)])] } } : State) with svc := { State.serv.svc with wind := { st := 1 } } })
    (s.on = true) ∧ (s.steerRole ≠ 0) ∧ (s.svc.wind.st ≠ 2) ∧ (s.svc.wind.st = 1 ∨ s.st = stService) ∧ (s.windCause = true)) ∧
    (let s : State := ({ ({ ((if State.serv.now % 2 = 0 then (List.range 63).foldl (fun (a : State) u => a.wf (LANE_GRANT.OWNER u) 1) { (State.serv.wf LANE_STATE.STATE 3 : State) with lane := { State.serv.lane with moves := [] } } else State.serv.wf LANE_STATE.STATE 3) |>.wf (SPN_ACT.TARGET 250) 200 |>.setN (LPE_CTXIN0.adr 200) 0x40000005 |>.wf (LPE_CTXOUT.TYPE 193) outCtxSp |>.wf (LPE_CTXOUT.INDEX 193) 200 |>.wf (LPE_CTXOUT.TYPE 192) 0 : State) with sec := { State.serv.sec with set := true, slot := 0 }, flash := { State.serv.flash with par := [(0, [(12352, 1), (12370, 160), (12371, 64), (12375, 64), (12378, 122), (12379, 68), (12382, 32), (12383, 65), (12395, 63), (12398, 128), (12399, 63), (12403, 67), (12412, 5), (12415, 64)])] } } : State) with svc := { State.serv.svc with circ := { st := 1 } } })
    (s.on = true) ∧ (s.brakeRole = true) ∧ (s.svc.circ.st = 1) ∧ (s.circCause = true)) ∧
    (let q : SvcReq := { unit := 41, addr := LPE_CTXCTL.adr 64, mask := 1, value := 1, by_ := 5 }; let l : List SvcReq := []; let s : State := ({ (State.serv : State) with svc := { State.serv.svc with reqs := q :: l } }.wf (LPE_CTXCTL.AUTO 64) 0)
    (s.on = true) ∧ (s.svc.reqs = q :: l) ∧ (q.by_ ≤ s.gt) ∧ (s.rn q.addr &&& q.mask ≠ q.value &&& q.mask) ∧ ((∀ u : Fin 63, LANE_GRANT.adr u ≠ q.addr))) :=
  by
  iterate 19 refine And.intro (by decide +kernel) ?_
  decide +kernel

theorem wit_TallyRecords :
    (let n : Fin 256 := 17; let x : Raise := { src := 17, detail := 0xABCD, gt := 0x123456789, at_ := 9 }; let s : State := ({ (((State.serv.wf (TLY_SRCCFG.REACT n) 0).wf AST_INJCTL.ARM 0).wf (TLY_RECCNT.STATE n) 0) with tly := { State.serv.tly with raises := [x] } })
    (s.on = true) ∧ (s.tly.raises = [x]) ∧ (x.at_ < s.now) ∧ (s.tly.copiesAgree = true) ∧ (x.src = n) ∧ (srcListed n = true) ∧ (s.rf (TLY_SRCCFG.REACT n) = 0) ∧ (n.val ≠ 2) ∧ (n.val ≠ 4) ∧ (n.val ≠ 5) ∧ (s.srcState n = tlyIdle) ∧ (s.rf AST_INJCTL.ARM = 0)) ∧
    (let n : Fin 256 := 17; let x : Raise := { src := 17, detail := 0xABCD, gt := 0x123456789, at_ := 9 }; let s : State := ({ (((State.serv.wf (TLY_SRCCFG.REACT n) 0).wf AST_INJCTL.ARM 0).wf (TLY_RECCNT.STATE n) 2) with tly := { State.serv.tly with raises := [x] } })
    (s.on = true) ∧ (s.tly.raises = [x]) ∧ (x.at_ < s.now) ∧ (s.tly.copiesAgree = true) ∧ (x.src = n) ∧ (srcListed n = true) ∧ (s.rf (TLY_SRCCFG.REACT n) = 0) ∧ (n.val ≠ 2) ∧ (n.val ≠ 4) ∧ (n.val ≠ 5) ∧ (s.srcState n ≠ tlyIdle) ∧ (s.rf AST_INJCTL.ARM = 0)) ∧
    (let n : Fin 256 := 17; let s : State := ({ ((State.serv.wf (TLY_RECCNT.STATE n) 1).wf AST_INJCTL.ARM 0) with tly := { State.serv.tly with raises := [], src := [], quiet := [] } })
    (s.on = true) ∧ (s.srcState n = tlyOpen) ∧ (s.asserted n = false) ∧ (s.tly.raises = []) ∧ (s.tly.copiesAgree = true) ∧ ((mget ({} : SrcSt) s.tly.src n).endAt + 1000000 * mget 0 s.tly.quiet n < s.now) ∧ (s.rf AST_INJCTL.ARM = 0)) ∧
    (let n : Fin 256 := 17; let s : State := ((State.serv.wf (TLY_RECCNT.STATE n) 2))
    (s.srcState n = tlyLatched)) ∧
    (let x : Raise := { src := 40, detail := 5, gt := 9, at_ := 4 }; let l : List Raise := [{ src := 41, detail := 5, gt := 9, at_ := 4 }, { src := 42, detail := 5, gt := 9, at_ := 6 }]; let s : State := ({ State.serv with tly := { State.serv.tly with raises := x :: l } })
    (s.on = true) ∧ (s.tly.raises = x :: l) ∧ (x.at_ < s.now)) :=
  by
  iterate 4 refine And.intro (by decide +kernel) ?_
  decide +kernel

theorem wit_TallyReactions :
    (let n : Fin 256 := 17; let x : Raise := { src := 17, detail := 0xABCD, gt := 0x123456789, at_ := 9 }; let s : State := ({ ((State.serv.wf (TLY_SRCCFG.REACT n) 16).wf (TLY_RECCNT.STATE n) 0) with tly := { State.serv.tly with raises := [x] } })
    (s.on = true) ∧ (s.tly.raises = [x]) ∧ (x.at_ < s.now) ∧ (s.tly.copiesAgree = true) ∧ (x.src = n) ∧ (srcListed n = true) ∧ (s.rf (TLY_SRCCFG.REACT n) = 16) ∧ (n.val ≠ 2) ∧ (n.val ≠ 4) ∧ (n.val ≠ 5)) ∧
    (let n : Fin 256 := 4; let x : Raise := { src := 4, detail := 0xABCD, gt := 0x123456789, at_ := 9 }; let s : State := ({ (({ State.serv with sec := { State.serv.sec with proc := none, recAt := none } } : State).wf (TLY_SRCCFG.REACT n) 8 |>.wf (TLY_RECCNT.STATE n) 0) with tly := { State.serv.tly with raises := [x] } })
    (s.on = true) ∧ (s.tly.raises = [x]) ∧ (x.at_ < s.now) ∧ (s.tly.copiesAgree = true) ∧ (x.src = n) ∧ (srcListed n = true) ∧ ((s.rf (TLY_SRCCFG.REACT n)).testBit 3 = true ∨ n.val = 2 ∨ n.val = 4 ∨ n.val = 5) ∧ ((s.rf (TLY_SRCCFG.REACT n)).testBit 2 = false) ∧ (s.sec.proc = none) ∧ (s.sec.recAt = none)) ∧
    (let n : Fin 256 := 66; let x : Raise := { src := 66, detail := 0xABCD, gt := 0x123456789, at_ := 9 }; let p : Fin 8 := 5; let s : State := ({ (((State.serv.wf (TLY_SRCCFG.REACT n) 4).wf (TLY_RECCNT.STATE n) 2).wf (GLK_PORTCFG.EN p) 1) with tly := { State.serv.tly with raises := [x] } })
    (s.on = true) ∧ (s.tly.raises = [x]) ∧ (x.at_ < s.now) ∧ (s.tly.copiesAgree = true) ∧ (x.src = n) ∧ (srcListed n = true) ∧ (64 ≤ n.val) ∧ (n.val < 96) ∧ (s.rf (TLY_SRCCFG.REACT n) = 4) ∧ (x.detail % 8 = p) ∧ (s.rb (GLK_PORTCFG.EN p) = true) ∧ (s.srcState n ≠ tlyIdle)) ∧
    (let s : State := (State.serv)
    (s.tly.copiesAgree = true)) ∧
    (let s : State := ({ State.serv with tly := { State.serv.tly with diff := [(TLY_STAT.adr 0, 4)] } })
    (s.on = true) ∧ (s.tly.copiesAgree = false)) ∧
    (let s : State := ({ ((List.range 256).foldl (fun a n => a.wf (TLY_RECCNT.STATE n) 0) (State.serv.wf TLY_CTRL.FORCE 0 |>.wf TLY_CTRL.EFLMIN 2)) with lane := { State.serv.lane with integrated := true }, tly := {} })
    (s.on = true) ∧ (s.eflCause = false) ∧ (s.tly.eflSince + 1000000 * s.rf TLY_CTRL.EFLMIN ≤ s.now)) ∧
    (let e : Nat := 40; let s : State := ({ State.serv.wf TLY_CTRL.FORCE 1 with tly := { State.serv.tly with eflTestEnd := some e } })
    (s.on = true) ∧ (s.tly.eflTestEnd = some e) ∧ (e ≤ s.now)) :=
  by
  iterate 6 refine And.intro (by decide +kernel) ?_
  decide +kernel

theorem wit_TallyAccess :
    (let req : Fin 32 := 9; let s : State := (State.serv)
    (s.on = true)) ∧
    (let req : Fin 32 := 9; let n : Fin 256 := 40; let s : State := (State.serv)
    (s.on = true)) ∧
    (let v : Word := 0x1234503; let s : State := (State.serv)
    (s.on = true)) ∧
    (let req : Fin 32 := 2; let v : Word := 0x1234507; let s : State := (State.serv.wf (SLP_PAIRSTAT.STATE 0) 1)
    (s.on = true) ∧ ((2 ≤ req.val ∧ req.val ≤ 4) ∨ (8 ≤ req.val ∧ req.val ≤ 13)) ∧ (s.honoured req = true) ∧ (6 ≤ v.toNat % 16)) ∧
    (let req : Fin 32 := 2; let v : Word := 0x1234505; let s : State := (State.serv)
    (s.on = true) ∧ (req.val ≠ 1) ∧ (v.toNat % 16 < 6)) ∧
    (let ch : Fin 8 := 0; let n : BitVec 16 := 100; let c : Word := 0x08006400; let r : HmbRun := { op := 0x801, tag := 7, takenAt := 3, cmd := some (.tlySetReaction ch n c) }; let s : State := (((State.serv).setChan ch { (State.serv.chan ch) with run := some r }).wb (HMB_CHCFG.EN ch) true)
    (s.Asked ch (.tlySetReaction ch n c) r) ∧ (srcListed n.toNat = true) ∧ (srcSafe (s.rf TLY_FWCLASS.SAFE) n.toNat = false) ∧ (c.getLsbD 30 = false) ∧ (ownerCode (c.toNat / 2 ^ 22 % 32) = true) ∧ (0 < c.toNat / 256 % 2 ^ 14) ∧ (c.toNat / 256 % 2 ^ 14 ≤ 10000)) ∧
    (let ch : Fin 8 := 0; let n : BitVec 16 := 1; let c : Word := 0x08006400; let r : HmbRun := { op := 0x801, tag := 7, takenAt := 3, cmd := some (.tlySetReaction ch n c) }; let s : State := (((State.serv).setChan ch { (State.serv.chan ch) with run := some r }).wb (HMB_CHCFG.EN ch) true)
    (s.Asked ch (.tlySetReaction ch n c) r) ∧ (srcListed n.toNat = false ∨ srcSafe (s.rf TLY_FWCLASS.SAFE) n.toNat = true ∨ c.getLsbD 30 = true)) ∧
    (let ch : Fin 8 := 0; let d : BitVec 16 := 500; let r : HmbRun := { op := 0x802, tag := 7, takenAt := 3, cmd := some (.tlyEflTest ch d) }; let s : State := (((State.serv).setChan ch { (State.serv.chan ch) with run := some r }).wb (HMB_CHCFG.EN ch) true)
    (s.Asked ch (.tlyEflTest ch d) r) ∧ (0 < d.toNat) ∧ (d.toNat ≤ 10000)) ∧
    (let ch : Fin 8 := 0; let d : BitVec 16 := 0; let r : HmbRun := { op := 0x802, tag := 7, takenAt := 3, cmd := some (.tlyEflTest ch d) }; let s : State := (((State.serv).setChan ch { (State.serv.chan ch) with run := some r }).wb (HMB_CHCFG.EN ch) true)
    (s.Asked ch (.tlyEflTest ch d) r) ∧ (d.toNat = 0 ∨ 10000 < d.toNat)) :=
  by
  iterate 8 refine And.intro (by decide +kernel) ?_
  decide +kernel

theorem wit_SafetyInputs :
    (let n : Fin 8 := 3; let a : Bool := true; let b : Bool := (decide (State.serv.now % 2 = 1)); let s : State := (({ State.serv with tsk := { State.serv.tsk with live := true, pathAt := [] } }).wf (TSK_INCFG.TYPE n) (1 + State.serv.now % 2))
    (s.on = true) ∧ (s.inUse n = true) ∧ ((a && s.chanB n b) = false)) ∧
    (let n : Fin 8 := 3; let s : State := (({ State.serv with tsk := { State.serv.tsk with live := true, pathAt := [] } }).wf (TSK_INCFG.TYPE n) 1)
    (s.on = true) ∧ (s.inUse n = true)) ∧
    (let n : Fin 8 := 3; let s : State := (({ State.serv with tsk := { State.serv.tsk with live := true, pathAt := [] } }).wf (TSK_INCFG.TYPE n) 1)
    (s.on = true) ∧ (s.inUse n = true)) ∧
    (let n : Fin 8 := 3; let d : Nat := 600; let s : State := (({ State.serv with tsk := { State.serv.tsk with live := true, pathAt := [] } }).wf (TSK_INCFG.TYPE n) 1 |>.wf (TSK_INCFG.TDISC n) 1000 |>.wf (TSK_INNEAR.NEAR n) 5)
    (s.on = true) ∧ (s.inUse n = true) ∧ (d < 100 * s.rf (TSK_INCFG.TDISC n))) :=
  by
  iterate 3 refine And.intro (by decide +kernel) ?_
  decide +kernel

theorem wit_SafetyOutputs :
    (let k : Fin 8 := 3; let s : State := (({ State.serv with tsk := { State.serv.tsk with live := true, pathAt := [] } }).wf TSK_OUTSTAT.ON (2 ^ k.val) |>.wf TSK_OUTSTAT.TESTING 0)
    (s.on = true) ∧ ((s.rf TSK_OUTSTAT.ON).testBit k = true) ∧ ((s.rf TSK_OUTSTAT.TESTING).testBit k = false) ∧ ((s.tsk.cmdAt.find? (fun x => x.1 == k.val)).all (fun x => decide (x.2 + 50000 ≤ s.now)) = true)) ∧
    (let k : Fin 8 := 3; let s : State := (({ State.serv with tsk := { State.serv.tsk with live := true, pathAt := [] } }).wf TSK_OUTSTAT.ON 0 |>.wf TSK_STAT.STATE 0)
    (s.on = true) ∧ (s.commanded k = false) ∧ (s.tskRun = true) ∧ ((s.tsk.cmdAt.find? (fun x => x.1 == k.val)).all (fun x => decide (x.2 + 50000 ≤ s.now)) = true)) ∧
    (let k : Fin 8 := 3; let p : Bool := true; let t0 : Nat := 9999000; let s : State := ({ ({ State.serv with tsk := { State.serv.tsk with live := true, pathAt := [] } }) with tsk := { State.serv.tsk with cmdAt := [(k.val, t0)] } })
    (s.on = true) ∧ (s.tsk.cmdAt.find? (fun x => x.1 == k.val) = some (k.val, t0)) ∧ (s.now < t0 + 50000)) ∧
    (let s : State := (({ State.serv with tsk := { State.serv.tsk with live := true, pathAt := [] } }).wf TSK_STAT.STATE 0)
    (s.on = true) ∧ (s.tskRun = true)) ∧
    (let k : Fin 8 := 3; let g : Nat := 1930000000; let s : State := (({ State.serv with tsk := { State.serv.tsk with live := true, pathAt := [] } }).wf TSK_OUTSTAT.ON 255 |>.wf (TSK_OUTCFG.TESTEN k) 1 |>.wf (TSK_OUTTEST.OTPER k) 100 |>.wf (TSK_OUTTEST.OTPH k) 30)
    (s.testInstant k = some g) ∧ (s.rb (TSK_OUTCFG.TESTEN k) = true) ∧ ((s.rf TSK_OUTSTAT.ON).testBit k = true) ∧ (mget 0 s.tsk.testGt k ≠ g)) ∧
    (let k : Fin 8 := 3; let s : State := (({ State.serv with tsk := { State.serv.tsk with live := true, pathAt := [] } }).wf TSK_OUTSTAT.TESTING 255)
    ((s.rf TSK_OUTSTAT.TESTING).testBit k = true) ∧ (mget 0 s.tsk.testGt k + 10000 * s.rf (TSK_OUTCFG.OTW k) ≤ s.gt)) ∧
    (let k : Fin 8 := 3; let s : State := (({ State.serv with tsk := { State.serv.tsk with live := true, pathAt := [] } }).wf TSK_OUTSTAT.TESTING 255 |>.wf TSK_STAT.STATE 0)
    ((s.rf TSK_OUTSTAT.TESTING).testBit k = true) ∧ (mget 0 s.tsk.testGt k + 10000 * s.rf (TSK_OUTCFG.OTW k) ≤ s.gt) ∧ (s.tskRun = true)) ∧
    (let k : Fin 8 := 3; let t0 : Nat := 900; let s : State := ({ ({ State.serv with tsk := { State.serv.tsk with live := true, pathAt := [] } }).wf TSK_CTRL.PDTIME 5 with tsk := { State.serv.tsk with pathAt := [(k.val, t0, false)] } })
    (s.on = true) ∧ (s.tsk.pathAt.find? (fun x => x.1 == k.val) = some (k.val, t0, false)) ∧ (t0 + 1000000 * s.rf TSK_CTRL.PDTIME ≤ s.now)) :=
  by
  iterate 7 refine And.intro (by decide +kernel) ?_
  decide +kernel

theorem wit_Challenge :
    (let req : Fin 32 := 1; let v : Word := 0x123; let e : Nat := 3000000000000; let s : State := ({ State.serv.wf (LANE_GRANT.OWNER (24 + State.serv.rf TSK_CHALCFG.ENTRY / 16)) req with tsk := { State.serv.tsk with chalEnd := some e, resp := none } })
    (s.on = true) ∧ (s.mayWrite req (24 + s.rf TSK_CHALCFG.ENTRY / 16) false = true) ∧ (s.tsk.chalEnd = some e) ∧ (s.gt < e) ∧ (s.tsk.resp = none)) ∧
    (let req : Fin 32 := 1; let v : Word := 0x123; let s : State := ({ State.serv.wf (LANE_GRANT.OWNER (24 + State.serv.rf TSK_CHALCFG.ENTRY / 16)) req with tsk := { State.serv.tsk with chalEnd := some 5, resp := none } })
    (s.on = true) ∧ (s.mayWrite req (24 + s.rf TSK_CHALCFG.ENTRY / 16) false = true) ∧ (s.tsk.chalEnd = none ∨ s.tsk.resp ≠ none ∨ s.tsk.chalEnd.elim false (fun e => decide (e ≤ s.gt)) = true)) ∧
    (let e : Nat := 30; let s : State := ({ State.serv with tsk := { State.serv.tsk with chalEnd := some e, resp := some State.serv.rightResponse } })
    (s.on = true) ∧ (s.tsk.chalEnd = some e) ∧ (e ≤ s.gt) ∧ (s.tsk.resp = some s.rightResponse)) ∧
    (let e : Nat := 30; let s : State := ({ State.serv.wf TSK_CHALSTAT.FAILRUN 0 with tsk := { State.serv.tsk with chalEnd := some e, resp := none } })
    (s.on = true) ∧ (s.tsk.chalEnd = some e) ∧ (e ≤ s.gt) ∧ (s.tsk.resp ≠ some s.rightResponse) ∧ (s.rf TSK_CHALSTAT.FAILRUN = 0)) ∧
    (let e : Nat := 30; let s : State := ({ State.serv.wf TSK_CHALSTAT.FAILRUN 1 |>.wf TSK_STAT.STATE 0 with tsk := { State.serv.tsk with chalEnd := some e, resp := none } })
    (s.on = true) ∧ (s.tsk.chalEnd = some e) ∧ (e ≤ s.gt) ∧ (s.tsk.resp ≠ some s.rightResponse) ∧ (s.rf TSK_CHALSTAT.FAILRUN = 1) ∧ (s.tskRun = true)) :=
  by
  iterate 4 refine And.intro (by decide +kernel) ?_
  decide +kernel

theorem wit_HealthAndSafetyReset :
    (let s : State := (({ State.serv with tsk := { State.serv.tsk with live := true, pathAt := [] } }).wf LANE_STATE.STATE 4 |>.wf SPN_SYNCSTAT.ALIGNED 1 |>.wf TSK_STAT.STATE 0 |>.wf TSK_CHALSTAT.FAILRUN 0)
    (s.healthy = true) ∧ (s.tsk.hlthChain < s.gt / 500000)) ∧
    (let s : State := (({ State.serv with tsk := { State.serv.tsk with live := true, pathAt := [] } }).wf TSK_STAT.HLTHON 1 |>.wf TSK_STAT.STATE 1)
    (s.on = true) ∧ (s.rb TSK_STAT.HLTHON = true) ∧ (s.healthy = false)) ∧
    (let p : Nat := 20000; let s : State := (({ ({ State.serv with tsk := { State.serv.tsk with live := true, pathAt := [] } }) with svc := { State.serv.svc with parkSince := none } }).wf TSK_SRSTSTAT.JAMMED 0 |>.setSafeIn 3 { healthy := true, zero := true })
    (s.on = true) ∧ (10000 ≤ p) ∧ (p ≤ 500000) ∧ (s.rb TSK_SRSTSTAT.JAMMED = false) ∧ (s.tsk.pressBad = false) ∧ (s.svc.parkSince = none)) ∧
    (let p : Nat := 200; let s : State := (({ State.serv with tsk := { State.serv.tsk with live := true, pathAt := [] } }))
    (s.on = true) ∧ (p < 10000 ∨ 500000 < p ∨ s.rb TSK_SRSTSTAT.JAMMED = true ∨ s.tsk.pressBad = true)) ∧
    (let s : State := (({ State.serv with tsk := { State.serv.tsk with live := true, pathAt := [] } }).wf TSK_SRSTSTAT.JAMMED 0)
    (s.on = true) ∧ (s.rb TSK_SRSTSTAT.JAMMED = false)) ∧
    (let s : State := (({ State.serv with tsk := { State.serv.tsk with live := true, pathAt := [] } }))
    (s.on = true) ∧ (s.tsk.pressBad = false)) ∧
    (let p : Nat := 20000; let s : State := (State.serv.wf TSK_SRSTSTAT.JAMMED 0 |> fun a => { a with tsk := { a.tsk with pressBad := false } })
    (s.on = true) ∧ (10000 ≤ p) ∧ (p ≤ 500000) ∧ (s.rb TSK_SRSTSTAT.JAMMED = false) ∧ (s.tsk.pressBad = false)) :=
  by
  iterate 6 refine And.intro (by decide +kernel) ?_
  decide +kernel

theorem wit_ResetCauses :
    (let s : State := ({ State.serv with cmpStuck := [], sec := { State.serv.sec with proc := none, recAt := none }, tly := { State.serv.tly with raises := [] }, flash := if State.serv.now % 2 = 0 then {} else { journal := [{ op := opCommit, step := stpActive, target := 1, v := 77 }], par := [(1, [(4, 3)])] } })
    (s.st ≠ stOff) ∧ (s.sec.proc = none) ∧ (s.sec.recAt = none)) ∧
    (let s : State := ({ State.serv with cmpStuck := [], sec := { State.serv.sec with proc := none, recAt := none }, tly := { State.serv.tly with raises := [] }, flash := if State.serv.now % 2 = 0 then {} else { journal := [{ op := opCommit, step := stpActive, target := 1, v := 77 }], par := [(1, [(4, 3)])] } })
    (s.st ≠ stOff) ∧ (s.sec.proc = none) ∧ (s.sec.recAt = none)) ∧
    (let s : State := (State.serv.wf LANE_STATE.STATE 0)
    (s.st = stOff)) ∧
    (let s : State := ({ (State.serv.wf LANE_STATE.STATE 0 : State) with pmu := { State.serv.pmu with holdPower := true, vlaneLost := decide (State.serv.now % 2 = 0) } })
    (s.st = stOff) ∧ (s.pmu.holdPower = true)) ∧
    (let s : State := ({ State.serv with cmpStuck := [], sec := { State.serv.sec with proc := none, recAt := none }, tly := { State.serv.tly with raises := [] }, flash := if State.serv.now % 2 = 0 then {} else { journal := [{ op := opCommit, step := stpActive, target := 1, v := 77 }], par := [(1, [(4, 3)])] } })
    (s.st ≠ stOff) ∧ (s.sec.proc = none) ∧ (s.sec.recAt = none) ∧ (s.laneRaise = none)) ∧
    (let x : Raise := { src := 17, detail := 0xABCD, gt := 5, at_ := 10000000 }; let s : State := ({ State.serv.wf (TLY_SRCCFG.REACT 17) 8 with tly := { State.serv.tly with raises := [x] } })
    (s.st ≠ stOff) ∧ (s.laneRaise = some x)) ∧
    (let p : Proc := { kind := 1, step := 6 }; let s : State := ({ State.serv with sec := { State.serv.sec with proc := some p, recAt := none }, tly := { State.serv.tly with raises := [] }, flash := { journal := [{ op := opCommit, step := stpActive, target := 1, v := 77 }] } })
    (s.st ≠ stOff) ∧ (s.sec.proc = some p) ∧ (s.sec.recAt = none) ∧ (s.laneRaise = none)) ∧
    (let s : State := ({ State.serv with cmpStuck := [], sec := { State.serv.sec with proc := none, recAt := none }, tly := { State.serv.tly with raises := [] }, flash := if State.serv.now % 2 = 0 then {} else { journal := [{ op := opCommit, step := stpActive, target := 1, v := 77 }], par := [(1, [(4, 3)])] } })
    (s.st ≠ stOff) ∧ (s.sec.proc = none) ∧ (s.sec.recAt = none) ∧ (s.laneRaise = none)) ∧
    (let s : State := ({ (State.serv.wf LANE_STATE.STATE 0 : State) with pmu := { State.serv.pmu with holdRstn := true } })
    (s.pmu.holdRstn = true)) ∧
    (let s : State := ({ (State.serv.wf LANE_STATE.STATE 0 : State) with pmu := { State.serv.pmu with beganAt := 5 } })
    (s.st = stOff) ∧ (s.pmu.beganAt < s.now)) ∧
    (let s : State := ({ (State.serv.wf LANE_STATE.STATE 0 : State) with pmu := { State.serv.pmu with holdPower := false, endAt := 5, vioBad := 6 } })
    (s.st = stOff) ∧ (s.pmu.holdPower = false) ∧ (s.pmu.holdTherm = false) ∧ (s.pmu.holdRstn = false) ∧ (s.pmu.vioBad.testBit 0 = false) ∧ (s.pmu.endAt ≤ s.now) ∧ (s.rf AST_INJCTL.ARM = 0) ∧ (s.ast.held = [])) ∧
    (let s : State := ({ (State.serv.wf LANE_STATE.STATE 0 : State) with pmu := { State.serv.pmu with holdTherm := true } })
    (s.st = stOff) ∧ (s.pmu.holdPower = true ∨ s.pmu.holdTherm = true ∨ s.pmu.holdRstn = true ∨ s.pmu.vioBad.testBit 0 = true ∨ s.now < s.pmu.endAt)) ∧
    (let b : Fin 8 := 2; let s : State := ({ (State.serv.wf LANE_STATE.STATE 0 : State) with pmu := { State.serv.pmu with vioBad := 3 } })
    (s.st = stOff) ∧ (s.pmu.vioBad.testBit 0 = true) ∧ (b.val.testBit 0 = false)) :=
  by
  iterate 12 refine And.intro (by decide +kernel) ?_
  decide +kernel

theorem wit_MonitorsAndWatchdog :
    (let s : State := (State.serv)
    (s.on = true) ∧ (s.asserted 0 = false)) ∧
    (let s : State := (State.serv.assertSrc 0 0)
    (s.on = true) ∧ (s.asserted 0 = true)) ∧
    (let s : State := (State.serv)
    (s.on = true)) ∧
    (let s : State := (State.serv)
    (s.on = true) ∧ (s.asserted 1 = false)) ∧
    (let s : State := (State.serv.assertSrc 1 0)
    (s.on = true) ∧ (s.asserted 1 = true)) ∧
    (let s : State := (State.serv)
    (s.on = true)) ∧
    (let x : Int := 125; let s : State := (State.serv.wf PMU_MONCFG.TJWARN 120)
    (s.on = true) ∧ (s.asserted 3 = false) ∧ ((s.rf PMU_MONCFG.TJWARN : Int) ≤ x)) ∧
    (let x : Int := -20; let s : State := (State.serv.wf PMU_MONCFG.TJWARN 120)
    (s.on = true) ∧ (x < (s.rf PMU_MONCFG.TJWARN : Int))) ∧
    (let k : Fin 4 := 2; let s : State := (State.serv)
    (s.on = true)) ∧
    (let x : Bool := false; let s : State := ({ State.serv with spn := { State.serv.spn with pinned := 100 } })
    (s.on = true) ∧ (x = true ∨ s.spn.pinned = 100)) ∧
    (let s : State := (State.serv)
    (s.spn.pinned < 100)) ∧
    (let b : Fin 8 := 2; let s : State := (State.serv.wf PMU_VIOCFG.USED 7)
    (s.on = true) ∧ (b.val.testBit 0 = false)) ∧
    (let b : Fin 8 := 2; let s : State := (let a : State := (List.range 16).foldl (fun (a : State) i => a.setFb i { a.fb i with nextSample := a.now / 10 }) ({ State.serv.wf PMU_VIOCFG.USED 7 with lane := { State.serv.lane with integrated := true } }); (List.range 4).foldl (fun (a : State) i => a.wf (PWM_TRIPCFG.EN i) 0) (a.setN PWM_TRIPSTAT.adr 0))
    (s.on = true) ∧ ((∀ n : Fin 16, s.now / 10 ≤ (s.fb n).nextSample)) ∧ ((∀ k : Fin 4, s.rb (PWM_TRIPCFG.EN k) = false)) ∧ (s.rf PWM_TRIPSTAT.LEVEL = 0) ∧ (s.asserted 9 = false) ∧ (b.val.testBit 0 = false) ∧ (b.val &&& (s.rf PMU_VIOCFG.USED ||| 1) &&& s.vioMon ≠ 0)) ∧
    (let b : Fin 8 := 3; let s : State := ({ State.serv with tly := { State.serv.tly with raises := [] }, sec := { State.serv.sec with proc := none, recAt := none } })
    (s.on = true) ∧ (b.val.testBit 0 = true) ∧ (s.sec.proc = none) ∧ (s.sec.recAt = none) ∧ (s.laneRaise = none)) ∧
    (let s : State := (let a : State := (List.range 16).foldl (fun (a : State) i => a.setFb i { a.fb i with nextSample := a.now / 10 }) (State.serv); (List.range 4).foldl (fun (a : State) i => a.wf (PWM_TRIPCFG.EN i) 0) (a.setN PWM_TRIPSTAT.adr 0))
    (s.on = true) ∧ ((∀ n : Fin 16, s.now / 10 ≤ (s.fb n).nextSample)) ∧ ((∀ k : Fin 4, s.rb (PWM_TRIPCFG.EN k) = false)) ∧ (s.rf PWM_TRIPSTAT.LEVEL = 0)) ∧
    (let v : Word := 0xA5; let s : State := ({ ({ (State.serv.wf PMU_WDCFG.WDMIN 1 |>.wf PMU_WDCFG.WDTO 5 : State) with pmu := { State.serv.pmu with kickAt := State.serv.now - 2000000, nextA5 := true } } : State) with lane := { State.serv.lane with integrated := true } })
    (s.on = true) ∧ (s.lane.integrated = true) ∧ (v.toNat % 256 = (if s.pmu.nextA5 then 0xA5 else 0x5A)) ∧ (s.pmu.kickAt + 1000000 * s.rf PMU_WDCFG.WDMIN ≤ s.now) ∧ (s.now ≤ s.pmu.kickAt + 1000000 * s.rf PMU_WDCFG.WDTO)) ∧
    (let v : Word := 0x5A; let c : Nat := (if State.serv.now % 3 = 0 then 3 else if State.serv.now % 3 = 1 then 4 else 2); let s : State := ({ ({ (State.serv.wf PMU_WDCFG.WDMIN 3 |>.wf PMU_WDCFG.WDTO 5 : State) with pmu := { State.serv.pmu with kickAt := State.serv.now - 2000000 * (1 + State.serv.now % 3), nextA5 := true } } : State) with lane := { State.serv.lane with integrated := true } })
    (s.on = true) ∧ (s.lane.integrated = true) ∧ (s.pmu.kickAt ≤ s.now) ∧ ((c = 4 ∧ v.toNat % 256 ≠ (if s.pmu.nextA5 then 0xA5 else 0x5A) ∧ s.pmu.kickAt + 1000000 * s.rf PMU_WDCFG.WDMIN ≤ s.now ∧ s.now ≤ s.pmu.kickAt + 1000000 * s.rf PMU_WDCFG.WDTO) ∨ (c = 3 ∧ s.now < s.pmu.kickAt + 1000000 * s.rf PMU_WDCFG.WDMIN ∧ s.now ≤ s.pmu.kickAt + 1000000 * s.rf PMU_WDCFG.WDTO + 100000) ∨ (c = 2 ∧ s.pmu.kickAt + 1000000 * s.rf PMU_WDCFG.WDTO + 100000 < s.now))) ∧
    (let v : Word := 0x5A; let s : State := ({ State.serv with lane := { State.serv.lane with integrated := false } })
    (s.on = true) ∧ (s.lane.integrated = false)) ∧
    (let req : Fin 32 := 3; let v : Word := 0x5A; let s : State := (State.serv)
    (s.on = true) ∧ (req ≠ 1)) ∧
    (let s : State := ({ ({ (State.serv.wf PMU_WDCFG.WDTO 5 : State) with pmu := { State.serv.pmu with kickAt := 5, wdStopped := false } } : State) with lane := { State.serv.lane with integrated := true } })
    (s.on = true) ∧ (s.lane.integrated = true) ∧ (s.pmu.wdStopped = false) ∧ (s.pmu.kickAt + 1000000 * s.rf PMU_WDCFG.WDTO ≤ s.now)) ∧
    (let s : State := ({ ({ (State.serv.wf LANE_STATE.STATE 1 : State) with pmu := { State.serv.pmu with releasedAt := 5, wdStopped := false } } : State) with now := 600000000, lane := { State.serv.lane with integrated := false } })
    (s.on = true) ∧ (s.lane.integrated = false) ∧ (s.pmu.wdStopped = false) ∧ (s.pmu.releasedAt + 500000000 ≤ s.now)) :=
  by
  iterate 20 refine And.intro (by decide +kernel) ?_
  decide +kernel

theorem wit_StartUp :
    (let s : State := ({ ({ ({ (State.serv.wf LANE_STATE.STATE 1 : State) with sec := { State.serv.sec with hsOk := false } } : State) with pmu := { State.serv.pmu with wdStopped := false } } : State) with flash := { State.serv.flash with journal := [], fw := [(0, ((leBytes 4 0x4E414D4A ++ [0, 0, 1, 0, 5, 0, 1, 0] ++ List.replicate 20 0 ++ (List.replicate 12 0 ++ [2, 0, 0, 0] ++ sha512 []) ++ leBytes 64 1).zipIdx.map (fun (b : Byte × Nat) => (b.2, b.1))))] } })
    (s.st = stBoot) ∧ (s.sec.hsOk = false) ∧ (s.pmu.wdStopped = false) ∧ (s.flash.journal = []) ∧ (s.verifyImage 0 0 = 0) ∧ (s.otp.used0 = 0) ∧ (s.sec.set = false)) ∧
    (let s : State := ({ ({ ({ (State.serv.wf LANE_STATE.STATE 1 : State) with sec := { State.serv.sec with hsOk := false } } : State) with pmu := { State.serv.pmu with wdStopped := false } } : State) with flash := { State.serv.flash with journal := [], fw := [(2, ((leBytes 4 0x4E414D4A ++ [0, 0, 1, 0, 5, 0, 1, 0] ++ List.replicate 20 0 ++ (List.replicate 12 0 ++ [2, 0, 0, 0] ++ sha512 []) ++ leBytes 64 1).zipIdx.map (fun (b : Byte × Nat) => (b.2, b.1))))] } })
    (s.st = stBoot) ∧ (s.sec.hsOk = false) ∧ (s.pmu.wdStopped = false) ∧ (s.flash.journal = []) ∧ (s.verifyImage 0 0 ≠ 0) ∧ (s.verifyImage 1 0 = 0)) ∧
    (let s : State := ({ ({ ({ (State.serv.wf LANE_STATE.STATE 1 : State) with sec := { State.serv.sec with hsOk := false } } : State) with pmu := { State.serv.pmu with wdStopped := false } } : State) with flash := { State.serv.flash with journal := [], fw := [] } })
    (s.st = stBoot) ∧ (s.sec.hsOk = false) ∧ (s.pmu.wdStopped = false) ∧ (s.flash.journal = []) ∧ (s.verifyImage 0 0 ≠ 0) ∧ (s.verifyImage 1 0 ≠ 0)) ∧
    (let s : State := ({ ({ (State.serv.wf LANE_STATE.STATE 2 |>.wf PMU_STSTAT.DONE 0 : State) with sec := { State.serv.sec with set := false, bank := 0 } } : State) with flash := { State.serv.flash with journal := [], fw := [] } })
    (s.st = stSelftest) ∧ (s.rb PMU_STSTAT.DONE = false) ∧ (s.cmpGood = true) ∧ (s.profileBad = false)) ∧
    (let s : State := ({ ({ ({ State.serv with lane := { State.serv.lane with moves := [] } }.wf LANE_STATE.STATE 2 |>.wf PMU_STSTAT.DONE 0 : State) with sec := { State.serv.sec with set := false, bank := 0 } } : State) with flash := { State.serv.flash with journal := [], fw := [] } })
    (s.st = stSelftest) ∧ (s.rb PMU_STSTAT.DONE = false) ∧ (s.cmpGood = true) ∧ (s.profileBad = false) ∧ (s.verifyImage s.sec.bank 1 ≠ 0) ∧ (s.lane.moves = [])) ∧
    (let e : SelfTest := ⟨true, true, false, true, true, true, true, true⟩; let s : State := ({ (State.serv.wf LANE_STATE.STATE 2 |>.wf PMU_STSTAT.DONE 0 : State) with sec := { State.serv.sec with set := false } })
    (s.st = stSelftest) ∧ (s.rb PMU_STSTAT.DONE = false) ∧ (s.profileBad = false) ∧ ((b2n (!e.tlySelf) + b2n (!e.sram) * 2 + b2n (!e.tcm) * 4 + b2n (!e.ckbuf) * 8 + b2n (!e.delay) * 16 + b2n (!(e.cmp && s.cmpGood)) * 32 + b2n (!e.tskrb) * 64 + b2n (!e.sampler) * 128) ≠ 0)) ∧
    (let s : State := ({ (State.serv.wf LANE_STATE.STATE 2 |>.wf PMU_STSTAT.DONE 0 |>.wf LANE_PROFILE.ACTIVE 9 |>.wf LANE_PROFILE.MAXPROF 1 : State) with sec := { State.serv.sec with set := true } })
    (s.st = stSelftest) ∧ (s.rb PMU_STSTAT.DONE = false) ∧ (s.cmpGood = true) ∧ (s.profileBad = true)) ∧
    (let s : State := ({ State.serv.wf LANE_STATE.STATE 3 |>.wf PMU_STARTCFG.NETWAIT 5 with lane := { State.serv.lane with integAt := 3 } })
    (s.st = stIntegrate) ∧ (s.lane.integAt + 1000000 * s.rf PMU_STARTCFG.NETWAIT ≤ s.now)) ∧
    (let k : Fin 3 := 2; let t0 : Nat := 3; let s : State := ({ State.serv.wf LANE_STATE.STATE 3 |>.wf PMU_STARTCFG.PEERWAIT 5 with lane := { State.serv.lane with readyAt := some t0 } })
    (s.st = stIntegrate) ∧ (s.isPeer k = true) ∧ ((s.peer k).readyAt = none) ∧ (s.lane.readyAt = some t0) ∧ (t0 + 1000000 * s.rf PMU_STARTCFG.PEERWAIT ≤ s.now)) ∧
    (let t0 : Nat := 3; let f : Nat := 3; let s : State := ({ { (State.serv.wf LANE_STATE.STATE 3 |>.wf TSK_STAT.STATE 2 |>.wf SPN_SYNCSTAT.ALIGNED 1 |>.wf ANW_NODESTAT.STATE 6 |>.wf PMU_STARTCFG.NETWAIT 0 |>.wf LBR_AGRCFG.EN 0 |>.wf LANE_PEERS.BRIDGE_UP 0 : State) with sec := { State.serv.sec with appOk := true, setOk := true, pend := none } } with lane := { State.serv.lane with readyAt := some t0, integAt := 0 } })
    (s.st = stIntegrate) ∧ (s.sec.pend = none) ∧ (s.readyBase = true) ∧ (s.serveBarred = false) ∧ (s.lane.readyAt = some t0) ∧ (s.entryFrom = some f) ∧ (f + 1000000 + s.gt % 1000000 ≤ s.now)) ∧
    (let s : State := ({ (State.serv.wf LANE_STATE.STATE 3 : State) with sec := { State.serv.sec with appOk := false } })
    (s.st = stIntegrate) ∧ (s.readyBase = false)) ∧
    (let s : State := ({ ({ ({ (State.serv.wf LANE_STATE.STATE 1 : State) with sec := { State.serv.sec with hsOk := false } } : State) with pmu := { State.serv.pmu with wdStopped := false } } : State) with flash := { State.serv.flash with journal := State.serv.flash.journal, fw := [(0, ((leBytes 4 0x4E414D4A ++ [0, 0, 1, 0, 5, 0, 1, 0] ++ List.replicate 20 0 ++ (List.replicate 12 0 ++ [2, 0, 0, 0] ++ sha512 []) ++ leBytes 64 1).zipIdx.map (fun (b : Byte × Nat) => (b.2, b.1)))), (2, ((leBytes 4 0x4E414D4A ++ [0, 0, 1, 0, 5, 0, 1, 0] ++ List.replicate 20 0 ++ (List.replicate 12 0 ++ [2, 0, 0, 0] ++ sha512 []) ++ leBytes 64 1).zipIdx.map (fun (b : Byte × Nat) => (b.2, b.1))))] } })
    (s.st = stBoot) ∧ (s.sec.hsOk = false) ∧ (s.pmu.wdStopped = false) ∧ (s.verifyImage 0 0 = 0) ∧ (s.verifyImage 1 0 = 0)) :=
  by
  iterate 11 refine And.intro (by decide +kernel) ?_
  decide +kernel

theorem wit_TickAdvances :
    (let s : State := { State.serv with rate := -858993, slew := -429497, frac := 5 }
    s.pending = [] ∧ s.on = true ∧ (-858993 ≤ s.rate ∧ s.rate ≤ 858993 ∧ -429497 ≤ s.slew ∧ s.slew ≤ 429497 ∧ s.frac < 2 ^ 32) ∧ s.gt + 6 < 2 ^ 64) ∧
    (let s : State := State.serv.setPort 2 { lastDown := 5 }
    s.pending = [] ∧ s.on = true ∧ s.spn.waiting = [] ∧ (∀ n : Fin 16, s.fbBusy n = false) ∧ (∀ n ∈ s.glk.ports.map (·.1), (s.port n).queue = [] ∧ (s.port n).relDue = 0 ∧ (s.port n).echoDue = false ∧ (s.port n).syncDue = false)) ∧
    (let s : State := State.serv.wf LANE_STATE.STATE 0
    s.pending = [] ∧ s.on = false) :=
  by
  iterate 2 refine And.intro (by decide +kernel) ?_
  decide +kernel

theorem wit_TimeInService :
    (let s : State := { State.serv with pending := [.heartbeatSend] }
    s.st = stService ∧ s.gt + 6 < 2 ^ 64 ∧ s.rate = 0 ∧ s.slew = 0 ∧ s.frac = 0 ∧ (match step s with | .next t => t.st != stOff | _ => false) = true) ∧
    (let s : State := State.serv.wf LANE_STATE.STATE 5
    s.st = stDebug ∧ s.gt + 6 < 2 ^ 64 ∧ s.on = true ∧ s.pending = [] ∧ s.rate = 0 ∧ s.slew = 0 ∧ s.frac = 0) ∧
    (let s : State := { State.serv with pending := [.powerLoss] }
    s.st ≠ stOff ∧ (match step s with | .next t => t.st == stOff | _ => false) = true) :=
  by
  iterate 2 refine And.intro (by decide +kernel) ?_
  decide +kernel

theorem wit_StateTransitions :
    (let s : State := State.serv
    s.st ≤ stDebug ∧ (match exec .powerLoss s with | .next t => t.st != s.st | _ => false) = true) :=
  by decide +kernel

theorem wit_HeartbeatFields :
    (let h : Heartbeat := { seq := 0xFEDCBA98, state := 4, ready := true, pend := true, profile := 255, rmode := 3, v := 2 ^ 40 - 1, vValid := true, pv := 0, pvValid := false }
    h.seq < 2 ^ 32 ∧ h.state < 16 ∧ h.profile < 256 ∧ h.rmode < 4 ∧ h.v < 2 ^ 40 ∧ h.pv < 2 ^ 40 ∧ (h.vValid = false → h.v = 0) ∧ (h.pvValid = false → h.pv = 0)) :=
  by decide +kernel

/-! ### Witnesses that need a case split over what the model leaves opaque -/

/-! The capture words, agreement items and the valve's bank are opaque to Lean: these witnesses go through every value they
can have. -/

theorem mem_item (r : Nat) : svcItemOf r ∈ List.range 48 := List.mem_range.mpr (Nat.mod_lt _ (by decide))

theorem agreed_all (s : State) (r : Nat) (h : (List.range 48).all (fun i => s.rb (LBR_RESSTAT.NEW i) && s.rn (LBR_RESULT.adr i) == 0) = true) : s.agreed r = some 0 := by
  have := List.all_eq_true.mp h _ (mem_item r)
  simp only [Bool.and_eq_true, beq_iff_eq] at this
  unfold State.agreed; simp [this.1, this.2]

theorem word_all (s : State) (h : (List.range 48).all (fun i => s.rn (LBR_ITEMSRC.adr i) % 4 == 0 && region (s.rn (LBR_ITEMSRC.adr i)) == some 2) = true) (r : Nat) :
    s.svcWordOf r % 4 = 0 ∧ region (s.svcWordOf r) = some 2 := by
  have := List.all_eq_true.mp h _ (mem_item r)
  simp only [Bool.and_eq_true, beq_iff_eq] at this
  exact this

theorem held_all (s : State) (ctxs : List Nat) (b : Nat) (hb : b < 8) (h : (List.range 63).all (fun u => s.owner u == 1 && !s.moving u) = true) :
    ∀ u ∈ s.unitsOf ctxs b, s.owner u = 1 ∧ s.moving u = false := by
  intro u hu
  have hl : u < 63 := by
    unfold State.unitsOf at hu
    rcases List.mem_cons.mp (List.mem_eraseDups.mp hu) with rfl | hm
    · omega
    · obtain ⟨m, hr, rfl⟩ := List.mem_map.mp hm
      have := List.mem_range.mp (List.mem_filter.mp hr).1
      omega
  have := List.all_eq_true.mp h u (List.mem_range.mpr hl)
  simpa using this

/-- The circuit's causes with the valve's bank as a number. -/
def State.circCauseAt (s : State) (b : Nat) : Bool :=
  s.st != stService || s.circCtxs.any (fun c => s.rf (LPE_CTXSTAT.STATE c) == cxFailed) ||
  (s.linkBank b && s.bankHeld b) || s.legReason b 0x3F || s.bankLatched b || s.pressFault ||
  s.carrierLost s.circCtxs

theorem circCause_at (s : State) (h : (List.range 8).all (fun b => !s.circCauseAt b) = true) : s.circCause = false := by
  have h1 := List.all_eq_true.mp h valveBank (List.mem_range.mpr (Nat.mod_lt _ (by decide)))
  have h2 : s.circCauseAt valveBank = false := by simpa using h1
  exact h2

/-- A lane in SERVICE whose brake circuit is out, without a cause. -/
def State.servOut : State :=
  { State.serv with sec := { State.serv.sec with set := true }, flash := { State.serv.flash with par := [(0, [(0x3026, 2), (0x3040, 1)])] }
                    svc := { State.serv.svc with circ := { st := 2, clearAt := some 3 } } }

theorem wit_ServiceUnits_circ : let s : State := State.servOut
    s.on = true ∧ s.mayReturn s.svc.circ true = true ∧ s.circCause = false ∧ s.svc.circ.st = 2 ∧
    (∀ u ∈ s.unitsOf s.circCtxs valveBank, s.owner u = 1 ∧ s.moving u = false) ∧
    (∀ c ∈ s.circCtxs, s.owner (40 + c / 64) = 1 ∧ s.moving (40 + c / 64) = false) ∧
    s.svc.wind.prog = [] ∧ s.svc.circ.prog = [] ∧ s.svc.prog = [] :=
  ⟨by decide +kernel, by decide +kernel, circCause_at _ (by decide +kernel), rfl,
   held_all _ _ _ (Nat.mod_lt _ (by decide)) (by decide +kernel), by decide +kernel, rfl, rfl, rfl⟩

theorem wit_ServiceUnits_restore :
    let ch : Fin 8 := 0; let r : HmbRun := { op := 0x404, tag := 7, takenAt := 3, cmd := some (.brakeCircuitRestore ch) }
    let s : State := (State.servOut.setChan ch { (State.servOut.chan ch) with run := some r }).wb (HMB_CHCFG.EN ch) true
    s.Asked ch (.brakeCircuitRestore ch) r ∧ s.circCause = false ∧ s.svc.circ.st = 2 ∧
    (∀ u ∈ s.unitsOf s.circCtxs valveBank, s.owner u = 1 ∧ s.moving u = false) :=
  ⟨by decide +kernel, circCause_at _ (by decide +kernel), rfl, held_all _ _ _ (Nat.mod_lt _ (by decide)) (by decide +kernel)⟩

theorem wit_ServiceUnits_inService :
    let ch : Fin 8 := 0; let r : HmbRun := { op := 0x404, tag := 7, takenAt := 3, cmd := some (.brakeCircuitRestore ch) }
    let a : State := { State.servOut with svc := { State.servOut.svc with circ := { st := 1 } } }
    let s : State := (a.setChan ch { (a.chan ch) with run := some r }).wb (HMB_CHCFG.EN ch) true
    s.Asked ch (.brakeCircuitRestore ch) r ∧ s.circCause = false ∧ s.svc.circ.st ≠ 2 :=
  ⟨by decide +kernel, circCause_at _ (by decide +kernel), by decide +kernel⟩

/-- A lane in SERVICE with a steering record of the given ROLE, whose 48 agreement items hold new values and name words of
SRAM; an instance of entry `m` is due. -/
def State.servNew (role m : Nat) : State :=
  let s := { State.serv with
    regs := (State.serv.wf LANE_STATE.RMODE 0).regs ++ (List.range 48).map (fun i => (LBR_RESSTAT.adr i, BitVec.ofNat 32 (2 ^ (LBR_RESSTAT.NEW i).lo))) ++
      (List.range 48).map (fun i => (LBR_ITEMSRC.adr i, BitVec.ofNat 32 (0x20000100 + 4 * i)))
    sec := { State.serv.sec with set := true }, flash := { State.serv.flash with par := [(0, if role = 0 then [] else [(0x3000, BitVec.ofNat 8 role), (0x3009, 192)])] } }
  s.setEntry m { inst := some { fire := 1, deadline := 9, action := 6 } }

theorem wit_ServiceSensors_capture : let s : State := State.servNew 1 241
    s.on = true ∧ s.svcDue 241 = true ∧ inOuter ∈ s.svcInputs ∧ (∀ p ∈ s.svcInputs, s.svcWordOf p % 4 = 0 ∧ region (s.svcWordOf p) = some 2) :=
  ⟨by decide +kernel, by decide +kernel, by decide +kernel, fun p _ => word_all _ (by decide +kernel) p⟩

theorem wit_ServiceSensors_judged : let s : State := State.servNew 1 242
    s.on = true ∧ s.svcDue 242 = true ∧ s.steerRole = 1 ∧ s.agreed inAngle = some 0 :=
  ⟨by decide +kernel, by decide +kernel, by decide +kernel, agreed_all _ _ (by decide +kernel)⟩

theorem wit_ServiceLaws_follow :
    let w := fun (f : Bool) (k : Nat) => { (State.servNew 1 243).wf (LPE_CTXSTAT.STATE 192) k with svc := { State.serv.svc with wind := { st := 1 }, follow := true, followed := f } }
    let q := fun (s : State) => s.on = true ∧ s.svcDue 243 = true ∧ s.steerRole = 1 ∧ s.brakeRole = false ∧ s.svc.wind.st ≠ 0 ∧
      s.rb (LPE_CTXCTL.AUTO s.outerCtx) = false ∧ s.svc.follow = true ∧ s.owner (40 + s.outerCtx / 64) = 1 ∧ s.moving (40 + s.outerCtx / 64) = false ∧
      s.svc.wind.prog = [] ∧ s.svc.circ.prog = [] ∧ s.svc.prog = []
    q (w false 0) ∧ (w false 0).svc.followed = false ∧ (w false 0).rf (LPE_CTXSTAT.STATE (w false 0).outerCtx) ≠ cxWait ∧ (w false 0).agreed inOuter = some 0 ∧
    q (w true cxManual) ∧ (w true cxManual).svc.followed = true ∧ (w true cxManual).rf (LPE_CTXSTAT.STATE (w true cxManual).outerCtx) = cxManual ∧
    (w true cxManual).agreed inOuter = some 0 :=
  ⟨by decide +kernel, rfl, by decide +kernel, agreed_all _ _ (by decide +kernel), by decide +kernel, rfl, by decide +kernel, agreed_all _ _ (by decide +kernel)⟩

theorem wit_ServiceLaws_spring : let s : State := State.servNew 0 243
    s.st = stService ∧ s.rmode ≤ rmPair ∧ s.svcDue 243 = true ∧ s.steerRole = 0 ∧ s.brakeRole = false ∧ s.agreed inPark = some 0 ∧ s.outHold = false :=
  ⟨by decide +kernel, by decide +kernel, by decide +kernel, by decide +kernel, by decide +kernel, agreed_all _ _ (by decide +kernel), by decide +kernel⟩

/-- A state in SERVICE with memory listed and a store waiting. -/
def State.servMem : State :=
  { State.serv with mem := [(0x20000000, 7), (0x20000004, 9)], tcm := [(8, [(0x100000, 1)])], pending := [.powerLoss] }

theorem wit_StepKeepsInvariant_mem : MemOk State.servMem ∧ ClockOk State.servMem ∧ StateOk State.servMem ∧ ∃ t, step State.servMem = .next t := by
  refine ⟨⟨by decide +kernel, ?_, ?_⟩, ?_, ?_, ⟨_, rfl⟩⟩
  · intro k m h
    have : (k, m) = (8, [(0x100000, 1)]) := by simpa [State.servMem] using h
    cases this; decide
  · intro p x h
    have : (p, x) ∈ ([] : List (Nat × SlpPair)) := h
    simp at this
  · unfold ClockOk; decide +kernel
  · exact ⟨by decide +kernel, fun q h => by simp [State.servMem, State.serv] at h; cases h⟩

end Sys2Proof.Machine
end

section
/-! PROOF. Accesses that are refused (R22 to R30): what a capture records, which writes are discarded. -/

namespace Sys2Proof.Machine

/-! ### Refused accesses -/

theorem whenOn_on {s : State} (h : s.on = true) (k : State → State) : s.whenOn k = .next (k s) := by simp [State.whenOn, h]

/-- The fields of LANE_FAULT_INFO in the word that a first capture writes (R40). -/
theorem faultInfo_fields (req kind : Nat) (wr : Bool) (n : Nat) (h : n = (2 ^ 31 + faultDetail req kind wr + 1) % 2 ^ 32) :
    LANE_FAULT_INFO.VALID.getN n = 1 ∧ LANE_FAULT_INFO.REQ.getN n = req % 32 ∧ LANE_FAULT_INFO.KIND.getN n = kind % 4 ∧
    LANE_FAULT_INFO.WR.getN n = b2n wr ∧ LANE_FAULT_INFO.COUNT.getN n = 1 := by
  have hw : b2n wr ≤ 1 := by cases wr <;> decide
  simp only [Fld.getN, LANE_FAULT_INFO.VALID, LANE_FAULT_INFO.REQ, LANE_FAULT_INFO.KIND, LANE_FAULT_INFO.WR,
    LANE_FAULT_INFO.COUNT, Nat.shiftRight_eq_div_pow, faultDetail] at h ⊢
  omega

theorem capture_first {s : State} (hv : s.rb LANE_FAULT_INFO.VALID = false) (addr req kind : Nat) (wr : Bool) :
    s.capture addr req kind wr =
      ({ s with lane := { s.lane with lastFault := some (s.now, addr, 2 ^ 31 + faultDetail req kind wr + 1) } }.setN
        LANE_FAULT_ADDR.adr addr).setN LANE_FAULT_INFO.adr (2 ^ 31 + faultDetail req kind wr + 1) := by
  rw [State.capture]
  exact if_neg (fun h => by
    change s.rb LANE_FAULT_INFO.VALID = true at h
    rw [hv] at h; cases h)

theorem capture_again {s : State} (hv : s.rb LANE_FAULT_INFO.VALID = true) (addr req kind : Nat) (wr : Bool) :
    s.capture addr req kind wr =
      { s with lane := { s.lane with lastFault := some (s.now, addr, 2 ^ 31 + faultDetail req kind wr + 1) } }.incSat
        LANE_FAULT_INFO.COUNT := by
  rw [State.capture]
  exact if_pos hv

/-- A capture records the access (R40). -/
theorem recorded_capture (s : State) (addr req kind : Nat) (wr : Bool) : Recorded s (s.capture addr req kind wr) addr req kind wr := by
  unfold Recorded
  cases hv : s.rb LANE_FAULT_INFO.VALID
  · rw [if_neg (by simp), capture_first hv]
    obtain ⟨h1, h2, h3, h4, h5⟩ := faultInfo_fields req kind wr _ rfl
    have hw : ∀ t : State, ∀ f : Fld, f.adr = LANE_FAULT_INFO.adr →
        (t.setN LANE_FAULT_INFO.adr (2 ^ 31 + faultDetail req kind wr + 1)).rf f =
          f.getN ((2 ^ 31 + faultDetail req kind wr + 1) % 2 ^ 32) := fun t f hf => by
      rw [State.rf, rn_setN, if_pos hf]
    refine ⟨?_, (hw _ _ rfl).trans h1, (hw _ _ rfl).trans h2, (hw _ _ rfl).trans h3, (hw _ _ rfl).trans h4, (hw _ _ rfl).trans h5, ?_⟩
    · rw [rn_setN, if_neg (by decide), rn_setN, if_pos rfl]
    · exact ((RegsBut.refl _ _).setN (by simp) |>.setN (by simp))
  · rw [if_pos rfl, capture_again hv]
    refine ⟨?_, (RegsBut.refl _ _).incSat (by simp)⟩
    rw [incSat_eq, rf_wf_same _ _ _ (by decide), satN_mod, satN, Nat.min_def]
    rfl

/-- A capture touches the registers and its own note. -/
theorem capture_frame (s : State) (addr req kind : Nat) (wr : Bool) :
    s.capture addr req kind wr = { s with
      regs := (s.capture addr req kind wr).regs
      lane := { s.lane with lastFault := (s.capture addr req kind wr).lane.lastFault } } := by
  unfold State.capture
  extract_lets info u
  split_ifs <;> rfl

/-- A raise behind a capture. -/
theorem raised_capture (s : State) (addr req kind : Nat) (wr : Bool) (src d : Nat) :
    Raised s ((s.capture addr req kind wr).raiseEv src d) src d := by
  rw [capture_frame]; rfl

theorem discarded_violate (s : State) (addr req kind : Nat) : Discarded s (s.violate addr req kind) addr req kind :=
  ⟨recorded_capture s addr req kind true, raised_capture s addr req kind true 7 _, by
    rw [State.violate, capture_frame]; rfl⟩

/-- A Headstock-owned write by another requester. -/
theorem headstockOnly_other {s : State} {req : Nat} (h : req ≠ 1) (addr : Nat) (k : State → State) :
    s.headstockOnly req addr k = s.violate addr req 2 := if_neg h

/-! ### Where a store goes -/

theorem blockRows_none {b : Nat} (h : 22 < b) : blockRows b = [] := by
  unfold blockRows
  split
  case h_24 => rfl
  all_goals omega

/-- A register lies in a block's range. -/
theorem region_of_regRow {a : Nat} {x : RegRow × Nat × Nat} (h : regRow a = some x) : region a = some 3 := by
  unfold regRow at h
  split at h
  · cases h
  · next hlo =>
    have hb : (a - 0x40000000) / 0x10000 ≤ 22 := by
      by_contra hb
      rw [blockRows_none (Nat.lt_of_not_le hb)] at h
      cases h
    unfold region
    rw [if_neg (by omega), if_neg (by omega), if_neg (by omega), if_pos (by omega)]

/-- A store to a register goes to its block. -/
theorem store_register {a : Nat} {x : RegRow × Nat × Nat} (h : regRow a = some x) (s : State) (req v : Nat) (e : Bool) :
    s.store req a v e = s.blockWrite req a v e := by
  simp [State.store, reaches, region_of_regRow h]

/-- A write that its requester may not make is discarded. -/
theorem blockWrite_refused {s : State} {req a v : Nat} {e : Bool} {row : RegRow} {i j kind : Nat} (h : regRow a = some (row, i, j))
    (he : s.noEndpoint a = false) (hk : s.writeKind req row i a v e = some kind) :
    s.blockWrite req a v e = s.violate a req kind := by
  simp [State.blockWrite, h, he, hk]

/-- REGISTER_WRITE of a write that its requester may not make. -/
theorem registerWrite_refused {s : State} (hon : s.on = true) {req : Fin 32} {a : Nat} {v : Word} {e : Bool} {row : RegRow}
    {i j kind : Nat} (h : regRow a = some (row, i, j)) (he : s.noEndpoint a = false)
    (hk : s.writeKind req row i a v.toNat e = some kind) :
    ∃ t, exec (.registerWrite req a v e) s = .next t ∧ Discarded s t a req kind := by
  refine ⟨s.violate a req kind, ?_, discarded_violate s a req kind⟩
  change s.whenOn (fun s => s.store req a v.toNat e) = _
  rw [whenOn_on hon, store_register h, blockWrite_refused h he hk]

/-- A command that is a write to a Headstock-owned register, from another requester. -/
theorem headstockOnly_discards {s : State} (hon : s.on = true) {req : Fin 32} (hr : req.val ≠ 1) (a : Nat) (k : State → State) :
    ∃ t, s.whenOn (fun s => s.headstockOnly req a k) = .next t ∧ Discarded s t a req 2 :=
  ⟨s.violate a req 2, by rw [whenOn_on hon, headstockOnly_other hr], discarded_violate s a req 2⟩

/-- The Headstock's firmware sources are raised by the Headstock alone (R298). -/
theorem fwRaise_other {s : State} {req v : Nat} (hr : req ≠ 1) (hv : v % 16 < 6) :
    s.fwRaise req v = s.violate TLY_FWRAISE.adr req 2 :=
  if_neg (fun h => h.elim hr (fun h => absurd h.2 (by omega)))

/-- Settles O15: each of these writes is refused with KIND 2, and a refusal is a capture and a raise. -/
theorem registerOwnership : Obligations.RegisterOwnership := by
  refine ⟨fun s req a v e row i j hon hr hrow hown he => ?_, fun s req v hon hr => headstockOnly_discards hon hr _ _,
    fun s req v hon hr => headstockOnly_discards hon hr _ _, fun s req b k w v hon hr => headstockOnly_discards hon hr _ _,
    fun s req v hon hr hv => ?_⟩
  · exact registerWrite_refused hon hrow he (by simp only [State.writeKind, hown, if_neg hr])
  · refine ⟨s.violate TLY_FWRAISE.adr req 2, ?_, discarded_violate _ _ _ _⟩
    change s.whenOn (fun s => s.fwRaise req v.toNat) = _
    rw [whenOn_on hon, fwRaise_other hr hv]

/-- A lane whose flow context 0 sends from the 16 bytes at 0x2000_0010. -/
def State.txAt16 : State :=
  (((State.serv.wf ANW_BUFBASE.BASE 0x200).wf (ANW_FLOWBUF.BUFOFS 0) 1).wf (ANW_FLOWBUF.LEN 0) 16).wb (ANW_FLOWCFG.EN 0) true |>.wb
    (ANW_FLOWCFG.DIR 0) true

/-- A store of core 9 at 0x2000_000E runs into that buffer, and is discarded whole: its word keeps reading 0. -/
theorem store_into_txBuffer_discarded : (State.txAt16.store 9 0x2000000E 1 false).memWord 0x2000000E = 0 := by decide +kernel

/-- Refutes O16: the clause of lane SRAM asks that the store's first byte lies in no TX buffer; a store that begins below a
buffer and runs into it passes the grant test all the same (R313) and is discarded from a requester without the grant. -/
theorem not_registerUnits : ¬ Obligations.RegisterUnits := by
  rintro ⟨-, -, -, -, -, -, -, -, sram⟩
  obtain ⟨t, ht, hw, -⟩ := sram State.txAt16 9 0x2000000E 1 false (by decide +kernel) (by decide) (by decide) (by decide +kernel)
  change State.txAt16.whenOn (fun s => s.store 9 0x2000000E 1 false) = .next t at ht
  rw [whenOn_on (by decide +kernel), Host.Outcome.next.injEq] at ht
  rw [← ht, store_into_txBuffer_discarded] at hw
  exact absurd hw (by decide)
end Sys2Proof.Machine
end

section
/-! PROOF. The payload of a heartbeat (R35), and the state after reset (R456). -/

namespace Sys2Proof.Machine
@[simp] theorem leBytes_length (k n : Nat) : (leBytes k n).length = k := by
  induction k generalizing n with
  | zero => rfl
  | succ k ih => simp [leBytes, ih]

theorem ofLe_leBytes (k n : Nat) : ofLe (leBytes k n) = n % 256 ^ k := by
  induction k generalizing n with
  | zero => simp [leBytes, ofLe, Nat.mod_one]
  | succ k ih =>
    rw [leBytes, ofLe, ih, Nat.pow_succ', Nat.mod_mul]
    simp

/-- A number read behind a prefix. -/
theorem leAt_append (p l : List Byte) (o n : Nat) : leAt (p ++ l) (p.length + o) n = leAt l o n := by
  have : sliceB (p ++ l) (p.length + o) n = sliceB l o n :=
    List.map_congr_left fun i _ => by
      simp [List.getD_eq_getElem?_getD, List.getElem?_append_right, Nat.add_assoc]
  rw [leAt, this, leAt]

/-- A number read behind another one. -/
theorem leAt_skip (k x o n : Nat) (r : List Byte) (h : k ≤ o) : leAt (leBytes k x ++ r) o n = leAt r (o - k) n := by
  have := leAt_append (leBytes k x) r (o - k) n
  rwa [leBytes_length, Nat.add_sub_cancel' h] at this

/-- The number at the front. -/
theorem leAt_front (k x : Nat) (r : List Byte) : leAt (leBytes k x ++ r) 0 k = x % 256 ^ k := by
  have : sliceB (leBytes k x ++ r) 0 k = leBytes k x := by
    refine List.ext_getElem (by simp [sliceB]) fun i hi _ => ?_
    have hk : i < k := by simpa [sliceB] using hi
    simp [sliceB, List.getD_eq_getElem?_getD, List.getElem?_append_left, hk]
  rw [leAt, this, ofLe_leBytes]

/-- A check value and its valid bit, as the peer reads them. -/
theorem checkBytes_read (v : Nat) (valid : Bool) (r : List Byte) (hv : v < 2 ^ 40) (h0 : valid = false → v = 0) :
    leAt (checkBytes v valid ++ r) 0 8 % 2 ^ 40 = v ∧ (leAt (checkBytes v valid ++ r) 0 8).testBit 63 = valid := by
  rw [checkBytes, leAt_front, Nat.testBit_eq_decide_div_mod_eq]
  cases valid
  · simp [h0 rfl]
  · simp only [if_true, decide_eq_true_eq]; omega

theorem checkBytes_skip (v : Nat) (valid : Bool) (r : List Byte) (o n : Nat) (h : 8 ≤ o) :
    leAt (checkBytes v valid ++ r) o n = leAt r (o - 8) n := leAt_skip _ _ _ _ _ h

theorem bytes_length (h : Heartbeat) : h.bytes.length = 28 := by simp [Heartbeat.bytes, checkBytes]

/-- The byte of STATE, READY and PEND. -/
theorem stateByte_read (st : Nat) (rd pe : Bool) (h : st < 16) (b : Nat) (hb : b = (st % 16 + b2n rd * 16 + b2n pe * 32) % 256 ^ 1) :
    b % 16 = st ∧ b.testBit 4 = rd ∧ b.testBit 5 = pe := by
  simp only [Nat.testBit_eq_decide_div_mod_eq, hb]
  cases rd <;> cases pe <;> simp [b2n] <;> omega

theorem heartbeatOf_bytes (h : Heartbeat) (hs : h.seq < 2 ^ 32) (hst : h.state < 16) (hp : h.profile < 256) (hr : h.rmode < 4)
    (hv : h.v < 2 ^ 40) (hpv : h.pv < 2 ^ 40) (h0 : h.vValid = false → h.v = 0) (hp0 : h.pvValid = false → h.pv = 0) :
    heartbeatOf h.bytes = h := by
  have e0 : leAt h.bytes 0 4 = h.seq := by
    simp only [Heartbeat.bytes, List.append_assoc, leAt_front]; omega
  obtain ⟨e1, e2, e3⟩ := stateByte_read h.state h.ready h.pend hst (leAt h.bytes 4 1) (by
    simp [Heartbeat.bytes, leAt_skip, leAt_front])
  have e4 : leAt h.bytes 5 1 = h.profile := by
    simp [Heartbeat.bytes, leAt_skip, leAt_front]; omega
  have e5 : leAt h.bytes 6 1 % 4 = h.rmode := by
    simp [Heartbeat.bytes, leAt_skip, leAt_front]; omega
  have e6 : leAt h.bytes 8 8 = leAt (checkBytes h.v h.vValid ++ (checkBytes h.pv h.pvValid ++ leBytes 4 0)) 0 8 := by
    simp [Heartbeat.bytes, leAt_skip]
  have e7 : leAt h.bytes 16 8 = leAt (checkBytes h.pv h.pvValid ++ leBytes 4 0) 0 8 := by
    simp [Heartbeat.bytes, leAt_skip, checkBytes_skip]
  obtain ⟨v1, v2⟩ := checkBytes_read h.v h.vValid (checkBytes h.pv h.pvValid ++ leBytes 4 0) hv h0
  obtain ⟨p1, p2⟩ := checkBytes_read h.pv h.pvValid (leBytes 4 0) hpv hp0
  simp only [heartbeatOf, e0, e1, e2, e3, e4, e5, e6, e7, v1, v2, p1, p2]

/-- Settles O60: each field of Table LANE-8 is read at the offset where it was written. -/
theorem heartbeatFields : Obligations.HeartbeatFields :=
  fun h hs hst hp hr hv hpv h0 hp0 => ⟨bytes_length h, heartbeatOf_bytes h hs hst hp hr hv hpv h0 hp0⟩

/-- Memory after reset lists nothing. -/
theorem memOk_reset : MemOk State.reset := ⟨rfl, by simp [State.reset], by simp [State.reset]⟩

/-- Settles O55: each register named reads its reset value. -/
theorem resetState : Obligations.ResetState :=
  ⟨rfl, by decide, rfl, by decide, by decide, by decide, by decide, by decide, by decide +kernel, by decide, by decide, by decide,
    by decide +kernel, rfl, rfl, memOk_reset, by decide, by decide⟩
end Sys2Proof.Machine
end

section
/-! PROOF. What a function of the model leaves alone: the clock, the canonical form of memory, and the lane state (R20, R44, R49, R456). -/

namespace Sys2Proof.Machine

/- The side conditions of these lemmas have defaults, which wait for every theorem before them: one lemma after another, then,
without a thread for each that waits. -/
set_option Elab.async false

variable {s t u : State}

/-! ### What the services still have to write -/

/-- An act of a service names no write of LANE_STATE. -/
def SvcOp.Spares (op : SvcOp) : Prop := ∀ a, op.addr? = some a → a ≠ LANE_STATE.adr

/-- An act that writes no register. -/
theorem SvcOp.spares_of_none {op : SvcOp} (h : op.addr? = none) : op.Spares := fun _ ha => by rw [h] at ha; cases ha

/-- A write of a register above LANE_STATE. -/
theorem SvcOp.spares_put {u a m v : Nat} (h : LANE_STATE.adr < a) : (SvcOp.put u a m v).Spares := fun b hb => by
  cases hb; exact Nat.ne_of_gt h

/-- Two acts that spare LANE_STATE. -/
theorem spares_pair {a b : SvcOp} (ha : a.Spares) (hb : b.Spares) : ∀ op ∈ [a, b], op.Spares := by
  simp only [List.mem_cons, List.not_mem_nil, or_false, forall_eq_or_imp, forall_eq]
  exact ⟨ha, hb⟩

/-- Acts that spare LANE_STATE behind those that wait. -/
theorem spare_append {l m : List SvcOp} (hl : ∀ op ∈ l, op.Spares) (hm : ∀ op ∈ m, op.Spares) : ∀ op ∈ l ++ m, op.Spares :=
  fun op h => (List.mem_append.1 h).elim (hl op) (hm op)

/-- No write of the services that waits names LANE_STATE. -/
structure SvcSt.Spares (v : SvcSt) : Prop where
  reqs : ∀ r ∈ v.reqs, r.addr ≠ LANE_STATE.adr
  wind : ∀ op ∈ v.wind.prog, op.Spares
  circ : ∀ op ∈ v.circ.prog, op.Spares
  prog : ∀ op ∈ v.prog, op.Spares

theorem svcAddrs_spare_iff : (∀ a ∈ s.svcAddrs, a ≠ LANE_STATE.adr) ↔ s.svc.Spares := by
  simp only [State.svcAddrs, List.mem_append, List.mem_map, List.mem_filterMap]
  constructor
  · intro h
    exact ⟨fun r hr => h _ (.inl ⟨r, hr, rfl⟩), fun op ho a ha => h a (.inr ⟨op, .inl (.inl ho), ha⟩),
      fun op ho a ha => h a (.inr ⟨op, .inl (.inr ho), ha⟩), fun op ho a ha => h a (.inr ⟨op, .inr ho, ha⟩)⟩
  · rintro ⟨h1, h2, h3, h4⟩ a (⟨r, hr, rfl⟩ | ⟨op, (ho | ho) | ho, ha⟩)
    · exact h1 r hr
    · exact h2 op ho a ha
    · exact h3 op ho a ha
    · exact h4 op ho a ha

/-! ### The memory of a pair's checkpoints -/

/-- The TCM images of both checkpoint copies are in canonical form. -/
def SlpPair.MemOk (x : SlpPair) : Prop := Memory.wf x.copy0.tcm = true ∧ Memory.wf x.copy1.tcm = true

/-- A map whose every value has a property gives such a value at any key. -/
theorem mget_of_forall {α : Type} {p : α → Prop} {d : α} {m : SMap α} (hd : p d) (hm : ∀ k x, (k, x) ∈ m → p x) (i : Nat) :
    p (mget d m i) := by
  induction m with
  | nil => exact hd
  | cons y l ih =>
    obtain ⟨k, x⟩ := y
    unfold mget
    split_ifs
    · exact hm k x (by simp)
    · exact ih fun k x hx => hm k x (by simp [hx])

/-- A write of a map adds no other value. -/
theorem mem_mset {α : Type} {m : SMap α} {i k : Nat} {v x : α} (h : (k, x) ∈ mset m i v) : x = v ∨ (k, x) ∈ m := by
  induction m with
  | nil => simp_all [mset]
  | cons y l ih =>
    obtain ⟨j, y⟩ := y
    unfold mset at h
    split_ifs at h <;> simp_all only [List.mem_cons, Prod.mk.injEq] <;> tauto

theorem pair_memOk (h : MemOk s) (p : Nat) : (s.pair p).MemOk := by
  obtain ⟨-, -, hp⟩ := h
  exact mget_of_forall ⟨rfl, rfl⟩ hp p

theorem tcm_wf (h : MemOk s) (k : Nat) : Memory.wf (mget [] s.tcm k) = true := by
  obtain ⟨-, ht, -⟩ := h
  exact mget_of_forall (p := fun m => Memory.wf m = true) rfl ht k

/-- Bytes put one by one keep the canonical form. -/
theorem wf_foldl_memPut {α : Type} (a : α → Nat) (b : α → Byte) (l : List α) :
    ∀ {m : List Host.Cell}, Memory.wf m = true → Memory.wf (l.foldl (fun m x => memPut m (a x) (b x)) m) = true := by
  induction l with
  | nil => exact fun h => h
  | cons x l ih => exact fun h => ih (wf_memPut (a x) (b x) h)

/-- Cells taken out of a map in canonical form leave one. -/
theorem wf_filter {p : Host.Cell → Bool} : ∀ {m : List Host.Cell}, Memory.wf m = true → Memory.wf (m.filter p) = true
  | [], _ => rfl
  | (a, b) :: m, h => by
    obtain ⟨hb, ha, hm⟩ := wf_cons.1 h
    rw [List.filter_cons]
    split
    · exact wf_cons.2 ⟨hb, fun x hx => ha x (List.mem_of_mem_filter hx), wf_filter hm⟩
    · exact wf_filter hm

theorem copyPages_wf {pages : List Nat} {src dst : List Host.Cell} (hd : Memory.wf dst = true) :
    Memory.wf (copyPages pages src dst) = true :=
  wf_foldl_memPut _ _ _ (wf_filter hd)

theorem newest_wf {x : SlpPair} {c : CkCopy} (hx : x.MemOk) (hc : x.newest = some c) : Memory.wf c.tcm = true := by
  obtain ⟨h0, h1⟩ := hx
  unfold SlpPair.newest at hc
  split at hc <;> cases hc
  · split <;> assumption
  · exact h0
  · exact h1

/-! ### What stays as it is within one state of the lane -/

/-- The clock and its corrections stand, lane memory keeps its canonical form, and where no write of the services that waits names
LANE_STATE, the lane's state stands and none that waits then names it. -/
structure Quiet (s t : State) : Prop where
  gt_eq : t.gt = s.gt
  frac_eq : t.frac = s.frac
  rate_eq : t.rate = s.rate
  slew_eq : t.slew = s.slew
  memOk : MemOk s → MemOk t
  svc_ok : s.svc.Spares → t.st = s.st ∧ t.svc.Spares

/-- A state that is found, if one is, is quiet. -/
def Quiet.Opt (s : State) (o : Option State) : Prop := ∀ ⦃u⦄, o = some u → Quiet s u

/-- The state that a command leads to is quiet. -/
def Quiet.Out (s : State) (r : Res) : Prop := ∀ ⦃u⦄, r = .next u → Quiet s u

theorem Quiet.refl : Quiet s s := ⟨rfl, rfl, rfl, rfl, id, fun h => ⟨rfl, h⟩⟩

theorem Quiet.trans (h : Quiet s t) (k : Quiet t u) : Quiet s u where
  gt_eq := k.gt_eq.trans h.gt_eq
  frac_eq := k.frac_eq.trans h.frac_eq
  rate_eq := k.rate_eq.trans h.rate_eq
  slew_eq := k.slew_eq.trans h.slew_eq
  memOk := k.memOk ∘ h.memOk
  svc_ok hs := by
    obtain ⟨e, ht⟩ := h.svc_ok hs
    obtain ⟨e', hu⟩ := k.svc_ok ht
    exact ⟨e'.trans e, hu⟩

theorem Quiet.ite {c : Prop} {_ : Decidable c} {a b : State} (ha : Quiet s a) (hb : Quiet s b) : Quiet s (if c then a else b) := by
  split <;> assumption

/-- What follows, from a state that several of its branches share. -/
theorem Quiet.andThen {p : Prop} (h : Quiet s t) (k : Quiet s t → p) : p := k h

theorem Quiet.foldl {α : Type} {g : State → α → State} {l : List α} (h : Quiet s t)
    (hg : ∀ {u x}, Quiet s u → Quiet s (g u x)) : Quiet s (l.foldl g t) := by
  induction l generalizing t with
  | nil => exact h
  | cons x l ih => exact ih (hg h)

/-- The same over the members of the list. -/
theorem Quiet.foldl_mem {α : Type} {g : State → α → State} {l : List α} (h : Quiet s t)
    (hg : ∀ {u x}, x ∈ l → Quiet s u → Quiet s (g u x)) : Quiet s (l.foldl g t) := by
  induction l generalizing t with
  | nil => exact h
  | cons x l ih => exact ih (hg List.mem_cons_self h) fun hx => hg (List.mem_cons_of_mem _ hx)

/-- A fold that carries something beside the state. -/
theorem Quiet.foldl_fst {α β : Type} {g : State × β → α → State × β} {l : List α} {x : State × β} (h : Quiet s x.1)
    (hg : ∀ {y a}, Quiet s y.1 → Quiet s (g y a).1) : Quiet s (l.foldl g x).1 := by
  induction l generalizing x with
  | nil => exact h
  | cons a l ih => exact ih (hg h)

theorem Quiet.some (h : Quiet s t) : Quiet.Opt s (some t) := fun _ e => by cases e; exact h

theorem Quiet.none : Quiet.Opt s none := fun _ e => by cases e

theorem Quiet.iteFst {β : Type} {c : Prop} {_ : Decidable c} {a b : State × β} (ha : Quiet s a.1) (hb : Quiet s b.1) :
    Quiet s (if c then a else b).1 := by
  split <;> assumption

theorem Quiet.iteOpt {c : Prop} {_ : Decidable c} {a b : Option State} (ha : Quiet.Opt s a) (hb : Quiet.Opt s b) :
    Quiet.Opt s (if c then a else b) := by
  split <;> assumption

theorem Quiet.iteOut {c : Prop} {_ : Decidable c} {a b : Res} (ha : Quiet.Out s a) (hb : Quiet.Out s b) :
    Quiet.Out s (if c then a else b) := by
  split <;> assumption

theorem Quiet.getD {o : Option State} (h : Quiet s t) (ho : Quiet.Opt s o) : Quiet s (o.getD t) := by
  cases o with
  | none => exact h
  | some u => exact ho rfl

theorem Quiet.out (h : Quiet s t) : Quiet.Out s (.next t) := fun _ e => by cases e; exact h

/-! ### Updates of the state -/

/-- An update of everything but the clock, the registers, memory, the services and the pairs. -/
theorem Quiet.update (h : Quiet s t) {pending otp flash now hwSet rdata free outbox lane spn tly hmb spi canRec pmu pwm glk fbc lpe adc
    arb sty anw ast upd coreRegs cmpStuck agr sec rdm tsk} :
    Quiet s { t with pending, otp, flash, now, hwSet, rdata, free, outbox, lane, spn, tly, hmb, spi, canRec, pmu, pwm, glk, fbc, lpe, adc,
                     arb, sty, anw, ast, upd, coreRegs, cmpStuck, agr, sec, rdm, tsk } :=
  h.trans ⟨rfl, rfl, rfl, rfl, id, fun hs => ⟨rfl, hs⟩⟩

/-- An update of the services that gives them no new write. -/
theorem Quiet.updateSvc (h : Quiet s t) {svc : SvcSt}
    (hv : t.svc.Spares → svc.Spares := by exact fun h => ⟨h.reqs, h.wind, h.circ, h.prog⟩) : Quiet s { t with svc } :=
  h.trans ⟨rfl, rfl, rfl, rfl, id, fun hs => ⟨rfl, hv hs⟩⟩

/-- The acts of the winding, or of the circuit, or those that wait for no unit, replaced. -/
theorem Quiet.setWind (h : Quiet s t) {w : SvcUnit} (hw : s.svc.Spares → ∀ op ∈ w.prog, op.Spares) : Quiet s (t.setWind w) where
  gt_eq := h.gt_eq
  frac_eq := h.frac_eq
  rate_eq := h.rate_eq
  slew_eq := h.slew_eq
  memOk := h.memOk
  svc_ok hs := (h.svc_ok hs).imp_right fun ht => { ht with wind := hw hs }

theorem Quiet.setCirc (h : Quiet s t) {w : SvcUnit} (hw : s.svc.Spares → ∀ op ∈ w.prog, op.Spares) : Quiet s (t.setCirc w) where
  gt_eq := h.gt_eq
  frac_eq := h.frac_eq
  rate_eq := h.rate_eq
  slew_eq := h.slew_eq
  memOk := h.memOk
  svc_ok hs := (h.svc_ok hs).imp_right fun ht => { ht with circ := hw hs }

theorem Quiet.setProg (h : Quiet s t) {l : List SvcOp} (hl : s.svc.Spares → ∀ op ∈ l, op.Spares) :
    Quiet s { t with svc := { t.svc with prog := l } } where
  gt_eq := h.gt_eq
  frac_eq := h.frac_eq
  rate_eq := h.rate_eq
  slew_eq := h.slew_eq
  memOk := h.memOk
  svc_ok hs := (h.svc_ok hs).imp_right fun ht => { ht with prog := hl hs }

/-- The writes that wait for an answer replaced. -/
theorem Quiet.setReqs (h : Quiet s t) {l : List SvcReq} (hl : s.svc.Spares → ∀ r ∈ l, r.addr ≠ LANE_STATE.adr) :
    Quiet s { t with svc := { t.svc with reqs := l } } where
  gt_eq := h.gt_eq
  frac_eq := h.frac_eq
  rate_eq := h.rate_eq
  slew_eq := h.slew_eq
  memOk := h.memOk
  svc_ok hs := (h.svc_ok hs).imp_right fun ht => { ht with reqs := hl hs }

/-- The writes that still wait spare LANE_STATE. -/
theorem Quiet.spares (h : Quiet s t) (hs : s.svc.Spares) : t.svc.Spares := (h.svc_ok hs).2

/-- A pair whose checkpoint copies stay, or are made of canonical images. -/
theorem Quiet.setPair (h : Quiet s t) {p : Nat} {x : SlpPair} (hx : MemOk t → (t.pair p).MemOk → x.MemOk := by exact fun _ h => h) :
    Quiet s (t.setPair p x) :=
  h.trans ⟨rfl, rfl, rfl, rfl, fun hm => by
    obtain ⟨hmem, htcm, hslp⟩ := id hm
    refine ⟨hmem, htcm, fun k y hy => ?_⟩
    rcases mem_mset hy with rfl | hy
    · exact hx hm (pair_memOk hm p)
    · exact hslp k y hy, fun hs => ⟨rfl, hs⟩⟩

/-- The same, seen from the state at the start. -/
theorem Quiet.setPair_of (h : Quiet s t) {p : Nat} {x : SlpPair} (hx : MemOk s → x.MemOk) : Quiet s (t.setPair p x) where
  gt_eq := h.gt_eq
  frac_eq := h.frac_eq
  rate_eq := h.rate_eq
  slew_eq := h.slew_eq
  memOk hs := by
    obtain ⟨hmem, htcm, hslp⟩ := h.memOk hs
    exact ⟨hmem, htcm, fun k y hy => (mem_mset hy).elim (fun e => e ▸ hx hs) (hslp k y)⟩
  svc_ok := h.svc_ok

/-- The checkpoint copies of a pair are in canonical form where memory is. -/
theorem Quiet.pairOk (h : Quiet s t) (hs : MemOk s) (p : Nat) : (t.pair p).MemOk := pair_memOk (h.memOk hs) p

theorem Quiet.memStore (h : Quiet s t) {a : Nat} {l : List Byte} : Quiet s (t.memStore a l) :=
  h.trans ⟨rfl, rfl, rfl, rfl, fun hm => by
    obtain ⟨hmem, htcm, hslp⟩ := hm
    exact ⟨wf_memStore a l hmem, htcm, hslp⟩, fun hs => ⟨rfl, hs⟩⟩

/-- The images of a map of TCMs are in canonical form. -/
def TcmOk (m : SMap (List Host.Cell)) : Prop := ∀ k x, (k, x) ∈ m → Memory.wf x = true

theorem TcmOk.mget {m : SMap (List Host.Cell)} (h : TcmOk m) (k : Nat) : Memory.wf (mget [] m k) = true :=
  mget_of_forall (p := fun x => Memory.wf x = true) rfl h k

theorem TcmOk.mset {m : SMap (List Host.Cell)} (h : TcmOk m) {k : Nat} {x : List Host.Cell} (hx : Memory.wf x = true) :
    TcmOk (mset m k x) := fun j y hy => (mem_mset hy).elim (fun e => e ▸ hx) (h j y)

theorem TcmOk.foldl {α : Type} {g : SMap (List Host.Cell) → α → SMap (List Host.Cell)} {l : List α} {m : SMap (List Host.Cell)}
    (h : TcmOk m) (hg : ∀ {m x}, TcmOk m → TcmOk (g m x)) : TcmOk (l.foldl g m) := by
  induction l generalizing m with
  | nil => exact h
  | cons x l ih => exact ih (hg h)

/-- TCMs written with images in canonical form. -/
theorem Quiet.setTcm (h : Quiet s t) {m : SMap (List Host.Cell)} (hw : TcmOk t.tcm → TcmOk m) : Quiet s { t with tcm := m } :=
  h.trans ⟨rfl, rfl, rfl, rfl, fun hm => by
    obtain ⟨hmem, htcm, hslp⟩ := hm
    exact ⟨hmem, hw htcm, hslp⟩, fun hs => ⟨rfl, hs⟩⟩

/-! ### Writes of registers -/

/-- Every register that the lane's own rules write lies above LANE_STATE. -/
theorem adr_above {b i : Nat} (h : LANE_STATE.adr < b) : LANE_STATE.adr < b + i := Nat.lt_add_right _ h

/-- The same where only the services' care keeps the write from LANE_STATE. -/
theorem Quiet.setReg_of (h : Quiet s t) {a : Nat} {v : Word} (ha : s.svc.Spares → a ≠ LANE_STATE.adr) : Quiet s (t.setReg a v) where
  gt_eq := h.gt_eq
  frac_eq := h.frac_eq
  rate_eq := h.rate_eq
  slew_eq := h.slew_eq
  memOk := h.memOk
  svc_ok hs := by
    obtain ⟨e, ht⟩ := h.svc_ok hs
    refine ⟨Eq.trans ?_ e, ht⟩
    change LANE_STATE.STATE.getN ((t.setReg a v).reg LANE_STATE.adr).toNat = _
    rw [reg_setReg_ne _ _ (Ne.symm (ha hs))]; rfl

theorem Quiet.setReg (h : Quiet s t) {a : Nat} {v : Word} (ha : a ≠ LANE_STATE.adr) : Quiet s (t.setReg a v) :=
  h.setReg_of fun _ => ha

theorem Quiet.setN (h : Quiet s t) {a n : Nat}
    (ha : LANE_STATE.adr < a := by (repeat apply adr_above); decide) :
    Quiet s (t.setN a n) := h.setReg (Nat.ne_of_gt ha)

/-- A field that shares no bit with LANE_STATE.STATE. -/
theorem Quiet.wf_apart (h : Quiet s t) {f : Fld} {v : Nat} (hf : f.apart LANE_STATE.STATE) : Quiet s (t.wf f v) :=
  h.trans ⟨rfl, rfl, rfl, rfl, id, fun hs => ⟨rf_wf_other _ _ _ _ (by decide) (by unfold Fld.apart at hf; tauto), hs⟩⟩

theorem Quiet.wf (h : Quiet s t) {f : Fld} {v : Nat}
    (ha : LANE_STATE.adr < f.adr := by (repeat apply adr_above); decide) :
    Quiet s (t.wf f v) := h.wf_apart (.inl (Nat.ne_of_gt ha))

theorem Quiet.wb (h : Quiet s t) {f : Fld} {v : Bool}
    (ha : LANE_STATE.adr < f.adr := by (repeat apply adr_above); decide) :
    Quiet s (t.wb f v) := h.wf ha

theorem Quiet.wi (h : Quiet s t) {f : Fld} {v : Int}
    (ha : LANE_STATE.adr < f.adr := by (repeat apply adr_above); decide) :
    Quiet s (t.wi f v) := h.wf ha

theorem Quiet.incSat (h : Quiet s t) {f : Fld}
    (ha : LANE_STATE.adr < f.adr := by (repeat apply adr_above); decide) :
    Quiet s (t.incSat f) := h.wf ha

theorem Quiet.incWrap (h : Quiet s t) {f : Fld}
    (ha : LANE_STATE.adr < f.adr := by (repeat apply adr_above); decide) :
    Quiet s (t.incWrap f) := h.wf ha

theorem Quiet.addSat (h : Quiet s t) {f : Fld} {v : Nat}
    (ha : LANE_STATE.adr < f.adr := by (repeat apply adr_above); decide) :
    Quiet s (t.addSat f v) := h.wf ha

theorem Quiet.wbit (h : Quiet s t) {f : Fld} {i : Nat} {v : Bool}
    (ha : LANE_STATE.adr < f.adr := by (repeat apply adr_above); decide) :
    Quiet s (t.wbit f i v) := h.wf ha

end Sys2Proof.Machine
end

section
/-! PROOF. Quiet steps: the functions of Sys2Proof/Machine/Ops.lean. -/

namespace Sys2Proof.Machine

set_option Elab.async false

variable {s t u : State}

theorem Quiet.hwBit (h : Quiet s t) {f : Fld} {i : Nat}
    (ha : LANE_STATE.adr < f.adr := by (repeat apply adr_above); decide) : Quiet s (t.hwBit f i) :=
  (h.wbit ha).update

theorem Quiet.hwWord (h : Quiet s t) {a} : Quiet s (t.hwWord a) := by
  unfold Machine.State.hwWord
  exact h.update

theorem Quiet.used (h : Quiet s t) {n} : Quiet s (t.used n) := by
  unfold Machine.State.used
  exact h.update

theorem Quiet.setPeer (h : Quiet s t) {k p} : Quiet s (t.setPeer k p) := by
  unfold Machine.State.setPeer
  exact h.update

theorem Quiet.emit (h : Quiet s t) {m} : Quiet s (t.emit m) := by
  unfold Machine.State.emit
  exact h.update

theorem Quiet.raiseEv (h : Quiet s t) {src detail} : Quiet s (t.raiseEv src detail) := by
  unfold Machine.State.raiseEv
  exact h.update

theorem Quiet.assertSrc (h : Quiet s t) {src detail} : Quiet s (t.assertSrc src detail) := by
  unfold Machine.State.assertSrc
  exact h.update

theorem Quiet.deassertSrc (h : Quiet s t) {src} : Quiet s (t.deassertSrc src) := by
  unfold Machine.State.deassertSrc
  exact Quiet.ite h.update h

theorem Quiet.portEvent (h : Quiet s t) {p o vector src} : Quiet s (t.portEvent p o vector src) := by
  unfold Machine.State.portEvent
  exact h.setPair

theorem Quiet.setTrap (h : Quiet s t) {r x} : Quiet s (t.setTrap r x) := by
  unfold Machine.State.setTrap
  exact h.update

theorem Quiet.giveTrap (h : Quiet s t) {r} : Quiet s (t.giveTrap r) := by
  unfold Machine.State.giveTrap
  exact Quiet.ite h.setTrap.emit h.setTrap

theorem Quiet.trapEnd (h : Quiet s t) {r} : Quiet s (t.trapEnd r) := by
  unfold Machine.State.trapEnd
  split
  · exact h
  · exact h.setTrap
  · exact h.setTrap.emit

theorem Quiet.irqTo (h : Quiet s t) {o vector src} : Quiet s (t.irqTo o vector src) := by
  unfold Machine.State.irqTo
  split
  · exact h
  · split
    · exact Quiet.ite h.portEvent h.emit
    · exact h.emit

theorem Quiet.capture (h : Quiet s t) {addr req kind wr} : Quiet s (t.capture addr req kind wr) := by
  unfold Machine.State.capture
  exact Quiet.ite h.update.incSat h.update.setN.setN

theorem Quiet.violate (h : Quiet s t) {addr req kind} : Quiet s (t.violate addr req kind) := by
  unfold Machine.State.violate
  exact h.capture.raiseEv

theorem Quiet.accessFault (h : Quiet s t) {addr req wr} : Quiet s (t.accessFault addr req wr) := by
  unfold Machine.State.accessFault
  exact h.capture.raiseEv

theorem Quiet.granted (h : Quiet s t) {req u' addr early k} (hk : ∀ {u}, Quiet s u → Quiet s (k u)) : Quiet s
    (t.granted req u' addr early k) := by
  unfold Machine.State.granted
  exact Quiet.ite (hk h) h.violate

theorem Quiet.headstockOnly (h : Quiet s t) {req addr k} (hk : ∀ {u}, Quiet s u → Quiet s (k u)) : Quiet s
    (t.headstockOnly req addr k) := by
  unfold Machine.State.headstockOnly
  exact Quiet.ite (hk h) h.violate

theorem Quiet.headWrite (h : Quiet s t) {u' a k} (hk : ∀ {u}, Quiet s u → Quiet s (k u)) : Quiet s (t.headWrite u' a k) := by
  unfold Machine.State.headWrite
  exact Quiet.ite (hk h) h.violate

theorem Quiet.startMove (h : Quiet s t) {u' new ch} : Quiet s (t.startMove u' new ch) := by
  unfold Machine.State.startMove
  exact h.wf.update

theorem Quiet.moveTo (h : Quiet s t) {u' new} : Quiet s (t.moveTo u' new) := by
  unfold Machine.State.moveTo
  split
  · exact h.update
  · exact Quiet.ite h h.startMove

theorem Quiet.endMove (h : Quiet s t) {u' m} : Quiet s (t.endMove u' m) := by
  unfold Machine.State.endMove
  dsimp only
  split
  · exact h.wf.update.moveTo
  · exact h.wf.update

theorem Quiet.repointMoves (h : Quiet s t) {old new} : Quiet s (t.repointMoves old new) := by
  unfold Machine.State.repointMoves
  exact h.update

theorem Quiet.repoint (h : Quiet s t) {old new} : Quiet s (t.repoint old new) := by
  unfold Machine.State.repoint
  exact h.repointMoves.foldl (fun hu => Quiet.ite hu.wf hu)

theorem Quiet.whenOn (h : Quiet s t) {k} (hk : ∀ {u}, Quiet s u → Quiet s (k u)) : Quiet.Out s (t.whenOn k) := by
  unfold Machine.State.whenOn
  exact (Quiet.ite (hk h) h).out

theorem Quiet.whenB (h : Quiet s t) {c k} (hk : ∀ {u}, Quiet s u → Quiet s (k u)) : Quiet.Out s (t.whenB c k) := by
  unfold Machine.State.whenB
  exact (Quiet.ite (hk h) h).out

theorem Quiet.setEntry (h : Quiet s t) {m e} : Quiet s (t.setEntry m e) := by
  unfold Machine.State.setEntry
  exact h.update

theorem Quiet.strikeDone (h : Quiet s t) {by_} : Quiet s (t.strikeDone by_) := by
  unfold Machine.State.strikeDone
  dsimp only
  split
  · exact h
  · split
    · exact h
    · exact Quiet.ite h.setEntry h

theorem Quiet.flowStore (h : Quiet s t) {req f ofs l} : Quiet s (t.flowStore req f ofs l) := by
  unfold Machine.State.flowStore
  exact h.granted (fun hu => hu.memStore)

end Sys2Proof.Machine
end

section
/-! PROOF. Quiet steps: the functions of Sys2Proof/Machine/Inject.lean. -/

namespace Sys2Proof.Machine

set_option Elab.async false

variable {s t u : State}

theorem Quiet.armChange (h : Quiet s t) {arm} : Quiet s (t.armChange arm) := by
  unfold Machine.State.armChange
  exact Quiet.ite h.wf.deassertSrc (Quiet.ite h.wf.assertSrc h.wf)

theorem Quiet.injLog (h : Quiet s t) {r seq gt} : Quiet s (t.injLog r seq gt) := by
  unfold Machine.State.injLog
  exact h.setN.setN.andThen fun k1 => (Quiet.ite k1.wb k1).wf

theorem Quiet.injRule (h : Quiet s t) {r seq gt a} : Quiet s (t.injRule r seq gt a).1 := by
  unfold Machine.State.injRule
  exact h.update.incSat.andThen fun k1 => Quiet.iteFst k1 (k1.wf.injLog.andThen fun k2 => (Quiet.ite k2.armChange k2))

theorem Quiet.inject (h : Quiet s t) {target port mv seq gt} : Quiet s (t.inject target port mv seq gt).1 := by
  unfold Machine.State.inject
  split
  · exact h
  · refine Quiet.foldl_fst h fun hy => ?_
    split
    · exact hy.injRule
    · exact hy

theorem Quiet.injHold (h : Quiet s t) {target port rule rx tx} : Quiet s (t.injHold target port rule rx tx) := by
  unfold Machine.State.injHold
  exact h.update

theorem Quiet.injPass (h : Quiet s t) {a target port rx tx go rel} (hgo : ∀ {u}, Quiet s u → Quiet s (go u))
    (hrel : ∀ {x0 u}, Quiet s u → Quiet s (rel x0 u)) : Quiet s (t.injPass a target port rx tx go rel) := by
  unfold Machine.State.injPass
  exact Quiet.ite h (Quiet.ite h.injHold (Quiet.ite h.injHold ((hgo h.update).foldl (fun hu => hrel hu))))

theorem Quiet.sendHeld (h : Quiet s t) {h'} : Quiet s (sendHeld h' t) := by
  unfold Machine.sendHeld
  split
  · exact h.emit
  · exact h

theorem Quiet.sendInj (h : Quiet s t) {target port mv seq m} : Quiet s (t.sendInj target port mv seq m) := by
  unfold Machine.State.sendInj
  exact h.inject.injPass (fun hu => hu.emit) (fun hu => hu.sendHeld)

theorem Quiet.bridgeTo (h : Quiet s t) {k cls m} : Quiet s (t.bridgeTo k cls m) := by
  unfold Machine.State.bridgeTo
  exact Quiet.ite h.sendInj h

theorem Quiet.bridgeAll (h : Quiet s t) {cls m} : Quiet s (t.bridgeAll cls m) := by
  unfold Machine.State.bridgeAll
  exact h.foldl (fun hu => hu.bridgeTo)

theorem Quiet.recvInj (h : Quiet s t) {target port mv seq c flip shift} {run : Instr → State → State}
    (hrun : ∀ {x u}, Quiet s u → Quiet s (run x u)) : Quiet s (t.recvInj target port mv seq c flip shift run) := by
  have hi := h.inject (target := target) (port := port) (mv := mv) (seq := seq) (gt := t.rxGt c)
  unfold Machine.State.recvInj
  generalize t.inject target port mv seq (t.rxGt c) = p at hi ⊢
  obtain ⟨u, a⟩ := p
  dsimp only
  split
  · exact hi
  · refine hi.injPass hrun fun hv => ?_
    split
    · exact hrun hv
    · exact hv

end Sys2Proof.Machine
end

section
/-! PROOF. Quiet steps: the functions of Sys2Proof/Machine/Anw.lean. -/

namespace Sys2Proof.Machine

set_option Elab.async false

variable {s t u : State}

theorem Quiet.setOff (h : Quiet s t) {o} : Quiet s (t.setOff o) := by
  unfold Machine.State.setOff
  exact h.update.setN.andThen fun k1 => Quiet.ite k1.update k1

theorem Quiet.offTrack (h : Quiet s t) {d} : Quiet s (t.offTrack d) := by
  unfold Machine.State.offTrack
  exact Quiet.ite h h.setOff

theorem Quiet.retime (h : Quiet s t) {o} : Quiet s (t.retime o) := by
  unfold Machine.State.retime
  exact h.setOff.update

theorem Quiet.setFlow (h : Quiet s t) {f x} : Quiet s (t.setFlow f x) := by
  unfold Machine.State.setFlow
  exact h.update

theorem Quiet.spanCount (h : Quiet s t) {f} : Quiet s (t.spanCount f) := by
  unfold Machine.State.spanCount
  exact h.update

/-- The name is unfolded by itself first: against the folded body the kernel would run the scrutinee of its match. -/
theorem Quiet.staleUpdate (h : Quiet s t) : Quiet s t.staleUpdate := by
  generalize e : State.staleUpdate = f
  delta Machine.State.staleUpdate at e
  subst e
  beta_reduce
  extract_lets was v
  have hv : Quiet s v := h.foldl fun hu => .ite hu hu.wb.wbit
  clear_value v
  split
  · exact hv.deassertSrc
  · exact .ite hv hv.assertSrc

theorem Quiet.enforceOff (h : Quiet s t) : Quiet s t.enforceOff := by
  unfold Machine.State.enforceOff
  exact h.wb

theorem Quiet.enterListen (h : Quiet s t) : Quiet s t.enterListen := by
  unfold Machine.State.enterListen
  exact h.enforceOff.wf.wb.update

theorem Quiet.nodeGoOff (h : Quiet s t) : Quiet s t.nodeGoOff := by
  unfold Machine.State.nodeGoOff
  exact h.enforceOff.wf.wb

theorem Quiet.nodeStart (h : Quiet s t) : Quiet s t.nodeStart := by
  unfold Machine.State.nodeStart
  exact (Quiet.ite h.wb.wb h).andThen fun k1 => Quiet.ite k1.enterListen k1

theorem Quiet.nodeFollow (h : Quiet s t) {old} : Quiet s (t.nodeFollow old) := by
  unfold Machine.State.nodeFollow
  exact Quiet.ite h (Quiet.ite h.nodeStart (Quiet.ite h h.nodeGoOff))

theorem Quiet.lossOf (h : Quiet s t) {cause} : Quiet s (t.lossOf cause) := by
  unfold Machine.State.lossOf
  exact h.raiseEv.incSat.enterListen.wb

theorem Quiet.enterBackoff (h : Quiet s t) {launch} : Quiet s (t.enterBackoff launch) := by
  unfold Machine.State.enterBackoff
  exact h.wf.update

theorem Quiet.airumSend (h : Quiet s t) {setid h' p gt} : Quiet s (t.airumSend setid h' p gt) := by
  unfold Machine.State.airumSend
  exact Quiet.ite h.emit h.sendInj

theorem Quiet.nextSeq (h : Quiet s t) {flow} : Quiet s (t.nextSeq flow).1 := by
  unfold Machine.State.nextSeq
  exact h.update

theorem Quiet.coldstart (h : Quiet s t) {at_} : Quiet s (t.coldstart at_) := by
  unfold Machine.State.coldstart
  split
  · exact h
  · exact h.nextSeq.retime.wf.wf.setN.wf.incSat.update.airumSend

theorem Quiet.execColdstartAttempt (h : Quiet s t) : Quiet.Out s (execColdstartAttempt t) := by
  unfold Machine.execColdstartAttempt
  exact h.whenB (fun hu => hu.coldstart)

theorem Quiet.execBackoffRetry (h : Quiet s t) : Quiet.Out s (execBackoffRetry t) := by
  unfold Machine.execBackoffRetry
  exact h.whenB (fun hu => hu.coldstart)

theorem Quiet.sealStart (h : Quiet s t) {f auto entry} : Quiet s (t.sealStart f auto entry) := by
  unfold Machine.State.sealStart
  exact h.setFlow

theorem Quiet.strikeSeal (h : Quiet s t) {f entry} : Quiet.Opt s (t.strikeSeal f entry) := by
  unfold Machine.State.strikeSeal
  exact Quiet.iteOpt h.sealStart.some .none

theorem Quiet.execAnwHandoff (h : Quiet s t) {req flow} : Quiet.Out s (execAnwHandoff req flow t) := by
  unfold Machine.execAnwHandoff
  exact h.whenOn (fun hu => hu.granted (fun hv => Quiet.ite hv.sealStart hv))

theorem Quiet.execSealCutoff (h : Quiet s t) {flow} : Quiet.Out s (execSealCutoff flow t) := by
  unfold Machine.execSealCutoff
  split
  · exact h.out
  · exact h.whenB (fun hu => hu.setFlow.sealStart)

theorem Quiet.execSealComplete (h : Quiet s t) {flow} : Quiet.Out s (execSealComplete flow t) := by
  unfold Machine.execSealComplete
  dsimp only
  split
  · exact h.out
  · exact h.whenOn (fun hu => hu.setFlow.wb.strikeDone)

theorem Quiet.spanDrop (h : Quiet s t) {f} : Quiet s (t.spanDrop f) := by
  unfold Machine.State.spanDrop
  exact h.incWrap.spanCount

theorem Quiet.goodCount (h : Quiet s t) {port} : Quiet s (t.goodCount port) := by
  unfold Machine.State.goodCount
  exact h.update

theorem Quiet.macSend (h : Quiet s t) {setid h' p gt} : Quiet s (t.macSend setid h' p gt) := by
  unfold Machine.State.macSend
  exact h.update.airumSend

theorem Quiet.spanSend (h : Quiet s t) {f c lk age h' p} : Quiet s (t.spanSend f c lk age h' p) := by
  unfold Machine.State.spanSend
  exact h.nextSeq.incWrap.wf.wf.wb.spanCount.goodCount.macSend

theorem Quiet.announceNow (h : Quiet s t) {c} : Quiet s (t.announceNow c) := by
  unfold Machine.State.announceNow
  split
  · exact h
  · exact h.update.setN.setN

theorem Quiet.syncSpan (h : Quiet s t) {f c lk} : Quiet s (t.syncSpan f c lk) := by
  unfold Machine.State.syncSpan
  exact Quiet.ite ((Quiet.ite h.announceNow h).update.spanSend) (Quiet.ite h.spanDrop h)

theorem Quiet.dataSpan (h : Quiet s t) {f c lk} : Quiet s (t.dataSpan f c lk) := by
  unfold Machine.State.dataSpan
  dsimp only
  split
  · exact Quiet.ite h.spanDrop h
  · exact h.used.setFlow.andThen fun k1 => Quiet.ite k1.spanSend k1.spanDrop

theorem Quiet.spanRun (h : Quiet s t) {f lk} : Quiet s (t.spanRun f lk) := by
  unfold Machine.State.spanRun
  exact Quiet.ite h.setFlow.syncSpan h.setFlow.dataSpan

theorem Quiet.flowAccept (h : Quiet s t) {f c h' p} : Quiet s (t.flowAccept f c h' p) := by
  unfold Machine.State.flowAccept
  exact h.memStore.setFlow.andThen fun k1 => (Quiet.ite k1.wf (Quiet.ite k1 k1.spanCount)).wf.wf.wb.incWrap.wf

theorem Quiet.takeAnnounce (h : Quiet s t) {p} : Quiet s (t.takeAnnounce p) := by
  unfold Machine.State.takeAnnounce
  exact Quiet.ite h.setN.setN h

theorem Quiet.syncAccept (h : Quiet s t) {c sfdGt h' p} : Quiet s (t.syncAccept c sfdGt h' p) := by
  unfold Machine.State.syncAccept
  exact Quiet.ite h.update.takeAnnounce h.update

theorem Quiet.beaconView (h : Quiet s t) {h' p} : Quiet s (t.beaconView h' p) := by
  unfold Machine.State.beaconView
  exact Quiet.ite h h.update

theorem Quiet.adopt (h : Quiet s t) {sfdGt h' p} : Quiet s (t.adopt sfdGt h' p) := by
  unfold Machine.State.adopt
  exact Quiet.ite h.update.raiseEv (Quiet.ite h.update h.retime.wf.setN.wf.wf.update)

theorem Quiet.rxFlowsIn (h : Quiet s t) {fs sfdGt h' p} : Quiet s (t.rxFlowsIn fs sfdGt h' p) := by
  unfold Machine.State.rxFlowsIn
  exact ((Quiet.ite h.update h).foldl (fun hu => hu.flowAccept)).andThen fun k2 => (Quiet.ite k2.syncAccept k2).staleUpdate

theorem Quiet.collision (h : Quiet s t) : Quiet s t.collision := by
  unfold Machine.State.collision
  split
  · exact h
  · exact h.raiseEv.incSat.enterBackoff

theorem Quiet.nodeRx (h : Quiet s t) {fr} : Quiet s (t.nodeRx fr) := by
  unfold Machine.State.nodeRx
  dsimp only
  refine Quiet.ite ?_ ?_
  · exact h
  · refine Quiet.ite ?_ ?_
    · exact h.incSat.raiseEv
    · refine Quiet.ite ?_ ?_
      · exact h
      · refine Quiet.ite ?_ ?_
        · exact Quiet.ite h.collision h
        · split
          · exact h
          · exact Quiet.ite h.incSat.raiseEv (Quiet.ite (Quiet.ite h.adopt.rxFlowsIn h.adopt) h.beaconView.rxFlowsIn)

theorem Quiet.execAirumFrameReceive (h : Quiet s t) {frame} : Quiet.Out s (execAirumFrameReceive frame t) := by
  unfold Machine.execAirumFrameReceive
  dsimp only
  refine h.whenOn (fun hu => ?_)
  refine Quiet.ite ?_ ?_
  · exact hu.nodeRx
  · refine hu.recvInj (fun hv => ?_)
    split
    · exact hv.nodeRx
    · exact hv

theorem Quiet.judgeLoss (h : Quiet s t) : Quiet s t.judgeLoss := by
  unfold Machine.State.judgeLoss
  exact Quiet.ite h.update.lossOf (Quiet.ite h.update.lossOf (Quiet.ite h.update.lossOf h.update))

theorem Quiet.judgePassive (h : Quiet s t) : Quiet s t.judgePassive := by
  unfold Machine.State.judgePassive
  exact Quiet.ite h.wf.incSat (Quiet.ite h.wf h)

theorem Quiet.judgeChain (h : Quiet s t) {newChain} : Quiet s (t.judgeChain newChain) := by
  unfold Machine.State.judgeChain
  refine Quiet.ite ?_ ?_
  · refine Quiet.ite ?_ ?_
    · exact h.wf.update
    · split
      · exact Quiet.ite h.enterBackoff h
      · exact h
  · exact Quiet.ite h.wf (Quiet.ite (h.judgeLoss.andThen fun k1 => Quiet.ite k1 k1.judgePassive) h)

theorem Quiet.ageFlows (h : Quiet s t) {ended} : Quiet s (t.ageFlows ended) := by
  unfold Machine.State.ageFlows
  exact h.foldl (fun hu => Quiet.ite hu ((Quiet.ite hu.incWrap.spanCount.setFlow hu).incSat))

theorem Quiet.applySwitch (h : Quiet s t) {c} : Quiet s (t.applySwitch c) := by
  unfold Machine.State.applySwitch
  exact Quiet.ite h.wf.wb h

theorem Quiet.preferCheck (h : Quiet s t) : Quiet s t.preferCheck := by
  unfold Machine.State.preferCheck
  refine Quiet.ite ?_ ?_
  · exact h
  · split
    · exact h.update
    · refine Quiet.ite ?_ ?_
      · exact h.update
      · refine Quiet.ite ?_ ?_
        · exact Quiet.ite h.update h.update.update
        · split
          · exact Quiet.ite h h.update
          · exact h.update

theorem Quiet.execNetworkChainBoundary (h : Quiet s t) : Quiet.Out s (execNetworkChainBoundary t) := by
  unfold Machine.execNetworkChainBoundary
  exact h.whenB (fun hu => (Quiet.ite hu.wf hu.wf.setOff).judgeChain.andThen fun k2 =>
      (Quiet.ite k2.wb (Quiet.ite k2.wb k2)).ageFlows.applySwitch.preferCheck.update.wf.setN.staleUpdate)

theorem Quiet.execSetPreferTimeout (h : Quiet s t) : Quiet.Out s (execSetPreferTimeout t) := by
  unfold Machine.execSetPreferTimeout
  split
  · exact h.out
  · exact h.whenB (fun hu => hu.update)

theorem Quiet.sendEchoes (h : Quiet s t) {port} : Quiet s (t.sendEchoes port) := by
  unfold Machine.State.sendEchoes
  exact h.foldl (fun hu => hu.nextSeq.sendInj)

theorem Quiet.setStarPort (h : Quiet s t) {n p} : Quiet s (t.setStarPort n p) := by
  unfold Machine.State.setStarPort
  exact h.update

theorem Quiet.starDly (h : Quiet s t) : Quiet s t.starDly := by
  unfold Machine.State.starDly
  exact Quiet.ite h (h.foldl (fun hu => Quiet.ite hu hu.setN))

theorem Quiet.leafUp (h : Quiet s t) {gig trips} : Quiet s (t.leafUp gig trips) := by
  unfold Machine.State.leafUp
  exact h.wb.wb.update.sendEchoes.andThen fun k2 => (Quiet.ite k2 k2.setN).andThen fun k3 => Quiet.ite k3.enterListen k3

theorem Quiet.starUp (h : Quiet s t) {n gig} : Quiet s (t.starUp n gig) := by
  unfold Machine.State.starUp
  exact h.wb.wb.wbit.update.preferCheck

theorem Quiet.execLinkUp (h : Quiet s t) {port gigabit roundTrips} : Quiet.Out s (execLinkUp port gigabit roundTrips t) := by
  unfold Machine.execLinkUp
  exact Quiet.iteOut (h.whenB (fun hu => hu.starUp)) (h.whenB (fun hu => hu.leafUp))

theorem Quiet.tryRate (h : Quiet s t) {n rate} : Quiet s (t.tryRate n rate) := by
  unfold Machine.State.tryRate
  exact h.update

theorem Quiet.execLinkDown (h : Quiet s t) {port} : Quiet.Out s (execLinkDown port t) := by
  unfold Machine.execLinkDown
  exact Quiet.iteOut (h.whenB (fun hu => hu.wb.wbit.tryRate.preferCheck)) (h.whenB (fun hu => hu.wb.tryRate.andThen fun k1 =>
      Quiet.ite k1.lossOf (Quiet.ite k1 k1.enterListen)))

theorem Quiet.execAnRateAlternate (h : Quiet s t) {port} : Quiet.Out s (execAnRateAlternate port t) := by
  unfold Machine.execAnRateAlternate
  exact h.whenB (fun hu => hu.tryRate)

end Sys2Proof.Machine
end

section
/-! PROOF. Quiet steps: the functions of Sys2Proof/Machine/PowerStage.lean. -/

namespace Sys2Proof.Machine

set_option Elab.async false

variable {s t u : State}

theorem Quiet.setLeg (h : Quiet s t) {m l} : Quiet s (t.setLeg m l) := by
  unfold Machine.State.setLeg
  exact h.update

theorem Quiet.setBank (h : Quiet s t) {b x} : Quiet s (t.setBank b x) := by
  unfold Machine.State.setBank
  exact h.update

theorem Quiet.setPort (h : Quiet s t) {n p} : Quiet s (t.setPort n p) := by
  unfold Machine.State.setPort
  exact h.update

theorem Quiet.setHold (h : Quiet s t) {n l reason v} : Quiet s (t.setHold n l reason v) := by
  unfold Machine.State.setHold
  exact h.wbit

theorem Quiet.glkSend (h : Quiet s t) {n kind payload} : Quiet s (t.glkSend n kind payload) := by
  unfold Machine.State.glkSend
  exact Quiet.ite h.setPort.emit h.setPort.sendInj

theorem Quiet.glkCut (h : Quiet s t) {n} : Quiet s (t.glkCut n) := by
  unfold Machine.State.glkCut
  exact h.setPort.wf

theorem Quiet.relFirst (h : Quiet s t) {n} : Quiet s (t.relFirst n) := by
  unfold Machine.State.relFirst
  exact Quiet.ite h h.setPort.glkSend

theorem Quiet.glkOff (h : Quiet s t) {n mask cut} : Quiet s (t.glkOff n mask cut) := by
  unfold Machine.State.glkOff
  exact Quiet.ite h ((Quiet.ite h.glkCut h).setPort.glkSend)

theorem Quiet.clearAcc (h : Quiet s t) {m} : Quiet s (t.clearAcc m) := by
  unfold Machine.State.clearAcc
  exact h.setN.setN.setN.wf

theorem Quiet.legOff (h : Quiet s t) {m cause} : Quiet s (t.legOff m cause) := by
  unfold Machine.State.legOff
  exact h.setLeg.clearAcc.wb.wf

theorem Quiet.offLabel (h : Quiet s t) {m} : Quiet s (t.offLabel m) := by
  unfold Machine.State.offLabel
  exact Quiet.ite h h.wf

theorem Quiet.offLabels (h : Quiet s t) {n} : Quiet s (t.offLabels n) := by
  unfold Machine.State.offLabels
  exact Quiet.ite (h.foldl (fun hu => hu.offLabel)) h

theorem Quiet.interlock (h : Quiet s t) {m} : Quiet s (t.interlock m) := by
  unfold Machine.State.interlock
  exact h.wb.legOff.raiseEv

theorem Quiet.legsOff (h : Quiet s t) {ms cause} : Quiet s (t.legsOff ms cause) := by
  unfold Machine.State.legsOff
  exact h.foldl (fun hu => hu.legOff)

theorem Quiet.dropPend (h : Quiet s t) {b} : Quiet s (t.dropPend b) := by
  unfold Machine.State.dropPend
  exact h.setBank.wb

theorem Quiet.blanksEnd (h : Quiet s t) {b} : Quiet s (t.blanksEnd b) := by
  unfold Machine.State.blanksEnd
  exact h.update

theorem Quiet.bankStop (h : Quiet s t) {b} : Quiet s (t.bankStop b) := by
  unfold Machine.State.bankStop
  exact h.legsOff.blanksEnd.setBank.wb.wb.wb.andThen fun k3 => Quiet.ite k3.glkOff k3

theorem Quiet.banksStop (h : Quiet s t) : Quiet s t.banksStop := by
  unfold Machine.State.banksStop
  exact h.foldl (fun hu => Quiet.ite hu.bankStop hu)

theorem Quiet.bankTrip (h : Quiet s t) {b} : Quiet s (t.bankTrip b) := by
  unfold Machine.State.bankTrip
  exact h.dropPend.wb.legsOff.andThen fun k2 => Quiet.ite k2.glkOff k2

theorem Quiet.tripInput (h : Quiet s t) {k} : Quiet s (t.tripInput k) := by
  unfold Machine.State.tripInput
  exact (h.hwBit.foldl (fun hu => hu.bankTrip)).raiseEv

theorem Quiet.tripRecalc (h : Quiet s t) : Quiet s t.tripRecalc := by
  unfold Machine.State.tripRecalc
  exact h.foldl (fun hu => Quiet.ite hu (hu.wb.foldl (fun hv => hv.offLabel)))

theorem Quiet.requestCommit (h : Quiet s t) {b entry} : Quiet.Opt s (t.requestCommit b entry) := by
  unfold Machine.State.requestCommit
  exact Quiet.iteOpt h.setBank.some .none

theorem Quiet.holdLegs (h : Quiet s t) {n mask} : Quiet s (t.holdLegs n mask) := by
  unfold Machine.State.holdLegs
  exact (Quiet.ite h.legsOff h).glkOff

theorem Quiet.holdLeg (h : Quiet s t) {n l reason} : Quiet s (t.holdLeg n l reason) := by
  unfold Machine.State.holdLeg
  exact h.setHold.holdLegs

theorem Quiet.glkAttempt (h : Quiet s t) {n} : Quiet s (t.glkAttempt n) := by
  unfold Machine.State.glkAttempt
  exact h.setPort.incSat.wf

theorem Quiet.glkLeave (h : Quiet s t) {n} : Quiet s (t.glkLeave n) := by
  unfold Machine.State.glkLeave
  exact h.holdLegs.wb.wb.setPort

theorem Quiet.glkBringup (h : Quiet s t) {n} : Quiet s (t.glkBringup n) := by
  unfold Machine.State.glkBringup
  exact h.glkLeave.wf.glkAttempt

theorem Quiet.glkFail (h : Quiet s t) {n code} : Quiet s (t.glkFail n code) := by
  unfold Machine.State.glkFail
  exact h.wf.setPort.wf.raiseEv

theorem Quiet.glkGoUp (h : Quiet s t) {n} : Quiet s (t.glkGoUp n) := by
  unfold Machine.State.glkGoUp
  exact h.wf.wb.wb.wb.wb.setPort.andThen fun k2 => Quiet.ite k2.dropPend.offLabels.setBank.wb k2

theorem Quiet.glkCond (h : Quiet s t) {src c} : Quiet s (t.glkCond src c) := by
  unfold Machine.State.glkCond
  exact Quiet.ite h h.deassertSrc

theorem Quiet.tempJudge (h : Quiet s t) {n temp} : Quiet s (t.tempJudge n temp) := by
  unfold Machine.State.tempJudge
  exact (Quiet.ite h.assertSrc h).setPort

theorem Quiet.portsJudge (h : Quiet s t) : Quiet s t.portsJudge := by
  unfold Machine.State.portsJudge
  dsimp only
  refine Quiet.foldl ?_ (fun hu => Quiet.ite (hu.foldl (fun hv => Quiet.ite hv.legOff hv.offLabel)) hu)
  refine Quiet.glkCond ?_
  refine h.foldl (fun hu => ?_)
  split
  · exact hu.tempJudge
  · exact hu

end Sys2Proof.Machine
end

section
/-! PROOF. Quiet steps: the functions of Sys2Proof/Machine/Pwm.lean. -/

namespace Sys2Proof.Machine

set_option Elab.async false

variable {s t u : State}

theorem Quiet.runWrite (h : Quiet s t) {b run} : Quiet s (t.runWrite b run) := by
  unfold Machine.State.runWrite
  exact Quiet.ite (Quiet.ite h ((h.foldl (fun hu => hu.clearAcc.wb.andThen fun k1 =>
      Quiet.ite k1.wf k1)).setBank.wb)) (Quiet.ite h.bankStop h)

theorem Quiet.commitWrite (h : Quiet s t) {b} : Quiet s (t.commitWrite b) := by
  unfold Machine.State.commitWrite
  exact h.getD h.requestCommit

theorem Quiet.execBankRunWrite (h : Quiet s t) {req bank run} : Quiet.Out s (execBankRunWrite req bank run t) := by
  unfold Machine.execBankRunWrite
  exact h.whenOn (fun hu => hu.granted (fun hv => hv.runWrite))

theorem Quiet.execBankCommit (h : Quiet s t) {req bank} : Quiet.Out s (execBankCommit req bank t) := by
  unfold Machine.execBankCommit
  exact h.whenOn (fun hu => hu.granted (fun hv => hv.commitWrite))

theorem Quiet.commitReject (h : Quiet s t) {b} : Quiet s (t.commitReject b) := by
  unfold Machine.State.commitReject
  exact h.hwBit.raiseEv

theorem Quiet.acceptSet (h : Quiet s t) {b} : Quiet s (t.acceptSet b) := by
  unfold Machine.State.acceptSet
  exact Quiet.ite (Quiet.ite h.setBank.wb h.commitReject) ((Quiet.ite h.hwBit h).setBank.wb)

theorem Quiet.execCommitAccept (h : Quiet s t) {bank} : Quiet.Out s (execCommitAccept bank t) := by
  unfold Machine.execCommitAccept
  dsimp only
  split
  · exact h.out
  · exact Quiet.iteOut h.out (h.setBank.strikeDone.wb.andThen fun k1 => (Quiet.ite k1 k1.acceptSet).out)

theorem Quiet.setOnSt (h : Quiet s t) {m x} : Quiet s (t.setOnSt m x) := by
  unfold Machine.State.setOnSt
  exact h.wi.wi.wi.wf

theorem Quiet.auditCycle (h : Quiet s t) {m k} : Quiet s (t.auditCycle m k) := by
  unfold Machine.State.auditCycle
  exact Quiet.ite h.setLeg h

theorem Quiet.cycleStart (h : Quiet s t) {m k} : Quiet s (t.cycleStart m k) := by
  unfold Machine.State.cycleStart
  exact Quiet.ite h.setLeg h

theorem Quiet.auditClose (h : Quiet s t) {m k b32} : Quiet s (t.auditClose m k b32) := by
  unfold Machine.State.auditClose
  exact Quiet.ite h.setLeg h

theorem Quiet.legOnTime (h : Quiet s t) {m p k set} : Quiet s (t.legOnTime m p k set).1 := by
  unfold Machine.State.legOnTime
  exact Quiet.iteFst h.setOnSt h.setOnSt.wi.wi

theorem Quiet.planLeg (h : Quiet s t) {m p k coming} : Quiet s (t.planLeg m p k coming).1 := by
  unfold Machine.State.planLeg
  exact Quiet.iteFst h (Quiet.iteFst h.setLeg (h.auditCycle.andThen fun k1 =>
      Quiet.iteFst k1.setLeg ((Quiet.ite k1.clearAcc.cycleStart.wf k1).andThen fun k2 =>
      (Quiet.iteFst k2.clearAcc k2.legOnTime).andThen fun k3 => (Quiet.ite k3.incWrap k3).andThen fun k4 =>
      Quiet.iteFst k4.setLeg.wb.wf.setLeg.clearAcc.wb.raiseEv k4.setLeg)))

theorem Quiet.sendCmds {n l} (h : Quiet s t) : Quiet s (t.sendCmds n l) := by
  induction l generalizing t with
  | nil => exact h.setPort
  | cons c l ih =>
    unfold Machine.State.sendCmds
    exact .ite (ih h) (.ite h.setPort (.ite (ih h.setPort.incWrap.glkSend) (.ite (ih h.holdLeg.raiseEv) (ih h))))

theorem Quiet.linkPlan (h : Quiet s t) {b p ts} : Quiet s (t.linkPlan b p ts) := by
  unfold Machine.State.linkPlan
  exact Quiet.ite h (Quiet.ite h.setPort h.setPort)

theorem Quiet.execReloadDecision (h : Quiet s t) {bank} : Quiet.Out s (execReloadDecision bank t) := by
  unfold Machine.execReloadDecision
  exact Quiet.iteOut h.out (h.setBank.wb.andThen fun k1 => (Quiet.ite k1.commitReject k1).andThen fun k2 =>
      Quiet.iteOut k2.setBank.out (k2.setBank.planLeg.planLeg.planLeg.andThen fun k4 =>
      (Quiet.ite k4.raiseEv (Quiet.ite k4.raiseEv (Quiet.ite k4.raiseEv k4))).linkPlan.out))

theorem Quiet.legBoundary (h : Quiet s t) {m set te b32} : Quiet s (t.legBoundary m set te b32) := by
  unfold Machine.State.legBoundary
  dsimp only
  refine Quiet.ite ?_ ?_
  · refine Quiet.wb ?_
    split
    · exact h.setLeg.wf
    · exact h.setLeg
  · split
    · exact h.setLeg.wf
    · exact h.setLeg

theorem Quiet.execPeriodBoundary (h : Quiet s t) {bank} : Quiet.Out s (execPeriodBoundary bank t) := by
  unfold Machine.execPeriodBoundary
  extract_lets +onlyGivenNames x
  refine .iteOut h.out ?_
  extract_lets +onlyGivenNames b32 te set s1 s2 s3
  have h1 : Quiet s s1 := h.legBoundary.legBoundary.legBoundary
  have h2 : Quiet s s2 := by
    unfold s2
    split
    · exact h1.wf.setN
    · exact h1
  have h3 : Quiet s s3 := .ite h2.incWrap h2.wb.wf
  exact (h3.foldl fun hu => hu.auditClose).setBank.andThen fun h4 => (Quiet.ite h4.setHold.setHold.setHold.offLabels h4).out

theorem Quiet.closeBlank (h : Quiet s t) {k} : Quiet s (t.closeBlank k) := by
  unfold Machine.State.closeBlank
  exact Quiet.ite h.update.tripInput h.update

theorem Quiet.openBlank (h : Quiet s t) {m t'} : Quiet s (t.openBlank m t') := by
  unfold Machine.State.openBlank
  exact h.foldl (fun hu => Quiet.ite ((Quiet.ite hu.closeBlank hu).update) hu)

theorem Quiet.execSwitchEdge (h : Quiet s t) {leg} : Quiet.Out s (execSwitchEdge leg t) := by
  unfold Machine.execSwitchEdge
  dsimp only
  split
  · exact h.out
  · exact Quiet.iteOut h.out ((Quiet.ite h.setLeg.openBlank h.setLeg).out)

theorem Quiet.execBothOnDetect (h : Quiet s t) {leg} : Quiet.Out s (execBothOnDetect leg t) := by
  unfold Machine.execBothOnDetect
  exact h.whenB (fun hu => hu.interlock)

theorem Quiet.execDelayLineCalibration (h : Quiet s t) {bank taps} : Quiet.Out s (execDelayLineCalibration bank taps t) := by
  unfold Machine.execDelayLineCalibration
  exact h.whenOn (fun hu => Quiet.ite (Quiet.ite hu.incWrap.setBank hu.incWrap.setBank.wbit) (Quiet.ite
      (hu.incWrap.setBank.wbit.andThen fun k1 => Quiet.ite k1.raiseEv k1) hu.incWrap))

theorem Quiet.execLineSwap (h : Quiet s t) {bank} : Quiet.Out s (execLineSwap bank t) := by
  unfold Machine.execLineSwap
  dsimp only
  split
  · exact h.out
  · exact Quiet.iteOut h.out h.setBank.wbit.out

theorem Quiet.tripOn (h : Quiet s t) {input} : Quiet s (t.tripOn input) := by
  unfold Machine.State.tripOn
  exact Quiet.ite h.wbit.update.hwBit.raiseEv h.wbit.tripInput

theorem Quiet.tripOff (h : Quiet s t) {input} : Quiet s (t.tripOff input) := by
  unfold Machine.State.tripOff
  exact h.wbit.update

theorem Quiet.tripSee (h : Quiet s t) {input} : Quiet s (t.tripSee input) := by
  unfold Machine.State.tripSee
  exact Quiet.ite h.tripOff (Quiet.ite h.tripOn h)

theorem Quiet.execTripAssert (h : Quiet s t) {input} : Quiet.Out s (execTripAssert input t) := by
  unfold Machine.execTripAssert
  exact h.whenB (fun hu => hu.update.tripSee)

theorem Quiet.execBlankingClose (h : Quiet s t) {input} : Quiet.Out s (execBlankingClose input t) := by
  unfold Machine.execBlankingClose
  exact h.whenB (fun hu => hu.closeBlank)

theorem Quiet.execTripInputRelease (h : Quiet s t) {input} : Quiet.Out s (execTripInputRelease input t) := by
  unfold Machine.execTripInputRelease
  exact h.whenOn (fun hu => hu.update.tripSee)

end Sys2Proof.Machine
end

section
/-! PROOF. Quiet steps: the functions of Sys2Proof/Machine/GateLink.lean. -/

namespace Sys2Proof.Machine

set_option Elab.async false

variable {s t u : State}

theorem Quiet.capIn (h : Quiet s t) {port r} : Quiet s (t.capIn port r) := by
  unfold Machine.State.capIn
  exact Quiet.ite h (h.setN.setN.setN.setN.setN.wf.andThen fun k3 => Quiet.ite k3.glkFail k3.setPort.setPort.glkSend.wf)

theorem Quiet.cfgackIn (h : Quiet s t) {port payload} : Quiet s (t.cfgackIn port payload) := by
  unfold Machine.State.cfgackIn
  exact Quiet.ite h (Quiet.ite h.setPort h.glkFail)

theorem Quiet.execRateChange (h : Quiet s t) {port} : Quiet.Out s (execRateChange port t) := by
  unfold Machine.execRateChange
  exact h.whenB (fun hu => hu.setPort.wf.wb.wf.wf.wf)

theorem Quiet.sendEcho (h : Quiet s t) {n} : Quiet s (t.sendEcho n) := by
  unfold Machine.State.sendEcho
  exact h.setPort.relFirst.glkSend

theorem Quiet.sendSync (h : Quiet s t) {n} : Quiet s (t.sendSync n) := by
  unfold Machine.State.sendSync
  exact h.setPort.glkSend

theorem Quiet.glkNext (h : Quiet s t) {n} : Quiet s (t.glkNext n) := by
  unfold Machine.State.glkNext
  exact Quiet.ite h (Quiet.ite (Quiet.ite h.relFirst h) (Quiet.ite h.sendEcho (Quiet.ite h.sendSync h)))

theorem Quiet.glkFlow (h : Quiet s t) {n} : Quiet s (t.glkFlow n) := by
  unfold Machine.State.glkFlow
  exact h.sendCmds.glkNext

theorem Quiet.glkFlows (h : Quiet s t) : Quiet s t.glkFlows := by
  unfold Machine.State.glkFlows
  exact h.foldl (fun hu => hu.glkFlow)

theorem Quiet.execCharacterLock (h : Quiet s t) {port gained} : Quiet.Out s (execCharacterLock port gained t) := by
  unfold Machine.execCharacterLock
  exact Quiet.iteOut (h.whenB (fun hu => Quiet.ite hu.setPort.sendEcho hu.setPort.glkGoUp)) (h.whenB (fun hu => hu.glkFail))

theorem Quiet.glkRestartFor (h : Quiet s t) {n src} {f : Fld}
    (ha : LANE_STATE.adr < f.adr := by (repeat apply adr_above); decide) : Quiet s (t.glkRestartFor n src f) := by
  unfold Machine.State.glkRestartFor
  exact (h.wb ha).raiseEv.glkBringup

theorem Quiet.echoIn (h : Quiet s t) {port sequence roundTrip} : Quiet s (t.echoIn port sequence roundTrip) := by
  unfold Machine.State.echoIn
  exact Quiet.ite h (Quiet.ite (h.setPort.setPort.andThen fun k1 =>
      Quiet.ite k1.sendEcho k1.setN.setPort.glkNext) (Quiet.ite h.setPort.glkRestartFor h.setPort))

theorem Quiet.execEchoRecheck (h : Quiet s t) {port} : Quiet.Out s (execEchoRecheck port t) := by
  unfold Machine.execEchoRecheck
  exact h.whenB (fun hu => hu.setPort.glkNext)

theorem Quiet.execSyncSend (h : Quiet s t) {port} : Quiet.Out s (execSyncSend port t) := by
  unfold Machine.execSyncSend
  exact h.whenB (fun hu => hu.setPort.glkNext)

theorem Quiet.execNegotiateTimeout (h : Quiet s t) {port} : Quiet.Out s (execNegotiateTimeout port t) := by
  unfold Machine.execNegotiateTimeout
  dsimp only
  refine Quiet.iteOut ?_ ?_
  · exact h.whenB (fun hu => hu.glkFail)
  · refine Quiet.iteOut ?_ ?_
    · exact h.whenB (fun hu => hu.glkFail)
    · refine Quiet.iteOut ?_ ?_
      · refine Quiet.iteOut ?_ ?_
        · exact h.whenB (fun hu => hu.glkFail)
        · split
          · exact h.whenB (fun hu => hu.glkFail)
          · exact h.out
      · exact h.out

theorem Quiet.execBringupRetry (h : Quiet s t) {port} : Quiet.Out s (execBringupRetry port t) := by
  unfold Machine.execBringupRetry
  split
  · exact h.whenB (fun hu => hu.glkAttempt)
  · exact h.out

theorem Quiet.execLinkKeepalive (h : Quiet s t) {port} : Quiet.Out s (execLinkKeepalive port t) := by
  unfold Machine.execLinkKeepalive
  exact h.whenB (fun hu => Quiet.ite hu.glkNext hu.glkSend)

theorem Quiet.staleSets (h : Quiet s t) {n start} : Quiet s (t.staleSets n start) := by
  unfold Machine.State.staleSets
  exact Quiet.ite h.setPort.wb.incSat h

theorem Quiet.statusSamples (h : Quiet s t) {n start b} : Quiet s (t.statusSamples n start b) := by
  unfold Machine.State.statusSamples
  exact Quiet.ite h.setPort.setN.setN.setN.setN h.staleSets

theorem Quiet.statusDesat (h : Quiet s t) {n mask} : Quiet s (t.statusDesat n mask) := by
  unfold Machine.State.statusDesat
  exact Quiet.ite h (Quiet.ite (Quiet.ite h.setPort h.setPort.setHold.setHold.setHold.raiseEv.holdLegs) (h.setPort.foldl
      (fun hu => hu.raiseEv.holdLeg)))

theorem Quiet.statusUvlo (h : Quiet s t) {n bitsN lo} : Quiet s (t.statusUvlo n bitsN lo) := by
  unfold Machine.State.statusUvlo
  exact (h.foldl (fun hu => hu.holdLeg)).andThen fun k1 =>
      ((Quiet.ite k1 k1.assertSrc).foldl (fun hu => Quiet.ite hu.setPort (Quiet.ite
      (Quiet.ite hu.setPort.setHold hu.setPort) hu))).glkCond

theorem Quiet.statusIntlk (h : Quiet s t) {n mask} : Quiet s (t.statusIntlk n mask) := by
  unfold Machine.State.statusIntlk
  exact h.foldl (fun hu => Quiet.ite ((Quiet.ite hu.wb hu).raiseEv.holdLeg) hu)

theorem Quiet.statusLate (h : Quiet s t) {n mask} : Quiet s (t.statusLate n mask) := by
  unfold Machine.State.statusLate
  exact h.foldl (fun hu => Quiet.ite hu.raiseEv.holdLeg hu)

theorem Quiet.statusHeat (h : Quiet s t) {n otsd temp} : Quiet s (t.statusHeat n otsd temp) := by
  unfold Machine.State.statusHeat
  exact (Quiet.ite (Quiet.ite h.setPort h.setPort.wb.holdLegs.assertSrc) (Quiet.ite
      (Quiet.ite h.setPort.wb h.setPort) h)).tempJudge.offLabels.glkCond

theorem Quiet.statusRecord (h : Quiet s t) {n b} : Quiet s (t.statusRecord n b) := by
  unfold Machine.State.statusRecord
  exact h.setN

theorem Quiet.countPassed (h : Quiet s t) {n start intlk exec} : Quiet s (t.countPassed n start intlk exec) := by
  unfold Machine.State.countPassed
  exact h.setPort.wf.andThen fun k1 => Quiet.ite k1 (k1.foldl (fun hu => Quiet.ite hu.setLeg hu))

theorem Quiet.statusReports (h : Quiet s t) {n b} : Quiet s (t.statusReports n b) := by
  unfold Machine.State.statusReports
  exact h.setPort.statusDesat.statusUvlo.statusUvlo.statusIntlk.statusLate.statusHeat

theorem Quiet.statusApply (h : Quiet s t) {n start b} : Quiet s (t.statusApply n start b) := by
  unfold Machine.State.statusApply
  exact h.countPassed.wf.setPort.statusReports.statusSamples.andThen fun k3 => (Quiet.ite k3.wb.raiseEv k3).andThen fun k4 =>
      (Quiet.ite k4.wb.raiseEv k4).andThen fun k5 => Quiet.ite k5.glkBringup k5

theorem Quiet.statusIn (h : Quiet s t) {port payload startGt} : Quiet s (t.statusIn port payload startGt) := by
  unfold Machine.State.statusIn
  exact Quiet.ite (h.statusRecord.statusReports.andThen fun k1 => Quiet.ite k1.glkGoUp k1) (Quiet.ite h.statusRecord.statusApply h)

theorem Quiet.linkLoss (h : Quiet s t) {n} : Quiet s (t.linkLoss n) := by
  unfold Machine.State.linkLoss
  exact h.wb.raiseEv.andThen fun k1 => (Quiet.ite k1.dropPend k1).glkLeave.wf.glkBringup

theorem Quiet.statusLost (h : Quiet s t) {n start} : Quiet s (t.statusLost n start) := by
  unfold Machine.State.statusLost
  exact h.staleSets.setPort.andThen fun k2 => Quiet.ite k2.linkLoss k2

theorem Quiet.discardIn (h : Quiet s t) {port} : Quiet s (t.discardIn port) := by
  unfold Machine.State.discardIn
  exact Quiet.ite h.incSat.statusLost h.incSat

theorem Quiet.glkRun (h : Quiet s t) {c} : Quiet s (glkRun c t) := by
  unfold Machine.glkRun
  split
  · exact h.capIn
  · exact h.cfgackIn
  · exact h.echoIn
  · exact h.statusIn
  · exact h.discardIn
  · exact h

theorem Quiet.glkUpIn (h : Quiet s t) {port type c} : Quiet s (t.glkUpIn port type c) := by
  unfold Machine.State.glkUpIn
  exact h.recvInj (fun hu => hu.glkRun)

theorem Quiet.execCapReceive (h : Quiet s t) {port record} : Quiet.Out s (execCapReceive port record t) := by
  unfold Machine.execCapReceive
  exact h.whenOn (fun hu => hu.glkUpIn)

theorem Quiet.execCfgackReceive (h : Quiet s t) {port payload} : Quiet.Out s (execCfgackReceive port payload t) := by
  unfold Machine.execCfgackReceive
  exact h.whenOn (fun hu => hu.glkUpIn)

theorem Quiet.execEchoreplyReceive (h : Quiet s t) {port sequence roundTrip} : Quiet.Out s
    (execEchoreplyReceive port sequence roundTrip t) := by
  unfold Machine.execEchoreplyReceive
  exact h.whenOn (fun hu => hu.glkUpIn)

theorem Quiet.execStatusReceive (h : Quiet s t) {port payload startGt} : Quiet.Out s
    (execStatusReceive port payload startGt t) := by
  unfold Machine.execStatusReceive
  exact h.whenOn (fun hu => hu.glkUpIn)

theorem Quiet.execUpstreamFrameDiscard (h : Quiet s t) {port} : Quiet.Out s (execUpstreamFrameDiscard port t) := by
  unfold Machine.execUpstreamFrameDiscard
  exact h.whenOn (fun hu => hu.used.glkUpIn)

theorem Quiet.execStatusMissing (h : Quiet s t) {port} : Quiet.Out s (execStatusMissing port t) := by
  unfold Machine.execStatusMissing
  exact h.whenB (fun hu => hu.incSat.statusLost)

theorem Quiet.levelLeg (h : Quiet s t) {t' m} : Quiet s (t.levelLeg t' m) := by
  unfold Machine.State.levelLeg
  exact h.setLeg

theorem Quiet.levelAt (h : Quiet s t) {b t'} : Quiet s (t.levelAt b t') := by
  unfold Machine.State.levelAt
  exact (h.foldl (fun hu => hu.levelLeg)).andThen fun k1 => Quiet.ite k1 k1.setPort.relFirst.glkSend

theorem Quiet.levelSample (h : Quiet s t) {b} : Quiet s (t.levelSample b) := by
  unfold Machine.State.levelSample
  exact h.setPort.relFirst.glkSend

theorem Quiet.execLevelSend (h : Quiet s t) {port} : Quiet.Out s (execLevelSend port t) := by
  unfold Machine.execLevelSend
  refine h.whenB (fun hu => ?_)
  split
  · exact hu.levelAt
  · exact Quiet.ite hu.levelSample hu

theorem Quiet.sampaRead (h : Quiet s t) {req port} : Quiet s (t.sampaRead req port) := by
  unfold Machine.State.sampaRead
  exact h.update

theorem Quiet.execGlkSampaRead (h : Quiet s t) {req port} : Quiet.Out s (execGlkSampaRead req port t) := by
  unfold Machine.execGlkSampaRead
  exact h.whenOn (fun hu => hu.sampaRead)

end Sys2Proof.Machine
end

section
/-! PROOF. Quiet steps: the functions of Sys2Proof/Machine/Entries.lean. -/

namespace Sys2Proof.Machine

set_option Elab.async false

variable {s t u : State}

theorem Quiet.entryTake (h : Quiet s t) {x} : Quiet s (t.entryTake x) := by
  unfold Machine.State.entryTake
  exact Quiet.ite h h.setN.setN.setN.setEntry.update

theorem Quiet.entriesTake (h : Quiet s t) : Quiet s t.entriesTake := by
  unfold Machine.State.entriesTake
  exact h.foldl (fun hu => hu.entryTake)

end Sys2Proof.Machine
end

section
/-! PROOF. Quiet steps: the functions of Sys2Proof/Machine/Feedback.lean. -/

namespace Sys2Proof.Machine

set_option Elab.async false

variable {s t u : State}

theorem Quiet.setFb (h : Quiet s t) {n c} : Quiet s (t.setFb n c) := by
  unfold Machine.State.setFb
  exact h.update

theorem Quiet.unprimeSpeed (h : Quiet s t) {n} : Quiet s (t.unprimeSpeed n) := by
  unfold Machine.State.unprimeSpeed
  exact h.setFb.wb.setN

theorem Quiet.fbLoss (h : Quiet s t) {n} : Quiet s (t.fbLoss n) := by
  unfold Machine.State.fbLoss
  exact h.setFb.wb.wb.raiseEv.unprimeSpeed

theorem Quiet.fbStart (h : Quiet s t) {n} : Quiet s (t.fbStart n) := by
  unfold Machine.State.fbStart
  exact h.setFb.setN.setN.setN.wf.setN.wf

theorem Quiet.movePos (h : Quiet s t) {n d} : Quiet s (t.movePos n d) := by
  unfold Machine.State.movePos
  exact Quiet.ite h.setN.setN.hwBit (Quiet.ite h.setN.setN.hwBit h.setN)

theorem Quiet.posToRaw (h : Quiet s t) {n} : Quiet s (t.posToRaw n) := by
  unfold Machine.State.posToRaw
  exact h.movePos

theorem Quiet.speedEdge (h : Quiet s t) {n stamp up} : Quiet s (t.speedEdge n stamp up) := by
  unfold Machine.State.speedEdge
  exact Quiet.ite h.wb.setFb h.wb.setFb.setN.wb.used

theorem Quiet.speedStep (h : Quiet s t) {n age up riseA} : Quiet s (t.speedStep n age up riseA) := by
  unfold Machine.State.speedStep
  exact Quiet.ite h (Quiet.ite h.setFb.setN.wb (Quiet.ite h h.speedEdge))

theorem Quiet.legalStep (h : Quiet s t) {n age d0 riseA} : Quiet s (t.legalStep n age d0 riseA) := by
  unfold Machine.State.legalStep
  exact h.setFb.wb.wb.andThen fun k1 => (Quiet.ite (k1.posToRaw.andThen fun k2 =>
      Quiet.ite k2 (Quiet.ite k2.hwBit.raiseEv k2.hwBit)) (Quiet.ite k1.posToRaw k1)).speedStep

theorem Quiet.illegalStep (h : Quiet s t) {n} : Quiet s (t.illegalStep n) := by
  unfold Machine.State.illegalStep
  exact h.setFb.incSat.wb.raiseEv.unprimeSpeed

theorem Quiet.startWatch (h : Quiet s t) {n} : Quiet s (t.startWatch n) := by
  unfold Machine.State.startWatch
  exact h.setFb

theorem Quiet.indexMissed (h : Quiet s t) {n} : Quiet s (t.indexMissed n) := by
  unfold Machine.State.indexMissed
  exact Quiet.ite h.fbLoss h

theorem Quiet.loadPos (h : Quiet s t) {n v} : Quiet s (t.loadPos n v) := by
  unfold Machine.State.loadPos
  exact h.setFb.setN.setN.wb.wb

theorem Quiet.correctPos (h : Quiet s t) {n e} : Quiet s (t.correctPos n e) := by
  unfold Machine.State.correctPos
  exact h.setFb.movePos

theorem Quiet.indexCheck (h : Quiet s t) {n} : Quiet s (t.indexCheck n) := by
  unfold Machine.State.indexCheck
  exact Quiet.ite h ((Quiet.ite h.setN.incSat.raiseEv h.setN).andThen fun k1 => Quiet.ite ((Quiet.ite k1 k1.correctPos).wb) k1)

theorem Quiet.indexEvent (h : Quiet s t) {n illegal} : Quiet s (t.indexEvent n illegal) := by
  unfold Machine.State.indexEvent
  exact h.setN.hwBit.andThen fun k1 => Quiet.ite k1.wb.hwBit.startWatch (Quiet.ite k1.wb.loadPos k1.wb.indexCheck.startWatch)

theorem Quiet.indexSample (h : Quiet s t) {n new illegal} : Quiet s (t.indexSample n new illegal) := by
  unfold Machine.State.indexSample
  exact Quiet.ite h.setFb (Quiet.ite h h.setFb.indexEvent)

theorem Quiet.presetApply (h : Quiet s t) {n d} : Quiet s (t.presetApply n d) := by
  unfold Machine.State.presetApply
  exact Quiet.ite h.setFb.loadPos.setFb.movePos h

theorem Quiet.stepPart (h : Quiet s t) {n age old new first wasBad} : Quiet s (t.stepPart n age old new first wasBad).1 := by
  unfold Machine.State.stepPart
  dsimp only
  refine Quiet.iteFst ?_ ?_
  · exact h
  · refine Quiet.iteFst ?_ ?_
    · exact Quiet.ite h.fbLoss h
    · refine Quiet.iteFst ?_ ?_
      · exact h.wb
      · refine Quiet.iteFst ?_ ?_
        · exact h
        · split
          · exact h.illegalStep
          · exact Quiet.ite h h.legalStep

theorem Quiet.fbSample (h : Quiet s t) {n age new} : Quiet s (t.fbSample n age new) := by
  unfold Machine.State.fbSample
  exact Quiet.ite h.wf.presetApply (h.wf.wf.setFb.stepPart.presetApply.andThen fun k2 =>
      Quiet.ite k2.setFb (Quiet.ite (k2.indexSample.andThen fun k3 => Quiet.ite k3 k3.indexMissed) k2))

theorem Quiet.fbSamples (h : Quiet s t) {n m} : Quiet s (t.fbSamples n m) := by
  unfold Machine.State.fbSamples
  exact Quiet.ite h.setFb.fbSample h.setFb

theorem Quiet.fbRun {n upTo fuel} (h : Quiet s t) : Quiet s (State.fbRun n upTo fuel t) := by
  induction fuel generalizing t with
  | zero => exact h
  | succ k ih =>
    unfold Machine.State.fbRun
    exact .ite h (ih h.fbSamples)

theorem Quiet.fbCatch (h : Quiet s t) {n} : Quiet s (t.fbCatch n) := by
  unfold Machine.State.fbCatch
  exact h.fbRun

theorem Quiet.fbTick (h : Quiet s t) : Quiet s t.fbTick := by
  unfold Machine.State.fbTick
  exact h.foldl (fun hu => Quiet.ite hu.fbCatch hu)

theorem Quiet.execFbcLevelChange (h : Quiet s t) {n a b z} : Quiet.Out s (execFbcLevelChange n a b z t) := by
  unfold Machine.execFbcLevelChange
  exact h.whenB (fun hu => (Quiet.ite hu.fbCatch hu).andThen fun k1 => Quiet.ite k1.setFb.fbRun k1.setFb)

theorem Quiet.execSpeedBoundUpdate (h : Quiet s t) {n} : Quiet.Out s (execSpeedBoundUpdate n t) := by
  unfold Machine.execSpeedBoundUpdate
  dsimp only
  split
  · exact h.out
  · exact h.whenB (fun hu => hu.setFb.setN)

theorem Quiet.execSpeedStopTimeout (h : Quiet s t) {n} : Quiet.Out s (execSpeedStopTimeout n t) := by
  unfold Machine.execSpeedStopTimeout
  exact h.whenB (fun hu => hu.setN.wb)

theorem Quiet.countLatch (h : Quiet s t) {n t'} : Quiet s (t.countLatch n t') := by
  unfold Machine.State.countLatch
  exact Quiet.ite h.setFb h.setFb.setN.wb.used

theorem Quiet.countLatches (h : Quiet s t) {entry t'} : Quiet s (t.countLatches entry t') := by
  unfold Machine.State.countLatches
  exact h.foldl (fun hu => Quiet.ite hu.fbRun.countLatch hu)

theorem Quiet.presetWrite (h : Quiet s t) {n} : Quiet s (t.presetWrite n) := by
  unfold Machine.State.presetWrite
  exact h.fbCatch.setFb

theorem Quiet.execFbcPreset (h : Quiet s t) {req n} : Quiet.Out s (execFbcPreset req n t) := by
  unfold Machine.execFbcPreset
  exact h.whenOn (fun hu => hu.granted (fun hv => hv.presetWrite))

theorem Quiet.execFbcClrsusp (h : Quiet s t) {req n} : Quiet.Out s (execFbcClrsusp req n t) := by
  unfold Machine.execFbcClrsusp
  exact h.whenOn (fun hu => hu.granted (fun hv => hv.wb))

theorem Quiet.posRead (h : Quiet s t) {req n} : Quiet s (t.posRead req n) := by
  unfold Machine.State.posRead
  exact h.update

theorem Quiet.execFbcPosRead (h : Quiet s t) {req n} : Quiet.Out s (execFbcPosRead req n t) := by
  unfold Machine.execFbcPosRead
  exact h.whenOn (fun hu => hu.posRead)

theorem Quiet.slowStep (h : Quiet s t) {n scn} : Quiet s (t.slowStep n scn) := by
  unfold Machine.State.slowStep
  dsimp only
  refine Quiet.ite ?_ ?_
  · exact h
  · split
    · exact h.setFb
    · exact Quiet.ite h.setFb.setN h.setFb.incSat.raiseEv

theorem Quiet.execSentFrame (h : Quiet s t) {n pulses} : Quiet.Out s (execSentFrame n pulses t) := by
  unfold Machine.execSentFrame
  exact h.whenB (fun hu => Quiet.ite hu.setFb (Quiet.ite hu.setN.wb.wf.wb.setFb.slowStep.setFb
      ((Quiet.ite hu.incSat.raiseEv hu.incSat.raiseEv).incSat.setFb.setFb)))

theorem Quiet.execSentTimeout (h : Quiet s t) {n} : Quiet.Out s (execSentTimeout n t) := by
  unfold Machine.execSentTimeout
  exact h.whenB (fun hu => hu.setFb.wb.wb.raiseEv.unprimeSpeed)

end Sys2Proof.Machine
end

section
/-! PROOF. Quiet steps: the functions of Sys2Proof/Machine/Loops.lean. -/

namespace Sys2Proof.Machine

set_option Elab.async false

variable {s t u : State}

theorem Quiet.setCtx (h : Quiet s t) {c x} : Quiet s (t.setCtx c x) := by
  unfold Machine.State.setCtx
  exact h.update

theorem Quiet.setCtxState (h : Quiet s t) {c st} : Quiet s (t.setCtxState c st) := by
  unfold Machine.State.setCtxState
  exact h.wf.wbit (by split <;> exact adr_above (by decide))

theorem Quiet.rampFlag (h : Quiet s t) {c} : Quiet s (t.rampFlag c) := by
  unfold Machine.State.rampFlag
  exact h.wb

theorem Quiet.ctxStart (h : Quiet s t) {c} : Quiet s (t.ctxStart c) := by
  unfold Machine.State.ctxStart
  exact h.setCtx.setCtxState.wf.wf.wf.setN.setN.setN.setN.setN.setN.rampFlag

theorem Quiet.writeSlot (h : Quiet s t) {c i v} : Quiet s (t.writeSlot c i v) := by
  unfold Machine.State.writeSlot
  exact h.setN.setCtx

theorem Quiet.outWrite (h : Quiet s t) {c u' leg duties} : Quiet s (t.outWrite c u' leg duties) := by
  unfold Machine.State.outWrite
  exact (h.foldl (fun hu => hu.granted (fun hv => hv.setN))).andThen fun k1 =>
      Quiet.ite k1.setN (Quiet.ite k1.writeSlot (Quiet.ite k1.flowStore k1))

theorem Quiet.ctxFail (h : Quiet s t) {c} : Quiet s (t.ctxFail c) := by
  unfold Machine.State.ctxFail
  exact h.setCtxState.foldl (fun hu => hu.granted (fun hv => hv.wf))

theorem Quiet.bandStep (h : Quiet s t) {c b} : Quiet s (t.bandStep c b) := by
  unfold Machine.State.bandStep
  exact Quiet.ite h (Quiet.ite (Quiet.ite h h.setCtx.wb.raiseEv) (Quiet.ite h.setCtx (Quiet.ite h.setCtx.wb h.setCtx)))

theorem Quiet.sampleRegs (h : Quiet s t) {x o hasM resid satcnt svcnt resprim} : Quiet s
    (t.sampleRegs x o hasM resid satcnt svcnt resprim) := by
  unfold Machine.State.sampleRegs
  exact h.setN.setN.setN.setN.andThen fun k2 => (Quiet.ite k2.setN k2).setN.setN.wb.wb.wb.wb.wb.setCtx.andThen fun k6 =>
      Quiet.ite (k6.foldl (fun hu => hu.setN)) (Quiet.ite k6.setN k6)

theorem Quiet.sampleOut (h : Quiet s t) {x o leg track} : Quiet s (t.sampleOut x o leg track) := by
  unfold Machine.State.sampleOut
  exact h.setCtx.setN.wb.andThen fun k1 => (Quiet.ite k1.setN.hwWord k1).outWrite

theorem Quiet.raiseAll {c l} (h : Quiet s t) : Quiet s (t.raiseAll c l) := by
  induction l generalizing t with
  | nil => exact h
  | cons x l ih =>
    unfold Machine.State.raiseAll
    exact ih (.ite h.raiseEv h)

theorem Quiet.activeSample (h : Quiet s t) {c p sels} : Quiet s (t.activeSample c p sels) := by
  unfold Machine.State.activeSample
  exact h.used.wb.bandStep.raiseAll.andThen fun k2 => (Quiet.ite k2 k2.wf).andThen fun k3 =>
      Quiet.ite k3.ctxFail (k3.setCtxState.sampleRegs.andThen fun k4 => Quiet.ite k4.ctxFail k4.sampleOut)

theorem Quiet.sample (h : Quiet s t) {l} : Quiet s (t.sample l) := by
  unfold Machine.State.sample
  exact h.setN.rampFlag.setCtx.wb.andThen fun k2 => Quiet.ite k2.activeSample (Quiet.ite (Quiet.ite k2.activeSample k2.wb) k2)

theorem Quiet.setLpeQueue (h : Quiet s t) {e q} : Quiet s (t.setLpeQueue e q) := by
  unfold Machine.State.setLpeQueue
  exact h.update.wf

theorem Quiet.launchesWait (h : Quiet s t) {c} : Quiet s (t.launchesWait c) := by
  unfold Machine.State.launchesWait
  exact h.setLpeQueue

theorem Quiet.ctxRestart (h : Quiet s t) {c} : Quiet s (t.ctxRestart c) := by
  unfold Machine.State.ctxRestart
  exact h.ctxStart.launchesWait

theorem Quiet.lpeLaunch (h : Quiet s t) {l} : Quiet.Opt s (t.lpeLaunch l) := by
  unfold Machine.State.lpeLaunch
  exact Quiet.iteOpt (h.setLpeQueue.andThen fun k1 => (Quiet.ite k1.wf k1).some) .none

theorem Quiet.execLoopSampleRun (h : Quiet s t) {engine} : Quiet.Out s (execLoopSampleRun engine t) := by
  unfold Machine.execLoopSampleRun
  split
  · exact h.out
  · exact h.whenOn (fun hu => hu.setLpeQueue.sample.incWrap.strikeDone)

theorem Quiet.adcNext (h : Quiet s t) : Quiet s t.adcNext := by
  unfold Machine.State.adcNext
  split
  · exact h.update.wb.wf
  · exact h.update.wb.wf.wf

theorem Quiet.adcLaunch (h : Quiet s t) {n entry} : Quiet.Opt s (t.adcLaunch n entry) := by
  unfold Machine.State.adcLaunch
  exact Quiet.iteOpt (Quiet.iteOpt h.update.adcNext.some (Quiet.iteOpt h.update.wf.some .none)) .none

theorem Quiet.adcStart (h : Quiet s t) {v} : Quiet s (t.adcStart v) := by
  unfold Machine.State.adcStart
  exact h.foldl (fun hu => hu.incSat.getD hu.adcLaunch)

theorem Quiet.execAdcStart (h : Quiet s t) {req value} : Quiet.Out s (execAdcStart req value t) := by
  unfold Machine.execAdcStart
  exact h.whenOn (fun hu => hu.granted (fun hv => hv.adcStart))

theorem Quiet.execAdcConversionDone (h : Quiet s t) {input} : Quiet.Out s (execAdcConversionDone input t) := by
  unfold Machine.execAdcConversionDone
  split
  · exact h.whenOn (fun hu => Quiet.ite hu.setN.strikeDone.adcNext hu.setN.update)
  · exact h.out

end Sys2Proof.Machine
end

section
/-! PROOF. Quiet steps: the functions of Sys2Proof/Machine/Queues.lean. -/

namespace Sys2Proof.Machine

set_option Elab.async false

variable {s t u : State}

theorem Quiet.setArbiter (h : Quiet s t) {a x} : Quiet s (t.setArbiter a x) := by
  unfold Machine.State.setArbiter
  exact h.update

theorem Quiet.setArbWait (h : Quiet s t) {a p v} : Quiet s (t.setArbWait a p v) := by
  unfold Machine.State.setArbWait
  exact h.setN

theorem Quiet.readmit (h : Quiet s t) {q} : Quiet s (t.readmit q) := by
  unfold Machine.State.readmit
  exact h.wb.wf

theorem Quiet.readmitAll (h : Quiet s t) : Quiet s t.readmitAll := by
  unfold Machine.State.readmitAll
  exact h.foldl (fun hu => Quiet.ite hu.readmit hu)

theorem Quiet.slotStep (h : Quiet s t) {a} : Quiet s (t.slotStep a) := by
  unfold Machine.State.slotStep
  exact Quiet.ite h.wf (Quiet.ite h.wf.used.wb h.wf.used.wf.wb.readmitAll)

theorem Quiet.starve (h : Quiet s t) {a p} : Quiet s (t.starve a p) := by
  unfold Machine.State.starve
  exact Quiet.ite h h.setArbiter.hwBit.incSat.incSat.raiseEv

theorem Quiet.arbLose (h : Quiet s t) {a p} : Quiet s (t.arbLose a p) := by
  unfold Machine.State.arbLose
  exact h.setArbWait.andThen fun k1 => (Quiet.ite k1.setArbiter k1).starve

theorem Quiet.limitSet (h : Quiet s t) {a v} : Quiet s (t.limitSet a v) := by
  unfold Machine.State.limitSet
  exact (h.wf.setArbiter.foldl (fun hu => Quiet.ite hu.setArbiter ((Quiet.ite hu.setArbiter hu).starve))).readmitAll

theorem Quiet.arbDecide (h : Quiet s t) {a} : Quiet s (t.arbDecide a) := by
  unfold Machine.State.arbDecide
  exact (h.used.foldl (fun hu => hu.arbLose)).setArbWait.setArbiter.wb.wf.wbit.incWrap.slotStep

theorem Quiet.execArbRequest (h : Quiet s t) {arb port units} : Quiet.Out s (execArbRequest arb port units t) := by
  unfold Machine.execArbRequest
  exact h.whenB (fun hu => Quiet.ite hu.setArbiter (hu.setArbiter.wbit.andThen fun k1 => Quiet.ite k1 k1.arbDecide))

theorem Quiet.arbNext (h : Quiet s t) {a p} : Quiet s (t.arbNext a p) := by
  unfold Machine.State.arbNext
  dsimp only
  split
  · exact h
  · exact h.setArbiter.wbit

theorem Quiet.execArbUnitEnd (h : Quiet s t) {arb} : Quiet.Out s (execArbUnitEnd arb t) := by
  unfold Machine.execArbUnitEnd
  exact h.whenB (fun hu => Quiet.ite hu.used (hu.setArbiter.andThen fun k1 => (Quiet.ite k1.arbNext k1).andThen fun k2 =>
      Quiet.ite (k2.arbDecide.andThen fun k3 => Quiet.ite k3.setN k3) (Quiet.ite k2.setArbiter.wbit k2.wb)))

theorem Quiet.execSlotIdleAdvance (h : Quiet s t) {arb} : Quiet.Out s (execSlotIdleAdvance arb t) := by
  unfold Machine.execSlotIdleAdvance
  exact h.whenB (fun hu => hu.setArbiter.slotStep)

theorem Quiet.tableWrite (h : Quiet s t) {a t' w v} : Quiet s (t.tableWrite a t' w v) := by
  unfold Machine.State.tableWrite
  exact Quiet.ite h.setN h.incSat.raiseEv

theorem Quiet.execArbTableWrite (h : Quiet s t) {req arb table word value} : Quiet.Out s
    (execArbTableWrite req arb table word value t) := by
  unfold Machine.execArbTableWrite
  exact h.whenOn (fun hu => hu.headstockOnly (fun hv => hv.tableWrite))

theorem Quiet.prioWrite (h : Quiet s t) {a lo hi} : Quiet s (t.prioWrite a lo hi) := by
  unfold Machine.State.prioWrite
  exact h.setArbiter.setN.setN

theorem Quiet.switchReq (h : Quiet s t) {a} : Quiet s (t.switchReq a) := by
  unfold Machine.State.switchReq
  exact h.setArbiter.wb.wb

theorem Quiet.styQue (h : Quiet s t) {q f} : Quiet s (t.styQue q f) := by
  unfold Machine.State.styQue
  exact h.update

theorem Quiet.bellRefuse (h : Quiet s t) {q kind} : Quiet s (t.bellRefuse q kind) := by
  unfold Machine.State.bellRefuse
  exact h.incSat.raiseEv

theorem Quiet.posted (h : Quiet s t) {q n} : Quiet s (t.posted q n) := by
  unfold Machine.State.posted
  exact h.wf.wf.styQue.andThen fun k1 => Quiet.ite (Quiet.ite k1.hwBit k1.hwBit.irqTo) k1

theorem Quiet.post (h : Quiet s t) {q n} : Quiet s (t.post q n) := by
  unfold Machine.State.post
  exact Quiet.ite h.wf.incSat (Quiet.ite h.wf.bellRefuse h.wf.posted)

theorem Quiet.take (h : Quiet s t) {q n} : Quiet s (t.take q n) := by
  unfold Machine.State.take
  exact Quiet.ite h.bellRefuse h.wf.wf.wf.styQue

theorem Quiet.giveBack (h : Quiet s t) {q n} : Quiet s (t.giveBack q n) := by
  unfold Machine.State.giveBack
  exact Quiet.ite h.bellRefuse h.wf.wf.styQue

theorem Quiet.execQuePost (h : Quiet s t) {req queue count} : Quiet.Out s (execQuePost req queue count t) := by
  unfold Machine.execQuePost
  exact h.whenOn (fun hu => Quiet.ite hu.post hu.violate)

theorem Quiet.execQueTake (h : Quiet s t) {req queue count} : Quiet.Out s (execQueTake req queue count t) := by
  unfold Machine.execQueTake
  exact h.whenOn (fun hu => Quiet.ite hu.take hu.violate)

theorem Quiet.strikePost (h : Quiet s t) {q entry fire count} : Quiet.Opt s (t.strikePost q entry fire count) := by
  unfold Machine.State.strikePost
  exact Quiet.iteOpt .none h.memStore.posted.some

theorem Quiet.postBytes (h : Quiet s t) {q l} : Quiet.Opt s (t.postBytes q l) := by
  unfold Machine.State.postBytes
  exact Quiet.iteOpt ((h.foldl (fun hu => hu.memStore)).wf.posted.some) .none

theorem Quiet.queEnable (h : Quiet s t) {q cfg base} : Quiet s (t.queEnable q cfg base) := by
  unfold Machine.State.queEnable
  exact h.setN.setN.styQue.setN.setN.wf.readmit

theorem Quiet.queOff (h : Quiet s t) {q} : Quiet s (t.queOff q) := by
  unfold Machine.State.queOff
  exact h.wb.setN.setN.styQue

end Sys2Proof.Machine
end

section
/-! PROOF. Quiet steps: the functions of Sys2Proof/Machine/Journal.lean. -/

namespace Sys2Proof.Machine

set_option Elab.async false

variable {s t u : State}

theorem Quiet.journal (h : Quiet s t) {r} : Quiet s (t.journal r) := by
  unfold Machine.State.journal
  exact h.update

theorem Quiet.journalNow (h : Quiet s t) {r} : Quiet s (t.journalNow r) := by
  unfold Machine.State.journalNow
  exact h.journal.update

theorem Quiet.commitRec (h : Quiet s t) {p step} : Quiet s (t.commitRec p step) := by
  unfold Machine.State.commitRec
  exact h.journal

theorem Quiet.updRec (h : Quiet s t) {step bank} : Quiet s (t.updRec step bank) := by
  unfold Machine.State.updRec
  exact h.journal

theorem Quiet.commitNow (h : Quiet s t) {p step} : Quiet s (t.commitNow p step) := by
  unfold Machine.State.commitNow
  exact h.journalNow

theorem Quiet.updNow (h : Quiet s t) {step bank} : Quiet s (t.updNow step bank) := by
  unfold Machine.State.updNow
  exact h.journalNow

theorem Quiet.setV (h : Quiet s t) {v} : Quiet s (t.setV v) := by
  unfold Machine.State.setV
  exact h.setN.setN

end Sys2Proof.Machine
end

section
/-! PROOF. Quiet steps: the functions of Sys2Proof/Machine/Keys.lean. -/

namespace Sys2Proof.Machine

set_option Elab.async false

variable {s t u : State}

theorem Quiet.nonceUsed (h : Quiet s t) : Quiet s t.nonceUsed := by
  unfold Machine.State.nonceUsed
  exact h.update

theorem Quiet.installCerts (h : Quiet s t) : Quiet s t.installCerts := by
  unfold Machine.State.installCerts
  split
  · exact h.update
  · exact h

end Sys2Proof.Machine
end

section
/-! PROOF. Quiet steps: the functions of Sys2Proof/Machine/MailOps.lean. -/

namespace Sys2Proof.Machine

set_option Elab.async false

variable {s t u : State}

theorem Quiet.setChan (h : Quiet s t) {c x} : Quiet s (t.setChan c x) := by
  unfold Machine.State.setChan
  exact h.update

theorem Quiet.respSend (h : Quiet s t) {c interim l} : Quiet s (t.respSend c interim l) := by
  unfold Machine.State.respSend
  refine .ite h.update.wb.wf (.ite (.ite (h.headWrite fun hu => hu.memStore.sealStart) h.incSat) ?_)
  dsimp only
  split
  · next u hu =>
    split at hu
    · exact h.postBytes hu
    · cases hu
  · exact h.setChan

theorem Quiet.respond (h : Quiet s t) {c interim l} : Quiet s (t.respond c interim l) := by
  unfold Machine.State.respond
  exact h.setChan.respSend

theorem Quiet.finish (h : Quiet s t) {c status payload} : Quiet s (t.finish c status payload) := by
  unfold Machine.State.finish
  split
  · exact h
  · exact (Quiet.ite h.setChan.setN h.setChan).wf.respond

theorem Quiet.beginRun (h : Quiet s t) {c row tag cmd} : Quiet s (t.beginRun c row tag cmd) := by
  unfold Machine.State.beginRun
  exact h.update.setChan.andThen fun k1 => Quiet.ite k1.setN.wf k1

theorem Quiet.countReq (h : Quiet s t) {c op tag key} : Quiet s (t.countReq c op tag key) := by
  unfold Machine.State.countReq
  exact h.update.incWrap.setN.setChan

theorem Quiet.refuseReq (h : Quiet s t) {c op tag code} : Quiet s (t.refuseReq c op tag code) := by
  unfold Machine.State.refuseReq
  exact h.setChan.finish

theorem Quiet.admitReq (h : Quiet s t) {c row tag len go} (hgo : ∀ {u}, Quiet s u → Quiet s (go u)) : Quiet s
    (t.admitReq c row tag len go) := by
  unfold Machine.State.admitReq
  refine Quiet.ite ?_ ?_
  · exact h.incSat.refuseReq
  · split
    · exact h.refuseReq
    · exact hgo h

theorem Quiet.mailCmd (h : Quiet s t) {c op cmd k} (hk : ∀ {u}, Quiet s u → Quiet s (k u)) : Quiet.Out s
    (t.mailCmd c op cmd k) := by
  unfold Machine.State.mailCmd
  refine Quiet.out ?_
  refine Quiet.ite ?_ ?_
  · exact h
  · split
    · exact Quiet.ite (hk h.setChan) h
    · split
      · exact Quiet.ite (h.countReq.admitReq (fun hu => hk hu.beginRun)) h
      · exact h

end Sys2Proof.Machine
end

section
/-! PROOF. Quiet steps: the functions of Sys2Proof/Machine/Tailstock.lean. -/

namespace Sys2Proof.Machine

set_option Elab.async false

variable {s t u : State}

theorem Quiet.setRdmPeer (h : Quiet s t) {k p} : Quiet s (t.setRdmPeer k p) := by
  unfold Machine.State.setRdmPeer
  exact h.update

theorem Quiet.padsFollow (h : Quiet s t) {old} : Quiet s (t.padsFollow old) := by
  unfold Machine.State.padsFollow
  exact h.foldl (fun hu => Quiet.ite hu hu.wbit.update)

theorem Quiet.outEval (h : Quiet s t) : Quiet s t.outEval := by
  unfold Machine.State.outEval
  exact (Quiet.ite h h.wf.padsFollow).andThen fun k1 => Quiet.ite k1 k1.update

theorem Quiet.outReq (h : Quiet s t) {v} : Quiet s (t.outReq v) := by
  unfold Machine.State.outReq
  exact h.wf.outEval

theorem Quiet.setRmode (h : Quiet s t) {m} : Quiet s (t.setRmode m) := by
  have hm : Quiet s (t.wf LANE_STATE.RMODE m) := h.wf_apart (.inr (.inr (by decide)))
  unfold Machine.State.setRmode
  exact .ite hm.wf.raiseEv hm.wf

theorem Quiet.loadGrants (h : Quiet s t) : Quiet s t.loadGrants := by
  unfold Machine.State.loadGrants
  exact (h.foldl (fun hu => Quiet.ite hu (Quiet.ite hu.moveTo hu.wf))).readmitAll

theorem Quiet.springRule (h : Quiet s t) : Quiet s t.springRule := by
  unfold Machine.State.springRule
  exact Quiet.ite h (Quiet.ite h h.outReq)

theorem Quiet.startUnits (h : Quiet s t) : Quiet s t.startUnits := by
  unfold Machine.State.startUnits
  exact (((h.foldl (fun hu => Quiet.ite hu.fbStart hu)).foldl (fun hu => Quiet.ite hu.ctxStart hu)).foldl
      (fun hu => Quiet.ite hu.glkBringup hu)).nodeStart

theorem Quiet.stopGtUpdate (h : Quiet s t) : Quiet s t.stopGtUpdate := by
  unfold Machine.State.stopGtUpdate
  exact Quiet.ite h h.setN.setN

theorem Quiet.stopFor (h : Quiet s t) {bit} : Quiet s (t.stopFor bit) := by
  unfold Machine.State.stopFor
  exact Quiet.ite h.wbit.wf.update.setN.setN.raiseEv h.wbit

theorem Quiet.parkNow (h : Quiet s t) : Quiet s t.parkNow := by
  unfold Machine.State.parkNow
  exact Quiet.ite h h.wf.setRmode.outReq

theorem Quiet.adoptVote (h : Quiet s t) {v} : Quiet s (t.adoptVote v) := by
  unfold Machine.State.adoptVote
  exact (Quiet.ite h.wb h).andThen fun k1 => (Quiet.ite k1.stopFor k1).andThen fun k2 => Quiet.ite k2.parkNow k2

theorem Quiet.modeStep (h : Quiet s t) : Quiet s t.modeStep := by
  unfold Machine.State.modeStep
  exact Quiet.ite h.setRmode (Quiet.ite h.setRmode (Quiet.ite h.setRmode (Quiet.ite h.setRmode h.wb.setRmode)))

theorem Quiet.redecide (h : Quiet s t) : Quiet s t.redecide := by
  unfold Machine.State.redecide
  exact Quiet.ite h.wf.setRmode.springRule (h.wf.modeStep.andThen fun k1 => (Quiet.ite k1.stopFor k1).andThen fun k2 =>
      (Quiet.ite k2.stopFor k2).andThen fun k3 => (Quiet.ite k3.stopFor k3).stopGtUpdate.springRule)

theorem Quiet.execVoteSend (h : Quiet s t) : Quiet.Out s (execVoteSend t) := by
  unfold Machine.execVoteSend
  exact h.whenB (fun hu => hu.redecide.bridgeAll.update)

theorem Quiet.claim (h : Quiet s t) {k seq fit svc direct} : Quiet s (t.claim k seq fit svc direct) := by
  unfold Machine.State.claim
  exact Quiet.ite h h.setRdmPeer

theorem Quiet.relayedClaim (h : Quiet s t) {k c} : Quiet s (t.relayedClaim k c) := by
  unfold Machine.State.relayedClaim
  exact Quiet.ite h h.setRdmPeer.claim

theorem Quiet.voteIn (h : Quiet s t) {peer vote} : Quiet s (t.voteIn peer vote) := by
  unfold Machine.State.voteIn
  exact Quiet.ite h (h.claim.setRdmPeer.andThen fun k1 =>
      (Quiet.ite k1 (k1.foldl (fun hu => Quiet.ite hu.relayedClaim hu))).andThen fun k2 => (Quiet.ite k2.adoptVote k2).redecide)

theorem Quiet.execMemberTimeout (h : Quiet s t) {peer} : Quiet.Out s (execMemberTimeout peer t) := by
  unfold Machine.execMemberTimeout
  exact h.whenB (fun hu => hu.setRdmPeer.redecide)

theorem Quiet.execParkEntry (h : Quiet s t) : Quiet.Out s (execParkEntry t) := by
  unfold Machine.execParkEntry
  exact h.whenB (fun hu => hu.parkNow)

theorem Quiet.missionReset (h : Quiet s t) : Quiet s t.missionReset := by
  unfold Machine.State.missionReset
  exact Quiet.ite h.wf.wb.wf.setN.setN.update.redecide h

theorem Quiet.setSafeIn (h : Quiet s t) {n x} : Quiet s (t.setSafeIn n x) := by
  unfold Machine.State.setSafeIn
  exact h.update

theorem Quiet.inEval (h : Quiet s t) {n} : Quiet s (t.inEval n) := by
  unfold Machine.State.inEval
  exact h.wbit.wbit.outEval

theorem Quiet.inputsLive (h : Quiet s t) : Quiet s t.inputsLive := by
  unfold Machine.State.inputsLive
  exact h.update.foldl (fun hu => hu.inEval)

theorem Quiet.setLevels (h : Quiet s t) {n a b} : Quiet s (t.setLevels n a b) := by
  unfold Machine.State.setLevels
  exact h.wbit.wbit

theorem Quiet.execSafetyInputDemand (h : Quiet s t) {input padA padB} : Quiet.Out s (execSafetyInputDemand input padA padB t) := by
  unfold Machine.execSafetyInputDemand
  exact h.whenB (fun hu => hu.setLevels.setSafeIn.inEval)

theorem Quiet.execSafetyInputHealthy (h : Quiet s t) {input} : Quiet.Out s (execSafetyInputHealthy input t) := by
  unfold Machine.execSafetyInputHealthy
  exact h.whenB (fun hu => hu.setLevels.setSafeIn.inEval)

theorem Quiet.execDiscrepancyFault (h : Quiet s t) {input} : Quiet.Out s (execDiscrepancyFault input t) := by
  unfold Machine.execDiscrepancyFault
  exact h.whenB (fun hu => hu.wbit.wf.incSat.setSafeIn.raiseEv.inEval)

theorem Quiet.execDiscrepancyEnd (h : Quiet s t) {input samples} : Quiet.Out s (execDiscrepancyEnd input samples t) := by
  unfold Machine.execDiscrepancyEnd
  exact h.whenB (fun hu => (Quiet.ite hu.incSat hu).wf)

theorem Quiet.execTestPulseStart (h : Quiet s t) {output} : Quiet.Out s (execTestPulseStart output t) := by
  unfold Machine.execTestPulseStart
  split
  · exact h.out
  · exact h.whenB (fun hu => hu.wbit.padsFollow.update)

theorem Quiet.challenge (h : Quiet s t) {t' b} : Quiet s (t.challenge t' b) := by
  unfold Machine.State.challenge
  exact h.used.setN.setN.update

theorem Quiet.responseWrite (h : Quiet s t) {v} : Quiet s (t.responseWrite v) := by
  unfold Machine.State.responseWrite
  split
  · exact h
  · exact Quiet.ite h.update h

theorem Quiet.execTskResponse (h : Quiet s t) {req value} : Quiet.Out s (execTskResponse req value t) := by
  unfold Machine.execTskResponse
  exact h.whenOn (fun hu => hu.granted (fun hv => hv.responseWrite))

theorem Quiet.execPathDisagree (h : Quiet s t) {output} : Quiet.Out s (execPathDisagree output t) := by
  unfold Machine.execPathDisagree
  split
  · exact h.out
  · exact h.whenB (fun hu => hu.raiseEv.update)

theorem Quiet.hlthWatch (h : Quiet s t) : Quiet s t.hlthWatch := by
  unfold Machine.State.hlthWatch
  exact Quiet.ite h h.update

theorem Quiet.execHealthToggle (h : Quiet s t) : Quiet.Out s (execHealthToggle t) := by
  unfold Machine.execHealthToggle
  exact h.whenB (fun hu => hu.update.wb.wb)

theorem Quiet.execHealthLoss (h : Quiet s t) : Quiet.Out s (execHealthLoss t) := by
  unfold Machine.execHealthLoss
  exact h.whenB (fun hu => hu.wb.wb)

theorem Quiet.srstAccept (h : Quiet s t) : Quiet s t.srstAccept := by
  unfold Machine.State.srstAccept
  exact (h.incSat.setN.wf.update.foldl (fun hu => (Quiet.ite hu.wbit hu).setSafeIn.inEval)).outEval.missionReset

theorem Quiet.execSrstRelease (h : Quiet s t) {samples} : Quiet.Out s (execSrstRelease samples t) := by
  unfold Machine.execSrstRelease
  exact h.whenOn (fun hu => hu.update.wf.wb.andThen fun k1 => Quiet.ite k1.wf.srstAccept k1.wf)

theorem Quiet.execSrstJammed (h : Quiet s t) : Quiet.Out s (execSrstJammed t) := by
  unfold Machine.execSrstJammed
  exact h.whenB (fun hu => hu.wf.used.wb.raiseEv)

theorem Quiet.execSrstDiscrepancy (h : Quiet s t) : Quiet.Out s (execSrstDiscrepancy t) := by
  unfold Machine.execSrstDiscrepancy
  exact h.whenB (fun hu => hu.wf.used.update.wf.incSat.raiseEv)

end Sys2Proof.Machine
end

section
/-! PROOF. Quiet steps: the functions of Sys2Proof/Machine/Image.lean. -/

namespace Sys2Proof.Machine

set_option Elab.async false

variable {s t u : State}

theorem Quiet.loadWord (h : Quiet s t) {im o a}
    (ha : LANE_STATE.adr < a := by (repeat apply adr_above); decide) : Quiet s (t.loadWord im o a) := by
  unfold Machine.State.loadWord
  exact h.setN ha

theorem Quiet.loadCtx (h : Quiet s t) {im e} : Quiet s (t.loadCtx im e) := by
  unfold Machine.State.loadCtx
  exact (h.foldl (fun hu => hu.loadWord)).foldl (fun hu => hu.foldl (fun hv => hv.update))

theorem ctxAddrs_above {c a : Nat} (h : a ∈ ctxAddrs c) : LANE_STATE.adr < a := by
  obtain ⟨i, -, rfl⟩ := List.mem_map.1 h
  exact adr_above (adr_above (by decide))

theorem Quiet.loadCtxs (h : Quiet s t) {im} : Quiet s (t.loadCtxs im) := by
  unfold Machine.State.loadCtxs
  exact ((h.foldl fun hu => .ite (hu.foldl_mem fun ha hv => hv.setReg (Nat.ne_of_gt (ctxAddrs_above ha))) hu).update).foldl
    fun hu => hu.loadCtx

/-- Every register of an area lies above LANE_STATE. -/
def AreaAbove (x : Nat × List Nat) : Prop := ∀ a ∈ x.2, LANE_STATE.adr < a

theorem imgAreas_above : ∀ x ∈ imgAreas, AreaAbove x := by
  simp only [imgAreas, AreaAbove, List.forall_mem_cons, List.forall_mem_append, List.forall_mem_flatMap,
    List.forall_mem_map, List.not_mem_nil, false_implies, implies_true, and_true]
  refine ⟨?_, ?_, ?_, ?_, ?_, ?_, ?_, ?_, ?_, ?_, ?_, ?_⟩ <;>
    (repeat' apply And.intro) <;> intros <;> (repeat' apply And.intro) <;> intros <;> (repeat apply adr_above) <;> decide

theorem flowWords_above (f : Nat) : ∀ a ∈ flowWords f, LANE_STATE.adr < a := by
  simp only [flowWords, List.forall_mem_cons, List.forall_mem_append, List.forall_mem_map, List.not_mem_nil,
    false_implies, implies_true, and_true]
  refine ⟨⟨?_, ?_⟩, fun _ _ => ?_⟩ <;> (repeat apply adr_above) <;> decide

theorem imgPlaces_above : ∀ p ∈ imgPlaces, LANE_STATE.adr < p.2 := by
  simp only [imgPlaces, List.forall_mem_flatMap, List.forall_mem_map]
  intro x hx i hi
  have ha : AreaAbove x := by
    rcases List.mem_append.1 hx with h | h
    · exact imgAreas_above x h
    · obtain ⟨f, -, rfl⟩ := List.mem_map.1 h
      exact flowWords_above f
  rw [List.getD_eq_getElem _ _ (List.mem_range.1 hi)]
  exact ha _ (List.getElem_mem _)

theorem Quiet.loadRegs (h : Quiet s t) {im} : Quiet s (t.loadRegs im) := by
  unfold Machine.State.loadRegs
  exact (h.foldl_mem fun hp hu => hu.loadWord (imgPlaces_above _ hp)).loadCtxs.wf.update

theorem Quiet.asGranted (h : Quiet s t) : Quiet s t.asGranted := by
  unfold Machine.State.asGranted
  exact (h.foldl (fun hu => hu.wf)).andThen fun k1 => Quiet.ite k1 (k1.foldl (fun hu => Quiet.ite hu.wf hu))

theorem Quiet.startQueue (h : Quiet s t) {q} : Quiet s (t.startQueue q) := by
  unfold Machine.State.startQueue
  exact Quiet.ite (h.queEnable.andThen fun k1 => Quiet.ite k1 k1.queOff) h.queOff

theorem Quiet.startArb (h : Quiet s t) {a} : Quiet s (t.startArb a) := by
  unfold Machine.State.startArb
  exact h.wb.wb.setArbiter

theorem Quiet.bootImage (h : Quiet s t) {im} : Quiet s (t.bootImage im) := by
  unfold Machine.State.bootImage
  exact ((h.loadRegs.foldl (fun hu => hu.startArb)).foldl (fun hu => hu.startQueue)).portsJudge

theorem Quiet.vioJudge (h : Quiet s t) : Quiet s t.vioJudge := by
  unfold Machine.State.vioJudge
  exact (Quiet.ite h.wf.wb.deassertSrc (Quiet.ite h.wf.wb h.wf.wb.assertSrc)).foldl (fun hu => hu.tripSee)

theorem Quiet.keepSched (h : Quiet s t) {old} : Quiet s (t.keepSched old) := by
  unfold Machine.State.keepSched
  exact Quiet.ite h h.update

theorem entryAddrs_above {m a : Nat} (h : a ∈ entryAddrs m) : LANE_STATE.adr < a := by
  simp only [entryAddrs, List.mem_cons, List.not_mem_nil, or_false] at h
  rcases h with rfl | rfl | rfl <;> exact adr_above (by decide)

theorem Quiet.keepEntries (h : Quiet s t) {old} : Quiet s (t.keepEntries old) := by
  unfold Machine.State.keepEntries
  exact h.update.foldl fun hu => .ite (hu.foldl_mem fun ha hv => hv.setN (entryAddrs_above ha)).update hu

theorem Quiet.ctxRenew (h : Quiet s t) {old c} : Quiet s (t.ctxRenew old c) := by
  unfold Machine.State.ctxRenew
  exact h.setCtx.ctxStart

theorem Quiet.activateImage (h : Quiet s t) {im held} : Quiet s (t.activateImage im held) := by
  unfold Machine.State.activateImage
  exact ((((h.loadRegs.keepSched.keepEntries.foldl (fun hu => Quiet.ite hu.startArb hu)).foldl
      (fun hu => Quiet.ite hu.startQueue hu)).foldl (fun hu => Quiet.ite hu.setEntry hu)).foldl
      (fun hu => Quiet.ite hu.fbStart hu)).andThen fun k5 =>
      (Quiet.ite k5 ((k5.foldl (fun hu => Quiet.ite hu.ctxRenew hu)).staleUpdate.foldl
      (fun hu => Quiet.ite hu hu.moveTo))).andThen fun k6 => ((Quiet.ite k6.inputsLive k6.outEval).vioJudge).portsJudge

end Sys2Proof.Machine
end

section
/-! PROOF. Quiet steps: the functions of Sys2Proof/Machine/Steelyard.lean. -/

namespace Sys2Proof.Machine

set_option Elab.async false

variable {s t u : State}

theorem Quiet.imbalance (h : Quiet s t) {gt kind idx d} : Quiet s (t.imbalance gt kind idx d) := by
  unfold Machine.State.imbalance
  exact h.incSat.raiseEv.andThen fun k1 => Quiet.ite k1 k1.setN.hwBit.setN.setN

theorem Quiet.execSteelyardAudit (h : Quiet s t) : Quiet.Out s (execSteelyardAudit t) := by
  unfold Machine.execSteelyardAudit
  exact h.whenB (fun hu => ((hu.foldl (fun hv => hv.imbalance)).update.foldl (fun hv => Quiet.ite hv hv.setLeg)).setN)

end Sys2Proof.Machine
end

section
/-! PROOF. Quiet steps: the functions of Sys2Proof/Machine/SecBase.lean. -/

namespace Sys2Proof.Machine

set_option Elab.async false

variable {s t u : State}

theorem Quiet.notch (h : Quiet s t) {n} : Quiet s (t.notch n) := by
  unfold Machine.State.notch
  exact Quiet.ite h.update.raiseEv h.update

theorem Quiet.notchLog (h : Quiet s t) {n gt arg} : Quiet s (t.notchLog n gt arg) := by
  unfold Machine.State.notchLog
  exact h.update.bridgeAll

theorem Quiet.endToken (h : Quiet s t) : Quiet s t.endToken := by
  unfold Machine.State.endToken
  exact Quiet.ite h h.armChange.update

theorem Quiet.orderEffect (h : Quiet s t) {kind arg} : Quiet s (t.orderEffect kind arg) := by
  unfold Machine.State.orderEffect
  exact Quiet.ite h.endToken (Quiet.ite h.update.used (Quiet.ite h.update h))

theorem Quiet.orderDone (h : Quiet s t) {kind arg gt} : Quiet s (t.orderDone kind arg gt) := by
  unfold Machine.State.orderDone
  exact h.orderEffect.notchLog

theorem Quiet.tearStep (h : Quiet s t) : Quiet s t.tearStep := by
  unfold Machine.State.tearStep
  split
  · exact h
  · split
    · exact h
    · exact Quiet.ite h.used ((Quiet.ite h.used (Quiet.ite h.used.notchLog (Quiet.ite h.used.orderDone h.used))).journal)

theorem Quiet.tearNow (h : Quiet s t) : Quiet s t.tearNow := by
  unfold Machine.State.tearNow
  split
  · exact Quiet.ite (Quiet.ite h.used h.used.update) h
  · exact h

theorem Quiet.tearRec (h : Quiet s t) : Quiet s t.tearRec := by
  unfold Machine.State.tearRec
  exact h.tearNow.tearStep

end Sys2Proof.Machine
end

section
/-! PROOF. Quiet steps: the functions of Sys2Proof/Machine/Star.lean. -/

namespace Sys2Proof.Machine

set_option Elab.async false

variable {s t u : State}

theorem Quiet.setIso (h : Quiet s t) {n b} : Quiet s (t.setIso n b) := by
  unfold Machine.State.setIso
  exact Quiet.ite h.wb.wb h.wb.wbit

theorem Quiet.isolate (h : Quiet s t) {n} : Quiet s (t.isolate n) := by
  unfold Machine.State.isolate
  exact Quiet.ite h (h.setIso.incSat.assertSrc.setStarPort.andThen fun k2 => Quiet.ite (Quiet.ite k2.wb.wbit k2.wb) k2)

theorem Quiet.readmitPort (h : Quiet s t) {n} : Quiet s (t.readmitPort n) := by
  unfold Machine.State.readmitPort
  exact Quiet.ite h.setIso h.setIso.deassertSrc

theorem Quiet.violation (h : Quiet s t) {n kind offs} : Quiet s (t.violation n kind offs) := by
  unfold Machine.State.violation
  exact h.setStarPort.setN.setN.andThen fun k2 => (Quiet.ite k2 k2.raiseEv).andThen fun k3 =>
      (Quiet.ite k3.incSat (Quiet.ite k3 k3.incSat)).andThen fun k4 => Quiet.ite ((Quiet.ite k4 k4.incSat).andThen fun k5 =>
      Quiet.ite k5.isolate k5) (Quiet.ite k4.incSat.raiseEv.isolate k4.incSat)

theorem Quiet.forwardTo (h : Quiet s t) {n out fr hold win nt} : Quiet s (t.forwardTo n out fr hold win nt) := by
  unfold Machine.State.forwardTo
  dsimp only
  split
  · exact Quiet.ite h.used.update h.used.sendInj
  · exact h.used.sendInj

theorem Quiet.forward (h : Quiet s t) {n fr cold hold win nt} : Quiet s (t.forward n fr cold hold win nt) := by
  unfold Machine.State.forward
  exact (h.foldl (fun hu => hu.forwardTo)).andThen fun k1 => Quiet.ite k1 k1.incWrap

theorem Quiet.learnDly (h : Quiet s t) {n fr} : Quiet s (t.learnDly n fr) := by
  unfold Machine.State.learnDly
  exact Quiet.ite h.setN.setStarPort h

theorem Quiet.echoReply (h : Quiet s t) {n fr} : Quiet s (t.echoReply n fr) := by
  unfold Machine.State.echoReply
  exact h.sendInj

theorem Quiet.burst (h : Quiet s t) {n fr k} (hk : ∀ {u}, Quiet s u → Quiet s (k u)) : Quiet s (t.burst n fr k) := by
  unfold Machine.State.burst
  split
  · exact Quiet.ite h.violation (hk h.setStarPort)
  · exact hk h.setStarPort

theorem Quiet.holdCold (h : Quiet s t) {n fr} : Quiet s (t.holdCold n fr) := by
  unfold Machine.State.holdCold
  exact h.update

theorem Quiet.startUpIn (h : Quiet s t) {n fr h'} : Quiet s (t.startUpIn n fr h') := by
  unfold Machine.State.startUpIn
  exact Quiet.ite (h.burst (fun hu => Quiet.ite hu hu.learnDly.forward)) (Quiet.ite (Quiet.ite h (h.burst (fun hu => Quiet.ite hu
      (Quiet.ite hu.forward (Quiet.ite hu.holdCold (Quiet.ite hu hu.forward.incSat)))))) h)

theorem Quiet.windowIn (h : Quiet s t) {n fr h'} : Quiet s (t.windowIn n fr h') := by
  unfold Machine.State.windowIn
  dsimp only
  refine Quiet.ite ?_ ?_
  · exact h.violation
  · split
    · exact Quiet.ite h h.learnDly.forward
    · exact h.violation

theorem Quiet.starRx (h : Quiet s t) {n fr} : Quiet s (t.starRx n fr) := by
  unfold Machine.State.starRx
  exact Quiet.ite h (Quiet.ite h.echoReply (Quiet.ite h.windowIn h.startUpIn))

theorem Quiet.execStarFrameReceive (h : Quiet s t) {port frame} : Quiet.Out s (execStarFrameReceive port frame t) := by
  unfold Machine.execStarFrameReceive
  dsimp only
  refine h.whenB (fun hu => ?_)
  refine hu.recvInj (fun hv => ?_)
  split
  · exact hv.starRx
  · exact hv

theorem Quiet.execFrameCut (h : Quiet s t) {input output} : Quiet.Out s (execFrameCut input output t) := by
  unfold Machine.execFrameCut
  dsimp only
  split
  · exact h.out
  · exact h.whenB (fun hu => hu.update.sendInj.andThen fun k1 => Quiet.ite k1 k1.violation)

theorem Quiet.notice (h : Quiet s t) {n} : Quiet s (t.notice n) := by
  unfold Machine.State.notice
  exact h.nextSeq.incSat.sendInj

theorem Quiet.execColdstartHoldEnd (h : Quiet s t) : Quiet.Out s (execColdstartHoldEnd t) := by
  unfold Machine.execColdstartHoldEnd
  split
  · exact h.out
  · exact h.whenOn (fun hu => Quiet.ite (Quiet.ite hu.update hu.update.forward.incSat) (Quiet.ite (hu.update.foldl
      (fun hv => hv.notice)) hu.update))

theorem Quiet.portBoundary (h : Quiet s t) {n} : Quiet s (t.portBoundary n) := by
  unfold Machine.State.portBoundary
  exact (Quiet.ite h.wf h.wf.wf).setStarPort.andThen fun k2 => Quiet.ite k2.readmitPort k2

theorem Quiet.execStarChainBoundary (h : Quiet s t) : Quiet.Out s (execStarChainBoundary t) := by
  unfold Machine.execStarChainBoundary
  exact h.whenB (fun hu => (hu.update.foldl (fun hv => hv.portBoundary)).andThen fun k1 => Quiet.ite k1.wb k1)

theorem Quiet.starStart (h : Quiet s t) : Quiet s t.starStart := by
  unfold Machine.State.starStart
  exact Quiet.ite h.wb.wb.starDly h

end Sys2Proof.Machine
end

section
/-! PROOF. Quiet steps: the functions of Sys2Proof/Machine/Pairs.lean. -/

namespace Sys2Proof.Machine

set_option Elab.async false

variable {s t u : State}

theorem Quiet.toPair (h : Quiet s t) {p st} : Quiet s (t.toPair p st) := by
  unfold Machine.State.toPair
  exact h.wf.wbit.wbit

theorem Quiet.setLatent (h : Quiet s t) {p b} : Quiet s (t.setLatent p b) := by
  unfold Machine.State.setLatent
  exact h.wb.wbit

theorem Quiet.leadTo (h : Quiet s t) {p n} : Quiet s (t.leadTo p n) := by
  unfold Machine.State.leadTo
  exact h.setPair.setN

theorem Quiet.setFifo (h : Quiet s t) {p l} : Quiet s (t.setFifo p l) := by
  unfold Machine.State.setFifo
  exact h.setPair.wf

theorem Quiet.setLog (h : Quiet s t) {p l} : Quiet s (t.setLog p l) := by
  unfold Machine.State.setLog
  exact h.setPair.wf

theorem Quiet.goLive (h : Quiet s t) {p} : Quiet s (t.goLive p) := by
  unfold Machine.State.goLive
  exact h.setPair.toPair

theorem Quiet.giveEvent (h : Quiet s t) {o e} : Quiet s (t.giveEvent o e) := by
  unfold Machine.State.giveEvent
  exact Quiet.ite h.giveTrap h.emit

theorem Quiet.flushPort (h : Quiet s t) {p} : Quiet s (t.flushPort p) := by
  unfold Machine.State.flushPort
  dsimp only
  refine h.setPair.foldl (fun hu => ?_)
  split
  · exact hu.giveEvent
  · exact hu

theorem Quiet.ckptDue (h : Quiet s t) {p gt} : Quiet s (t.ckptDue p gt) := by
  unfold Machine.State.ckptDue
  exact Quiet.ite h.setPair.toPair h.setPair

theorem Quiet.repointQueues (h : Quiet s t) {p target} : Quiet s (t.repointQueues p target) := by
  unfold Machine.State.repointQueues
  exact (h.foldl (fun hu => (Quiet.ite hu.wf hu).andThen fun k1 => (Quiet.ite k1.wf k1))).readmitAll

theorem Quiet.rehome (h : Quiet s t) {p} : Quiet s (t.rehome p) := by
  unfold Machine.State.rehome
  dsimp only
  split
  · exact (h.repointMoves.foldl (fun hu => Quiet.ite hu.startMove hu)).setN.repointQueues.irqTo
  · exact (h.repointMoves.foldl (fun hu => Quiet.ite hu.startMove hu)).setN.repointQueues

theorem Quiet.failPair (h : Quiet s t) {p ecc} : Quiet s (t.failPair p ecc) := by
  unfold Machine.State.failPair
  extract_lets +onlyGivenNames s1 x s2 s3 y s4 s5 s6
  have h1 : Quiet s s1 := .ite h.raiseEv h.raiseEv
  have h4 : Quiet s s4 := h1.toPair.setLatent.setFifo.wb.wb.setPair
  have h5 : Quiet s s5 := by
    unfold s5
    split
    · exact h4.finish
    · exact h4
  have h6 : Quiet s s6 := by
    unfold s6
    split
    · exact h5.finish
    · exact h5
  exact h6.rehome

theorem Quiet.restore (h : Quiet s t) {p cause st} : Quiet s (t.restore p cause st) := by
  unfold Machine.State.restore
  extract_lets +onlyGivenNames x
  split
  · exact h.failPair
  next c hc =>
    extract_lets +onlyGivenNames s1 s2 y s3 s4 a ram s5
    have hc' (hs : MemOk s) : Memory.wf c.tcm = true := newest_wf (h.pairOk hs p) hc
    have h1 : Quiet s s1 := .ite h h.incSat
    have h3 : Quiet s s3 := h1.wf.setN.setPair_of fun hs => by exact ⟨hc' hs, hc' hs⟩
    have h4 : Quiet s s4 := h3.setN
    have h5 : Quiet s s5 := (h4.setTcm fun hm => (hm.mset (copyPages_wf (hm.mget _))).mset (copyPages_wf (hm.mget _))).update
    exact h5.setTrap.setFifo.toPair

theorem Quiet.restart (h : Quiet s t) {p cause} : Quiet s (t.restart p cause) := by
  unfold Machine.State.restart
  exact Quiet.ite h.failPair h.setPair.incSat.restore

theorem Quiet.latentFull (h : Quiet s t) {p} : Quiet s (t.latentFull p) := by
  unfold Machine.State.latentFull
  exact Quiet.ite h h.raiseEv.setPair

theorem Quiet.logEntry (h : Quiet s t) {p e} : Quiet s (t.logEntry p e) := by
  unfold Machine.State.logEntry
  exact Quiet.ite h.setLog.latentFull (Quiet.ite h.setLog.raiseEv.ckptDue h.setLog)

theorem Quiet.giveAgain (h : Quiet s t) {p vector} : Quiet.Out s (t.giveAgain p vector) := by
  unfold Machine.State.giveAgain
  split
  · exact h.out
  · exact h.whenB (fun hu => hu.setPair.leadTo.giveEvent)

theorem Quiet.execEventDelivery (h : Quiet s t) {pair vector} : Quiet.Out s (execEventDelivery pair vector t) := by
  unfold Machine.execEventDelivery
  refine Quiet.iteOut ?_ ?_
  · exact h.giveAgain
  · split
    · exact h.out
    · exact h.whenB (fun hu => hu.setPair.leadTo.giveEvent.logEntry)

theorem Quiet.exerciseNext (h : Quiet s t) {p} : Quiet s (t.exerciseNext p) := by
  unfold Machine.State.exerciseNext
  exact h.setPair

theorem Quiet.ckptWrite (h : Quiet s t) {p gt pages} : Quiet s (t.ckptWrite p gt pages) := by
  unfold Machine.State.ckptWrite
  exact (h.setPair fun hm hx => ⟨copyPages_wf hx.1, copyPages_wf hx.2⟩).setN.setN.setN.setN.wb.wf.setLog

theorem Quiet.splitAnswered (h : Quiet s t) {p c} : Quiet s ((t.setPair p { t.pair p with splitCh := Option.none }).finish c stOk []) :=
  (h.setPair_of fun hs => by exact h.pairOk hs p).finish

/-- Unfolded by its name alone, as `Quiet.staleUpdate`. -/
theorem Quiet.splitNow (h : Quiet s t) {p} : Quiet s (t.splitNow p) := by
  generalize e : State.splitNow = f
  delta Machine.State.splitNow at e
  subst e
  beta_reduce
  extract_lets +onlyGivenNames v1 v2 v
  have hv : Quiet s v := h.toPair.wb.setTrap.setTrap.setTrap.repoint.flushPort.readmitAll
  clear_value v
  split
  · exact hv.splitAnswered
  · exact hv

theorem Quiet.splitFail (h : Quiet s t) {p} : Quiet s (t.splitFail p) := by
  unfold Machine.State.splitFail
  refine .ite h ?_
  extract_lets +onlyGivenNames c x s1
  have h1 : Quiet s s1 := h.wb.raiseEv.setPair_of fun hs => by exact h.pairOk hs p
  clear_value c s1
  split
  · exact h1.finish
  · exact h1

theorem Quiet.ckptFull (h : Quiet s t) {p gt final} : Quiet s (t.ckptFull p gt final) := by
  unfold Machine.State.ckptFull
  exact h.exerciseNext.andThen fun k1 => (Quiet.ite k1.raiseEv k1).andThen fun k2 =>
      Quiet.ite ((Quiet.ite k2.setLatent.splitFail k2).raiseEv.failPair) (Quiet.ite
      (Quiet.ite k2.restart k2.setLatent.latentFull.splitFail.goLive) (k2.ckptWrite.setLatent.goLive.andThen fun k3 =>
      Quiet.ite k3.splitNow k3))

theorem Quiet.tcmFlip (h : Quiet s t) {c n} : Quiet s (t.tcmFlip c n) := by
  unfold Machine.State.tcmFlip
  exact h.setTcm fun hm => hm.mset (wf_memPut _ _ (hm.mget _))

theorem Quiet.disturbed (h : Quiet s t) {c flip} : Quiet s (t.disturbed c flip) := by
  unfold Machine.State.disturbed
  split
  · exact h.tcmFlip
  · exact h

theorem Quiet.execCheckpoint (h : Quiet s t) {pair flip} : Quiet.Out s (execCheckpoint pair flip t) := by
  unfold Machine.execCheckpoint
  refine h.whenB fun hu => ?_
  extract_lets +onlyGivenNames gt s1 s2
  have h2 : Quiet s s2 := hu.disturbed.setPair_of fun hs => by exact h.pairOk hs pair
  exact .ite (.ite h2.exerciseNext.goLive h2.exerciseNext.raiseEv.failPair) h2.ckptFull

theorem Quiet.execRestartLive (h : Quiet s t) {pair} : Quiet.Out s (execRestartLive pair t) := by
  unfold Machine.execRestartLive
  refine h.whenB fun hu => .ite ?_ (.ite hu.setLatent.toPair (.ite ?_ hu.setLatent.goLive))
  · exact (hu.setPair_of fun hs => by exact h.pairOk hs pair).toPair
  · exact (hu.setLatent.setPair_of fun hs => by exact h.pairOk hs pair).toPair

theorem Quiet.execResync (h : Quiet s t) {pair other flip} : Quiet.Out s (execResync pair other flip t) := by
  unfold Machine.execResync
  exact h.whenB (fun hu => hu.setPair.restore.disturbed)

theorem Quiet.execSlpSplit (h : Quiet s t) {ch pair} : Quiet.Out s (execSlpSplit ch pair t) := by
  unfold Machine.execSlpSplit
  exact h.mailCmd fun hu => .ite hu.finish (.ite hu.finish (.ite hu.finish (hu.wb.setPair_of fun hs => by exact hu.pairOk hs _)))

theorem Quiet.execSlpRejoin (h : Quiet s t) {ch pair} : Quiet.Out s (execSlpRejoin ch pair t) := by
  unfold Machine.execSlpRejoin
  exact h.mailCmd fun hu => .ite hu.finish (.ite hu.finish (.ite hu.finish (hu.wb.setPair_of fun hs => by exact hu.pairOk hs _)))

theorem Quiet.idleFire (h : Quiet s t) {p t'} : Quiet s (t.idleFire p t') := by
  unfold Machine.State.idleFire
  exact Quiet.ite h.setPair (Quiet.ite h.setPair.toPair h)

theorem Quiet.rejoinEnd (h : Quiet s t) {p code} : Quiet s (t.rejoinEnd p code) := by
  unfold Machine.State.rejoinEnd
  extract_lets +onlyGivenNames c x s1
  have h1 : Quiet s s1 := h.wb.setPair_of fun hs => by exact h.pairOk hs p
  clear_value c s1
  split
  · exact h1.finish
  · exact h1

theorem Quiet.rejoinFail (h : Quiet s t) {p} : Quiet s (t.rejoinFail p) := by
  unfold Machine.State.rejoinFail
  exact h.raiseEv.toPair.repoint.flushPort.readmitAll.rejoinEnd

theorem Quiet.execRejoin (h : Quiet s t) {pair flip} : Quiet.Out s (execRejoin pair flip t) := by
  unfold Machine.execRejoin
  refine h.whenB fun hu => ?_
  extract_lets +onlyGivenNames a b s1 s2 ok s3
  have hd : Quiet s s3 := ((hu.setTcm fun hm => hm.mset (hm.mget _)).update).disturbed.exerciseNext
  refine .ite hd.raiseEv.rejoinFail (.ite hd.rejoinFail ?_)
  exact hd.setTrap.setTrap.setTrap.ckptWrite.goLive.repoint.readmitAll.rejoinEnd

theorem Quiet.execRejoinTimeout (h : Quiet s t) {pair} : Quiet.Out s (execRejoinTimeout pair t) := by
  unfold Machine.execRejoinTimeout
  exact h.whenB (fun hu => hu.rejoinFail)

theorem Quiet.startPair (h : Quiet s t) {p} : Quiet s (t.startPair p) := by
  unfold Machine.State.startPair
  have h1 := h.setPair_of (p := p) (x := { dirty := List.range 256 }) fun _ => ⟨rfl, rfl⟩
  exact .ite h (.ite h1.update.toPair.ckptFull.toPair.readmitAll h1.update.toPair.ckptFull)

theorem Quiet.agrItem (h : Quiet s t) {vals i} : Quiet s (t.agrItem vals i) := by
  unfold Machine.State.agrItem
  exact Quiet.ite h.setN.raiseEv h.setN.setN

theorem Quiet.agreementIn (h : Quiet s t) {peer round origin tag words} : Quiet s (t.agreementIn peer round origin tag words) := by
  unfold Machine.State.agreementIn
  exact Quiet.ite h (Quiet.ite (Quiet.ite h.update h.update.bridgeAll) h.update)

theorem Quiet.execAgreementResult (h : Quiet s t) : Quiet.Out s (execAgreementResult t) := by
  unfold Machine.execAgreementResult
  split
  · exact h.out
  · exact h.whenB (fun hu => ((hu.foldl (fun hv => hv.raiseEv)).foldl (fun hv => hv.agrItem)).setN.update.setN)

theorem Quiet.agrCapture (h : Quiet s t) {fire words} : Quiet s (t.agrCapture fire words) := by
  unfold Machine.State.agrCapture
  exact h.wb.update.bridgeAll

end Sys2Proof.Machine
end

section
/-! PROOF. Quiet steps: the functions of Sys2Proof/Machine/Reset.lean. -/

namespace Sys2Proof.Machine

set_option Elab.async false

variable {s t u : State}

theorem Quiet.powerCause (h : Quiet s t) : Quiet s t.powerCause := by
  unfold Machine.State.powerCause
  exact h.setN.setN.setN.setN

theorem Quiet.holdUntil (h : Quiet s t) {t'} : Quiet s (t.holdUntil t') := by
  unfold Machine.State.holdUntil
  exact h.update

theorem Quiet.tallyCause (h : Quiet s t) {src detail gt} : Quiet s (t.tallyCause src detail gt) := by
  unfold Machine.State.tallyCause
  exact h.wf.setN.setN.setN

end Sys2Proof.Machine
end

section
/-! PROOF. Quiet steps: the functions of Sys2Proof/Machine/Tally.lean. -/

namespace Sys2Proof.Machine

set_option Elab.async false

variable {s t u : State}

theorem Quiet.sendSummary (h : Quiet s t) : Quiet s t.sendSummary := by
  unfold Machine.State.sendSummary
  exact h.bridgeAll

theorem Quiet.eflEval (h : Quiet s t) : Quiet s t.eflEval := by
  unfold Machine.State.eflEval
  exact (Quiet.ite (Quiet.ite h.wb.wb.wb h.wb.wb.wb.update) (Quiet.ite h.wb h.wb.wb.wb)).andThen fun k1 =>
      Quiet.ite k1 k1.sendSummary

theorem Quiet.tallyTo (h : Quiet s t) {dest src trap} : Quiet s (t.tallyTo dest src trap) := by
  unfold Machine.State.tallyTo
  split
  · exact h
  · split
    · exact h
    · exact Quiet.ite h.portEvent.used (Quiet.ite h.giveTrap h.emit)

theorem Quiet.newClear (h : Quiet s t) {req a v} (ha : a ≠ LANE_STATE.adr) : Quiet s (t.newClear req a v) := by
  have hn {n : Nat} : Quiet s (t.setN a n) := h.setReg ha
  unfold Machine.State.newClear
  dsimp only
  split
  · exact .ite hn.trapEnd hn
  · exact .ite (.ite hn.trapEnd hn) (.ite (Quiet.ite hn.trapEnd hn).portEvent.used (Quiet.ite hn.trapEnd hn).emit)

theorem Quiet.openSrc (h : Quiet s t) {r} : Quiet s (t.openSrc r) := by
  unfold Machine.State.openSrc
  exact h.setN.setN.setN.update.wf.wf.wbit.wf.andThen fun k3 => (Quiet.ite k3.wbit.wf k3).andThen fun k4 =>
      (Quiet.ite k4.hwBit.hwBit k4.hwBit).andThen fun k5 => (Quiet.ite k5.emit.giveTrap.tallyTo k5.emit).andThen fun k6 =>
      (Quiet.ite k6.tallyTo k6).sendSummary

theorem Quiet.blkReset (h : Quiet s t) {r} : Quiet s (t.blkReset r) := by
  unfold Machine.State.blkReset
  exact Quiet.ite h.bankStop (Quiet.ite (Quiet.ite h.glkBringup h) (Quiet.ite (Quiet.ite h.fbStart h) (Quiet.ite h.ctxStart h)))

theorem Quiet.execEflMinExpiry (h : Quiet s t) : Quiet.Out s (execEflMinExpiry t) := by
  unfold Machine.execEflMinExpiry
  exact h.whenB (fun hu => hu.eflEval)

theorem Quiet.execEflTestEnd (h : Quiet s t) : Quiet.Out s (execEflTestEnd t) := by
  unfold Machine.execEflTestEnd
  split
  · exact h.out
  · exact h.whenB (fun hu => hu.update.wb.eflEval)

theorem Quiet.stat0Read (h : Quiet s t) {req} : Quiet s (t.stat0Read req) := by
  unfold Machine.State.stat0Read
  exact h.update

theorem Quiet.recFirstRead (h : Quiet s t) {req source} : Quiet s (t.recFirstRead req source) := by
  unfold Machine.State.recFirstRead
  exact h.update

theorem Quiet.execTlyStat0Read (h : Quiet s t) {req} : Quiet.Out s (execTlyStat0Read req t) := by
  unfold Machine.execTlyStat0Read
  exact h.whenOn (fun hu => hu.stat0Read)

theorem Quiet.execTlyRecfirstRead (h : Quiet s t) {req source} : Quiet.Out s (execTlyRecfirstRead req source t) := by
  unfold Machine.execTlyRecfirstRead
  exact h.whenOn (fun hu => hu.recFirstRead)

theorem Quiet.fwRaise (h : Quiet s t) {req value} : Quiet s (t.fwRaise req value) := by
  unfold Machine.State.fwRaise
  exact Quiet.ite h.raiseEv h.violate

theorem Quiet.execTlyFwraise (h : Quiet s t) {req value} : Quiet.Out s (execTlyFwraise req value t) := by
  unfold Machine.execTlyFwraise
  exact h.whenOn (fun hu => hu.fwRaise)

theorem Quiet.execTlySetReaction (h : Quiet s t) {ch source cfg} : Quiet.Out s (execTlySetReaction ch source cfg t) := by
  unfold Machine.execTlySetReaction
  exact h.mailCmd fun hu => .ite hu.finish (hu.setReg (Nat.ne_of_gt (adr_above (by decide)))).eflEval.finish

theorem Quiet.execTlyEflTest (h : Quiet s t) {ch duration} : Quiet.Out s (execTlyEflTest ch duration t) := by
  unfold Machine.execTlyEflTest
  exact h.mailCmd (fun hu => Quiet.ite hu.finish hu.wb.update.eflEval.finish)

end Sys2Proof.Machine
end

section
/-! PROOF. Quiet steps: the functions of Sys2Proof/Machine/Peek.lean. -/

namespace Sys2Proof.Machine

set_option Elab.async false

variable {s t u : State}

theorem Quiet.gtLoRead (h : Quiet s t) {req} : Quiet s (t.gtLoRead req) := by
  unfold Machine.State.gtLoRead
  exact h.update

theorem Quiet.readWord (h : Quiet s t) {req a} : Quiet s (t.readWord req a) := by
  unfold Machine.State.readWord
  refine Quiet.ite ?_ ?_
  · exact h.gtLoRead
  · refine Quiet.ite ?_ ?_
    · exact h.stat0Read
    · split
      · exact h.sampaRead
      · split
        · exact h.posRead
        · split
          · exact h.update
          · exact h.update
          · exact Quiet.ite h.recFirstRead (Quiet.ite h.update h.update)

theorem Quiet.execGtLoRead (h : Quiet s t) {req} : Quiet.Out s (execGtLoRead req t) := by
  unfold Machine.execGtLoRead
  exact h.whenOn (fun hu => hu.gtLoRead)

end Sys2Proof.Machine
end

section
/-! PROOF. Quiet steps: the functions of Sys2Proof/Machine/Spindle.lean. -/

namespace Sys2Proof.Machine

set_option Elab.async false

variable {s t u : State}

theorem Quiet.alignJudge (h : Quiet s t) {d} : Quiet s (t.alignJudge d) := by
  unfold Machine.State.alignJudge
  exact (Quiet.ite h.update h).update.wb.wb.wb

theorem Quiet.pinnedRate (h : Quiet s t) {others} : Quiet s (t.pinnedRate others) := by
  unfold Machine.State.pinnedRate
  exact h.update

theorem Quiet.holdEnd (h : Quiet s t) {ext} : Quiet s (t.holdEnd ext) := by
  unfold Machine.State.holdEnd
  exact Quiet.ite (Quiet.ite h.update.wb.deassertSrc h.update) h

theorem Quiet.execSpeedUpdate (h : Quiet s t) {mops} : Quiet.Out s (execSpeedUpdate mops t) := by
  unfold Machine.execSpeedUpdate
  exact h.whenOn (fun hu => hu.wf)

theorem Quiet.grpenWrite (h : Quiet s t) {g v} : Quiet s (t.grpenWrite g v) := by
  unfold Machine.State.grpenWrite
  exact h.wf.update

theorem Quiet.execGrpenWrite (h : Quiet s t) {req group value} : Quiet.Out s (execGrpenWrite req group value t) := by
  unfold Machine.execGrpenWrite
  exact h.whenOn (fun hu => hu.granted (fun hv => hv.grpenWrite))

theorem Quiet.enTake (h : Quiet s t) {e} : Quiet s (t.enTake e) := by
  unfold Machine.State.enTake
  exact h.foldl (fun hu => (Quiet.ite hu.setEntry hu).wb)

theorem Quiet.enTakes {g l} (h : Quiet s t) : Quiet s (t.enTakes g l) := by
  induction l generalizing t with
  | nil => exact h
  | cons e l ih =>
    unfold Machine.State.enTakes
    exact .ite h (ih h.update.enTake)

theorem Quiet.execGrpenEffect (h : Quiet s t) {group} : Quiet.Out s (execGrpenEffect group t) := by
  unfold Machine.execGrpenEffect
  exact h.whenOn (fun hu => hu.enTakes)

theorem Quiet.strikeMiss (h : Quiet s t) {m cls} : Quiet s (t.strikeMiss m cls) := by
  unfold Machine.State.strikeMiss
  exact h.incSat.incSat.raiseEv

theorem Quiet.launch (h : Quiet s t) {m t' i} : Quiet.Opt s (t.launch m t' i) := by
  unfold Machine.State.launch
  dsimp only
  split
  · exact h.some
  · exact h.requestCommit
  · exact h.adcLaunch
  · exact h.lpeLaunch
  · exact h.strikePost
  · exact h.strikeSeal
  · exact h.irqTo.some
  · exact .none

theorem Quiet.overrun (h : Quiet s t) {m i} : Quiet s (t.overrun m i) := by
  unfold Machine.State.overrun
  exact h.incSat.incSat.raiseEv

theorem Quiet.ledger (h : Quiet s t) {cls margin} : Quiet s (t.ledger cls margin) := by
  unfold Machine.State.ledger
  exact h.setN.incWrap.wb

theorem Quiet.settleInst (h : Quiet s t) {m i t'} : Quiet s (t.settleInst m i t') := by
  unfold Machine.State.settleInst
  exact (Quiet.ite h.overrun h).ledger.setEntry.wb

theorem Quiet.settleDone (h : Quiet s t) {m} : Quiet s (t.settleDone m) := by
  unfold Machine.State.settleDone
  split
  · split
    · exact h.settleInst
    · exact h
  · exact h

theorem Quiet.fire (h : Quiet s t) {m t'} : Quiet s (t.fire m t') := by
  unfold Machine.State.fire
  exact h.settleDone.andThen fun k1 => Quiet.ite k1.strikeMiss ((k1.strikeMiss.getD k1.setEntry.wb.launch).andThen fun k3 =>
      Quiet.ite k3.settleDone k3)

theorem Quiet.fireSides (h : Quiet s t) {m t'} : Quiet s (t.fireSides m t') := by
  unfold Machine.State.fireSides
  exact (Quiet.ite h.agrCapture h).countLatches.andThen fun k2 => Quiet.ite k2.challenge k2

theorem Quiet.firePairs (h : Quiet s t) {m t'} : Quiet s (t.firePairs m t') := by
  unfold Machine.State.firePairs
  exact h.foldl (fun hu => (Quiet.ite hu.ckptDue hu).andThen fun k1 => Quiet.ite k1.idleFire k1)

theorem Quiet.execStrikeFire (h : Quiet s t) {entry} : Quiet.Out s (execStrikeFire entry t) := by
  unfold Machine.execStrikeFire
  split
  · exact h.out
  · exact h.whenB (fun hu => hu.fireSides.fire.setEntry.firePairs)

theorem Quiet.execStrikeComplete (h : Quiet s t) {entry} : Quiet.Out s (execStrikeComplete entry t) := by
  unfold Machine.execStrikeComplete
  exact h.whenOn (fun hu => hu.settleDone)

theorem Quiet.execStrikeDeadline (h : Quiet s t) {entry} : Quiet.Out s (execStrikeDeadline entry t) := by
  unfold Machine.execStrikeDeadline
  split
  · exact h.out
  · exact h.whenB (fun hu => hu.overrun.setEntry)

theorem Quiet.spnDone (h : Quiet s t) {m} : Quiet s (t.spnDone m) := by
  unfold Machine.State.spnDone
  split
  · exact Quiet.ite h.strikeDone h
  · exact h

theorem Quiet.execSpnDone (h : Quiet s t) {req entry} : Quiet.Out s (execSpnDone req entry t) := by
  unfold Machine.execSpnDone
  exact h.whenOn (fun hu => hu.granted (fun hv => hv.spnDone))

theorem Quiet.ledgerClear (h : Quiet s t) {mask} : Quiet s (t.ledgerClear mask) := by
  unfold Machine.State.ledgerClear
  exact h.foldl (fun hu => hu.setN.setN.setN)

theorem Quiet.execSpnLedgerClr (h : Quiet s t) {req value} : Quiet.Out s (execSpnLedgerClr req value t) := by
  unfold Machine.execSpnLedgerClr
  exact h.whenOn (fun hu => hu.headstockOnly (fun hv => hv.ledgerClear))

theorem Quiet.strikeSet (h : Quiet s t) {ch m cls action period phase target} : Quiet s
    (t.strikeSet ch m cls action period phase target) := by
  unfold Machine.State.strikeSet
  exact h.entriesTake.andThen fun k1 => Quiet.ite k1.finish (Quiet.ite k1.finish k1.setN.setN.setN.finish)

theorem Quiet.execStrikeSet (h : Quiet s t) {ch entry cls action period phase target} : Quiet.Out s
    (execStrikeSet ch entry cls action period phase target t) := by
  unfold Machine.execStrikeSet
  exact h.mailCmd (fun hu => hu.strikeSet)

end Sys2Proof.Machine
end

section
/-! PROOF. Quiet steps: the functions of Sys2Proof/Machine/Services.lean. -/

namespace Sys2Proof.Machine

set_option Elab.async false

variable {s t u : State}

theorem Quiet.svcWatch (h : Quiet s t) : Quiet s t.svcWatch := by
  unfold Machine.State.svcWatch
  refine h.updateSvc fun hv => { hv with wind := ?_, circ := ?_ }
  · dsimp only
    split
    · exact hv.wind
    · exact hv.wind
  · dsimp only
    split
    · exact hv.circ
    · exact hv.circ

theorem Quiet.svcPut (h : Quiet s t) {addr value} (ha : s.svc.Spares → addr ≠ LANE_STATE.adr) : Quiet s (t.svcPut addr value) := by
  unfold Machine.State.svcPut
  split
  · exact h.grpenWrite
  · exact h.runWrite
  · exact h.setReg_of ha

theorem Quiet.svcMasked (h : Quiet s t) {addr mask value} (ha : s.svc.Spares → addr ≠ LANE_STATE.adr) :
    Quiet s (t.svcMasked addr mask value) := h.svcPut ha

theorem Quiet.svcDelegate (h : Quiet s t) {p unit addr mask value} (ha : s.svc.Spares → addr ≠ LANE_STATE.adr) :
    Quiet s (t.svcDelegate p unit addr mask value) := by
  unfold Machine.State.svcDelegate
  have hp := h.getD (h.postBytes (q := t.steerW 14 % 256 + p) (l := svcRecord addr mask value t.svc.reqSeq
    (t.gt + 1000 * (t.steerW 14 / 2 ^ 16 % 1024))))
  refine ⟨hp.gt_eq, hp.frac_eq, hp.rate_eq, hp.slew_eq, hp.memOk, fun hs => (hp.svc_ok hs).imp_right fun ht => { ht with reqs := ?_ }⟩
  intro r hr
  rcases List.mem_append.1 hr with hr | hr
  · exact ht.reqs r hr
  · cases List.mem_singleton.1 hr
    exact ha hs

theorem Quiet.svcVote (h : Quiet s t) : Quiet s t.svcVote := by
  unfold Machine.State.svcVote
  exact h.redecide.bridgeAll.update

theorem SvcUnit.alive_prog (w : SvcUnit) : w.alive.prog = w.prog := rfl

theorem Quiet.svcOp (h : Quiet s t) {op : SvcOp} (ho : s.svc.Spares → op.Spares) : Quiet s (t.svcOp op).1 := by
  unfold Machine.State.svcOp
  split
  · exact h.moveTo
  · split <;> exact h
  · next u addr mask value =>
    have ha : s.svc.Spares → addr ≠ LANE_STATE.adr := fun hs => ho hs addr rfl
    split
    · exact h
    · split
      · exact h.svcDelegate ha
      · split
        · exact h.svcMasked ha
        · exact h.moveTo
  · exact h.ctxRestart
  · exact h.svcVote
  · exact (h.setWind (w := t.svc.wind.alive) fun hs => (h.spares hs).wind).redecide
  · exact h.setCirc (w := t.svc.circ.alive) fun hs => (h.spares hs).circ
  · exact h.moveTo
  · exact h.moveTo

/-- What an act leaves to do names what the act named. -/
theorem svcOp_spares {op : SvcOp} (ho : op.Spares) {l : List SvcOp} (hl : (t.svcOp op).2 = some l) : ∀ x ∈ l, x.Spares := by
  have again : ∀ x ∈ [op], x.Spares := List.forall_mem_singleton.2 ho
  unfold Machine.State.svcOp at hl
  split at hl
  case h_2 => split at hl <;> cases hl; exact again
  case h_3 =>
    split at hl
    · cases hl; exact again
    · split at hl
      · cases hl
      · split at hl <;> cases hl
        simp only [List.mem_cons, List.not_mem_nil, or_false, forall_eq_or_imp, forall_eq]
        exact ⟨SvcOp.spares_of_none rfl, ho, SvcOp.spares_of_none rfl⟩
  all_goals cases hl

theorem Quiet.svcOps {l : List SvcOp} (h : Quiet s t) (hl : s.svc.Spares → ∀ op ∈ l, op.Spares) :
    Quiet s (State.svcOps l t).1 ∧ (s.svc.Spares → ∀ op ∈ (State.svcOps l t).2, op.Spares) := by
  induction l generalizing t with
  | nil => exact ⟨h, fun _ _ hx => by cases hx⟩
  | cons op l ih =>
    have ho : s.svc.Spares → op.Spares := fun hs => hl hs op List.mem_cons_self
    have hr : s.svc.Spares → ∀ x ∈ l, x.Spares := fun hs x hx => hl hs x (List.mem_cons_of_mem _ hx)
    have h1 := h.svcOp ho
    unfold Machine.State.svcOps
    split
    · next u e => rw [e] at h1; exact ih h1 hr
    · next u ops e =>
      rw [e] at h1
      refine ⟨h1, fun hs x hx => (List.mem_append.1 hx).elim (fun hx => ?_) (hr hs x)⟩
      exact svcOp_spares (ho hs) (by rw [e]) x hx

theorem Quiet.svcGo (h : Quiet s t) : Quiet s t.svcGo := by
  obtain ⟨h1, l1⟩ := h.svcOps fun hs => (h.spares hs).wind
  unfold Machine.State.svcGo
  dsimp only
  generalize State.svcOps t.svc.wind.prog t = r at h1 l1 ⊢
  have k1 := h1.setWind (w := { r.1.svc.wind with prog := r.2 }) l1
  obtain ⟨h2, l2⟩ := k1.svcOps fun hs => (k1.spares hs).circ
  generalize State.svcOps _ (State.setWind _ _) = r' at h2 l2 ⊢
  have k2 := h2.setCirc (w := { r'.1.svc.circ with prog := r'.2 }) l2
  obtain ⟨h3, l3⟩ := k2.svcOps fun hs => (k2.spares hs).prog
  exact h3.setProg l3

theorem Quiet.svcDo (h : Quiet s t) {l : List SvcOp} (hl : s.svc.Spares → ∀ op ∈ l, op.Spares) : Quiet s (t.svcDo l) := by
  unfold Machine.State.svcDo
  exact (h.setProg fun hs op hx => (List.mem_append.1 hx).elim ((h.spares hs).prog op) (hl hs op)).svcGo

theorem Quiet.execDelegationDeadline (h : Quiet s t) : Quiet.Out s (execDelegationDeadline t) := by
  unfold Machine.execDelegationDeadline
  split
  · exact h.out
  next q rest hq =>
    have hr (hs : s.svc.Spares) : ∀ r ∈ q :: rest, r.addr ≠ LANE_STATE.adr := hq ▸ (h.spares hs).reqs
    refine h.whenB fun hu => ?_
    have hv := hu.setReqs fun hs r hm => hr hs r (List.mem_cons_of_mem _ hm)
    refine .ite hv (hv.raiseEv.update.svcDo fun hs op ho a ha => ?_)
    simp only [List.mem_cons, List.not_mem_nil, or_false] at ho
    rcases ho with rfl | rfl | rfl <;> cases ha
    exact hr hs q List.mem_cons_self

theorem strikePuts_spare {ms on} : ∀ op ∈ strikePuts ms on, op.Spares := fun op h => by
  obtain ⟨g, -, rfl⟩ := List.mem_map.1 h
  exact SvcOp.spares_put (adr_above (by decide))

theorem runPut_spares {b run} : (runPut b run).Spares := SvcOp.spares_put (adr_above (by decide))

theorem outOps_spare {ctxs b} : ∀ op ∈ t.outOps ctxs b, op.Spares := by
  intro op h
  simp only [State.outOps, List.mem_append, List.mem_map, List.mem_cons, List.not_mem_nil, or_false] at h
  rcases h with ((⟨u, -, rfl⟩ | ⟨u, -, rfl⟩) | h) | rfl | rfl
  · exact SvcOp.spares_of_none rfl
  · exact SvcOp.spares_of_none rfl
  · exact strikePuts_spare op h
  · exact runPut_spares
  · exact SvcOp.spares_of_none rfl

theorem inOps_spare {ctxs b us back circ} : ∀ op ∈ t.inOps ctxs b us back circ, op.Spares := by
  intro op h
  simp only [State.inOps, List.mem_append, List.mem_map, List.mem_singleton] at h
  rcases h with ((((h | rfl) | h) | ⟨c, -, rfl⟩) | rfl) | ⟨u, -, rfl⟩
  · split at h
    · obtain ⟨c, -, rfl⟩ := List.mem_map.1 h
      exact SvcOp.spares_of_none rfl
    · cases h
  · exact runPut_spares
  · exact strikePuts_spare op h
  · exact SvcOp.spares_put (adr_above (by decide))
  · exact SvcOp.spares_of_none rfl
  · exact SvcOp.spares_of_none rfl

theorem Quiet.execWindingTakeOut (h : Quiet s t) : Quiet.Out s (execWindingTakeOut t) := by
  unfold Machine.execWindingTakeOut
  refine h.whenB fun {u} hu => ?_
  extract_lets +onlyGivenNames v
  have hv : Quiet s v := hu.raiseEv.used
  exact (hv.setWind fun hs => spare_append (hv.spares hs).wind outOps_spare).svcGo

theorem Quiet.execCircuitTakeOut (h : Quiet s t) : Quiet.Out s (execCircuitTakeOut t) := by
  unfold Machine.execCircuitTakeOut
  refine h.whenB fun {u} hu => ?_
  extract_lets +onlyGivenNames v
  have hv : Quiet s v := hu.raiseEv.used
  exact (hv.setCirc fun hs => spare_append (hv.spares hs).circ outOps_spare).svcGo

theorem Quiet.windIn (h : Quiet s t) {back} {w : SvcUnit} (hw : s.svc.Spares → ∀ op ∈ w.prog, op.Spares) :
    Quiet s (t.windIn back w) := by
  unfold Machine.State.windIn
  exact (h.setWind fun hs => spare_append (hw hs) inOps_spare).svcGo

theorem Quiet.circIn (h : Quiet s t) {back} {w : SvcUnit} (hw : s.svc.Spares → ∀ op ∈ w.prog, op.Spares) :
    Quiet s (t.circIn back w) := by
  unfold Machine.State.circIn
  exact (h.setCirc fun hs => spare_append (hw hs) inOps_spare).svcGo

theorem Quiet.execWindingReturn (h : Quiet s t) : Quiet.Out s (execWindingReturn t) := by
  unfold Machine.execWindingReturn
  exact h.whenB fun hu => hu.windIn fun hs => (hu.spares hs).wind

theorem Quiet.execCircuitReturn (h : Quiet s t) : Quiet.Out s (execCircuitReturn t) := by
  unfold Machine.execCircuitReturn
  exact h.whenB fun hu => hu.circIn fun hs => (hu.spares hs).circ

theorem Quiet.execSteerWindingRestore (h : Quiet s t) {ch} : Quiet.Out s (execSteerWindingRestore ch t) := by
  unfold Machine.execSteerWindingRestore
  exact h.mailCmd fun hu => .ite hu.finish (.ite (hu.windIn fun hs => (hu.spares hs).wind).finish hu.finish)

theorem Quiet.execBrakeCircuitRestore (h : Quiet s t) {ch} : Quiet.Out s (execBrakeCircuitRestore ch t) := by
  unfold Machine.execBrakeCircuitRestore
  exact h.mailCmd fun hu => .ite hu.finish (.ite (hu.circIn fun hs => (hu.spares hs).circ).finish hu.finish)

theorem Quiet.adcAges (h : Quiet s t) : Quiet s t.adcAges := by
  unfold Machine.State.adcAges
  exact h.foldl (fun hu => hu.updateSvc)

theorem Quiet.stage (h : Quiet s t) {r v} : Quiet s (t.stage r v) := by
  unfold Machine.State.stage
  exact Quiet.ite h.memStore h

theorem Quiet.execServiceCapture (h : Quiet s t) : Quiet.Out s (execServiceCapture t) := by
  unfold Machine.execServiceCapture
  exact h.whenB (fun hu => (hu.adcAges.foldl (fun hv => hv.stage)).strikeDone)

theorem Quiet.agTol (h : Quiet s t) {r} : Quiet s (t.agTol r) := by
  unfold Machine.State.agTol
  split
  · exact h
  · exact h.updateSvc.andThen fun k1 => Quiet.ite k1.raiseEv.used k1

theorem Quiet.pressJudge (h : Quiet s t) : Quiet s t.pressJudge := by
  unfold Machine.State.pressJudge
  exact h.updateSvc

theorem Quiet.parkJudge (h : Quiet s t) : Quiet s t.parkJudge := by
  unfold Machine.State.parkJudge
  split
  · exact h
  · exact h.updateSvc

theorem Quiet.lostStep (h : Quiet s t) {c ok} : Quiet s (t.lostStep c ok) := by
  unfold Machine.State.lostStep
  split
  · exact h
  · exact Quiet.ite h.updateSvc h

theorem Quiet.carriersJudge (h : Quiet s t) : Quiet s t.carriersJudge := by
  unfold Machine.State.carriersJudge
  exact Quiet.ite h.lostStep (Quiet.ite h.lostStep h)

theorem Quiet.execServiceAgreement (h : Quiet s t) : Quiet.Out s (execServiceAgreement t) := by
  unfold Machine.execServiceAgreement
  refine h.whenB fun {u} hu => ?_
  dsimp only
  generalize hr : List.foldl _ _ _ = r
  have hq : Quiet s r := hr ▸
    ((Quiet.ite (Quiet.ite hu hu.agTol).agTol.agTol (Quiet.ite hu hu.agTol)).carriersJudge).foldl fun hv => hv.updateSvc
  exact (Quiet.ite hq.updateSvc.pressJudge hq.updateSvc).parkJudge.redecide.strikeDone

theorem Quiet.carrierPut (h : Quiet s t) {c v} : Quiet s (t.carrierPut c v) := by
  unfold Machine.State.carrierPut
  exact (h.headWrite (fun hu => hu.setN)).andThen fun k1 => Quiet.ite (k1.headWrite (fun hu => hu.grpenWrite)) k1

theorem Quiet.steerDemand (h : Quiet s t) : Quiet s t.steerDemand := by
  unfold Machine.State.steerDemand
  split
  · exact h.updateSvc
  · exact h.updateSvc.raiseEv.used

theorem Quiet.flowWords (h : Quiet s t) {r k ws} : Quiet s (t.flowWords r k ws) := by
  unfold Machine.State.flowWords
  exact h.headWrite (fun hu => hu.memStore)

theorem Quiet.flowPut (h : Quiet s t) {r ws} : Quiet s (t.flowPut r ws) := by
  unfold Machine.State.flowPut
  exact h.flowWords

theorem Quiet.flowPut1 (h : Quiet s t) {r k v} : Quiet s (t.flowPut1 r k v) := by
  unfold Machine.State.flowPut1
  split
  · exact h.flowWords
  · exact h

theorem Quiet.carrierOpt (h : Quiet s t) {c v} : Quiet s (t.carrierOpt c v) := by
  unfold Machine.State.carrierOpt
  split
  · exact h.carrierPut
  · exact h

theorem Quiet.outerRun (h : Quiet s t) : Quiet s t.outerRun := by
  have auto {u m v : Nat} : (SvcOp.put u (LPE_CTXCTL.adr t.outerCtx) m v).Spares := SvcOp.spares_put (adr_above (by decide))
  have man {u m v : Nat} : (SvcOp.put u (LPE_CTXMAN.adr t.outerCtx) m v).Spares := SvcOp.spares_put (adr_above (by decide))
  unfold Machine.State.outerRun
  dsimp only
  refine .ite (h.svcDo fun _ => List.forall_mem_singleton.2 auto) ?_
  split
  · exact h.updateSvc
  · exact .ite (h.updateSvc.svcDo fun _ => List.forall_mem_singleton.2 auto)
      (.ite (h.updateSvc.svcDo fun _ => spares_pair man auto) (h.updateSvc.svcDo fun _ => List.forall_mem_singleton.2 man))

theorem Quiet.windStart (h : Quiet s t) {fed} : Quiet s (t.windStart fed) := by
  unfold Machine.State.windStart
  exact .ite (h.windIn fun hs => (h.spares hs).wind) h

theorem Quiet.outerLaw (h : Quiet s t) : Quiet s t.outerLaw := by
  unfold Machine.State.outerLaw
  exact Quiet.ite h.outerRun h

theorem Quiet.steerStatus (h : Quiet s t) : Quiet s t.steerStatus := by
  unfold Machine.State.steerStatus
  exact h.flowPut.flowPut1.flowPut1.flowPut1

theorem Quiet.lawActuator (h : Quiet s t) : Quiet s t.lawActuator := by
  unfold Machine.State.lawActuator
  exact h.carrierOpt.steerDemand.carrierOpt.windStart.outerLaw.steerStatus

theorem Quiet.cabFlow (h : Quiet s t) : Quiet s t.cabFlow := by
  unfold Machine.State.cabFlow
  exact h.flowPut1.flowPut1.flowPut1.flowPut1

theorem Quiet.lawHandwheel (h : Quiet s t) : Quiet s t.lawHandwheel := by
  unfold Machine.State.lawHandwheel
  exact h.carrierOpt.windStart.cabFlow

theorem Quiet.svcRaise (h : Quiet s t) {c n} : Quiet s (t.svcRaise c n) := by
  unfold Machine.State.svcRaise
  exact Quiet.ite h.raiseEv.used h

theorem Quiet.brakeFlows (h : Quiet s t) {o} : Quiet s (t.brakeFlows o) := by
  unfold Machine.State.brakeFlows
  exact Quiet.ite h.flowPut.flowPut h.flowPut

theorem Quiet.circStart (h : Quiet s t) : Quiet s t.circStart := by
  unfold Machine.State.circStart
  exact .ite (h.circIn fun hs => (h.spares hs).circ) h

theorem Quiet.lawBrake (h : Quiet s t) : Quiet s t.lawBrake := by
  unfold Machine.State.lawBrake
  exact h.svcRaise.svcRaise.updateSvc.carrierOpt.circStart.brakeFlows

theorem Quiet.springLaw (h : Quiet s t) : Quiet s t.springLaw := by
  unfold Machine.State.springLaw
  exact h.springRule.andThen fun k1 => Quiet.ite k1 (Quiet.ite k1 (Quiet.ite k1 k1.outReq))

theorem Quiet.execServiceLaw (h : Quiet s t) : Quiet.Out s (execServiceLaw t) := by
  unfold Machine.execServiceLaw
  exact h.whenB (fun hu => (Quiet.ite hu.lawActuator (Quiet.ite hu.lawHandwheel hu)).andThen fun k1 =>
      (Quiet.ite k1.lawBrake k1).springLaw.strikeDone)

theorem Quiet.execSvcStatus (h : Quiet s t) {ch} : Quiet.Out s (execSvcStatus ch t) := by
  unfold Machine.execSvcStatus
  exact h.mailCmd (fun hu => hu.used.finish)

end Sys2Proof.Machine
end

section
/-! PROOF. Quiet steps: the functions of Sys2Proof/Machine/Security.lean. -/

namespace Sys2Proof.Machine

set_option Elab.async false

variable {s t u : State}

theorem Quiet.setProc (h : Quiet s t) {p} : Quiet s (t.setProc p) := by
  unfold Machine.State.setProc
  exact h.update

theorem Quiet.procEnd (h : Quiet s t) {p status payload} : Quiet s (t.procEnd p status payload) := by
  unfold Machine.State.procEnd
  dsimp only
  split
  · exact h.setProc.finish
  · exact h.setProc

theorem Quiet.recovered (h : Quiet s t) {op step outcome} : Quiet s (t.recovered op step outcome) := by
  unfold Machine.State.recovered
  exact h.raiseEv.setN

theorem Quiet.execCmsLoad (h : Quiet s t) {ch offset data} : Quiet.Out s (execCmsLoad ch offset data t) := by
  unfold Machine.execCmsLoad
  exact h.mailCmd (fun hu => Quiet.ite hu.finish (Quiet.ite hu.finish (Quiet.ite hu.finish hu.update.wf.finish)))

theorem Quiet.execCmsAbort (h : Quiet s t) {ch} : Quiet.Out s (execCmsAbort ch t) := by
  unfold Machine.execCmsAbort
  exact h.mailCmd (fun hu => Quiet.ite hu.finish hu.update.wf.finish)

theorem Quiet.execCmsRead (h : Quiet s t) {ch offset count} : Quiet.Out s (execCmsRead ch offset count t) := by
  unfold Machine.execCmsRead
  exact h.mailCmd (fun hu => Quiet.ite hu.finish hu.finish)

theorem Quiet.execCmsStatus (h : Quiet s t) {ch} : Quiet.Out s (execCmsStatus ch t) := by
  unfold Machine.execCmsStatus
  exact h.mailCmd (fun hu => hu.finish)

theorem Quiet.checkRefused (h : Quiet s t) {lane rule ofs} : Quiet s (t.checkRefused lane rule ofs) := by
  unfold Machine.State.checkRefused
  dsimp only
  split
  · exact h.update.finish
  · exact h.update

theorem Quiet.checkEnd (h : Quiet s t) {status} : Quiet s (t.checkEnd status) := by
  unfold Machine.State.checkEnd
  split
  · exact h.update.finish
  · exact h

theorem Quiet.checkDone (h : Quiet s t) {d} : Quiet s (t.checkDone d) := by
  unfold Machine.State.checkDone
  dsimp only
  split
  · exact (Quiet.ite h.update.wf h.update).used.finish
  · exact (Quiet.ite h.update.wf h.update)

theorem Quiet.checkFound (h : Quiet s t) {lane rule ofs} : Quiet s (t.checkFound lane rule ofs) := by
  unfold Machine.State.checkFound
  exact h.bridgeAll.checkRefused

theorem Quiet.checkTurn (h : Quiet s t) {chain count profs cap found} : Quiet s (t.checkTurn chain count profs cap found) := by
  unfold Machine.State.checkTurn
  dsimp only
  refine Quiet.ite ?_ ?_
  · split
    · exact h.checkFound
    · exact h.bridgeAll.checkDone
  · exact h.bridgeTo

theorem Quiet.withPeers (h : Quiet s t) {ch k} (hk : ∀ {u}, Quiet s u → Quiet s (k u)) : Quiet s (t.withPeers ch k) := by
  unfold Machine.State.withPeers
  exact Quiet.ite h.finish (hk h)

theorem Quiet.execCmsCheck (h : Quiet s t) {ch} : Quiet.Out s (execCmsCheck ch t) := by
  unfold Machine.execCmsCheck
  exact h.mailCmd (fun hu => Quiet.ite hu.finish (hu.withPeers (fun hv => Quiet.ite hv.update.checkTurn hv.update.bridgeTo)))

theorem Quiet.commitBegin (h : Quiet s t) {ch} : Quiet s (t.commitBegin ch) := by
  unfold Machine.State.commitBegin
  exact h.setProc.wf.outReq

theorem Quiet.execCmsConfirm (h : Quiet s t) {ch chars} : Quiet.Out s (execCmsConfirm ch chars t) := by
  unfold Machine.execCmsConfirm
  exact h.mailCmd (fun hu => Quiet.ite hu.finish (hu.withPeers (fun hv => Quiet.ite hv.used.finish (Quiet.ite
      (Quiet.ite hv.used.finish hv.used.finish) (Quiet.ite hv.used.finish
      (Quiet.ite hv.used.finish hv.used.bridgeAll.commitBegin))))))

theorem Quiet.commitGo (h : Quiet s t) {p} : Quiet s (t.commitGo p) := by
  unfold Machine.State.commitGo
  exact Quiet.ite h.setProc h.setProc

theorem Quiet.commitAbort (h : Quiet s t) {p} : Quiet s (t.commitAbort p) := by
  unfold Machine.State.commitAbort
  exact h.commitNow.wf.andThen fun k1 => (Quiet.ite k1.update.wb.recovered k1).procEnd

theorem Quiet.commitActivate (h : Quiet s t) {p} : Quiet s (t.commitActivate p) := by
  unfold Machine.State.commitActivate
  exact h.update.activateImage.nodeFollow.starDly.eflEval.setV.andThen fun k1 => (Quiet.ite k1.wf.wb.recovered k1.wf.wb).procEnd

theorem Quiet.commitStep (h : Quiet s t) {p} : Quiet s (t.commitStep p) := by
  unfold Machine.State.commitStep
  dsimp only
  split
  · exact h.commitRec.setProc
  · exact h.update.setProc
  · exact h.update.setProc
  · exact h.update.setProc
  · exact h.setProc
  · exact h.commitRec.bridgeAll.commitGo
  · exact h.commitRec.bridgeAll.setProc
  · exact h.notch.setProc
  · exact h.commitRec.notchLog.setProc
  · exact h.commitActivate
  · exact h

theorem Quiet.commitIn (h : Quiet s t) {peer msg} : Quiet s (t.commitIn peer msg) := by
  unfold Machine.State.commitIn
  split
  · exact h
  · exact Quiet.ite h (Quiet.ite h.commitGo (Quiet.ite h.setProc h.setProc))

theorem Quiet.execCommitWaitTimeout (h : Quiet s t) : Quiet.Out s (execCommitWaitTimeout t) := by
  unfold Machine.execCommitWaitTimeout
  split
  · exact h.out
  · exact h.whenB (fun hu => hu.commitAbort.setProc)

theorem Quiet.execSecNonce (h : Quiet s t) {ch} : Quiet.Out s (execSecNonce ch t) := by
  unfold Machine.execSecNonce
  exact h.mailCmd (fun hu => hu.update.used.finish)

theorem Quiet.execNonceExpiry (h : Quiet s t) : Quiet.Out s (execNonceExpiry t) := by
  unfold Machine.execNonceExpiry
  split
  · exact h.out
  · exact h.whenB (fun hu => hu.nonceUsed)

theorem Quiet.execSecAttest (h : Quiet s t) {ch nonce} : Quiet.Out s (execSecAttest ch nonce t) := by
  unfold Machine.execSecAttest
  exact h.mailCmd (fun hu => hu.finish)

theorem Quiet.execSecCertRead (h : Quiet s t) {ch} : Quiet.Out s (execSecCertRead ch t) := by
  unfold Machine.execSecCertRead
  exact h.mailCmd (fun hu => hu.finish)

theorem Quiet.execNchLogRead (h : Quiet s t) {ch entry} : Quiet.Out s (execNchLogRead ch entry t) := by
  unfold Machine.execNchLogRead
  refine h.mailCmd (fun hu => ?_)
  split
  · exact hu.finish
  · exact hu.finish

theorem Quiet.execSecInjectToken (h : Quiet s t) {ch token} : Quiet.Out s (execSecInjectToken ch token t) := by
  unfold Machine.execSecInjectToken
  exact h.mailCmd (fun hu => Quiet.ite hu.finish (Quiet.ite hu.nonceUsed.update.setN.finish hu.nonceUsed.finish))

theorem Quiet.execInjectTokenLapse (h : Quiet s t) : Quiet.Out s (execInjectTokenLapse t) := by
  unfold Machine.execInjectTokenLapse
  split
  · exact h.out
  · exact h.whenB (fun hu => hu.endToken)

theorem Quiet.orderBegin (h : Quiet s t) {kind arg ch} : Quiet s (t.orderBegin kind arg ch) := by
  unfold Machine.State.orderBegin
  exact h.setProc.outReq

theorem Quiet.orderCmd (h : Quiet s t) {ch kind order k} (hk : ∀ {u}, Quiet s u → Quiet s (k u)) : Quiet s
    (t.orderCmd ch kind order k) := by
  unfold Machine.State.orderCmd
  exact Quiet.ite h.finish (Quiet.ite h.finish (Quiet.ite (hk h.nonceUsed) h.nonceUsed.finish))

theorem Quiet.execSecDebugDisable (h : Quiet s t) {ch order} : Quiet.Out s (execSecDebugDisable ch order t) := by
  unfold Machine.execSecDebugDisable
  exact h.mailCmd (fun hu => hu.orderCmd (fun hv => hv.orderBegin))

theorem Quiet.execSecRootRevoke (h : Quiet s t) {ch order} : Quiet.Out s (execSecRootRevoke ch order t) := by
  unfold Machine.execSecRootRevoke
  exact h.mailCmd (fun hu => hu.orderCmd (fun hv => Quiet.ite hv.orderBegin hv.finish))

theorem Quiet.execSecRekey (h : Quiet s t) {ch order} : Quiet.Out s (execSecRekey ch order t) := by
  unfold Machine.execSecRekey
  exact h.mailCmd (fun hu => hu.orderCmd (fun hv => hv.orderBegin))

theorem Quiet.execSecProfileLock (h : Quiet s t) {ch order} : Quiet.Out s (execSecProfileLock ch order t) := by
  unfold Machine.execSecProfileLock
  exact h.mailCmd (fun hu => Quiet.ite hu.finish (hu.withPeers (fun hv => hv.orderCmd (fun hw => Quiet.ite hw.used.finish
      (Quiet.ite hw.used.finish hw.used.bridgeAll.orderBegin)))))

theorem Quiet.lockIn (h : Quiet s t) {order} : Quiet s (t.lockIn order) := by
  unfold Machine.State.lockIn
  exact Quiet.ite h.orderBegin h

theorem Quiet.bankErase (h : Quiet s t) {b} : Quiet s (t.bankErase b) := by
  unfold Machine.State.bankErase
  exact h.update

theorem Quiet.updDrop (h : Quiet s t) {b} : Quiet s (t.updDrop b) := by
  unfold Machine.State.updDrop
  exact h.updNow.update

theorem Quiet.execUpdBegin (h : Quiet s t) {ch image size} : Quiet.Out s (execUpdBegin ch image size t) := by
  unfold Machine.execUpdBegin
  exact h.mailCmd (fun hu => Quiet.ite hu.finish (Quiet.ite hu.finish (Quiet.ite hu.finish hu.setProc)))

theorem Quiet.openStep (h : Quiet s t) {p} : Quiet s (t.openStep p) := by
  unfold Machine.State.openStep
  dsimp only
  split
  · exact h.updRec.setProc
  · exact h.bankErase.setProc
  · exact h.update.update.bridgeAll.procEnd

theorem Quiet.execUpdWrite (h : Quiet s t) {ch offset data} : Quiet.Out s (execUpdWrite ch offset data t) := by
  unfold Machine.execUpdWrite
  exact h.mailCmd (fun hu => Quiet.ite hu.finish (Quiet.ite hu.finish hu.update.update.finish))

theorem Quiet.execUpdVerify (h : Quiet s t) {ch} : Quiet.Out s (execUpdVerify ch t) := by
  unfold Machine.execUpdVerify
  exact h.mailCmd (fun hu => hu.update.finish)

theorem Quiet.execUpdActivate (h : Quiet s t) {ch} : Quiet.Out s (execUpdActivate ch t) := by
  unfold Machine.execUpdActivate
  exact h.mailCmd (fun hu => Quiet.ite hu.finish hu.setProc)

theorem Quiet.execUpdAbort (h : Quiet s t) {ch} : Quiet.Out s (execUpdAbort ch t) := by
  unfold Machine.execUpdAbort
  exact h.mailCmd (fun hu => Quiet.ite hu.finish hu.updDrop.update.bridgeAll.finish)

theorem Quiet.execUpdStatus (h : Quiet s t) {ch} : Quiet.Out s (execUpdStatus ch t) := by
  unfold Machine.execUpdStatus
  exact h.mailCmd (fun hu => hu.finish)

theorem Quiet.procFail (h : Quiet s t) {p} : Quiet s (t.procFail p) := by
  unfold Machine.State.procFail
  exact Quiet.ite (Quiet.ite h (Quiet.ite h.setProc h.commitAbort)) (Quiet.ite (Quiet.ite h (Quiet.ite h.setProc h.procEnd))
      (Quiet.ite h.updDrop.procEnd h.procEnd))

end Sys2Proof.Machine
end

section
/-! PROOF. Quiet steps: the functions of Sys2Proof/Machine/Lane.lean. -/

namespace Sys2Proof.Machine

set_option Elab.async false

variable {s t u : State}

theorem Quiet.heartbeat (h : Quiet s t) : Quiet s t.heartbeat := by
  unfold Machine.State.heartbeat
  exact h.bridgeAll.update

theorem Quiet.readyJudge (h : Quiet s t) : Quiet s t.readyJudge := by
  unfold Machine.State.readyJudge
  exact Quiet.ite (h.update.foldl (fun hu => hu.setPeer)) (Quiet.ite h.update h)

theorem Quiet.serveJudge (h : Quiet s t) : Quiet s t.serveJudge := by
  unfold Machine.State.serveJudge
  dsimp only
  refine Quiet.ite ?_ ?_
  · exact h
  · refine Quiet.update ?_
    split
    · refine Quiet.ite ?_ ?_
      · split
        · exact Quiet.ite h h.raiseEv
        · exact h
      · refine Quiet.raiseEv ?_
        split
        · exact Quiet.ite h h.raiseEv
        · exact h
    · split
      · exact Quiet.ite h h.raiseEv
      · exact h

theorem Quiet.execHeartbeatSend (h : Quiet s t) : Quiet.Out s (execHeartbeatSend t) := by
  unfold Machine.execHeartbeatSend
  exact h.whenB (fun hu => hu.readyJudge.heartbeat)

theorem Quiet.bridgeDeclareUp (h : Quiet s t) {k} : Quiet s (t.bridgeDeclareUp k) := by
  unfold Machine.State.bridgeDeclareUp
  exact h.wbit.wb.setPeer.andThen fun k1 => Quiet.ite k1.deassertSrc k1

theorem Quiet.peerFields (h : Quiet s t) {k h'} : Quiet s (t.peerFields k h') := by
  unfold Machine.State.peerFields
  exact h.setPeer.wf.wf.wf.andThen fun k1 => Quiet.ite k1.wbit.bridgeDeclareUp k1.wbit

theorem Quiet.jointFields (h : Quiet s t) {k h'} : Quiet s (t.jointFields k h') := by
  unfold Machine.State.jointFields
  exact Quiet.ite h.setRdmPeer h

theorem Quiet.resolvePend (h : Quiet s t) {h'} : Quiet s (t.resolvePend h') := by
  unfold Machine.State.resolvePend
  split
  · exact h
  · exact Quiet.ite h (Quiet.ite h.setProc h.commitAbort)

theorem Quiet.heartbeatIn (h : Quiet s t) {k payload crcOk} : Quiet s (t.heartbeatIn k payload crcOk) := by
  unfold Machine.State.heartbeatIn
  exact Quiet.ite h (Quiet.ite h.incSat (h.peerFields.jointFields.andThen fun k1 => (Quiet.ite k1.resolvePend k1).andThen fun k2 =>
      (Quiet.ite k2.checkEnd k2).serveJudge.readyJudge.andThen fun k4 => Quiet.ite k4.redecide k4))

theorem Quiet.timeIn (h : Quiet s t) {k offset net} : Quiet s (t.timeIn k offset net) := by
  unfold Machine.State.timeIn
  exact Quiet.ite h h.setPeer.setN

theorem Quiet.summaryIn (h : Quiet s t) {k eflLow faults} : Quiet s (t.summaryIn k eflLow faults) := by
  unfold Machine.State.summaryIn
  exact Quiet.ite h h.setPeer

theorem Quiet.moduleIn (h : Quiet s t) {k msg} : Quiet s (t.moduleIn k msg) := by
  unfold Machine.State.moduleIn
  refine Quiet.ite ?_ ?_
  · exact h
  · split
    · exact Quiet.ite h.bridgeAll.checkEnd (Quiet.ite (Quiet.ite h.checkTurn h) (Quiet.ite h.checkTurn h))
    · exact h.checkEnd
    · exact h.checkDone
    · exact h.checkRefused
    · exact Quiet.ite h h.commitBegin
    · exact h.lockIn

theorem Quiet.bridgeRun (h : Quiet s t) {c} : Quiet s (bridgeRun c t) := by
  unfold Machine.bridgeRun
  split
  · exact h.heartbeatIn
  · exact h.timeIn
  · exact h.summaryIn
  · exact h.moduleIn
  · exact h.agreementIn
  · exact h.voteIn
  · exact Quiet.ite h.commitIn h
  · exact Quiet.ite h.setPeer h
  · exact h

theorem Quiet.bridgeRx (h : Quiet s t) {k cls c} : Quiet.Out s (t.bridgeRx k cls c) := by
  unfold Machine.State.bridgeRx
  exact h.whenB (fun hu => hu.used.recvInj (fun hv => hv.bridgeRun))

theorem Quiet.execHeartbeatReceive (h : Quiet s t) {peer payload crcOk} : Quiet.Out s
    (execHeartbeatReceive peer payload crcOk t) := by
  unfold Machine.execHeartbeatReceive
  exact h.bridgeRx

theorem Quiet.execTimeMessageReceive (h : Quiet s t) {peer offset netOffset} : Quiet.Out s
    (execTimeMessageReceive peer offset netOffset t) := by
  unfold Machine.execTimeMessageReceive
  exact h.bridgeRx

theorem Quiet.execSummaryReceive (h : Quiet s t) {peer eflLow faults} : Quiet.Out s (execSummaryReceive peer eflLow faults t) := by
  unfold Machine.execSummaryReceive
  exact h.bridgeRx

theorem Quiet.execModuleCommandReceive (h : Quiet s t) {peer msg} : Quiet.Out s (execModuleCommandReceive peer msg t) := by
  unfold Machine.execModuleCommandReceive
  exact h.bridgeRx

theorem Quiet.execAgreementReceive (h : Quiet s t) {peer round origin tag words} : Quiet.Out s
    (execAgreementReceive peer round origin tag words t) := by
  unfold Machine.execAgreementReceive
  exact h.bridgeRx

theorem Quiet.execVoteReceive (h : Quiet s t) {peer vote} : Quiet.Out s (execVoteReceive peer vote t) := by
  unfold Machine.execVoteReceive
  exact h.bridgeRx

theorem Quiet.execCommitPeerMessage (h : Quiet s t) {peer msg} : Quiet.Out s (execCommitPeerMessage peer msg t) := by
  unfold Machine.execCommitPeerMessage
  exact h.bridgeRx

theorem Quiet.execUpdateCoordinationReceive (h : Quiet s t) {peer sessionOpen} : Quiet.Out s
    (execUpdateCoordinationReceive peer sessionOpen t) := by
  unfold Machine.execUpdateCoordinationReceive
  exact h.bridgeRx

theorem Quiet.raiseLoss (h : Quiet s t) {k} : Quiet s (t.raiseLoss k) := by
  unfold Machine.State.raiseLoss
  exact Quiet.ite h.assertSrc h.update

theorem Quiet.execBridgeLossTimeout (h : Quiet s t) {peer} : Quiet.Out s (execBridgeLossTimeout peer t) := by
  unfold Machine.execBridgeLossTimeout
  exact h.whenB (fun hu => hu.wbit.wbit.wb.incSat.setPeer.setN.raiseLoss.checkEnd.readyJudge.redecide)

theorem Quiet.execAccessFault (h : Quiet s t) {req addr write} : Quiet.Out s (execAccessFault req addr write t) := by
  unfold Machine.execAccessFault
  exact h.whenB (fun hu => hu.accessFault.andThen fun k1 => Quiet.ite k1 k1.update)

theorem Quiet.execLaneGrant (h : Quiet s t) {ch unit owner} : Quiet.Out s (execLaneGrant ch unit owner t) := by
  unfold Machine.execLaneGrant
  exact h.mailCmd (fun hu => Quiet.ite hu.finish (Quiet.ite hu.finish (Quiet.ite hu.finish (Quiet.ite hu.finish
      (Quiet.ite hu.finish hu.startMove)))))

theorem Quiet.execGrantDrainDone (h : Quiet s t) {unit} : Quiet.Out s (execGrantDrainDone unit t) := by
  unfold Machine.execGrantDrainDone
  dsimp only
  split
  · exact h.out
  · refine h.whenOn (fun hu => ?_)
    split
    · exact hu.endMove.readmitAll.svcGo.finish
    · exact hu.endMove.readmitAll.svcGo

theorem Quiet.execLaneInfo (h : Quiet s t) {ch} : Quiet.Out s (execLaneInfo ch t) := by
  unfold Machine.execLaneInfo
  exact h.mailCmd (fun hu => hu.finish)

end Sys2Proof.Machine
end

section
/-! PROOF. Quiet steps: the functions of Sys2Proof/Machine/Boot.lean. -/

namespace Sys2Proof.Machine

set_option Elab.async false

variable {s t u : State}

theorem Quiet.loadSeg (h : Quiet s t) {keys seg} : Quiet s (t.loadSeg keys seg) := by
  unfold Machine.State.loadSeg
  exact .ite h.memStore (.ite (h.setTcm fun hm => hm.foldl fun hn => hn.mset (wf_memPuts _ _ (hn.mget _))) h)

theorem Quiet.loadImage (h : Quiet s t) {bank type keys} : Quiet s (t.loadImage bank type keys) := by
  unfold Machine.State.loadImage
  exact h.foldl (fun hu => hu.loadSeg)

theorem Quiet.bootBank (h : Quiet s t) : Quiet s t.bootBank.1 := by
  unfold Machine.State.bootBank
  dsimp only
  split
  · exact h
  · exact Quiet.iteFst h.updNow (Quiet.iteFst h.updNow.recovered (Quiet.iteFst h.updDrop.recovered h))

theorem Quiet.imageReject (h : Quiet s t) {type fail} : Quiet s (t.imageReject type fail) := by
  unfold Machine.State.imageReject
  exact h.raiseEv.wf

theorem Quiet.startHeadstock (h : Quiet s t) {bank trial fallback} : Quiet s (t.startHeadstock bank trial fallback) := by
  unfold Machine.State.startHeadstock
  refine Quiet.loadImage (Quiet.wf_apart (Quiet.wf_apart ?_ (.inl (by decide))) (.inl (by decide)))
  exact h.update.wf.wb.wb

theorem Quiet.romBoot (h : Quiet s t) : Quiet s t.romBoot := by
  unfold Machine.State.romBoot
  exact Quiet.ite h.bootBank.startHeadstock (h.bootBank.imageReject.andThen fun k1 =>
      (Quiet.ite k1.updNow.recovered k1).andThen fun k2 => Quiet.ite k2.startHeadstock k2.wf.update)

theorem Quiet.bootCommit (h : Quiet s t) : Quiet s t.bootCommit := by
  unfold Machine.State.bootCommit
  split
  · exact h
  · exact Quiet.ite h.commitNow.notchLog.used.recovered (Quiet.ite h.update.wb (Quiet.ite h.commitNow.recovered h))

theorem Quiet.bootOrder (h : Quiet s t) : Quiet s t.bootOrder := by
  unfold Machine.State.bootOrder
  split
  · exact h
  · exact Quiet.ite h.journalNow.orderDone.used.recovered h

theorem Quiet.bootSet (h : Quiet s t) : Quiet s t.bootSet := by
  unfold Machine.State.bootSet
  split
  · exact h
  · exact h.update.bootImage.setV

theorem Quiet.appBoot (h : Quiet s t) : Quiet s t.appBoot := by
  unfold Machine.State.appBoot
  exact Quiet.ite h.imageReject.installCerts (h.update.wb.andThen fun k1 =>
      (Quiet.ite k1.updNow.update k1).installCerts.loadImage.foldl (fun hu => hu.startPair))

theorem Quiet.startBlocks (h : Quiet s t) : Quiet s t.startBlocks := by
  unfold Machine.State.startBlocks
  exact h.starStart.startUnits.inputsLive

/-- Self-test clears memory. -/
theorem Quiet.clearMem (h : Quiet s t) : Quiet s { t with mem := [] } :=
  h.trans ⟨rfl, rfl, rfl, rfl, fun hm => by
    obtain ⟨-, htcm, hslp⟩ := hm
    exact ⟨rfl, htcm, hslp⟩, fun hs => ⟨rfl, hs⟩⟩

theorem Quiet.selfStep {r} {x : State × Nat} {k} (h : Quiet s x.1) : Quiet s (State.selfStep r x k).1 := by
  obtain ⟨v, f⟩ := x
  unfold Machine.State.selfStep
  dsimp only
  split
  · exact h
  · exact Quiet.clearMem h
  · exact Quiet.setTcm h fun _ _ _ hm => by cases hm
  · exact h
  · exact h
  · exact h
  · exact Quiet.foldl h fun hu => hu.emit
  · exact Quiet.ite (Quiet.raiseEv h) h

theorem Quiet.selfSteps (h : Quiet s t) {r} : Quiet s (t.selfSteps r).1 := by
  unfold Machine.State.selfSteps
  exact Quiet.foldl_fst h fun hy => hy.selfStep

theorem Quiet.execNetwaitExpiry (h : Quiet s t) : Quiet.Out s (execNetwaitExpiry t) := by
  unfold Machine.execNetwaitExpiry
  exact h.whenB (fun hu => hu.readyJudge)

theorem Quiet.execPeerWaitTimeout (h : Quiet s t) {peer} : Quiet.Out s (execPeerWaitTimeout peer t) := by
  unfold Machine.execPeerWaitTimeout
  exact h.whenB (fun hu => hu.setPeer)

theorem Quiet.followStart (h : Quiet s t) : Quiet s t.followStart := by
  unfold Machine.State.followStart
  have hp {u c m v : Nat} : ∀ op ∈ [SvcOp.put u (LPE_CTXCTL.adr c) m v], op.Spares :=
    List.forall_mem_singleton.2 (SvcOp.spares_put (adr_above (by decide)))
  exact .ite (h.updateSvc.svcDo fun _ => hp) h.updateSvc

theorem Quiet.adoptMembers (h : Quiet s t) : Quiet s t.adoptMembers := by
  unfold Machine.State.adoptMembers
  refine h.foldl (fun hu => ?_)
  split
  · exact hu.adoptVote
  · exact hu

end Sys2Proof.Machine
end

section
/-! PROOF. Quiet steps: the functions of Sys2Proof/Machine/Can.lean. -/

namespace Sys2Proof.Machine

set_option Elab.async false

variable {s t u : State}

theorem Quiet.canLevel (h : Quiet s t) {n} : Quiet s (t.canLevel n) := by
  unfold Machine.State.canLevel
  exact h.wf

theorem Quiet.canRxErr (h : Quiet s t) {n d} : Quiet s (t.canRxErr n d) := by
  unfold Machine.State.canRxErr
  exact h.wf.canLevel

theorem Quiet.canRxGood (h : Quiet s t) {n} : Quiet s (t.canRxGood n) := by
  unfold Machine.State.canRxGood
  exact h.wf.canLevel

theorem Quiet.canStore (h : Quiet s t) {n f} : Quiet s (t.canStore n f) := by
  unfold Machine.State.canStore
  dsimp only
  refine Quiet.ite ?_ ?_
  · exact h.incSat
  · split
    · next u hu => exact h.postBytes hu
    · exact h.post.incSat

theorem Quiet.execCanReceive (h : Quiet s t) {ctl frame} : Quiet.Out s (execCanReceive ctl frame t) := by
  unfold Machine.execCanReceive
  refine h.whenB (fun hu => ?_)
  split
  · exact hu.canRxGood.canStore
  · exact hu.canRxErr
  · exact hu.canRxErr
  · exact hu

theorem Quiet.canReturn (h : Quiet s t) {n} : Quiet s (t.canReturn n) := by
  unfold Machine.State.canReturn
  exact h.take.giveBack

theorem Quiet.busOff (h : Quiet s t) {n} : Quiet s (t.busOff n) := by
  unfold Machine.State.busOff
  exact (Quiet.ite h.canReturn h).wf.wf

theorem Quiet.canTxErr (h : Quiet s t) {n} : Quiet s (t.canTxErr n) := by
  unfold Machine.State.canTxErr
  exact Quiet.ite h.busOff h.wf.canLevel

theorem Quiet.execCanTransmit (h : Quiet s t) {sending} : Quiet.Out s (execCanTransmit sending t) := by
  unfold Machine.execCanTransmit
  dsimp only
  split
  · exact h.out
  · refine h.whenB (fun hu => ?_)
    refine Quiet.ite ?_ ?_
    · exact hu.canReturn
    · split
      · exact hu.canReturn.wf.canLevel.emit
      · exact hu.canTxErr
      · exact hu.canTxErr
      · exact hu

theorem Quiet.execCanBusOff (h : Quiet s t) {ctl} : Quiet.Out s (execCanBusOff ctl t) := by
  unfold Machine.execCanBusOff
  exact h.whenB (fun hu => hu.busOff)

theorem Quiet.canCtl (h : Quiet s t) {n start stop} : Quiet s (t.canCtl n start stop) := by
  unfold Machine.State.canCtl
  exact Quiet.ite h ((Quiet.ite h (Quiet.ite h.canLevel (Quiet.ite h.update h))).andThen fun k1 =>
      Quiet.ite k1 (Quiet.ite k1.update k1.update.wf))

theorem Quiet.execCanStart (h : Quiet s t) {req ctl} : Quiet.Out s (execCanStart req ctl t) := by
  unfold Machine.execCanStart
  exact h.whenOn (fun hu => hu.granted (fun hv => hv.canCtl))

theorem Quiet.execCanStop (h : Quiet s t) {req ctl} : Quiet.Out s (execCanStop req ctl t) := by
  unfold Machine.execCanStop
  exact h.whenOn (fun hu => hu.granted (fun hv => hv.canCtl))

theorem Quiet.execBusOffRecovery (h : Quiet s t) {ctl} : Quiet.Out s (execBusOffRecovery ctl t) := by
  unfold Machine.execBusOffRecovery
  exact h.whenB (fun hu => hu.update.wf.wf.wf)

end Sys2Proof.Machine
end

section
/-! PROOF. Quiet steps: the functions of Sys2Proof/Machine/Mailbox.lean. -/

namespace Sys2Proof.Machine

set_option Elab.async false

variable {s t u : State}

theorem Quiet.chanPull (h : Quiet s t) {c m} : Quiet s (t.chanPull c m) := by
  unfold Machine.State.chanPull
  exact Quiet.ite h.update.wb (Quiet.ite h.setChan h.take.giveBack)

theorem Quiet.serve (h : Quiet s t) {c m} : Quiet s (t.serve c m) := by
  unfold Machine.State.serve
  dsimp only
  refine Quiet.ite ?_ ?_
  · exact h.incSat.refuseReq
  · refine Quiet.ite ?_ ?_
    · exact h.incSat.refuseReq
    · split
      · exact h.refuseReq
      · exact h.admitReq (fun hu => hu.beginRun)

theorem Quiet.takeReq (h : Quiet s t) {c m} : Quiet s (t.takeReq c m) := by
  unfold Machine.State.takeReq
  exact Quiet.ite h.chanPull.update (Quiet.ite h.chanPull.update.respSend h.chanPull.countReq.serve)

theorem Quiet.execMailboxRequestTake (h : Quiet s t) : Quiet.Out s (execMailboxRequestTake t) := by
  unfold Machine.execMailboxRequestTake
  dsimp only
  refine h.whenB (fun hu => ?_)
  split
  · exact hu
  · exact hu.takeReq

theorem Quiet.execInterimResponse (h : Quiet s t) {ch} : Quiet.Out s (execInterimResponse ch t) := by
  unfold Machine.execInterimResponse
  split
  · exact h.out
  · exact h.whenB (fun hu => hu.setChan.respond)

end Sys2Proof.Machine
end

section
/-! PROOF. Quiet steps: the functions of Sys2Proof/Machine/Commands.lean. -/

namespace Sys2Proof.Machine

set_option Elab.async false

variable {s t u : State}

theorem Quiet.execTskOutSet (h : Quiet s t) {ch mask value} : Quiet.Out s (execTskOutSet ch mask value t) := by
  unfold Machine.execTskOutSet
  exact h.mailCmd (fun hu => Quiet.ite hu.finish hu.outReq.finish)

theorem Quiet.queConfig (h : Quiet s t) {ch q cfg base} : Quiet s (t.queConfig ch q cfg base) := by
  unfold Machine.State.queConfig
  exact Quiet.ite h.finish (Quiet.ite h.finish (Quiet.ite h.finish (Quiet.ite h.finish (Quiet.ite
      (Quiet.ite h.queEnable h.setN.setN.readmit).finish h.finish))))

theorem Quiet.execQueConfig (h : Quiet s t) {ch queue cfg base} : Quiet.Out s (execQueConfig ch queue cfg base t) := by
  unfold Machine.execQueConfig
  exact h.mailCmd (fun hu => hu.queConfig)

theorem Quiet.execQueDisable (h : Quiet s t) {ch queue} : Quiet.Out s (execQueDisable ch queue t) := by
  unfold Machine.execQueDisable
  exact h.mailCmd (fun hu => Quiet.ite hu.finish hu.queOff.finish)

theorem Quiet.execArbPrioSet (h : Quiet s t) {ch arb lo hi} : Quiet.Out s (execArbPrioSet ch arb lo hi t) := by
  unfold Machine.execArbPrioSet
  exact h.mailCmd (fun hu => Quiet.ite hu.finish hu.prioWrite.finish)

theorem Quiet.arbTableSet (h : Quiet s t) {ch a limit slots} : Quiet s (t.arbTableSet ch a limit slots) := by
  unfold Machine.State.arbTableSet
  exact Quiet.ite h.finish (Quiet.ite h.finish (Quiet.ite h.finish ((h.foldl (fun hu => hu.tableWrite)).limitSet.switchReq.finish)))

theorem Quiet.execArbTableSet (h : Quiet s t) {ch arb limit slots} : Quiet.Out s (execArbTableSet ch arb limit slots t) := by
  unfold Machine.execArbTableSet
  exact h.mailCmd (fun hu => hu.arbTableSet)

theorem Quiet.execAnwNodeRestart (h : Quiet s t) {ch} : Quiet.Out s (execAnwNodeRestart ch t) := by
  unfold Machine.execAnwNodeRestart
  exact h.mailCmd (fun hu => (Quiet.ite hu.enterListen.wb hu).finish)

theorem Quiet.portReadmit (h : Quiet s t) {n} : Quiet s (t.portReadmit n) := by
  unfold Machine.State.portReadmit
  exact (Quiet.ite h.wb.wf.wbit h.wb.wf).setStarPort.readmitPort

theorem Quiet.execAstPortReadmit (h : Quiet s t) {ch port} : Quiet.Out s (execAstPortReadmit ch port t) := by
  unfold Machine.execAstPortReadmit
  exact h.mailCmd (fun hu => Quiet.ite hu.finish hu.portReadmit.finish)

theorem Quiet.execPwmTripClear (h : Quiet s t) {ch mask} : Quiet.Out s (execPwmTripClear ch mask t) := by
  unfold Machine.execPwmTripClear
  exact h.mailCmd (fun hu => Quiet.ite hu.finish hu.wf.tripRecalc.finish)

theorem Quiet.sendRelease (h : Quiet s t) {n mask} : Quiet s (t.sendRelease n mask) := by
  unfold Machine.State.sendRelease
  exact h.setPort.glkNext

theorem Quiet.legClear (h : Quiet s t) {m} : Quiet s (t.legClear m) := by
  unfold Machine.State.legClear
  exact (Quiet.ite h.wb.setHold.sendRelease h.wb).offLabel

theorem Quiet.execPwmLegClear (h : Quiet s t) {ch leg} : Quiet.Out s (execPwmLegClear ch leg t) := by
  unfold Machine.execPwmLegClear
  exact h.mailCmd (fun hu => Quiet.ite hu.finish hu.legClear.finish)

theorem Quiet.execGlkPortRestart (h : Quiet s t) {ch port} : Quiet.Out s (execGlkPortRestart ch port t) := by
  unfold Machine.execGlkPortRestart
  exact h.mailCmd (fun hu => Quiet.ite hu.finish hu.glkBringup.finish)

theorem Quiet.holdsClear (h : Quiet s t) {n mask} : Quiet s (t.holdsClear n mask) := by
  unfold Machine.State.holdsClear
  exact (h.foldl (fun hu => hu.setHold)).andThen fun k1 =>
      (Quiet.ite (k1.foldl (fun hu => hu.setHold)) k1).setPort.sendRelease.offLabels

theorem Quiet.execGlkLegClear (h : Quiet s t) {ch port mask} : Quiet.Out s (execGlkLegClear ch port mask t) := by
  unfold Machine.execGlkLegClear
  exact h.mailCmd (fun hu => Quiet.ite hu.finish (Quiet.ite hu.finish hu.holdsClear.finish))

theorem Quiet.execLpeCtxRestart (h : Quiet s t) {ch engine ctx} : Quiet.Out s (execLpeCtxRestart ch engine ctx t) := by
  unfold Machine.execLpeCtxRestart
  exact h.mailCmd (fun hu => Quiet.ite hu.finish hu.ctxRestart.finish)

theorem Quiet.execLpeCoefRead (h : Quiet s t) {ch engine ctx record} : Quiet.Out s (execLpeCoefRead ch engine ctx record t) := by
  unfold Machine.execLpeCoefRead
  exact h.mailCmd (fun hu => Quiet.ite hu.finish hu.finish)

theorem Quiet.execFbcChanRestart (h : Quiet s t) {ch chan} : Quiet.Out s (execFbcChanRestart ch chan t) := by
  unfold Machine.execFbcChanRestart
  exact h.mailCmd (fun hu => Quiet.ite hu.finish ((Quiet.ite hu.fbStart hu).finish))

theorem Quiet.diagWords {a n} (h : Quiet s t) : Quiet s (t.diagWords a n).1 := by
  induction n generalizing t a with
  | zero => exact h
  | succ k ih =>
    unfold Machine.State.diagWords
    exact ih h.readWord

theorem Quiet.execDiagRead (h : Quiet s t) {ch addr count} : Quiet.Out s (execDiagRead ch addr count t) := by
  unfold Machine.execDiagRead
  exact h.mailCmd (fun hu => Quiet.ite hu.finish hu.diagWords.finish)

theorem Quiet.ruleArm (h : Quiet s t) {r tgt par start} : Quiet s (t.ruleArm r tgt par start) := by
  unfold Machine.State.ruleArm
  exact h.setN.setN.setN.update.setN.armChange

theorem Quiet.execAstInjArm (h : Quiet s t) {ch rule tgt par start} : Quiet.Out s (execAstInjArm ch rule tgt par start t) := by
  unfold Machine.execAstInjArm
  exact h.mailCmd (fun hu => Quiet.ite hu.finish (Quiet.ite hu.finish (Quiet.ite hu.finish hu.ruleArm.finish)))

theorem Quiet.execAstInjStop (h : Quiet s t) {ch mask} : Quiet.Out s (execAstInjStop ch mask t) := by
  unfold Machine.execAstInjStop
  exact h.mailCmd (fun hu => hu.armChange.finish)

theorem Quiet.execDbgProbeSet (h : Quiet s t) {ch pad signal} : Quiet.Out s (execDbgProbeSet ch pad signal t) := by
  unfold Machine.execDbgProbeSet
  exact h.mailCmd (fun hu => Quiet.ite hu.finish hu.wb.wf.finish)

theorem Quiet.execProbeEvent (h : Quiet s t) {pad level} : Quiet.Out s (execProbeEvent pad level t) := by
  unfold Machine.execProbeEvent
  exact h.whenB (fun hu => hu.setN.setN.andThen fun k1 => (Quiet.ite k1.wb k1).wf)

end Sys2Proof.Machine
end

section
/-! PROOF. Quiet steps: the functions of Sys2Proof/Machine/Power.lean. -/

namespace Sys2Proof.Machine

set_option Elab.async false

variable {s t u : State}

theorem Quiet.setPmu (h : Quiet s t) {p} : Quiet s (t.setPmu p) := by
  unfold Machine.State.setPmu
  exact h.update

theorem Quiet.execPowerValid (h : Quiet s t) : Quiet.Out s (execPowerValid t) := by
  unfold Machine.execPowerValid
  exact h.whenB (fun hu => (Quiet.ite hu.setPmu.setPmu.holdUntil hu.setPmu).andThen fun k1 => Quiet.ite k1.wb k1.wb.update)

theorem Quiet.monitor (h : Quiet s t) {f : Fld} {src detail on}
    (ha : LANE_STATE.adr < f.adr := by (repeat apply adr_above); decide) : Quiet s (t.monitor f src detail on) := by
  unfold Machine.State.monitor
  exact .ite (h.wb ha).deassertSrc (.ite (h.wb ha) (h.wb ha).assertSrc)

theorem Quiet.execPmuVlaneUv (h : Quiet s t) {below} : Quiet.Out s (execPmuVlaneUv below t) := by
  unfold Machine.execPmuVlaneUv
  exact h.whenOn (fun hu => hu.monitor)

theorem Quiet.execPmuVlaneOv (h : Quiet s t) {above} : Quiet.Out s (execPmuVlaneOv above t) := by
  unfold Machine.execPmuVlaneOv
  exact h.whenOn (fun hu => hu.monitor)

theorem Quiet.execPmuRailFault (h : Quiet s t) {rail} : Quiet.Out s (execPmuRailFault rail t) := by
  unfold Machine.execPmuRailFault
  exact ((Quiet.ite h.wb.raiseEv h).holdUntil).out

theorem Quiet.execPmuTempHigh (h : Quiet s t) {temp} : Quiet.Out s (execPmuTempHigh temp t) := by
  unfold Machine.execPmuTempHigh
  exact h.whenOn (fun hu => hu.monitor)

theorem Quiet.execLaneOscFault (h : Quiet s t) {crystal} : Quiet.Out s (execLaneOscFault crystal t) := by
  unfold Machine.execLaneOscFault
  exact h.whenB (fun hu => hu.wb.raiseEv.andThen fun k1 => Quiet.ite k1 k1.update)

theorem Quiet.wdKick (h : Quiet s t) {key} : Quiet s (t.wdKick key) := by
  unfold Machine.State.wdKick
  exact Quiet.ite h (Quiet.ite h.raiseEv (Quiet.ite h.raiseEv (Quiet.ite h.raiseEv h.setPmu)))

theorem Quiet.execPmuWdkick (h : Quiet s t) {req value} : Quiet.Out s (execPmuWdkick req value t) := by
  unfold Machine.execPmuWdkick
  exact h.whenOn (fun hu => hu.headstockOnly (fun hv => hv.wdKick))

theorem Quiet.execWatchdogTimeout (h : Quiet s t) : Quiet.Out s (execWatchdogTimeout t) := by
  unfold Machine.execWatchdogTimeout
  exact h.whenB (fun hu => hu.raiseEv.setPmu)

end Sys2Proof.Machine
end

section
/-! PROOF. Quiet steps: the functions of Sys2Proof/Machine/RegWrite.lean. -/

namespace Sys2Proof.Machine

set_option Elab.async false

variable {s t u : State}

theorem clearBits_zero {n : Nat} (h : n < 2 ^ 32) : clearBits 32 n 0 = n := by
  unfold clearBits
  rw [Nat.zero_mod, Nat.sub_zero, Nat.and_two_pow_sub_one_eq_mod, Nat.mod_eq_of_lt h]

/-- A register written with its own word. -/
theorem setN_self (a : Nat) : (s.setN a (s.rn a)).rn a = s.rn a := by
  rw [rn_setN, if_pos rfl, Nat.mod_eq_of_lt (rn_lt s a)]

/-- A write by access types, of a register other than LANE_STATE or of one that no write reaches. -/
theorem Quiet.plainWrite (h : Quiet s t) {r : RegRow} {a v : Nat} (hr : a = LANE_STATE.adr → r.rw = 0 ∧ r.w1c = 0) :
    Quiet s (t.plainWrite r a v) := by
  by_cases ha : a = LANE_STATE.adr
  · obtain ⟨h1, h2⟩ := hr ha
    subst ha
    have e : t.plainWrite r LANE_STATE.adr v = t.setN LANE_STATE.adr (t.rn LANE_STATE.adr) := by
      have hz : t.w1c LANE_STATE.adr 0 = 0 := by simp [State.w1c, clearBits]
      simp [State.plainWrite, h1, h2, hz, clearBits_zero (rn_lt t _)]
    rw [e]
    exact h.trans ⟨rfl, rfl, rfl, rfl, id, fun hs => ⟨congrArg LANE_STATE.STATE.getN (setN_self _), hs⟩⟩
  · exact h.setReg ha

theorem Quiet.pendWrite (h : Quiet s t) {req k a v early} (ha : a ≠ LANE_STATE.adr) : Quiet s (t.pendWrite req k a v early) := by
  have hn {n : Nat} : Quiet s (t.setN a n) := h.setReg ha
  unfold Machine.State.pendWrite
  exact .ite hn hn.violate

theorem Quiet.grantWrite (h : Quiet s t) {u' o} : Quiet s (t.grantWrite u' o) := by
  unfold Machine.State.grantWrite
  exact Quiet.ite h h.startMove

theorem Quiet.faultInfoWrite (h : Quiet s t) {v} : Quiet s (t.faultInfoWrite v) := by
  unfold Machine.State.faultInfoWrite
  refine Quiet.ite ?_ ?_
  · exact h
  · split
    · exact h.setN.setN
    · exact h.wb.wf

theorem Quiet.tripWrite (h : Quiet s t) {v} : Quiet s (t.tripWrite v) := by
  unfold Machine.State.tripWrite
  exact h.wf.wf.tripRecalc

theorem Quiet.entryWrite (h : Quiet s t) {r : RegRow} {m a v : Nat} (hr : a = LANE_STATE.adr → r.rw = 0 ∧ r.w1c = 0) :
    Quiet s (t.entryWrite r m a v) := by
  unfold Machine.State.entryWrite
  exact .ite h.entriesTake (h.entriesTake.plainWrite hr)

theorem Quiet.bankCtlWrite (h : Quiet s t) {b v} : Quiet s (t.bankCtlWrite b v) := by
  unfold Machine.State.bankCtlWrite
  exact Quiet.ite h.runWrite.commitWrite h.runWrite

theorem Quiet.fbcCtlWrite (h : Quiet s t) {n v} : Quiet s (t.fbcCtlWrite n v) := by
  unfold Machine.State.fbcCtlWrite
  exact (Quiet.ite h.wb.presetWrite h.wb).andThen fun k1 => Quiet.ite k1.wb k1

theorem Quiet.srcCfgWrite (h : Quiet s t) {n v} : Quiet s (t.srcCfgWrite n v) := by
  unfold Machine.State.srcCfgWrite
  exact Quiet.ite h h.setN.eflEval

theorem Quiet.forceWrite (h : Quiet s t) {v} : Quiet s (t.forceWrite v) := by
  unfold Machine.State.forceWrite
  exact Quiet.ite h h.wb.eflEval

theorem Quiet.armWrite (h : Quiet s t) {v} : Quiet s (t.armWrite v) := by
  unfold Machine.State.armWrite
  exact h.armChange

theorem Quiet.queCfgWrite (h : Quiet s t) {q v} : Quiet s (t.queCfgWrite q v) := by
  unfold Machine.State.queCfgWrite
  exact Quiet.ite (Quiet.ite h.setN.readmit h.setN.queOff) (Quiet.ite h.queEnable h.setN)

theorem Quiet.arbCtlWrite (h : Quiet s t) {a v} : Quiet s (t.arbCtlWrite a v) := by
  unfold Machine.State.arbCtlWrite
  exact Quiet.ite h.limitSet.switchReq h.limitSet

theorem Quiet.actWriteA (h : Quiet s t) {r : RegRow} {i a v} (hr : a = LANE_STATE.adr → r.rw = 0 ∧ r.w1c = 0) :
    Quiet.Opt s (t.actWriteA r i a v) := by
  unfold Machine.State.actWriteA
  refine .iteOpt h.grantWrite.some (.iteOpt h.faultInfoWrite.some (.iteOpt (h.entryWrite hr).some (.iteOpt h.grpenWrite.some
    (.iteOpt h.spnDone.some (.iteOpt h.ledgerClear.some (.iteOpt h.tripWrite.some (.iteOpt h.bankCtlWrite.some ?_)))))))
  exact .iteOpt h.fbcCtlWrite.some (.iteOpt h.adcStart.some (.iteOpt h.wdKick.some (.iteOpt h.canCtl.some .none)))

theorem Quiet.sramWrite (h : Quiet s t) {req a v early} : Quiet s (t.sramWrite req a v early) := by
  unfold Machine.State.sramWrite
  exact Quiet.ite h.memStore h.violate

theorem Quiet.markDirty (h : Quiet s t) {p a n} : Quiet s (t.markDirty p a n) := by
  unfold Machine.State.markDirty
  exact h.setPair

theorem Quiet.tcmWrite (h : Quiet s t) {req a v} : Quiet s (t.tcmWrite req a v) := by
  have ht {l : List Byte} : Quiet s { t with tcm := (tcmKeys req).foldl (fun m k => mset m k (memPuts (mget [] t.tcm k) a l)) t.tcm } :=
    h.setTcm fun hm => hm.foldl fun hn => hn.mset (wf_memPuts _ _ (hm.mget _))
  unfold Machine.State.tcmWrite
  dsimp only
  split
  · exact ht.markDirty
  · exact ht

end Sys2Proof.Machine
end

section
/-! PROOF. Quiet steps: the functions of Sys2Proof/Machine/PairPort.lean. -/

namespace Sys2Proof.Machine

set_option Elab.async false

variable {s t u : State}

theorem Quiet.leadOut (h : Quiet s t) {p o} : Quiet s (t.leadOut p o) := by
  unfold Machine.State.leadOut
  exact Quiet.ite h.leadTo.setFifo h

theorem Quiet.tcmAct (h : Quiet s t) {p k o} : Quiet s (t.tcmAct p k o) := by
  unfold Machine.State.tcmAct
  exact .ite h (h.setTcm fun hm => hm.mset (wf_foldl_memPut _ _ _ (hm.mget _))).markDirty

theorem Quiet.upset (h : Quiet s t) {p entry field bit} : Quiet s (t.upset p entry field bit) := by
  unfold Machine.State.upset
  exact h.setPair

theorem Quiet.eccLoss (h : Quiet s t) {p copy page} : Quiet s (t.eccLoss p copy page) := by
  unfold Machine.State.eccLoss
  exact h.setPair fun _ hx => by split <;> exact hx

theorem Quiet.tallyUpset (h : Quiet s t) {a bit} : Quiet s (t.tallyUpset a bit) := by
  unfold Machine.State.tallyUpset
  exact Quiet.ite h.update h

theorem Quiet.struck (h : Quiet s t) {p hit} : Quiet s (t.struck p hit) := by
  unfold Machine.State.struck
  split
  · exact h
  · exact Quiet.ite h.upset h
  · exact h.update
  · exact Quiet.ite h.eccLoss h
  · exact Quiet.ite h.tallyUpset h
  · exact Quiet.ite h.update h

theorem Quiet.coreHolds (h : Quiet s t) {c bytes} : Quiet s (t.coreHolds c bytes) := by
  unfold Machine.State.coreHolds
  exact Quiet.ite h.update h

theorem Quiet.leads (h : Quiet s t) {p act} : Quiet s (t.leads p act) := by
  unfold Machine.State.leads
  dsimp only
  split
  · exact h
  · exact Quiet.ite h.leadTo (Quiet.ite h (Quiet.ite h.leadOut (Quiet.ite h.leadTo.tcmAct h)))
  · exact Quiet.ite h.leadTo h
  · exact h.coreHolds
  · exact h.trapEnd

end Sys2Proof.Machine
end

section
/-! PROOF. Quiet steps: the functions of Sys2Proof/Machine/Ports.lean. -/

namespace Sys2Proof.Machine

set_option Elab.async false

variable {s t u : State}

theorem Quiet.spiErr (h : Quiet s t) {e} : Quiet s (t.spiErr e) := by
  unfold Machine.State.spiErr
  exact h.update

theorem Quiet.spiDiscard (h : Quiet s t) : Quiet s t.spiDiscard := by
  unfold Machine.State.spiDiscard
  exact h.incSat.spiErr

theorem Quiet.spiFull (h : Quiet s t) : Quiet s t.spiFull := by
  unfold Machine.State.spiFull
  exact Quiet.ite h.incSat.spiErr h

theorem Quiet.execSpiWrite (h : Quiet s t) {message} : Quiet.Out s (execSpiWrite message t) := by
  unfold Machine.execSpiWrite
  exact h.whenB (fun hu => Quiet.ite hu.emit.spiFull.spiDiscard (Quiet.ite hu.emit.spiFull hu.emit.update.wb.spiErr))

theorem Quiet.execSpiPoll (h : Quiet s t) : Quiet.Out s (execSpiPoll t) := by
  unfold Machine.execSpiPoll
  exact h.whenB (fun hu => hu.emit.spiErr)

theorem Quiet.execSpiFrameError (h : Quiet s t) {kind} : Quiet.Out s (execSpiFrameError kind t) := by
  unfold Machine.execSpiFrameError
  refine h.whenB (fun hu => ?_)
  split
  · exact hu.emit.spiFull.spiDiscard
  · exact hu.emit.spiFull.spiDiscard
  · exact hu.emit.spiDiscard

theorem Quiet.heldRx (h : Quiet s t) {d c} : Quiet s (heldRx d c t) := by
  unfold Machine.heldRx
  split
  · exact h.nodeRx
  · exact h.starRx
  · exact h.glkRun
  · exact h.glkRun
  · exact h.glkRun
  · exact h.glkRun
  · exact h.glkRun
  · exact h.bridgeRun

theorem Quiet.releaseHeld (h : Quiet s t) {h'} : Quiet s (t.releaseHeld h') := by
  unfold Machine.State.releaseHeld
  split
  · exact h.heldRx
  · exact h.sendHeld

theorem Quiet.execInjectRelease (h : Quiet s t) {rule} : Quiet.Out s (execInjectRelease rule t) := by
  unfold Machine.execInjectRelease
  split
  · exact h.out
  · exact h.whenB (fun hu => hu.update.foldl (fun hv => hv.releaseHeld))

end Sys2Proof.Machine
end

section
/-! PROOF. What every step keeps: memory in canonical form, the clock within its limits, the lane state legal. -/

namespace Sys2Proof.Machine

set_option Elab.async false

variable {s t u : State}

/-! ### What every step keeps -/

/-- Lane memory stays in canonical form, the clock within its limits, and the lane state legal with no waiting write of it. -/
structure Keeps (s t : State) : Prop where
  memOk : MemOk s → MemOk t
  clockOk : ClockOk s → ClockOk t
  stateOk : s.st ≤ stDebug ∧ s.svc.Spares → t.st ≤ stDebug ∧ t.svc.Spares

/-- A state that is found, if one is, is kept. -/
def Keeps.Opt (s : State) (o : Option State) : Prop := ∀ ⦃u⦄, o = some u → Keeps s u

/-- The state that a command leads to is kept. -/
def Keeps.Out (s : State) (r : Res) : Prop := ∀ ⦃u⦄, r = .next u → Keeps s u

theorem Keeps.refl : Keeps s s := ⟨id, id, id⟩

theorem Keeps.quiet (h : Keeps s t) (q : Quiet t u) : Keeps s u where
  memOk := q.memOk ∘ h.memOk
  clockOk hc := by
    have := h.clockOk hc
    rwa [ClockOk, q.rate_eq, q.slew_eq, q.frac_eq]
  stateOk hs := by
    obtain ⟨hst, hsp⟩ := h.stateOk hs
    obtain ⟨e, hu⟩ := q.svc_ok hsp
    exact ⟨e ▸ hst, hu⟩

theorem Keeps.ite {c : Prop} {_ : Decidable c} {a b : State} (ha : Keeps s a) (hb : Keeps s b) : Keeps s (if c then a else b) := by
  split <;> assumption

theorem Keeps.iteFst {β : Type} {c : Prop} {_ : Decidable c} {a b : State × β} (ha : Keeps s a.1) (hb : Keeps s b.1) :
    Keeps s (if c then a else b).1 := by
  split <;> assumption

theorem Keeps.iteOpt {c : Prop} {_ : Decidable c} {a b : Option State} (ha : c → Keeps.Opt s a) (hb : Keeps.Opt s b) :
    Keeps.Opt s (if c then a else b) := by
  split
  · exact ha ‹_›
  · exact hb

theorem Keeps.iteOut {c : Prop} {_ : Decidable c} {a b : Res} (ha : Keeps.Out s a) (hb : Keeps.Out s b) :
    Keeps.Out s (if c then a else b) := by
  split <;> assumption

/-- What follows, from a state that several of its branches share. -/
theorem Keeps.andThen {p : Prop} (h : Keeps s t) (k : Keeps s t → p) : p := k h

theorem Keeps.foldl {α : Type} {g : State → α → State} {l : List α} (h : Keeps s t)
    (hg : ∀ {u x}, Keeps s u → Keeps s (g u x)) : Keeps s (l.foldl g t) := by
  induction l generalizing t with
  | nil => exact h
  | cons x l ih => exact ih (hg h)

theorem Keeps.some (h : Keeps s t) : Keeps.Opt s (some t) := fun _ e => by cases e; exact h

theorem Keeps.none : Keeps.Opt s none := fun _ e => by cases e

theorem Keeps.getD {o : Option State} (h : Keeps s t) (ho : Keeps.Opt s o) : Keeps s (o.getD t) := by
  cases o with
  | none => exact h
  | some u => exact ho rfl

theorem Keeps.out (h : Keeps s t) : Keeps.Out s (.next t) := fun _ e => by cases e; exact h

/-- A command that changes nothing of it, and an option that does not. -/
theorem Keeps.quietOut {r : Res} (h : Keeps s t) (q : Quiet.Out t r) : Keeps.Out s r := fun _ e => h.quiet (q e)

theorem Keeps.quietOpt {o : Option State} (h : Keeps s t) (q : Quiet.Opt t o) : Keeps.Opt s o := fun _ e => h.quiet (q e)

/-! ### The lane state -/

/-- The lane's state becomes one of the six. -/
theorem Keeps.setState (h : Keeps s t) {n : Nat} (hn : n ≤ stDebug) : Keeps s (t.wf LANE_STATE.STATE n) where
  memOk := h.memOk
  clockOk := h.clockOk
  stateOk hs := by
    refine ⟨?_, (h.stateOk hs).2⟩
    have e : (t.wf LANE_STATE.STATE n).st = n % 2 ^ LANE_STATE.STATE.wd := rf_wf_same _ _ _ (by decide)
    exact e ▸ (Nat.mod_le _ _).trans hn

theorem Quiet.setPrev (h : Quiet s t) {n : Nat} : Quiet s (t.wf LANE_STATE.PREV n) := h.wf_apart (.inr (by decide))

theorem Keeps.toSt (h : Keeps s t) {n : Nat} (hn : n ≤ stDebug := by decide) : Keeps s (t.toSt n) :=
  (h.quiet Quiet.refl.setPrev).setState hn

/-- After reset all of it holds, whatever held before. -/
theorem Keeps.reset : Keeps s State.reset where
  memOk _ := memOk_reset
  clockOk _ := by decide
  stateOk _ := ⟨by decide, svcAddrs_spare_iff.1 (by decide)⟩

theorem Keeps.afterReset (_ : Keeps s t) : Keeps s t.afterReset := by
  unfold Machine.State.afterReset
  refine (Keeps.reset.quiet ?_).setState (by decide)
  refine Quiet.setPrev (Quiet.wf_apart ?_ (.inl (by decide)))
  split
  · exact ((((Quiet.refl.update.setReg (by decide)).setReg (by decide)).setReg (by decide)).setReg (by decide)).update.setV
  · exact (((Quiet.refl.update.setReg (by decide)).setReg (by decide)).setReg (by decide)).setReg (by decide)

/-! ### The clock -/

theorem clampI_mem {lo hi i : Int} (h : lo ≤ hi) : lo ≤ clampI lo hi i ∧ clampI lo hi i ≤ hi := by
  unfold clampI
  split <;> [skip; split] <;> omega

theorem Keeps.gtSlew (h : Keeps s t) {d} : Keeps s (t.gtSlew d) where
  memOk := h.memOk
  clockOk hc := by
    obtain ⟨-, -, -, -, hf⟩ := h.clockOk hc
    have hr := clampI_mem (i := t.rate + Int.tdiv (d * 4294967296) 400000) (show -rMax ≤ rMax by decide)
    have hs := clampI_mem (i := Int.tdiv (d * 4294967296) 50000) (show -sMax ≤ sMax by decide)
    exact ⟨hr.1, hr.2, hs.1, hs.2, hf⟩
  stateOk := h.stateOk

/-- A new time with a fraction below one nanosecond. -/
theorem Keeps.setGt (h : Keeps s t) {gt frac : Nat} (hf : frac < 2 ^ 32) : Keeps s { t with gt, frac } where
  memOk := h.memOk
  clockOk hc := by
    obtain ⟨h1, h2, h3, h4, -⟩ := h.clockOk hc
    exact ⟨h1, h2, h3, h4, hf⟩
  stateOk := h.stateOk

/-- The slew ends. -/
theorem Keeps.endSlew (h : Keeps s t) : Keeps s { t with slew := 0 } where
  memOk := h.memOk
  clockOk hc := by
    obtain ⟨h1, h2, -, -, h5⟩ := h.clockOk hc
    exact ⟨h1, h2, (by decide : (-429497 : Int) ≤ 0), (by decide : (0 : Int) ≤ 429497), h5⟩
  stateOk := h.stateOk

/-- The time alone. -/
theorem Keeps.stepGt (h : Keeps s t) {gt : Nat} : Keeps s { t with gt } := ⟨h.memOk, h.clockOk, h.stateOk⟩

theorem Keeps.gtStep (h : Keeps s t) {d} : Keeps s (t.gtStep d) := by
  unfold Machine.State.gtStep
  refine (h.stepGt (gt := (((t.gt : Int) + d) % 2 ^ 64).toNat)).endSlew.quiet ?_
  exact ((Quiet.refl.update.foldl fun hu => .ite hu.setEntry hu).update.setOff).banksStop

theorem Keeps.gtTick (h : Keeps s t) : Keeps s t.gtTick := by
  unfold Machine.State.gtTick
  refine .ite ?_ h
  exact ((h.quiet Quiet.refl.offTrack).setGt (Nat.mod_lt _ (by decide))).quiet Quiet.refl.update

end Sys2Proof.Machine
end

section
/-! PROOF. Steps that set the lane state or the clock: the functions of Sys2Proof/Machine/Ops.lean. -/

namespace Sys2Proof.Machine

set_option Elab.async false

variable {s t u : State}

theorem Keeps.whenOn (h : Keeps s t) {k} (hk : ∀ {u}, Keeps s u → Keeps s (k u)) : Keeps.Out s (t.whenOn k) := by
  unfold Machine.State.whenOn
  exact (Keeps.ite (hk h) h).out

theorem Keeps.whenB (h : Keeps s t) {c k} (hk : ∀ {u}, Keeps s u → Keeps s (k u)) : Keeps.Out s (t.whenB c k) := by
  unfold Machine.State.whenB
  exact (Keeps.ite (hk h) h).out

end Sys2Proof.Machine
end

section
/-! PROOF. Steps that set the lane state or the clock: the functions of Sys2Proof/Machine/MailOps.lean. -/

namespace Sys2Proof.Machine

set_option Elab.async false

variable {s t u : State}

theorem Keeps.admitReq (h : Keeps s t) {c row tag len go} (hgo : ∀ {u}, Keeps s u → Keeps s (go u)) : Keeps s
    (t.admitReq c row tag len go) := by
  unfold Machine.State.admitReq
  refine Keeps.ite ?_ ?_
  · exact h.quiet Quiet.refl.incSat.refuseReq
  · split
    · exact h.quiet Quiet.refl.refuseReq
    · exact hgo h

theorem Keeps.mailCmd (h : Keeps s t) {c op cmd k} (hk : ∀ {u}, Keeps s u → Keeps s (k u)) : Keeps.Out s (t.mailCmd c op cmd k) := by
  unfold Machine.State.mailCmd
  refine (Keeps.ite h ?_).out
  split
  · exact .ite (hk (h.quiet Quiet.refl.setChan)) h
  · split
    · exact .ite ((h.quiet Quiet.refl.countReq).admitReq fun hu => hk (hu.quiet Quiet.refl.beginRun)) h
    · exact h

end Sys2Proof.Machine
end

section
/-! PROOF. Steps that set the lane state or the clock: the functions of Sys2Proof/Machine/Tailstock.lean. -/

namespace Sys2Proof.Machine

set_option Elab.async false

variable {s t u : State}

theorem Keeps.leaveService (h : Keeps s t) : Keeps s t.leaveService := by
  unfold Machine.State.leaveService
  exact Keeps.ite h ((((h.toSt.quiet Quiet.refl.loadGrants.installCerts.startUnits).quiet Quiet.refl.update)).quiet
      Quiet.refl.setRmode.outEval.springRule)

theorem Keeps.judgeFit (h : Keeps s t) : Keeps s t.judgeFit := by
  unfold Machine.State.judgeFit
  exact Keeps.ite h.leaveService h

theorem Keeps.toSafe (h : Keeps s t) {cause} : Keeps s (t.toSafe cause) := by
  unfold Machine.State.toSafe
  exact Keeps.ite h ((((h.quiet Quiet.refl.wb.wf).quiet Quiet.refl.wb.wb).quiet Quiet.refl.outEval).judgeFit)

theorem Keeps.execFitnessTimeout (h : Keeps s t) : Keeps.Out s (execFitnessTimeout t) := by
  unfold Machine.execFitnessTimeout
  exact h.whenB (fun hu => hu.leaveService)

theorem Keeps.execReadbackMismatch (h : Keeps s t) {output padOn} : Keeps.Out s (execReadbackMismatch output padOn t) := by
  unfold Machine.execReadbackMismatch
  exact h.whenB (fun hu => (hu.quiet Quiet.refl.raiseEv.wbit).andThen fun k1 =>
      Keeps.ite (k1.quiet Quiet.refl.wbit.outEval) k1.toSafe)

theorem Keeps.testEnd (h : Keeps s t) {k stuck} : Keeps s (t.testEnd k stuck) := by
  unfold Machine.State.testEnd
  exact Keeps.ite (h.toSafe.quiet Quiet.refl.wbit) (h.quiet Quiet.refl.wbit.padsFollow)

theorem Keeps.execTestPulseEnd (h : Keeps s t) {output padOn} : Keeps.Out s (execTestPulseEnd output padOn t) := by
  unfold Machine.execTestPulseEnd
  exact h.whenB (fun hu => Keeps.ite ((hu.quiet Quiet.refl.wbit.raiseEv).testEnd) hu.testEnd)

theorem Keeps.execChallengeCheck (h : Keeps s t) : Keeps.Out s (execChallengeCheck t) := by
  unfold Machine.execChallengeCheck
  split
  · exact h.out
  · exact h.whenB (fun hu => (hu.quiet Quiet.refl.update).andThen fun k1 =>
      Keeps.ite (k1.quiet Quiet.refl.incWrap.wf) ((k1.quiet Quiet.refl.raiseEv.incSat.wf).andThen fun k2 => Keeps.ite k2.toSafe k2))

theorem Keeps.execSamplerFault (h : Keeps s t) : Keeps.Out s (execSamplerFault t) := by
  unfold Machine.execSamplerFault
  exact h.whenOn (fun hu => (hu.quiet Quiet.refl.raiseEv).toSafe)

end Sys2Proof.Machine
end

section
/-! PROOF. Steps that set the lane state or the clock: the functions of Sys2Proof/Machine/Reset.lean. -/

namespace Sys2Proof.Machine

set_option Elab.async false

variable {s t u : State}

theorem Keeps.laneReset (h : Keeps s t) {cause} : Keeps s (t.laneReset cause) := by
  unfold Machine.State.laneReset
  extract_lets +onlyGivenNames s1
  have h1 : Keeps s s1 := .ite (h.quiet Quiet.refl.holdUntil) h
  clear_value s1
  refine .ite ?_ (.ite (h1.afterReset.quiet Quiet.refl.powerCause) ?_)
  · exact .ite (h1.quiet Quiet.refl.powerCause) (.ite (h1.quiet Quiet.refl.wf) h1)
  · split
    · exact .ite (h1.afterReset.quiet Quiet.refl.incSat.wf) (h1.afterReset.quiet Quiet.refl.incSat.wf.holdUntil.tallyCause)
    · exact h1.afterReset.quiet Quiet.refl.incSat.wf

theorem Keeps.tallyReset (h : Keeps s t) {src detail gt} : Keeps s (t.tallyReset src detail gt) := by
  unfold Machine.State.tallyReset
  exact Keeps.ite (Keeps.ite (h.quiet Quiet.refl.holdUntil.tallyCause) h) (h.laneReset.quiet Quiet.refl.tallyCause)

end Sys2Proof.Machine
end

section
/-! PROOF. Steps that set the lane state or the clock: the functions of Sys2Proof/Machine/Tally.lean. -/

namespace Sys2Proof.Machine

set_option Elab.async false

variable {s t u : State}

theorem Keeps.raiseIn (h : Keeps s t) {r} : Keeps s (t.raiseIn r) := by
  unfold Machine.State.raiseIn
  exact Keeps.ite h ((Keeps.ite (h.quiet Quiet.refl.openSrc) (h.quiet Quiet.refl.incSat.setN)).andThen fun k1 =>
      (Keeps.ite (k1.quiet Quiet.refl.blkReset) k1).andThen fun k2 => Keeps.ite k2.tallyReset k2)

theorem Keeps.selfCheck (h : Keeps s t) : Keeps s t.selfCheck := by
  unfold Machine.State.selfCheck
  exact Keeps.ite h h.tallyReset

theorem Keeps.raiseWindow (h : Keeps s t) : Keeps s t.raiseWindow := by
  unfold Machine.State.raiseWindow
  refine Keeps.ite ?_ ?_
  · exact ((h.quiet Quiet.refl.update).foldl (fun hu => hu.raiseIn)).andThen fun k2 =>
      Keeps.ite ((k2.quiet Quiet.refl.eflEval).selfCheck) k2
  · split
    · exact h.tallyReset
    · exact h

theorem Keeps.execSourceRaise (h : Keeps s t) : Keeps.Out s (execSourceRaise t) := by
  unfold Machine.execSourceRaise
  exact h.whenB (fun hu => hu.raiseWindow)

theorem Keeps.execQuietExpiry (h : Keeps s t) {source} : Keeps.Out s (execQuietExpiry source t) := by
  unfold Machine.execQuietExpiry
  exact h.whenB (fun hu => (((hu.quiet Quiet.refl.wf.incSat).quiet Quiet.refl.wbit).quiet
      Quiet.refl.wf.sendSummary.eflEval).selfCheck)

theorem Keeps.execTallySelfCheck (h : Keeps s t) : Keeps.Out s (execTallySelfCheck t) := by
  unfold Machine.execTallySelfCheck
  exact (Keeps.ite h.selfCheck (Keeps.ite h.tallyReset h)).out

end Sys2Proof.Machine
end

section
/-! PROOF. Steps that set the lane state or the clock: the functions of Sys2Proof/Machine/Spindle.lean. -/

namespace Sys2Proof.Machine

set_option Elab.async false

variable {s t u : State}

theorem Keeps.execGtCorrection (h : Keeps s t) : Keeps.Out s (execGtCorrection t) := by
  unfold Machine.execGtCorrection
  exact h.whenB (fun hu => (((hu.quiet Quiet.refl.bridgeAll).quiet Quiet.refl.update).quiet Quiet.refl.setN.wf).andThen fun k3 =>
      ((Keeps.ite k3.gtStep ((Keeps.ite (k3.quiet Quiet.refl.raiseEv) k3).gtSlew))).quiet Quiet.refl.alignJudge.pinnedRate.holdEnd)

theorem Keeps.execHoldoverEntry (h : Keeps s t) : Keeps.Out s (execHoldoverEntry t) := by
  unfold Machine.execHoldoverEntry
  refine Keeps.whenB h fun hu => ?_
  exact (hu.quiet Quiet.refl.wb.assertSrc).endSlew

end Sys2Proof.Machine
end

section
/-! PROOF. Steps that set the lane state or the clock: the functions of Sys2Proof/Machine/Security.lean. -/

namespace Sys2Proof.Machine

set_option Elab.async false

variable {s t u : State}

theorem Keeps.resetAfter (h : Keeps s t) {c} : Keeps s (t.resetAfter c) := by
  unfold Machine.State.resetAfter
  exact Keeps.ite (h.quiet Quiet.refl.update) h.laneReset

theorem Keeps.enterDebug (h : Keeps s t) : Keeps s t.enterDebug := by
  unfold Machine.State.enterDebug
  exact Keeps.ite h (((h.quiet Quiet.refl.raiseEv).toSt).quiet Quiet.refl.nodeGoOff.outEval.redecide)

theorem Keeps.execSecDebugEnter (h : Keeps s t) {ch token} : Keeps.Out s (execSecDebugEnter ch token t) := by
  unfold Machine.execSecDebugEnter
  exact h.mailCmd (fun hu => Keeps.ite (hu.quiet Quiet.refl.finish) (Keeps.ite
      (((hu.quiet Quiet.refl.nonceUsed).enterDebug).quiet Quiet.refl.finish) (hu.quiet Quiet.refl.nonceUsed.finish)))

theorem Keeps.execSecDebugExit (h : Keeps s t) {ch} : Keeps.Out s (execSecDebugExit ch t) := by
  unfold Machine.execSecDebugExit
  exact h.mailCmd (fun hu => (hu.quiet Quiet.refl.finish).resetAfter)

theorem Keeps.orderEnd (h : Keeps s t) {p} : Keeps s (t.orderEnd p) := by
  unfold Machine.State.orderEnd
  dsimp only
  split
  · exact Keeps.ite (h.quiet Quiet.refl.procEnd).resetAfter (h.quiet Quiet.refl.procEnd)
  · exact (h.quiet Quiet.refl.procEnd)

theorem Keeps.orderStep (h : Keeps s t) {p} : Keeps s (t.orderStep p) := by
  unfold Machine.State.orderStep
  dsimp only
  split
  · exact h.quiet Quiet.refl.journal.setProc
  · exact h.quiet Quiet.refl.notch.setProc
  · exact (h.quiet Quiet.refl.journal.orderDone).orderEnd

theorem Keeps.activateStep (h : Keeps s t) {p} : Keeps s (t.activateStep p) := by
  unfold Machine.State.activateStep
  exact ((h.quiet Quiet.refl.updRec.bridgeAll).quiet Quiet.refl.update.procEnd).resetAfter

theorem Keeps.execFlashOperationDone (h : Keeps s t) {ok} : Keeps.Out s (execFlashOperationDone ok t) := by
  unfold Machine.execFlashOperationDone
  refine h.whenB (fun hu => ?_)
  split
  · exact hu
  · exact Keeps.ite (hu.quiet Quiet.refl.procFail) (Keeps.ite (hu.quiet Quiet.refl.commitStep) (Keeps.ite hu.orderStep (Keeps.ite
      (hu.quiet Quiet.refl.openStep) hu.activateStep)))

end Sys2Proof.Machine
end

section
/-! PROOF. Steps that set the lane state or the clock: the functions of Sys2Proof/Machine/Boot.lean. -/

namespace Sys2Proof.Machine

set_option Elab.async false

variable {s t u : State}

theorem Keeps.execResetEnd (h : Keeps s t) : Keeps.Out s (execResetEnd t) := by
  unfold Machine.execResetEnd
  refine Keeps.whenB h fun hu => ?_
  refine ((hu.toSt (n := stBoot)).setGt (gt := 0) (frac := 0) (by decide)).quiet ?_
  exact Quiet.refl.update.update.heartbeat

theorem Keeps.execBootComplete (h : Keeps s t) : Keeps.Out s (execBootComplete t) := by
  unfold Machine.execBootComplete
  exact h.whenB (fun hu => (hu.quiet Quiet.refl.romBoot).andThen fun k1 =>
      Keeps.ite k1 (((k1.quiet Quiet.refl.bootOrder.bootCommit.bootSet).toSt).quiet Quiet.refl.wf))

theorem Keeps.enterIntegrate (h : Keeps s t) : Keeps s t.enterIntegrate := by
  unfold Machine.State.enterIntegrate
  exact ((((h.toSt.quiet Quiet.refl.wf.loadGrants).quiet Quiet.refl.update).quiet Quiet.refl.wb.vioJudge)).quiet
      Quiet.refl.appBoot.startBlocks.eflEval

theorem Keeps.execSelftestComplete (h : Keeps s t) {r} : Keeps.Out s (execSelftestComplete r t) := by
  unfold Machine.execSelftestComplete
  refine h.whenB fun {u} hu => ?_
  have hq : Quiet u (u.selfSteps r).1 := Quiet.refl.selfSteps
  dsimp only
  generalize u.selfSteps r = x at hq ⊢
  exact .ite (hu.quiet hq.setN).enterIntegrate (hu.quiet hq.setN.update)

theorem Keeps.enterService (h : Keeps s t) : Keeps s t.enterService := by
  unfold Machine.State.enterService
  exact (((h.toSt.quiet Quiet.refl.wf).quiet Quiet.refl.update).quiet (Quiet.refl.foldl
      (fun hu => hu.setRdmPeer.setPeer))).andThen fun k3 =>
      (Keeps.ite (k3.quiet Quiet.refl.followStart.adoptMembers) (k3.quiet Quiet.refl.followStart)).quiet Quiet.refl.outEval.redecide

theorem Keeps.execServiceEntry (h : Keeps s t) : Keeps.Out s (execServiceEntry t) := by
  unfold Machine.execServiceEntry
  dsimp only
  refine h.whenB (fun hu => ?_)
  split
  · exact (hu.quiet Quiet.refl.serveJudge.readyJudge)
  · exact Keeps.ite (hu.quiet Quiet.refl.serveJudge.readyJudge).enterService (hu.quiet Quiet.refl.serveJudge.readyJudge)

end Sys2Proof.Machine
end

section
/-! PROOF. Steps that set the lane state or the clock: the functions of Sys2Proof/Machine/Mailbox.lean. -/

namespace Sys2Proof.Machine

set_option Elab.async false

variable {s t u : State}

theorem Keeps.respGone (h : Keeps s t) {c} : Keeps s (t.respGone c) := by
  unfold Machine.State.respGone
  exact Keeps.ite h.laneReset h

theorem Keeps.respRetry (h : Keeps s t) {c} : Keeps s (t.respRetry c) := by
  unfold Machine.State.respRetry
  split
  · exact h
  · split
    · exact h
    · next u hu => exact (h.quiet ((Quiet.refl.postBytes hu).setChan)).andThen fun k1 => Keeps.ite k1.respGone k1

theorem Keeps.respRetries (h : Keeps s t) : Keeps s t.respRetries := by
  unfold Machine.State.respRetries
  exact h.foldl (fun hu => hu.respRetry)

theorem Keeps.giveBackTo (h : Keeps s t) {q n} : Keeps s (t.giveBackTo q n) := by
  unfold Machine.State.giveBackTo
  exact (h.quiet Quiet.refl.giveBack).respRetries

theorem Keeps.execQueReturn (h : Keeps s t) {req queue count} : Keeps.Out s (execQueReturn req queue count t) := by
  unfold Machine.execQueReturn
  exact h.whenOn (fun hu => Keeps.ite hu.giveBackTo (hu.quiet Quiet.refl.violate))

theorem Keeps.execResponseDrop (h : Keeps s t) {ch} : Keeps.Out s (execResponseDrop ch t) := by
  unfold Machine.execResponseDrop
  dsimp only
  refine h.whenOn (fun hu => ?_)
  split
  · exact hu.respRetry
  · exact Keeps.ite hu.respRetry ((hu.respRetry.quiet Quiet.refl.setChan.incSat).andThen fun k2 => Keeps.ite k2.respGone k2)

theorem Keeps.execSpanTransmit (h : Keeps s t) {flow} : Keeps.Out s (execSpanTransmit flow t) := by
  unfold Machine.execSpanTransmit
  split
  · exact h.out
  · exact ((h.quiet Quiet.refl.spanRun).andThen fun k1 => Keeps.ite k1.respGone k1).out

end Sys2Proof.Machine
end

section
/-! PROOF. Steps that set the lane state or the clock: the functions of Sys2Proof/Machine/Power.lean. -/

namespace Sys2Proof.Machine

set_option Elab.async false

variable {s t u : State}

theorem Keeps.execPowerLoss (h : Keeps s t) : Keeps.Out s (execPowerLoss t) := by
  unfold Machine.execPowerLoss
  exact (h.laneReset.quiet Quiet.refl.setPmu.wb).out

theorem Keeps.execVlaneOvervoltage (h : Keeps s t) : Keeps.Out s (execVlaneOvervoltage t) := by
  unfold Machine.execVlaneOvervoltage
  exact (h.laneReset.quiet Quiet.refl.setPmu).out

theorem Keeps.execPmuVioFault (h : Keeps s t) {banks} : Keeps.Out s (execPmuVioFault banks t) := by
  unfold Machine.execPmuVioFault
  exact ((Keeps.ite (h.quiet (Quiet.refl.foldl (fun hu => hu.fbCatch))) h).quiet Quiet.refl.setPmu).andThen fun k2 =>
      (Keeps.ite (k2.quiet Quiet.refl.holdUntil) k2).andThen fun k3 =>
      (Keeps.ite k3 (Keeps.ite ((k3.quiet Quiet.refl.vioJudge).laneReset) (k3.quiet Quiet.refl.vioJudge))).out

theorem Keeps.execThermalShutdown (h : Keeps s t) {cooled} : Keeps.Out s (execThermalShutdown cooled t) := by
  unfold Machine.execThermalShutdown
  exact (Keeps.ite (h.quiet Quiet.refl.setPmu) (h.laneReset.quiet Quiet.refl.setPmu)).out

theorem Keeps.execRstnLow (h : Keeps s t) {released} : Keeps.Out s (execRstnLow released t) := by
  unfold Machine.execRstnLow
  exact (Keeps.ite (Keeps.ite (h.quiet Quiet.refl.setPmu.holdUntil) h) (h.laneReset.quiet Quiet.refl.setPmu)).out

end Sys2Proof.Machine
end

section
/-! PROOF. Steps that set the lane state or the clock: the functions of Sys2Proof/Machine/RegWrite.lean. -/

namespace Sys2Proof.Machine

set_option Elab.async false

variable {s t u : State}

/-- No write reaches LANE_STATE through a register's action. -/
theorem regRow_laneState {r : RegRow} {i j : Nat} (h : regRow LANE_STATE.adr = Option.some (r, i, j)) :
    (r.rw = 0 ∧ r.w1c = 0) ∧ r.own = .status ∧ r.base = LANE_STATE.adr := by
  have e : (regRow LANE_STATE.adr).all
      (fun x => x.1.rw == 0 && x.1.w1c == 0 && (x.1.own == .status) && x.1.base == LANE_STATE.adr) = true := by decide
  rw [h] at e
  simpa [and_assoc] using e

theorem Keeps.actWriteB (h : Keeps s t) {req r i j a v early} (hr : regRow a = Option.some (r, i, j)) :
    Keeps.Opt s (t.actWriteB req r i j a v early) := by
  have own {o : Own} (ho : r.own = o) (hne : o ≠ .status) : a ≠ LANE_STATE.adr := fun ha => by
    subst ha; exact hne (ho ▸ (regRow_laneState hr).2.1)
  have base {n : Nat} (hb : r.base = n) (hne : n ≠ LANE_STATE.adr) : a ≠ LANE_STATE.adr := fun ha => by
    subst ha; exact hne (hb ▸ (regRow_laneState hr).2.2)
  unfold Machine.State.actWriteB
  refine .iteOpt (fun _ => (h.quiet Quiet.refl.outReq).some) ?_
  refine .iteOpt (fun _ => (h.quiet Quiet.refl.responseWrite).some) ?_
  refine .iteOpt (fun _ => (h.quiet Quiet.refl.forceWrite).some) ?_
  refine .iteOpt (fun _ => (h.quiet Quiet.refl.srcCfgWrite).some) ?_
  refine .iteOpt (fun ho => (h.quiet (Quiet.refl.newClear (own ho (by decide)))).some) ?_
  refine .iteOpt (fun _ => (h.quiet Quiet.refl.fwRaise).some) ?_
  refine .iteOpt (fun _ => (Keeps.ite (h.quiet Quiet.refl.sealStart) h).some) ?_
  refine .iteOpt (fun _ => (h.quiet Quiet.refl.armWrite).some) ?_
  refine .iteOpt (fun _ => .iteOpt (fun _ => h.some) .none) ?_
  refine .iteOpt (fun ho => (h.quiet (Quiet.refl.pendWrite (own ho (by decide)))).some) ?_
  refine .iteOpt (fun _ => (h.quiet Quiet.refl.queCfgWrite).some) ?_
  refine .iteOpt (fun hb => (h.quiet (Quiet.refl.setReg (base hb (by decide))).readmit).some) ?_
  refine .iteOpt (fun _ => (h.quiet Quiet.refl.post).some) ?_
  refine .iteOpt (fun _ => (h.quiet Quiet.refl.take).some) ?_
  refine .iteOpt (fun _ => h.giveBackTo.some) ?_
  refine .iteOpt (fun _ => (h.quiet Quiet.refl.arbCtlWrite).some) ?_
  refine .iteOpt (fun _ => (h.quiet Quiet.refl.prioWrite).some) ?_
  refine .iteOpt (fun _ => (h.quiet Quiet.refl.prioWrite).some) ?_
  refine .iteOpt (fun _ => (h.quiet Quiet.refl.tableWrite).some) ?_
  exact .iteOpt (fun _ => (h.quiet Quiet.refl.writeSlot).some) .none

theorem Keeps.regApply (h : Keeps s t) {req r i j a v early} (hr : regRow a = Option.some (r, i, j)) :
    Keeps s (t.regApply req r i j a v early) := by
  have hz : a = LANE_STATE.adr → r.rw = 0 ∧ r.w1c = 0 := fun ha => by subst ha; exact (regRow_laneState hr).1
  unfold Machine.State.regApply
  exact ((h.quiet (Quiet.refl.plainWrite hz)).getD (h.actWriteB hr)).getD (h.quietOpt (Quiet.refl.actWriteA hz))

theorem Keeps.blockWrite (h : Keeps s t) {req a v early} : Keeps s (t.blockWrite req a v early) := by
  unfold Machine.State.blockWrite
  refine .ite h ?_
  split
  · exact h
  next r i j hr =>
    split
    · exact h.quiet Quiet.refl.violate
    · exact h.regApply hr

theorem Keeps.store (h : Keeps s t) {req a v early} : Keeps s (t.store req a v early) := by
  unfold Machine.State.store
  refine Keeps.ite ?_ ?_
  · exact h.quiet Quiet.refl.accessFault
  · split
    · exact h.quiet Quiet.refl.tcmWrite
    · exact h.quiet Quiet.refl.sramWrite
    · exact h.blockWrite
    · exact h.quiet Quiet.refl.accessFault

theorem Keeps.execRegisterWrite (h : Keeps s t) {req addr value early} : Keeps.Out s
    (execRegisterWrite req addr value early t) := by
  unfold Machine.execRegisterWrite
  exact h.whenOn (fun hu => hu.store)

end Sys2Proof.Machine
end

section
/-! PROOF. Steps that set the lane state or the clock: the functions of Sys2Proof/Machine/PairPort.lean. -/

namespace Sys2Proof.Machine

set_option Elab.async false

variable {s t u : State}

theorem Keeps.access (h : Keeps s t) {p o early} : Keeps s (t.access p o early) := by
  unfold Machine.State.access
  exact Keeps.ite (Keeps.ite (h.quiet Quiet.refl.readWord) (((h.quiet Quiet.refl.accessFault)).quiet Quiet.refl.update))
      (Keeps.ite h.store h.store)

theorem Keeps.release (h : Keeps s t) {p o early} : Keeps s (t.release p o early) := by
  unfold Machine.State.release
  exact Keeps.ite (Keeps.ite (h.quiet Quiet.refl.update) h) ((((h.quiet Quiet.refl.setPair.setN).quiet
      Quiet.refl.emit).access).andThen fun k2 => Keeps.ite (k2.quiet Quiet.refl.logEntry) k2)

theorem Keeps.trailOut (h : Keeps s t) {p o early} : Keeps s (t.trailOut p o early) := by
  unfold Machine.State.trailOut
  refine Keeps.ite ?_ ?_
  · exact h
  · split
    · exact h.quiet Quiet.refl.raiseEv.restart
    · exact (h.quiet Quiet.refl.setPair.setFifo).andThen fun k1 =>
        Keeps.ite (k1.quiet Quiet.refl.raiseEv.restart) (Keeps.ite (k1.quiet Quiet.refl.raiseEv.restart) (Keeps.ite
        (k1.quiet Quiet.refl.raiseEv.restart) k1.release))

theorem Keeps.trails (h : Keeps s t) {p act} : Keeps s (t.trails p act) := by
  unfold Machine.State.trails
  split
  · exact h
  · exact Keeps.ite h (Keeps.ite h.trailOut (Keeps.ite (h.quiet Quiet.refl.setPair.tcmAct) h))
  · exact Keeps.ite (h.quiet Quiet.refl.setPair) h
  · exact h.quiet Quiet.refl.coreHolds
  · exact Keeps.ite (h.quiet Quiet.refl.trapEnd) h

theorem Keeps.execOutputCompare (h : Keeps s t) {pair hit lead trail} : Keeps.Out s (execOutputCompare pair hit lead trail t) := by
  unfold Machine.execOutputCompare
  exact ((h.quiet Quiet.refl.struck.leads).trails).out

end Sys2Proof.Machine
end

section
/-! PROOF. Steps that set the lane state or the clock: the functions of Sys2Proof/Machine/Ports.lean. -/

namespace Sys2Proof.Machine

set_option Elab.async false

variable {s t u : State}

theorem Keeps.execSpiRead (h : Keeps s t) {count} : Keeps.Out s (execSpiRead count t) := by
  unfold Machine.execSpiRead
  exact h.whenB (fun hu => (hu.quiet Quiet.refl.emit.spiErr).andThen fun k1 =>
      Keeps.ite (((k1.quiet Quiet.refl.update).quiet Quiet.refl.wb.wf).respGone) k1)

end Sys2Proof.Machine
end

section
/-! PROOF. Steps that set the lane state or the clock: the functions of Sys2Proof/Machine/Tick.lean. -/

namespace Sys2Proof.Machine

set_option Elab.async false

variable {s t u : State}

theorem Keeps.tick (h : Keeps s t) : Keeps s t.tick := by
  unfold Machine.State.tick
  extract_lets +onlyGivenNames x v
  have hv : Keeps s v := h.gtTick.quiet Quiet.refl.update
  clear_value v
  exact .ite (hv.quiet Quiet.refl.fbTick.glkFlows.svcWatch.hlthWatch.readyJudge.entriesTake) hv

end Sys2Proof.Machine
end

section
/-! PROOF. Every command and every step keeps the invariant. -/

namespace Sys2Proof.Machine

set_option Elab.async false

variable {s t u : State}

/-! ### Every command, and every step -/

theorem Keeps.exec (h : Keeps s t) (c : Instr) : Keeps.Out s (exec c t) := by
  cases c with
  | registerWrite => exact h.execRegisterWrite
  | accessFault => exact h.quietOut Quiet.refl.execAccessFault
  | grantDrainDone => exact h.quietOut Quiet.refl.execGrantDrainDone
  | gtLoRead => exact h.quietOut Quiet.refl.execGtLoRead
  | heartbeatSend => exact h.quietOut Quiet.refl.execHeartbeatSend
  | heartbeatReceive => exact h.quietOut Quiet.refl.execHeartbeatReceive
  | bridgeLossTimeout => exact h.quietOut Quiet.refl.execBridgeLossTimeout
  | timeMessageReceive => exact h.quietOut Quiet.refl.execTimeMessageReceive
  | summaryReceive => exact h.quietOut Quiet.refl.execSummaryReceive
  | moduleCommandReceive => exact h.quietOut Quiet.refl.execModuleCommandReceive
  | gtCorrection => exact h.execGtCorrection
  | holdoverEntry => exact h.execHoldoverEntry
  | strikeFire => exact h.quietOut Quiet.refl.execStrikeFire
  | strikeComplete => exact h.quietOut Quiet.refl.execStrikeComplete
  | strikeDeadline => exact h.quietOut Quiet.refl.execStrikeDeadline
  | grpenWrite => exact h.quietOut Quiet.refl.execGrpenWrite
  | grpenEffect => exact h.quietOut Quiet.refl.execGrpenEffect
  | spnDone => exact h.quietOut Quiet.refl.execSpnDone
  | spnLedgerClr => exact h.quietOut Quiet.refl.execSpnLedgerClr
  | speedUpdate => exact h.quietOut Quiet.refl.execSpeedUpdate
  | bankRunWrite => exact h.quietOut Quiet.refl.execBankRunWrite
  | bankCommit => exact h.quietOut Quiet.refl.execBankCommit
  | commitAccept => exact h.quietOut Quiet.refl.execCommitAccept
  | reloadDecision => exact h.quietOut Quiet.refl.execReloadDecision
  | periodBoundary => exact h.quietOut Quiet.refl.execPeriodBoundary
  | delayLineCalibration => exact h.quietOut Quiet.refl.execDelayLineCalibration
  | lineSwap => exact h.quietOut Quiet.refl.execLineSwap
  | tripAssert => exact h.quietOut Quiet.refl.execTripAssert
  | blankingClose => exact h.quietOut Quiet.refl.execBlankingClose
  | bothOnDetect => exact h.quietOut Quiet.refl.execBothOnDetect
  | linkKeepalive => exact h.quietOut Quiet.refl.execLinkKeepalive
  | capReceive => exact h.quietOut Quiet.refl.execCapReceive
  | cfgackReceive => exact h.quietOut Quiet.refl.execCfgackReceive
  | rateChange => exact h.quietOut Quiet.refl.execRateChange
  | characterLock => exact h.quietOut Quiet.refl.execCharacterLock
  | echoreplyReceive => exact h.quietOut Quiet.refl.execEchoreplyReceive
  | echoRecheck => exact h.quietOut Quiet.refl.execEchoRecheck
  | syncSend => exact h.quietOut Quiet.refl.execSyncSend
  | negotiateTimeout => exact h.quietOut Quiet.refl.execNegotiateTimeout
  | bringupRetry => exact h.quietOut Quiet.refl.execBringupRetry
  | statusReceive => exact h.quietOut Quiet.refl.execStatusReceive
  | upstreamFrameDiscard => exact h.quietOut Quiet.refl.execUpstreamFrameDiscard
  | statusMissing => exact h.quietOut Quiet.refl.execStatusMissing
  | levelSend => exact h.quietOut Quiet.refl.execLevelSend
  | glkSampaRead => exact h.quietOut Quiet.refl.execGlkSampaRead
  | fbcLevelChange => exact h.quietOut Quiet.refl.execFbcLevelChange
  | speedBoundUpdate => exact h.quietOut Quiet.refl.execSpeedBoundUpdate
  | speedStopTimeout => exact h.quietOut Quiet.refl.execSpeedStopTimeout
  | fbcPreset => exact h.quietOut Quiet.refl.execFbcPreset
  | fbcClrsusp => exact h.quietOut Quiet.refl.execFbcClrsusp
  | fbcPosRead => exact h.quietOut Quiet.refl.execFbcPosRead
  | sentFrame => exact h.quietOut Quiet.refl.execSentFrame
  | sentTimeout => exact h.quietOut Quiet.refl.execSentTimeout
  | loopSampleRun => exact h.quietOut Quiet.refl.execLoopSampleRun
  | adcStart => exact h.quietOut Quiet.refl.execAdcStart
  | adcConversionDone => exact h.quietOut Quiet.refl.execAdcConversionDone
  | serviceCapture => exact h.quietOut Quiet.refl.execServiceCapture
  | serviceAgreement => exact h.quietOut Quiet.refl.execServiceAgreement
  | serviceLaw => exact h.quietOut Quiet.refl.execServiceLaw
  | delegationDeadline => exact h.quietOut Quiet.refl.execDelegationDeadline
  | windingTakeOut => exact h.quietOut Quiet.refl.execWindingTakeOut
  | windingReturn => exact h.quietOut Quiet.refl.execWindingReturn
  | circuitTakeOut => exact h.quietOut Quiet.refl.execCircuitTakeOut
  | circuitReturn => exact h.quietOut Quiet.refl.execCircuitReturn
  | outputCompare => exact h.execOutputCompare
  | eventDelivery => exact h.quietOut Quiet.refl.execEventDelivery
  | checkpoint => exact h.quietOut Quiet.refl.execCheckpoint
  | restartLive => exact h.quietOut Quiet.refl.execRestartLive
  | resync => exact h.quietOut Quiet.refl.execResync
  | rejoin => exact h.quietOut Quiet.refl.execRejoin
  | rejoinTimeout => exact h.quietOut Quiet.refl.execRejoinTimeout
  | agreementReceive => exact h.quietOut Quiet.refl.execAgreementReceive
  | agreementResult => exact h.quietOut Quiet.refl.execAgreementResult
  | voteSend => exact h.quietOut Quiet.refl.execVoteSend
  | voteReceive => exact h.quietOut Quiet.refl.execVoteReceive
  | memberTimeout => exact h.quietOut Quiet.refl.execMemberTimeout
  | fitnessTimeout => exact h.execFitnessTimeout
  | parkEntry => exact h.quietOut Quiet.refl.execParkEntry
  | safetyInputDemand => exact h.quietOut Quiet.refl.execSafetyInputDemand
  | safetyInputHealthy => exact h.quietOut Quiet.refl.execSafetyInputHealthy
  | discrepancyFault => exact h.quietOut Quiet.refl.execDiscrepancyFault
  | discrepancyEnd => exact h.quietOut Quiet.refl.execDiscrepancyEnd
  | readbackMismatch => exact h.execReadbackMismatch
  | testPulseStart => exact h.quietOut Quiet.refl.execTestPulseStart
  | testPulseEnd => exact h.execTestPulseEnd
  | tskResponse => exact h.quietOut Quiet.refl.execTskResponse
  | challengeCheck => exact h.execChallengeCheck
  | pathDisagree => exact h.quietOut Quiet.refl.execPathDisagree
  | samplerFault => exact h.execSamplerFault
  | healthToggle => exact h.quietOut Quiet.refl.execHealthToggle
  | healthLoss => exact h.quietOut Quiet.refl.execHealthLoss
  | srstRelease => exact h.quietOut Quiet.refl.execSrstRelease
  | srstJammed => exact h.quietOut Quiet.refl.execSrstJammed
  | srstDiscrepancy => exact h.quietOut Quiet.refl.execSrstDiscrepancy
  | sourceRaise => exact h.execSourceRaise
  | quietExpiry => exact h.execQuietExpiry
  | eflMinExpiry => exact h.quietOut Quiet.refl.execEflMinExpiry
  | eflTestEnd => exact h.quietOut Quiet.refl.execEflTestEnd
  | tlyStat0Read => exact h.quietOut Quiet.refl.execTlyStat0Read
  | tlyRecfirstRead => exact h.quietOut Quiet.refl.execTlyRecfirstRead
  | tlyFwraise => exact h.quietOut Quiet.refl.execTlyFwraise
  | tallySelfCheck => exact h.execTallySelfCheck
  | networkChainBoundary => exact h.quietOut Quiet.refl.execNetworkChainBoundary
  | airumFrameReceive => exact h.quietOut Quiet.refl.execAirumFrameReceive
  | anwHandoff => exact h.quietOut Quiet.refl.execAnwHandoff
  | sealCutoff => exact h.quietOut Quiet.refl.execSealCutoff
  | sealComplete => exact h.quietOut Quiet.refl.execSealComplete
  | spanTransmit => exact h.execSpanTransmit
  | linkUp => exact h.quietOut Quiet.refl.execLinkUp
  | linkDown => exact h.quietOut Quiet.refl.execLinkDown
  | anRateAlternate => exact h.quietOut Quiet.refl.execAnRateAlternate
  | coldstartAttempt => exact h.quietOut Quiet.refl.execColdstartAttempt
  | backoffRetry => exact h.quietOut Quiet.refl.execBackoffRetry
  | starFrameReceive => exact h.quietOut Quiet.refl.execStarFrameReceive
  | frameCut => exact h.quietOut Quiet.refl.execFrameCut
  | coldstartHoldEnd => exact h.quietOut Quiet.refl.execColdstartHoldEnd
  | starChainBoundary => exact h.quietOut Quiet.refl.execStarChainBoundary
  | setPreferTimeout => exact h.quietOut Quiet.refl.execSetPreferTimeout
  | injectRelease => exact h.quietOut Quiet.refl.execInjectRelease
  | injectTokenLapse => exact h.quietOut Quiet.refl.execInjectTokenLapse
  | arbRequest => exact h.quietOut Quiet.refl.execArbRequest
  | arbUnitEnd => exact h.quietOut Quiet.refl.execArbUnitEnd
  | slotIdleAdvance => exact h.quietOut Quiet.refl.execSlotIdleAdvance
  | arbTableWrite => exact h.quietOut Quiet.refl.execArbTableWrite
  | quePost => exact h.quietOut Quiet.refl.execQuePost
  | queTake => exact h.quietOut Quiet.refl.execQueTake
  | queReturn => exact h.execQueReturn
  | steelyardAudit => exact h.quietOut Quiet.refl.execSteelyardAudit
  | mailboxRequestTake => exact h.quietOut Quiet.refl.execMailboxRequestTake
  | interimResponse => exact h.quietOut Quiet.refl.execInterimResponse
  | responseDrop => exact h.execResponseDrop
  | spiWrite => exact h.quietOut Quiet.refl.execSpiWrite
  | spiRead => exact h.execSpiRead
  | spiPoll => exact h.quietOut Quiet.refl.execSpiPoll
  | spiFrameError => exact h.quietOut Quiet.refl.execSpiFrameError
  | canReceive => exact h.quietOut Quiet.refl.execCanReceive
  | canTransmit => exact h.quietOut Quiet.refl.execCanTransmit
  | canBusOff => exact h.quietOut Quiet.refl.execCanBusOff
  | canStart => exact h.quietOut Quiet.refl.execCanStart
  | canStop => exact h.quietOut Quiet.refl.execCanStop
  | laneInfo => exact h.quietOut Quiet.refl.execLaneInfo
  | laneGrant => exact h.quietOut Quiet.refl.execLaneGrant
  | strikeSet => exact h.quietOut Quiet.refl.execStrikeSet
  | slpSplit => exact h.quietOut Quiet.refl.execSlpSplit
  | slpRejoin => exact h.quietOut Quiet.refl.execSlpRejoin
  | tskOutSet => exact h.quietOut Quiet.refl.execTskOutSet
  | queConfig => exact h.quietOut Quiet.refl.execQueConfig
  | queDisable => exact h.quietOut Quiet.refl.execQueDisable
  | arbPrioSet => exact h.quietOut Quiet.refl.execArbPrioSet
  | arbTableSet => exact h.quietOut Quiet.refl.execArbTableSet
  | anwNodeRestart => exact h.quietOut Quiet.refl.execAnwNodeRestart
  | astPortReadmit => exact h.quietOut Quiet.refl.execAstPortReadmit
  | pwmTripClear => exact h.quietOut Quiet.refl.execPwmTripClear
  | pwmLegClear => exact h.quietOut Quiet.refl.execPwmLegClear
  | glkPortRestart => exact h.quietOut Quiet.refl.execGlkPortRestart
  | glkLegClear => exact h.quietOut Quiet.refl.execGlkLegClear
  | lpeCtxRestart => exact h.quietOut Quiet.refl.execLpeCtxRestart
  | lpeCoefRead => exact h.quietOut Quiet.refl.execLpeCoefRead
  | svcStatus => exact h.quietOut Quiet.refl.execSvcStatus
  | steerWindingRestore => exact h.quietOut Quiet.refl.execSteerWindingRestore
  | brakeCircuitRestore => exact h.quietOut Quiet.refl.execBrakeCircuitRestore
  | fbcChanRestart => exact h.quietOut Quiet.refl.execFbcChanRestart
  | cmsLoad => exact h.quietOut Quiet.refl.execCmsLoad
  | cmsCheck => exact h.quietOut Quiet.refl.execCmsCheck
  | cmsConfirm => exact h.quietOut Quiet.refl.execCmsConfirm
  | cmsAbort => exact h.quietOut Quiet.refl.execCmsAbort
  | cmsRead => exact h.quietOut Quiet.refl.execCmsRead
  | cmsStatus => exact h.quietOut Quiet.refl.execCmsStatus
  | commitPeerMessage => exact h.quietOut Quiet.refl.execCommitPeerMessage
  | commitWaitTimeout => exact h.quietOut Quiet.refl.execCommitWaitTimeout
  | flashOperationDone => exact h.execFlashOperationDone
  | secNonce => exact h.quietOut Quiet.refl.execSecNonce
  | nonceExpiry => exact h.quietOut Quiet.refl.execNonceExpiry
  | secAttest => exact h.quietOut Quiet.refl.execSecAttest
  | secCertRead => exact h.quietOut Quiet.refl.execSecCertRead
  | secDebugEnter => exact h.execSecDebugEnter
  | secDebugExit => exact h.execSecDebugExit
  | secInjectToken => exact h.quietOut Quiet.refl.execSecInjectToken
  | secDebugDisable => exact h.quietOut Quiet.refl.execSecDebugDisable
  | secRootRevoke => exact h.quietOut Quiet.refl.execSecRootRevoke
  | secRekey => exact h.quietOut Quiet.refl.execSecRekey
  | secProfileLock => exact h.quietOut Quiet.refl.execSecProfileLock
  | nchLogRead => exact h.quietOut Quiet.refl.execNchLogRead
  | diagRead => exact h.quietOut Quiet.refl.execDiagRead
  | tlySetReaction => exact h.quietOut Quiet.refl.execTlySetReaction
  | tlyEflTest => exact h.quietOut Quiet.refl.execTlyEflTest
  | astInjArm => exact h.quietOut Quiet.refl.execAstInjArm
  | astInjStop => exact h.quietOut Quiet.refl.execAstInjStop
  | dbgProbeSet => exact h.quietOut Quiet.refl.execDbgProbeSet
  | probeEvent => exact h.quietOut Quiet.refl.execProbeEvent
  | updBegin => exact h.quietOut Quiet.refl.execUpdBegin
  | updWrite => exact h.quietOut Quiet.refl.execUpdWrite
  | updVerify => exact h.quietOut Quiet.refl.execUpdVerify
  | updActivate => exact h.quietOut Quiet.refl.execUpdActivate
  | updAbort => exact h.quietOut Quiet.refl.execUpdAbort
  | updStatus => exact h.quietOut Quiet.refl.execUpdStatus
  | powerValid => exact h.quietOut Quiet.refl.execPowerValid
  | powerLoss => exact h.execPowerLoss
  | vlaneOvervoltage => exact h.execVlaneOvervoltage
  | pmuVlaneUv => exact h.quietOut Quiet.refl.execPmuVlaneUv
  | pmuVlaneOv => exact h.quietOut Quiet.refl.execPmuVlaneOv
  | pmuRailFault => exact h.quietOut Quiet.refl.execPmuRailFault
  | pmuVioFault => exact h.execPmuVioFault
  | pmuTempHigh => exact h.quietOut Quiet.refl.execPmuTempHigh
  | thermalShutdown => exact h.execThermalShutdown
  | laneOscFault => exact h.quietOut Quiet.refl.execLaneOscFault
  | pmuWdkick => exact h.quietOut Quiet.refl.execPmuWdkick
  | watchdogTimeout => exact h.quietOut Quiet.refl.execWatchdogTimeout
  | rstnLow => exact h.execRstnLow
  | resetEnd => exact h.execResetEnd
  | bootComplete => exact h.execBootComplete
  | selftestComplete => exact h.execSelftestComplete
  | netwaitExpiry => exact h.quietOut Quiet.refl.execNetwaitExpiry
  | peerWaitTimeout => exact h.quietOut Quiet.refl.execPeerWaitTimeout
  | serviceEntry => exact h.execServiceEntry
  | switchEdge => exact h.quietOut Quiet.refl.execSwitchEdge
  | tripInputRelease => exact h.quietOut Quiet.refl.execTripInputRelease
  | busOffRecovery => exact h.quietOut Quiet.refl.execBusOffRecovery
  | updateCoordinationReceive => exact h.quietOut Quiet.refl.execUpdateCoordinationReceive

/-- Whatever waits at the front of the queue, a step keeps it. -/
theorem step_keeps (e : step s = .next t) : Keeps s t := by
  unfold step at e
  split at e
  · exact Keeps.refl.tick.out e
  · exact (Keeps.refl.quiet Quiet.refl.update).exec _ e

/-- Settles O57: every function of the model is quiet about it, or keeps it by what it sets. -/
theorem stepKeepsInvariant : Obligations.StepKeepsInvariant := by
  refine ⟨fun s t hs e => (step_keeps e).memOk hs, fun s t hs e => (step_keeps e).clockOk hs, fun s t hs e => ?_⟩
  obtain ⟨hst, hsp⟩ := hs
  obtain ⟨ht, hu⟩ := (step_keeps e).stateOk ⟨hst, svcAddrs_spare_iff.1 hsp⟩
  exact ⟨ht, svcAddrs_spare_iff.2 hu⟩

end Sys2Proof.Machine
end

section
/-! PROOF. Access faults (R22, R23), and the moves of a grant unit (R28, R30). -/

namespace Sys2Proof.Machine

/-! ### Access faults -/

theorem whenB_true {s : State} {c : Bool} (h : c = true) (k : State → State) : s.whenB c k = .next (k s) := by simp [State.whenB, h]

theorem accessFault_frame (s : State) (addr req : Nat) (wr : Bool) :
    s.accessFault addr req wr = { s with
      regs := (s.accessFault addr req wr).regs
      tly := (s.accessFault addr req wr).tly
      lane := { s.lane with lastFault := (s.accessFault addr req wr).lane.lastFault } } := by
  rw [State.accessFault, capture_frame]; rfl

theorem accessFault_rdata (s : State) (addr req : Nat) (wr : Bool) : (s.accessFault addr req wr).rdata = s.rdata := by
  rw [accessFault_frame]

/-- An access fault records the access and raises 6. -/
theorem accessFault_raises (s : State) (addr req : Nat) (wr : Bool) :
    Recorded s (s.accessFault addr req wr) addr req 0 wr ∧ Raised s (s.accessFault addr req wr) 6 (faultDetail req 0 wr) :=
  ⟨recorded_capture s addr req 0 wr, raised_capture s addr req 0 wr 6 _⟩

/-- A store to nothing, to boot ROM or to flash faults. -/
theorem store_nowhere {req a : Nat} (h : reaches req a = false ∨ region a = some 0 ∨ region a = some 4) (s : State) (v : Nat)
    (e : Bool) : s.store req a v e = s.accessFault a req true := by
  unfold State.store
  rcases h with h | h | h
  · rw [h]; rfl
  · rw [h]; split <;> rfl
  · rw [h]; split <;> rfl

/-- A store to a block's reserved offset changes nothing. -/
theorem store_reserved {req a : Nat} (h : region a = some 3) (hr : regRow a = none) (s : State) (v : Nat) (e : Bool) :
    s.store req a v e = s := by
  simp [State.store, reaches, h, State.blockWrite, hr]

/-! ### A command that is taken -/

/-- A command of the mailbox that waits for its turn runs on the state in which it is taken. -/
theorem mailCmd_asked {s : State} {ch : Fin 8} {cmd : Instr} {r : HmbRun} (h : s.Asked ch cmd r) (op : Nat) (k : State → State) :
    s.mailCmd ch op cmd k = .next (k (s.taken ch r)) := by
  obtain ⟨hs, -, hr, hc, ht⟩ := h
  simp [State.mailCmd, State.taken, hs, hr, hc, ht]

/-! ### Moves of a grant unit -/

/-- LANE_GRANT of a free unit to another owner that may hold it starts the move (R30). -/
theorem laneGrant_starts {s : State} {ch : Fin 8} {u o : Byte} {r : HmbRun} (h : s.Asked ch (.laneGrant ch u o) r)
    (hu : u.toNat < 63) (ho : unitAllows u.toNat o.toNat = true) (hs : s.svcUnit u.toNat = false)
    (hm : s.lane.moves.any (fun m => m.1 == u.toNat) = false) (hh : s.svcHeld.contains u.toNat = false)
    (hn : s.owner u.toNat ≠ o.toNat) :
    exec (.laneGrant ch u o) s = .next ((s.taken ch r).startMove u.toNat o.toNat (some ch.val)) := by
  change execLaneGrant ch u o s = _
  rw [execLaneGrant, show Fin.ofNat 8 ch.val = ch from Fin.ext (Nat.mod_eq_of_lt ch.isLt), mailCmd_asked h]
  have e : (s.taken ch r).moving u.toNat = false := hm
  have e1 : (s.taken ch r).svcUnit u.toNat = false := hs
  have e2 : (s.taken ch r).svcHeld.contains u.toNat = false := hh
  have e3 : (s.taken ch r).owner u.toNat ≠ o.toNat := hn
  simp only [e, e1, e2, if_neg e3, ho, if_neg (show ¬ 63 < u.toNat by omega), show u.toNat ≠ 63 by omega, Bool.not_true,
    Bool.false_eq_true, or_self, if_false, Bool.or_self]

/-- LANE_GRANT of unit 63, or to an owner that may not hold the unit, is refused (R28). -/
theorem laneGrant_refused {s : State} {ch : Fin 8} {u o : Byte} {r : HmbRun} (h : s.Asked ch (.laneGrant ch u o) r)
    (hu : u.toNat ≤ 63) (ho : u.toNat = 63 ∨ unitAllows u.toNat o.toNat = false) :
    exec (.laneGrant ch u o) s = .next ((s.taken ch r).finish ch stInvalidOwner []) := by
  change execLaneGrant ch u o s = _
  rw [execLaneGrant, show Fin.ofNat 8 ch.val = ch from Fin.ext (Nat.mod_eq_of_lt ch.isLt), mailCmd_asked h]
  have e : u.toNat = 63 ∨ (!unitAllows u.toNat o.toNat) = true := by simpa using ho
  simp only [if_neg (show ¬ 63 < u.toNat by omega), if_pos e]

/-- Where no queue is enabled none is admitted anew. -/
theorem readmitAll_of_disabled {s : State} (h : ∀ q : Fin 128, s.rb (QUE_CFG.EN q) = false) : s.readmitAll = s := by
  unfold State.readmitAll
  refine List.foldlRecOn (motive := fun t => t = s) _ _ rfl fun t ht q hq => ?_
  subst ht
  simp [h ⟨q, List.mem_range.1 hq⟩]

/-- Where no service has an act left none runs. -/
theorem svcGo_of_idle {s : State} (hp : s.svc.prog = []) (hw : s.svc.wind.prog = []) (hc : s.svc.circ.prog = []) : s.svcGo = s := by
  have ew : s.setWind { s.svc.wind with prog := [] } = s := by rw [← hw]; rfl
  have ec : s.setCirc { s.svc.circ with prog := [] } = s := by rw [← hc]; rfl
  have ep : ({ s with svc := { s.svc with prog := [] } } : State) = s := by rw [← hp]
  simp only [State.svcGo, hw, hc, hp, State.svcOps, ew, ec, ep]

/-- Neither a queue nor a service takes up what a move leaves: no act waits and no queue is enabled. -/
structure State.Unfollowed (s : State) : Prop where
  prog : s.svc.prog = []
  wind : s.svc.wind.prog = []
  circ : s.svc.circ.prog = []
  ques : ∀ q : Fin 128, s.rb (QUE_CFG.EN q) = false

theorem State.Unfollowed.follow {s : State} (h : s.Unfollowed) : s.readmitAll.svcGo = s := by
  rw [readmitAll_of_disabled h.ques, svcGo_of_idle h.prog h.wind h.circ]

/-- LANE_GRANT lies below the queues' registers. -/
theorem grant_apart_que (u q : Nat) (hu : u < 64) : (QUE_CFG.EN q).apart (LANE_GRANT.OWNER u) := by
  refine .inl (Nat.ne_of_gt ?_)
  show 0x40000100 + 4 * u < 0x400B0100 + 32 * q
  omega

theorem State.Unfollowed.of_regsBut {s t : State} {u : Nat} (h : s.Unfollowed) (hu : u < 64) (hs : t.svc = s.svc)
    (ht : RegsBut [LANE_GRANT.OWNER u] s t) : t.Unfollowed where
  prog := hs ▸ h.prog
  wind := hs ▸ h.wind
  circ := hs ▸ h.circ
  ques q := by
    rw [← h.ques q, State.rb, State.rb, ht _ (show 31 + 1 ≤ 32 by decide) (by simpa using grant_apart_que u q hu)]

/-- A unit that is bound no further is its new owner's. -/
theorem endMove_of_last {u : Nat} {m : GrantMove} (hn : m.next = none) (s : State) :
    s.endMove u m = { s.wf (LANE_GRANT.OWNER u) m.new with lane := { s.lane with moves := mdel s.lane.moves u } } := by
  simp only [State.endMove, hn]

theorem endMove_last_regsBut {u : Nat} {m : GrantMove} (hn : m.next = none) (s : State) :
    RegsBut [LANE_GRANT.OWNER u] s (s.endMove u m) := by
  rw [endMove_of_last hn]
  exact ((RegsBut.refl _ s).wf (by simp)).of_regs rfl

/-- The state in which the only move of the lane has ended. -/
def State.ended (s : State) (u new : Nat) : State := { s.wf (LANE_GRANT.OWNER u) new with lane := { s.lane with moves := [] } }

theorem owner_ended {u new : Nat} (h : new < 32) (s : State) : (s.ended u new).owner u = new :=
  (rf_wf_same s _ _ (show 0 + 5 ≤ 32 by decide)).trans (Nat.mod_eq_of_lt h)

/-- The unit of the only move, when it is bound further, moves on at once to its next owner. -/
theorem endMove_of_bound {s : State} {u o : Nat} {m : GrantMove} (hs : s.lane.moves = [(u, m)]) (hn : m.next = some o)
    (hm : m.new < 32) (ho : m.new ≠ o) : s.endMove u m = (s.ended u m.new).startMove u o none := by
  have hd : mdel s.lane.moves u = [] := by rw [hs]; simp [mdel]
  have he : (s.ended u m.new).moveTo u o = (s.ended u m.new).startMove u o none :=
    if_neg (fun h => ho ((owner_ended hm s).symm.trans h))
  simp only [State.endMove, hn, hd]
  exact he

/-- Nothing but registers and the lane's own notes differs. -/
def RegsLane (s t : State) : Prop := t = { s with regs := t.regs, lane := t.lane }

theorem RegsLane.trans {s t u : State} (h : RegsLane s t) (k : RegsLane t u) : RegsLane s u :=
  Eq.trans k (congrArg (fun t : State => { t with regs := u.regs, lane := u.lane }) h)

theorem RegsLane.svc_eq {s t : State} (h : RegsLane s t) : t.svc = s.svc := Eq.trans (congrArg State.svc h) rfl

theorem regsLane_ended (s : State) (u new : Nat) : RegsLane s (s.ended u new) := rfl

theorem regsLane_startMove (s : State) (u new : Nat) (ch : Option Nat) : RegsLane s (s.startMove u new ch) := rfl

theorem startMove_owner (s : State) (u new : Nat) (ch : Option Nat) : (s.startMove u new ch).rf (LANE_GRANT.OWNER u) = 0 :=
  rf_wf_same s _ _ (show 0 + 5 ≤ 32 by decide)

theorem RegsBut.startMove {l : List Fld} {s t : State} {u new : Nat} {ch : Option Nat} (hm : LANE_GRANT.OWNER u ∈ l)
    (h : RegsBut l s t) : RegsBut l s (t.startMove u new ch) := (h.wf (v := 0) hm).of_regs rfl

theorem RegsBut.ended {l : List Fld} {s t : State} {u new : Nat} (hm : LANE_GRANT.OWNER u ∈ l) (h : RegsBut l s t) :
    RegsBut l s (t.ended u new) := (h.wf (v := new) hm).of_regs rfl

/-- GRANT_DRAIN_DONE of a command's move answers the command. -/
theorem grantDrainDone_command {s : State} {u c : Nat} {m : GrantMove} (hon : s.on = true)
    (hm : s.lane.moves.find? (fun x => x.1 == u) = some (u, m)) (hc : m.ch = some c) :
    execGrantDrainDone u s = .next ((s.endMove u m).readmitAll.svcGo.finish c stOk []) := by
  simp only [execGrantDrainDone, hm, whenOn_on hon, hc]

theorem grantDrainDone_service {s : State} {u : Nat} {m : GrantMove} (hon : s.on = true)
    (hm : s.lane.moves.find? (fun x => x.1 == u) = some (u, m)) (hc : m.ch = none) :
    execGrantDrainDone u s = .next (s.endMove u m).readmitAll.svcGo := by
  simp only [execGrantDrainDone, hm, whenOn_on hon, hc]

/-! ### Answering a command leaves the grants alone -/

/-- The grant registers of the 64 units are as before. -/
def GrantsStay (s t : State) : Prop := ∀ u < 64, t.reg (LANE_GRANT.adr u) = s.reg (LANE_GRANT.adr u)

variable {s t u : State}

theorem GrantsStay.of_regs (h : GrantsStay s t) (hr : u.regs = t.regs) : GrantsStay s u := fun k hk => by
  rw [← h k hk, State.reg, State.reg, hr]

theorem GrantsStay.setReg (h : GrantsStay s t) {a : Nat} {v : Word} (ha : a < LANE_GRANT.adr 0 ∨ LANE_GRANT.adr 64 ≤ a) :
    GrantsStay s (t.setReg a v) := fun k hk => by
  refine (reg_setReg_ne _ _ ?_).trans (h k hk)
  unfold LANE_GRANT.adr at ha ⊢
  omega

theorem GrantsStay.wf (h : GrantsStay s t) {f : Fld} {v : Nat} (hf : f.adr < LANE_GRANT.adr 0 ∨ LANE_GRANT.adr 64 ≤ f.adr) :
    GrantsStay s (t.wf f v) := h.setReg hf

theorem GrantsStay.hwBit (h : GrantsStay s t) {f : Fld} {i : Nat} (hf : f.adr < LANE_GRANT.adr 0 ∨ LANE_GRANT.adr 64 ≤ f.adr) :
    GrantsStay s (t.hwBit f i) := GrantsStay.of_regs (t := t.wbit f i true) (h.wf hf) rfl

theorem GrantsStay.ite {c : Prop} {_ : Decidable c} {a b : State} (ha : GrantsStay s a) (hb : GrantsStay s b) :
    GrantsStay s (if c then a else b) := by
  split <;> assumption

/-- A block's register, at its base or further up. -/
theorem above_grants {b i : Nat} (h : LANE_GRANT.adr 64 ≤ b) : LANE_GRANT.adr 64 ≤ b + i := Nat.le_add_right_of_le h

theorem GrantsStay.capture (h : GrantsStay s t) {addr req kind wr} : GrantsStay s (t.capture addr req kind wr) := by
  unfold State.capture
  refine .ite ?_ ?_
  · exact (h.of_regs rfl).wf (.inl (by decide))
  · exact ((h.of_regs rfl).setReg (.inl (by decide))).setReg (.inl (by decide))

theorem GrantsStay.memStore (h : GrantsStay s t) {a l} : GrantsStay s (t.memStore a l) := h.of_regs rfl

theorem GrantsStay.irqTo (h : GrantsStay s t) {o vector src} : GrantsStay s (t.irqTo o vector src) := by
  unfold State.irqTo
  split
  · exact h
  · split
    · exact .ite (h.of_regs rfl) (h.of_regs rfl)
    · exact h.of_regs rfl

theorem GrantsStay.posted (h : GrantsStay s t) {q n} : GrantsStay s (t.posted q n) := by
  unfold State.posted
  extract_lets v w
  have hv : GrantsStay s v := (h.wf (.inr (above_grants (by decide)))).wf (.inr (above_grants (by decide)))
  have hw : GrantsStay s w := hv.of_regs rfl
  clear_value w
  have hb : GrantsStay s (w.hwBit (QUE_PEND.PEND (q / 32)) (q % 32)) := hw.hwBit (.inr (above_grants (by decide)))
  exact .ite (.ite hb hb.irqTo) hw

theorem GrantsStay.postBytes (h : GrantsStay s t) {q l} (e : t.postBytes q l = some u) : GrantsStay s u := by
  unfold State.postBytes at e
  dsimp only at e
  split at e
  · cases e
    refine GrantsStay.posted (GrantsStay.wf ?_ (.inr (above_grants (by decide))))
    exact List.foldlRecOn (motive := GrantsStay s) _ _ h fun v hv k _ => hv.memStore
  · cases e

theorem GrantsStay.respSend (h : GrantsStay s t) {c interim l} : GrantsStay s (t.respSend c interim l) := by
  unfold State.respSend
  refine .ite ?_ (.ite ?_ ?_)
  · exact ((h.of_regs rfl).wf (.inr (by decide))).wf (.inr (by decide))
  · refine .ite (.ite (h.of_regs rfl) (h.capture.of_regs rfl)) (h.wf (.inr (above_grants (by decide))))
  · dsimp only
    split
    · next u e =>
      split at e
      · exact h.postBytes e
      · cases e
    · exact h.of_regs rfl

theorem GrantsStay.respond (h : GrantsStay s t) {c interim l} : GrantsStay s (t.respond c interim l) := by
  refine GrantsStay.respSend ?_
  exact h.of_regs rfl

theorem GrantsStay.finish (h : GrantsStay s t) {c status payload} : GrantsStay s (t.finish c status payload) := by
  unfold State.finish
  split
  · exact h
  · extract_lets +onlyGivenNames x v w
    have hv : GrantsStay s v := h.of_regs rfl
    have hw : GrantsStay s w := .ite (hv.setReg (.inr (by decide))) hv
    exact (hw.wf (.inr (above_grants (by decide)))).respond

theorem owner_finish (k : Fin 64) (c status : Nat) (payload : List Byte) :
    (s.finish c status payload).rf (LANE_GRANT.OWNER k) = s.rf (LANE_GRANT.OWNER k) := by
  have h : GrantsStay s (s.finish c status payload) := GrantsStay.finish fun _ _ => rfl
  exact congrArg (fun w : Word => (LANE_GRANT.OWNER k).getN w.toNat) (h k k.isLt)

/-- ACCESS_FAULT of a read that reaches nothing, which returns 0 (R23). -/
theorem accessFault_read {req : Fin 32} {a : Nat} (hon : s.on = true) (hf : reaches req a = false) :
    exec (.accessFault req a false) s = .next { s.accessFault a req false with rdata := 0 } := by
  change execAccessFault req a false s = _
  unfold execAccessFault
  exact whenB_true (by simp [hon, hf]) _

/-- ACCESS_FAULT of a write that reaches nothing, boot ROM or flash. -/
theorem accessFault_write {req : Fin 32} {a : Nat} (hon : s.on = true)
    (hf : reaches req a = false ∨ region a = some 0 ∨ region a = some 4) :
    exec (.accessFault req a true) s = .next (s.accessFault a req true) := by
  change execAccessFault req a true s = _
  unfold execAccessFault
  exact whenB_true (by rcases hf with hf | hf | hf <;> simp [hon, hf]) _

/-- Settles O17: an access fault is a capture and a raise; a move writes OWNER and its own note. -/
theorem accessFaultsAndGrants : Obligations.AccessFaultsAndGrants := by
  refine ⟨fun s req a w hon hf => ?_, fun s req a v e hon hf => ?_, fun s req a v e hon hreg hrow => ?_,
    fun s ch u o r hask hu ho hsvc hm hh hn => ?_, fun s ch u o r hask hu ho => ?_,
    fun s u m c hon hm hc hn hp hw hci hq => ?_, fun s u m hon hm hc hn hp hw hci hq => ?_,
    fun s u m o hon hm hc hn hnew hno hp hw hci hq => ?_⟩
  case refine_1 =>
    obtain ⟨hrec, hraise⟩ := accessFault_raises s a req w
    have hfr := accessFault_frame s a req w
    cases w with
    | false =>
      have hr : reaches req a = false := hf.resolve_right (fun h => by cases h.1)
      exact ⟨_, accessFault_read hon hr, hrec, hraise, fun _ => rfl, fun h => (by cases h),
        congrArg (fun t : State => { t with rdata := 0 }) hfr⟩
    | true =>
      exact ⟨_, accessFault_write hon (hf.imp_right And.right), hrec, hraise, fun h => (by cases h),
        fun _ => accessFault_rdata s a req true, hfr.trans (by rw [accessFault_rdata])⟩
  case refine_2 =>
    obtain ⟨hrec, hraise⟩ := accessFault_raises s a req true
    refine ⟨_, ?_, hrec, hraise, accessFault_frame s a req true⟩
    change s.whenOn (fun s => s.store req a v.toNat e) = _
    rw [whenOn_on hon, store_nowhere hf]
  case refine_3 =>
    refine ⟨s, ?_, rfl⟩
    change s.whenOn (fun s => s.store req a v.toNat e) = _
    rw [whenOn_on hon, store_reserved hreg hrow]
  case refine_4 =>
    have hb : RegsBut [LANE_GRANT.OWNER u.toNat] s (s.taken ch r) := (RegsBut.refl _ s).of_regs rfl
    refine ⟨_, laneGrant_starts hask hu ho hsvc hm hh hn, startMove_owner _ _ _ _, mget_mset_same _ _ _ _, ?_,
      hb.startMove (by simp), rfl⟩
    change ((s.taken ch r).chan ch).run = _
    rw [State.taken, chan_setChan, if_pos rfl]
  case refine_5 => exact ⟨_, laneGrant_refused hask hu ho, rfl⟩
  case refine_6 =>
    have hun : (s.endMove u m).Unfollowed :=
      State.Unfollowed.of_regsBut ⟨hp, hw, hci, hq⟩ u.isLt (by rw [endMove_of_last hn]; rfl) (endMove_last_regsBut hn s)
    refine ⟨_, (grantDrainDone_command hon hm hc).trans (by rw [hun.follow]), by rw [endMove_of_last hn], ?_⟩
    rw [owner_finish, endMove_of_last hn]
    exact rf_wf_same s _ _ (show 0 + 5 ≤ 32 by decide)
  case refine_7 =>
    have he := endMove_of_last (u := u) hn s
    have hb := endMove_last_regsBut (u := u) hn s
    have hun : (s.endMove u m).Unfollowed := State.Unfollowed.of_regsBut ⟨hp, hw, hci, hq⟩ u.isLt (by rw [he]; rfl) hb
    refine ⟨_, (grantDrainDone_service hon hm hc).trans (by rw [hun.follow]), ?_, by rw [he], hb, by rw [he]; rfl⟩
    rw [he]
    exact rf_wf_same s _ _ (show 0 + 5 ≤ 32 by decide)
  case refine_8 =>
    have hf : s.lane.moves.find? (fun x => x.1 == u.val) = some (u.val, m) := by rw [hm]; simp
    have he := endMove_of_bound hm hn hnew hno
    have hb : RegsBut [LANE_GRANT.OWNER u] s (s.endMove u m) := by
      rw [he]
      exact ((RegsBut.refl _ s).ended (by simp)).startMove (by simp)
    have hl : RegsLane s (s.endMove u m) := by
      rw [he]
      exact (regsLane_ended s u m.new).trans (regsLane_startMove _ u o none)
    have hun : (s.endMove u m).Unfollowed := State.Unfollowed.of_regsBut ⟨hp, hw, hci, hq⟩ u.isLt hl.svc_eq hb
    refine ⟨_, (grantDrainDone_service hon hf hc).trans (by rw [hun.follow]), ?_, ?_, hb, hl⟩
    · rw [he, startMove_owner]
    · rw [he]
      change [(u.val, ({ old := (s.ended u m.new).owner u, new := o, ch := none } : GrantMove))] = _
      rw [owner_ended hnew]

end Sys2Proof.Machine
end

section
/-! PROOF. A good heartbeat that writes memory: the answer that ends a check of a commit set (R429, log entry 43). -/

namespace Sys2Proof.Machine
/-- A lane in SERVICE whose bridges are down, while its check of a commit set on channel 2 awaits the peers; the channel answers
into queue 0, whose ring of 16 entries on 0x2000_0000 is empty. -/
def State.checking : State :=
  let s := ((State.serv.wb (QUE_CFG.EN 0) true).wf (QUE_CFG.SIZEEXP 0) 4).wf (QUE_BASE.ADDR 0) 0x800000
  let s := (s.wb (QUE_STAT.ADMIT 0) true).wf (QUE_CNT.FREE 0) 16
  { s.setChan 2 { s.chan 2 with run := some {} } with sec := { s.sec with checkCh := some 2 } }

/-- A heartbeat of peer 1 that is all zeros. -/
def zeroHeartbeat : Instr := .heartbeatReceive 1 (Vector.replicate 28 0) true

/-- How many bytes of SRAM are not 0 in the state that a command leads to. -/
def memLength : Res → Nat
  | .next t => t.mem.length
  | _ => 0

theorem checking_writes_memory : memLength (exec zeroHeartbeat State.checking) = 6 := by decide +kernel

/-- Refutes O18: its last clause lets a good heartbeat leave memory alone in any state, but the heartbeat of an absent peer ends a
check of a commit set with PEER_ABSENT, and that answer is written into the response queue of its channel. -/
theorem not_bridgeMessages : ¬ Obligations.BridgeMessages := by
  rintro ⟨-, -, -, -, -, -, -, -, -, -, good⟩
  obtain ⟨t, ht, -, -, hm, -⟩ := good State.checking 1 (Vector.replicate 28 0) (by decide +kernel) (by decide +kernel) (by decide +kernel)
  have h := checking_writes_memory
  rw [zeroHeartbeat, ht, memLength, hm] at h
  exact absurd h (by decide +kernel)
end Sys2Proof.Machine
end
section
/-! PROOF. What a command makes of the lane's time and state: quiet steps, entries of a new state, and resets. -/

namespace Sys2Proof.Machine

set_option Elab.async false

variable {s t u : State}

/-! ### The course of a command -/

/-- What a command does, one part after the other: quiet steps, the end of the slew, the entry of another state of the lane before
any reset, the fall from SERVICE to INTEGRATE, and a reset out of any state but OFF. -/
inductive Course (s : State) : State → Prop
  | quiet {t : State} : Quiet s t → Course s t
  | andQuiet {t u : State} : Course s t → Quiet t u → Course s u
  | slewEnds {t : State} : Course s t → Course s { t with slew := 0 }
  | enter {t : State} {n : Nat} : Quiet s t → n ≠ stOff → n < 16 → Course s (t.toSt n)
  | leave {t : State} : Course s t → t.st = stService → Course s (t.toSt stIntegrate)
  | reset {t : State} : Course s t → t.st ≠ stOff → Course s t.afterReset

/-- The state after the part of a command that began a reset: OFF, with GT 0 and nothing that waits to be written. -/
structure State.Fallen (t : State) : Prop where
  st_off : t.st = stOff
  gt_zero : t.gt = 0
  spares : t.svc.Spares

theorem State.Fallen.quiet (h : t.Fallen) (q : Quiet t u) : u.Fallen where
  st_off := (q.svc_ok h.spares).1.trans h.st_off
  gt_zero := q.gt_eq.trans h.gt_zero
  spares := (q.svc_ok h.spares).2

theorem st_toSt {n : Nat} (hn : n < 16) : (t.toSt n).st = n :=
  (rf_wf_same _ _ _ (by decide)).trans (Nat.mod_eq_of_lt hn)

theorem fallen_afterReset : t.afterReset.Fallen := by
  have h : ∀ (r : State) (a b : Nat), r.gt = 0 → r.svc.Spares →
      (((r.wf LANE_PROFILE.ACTIVE a).wf LANE_STATE.PREV b).wf LANE_STATE.STATE stOff).Fallen := fun r a b hg hs =>
    ⟨(rf_wf_same _ _ _ (by decide)).trans (by decide), hg, hs⟩
  have h0 : SvcSt.Spares {} := svcAddrs_spare_iff (s := State.reset).1 (by decide)
  unfold State.afterReset
  refine h _ _ _ ?_ ?_
  · split <;> rfl
  · split <;> exact h0

/-- Unless a reset has begun, GT is as before, and a lane out of OFF stays out of it, but for a write of the services. -/
theorem Course.times (h : Course s t) :
    t.Fallen ∨ (t.gt = s.gt ∧ (s.svc.Spares → s.st ≠ stOff → t.svc.Spares ∧ t.st ≠ stOff)) := by
  induction h with
  | quiet q => exact .inr ⟨q.gt_eq, fun hs hst => ⟨(q.svc_ok hs).2, (q.svc_ok hs).1 ▸ hst⟩⟩
  | andQuiet _ q ih =>
    rcases ih with hf | ⟨hg, hk⟩
    · exact .inl (hf.quiet q)
    · refine .inr ⟨q.gt_eq.trans hg, fun hs hst => ?_⟩
      obtain ⟨hs', hst'⟩ := hk hs hst
      exact ⟨(q.svc_ok hs').2, (q.svc_ok hs').1 ▸ hst'⟩
  | slewEnds _ ih => exact ih.imp (fun hf => ⟨hf.st_off, hf.gt_zero, hf.spares⟩) id
  | enter q hn hl => exact .inr ⟨q.gt_eq, fun hs _ => ⟨(q.svc_ok hs).2, by rwa [st_toSt hl]⟩⟩
  | leave _ hst ih =>
    rcases ih with hf | ⟨hg, hk⟩
    · exact absurd (hst.symm.trans hf.st_off) (by decide)
    · exact .inr ⟨hg, fun hs h0 => ⟨(hk hs h0).1, by rw [st_toSt (by decide)]; decide⟩⟩
  | reset _ _ _ => exact .inl fallen_afterReset

/-- The state that a command leads to lies on its course. -/
def Course.Out (s : State) (r : Res) : Prop := ∀ ⦃u⦄, r = .next u → Course s u

def Course.Opt (s : State) (o : Option State) : Prop := ∀ ⦃u⦄, o = some u → Course s u

theorem Course.refl : Course s s := .quiet .refl

theorem Course.out (h : Course s t) : Course.Out s (.next t) := fun _ e => by cases e; exact h

theorem Course.ite {c : Prop} {_ : Decidable c} {a b : State} (ha : Course s a) (hb : Course s b) :
    Course s (if c then a else b) := by
  split <;> assumption

theorem Course.iteOpt {c : Prop} {_ : Decidable c} {a b : Option State} (ha : c → Course.Opt s a) (hb : Course.Opt s b) :
    Course.Opt s (if c then a else b) := by
  split
  · exact ha ‹_›
  · exact hb

/-- What follows, from a state that several of its branches share. -/
theorem Course.andThen {p : Prop} (h : Course s t) (k : Course s t → p) : p := k h

theorem Course.foldl {α : Type} {g : State → α → State} {l : List α} (h : Course s t)
    (hg : ∀ {u x}, Course s u → Course s (g u x)) : Course s (l.foldl g t) := by
  induction l generalizing t with
  | nil => exact h
  | cons x l ih => exact ih (hg h)

theorem Course.some (h : Course s t) : Course.Opt s (some t) := fun _ e => by cases e; exact h

theorem Course.none : Course.Opt s none := fun _ e => by cases e

theorem Course.getD {o : Option State} (h : Course s t) (ho : Course.Opt s o) : Course s (o.getD t) := by
  cases o with
  | none => exact h
  | some u => exact ho rfl

theorem Course.andQuietOpt {o : Option State} (h : Course s t) (q : Quiet.Opt t o) : Course.Opt s o := fun _ e => h.andQuiet (q e)

theorem Course.whenOn {k} (hk : Course s (k s)) : Course.Out s (s.whenOn k) := (Course.ite hk .refl).out

theorem Course.whenB {c k} (hk : Course s (k s)) : Course.Out s (s.whenB c k) := (Course.ite hk .refl).out

/-- A command of the mailbox acts in a state that a quiet step leads to. -/
theorem Course.mailCmd {c op cmd k} (hk : ∀ {u}, Quiet s u → Course s (k u)) : Course.Out s (s.mailCmd c op cmd k) := by
  have hadmit {t row tag len} {go : State → State} (h : Quiet s t) (hgo : ∀ {u}, Quiet s u → Course s (go u)) :
      Course s (t.admitReq c row tag len go) := by
    unfold Machine.State.admitReq
    refine .ite (.quiet h.incSat.refuseReq) ?_
    split
    · exact .quiet h.refuseReq
    · exact hgo h
  unfold Machine.State.mailCmd
  refine (Course.ite .refl ?_).out
  split
  · exact .ite (hk Quiet.refl.setChan) .refl
  · split
    · exact .ite (hadmit Quiet.refl.countReq fun hu => hk hu.beginRun) .refl
    · exact .refl

/-! ### The Tailstock and the fall out of SERVICE -/

theorem Course.leaveService (h : Course s t) : Course s t.leaveService := by
  unfold Machine.State.leaveService
  split
  · exact h
  · next hst =>
    exact ((h.leave (not_not.1 hst)).andQuiet Quiet.refl.loadGrants.installCerts.startUnits).andQuiet
      Quiet.refl.update.setRmode.outEval.springRule

theorem Course.judgeFit (h : Course s t) : Course s t.judgeFit := by
  unfold Machine.State.judgeFit
  exact h.leaveService.ite h

theorem Course.toSafe (h : Course s t) {cause} : Course s (t.toSafe cause) := by
  unfold Machine.State.toSafe
  exact h.ite (h.andQuiet Quiet.refl.wb.wf.wb.wb.outEval).judgeFit

theorem course_fitnessTimeout : Course.Out s (execFitnessTimeout s) := by
  unfold Machine.execFitnessTimeout
  exact .whenB Course.refl.leaveService

theorem course_samplerFault : Course.Out s (execSamplerFault s) := by
  unfold Machine.execSamplerFault
  exact .whenOn (Course.quiet Quiet.refl.raiseEv).toSafe

theorem course_readbackMismatch {output padOn} : Course.Out s (execReadbackMismatch output padOn s) := by
  unfold Machine.execReadbackMismatch
  exact .whenB ((Course.quiet Quiet.refl.raiseEv.wbit).andThen fun h => (h.andQuiet Quiet.refl.wbit.outEval).ite h.toSafe)

theorem course_testPulseEnd {output padOn} : Course.Out s (execTestPulseEnd output padOn s) := by
  have hend {t stuck} (h : Course s t) : Course s (t.testEnd output stuck) := by
    unfold Machine.State.testEnd
    exact (h.toSafe.andQuiet Quiet.refl.wbit).ite (h.andQuiet Quiet.refl.wbit.padsFollow)
  unfold Machine.execTestPulseEnd
  exact .whenB ((hend (.quiet Quiet.refl.wbit.raiseEv)).ite (hend .refl))

theorem course_challengeCheck : Course.Out s (execChallengeCheck s) := by
  unfold Machine.execChallengeCheck
  split
  · exact Course.refl.out
  · exact .whenB ((Course.quiet Quiet.refl.update.incWrap.wf).ite
      ((Course.quiet Quiet.refl.update.raiseEv.incSat.wf).andThen fun h => h.toSafe.ite h))

/-! ### Resets -/

theorem Course.laneReset (h : Course s t) {cause} : Course s (t.laneReset cause) := by
  unfold Machine.State.laneReset
  extract_lets +onlyGivenNames s1
  have h1 : Course s s1 := .ite (h.andQuiet Quiet.refl.holdUntil) h
  clear_value s1
  split
  · exact .ite (h1.andQuiet Quiet.refl.powerCause) (.ite (h1.andQuiet Quiet.refl.wf) h1)
  · next hst =>
    have h2 : Course s s1.afterReset := h1.reset hst
    refine .ite (h2.andQuiet Quiet.refl.powerCause) ?_
    split
    · exact .ite (h2.andQuiet Quiet.refl.incSat.wf) (h2.andQuiet Quiet.refl.incSat.wf.holdUntil.tallyCause)
    · exact h2.andQuiet Quiet.refl.incSat.wf

theorem Course.tallyReset (h : Course s t) {src detail gt} : Course s (t.tallyReset src detail gt) := by
  unfold Machine.State.tallyReset
  exact .ite (.ite (h.andQuiet Quiet.refl.holdUntil.tallyCause) h) (h.laneReset.andQuiet Quiet.refl.tallyCause)

theorem Course.selfCheck (h : Course s t) : Course s t.selfCheck := by
  unfold Machine.State.selfCheck
  exact h.ite h.tallyReset

theorem Course.raiseIn (h : Course s t) {r} : Course s (t.raiseIn r) := by
  unfold Machine.State.raiseIn
  exact h.ite ((Course.ite (h.andQuiet Quiet.refl.openSrc) (h.andQuiet Quiet.refl.incSat.setN)).andThen fun h1 =>
    (Course.ite (h1.andQuiet Quiet.refl.blkReset) h1).andThen fun h2 => h2.tallyReset.ite h2)

theorem course_sourceRaise : Course.Out s (execSourceRaise s) := by
  unfold Machine.execSourceRaise Machine.State.raiseWindow
  refine .whenB (.ite ?_ ?_)
  · exact ((Course.quiet Quiet.refl.update).foldl fun hu => hu.raiseIn).andThen fun h =>
      (h.andQuiet Quiet.refl.eflEval).selfCheck.ite h
  · split
    · exact Course.refl.tallyReset
    · exact .refl

theorem course_quietExpiry {source} : Course.Out s (execQuietExpiry source s) := by
  unfold Machine.execQuietExpiry
  exact .whenB (Course.quiet Quiet.refl.wf.incSat.wbit.wf.sendSummary.eflEval).selfCheck

theorem course_tallySelfCheck : Course.Out s (execTallySelfCheck s) := by
  unfold Machine.execTallySelfCheck
  exact (Course.refl.selfCheck.ite (Course.refl.tallyReset.ite .refl)).out

theorem course_powerLoss : Course.Out s (execPowerLoss s) := by
  unfold Machine.execPowerLoss
  exact (Course.refl.laneReset.andQuiet Quiet.refl.setPmu.wb).out

theorem course_vlaneOvervoltage : Course.Out s (execVlaneOvervoltage s) := by
  unfold Machine.execVlaneOvervoltage
  exact (Course.refl.laneReset.andQuiet Quiet.refl.setPmu).out

theorem course_pmuVioFault {banks} : Course.Out s (execPmuVioFault banks s) := by
  unfold Machine.execPmuVioFault
  exact ((Quiet.ite (Quiet.refl.foldl fun hu => hu.fbCatch) .refl).setPmu).andThen fun h1 =>
    (Quiet.ite h1.holdUntil h1).andThen fun h2 =>
    (Course.ite (.quiet h2) (.ite (Course.quiet h2.vioJudge).laneReset (.quiet h2.vioJudge))).out

theorem course_thermalShutdown {cooled} : Course.Out s (execThermalShutdown cooled s) := by
  unfold Machine.execThermalShutdown
  exact (Course.ite (.quiet Quiet.refl.setPmu) (Course.refl.laneReset.andQuiet Quiet.refl.setPmu)).out

theorem course_rstnLow {released} : Course.Out s (execRstnLow released s) := by
  unfold Machine.execRstnLow
  exact (Course.ite (.ite (.quiet Quiet.refl.setPmu.holdUntil) .refl) (Course.refl.laneReset.andQuiet Quiet.refl.setPmu)).out

/-! ### Orders and responses that a reset follows -/

theorem Course.resetAfter (h : Course s t) {c} : Course s (t.resetAfter c) := by
  unfold Machine.State.resetAfter
  exact (h.andQuiet Quiet.refl.update).ite h.laneReset

theorem Course.respGone (h : Course s t) {c} : Course s (t.respGone c) := by
  unfold Machine.State.respGone
  exact h.laneReset.ite h

theorem Course.respRetry (h : Course s t) {c} : Course s (t.respRetry c) := by
  unfold Machine.State.respRetry
  split
  · exact h
  · split
    · exact h
    · next e => exact (h.andQuiet (Quiet.refl.postBytes e).setChan).andThen fun h1 => h1.respGone.ite h1

theorem Course.giveBackTo (h : Course s t) {q n} : Course s (t.giveBackTo q n) := by
  unfold Machine.State.giveBackTo Machine.State.respRetries
  exact (h.andQuiet Quiet.refl.giveBack).foldl fun hu => hu.respRetry

theorem course_queReturn {req queue count} : Course.Out s (execQueReturn req queue count s) := by
  unfold Machine.execQueReturn
  exact .whenOn (Course.refl.giveBackTo.ite (.quiet Quiet.refl.violate))

theorem course_responseDrop {ch} : Course.Out s (execResponseDrop ch s) := by
  unfold Machine.execResponseDrop
  refine .whenOn ?_
  have h : Course s (s.respRetry ch) := Course.refl.respRetry
  dsimp only
  split
  · exact h
  · exact h.ite ((h.andQuiet Quiet.refl.setChan.incSat).andThen fun h1 => h1.respGone.ite h1)

theorem course_spanTransmit {flow} : Course.Out s (execSpanTransmit flow s) := by
  unfold Machine.execSpanTransmit
  split
  · exact Course.refl.out
  · exact ((Course.quiet Quiet.refl.spanRun).andThen fun h => h.respGone.ite h).out

theorem course_spiRead {count} : Course.Out s (execSpiRead count s) := by
  unfold Machine.execSpiRead
  exact .whenB ((Course.quiet Quiet.refl.emit.spiErr).andThen fun h => (h.andQuiet Quiet.refl.update.wb.wf).respGone.ite h)

theorem course_secDebugEnter {ch token} : Course.Out s (execSecDebugEnter ch token s) := by
  have henter {t} (h : Quiet s t) : Course s t.enterDebug := by
    unfold Machine.State.enterDebug
    exact .ite (.quiet h) ((Course.enter h.raiseEv (by decide) (by decide)).andQuiet Quiet.refl.nodeGoOff.outEval.redecide)
  unfold Machine.execSecDebugEnter
  exact .mailCmd fun hu => .ite (.quiet hu.finish) (.ite ((henter hu.nonceUsed).andQuiet Quiet.refl.finish) (.quiet hu.nonceUsed.finish))

theorem course_secDebugExit {ch} : Course.Out s (execSecDebugExit ch s) := by
  unfold Machine.execSecDebugExit
  exact .mailCmd fun hu => (Course.quiet hu.finish).resetAfter

theorem course_orderStep {p} : Course s (s.orderStep p) := by
  have hend {t} (h : Quiet s t) : Course s (t.orderEnd p) := by
    unfold Machine.State.orderEnd
    dsimp only
    split
    · exact .ite (Course.quiet h.procEnd).resetAfter (.quiet h.procEnd)
    · exact .quiet h.procEnd
  unfold Machine.State.orderStep
  dsimp only
  split
  · exact .quiet Quiet.refl.journal.setProc
  · exact .quiet Quiet.refl.notch.setProc
  · exact hend Quiet.refl.journal.orderDone

theorem course_flashOperationDone {ok} : Course.Out s (execFlashOperationDone ok s) := by
  have hact {p} : Course s (s.activateStep p) := by
    unfold Machine.State.activateStep
    exact (Course.quiet (Quiet.refl.updRec.bridgeAll.update.procEnd)).resetAfter
  unfold Machine.execFlashOperationDone
  refine .whenB ?_
  split
  · exact .refl
  · exact .ite (.quiet Quiet.refl.procFail) (.ite (.quiet Quiet.refl.commitStep) (.ite course_orderStep
      (.ite (.quiet Quiet.refl.openStep) hact)))

/-! ### From BOOT to SERVICE -/

theorem course_bootComplete : Course.Out s (execBootComplete s) := by
  unfold Machine.execBootComplete
  exact .whenB (.ite (.quiet Quiet.refl.romBoot)
    ((Course.enter Quiet.refl.romBoot.bootOrder.bootCommit.bootSet (by decide) (by decide)).andQuiet Quiet.refl.wf))

theorem course_enterIntegrate (h : Quiet s t) : Course s t.enterIntegrate := by
  unfold Machine.State.enterIntegrate
  exact (((Course.enter h (by decide) (by decide)).andQuiet Quiet.refl.wf.loadGrants).andQuiet
    Quiet.refl.update.wb.vioJudge).andQuiet Quiet.refl.appBoot.startBlocks.eflEval

theorem course_selftestComplete {r} : Course.Out s (execSelftestComplete r s) := by
  unfold Machine.execSelftestComplete
  have hq : Quiet s (s.selfSteps r).1 := Quiet.refl.selfSteps
  refine .whenB ?_
  dsimp only
  generalize s.selfSteps r = x at hq ⊢
  exact .ite (course_enterIntegrate hq.setN) (.quiet hq.setN.update)

theorem course_enterService (h : Quiet s t) : Course s t.enterService := by
  unfold Machine.State.enterService
  exact (((Course.enter h (by decide) (by decide)).andQuiet Quiet.refl.wf.update).andQuiet
    (Quiet.refl.foldl fun hu => hu.setRdmPeer.setPeer)).andThen fun h1 =>
    (Course.ite (h1.andQuiet Quiet.refl.followStart.adoptMembers) (h1.andQuiet Quiet.refl.followStart)).andQuiet
      Quiet.refl.outEval.redecide

theorem course_serviceEntry : Course.Out s (execServiceEntry s) := by
  have h : Quiet s s.serveJudge.readyJudge := Quiet.refl.serveJudge.readyJudge
  unfold Machine.execServiceEntry
  refine .whenB ?_
  dsimp only
  split
  · exact .quiet h
  · exact .ite (course_enterService h) (.quiet h)

/-- RESET_END waits for a lane in OFF. -/
theorem course_resetEnd (hs : s.st ≠ stOff) : Course.Out s (execResetEnd s) := by
  unfold Machine.execResetEnd Machine.State.whenB
  rw [if_neg (by simp [hs])]
  exact Course.refl.out

theorem course_holdoverEntry : Course.Out s (execHoldoverEntry s) := by
  unfold Machine.execHoldoverEntry
  exact .whenB (Course.quiet Quiet.refl.wb.assertSrc).slewEnds

/-! ### Accesses -/

theorem Course.actWriteB (h : Course s t) {req r i j a v early} (hr : regRow a = Option.some (r, i, j)) :
    Course.Opt s (t.actWriteB req r i j a v early) := by
  have own {o : Own} (ho : r.own = o) (hne : o ≠ .status) : a ≠ LANE_STATE.adr := fun ha => by
    subst ha; exact hne (ho ▸ (regRow_laneState hr).2.1)
  have base {n : Nat} (hb : r.base = n) (hne : n ≠ LANE_STATE.adr) : a ≠ LANE_STATE.adr := fun ha => by
    subst ha; exact hne (hb ▸ (regRow_laneState hr).2.2)
  unfold Machine.State.actWriteB
  refine .iteOpt (fun _ => (h.andQuiet Quiet.refl.outReq).some) ?_
  refine .iteOpt (fun _ => (h.andQuiet Quiet.refl.responseWrite).some) ?_
  refine .iteOpt (fun _ => (h.andQuiet Quiet.refl.forceWrite).some) ?_
  refine .iteOpt (fun _ => (h.andQuiet Quiet.refl.srcCfgWrite).some) ?_
  refine .iteOpt (fun ho => (h.andQuiet (Quiet.refl.newClear (own ho (by decide)))).some) ?_
  refine .iteOpt (fun _ => (h.andQuiet Quiet.refl.fwRaise).some) ?_
  refine .iteOpt (fun _ => (Course.ite (h.andQuiet Quiet.refl.sealStart) h).some) ?_
  refine .iteOpt (fun _ => (h.andQuiet Quiet.refl.armWrite).some) ?_
  refine .iteOpt (fun _ => .iteOpt (fun _ => h.some) .none) ?_
  refine .iteOpt (fun ho => (h.andQuiet (Quiet.refl.pendWrite (own ho (by decide)))).some) ?_
  refine .iteOpt (fun _ => (h.andQuiet Quiet.refl.queCfgWrite).some) ?_
  refine .iteOpt (fun hb => (h.andQuiet (Quiet.refl.setReg (base hb (by decide))).readmit).some) ?_
  refine .iteOpt (fun _ => (h.andQuiet Quiet.refl.post).some) ?_
  refine .iteOpt (fun _ => (h.andQuiet Quiet.refl.take).some) ?_
  refine .iteOpt (fun _ => h.giveBackTo.some) ?_
  refine .iteOpt (fun _ => (h.andQuiet Quiet.refl.arbCtlWrite).some) ?_
  refine .iteOpt (fun _ => (h.andQuiet Quiet.refl.prioWrite).some) ?_
  refine .iteOpt (fun _ => (h.andQuiet Quiet.refl.prioWrite).some) ?_
  refine .iteOpt (fun _ => (h.andQuiet Quiet.refl.tableWrite).some) ?_
  exact .iteOpt (fun _ => (h.andQuiet Quiet.refl.writeSlot).some) .none

theorem Course.regApply (h : Course s t) {req r i j a v early} (hr : regRow a = Option.some (r, i, j)) :
    Course s (t.regApply req r i j a v early) := by
  have hz : a = LANE_STATE.adr → r.rw = 0 ∧ r.w1c = 0 := fun ha => by subst ha; exact (regRow_laneState hr).1
  unfold Machine.State.regApply
  exact ((h.andQuiet (Quiet.refl.plainWrite hz)).getD (h.actWriteB hr)).getD (h.andQuietOpt (Quiet.refl.actWriteA hz))

theorem Course.blockWrite (h : Course s t) {req a v early} : Course s (t.blockWrite req a v early) := by
  unfold Machine.State.blockWrite
  refine .ite h ?_
  split
  · exact h
  next hr =>
    split
    · exact h.andQuiet Quiet.refl.violate
    · exact h.regApply hr

theorem Course.store (h : Course s t) {req a v early} : Course s (t.store req a v early) := by
  unfold Machine.State.store
  refine .ite (h.andQuiet Quiet.refl.accessFault) ?_
  split
  · exact h.andQuiet Quiet.refl.tcmWrite
  · exact h.andQuiet Quiet.refl.sramWrite
  · exact h.blockWrite
  · exact h.andQuiet Quiet.refl.accessFault

theorem course_registerWrite {req addr value early} : Course.Out s (execRegisterWrite req addr value early s) := by
  unfold Machine.execRegisterWrite
  exact .whenOn Course.refl.store

theorem Course.access (h : Course s t) {p o early} : Course s (t.access p o early) := by
  unfold Machine.State.access
  exact .ite (.ite (h.andQuiet Quiet.refl.readWord) (h.andQuiet Quiet.refl.accessFault.update)) (h.store.ite h.store)

theorem Course.release (h : Course s t) {p o early} : Course s (t.release p o early) := by
  unfold Machine.State.release
  exact .ite (.ite (h.andQuiet Quiet.refl.update) h) (((h.andQuiet Quiet.refl.setPair.setN.emit).access).andThen fun h1 =>
    (h1.andQuiet Quiet.refl.logEntry).ite h1)

theorem Course.trailOut (h : Course s t) {p o early} : Course s (t.trailOut p o early) := by
  unfold Machine.State.trailOut
  refine .ite h ?_
  split
  · exact h.andQuiet Quiet.refl.raiseEv.restart
  · exact (h.andQuiet Quiet.refl.setPair.setFifo).andThen fun h1 => .ite (h1.andQuiet Quiet.refl.raiseEv.restart)
      (.ite (h1.andQuiet Quiet.refl.raiseEv.restart) (.ite (h1.andQuiet Quiet.refl.raiseEv.restart) h1.release))

theorem Course.trails (h : Course s t) {p act} : Course s (t.trails p act) := by
  unfold Machine.State.trails
  split
  · exact h
  · exact h.ite (h.trailOut.ite (.ite (h.andQuiet Quiet.refl.setPair.tcmAct) h))
  · exact .ite (h.andQuiet Quiet.refl.setPair) h
  · exact h.andQuiet Quiet.refl.coreHolds
  · exact .ite (h.andQuiet Quiet.refl.trapEnd) h

theorem course_outputCompare {pair hit lead trail} : Course.Out s (execOutputCompare pair hit lead trail s) := by
  unfold Machine.execOutputCompare
  exact (Course.quiet Quiet.refl.struck.leads).trails.out

end Sys2Proof.Machine
end
section
/-! PROOF. Which commands are quiet, and the course of every command. -/

namespace Sys2Proof.Machine

set_option Elab.async false

variable {s t : State} {c : Instr}

/-- The commands that may set the state of the lane or its clock, by a write, a response, a raise or a step of their own. -/
def loud : Instr → Bool
  | .registerWrite .. | .gtCorrection .. | .holdoverEntry .. | .outputCompare .. | .fitnessTimeout .. | .readbackMismatch ..
  | .testPulseEnd .. | .challengeCheck .. | .samplerFault .. | .sourceRaise .. | .quietExpiry .. | .tallySelfCheck ..
  | .spanTransmit .. | .queReturn .. | .responseDrop .. | .spiRead .. | .flashOperationDone .. | .secDebugEnter ..
  | .secDebugExit .. | .powerLoss .. | .vlaneOvervoltage .. | .pmuVioFault .. | .thermalShutdown .. | .rstnLow ..
  | .resetEnd .. | .bootComplete .. | .selftestComplete .. | .serviceEntry .. => true
  | _ => false

/-- Every other command is quiet. -/
theorem exec_quiet (hc : loud c = false) : Quiet.Out s (exec c s) := by
  cases c with
  | registerWrite | gtCorrection | holdoverEntry | outputCompare | fitnessTimeout | readbackMismatch | testPulseEnd
  | challengeCheck
  | samplerFault | sourceRaise | quietExpiry | tallySelfCheck | spanTransmit | queReturn | responseDrop | spiRead
  | flashOperationDone | secDebugEnter | secDebugExit | powerLoss | vlaneOvervoltage | pmuVioFault | thermalShutdown
  | rstnLow | resetEnd | bootComplete | selftestComplete | serviceEntry => cases hc
  | accessFault => exact Quiet.refl.execAccessFault
  | grantDrainDone => exact Quiet.refl.execGrantDrainDone
  | gtLoRead => exact Quiet.refl.execGtLoRead
  | heartbeatSend => exact Quiet.refl.execHeartbeatSend
  | heartbeatReceive => exact Quiet.refl.execHeartbeatReceive
  | bridgeLossTimeout => exact Quiet.refl.execBridgeLossTimeout
  | timeMessageReceive => exact Quiet.refl.execTimeMessageReceive
  | summaryReceive => exact Quiet.refl.execSummaryReceive
  | moduleCommandReceive => exact Quiet.refl.execModuleCommandReceive
  | strikeFire => exact Quiet.refl.execStrikeFire
  | strikeComplete => exact Quiet.refl.execStrikeComplete
  | strikeDeadline => exact Quiet.refl.execStrikeDeadline
  | grpenWrite => exact Quiet.refl.execGrpenWrite
  | grpenEffect => exact Quiet.refl.execGrpenEffect
  | spnDone => exact Quiet.refl.execSpnDone
  | spnLedgerClr => exact Quiet.refl.execSpnLedgerClr
  | speedUpdate => exact Quiet.refl.execSpeedUpdate
  | bankRunWrite => exact Quiet.refl.execBankRunWrite
  | bankCommit => exact Quiet.refl.execBankCommit
  | commitAccept => exact Quiet.refl.execCommitAccept
  | reloadDecision => exact Quiet.refl.execReloadDecision
  | periodBoundary => exact Quiet.refl.execPeriodBoundary
  | delayLineCalibration => exact Quiet.refl.execDelayLineCalibration
  | lineSwap => exact Quiet.refl.execLineSwap
  | tripAssert => exact Quiet.refl.execTripAssert
  | blankingClose => exact Quiet.refl.execBlankingClose
  | bothOnDetect => exact Quiet.refl.execBothOnDetect
  | linkKeepalive => exact Quiet.refl.execLinkKeepalive
  | capReceive => exact Quiet.refl.execCapReceive
  | cfgackReceive => exact Quiet.refl.execCfgackReceive
  | rateChange => exact Quiet.refl.execRateChange
  | characterLock => exact Quiet.refl.execCharacterLock
  | echoreplyReceive => exact Quiet.refl.execEchoreplyReceive
  | echoRecheck => exact Quiet.refl.execEchoRecheck
  | syncSend => exact Quiet.refl.execSyncSend
  | negotiateTimeout => exact Quiet.refl.execNegotiateTimeout
  | bringupRetry => exact Quiet.refl.execBringupRetry
  | statusReceive => exact Quiet.refl.execStatusReceive
  | upstreamFrameDiscard => exact Quiet.refl.execUpstreamFrameDiscard
  | statusMissing => exact Quiet.refl.execStatusMissing
  | levelSend => exact Quiet.refl.execLevelSend
  | glkSampaRead => exact Quiet.refl.execGlkSampaRead
  | fbcLevelChange => exact Quiet.refl.execFbcLevelChange
  | speedBoundUpdate => exact Quiet.refl.execSpeedBoundUpdate
  | speedStopTimeout => exact Quiet.refl.execSpeedStopTimeout
  | fbcPreset => exact Quiet.refl.execFbcPreset
  | fbcClrsusp => exact Quiet.refl.execFbcClrsusp
  | fbcPosRead => exact Quiet.refl.execFbcPosRead
  | sentFrame => exact Quiet.refl.execSentFrame
  | sentTimeout => exact Quiet.refl.execSentTimeout
  | loopSampleRun => exact Quiet.refl.execLoopSampleRun
  | adcStart => exact Quiet.refl.execAdcStart
  | adcConversionDone => exact Quiet.refl.execAdcConversionDone
  | serviceCapture => exact Quiet.refl.execServiceCapture
  | serviceAgreement => exact Quiet.refl.execServiceAgreement
  | serviceLaw => exact Quiet.refl.execServiceLaw
  | delegationDeadline => exact Quiet.refl.execDelegationDeadline
  | windingTakeOut => exact Quiet.refl.execWindingTakeOut
  | windingReturn => exact Quiet.refl.execWindingReturn
  | circuitTakeOut => exact Quiet.refl.execCircuitTakeOut
  | circuitReturn => exact Quiet.refl.execCircuitReturn
  | eventDelivery => exact Quiet.refl.execEventDelivery
  | checkpoint => exact Quiet.refl.execCheckpoint
  | restartLive => exact Quiet.refl.execRestartLive
  | resync => exact Quiet.refl.execResync
  | rejoin => exact Quiet.refl.execRejoin
  | rejoinTimeout => exact Quiet.refl.execRejoinTimeout
  | agreementReceive => exact Quiet.refl.execAgreementReceive
  | agreementResult => exact Quiet.refl.execAgreementResult
  | voteSend => exact Quiet.refl.execVoteSend
  | voteReceive => exact Quiet.refl.execVoteReceive
  | memberTimeout => exact Quiet.refl.execMemberTimeout
  | parkEntry => exact Quiet.refl.execParkEntry
  | safetyInputDemand => exact Quiet.refl.execSafetyInputDemand
  | safetyInputHealthy => exact Quiet.refl.execSafetyInputHealthy
  | discrepancyFault => exact Quiet.refl.execDiscrepancyFault
  | discrepancyEnd => exact Quiet.refl.execDiscrepancyEnd
  | testPulseStart => exact Quiet.refl.execTestPulseStart
  | tskResponse => exact Quiet.refl.execTskResponse
  | pathDisagree => exact Quiet.refl.execPathDisagree
  | healthToggle => exact Quiet.refl.execHealthToggle
  | healthLoss => exact Quiet.refl.execHealthLoss
  | srstRelease => exact Quiet.refl.execSrstRelease
  | srstJammed => exact Quiet.refl.execSrstJammed
  | srstDiscrepancy => exact Quiet.refl.execSrstDiscrepancy
  | eflMinExpiry => exact Quiet.refl.execEflMinExpiry
  | eflTestEnd => exact Quiet.refl.execEflTestEnd
  | tlyStat0Read => exact Quiet.refl.execTlyStat0Read
  | tlyRecfirstRead => exact Quiet.refl.execTlyRecfirstRead
  | tlyFwraise => exact Quiet.refl.execTlyFwraise
  | networkChainBoundary => exact Quiet.refl.execNetworkChainBoundary
  | airumFrameReceive => exact Quiet.refl.execAirumFrameReceive
  | anwHandoff => exact Quiet.refl.execAnwHandoff
  | sealCutoff => exact Quiet.refl.execSealCutoff
  | sealComplete => exact Quiet.refl.execSealComplete
  | linkUp => exact Quiet.refl.execLinkUp
  | linkDown => exact Quiet.refl.execLinkDown
  | anRateAlternate => exact Quiet.refl.execAnRateAlternate
  | coldstartAttempt => exact Quiet.refl.execColdstartAttempt
  | backoffRetry => exact Quiet.refl.execBackoffRetry
  | starFrameReceive => exact Quiet.refl.execStarFrameReceive
  | frameCut => exact Quiet.refl.execFrameCut
  | coldstartHoldEnd => exact Quiet.refl.execColdstartHoldEnd
  | starChainBoundary => exact Quiet.refl.execStarChainBoundary
  | setPreferTimeout => exact Quiet.refl.execSetPreferTimeout
  | injectRelease => exact Quiet.refl.execInjectRelease
  | injectTokenLapse => exact Quiet.refl.execInjectTokenLapse
  | arbRequest => exact Quiet.refl.execArbRequest
  | arbUnitEnd => exact Quiet.refl.execArbUnitEnd
  | slotIdleAdvance => exact Quiet.refl.execSlotIdleAdvance
  | arbTableWrite => exact Quiet.refl.execArbTableWrite
  | quePost => exact Quiet.refl.execQuePost
  | queTake => exact Quiet.refl.execQueTake
  | steelyardAudit => exact Quiet.refl.execSteelyardAudit
  | mailboxRequestTake => exact Quiet.refl.execMailboxRequestTake
  | interimResponse => exact Quiet.refl.execInterimResponse
  | spiWrite => exact Quiet.refl.execSpiWrite
  | spiPoll => exact Quiet.refl.execSpiPoll
  | spiFrameError => exact Quiet.refl.execSpiFrameError
  | canReceive => exact Quiet.refl.execCanReceive
  | canTransmit => exact Quiet.refl.execCanTransmit
  | canBusOff => exact Quiet.refl.execCanBusOff
  | canStart => exact Quiet.refl.execCanStart
  | canStop => exact Quiet.refl.execCanStop
  | laneInfo => exact Quiet.refl.execLaneInfo
  | laneGrant => exact Quiet.refl.execLaneGrant
  | strikeSet => exact Quiet.refl.execStrikeSet
  | slpSplit => exact Quiet.refl.execSlpSplit
  | slpRejoin => exact Quiet.refl.execSlpRejoin
  | tskOutSet => exact Quiet.refl.execTskOutSet
  | queConfig => exact Quiet.refl.execQueConfig
  | queDisable => exact Quiet.refl.execQueDisable
  | arbPrioSet => exact Quiet.refl.execArbPrioSet
  | arbTableSet => exact Quiet.refl.execArbTableSet
  | anwNodeRestart => exact Quiet.refl.execAnwNodeRestart
  | astPortReadmit => exact Quiet.refl.execAstPortReadmit
  | pwmTripClear => exact Quiet.refl.execPwmTripClear
  | pwmLegClear => exact Quiet.refl.execPwmLegClear
  | glkPortRestart => exact Quiet.refl.execGlkPortRestart
  | glkLegClear => exact Quiet.refl.execGlkLegClear
  | lpeCtxRestart => exact Quiet.refl.execLpeCtxRestart
  | lpeCoefRead => exact Quiet.refl.execLpeCoefRead
  | svcStatus => exact Quiet.refl.execSvcStatus
  | steerWindingRestore => exact Quiet.refl.execSteerWindingRestore
  | brakeCircuitRestore => exact Quiet.refl.execBrakeCircuitRestore
  | fbcChanRestart => exact Quiet.refl.execFbcChanRestart
  | cmsLoad => exact Quiet.refl.execCmsLoad
  | cmsCheck => exact Quiet.refl.execCmsCheck
  | cmsConfirm => exact Quiet.refl.execCmsConfirm
  | cmsAbort => exact Quiet.refl.execCmsAbort
  | cmsRead => exact Quiet.refl.execCmsRead
  | cmsStatus => exact Quiet.refl.execCmsStatus
  | commitPeerMessage => exact Quiet.refl.execCommitPeerMessage
  | commitWaitTimeout => exact Quiet.refl.execCommitWaitTimeout
  | secNonce => exact Quiet.refl.execSecNonce
  | nonceExpiry => exact Quiet.refl.execNonceExpiry
  | secAttest => exact Quiet.refl.execSecAttest
  | secCertRead => exact Quiet.refl.execSecCertRead
  | secInjectToken => exact Quiet.refl.execSecInjectToken
  | secDebugDisable => exact Quiet.refl.execSecDebugDisable
  | secRootRevoke => exact Quiet.refl.execSecRootRevoke
  | secRekey => exact Quiet.refl.execSecRekey
  | secProfileLock => exact Quiet.refl.execSecProfileLock
  | nchLogRead => exact Quiet.refl.execNchLogRead
  | diagRead => exact Quiet.refl.execDiagRead
  | tlySetReaction => exact Quiet.refl.execTlySetReaction
  | tlyEflTest => exact Quiet.refl.execTlyEflTest
  | astInjArm => exact Quiet.refl.execAstInjArm
  | astInjStop => exact Quiet.refl.execAstInjStop
  | dbgProbeSet => exact Quiet.refl.execDbgProbeSet
  | probeEvent => exact Quiet.refl.execProbeEvent
  | updBegin => exact Quiet.refl.execUpdBegin
  | updWrite => exact Quiet.refl.execUpdWrite
  | updVerify => exact Quiet.refl.execUpdVerify
  | updActivate => exact Quiet.refl.execUpdActivate
  | updAbort => exact Quiet.refl.execUpdAbort
  | updStatus => exact Quiet.refl.execUpdStatus
  | powerValid => exact Quiet.refl.execPowerValid
  | pmuVlaneUv => exact Quiet.refl.execPmuVlaneUv
  | pmuVlaneOv => exact Quiet.refl.execPmuVlaneOv
  | pmuRailFault => exact Quiet.refl.execPmuRailFault
  | pmuTempHigh => exact Quiet.refl.execPmuTempHigh
  | laneOscFault => exact Quiet.refl.execLaneOscFault
  | pmuWdkick => exact Quiet.refl.execPmuWdkick
  | watchdogTimeout => exact Quiet.refl.execWatchdogTimeout
  | netwaitExpiry => exact Quiet.refl.execNetwaitExpiry
  | peerWaitTimeout => exact Quiet.refl.execPeerWaitTimeout
  | switchEdge => exact Quiet.refl.execSwitchEdge
  | tripInputRelease => exact Quiet.refl.execTripInputRelease
  | busOffRecovery => exact Quiet.refl.execBusOffRecovery
  | updateCoordinationReceive => exact Quiet.refl.execUpdateCoordinationReceive

/-- The course of a command but GT_CORRECTION, from any state but OFF. -/
theorem course_exec (hs : s.st ≠ stOff) (hc : c ≠ .gtCorrection) : Course.Out s (exec c s) := by
  cases hl : loud c with
  | false => exact fun _ e => .quiet (exec_quiet hl e)
  | true =>
    cases c with
    | registerWrite => exact course_registerWrite
    | gtCorrection => exact absurd rfl hc
    | holdoverEntry => exact course_holdoverEntry
    | outputCompare => exact course_outputCompare
    | fitnessTimeout => exact course_fitnessTimeout
    | readbackMismatch => exact course_readbackMismatch
    | testPulseEnd => exact course_testPulseEnd
    | challengeCheck => exact course_challengeCheck
    | samplerFault => exact course_samplerFault
    | sourceRaise => exact course_sourceRaise
    | quietExpiry => exact course_quietExpiry
    | tallySelfCheck => exact course_tallySelfCheck
    | spanTransmit => exact course_spanTransmit
    | queReturn => exact course_queReturn
    | responseDrop => exact course_responseDrop
    | spiRead => exact course_spiRead
    | flashOperationDone => exact course_flashOperationDone
    | secDebugEnter => exact course_secDebugEnter
    | secDebugExit => exact course_secDebugExit
    | powerLoss => exact course_powerLoss
    | vlaneOvervoltage => exact course_vlaneOvervoltage
    | pmuVioFault => exact course_pmuVioFault
    | thermalShutdown => exact course_thermalShutdown
    | rstnLow => exact course_rstnLow
    | resetEnd => exact course_resetEnd hs
    | bootComplete => exact course_bootComplete
    | selftestComplete => exact course_selftestComplete
    | serviceEntry => exact course_serviceEntry
    | _ => cases hl

end Sys2Proof.Machine
end
section
/-! PROOF. What the blocks do by themselves leaves the lane's time, its Spindle and its node alone: frames on their way out, legs that
go off, feedback samples, checkpoints. -/

namespace Sys2Proof.Machine

set_option Elab.async false

variable {b : Nat} {s t u : State}

/-! ### Steps aside of the Spindle -/

/-- Elapsed time, the one-time-programmable store, what the lane knows of its peers, the Spindle's and the node's own state, and the
registers below an address stand. -/
structure Aside (b : Nat) (s t : State) : Prop where
  now_eq : t.now = s.now
  otp_eq : t.otp = s.otp
  lane_eq : t.lane = s.lane
  spn_eq : t.spn = s.spn
  anw_eq : t.anw = s.anw
  reg_eq : ∀ a < b, t.reg a = s.reg a

theorem Aside.refl : Aside b s s := ⟨rfl, rfl, rfl, rfl, rfl, fun _ _ => rfl⟩

theorem Aside.trans (h : Aside b s t) (k : Aside b t u) : Aside b s u where
  now_eq := k.now_eq.trans h.now_eq
  otp_eq := k.otp_eq.trans h.otp_eq
  lane_eq := k.lane_eq.trans h.lane_eq
  spn_eq := k.spn_eq.trans h.spn_eq
  anw_eq := k.anw_eq.trans h.anw_eq
  reg_eq a ha := (k.reg_eq a ha).trans (h.reg_eq a ha)

/-- A field of a register below the address. -/
theorem Aside.rf_eq (h : Aside b s t) {f : Fld} (hf : f.adr < b) : t.rf f = s.rf f := by
  rw [State.rf, State.rf, State.rn, State.rn, h.reg_eq _ hf]

theorem Aside.rb_eq (h : Aside b s t) {f : Fld} (hf : f.adr < b) : t.rb f = s.rb f := by
  rw [State.rb, State.rb, h.rf_eq hf]

theorem Aside.ite {c : Prop} {_ : Decidable c} {x y : State} (hx : Aside b s x) (hy : Aside b s y) :
    Aside b s (if c then x else y) := by
  split <;> assumption

theorem Aside.iteFst {β : Type} {c : Prop} {_ : Decidable c} {x y : State × β} (hx : Aside b s x.1) (hy : Aside b s y.1) :
    Aside b s (if c then x else y).1 := by
  split <;> assumption

/-- What follows, from a state that several of its branches share. -/
theorem Aside.andThen {p : Prop} (h : Aside b s t) (k : Aside b s t → p) : p := k h

theorem Aside.foldl {α : Type} {g : State → α → State} {l : List α} (h : Aside b s t)
    (hg : ∀ {u x}, Aside b s u → Aside b s (g u x)) : Aside b s (l.foldl g t) := by
  induction l generalizing t with
  | nil => exact h
  | cons x l ih => exact ih (hg h)

/-- A fold that carries something beside the state. -/
theorem Aside.foldl_fst {α β : Type} {g : State × β → α → State × β} {l : List α} {x : State × β} (h : Aside b s x.1)
    (hg : ∀ {y a}, Aside b s y.1 → Aside b s (g y a).1) : Aside b s (l.foldl g x).1 := by
  induction l generalizing x with
  | nil => exact h
  | cons a l ih => exact ih (hg h)

/-- An update of what is aside. -/
theorem Aside.update (h : Aside b s t) {pending flash gt frac rate slew hwSet mem tcm rdata free outbox tly hmb spi canRec pmu pwm glk fbc
    lpe adc arb sty ast svc upd slp coreRegs cmpStuck agr sec rdm tsk} :
    Aside b s { t with pending, flash, gt, frac, rate, slew, hwSet, mem, tcm, rdata, free, outbox, tly, hmb, spi, canRec, pmu, pwm, glk, fbc,
                       lpe, adc, arb, sty, ast, svc, upd, slp, coreRegs, cmpStuck, agr, sec, rdm, tsk } :=
  h.trans ⟨rfl, rfl, rfl, rfl, rfl, fun _ _ => rfl⟩

/-- The blocks' registers, from the PWM's up (Table LANE-3). -/
def blockBase : Nat := 0x40020000

theorem le_above {c i : Nat} (h : b ≤ c) : b ≤ c + i := Nat.le_add_right_of_le h

theorem Aside.setN (h : Aside b s t) {a n : Nat} (ha : b ≤ a := by (repeat apply le_above); decide) : Aside b s (t.setN a n) :=
  h.trans ⟨rfl, rfl, rfl, rfl, rfl, fun _ hc => reg_setReg_ne _ _ (Nat.ne_of_lt (Nat.lt_of_lt_of_le hc ha))⟩

theorem Aside.wf (h : Aside b s t) {f : Fld} {v : Nat} (ha : b ≤ f.adr := by (repeat apply le_above); decide) :
    Aside b s (t.wf f v) := h.setN ha

theorem Aside.wb (h : Aside b s t) {f : Fld} {v : Bool} (ha : b ≤ f.adr := by (repeat apply le_above); decide) :
    Aside b s (t.wb f v) := h.wf ha

theorem Aside.incSat (h : Aside b s t) {f : Fld} (ha : b ≤ f.adr := by (repeat apply le_above); decide) :
    Aside b s (t.incSat f) := h.wf ha

theorem Aside.incWrap (h : Aside b s t) {f : Fld} (ha : b ≤ f.adr := by (repeat apply le_above); decide) :
    Aside b s (t.incWrap f) := h.wf ha

theorem Aside.wbit (h : Aside b s t) {f : Fld} {i : Nat} {v : Bool} (ha : b ≤ f.adr := by (repeat apply le_above); decide) :
    Aside b s (t.wbit f i v) := h.wf ha

theorem Aside.hwBit (h : Aside b s t) {f : Fld} {i : Nat} (ha : b ≤ f.adr := by (repeat apply le_above); decide) :
    Aside b s (t.hwBit f i) := (h.wbit ha).update

theorem Aside.emit (h : Aside b s t) {m} : Aside b s (t.emit m) := h.update
theorem Aside.raiseEv (h : Aside b s t) {src detail} : Aside b s (t.raiseEv src detail) := h.update
theorem Aside.assertSrc (h : Aside b s t) {src detail} : Aside b s (t.assertSrc src detail) := h.update
theorem Aside.deassertSrc (h : Aside b s t) {src} : Aside b s (t.deassertSrc src) := by
  unfold Machine.State.deassertSrc
  exact h.update.ite h
theorem Aside.used (h : Aside b s t) {n} : Aside b s (t.used n) := h.update
theorem Aside.setPort (h : Aside b s t) {n p} : Aside b s (t.setPort n p) := h.update
theorem Aside.setLeg (h : Aside b s t) {m l} : Aside b s (t.setLeg m l) := h.update
theorem Aside.setBank (h : Aside b s t) {k x} : Aside b s (t.setBank k x) := h.update
theorem Aside.setFb (h : Aside b s t) {n c} : Aside b s (t.setFb n c) := h.update
theorem Aside.setPair (h : Aside b s t) {p x} : Aside b s (t.setPair p x) := h.update

/-! ### Frames and messages on their way out (R349 to R352) -/

theorem Aside.armChange (hb : b ≤ AST_INJCTL.adr) (h : Aside b s t) {arm} : Aside b s (t.armChange arm) := by
  unfold Machine.State.armChange
  exact .ite (h.wf hb).deassertSrc (.ite (h.wf hb).assertSrc (h.wf hb))

theorem Aside.injRule (hb : b ≤ AST_INJCTL.adr) (h : Aside b s t) {r seq gt a} : Aside b s (t.injRule r seq gt a).1 := by
  have above {c : Nat} (hc : AST_INJCTL.adr ≤ c := by (repeat apply le_above); decide) : b ≤ c := hb.trans hc
  have hlog {t} (h : Aside b s t) : Aside b s (t.injLog r seq gt) := by
    unfold Machine.State.injLog
    exact ((h.setN above).setN above).andThen fun h1 => (Aside.ite (h1.wb above) h1).wf above
  unfold Machine.State.injRule
  exact (h.update.incSat above).andThen fun h1 => .iteFst h1 ((hlog (h1.wf above)).andThen fun h2 => .ite (h2.armChange hb) h2)

theorem Aside.inject (hb : b ≤ AST_INJCTL.adr) (h : Aside b s t) {target port mv seq gt} :
    Aside b s (t.inject target port mv seq gt).1 := by
  unfold Machine.State.inject
  exact .iteFst h (Aside.foldl_fst h fun hy => .iteFst (hy.injRule hb) hy)

theorem Aside.sendInj (hb : b ≤ AST_INJCTL.adr) (h : Aside b s t) {target port mv seq m} :
    Aside b s (t.sendInj target port mv seq m) := by
  have hheld {h' u} (hu : Aside b s u) : Aside b s (sendHeld h' u) := by
    unfold Machine.sendHeld
    split
    · exact hu.emit
    · exact hu
  unfold Machine.State.sendInj Machine.State.injPass
  exact (h.inject hb).andThen fun h1 => .ite h1 (.ite h1.update (.ite h1.update ((h1.update.emit).foldl hheld)))

theorem Aside.bridgeAll (hb : b ≤ AST_INJCTL.adr) (h : Aside b s t) {cls m} : Aside b s (t.bridgeAll cls m) := by
  unfold Machine.State.bridgeAll Machine.State.bridgeTo
  exact h.foldl fun hu => (hu.sendInj hb).ite hu

/-! ### Gate links and legs (R85, R96, R112) -/

theorem Aside.glkSend (h : Aside blockBase s t) {n kind payload} : Aside blockBase s (t.glkSend n kind payload) := by
  unfold Machine.State.glkSend
  exact .ite h.setPort.emit (h.setPort.sendInj (by decide))

theorem Aside.relFirst (h : Aside blockBase s t) {n} : Aside blockBase s (t.relFirst n) := by
  unfold Machine.State.relFirst
  exact .ite h h.setPort.glkSend

theorem Aside.glkOff (h : Aside blockBase s t) {n mask cut} : Aside blockBase s (t.glkOff n mask cut) := by
  unfold Machine.State.glkOff Machine.State.glkCut
  exact .ite h (Aside.ite h.setPort.wf h).setPort.glkSend

theorem Aside.legsOff (h : Aside blockBase s t) {ms cause} : Aside blockBase s (t.legsOff ms cause) := by
  unfold Machine.State.legsOff Machine.State.legOff Machine.State.clearAcc
  exact h.foldl fun hu => hu.setLeg.setN.setN.setN.wf.wb.wf

theorem Aside.banksStop (h : Aside blockBase s t) : Aside blockBase s t.banksStop := by
  have hstop {t k} (h : Aside blockBase s t) : Aside blockBase s (t.bankStop k) := by
    unfold Machine.State.bankStop Machine.State.blanksEnd
    exact (h.legsOff.update.setBank.wb.wb.wb).andThen fun h1 => h1.glkOff.ite h1
  unfold Machine.State.banksStop
  exact h.foldl fun hu => (hstop hu).ite hu

theorem Aside.holdLeg (h : Aside blockBase s t) {n l reason} : Aside blockBase s (t.holdLeg n l reason) := by
  unfold Machine.State.holdLeg Machine.State.holdLegs Machine.State.setHold
  exact (Aside.ite h.wbit.legsOff h.wbit).glkOff

theorem Aside.sendCmds {n l} (h : Aside blockBase s t) : Aside blockBase s (t.sendCmds n l) := by
  induction l generalizing t with
  | nil => exact h.setPort
  | cons c l ih =>
    unfold Machine.State.sendCmds
    exact .ite (ih h) (.ite h.setPort (.ite (ih h.setPort.incWrap.glkSend) (.ite (ih h.holdLeg.raiseEv) (ih h))))

theorem Aside.glkFlows (h : Aside blockBase s t) : Aside blockBase s t.glkFlows := by
  unfold Machine.State.glkFlows Machine.State.glkFlow Machine.State.glkNext Machine.State.sendEcho Machine.State.sendSync
  exact h.foldl fun hu => hu.sendCmds.andThen fun h1 =>
    .ite h1 (.ite (h1.relFirst.ite h1) (.ite h1.setPort.relFirst.glkSend (.ite h1.setPort.glkSend h1)))

/-! ### Feedback samples (R130 to R143) -/

theorem Aside.unprimeSpeed (h : Aside blockBase s t) {n} : Aside blockBase s (t.unprimeSpeed n) := by
  unfold Machine.State.unprimeSpeed
  exact h.setFb.wb.setN

theorem Aside.fbLoss (h : Aside blockBase s t) {n} : Aside blockBase s (t.fbLoss n) := by
  unfold Machine.State.fbLoss
  exact h.setFb.wb.wb.raiseEv.unprimeSpeed

theorem Aside.movePos (h : Aside blockBase s t) {n d} : Aside blockBase s (t.movePos n d) := by
  unfold Machine.State.movePos
  exact .ite h.setN.setN.hwBit (.ite h.setN.setN.hwBit h.setN)

theorem Aside.speedStep (h : Aside blockBase s t) {n age up riseA} : Aside blockBase s (t.speedStep n age up riseA) := by
  unfold Machine.State.speedStep Machine.State.speedEdge
  exact .ite h (.ite h.setFb.setN.wb (.ite h (.ite h.wb.setFb h.wb.setFb.setN.wb.used)))

theorem Aside.legalStep (h : Aside blockBase s t) {n age d0 riseA} : Aside blockBase s (t.legalStep n age d0 riseA) := by
  unfold Machine.State.legalStep Machine.State.posToRaw
  exact (h.setFb.wb.wb).andThen fun h1 => (Aside.ite (h1.movePos.andThen fun h2 => .ite h2 (.ite h2.hwBit.raiseEv h2.hwBit))
    (.ite h1.movePos h1)).speedStep

theorem Aside.illegalStep (h : Aside blockBase s t) {n} : Aside blockBase s (t.illegalStep n) := by
  unfold Machine.State.illegalStep
  exact h.setFb.incSat.wb.raiseEv.unprimeSpeed

theorem Aside.loadPos (h : Aside blockBase s t) {n v} : Aside blockBase s (t.loadPos n v) := by
  unfold Machine.State.loadPos
  exact h.setFb.setN.setN.wb.wb

theorem Aside.indexCheck (h : Aside blockBase s t) {n} : Aside blockBase s (t.indexCheck n) := by
  unfold Machine.State.indexCheck Machine.State.correctPos
  exact .ite h ((Aside.ite h.setN.incSat.raiseEv h.setN).andThen fun h1 => .ite (Aside.ite h1 h1.setFb.movePos).wb h1)

theorem Aside.indexSample (h : Aside blockBase s t) {n new illegal} : Aside blockBase s (t.indexSample n new illegal) := by
  unfold Machine.State.indexSample Machine.State.indexEvent Machine.State.startWatch
  exact .ite h.setFb (.ite h ((h.setFb.setN.hwBit.wb).andThen fun h1 =>
    .ite h1.hwBit.setFb (.ite h1.loadPos h1.indexCheck.setFb)))

theorem Aside.indexMissed (h : Aside blockBase s t) {n} : Aside blockBase s (t.indexMissed n) := by
  unfold Machine.State.indexMissed
  exact h.fbLoss.ite h

theorem Aside.presetApply (h : Aside blockBase s t) {n d} : Aside blockBase s (t.presetApply n d) := by
  unfold Machine.State.presetApply
  exact h.setFb.loadPos.setFb.movePos.ite h

theorem Aside.stepPart (h : Aside blockBase s t) {n age old new first wasBad} :
    Aside blockBase s (t.stepPart n age old new first wasBad).1 := by
  unfold Machine.State.stepPart
  refine .iteFst h (.iteFst (.ite h.fbLoss h) (.iteFst h.wb (.iteFst h ?_)))
  split
  · exact h.illegalStep
  · exact .ite h h.legalStep

theorem Aside.fbSamples (h : Aside blockBase s t) {n m} : Aside blockBase s (t.fbSamples n m) := by
  have hsample {t age new} (h : Aside blockBase s t) : Aside blockBase s (t.fbSample n age new) := by
    unfold Machine.State.fbSample
    exact .ite h.wf.presetApply ((h.wf.wf.setFb.stepPart.presetApply).andThen fun h1 =>
      .ite h1.setFb (.ite (h1.indexSample.andThen fun h2 => .ite h2 h2.indexMissed) h1))
  unfold Machine.State.fbSamples
  exact .ite (hsample h.setFb) h.setFb

theorem Aside.fbRun {n upTo fuel} (h : Aside blockBase s t) : Aside blockBase s (State.fbRun n upTo fuel t) := by
  induction fuel generalizing t with
  | zero => exact h
  | succ k ih =>
    unfold Machine.State.fbRun
    exact .ite h (ih h.fbSamples)

theorem Aside.fbTick (h : Aside blockBase s t) : Aside blockBase s t.fbTick := by
  unfold Machine.State.fbTick Machine.State.fbCatch
  exact h.foldl fun hu => .ite hu.fbRun hu

/-! ### Checkpoints and idle strikes of the pairs (R223, R234) -/

theorem Aside.firePairs (h : Aside blockBase s t) {m f} : Aside blockBase s (t.firePairs m f) := by
  have hto {t p n} (h : Aside blockBase s t) : Aside blockBase s (t.toPair p n) := h.wf.wbit.wbit
  unfold Machine.State.firePairs Machine.State.ckptDue Machine.State.idleFire
  exact h.foldl fun hu => (Aside.ite (.ite (hto hu.setPair) hu.setPair) hu).andThen fun h1 =>
    .ite (.ite h1.setPair (.ite (hto h1.setPair) h1)) h1

end Sys2Proof.Machine
end
section
/-! PROOF. A tick of the lane clock (R44 to R46): how far GT moves, and what else changes. -/

namespace Sys2Proof.Machine

set_option Elab.async false

variable {s t u : State}

/-! ### Where GT stands after a tick -/

/-- The state of a tick before the blocks follow it. -/
def State.clocked (s : State) : State := { s.gtTick with now := s.now + 5 }

theorem tick_quiet_clocked (s : State) : Quiet s.clocked s.tick :=
  Quiet.ite Quiet.refl.fbTick.glkFlows.svcWatch.hlthWatch.readyJudge.entriesTake Quiet.refl

theorem gtTick_of_on (h : s.on = true) : s.gtTick =
    { s.offTrack (((s.frac : Int) + 5 * (s.rate + s.slew)) / 4294967296) with
      gt := s.gtNext / 4294967296, frac := s.gtNext % 4294967296, spn := { s.spn with gtLast := s.gt } } := if_pos h

theorem gtTick_of_off (h : s.on = false) : s.gtTick = s := if_neg (by simp [h])

theorem tick_gt (h : s.on = true) : s.tick.gt = s.gtNext / 4294967296 := by
  rw [(tick_quiet_clocked s).gt_eq, State.clocked, gtTick_of_on h]

theorem tick_frac (h : s.on = true) : s.tick.frac = s.gtNext % 4294967296 := by
  rw [(tick_quiet_clocked s).frac_eq, State.clocked, gtTick_of_on h]

theorem gtNext_eq (s : State) :
    (s.gtNext : Int) = (((s.gt * 2 ^ 32 + s.frac : Nat) : Int) + 5 * (2 ^ 32 + s.rate + s.slew)) % 2 ^ 96 :=
  Int.toNat_of_nonneg (Int.emod_nonneg _ (by decide))

theorem gtNext_lt (s : State) : s.gtNext < 2 ^ 96 := by
  have h := Int.emod_lt_of_pos (((s.gt * 2 ^ 32 + s.frac : Nat) : Int) + 5 * (2 ^ 32 + s.rate + s.slew)) (b := 2 ^ 96) (by decide)
  rw [← gtNext_eq] at h
  omega

/-- The corrections of R49 move a tick's 5 ns by less than one. -/
theorem gtNext_bounds (hc : ClockOk s) (hw : s.gt + 6 < 2 ^ 64) :
    (s.gt + 4) * 4294967296 ≤ s.gtNext ∧ s.gtNext < (s.gt + 7) * 4294967296 := by
  obtain ⟨h1, h2, h3, h4, h5⟩ := hc
  have h := gtNext_eq s
  rw [Int.emod_eq_of_lt (by push_cast; omega) (by push_cast; omega)] at h
  push_cast at h
  omega

/-- GT advances by 4, 5 or 6 ns. -/
theorem tick_gt_cases (hon : s.on = true) (hc : ClockOk s) (hw : s.gt + 6 < 2 ^ 64) :
    s.tick.gt = s.gt + 4 ∨ s.tick.gt = s.gt + 5 ∨ s.tick.gt = s.gt + 6 := by
  obtain ⟨hlo, hhi⟩ := gtNext_bounds hc hw
  rw [tick_gt hon]
  omega

theorem step_of_idle (h : s.pending = []) : step s = .next s.tick := by
  simp only [step, h]

/-! ### The network offset against GT (R319) -/

/-- What the offset's step writes: the offset, its register, and the star's next chain boundary. -/
theorem offTrack_eq (s : State) (d : Int) : ∃ a r c, s.offTrack d = { s with anw := a, regs := r, ast := { s.ast with chain := c } } := by
  unfold State.offTrack State.setOff
  split
  · exact ⟨s.anw, s.regs, s.ast.chain, rfl⟩
  · dsimp only
    split
    · exact ⟨_, _, _, rfl⟩
    · exact ⟨_, _, s.ast.chain, rfl⟩

theorem offTrack_regsBut (s : State) (d : Int) : RegsBut [whole ANW_NETOFF.adr] s (s.offTrack d) := by
  unfold State.offTrack State.setOff
  refine .ite (.refl _ _) ?_
  have h {o n} : RegsBut [whole ANW_NETOFF.adr] s (({ s with anw := { s.anw with o := o } } : State).setN ANW_NETOFF.adr n) :=
    ((RegsBut.refl _ s).of_regs rfl).setN (by simp)
  exact .ite (h.of_regs rfl) h

theorem clocked_regs (h : s.on = true) :
    s.clocked.regs = (s.offTrack (((s.frac : Int) + 5 * (s.rate + s.slew)) / 4294967296)).regs := by
  rw [State.clocked, gtTick_of_on h]

theorem clocked_regsBut (h : s.on = true) : RegsBut [whole ANW_NETOFF.adr] s s.clocked :=
  (offTrack_regsBut s _).of_regs (clocked_regs h)

/-- A field of any other register. -/
theorem clocked_rf (h : s.on = true) {f : Fld} (hf : f.adr ≠ ANW_NETOFF.adr)
    (hw : f.lo + f.wd ≤ 32 := by exact Nat.le_of_ble_eq_true rfl) : s.clocked.rf f = s.rf f :=
  clocked_regsBut h f hw fun _ hg => List.mem_singleton.1 hg ▸ .inl hf

theorem clocked_on (h : s.on = true) : s.clocked.on = true := by
  rw [← h, State.on, State.on, State.st, State.st, clocked_rf h (by decide)]

theorem clocked_eq (h : s.on = true) : ∃ a r c, s.clocked =
    { s with now := s.now + 5, gt := s.gtNext / 4294967296, frac := s.gtNext % 4294967296, regs := r,
             spn := { s.spn with gtLast := s.gt }, anw := a, ast := { s.ast with chain := c } } := by
  obtain ⟨a, r, c, e⟩ := offTrack_eq s (((s.frac : Int) + 5 * (s.rate + s.slew)) / 4294967296)
  exact ⟨a, r, c, by rw [State.clocked, gtTick_of_on h, e]⟩

/-! ### Blocks with nothing to do -/

/-- Whether a feedback channel has a sample that does something is not for the clock to say. -/
theorem fbBusy_clocked (h : s.on = true) (n : Fin 16) : s.clocked.fbBusy n = s.fbBusy n := by
  obtain ⟨a, r, c, e⟩ := clocked_eq h
  have hfb : s.clocked.fb n = s.fb n := by rw [e]; rfl
  have hpmu : s.clocked.pmu = s.pmu := by rw [e]
  have hlane : s.clocked.lane = s.lane := by rw [e]
  have hcfg : FBC_CFG.adr n ≠ ANW_NETOFF.adr := by unfold FBC_CFG.adr ANW_NETOFF.adr; omega
  have hlvl : FBC_LEVEL.adr n ≠ ANW_NETOFF.adr := by unfold FBC_LEVEL.adr ANW_NETOFF.adr; omega
  have hen := clocked_rf h (f := FBC_CFG.EN n) hcfg
  have hmode := clocked_rf h (f := FBC_CFG.MODE n) hcfg
  have hpol := clocked_rf h (f := FBC_CFG.POL n) hcfg
  have hl := clocked_rf h (f := FBC_LEVEL.LVL n) hlvl
  have hvio := clocked_rf h (f := PMU_VIOCFG.USED) (by decide)
  have hdead : s.clocked.vioDead 2 = s.vioDead 2 := by
    simp only [State.vioDead, State.vioFaults, State.vioMon, hpmu, hlane, hvio]
  simp only [State.fbBusy, State.fbFirst, State.fbUse, State.fbLevels, State.rb, hdead, hfb, hen, hmode, hpol, hl]

theorem fbTick_of_still (h : ∀ n : Fin 16, s.fbBusy n = false) : s.fbTick = s := by
  unfold State.fbTick
  refine List.foldlRecOn (motive := fun t => t = s) _ _ rfl fun t ht n hn => ?_
  subst ht
  rw [if_neg (by simp [h ⟨n, List.mem_range.1 hn⟩])]

/-- A gate link that holds no frame. -/
def State.PortIdle (s : State) (n : Nat) : Prop :=
  (s.port n).queue = [] ∧ (s.port n).relDue = 0 ∧ (s.port n).echoDue = false ∧ (s.port n).syncDue = false

theorem glkNext_of_idle {n : Nat} (h : s.PortIdle n) : s.glkNext n = s := by
  obtain ⟨-, hr, he, hs⟩ := h
  simp [State.glkNext, hr, he, hs]

theorem glkFlow_of_idle {n : Nat} (h : s.PortIdle n) : s.glkFlow n = s.setPort n (s.port n) := by
  have hp : s.sendCmds n (s.port n).queue = s.setPort n (s.port n) := by
    rw [h.1, State.sendCmds]
    exact congrArg (s.setPort n) (h.1 ▸ rfl)
  rw [State.glkFlow, hp, glkNext_of_idle]
  rwa [State.PortIdle, port_setPort, if_pos rfl]

/-- Links that hold no frame only have their states written as they are. -/
theorem glkFlows_of_idle (h : ∀ n ∈ s.glk.ports.map (·.1), s.PortIdle n) : ∃ g, s.glkFlows = { s with glk := g } := by
  have hfold : (∀ n, s.glkFlows.port n = s.port n) ∧ ∃ g, s.glkFlows = { s with glk := g } := by
    unfold State.glkFlows
    refine List.foldlRecOn (motive := fun t => (∀ n, t.port n = s.port n) ∧ ∃ g, t = { s with glk := g }) _ _
      ⟨fun _ => rfl, s.glk, rfl⟩ fun t ht n hn => ?_
    obtain ⟨hp, g, e⟩ := ht
    have hi : t.PortIdle n := by rw [State.PortIdle, hp n]; exact h n hn
    rw [glkFlow_of_idle hi]
    refine ⟨fun k => ?_, _, by rw [e]; rfl⟩
    rw [port_setPort]
    split
    · next hk => rw [hk, hp]
    · exact hp k
  exact hfold.2

theorem svcWatch_eq (s : State) : ∃ v, s.svcWatch = { s with svc := v } := ⟨_, rfl⟩

theorem hlthWatch_eq (s : State) : ∃ k, s.hlthWatch = { s with tsk := k } := by
  unfold State.hlthWatch
  split
  · exact ⟨s.tsk, rfl⟩
  · exact ⟨_, rfl⟩

theorem readyJudge_eq (s : State) : ∃ l, s.readyJudge = { s with lane := l } := by
  unfold State.readyJudge
  dsimp only
  split
  · refine List.foldlRecOn (motive := fun t : State => ∃ l, t = { s with lane := l }) _ _ ?_ fun t ht k _ => ?_
    · exact ⟨_, rfl⟩
    · obtain ⟨l, e⟩ := ht
      exact ⟨_, by rw [e]; rfl⟩
  · split
    · exact ⟨_, rfl⟩
    · exact ⟨s.lane, rfl⟩

/-- What the services, the health output and the readiness watch is their own. -/
theorem watches_eq (s : State) :
    ∃ v k l, s.svcWatch.hlthWatch.readyJudge = { s with svc := v, tsk := k, lane := l } := by
  obtain ⟨v, hv⟩ := svcWatch_eq s
  obtain ⟨k, hk⟩ := hlthWatch_eq s.svcWatch
  obtain ⟨l, hl⟩ := readyJudge_eq s.svcWatch.hlthWatch
  exact ⟨v, k, l, by rw [hl, hk, hv]⟩

theorem entriesTake_now (s : State) : s.entriesTake.now = s.now := by
  unfold State.entriesTake
  refine List.foldlRecOn (motive := fun t : State => t.now = s.now) _ _ rfl fun t ht x _ => Eq.trans ?_ ht
  unfold State.entryTake
  split <;> rfl

theorem entriesTake_of_none (h : s.spn.waiting = []) : s.entriesTake = s := by
  rw [State.entriesTake, h, List.foldl_nil]

theorem tick_of_on (h : s.on = true) : s.tick = s.clocked.fbTick.glkFlows.svcWatch.hlthWatch.readyJudge.entriesTake :=
  if_pos (clocked_on h)

/-- A tick takes 5 ns. -/
theorem tick_now (h : s.on = true) : s.tick.now = s.now + 5 := by
  obtain ⟨v, k, l, e⟩ := watches_eq s.clocked.fbTick.glkFlows
  have ha : Aside blockBase s.clocked s.clocked.fbTick.glkFlows := Aside.refl.fbTick.glkFlows
  rw [tick_of_on h, entriesTake_now, e]
  exact ha.now_eq

/-- A tick in which no block has anything to do. -/
theorem tick_still (hon : s.on = true) (hw : s.spn.waiting = []) (hf : ∀ n : Fin 16, s.fbBusy n = false)
    (hg : ∀ n ∈ s.glk.ports.map (·.1), s.PortIdle n) :
    ∃ g v k l, s.tick = { s.clocked with glk := g, svc := v, tsk := k, lane := l } := by
  obtain ⟨a, r, c, e⟩ := clocked_eq hon
  have hfb : s.clocked.fbTick = s.clocked := fbTick_of_still fun n => (fbBusy_clocked hon n).trans (hf n)
  obtain ⟨g, hglk⟩ := glkFlows_of_idle (s := s.clocked) (by rw [e]; exact hg)
  obtain ⟨v, k, l, hv⟩ := watches_eq ({ s.clocked with glk := g } : State)
  refine ⟨g, v, k, l, ?_⟩
  rw [tick_of_on hon, hfb, hglk, hv]
  refine entriesTake_of_none ?_
  rw [e]
  exact hw

theorem tick_of_off (h : s.on = false) : s.tick = { s with now := s.now + 5 } := by
  have hc : s.clocked = { s with now := s.now + 5 } := by rw [State.clocked, gtTick_of_off h]
  have hon : s.clocked.on = false := by rw [hc]; exact h
  exact (if_neg (Bool.not_eq_true _ ▸ hon)).trans hc

/-- Settles O54: only the clock, and what follows time by the blocks' own frames, changes. -/
theorem tickAdvances : Obligations.TickAdvances := by
  refine ⟨fun s hp hon hc _ => ⟨_, step_of_idle hp, tick_now hon, ?_, ?_, ?_, tick_gt_cases hon hc⟩, fun s hp hon hw hf hg => ?_,
    fun s hp hoff => ⟨_, step_of_idle hp, tick_of_off hoff⟩⟩
  · have h : s.gtNext / 4294967296 * 2 ^ 32 + s.gtNext % 4294967296 = s.gtNext := Nat.div_add_mod' s.gtNext 4294967296
    rw [tick_gt hon, tick_frac hon, h]
    exact gtNext_eq s
  · rw [tick_frac hon]
    exact Nat.mod_lt _ (by decide)
  · rw [tick_gt hon]
    exact Nat.div_lt_of_lt_mul (gtNext_lt s)
  · obtain ⟨a, r, c, e⟩ := clocked_eq hon
    obtain ⟨g, v, k, l, ht⟩ := tick_still hon hw hf hg
    refine ⟨_, step_of_idle hp, (clocked_regsBut hon).of_regs (by rw [ht]), ?_⟩
    rw [ht, e]

end Sys2Proof.Machine
end
section
/-! PROOF. The correction of GT, holdover and the speed of the reference path (R34, R48 to R51). -/

namespace Sys2Proof.Machine

set_option Elab.async false

variable {s t u : State} {d : Int}

/-! ### The candidates do not depend on what is sent (R48) -/

theorem peersOf_of_aside {b : Nat} (h : Aside b s t) : t.peersOf = s.peersOf := by rw [State.peersOf, State.peersOf, h.otp_eq]

theorem peer_of_aside {b : Nat} (h : Aside b s t) (k : Nat) : t.peer k = s.peer k := by rw [State.peer, State.peer, h.lane_eq]

theorem eligible_of_aside {b : Nat} (h : Aside b s t) (hb : blockBase ≤ b) : t.eligible = s.eligible := by
  have hp : t.rb SPN_CTRL.USEPEER = s.rb SPN_CTRL.USEPEER := h.rb_eq (Nat.lt_of_lt_of_le (by decide) hb)
  have hu : t.rf LANE_PEERS.BRIDGE_UP = s.rf LANE_PEERS.BRIDGE_UP := h.rf_eq (Nat.lt_of_lt_of_le (by decide) hb)
  simp only [State.eligible, State.bridgeUp, peersOf_of_aside h, peer_of_aside h, h.otp_eq, hp, hu]

theorem netCands_of_aside (h : Aside AST_INJCTL.adr s t) : t.netCands = s.netCands := by
  have hn : t.rb SPN_CTRL.USENET = s.rb SPN_CTRL.USENET := h.rb_eq (by decide)
  have hv : t.rb ANW_NODESTAT.NETVALID = s.rb ANW_NODESTAT.NETVALID := h.rb_eq (by decide)
  simp only [State.netCands, State.netOffOf, eligible_of_aside h (by decide), peer_of_aside h, h.otp_eq, h.anw_eq, hn, hv]

theorem cands_of_aside (h : Aside AST_INJCTL.adr s t) : t.cands = s.cands := by
  simp only [State.cands, netCands_of_aside h, eligible_of_aside h (by decide)]

theorem external_of_aside (h : Aside AST_INJCTL.adr s t) : t.external = s.external := by
  simp only [State.external, netCands_of_aside h, cands_of_aside h]

/-! ### The parts of a correction -/

/-- The target is formed: the offset and its candidates stand in their registers (R48). -/
def State.aim (s : State) (c : List (Nat × Int)) : State :=
  (({ s with spn := { s.spn with lastCorr := s.now } } : State).setN SPN_OFFSET.adr (satSigned32 (medianI (c.map (·.2))))).wf
    SPN_SYNCSTAT.CAND (maskOf (c.map (·.1)))

/-- The lane after its time message has left and the target is formed (R34). -/
def State.aimed (s : State) : State := (s.bridgeAll clsTime (.time s.gt (s.netOffOf s.otp.lane))).aim s.cands

/-- GT steps rather than slews (R49). -/
def State.steps (s : State) (d : Int) : Bool := s.st != stService && s.rb SPN_CTRL.STEPEN && decide (s.stepLim < d.natAbs)

/-- GT stepped, or its rate and slew corrected (R49). -/
def State.steered (s : State) (d : Int) : State :=
  if s.steps d then s.gtStep d
  else (if s.st == stService && decide (s.stepLim < d.natAbs) then s.raiseEv 17 0 else s).gtSlew d

/-- What follows a correction: alignment, a pinned rate, the end of holdover (R50 to R52). -/
def State.judged (s : State) (d : Int) (c : List (Nat × Int)) (ext : Bool) : State :=
  ((s.alignJudge d).pinnedRate (c.any (fun x => x.1 != s.otp.lane))).holdEnd ext

theorem aside_sent (s : State) {m : OutMsg} : Aside AST_INJCTL.adr s (s.bridgeAll clsTime m) := Aside.refl.bridgeAll (Nat.le_refl _)

theorem quiet_aimed (s : State) : Quiet s s.aimed := Quiet.refl.bridgeAll.update.setN.wf

/-- Below the injection unit only the offset and its status are written. -/
theorem aimed_reg (s : State) {a : Nat} (ha : a < AST_INJCTL.adr) (h1 : a ≠ SPN_OFFSET.adr) (h2 : a ≠ SPN_SYNCSTAT.adr) :
    s.aimed.reg a = s.reg a := by
  rw [State.aimed, State.aim, reg_wf_ne _ _ _ _ h2, reg_setN_ne _ _ _ _ h1]
  exact (aside_sent s).reg_eq a ha

theorem aimed_rf (s : State) {f : Fld} (ha : f.adr < AST_INJCTL.adr := by decide) (h1 : f.adr ≠ SPN_OFFSET.adr := by decide)
    (h2 : f.adr ≠ SPN_SYNCSTAT.adr := by decide) : s.aimed.rf f = s.rf f := by
  rw [State.rf, State.rf, State.rn, State.rn, aimed_reg s ha h1 h2]

theorem aimed_st (s : State) : s.aimed.st = s.st := aimed_rf s

theorem aimed_offset (s : State) : s.aimed.rn SPN_OFFSET.adr = satSigned32 (medianI (s.cands.map (·.2))) := by
  have h : satSigned32 (medianI (s.cands.map (·.2))) < 2 ^ 32 := by
    unfold satSigned32 ofSigned
    omega
  have e : s.aimed.reg SPN_OFFSET.adr = BitVec.ofNat 32 (satSigned32 (medianI (s.cands.map (·.2)))) := by
    rw [State.aimed, State.aim, reg_wf_ne _ _ _ _ (by decide)]
    exact reg_setReg_same _ _ _
  rw [State.rn, e, BitVec.toNat_ofNat, Nat.mod_eq_of_lt h]

theorem aimed_cand (s : State) : s.aimed.rf SPN_SYNCSTAT.CAND = maskOf (s.cands.map (·.1)) % 8 := rf_wf_same _ _ _ (by decide)

/-- GT_CORRECTION at its interval. -/
theorem gtCorrection_eq (hon : s.on = true) (hdue : s.spn.lastCorr + 50000 ≤ s.now) (hd : d = medianI (s.cands.map (·.2))) :
    exec .gtCorrection s = .next ((s.aimed.steered d).judged d s.cands s.external) := by
  have h (m : OutMsg) : Aside AST_INJCTL.adr s (s.bridgeAll clsTime m) := aside_sent s
  change s.whenB (s.on && decide (s.spn.lastCorr + 50000 ≤ s.now)) (fun s =>
    let t := s.bridgeAll clsTime (.time s.gt (s.netOffOf s.otp.lane))
    let d := medianI (t.cands.map (·.2))
    ((t.aim t.cands).steered d).judged d t.cands t.external) = _
  rw [whenB_true (by simp [hon, hdue])]
  dsimp only
  rw [cands_of_aside (h _), external_of_aside (h _), ← hd]
  rfl

theorem aimed_steps (s : State) (d : Int) : s.aimed.steps d = s.steps d := by
  have hen : s.aimed.rb SPN_CTRL.STEPEN = s.rb SPN_CTRL.STEPEN := congrArg (· != 0) (aimed_rf s)
  have hlim : s.aimed.stepLim = s.stepLim := congrArg (10 * ·) (aimed_rf s)
  simp only [State.steps, aimed_st, hen, hlim]

/-! ### What follows a correction -/

/-- The fields of SPN_SYNCSTAT that a correction judges. -/
def judgedFields : List Fld := [SPN_SYNCSTAT.ALIGNED, SPN_SYNCSTAT.FINE, SPN_SYNCSTAT.SLEWING, SPN_SYNCSTAT.HOLDOVER]

theorem deassertSrc_eq (s : State) (n : Nat) : ∃ y, s.deassertSrc n = { s with tly := y } ∧ y.raises = s.tly.raises := by
  unfold State.deassertSrc
  split
  · exact ⟨_, rfl, rfl⟩
  · exact ⟨s.tly, rfl, rfl⟩

/-- Alignment is judged in SPN_SYNCSTAT and in the Spindle's counts (R50). -/
theorem alignJudge_eq (s : State) (d : Int) :
    ∃ r p, s.alignJudge d = { s with regs := r, spn := p } ∧ p.lastCorr = s.spn.lastCorr := by
  unfold State.alignJudge
  dsimp only
  split <;> exact ⟨_, _, rfl, rfl⟩

theorem alignJudge_regsBut (s : State) (d : Int) : RegsBut judgedFields s (s.alignJudge d) := by
  unfold State.alignJudge
  have h : RegsBut judgedFields s s := .refl _ _
  exact RegsBut.wb (by simp [judgedFields]) (RegsBut.wb (by simp [judgedFields]) (RegsBut.wb (by simp [judgedFields])
    (RegsBut.of_regs rfl (RegsBut.ite (h.of_regs rfl) h))))

theorem alignJudge_aligned (s : State) (d : Int) : (s.alignJudge d).rf SPN_SYNCSTAT.ALIGNED = b2n (decide (d.natAbs ≤ 4)) := by
  unfold State.alignJudge
  dsimp only
  rw [wb_eq, rf_wf_other _ _ _ _ (by decide) (by decide), wb_eq, rf_wf_other _ _ _ _ (by decide) (by decide), wb_eq,
    rf_wf_same _ _ _ (by decide)]
  exact b2n_mod _

/-- An external candidate has been seen. -/
def State.extSeen (s : State) : State := { s with spn := { s.spn with lastExt := some s.now } }

theorem holdEnd_true (s : State) : s.holdEnd true =
    if s.extSeen.rb SPN_SYNCSTAT.HOLDOVER then (s.extSeen.wb SPN_SYNCSTAT.HOLDOVER false).deassertSrc 18 else s.extSeen := rfl

/-- Holdover ends in its bit, its source and the time of the last external candidate (R51). -/
theorem holdEnd_eq (s : State) (ext : Bool) : ∃ r p y, s.holdEnd ext = { s with regs := r, spn := p, tly := y } ∧
    p.lastCorr = s.spn.lastCorr ∧ (ext = true → p.lastExt = some s.now) ∧ y.raises = s.tly.raises := by
  cases ext with
  | false => exact ⟨s.regs, s.spn, s.tly, rfl, rfl, nofun, rfl⟩
  | true =>
    rw [holdEnd_true]
    split
    · obtain ⟨y, e, hy⟩ := deassertSrc_eq (s.extSeen.wb SPN_SYNCSTAT.HOLDOVER false) 18
      exact ⟨(s.extSeen.wb SPN_SYNCSTAT.HOLDOVER false).regs, s.extSeen.spn, y, e, rfl, fun _ => rfl, hy⟩
    · exact ⟨s.regs, s.extSeen.spn, s.tly, rfl, rfl, fun _ => rfl, rfl⟩

theorem holdEnd_regsBut (s : State) (ext : Bool) : RegsBut [SPN_SYNCSTAT.HOLDOVER] s (s.holdEnd ext) := by
  have h : RegsBut [SPN_SYNCSTAT.HOLDOVER] s s.extSeen := (RegsBut.refl _ s).of_regs rfl
  cases ext with
  | false => exact .refl _ _
  | true =>
    obtain ⟨y, e, -⟩ := deassertSrc_eq (s.extSeen.wb SPN_SYNCSTAT.HOLDOVER false) 18
    rw [holdEnd_true]
    exact .ite ((h.wb (v := false) (by simp)).of_regs (congrArg State.regs e)) h

/-- What the end of a correction does: status fields, the Spindle's own counts, and the end of 18. -/
structure Judged (s t : State) (d : Int) (ext : Bool) : Prop where
  eq : ∃ r p y, t = { s with regs := r, spn := p, tly := y } ∧ p.lastCorr = s.spn.lastCorr ∧
    (ext = true → p.lastExt = some s.now) ∧ y.raises = s.tly.raises
  regs : RegsBut judgedFields s t
  aligned : t.rf SPN_SYNCSTAT.ALIGNED = b2n (decide (d.natAbs ≤ 4))

theorem judged (s : State) (d : Int) (c : List (Nat × Int)) (ext : Bool) : Judged s (s.judged d c ext) d ext := by
  obtain ⟨r, p, e, hl⟩ := alignJudge_eq s d
  have hp (o : Bool) : ∃ n, (s.alignJudge d).pinnedRate o = { s.alignJudge d with spn := { (s.alignJudge d).spn with pinned := n } } :=
    ⟨_, rfl⟩
  obtain ⟨n, hn⟩ := hp (c.any (fun x => x.1 != s.otp.lane))
  have hj : s.judged d c ext = ({ s.alignJudge d with spn := { (s.alignJudge d).spn with pinned := n } } : State).holdEnd ext :=
    congrArg (fun t => State.holdEnd t ext) hn
  have hpin : RegsBut judgedFields s { s.alignJudge d with spn := { (s.alignJudge d).spn with pinned := n } } :=
    (alignJudge_regsBut s d).of_regs rfl
  have hhold := holdEnd_regsBut { s.alignJudge d with spn := { (s.alignJudge d).spn with pinned := n } } ext
  refine ⟨?_, ?_, ?_⟩
  · obtain ⟨r', p', y, e', hl', hx, hy⟩ := holdEnd_eq { s.alignJudge d with spn := { (s.alignJudge d).spn with pinned := n } } ext
    refine ⟨r', p', y, ?_, ?_, ?_, ?_⟩
    · rw [hj, e', e]
    · rw [hl', e]; exact hl
    · rw [e] at hx; exact hx
    · rw [hy, e]
  · rw [hj]
    exact hpin.trans (hhold.mono (by simp [judgedFields]))
  · rw [hj, hhold _ (by decide) (by simp [Fld.apart]; decide), ← alignJudge_aligned s d]
    rfl

/-! ### What a correction comes to -/

/-- A field that neither a correction nor its end writes. -/
theorem Judged.offset {ext : Bool} (h : Judged s t d ext) : t.rn SPN_OFFSET.adr = s.rn SPN_OFFSET.adr :=
  congrArg BitVec.toNat (h.regs.reg (by simp [judgedFields]; decide))

theorem Judged.cand {ext : Bool} (h : Judged s t d ext) : t.rf SPN_SYNCSTAT.CAND = s.rf SPN_SYNCSTAT.CAND :=
  h.regs _ (by decide) (by simp [judgedFields, Fld.apart]; decide)

/-- No message meets a rule: it leaves. -/
theorem sendInj_free (harm : s.rf AST_INJCTL.ARM = 0) (hheld : s.ast.held = []) {target port mv seq : Nat} {m : OutMsg} :
    s.sendInj target port mv seq m = s.emit m := by
  have hi : s.inject target port mv seq (s.txGt m) = (s, {}) := if_pos harm
  have hh : s.heldAt target port = [] := by rw [State.heldAt, hheld]; rfl
  have ha : ({ s with ast := { s.ast with held := [] } } : State) = s := by rw [← hheld]
  simp only [State.sendInj, hi, State.injPass, hh, hheld, List.filter_nil, ha]
  rfl

/-- A time message to every peer (R34), no rule being armed. -/
theorem bridgeAll_time (hon : s.on = true) (harm : s.rf AST_INJCTL.ARM = 0) (hheld : s.ast.held = []) (m : OutMsg) :
    s.bridgeAll clsTime m = { s with outbox := s.outbox ++ s.peersOf.map (fun k => .bridge k m) } := by
  have hto {t : State} (o : List OutMsg) (ht : t = { s with outbox := o }) (k : Nat) :
      t.bridgeTo k clsTime m = { s with outbox := o ++ [.bridge k m] } := by
    subst ht
    have hs : ({ s with outbox := o } : State).sendsClass clsTime = true := hon
    rw [State.bridgeTo, if_pos (by simp [hs]), sendInj_free (s := { s with outbox := o }) harm hheld]
    rfl
  have hl (l : List Nat) : ∀ (t : State) (o : List OutMsg), t = { s with outbox := o } →
      l.foldl (fun s k => s.bridgeTo k clsTime m) t = { s with outbox := o ++ l.map (fun k => .bridge k m) } := by
    induction l with
    | nil => intro t o ht; simpa using ht
    | cons k l ih =>
      intro t o ht
      rw [List.foldl_cons, ih _ _ (hto o ht k)]
      simp
  exact hl _ s s.outbox rfl

end Sys2Proof.Machine
end
section
/-! PROOF. What a correction of GT comes to, slewed or stepped (R49), holdover (R51) and the reference path's speed. -/

namespace Sys2Proof.Machine

set_option Elab.async false

variable {s t u : State} {d : Int}

/-! ### A slew (R49) -/

/-- The target formed while no rule is armed: the message has left and nothing else but the offset's registers is new. -/
theorem aimed_of_free (hon : s.on = true) (harm : s.rf AST_INJCTL.ARM = 0) (hheld : s.ast.held = []) :
    ∃ r, s.aimed = { s with
      regs := r, spn := { s.spn with lastCorr := s.now },
      outbox := s.outbox ++ s.peersOf.map (fun k => .bridge k (.time s.gt (s.netOffOf s.otp.lane))) } :=
  ⟨_, by rw [State.aimed, bridgeAll_time hon harm hheld]; rfl⟩

theorem aimed_regsBut (hon : s.on = true) (harm : s.rf AST_INJCTL.ARM = 0) (hheld : s.ast.held = []) :
    RegsBut [whole SPN_OFFSET.adr, SPN_SYNCSTAT.CAND] s s.aimed := by
  rw [State.aimed, bridgeAll_time hon harm hheld]
  exact (((RegsBut.refl _ s).of_regs rfl).setN (by simp)).wf (by simp)

/-- A field apart from a whole register lies in another one, or is empty at its end. -/
theorem apart_of_whole {f g : Fld} (h : f.apart (whole g.adr)) (hg : g.lo + g.wd ≤ 32) : f.apart g := by
  simp only [Fld.apart, whole] at h ⊢
  omega

/-- Fields of one register lie in it. -/
theorem RegsBut.of_whole {l : List Fld} {a : Nat} (h : RegsBut l s t) (hl : ∀ g ∈ l, g.adr = a ∧ g.lo + g.wd ≤ 32) : RegsBut [whole a] s t :=
  fun f hf ha => h f hf fun g hg => apart_of_whole ((hl g hg).1 ▸ ha _ (List.mem_singleton.2 rfl)) (hl g hg).2

theorem Judged.slew_eq {ext : Bool} (h : Judged s t d ext) : t.slew = s.slew := by
  obtain ⟨r, p, y, e, -⟩ := h.eq
  rw [e]

theorem Judged.rate_eq {ext : Bool} (h : Judged s t d ext) : t.rate = s.rate := by
  obtain ⟨r, p, y, e, -⟩ := h.eq
  rw [e]

theorem Judged.gt_eq {ext : Bool} (h : Judged s t d ext) : t.gt = s.gt := by
  obtain ⟨r, p, y, e, -⟩ := h.eq
  rw [e]

/-- What a correction that slews leaves, no rule being armed. -/
structure Slewed (s t : State) (d : Int) : Prop where
  gt_eq : t.gt = s.gt
  offset : t.rn SPN_OFFSET.adr = satSigned32 d
  cand : t.rf SPN_SYNCSTAT.CAND = maskOf (s.cands.map (·.1)) % 8
  rate : t.rate = clampI (-858993) 858993 (s.rate + Int.tdiv (d * 4294967296) 400000)
  slew : t.slew = clampI (-429497) 429497 (Int.tdiv (d * 4294967296) 50000)
  aligned : t.rf SPN_SYNCSTAT.ALIGNED = b2n (decide (d.natAbs ≤ 4))
  lastCorr : t.spn.lastCorr = s.now
  sent : Sent s t (s.peersOf.map (fun k => .bridge k (.time s.gt (s.netOffOf s.otp.lane))))
  regs : RegsBut [whole SPN_OFFSET.adr, whole SPN_SYNCSTAT.adr, PMU_STAT.OSCOK] s t
  eq : t = { s with regs := t.regs, rate := t.rate, slew := t.slew, spn := t.spn, tly := t.tly, outbox := t.outbox }
  raised : s.st = stService → s.stepLim < d.natAbs → s.raiseOf 17 0 ∈ t.tly.raises

/-- The state that a slew starts from: SERVICE raises 17 when the offset asks for a step (R49). -/
def State.needing (s : State) (d : Int) : State :=
  if s.st == stService && decide (s.stepLim < d.natAbs) then s.raiseEv 17 0 else s

theorem needing_eq (s : State) (d : Int) : ∃ y, s.needing d = { s with tly := y } := by
  unfold State.needing
  split <;> exact ⟨_, rfl⟩

theorem needing_raises (s : State) (hst : s.st = stService) (hd : s.stepLim < d.natAbs) :
    s.raiseOf 17 0 ∈ (s.needing d).tly.raises := by
  rw [State.needing, if_pos (by simp [hst, hd])]
  exact List.mem_append_right _ (List.mem_singleton.2 rfl)

theorem gtCorrection_slewed (hon : s.on = true) (hdue : s.spn.lastCorr + 50000 ≤ s.now) (harm : s.rf AST_INJCTL.ARM = 0)
    (hheld : s.ast.held = []) (hd : d = medianI (s.cands.map (·.2))) (hs : s.steps d = false) :
    ∃ t, exec .gtCorrection s = .next t ∧ Slewed s t d := by
  have hsteer : s.aimed.steered d = (s.aimed.needing d).gtSlew d := if_neg (by simp [aimed_steps, hs])
  have hj : Judged (s.aimed.steered d) ((s.aimed.steered d).judged d s.cands s.external) d s.external := judged _ _ _ _
  have he := gtCorrection_eq hon hdue hd
  revert hj he
  generalize (s.aimed.steered d).judged d s.cands s.external = t
  intro hj he
  obtain ⟨r, ha⟩ := aimed_of_free hon harm hheld
  obtain ⟨y, hn⟩ := needing_eq s.aimed d
  rw [hsteer] at hj
  have hregs : ((s.aimed.needing d).gtSlew d).regs = s.aimed.regs := by rw [hn]; rfl
  have hoff : ((s.aimed.needing d).gtSlew d).rn SPN_OFFSET.adr = s.aimed.rn SPN_OFFSET.adr := by rw [hn]; rfl
  have hcand : ((s.aimed.needing d).gtSlew d).rf SPN_SYNCSTAT.CAND = s.aimed.rf SPN_SYNCSTAT.CAND := by rw [hn]; rfl
  obtain ⟨r', p, y', ht, hl, -, hr⟩ := hj.eq
  refine ⟨t, he, ?_, ?_, ?_, ?_, ?_, hj.aligned, ?_, ?_, ?_, ?_, fun hst hlim => ?_⟩
  · rw [ht, hn, ha]; rfl
  · rw [hj.offset, hoff, aimed_offset, hd]
  · rw [hj.cand, hcand, aimed_cand]
  · rw [ht, hn, ha]; rfl
  · rw [ht, hn, ha]; rfl
  · rw [ht, hn, ha] at *; exact hl
  · rw [ht, hn, ha]; rfl
  · have h1 : RegsBut [whole SPN_OFFSET.adr, whole SPN_SYNCSTAT.adr, PMU_STAT.OSCOK] s s.aimed := fun f hf hl =>
      aimed_regsBut hon harm hheld f hf fun g hg => by
        rcases List.mem_cons.1 hg with rfl | hg
        · exact hl _ (by simp)
        · exact List.mem_singleton.1 hg ▸ apart_of_whole (hl _ (by simp [SPN_SYNCSTAT.CAND])) (by decide)
    have h2 : RegsBut [whole SPN_SYNCSTAT.adr] ((s.aimed.needing d).gtSlew d) t :=
      hj.regs.of_whole (by simp [judgedFields]; decide)
    exact (h1.of_regs hregs).trans (h2.mono (by simp))
  · rw [ht, hn, ha]; rfl
  · have hlim' : s.aimed.stepLim = s.stepLim := congrArg (10 * ·) (aimed_rf s)
    have hg : s.aimed.gt = s.gt := (quiet_aimed s).gt_eq
    have hw : s.aimed.now = s.now := by rw [ha]
    have hm := needing_raises s.aimed (d := d) ((aimed_st s).trans hst) (by rw [hlim']; exact hlim)
    rw [ht]
    rw [State.raiseOf, hg, hw] at hm
    exact hr ▸ hm

/-! ### A step (R49) -/

/-- A step sets GT and ends the slew. -/
def State.stepped (s : State) (d : Int) : State := { s with gt := (((s.gt : Int) + d) % 2 ^ 64).toNat, slew := 0 }

theorem gtStep_quiet (s : State) (d : Int) : Quiet (s.stepped d) (s.gtStep d) := by
  unfold State.gtStep
  exact ((Quiet.refl.update.foldl fun hu => .ite hu.setEntry hu).update.setOff).banksStop

/-- Below the blocks' registers a step leaves all as it was. -/
theorem gtStep_reg (s : State) (d : Int) {a : Nat} (ha : a < blockBase) : (s.gtStep d).reg a = s.reg a := by
  have hset (t : State) (o : Int) : (t.setOff o).reg a = t.reg a := by
    unfold State.setOff
    have hne : a ≠ ANW_NETOFF.adr := Nat.ne_of_lt (Nat.lt_trans ha (by decide))
    dsimp only
    split <;> exact reg_setN_ne _ _ _ _ hne
  have hfold (l : List Nat) (g : Nat) (t : State) :
      (l.foldl (fun s m => if s.enabledSoon m then s.setEntry m { s.entry m with sinceGt := max (s.entry m).sinceGt g } else s) t).reg a
        = t.reg a := by
    refine List.foldlRecOn (motive := fun u : State => u.reg a = t.reg a) _ _ rfl fun u hu m _ => ?_
    split
    · exact hu
    · exact hu
  have hsty (t : State) (y : StySt) : ({ t with sty := y } : State).reg a = t.reg a := rfl
  unfold State.gtStep
  dsimp only
  rw [(Aside.refl (b := blockBase)).banksStop.reg_eq a ha, hset, hsty, hfold]
  rfl

/-- A correction that steps. -/
theorem gtCorrection_stepped (hon : s.on = true) (hdue : s.spn.lastCorr + 50000 ≤ s.now) (hd : d = medianI (s.cands.map (·.2)))
    (hs : s.steps d = true) :
    ∃ t, exec .gtCorrection s = .next t ∧ t.gt = (((s.gt : Int) + d) % 2 ^ 64).toNat ∧ t.slew = 0 ∧ t.rate = s.rate ∧
      t.rn SPN_OFFSET.adr = satSigned32 d ∧ t.rf SPN_SYNCSTAT.ALIGNED = b2n (decide (d.natAbs ≤ 4)) := by
  have hsteer : s.aimed.steered d = s.aimed.gtStep d := if_pos ((aimed_steps s d).trans hs)
  have hj : Judged (s.aimed.steered d) ((s.aimed.steered d).judged d s.cands s.external) d s.external := judged _ _ _ _
  have he := gtCorrection_eq hon hdue hd
  revert hj he
  generalize (s.aimed.steered d).judged d s.cands s.external = t
  intro hj he
  rw [hsteer] at hj
  have hq := gtStep_quiet s.aimed d
  have ha := quiet_aimed s
  refine ⟨t, he, ?_, ?_, ?_, ?_, hj.aligned⟩
  · rw [hj.gt_eq, hq.gt_eq, State.stepped, ha.gt_eq]
  · rw [hj.slew_eq, hq.slew_eq, State.stepped]
  · rw [hj.rate_eq, hq.rate_eq, State.stepped, ha.rate_eq]
  · rw [hj.offset, State.rn, gtStep_reg _ _ (by decide), hd]
    exact aimed_offset s

/-- A slew with an external candidate, whatever rules are armed. -/
theorem gtCorrection_external (hon : s.on = true) (hdue : s.spn.lastCorr + 50000 ≤ s.now) (hd : d = medianI (s.cands.map (·.2)))
    (hx : s.external = true) (hs : s.steps d = false) :
    ∃ t, exec .gtCorrection s = .next t ∧ t.gt = s.gt ∧ t.rn SPN_OFFSET.adr = satSigned32 d ∧ t.spn.lastExt = some s.now := by
  have hsteer : s.aimed.steered d = (s.aimed.needing d).gtSlew d := if_neg (by simp [aimed_steps, hs])
  have hj : Judged (s.aimed.steered d) ((s.aimed.steered d).judged d s.cands s.external) d s.external := judged _ _ _ _
  have he := gtCorrection_eq hon hdue hd
  revert hj he
  generalize (s.aimed.steered d).judged d s.cands s.external = t
  intro hj he
  obtain ⟨y, hn⟩ := needing_eq s.aimed d
  have hnow : s.aimed.now = s.now := (aside_sent s).now_eq
  have hoff : ((s.aimed.needing d).gtSlew d).rn SPN_OFFSET.adr = s.aimed.rn SPN_OFFSET.adr := by rw [hn]; rfl
  have hgt : ((s.aimed.needing d).gtSlew d).gt = s.aimed.gt := by rw [hn]; rfl
  have hnow' : ((s.aimed.needing d).gtSlew d).now = s.aimed.now := by rw [hn]; rfl
  rw [hsteer] at hj
  obtain ⟨r, p, y', ht, -, hext, -⟩ := hj.eq
  refine ⟨t, he, ?_, ?_, ?_⟩
  · rw [hj.gt_eq, hgt, (quiet_aimed s).gt_eq]
  · rw [hj.offset, hoff, aimed_offset, hd]
  · rw [ht]
    exact (hext hx).trans (congrArg some (hnow'.trans hnow))

/-! ### Holdover and the reference path -/

theorem holdoverEntry_next {e : Nat} (hon : s.on = true) (hh : s.rb SPN_SYNCSTAT.HOLDOVER = false) (he : s.spn.lastExt = some e)
    (hd : e + 1000000 * s.rf SPN_SYNCCFG.HOLD ≤ s.now) :
    exec .holdoverEntry s = .next { (s.wb SPN_SYNCSTAT.HOLDOVER true).assertSrc 18 0 with slew := 0 } := by
  change execHoldoverEntry s = _
  unfold execHoldoverEntry
  rw [he]
  exact whenB_true (by simp [hon, hh, hd]) _

/-- Settles O35: a correction is the target's forming, the step or slew, and what is judged after it. -/
theorem spindleCorrection : Obligations.SpindleCorrection := by
  refine ⟨fun s d hon hdue harm hheld hd hlim => ?_, fun s d hon hdue hd hc hlim => ?_, fun s d hon hdue hd hlim hst hen => ?_,
    fun s d hon hdue harm hheld hd hlim hst => ?_, fun s e hon hh he hd => ?_, fun s x hon => ?_⟩
  · obtain ⟨t, he, h⟩ := gtCorrection_slewed hon hdue harm hheld hd (by simp [State.steps, Nat.not_lt.2 hlim])
    exact ⟨t, he, h.gt_eq, h.offset, h.cand, h.rate, h.slew, h.aligned, h.lastCorr, h.sent, h.regs, h.eq⟩
  · obtain ⟨t, he, h⟩ := gtCorrection_external hon hdue hd (by simp [State.external, hc]) (by simp [State.steps, Nat.not_lt.2 hlim])
    exact ⟨t, he, h⟩
  · obtain ⟨t, he, h⟩ := gtCorrection_stepped hon hdue hd (by simp [State.steps, hst, hen, hlim])
    exact ⟨t, he, h⟩
  · have hs : s.steps d = false := by
      rcases hst with h | h
      · simp [State.steps, h]
      · simp [State.steps, h]
    obtain ⟨t, he, h⟩ := gtCorrection_slewed hon hdue harm hheld hd hs
    exact ⟨t, he, h.gt_eq, h.offset, h.rate, h.slew, fun hst => h.raised hst hlim, h.aligned, h.regs, h.eq⟩
  · refine ⟨_, holdoverEntry_next hon hh he hd, rf_wf_same _ _ _ (by decide), ?_, rfl, rfl,
      ((RegsBut.refl _ s).wb (v := true) (List.mem_singleton.2 rfl)).of_regs rfl, rfl⟩
    simp [State.asserted, State.assertSrc]
  · refine ⟨_, whenOn_on hon fun s => s.wf SPN_SPEED.MOPS x, ?_, (RegsBut.refl _ s).wf (List.mem_singleton.2 rfl), rfl⟩
    exact (rf_wf_same _ _ _ (by decide)).trans (Nat.mod_eq_of_lt x.isLt)

end Sys2Proof.Machine
end
section
/-! PROOF. GT in SERVICE and at a reset, whatever command is at the front (R45). -/

namespace Sys2Proof.Machine

set_option Elab.async false

variable {s t : State}

theorem step_of_front {c : Instr} {rest : List Instr} (h : s.pending = c :: rest) :
    step s = exec c { s with pending := rest } := by
  simp only [step, h]

/-- GT_CORRECTION does nothing, or it corrects by the median of the candidates. -/
theorem gtCorrection_cases (e : exec .gtCorrection s = .next t) :
    t = s ∨ ∃ d, t = (s.aimed.steered d).judged d s.cands s.external := by
  by_cases hdue : s.on = true ∧ s.spn.lastCorr + 50000 ≤ s.now
  · rw [gtCorrection_eq hdue.1 hdue.2 rfl] at e
    cases e
    exact .inr ⟨_, rfl⟩
  · have hb : (s.on && decide (s.spn.lastCorr + 50000 ≤ s.now)) = false := by
      simpa only [← Bool.not_eq_true, Bool.and_eq_true, decide_eq_true_eq] using hdue
    refine .inl ?_
    change execGtCorrection s = _ at e
    unfold execGtCorrection State.whenB at e
    rw [hb] at e
    cases e
    rfl

/-- In SERVICE a correction slews (R49). -/
theorem steered_gt_of_service (hst : s.st = stService) (d : Int) : (s.steered d).gt = s.gt := by
  have hs : s.steps d = false := by simp [State.steps, hst]
  have h : s.steered d = (s.needing d).gtSlew d := if_neg (by simp [hs])
  obtain ⟨y, hn⟩ := needing_eq s d
  rw [h, hn]
  rfl

theorem st_of_reg (h : t.reg LANE_STATE.adr = s.reg LANE_STATE.adr) : t.st = s.st :=
  congrArg (fun x : BitVec 32 => LANE_STATE.STATE.getN x.toNat) h

/-- A correction does not touch the state of the lane. -/
theorem steered_st (s : State) (d : Int) : (s.steered d).st = s.st := by
  cases hs : s.steps d with
  | true => rw [show s.steered d = s.gtStep d from if_pos hs, st_of_reg (gtStep_reg s d (by decide))]
  | false =>
    obtain ⟨y, hn⟩ := needing_eq s d
    rw [show s.steered d = (s.needing d).gtSlew d from if_neg (by simp [hs]), hn]
    rfl

theorem gtCorrection_st (e : exec .gtCorrection s = .next t) : t.st = s.st := by
  rcases gtCorrection_cases e with rfl | ⟨d, rfl⟩
  · rfl
  · have hj := (judged (s.aimed.steered d) d s.cands s.external).regs.reg (a := LANE_STATE.adr) (by simp [judgedFields]; decide)
    rw [st_of_reg hj, steered_st, aimed_st]

theorem gtCorrection_gt_of_service (hst : s.st = stService) (e : exec .gtCorrection s = .next t) : t.gt = s.gt := by
  rcases gtCorrection_cases e with rfl | ⟨d, rfl⟩
  · rfl
  · rw [(judged (s.aimed.steered d) d s.cands s.external).gt_eq, steered_gt_of_service ((aimed_st s).trans hst),
      (quiet_aimed s).gt_eq]

/-- A command in SERVICE leaves GT, unless it begins a reset. -/
theorem exec_gt_of_service {c : Instr} (hst : s.st = stService) (e : exec c s = .next t) (ht : t.st ≠ stOff) : t.gt = s.gt := by
  by_cases hc : c = .gtCorrection
  · exact gtCorrection_gt_of_service hst (hc ▸ e)
  · rcases (course_exec (by rw [hst]; decide) hc e).times with hf | ⟨hg, -⟩
    · exact absurd hf.st_off ht
    · exact hg

/-- A command that begins a reset leaves GT 0. -/
theorem exec_gt_of_reset {c : Instr} (hsp : s.svc.Spares) (hst : s.st ≠ stOff) (e : exec c s = .next t) (ht : t.st = stOff) :
    t.gt = 0 := by
  by_cases hc : c = .gtCorrection
  · exact absurd ((gtCorrection_st (hc ▸ e)).symm.trans ht) hst
  · rcases (course_exec hst hc e).times with hf | ⟨-, hk⟩
    · exact hf.gt_zero
    · exact absurd ht (hk hsp hst).2

/-- A tick begins no reset. -/
theorem tick_st (hsp : s.svc.Spares) (hst : s.st ≠ stOff) : s.tick.st = s.st := by
  have hon : s.on = true := by simp [State.on, hst]
  obtain ⟨a, r, c, e⟩ := clocked_eq hon
  have hsp' : s.clocked.svc.Spares := by rw [e]; exact hsp
  exact ((tick_quiet_clocked s).svc_ok hsp').1.trans (clocked_rf hon (by decide))

/-- Settles O58: only a tick moves GT, a correction in SERVICE slews, and every other command leaves GT or begins a reset. -/
theorem timeInService : Obligations.TimeInService := by
  refine ⟨fun s t hc hw hst e ht => ?_, fun s t hc _ hw hon hp e => ?_, fun s t hs hst e ht => ?_⟩
  · cases hp : s.pending with
    | nil =>
      rw [step_of_idle hp] at e
      cases e
      rcases tick_gt_cases (by simp [State.on, hst]; decide) hc hw with h | h | h <;> omega
    | cons c rest =>
      rw [step_of_front hp] at e
      have h : t.gt = s.gt := exec_gt_of_service (s := { s with pending := rest }) hst e ht
      omega
  · rw [step_of_idle hp] at e
    cases e
    rcases tick_gt_cases hon hc hw with h | h | h <;> omega
  · have hsp : s.svc.Spares := svcAddrs_spare_iff.1 hs.2
    cases hp : s.pending with
    | nil =>
      rw [step_of_idle hp] at e
      cases e
      exact absurd ((tick_st hsp hst).symm.trans ht) hst
    | cons c rest =>
      rw [step_of_front hp] at e
      exact exec_gt_of_reset (s := { s with pending := rest }) hsp hst e ht

end Sys2Proof.Machine
end
section
/-! PROOF. Enables of strike entries, completions by software and the ledger clear (R54, R55, R62). -/

namespace Sys2Proof.Machine

set_option Elab.async false

variable {s t : State}

/-! ### Enables (R55) -/

/-- An entry newly enabled by bit `i` of a change fires from the change on. -/
def State.enSince (s : State) (e : EnPend) (i : Nat) : State :=
  if e.mask.testBit i && !s.rb (SPN_ESTAT.ENABLED (16 * e.group + i)) then
    s.setEntry (16 * e.group + i) { s.entry (16 * e.group + i) with sinceGt := max (s.entry (16 * e.group + i)).sinceGt e.eff }
  else s

/-- One bit of a written change of enables taken. -/
def State.enBit (s : State) (e : EnPend) (i : Nat) : State :=
  (s.enSince e i).wb (SPN_ESTAT.ENABLED (16 * e.group + i)) (e.mask.testBit i)

theorem enSince_eq (s : State) (e : EnPend) (i : Nat) : ∃ p, p.enPend = s.spn.enPend ∧ s.enSince e i = { s with spn := p } := by
  unfold State.enSince
  split
  · exact ⟨(s.setEntry _ _).spn, rfl, rfl⟩
  · exact ⟨s.spn, rfl, rfl⟩

theorem enTake_eq (s : State) (e : EnPend) : s.enTake e = (List.range 16).foldl (fun s i => s.enBit e i) s := rfl

/-- A bit taken is in its entry's status and in the Spindle's own state. -/
theorem enBit_eq (s : State) (e : EnPend) (i : Nat) :
    ∃ p, p.enPend = s.spn.enPend ∧ s.enBit e i = { s with regs := (s.enBit e i).regs, spn := p } := by
  obtain ⟨p, hp, h⟩ := enSince_eq s e i
  refine ⟨p, hp, ?_⟩
  rw [State.enBit, h]
  rfl

theorem enBit_same (s : State) (e : EnPend) (i : Nat) :
    (s.enBit e i).rf (SPN_ESTAT.ENABLED (16 * e.group + i)) = b2n (e.mask.testBit i) :=
  (rf_wf_same _ _ _ (Nat.le_of_ble_eq_true rfl)).trans (b2n_mod _)

theorem enBit_regsBut {l : List Fld} {e : EnPend} {i : Nat} (hm : SPN_ESTAT.ENABLED (16 * e.group + i) ∈ l) :
    RegsBut l s (s.enBit e i) :=
  RegsBut.wb hm (RegsBut.ite ((RegsBut.refl _ s).of_regs rfl) (.refl _ _))

theorem enabled_apart {m n : Nat} (h : m ≠ n) : (SPN_ESTAT.ENABLED m).apart (SPN_ESTAT.ENABLED n) := by
  simp only [Fld.apart, SPN_ESTAT.ENABLED, SPN_ESTAT.adr]
  omega

/-- The first `n` bits of a change. -/
def State.enBits (s : State) (e : EnPend) (n : Nat) : State := (List.range n).foldl (fun s i => s.enBit e i) s

theorem enBits_succ (s : State) (e : EnPend) (n : Nat) : s.enBits e (n + 1) = (s.enBits e n).enBit e n := by
  rw [State.enBits, List.range_succ, List.foldl_append]
  rfl

theorem enBits_enabled (s : State) (e : EnPend) {n i : Nat} (h : i < n) :
    (s.enBits e n).rf (SPN_ESTAT.ENABLED (16 * e.group + i)) = b2n (e.mask.testBit i) := by
  induction n with
  | zero => omega
  | succ n ih =>
    rw [enBits_succ]
    by_cases hi : i = n
    · rw [hi, enBit_same]
    · have h0 : RegsBut [SPN_ESTAT.ENABLED (16 * e.group + n)] (s.enBits e n) ((s.enBits e n).enBit e n) :=
        enBit_regsBut (List.mem_singleton.2 rfl)
      rw [h0 _ (Nat.le_of_ble_eq_true rfl) fun g hg => List.mem_singleton.1 hg ▸ enabled_apart (by omega), ih (by omega)]

theorem enBits_regsBut (s : State) (e : EnPend) (n : Nat) :
    RegsBut ((List.range n).map (fun i => SPN_ESTAT.ENABLED (16 * e.group + i))) s (s.enBits e n) := by
  induction n with
  | zero => exact .refl _ _
  | succ n ih =>
    rw [enBits_succ, List.range_succ, List.map_append]
    exact (ih.mono (List.subset_append_left _ _)).trans (enBit_regsBut (List.mem_append_right _ (List.mem_singleton.2 rfl)))

theorem enBits_eq (s : State) (e : EnPend) (n : Nat) :
    ∃ r p, p.enPend = s.spn.enPend ∧ s.enBits e n = { s with regs := r, spn := p } := by
  induction n with
  | zero => exact ⟨s.regs, s.spn, rfl, rfl⟩
  | succ n ih =>
    obtain ⟨r, p, hp, h⟩ := ih
    obtain ⟨p', hp', h'⟩ := enBit_eq (s.enBits e n) e n
    refine ⟨((s.enBits e n).enBit e n).regs, p', ?_, ?_⟩
    · rw [hp', h, hp]
    · rw [enBits_succ, h', h]

/-- The lane with the change no longer waiting. -/
def State.enDue (s : State) : State := { s with spn := { s.spn with enPend := [] } }

theorem grpenEffect_eq {g : Fin 16} {e : EnPend} (hon : s.on = true) (hp : s.spn.enPend = [e]) (hg : e.group = g) (he : e.eff ≤ s.gt)
    (ho : s.fireOpen g e.eff = false) : exec (.grpenEffect g) s = .next (s.enDue.enBits e 16) := by
  change execGrpenEffect g s = _
  rw [execGrpenEffect, whenOn_on hon]
  have hf : s.spn.enPend.filter (fun x => x.group == g.val && decide (x.eff ≤ s.gt)) = [e] := by simp [hp, hg, he]
  have hd : s.spn.enPend.erase e = [] := by simp [hp]
  rw [hf, State.enTakes, if_neg (by simp [ho]), hd, enTake_eq]
  rfl

theorem grpenEffect_open {g : Fin 16} {e : EnPend} (hon : s.on = true) (hp : s.spn.enPend = [e])
    (ho : s.fireOpen g e.eff = true) : exec (.grpenEffect g) s = .next s := by
  change execGrpenEffect g s = _
  rw [execGrpenEffect, whenOn_on hon, hp, List.filter_singleton]
  cases e.group == g.val && decide (e.eff ≤ s.gt) with
  | true => rw [cond_true, State.enTakes, if_pos ho]
  | false => rfl

/-! ### Completion by software (R54) -/

theorem granted_of_mayWrite {req u a : Nat} {early : Bool} (h : s.mayWrite req u early = true) (k : State → State) :
    s.granted req u a early k = k s := if_pos h

theorem spnDone_next {req m : Nat} (hon : s.on = true) (hw : s.mayWrite req (24 + m / 16) false = true) :
    execSpnDone req m s = .next (s.spnDone m) := by
  rw [execSpnDone, whenOn_on hon, granted_of_mayWrite hw]

theorem strikeDone_some {m : Nat} {i : Inst} (hi : (s.entry m).inst = some i) (hd : i.doneAt = none) :
    s.strikeDone (some m) = s.setEntry m { s.entry m with inst := some { i with doneAt := some s.gt } } := by
  simp [State.strikeDone, hi, hd]

theorem spnDone_of_irq {m : Nat} {i : Inst} (hi : (s.entry m).inst = some i) (ha : i.action = 6) :
    s.spnDone m = s.strikeDone (some m) := by
  simp [State.spnDone, hi, ha]

theorem spnDone_of_other {m : Nat} (h : (s.entry m).inst.elim true (fun i => i.action != 6) = true) : s.spnDone m = s := by
  unfold State.spnDone
  split
  · next i hi =>
    rw [hi] at h
    exact if_neg (by simpa using h)
  · rfl

/-! ### The ledger clear (R62) -/

/-- A class unprimed. -/
def State.unprime (s : State) (n : Nat) : State :=
  ((s.setN (SPN_SLACK.adr n) 0x7FFFFFFF).setN (SPN_CLASSCNT.adr n) 0).setN (SPN_CLASSSTAT.adr n) 0

/-- The three words of a class's ledger. -/
def State.classWords (s : State) (n : Nat) : Nat × Nat × Nat :=
  (s.rn (SPN_SLACK.adr n), s.rn (SPN_CLASSCNT.adr n), s.rn (SPN_CLASSSTAT.adr n))

theorem classWords_unprime (s : State) (n k : Nat) :
    (s.unprime n).classWords k = if k = n then (0x7FFFFFFF, 0, 0) else s.classWords k := by
  simp only [State.classWords, State.unprime, rn_setN, SPN_SLACK.adr, SPN_CLASSCNT.adr, SPN_CLASSSTAT.adr]
  by_cases h : k = n
  · subst h
    simp
  · have h1 : 0x40010104 + 16 * k ≠ 0x40010108 + 16 * n := by omega
    have h2 : 0x40010104 + 16 * k ≠ 0x4001010C + 16 * n := by omega
    have h3 : 0x40010108 + 16 * k ≠ 0x40010104 + 16 * n := by omega
    have h4 : 0x40010108 + 16 * k ≠ 0x4001010C + 16 * n := by omega
    have h5 : 0x4001010C + 16 * k ≠ 0x40010104 + 16 * n := by omega
    have h6 : 0x4001010C + 16 * k ≠ 0x40010108 + 16 * n := by omega
    simp [h, h1, h2, h3, h4, h5, h6]

theorem classWords_foldl_unprime (l : List Nat) (s : State) (k : Nat) :
    (l.foldl State.unprime s).classWords k = if k ∈ l then (0x7FFFFFFF, 0, 0) else s.classWords k := by
  induction l generalizing s with
  | nil => simp
  | cons n l ih =>
    rw [List.foldl_cons, ih, classWords_unprime]
    by_cases hk : k ∈ l <;> by_cases hn : k = n <;> simp [hk, hn]

theorem ledgerClear_classWords (s : State) (v : Nat) {k : Nat} (hk : k < 16) :
    (s.ledgerClear v).classWords k = if v.testBit k then (0x7FFFFFFF, 0, 0) else s.classWords k := by
  have h : s.ledgerClear v = (bitList 16 v).foldl State.unprime s := rfl
  rw [h, classWords_foldl_unprime]
  simp [bitList, hk]

theorem ledgerClear_regsBut (s : State) (v : Nat) :
    RegsBut ((List.range 16).flatMap (fun n => [whole (SPN_SLACK.adr n), whole (SPN_CLASSCNT.adr n), whole (SPN_CLASSSTAT.adr n)]))
      s (s.ledgerClear v) := by
  unfold State.ledgerClear
  refine List.foldlRecOn (motive := fun t : State => RegsBut _ s t) _ _ (.refl _ _) fun t ht n hn => ?_
  have hn' : n ∈ List.range 16 := (List.mem_filter.1 hn).1
  have hm (f : Fld) (hf : f ∈ [whole (SPN_SLACK.adr n), whole (SPN_CLASSCNT.adr n), whole (SPN_CLASSSTAT.adr n)]) :
      f ∈ (List.range 16).flatMap (fun n => [whole (SPN_SLACK.adr n), whole (SPN_CLASSCNT.adr n), whole (SPN_CLASSSTAT.adr n)]) :=
    List.mem_flatMap.2 ⟨n, hn', hf⟩
  exact ((ht.setN (hm _ (by simp))).setN (hm _ (by simp))).setN (hm _ (by simp))

theorem ledgerClear_eq (s : State) (v : Nat) : s.ledgerClear v = { s with regs := (s.ledgerClear v).regs } := by
  have h : ∃ r, s.ledgerClear v = { s with regs := r } := by
    unfold State.ledgerClear
    refine List.foldlRecOn (motive := fun t : State => ∃ r, t = { s with regs := r }) _ _ ⟨s.regs, rfl⟩ fun t ht n _ => ?_
    obtain ⟨r, rfl⟩ := ht
    exact ⟨_, rfl⟩
  obtain ⟨r, e⟩ := h
  rw [e]

/-- Settles O37: enables wait 200 ns and for open fire times, only IRQ strikes are done by software, and classes are unprimed
one by one. -/
theorem strikeWrites : Obligations.StrikeWrites := by
  refine ⟨fun s req g v hon hw => ?_, fun s g e hon hp hg he ho => ?_, fun s g e hon hp ho => ⟨s, grpenEffect_open hon hp ho, rfl⟩,
    fun s req m i hon hw hi ha hd => ?_, fun s req m hon hw ho => ?_, fun s v hon => ?_⟩
  · refine ⟨s.grpenWrite g v.toNat, ?_, rf_wf_same _ _ _ (Nat.le_of_ble_eq_true rfl), rfl, ?_, rfl⟩
    · change execGrpenWrite req g v s = _
      rw [execGrpenWrite, whenOn_on hon, granted_of_mayWrite hw]
    · exact ((RegsBut.refl _ s).wf (v := v.toNat) (List.mem_singleton.2 rfl)).of_regs rfl
  · obtain ⟨r, p, hpe, h⟩ := enBits_eq s.enDue e 16
    refine ⟨_, grpenEffect_eq hon hp hg he ho, fun i => hg ▸ enBits_enabled s.enDue e i.isLt, ?_, ?_, ?_⟩
    · rw [h]; exact hpe
    · exact hg ▸ enBits_regsBut s.enDue e 16
    · rw [h]; rfl
  · refine ⟨s.spnDone m, spnDone_next hon hw, ?_⟩
    rw [spnDone_of_irq hi ha, strikeDone_some hi hd]
    refine ⟨?_, (RegsBut.refl _ s).of_regs rfl, rfl⟩
    rw [entry_setEntry, if_pos rfl]
  · exact ⟨s, (spnDone_next hon hw).trans (congrArg _ (spnDone_of_other ho)), rfl⟩
  · refine ⟨s.ledgerClear v.toNat, whenOn_on hon fun s => s.headstockOnly 1 SPN_LEDGER_CLR.adr fun s => s.ledgerClear v.toNat,
      fun n => ?_, ledgerClear_regsBut s _, ledgerClear_eq s _⟩
    have h := ledgerClear_classWords s v.toNat n.isLt
    split
    · next hb =>
      rw [if_pos hb] at h
      simpa only [State.classWords, Prod.mk.injEq] using h
    · next hb =>
      rw [if_neg hb] at h
      simpa only [State.classWords, Prod.mk.injEq] using h

end Sys2Proof.Machine
end
section
/-! PROOF. Strikes at their fire times: what brings nothing beside the launch, misses, and the strikes that begin (R52 to R58). -/

namespace Sys2Proof.Machine

set_option Elab.async false

variable {s t u : State} {m : Fin 256} {f : Nat}

/-! ### Nothing attached -/

/-- Nothing waits for a strike beside its action: no agreement, no challenge, no channel in use and no pair. -/
structure State.Unattached (s : State) : Prop where
  agreement : s.rb LBR_AGRCFG.EN = false
  challenge : s.rb TSK_CHALCFG.EN = false
  channels : ∀ n : Fin 16, s.fbUse n = false
  pairs : ∀ p : Fin 3, s.rb (SLP_PAIRCFG.EN p) = false ∧ s.runsLocked p = false

/-- Its fire time has come, in its turn. -/
structure State.Fires (s : State) (m : Fin 256) (f : Nat) : Prop where
  on : s.on = true
  due : s.fireDue m = some f
  turn : s.fireTurn m f = true

theorem countLatches_of_idle (h : ∀ n : Fin 16, s.fbUse n = false) (m f : Nat) : s.countLatches m f = s := by
  unfold State.countLatches
  refine List.foldlRecOn (motive := fun t => t = s) _ _ rfl fun t ht n hn => ?_
  subst ht
  rw [if_neg (by simp [h ⟨n, List.mem_range.1 hn⟩])]

theorem fireSides_of_unattached (h : s.Unattached) (m f : Nat) : s.fireSides m f = s := by
  simp only [State.fireSides, h.agreement, h.challenge, countLatches_of_idle h.channels, Bool.false_and, Bool.false_eq_true, if_false]

/-- Pairs that are neither enabled nor LOCKED take no strike. -/
theorem firePairs_of_unpaired (h : ∀ p : Fin 3, s.rb (SLP_PAIRCFG.EN p) = false ∧ s.runsLocked p = false) (m f : Nat) :
    s.firePairs m f = s := by
  unfold State.firePairs
  refine List.foldlRecOn (motive := fun t => t = s) _ _ rfl fun t ht p hp => ?_
  subst ht
  have hen : t.rb (SLP_PAIRCFG.EN p) = false := (h ⟨p, List.mem_range.1 hp⟩).1
  have hrun : t.runsLocked p = false := (h ⟨p, List.mem_range.1 hp⟩).2
  simp only [hen, hrun, Bool.and_false, Bool.false_and, Bool.false_eq_true, if_false]

/-- The field lies outside the pairs' registers (Table LANE-3). -/
def Fld.OffPairs (g : Fld) : Prop := g.adr < 0x40060000 ∨ 0x40070000 ≤ g.adr

theorem unpaired_of_regsBut {l : List Fld} (hr : RegsBut l s t) (hl : ∀ g ∈ l, Fld.OffPairs g)
    (h : ∀ p : Fin 3, s.rb (SLP_PAIRCFG.EN p) = false ∧ s.runsLocked p = false) (p : Fin 3) :
    t.rb (SLP_PAIRCFG.EN p) = false ∧ t.runsLocked p = false := by
  have hc : t.reg (SLP_PAIRCFG.adr p) = s.reg (SLP_PAIRCFG.adr p) := hr.reg fun g hg => by
    have := hl g hg
    simp only [Fld.OffPairs, SLP_PAIRCFG.adr] at *
    omega
  have hs : t.reg (SLP_PAIRSTAT.adr p) = s.reg (SLP_PAIRSTAT.adr p) := hr.reg fun g hg => by
    have := hl g hg
    simp only [Fld.OffPairs, SLP_PAIRSTAT.adr] at *
    omega
  have hen : t.rb (SLP_PAIRCFG.EN p) = s.rb (SLP_PAIRCFG.EN p) :=
    congrArg (fun x : BitVec 32 => (SLP_PAIRCFG.EN p).getN x.toNat != 0) hc
  have hst : t.pairSt p = s.pairSt p := congrArg (fun x : BitVec 32 => (SLP_PAIRSTAT.STATE p).getN x.toNat) hs
  have hrun : t.runsLocked p = s.runsLocked p := by rw [State.runsLocked, hst, State.runsLocked]
  rw [hen, hrun]
  exact h p

/-! ### STRIKE_FIRE -/

theorem entry_of_spn (h : t.spn = s.spn) (m : Nat) : t.entry m = s.entry m := by rw [State.entry, h, State.entry]

/-- The entry goes on from the tick after its fire time. -/
def State.goesOn (s : State) (m f : Nat) : State := s.setEntry m { s.entry m with sinceGt := f + 1 }

theorem goesOn_entry (s : State) (m f : Nat) : (s.goesOn m f).entry m = { s.entry m with sinceGt := f + 1 } := by
  rw [State.goesOn, entry_setEntry, if_pos rfl]

theorem goesOn_rf (s : State) (m f : Nat) (g : Fld) : (s.goesOn m f).rf g = s.rf g := setEntry_rf _ _ _ _

theorem goesOn_mem (s : State) (m f : Nat) : (s.goesOn m f).mem = s.mem := setEntry_mem _ _ _

theorem fireDue_le (h : s.fireDue m = some f) : f ≤ s.gt := by
  have := (Option.filter_eq_some_iff.1 h).2
  simp only [Bool.and_eq_true, decide_eq_true_eq] at this
  exact this.1

theorem execStrikeFire_eq (h : s.Fires m f) :
    exec (.strikeFire m) s = .next ((((s.fireSides m f).fire m f).goesOn m f).firePairs m f) := by
  change execStrikeFire m s = _
  rw [execStrikeFire, h.due]
  exact whenB_true (by simp [h.on, h.turn]) _

/-- A strike with nothing attached, whose launch writes no register of the pairs. -/
theorem strikeFire_next (h : s.Fires m f) (hu : s.Unattached) {l : List Fld} (hr : RegsBut l s (s.fire m f))
    (hl : ∀ g ∈ l, Fld.OffPairs g) : exec (.strikeFire m) s = .next ((s.fire m f).goesOn m f) := by
  rw [execStrikeFire_eq h, fireSides_of_unattached hu]
  have hg : RegsBut l s ((s.fire m f).goesOn m f) := RegsBut.of_regs (t := s.fire m f) rfl hr
  rw [firePairs_of_unpaired (unpaired_of_regsBut hg hl hu.pairs)]

/-- Whatever a strike brings, its entry goes on. -/
theorem strikeFire_sinceGt (h : s.Fires m f) : ∃ t, exec (.strikeFire m) s = .next t ∧ (t.entry m).sinceGt = f + 1 := by
  refine ⟨_, execStrikeFire_eq h, ?_⟩
  generalize (s.fireSides m f).fire m f = u
  have hp : Aside blockBase (u.goesOn m f) ((u.goesOn m f).firePairs m f) := Aside.refl.firePairs
  rw [entry_of_spn hp.spn_eq, goesOn_entry]

/-! ### Where the Spindle's registers lie -/

theorem estat_lt (m : Fin 256) : SPN_ESTAT.adr m < blockBase := by
  unfold SPN_ESTAT.adr blockBase
  omega

theorem estat_ne_class {n : Nat} (hn : n < 16) (m : Nat) : SPN_ESTAT.adr m ≠ SPN_CLASSSTAT.adr n := by
  unfold SPN_ESTAT.adr SPN_CLASSSTAT.adr
  omega

theorem offPairs_of_lt {g : Fld} (h : g.adr < blockBase) : Fld.OffPairs g := .inl (Nat.lt_trans h (by decide))

theorem class_lt {n : Nat} (hn : n < 16) : SPN_CLASSSTAT.adr n < blockBase := by
  unfold SPN_CLASSSTAT.adr blockBase
  omega

theorem entryClass_lt (s : State) (m : Nat) : s.rf (SPN_ACT.CLASS m) < 16 := rf_lt _ _

/-! ### Misses (R58) -/

theorem satN_eq_min (n m : Nat) : satN m n = min n m := by
  unfold satN
  split <;> omega

/-- A count after a saturating step. -/
theorem rf_incSat_same (s : State) (g : Fld) (hg : g.lo + g.wd ≤ 32) :
    (s.incSat g).rf g = min (s.rf g + 1) (2 ^ g.wd - 1) := by
  rw [incSat_eq, rf_wf_same _ _ _ hg, satN_mod, satN_eq_min]

theorem rf_incSat_of_adr_ne (s : State) {g k : Fld} (h : k.adr ≠ g.adr) : (s.incSat g).rf k = s.rf k := by
  rw [incSat_eq, State.rf, State.rn, reg_wf_ne _ _ _ _ h]
  rfl

theorem spnDetail_eq {cls : Nat} (hc : cls < 16) (m : Fin 256) : spnDetail m cls = m + cls * 256 := by
  rw [spnDetail, Nat.mod_eq_of_lt m.isLt, Nat.mod_eq_of_lt hc]

/-- A missed strike: the counts of the entry and the class, and 19. -/
structure Missed (s t : State) (m : Fin 256) (cls : Nat) : Prop where
  misses : t.rf (SPN_ESTAT.MISSES m) = min (s.rf (SPN_ESTAT.MISSES m) + 1) 255
  raised : Raised s t 19 (m + cls * 256)
  entry : t.entry m = { s.entry m with sinceGt := (t.entry m).sinceGt }
  regs : RegsBut [SPN_ESTAT.MISSES m, SPN_CLASSSTAT.MISSES cls] s t
  eq : t = { s with regs := t.regs, tly := t.tly, spn := t.spn }

theorem strikeMiss_regsBut (s : State) (m cls : Nat) :
    RegsBut [SPN_ESTAT.MISSES m, SPN_CLASSSTAT.MISSES cls] s (s.strikeMiss m cls) :=
  RegsBut.of_regs (t := (s.incSat (SPN_ESTAT.MISSES m)).incSat (SPN_CLASSSTAT.MISSES cls)) rfl
    (((RegsBut.refl _ s).incSat (by simp)).incSat (by simp))

theorem strikeMiss_eq (s : State) (m cls : Nat) : ∃ r y, s.strikeMiss m cls = { s with regs := r, tly := y } := ⟨_, _, rfl⟩

theorem missed_goesOn {cls : Nat} (hc : cls < 16) (s : State) (m : Fin 256) (f : Nat) :
    Missed s ((s.strikeMiss m cls).goesOn m f) m cls where
  misses := by
    change ((s.incSat (SPN_ESTAT.MISSES m)).incSat (SPN_CLASSSTAT.MISSES cls)).rf (SPN_ESTAT.MISSES m) = _
    rw [rf_incSat_of_adr_ne _ (estat_ne_class hc m), rf_incSat_same _ _ (Nat.le_of_ble_eq_true rfl)]
    rfl
  raised := by
    rw [Raised, ← spnDetail_eq hc m]
    rfl
  entry := by
    rw [goesOn_entry]
    rfl
  regs := RegsBut.of_regs (t := s.strikeMiss m cls) rfl (strikeMiss_regsBut s m cls)
  eq := by
    obtain ⟨r, y, e⟩ := strikeMiss_eq s m cls
    rw [e]
    rfl

/-- A fire time that misses. -/
theorem strikeFire_missed (h : s.Fires m f) (hu : s.Unattached) (hf : s.fire m f = s.strikeMiss m (s.rf (SPN_ACT.CLASS m))) :
    ∃ t, exec (.strikeFire m) s = .next t ∧ Missed s t m (s.rf (SPN_ACT.CLASS m)) := by
  refine ⟨_, strikeFire_next h hu (hf ▸ strikeMiss_regsBut s m _) ?_, hf ▸ missed_goesOn (entryClass_lt s m) s m f⟩
  intro g hg
  rcases List.mem_cons.1 hg with rfl | hg
  · exact offPairs_of_lt (estat_lt m)
  · exact List.mem_singleton.1 hg ▸ offPairs_of_lt (class_lt (entryClass_lt s m))

theorem settleDone_of_none {m : Nat} (h : (s.entry m).inst = none) : s.settleDone m = s := by
  simp only [State.settleDone, h]

theorem settleDone_of_open {m : Nat} {i : Inst} (h : (s.entry m).inst = some i) (hd : i.doneAt = none) : s.settleDone m = s := by
  simp only [State.settleDone, h, hd]

theorem settleDone_of_done {m c : Nat} {i : Inst} (h : (s.entry m).inst = some i) (hd : i.doneAt = some c) :
    s.settleDone m = s.settleInst m i c := by
  simp only [State.settleDone, h, hd]

theorem fire_of_open {i : Inst} (h : (s.entry m).inst = some i) (hd : i.doneAt = none) :
    s.fire m f = s.strikeMiss m (s.rf (SPN_ACT.CLASS m)) := by
  rw [State.fire, settleDone_of_open h hd]
  exact if_pos (by simp [h])

/-! ### Strikes that begin (R54, R59) -/

/-- What a fire time begins. -/
def State.newInst (s : State) (m f : Nat) : Inst :=
  { fire := f, deadline := f + s.rf (SPN_CLASSCFG.BUDGET (s.rf (SPN_ACT.CLASS m))), cls := s.rf (SPN_ACT.CLASS m),
    action := s.rf (SPN_ACT.ACTION m), target := s.rf (SPN_ACT.TARGET m) }

/-- The entry with the strike of a fire time begun, its completion known or not. -/
def State.begun (s : State) (m f : Nat) (d : Option Nat) : State :=
  (s.setEntry m { s.entry m with
    inst := some { s.newInst m f with doneAt := d }, count := ((s.entry m).count + 1) % 2 ^ 32 }).wb (SPN_ESTAT.OUTST m) true

theorem begun_entry (s : State) (m f : Nat) (d : Option Nat) : (s.begun m f d).entry m =
    { s.entry m with inst := some { s.newInst m f with doneAt := d }, count := ((s.entry m).count + 1) % 2 ^ 32 } := by
  rw [State.begun, wb_eq, entry_of_spn (wf_spn _ _ _), entry_setEntry, if_pos rfl]

theorem begun_outst (s : State) (m f : Nat) (d : Option Nat) : (s.begun m f d).rf (SPN_ESTAT.OUTST m) = 1 :=
  rf_wf_same _ _ _ (Nat.le_of_ble_eq_true rfl)

theorem begun_regsBut (s : State) (m f : Nat) (d : Option Nat) : RegsBut [SPN_ESTAT.OUTST m] s (s.begun m f d) :=
  RegsBut.wb (List.mem_singleton.2 rfl) (RegsBut.of_regs (t := s) rfl (.refl _ s))

/-- The blocks' registers stand. -/
theorem begun_reg (s : State) (m : Fin 256) (f : Nat) (d : Option Nat) {a : Nat} (ha : blockBase ≤ a) :
    (s.begun m f d).reg a = s.reg a :=
  reg_wf_ne _ _ _ _ (Nat.ne_of_gt (Nat.lt_of_lt_of_le (estat_lt m) ha))

theorem begun_rf (s : State) (m : Fin 256) (f : Nat) (d : Option Nat) {g : Fld} (hg : blockBase ≤ g.adr) :
    (s.begun m f d).rf g = s.rf g :=
  congrArg (fun x : BitVec 32 => g.getN x.toNat) (begun_reg s m f d hg)

theorem begun_rb (s : State) (m : Fin 256) (f : Nat) (d : Option Nat) {g : Fld} (hg : blockBase ≤ g.adr) :
    (s.begun m f d).rb g = s.rb g :=
  congrArg (· != 0) (begun_rf s m f d hg)

/-- A fire time of an entry with nothing outstanding launches its action, or misses. -/
theorem fire_of_free (hi : (s.entry m).inst = none) (ha : s.rf (SPN_ACT.ACTION m) ≠ 0) :
    s.fire m f = ((s.begun m f (if s.rf (SPN_ACT.ACTION m) = 4 then some s.gt else none)).launch m f (s.newInst m f)).getD
      (s.strikeMiss m (s.rf (SPN_ACT.CLASS m))) := by
  rw [State.fire, settleDone_of_none hi]
  dsimp only
  rw [if_neg (by simp [hi]), if_neg ha, if_neg (fun h => ha h.1), if_congr (or_iff_right ha) rfl rfl]
  rfl

theorem fire_of_refused (hi : (s.entry m).inst = none) (ha : s.rf (SPN_ACT.ACTION m) ≠ 0)
    (hl : ∀ d, (s.begun m f d).launch m f (s.newInst m f) = none) : s.fire m f = s.strikeMiss m (s.rf (SPN_ACT.CLASS m)) := by
  rw [fire_of_free hi ha, hl]
  rfl

theorem fire_of_launched (hi : (s.entry m).inst = none) (ha : s.rf (SPN_ACT.ACTION m) ≠ 0)
    (hl : (s.begun m f (if s.rf (SPN_ACT.ACTION m) = 4 then some s.gt else none)).launch m f (s.newInst m f) = some u) :
    s.fire m f = u := by
  rw [fire_of_free hi ha, hl]
  rfl

/-- A NONE strike completes at its launch, at the fire time in an idle class (R64). -/
theorem fire_of_none (hi : (s.entry m).inst = none) (ha : s.rf (SPN_ACT.ACTION m) = 0) {c : Nat}
    (hc : c = if s.rb (SPN_CLASSCFG.IDLE (s.rf (SPN_ACT.CLASS m))) then f else s.gt) :
    s.fire m f = (s.begun m f (some c)).settleInst m { s.newInst m f with doneAt := some c } c := by
  have hd : (if s.rf (SPN_ACT.ACTION m) = 0 ∧ s.rb (SPN_CLASSCFG.IDLE (s.rf (SPN_ACT.CLASS m))) = true then some f
      else if s.rf (SPN_ACT.ACTION m) = 0 ∨ s.rf (SPN_ACT.ACTION m) = 4 then some s.gt else none) = some c := by
    rw [hc]
    split <;> simp_all
  have hlaunch (t : State) : t.launch m f (s.newInst m f) = some t := by simp [State.launch, State.newInst, ha]
  rw [State.fire, settleDone_of_none hi]
  dsimp only
  rw [if_neg (by simp [hi]), if_pos ha, hd]
  have hb : ((s.begun m f (some c)).launch m f (s.newInst m f)).getD (s.strikeMiss m (s.rf (SPN_ACT.CLASS m))) = s.begun m f (some c) := by
    rw [hlaunch]
    rfl
  exact (congrArg (State.settleDone · m) hb).trans (settleDone_of_done (congrArg EntrySt.inst (begun_entry s m f (some c))) rfl)

end Sys2Proof.Machine
end
section
/-! PROOF. Completions, overruns and the slack ledger (R58 to R61). -/

namespace Sys2Proof.Machine

set_option Elab.async false

variable {s t u : State} {m : Fin 256} {f : Nat} {i : Inst}

/-! ### Steps that write registers alone -/

/-- Only registers differ. -/
def RegsOnly (s t : State) : Prop := ∃ r, t = { s with regs := r }

theorem RegsOnly.refl : RegsOnly s s := ⟨s.regs, rfl⟩

theorem RegsOnly.setN (h : RegsOnly s t) {a n : Nat} : RegsOnly s (t.setN a n) := by
  obtain ⟨r, rfl⟩ := h
  exact ⟨_, rfl⟩

theorem RegsOnly.wf (h : RegsOnly s t) {g : Fld} {v : Nat} : RegsOnly s (t.wf g v) := h.setN
theorem RegsOnly.wb (h : RegsOnly s t) {g : Fld} {v : Bool} : RegsOnly s (t.wb g v) := h.wf
theorem RegsOnly.incSat (h : RegsOnly s t) {g : Fld} : RegsOnly s (t.incSat g) := h.wf
theorem RegsOnly.incWrap (h : RegsOnly s t) {g : Fld} : RegsOnly s (t.incWrap g) := h.wf

theorem RegsOnly.ite {c : Prop} [Decidable c] (h : RegsOnly s t) (k : RegsOnly s u) : RegsOnly s (if c then t else u) := by
  split <;> assumption

/-! ### Two's complement -/

theorem toSigned_range (n : Nat) : -2147483648 ≤ toSigned 32 n ∧ toSigned 32 n < 2147483648 := by
  unfold toSigned
  split <;> omega

/-- Within 32 bits a signed number is kept as it is. -/
theorem toSigned_satSigned32 {v : Int} (h : -2147483648 ≤ v ∧ v < 2147483648) : toSigned 32 (satSigned32 v) = v := by
  unfold toSigned satSigned32 clampI ofSigned
  omega

theorem satSigned32_lt (v : Int) : satSigned32 v < 2 ^ 32 := by
  unfold satSigned32 ofSigned
  omega

theorem satSigned32_of_small {n : Nat} (h : n < 2147483648) : satSigned32 (n : Int) = n := by
  unfold satSigned32 clampI ofSigned
  omega

/-! ### The ledger (R61) -/

/-- The slack that a margin leaves in a class. -/
def State.slackAfter (s : State) (cls : Nat) (margin : Int) : Int :=
  if s.rb (SPN_CLASSSTAT.PRIMED cls) then min (toSigned 32 (s.rn (SPN_SLACK.adr cls))) margin else margin

theorem ledger_eq (s : State) (cls : Nat) (margin : Int) : s.ledger cls margin =
    ((s.setN (SPN_SLACK.adr cls) (satSigned32 (s.slackAfter cls margin))).incWrap (SPN_CLASSCNT.DONE cls)).wb
      (SPN_CLASSSTAT.PRIMED cls) true := by
  have h : (if s.rb (SPN_CLASSSTAT.PRIMED cls) && decide (toSigned 32 (s.rn (SPN_SLACK.adr cls)) ≤ margin) then
      toSigned 32 (s.rn (SPN_SLACK.adr cls)) else margin) = s.slackAfter cls margin := by
    unfold State.slackAfter
    cases s.rb (SPN_CLASSSTAT.PRIMED cls) with
    | true => simp [min_def]
    | false => rfl
  rw [← h]
  rfl

/-- The ledger of a class after a margin has been recorded. -/
structure Ledgered (s t : State) (cls : Nat) (margin : Int) : Prop where
  done : t.rf (SPN_CLASSCNT.DONE cls) = (s.rf (SPN_CLASSCNT.DONE cls) + 1) % 2 ^ 32
  primed : t.rf (SPN_CLASSSTAT.PRIMED cls) = 1
  slack : t.rn (SPN_SLACK.adr cls) = satSigned32 (s.slackAfter cls margin)

theorem slack_ne_cnt (n : Nat) : SPN_SLACK.adr n ≠ SPN_CLASSCNT.adr n := by unfold SPN_SLACK.adr SPN_CLASSCNT.adr; omega
theorem slack_ne_stat (n : Nat) : SPN_SLACK.adr n ≠ SPN_CLASSSTAT.adr n := by unfold SPN_SLACK.adr SPN_CLASSSTAT.adr; omega
theorem cnt_ne_stat (n : Nat) : SPN_CLASSCNT.adr n ≠ SPN_CLASSSTAT.adr n := by unfold SPN_CLASSCNT.adr SPN_CLASSSTAT.adr; omega

theorem ledgered (s : State) (cls : Nat) (margin : Int) : Ledgered s (s.ledger cls margin) cls margin := by
  rw [ledger_eq]
  refine ⟨?_, rf_wf_same _ _ _ (Nat.le_of_ble_eq_true rfl), ?_⟩
  · rw [wb_eq, rf_wf_other _ _ _ _ (Nat.le_of_ble_eq_true rfl) (.inl (cnt_ne_stat cls)), incWrap_eq,
      rf_wf_same _ _ _ (Nat.le_of_ble_eq_true rfl), rf_setN _ _ _ _ (Nat.le_of_ble_eq_true rfl), 
      if_neg (show (SPN_CLASSCNT.DONE cls).adr ≠ SPN_SLACK.adr cls from (slack_ne_cnt cls).symm)]
    rfl
  · rw [State.rn, wb_eq, reg_wf_ne _ _ _ _ (slack_ne_stat cls), incWrap_eq, reg_wf_ne _ _ _ _ (slack_ne_cnt cls)]
    have h := rn_setN s (SPN_SLACK.adr cls) (SPN_SLACK.adr cls) (satSigned32 (s.slackAfter cls margin))
    rw [if_pos rfl, Nat.mod_eq_of_lt (satSigned32_lt _)] at h
    exact h

theorem ledger_regsBut (s : State) (cls : Nat) (margin : Int) :
    RegsBut [whole (SPN_SLACK.adr cls), whole (SPN_CLASSCNT.adr cls), SPN_CLASSSTAT.PRIMED cls] s (s.ledger cls margin) := by
  have hc : RegsBut [whole (SPN_CLASSCNT.adr cls)] (s.setN (SPN_SLACK.adr cls) (satSigned32 (s.slackAfter cls margin)))
      ((s.setN (SPN_SLACK.adr cls) (satSigned32 (s.slackAfter cls margin))).incWrap (SPN_CLASSCNT.DONE cls)) :=
    ((RegsBut.refl [SPN_CLASSCNT.DONE cls] _).incWrap (by simp)).of_whole
      fun g hg => List.mem_singleton.1 hg ▸ ⟨rfl, Nat.le_of_ble_eq_true rfl⟩
  rw [ledger_eq]
  exact (((RegsBut.refl _ s).setN (by simp)).trans (hc.mono (by simp))).wb (by simp)

theorem ledger_regs (s : State) (cls : Nat) (margin : Int) : RegsOnly s (s.ledger cls margin) := by
  rw [ledger_eq]
  exact RegsOnly.refl.setN.incWrap.wb

/-! ### A completion (R58, R60) -/

/-- The strike ends in its entry. -/
def State.instEnds (s : State) (m : Nat) : State := (s.setEntry m { s.entry m with inst := none }).wb (SPN_ESTAT.OUTST m) false

theorem settleInst_eq (s : State) (m : Nat) (i : Inst) (c : Nat) : s.settleInst m i c =
    ((if i.deadline < c ∧ !i.overrun then s.overrun m i else s).ledger i.cls ((i.deadline : Int) - (c : Int))).instEnds m := rfl

theorem instEnds_entry (s : State) (m : Nat) : (s.instEnds m).entry m = { s.entry m with inst := none } := by
  rw [State.instEnds, wb_eq, entry_of_spn (wf_spn _ _ _), entry_setEntry, if_pos rfl]

theorem instEnds_outst (s : State) (m : Nat) : (s.instEnds m).rf (SPN_ESTAT.OUTST m) = 0 :=
  rf_wf_same _ _ _ (Nat.le_of_ble_eq_true rfl)

theorem instEnds_regsBut (s : State) (m : Nat) : RegsBut [SPN_ESTAT.OUTST m] s (s.instEnds m) :=
  RegsBut.wb (List.mem_singleton.2 rfl) (RegsBut.of_regs (t := s) rfl (.refl _ s))

theorem instEnds_regs (s : State) (m : Nat) : ∃ r p, s.instEnds m = { s with regs := r, spn := p } := ⟨_, _, rfl⟩

/-- A completion no later than its deadline, or whose overrun is counted, is settled in the ledger. -/
theorem settleInst_of_counted {c : Nat} (h : i.deadline < c → i.overrun = true) (s : State) (m : Nat) :
    s.settleInst m i c = (s.ledger i.cls ((i.deadline : Int) - (c : Int))).instEnds m := by
  rw [settleInst_eq, if_neg]
  rintro ⟨hlt, hov⟩
  rw [h hlt] at hov
  cases hov

theorem settleInst_of_late {c : Nat} (h : i.deadline < c) (ho : i.overrun = false) (s : State) (m : Nat) :
    s.settleInst m i c = ((s.overrun m i).ledger i.cls ((i.deadline : Int) - (c : Int))).instEnds m := by
  rw [settleInst_eq, if_pos ⟨h, by rw [ho]; rfl⟩]

theorem rf_of_regsBut_ne {l : List Fld} (h : RegsBut l s t) {g : Fld} (hg : g.lo + g.wd ≤ 32) (hl : ∀ k ∈ l, g.adr ≠ k.adr) :
    t.rf g = s.rf g := h g hg fun k hk => .inl (hl k hk)

/-- A completion in the ledger and in its entry. -/
structure Settled (s t : State) (m : Fin 256) (cls : Nat) (margin : Int) : Prop extends Ledgered s t cls margin where
  outst : t.rf (SPN_ESTAT.OUTST m) = 0
  inst : (t.entry m).inst = none
  regs : RegsBut [SPN_ESTAT.OUTST m, whole (SPN_SLACK.adr cls), whole (SPN_CLASSCNT.adr cls), SPN_CLASSSTAT.PRIMED cls] s t
  eq : t = { s with regs := t.regs, spn := t.spn }

theorem slack_ne_estat {n : Nat} (m : Nat) : SPN_SLACK.adr n ≠ SPN_ESTAT.adr m := by
  unfold SPN_ESTAT.adr SPN_SLACK.adr
  omega

theorem cnt_ne_estat {n : Nat} (m : Nat) : SPN_CLASSCNT.adr n ≠ SPN_ESTAT.adr m := by
  unfold SPN_ESTAT.adr SPN_CLASSCNT.adr
  omega

theorem settled_entry (s : State) (m cls : Nat) (margin : Int) :
    ((s.ledger cls margin).instEnds m).entry m = { s.entry m with inst := none } := by
  obtain ⟨r, hr⟩ := ledger_regs s cls margin
  rw [instEnds_entry, hr]
  rfl

theorem settled {cls : Nat} (hc : cls < 16) (s : State) (m : Fin 256) (margin : Int) :
    Settled s ((s.ledger cls margin).instEnds m) m cls margin := by
  have hl := ledgered s cls margin
  have he := instEnds_regsBut (s.ledger cls margin) m
  refine { done := ?_, primed := ?_, slack := ?_, outst := instEnds_outst _ _, inst := ?_, regs := ?_, eq := ?_ }
  · rw [rf_of_regsBut_ne he (Nat.le_of_ble_eq_true rfl) fun k hk => List.mem_singleton.1 hk ▸ cnt_ne_estat m, hl.done]
  · rw [rf_of_regsBut_ne he (Nat.le_of_ble_eq_true rfl) fun k hk => List.mem_singleton.1 hk ▸ (estat_ne_class hc m).symm, hl.primed]
  · rw [State.rn, he.reg fun k hk => List.mem_singleton.1 hk ▸ slack_ne_estat m]
    exact hl.slack
  · rw [settled_entry]
  · exact ((ledger_regsBut s cls margin).mono (by simp)).trans (he.mono (by simp))
  · obtain ⟨r, hr⟩ := ledger_regs s cls margin
    obtain ⟨r', p, e⟩ := instEnds_regs (s.ledger cls margin) m
    rw [e, hr]

/-! ### Overruns (R58) -/

/-- An overrun counted: the counts of the entry and the class, and 16. -/
structure Overran (s t : State) (m : Fin 256) (cls : Nat) : Prop where
  entryCount : t.rf (SPN_ESTAT.OVERRUNS m) = min (s.rf (SPN_ESTAT.OVERRUNS m) + 1) 255
  classCount : t.rf (SPN_CLASSSTAT.OVERRUNS cls) = min (s.rf (SPN_CLASSSTAT.OVERRUNS cls) + 1) 255
  raised : Raised s t 16 (m + cls * 256)

theorem overrun_regsBut (s : State) (m : Nat) (i : Inst) :
    RegsBut [SPN_ESTAT.OVERRUNS m, SPN_CLASSSTAT.OVERRUNS i.cls] s (s.overrun m i) :=
  RegsBut.of_regs (t := (s.incSat (SPN_ESTAT.OVERRUNS m)).incSat (SPN_CLASSSTAT.OVERRUNS i.cls)) rfl
    (((RegsBut.refl _ s).incSat (by simp)).incSat (by simp))

theorem overrun_eq (s : State) (m : Nat) (i : Inst) : ∃ r y, s.overrun m i = { s with regs := r, tly := y } := by
  obtain ⟨r, e⟩ : RegsOnly s ((s.incSat (SPN_ESTAT.OVERRUNS m)).incSat (SPN_CLASSSTAT.OVERRUNS i.cls)) := RegsOnly.refl.incSat.incSat
  rw [State.overrun, e]
  exact ⟨r, _, rfl⟩

theorem overran (hc : i.cls < 16) (s : State) (m : Fin 256) : Overran s (s.overrun m i) m i.cls where
  entryCount := by
    change ((s.incSat (SPN_ESTAT.OVERRUNS m)).incSat (SPN_CLASSSTAT.OVERRUNS i.cls)).rf (SPN_ESTAT.OVERRUNS m) = _
    rw [rf_incSat_of_adr_ne _ (estat_ne_class hc m), rf_incSat_same _ _ (Nat.le_of_ble_eq_true rfl)]
    rfl
  classCount := by
    change ((s.incSat (SPN_ESTAT.OVERRUNS m)).incSat (SPN_CLASSSTAT.OVERRUNS i.cls)).rf (SPN_CLASSSTAT.OVERRUNS i.cls) = _
    rw [rf_incSat_same _ _ (Nat.le_of_ble_eq_true rfl), rf_incSat_of_adr_ne _ (estat_ne_class hc m).symm]
    rfl
  raised := by
    rw [Raised, ← spnDetail_eq hc m]
    rfl

/-- A late completion keeps the counts of its overrun. -/
theorem overran_settled (hc : i.cls < 16) (s : State) (m : Fin 256) (margin : Int) :
    Overran s (((s.overrun m i).ledger i.cls margin).instEnds m) m i.cls := by
  have ho := overran hc s m
  have hs := settled hc (s.overrun m i) m margin
  refine ⟨(hs.regs _ (Nat.le_of_ble_eq_true rfl) ?_).trans ho.entryCount, (hs.regs _ (Nat.le_of_ble_eq_true rfl) ?_).trans ho.classCount, ?_⟩
  · intro g hg
    simp only [List.mem_cons, List.not_mem_nil, or_false] at hg
    rcases hg with rfl | rfl | rfl | rfl
    · exact .inr (.inl (Nat.le_of_ble_eq_true rfl))
    · exact .inl (slack_ne_estat m).symm
    · exact .inl (cnt_ne_estat m).symm
    · exact .inl (estat_ne_class hc m)
  · intro g hg
    simp only [List.mem_cons, List.not_mem_nil, or_false] at hg
    rcases hg with rfl | rfl | rfl | rfl
    · exact .inl (estat_ne_class hc m).symm
    · exact .inl (slack_ne_stat i.cls).symm
    · exact .inl (cnt_ne_stat i.cls).symm
    · exact .inr (.inl (Nat.le_of_ble_eq_true rfl))
  · rw [Raised, hs.eq]
    exact ho.raised

/-- The slack does not depend on an overrun's counts. -/
theorem overrun_slackAfter (hc : i.cls < 16) (s : State) (m : Fin 256) (margin : Int) :
    (s.overrun m i).slackAfter i.cls margin = s.slackAfter i.cls margin := by
  have ho := overrun_regsBut s m i
  have hp : (s.overrun m i).rb (SPN_CLASSSTAT.PRIMED i.cls) = s.rb (SPN_CLASSSTAT.PRIMED i.cls) := by
    rw [State.rb, State.rb, ho _ (Nat.le_of_ble_eq_true rfl)]
    intro g hg
    simp only [List.mem_cons, List.not_mem_nil, or_false] at hg
    rcases hg with rfl | rfl
    · exact .inl (estat_ne_class hc m).symm
    · exact .inr (.inr (Nat.le_of_ble_eq_true rfl))
  have hs : (s.overrun m i).rn (SPN_SLACK.adr i.cls) = s.rn (SPN_SLACK.adr i.cls) := by
    rw [State.rn, State.rn, ho.reg]
    intro g hg
    simp only [List.mem_cons, List.not_mem_nil, or_false] at hg
    rcases hg with rfl | rfl
    · exact slack_ne_estat m
    · exact slack_ne_stat i.cls
  rw [State.slackAfter, hp, hs, State.slackAfter]

/-- A slack that fits is read back as it is. -/
theorem slackAfter_range {cls : Nat} {margin : Int} (h : -2147483648 ≤ margin ∧ margin < 2147483648) :
    -2147483648 ≤ s.slackAfter cls margin ∧ s.slackAfter cls margin < 2147483648 := by
  have hr := toSigned_range (s.rn (SPN_SLACK.adr cls))
  unfold State.slackAfter
  split <;> omega

theorem slackAfter_unprimed {cls : Nat} (h : s.rb (SPN_CLASSSTAT.PRIMED cls) = false) (margin : Int) : s.slackAfter cls margin = margin := by
  rw [State.slackAfter, if_neg (by simp [h])]

/-! ### STRIKE_COMPLETE and STRIKE_DEADLINE -/

theorem execStrikeComplete_eq {c : Nat} (hon : s.on = true) (hi : (s.entry m).inst = some i) (hd : i.doneAt = some c) :
    exec (.strikeComplete m) s = .next (s.settleInst m i c) := by
  change execStrikeComplete m s = _
  rw [execStrikeComplete, whenOn_on hon, settleDone_of_done hi hd]

/-- The overrun stands in the entry's strike. -/
def State.marked (s : State) (m : Nat) (i : Inst) : State := s.setEntry m { s.entry m with inst := some { i with overrun := true } }

theorem execStrikeDeadline_eq (hon : s.on = true) (hi : (s.entry m).inst = some i) (hd : i.doneAt = none) (ho : i.overrun = false)
    (hl : i.deadline < s.gt) : exec (.strikeDeadline m) s = .next ((s.overrun m i).marked m i) := by
  change execStrikeDeadline m s = _
  rw [execStrikeDeadline, hi]
  have he : (s.overrun m i).entry m = s.entry m := by
    obtain ⟨r, y, e⟩ := overrun_eq s m i
    rw [e]
    rfl
  rw [State.marked, he]
  exact whenB_true (by simp [hon, hd, ho, hl]) _

end Sys2Proof.Machine
end
section
/-! PROOF. The actions that a strike launches, and where it ends (R54, R58, R61). -/

namespace Sys2Proof.Machine

set_option Elab.async false

variable {s t u : State} {m : Fin 256} {f : Nat} {i : Inst} {d : Option Nat}

/-! ### What the blocks see of a strike begun -/

theorem begun_regs (s : State) (m f : Nat) (d : Option Nat) : ∃ r p, s.begun m f d = { s with regs := r, spn := p } := ⟨_, _, rfl⟩

theorem begun_mem (s : State) (m f : Nat) (d : Option Nat) : (s.begun m f d).mem = s.mem := by
  rw [State.begun, wb_eq, wf_mem, setEntry_mem]

theorem above_blocks {a n : Nat} (h : blockBase ≤ a) : blockBase ≤ a + n := Nat.le_add_right_of_le h

theorem begun_bankEnabled (b : Nat) : (s.begun m f d).bankEnabled b = s.bankEnabled b := by
  have hrun := begun_rb s m f d (g := PWM_BANKCTL.RUN b) (above_blocks (by decide))
  have hmin := begun_rf s m f d (g := PWM_BANKCFG.PMIN b) (above_blocks (by decide))
  have hdest := begun_rb s m f d (g := PWM_BANKCFG.DEST b) (above_blocks (by decide))
  have hlink := begun_rf s m f d (g := GLK_LINKSTAT.STATE b) (above_blocks (by decide))
  simp only [State.bankEnabled, State.linkBank, State.portUp, State.portSt, hrun, hmin, hdest, hlink]

theorem begun_isTx (n : Nat) : (s.begun m f d).isTx n = s.isTx n := by
  have hen := begun_rb s m f d (g := ANW_FLOWCFG.EN n) (above_blocks (by decide))
  have hdir := begun_rb s m f d (g := ANW_FLOWCFG.DIR n) (above_blocks (by decide))
  simp only [State.isTx, hen, hdir]

theorem begun_receiver (o : Nat) : (s.begun m f d).receiver o = s.receiver o := by
  have hst (p : Nat) : (s.begun m f d).pairSt p = s.pairSt p := begun_rf s m f d (above_blocks (by decide))
  have hdes (p : Nat) := begun_rf s m f d (g := SLP_PAIRCFG.DESIG p) (above_blocks (by decide))
  have hre (p : Nat) := begun_rf s m f d (g := SLP_PAIRCFG.REHOME p) (above_blocks (by decide))
  have hlock (p : Nat) : (s.begun m f d).runsLocked p = s.runsLocked p := by simp only [State.runsLocked, hst]
  have hsplit (p : Nat) : (s.begun m f d).runsSplit p = s.runsSplit p := by simp only [State.runsSplit, hst]
  have hcore (p : Nat) : (s.begun m f d).desigCore p = s.desigCore p := by simp only [State.desigCore, hdes]
  have hhome (p : Nat) : (s.begun m f d).rehomeTarget p = s.rehomeTarget p := by
    simp only [State.rehomeTarget, hre, hlock, hsplit, hcore]
  cases hp : ownerPair o with
  | none => simp only [State.receiver, hp]
  | some p => simp only [State.receiver, hp, hst, hlock, hsplit, hcore, hhome]

theorem begun_canRxOf (q : Nat) : (s.begun m f d).canRxOf q = s.canRxOf q := by
  have hen (n : Nat) := begun_rb s m f d (g := CAN_CFG.EN n) (above_blocks (by decide))
  have hq (n : Nat) := begun_rf s m f d (g := CAN_CFG.RXQ n) (above_blocks (by decide))
  simp only [State.canRxOf, hen, hq]

theorem begun_free (q : Nat) : (s.begun m f d).free_ q = s.free_ q := begun_rf s m f d (above_blocks (by decide))

theorem begun_inflight (q : Nat) : (s.begun m f d).inflight q = s.inflight q := begun_rf s m f d (above_blocks (by decide))

theorem begun_entryAt (q k : Nat) : (s.begun m f d).entryAt q k = s.entryAt q k := by
  have hb := begun_rf s m f d (g := QUE_BASE.ADDR q) (above_blocks (by decide))
  have hp := begun_rf s m f d (g := QUE_POS.CIDX q) (above_blocks (by decide))
  have hz := begun_rf s m f d (g := QUE_CFG.SIZEEXP q) (above_blocks (by decide))
  simp only [State.entryAt, State.queBase, State.cidx, State.queSize, hb, hp, hz]

/-- The words of an entry stand. -/
theorem begun_period (s : State) (m : Fin 256) (f : Nat) (d : Option Nat) :
    (s.begun m f d).rn (SPN_PERIOD.adr m) = s.rn (SPN_PERIOD.adr m) := by
  have h : SPN_PERIOD.adr m ≠ SPN_ESTAT.adr m := by
    unfold SPN_PERIOD.adr SPN_ESTAT.adr
    omega
  rw [State.rn, (begun_regsBut s m f d).reg fun g hg => List.mem_singleton.1 hg ▸ h, State.rn]

/-! ### A strike that launches -/

/-- A strike of the entry runs. -/
structure Launched (s t : State) (m : Fin 256) (f a : Nat) (d : Option Nat) : Prop where
  outst : t.rf (SPN_ESTAT.OUTST m) = 1
  inst : (t.entry m).inst = some
    { fire := f, deadline := f + s.rf (SPN_CLASSCFG.BUDGET (s.rf (SPN_ACT.CLASS m))), cls := s.rf (SPN_ACT.CLASS m), action := a,
      target := s.rf (SPN_ACT.TARGET m), doneAt := d }
  count : (t.entry m).count = ((s.entry m).count + 1) % 2 ^ 32

theorem launched_goesOn {a : Nat} (ha : s.rf (SPN_ACT.ACTION m) = a) (hs : u.spn = (s.begun m f d).spn)
    (ho : u.rf (SPN_ESTAT.OUTST m) = 1) : Launched s (u.goesOn m f) m f a d where
  outst := (goesOn_rf _ _ _ _).trans ho
  inst := by
    rw [goesOn_entry, entry_of_spn hs, begun_entry, ← ha]
    rfl
  count := by
    rw [goesOn_entry, entry_of_spn hs, begun_entry]

/-- The blocks' own fields do not touch an entry's status. -/
theorem outst_of_regsBut {l : List Fld} (hr : RegsBut l (s.begun m f d) u) (hl : ∀ g ∈ l, blockBase ≤ g.adr) :
    u.rf (SPN_ESTAT.OUTST m) = 1 :=
  (rf_of_regsBut_ne hr (Nat.le_of_ble_eq_true rfl) fun g hg => Nat.ne_of_lt (Nat.lt_of_lt_of_le (estat_lt m) (hl g hg))).trans
    (begun_outst s m f d)

theorem goesOn_only (s : State) (m f : Nat) : ∃ p, s.goesOn m f = { s with spn := p } := ⟨_, rfl⟩

/-- A strike whose launch writes these fields of the blocks. -/
theorem strikeFire_launched {a : Nat} {l : List Fld} (h : s.Fires m f) (hu : s.Unattached) (hi : (s.entry m).inst = none)
    (ha : s.rf (SPN_ACT.ACTION m) = a) (ha0 : a ≠ 0) (hd : (if a = 4 then some s.gt else none) = d)
    (hlaunch : (s.begun m f d).launch m f (s.newInst m f) = some u) (hr : RegsBut l (s.begun m f d) u) (hs : u.spn = (s.begun m f d).spn)
    (hl : ∀ g ∈ l, blockBase ≤ g.adr ∧ g.OffPairs) :
    exec (.strikeFire m) s = .next (u.goesOn m f) ∧ Launched s (u.goesOn m f) m f a d ∧
      RegsBut (SPN_ESTAT.OUTST m :: l) s (u.goesOn m f) := by
  have hf : s.fire m f = u := fire_of_launched hi (ha ▸ ha0) (by rw [ha, hd]; exact hlaunch)
  have hall : RegsBut (SPN_ESTAT.OUTST m :: l) s u :=
    ((begun_regsBut s m f d).mono (by simp)).trans (hr.mono (List.subset_cons_self _ _))
  have hoff : ∀ g ∈ SPN_ESTAT.OUTST m :: l, g.OffPairs := fun g hg => by
    rcases List.mem_cons.1 hg with rfl | hg
    · exact offPairs_of_lt (estat_lt m)
    · exact (hl g hg).2
  refine ⟨?_, launched_goesOn ha hs (outst_of_regsBut hr fun g hg => (hl g hg).1), RegsBut.of_regs (t := u) rfl hall⟩
  rw [strikeFire_next h hu (hf ▸ hall) hoff, hf]

/-- A strike whose target refuses the action. -/
theorem strikeFire_refused (h : s.Fires m f) (hu : s.Unattached) (hi : (s.entry m).inst = none) (ha : s.rf (SPN_ACT.ACTION m) ≠ 0)
    (hl : ∀ d, (s.begun m f d).launch m f (s.newInst m f) = none) :
    ∃ t, exec (.strikeFire m) s = .next t ∧ Missed s t m (s.rf (SPN_ACT.CLASS m)) :=
  strikeFire_missed h hu (fire_of_refused hi ha hl)

/-! ### PWM_COMMIT (R73) -/

theorem launch_commit (ha : s.rf (SPN_ACT.ACTION m) = 1) (t : State) :
    t.launch m f (s.newInst m f) = t.requestCommit (s.rf (SPN_ACT.TARGET m) % 8) (some m) := by
  simp [State.launch, State.newInst, ha]

/-- A request put into a bank's arbiter. -/
def State.commitAsked (s : State) (b : Nat) (entry : Option Nat) : State :=
  s.setBank b { s.bank b with reqs := (s.bank b).reqs ++ [{ at_ := s.gt, entry := entry }] }

theorem commitAsked_regs (b : Nat) (e : Option Nat) : (s.commitAsked b e).regs = s.regs := setBank_regs _ _ _
theorem commitAsked_spn (b : Nat) (e : Option Nat) : (s.commitAsked b e).spn = s.spn := setBank_spn _ _ _
theorem commitAsked_only (b : Nat) (e : Option Nat) : ∃ w, s.commitAsked b e = { s with pwm := w } := ⟨_, rfl⟩

theorem requestCommit_enabled {b : Nat} (h : s.bankEnabled b = true) (e : Option Nat) : s.requestCommit b e = some (s.commitAsked b e) :=
  if_pos h

theorem requestCommit_disabled {b : Nat} (h : s.bankEnabled b = false) (e : Option Nat) : s.requestCommit b e = none :=
  if_neg (by simp [h])

theorem commitAsked_reqs (b : Nat) (e : Option Nat) :
    ((s.commitAsked b e).bank b).reqs = (s.bank b).reqs ++ [{ at_ := s.gt, entry := e }] := by
  rw [State.commitAsked, bank_setBank, if_pos rfl]

/-! ### ADC (R212) -/

theorem launch_adc (ha : s.rf (SPN_ACT.ACTION m) = 2) (t : State) :
    t.launch m f (s.newInst m f) = t.adcLaunch (s.rf (SPN_ACT.TARGET m) % 16) (some m) := by
  simp [State.launch, State.newInst, ha]

/-- The converter takes launches of the sequence. -/
structure State.Converts (s : State) (n : Nat) : Prop where
  enabled : s.rb ADC_CFG.EN = true
  sequence : s.rb (ADC_SEQCFG.EN n) = true
  channels : s.rf (ADC_SEQCFG.CHMASK n) ≠ 0

theorem State.Converts.begun {n : Nat} (h : s.Converts n) : (s.begun m f d).Converts n where
  enabled := (begun_rb s m f d (by decide)).trans h.enabled
  sequence := (begun_rb s m f d (above_blocks (by decide))).trans h.sequence
  channels := by
    rw [begun_rf s m f d (above_blocks (by decide))]
    exact h.channels

/-- A sequence runs. -/
def State.seqRuns (s : State) (n : Nat) (e : Option Nat) : State :=
  ((({ s with adc := { cur := some (n, e), left := bitList 16 (s.rf (ADC_SEQCFG.CHMASK n)), queue := [] } } : State).wb
    ADC_STAT.BUSY true).wf ADC_STAT.CURSEQ n).wf ADC_STAT.QDEPTH 0

/-- A sequence waits. -/
def State.seqWaits (s : State) (n : Nat) (e : Option Nat) : State :=
  ({ s with adc := { s.adc with queue := s.adc.queue ++ [(n, e)] } } : State).wf ADC_STAT.QDEPTH (s.adc.queue ++ [(n, e)]).length

theorem adcLaunch_idle {n : Nat} (h : s.Converts n) (hc : s.adc.cur = none) (e : Option Nat) : s.adcLaunch n e = some (s.seqRuns n e) := by
  rw [State.adcLaunch, if_pos (by simp [h.enabled, h.sequence, h.channels]), if_pos (by simp [hc])]
  rfl

theorem adcLaunch_busy {n : Nat} (h : s.Converts n) (hc : s.adc.cur ≠ none) (hq : s.adc.queue.length < 4) (e : Option Nat) :
    s.adcLaunch n e = some (s.seqWaits n e) := by
  rw [State.adcLaunch, if_pos (by simp [h.enabled, h.sequence, h.channels]), if_neg (by simpa using hc), if_pos hq]
  rfl

theorem adcLaunch_disabled {n : Nat} (h : s.rb ADC_CFG.EN = false ∨ s.rb (ADC_SEQCFG.EN n) = false) (e : Option Nat) :
    s.adcLaunch n e = none := by
  refine if_neg ?_
  rcases h with h | h <;> simp [h]

theorem seqRuns_regsBut (n : Nat) (e : Option Nat) :
    RegsBut [ADC_STAT.BUSY, ADC_STAT.CURSEQ, ADC_STAT.QDEPTH] s (s.seqRuns n e) :=
  (((RegsBut.of_regs (t := s) rfl (.refl _ s)).wb (by simp)).wf (by simp)).wf (by simp)

theorem seqWaits_regsBut (n : Nat) (e : Option Nat) : RegsBut [ADC_STAT.QDEPTH] s (s.seqWaits n e) :=
  RegsBut.wf (by simp) (RegsBut.of_regs (t := s) rfl (.refl _ s))

/-- Of the lane beside its registers only the converter's state is new. -/
theorem seqRuns_only (n : Nat) (e : Option Nat) : ∃ r, s.seqRuns n e = { s with
    regs := r, adc := { cur := some (n, e), left := bitList 16 (s.rf (ADC_SEQCFG.CHMASK n)), queue := [] } } := by
  obtain ⟨r, h⟩ : RegsOnly ({ s with
      adc := { cur := some (n, e), left := bitList 16 (s.rf (ADC_SEQCFG.CHMASK n)), queue := [] } } : State) (s.seqRuns n e) :=
    RegsOnly.refl.wb.wf.wf
  exact ⟨r, h⟩

theorem seqWaits_only (n : Nat) (e : Option Nat) :
    ∃ r, s.seqWaits n e = { s with regs := r, adc := { s.adc with queue := s.adc.queue ++ [(n, e)] } } := by
  obtain ⟨r, h⟩ : RegsOnly ({ s with adc := { s.adc with queue := s.adc.queue ++ [(n, e)] } } : State) (s.seqWaits n e) :=
    RegsOnly.refl.wf
  exact ⟨r, h⟩

theorem seqRuns_spn (n : Nat) (e : Option Nat) : (s.seqRuns n e).spn = s.spn := by
  obtain ⟨r, h⟩ := seqRuns_only (s := s) n e
  rw [h]

theorem seqWaits_spn (n : Nat) (e : Option Nat) : (s.seqWaits n e).spn = s.spn := by
  obtain ⟨r, h⟩ := seqWaits_only (s := s) n e
  rw [h]

theorem seqRuns_busy (n : Nat) (e : Option Nat) : (s.seqRuns n e).rf ADC_STAT.BUSY = 1 := by
  rw [State.seqRuns, rf_wf_other _ _ _ _ (by decide) (by decide), rf_wf_other _ _ _ _ (by decide) (by decide), wb_eq,
    rf_wf_same _ _ _ (by decide)]
  rfl

theorem seqRuns_curseq {n : Nat} (hn : n < 16) (e : Option Nat) : (s.seqRuns n e).rf ADC_STAT.CURSEQ = n := by
  rw [State.seqRuns, rf_wf_other _ _ _ _ (by decide) (by decide), rf_wf_same _ _ _ (by decide)]
  exact Nat.mod_eq_of_lt hn

theorem seqWaits_qdepth (hq : s.adc.queue.length < 4) (n : Nat) (e : Option Nat) :
    (s.seqWaits n e).rf ADC_STAT.QDEPTH = s.adc.queue.length + 1 := by
  rw [State.seqWaits, rf_wf_same _ _ _ (by decide), List.length_append]
  exact Nat.mod_eq_of_lt (by change s.adc.queue.length + 1 < 8; omega)

/-! ### LOOP_SAMPLE (R180) -/

/-- The launch that a LOOP_SAMPLE strike queues. -/
def State.sampleOfEntry (s : State) (m f : Nat) : Launch :=
  { ctx := s.rf (SPN_ACT.TARGET m) % 256, fire := f, period := s.rn (SPN_PERIOD.adr m), entry := some m }

theorem launch_sample (ha : s.rf (SPN_ACT.ACTION m) = 3) :
    (s.begun m f d).launch m f (s.newInst m f) = (s.begun m f d).lpeLaunch (s.sampleOfEntry m f) := by
  rw [State.sampleOfEntry, ← begun_period s m f d]
  simp [State.launch, State.newInst, ha]

/-- A sample queued for its engine. -/
def State.sampleQueued (s : State) (l : Launch) : State := s.setLpeQueue (l.ctx / 64) (s.lpeQueue (l.ctx / 64) ++ [l])

/-- The queue's mark of its greatest depth follows. -/
def State.sampleAsked (s : State) (l : Launch) : State :=
  if (s.sampleQueued l).rf (LPE_ENGSTAT.QMAX (l.ctx / 64)) < (s.lpeQueue (l.ctx / 64)).length + 1 then
    (s.sampleQueued l).wf (LPE_ENGSTAT.QMAX (l.ctx / 64)) ((s.lpeQueue (l.ctx / 64)).length + 1)
  else s.sampleQueued l

theorem lpeLaunch_enabled {l : Launch} (hen : s.rb (LPE_CTXCFG.EN l.ctx) = true) (hq : (s.lpeQueue (l.ctx / 64)).length < 16) :
    s.lpeLaunch l = some (s.sampleAsked l) := if_pos (by simp [hen, hq])

theorem lpeLaunch_disabled {l : Launch} (hen : s.rb (LPE_CTXCFG.EN l.ctx) = false) : s.lpeLaunch l = none := if_neg (by simp [hen])

theorem sampleAsked_regsBut (l : Launch) :
    RegsBut [LPE_ENGSTAT.QMAX (l.ctx / 64), LPE_ENGSTAT.QDEPTH (l.ctx / 64)] s (s.sampleAsked l) := by
  have hq : RegsBut [LPE_ENGSTAT.QMAX (l.ctx / 64), LPE_ENGSTAT.QDEPTH (l.ctx / 64)] s (s.sampleQueued l) :=
    RegsBut.wf (by simp) (RegsBut.of_regs (t := s) rfl (.refl _ s))
  exact .ite (hq.wf (by simp)) hq

/-- The engine's queue with a launch at its end. -/
def State.queueLonger (s : State) (l : Launch) : State :=
  { s with lpe := { s.lpe with queues := mset s.lpe.queues (l.ctx / 64) (s.lpeQueue (l.ctx / 64) ++ [l]) } }

/-- Of the lane beside its registers only the engine's queue is longer. -/
theorem sampleAsked_regs (l : Launch) : RegsOnly (s.queueLonger l) (s.sampleAsked l) := by
  have hq : RegsOnly (s.queueLonger l) (s.sampleQueued l) := RegsOnly.refl.wf
  exact .ite hq.wf hq

theorem sampleAsked_spn (l : Launch) : (s.sampleAsked l).spn = s.spn := by
  obtain ⟨r, h⟩ := sampleAsked_regs (s := s) l
  rw [h, State.queueLonger]

/-! ### QUEUE_POST (R373) -/

theorem launch_post (ha : s.rf (SPN_ACT.ACTION m) = 4) (t : State) :
    t.launch m f (s.newInst m f) = t.strikePost (s.rf (SPN_ACT.TARGET m) % 128) m f (t.entry m).count := by
  simp [State.launch, State.newInst, ha]

/-- The queue takes a strike's record. -/
structure State.TakesRecord (s : State) (q : Nat) : Prop where
  enabled : s.rb (QUE_CFG.EN q) = true
  credit : 1 ≤ s.free_ q
  admitted : s.rb (QUE_STAT.ADMIT q) = true
  spindle : s.rb (QUE_CFG.SPNPROD q) = true
  controller : (s.canRxOf q).isNone = true

theorem State.TakesRecord.begun {q : Nat} (h : s.TakesRecord q) : (s.begun m f d).TakesRecord q where
  enabled := (begun_rb s m f d (above_blocks (by decide))).trans h.enabled
  credit := by
    rw [begun_free]
    exact h.credit
  admitted := (begun_rb s m f d (above_blocks (by decide))).trans h.admitted
  spindle := (begun_rb s m f d (above_blocks (by decide))).trans h.spindle
  controller := by
    rw [begun_canRxOf]
    exact h.controller

/-- The record written where the next entry goes. -/
def State.recordStored (s : State) (q entry fire count : Nat) : State :=
  s.memStore (s.entryAt q (s.inflight q)) (strikeRecord entry fire count)

theorem recordStored_regs (q entry fire count : Nat) : (s.recordStored q entry fire count).regs = s.regs := memStore_regs _ _ _
theorem recordStored_spn (q entry fire count : Nat) : (s.recordStored q entry fire count).spn = s.spn := memStore_spn _ _ _

theorem recordStored_rf (q entry fire count : Nat) (g : Fld) : (s.recordStored q entry fire count).rf g = s.rf g :=
  memStore_rf _ _ _ _

theorem strikePost_taken {q : Nat} (h : s.TakesRecord q) (entry fire count : Nat) :
    s.strikePost q entry fire count = some ((s.recordStored q entry fire count).posted q 1) := by
  have hc : (s.canRxOf q).isSome = false := by
    have := h.controller
    rw [Option.isNone_iff_eq_none] at this
    rw [this]
    rfl
  refine if_neg ?_
  have hf : s.free_ q ≠ 0 := Nat.one_le_iff_ne_zero.1 h.credit
  simp [h.enabled, hf, h.admitted, h.spindle, hc]

theorem strikePost_refused {q : Nat} (h : s.rb (QUE_CFG.EN q) = false ∨ s.free_ q = 0) (entry fire count : Nat) :
    s.strikePost q entry fire count = none := by
  refine if_pos ?_
  rcases h with h | h <;> simp [h]

/-- Bytes stored are read back. -/
theorem memBytes_memStore (s : State) (a : Nat) (l : List Byte) : (s.memStore a l).memBytes a l.length = l := by
  refine List.ext_getElem (by simp [State.memBytes]) fun k _ hk => ?_
  simp only [State.memBytes, List.getElem_map, List.getElem_range]
  exact memByte_memPuts_of_in l s.mem a k hk

theorem strikeRecord_length (entry fire count : Nat) : (strikeRecord entry fire count).length = 64 := by
  simp [strikeRecord, padTo, sliceB]

theorem recordStored_memBytes (s : State) (q entry fire count : Nat) :
    (s.recordStored q entry fire count).memBytes (s.entryAt q (s.inflight q)) 64 = strikeRecord entry fire count := by
  have h := memBytes_memStore s (s.entryAt q (s.inflight q)) (strikeRecord entry fire count)
  rwa [strikeRecord_length] at h

theorem recordStored_memBut (s : State) (q entry fire count : Nat) :
    MemBut (s.entryAt q (s.inflight q)) 64 s (s.recordStored q entry fire count) := fun c hc =>
  memStore_out s _ c _ (by rwa [strikeRecord_length])

/-- A post to a queue without a vector. -/
def State.silentPost (s : State) (q : Nat) : State :=
  ((s.wf (QUE_CNT.FREE q) (s.free_ q - 1)).wf (QUE_CNT.INFLIGHT q) (s.inflight q + 1)).styQue q fun x => { x with posts := x.posts + 1 }

theorem posted_silent {q : Nat} (h : s.rb (QUE_CFG.IRQEN q) = false) : s.posted q 1 = s.silentPost q := by
  have hne : QUE_CFG.adr q ≠ QUE_CNT.adr q := by
    unfold QUE_CFG.adr QUE_CNT.adr
    omega
  have hr : RegsBut [QUE_CNT.FREE q, QUE_CNT.INFLIGHT q] s (s.silentPost q) :=
    RegsBut.of_regs (t := (s.wf (QUE_CNT.FREE q) (s.free_ q - 1)).wf (QUE_CNT.INFLIGHT q) (s.inflight q + 1)) rfl
      (((RegsBut.refl _ s).wf (by simp)).wf (by simp))
  have hi : (s.silentPost q).rb (QUE_CFG.IRQEN q) = false := by
    rw [State.rb, rf_of_regsBut_ne hr (Nat.le_of_ble_eq_true rfl)]
    · exact h
    · intro g hg
      simp only [List.mem_cons, List.not_mem_nil, or_false] at hg
      rcases hg with rfl | rfl <;> exact hne
  exact if_neg (Bool.eq_false_iff.1 hi)

theorem silentPost_spn (q : Nat) : (s.silentPost q).spn = s.spn := rfl

theorem silentPost_mem (q : Nat) : (s.silentPost q).mem = s.mem := rfl

theorem silentPost_regsBut (q : Nat) : RegsBut [QUE_CNT.FREE q, QUE_CNT.INFLIGHT q] s (s.silentPost q) :=
  RegsBut.of_regs (t := (s.wf (QUE_CNT.FREE q) (s.free_ q - 1)).wf (QUE_CNT.INFLIGHT q) (s.inflight q + 1)) rfl
    (((RegsBut.refl _ s).wf (by simp)).wf (by simp))

theorem silentPost_free (q : Nat) : (s.silentPost q).free_ q = s.free_ q - 1 := by
  have h : (s.silentPost q).free_ q =
      ((s.wf (QUE_CNT.FREE q) (s.free_ q - 1)).wf (QUE_CNT.INFLIGHT q) (s.inflight q + 1)).rf (QUE_CNT.FREE q) := rfl
  have hlt : s.free_ q < 2 ^ 13 := rf_lt _ _
  rw [h, rf_wf_other _ _ _ _ (Nat.le_of_ble_eq_true rfl) (.inr (.inr (Nat.le_of_ble_eq_true rfl))),
    rf_wf_same _ _ _ (Nat.le_of_ble_eq_true rfl)]
  exact Nat.mod_eq_of_lt (Nat.lt_of_le_of_lt (Nat.sub_le _ _) hlt)

theorem silentPost_inflight {q : Nat} (hq : s.inflight q + 1 < 8192) : (s.silentPost q).inflight q = s.inflight q + 1 := by
  have h : (s.silentPost q).inflight q =
      ((s.wf (QUE_CNT.FREE q) (s.free_ q - 1)).wf (QUE_CNT.INFLIGHT q) (s.inflight q + 1)).rf (QUE_CNT.INFLIGHT q) := rfl
  rw [h, rf_wf_same _ _ _ (Nat.le_of_ble_eq_true rfl)]
  exact Nat.mod_eq_of_lt hq

/-- A record posted to a queue without a vector. -/
structure PostedRecord (s t : State) (q : Nat) (record : List Byte) : Prop where
  bytes : t.memBytes (s.entryAt q (s.inflight q)) 64 = record
  memBut : MemBut (s.entryAt q (s.inflight q)) 64 s t
  free : t.free_ q = s.free_ q - 1
  inflight : t.inflight q = s.inflight q + 1
  regs : RegsBut [QUE_CNT.FREE q, QUE_CNT.INFLIGHT q] s t
  spn : t.spn = s.spn

theorem postedRecord {q : Nat} (hn : s.inflight q + 1 < 8192) (entry fire count : Nat) :
    PostedRecord s ((s.recordStored q entry fire count).silentPost q) q (strikeRecord entry fire count) := by
  have hinfl : (s.recordStored q entry fire count).inflight q = s.inflight q := recordStored_rf _ _ _ _ _
  have hfree : (s.recordStored q entry fire count).free_ q = s.free_ q := recordStored_rf _ _ _ _ _
  refine { bytes := ?_, memBut := fun c hc => ?_, free := ?_, inflight := ?_, regs := ?_, spn := ?_ }
  · rw [State.memBytes, silentPost_mem]
    exact recordStored_memBytes s q entry fire count
  · rw [silentPost_mem]
    exact recordStored_memBut s q entry fire count c hc
  · rw [silentPost_free, hfree]
  · rw [silentPost_inflight (by rwa [hinfl]), hinfl]
  · exact (RegsBut.of_regs (recordStored_regs _ _ _ _) (.refl _ _)).trans (silentPost_regsBut q)
  · rw [silentPost_spn, recordStored_spn]

theorem strikePost_posted {q : Nat} (h : s.TakesRecord q) (hirq : s.rb (QUE_CFG.IRQEN q) = false) (entry fire count : Nat) :
    s.strikePost q entry fire count = some ((s.recordStored q entry fire count).silentPost q) := by
  rw [strikePost_taken h, posted_silent]
  rwa [State.rb, recordStored_rf]

theorem PostedRecord.goesOn {q : Nat} {record : List Byte} (h : PostedRecord (s.begun m f d) t q record) :
    (t.goesOn m f).memBytes (s.entryAt q (s.inflight q)) 64 = record ∧ MemBut (s.entryAt q (s.inflight q)) 64 s (t.goesOn m f) ∧
      (t.goesOn m f).free_ q = s.free_ q - 1 ∧ (t.goesOn m f).inflight q = s.inflight q + 1 := by
  obtain ⟨hbytes, hbut, hfree, hinfl, -, -⟩ := h
  rw [begun_inflight, begun_entryAt] at hbytes hbut
  rw [begun_free] at hfree
  rw [begun_inflight] at hinfl
  refine ⟨?_, fun c hc => ?_, (goesOn_rf _ _ _ _).trans hfree, (goesOn_rf _ _ _ _).trans hinfl⟩
  · rw [State.memBytes, goesOn_mem]
    exact hbytes
  · rw [goesOn_mem, hbut c hc, begun_mem]

/-! ### IRQ and AIRUM_TX -/

theorem launch_irq (ha : s.rf (SPN_ACT.ACTION m) = 6) (t : State) : t.launch m f (s.newInst m f) =
    some (t.irqTo (s.rf (SPN_ACT.TARGET m) % 32) (s.rf (SPN_ACT.TARGET m) / 256 % 32) m) := by
  simp [State.launch, State.newInst, ha]

/-- A vector to a receiver that is no pair. -/
theorem irqTo_plain {o : Nat} (h : (s.receiver o).all (fun r => (ownerPair r).isNone) = true) (v src : Nat) :
    s.irqTo o v src = { s with outbox := s.outbox ++ ((s.receiver o).map (fun r => OutMsg.irq r v src)).toList } := by
  unfold State.irqTo
  cases hr : s.receiver o with
  | none => simp
  | some r =>
    rw [hr] at h
    have hp : ownerPair r = none := Option.isNone_iff_eq_none.1 h
    simp [hp, State.emit]

theorem outbox_regs (o : List OutMsg) : ({ s with outbox := o } : State).regs = s.regs := rfl
theorem outbox_spn (o : List OutMsg) : ({ s with outbox := o } : State).spn = s.spn := rfl

theorem launch_seal (ha : s.rf (SPN_ACT.ACTION m) = 5) (t : State) :
    t.launch m f (s.newInst m f) = t.strikeSeal (s.rf (SPN_ACT.TARGET m) % 512) m := by
  simp [State.launch, State.newInst, ha]

theorem strikeSeal_refused {n : Nat} (h : s.isTx n = false) (e : Nat) : s.strikeSeal n e = none := if_neg (by simp [h])

/-! ### NONE (R64) -/

theorem budget_lt (s : State) (n : Nat) : s.rf (SPN_CLASSCFG.BUDGET n) < 16777216 := rf_lt _ _

/-- A completion at once of a strike begun is one of the entry as it was. -/
theorem Settled.of_begun {cls : Nat} {margin : Int} (hc : cls < 16) (h : Settled (s.begun m f d) t m cls margin) :
    Settled s t m cls margin := by
  have hb := begun_regsBut s m f d
  have hdone : (s.begun m f d).rf (SPN_CLASSCNT.DONE cls) = s.rf (SPN_CLASSCNT.DONE cls) :=
    rf_of_regsBut_ne hb (Nat.le_of_ble_eq_true rfl) fun k hk => List.mem_singleton.1 hk ▸ cnt_ne_estat m
  have hprimed : (s.begun m f d).rb (SPN_CLASSSTAT.PRIMED cls) = s.rb (SPN_CLASSSTAT.PRIMED cls) :=
    congrArg (· != 0) (rf_of_regsBut_ne hb (Nat.le_of_ble_eq_true rfl) fun k hk => List.mem_singleton.1 hk ▸ (estat_ne_class hc m).symm)
  have hslack : (s.begun m f d).rn (SPN_SLACK.adr cls) = s.rn (SPN_SLACK.adr cls) :=
    congrArg BitVec.toNat (hb.reg fun k hk => List.mem_singleton.1 hk ▸ slack_ne_estat m)
  have hafter : (s.begun m f d).slackAfter cls margin = s.slackAfter cls margin := by
    rw [State.slackAfter, hprimed, hslack, State.slackAfter]
  obtain ⟨r, p, e⟩ := begun_regs s m f d
  refine { done := hdone ▸ h.done, primed := h.primed, slack := hafter ▸ h.slack, outst := h.outst, inst := h.inst,
           regs := (hb.mono (by simp)).trans h.regs, eq := ?_ }
  have ht := h.eq
  rw [e] at ht
  exact ht

theorem Settled.goesOn {cls : Nat} {margin : Int} (h : Settled s t m cls margin) (f : Nat) : Settled s (t.goesOn m f) m cls margin where
  done := h.done
  primed := h.primed
  slack := h.slack
  outst := h.outst
  inst := by rw [goesOn_entry, h.inst]
  regs := RegsBut.of_regs (t := t) rfl h.regs
  eq := by
    have ht := congrArg (fun x : State => x.goesOn m f) h.eq
    exact ht

/-- A completion no later than its deadline primes a class with the margin. -/
theorem Settled.slack_unprimed {cls b c : Nat} (h : Settled s t m cls ((b : Int) - (c : Int))) (hp : s.rb (SPN_CLASSSTAT.PRIMED cls) = false)
    (hc : c ≤ b) (hb : b - c < 2147483648) : t.rn (SPN_SLACK.adr cls) = b - c := by
  rw [h.slack, slackAfter_unprimed hp, ← Int.ofNat_sub hc]
  exact satSigned32_of_small hb

/-- The slack of a margin that fits. -/
theorem Settled.toSigned_slack {cls : Nat} {margin : Int} (h : Settled s t m cls margin)
    (hm : -2147483648 ≤ margin ∧ margin < 2147483648) : toSigned 32 (t.rn (SPN_SLACK.adr cls)) = s.slackAfter cls margin := by
  rw [h.slack, toSigned_satSigned32 (slackAfter_range hm)]

/-- The fields that a completion writes lie outside the pairs. -/
theorem settled_offPairs {cls : Nat} (hc : cls < 16) (m : Fin 256) : ∀ g ∈ [SPN_ESTAT.OUTST m, whole (SPN_SLACK.adr cls),
    whole (SPN_CLASSCNT.adr cls), SPN_CLASSSTAT.PRIMED cls], Fld.OffPairs g := by
  intro g hg
  simp only [List.mem_cons, List.not_mem_nil, or_false] at hg
  rcases hg with rfl | rfl | rfl | rfl <;>
    simp only [Fld.OffPairs, SPN_ESTAT.OUTST, SPN_ESTAT.adr, whole, SPN_SLACK.adr, SPN_CLASSCNT.adr, SPN_CLASSSTAT.PRIMED,
      SPN_CLASSSTAT.adr] <;>
    omega

/-- A strike without an action, in time. -/
theorem strikeFire_none (h : s.Fires m f) (hu : s.Unattached) (hi : (s.entry m).inst = none) (ha : s.rf (SPN_ACT.ACTION m) = 0) {c : Nat}
    (hc : c = if s.rb (SPN_CLASSCFG.IDLE (s.rf (SPN_ACT.CLASS m))) then f else s.gt)
    (hle : c ≤ f + s.rf (SPN_CLASSCFG.BUDGET (s.rf (SPN_ACT.CLASS m)))) :
    ∃ t, exec (.strikeFire m) s = .next t ∧ (t.entry m).count = ((s.entry m).count + 1) % 2 ^ 32 ∧
      Settled s t m (s.rf (SPN_ACT.CLASS m)) (((f + s.rf (SPN_CLASSCFG.BUDGET (s.rf (SPN_ACT.CLASS m))) : Nat) : Int) - (c : Int)) := by
  have hcls := entryClass_lt s m
  have hf := fire_of_none hi ha hc
  rw [settleInst_of_counted (fun hlt => absurd hlt (Nat.not_lt.2 hle))] at hf
  have hs := (settled hcls (s.begun m f (some c)) m
    (((f + s.rf (SPN_CLASSCFG.BUDGET (s.rf (SPN_ACT.CLASS m))) : Nat) : Int) - (c : Int))).of_begun hcls
  refine ⟨_, strikeFire_next h hu (hf ▸ hs.regs) (settled_offPairs hcls m), ?_, hf ▸ hs.goesOn f⟩
  rw [goesOn_entry, hf, settled_entry, begun_entry]

end Sys2Proof.Machine
end
section
/-! PROOF. Strikes launch at their fire times and end in the ledger (R52 to R61). -/

namespace Sys2Proof.Machine

set_option Elab.async false

variable {s t u : State} {m : Fin 256} {f : Nat} {i : Inst} {d : Option Nat}

/-- A commit request of an enabled bank. -/
theorem strikeFire_commit {b : Nat} (h : s.Fires m f) (hu : s.Unattached) (hi : (s.entry m).inst = none)
    (ha : s.rf (SPN_ACT.ACTION m) = 1) (hb : s.rf (SPN_ACT.TARGET m) % 8 = b) (hen : s.bankEnabled b = true) :
    ∃ t, exec (.strikeFire m) s = .next t ∧ Launched s t m f 1 none ∧
      (t.bank b).reqs = (s.bank b).reqs ++ [{ at_ := s.gt, entry := some m.val }] ∧ RegsBut [SPN_ESTAT.OUTST m] s t ∧
      t = { s with regs := t.regs, spn := t.spn, pwm := t.pwm } := by
  obtain ⟨r, p, e⟩ := begun_regs s m f none
  obtain ⟨w, hw⟩ := commitAsked_only (s := s.begun m f none) b (some m.val)
  obtain ⟨p', hgo⟩ := goesOn_only ((s.begun m f none).commitAsked b (some m.val)) m f
  have hl : (s.begun m f none).launch m f (s.newInst m f) = some ((s.begun m f none).commitAsked b (some m.val)) := by
    rw [launch_commit ha, hb, requestCommit_enabled ((begun_bankEnabled b).trans hen)]
  obtain ⟨he, hL, hregs⟩ := strikeFire_launched h hu hi ha (by decide) rfl hl
    (RegsBut.of_regs (l := []) (commitAsked_regs _ _) (.refl _ _)) (commitAsked_spn _ _) (by simp)
  refine ⟨_, he, hL, ?_, hregs, ?_⟩
  · have hq := commitAsked_reqs (s := s.begun m f none) b (some m.val)
    rw [hw, e] at hq
    rw [hgo, hw, e]
    exact hq
  · rw [hgo, hw, e]

theorem adcStat_apart {l : List Fld} (hl : ∀ g ∈ l, g.adr = ADC_STAT.adr) : ∀ g ∈ l, blockBase ≤ g.adr ∧ g.OffPairs := fun g hg =>
  ⟨hl g hg ▸ by decide, .inr (hl g hg ▸ by decide)⟩

/-- A sequence launched on an idle converter. -/
theorem strikeFire_adc_idle {n : Nat} (h : s.Fires m f) (hu : s.Unattached) (hi : (s.entry m).inst = none)
    (ha : s.rf (SPN_ACT.ACTION m) = 2) (hn : s.rf (SPN_ACT.TARGET m) % 16 = n) (hc : s.Converts n) (hidle : s.adc.cur = none) :
    ∃ t, exec (.strikeFire m) s = .next t ∧ Launched s t m f 2 none ∧ t.adc.cur = some (n, some m.val) ∧
      t.adc.left = bitList 16 (s.rf (ADC_SEQCFG.CHMASK n)) ∧ t.rf ADC_STAT.BUSY = 1 ∧ t.rf ADC_STAT.CURSEQ = n ∧
      RegsBut [SPN_ESTAT.OUTST m, ADC_STAT.BUSY, ADC_STAT.CURSEQ, ADC_STAT.QDEPTH] s t ∧
      t = { s with regs := t.regs, spn := t.spn, adc := t.adc } := by
  obtain ⟨r, p, e⟩ := begun_regs s m f none
  obtain ⟨r', hr⟩ := seqRuns_only (s := s.begun m f none) n (some m.val)
  obtain ⟨p', hgo⟩ := goesOn_only ((s.begun m f none).seqRuns n (some m.val)) m f
  have hcur : (s.begun m f none).adc.cur = none := by rw [e]; exact hidle
  have hl : (s.begun m f none).launch m f (s.newInst m f) = some ((s.begun m f none).seqRuns n (some m.val)) := by
    rw [launch_adc ha, hn, adcLaunch_idle hc.begun hcur]
  obtain ⟨he, hL, hregs⟩ := strikeFire_launched h hu hi ha (by decide) rfl hl (seqRuns_regsBut _ _) (seqRuns_spn _ _)
    (adcStat_apart (by simp [ADC_STAT.BUSY, ADC_STAT.CURSEQ, ADC_STAT.QDEPTH]))
  refine ⟨_, he, hL, ?_, ?_, (goesOn_rf _ _ _ _).trans (seqRuns_busy _ _),
    (goesOn_rf _ _ _ _).trans (seqRuns_curseq (hn ▸ Nat.mod_lt _ (by decide)) _), hregs, ?_⟩
  · rw [hgo, hr]
  · rw [hgo, hr, begun_rf s m f none (above_blocks (by decide))]
  · rw [hgo, hr, e]

/-- A sequence queued on a busy converter. -/
theorem strikeFire_adc_busy {n : Nat} (h : s.Fires m f) (hu : s.Unattached) (hi : (s.entry m).inst = none)
    (ha : s.rf (SPN_ACT.ACTION m) = 2) (hn : s.rf (SPN_ACT.TARGET m) % 16 = n) (hc : s.Converts n) (hbusy : s.adc.cur ≠ none)
    (hq : s.adc.queue.length < 4) :
    ∃ t, exec (.strikeFire m) s = .next t ∧ Launched s t m f 2 none ∧ t.adc.queue = s.adc.queue ++ [(n, some m.val)] ∧
      t.adc.cur = s.adc.cur ∧ t.rf ADC_STAT.QDEPTH = s.adc.queue.length + 1 ∧
      RegsBut [SPN_ESTAT.OUTST m, ADC_STAT.QDEPTH] s t ∧ t = { s with regs := t.regs, spn := t.spn, adc := t.adc } := by
  obtain ⟨r, p, e⟩ := begun_regs s m f none
  obtain ⟨r', hr⟩ := seqWaits_only (s := s.begun m f none) n (some m.val)
  obtain ⟨p', hgo⟩ := goesOn_only ((s.begun m f none).seqWaits n (some m.val)) m f
  have hadc : (s.begun m f none).adc = s.adc := by rw [e]
  have hl : (s.begun m f none).launch m f (s.newInst m f) = some ((s.begun m f none).seqWaits n (some m.val)) := by
    rw [launch_adc ha, hn, adcLaunch_busy hc.begun (by rwa [hadc]) (by rwa [hadc])]
  obtain ⟨he, hL, hregs⟩ := strikeFire_launched h hu hi ha (by decide) rfl hl (seqWaits_regsBut _ _) (seqWaits_spn _ _)
    (adcStat_apart (by simp [ADC_STAT.QDEPTH]))
  refine ⟨_, he, hL, ?_, ?_, ?_, hregs, ?_⟩
  · rw [hgo, hr, hadc]
  · rw [hgo, hr, hadc]
  · rw [goesOn_rf, seqWaits_qdepth (by rwa [hadc]), hadc]
  · rw [hgo, hr, e]

/-- A sample queued for an enabled context. -/
theorem strikeFire_sample {c : Nat} (h : s.Fires m f) (hu : s.Unattached) (hi : (s.entry m).inst = none)
    (ha : s.rf (SPN_ACT.ACTION m) = 3) (hc : s.rf (SPN_ACT.TARGET m) % 256 = c) (hen : s.rb (LPE_CTXCFG.EN c) = true)
    (hq : (s.lpeQueue (c / 64)).length < 16) :
    ∃ t, exec (.strikeFire m) s = .next t ∧ Launched s t m f 3 none ∧
      t.lpeQueue (c / 64) = s.lpeQueue (c / 64) ++ [{ ctx := c, fire := f, period := s.rn (SPN_PERIOD.adr m), entry := some m.val }] ∧
      RegsBut [SPN_ESTAT.OUTST m, LPE_ENGSTAT.QMAX (c / 64), LPE_ENGSTAT.QDEPTH (c / 64)] s t ∧
      t = { s with regs := t.regs, spn := t.spn, lpe := t.lpe } := by
  obtain ⟨l, hl⟩ : ∃ l, l = s.sampleOfEntry m f := ⟨_, rfl⟩
  have hctx : l.ctx = c := by rw [hl, State.sampleOfEntry, hc]
  have hlv : l = { ctx := c, fire := f, period := s.rn (SPN_PERIOD.adr m), entry := some m.val } := by rw [hl, State.sampleOfEntry, hc]
  obtain ⟨r, p, e⟩ := begun_regs s m f none
  obtain ⟨r', hr⟩ := sampleAsked_regs (s := s.begun m f none) l
  obtain ⟨p', hgo⟩ := goesOn_only ((s.begun m f none).sampleAsked l) m f
  have hqueue (k : Nat) : (s.begun m f none).lpeQueue k = s.lpeQueue k := by rw [State.lpeQueue, e, State.lpeQueue]
  have hlaunch : (s.begun m f none).launch m f (s.newInst m f) = some ((s.begun m f none).sampleAsked l) := by
    rw [launch_sample ha, ← hl, lpeLaunch_enabled]
    · rw [hctx, begun_rb s m f none (above_blocks (by decide))]
      exact hen
    · rwa [hctx, hqueue]
  have hengine : c / 64 < 4 := by omega
  rw [State.queueLonger] at hr
  have hregs := sampleAsked_regsBut (s := s.begun m f none) l
  rw [hctx] at hr hregs
  obtain ⟨he, hL, hregs⟩ := strikeFire_launched h hu hi ha (by decide) rfl hlaunch hregs (sampleAsked_spn _) (by
    intro g hg
    simp only [List.mem_cons, List.not_mem_nil, or_false] at hg
    rcases hg with rfl | rfl <;>
      simp only [Fld.OffPairs, LPE_ENGSTAT.QMAX, LPE_ENGSTAT.QDEPTH, LPE_ENGSTAT.adr, blockBase] <;>
      omega)
  refine ⟨_, he, hL, ?_, hregs, ?_⟩
  · rw [State.lpeQueue, hgo, hr, ← hlv, ← hqueue]
    exact mget_mset_same _ _ _ _
  · rw [hgo, hr, e]

/-- A record posted to a queue with room. -/
theorem strikeFire_post {q : Nat} (h : s.Fires m f) (hu : s.Unattached) (hi : (s.entry m).inst = none)
    (ha : s.rf (SPN_ACT.ACTION m) = 4) (hq : s.rf (SPN_ACT.TARGET m) % 128 = q) (ht : s.TakesRecord q)
    (hn : s.inflight q + 1 < 8192) (hirq : s.rb (QUE_CFG.IRQEN q) = false) :
    ∃ t, exec (.strikeFire m) s = .next t ∧ Launched s t m f 4 (some s.gt) ∧
      RegsBut [SPN_ESTAT.OUTST m, QUE_CNT.FREE q, QUE_CNT.INFLIGHT q] s t ∧
      t.memBytes (s.entryAt q (s.inflight q)) 64 = strikeRecord m f (((s.entry m).count + 1) % 2 ^ 32) ∧
      MemBut (s.entryAt q (s.inflight q)) 64 s t ∧ t.free_ q = s.free_ q - 1 ∧ t.inflight q = s.inflight q + 1 := by
  have hn' : (s.begun m f (some s.gt)).inflight q + 1 < 8192 := by rwa [begun_inflight]
  have hirq' : (s.begun m f (some s.gt)).rb (QUE_CFG.IRQEN q) = false := (begun_rb s m f _ (above_blocks (by decide))).trans hirq
  have hpost := postedRecord hn' m f (((s.entry m).count + 1) % 2 ^ 32)
  have hlaunch : (s.begun m f (some s.gt)).launch m f (s.newInst m f) =
      some (((s.begun m f (some s.gt)).recordStored q m f (((s.entry m).count + 1) % 2 ^ 32)).silentPost q) := by
    rw [launch_post ha, begun_entry, hq, strikePost_posted ht.begun hirq']
  obtain ⟨he, hL, hregs⟩ := strikeFire_launched h hu hi ha (by decide) rfl hlaunch hpost.regs hpost.spn (by
    intro g hg
    simp only [List.mem_cons, List.not_mem_nil, or_false] at hg
    rcases hg with rfl | rfl <;>
      simp only [Fld.OffPairs, QUE_CNT.FREE, QUE_CNT.INFLIGHT, QUE_CNT.adr, blockBase] <;>
      omega)
  exact ⟨_, he, hL, hregs, hpost.goesOn⟩

/-- A vector to a receiver that is no pair. -/
theorem strikeFire_irq {o : Nat} (h : s.Fires m f) (hu : s.Unattached) (hi : (s.entry m).inst = none)
    (ha : s.rf (SPN_ACT.ACTION m) = 6) (ho : s.rf (SPN_ACT.TARGET m) % 32 = o)
    (hr : (s.receiver o).all (fun r => (ownerPair r).isNone) = true) :
    ∃ t, exec (.strikeFire m) s = .next t ∧ Launched s t m f 6 none ∧
      Sent s t ((s.receiver o).map (fun r => OutMsg.irq r (s.rf (SPN_ACT.TARGET m) / 256 % 32) m)).toList ∧
      RegsBut [SPN_ESTAT.OUTST m] s t ∧ t = { s with regs := t.regs, spn := t.spn, outbox := t.outbox } := by
  obtain ⟨r, p, e⟩ := begun_regs s m f none
  have hl := launch_irq (f := f) ha (s.begun m f none)
  rw [ho, irqTo_plain (by rwa [begun_receiver]), begun_receiver] at hl
  obtain ⟨he, hL, hregs⟩ := strikeFire_launched h hu hi ha (by decide) rfl hl
    (RegsBut.of_regs (l := []) (outbox_regs _) (.refl _ _)) (outbox_spn _) (by simp)
  refine ⟨_, he, hL, ?_, hregs, ?_⟩
  · rw [e]; rfl
  · rw [e]; rfl

/-- Settles O36: each action is its block's own operation on the strike begun, or a miss; completions go through the ledger. -/
theorem strikeFiresAndEnds : Obligations.StrikeFiresAndEnds := by
  refine ⟨fun s m f hon hd ht => strikeFire_sinceGt ⟨hon, hd, ht⟩, ?miss, ?idle, ?none, ?commit, ?adcIdle, ?adcBusy, ?sample, ?post, ?refused,
    ?irq, ?tx, ?complete, ?late, ?deadline⟩
  case miss =>
    intro s m f i hon hd ht hi hw h1 h2 h3 h4
    obtain ⟨t, he, h⟩ := strikeFire_missed ⟨hon, hd, ht⟩ ⟨h1, h2, h3, h4⟩ (fire_of_open hi hw)
    exact ⟨t, he, h.misses, h.raised, by rw [h.entry, hi], by rw [h.entry], h.regs, h.eq⟩
  case idle =>
    intro s m f hon hd ht hi ha hidle h1 h2 h3 h4
    have hb := budget_lt s (s.rf (SPN_ACT.CLASS m))
    obtain ⟨t, he, hn, h⟩ := strikeFire_none ⟨hon, hd, ht⟩ ⟨h1, h2, h3, h4⟩ hi ha (if_pos hidle).symm (Nat.le_add_right _ _)
    refine ⟨t, he, h.outst, h.inst, hn, h.done, h.primed, fun hp => ?_, h.regs, h.eq⟩
    rw [h.slack_unprimed hp (Nat.le_add_right _ _) (by omega), Nat.add_sub_cancel_left]
  case none =>
    intro s m f hon hd ht hi ha hidle hle h1 h2 h3 h4
    have hb := budget_lt s (s.rf (SPN_ACT.CLASS m))
    have hf := fireDue_le hd
    obtain ⟨t, he, hn, h⟩ := strikeFire_none ⟨hon, hd, ht⟩ ⟨h1, h2, h3, h4⟩ hi ha (if_neg (by simp [hidle])).symm hle
    exact ⟨t, he, h.outst, h.inst, hn, h.done, h.primed, fun hp => h.slack_unprimed hp hle (by omega), h.regs, h.eq⟩
  case commit =>
    intro s m f hon hd ht hi ha hb h1 h2 h3 h4
    obtain ⟨t, he, h, hq, hr, heq⟩ := strikeFire_commit ⟨hon, hd, ht⟩ ⟨h1, h2, h3, h4⟩ hi ha rfl hb
    exact ⟨t, he, hq, h.outst, h.inst, h.count, hr, heq⟩
  case adcIdle =>
    intro s m f hon hd ht hi ha hen hs hc hcur h1 h2 h3 h4
    obtain ⟨t, he, h, hk, hl, hb, hq, hr, heq⟩ := strikeFire_adc_idle ⟨hon, hd, ht⟩ ⟨h1, h2, h3, h4⟩ hi ha rfl ⟨hen, hs, hc⟩ hcur
    exact ⟨t, he, hk, hl, hb, hq, h.inst, hr, heq⟩
  case adcBusy =>
    intro s m f hon hd ht hi ha hen hs hc hcur hlen h1 h2 h3 h4
    obtain ⟨t, he, h, hq, hk, hl, hr, heq⟩ := strikeFire_adc_busy ⟨hon, hd, ht⟩ ⟨h1, h2, h3, h4⟩ hi ha rfl ⟨hen, hs, hc⟩ hcur hlen
    exact ⟨t, he, hq, hk, hl, h.inst, hr, heq⟩
  case sample =>
    intro s m f hon hd ht hi ha hen hlen h1 h2 h3 h4
    obtain ⟨t, he, h, hq, hr, heq⟩ := strikeFire_sample ⟨hon, hd, ht⟩ ⟨h1, h2, h3, h4⟩ hi ha rfl hen hlen
    exact ⟨t, he, hq, h.inst, h.outst, hr, heq⟩
  case post =>
    intro s m f hon hd ht hi ha hen hfree hlen hadm hspn hirq hcan h1 h2 h3 h4
    obtain ⟨t, he, h, hr, hm, hbut, hf, hn⟩ :=
      strikeFire_post ⟨hon, hd, ht⟩ ⟨h1, h2, h3, h4⟩ hi ha rfl ⟨hen, hfree, hadm, hspn, hcan⟩ hlen hirq
    exact ⟨t, he, hm, hbut, hf, hn, h.inst, hr⟩
  case refused =>
    intro s m f hon hd ht hi hor h1 h2 h3 h4
    have hl : s.rf (SPN_ACT.ACTION m) ≠ 0 ∧ ∀ d, (s.begun m f d).launch m f (s.newInst m f) = none := by
      rcases hor with ⟨ha, hb⟩ | ⟨ha, hb⟩ | ⟨ha, hb⟩ | ⟨ha, hb⟩
      · exact ⟨by omega, fun d => (launch_commit ha _).trans (requestCommit_disabled ((begun_bankEnabled _).trans hb) _)⟩
      · refine ⟨by omega, fun d => (launch_adc ha _).trans (adcLaunch_disabled ?_ _)⟩
        rwa [begun_rb s m f d (by decide), begun_rb s m f d (above_blocks (by decide))]
      · exact ⟨by omega, fun d => (launch_sample ha).trans (lpeLaunch_disabled ((begun_rb s m f d (above_blocks (by decide))).trans hb))⟩
      · refine ⟨by omega, fun d => (launch_post ha _).trans (strikePost_refused ?_ _ _ _)⟩
        rwa [begun_rb s m f d (above_blocks (by decide)), begun_free]
    obtain ⟨t, he, h⟩ := strikeFire_refused ⟨hon, hd, ht⟩ ⟨h1, h2, h3, h4⟩ hi hl.1 hl.2
    exact ⟨t, he, h.misses, h.raised, by rw [h.entry, hi], by rw [h.eq], by rw [h.eq], h.regs⟩
  case irq =>
    intro s m f hon hd ht hi ha hrx h1 h2 h3 h4
    obtain ⟨t, he, h, hs, hr, heq⟩ := strikeFire_irq ⟨hon, hd, ht⟩ ⟨h1, h2, h3, h4⟩ hi ha rfl hrx
    exact ⟨t, he, h.outst, h.count, h.inst, hs, hr, heq⟩
  case tx =>
    intro s m f hon hd ht hi ha htx h1 h2 h3 h4
    obtain ⟨t, he, h⟩ := strikeFire_refused ⟨hon, hd, ht⟩ ⟨h1, h2, h3, h4⟩ hi (by omega)
      (fun d => (launch_seal ha _).trans (strikeSeal_refused ((begun_isTx _).trans htx) _))
    exact ⟨t, he, h.misses, h.raised, by rw [h.entry, hi], h.regs⟩
  case complete =>
    intro s m i c hon hi hd hle hlt hc
    have h := settled hc s m ((i.deadline : Int) - (c : Int))
    refine ⟨_, execStrikeComplete_eq hon hi hd, ?_⟩
    rw [settleInst_of_counted (fun h => absurd h (Nat.not_lt.2 hle))]
    exact ⟨h.outst, h.inst, h.done, h.primed, h.toSigned_slack (by omega), h.regs, h.eq⟩
  case late =>
    intro s m i c hon hi hd hlt ho hle hc
    have h := settled hc (s.overrun m i) m ((i.deadline : Int) - (c : Int))
    have hov := overran_settled hc s m ((i.deadline : Int) - (c : Int))
    refine ⟨_, execStrikeComplete_eq hon hi hd, ?_⟩
    rw [settleInst_of_late hlt ho]
    refine ⟨h.outst, h.inst, hov.entryCount, hov.classCount, hov.raised, ?_⟩
    exact (h.toSigned_slack (by omega)).trans (overrun_slackAfter hc s m _)
  case deadline =>
    intro s m i hon hi hd ho hl hc
    have h := overran hc s m
    obtain ⟨r, y, e⟩ := overrun_eq s m i
    refine ⟨_, execStrikeDeadline_eq hon hi hd ho hl, ?_, h.entryCount, h.classCount, h.raised,
      RegsBut.of_regs (t := s.overrun m i) rfl (overrun_regsBut s m i), ?_⟩
    · rw [State.marked, entry_setEntry, if_pos rfl]
    · rw [e]
      rfl

end Sys2Proof.Machine
end

section
/-! PROOF. Single bits of a field, and steps of the PWM's registers and state alone. -/

namespace Sys2Proof.Machine

variable {s t u : State}

/-! ### One bit of a number and of a field -/

/-- A bit set is a one-bit field put. -/
theorem setBitTo_eq_putN (n i : Nat) (v : Bool) : setBitTo n i v = (⟨0, i, 1⟩ : Fld).putN n (b2n v) := by
  have hbit : (n >>> i) % 2 = if n.testBit i then 1 else 0 := by
    rw [Nat.testBit_eq_decide_div_mod_eq, Nat.shiftRight_eq_div_pow]
    simp only [decide_eq_true_eq]
    split <;> omega
  cases v <;> simp [setBitTo, Fld.putN, Fld.getN, hbit, b2n]

theorem testBit_setBitTo (n i j : Nat) (v : Bool) : (setBitTo n i v).testBit j = if j = i then v else n.testBit j := by
  rw [setBitTo_eq_putN, putN_testBit]
  rcases Nat.lt_trichotomy j i with h | rfl | h
  · simp [h, Nat.ne_of_lt h]
  · cases v <;> simp [b2n]
  · rw [if_neg (Nat.lt_asymm h), if_neg (show ¬ j < i + 1 by omega), if_neg (Nat.ne_of_gt h)]

/-- A bit of a field after one of its bits is set. -/
theorem testBit_wbit (s : State) {f : Fld} (hf : f.lo + f.wd ≤ 32) {i j : Nat} (hj : j < f.wd) (v : Bool) :
    ((s.wbit f i v).rf f).testBit j = if j = i then v else (s.rf f).testBit j := by
  rw [wbit_eq, rf_wf_same _ _ _ hf, Nat.testBit_mod_two_pow, testBit_setBitTo]
  simp [hj]

theorem hwBit_rf (s : State) (f g : Fld) (i : Nat) : (s.hwBit f i).rf g = (s.wbit f i true).rf g := rfl

theorem RegsBut.hwBit {l : List Fld} {f : Fld} {i : Nat} (hm : f ∈ l) (h : RegsBut l s t) : RegsBut l s (t.hwBit f i) :=
  .of_regs (t := t.wbit f i true) rfl (h.wbit hm)

theorem RegsBut.setBank {l : List Fld} {b : Nat} {x : BankSt} (h : RegsBut l s t) : RegsBut l s (t.setBank b x) :=
  .of_regs (setBank_regs _ _ _) h

theorem RegsBut.setLeg {l : List Fld} {m : Nat} {x : LegSt} (h : RegsBut l s t) : RegsBut l s (t.setLeg m x) :=
  .of_regs (setLeg_regs _ _ _) h

/-! ### Steps of the PWM alone -/

/-- Only registers and the PWM's own state differ. -/
def PwmOnly (s t : State) : Prop := ∃ r p, t = { s with regs := r, pwm := p }

theorem PwmOnly.refl : PwmOnly s s := ⟨_, _, rfl⟩

theorem PwmOnly.regsOnly (h : PwmOnly s t) (k : RegsOnly t u) : PwmOnly s u := by
  obtain ⟨r, p, rfl⟩ := h
  obtain ⟨r', rfl⟩ := k
  exact ⟨_, _, rfl⟩

theorem PwmOnly.wbit (h : PwmOnly s t) {f : Fld} {i : Nat} {v : Bool} : PwmOnly s (t.wbit f i v) := h.regsOnly RegsOnly.refl.wf

theorem PwmOnly.setBank (h : PwmOnly s t) {b : Nat} {x : BankSt} : PwmOnly s (t.setBank b x) := by
  obtain ⟨r, p, rfl⟩ := h
  exact ⟨_, _, rfl⟩

theorem PwmOnly.frame (h : PwmOnly s t) : t = { s with regs := t.regs, pwm := t.pwm } := by
  obtain ⟨r, p, rfl⟩ := h
  rfl

theorem PwmOnly.tly_eq (h : PwmOnly s t) : t.tly = s.tly := by
  obtain ⟨r, p, rfl⟩ := h
  rfl

theorem PwmOnly.raised (h : PwmOnly s t) (src d : Nat) : Raised s (t.raiseEv src d) src d := by
  obtain ⟨r, p, rfl⟩ := h
  rfl

end Sys2Proof.Machine
end

section
/-! PROOF. A commit that replaces a pending set (R76). -/

namespace Sys2Proof.Machine

/-- Bank 0 runs, its reload decision is taken, a set is pending, and a request waits. -/
def State.commitWaits : State :=
  (State.reset.wb (PWM_BANKCTL.RUN 0) true).setBank 0 { started := true, decided := true, pend := some {}, reqs := [{}] }

/-- The commit accepted there sets the W1C bit SUPERSEDED, which hardware has then set at this elapsed time (R8). -/
theorem commitAccept_hwSet : ∃ t, exec (.commitAccept 0) State.commitWaits = .next t ∧ t.hwSet = [(PWM_BANKSTAT.adr 0, (0, 2 ^ 28))] :=
  ⟨_, rfl, by decide +kernel⟩

/-- Refutes O23: its clause of an accepted commit without a strike entry leaves everything but registers and the PWM as it is, also where
the set replaces a pending one; SUPERSEDED is then set, and with it the lane's note of the bits that hardware has set. -/
theorem not_pwmRunAndCommit : ¬ Obligations.PwmRunAndCommit := by
  rintro ⟨-, -, -, -, accept, -⟩
  obtain ⟨t, ht, -, -, -, -, -, -, hframe⟩ :=
    accept State.commitWaits 0 {} [] rfl rfl (.inl rfl) rfl rfl (by decide +kernel)
  obtain ⟨u, hu, hset⟩ := commitAccept_hwSet
  obtain rfl : t = u := Host.Outcome.next.inj (ht.symm.trans hu)
  have hnone : t.hwSet = [] := congrArg State.hwSet hframe
  exact absurd (hnone.symm.trans hset) (by decide)

end Sys2Proof.Machine
end

section
/-! PROOF. The delay lines of the pad stage (R83). -/

namespace Sys2Proof.Machine

variable {s t u : State} {b : Fin 8} {x : Nat}

/-! ### What a calibration counts -/

/-- The state after a calibration is counted. -/
def State.calCounted (s : State) : State := s.incWrap PWM_FINESTAT.CALCNT

theorem calCounted_calcnt (s : State) : s.calCounted.rf PWM_FINESTAT.CALCNT = (s.rf PWM_FINESTAT.CALCNT + 1) % 65536 :=
  rf_wf_same _ _ _ (by decide)

theorem calCounted_calok (s : State) : s.calCounted.rf PWM_FINESTAT.CALOK = s.rf PWM_FINESTAT.CALOK :=
  rf_wf_other _ _ _ _ (by decide) (.inr (by decide))

theorem calCounted_regsBut {l : List Fld} (h : PWM_FINESTAT.CALCNT ∈ l) : RegsBut l s s.calCounted := (RegsBut.refl l s).incWrap h

theorem calCounted_now (s : State) : s.calCounted.now = s.now := wf_now _ _ _
theorem calCounted_gt (s : State) : s.calCounted.gt = s.gt := wf_gt _ _ _
theorem calCounted_pmu (s : State) : s.calCounted.pmu = s.pmu := wf_pmu _ _ _

theorem calCounted_only (s : State) : RegsOnly s s.calCounted := RegsOnly.refl.incWrap

theorem calCounted_rf {g : Fld} (hg : g.lo + g.wd ≤ 32) (ha : g.adr ≠ PWM_FINESTAT.adr) : s.calCounted.rf g = s.rf g :=
  rf_wf_other _ _ _ _ hg (.inl ha)

theorem calCounted_running (s : State) (b : Nat) : s.calCounted.rb (PWM_BANKSTAT.RUNNING b) = s.rb (PWM_BANKSTAT.RUNNING b) := by
  rw [State.rb, calCounted_rf (Nat.le_of_ble_eq_true rfl) (by simp only [PWM_BANKSTAT.RUNNING, PWM_BANKSTAT.adr, PWM_FINESTAT.adr]; omega), State.rb]

theorem calok_apart_calcnt (t : State) (i : Nat) (v : Bool) :
    (t.wbit PWM_FINESTAT.CALOK i v).rf PWM_FINESTAT.CALCNT = t.rf PWM_FINESTAT.CALCNT :=
  rf_wf_other _ _ _ _ (by decide) (.inr (by decide))

theorem testBit_calok (t : State) (i : Nat) (v : Bool) {j : Nat} (hj : j < 8) :
    ((t.wbit PWM_FINESTAT.CALOK i v).rf PWM_FINESTAT.CALOK).testBit j = if j = i then v else (t.rf PWM_FINESTAT.CALOK).testBit j :=
  testBit_wbit t (by decide) hj v

/-! ### A calibration in range, and one outside it -/

/-- The bank as a good calibration leaves it, with the swap that waits. -/
def State.calibrated (s : State) (b : Nat) (swap : Option Nat) : State :=
  s.calCounted.setBank b { s.bank b with calGood := some s.calCounted.now, swapAt := swap, calEpisode := false }

/-- The bank in an episode of 52, its line no longer calibrated. -/
def State.calLost (s : State) (b : Nat) : State :=
  (s.calCounted.setBank b { s.bank b with calEpisode := true }).wbit PWM_FINESTAT.CALOK b false

/-- The episode as it begins: 52 is raised for a bank of the pads that is in use. -/
def State.calEpisodeBegins (s : State) (b : Nat) : State :=
  if !(s.calLost b).linkBank b && (s.calLost b).rf (PWM_BANKCFG.PMIN b) != 0 then (s.calLost b).raiseEv 52 (pwmDetail 0 b 0) else s.calLost b

theorem calibration_next (hon : s.on = true) (b : Fin 8) (x : Nat) : exec (.delayLineCalibration b x) s = .next
    (if 28 ≤ x ∧ x ≤ 36 then
      if s.calCounted.rb (PWM_BANKSTAT.RUNNING b) then s.calibrated b (some s.calCounted.gt)
      else (s.calibrated b none).wbit PWM_FINESTAT.CALOK b true
    else if (s.bank b).calGood.getD s.calCounted.pmu.releasedAt + 500000 < s.calCounted.now ∧ !(s.bank b).calEpisode then
      s.calEpisodeBegins b
    else s.calCounted) := by
  change execDelayLineCalibration b x s = _
  rw [execDelayLineCalibration, whenOn_on hon]
  rfl

theorem calibration_stopped (hon : s.on = true) (hx : 28 ≤ x ∧ x ≤ 36) (hr : s.rb (PWM_BANKSTAT.RUNNING b) = false) :
    exec (.delayLineCalibration b x) s = .next ((s.calibrated b none).wbit PWM_FINESTAT.CALOK b true) := by
  rw [calibration_next hon, if_pos hx, calCounted_running, if_neg (Bool.eq_false_iff.1 hr)]

theorem calibration_running (hon : s.on = true) (hx : 28 ≤ x ∧ x ≤ 36) (hr : s.rb (PWM_BANKSTAT.RUNNING b) = true) :
    exec (.delayLineCalibration b x) s = .next (s.calibrated b (some s.gt)) := by
  rw [calibration_next hon, if_pos hx, calCounted_running, if_pos hr, calCounted_gt]

theorem calibration_bad_soon (hon : s.on = true) (hx : x < 28 ∨ 36 < x) (hg : s.now ≤ (s.bank b).calGood.getD s.pmu.releasedAt + 500000) :
    exec (.delayLineCalibration b x) s = .next s.calCounted := by
  rw [calibration_next hon, if_neg (by omega), calCounted_now, calCounted_pmu, if_neg fun h => absurd h.1 (Nat.not_lt.2 hg)]

theorem calibration_bad_late (hon : s.on = true) (hx : x < 28 ∨ 36 < x) (hg : (s.bank b).calGood.getD s.pmu.releasedAt + 500000 < s.now)
    (he : (s.bank b).calEpisode = false) : exec (.delayLineCalibration b x) s = .next (s.calEpisodeBegins b) := by
  rw [calibration_next hon, if_neg (by omega), calCounted_now, calCounted_pmu, if_pos ⟨hg, by rw [he]; rfl⟩]

theorem calibrated_rf (s : State) (b : Nat) (w : Option Nat) (g : Fld) : (s.calibrated b w).rf g = s.calCounted.rf g := setBank_rf _ _ _ _

theorem calibrated_bank (s : State) (b : Nat) (w : Option Nat) :
    (s.calibrated b w).bank b = { s.bank b with calGood := some s.calCounted.now, swapAt := w, calEpisode := false } := mget_mset_same _ _ _ _

theorem calibrated_only (s : State) (b : Nat) (w : Option Nat) : PwmOnly s (s.calibrated b w) :=
  (PwmOnly.refl.regsOnly (calCounted_only s)).setBank

theorem calibrated_regsBut {l : List Fld} (h : PWM_FINESTAT.CALCNT ∈ l) (s : State) (b : Nat) (w : Option Nat) :
    RegsBut l s (s.calibrated b w) := (calCounted_regsBut h).setBank

theorem calLost_rf {g : Fld} (hg : g.lo + g.wd ≤ 32) (ha : g.adr ≠ PWM_FINESTAT.adr) : (s.calLost b).rf g = s.rf g := by
  rw [State.calLost, wbit_eq, rf_wf_other _ _ _ _ hg (.inl ha), setBank_rf, calCounted_rf hg ha]

theorem calLost_only (s : State) (b : Nat) : PwmOnly s (s.calLost b) := (PwmOnly.refl.regsOnly (calCounted_only s)).setBank.wbit

theorem bankcfg_ne_finestat (b : Nat) : PWM_BANKCFG.adr b ≠ PWM_FINESTAT.adr := by unfold PWM_BANKCFG.adr PWM_FINESTAT.adr; omega

theorem calEpisodeBegins_eq (s : State) (b : Fin 8) : s.calEpisodeBegins b =
    if s.linkBank b = false ∧ s.rf (PWM_BANKCFG.PMIN b) ≠ 0 then (s.calLost b).raiseEv 52 (pwmDetail 0 b 0) else s.calLost b := by
  have hl : (s.calLost b).linkBank b = s.linkBank b := by
    rw [State.linkBank, State.rb, calLost_rf (Nat.le_of_ble_eq_true rfl) (bankcfg_ne_finestat b), State.linkBank, State.rb]
  rw [State.calEpisodeBegins, hl, calLost_rf (g := PWM_BANKCFG.PMIN b) (Nat.le_of_ble_eq_true rfl) (bankcfg_ne_finestat b)]
  simp

theorem pwmDetail_bank (b : Fin 8) : pwmDetail 0 b 0 = b * 256 := by
  rw [pwmDetail, Nat.mod_eq_of_lt b.isLt]
  omega

theorem calLost_bank (s : State) (b : Nat) : (s.calLost b).bank b = { s.bank b with calEpisode := true } := by
  rw [State.calLost, State.bank, wbit_eq, wf_pwm]
  exact mget_mset_same _ _ _ _

/-- What the beginning of an episode comes to. -/
theorem calEpisode_begun (s : State) (b : Fin 8) :
    ((s.calEpisodeBegins b).rf PWM_FINESTAT.CALOK).testBit b = false ∧ ((s.calEpisodeBegins b).bank b).calEpisode = true ∧
      (s.calEpisodeBegins b).rf PWM_FINESTAT.CALCNT = (s.rf PWM_FINESTAT.CALCNT + 1) % 65536 ∧
      (if s.linkBank b = false ∧ s.rf (PWM_BANKCFG.PMIN b) ≠ 0 then Raised s (s.calEpisodeBegins b) 52 (b * 256)
        else (s.calEpisodeBegins b).tly = s.tly) ∧
      RegsBut [PWM_FINESTAT.CALCNT, PWM_FINESTAT.CALOK] s (s.calEpisodeBegins b) := by
  have hok : ((s.calLost b).rf PWM_FINESTAT.CALOK).testBit b = false := by rw [State.calLost, testBit_calok _ _ _ b.isLt, if_pos rfl]
  have hep : ((s.calLost b).bank b).calEpisode = true := by rw [calLost_bank]
  have hcnt : (s.calLost b).rf PWM_FINESTAT.CALCNT = (s.rf PWM_FINESTAT.CALCNT + 1) % 65536 := by
    rw [State.calLost, calok_apart_calcnt, setBank_rf, calCounted_calcnt]
  have hregs : RegsBut [PWM_FINESTAT.CALCNT, PWM_FINESTAT.CALOK] s (s.calLost b) :=
    (calCounted_regsBut (by simp)).setBank.wbit (by simp)
  rw [calEpisodeBegins_eq]
  split
  · refine ⟨by rw [raiseEv_rf, hok], by rw [State.bank, raiseEv_pwm]; exact hep, by rw [raiseEv_rf, hcnt], ?_,
      .of_regs (raiseEv_regs _ _ _) hregs⟩
    rw [← pwmDetail_bank]
    exact (calLost_only s b).raised _ _
  · exact ⟨hok, hep, hcnt, (calLost_only s b).tly_eq, hregs⟩

/-! ### LINE_SWAP -/

theorem lineSwap_next {g : Nat} (hg : (s.bank b).swapAt = some g) (hlt : g < (s.bank b).lastB) : exec (.lineSwap b) s =
    .next ((s.setBank b { s.bank b with swapAt := none }).wbit PWM_FINESTAT.CALOK b true) := by
  change execLineSwap b s = _
  simp [execLineSwap, hg, Nat.not_le.2 hlt]

end Sys2Proof.Machine
end

section
/-! PROOF. Legs that go off, OFF frames to a partner, and the both-on interlock (R85, R91, R115). -/

namespace Sys2Proof.Machine

variable {s t u : State} {m n : Nat}

/-! ### A leg held off (R85) -/

/-- The registers that a leg's accounting and status stand in. -/
def legWords (m : Nat) : List Fld :=
  [whole (PWM_LEGACC.adr m), whole (PWM_LEGACC2.adr m), whole (PWM_LEGDITH.adr m), whole (PWM_LEGSTAT.adr m)]

/-- A field of a register that stands in the list whole is written. -/
theorem RegsBut.wf_whole {l : List Fld} {f : Fld} {v : Nat} (hm : whole f.adr ∈ l) (h : RegsBut l s t) : RegsBut l s (t.wf f v) :=
  h.setN hm

theorem clearAcc_regsBut (s : State) (m : Nat) : RegsBut (legWords m) s (s.clearAcc m) :=
  ((((RegsBut.refl _ s).setN (by simp [legWords])).setN (by simp [legWords])).setN (by simp [legWords])).wf_whole
    (f := PWM_LEGSTAT.FULL m) (by simp [legWords, PWM_LEGSTAT.FULL])

/-- The leg's switches off, its accounting cleared and PRIMED 0: all of LEG_OFF but the cause. -/
def State.legSuspended (s : State) (m : Nat) : State :=
  ((s.setLeg m ((s.leg m).off (32 * s.gt))).clearAcc m).wb (PWM_LEGSTAT.PRIMED m) false

theorem legOff_eq (s : State) (m cause : Nat) :
    s.legOff m cause = (s.legSuspended m).wf (PWM_LEGSTAT.OFFCAUSE m) ((s.legSuspended m).offCause m cause) := rfl

theorem legSuspended_regsBut (s : State) (m : Nat) : RegsBut (legWords m) s (s.legSuspended m) :=
  ((RegsBut.refl _ s).setLeg.trans (clearAcc_regsBut _ m)).wf_whole (f := PWM_LEGSTAT.PRIMED m) (by simp [legWords, PWM_LEGSTAT.PRIMED])

theorem legOff_regsBut (s : State) (m cause : Nat) : RegsBut (legWords m) s (s.legOff m cause) := by
  rw [legOff_eq]
  exact (legSuspended_regsBut s m).wf_whole (f := PWM_LEGSTAT.OFFCAUSE m) (by simp [legWords, PWM_LEGSTAT.OFFCAUSE])

/-- A leg held off is the leg's own state and registers. -/
theorem legOff_only (s : State) (m cause : Nat) : RegsOnly (s.setLeg m ((s.leg m).off (32 * s.gt))) (s.legOff m cause) :=
  RegsOnly.refl.setN.setN.setN.wf.wb.wf

theorem legOff_primed (s : State) (m cause : Nat) : (s.legOff m cause).rf (PWM_LEGSTAT.PRIMED m) = 0 := by
  rw [legOff_eq, rf_wf_other _ _ _ _ (Nat.le_of_ble_eq_true rfl) (.inr (.inl (Nat.le_of_ble_eq_true rfl)))]
  exact rf_wf_same _ _ _ (Nat.le_of_ble_eq_true rfl)

/-- A leg that goes off keeps its latch. -/
theorem legSuspended_latch (s : State) (m : Nat) : (s.legSuspended m).rf (PWM_LEGSTAT.LATCH m) = s.rf (PWM_LEGSTAT.LATCH m) := by
  have hne (a : Nat) (h : PWM_LEGSTAT.adr m ≠ a) (t : State) : (t.setN a 0).rf (PWM_LEGSTAT.LATCH m) = t.rf (PWM_LEGSTAT.LATCH m) :=
    (rf_setN _ _ _ _ (Nat.le_of_ble_eq_true rfl)).trans (if_neg h)
  rw [State.legSuspended, wb_eq, rf_wf_other _ _ _ _ (Nat.le_of_ble_eq_true rfl) (.inr (.inr (Nat.le_of_ble_eq_true rfl))),
    State.clearAcc, rf_wf_other _ _ _ _ (Nat.le_of_ble_eq_true rfl) (.inr (.inl (Nat.le_of_ble_eq_true rfl))),
    hne _ (by unfold PWM_LEGSTAT.adr PWM_LEGDITH.adr; omega), hne _ (by unfold PWM_LEGSTAT.adr PWM_LEGACC2.adr; omega),
    hne _ (by unfold PWM_LEGSTAT.adr PWM_LEGACC.adr; omega), setLeg_rf]

theorem legOff_latch (s : State) (m cause : Nat) : (s.legOff m cause).rf (PWM_LEGSTAT.LATCH m) = s.rf (PWM_LEGSTAT.LATCH m) := by
  rw [legOff_eq, rf_wf_other _ _ _ _ (Nat.le_of_ble_eq_true rfl) (.inr (.inr (Nat.le_of_ble_eq_true rfl))), legSuspended_latch]

/-- OFFCAUSE of a latched leg. -/
theorem legOff_offcause_of_latched (h : s.rf (PWM_LEGSTAT.LATCH m) = 1) (cause : Nat) :
    (s.legOff m cause).rf (PWM_LEGSTAT.OFFCAUSE m) = 2 := by
  have hl : (s.legSuspended m).rb (PWM_LEGSTAT.LATCH m) = true := by rw [State.rb, legSuspended_latch, h]; rfl
  rw [legOff_eq, rf_wf_same _ _ _ (Nat.le_of_ble_eq_true rfl), State.offCause, if_pos hl]
  rfl

/-! ### The interlock (R91) -/

/-- The leg as its latch is set. -/
theorem latched (s : State) (m : Nat) : (s.wb (PWM_LEGSTAT.LATCH m) true).rf (PWM_LEGSTAT.LATCH m) = 1 :=
  rf_wf_same _ _ _ (Nat.le_of_ble_eq_true rfl)

theorem interlock_rf (s : State) (m : Nat) (g : Fld) : (s.interlock m).rf g = ((s.wb (PWM_LEGSTAT.LATCH m) true).legOff m 2).rf g :=
  raiseEv_rf _ _ _ _

/-- A latched leg is the leg's own state, registers, and a raise. -/
theorem interlock_only (s : State) (m : Nat) :
    ∃ r, s.interlock m = { s.setLeg m ((s.leg m).off (32 * s.gt)) with regs := r }.raiseEv 48 (pwmDetail m (m / 3) 0) := by
  obtain ⟨r, h⟩ := legOff_only (s.wb (PWM_LEGSTAT.LATCH m) true) m 2
  obtain ⟨q, hq⟩ : RegsOnly s (s.wb (PWM_LEGSTAT.LATCH m) true) := RegsOnly.refl.wb
  refine ⟨r, ?_⟩
  rw [State.interlock, h, hq]
  rfl

theorem interlock_leg (s : State) (m : Nat) : (s.interlock m).leg m = (s.leg m).off (32 * s.gt) := by
  obtain ⟨r, h⟩ := interlock_only s m
  rw [h]
  exact mget_mset_same _ _ _ _

theorem interlock_regsBut (s : State) (m : Nat) : RegsBut (legWords m) s (s.interlock m) :=
  .of_regs (raiseEv_regs _ _ _) (((RegsBut.refl _ s).wf_whole (f := PWM_LEGSTAT.LATCH m) (by simp [legWords, PWM_LEGSTAT.LATCH])).trans
    (legOff_regsBut _ m 2))

theorem interlock_raised (s : State) (m : Fin 24) : Raised s (s.interlock m) 48 (m + m / 3 * 256) := by
  have hd : pwmDetail m (m.val / 3) 0 = m + m / 3 * 256 := by rw [pwmDetail]; omega
  obtain ⟨r, h⟩ := interlock_only s m
  rw [← hd, Raised, h]
  rfl

/-! ### What legs that go off leave (R85), and OFF frames (R115) -/

/-- Where the registers of the legs begin; those of the banks and of the trip inputs lie below. -/
def legBase : Nat := PWM_LEGSET.adr 0

/-- The clock, the Tally, the banks, the blanking windows and the registers below the legs' stand. -/
structure OffPads (s t : State) : Prop where
  now_eq : t.now = s.now
  gt_eq : t.gt = s.gt
  tly_eq : t.tly = s.tly
  banks_eq : t.pwm.banks = s.pwm.banks
  blank_eq : t.pwm.blank = s.pwm.blank
  reg_eq : ∀ a < legBase, t.reg a = s.reg a

theorem OffPads.refl (s : State) : OffPads s s := ⟨rfl, rfl, rfl, rfl, rfl, fun _ _ => rfl⟩

theorem OffPads.trans (h : OffPads s t) (k : OffPads t u) : OffPads s u where
  now_eq := k.now_eq.trans h.now_eq
  gt_eq := k.gt_eq.trans h.gt_eq
  tly_eq := k.tly_eq.trans h.tly_eq
  banks_eq := k.banks_eq.trans h.banks_eq
  blank_eq := k.blank_eq.trans h.blank_eq
  reg_eq a ha := (k.reg_eq a ha).trans (h.reg_eq a ha)

theorem OffPads.foldl {α : Type} {g : State → α → State} {l : List α} (h : OffPads s t)
    (hg : ∀ {u x}, OffPads s u → OffPads s (g u x)) : OffPads s (l.foldl g t) := by
  induction l generalizing t with
  | nil => exact h
  | cons x l ih => exact ih (hg h)

theorem OffPads.setLeg (h : OffPads s t) {m : Nat} {l : LegSt} : OffPads s (t.setLeg m l) :=
  h.trans ⟨rfl, rfl, rfl, rfl, rfl, fun _ _ => rfl⟩

theorem OffPads.setPort (h : OffPads s t) {n : Nat} {p : PortSt} : OffPads s (t.setPort n p) :=
  h.trans ⟨rfl, rfl, rfl, rfl, rfl, fun _ _ => rfl⟩

theorem OffPads.emit (h : OffPads s t) {x : OutMsg} : OffPads s (t.emit x) := h.trans ⟨rfl, rfl, rfl, rfl, rfl, fun _ _ => rfl⟩

theorem OffPads.setN (h : OffPads s t) {a n : Nat} (ha : legBase ≤ a := by (repeat apply le_above); decide) : OffPads s (t.setN a n) :=
  h.trans ⟨rfl, rfl, rfl, rfl, rfl, fun _ hc => reg_setReg_ne _ _ (Nat.ne_of_lt (Nat.lt_of_lt_of_le hc ha))⟩

theorem OffPads.wf (h : OffPads s t) {f : Fld} {v : Nat} (ha : legBase ≤ f.adr := by (repeat apply le_above); decide) :
    OffPads s (t.wf f v) := h.setN ha

theorem OffPads.legOff (h : OffPads s t) {m cause : Nat} : OffPads s (t.legOff m cause) := by
  unfold Machine.State.legOff Machine.State.clearAcc Machine.State.wb
  exact h.setLeg.setN.setN.setN.wf.wf.wf

theorem OffPads.legsOff (h : OffPads s t) {ms : List Nat} {cause : Nat} : OffPads s (t.legsOff ms cause) := by
  unfold Machine.State.legsOff
  exact h.foldl fun hu => hu.legOff

theorem OffPads.glkCut (h : OffPads s t) {n : Nat} : OffPads s (t.glkCut n) := by
  unfold Machine.State.glkCut
  exact h.setPort.wf

theorem OffPads.ite {c : Prop} {_ : Decidable c} {x y : State} (hx : OffPads s x) (hy : OffPads s y) :
    OffPads s (if c then x else y) := by
  split <;> assumption

theorem OffPads.glkSend_off (h : OffPads s t) {n : Nat} {l : List Byte} : OffPads s (t.glkSend n gfOff l) := by
  rw [State.glkSend, if_pos (rfl : gfOff = gfOff)]
  exact h.setPort.emit

theorem OffPads.glkOff (h : OffPads s t) {n mask : Nat} {cut : Bool} : OffPads s (t.glkOff n mask cut) := by
  unfold Machine.State.glkOff
  exact .ite h (OffPads.ite h.glkCut h).setPort.glkSend_off

end Sys2Proof.Machine
end

section
/-! PROOF. Trips of banks and trip inputs, and blanking windows (R87 to R90). -/

namespace Sys2Proof.Machine

variable {s t u : State} {b : Nat} {k : Fin 4}

/-! ### Where the registers lie -/

theorem bankstat_lt (h : b < 8) : PWM_BANKSTAT.adr b < legBase := by simp only [PWM_BANKSTAT.adr, legBase, PWM_LEGSET.adr]; omega

theorem bankstat_injective {c : Nat} (h : PWM_BANKSTAT.adr c = PWM_BANKSTAT.adr b) : c = b := by unfold PWM_BANKSTAT.adr at h; omega

theorem tripstat_ne_bankstat (b : Nat) : PWM_TRIPSTAT.adr ≠ PWM_BANKSTAT.adr b := by unfold PWM_TRIPSTAT.adr PWM_BANKSTAT.adr; omega

theorem tripcfg_ne_tripstat (k : Fin 4) : PWM_TRIPCFG.adr k ≠ PWM_TRIPSTAT.adr := by unfold PWM_TRIPCFG.adr PWM_TRIPSTAT.adr; omega

theorem OffPads.bank_eq (h : OffPads s t) (c : Nat) : t.bank c = s.bank c := by rw [State.bank, h.banks_eq, State.bank]

theorem rf_of_reg {f : Fld} (h : t.reg f.adr = s.reg f.adr) : t.rf f = s.rf f := by rw [State.rf, State.rn, h, State.rf, State.rn]

theorem mem_bitList {w n i : Nat} : i ∈ bitList w n ↔ i < w ∧ n.testBit i = true := by simp [bitList]

/-! ### The trip of a bank (R87) -/

/-- The banks listed are tripped, their pending sets discarded; the clock, the Tally, the blanking windows, the other banks and the
registers below the legs', but for the banks' status, stand. -/
structure BanksTripped (l : List Nat) (s t : State) : Prop where
  now_eq : t.now = s.now
  gt_eq : t.gt = s.gt
  tly_eq : t.tly = s.tly
  blank_eq : t.pwm.blank = s.pwm.blank
  tripped : ∀ b ∈ l, t.rf (PWM_BANKSTAT.TRIPPED b) = 1 ∧ (t.bank b).pend = none
  bank_eq : ∀ c, c ∉ l → t.bank c = s.bank c
  reg_eq : ∀ a < legBase, (∀ b ∈ l, a ≠ PWM_BANKSTAT.adr b) → t.reg a = s.reg a

theorem BanksTripped.nil (s : State) : BanksTripped [] s s where
  now_eq := rfl
  gt_eq := rfl
  tly_eq := rfl
  blank_eq := rfl
  tripped _ h := absurd h List.not_mem_nil
  bank_eq _ _ := rfl
  reg_eq _ _ _ := rfl

/-- One bank more: what its trip set stands through the trips of the others. -/
theorem BanksTripped.cons {l : List Nat} (hb : b < 8) (h : BanksTripped [b] s t) (k : BanksTripped l t u) : BanksTripped (b :: l) s u where
  now_eq := k.now_eq.trans h.now_eq
  gt_eq := k.gt_eq.trans h.gt_eq
  tly_eq := k.tly_eq.trans h.tly_eq
  blank_eq := k.blank_eq.trans h.blank_eq
  tripped c hc := by
    by_cases hl : c ∈ l
    · exact k.tripped c hl
    · obtain rfl : c = b := (List.mem_cons.1 hc).resolve_right hl
      obtain ⟨hr, hp⟩ := h.tripped c (List.mem_singleton_self c)
      have hreg := k.reg_eq _ (bankstat_lt hb) fun d hd e => hl (bankstat_injective e ▸ hd)
      exact ⟨(rf_of_reg hreg).trans hr, (congrArg BankSt.pend (k.bank_eq c hl)).trans hp⟩
  bank_eq c hc := by
    obtain ⟨hb, hl⟩ := not_or.1 fun h => hc (List.mem_cons.2 h)
    exact (k.bank_eq c hl).trans (h.bank_eq c fun hc => hb (List.mem_singleton.1 hc))
  reg_eq a ha hne :=
    (k.reg_eq a ha fun c hc => hne c (List.mem_cons_of_mem _ hc)).trans
      (h.reg_eq a ha fun c hc => hne c (List.mem_cons.2 (.inl (List.mem_singleton.1 hc))))

/-- The bank as its trip marks it, before its legs go off. -/
def State.tripMarked (s : State) (b : Nat) : State := (s.dropPend b).wb (PWM_BANKSTAT.TRIPPED b) true

theorem bankTrip_offPads (s : State) (b : Nat) : OffPads (s.tripMarked b) (s.bankTrip b) := by
  have h := (OffPads.refl (s.tripMarked b)).legsOff (ms := (s.tripMarked b).drivenLegs b) (cause := 1)
  exact .ite h.glkOff h

theorem tripMarked_only (s : State) (b : Nat) : RegsOnly (s.setBank b { s.bank b with pend := none }) (s.tripMarked b) :=
  RegsOnly.refl.wb.wb

theorem tripMarked_bank (s : State) (b c : Nat) :
    (s.tripMarked b).bank c = if c = b then { s.bank b with pend := none } else s.bank c := by
  obtain ⟨r, h⟩ := tripMarked_only s b
  rw [h]
  exact bank_setBank s b c _

theorem bankTrip_tripped (s : State) (hb : b < 8) : BanksTripped [b] s (s.bankTrip b) := by
  have h := bankTrip_offPads s b
  obtain ⟨r, hm⟩ := tripMarked_only s b
  refine ⟨?_, ?_, ?_, ?_, fun c hc => ?_, fun c hc => ?_, fun a ha hne => ?_⟩
  · rw [h.now_eq, hm]; rfl
  · rw [h.gt_eq, hm]; rfl
  · rw [h.tly_eq, hm]; rfl
  · rw [h.blank_eq, hm]; rfl
  · obtain rfl := List.mem_singleton.1 hc
    refine ⟨(rf_of_reg (h.reg_eq _ (bankstat_lt hb))).trans (rf_wf_same _ _ _ (Nat.le_of_ble_eq_true rfl)), ?_⟩
    rw [h.bank_eq, tripMarked_bank, if_pos rfl]
  · rw [h.bank_eq, tripMarked_bank, if_neg fun e => hc (List.mem_singleton.2 e)]
  · have hne := hne b (List.mem_singleton_self b)
    rw [h.reg_eq a ha, State.tripMarked, State.dropPend, wb_eq, reg_wf_ne _ _ _ _ hne, wb_eq, reg_wf_ne _ _ _ _ hne, setBank_reg]

theorem bankTrips_tripped (l : List Nat) (s : State) (hl : ∀ b ∈ l, b < 8) :
    BanksTripped l s (l.foldl (fun s b => s.bankTrip b) s) := by
  induction l generalizing s with
  | nil => exact .nil s
  | cons b l ih =>
    obtain ⟨hb, hl⟩ := List.forall_mem_cons.1 hl
    exact (bankTrip_tripped s hb).cons hb (ih (s.bankTrip b) hl)

/-! ### The trip of an input (R87) -/

/-- The state in which the banks that an input names are tripped. -/
def State.namedTripped (s : State) (k : Nat) : State :=
  (bitList 8 (s.rf (PWM_TRIPCFG.BANKS k))).foldl (fun s b => s.bankTrip b) (s.hwBit PWM_TRIPSTAT.TRIPPED k)

theorem tripInput_eq (s : State) (k : Nat) :
    s.tripInput k = (s.namedTripped k).raiseEv 50 (pwmDetail 0 (lowBit 8 (s.rf (PWM_TRIPCFG.BANKS k))) k) := rfl

theorem namedTripped_tripped (s : State) (k : Nat) :
    BanksTripped (bitList 8 (s.rf (PWM_TRIPCFG.BANKS k))) (s.hwBit PWM_TRIPSTAT.TRIPPED k) (s.namedTripped k) :=
  bankTrips_tripped _ _ fun _ h => (mem_bitList.1 h).1

theorem hwBit_only (s : State) (f : Fld) (i : Nat) : ∃ r w, s.hwBit f i = { s with regs := r, hwSet := w } := ⟨_, _, rfl⟩

/-- The input's own status after its trip. -/
theorem tripInput_tripstat (s : State) (k : Nat) {f : Fld} (hf : f.adr = PWM_TRIPSTAT.adr) :
    (s.tripInput k).rf f = (s.wbit PWM_TRIPSTAT.TRIPPED k true).rf f := by
  rw [tripInput_eq, raiseEv_rf, ← hwBit_rf]
  refine rf_of_reg ((namedTripped_tripped s k).reg_eq _ ?_ fun b _ => ?_)
  · exact hf ▸ by decide
  · exact hf ▸ tripstat_ne_bankstat b

theorem tripInput_tripped (s : State) (k : Fin 4) : ((s.tripInput k).rf PWM_TRIPSTAT.TRIPPED).testBit k = true := by
  rw [tripInput_tripstat s k rfl, testBit_wbit _ (by decide) k.isLt, if_pos rfl]

theorem tripInput_level (s : State) (k : Nat) : (s.tripInput k).rf PWM_TRIPSTAT.LEVEL = s.rf PWM_TRIPSTAT.LEVEL :=
  (tripInput_tripstat s k rfl).trans (rf_wf_other _ _ _ _ (by decide) (.inr (by decide)))

theorem tripInput_blank (s : State) (k : Nat) : (s.tripInput k).pwm.blank = s.pwm.blank := by
  obtain ⟨r, w, h⟩ := hwBit_only s PWM_TRIPSTAT.TRIPPED k
  rw [tripInput_eq, raiseEv_pwm, (namedTripped_tripped s k).blank_eq, h]

theorem lowBit_lt (n : Nat) : lowBit 8 n < 8 := by
  rw [lowBit]
  cases h : bitList 8 n with
  | nil => decide
  | cons b l => exact (mem_bitList.1 (h ▸ List.mem_cons_self)).1

theorem tripInput_raised (s : State) (k : Fin 4) :
    Raised s (s.tripInput k) 50 (lowBit 8 (s.rf (PWM_TRIPCFG.BANKS k)) * 256 + k * 65536) := by
  have hd : pwmDetail 0 (lowBit 8 (s.rf (PWM_TRIPCFG.BANKS k))) k = lowBit 8 (s.rf (PWM_TRIPCFG.BANKS k)) * 256 + k * 65536 := by
    have := lowBit_lt (s.rf (PWM_TRIPCFG.BANKS k))
    rw [pwmDetail]
    omega
  have h := namedTripped_tripped s k
  obtain ⟨r, w, hw⟩ := hwBit_only s PWM_TRIPSTAT.TRIPPED k
  rw [hw] at h
  rw [← hd, Raised, tripInput_eq, State.raiseEv, h.tly_eq, h.gt_eq, h.now_eq]
  rfl

theorem tripInput_named {b : Fin 8} (h : (s.rf (PWM_TRIPCFG.BANKS k)).testBit b = true) :
    (s.tripInput k).rf (PWM_BANKSTAT.TRIPPED b) = 1 ∧ ((s.tripInput k).bank b).pend = none :=
  (namedTripped_tripped s k).tripped b (mem_bitList.2 ⟨b.isLt, h⟩)

theorem tripInput_unnamed {b : Fin 8} (h : (s.rf (PWM_TRIPCFG.BANKS k)).testBit b = false) :
    (s.tripInput k).reg (PWM_BANKSTAT.adr b) = s.reg (PWM_BANKSTAT.adr b) := by
  rw [tripInput_eq, raiseEv_reg, (namedTripped_tripped s k).reg_eq _ (bankstat_lt b.isLt) fun c hc e => ?_]
  · exact reg_wf_ne s _ _ _ (tripstat_ne_bankstat b).symm
  · have hc := (mem_bitList.1 hc).2
    rw [← bankstat_injective e, h] at hc
    exact absurd hc (by decide)

/-! ### The filtered input (R87, R89) -/

/-- The pad has been seen active, or inactive. -/
def State.padSeen (s : State) (k : Nat) (v : Bool) : State := { s with pwm := { s.pwm with tripIn := setBitTo s.pwm.tripIn k v } }

theorem padSeen_tripIn (s : State) (k : Nat) (v : Bool) : (s.padSeen k v).pwm.tripIn.testBit k = v :=
  (testBit_setBitTo _ _ _ _).trans (if_pos rfl)

theorem tripSee_rise (hv : s.vioDead 1 = false) (hi : s.pwm.tripIn.testBit k = true) (he : s.rb (PWM_TRIPCFG.EN k) = true)
    (hl : (s.rf PWM_TRIPSTAT.LEVEL).testBit k = false) : s.tripSee k = s.tripOn k := by
  simp [State.tripSee, hv, hi, he, hl]

theorem tripSee_inactive (hv : s.vioDead 1 = false) (hi : s.pwm.tripIn.testBit k = false) :
    s.tripSee k = if (s.rf PWM_TRIPSTAT.LEVEL).testBit k then s.tripOff k else s := by
  simp [State.tripSee, hv, hi]

/-- The pad seen active, and LEVEL set. -/
def State.levelSet (s : State) (k : Nat) : State := (s.padSeen k true).wbit PWM_TRIPSTAT.LEVEL k true

theorem levelSet_level (s : State) (k : Fin 4) : ((s.levelSet k).rf PWM_TRIPSTAT.LEVEL).testBit k = true :=
  (testBit_wbit _ (by decide) k.isLt _).trans (if_pos rfl)

theorem levelSet_tripcfg (s : State) (k : Fin 4) {f : Fld} (hf : f.lo + f.wd ≤ 32) (ha : f.adr = PWM_TRIPCFG.adr k) :
    (s.levelSet k).rf f = s.rf f :=
  rf_wf_other _ _ _ _ hf (.inl (ha ▸ tripcfg_ne_tripstat k))

theorem levelSet_only (s : State) (k : Nat) : RegsOnly (s.padSeen k true) (s.levelSet k) := RegsOnly.refl.wf

theorem levelSet_raised {src d : Nat} (h : Raised (s.levelSet k) t src d) : Raised s t src d := by
  obtain ⟨r, e⟩ := levelSet_only s k
  rw [e] at h
  exact h

/-- An assertion in the window: the hold is noted, LEVEL and BLANKSEEN are set. -/
def State.heldBack (s : State) (k : Nat) : State :=
  { s.levelSet k with pwm := { (s.levelSet k).pwm with blankHit := setBitTo (s.levelSet k).pwm.blankHit k true } }.hwBit
    PWM_TRIPSTAT.BLANKSEEN k

theorem heldBack_only (s : State) (k : Nat) : ∃ r w v x,
    s.heldBack k = { s with regs := r, hwSet := w, pwm := { s.pwm with tripIn := v, blankHit := x } } := by
  obtain ⟨r, h⟩ := levelSet_only s k
  obtain ⟨r', w, h'⟩ := hwBit_only { s.levelSet k with pwm := { (s.levelSet k).pwm with blankHit := setBitTo (s.levelSet k).pwm.blankHit k true } }
    PWM_TRIPSTAT.BLANKSEEN k
  exact ⟨r', w, _, _, by rw [State.heldBack, h', h]; rfl⟩

theorem heldBack_rf (s : State) (k : Nat) (f : Fld) : (s.heldBack k).rf f = ((s.levelSet k).wbit PWM_TRIPSTAT.BLANKSEEN k true).rf f := by
  rw [State.heldBack, hwBit_rf]
  rfl

theorem heldBack_regsBut (s : State) (k : Nat) : RegsBut [PWM_TRIPSTAT.LEVEL, PWM_TRIPSTAT.BLANKSEEN] s (s.heldBack k) :=
  .of_regs (t := (s.levelSet k).wbit PWM_TRIPSTAT.BLANKSEEN k true) rfl
    (((RegsBut.refl _ s).of_regs (u := s.padSeen k true) rfl).wbit (by simp) |>.wbit (by simp))

theorem tripAssert_next (hon : s.on = true) (he : s.rb (PWM_TRIPCFG.EN k) = true) (hv : s.vioDead 1 = false)
    (hl : (s.rf PWM_TRIPSTAT.LEVEL).testBit k = false) : exec (.tripAssert k) s = .next ((s.padSeen k true).tripOn k) := by
  have hsee : (s.padSeen k true).tripSee k = (s.padSeen k true).tripOn k := tripSee_rise hv (padSeen_tripIn s k true) he hl
  change s.whenB (s.on && s.rb (PWM_TRIPCFG.EN k)) (fun s => (s.padSeen k true).tripSee k) = _
  rw [whenB_true (by rw [hon, he]; rfl), hsee]

/-- Outside its window an assertion trips. -/
theorem tripOn_open (hb : s.blanked k = false) : (s.padSeen k true).tripOn k = (s.levelSet k).tripInput k :=
  if_neg (Bool.eq_false_iff.1 hb)

/-- Inside it, 51 is raised. -/
theorem tripOn_blanked (hb : s.blanked k = true) : (s.padSeen k true).tripOn k =
    (s.heldBack k).raiseEv 51 (pwmDetail (s.rf (PWM_TRIPCFG.BLKLEG k)) (s.rf (PWM_TRIPCFG.BLKLEG k) / 3) k) := by
  rw [← levelSet_tripcfg s k (f := PWM_TRIPCFG.BLKLEG k) (Nat.le_of_ble_eq_true rfl) rfl]
  exact if_pos hb

end Sys2Proof.Machine
end

section
/-! PROOF. Fine placement, interlocks and trip inputs (R83, R87 to R91). -/

namespace Sys2Proof.Machine

variable {s t u : State} {k : Fin 4}

/-! ### The end of a window (R89) -/

/-- The window gone, and with it the note of an assertion in it. -/
def State.windowEnds (s : State) (k : Nat) : State :=
  { s with pwm := { s.pwm with blank := mdel s.pwm.blank k, blankHit := setBitTo s.pwm.blankHit k false } }

theorem windowEnds_blank (s : State) (k : Nat) : mget 0 (s.windowEnds k).pwm.blank k = 0 := (mget_mdel _ _ _ _).trans (if_pos rfl)

theorem blankingClose_next (hw : mget 0 s.pwm.blank k ≠ 0) (hb : s.blanked k = false) : exec (.blankingClose k) s =
    .next (if s.pwm.blankHit.testBit k && (s.rf PWM_TRIPSTAT.LEVEL).testBit k then (s.windowEnds k).tripInput k else s.windowEnds k) := by
  change s.whenB (mget 0 s.pwm.blank k != 0 && !s.blanked k) (fun s => s.closeBlank k) = _
  exact whenB_true (by simp [hw, hb]) _

/-! ### Both switches on (R91) -/

theorem bothOnDetect_next {m : Fin 24} (hon : s.on = true)
    (hm : s.rf (PWM_LEGSET.MODE m) = modeComp ∨ s.rf (PWM_LEGSET.MODE m) = modeIndep) (hh : (s.leg m).hiOn = true)
    (hl : (s.leg m).loOn = true) : exec (.bothOnDetect m) s = .next (s.interlock m) := by
  change execBothOnDetect m s = _
  exact whenB_true (by simpa [hon, hh, hl] using hm) _

/-! ### The release (R87) -/

theorem tripRelease_next (hon : s.on = true) (hv : s.vioDead 1 = false) : exec (.tripInputRelease k) s =
    .next (if (s.rf PWM_TRIPSTAT.LEVEL).testBit k then (s.padSeen k false).tripOff k else s.padSeen k false) := by
  have hsee := tripSee_inactive (s := s.padSeen k false) (k := k) hv (padSeen_tripIn s k false)
  change s.whenOn (fun s => (s.padSeen k false).tripSee k) = _
  rw [whenOn_on hon, hsee]
  rfl

theorem padSeen_regsBut {l : List Fld} (s : State) (k : Nat) (v : Bool) : RegsBut l s (s.padSeen k v) := .of_regs rfl (.refl _ s)

theorem tripOff_rf (s : State) (k : Nat) (f : Fld) : (s.tripOff k).rf f = (s.wbit PWM_TRIPSTAT.LEVEL k false).rf f := rfl

theorem tripOff_only (s : State) (k : Nat) :
    ∃ r x, s.tripOff k = { s with regs := r, pwm := { s.pwm with blankHit := x } } := ⟨_, _, rfl⟩

theorem tripOff_regsBut (s : State) (k : Nat) : RegsBut [PWM_TRIPSTAT.LEVEL] s (s.tripOff k) :=
  .of_regs (t := s.wbit PWM_TRIPSTAT.LEVEL k false) rfl ((RegsBut.refl _ s).wbit (by simp))

/-- Settles O25: calibrations, latches, trips and windows are each one write of the bank's, the leg's or the input's status, with its raise. -/
theorem pwmTripsAndInterlock : Obligations.PwmTripsAndInterlock := by
  refine ⟨?stopped, ?running, ?badSoon, ?badLate, ?swap, ?bothOn, ?trip, ?inWindow, ?ends, ?lasts, ?release⟩
  case stopped =>
    intro s b x hon h28 h36 hr
    refine ⟨_, calibration_stopped hon ⟨h28, h36⟩ hr, ?_, ?_, fun c hc => ?_, (calibrated_regsBut (by simp) s b none).wbit (by simp),
      (calibrated_only s b none).wbit.frame⟩
    · rw [testBit_calok _ _ _ b.isLt, if_pos rfl]
    · rw [calok_apart_calcnt, calibrated_rf, calCounted_calcnt]
    · rw [testBit_calok _ _ _ c.isLt, if_neg (Fin.val_ne_of_ne hc), calibrated_rf, calCounted_calok]
  case running =>
    intro s b x hon h28 h36 hr
    refine ⟨_, calibration_running hon ⟨h28, h36⟩ hr, ?_, ?_, calibrated_regsBut (by simp) s b _, (calibrated_only s b _).frame⟩
    · rw [calibrated_bank]
    · rw [calibrated_rf, calCounted_calcnt]
  case badSoon =>
    intro s b x hon hx hg
    exact ⟨_, calibration_bad_soon hon hx hg, calCounted_calcnt s, calCounted_regsBut (by simp), rfl⟩
  case badLate =>
    intro s b x hon hx hg he
    exact ⟨_, calibration_bad_late hon hx hg he, calEpisode_begun s b⟩
  case swap =>
    intro s b g hg hlt
    refine ⟨_, lineSwap_next hg hlt, ?_, ?_, (RegsBut.refl _ s).setBank.wbit (by simp), PwmOnly.refl.setBank.wbit.frame⟩
    · rw [testBit_calok _ _ _ b.isLt, if_pos rfl]
    · exact congrArg BankSt.swapAt ((bank_setBank _ _ _ _).trans (if_pos rfl))
  case bothOn =>
    intro s m hon hmode hh hl
    obtain ⟨r, h⟩ := interlock_only s m
    refine ⟨s.interlock m, bothOnDetect_next hon hmode hh hl, ?_, ?_, ?_, ?_, ?_, ?_, interlock_raised s m, interlock_regsBut s m, ?_⟩
    · rw [interlock_rf, legOff_latch, latched]
    · rw [interlock_rf, legOff_offcause_of_latched (latched s m)]
    · rw [interlock_rf, legOff_primed]
    · rw [interlock_leg, LegSt.off]
    · rw [interlock_leg, LegSt.off]
    · rw [interlock_leg, LegSt.off]
    · rw [h]
      rfl
  case trip =>
    intro s k hon he hv hl hb
    have hbanks : (s.levelSet k).rf (PWM_TRIPCFG.BANKS k) = s.rf (PWM_TRIPCFG.BANKS k) :=
      levelSet_tripcfg s k (Nat.le_of_ble_eq_true rfl) rfl
    refine ⟨(s.levelSet k).tripInput k, (tripAssert_next hon he hv hl).trans (by rw [tripOn_open hb]), ?_, tripInput_tripped _ k,
      fun b hn => tripInput_named (hbanks ▸ hn), fun b hn => ?_, levelSet_raised (hbanks ▸ tripInput_raised (s.levelSet k) k)⟩
    · rw [tripInput_level, levelSet_level]
    · rw [tripInput_unnamed (hbanks ▸ hn)]
      exact reg_wf_ne _ _ _ _ (tripstat_ne_bankstat b).symm
  case inWindow =>
    intro s k hon he hv hl hb
    obtain ⟨r, w, v, x, h⟩ := heldBack_only s k
    refine ⟨_, (tripAssert_next hon he hv hl).trans (by rw [tripOn_blanked hb]), ?_, ?_, ?_,
      .of_regs (raiseEv_regs _ _ _) (heldBack_regsBut s k), ?_⟩
    · rw [raiseEv_rf, heldBack_rf, wbit_eq, rf_wf_other _ _ _ _ (by decide) (.inr (by decide)), levelSet_level]
    · rw [raiseEv_rf, heldBack_rf, testBit_wbit _ (by decide) k.isLt, if_pos rfl]
    · rw [h]
      rfl
    · rw [h]
      rfl
  case ends =>
    intro s k hw hb hor
    refine ⟨s.windowEnds k, (blankingClose_next hw hb).trans ?_, windowEnds_blank s k, rfl⟩
    rw [if_neg]
    rcases hor with h | h <;> simp [h]
  case lasts =>
    intro s k hw hb hl hh
    refine ⟨(s.windowEnds k).tripInput k, (blankingClose_next hw hb).trans (by rw [hl, hh]; rfl), ?_, tripInput_tripped _ k, ?_⟩
    · rw [tripInput_blank, windowEnds_blank]
    · exact tripInput_raised (s.windowEnds k) k
  case release =>
    intro s k hon hv
    cases hl : (s.rf PWM_TRIPSTAT.LEVEL).testBit k
    · exact ⟨s.padSeen k false, (tripRelease_next hon hv).trans (by rw [hl]; rfl), hl, rfl, fun _ _ => rfl, padSeen_regsBut s k false, rfl⟩
    · obtain ⟨r, x, h⟩ := tripOff_only (s.padSeen k false) k
      refine ⟨(s.padSeen k false).tripOff k, (tripRelease_next hon hv).trans (by rw [hl]; rfl), ?_, ?_, fun j hj => ?_,
        (padSeen_regsBut s k false).trans (tripOff_regsBut _ k), by rw [h]; rfl⟩
      · rw [tripOff_rf, testBit_wbit _ (by decide) k.isLt, if_pos rfl]
      · rw [tripOff_rf, wbit_eq, rf_wf_other _ _ _ _ (by decide) (.inr (by decide))]
        rfl
      · rw [tripOff_rf, testBit_wbit _ (by decide) j.isLt, if_neg (Fin.val_ne_of_ne hj)]
        rfl

end Sys2Proof.Machine
end

section
/-! PROOF. Frames of a gate link, no injection rule being armed: what a port sends, and what stands beside it. -/

namespace Sys2Proof.Machine

variable {s t u : State} {n : Nat}

/-! ### No rule is armed (R349) -/

/-- No injection rule is armed and no frame is held. -/
structure State.RulesIdle (s : State) : Prop where
  arm : s.rf AST_INJCTL.ARM = 0
  held : s.ast.held = []

/-- A frame received meets no rule: it is taken at once. -/
theorem recvInj_free (h : s.RulesIdle) {target port mv seq : Nat} {c : Instr} {flip : Nat → Bool → Instr → Option Instr}
    {shift : Nat → Instr → Instr} {run : Instr → State → State} : s.recvInj target port mv seq c flip shift run = run c s := by
  have hi : s.inject target port mv seq (s.rxGt c) = (s, {}) := if_pos h.arm
  have hh : s.heldAt target port = [] := by rw [State.heldAt, h.held]; rfl
  have ha : ({ s with ast := { s.ast with held := [] } } : State) = s := by rw [← h.held]
  simp only [State.recvInj, hi, State.injPass, hh, h.held, List.filter_nil, ha, List.foldl_nil]
  rfl

/-! ### Steps of the ports' own state and of what is sent -/

/-- Only the gate links' own state and what the lane has sent differ. -/
def LinkOnly (s t : State) : Prop := ∃ g o, t = { s with glk := g, outbox := o }

theorem LinkOnly.refl : LinkOnly s s := ⟨_, _, rfl⟩

theorem LinkOnly.trans (h : LinkOnly s t) (k : LinkOnly t u) : LinkOnly s u := by
  obtain ⟨g, o, rfl⟩ := h
  obtain ⟨g', o', rfl⟩ := k
  exact ⟨_, _, rfl⟩

theorem LinkOnly.setPort (h : LinkOnly s t) {p : PortSt} : LinkOnly s (t.setPort n p) := h.trans ⟨_, _, rfl⟩

theorem LinkOnly.emit (h : LinkOnly s t) {m : OutMsg} : LinkOnly s (t.emit m) := h.trans ⟨_, _, rfl⟩

theorem LinkOnly.frame (h : LinkOnly s t) : t = { s with glk := t.glk, outbox := t.outbox } := by
  obtain ⟨g, o, rfl⟩ := h
  rfl

theorem LinkOnly.rf_eq (h : LinkOnly s t) (f : Fld) : t.rf f = s.rf f := by
  obtain ⟨g, o, rfl⟩ := h
  rfl

theorem LinkOnly.regsBut (h : LinkOnly s t) {l : List Fld} : RegsBut l s t := fun f _ _ => h.rf_eq f

theorem LinkOnly.rulesIdle (h : LinkOnly s t) (hs : s.RulesIdle) : t.RulesIdle := by
  obtain ⟨g, o, rfl⟩ := h
  exact ⟨hs.arm, hs.held⟩

theorem setPort_port (s : State) (n : Nat) (p : PortSt) : (s.setPort n p).port n = p := mget_mset_same _ _ _ _

/-! ### Frames sent -/

/-- The frame of a kind with its check. -/
def glkFrame (n kind : Nat) (l : List Byte) : OutMsg := .glk n kind l (glkCheck kind l)

/-- The port's transmit pair differs, and when it last sent a frame. -/
def PortSt.SentOn (p q : PortSt) : Prop := ∃ d f l, q = { p with lastDown := d, freeAt := f, line := l }

/-- One frame more, sent by a port that is else as it was. -/
structure SentFrom (n : Nat) (s t : State) (l : List OutMsg) (p : PortSt) : Prop where
  only : LinkOnly s t
  sent : Sent s t l
  port : p.SentOn (t.port n)

/-- The port as a frame of a kind that ends at a time leaves it. -/
def PortSt.sending (p : PortSt) (now kind e : Nat) : PortSt :=
  { p with lastDown := now, freeAt := e, line := p.line.filter (fun f => decide (now < f.2)) ++ [(kind, e)] }

/-- The port was set first. -/
theorem SentFrom.of_setPort {p q : PortSt} {l : List OutMsg} (h : SentFrom n (s.setPort n p) t l q) : SentFrom n s t l q :=
  ⟨LinkOnly.refl.setPort.trans h.only, h.sent, h.port⟩

/-- A frame sent. -/
theorem glkSend_free (h : s.RulesIdle) (n kind : Nat) (l : List Byte) :
    s.glkSend n kind l = (s.setPort n ((s.port n).sending s.now kind (s.sentBy n kind))).emit (glkFrame n kind l) := by
  have hi := LinkOnly.refl.setPort (n := n) (p := (s.port n).sending s.now kind (s.sentBy n kind)) |>.rulesIdle h
  exact (if_congr Iff.rfl rfl (sendInj_free hi.arm hi.held)).trans (ite_self _)

/-- A frame sent by a port first set. -/
theorem setSend_sentFrom (h : s.RulesIdle) (n kind : Nat) (l : List Byte) (p : PortSt) :
    SentFrom n s ((s.setPort n p).glkSend n kind l) [glkFrame n kind l] p := by
  rw [glkSend_free (LinkOnly.refl.setPort.rulesIdle h), setPort_port]
  exact ⟨LinkOnly.refl.setPort.setPort.emit, rfl, _, _, _, setPort_port _ n _⟩

theorem glkSend_sentFrom (h : s.RulesIdle) (n kind : Nat) (l : List Byte) :
    SentFrom n s (s.glkSend n kind l) [glkFrame n kind l] (s.port n) := by
  rw [glkSend_free h]
  exact ⟨LinkOnly.refl.setPort.emit, rfl, _, _, _, setPort_port s n _⟩

theorem glkSend_lastDown (h : s.RulesIdle) (n kind : Nat) (l : List Byte) : ((s.glkSend n kind l).port n).lastDown = s.now := by
  rw [glkSend_free h]
  exact congrArg PortSt.lastDown (setPort_port s n _)

/-- The RELEASE that waits on a port (R123). -/
def PortSt.release (n : Nat) (p : PortSt) : List OutMsg := if p.relDue = 0 then [] else [glkFrame n gfRelease [BitVec.ofNat 8 p.relDue]]

theorem relFirst_sentFrom (h : s.RulesIdle) (n : Nat) :
    SentFrom n s (s.relFirst n) ((s.port n).release n) { s.port n with relDue := 0 } := by
  rw [State.relFirst, PortSt.release]
  split
  · next h0 => exact ⟨.refl, (List.append_nil _).symm, _, _, _, by rw [← h0]⟩
  · exact setSend_sentFrom h n gfRelease _ _

/-- A frame behind the RELEASE that waits (R123), from a port first set. -/
theorem relSend_sentFrom (h : s.RulesIdle) (n kind : Nat) (l : List Byte) (p : PortSt) :
    SentFrom n s (((s.setPort n p).relFirst n).glkSend n kind l) (p.release n ++ [glkFrame n kind l]) { p with relDue := 0 } := by
  obtain ⟨ho, hs, d, f, q, hp⟩ := relFirst_sentFrom (LinkOnly.refl.setPort.rulesIdle h) (s := s.setPort n p) n
  rw [setPort_port] at hs hp
  obtain ⟨ho', hs', d', f', q', hp'⟩ := glkSend_sentFrom ((LinkOnly.refl.setPort.trans ho).rulesIdle h) n kind l
  refine ⟨LinkOnly.refl.setPort.trans (ho.trans ho'), ?_, d', f', q', by rw [hp', hp]⟩
  rw [Sent, hs', hs, List.append_assoc]
  rfl

/-- An ECHO with the next sequence number (R108). -/
def echoFrame (n : Nat) (p : PortSt) : OutMsg := glkFrame n gfEcho [BitVec.ofNat 8 ((p.echoSeq + 1) % 256)]

/-- The port as an ECHO, and the RELEASE ahead of it, leave it. -/
def PortSt.echoed (p : PortSt) : PortSt := { p with echoSeq := (p.echoSeq + 1) % 256, echoOut := true, echoDue := false, relDue := 0 }

theorem sendEcho_sentFrom (h : s.RulesIdle) (n : Nat) :
    SentFrom n s (s.sendEcho n) ((s.port n).release n ++ [echoFrame n (s.port n)]) (s.port n).echoed :=
  relSend_sentFrom h n gfEcho _ _

theorem setEcho_sentFrom (h : s.RulesIdle) (n : Nat) (p : PortSt) :
    SentFrom n s ((s.setPort n p).sendEcho n) (p.release n ++ [echoFrame n p]) p.echoed := by
  have he := (sendEcho_sentFrom (LinkOnly.refl.setPort.rulesIdle h) n (s := s.setPort n p)).of_setPort
  rwa [setPort_port] at he

theorem release_of_none {p : PortSt} (h : p.relDue = 0) : p.release n = [] := if_pos h

/-- A SYNC with GT and the one-way delay (R108). -/
def State.syncFrame (s : State) (n : Nat) : OutMsg := glkFrame n gfSync (leBytes 8 s.gt ++ leBytes 4 (s.rn (GLK_DELAY.adr n)))

/-- The port as a SYNC leaves it. -/
def PortSt.synced (p : PortSt) (now : Nat) : PortSt := { p with lastSync := now, syncAt := some (p.syncAt.getD now), syncDue := false }

theorem setSync_sentFrom (h : s.RulesIdle) (n : Nat) (p : PortSt) :
    SentFrom n s ((s.setPort n p).sendSync n) [s.syncFrame n] (p.synced s.now) := by
  have hs : SentFrom n s ((s.setPort n p).sendSync n) [s.syncFrame n] (((s.setPort n p).port n).synced s.now) :=
    (setSend_sentFrom (LinkOnly.refl.setPort.rulesIdle h) n gfSync _ _).of_setPort
  rwa [setPort_port] at hs

/-! ### The next frame that waits (R112) -/

/-- The transmit pair is free and no command and no RELEASE waits. -/
structure State.LineIdle (s : State) (n : Nat) : Prop where
  free : s.lineFree n = true
  queue : (s.port n).queue = []
  rel : (s.port n).relDue = 0

/-- The same for a port set with the same line, commands and RELEASE. -/
theorem LineIdle.setPort (h : s.LineIdle n) {p : PortSt} (hf : p.freeAt = (s.port n).freeAt) (hq : p.queue = (s.port n).queue)
    (hr : p.relDue = (s.port n).relDue) : (s.setPort n p).LineIdle n := by
  refine ⟨?_, ?_, ?_⟩
  · rw [State.lineFree, setPort_port, hf]; exact h.free
  · rw [setPort_port, hq, h.queue]
  · rw [setPort_port, hr, h.rel]

theorem glkNext_echo (h : s.LineIdle n) (hu : s.portUp n = true) (hd : (s.port n).echoDue = true) (hc : s.frameClear n gfEcho = true) :
    s.glkNext n = s.sendEcho n := by
  simp [State.glkNext, h.free, h.queue, h.rel, State.portTalks, hu, hd, hc]

theorem glkNext_sync (h : s.LineIdle n) (hu : s.portUp n = true) (he : (s.port n).echoDue = false) (hd : (s.port n).syncDue = true)
    (hc : s.frameClear n gfSync = true) : s.glkNext n = s.sendSync n := by
  simp [State.glkNext, h.free, h.queue, h.rel, State.portTalks, hu, he, hd, hc]

end Sys2Proof.Machine
end

section
/-! PROOF. Level mode (R116): the switch changes planned up to an instant are made. -/

namespace Sys2Proof.Machine

variable {s t u : State} {x m : Nat}

/-- Only the legs' own state differs. -/
def LegsOnly (s t : State) : Prop := ∃ l, t = { s with pwm := { s.pwm with legs := l } }

theorem LegsOnly.refl : LegsOnly s s := ⟨s.pwm.legs, rfl⟩

theorem LegsOnly.levelLeg (h : LegsOnly s t) : LegsOnly s (t.levelLeg x m) := by
  obtain ⟨l, rfl⟩ := h
  exact ⟨_, rfl⟩

theorem LegsOnly.levelLegs (h : LegsOnly s t) (l : List Nat) : LegsOnly s (l.foldl (State.levelLeg · x) t) := by
  induction l generalizing t with
  | nil => exact h
  | cons m l ih => exact ih h.levelLeg

/-- No edge up to an instant is planned for a leg. -/
def State.EdgesPast (s : State) (x m : Nat) : Prop := ∀ e ∈ s.edgesAhead m, x < e.t

theorem mem_edgesAhead {e : Edge} (h : e ∈ s.edgesAhead m) : e ∈ (s.leg m).plan ∨ e ∈ (s.leg m).next := by
  dsimp only [State.edgesAhead] at h
  split at h
  · exact (List.mem_append.1 h).imp_left List.mem_of_mem_filter
  · exact .inl h

theorem levelLeg_leg (s : State) (x m : Nat) : ∃ l : LegSt, (s.levelLeg x m).leg m =
    { l with plan := l.plan.filter (fun e => !decide (e.t ≤ x)), next := l.next.filter (fun e => !decide (e.t ≤ x)) } :=
  ⟨_, mget_mset_same _ _ _ _⟩

theorem levelLeg_past (s : State) (x m : Nat) : (s.levelLeg x m).EdgesPast x m := by
  intro e he
  obtain ⟨l, hl⟩ := levelLeg_leg s x m
  have hmem := mem_edgesAhead he
  rw [hl] at hmem
  rcases hmem with h | h <;> simpa using (List.mem_filter.1 h).2

theorem levelLeg_edgesAhead {k : Nat} (hk : m ≠ k) : (s.levelLeg x k).edgesAhead m = s.edgesAhead m := by
  have hleg : (s.levelLeg x k).leg m = s.leg m := mget_mset_ne _ _ _ hk
  unfold State.edgesAhead
  rw [hleg]
  rfl

/-- Every leg of a list has made its edges up to the instant. -/
theorem levelLegs_past (l : List Nat) (s : State) : ∀ m, m ∈ l ∨ s.EdgesPast x m → (l.foldl (State.levelLeg · x) s).EdgesPast x m := by
  induction l generalizing s with
  | nil => exact fun m h => h.resolve_left List.not_mem_nil
  | cons k l ih =>
    intro m h
    refine ih _ m ?_
    by_cases hk : m = k
    · exact .inr (hk ▸ levelLeg_past s x m)
    · refine h.imp (fun h => (List.mem_cons.1 h).resolve_left hk) fun h => ?_
      rwa [State.EdgesPast, levelLeg_edgesAhead hk]

/-- The switch changes of a bank up to an instant made. -/
def State.levelMade (s : State) (b x : Nat) : State := (s.drivenLegs b).foldl (State.levelLeg · x) s

theorem levelMade_only (s : State) (b x : Nat) : LegsOnly s (s.levelMade b x) := LegsOnly.refl.levelLegs _

theorem levelMade_past (s : State) (b x : Nat) : ∀ m ∈ (s.levelMade b x).drivenLegs b, (s.levelMade b x).EdgesPast x m := by
  obtain ⟨l, h⟩ := levelMade_only s b x
  intro m hm
  rw [h] at hm
  exact levelLegs_past _ s m (.inl hm)

theorem LinkOnly.levelMask_eq (h : LinkOnly s t) (b : Nat) : t.levelMask b = s.levelMask b := by
  obtain ⟨g, o, rfl⟩ := h
  rfl

theorem LinkOnly.edgesPast (h : LinkOnly s t) {b : Nat} (hs : ∀ m ∈ s.drivenLegs b, s.EdgesPast x m) :
    ∀ m ∈ t.drivenLegs b, t.EdgesPast x m := by
  obtain ⟨g, o, rfl⟩ := h
  exact hs

/-- The LEVEL frame of the new switch states sent, with the RELEASE that waits ahead of it. -/
def State.levelSent (s : State) (b mask : Nat) : State :=
  ((s.setPort b { s.port b with level := mask }).relFirst b).glkSend b gfLevel [BitVec.ofNat 8 mask]

theorem levelSent_sentFrom (h : s.RulesIdle) (b mask : Nat) : SentFrom b s (s.levelSent b mask)
    ((s.port b).release b ++ [glkFrame b gfLevel [BitVec.ofNat 8 mask]]) { s.port b with level := mask, relDue := 0 } :=
  relSend_sentFrom h b gfLevel _ _

/-- Switch changes are made, and their LEVEL frame is sent if it changes the level (R116). -/
theorem levelAt_cases (s : State) (b x : Nat) : s.levelAt b x =
    if (s.levelMade b x).levelMask b = ((s.levelMade b x).port b).level then s.levelMade b x
    else (s.levelMade b x).levelSent b ((s.levelMade b x).levelMask b) := rfl

/-- The port as the sample instants that have come leave it. -/
def PortSt.sampled (p : PortSt) (gt : Nat) : PortSt :=
  { p with levelSamples := p.levelSamples.filter (fun x => !decide (x ≤ gt))
           setsDue := p.setsDue ++ p.levelSamples.filter (fun x => decide (x ≤ gt)) }

theorem levelSample_sentFrom (h : s.RulesIdle) (b : Nat) : SentFrom b s (s.levelSample b)
    ((s.port b).release b ++ [glkFrame b gfLevel [BitVec.ofNat 8 (s.port b).level]]) { (s.port b).sampled s.gt with relDue := 0 } :=
  relSend_sentFrom h b gfLevel _ ((s.port b).sampled s.gt)

end Sys2Proof.Machine
end

section
/-! PROOF. Echo exchanges, SYNC frames, keepalives and level mode (R102, R108, R112, R116, R118, R123). -/

namespace Sys2Proof.Machine

variable {s : State} {n : Fin 8}

/-- An echo reply met by no rule is taken at once. -/
theorem echoreplyReceive_next (hon : s.on = true) (h : s.RulesIdle) (q : Byte) (x : Nat) :
    exec (.echoreplyReceive n q x) s = .next (s.echoIn n q x) := by
  change s.whenOn (fun s => s.glkUpIn n 0x15 (.echoreplyReceive (Fin.ofNat 8 n) q x)) = _
  rw [whenOn_on hon, State.glkUpIn, recvInj_free h, Fin.ofNat_eq_cast, Fin.cast_val_eq_self]
  rfl

/-- The port as one of the first 15 replies in TRAIN leaves it. -/
def PortSt.replied (p : PortSt) (x : Nat) : PortSt := { p with echoOut := false, echoes := p.echoes + 1, echoSum := p.echoSum + x }

theorem echoIn_train {q : Byte} {x : Nat} (hst : s.portSt n = glTrain) (ho : (s.port n).echoOut = true) (hq : q.toNat = (s.port n).echoSeq)
    (hlt : (s.port n).echoes < 15) : s.echoIn n q x =
      ((s.setPort n { s.port n with echoOut := false }).setPort n ((s.port n).replied x)).sendEcho n := by
  have hst' (p : PortSt) : (s.setPort n p).portSt n = glTrain := hst
  simp [State.echoIn, PortSt.replied, ho, hq, hst, hst', setPort_port, hlt]

/-- The port with the exchange of a chain due, and with a SYNC due. -/
def PortSt.echoWaits (p : PortSt) (chain : Nat) : PortSt := { p with recheckGt := chain, echoDue := true }

def PortSt.syncWaits (p : PortSt) : PortSt := { p with syncDue := true }

theorem echoRecheck_next (hu : s.portUp n = true) (hte : s.portTe n = true) (hg : (s.port n).recheckGt < s.gt / 500000) :
    exec (.echoRecheck n) s = .next ((s.setPort n ((s.port n).echoWaits (s.gt / 500000))).glkNext n) := by
  change execEchoRecheck n s = _
  rw [execEchoRecheck, whenB_true (by simp [hu, hte, hg])]
  rfl

theorem syncSend_next (hu : s.portUp n = true) (hte : s.portTe n = true) (ht : (s.port n).lastSync + 10000 ≤ s.now) :
    exec (.syncSend n) s = .next ((s.setPort n (s.port n).syncWaits).glkNext n) := by
  change execSyncSend n s = _
  rw [execSyncSend, whenB_true (by simp [hu, hte, ht])]
  rfl

/-- The payload of the frame that keeps a link alive. -/
def State.keepBytes (s : State) (n : Nat) : List Byte := if s.portTe n then [] else [BitVec.ofNat 8 (s.port n).level]

theorem linkKeepalive_next (hl : s.LineIdle n) (hu : s.portUp n = true) (ht : (s.port n).lastDown + 5000 ≤ s.now)
    (hc : s.frameClear n (s.keepKind n) = true) : exec (.linkKeepalive n) s = .next (s.glkSend n (s.keepKind n) (s.keepBytes n)) := by
  have hd : s.keepDue n = true := by simp [State.keepDue, ht]
  change execLinkKeepalive n s = _
  rw [execLinkKeepalive, whenB_true (by simp [hu, hd, hl.free, hl.queue, hc]), hl.rel]
  rfl

theorem keepFrame (s : State) (n : Nat) : glkFrame n (s.keepKind n) (s.keepBytes n) =
    if s.portTe n then glkFrame n gfIdle [] else glkFrame n gfLevel [BitVec.ofNat 8 (s.port n).level] := by
  rw [State.keepKind, State.keepBytes]
  split <;> rfl

/-- The next planned switch change whose LEVEL frame is due (R116). -/
def State.levelDue (s : State) (n : Nat) : Option Nat := (s.nextEdge n).filter (fun t => decide (t ≤ 32 * s.gt + 31 + s.levelLead n))

theorem levelSend_change {x : Nat} (hu : s.portUp n = true) (hte : s.portTe n = false) (hb : s.linkBank n = true)
    (hx : s.levelDue n = some x) : exec (.levelSend n) s = .next (s.levelAt n x) := by
  change execLevelSend n s = _
  rw [State.levelDue] at hx
  rw [execLevelSend, whenB_true (by simp [hu, hte, hb]), hx]

theorem levelSend_sample (hu : s.portUp n = true) (hte : s.portTe n = false) (hb : s.linkBank n = true)
    (hx : s.levelDue n = none) (ha : (s.port n).levelSamples.any (fun x => decide (x ≤ s.gt)) = true) :
    exec (.levelSend n) s = .next (s.levelSample n) := by
  change execLevelSend n s = _
  rw [State.levelDue] at hx
  rw [execLevelSend, whenB_true (by simp [hu, hte, hb]), hx]
  exact congrArg _ (if_pos ha)

/-- Settles O10: each clause is one frame sent, behind a RELEASE that waits where it may wait. -/
theorem gateLinkTime : Obligations.GateLinkTime := by
  refine ⟨?reply, ?recheck, ?sync, ?keep, ?sample, ?change, ?samples⟩
  case reply =>
    intro s n q x hon harm hheld hst ho hq hlt
    have hi : s.RulesIdle := ⟨harm, hheld⟩
    obtain ⟨honly, hsent, d, f, l, hp⟩ :=
      (setEcho_sentFrom (LinkOnly.refl.setPort.rulesIdle hi) n ((s.port n).replied x)
        (s := s.setPort n { s.port n with echoOut := false })).of_setPort
    refine ⟨_, (echoreplyReceive_next hon hi q x).trans (by rw [echoIn_train hst ho hq hlt]), ?_, ?_, ?_, ?_, ?_, hsent,
      honly.regsBut, honly.frame⟩ <;> rw [hp] <;> rfl
  case recheck =>
    intro s n harm hheld hu hte hg hf hq hr hc
    have hl : (s.setPort n ((s.port n).echoWaits (s.gt / 500000))).LineIdle n := LineIdle.setPort ⟨hf, hq, hr⟩ rfl rfl rfl
    have hd : ((s.setPort n ((s.port n).echoWaits (s.gt / 500000))).port n).echoDue = true := by rw [setPort_port]; rfl
    have h := setEcho_sentFrom ⟨harm, hheld⟩ n ((s.port n).echoWaits (s.gt / 500000))
    rw [release_of_none (p := (s.port n).echoWaits _) hr] at h
    obtain ⟨honly, hsent, d, f, l, hp⟩ := h
    refine ⟨_, (echoRecheck_next hu hte hg).trans (by rw [glkNext_echo hl hu hd hc]), ?_, ?_, hsent, honly.frame⟩ <;> rw [hp] <;> rfl
  case sync =>
    intro s n harm hheld hu hte ht hf hq hr he hc
    have hl : (s.setPort n (s.port n).syncWaits).LineIdle n := LineIdle.setPort ⟨hf, hq, hr⟩ rfl rfl rfl
    have hn : ((s.setPort n (s.port n).syncWaits).port n).echoDue = false := by rw [setPort_port]; exact he
    have hd : ((s.setPort n (s.port n).syncWaits).port n).syncDue = true := by rw [setPort_port]; rfl
    obtain ⟨honly, hsent, d, f, l, hp⟩ := setSync_sentFrom ⟨harm, hheld⟩ n (s.port n).syncWaits
    exact ⟨_, (syncSend_next hu hte ht).trans (by rw [glkNext_sync hl hu hn hd hc]), hsent, by rw [hp]; rfl, honly.frame⟩
  case keep =>
    intro s n harm hheld hu ht hf hq hr hc
    have hi : s.RulesIdle := ⟨harm, hheld⟩
    obtain ⟨honly, hsent, -⟩ := glkSend_sentFrom hi n (s.keepKind n) (s.keepBytes n)
    rw [keepFrame] at hsent
    exact ⟨_, linkKeepalive_next ⟨hf, hq, hr⟩ hu ht hc, hsent, glkSend_lastDown hi n _ _, honly.frame⟩
  case sample =>
    intro s n harm hheld hu hte hb hnone hany
    obtain ⟨honly, hsent, d, f, l, hp⟩ := levelSample_sentFrom ⟨harm, hheld⟩ n
    refine ⟨_, levelSend_sample hu hte hb hnone hany, hsent, ?_, ?_, ?_, ?_, honly.regsBut, honly.frame⟩ <;> rw [hp] <;> rfl
  case change =>
    intro s n x harm hheld hu hte hb hsome
    have hnext := levelSend_change hu hte hb hsome
    have hpast := levelMade_past s n x
    obtain ⟨l, hl⟩ := levelMade_only s n x
    have hport : (s.levelMade n x).port n = s.port n := by rw [hl]; rfl
    have hregs : RegsBut [] s (s.levelMade n x) := .of_regs (by rw [hl]) (.refl _ s)
    rw [levelAt_cases, hport] at hnext
    split at hnext
    · next heq => exact ⟨_, hnext, by rw [hport, heq], by rw [if_pos heq, hl], hpast, by rw [hport], hregs, by rw [hl]⟩
    · next hne =>
      obtain ⟨honly, hsent, d, f, q, hp⟩ :=
        levelSent_sentFrom (by rw [hl]; exact ⟨harm, hheld⟩) n ((s.levelMade n x).levelMask n) (s := s.levelMade n x)
      rw [hport] at hsent hp
      refine ⟨_, hnext, ?_, ?_, honly.edgesPast hpast, by rw [hp], hregs.trans honly.regsBut, ?_⟩
      · rw [honly.levelMask_eq, hp]
      · rw [honly.levelMask_eq, if_neg hne, Sent, hsent, hl]
        rfl
      · obtain ⟨g, o, h⟩ := honly
        rw [h, hl]
  case samples =>
    intro s req n hon
    refine ⟨s.sampaRead req n, ?_, rfl, mget_mset_same _ _ _ _, rfl⟩
    change execGlkSampaRead req n s = _
    exact whenOn_on hon _

end Sys2Proof.Machine
end

section
/-! PROOF. What a bring-up attempt of a gate link comes to: it starts, settles, fails or ends in UP (R103 to R107). -/

namespace Sys2Proof.Machine

variable {s t u : State} {n : Fin 8}

/-! ### Fields that stand beside those written -/

theorem RegsBut.setPort {l : List Fld} {n : Nat} {p : PortSt} (h : RegsBut l s t) : RegsBut l s (t.setPort n p) := .of_regs rfl h

theorem RegsBut.raiseEv {l : List Fld} {src d : Nat} (h : RegsBut l s t) : RegsBut l s (t.raiseEv src d) := .of_regs rfl h

/-- A field after one of the same register is written below or above it. -/
theorem rf_wf_beside (s : State) (f g : Fld) (v : Nat) (h : f.lo + f.wd ≤ g.lo ∨ g.lo + g.wd ≤ f.lo) (hg : g.lo + g.wd ≤ 32) :
    (s.wf f v).rf g = s.rf g := rf_wf_other s f g v hg (.inr h)

/-- Bits of a register that lie below or above those of each listed field. -/
theorem apart_of_bits (f : Fld) (l : List Fld) (h : l.all (fun g => (f.lo + f.wd).ble g.lo || (g.lo + g.wd).ble f.lo) = true) :
    ∀ g ∈ l, f.apart g := fun g hg =>
  .inr ((Bool.or_eq_true _ _ ▸ List.all_eq_true.1 h g hg).imp Nat.le_of_ble_eq_true Nat.le_of_ble_eq_true)

/-- A field that is written, and then stands. -/
theorem RegsBut.rf_written {l : List Fld} {f : Fld} {v : Nat} (h : RegsBut l (s.wf f v) t) (hl : ∀ g ∈ l, f.apart g)
    (hf : f.lo + f.wd ≤ 32 := by exact Nat.le_of_ble_eq_true rfl) : t.rf f = v % 2 ^ f.wd := (h f hf hl).trans (rf_wf_same s f v hf)

/-! ### An attempt starts (R103, R106) -/

/-- A port's attempt starts: in LOCK, one try more. -/
structure AttemptStarts (n : Nat) (s t : State) : Prop where
  state_eq : t.portSt n = glLock
  tries_eq : t.rf (GLK_LINKSTAT.TRIES n) = min (s.rf (GLK_LINKSTAT.TRIES n) + 1) 3
  attemptAt_eq : (t.port n).attemptAt = s.now
  retryAt_eq : (t.port n).retryAt = none
  regs : RegsBut [GLK_LINKSTAT.STATE n, GLK_LINKSTAT.TRIES n] s t
  frame : t = { s with regs := t.regs, glk := t.glk }

/-- The port at the start of an attempt. -/
def PortSt.attempt (p : PortSt) (now : Nat) : PortSt :=
  { p with attemptAt := now, syncAt := none, retryAt := none, cfg := [], ackAt := none, locked := false, echoes := 0, echoSum := 0
           echoOut := false, queue := [], freeAt := now, line := [], echoDue := false, syncDue := false }

theorem glkAttempt_only (s : State) (n : Nat) : RegsOnly (s.setPort n ((s.port n).attempt s.now)) (s.glkAttempt n) := RegsOnly.refl.incSat.wf

theorem glkAttempt_port (s : State) (n : Nat) : (s.glkAttempt n).port n = (s.port n).attempt s.now := by
  obtain ⟨r, h⟩ := glkAttempt_only s n
  rw [h]
  exact setPort_port s n _

theorem glkAttempt_starts (s : State) (n : Nat) : AttemptStarts n s (s.glkAttempt n) := by
  obtain ⟨r, h⟩ := glkAttempt_only s n
  refine ⟨rf_wf_same _ _ _ (Nat.le_of_ble_eq_true rfl), ?_, by rw [glkAttempt_port]; rfl, by rw [glkAttempt_port]; rfl, ?_, by rw [h]; rfl⟩
  · exact (rf_wf_beside _ _ _ _ (.inr (Nat.le_of_ble_eq_true rfl)) (Nat.le_of_ble_eq_true rfl)).trans
      (rf_incSat_same _ _ (Nat.le_of_ble_eq_true rfl))
  · exact ((RegsBut.refl _ s).setPort.incSat (by simp)).wf (by simp)

/-! ### An attempt fails (R105, R106) -/

/-- A port's attempt has failed: FAILCODE, 69, and a retry in 100 ms or FAILED. -/
structure AttemptFails (n code : Nat) (s t : State) : Prop where
  failcode_eq : t.rf (GLK_LINKSTAT.FAILCODE n) = code
  raised : Raised s t 69 (n + code * 65536)
  ends : if s.rb (GLK_PORTCFG.AUTORETRY n) && decide (s.rf (GLK_LINKSTAT.TRIES n) < 3)
    then t.portSt n = glDown ∧ (t.port n).retryAt = some (s.now + 100000000) else t.portSt n = glFailed ∧ (t.port n).retryAt = none
  regs : RegsBut [GLK_LINKSTAT.FAILCODE n, GLK_LINKSTAT.STATE n] s t
  frame : t = { s with regs := t.regs, glk := t.glk, tly := t.tly }

theorem AttemptFails.not_lock {code : Nat} (h : AttemptFails n code s t) : t.portSt n ≠ glLock := by
  have he := h.ends
  split at he <;> rw [he.1] <;> decide

/-- Another attempt follows a failure (R106). -/
def State.retries (s : State) (n : Nat) : Bool := s.rb (GLK_PORTCFG.AUTORETRY n) && decide (s.rf (GLK_LINKSTAT.TRIES n) < 3)

theorem portcfg_ne_linkstat (n k : Nat) : GLK_PORTCFG.adr n ≠ GLK_LINKSTAT.adr k := by unfold GLK_PORTCFG.adr GLK_LINKSTAT.adr; omega

/-- What follows a failure stands on neither FAILCODE nor STATE. -/
theorem retries_eq {l : List Fld} (h : RegsBut l s t) (hl : ∀ g ∈ l, g = GLK_LINKSTAT.FAILCODE n ∨ g = GLK_LINKSTAT.STATE n) :
    t.retries n = s.retries n := by
  have hauto : t.rf (GLK_PORTCFG.AUTORETRY n) = s.rf (GLK_PORTCFG.AUTORETRY n) :=
    h _ (Nat.le_of_ble_eq_true rfl) fun g hg => .inl (by rcases hl g hg with rfl | rfl <;> exact portcfg_ne_linkstat n n)
  have htries : t.rf (GLK_LINKSTAT.TRIES n) = s.rf (GLK_LINKSTAT.TRIES n) :=
    h _ (Nat.le_of_ble_eq_true rfl) fun g hg => .inr (by
      rcases hl g hg with rfl | rfl
      · exact .inr (Nat.le_of_ble_eq_true rfl)
      · exact .inl (Nat.le_of_ble_eq_true rfl))
  rw [State.retries, State.rb, hauto, htries]
  rfl

/-- The port and its link status as a failure leaves them. -/
def State.attemptEnded (s : State) (n code : Nat) : State :=
  ((s.wf (GLK_LINKSTAT.FAILCODE n) code).setPort n
    { s.port n with retryAt := if s.retries n then some (s.now + 100000000) else none }).wf (GLK_LINKSTAT.STATE n)
      (if s.retries n then glDown else glFailed)

theorem glkFail_eq (s : State) (n : Fin 8) {code : Nat} (hc : code < 256) :
    s.glkFail n code = (s.attemptEnded n code).raiseEv 69 (n + code * 65536) := by
  have hagain : (s.wf (GLK_LINKSTAT.FAILCODE n) code).retries n = s.retries n :=
    retries_eq ((RegsBut.refl [GLK_LINKSTAT.FAILCODE n] s).wf (by simp)) (by simp)
  have hdetail : glkDetail n 0 code = n + code * 65536 := by rw [glkDetail]; omega
  rw [State.attemptEnded, ← hagain, ← hdetail]
  rfl

theorem attemptEnded_only (s : State) (n code : Nat) : ∃ r, s.attemptEnded n code =
    { s.setPort n { s.port n with retryAt := if s.retries n then some (s.now + 100000000) else none } with regs := r } := ⟨_, rfl⟩

theorem glkFail_fails (s : State) (n : Fin 8) {code : Nat} (hc : code < 256) : AttemptFails n code s (s.glkFail n code) := by
  obtain ⟨r, h⟩ := attemptEnded_only s n code
  have hport : (s.attemptEnded n code).port n = { s.port n with retryAt := if s.retries n then some (s.now + 100000000) else none } := by
    rw [h]
    exact setPort_port s n _
  have hstate : (s.attemptEnded n code).portSt n = if s.retries n then glDown else glFailed :=
    (rf_wf_same _ _ _ (Nat.le_of_ble_eq_true rfl)).trans (by split <;> rfl)
  rw [glkFail_eq s n hc]
  refine ⟨?_, ?_, ?_, ?_, ?_⟩
  · rw [raiseEv_rf, State.attemptEnded, rf_wf_beside _ _ _ _ (.inr (Nat.le_of_ble_eq_true rfl)) (Nat.le_of_ble_eq_true rfl)]
    exact (rf_wf_same s _ _ (Nat.le_of_ble_eq_true rfl)).trans (Nat.mod_eq_of_lt hc)
  · rw [h]
    rfl
  · change if s.retries n then (s.attemptEnded n code).portSt n = _ ∧ ((s.attemptEnded n code).port n).retryAt = _
      else (s.attemptEnded n code).portSt n = _ ∧ ((s.attemptEnded n code).port n).retryAt = _
    rw [hstate, hport]
    split <;> simp [*]
  · exact ((((RegsBut.refl _ s).wf (by simp)).setPort).wf (by simp)).raiseEv
  · rw [h]
    rfl

/-! ### The port reaches UP (R103, R107) -/

/-- The port UP and its holds for the link, for time and for EXEC ended. -/
def State.holdsEnded (s : State) (n : Nat) : State :=
  ((((s.wf (GLK_LINKSTAT.STATE n) glUp).wb (GLK_LEGHOLD.NOTUP n) false).wb (GLK_LEGHOLD.LINK n) false).wb (GLK_LEGHOLD.TIME n) false).wb
    (GLK_LEGHOLD.EXEC n) false

/-- The port as it reaches UP. -/
def PortSt.risen (p : PortSt) (gt : Nat) : PortSt :=
  { p with lastStart := gt, missRun := 0, passed := 0, cmds := [], queue := [], recheckGt := gt / 500000 }

def State.linkUp (s : State) (n : Nat) : State := (s.holdsEnded n).setPort n (((s.holdsEnded n).port n).risen (s.holdsEnded n).gt)

/-- The bank of a port that is UP starts anew at its next commit. -/
def State.bankAnew (s : State) (n : Nat) : State :=
  let t := (s.dropPend n).offLabels n
  (t.setBank n { t.bank n with started := false, decided := false, coming := none }).wb (PWM_BANKSTAT.RUNNING n) false

theorem glkGoUp_eq (s : State) (n : Nat) : s.glkGoUp n = if (s.linkUp n).linkBank n then (s.linkUp n).bankAnew n else s.linkUp n := rfl

theorem holdsEnded_only (s : State) (n : Nat) : RegsOnly s (s.holdsEnded n) := RegsOnly.refl.wf.wb.wb.wb.wb

theorem linkUp_only (s : State) (n : Nat) : ∃ r, s.linkUp n = { s.setPort n ((s.port n).risen s.gt) with regs := r } := by
  obtain ⟨r, h⟩ := holdsEnded_only s n
  rw [State.linkUp, h]
  exact ⟨_, rfl⟩

/-- The fields that a port's way to UP writes. -/
def upFields (n : Nat) : List Fld :=
  [GLK_LINKSTAT.STATE n, GLK_LEGHOLD.NOTUP n, GLK_LEGHOLD.LINK n, GLK_LEGHOLD.TIME n, GLK_LEGHOLD.EXEC n]

theorem upFields_above (n : Nat) : ∀ g ∈ upFields n, GLK_SUMMARY.adr ≤ g.adr := by
  intro g hg
  simp only [upFields, List.mem_cons, List.not_mem_nil, or_false] at hg
  rcases hg with rfl | rfl | rfl | rfl | rfl <;> exact Nat.le_add_right_of_le (by decide)

theorem linkUp_regsBut (s : State) (n : Nat) : RegsBut (upFields n) s (s.linkUp n) :=
  ((((((RegsBut.refl _ s).wf (by simp [upFields])).wb (by simp [upFields])).wb (by simp [upFields])).wb (by simp [upFields])).wb
    (by simp [upFields])).setPort

/-- The status of a port that is UP: none of these holds is in force. -/
structure PortRisen (n : Nat) (t : State) : Prop where
  state_eq : t.portSt n = glUp
  notup_eq : t.rf (GLK_LEGHOLD.NOTUP n) = 0
  link_eq : t.rf (GLK_LEGHOLD.LINK n) = 0
  time_eq : t.rf (GLK_LEGHOLD.TIME n) = 0
  exec_eq : t.rf (GLK_LEGHOLD.EXEC n) = 0

theorem linkstat_ne_leghold (n k : Nat) : GLK_LINKSTAT.adr n ≠ GLK_LEGHOLD.adr k := by unfold GLK_LINKSTAT.adr GLK_LEGHOLD.adr; omega

theorem linkUp_risen (s : State) (n : Nat) : PortRisen n (s.linkUp n) := by
  refine ⟨?_, ?_, ?_, ?_, ?_⟩
  · refine RegsBut.rf_written (l := [GLK_LEGHOLD.NOTUP n, GLK_LEGHOLD.LINK n, GLK_LEGHOLD.TIME n, GLK_LEGHOLD.EXEC n]) (s := s)
      (((((RegsBut.refl _ _).wb (by simp)).wb (by simp)).wb (by simp)).wb (by simp)).setPort ?_
    simp [Fld.apart, GLK_LINKSTAT.STATE, GLK_LEGHOLD.NOTUP, GLK_LEGHOLD.LINK, GLK_LEGHOLD.TIME, GLK_LEGHOLD.EXEC, linkstat_ne_leghold]
  · exact RegsBut.rf_written (l := [GLK_LEGHOLD.LINK n, GLK_LEGHOLD.TIME n, GLK_LEGHOLD.EXEC n])
      ((((RegsBut.refl _ _).wb (by simp)).wb (by simp)).wb (by simp)).setPort (apart_of_bits _ _ rfl)
  · exact RegsBut.rf_written (l := [GLK_LEGHOLD.TIME n, GLK_LEGHOLD.EXEC n])
      (((RegsBut.refl _ _).wb (by simp)).wb (by simp)).setPort (apart_of_bits _ _ rfl)
  · exact RegsBut.rf_written (l := [GLK_LEGHOLD.EXEC n]) ((RegsBut.refl _ _).wb (by simp)).setPort (apart_of_bits _ _ rfl)
  · exact RegsBut.rf_written (l := []) (RegsBut.refl _ _).setPort (apart_of_bits _ _ rfl)

/-! ### The registers of a bank's legs lie below those of the gate links -/

/-- Where the registers of the gate links begin. -/
def linkBase : Nat := GLK_SUMMARY.adr

/-- The registers that the accounting and the status of a bank's legs stand in. -/
def bankWords (b : Nat) : List Fld := [3 * b, 3 * b + 1, 3 * b + 2].flatMap legWords

theorem legWords_subset {b m : Nat} (h : m ∈ [3 * b, 3 * b + 1, 3 * b + 2]) : legWords m ⊆ bankWords b :=
  fun _ hg => List.mem_flatMap.2 ⟨m, h, hg⟩

theorem bankWords_below (n : Fin 8) : ∀ g ∈ bankWords n, g.adr < linkBase := by
  intro g hg
  obtain ⟨m, hm, hg⟩ := List.mem_flatMap.1 hg
  have hlt : m < 24 := by simp at hm; omega
  simp only [legWords, whole, List.mem_cons, List.not_mem_nil, or_false] at hg
  rcases hg with rfl | rfl | rfl | rfl <;>
    simp only [PWM_LEGACC.adr, PWM_LEGACC2.adr, PWM_LEGDITH.adr, PWM_LEGSTAT.adr, linkBase, GLK_SUMMARY.adr] <;> omega

/-- A gate link's register is none of a bank's legs. -/
theorem ne_bankWords (n : Fin 8) {a : Nat} (h : linkBase ≤ a) : ∀ g ∈ bankWords n, a ≠ g.adr :=
  fun g hg => Nat.ne_of_gt (Nat.lt_of_lt_of_le (bankWords_below n g hg) h)

/-- A field of a gate link's register, where only registers below are written. -/
theorem RegsBut.link_eq {l : List Fld} {f : Fld} (h : RegsBut l s t) (hl : ∀ g ∈ l, g.adr < linkBase) (ha : linkBase ≤ f.adr)
    (hf : f.lo + f.wd ≤ 32) : t.rf f = s.rf f := h f hf fun g hg => .inl (Nat.ne_of_gt (Nat.lt_of_lt_of_le (hl g hg) ha))

theorem offLabel_regsBut (s : State) (m : Nat) : RegsBut (legWords m) s (s.offLabel m) :=
  .ite (.refl _ s) ((RegsBut.refl _ s).wf_whole (by simp [legWords, PWM_LEGSTAT.OFFCAUSE]))

theorem offLabels_regsBut (s : State) (n : Nat) : RegsBut (bankWords n) s (s.offLabels n) := by
  refine .ite ?_ (.refl _ s)
  refine List.foldlRecOn (motive := fun t => RegsBut (bankWords n) s t) _ _ (.refl _ s) fun t ht m hm => ?_
  exact ht.trans ((offLabel_regsBut t m).mono (legWords_subset hm))

theorem offLabel_only (s : State) (m : Nat) : RegsOnly s (s.offLabel m) := .ite .refl RegsOnly.refl.wf

theorem RegsOnly.trans (h : RegsOnly s t) (k : RegsOnly t u) : RegsOnly s u := by
  obtain ⟨r, rfl⟩ := h
  obtain ⟨q, rfl⟩ := k
  exact ⟨q, rfl⟩

theorem offLabels_only (s : State) (n : Nat) : RegsOnly s (s.offLabels n) := by
  refine .ite ?_ .refl
  exact List.foldlRecOn (motive := fun t => RegsOnly s t) _ _ .refl fun t ht m _ => ht.trans (offLabel_only t m)

/-- The registers that a bank's new start writes. -/
def anewWords (n : Nat) : List Fld := whole (PWM_BANKSTAT.adr n) :: bankWords n

theorem anewWords_below (n : Fin 8) : ∀ g ∈ anewWords n, g.adr < linkBase := by
  refine List.forall_mem_cons.2 ⟨?_, bankWords_below n⟩
  simp only [whole, PWM_BANKSTAT.adr, linkBase, GLK_SUMMARY.adr]
  omega

theorem dropPend_regsBut (s : State) (n : Nat) : RegsBut (anewWords n) s (s.dropPend n) :=
  (RegsBut.refl _ s).setBank.wf_whole (f := PWM_BANKSTAT.PEND n) List.mem_cons_self

theorem bankAnew_regsBut (s : State) (n : Nat) : RegsBut (anewWords n) s (s.bankAnew n) :=
  ((dropPend_regsBut s n).trans ((offLabels_regsBut _ n).mono (List.subset_cons_self _ _))).setBank.wf_whole
    (f := PWM_BANKSTAT.RUNNING n) List.mem_cons_self

theorem dropPend_only (s : State) (n : Nat) : PwmOnly s (s.dropPend n) := PwmOnly.refl.setBank.regsOnly RegsOnly.refl.wb

theorem bankAnew_only (s : State) (n : Nat) : PwmOnly s (s.bankAnew n) :=
  ((dropPend_only s n).regsOnly (offLabels_only _ n)).setBank.regsOnly RegsOnly.refl.wb

theorem PwmOnly.port_eq (h : PwmOnly s t) (k : Nat) : t.port k = s.port k := by
  obtain ⟨r, p, rfl⟩ := h
  rfl

/-- Nothing of it lies below the gate links' registers. -/
theorem PortRisen.of_below {l : List Fld} {k : Nat} (h : PortRisen k s) (hr : RegsBut l s t) (hl : ∀ g ∈ l, g.adr < linkBase) :
    PortRisen k t := by
  have keep (f : Fld) (ha : linkBase ≤ f.adr := by (repeat apply le_above); decide)
      (hf : f.lo + f.wd ≤ 32 := by exact Nat.le_of_ble_eq_true rfl) : t.rf f = s.rf f := hr.link_eq hl ha hf
  exact ⟨(keep _).trans h.state_eq, (keep _).trans h.notup_eq, (keep _).trans h.link_eq, (keep _).trans h.time_eq,
    (keep _).trans h.exec_eq⟩

theorem glkGoUp_risen (s : State) (n : Fin 8) : PortRisen n (s.glkGoUp n) := by
  rw [glkGoUp_eq]
  split
  · exact (linkUp_risen s n).of_below (bankAnew_regsBut _ n) (anewWords_below n)
  · exact linkUp_risen s n

theorem linkUp_port (s : State) (n : Nat) : (s.linkUp n).port n = (s.port n).risen s.gt := by
  obtain ⟨r, h⟩ := linkUp_only s n
  rw [h]
  exact setPort_port s n _

theorem glkGoUp_port (s : State) (n : Nat) : (s.glkGoUp n).port n = (s.port n).risen s.gt := by
  rw [glkGoUp_eq]
  split
  · rw [(bankAnew_only _ n).port_eq, linkUp_port]
  · exact linkUp_port s n

end Sys2Proof.Machine
end

section
/-! PROOF. Bring-up of a gate link step by step (R103 to R107). -/

namespace Sys2Proof.Machine

variable {s t u : State} {n : Fin 8}

/-! ### A capability record (R104, R105) -/

theorem ofLe_lt (l : List Byte) : ofLe l < 256 ^ l.length := by
  induction l with
  | nil => decide
  | cons b l ih => rw [ofLe, List.length_cons, Nat.pow_succ]; have := b.isLt; omega

theorem leAt_lt (l : List Byte) (o n : Nat) : leAt l o n < 256 ^ n := by
  have h := ofLe_lt (sliceB l o n)
  rwa [sliceB, List.length_map, List.length_range] at h

/-- The partner's capability recorded. -/
def State.capRecorded (s : State) (n : Nat) (r : List Byte) : State :=
  (((((s.setN (GLK_PCAP0.adr n) (leAt r 0 4)).setN (GLK_PCAP1.adr n) (leAt r 4 4)).setN (GLK_ISCALE.adr n) (leAt r 8 4)).setN
    (GLK_USCALE.adr n) (leAt r 12 4)).setN (GLK_PID.adr n) (leAt r 16 4)).wf (GLK_LINKSTAT.STATE n) glCapx

/-- The fields that a capability record writes. -/
def capFields (n : Nat) : List Fld :=
  [whole (GLK_PCAP0.adr n), whole (GLK_PCAP1.adr n), whole (GLK_ISCALE.adr n), whole (GLK_USCALE.adr n), whole (GLK_PID.adr n),
    GLK_LINKSTAT.STATE n]

theorem pcap0_adr (n : Nat) : GLK_PCAP0.adr n = GLK_LINKSTAT.adr n + 4 * 1 := by unfold GLK_PCAP0.adr GLK_LINKSTAT.adr; omega
theorem pcap1_adr (n : Nat) : GLK_PCAP1.adr n = GLK_LINKSTAT.adr n + 4 * 2 := by unfold GLK_PCAP1.adr GLK_LINKSTAT.adr; omega
theorem pid_adr (n : Nat) : GLK_PID.adr n = GLK_LINKSTAT.adr n + 4 * 3 := by unfold GLK_PID.adr GLK_LINKSTAT.adr; omega
theorem iscale_adr (n : Nat) : GLK_ISCALE.adr n = GLK_LINKSTAT.adr n + 4 * 4 := by unfold GLK_ISCALE.adr GLK_LINKSTAT.adr; omega
theorem uscale_adr (n : Nat) : GLK_USCALE.adr n = GLK_LINKSTAT.adr n + 4 * 5 := by unfold GLK_USCALE.adr GLK_LINKSTAT.adr; omega

theorem capFields_adr {n : Nat} {g : Fld} (h : g ∈ capFields n) : ∃ k ≤ 5, g.adr = GLK_LINKSTAT.adr n + 4 * k := by
  simp only [capFields, List.mem_cons, List.not_mem_nil, or_false] at h
  rcases h with rfl | rfl | rfl | rfl | rfl | rfl
  · exact ⟨1, by decide, pcap0_adr n⟩
  · exact ⟨2, by decide, pcap1_adr n⟩
  · exact ⟨4, by decide, iscale_adr n⟩
  · exact ⟨5, by decide, uscale_adr n⟩
  · exact ⟨3, by decide, pid_adr n⟩
  · exact ⟨0, by decide, rfl⟩

theorem capRecorded_only (s : State) (n : Nat) (r : List Byte) : RegsOnly s (s.capRecorded n r) := RegsOnly.refl.setN.setN.setN.setN.setN.wf

theorem capRecorded_regsBut (s : State) (n : Nat) (r : List Byte) : RegsBut (capFields n) s (s.capRecorded n r) :=
  ((((((RegsBut.refl _ s).setN (by simp [capFields])).setN (by simp [capFields])).setN (by simp [capFields])).setN
    (by simp [capFields])).setN (by simp [capFields])).wf (by simp [capFields])

/-- The record stands in its registers. -/
structure CapRecord (n : Nat) (r : List Byte) (t : State) : Prop where
  cap0 : t.rn (GLK_PCAP0.adr n) = leAt r 0 4
  cap1 : t.rn (GLK_PCAP1.adr n) = leAt r 4 4
  iscale : t.rn (GLK_ISCALE.adr n) = leAt r 8 4
  uscale : t.rn (GLK_USCALE.adr n) = leAt r 12 4
  pid : t.rn (GLK_PID.adr n) = leAt r 16 4

theorem capRecorded_record (s : State) (n : Nat) (r : List Byte) : CapRecord n r (s.capRecorded n r) := by
  have hv (o : Nat) : leAt r o 4 % 4294967296 = leAt r o 4 := Nat.mod_eq_of_lt (leAt_lt r o 4)
  refine ⟨?_, ?_, ?_, ?_, ?_⟩ <;>
    simp [State.capRecorded, State.wf, GLK_LINKSTAT.STATE, pcap0_adr, pcap1_adr, iscale_adr, uscale_adr, pid_adr, rn_setN, hv]

/-- The record stands where none of its registers is written. -/
theorem CapRecord.of_regsBut {n : Nat} {r : List Byte} (h : CapRecord n r s) (hr : RegsBut [GLK_LINKSTAT.STATE n] s t) : CapRecord n r t := by
  have keep {a k : Nat} (ha : a = GLK_LINKSTAT.adr n + 4 * (k + 1)) : t.rn a = s.rn a :=
    congrArg BitVec.toNat (hr.reg (by simp only [List.mem_singleton, forall_eq, GLK_LINKSTAT.STATE]; omega))
  exact ⟨(keep (pcap0_adr n)).trans h.cap0, (keep (pcap1_adr n)).trans h.cap1, (keep (iscale_adr n)).trans h.iscale,
    (keep (uscale_adr n)).trans h.uscale, (keep (pid_adr n)).trans h.pid⟩

/-- A register that the record does not fill. -/
theorem capRecorded_rf (s : State) (r : List Byte) {n : Nat} {f : Fld} (ha : ∀ k ≤ 5, f.adr ≠ GLK_LINKSTAT.adr n + 4 * k)
    (hf : f.lo + f.wd ≤ 32 := by exact Nat.le_of_ble_eq_true rfl) : (s.capRecorded n r).rf f = s.rf f :=
  capRecorded_regsBut s n r f hf fun g hg => .inl fun e => by
    obtain ⟨k, hle, hk⟩ := capFields_adr hg
    exact ha k hle (e.trans hk)

theorem portcfg_ne_record (n k : Nat) : GLK_PORTCFG.adr n ≠ GLK_LINKSTAT.adr n + 4 * k := by unfold GLK_PORTCFG.adr GLK_LINKSTAT.adr; omega

/-- What a port settles on does not depend on the record's registers nor on STATE. -/
theorem settle_capRecorded (s : State) (n : Nat) (r : List Byte) : (s.capRecorded n r).settle n r = s.settle n r := by
  have hleg (m k : Nat) (hk : k ≤ 5) : PWM_LEGSET.adr m ≠ GLK_LINKSTAT.adr n + 4 * k := by unfold PWM_LEGSET.adr GLK_LINKSTAT.adr; omega
  have hbank (k : Nat) : PWM_BANKCFG.adr n ≠ GLK_LINKSTAT.adr n + 4 * k := by unfold PWM_BANKCFG.adr GLK_LINKSTAT.adr; omega
  have hlegs : (s.capRecorded n r).capLegsBad n = s.capLegsBad n := by
    funext legs dtmin
    simp only [State.capLegsBad, State.drivenLegs, State.linkBank, State.rb, capRecorded_rf s r (f := PWM_BANKCFG.DEST n) fun k _ => hbank k,
      capRecorded_rf s r (f := PWM_LEGSET.MODE _) (hleg _), capRecorded_rf s r (f := PWM_LEGSET.DT _) (hleg _)]
  unfold State.settle State.rb
  rw [hlegs, capRecorded_rf s r (f := GLK_PORTCFG.MAXRATE n) fun k _ => portcfg_ne_record n k,
    capRecorded_rf s r (f := GLK_PORTCFG.MINRATE n) fun k _ => portcfg_ne_record n k,
    capRecorded_rf s r (f := GLK_PORTCFG.PREFTE n) fun k _ => portcfg_ne_record n k,
    capRecorded_rf s r (f := GLK_PORTCFG.REQTE n) fun k _ => portcfg_ne_record n k,
    capRecorded_rf s r (f := GLK_PORTCFG.REQSAMP n) fun k _ => portcfg_ne_record n k]

theorem settle_fail_lt (s : State) (n : Nat) (r : List Byte) : (s.settle n r).fail < 256 := by
  rw [State.settle]
  dsimp only
  split_ifs <;> decide

/-- The port with what an attempt has settled. -/
def PortSt.settled (p : PortSt) (x : Settle) (res samp now : Nat) : PortSt :=
  { p with rate := x.rate, te := x.te, res := res, samp := samp, cfgAt := now }

def State.settlePort (s : State) (n : Nat) (r : List Byte) : State :=
  s.setPort n ((s.port n).settled (s.settle n r) (leAt r 2 1 / 4 % 8) (s.rf (GLK_PORTCFG.REQSAMP n)) s.now)

/-- The port with the CFG it sends. -/
def PortSt.withCfg (p : PortSt) (c : List Byte) : PortSt := { p with cfg := c }

def State.cfgSent (s : State) (n : Nat) : State :=
  (s.setPort n ((s.port n).withCfg (s.cfgPayload n))).glkSend n gfCfg (s.cfgPayload n)

/-- The CFG of an attempt that settles sent, and the port in CONFIG. -/
def State.configure (s : State) (n : Nat) (r : List Byte) : State := ((s.settlePort n r).cfgSent n).wf (GLK_LINKSTAT.STATE n) glConfig

theorem capIn_lock (hst : s.portSt n = glLock) (r : List Byte) : s.capIn n r =
    if (s.settle n r).fail ≠ 0 then (s.capRecorded n r).glkFail n (s.settle n r).fail else (s.capRecorded n r).configure n r := by
  rw [← settle_capRecorded]
  exact if_neg (not_not.2 hst)

theorem cfgPayload_length (s : State) (n : Nat) : (s.cfgPayload n).length = 16 := by simp [State.cfgPayload]

/-- A port in CONFIG, its CFG sent. -/
structure Configured (n : Nat) (x : Settle) (s t : State) : Prop where
  state_eq : t.portSt n = glConfig
  rate_eq : (t.port n).rate = x.rate
  te_eq : (t.port n).te = x.te
  sent : Sent s t [glkFrame n gfCfg (t.port n).cfg]
  cfg_length : (t.port n).cfg.length = 16
  regs : RegsBut [GLK_LINKSTAT.STATE n] s t
  frame : t = { s with regs := t.regs, glk := t.glk, outbox := t.outbox }

theorem cfgSent_sentFrom (h : s.RulesIdle) (n : Nat) :
    SentFrom n s (s.cfgSent n) [glkFrame n gfCfg (s.cfgPayload n)] ((s.port n).withCfg (s.cfgPayload n)) :=
  setSend_sentFrom h n gfCfg _ _

theorem configure_configured (h : s.RulesIdle) (n : Nat) (r : List Byte) : Configured n (s.settle n r) s (s.configure n r) := by
  obtain ⟨honly, hsent, d, f, l, hp⟩ := (cfgSent_sentFrom (LinkOnly.refl.setPort.rulesIdle h) n (s := s.settlePort n r)).of_setPort
  obtain ⟨q, hq⟩ : RegsOnly ((s.settlePort n r).cfgSent n) (s.configure n r) := RegsOnly.refl.wf
  have hport : (s.configure n r).port n = ((s.settlePort n r).cfgSent n).port n := by rw [hq]; rfl
  have hset : (s.settlePort n r).port n = (s.port n).settled (s.settle n r) (leAt r 2 1 / 4 % 8) (s.rf (GLK_PORTCFG.REQSAMP n)) s.now :=
    setPort_port s n _
  refine ⟨rf_wf_same _ _ _ (Nat.le_of_ble_eq_true rfl), ?_, ?_, ?_, ?_, honly.regsBut.wf (by simp), ?_⟩
  · rw [hport, hp, hset]; rfl
  · rw [hport, hp, hset]; rfl
  · rw [hport, hp, hq]; exact hsent
  · rw [hport, hp]; exact cfgPayload_length _ n
  · obtain ⟨g, o, e⟩ := honly
    rw [hq, e]

/-! ### The commands of bring-up -/

theorem capReceive_next (hon : s.on = true) (h : s.RulesIdle) (hst : s.portSt n = glLock) (c : Vector Byte 20) : exec (.capReceive n c) s =
    .next (if (s.settle n c.toList).fail ≠ 0 then (s.capRecorded n c.toList).glkFail n (s.settle n c.toList).fail
      else (s.capRecorded n c.toList).configure n c.toList) := by
  change s.whenOn (fun s => s.glkUpIn n 0x02 (.capReceive (Fin.ofNat 8 n) c)) = _
  rw [whenOn_on hon, State.glkUpIn, recvInj_free h, Fin.ofNat_eq_cast, Fin.cast_val_eq_self, ← capIn_lock hst]
  rfl

theorem cfgackReceive_next (hon : s.on = true) (h : s.RulesIdle) (hst : s.portSt n = glConfig) (ha : (s.port n).ackAt = none) (c : Vector Byte 16) :
    exec (.cfgackReceive n c) s =
      .next (if c.toList = (s.port n).cfg then s.setPort n { s.port n with ackAt := some s.now } else s.glkFail n 6) := by
  change s.whenOn (fun s => s.glkUpIn n 0x13 (.cfgackReceive (Fin.ofNat 8 n) c)) = _
  rw [whenOn_on hon, State.glkUpIn, recvInj_free h, Fin.ofNat_eq_cast, Fin.cast_val_eq_self]
  exact congrArg _ (if_neg (by simp [hst, ha]))

/-- The port at the start of TRAIN. -/
def PortSt.inTrain (p : PortSt) (now : Nat) : PortSt := { p with trainAt := now, locked := false }

/-- The settled rate in use. -/
def State.rateChanged (s : State) (n : Nat) : State :=
  let t := s.setPort n ((s.port n).inTrain s.now)
  let t := ((t.wf (GLK_LINKSTAT.RATE n) (s.port n).rate).wb (GLK_LINKSTAT.MODE n) (s.port n).te).wf (GLK_LINKSTAT.RES n) (s.port n).res
  (t.wf (GLK_LINKSTAT.SAMP n) (s.port n).samp).wf (GLK_LINKSTAT.STATE n) glTrain

theorem rateChange_next {a : Nat} (hst : s.portSt n = glConfig) (ha : (s.port n).ackAt = some a) (ht : a + 10000 ≤ s.now) :
    exec (.rateChange n) s = .next (s.rateChanged n) := by
  change execRateChange n s = _
  rw [execRateChange, whenB_true (by simp [hst, ha, ht])]
  rfl

theorem rateChanged_only (s : State) (n : Nat) :
    RegsOnly (s.setPort n ((s.port n).inTrain s.now)) (s.rateChanged n) := RegsOnly.refl.wf.wb.wf.wf.wf

theorem rateChanged_regsBut (s : State) (n : Nat) : RegsBut [whole (GLK_LINKSTAT.adr n)] s (s.rateChanged n) :=
  (RegsBut.refl _ s).setPort.wf_whole (f := GLK_LINKSTAT.RATE n) List.mem_cons_self
    |>.wf_whole (f := GLK_LINKSTAT.MODE n) List.mem_cons_self |>.wf_whole (f := GLK_LINKSTAT.RES n) List.mem_cons_self
    |>.wf_whole (f := GLK_LINKSTAT.SAMP n) List.mem_cons_self |>.wf_whole (f := GLK_LINKSTAT.STATE n) List.mem_cons_self

theorem rateChanged_rate (s : State) (n : Nat) : (s.rateChanged n).rf (GLK_LINKSTAT.RATE n) = (s.port n).rate % 2 ^ 2 :=
  RegsBut.rf_written (l := [GLK_LINKSTAT.MODE n, GLK_LINKSTAT.RES n, GLK_LINKSTAT.SAMP n, GLK_LINKSTAT.STATE n])
    (((((RegsBut.refl _ _).wb (by simp)).wf (by simp)).wf (by simp)).wf (by simp)) (apart_of_bits _ _ rfl)

theorem rateChanged_mode (s : State) (n : Nat) : (s.rateChanged n).rf (GLK_LINKSTAT.MODE n) = b2n (s.port n).te % 2 ^ 1 :=
  RegsBut.rf_written (l := [GLK_LINKSTAT.RES n, GLK_LINKSTAT.SAMP n, GLK_LINKSTAT.STATE n])
    ((((RegsBut.refl _ _).wf (by simp)).wf (by simp)).wf (by simp)) (apart_of_bits _ _ rfl)

/-- The port with character lock. -/
def PortSt.lock (p : PortSt) : PortSt := { p with locked := true }

theorem characterLock_te (hst : s.portSt n = glTrain) (hl : (s.port n).locked = false) (hte : (s.port n).te = true) :
    exec (.characterLock n true) s = .next ((s.setPort n (s.port n).lock).sendEcho n) := by
  change execCharacterLock n true s = _
  rw [execCharacterLock, if_pos rfl, whenB_true (by simp [hst, hl])]
  exact congrArg _ (if_pos (by rw [setPort_port]; exact hte))

theorem characterLock_level (hst : s.portSt n = glTrain) (hl : (s.port n).locked = false) (hte : (s.port n).te = false) :
    exec (.characterLock n true) s = .next ((s.setPort n (s.port n).lock).glkGoUp n) := by
  change execCharacterLock n true s = _
  rw [execCharacterLock, if_pos rfl, whenB_true (by simp [hst, hl])]
  exact congrArg _ (if_neg (by rw [setPort_port]; exact Bool.eq_false_iff.1 hte))

theorem characterLock_lost (hst : s.portSt n = glConfig ∨ s.portSt n = glTrain) : exec (.characterLock n false) s = .next (s.glkFail n 9) := by
  change execCharacterLock n false s = _
  rw [execCharacterLock, if_neg Bool.false_ne_true]
  exact whenB_true (by simpa using hst) _

theorem negotiateTimeout_lock (hst : s.portSt n = glLock) (ht : (s.port n).attemptAt + 10000000 ≤ s.now) :
    exec (.negotiateTimeout n) s = .next (s.glkFail n 1) := by
  change execNegotiateTimeout n s = _
  rw [execNegotiateTimeout, if_pos hst]
  exact whenB_true (by simpa using ht) _

theorem bringupRetry_next {a : Nat} (ha : (s.port n).retryAt = some a) (ht : a ≤ s.now) : exec (.bringupRetry n) s = .next (s.glkAttempt n) := by
  change execBringupRetry n s = _
  rw [execBringupRetry, ha]
  exact whenB_true (by simpa using ht) _

theorem capRecorded_rulesIdle (h : s.RulesIdle) (n : Fin 8) (r : List Byte) : (s.capRecorded n r).RulesIdle := by
  obtain ⟨q, hq⟩ := capRecorded_only s n r
  refine ⟨?_, by rw [hq]; exact h.held⟩
  rw [capRecorded_rf s r (f := AST_INJCTL.ARM) fun k hk => by simp only [AST_INJCTL.ARM, AST_INJCTL.adr, GLK_LINKSTAT.adr]; omega]
  exact h.arm

theorem retries_capRecorded (s : State) (n : Nat) (r : List Byte) : (s.capRecorded n r).retries n = s.retries n := by
  have hauto := capRecorded_rf s r (f := GLK_PORTCFG.AUTORETRY n) fun k _ => portcfg_ne_record n k
  have htries : (s.capRecorded n r).rf (GLK_LINKSTAT.TRIES n) = s.rf (GLK_LINKSTAT.TRIES n) :=
    capRecorded_regsBut s n r _ (Nat.le_of_ble_eq_true rfl) (by
      simp [capFields, Fld.apart, whole, GLK_LINKSTAT.TRIES, GLK_LINKSTAT.STATE, pcap0_adr, pcap1_adr, pid_adr, iscale_adr, uscale_adr])
  rw [State.retries, State.rb, hauto, htries]
  rfl

/-- The destination of the bank stands on the way to UP. -/
theorem linkUp_bankcfg (s : State) (n : Fin 8) : (s.linkUp n).rf (PWM_BANKCFG.DEST n) = s.rf (PWM_BANKCFG.DEST n) :=
  linkUp_regsBut s n _ (Nat.le_of_ble_eq_true rfl) fun g hg => .inl (by
    have ha : linkBase ≤ g.adr := upFields_above n g hg
    have hb : PWM_BANKCFG.adr n < linkBase := by simp only [PWM_BANKCFG.adr, linkBase, GLK_SUMMARY.adr]; omega
    exact Nat.ne_of_lt (Nat.lt_of_lt_of_le hb ha))

/-- A failure after the record, as one of the state before it. -/
theorem AttemptFails.of_capRecorded {code : Nat} {r : List Byte} (h : AttemptFails n code (s.capRecorded n r) t) :
    t.rf (GLK_LINKSTAT.FAILCODE n) = code ∧ Raised s t 69 (n + code * 65536) ∧
    (if s.retries n then t.portSt n = glDown ∧ (t.port n).retryAt = some (s.now + 100000000)
      else t.portSt n = glFailed ∧ (t.port n).retryAt = none) ∧ t = { s with regs := t.regs, glk := t.glk, tly := t.tly } := by
  obtain ⟨q, hq⟩ := capRecorded_only s n r
  obtain ⟨hcode, hraised, hends, -, hframe⟩ := h
  refine ⟨hcode, ?_, ?_, ?_⟩
  · rw [hq] at hraised
    exact hraised
  · rw [← retries_capRecorded s n r]
    have hnow : (s.capRecorded n r).now = s.now := by rw [hq]
    rw [← hnow]
    exact hends
  · rw [hframe, hq]

/-- Settles O9: each command is one step of the attempt: it starts, settles, fails, changes its rate or ends. -/
theorem gateLinkBringup : Obligations.GateLinkBringup := by
  refine ⟨?settles, ?settlesNot, ?ack, ?ackOther, ?rate, ?level, ?levelBank, ?lost, ?timeout, ?retry, ?timedEdge⟩
  case settles =>
    intro s n c hon harm hheld hst hf
    have hi : s.RulesIdle := ⟨harm, hheld⟩
    obtain ⟨q, hq⟩ := capRecorded_only s n c.toList
    have hconf := configure_configured (capRecorded_rulesIdle hi n c.toList) n c.toList
    have hrec := (capRecorded_record s n c.toList).of_regsBut hconf.regs
    rw [settle_capRecorded] at hconf
    refine ⟨_, (capReceive_next hon hi hst c).trans (by rw [if_neg (not_not.2 hf)]), hconf.state_eq, hrec.cap0, hrec.cap1, hrec.iscale,
      hrec.uscale, hrec.pid, hconf.rate_eq, hconf.te_eq, ?_, hconf.cfg_length,
      (capRecorded_regsBut s n _).trans (hconf.regs.mono (by simp [capFields])), ?_⟩
    · have hsent := hconf.sent
      rw [hq] at hsent ⊢
      exact hsent
    · rw [hconf.frame, hq]
  case settlesNot =>
    intro s n c hon harm hheld hst hf
    exact ⟨_, (capReceive_next hon ⟨harm, hheld⟩ hst c).trans (by rw [if_pos hf]),
      (glkFail_fails (s.capRecorded n c.toList) n (settle_fail_lt s n c.toList)).of_capRecorded⟩
  case ack =>
    intro s n c hon harm hheld hst ha hc
    refine ⟨_, (cfgackReceive_next hon ⟨harm, hheld⟩ hst ha c).trans (by rw [if_pos hc]), ?_, (RegsBut.refl _ s).setPort, rfl⟩
    rw [setPort_port]
  case ackOther =>
    intro s n c hon harm hheld hst ha hc
    have hfail := glkFail_fails s n (code := 6) (by decide)
    exact ⟨_, (cfgackReceive_next hon ⟨harm, hheld⟩ hst ha c).trans (by rw [if_neg hc]), hfail.failcode_eq, hfail.raised, hfail.frame⟩
  case rate =>
    intro s n a hst ha ht hr
    obtain ⟨q, hq⟩ := rateChanged_only s n
    have hport : (s.rateChanged n).port n = (s.port n).inTrain s.now := by rw [hq]; exact setPort_port s n _
    refine ⟨_, rateChange_next hst ha ht, rf_wf_same _ _ _ (Nat.le_of_ble_eq_true rfl), ?_, ?_, by rw [hport]; rfl, by rw [hport]; rfl,
      rateChanged_regsBut s n, by rw [hq]; rfl⟩
    · exact (rateChanged_rate s n).trans (Nat.mod_eq_of_lt hr)
    · exact (rateChanged_mode s n).trans (b2n_mod _)
  case level =>
    intro s n hst hl hte hb
    have hup := linkUp_risen (s.setPort n (s.port n).lock) n
    obtain ⟨q, hq⟩ := linkUp_only (s.setPort n (s.port n).lock) n
    have hgo : (s.setPort n (s.port n).lock).glkGoUp n = (s.setPort n (s.port n).lock).linkUp n := by
      have hbank : ((s.setPort n (s.port n).lock).linkUp n).linkBank n = false := by
        rw [State.linkBank, State.rb, linkUp_bankcfg]
        exact hb
      rw [glkGoUp_eq, if_neg (Bool.eq_false_iff.1 hbank)]
    refine ⟨_, (characterLock_level hst hl hte).trans (by rw [hgo]), hup.state_eq, hup.notup_eq, hup.link_eq, ?_,
      (RegsBut.refl _ s).setPort.trans (linkUp_regsBut _ n), by rw [hq]; rfl⟩
    rw [linkUp_port, setPort_port]
    rfl
  case levelBank =>
    intro s n hst hl hte
    have hup := glkGoUp_risen (s.setPort n (s.port n).lock) n
    refine ⟨_, characterLock_level hst hl hte, hup.state_eq, hup.notup_eq, hup.link_eq, hup.time_eq, hup.exec_eq, ?_⟩
    rw [glkGoUp_port, setPort_port]
    rfl
  case lost =>
    intro s n hst
    have hfail := glkFail_fails s n (code := 9) (by decide)
    exact ⟨_, characterLock_lost hst, hfail.failcode_eq, hfail.raised, hfail.frame⟩
  case timeout =>
    intro s n hst ht
    have hfail := glkFail_fails s n (code := 1) (by decide)
    exact ⟨_, negotiateTimeout_lock hst ht, hfail.failcode_eq, hfail.raised, hfail.not_lock, hfail.regs, hfail.frame⟩
  case retry =>
    intro s n a ha ht
    have hstart := glkAttempt_starts s n
    exact ⟨_, bringupRetry_next ha ht, hstart.state_eq, hstart.tries_eq, hstart.attemptAt_eq, hstart.retryAt_eq, hstart.regs, hstart.frame⟩
  case timedEdge =>
    intro s n harm hheld hst hl hte hr
    have h := setEcho_sentFrom ⟨harm, hheld⟩ n (s.port n).lock
    rw [release_of_none (p := (s.port n).lock) hr] at h
    obtain ⟨honly, hsent, d, f, l, hp⟩ := h
    refine ⟨_, characterLock_te hst hl hte, ?_, ?_, ?_, ?_, honly.regsBut, ?_⟩
    · rw [hp]; rfl
    · rw [hp]; rfl
    · rw [hp]; rfl
    · rw [hsent]; exact List.length_append
    · obtain ⟨g, o, e⟩ := honly
      rw [e]

end Sys2Proof.Machine
end

section
/-! PROOF. What the lane's reactions to a partner's reports leave alone: registers beside those of the bank's legs, its holds and its
samples, and when the next frame is due (R117 to R124). -/

namespace Sys2Proof.Machine

variable {α : Type} {P : PortSt → α} {l : List Fld} {s t u : State} {n : Nat}

/-! ### Legs held -/

/-- A part of a port's state that neither a frame sent nor a command dropped touches. -/
def Unsent (P : PortSt → α) : Prop :=
  ∀ p c q v d f e, P { p with cmds := c, queue := q, level := v, lastDown := d, freeAt := f, line := e } = P p

/-- When the last frame started, and how many in a row are missing. -/
def PortSt.due (p : PortSt) : Nat × Nat := (p.lastStart, p.missRun)

theorem due_unsent : Unsent PortSt.due := fun _ _ _ _ _ _ _ => rfl

/-- The registers that a frame's reports may write: holds, samples, and those of the bank's legs. -/
def reportFields (n : Nat) : List Fld :=
  [whole (GLK_LEGHOLD.adr n), whole (GLK_SAMPA.adr n), whole (GLK_SAMPB.adr n), whole (GLK_SAMPC.adr n), whole (GLK_SAMPSTAT.adr n)] ++ bankWords n

theorem bankWords_report (n : Nat) : bankWords n ⊆ reportFields n := List.subset_append_right _ _

theorem leghold_report (n : Nat) : whole (GLK_LEGHOLD.adr n) ∈ reportFields n := List.mem_cons_self

/-- Only listed fields differ, and of every port a part stands. -/
structure Reacts (P : PortSt → α) (l : List Fld) (s t : State) : Prop where
  regs : RegsBut l s t
  port_eq : ∀ k, P (t.port k) = P (s.port k)

theorem Reacts.refl : Reacts P l s s := ⟨.refl l s, fun _ => rfl⟩

theorem Reacts.trans (h : Reacts P l s t) (k : Reacts P l t u) : Reacts P l s u :=
  ⟨h.regs.trans k.regs, fun i => (k.port_eq i).trans (h.port_eq i)⟩

theorem Reacts.mono {m : List Fld} (h : Reacts P l s t) (hs : l ⊆ m) : Reacts P m s t := ⟨h.regs.mono hs, h.port_eq⟩

theorem Reacts.ite {c : Prop} {_ : Decidable c} (h : Reacts P l s t) (k : Reacts P l s u) : Reacts P l s (if c then t else u) := by
  split <;> assumption

theorem Reacts.foldl {β : Type} {g : State → β → State} {xs : List β} (h : Reacts P l s t)
    (hg : ∀ {u x}, x ∈ xs → Reacts P l s u → Reacts P l s (g u x)) : Reacts P l s (xs.foldl g t) := by
  induction xs generalizing t with
  | nil => exact h
  | cons x xs ih => exact ih (hg List.mem_cons_self h) fun hx => hg (List.mem_cons_of_mem _ hx)

/-- A step of something else. -/
theorem Reacts.update (h : Reacts P l s t) (hr : u.regs = t.regs) (hg : u.glk = t.glk) : Reacts P l s u :=
  ⟨h.regs.of_regs hr, fun k => by rw [State.port, hg]; exact h.port_eq k⟩

theorem Reacts.raiseEv (h : Reacts P l s t) {src d : Nat} : Reacts P l s (t.raiseEv src d) := h.update rfl rfl
theorem Reacts.assertSrc (h : Reacts P l s t) {src d : Nat} : Reacts P l s (t.assertSrc src d) := h.update rfl rfl
theorem Reacts.emit (h : Reacts P l s t) {m : OutMsg} : Reacts P l s (t.emit m) := h.update rfl rfl
theorem Reacts.setLeg (h : Reacts P l s t) {m : Nat} {x : LegSt} : Reacts P l s (t.setLeg m x) := h.update rfl rfl

theorem Reacts.deassertSrc (h : Reacts P l s t) {src : Nat} : Reacts P l s (t.deassertSrc src) := by
  unfold State.deassertSrc
  exact .ite (h.update rfl rfl) h

theorem Reacts.glkCond (h : Reacts P l s t) {src : Nat} {c : Bool} : Reacts P l s (t.glkCond src c) := .ite h h.deassertSrc

theorem Reacts.setPort (h : Reacts P l s t) {p : PortSt} (hp : P p = P (t.port n) := by rfl) : Reacts P l s (t.setPort n p) := by
  refine ⟨h.regs.setPort, fun k => Eq.trans ?_ (h.port_eq k)⟩
  rw [port_setPort]
  split
  · next hk => rw [hp, hk]
  · rfl

theorem Reacts.setN (h : Reacts P l s t) {a v : Nat} (hm : whole a ∈ l) : Reacts P l s (t.setN a v) := ⟨h.regs.setN hm, h.port_eq⟩
theorem Reacts.wf_whole (h : Reacts P l s t) {f : Fld} {v : Nat} (hm : whole f.adr ∈ l) : Reacts P l s (t.wf f v) := h.setN hm
theorem Reacts.wf (h : Reacts P l s t) {f : Fld} {v : Nat} (hm : f ∈ l) : Reacts P l s (t.wf f v) := ⟨h.regs.wf hm, h.port_eq⟩

theorem Reacts.legsOff (h : Reacts P l s t) {ms : List Nat} {cause : Nat} (hw : ∀ m ∈ ms, legWords m ⊆ l) :
    Reacts P l s (t.legsOff ms cause) := by
  refine h.foldl fun {u m} hm hu => hu.trans ⟨(legOff_regsBut u m cause).mono (hw m hm), fun k => ?_⟩
  obtain ⟨r, e⟩ := legOff_only u m cause
  rw [e]
  rfl

theorem Reacts.glkSend_off (h : Reacts P l s t) (hP : Unsent P) {b : List Byte} : Reacts P l s (t.glkSend n gfOff b) := by
  rw [State.glkSend, if_pos (rfl : gfOff = gfOff)]
  exact (h.setPort (hP _ _ _ _ _ _ _)).emit

/-- An OFF frame that abandons nothing. -/
theorem Reacts.glkOff (h : Reacts P l s t) (hP : Unsent P) {mask : Nat} : Reacts P l s (t.glkOff n mask false) :=
  .ite h ((h.setPort (hP _ _ _ _ _ _ _)).glkSend_off hP)

theorem drivenLegs_words {m : Nat} (h : m ∈ s.drivenLegs n) : legWords m ⊆ bankWords n := legWords_subset (List.mem_of_mem_filter h)

theorem Reacts.holdLegs (h : Reacts P l s t) {mask : Nat} (hw : bankWords n ⊆ l := by exact bankWords_report _)
    (hP : Unsent P := by exact due_unsent) : Reacts P l s (t.holdLegs n mask) :=
  (Reacts.ite (h.legsOff fun _ hm _ hg => hw (drivenLegs_words (List.mem_of_mem_filter hm) hg)) h).glkOff hP

theorem Reacts.setHold (h : Reacts P l s t) {i reason : Nat} {v : Bool}
    (hm : whole (GLK_LEGHOLD.adr n) ∈ l := by exact leghold_report _) : Reacts P l s (t.setHold n i reason v) :=
  h.wf_whole (f := GLK_LEGHOLD.LEGn n) hm

theorem Reacts.holdLeg (h : Reacts P l s t) {i reason : Nat} (hm : whole (GLK_LEGHOLD.adr n) ∈ l := by exact leghold_report _)
    (hw : bankWords n ⊆ l := by exact bankWords_report _) (hP : Unsent P := by exact due_unsent) : Reacts P l s (t.holdLeg n i reason) :=
  (h.setHold hm).holdLegs hw hP

theorem Reacts.offLabels (h : Reacts P l s t) (hw : bankWords n ⊆ l := by exact bankWords_report _) : Reacts P l s (t.offLabels n) := by
  obtain ⟨r, e⟩ := offLabels_only t n
  exact h.trans ⟨(offLabels_regsBut t n).mono hw, fun k => by rw [e]; rfl⟩

/-! ### Reports (R119 to R123, Table GLK-7) -/

/-- What a report of a frame leaves of the rest. -/
abbrev Reported (n : Nat) (s t : State) : Prop := Reacts PortSt.due (reportFields n) s t

theorem Reported.statusDesat (h : Reported n s t) {mask : Nat} : Reported n s (t.statusDesat n mask) := by
  unfold State.statusDesat
  refine .ite h (.ite (.ite ?_ ?_) ?_)
  · exact h.setPort
  · exact h.setPort.setHold.setHold.setHold.raiseEv.holdLegs
  · exact h.setPort.foldl fun _ hu => hu.raiseEv.holdLeg

theorem Reported.statusUvlo (h : Reported n s t) {b : Nat} {lo : Bool} : Reported n s (t.statusUvlo n b lo) := by
  have hold : Reported n s (([0, 1, 2].filter fun i => b.testBit (2 * i + b2n lo) && !(t.holdByte n i).testBit (if lo then 3 else 2)).foldl
      (fun s i => s.holdLeg n i (if lo then 3 else 2)) t) := h.foldl fun _ hu => hu.holdLeg
  unfold State.statusUvlo
  refine Reacts.glkCond (Reacts.foldl (.ite hold hold.assertSrc) fun _ hu => ?_)
  exact .ite hu.setPort (.ite (.ite hu.setPort.setHold hu.setPort) hu)

theorem Reported.statusIntlk (h : Reported n s t) {mask : Nat} : Reported n s (t.statusIntlk n mask) := by
  unfold State.statusIntlk
  refine Reacts.foldl h fun {u i} hi hu => .ite ?_ hu
  have hlatch : whole (PWM_LEGSTAT.LATCH (3 * n + i)).adr ∈ reportFields n := bankWords_report n (legWords_subset (m := 3 * n + i) (by
    simpa using hi) (by simp [legWords, PWM_LEGSTAT.LATCH]))
  exact (Reacts.ite (hu.wf_whole hlatch) hu).raiseEv.holdLeg

theorem Reported.statusLate (h : Reported n s t) {mask : Nat} : Reported n s (t.statusLate n mask) := by
  unfold State.statusLate
  exact h.foldl fun _ hu => .ite hu.raiseEv.holdLeg hu

theorem Reported.tempJudge (h : Reported n s t) {temp : Int} : Reported n s (t.tempJudge n temp) := by
  unfold State.tempJudge
  refine Reacts.setPort (.ite h.assertSrc h) ?_
  split <;> rfl

theorem Reported.otsd (h : Reported n s t) {v : Bool} : Reported n s (t.wb (GLK_LEGHOLD.OTSD n) v) :=
  h.wf_whole (f := GLK_LEGHOLD.OTSD n) (leghold_report n)

theorem Reported.statusHeat (h : Reported n s t) {otsd : Bool} {temp : Int} : Reported n s (t.statusHeat n otsd temp) := by
  unfold State.statusHeat
  refine Reacts.glkCond (Reacts.offLabels (Reported.tempJudge (.ite (.ite ?_ ?_) (.ite (.ite ?_ ?_) h))))
  · exact h.setPort
  · exact (Reported.otsd h.setPort).holdLegs.assertSrc
  · exact Reported.otsd h.setPort
  · exact h.setPort

theorem Reported.statusReports (h : Reported n s t) {b : List Byte} : Reported n s (t.statusReports n b) := by
  unfold State.statusReports
  have hd : Reported n s ((t.setPort n { t.port n with frames := (t.port n).frames + 1 }).statusDesat n (leAt b 2 1 % 8)) :=
    Reported.statusDesat h.setPort
  exact hd.statusUvlo.statusUvlo.statusIntlk.statusLate.statusHeat

theorem Reported.staleSets (h : Reported n s t) {start : Nat} : Reported n s (t.staleSets n start) := by
  have hm : whole (GLK_SAMPSTAT.adr n) ∈ reportFields n := by simp [reportFields]
  unfold State.staleSets
  exact .ite ((h.setPort.wf_whole (f := GLK_SAMPSTAT.STALE n) hm).wf_whole (f := GLK_SAMPSTAT.AGE n) hm) h

theorem Reported.statusSamples (h : Reported n s t) {start : Nat} {b : List Byte} : Reported n s (t.statusSamples n start b) := by
  unfold State.statusSamples
  refine .ite ?_ h.staleSets
  exact (((h.setPort.setN (by simp [reportFields])).setN (by simp [reportFields])).setN (by simp [reportFields])).setN
    (by simp [reportFields])

end Sys2Proof.Machine
end

section
/-! PROOF. Bring-up begun anew, and link loss (R106, R107, R118, R124). -/

namespace Sys2Proof.Machine

variable {s t u : State} {n : Nat} {f : Fld}

/-! ### A port leaves UP (R107) -/

/-- The port as it leaves UP. -/
def PortSt.left (p : PortSt) : PortSt := { p with cmds := [], queue := [], passed := 0, levelSamples := [], setsDue := [], missRun := 0 }

/-- The holds of a port that is not UP. -/
def State.notUp (s : State) (n : Nat) : State := ((s.holdLegs n 7).wb (GLK_LEGHOLD.NOTUP n) true).wb (GLK_SAMPSTAT.VALID n) false

theorem glkLeave_eq (s : State) (n : Nat) : s.glkLeave n = (s.notUp n).setPort n ((s.notUp n).port n).left := rfl

/-- The fields that a port's leaving UP writes. -/
def leaveFields (n : Nat) : List Fld := [GLK_LEGHOLD.NOTUP n, GLK_SAMPSTAT.VALID n] ++ bankWords n

theorem notUp_reacts {α : Type} {P : PortSt → α} (hP : Unsent P) (s : State) (n : Nat) : Reacts P (leaveFields n) s (s.notUp n) :=
  ((Reacts.refl.holdLegs (List.subset_append_right _ _) hP).wf List.mem_cons_self).wf (List.mem_cons_of_mem _ List.mem_cons_self)

/-- The fields that a new bring-up writes. -/
def bringupFields (n : Nat) : List Fld := leaveFields n ++ [GLK_LINKSTAT.STATE n, GLK_LINKSTAT.TRIES n]

/-- A bring-up episode has begun: in LOCK, the first try, the bank held, the samples void, and no frame missing. -/
structure BringupBegins (n : Nat) (s t : State) : Prop where
  state_eq : t.portSt n = glLock
  tries_eq : t.rf (GLK_LINKSTAT.TRIES n) = 1
  notup_eq : t.rf (GLK_LEGHOLD.NOTUP n) = 1
  valid_eq : t.rf (GLK_SAMPSTAT.VALID n) = 0
  due_eq : (t.port n).due = ((s.port n).lastStart, 0)
  regs : RegsBut (bringupFields n) s t
  pads : OffPads s t

theorem OffPads.holdLegs (h : OffPads s t) {mask : Nat} : OffPads s (t.holdLegs n mask) := (OffPads.ite h.legsOff h).glkOff

theorem OffPads.glkBringup (h : OffPads s t) : OffPads s (t.glkBringup n) := by
  unfold Machine.State.glkBringup Machine.State.glkLeave Machine.State.glkAttempt
  exact h.holdLegs.wf.wf.setPort.wf.setPort.wf.wf

theorem leghold_ne_sampstat (n k : Nat) : GLK_LEGHOLD.adr n ≠ GLK_SAMPSTAT.adr k := by unfold GLK_LEGHOLD.adr GLK_SAMPSTAT.adr; omega

theorem linkstat_ne_sampstat (n k : Nat) : GLK_LINKSTAT.adr n ≠ GLK_SAMPSTAT.adr k := by unfold GLK_LINKSTAT.adr GLK_SAMPSTAT.adr; omega

theorem glkBringup_begins (s : State) (n : Nat) : BringupBegins n s (s.glkBringup n) := by
  have hreacts {α : Type} {P : PortSt → α} (hP : Unsent P) := notUp_reacts hP s n
  obtain ⟨hstate, htries, -, -, hregs, -⟩ := glkAttempt_starts ((s.glkLeave n).wf (GLK_LINKSTAT.TRIES n) 0) n
  change (s.glkBringup n).portSt n = _ at hstate
  change (s.glkBringup n).rf _ = _ at htries
  change RegsBut _ _ (s.glkBringup n) at hregs
  have hleave : RegsBut [GLK_LINKSTAT.STATE n, GLK_LINKSTAT.TRIES n] (s.glkLeave n) (s.glkBringup n) :=
    ((RegsBut.refl _ _).wf (by simp)).trans hregs
  have hheld : RegsBut [GLK_SAMPSTAT.VALID n, GLK_LINKSTAT.STATE n, GLK_LINKSTAT.TRIES n] ((s.holdLegs n 7).wb (GLK_LEGHOLD.NOTUP n) true)
      (s.glkBringup n) := ((RegsBut.refl _ _).wb (by simp)).setPort.trans (hleave.mono (by simp))
  refine ⟨hstate, ?_, ?_, ?_, ?_, ?_, OffPads.refl s |>.glkBringup⟩
  · rw [htries, rf_wf_same _ _ _ (Nat.le_of_ble_eq_true rfl)]
    rfl
  · refine hheld.rf_written ?_
    simp [Fld.apart, GLK_LEGHOLD.NOTUP, GLK_SAMPSTAT.VALID, GLK_LINKSTAT.STATE, GLK_LINKSTAT.TRIES, leghold_ne_sampstat,
      (linkstat_ne_leghold _ _).symm]
  · refine RegsBut.rf_written (s := (s.holdLegs n 7).wb (GLK_LEGHOLD.NOTUP n) true) (v := 0) ((RegsBut.refl _ _).setPort.trans hleave) ?_
    simp [Fld.apart, GLK_SAMPSTAT.VALID, GLK_LINKSTAT.STATE, GLK_LINKSTAT.TRIES, (linkstat_ne_sampstat _ _).symm]
  · have hstart := (hreacts (P := PortSt.lastStart) fun _ _ _ _ _ _ _ => rfl).port_eq n
    rw [State.glkBringup, glkAttempt_port, State.port, wf_glk, ← State.port, glkLeave_eq, setPort_port]
    exact congrArg (·, 0) hstart
  · exact ((hreacts due_unsent).regs.setPort.mono (List.subset_append_left _ _)).trans (hleave.mono (List.subset_append_right _ _))

/-- A hold other than NOTUP lies apart from what a port's leaving UP writes. -/
theorem leaveFields_apart {n : Fin 8} (ha : f.adr = GLK_LEGHOLD.adr n) (hb : f.lo + f.wd ≤ 27 ∨ 28 ≤ f.lo) :
    ∀ g ∈ leaveFields n, f.apart g := by
  refine List.forall_mem_append.2 ⟨?_, fun g hg => .inl (ne_bankWords n ?_ g hg)⟩
  · simp only [List.forall_mem_cons, List.not_mem_nil, false_implies, implies_true, and_true]
    exact ⟨.inr hb, .inl (ha ▸ leghold_ne_sampstat n n)⟩
  · exact ha ▸ Nat.le_add_right_of_le (by decide)

/-- A hold other than NOTUP stands through a new bring-up. -/
theorem BringupBegins.hold_eq {n : Fin 8} (h : BringupBegins n s t) (ha : f.adr = GLK_LEGHOLD.adr n)
    (hb : f.lo + f.wd ≤ 27 ∨ 28 ≤ f.lo) (hf : f.lo + f.wd ≤ 32) : t.rf f = s.rf f := by
  refine h.regs f hf (List.forall_mem_append.2 ⟨leaveFields_apart ha hb, ?_⟩)
  simp only [List.forall_mem_cons, List.not_mem_nil, false_implies, implies_true, and_true]
  exact ⟨.inl (ha ▸ (linkstat_ne_leghold n n).symm), .inl (ha ▸ (linkstat_ne_leghold n n).symm)⟩

/-- The last frame's payload and the command counts stand through a new bring-up. -/
theorem BringupBegins.count_eq {n : Fin 8} (h : BringupBegins n s t) (ha : f.adr = GLK_PSTAT.adr n ∨ f.adr = GLK_CMDCNT.adr n)
    (hf : f.lo + f.wd ≤ 32) : t.rf f = s.rf f := by
  refine h.regs f hf fun g hg => .inl fun e => ?_
  have hadr : g.adr < linkBase ∨ g.adr = GLK_LEGHOLD.adr n ∨ g.adr = GLK_SAMPSTAT.adr n ∨ g.adr = GLK_LINKSTAT.adr n := by
    simp only [bringupFields, leaveFields, List.mem_append, List.mem_cons, List.not_mem_nil, or_false] at hg
    rcases hg with ((rfl | rfl) | hw) | rfl | rfl
    · exact .inr (.inl rfl)
    · exact .inr (.inr (.inl rfl))
    · exact .inl (bankWords_below n g hw)
    · exact .inr (.inr (.inr rfl))
    · exact .inr (.inr (.inr rfl))
  rw [← e] at hadr
  simp only [linkBase, GLK_SUMMARY.adr, GLK_LEGHOLD.adr, GLK_SAMPSTAT.adr, GLK_LINKSTAT.adr, GLK_PSTAT.adr, GLK_CMDCNT.adr] at hadr ha
  omega

/-! ### Link loss (R124) -/

/-- The link lost: LINK held and 64 raised. -/
def State.lossNoted (s : State) (n : Nat) : State := (s.wb (GLK_LEGHOLD.LINK n) true).raiseEv 64 (glkDetail n 0 0)

/-- The pending set of its bank discarded. -/
def State.lossDropped (s : State) (n : Nat) : State := if (s.lossNoted n).linkBank n then (s.lossNoted n).dropPend n else s.lossNoted n

theorem linkLoss_eq (s : State) (n : Nat) :
    s.linkLoss n = (((s.lossDropped n).glkLeave n).wf (GLK_LINKSTAT.STATE n) glDown).glkBringup n := rfl

theorem glkDetail_port (n : Fin 8) : glkDetail n 0 0 = n := by rw [glkDetail]; omega

theorem lossNoted_raised (s : State) (n : Fin 8) : Raised s (s.lossNoted n) 64 n := by
  obtain ⟨r, h⟩ : RegsOnly s (s.wb (GLK_LEGHOLD.LINK n) true) := RegsOnly.refl.wb
  rw [State.lossNoted, glkDetail_port, h]
  rfl

theorem lossDropped_tly (s : State) (n : Nat) : (s.lossDropped n).tly = (s.lossNoted n).tly := by
  rw [State.lossDropped]
  split
  · exact (dropPend_only _ n).tly_eq
  · rfl

theorem lossDropped_link (s : State) (n : Fin 8) : (s.lossDropped n).rf (GLK_LEGHOLD.LINK n) = 1 := by
  have hnoted : (s.lossNoted n).rf (GLK_LEGHOLD.LINK n) = 1 :=
    (raiseEv_rf _ _ _ _).trans (rf_wf_same s _ _ (Nat.le_of_ble_eq_true rfl))
  rw [State.lossDropped]
  split
  · rw [(dropPend_regsBut _ n).link_eq (anewWords_below n) (Nat.le_add_right_of_le (by decide)) (Nat.le_of_ble_eq_true rfl), hnoted]
  · exact hnoted

theorem OffPads.glkLeave (h : OffPads s t) : OffPads s (t.glkLeave n) := by
  unfold Machine.State.glkLeave
  exact h.holdLegs.wf.wf.setPort

/-- Link loss begins bring-up anew, with LINK held and 64 raised. -/
structure LinkLost (n : Nat) (s t : State) : Prop where
  state_eq : t.portSt n = glLock
  link_eq : t.rf (GLK_LEGHOLD.LINK n) = 1
  notup_eq : t.rf (GLK_LEGHOLD.NOTUP n) = 1
  valid_eq : t.rf (GLK_SAMPSTAT.VALID n) = 0
  tries_eq : t.rf (GLK_LINKSTAT.TRIES n) = 1
  raised : Raised s t 64 n

theorem linkLoss_lost (s : State) (n : Fin 8) : LinkLost n s (s.linkLoss n) := by
  have hbegins := glkBringup_begins (((s.lossDropped n).glkLeave n).wf (GLK_LINKSTAT.STATE n) glDown) n
  have hpads : OffPads (s.lossDropped n) ((((s.lossDropped n).glkLeave n).wf (GLK_LINKSTAT.STATE n) glDown).glkBringup n) :=
    (OffPads.refl _).glkLeave.wf.glkBringup
  have hlink : (((s.lossDropped n).glkLeave n).wf (GLK_LINKSTAT.STATE n) glDown).rf (GLK_LEGHOLD.LINK n) = 1 := by
    rw [rf_wf_other _ _ _ _ (Nat.le_of_ble_eq_true rfl) (.inl (linkstat_ne_leghold n n).symm)]
    refine Eq.trans ?_ (lossDropped_link s n)
    exact (notUp_reacts due_unsent _ n).regs.setPort _ (Nat.le_of_ble_eq_true rfl)
      (leaveFields_apart rfl (.inl (Nat.le_of_ble_eq_true rfl)))
  rw [linkLoss_eq]
  refine ⟨hbegins.state_eq, ?_, hbegins.notup_eq, hbegins.valid_eq, hbegins.tries_eq, ?_⟩
  · exact (hbegins.hold_eq rfl (.inl (Nat.le_of_ble_eq_true rfl)) (Nat.le_of_ble_eq_true rfl)).trans hlink
  · rw [Raised, hpads.tly_eq, lossDropped_tly]
    exact lossNoted_raised s n

end Sys2Proof.Machine
end

section
/-! PROOF. An upstream frame discarded, and one missing (R101, R124). -/

namespace Sys2Proof.Machine

variable {s t u : State} {n : Fin 8}

/-! ### A count of a port's errors -/

theorem linkstat_ne_errcnt (n k : Nat) : GLK_LINKSTAT.adr n ≠ GLK_ERRCNT.adr k := by unfold GLK_LINKSTAT.adr GLK_ERRCNT.adr; omega

theorem sampstat_ne_linkstat_errcnt (n k : Nat) : GLK_SAMPSTAT.adr n ≠ GLK_LINKSTAT.adr k ∧ GLK_SAMPSTAT.adr n ≠ GLK_ERRCNT.adr k := by
  unfold GLK_SAMPSTAT.adr GLK_LINKSTAT.adr GLK_ERRCNT.adr
  omega

theorem incSat_port (s : State) (f : Fld) (k : Nat) : (s.incSat f).port k = s.port k := by
  obtain ⟨r, h⟩ : RegsOnly s (s.incSat f) := RegsOnly.refl.incSat
  rw [h]
  rfl

/-! ### A frame discarded before the next is due (R101) -/

theorem discardIn_early (h : s.gt < (s.port n).lastStart + 4980) : s.discardIn n = s.incSat (GLK_ERRCNT.CRCERR n) := by
  obtain ⟨r, hr⟩ : RegsOnly s (s.incSat (GLK_ERRCNT.CRCERR n)) := RegsOnly.refl.incSat
  have hgt : (s.incSat (GLK_ERRCNT.CRCERR n)).gt = s.gt := by rw [hr]
  refine if_neg fun hc => ?_
  rw [incSat_port, hgt] at hc
  exact absurd h (Nat.not_lt.2 (of_decide_eq_true (Bool.and_eq_true _ _ ▸ hc).2))

theorem upstreamFrameDiscard_next (hon : s.on = true) (h : s.RulesIdle) (hd : s.gt < (s.port n).lastStart + 4980) :
    exec (.upstreamFrameDiscard n) s = .next ((s.used 1).incSat (GLK_ERRCNT.CRCERR n)) := by
  have hused : (s.used 1).RulesIdle := ⟨h.arm, h.held⟩
  change s.whenOn (fun s => (s.used 1).glkUpIn n (s.freeNat % 256) (.upstreamFrameDiscard (Fin.ofNat 8 n))) = _
  rw [whenOn_on hon, State.glkUpIn, recvInj_free hused, Fin.ofNat_eq_cast, Fin.cast_val_eq_self, ← discardIn_early (s := s.used 1) hd]
  rfl

/-! ### A frame missing (R124) -/

theorem statusMissing_next (hu : s.portUp n = true) (ht : (s.port n).lastStart + 5020 ≤ s.gt) :
    exec (.statusMissing n) s = .next ((s.incSat (GLK_ERRCNT.MISSED n)).statusLost n ((s.port n).lastStart + 5020)) := by
  change execStatusMissing n s = _
  rw [execStatusMissing, whenB_true (by simp [hu, ht])]

/-- Only registers and the ports' own state differ. -/
def PortsOnly (s t : State) : Prop := ∃ r g, t = { s with regs := r, glk := g }

theorem PortsOnly.refl : PortsOnly s s := ⟨_, _, rfl⟩

theorem PortsOnly.setPort (h : PortsOnly s t) {k : Nat} {p : PortSt} : PortsOnly s (t.setPort k p) := by
  obtain ⟨r, g, rfl⟩ := h
  exact ⟨_, _, rfl⟩

theorem PortsOnly.regsOnly (h : PortsOnly s t) (k : RegsOnly t u) : PortsOnly s u := by
  obtain ⟨r, g, rfl⟩ := h
  obtain ⟨q, rfl⟩ := k
  exact ⟨_, _, rfl⟩

theorem staleSets_only (s : State) (n start : Nat) : PortsOnly s (s.staleSets n start) := by
  rw [State.staleSets]
  split
  · exact PortsOnly.refl.setPort.regsOnly RegsOnly.refl.wb.incSat
  · exact .refl

theorem staleSets_regsBut (s : State) (n start : Nat) : RegsBut [whole (GLK_SAMPSTAT.adr n)] s (s.staleSets n start) := by
  rw [State.staleSets]
  split
  · exact ((RegsBut.refl _ s).setPort.wf_whole (f := GLK_SAMPSTAT.STALE n) List.mem_cons_self).wf_whole (f := GLK_SAMPSTAT.AGE n)
      List.mem_cons_self
  · exact .refl _ s

theorem staleSets_none (h : (s.port n).setsDue = []) (start : Nat) : s.staleSets n start = s := by
  rw [State.staleSets, if_neg]
  rw [h]
  exact Bool.false_ne_true

/-- The port with one frame more missing. -/
def PortSt.missed (p : PortSt) (start : Nat) : PortSt := { p with missRun := p.missRun + 1, lastStart := start, frames := p.frames + 1 }

/-- One frame more counted as missing, with the samples it was to carry. -/
def State.missNoted (s : State) (n start : Nat) : State := (s.staleSets n start).setPort n (((s.staleSets n start).port n).missed start)

theorem statusLost_eq (s : State) (n : Fin 8) (start : Nat) : s.statusLost n start =
    if 3 ≤ (s.port n).missRun + 1 then (s.missNoted n start).linkLoss n else s.missNoted n start := by
  have hrun : ((s.staleSets n start).port n).missRun = (s.port n).missRun := congrArg Prod.snd ((Reported.staleSets .refl).port_eq n)
  rw [← hrun]
  rfl

theorem missNoted_only (s : State) (n start : Nat) : PortsOnly s (s.missNoted n start) := (staleSets_only s n start).setPort

theorem missNoted_regsBut (s : State) (n start : Nat) : RegsBut [whole (GLK_SAMPSTAT.adr n)] s (s.missNoted n start) :=
  (staleSets_regsBut s n start).setPort

theorem missNoted_due (s : State) (n : Fin 8) (start : Nat) : ((s.missNoted n start).port n).due = (start, (s.port n).missRun + 1) := by
  have hdue := (Reported.staleSets (n := n) (start := start) (.refl (s := s))).port_eq n
  rw [State.missNoted, setPort_port]
  exact congrArg (fun d => (start, d.2 + 1)) hdue

/-- The state as one STATUS frame more is missing. -/
def State.missCounted (s : State) (n : Nat) : State := (s.incSat (GLK_ERRCNT.MISSED n)).missNoted n ((s.port n).lastStart + 5020)

theorem statusMissing_counted (hu : s.portUp n = true) (ht : (s.port n).lastStart + 5020 ≤ s.gt) (hr : (s.port n).missRun < 2) :
    exec (.statusMissing n) s = .next (s.missCounted n) := by
  rw [statusMissing_next hu ht, statusLost_eq, incSat_port, if_neg (by omega), State.missCounted]

theorem statusMissing_third (hu : s.portUp n = true) (ht : (s.port n).lastStart + 5020 ≤ s.gt) (hr : (s.port n).missRun = 2) :
    exec (.statusMissing n) s = .next ((s.missCounted n).linkLoss n) := by
  rw [statusMissing_next hu ht, statusLost_eq, incSat_port, if_pos (by omega), State.missCounted]

theorem missCounted_only (s : State) (n : Nat) : PortsOnly s (s.missCounted n) := by
  obtain ⟨r, h⟩ : RegsOnly s (s.incSat (GLK_ERRCNT.MISSED n)) := RegsOnly.refl.incSat
  obtain ⟨q, g, e⟩ := missNoted_only (s.incSat (GLK_ERRCNT.MISSED n)) n ((s.port n).lastStart + 5020)
  exact ⟨q, g, by rw [State.missCounted, e, h]⟩

theorem missCounted_due (s : State) (n : Fin 8) : ((s.missCounted n).port n).due = ((s.port n).lastStart + 5020, (s.port n).missRun + 1) := by
  rw [State.missCounted, missNoted_due, incSat_port]

theorem missCounted_missed (s : State) (n : Nat) :
    (s.missCounted n).rf (GLK_ERRCNT.MISSED n) = min (s.rf (GLK_ERRCNT.MISSED n) + 1) 65535 := by
  have hregs := missNoted_regsBut (s.incSat (GLK_ERRCNT.MISSED n)) n ((s.port n).lastStart + 5020)
  refine (hregs _ (Nat.le_of_ble_eq_true rfl) ?_).trans (rf_incSat_same s _ (Nat.le_of_ble_eq_true rfl))
  exact List.forall_mem_singleton.2 (.inl (sampstat_ne_linkstat_errcnt n n).2.symm)

theorem missCounted_up (h : s.portUp n = true) : (s.missCounted n).portUp n = true := by
  have hregs := missNoted_regsBut (s.incSat (GLK_ERRCNT.MISSED n)) n ((s.port n).lastStart + 5020)
  have hstate : (s.missCounted n).portSt n = s.portSt n :=
    (hregs _ (Nat.le_of_ble_eq_true rfl) (List.forall_mem_singleton.2 (.inl (sampstat_ne_linkstat_errcnt n n).1.symm))).trans
      (rf_wf_other s _ _ _ (Nat.le_of_ble_eq_true rfl) (.inl (linkstat_ne_errcnt n n)))
  rw [State.portUp, hstate]
  exact h

theorem missCounted_regsBut (h : (s.port n).setsDue = []) : RegsBut [GLK_ERRCNT.MISSED n] s (s.missCounted n) := by
  rw [State.missCounted, State.missNoted, staleSets_none (by rw [incSat_port]; exact h)]
  exact ((RegsBut.refl _ s).incSat List.mem_cons_self).setPort

/-- The link lost at the third frame missing. -/
theorem missThird_lost (s : State) (n : Fin 8) : LinkLost n s ((s.missCounted n).linkLoss n) := by
  obtain ⟨r, g, h⟩ := missCounted_only s n
  have hlost := linkLoss_lost (s.missCounted n) n
  refine { hlost with raised := ?_ }
  have hraised := hlost.raised
  rw [Raised] at hraised ⊢
  rw [hraised, h]
  rfl

end Sys2Proof.Machine
end

section
/-! PROOF. A STATUS frame on an UP port: what is recorded of it, and the holds for time and for commands (R119, R128). -/

namespace Sys2Proof.Machine

variable {s t u : State} {n : Fin 8}

/-! ### Bytes of a frame, and registers whole -/

theorem leAt_byte {k : Nat} (v : Vector Byte k) (i : Nat) (h : i < k) : leAt v.toList i 1 = v[i].toNat := by
  simp [leAt, sliceB, ofLe, h]

theorem rn_eq_whole (s : State) (a : Nat) : s.rn a = s.rf (whole a) := by
  rw [State.rf, Fld.getN, whole, Nat.shiftRight_zero]
  exact (Nat.mod_eq_of_lt (rn_lt s a)).symm

/-! ### The frame recorded (R119) -/

/-- The content of GLK_PSTATn for a frame. -/
def frameWord (b : List Byte) : Nat :=
  leAt b 4 1 * 2 ^ 24 + leAt b 0 1 * 2 ^ 16 + leAt b 1 1 % 64 * 2 ^ 8
    + leAt b 2 1 / 64 % 2 * 2 ^ 7 + leAt b 3 1 / 128 * 2 ^ 6 + leAt b 2 1 / 8 % 8 * 2 ^ 3 + leAt b 2 1 % 8

theorem frameWord_lt (b : List Byte) : frameWord b < 2 ^ 32 := by
  have h0 := leAt_lt b 0 1
  have h3 := leAt_lt b 3 1
  have h4 := leAt_lt b 4 1
  unfold frameWord
  omega

theorem statusRecord_eq (s : State) (n : Nat) (b : List Byte) : s.statusRecord n b = s.setN (GLK_PSTAT.adr n) (frameWord b) := rfl

/-- The port with a frame's start. -/
def PortSt.heard (p : PortSt) (start : Nat) : PortSt := { p with lastStart := start, missRun := 0 }

/-- The frame's content and its count of commands recorded. -/
def State.frameCounted (s : State) (n start : Nat) (b : List Byte) : State :=
  ((s.statusRecord n b).countPassed n start (leAt b 2 1 / 8 % 8) (leAt b 5 1)).wf (GLK_CMDCNT.EXEC n) (leAt b 5 1)

def State.frameHeard (s : State) (n start : Nat) (b : List Byte) : State :=
  (s.frameCounted n start b).setPort n (((s.frameCounted n start b).port n).heard start)

/-- The lane's reactions to the frame's reports, and its samples. -/
def State.frameApplied (s : State) (n start : Nat) (b : List Byte) : State :=
  ((s.frameHeard n start b).statusReports n b).statusSamples n start b

/-- A part of a port's state that the count of its commands does not touch. -/
def Uncounted {α : Type} (P : PortSt → α) : Prop := ∀ p k c, P { p with passed := k, cmds := c } = P p

theorem countPassed_reacts {α : Type} {P : PortSt → α} (hP : Uncounted P) (s : State) (n start intlk exec : Nat) :
    Reacts P [GLK_CMDCNT.SENT n] s (s.countPassed n start intlk exec) := by
  unfold State.countPassed
  have hsent {k v : Nat} {c : List GlkCmd} : Reacts P [GLK_CMDCNT.SENT n] s
      ((s.setPort n { s.port n with passed := k, cmds := c }).wf (GLK_CMDCNT.SENT n) v) := (Reacts.refl.setPort (hP _ _ _)).wf List.mem_cons_self
  refine .ite hsent (Reacts.foldl hsent fun _ hu => ?_)
  exact .ite hu.setLeg hu

/-- The registers of a frame's record. -/
def recordFields (n : Nat) : List Fld := [whole (GLK_PSTAT.adr n), GLK_CMDCNT.SENT n, GLK_CMDCNT.EXEC n]

theorem frameHeard_reacts {α : Type} {P : PortSt → α} (hP : Uncounted P) (hh : ∀ p g, P (p.heard g) = P p)
    (s : State) (n start : Nat) (b : List Byte) :
    Reacts P (recordFields n) s (s.frameHeard n start b) := by
  have hrecord : Reacts P (recordFields n) s (s.statusRecord n b) := Reacts.refl.setN (by simp [recordFields])
  have hcount : Reacts P (recordFields n) s (s.frameCounted n start b) :=
    (hrecord.trans ((countPassed_reacts hP _ n start _ _).mono (by simp [recordFields]))).wf (by simp [recordFields])
  exact hcount.setPort (hh _ _)

theorem frameHeard_regsBut (s : State) (n start : Nat) (b : List Byte) : RegsBut (recordFields n) s (s.frameHeard n start b) :=
  (frameHeard_reacts (P := fun _ => ()) (fun _ _ _ => rfl) (fun _ _ => rfl) s n start b).regs

theorem frameHeard_pstat (s : State) (n start : Nat) (b : List Byte) :
    (s.frameHeard n start b).rf (whole (GLK_PSTAT.adr n)) = frameWord b := by
  have hne : GLK_PSTAT.adr n ≠ GLK_CMDCNT.adr n := by unfold GLK_PSTAT.adr GLK_CMDCNT.adr; omega
  have hregs : RegsBut [GLK_CMDCNT.SENT n, GLK_CMDCNT.EXEC n] (s.statusRecord n b) (s.frameHeard n start b) :=
    (((countPassed_reacts (P := fun _ => ()) (fun _ _ _ => rfl) _ n start _ _).regs.mono (by simp)).wf (by simp)).setPort
  rw [hregs (whole (GLK_PSTAT.adr n)) (Nat.le_of_ble_eq_true rfl) (by simp [Fld.apart, whole, GLK_CMDCNT.SENT, GLK_CMDCNT.EXEC, hne]),
    statusRecord_eq, ← rn_eq_whole, rn_setN, if_pos rfl]
  exact Nat.mod_eq_of_lt (frameWord_lt b)

theorem frameHeard_exec (s : State) (n start : Nat) (b : List Byte) : (s.frameHeard n start b).rf (GLK_CMDCNT.EXEC n) = leAt b 5 1 := by
  have hexec : (s.frameHeard n start b).rf (GLK_CMDCNT.EXEC n) = leAt b 5 1 % 2 ^ 8 :=
    RegsBut.rf_written (l := []) (RegsBut.refl _ _).setPort (apart_of_bits _ _ rfl)
  exact hexec.trans (Nat.mod_eq_of_lt (leAt_lt b 5 1))

theorem frameHeard_due (s : State) (n start : Nat) (b : List Byte) : ((s.frameHeard n start b).port n).due = (start, 0) := by
  rw [State.frameHeard, setPort_port]
  rfl

/-- A field of the link's status or of a frame's record. -/
def Fld.OfRecord (f : Fld) (n : Nat) : Prop :=
  f.lo + f.wd ≤ 32 ∧ (f.adr = GLK_LINKSTAT.adr n ∨ f.adr = GLK_PSTAT.adr n ∨ f.adr = GLK_CMDCNT.adr n)

/-- A link's status and a frame's record stand through the reactions to the frame. -/
theorem Reported.rf_eq {f : Fld} (h : Reported n s t) (hf : f.OfRecord n) : t.rf f = s.rf f := by
  obtain ⟨hlt, hadr⟩ := hf
  refine h.regs f hlt fun g hg => .inl fun e => ?_
  have hword : g.adr < linkBase ∨ g.adr = GLK_LEGHOLD.adr n ∨ g.adr = GLK_SAMPA.adr n ∨ g.adr = GLK_SAMPB.adr n ∨ g.adr = GLK_SAMPC.adr n ∨
      g.adr = GLK_SAMPSTAT.adr n := by
    rcases List.mem_append.1 hg with hg | hg
    · simp only [List.mem_cons, List.not_mem_nil, or_false] at hg
      rcases hg with rfl | rfl | rfl | rfl | rfl <;> simp [whole]
    · exact .inl (bankWords_below n g hg)
  rw [← e] at hword
  simp only [linkBase, GLK_SUMMARY.adr, GLK_LEGHOLD.adr, GLK_SAMPA.adr, GLK_SAMPB.adr, GLK_SAMPC.adr, GLK_SAMPSTAT.adr, GLK_LINKSTAT.adr,
    GLK_PSTAT.adr, GLK_CMDCNT.adr] at hword hadr
  omega

theorem frameApplied_reported (s : State) (n start : Nat) (b : List Byte) : Reported n (s.frameHeard n start b) (s.frameApplied n start b) :=
  Reported.statusSamples (Reported.statusReports .refl)

/-- What a STATUS frame on an UP port leaves on record. -/
structure FrameKept (n start : Nat) (b : List Byte) (t : State) : Prop where
  exec_eq : t.rf (GLK_CMDCNT.EXEC n) = leAt b 5 1
  pstat_eq : t.rf (whole (GLK_PSTAT.adr n)) = frameWord b
  due_eq : (t.port n).due = (start, 0)

theorem frameApplied_kept (s : State) (n : Fin 8) (start : Nat) (b : List Byte) : FrameKept n start b (s.frameApplied n start b) := by
  have h := frameApplied_reported s n start b
  refine ⟨?_, ?_, (h.port_eq n).trans (frameHeard_due s n start b)⟩
  · exact (h.rf_eq ⟨Nat.le_of_ble_eq_true rfl, .inr (.inr rfl)⟩).trans (frameHeard_exec s n start b)
  · exact (h.rf_eq ⟨Nat.le_of_ble_eq_true rfl, .inr (.inl rfl)⟩).trans (frameHeard_pstat s n start b)

theorem frameApplied_te (s : State) (n : Fin 8) (start : Nat) (b : List Byte) : (s.frameApplied n start b).portTe n = s.portTe n := by
  have hheard : (s.frameHeard n start b).rf (GLK_LINKSTAT.MODE n) = s.rf (GLK_LINKSTAT.MODE n) := by
    refine frameHeard_regsBut s n start b _ (Nat.le_of_ble_eq_true rfl) fun g hg => .inl ?_
    simp only [recordFields, List.mem_cons, List.not_mem_nil, or_false] at hg
    rcases hg with rfl | rfl | rfl <;>
      simp only [whole, GLK_LINKSTAT.MODE, GLK_CMDCNT.SENT, GLK_CMDCNT.EXEC, GLK_LINKSTAT.adr, GLK_PSTAT.adr, GLK_CMDCNT.adr] <;> omega
  rw [State.portTe, State.rb, (frameApplied_reported s n start b).rf_eq ⟨Nat.le_of_ble_eq_true rfl, .inl rfl⟩, hheard]
  rfl

/-! ### Time and commands judged (R119, R128) -/

/-- The holds for a frame without SYNCOK and for one of another count. -/
def State.lapsesNoted (s : State) (n : Nat) (timeBad execBad : Bool) : State :=
  let s := if timeBad then (s.wb (GLK_LEGHOLD.TIME n) true).raiseEv 74 (glkDetail n 0 0) else s
  if execBad then (s.wb (GLK_LEGHOLD.EXEC n) true).raiseEv 73 (glkDetail n 0 0) else s

def State.frameJudged (s : State) (n : Nat) (timeBad execBad : Bool) : State :=
  if timeBad || execBad then (s.lapsesNoted n timeBad execBad).glkBringup n else s.lapsesNoted n timeBad execBad

theorem statusApply_eq (s : State) (n start : Nat) (b : List Byte) : (s.statusRecord n b).statusApply n start b =
    (s.frameApplied n start b).frameJudged n ((s.frameApplied n start b).portTe n && !(leAt b 3 1).testBit 7)
      ((s.frameApplied n start b).portTe n && ((s.frameApplied n start b).port n).passed % 256 != leAt b 5 1) := rfl

theorem lapsesNoted_reacts (s : State) (n : Nat) (x y : Bool) :
    Reacts PortSt.due [GLK_LEGHOLD.TIME n, GLK_LEGHOLD.EXEC n] s (s.lapsesNoted n x y) := by
  unfold State.lapsesNoted
  have htime : Reacts PortSt.due [GLK_LEGHOLD.TIME n, GLK_LEGHOLD.EXEC n] s
      (if x = true then (s.wb (GLK_LEGHOLD.TIME n) true).raiseEv 74 (glkDetail n 0 0) else s) :=
    .ite (Reacts.refl.wf (by simp)).raiseEv .refl
  exact .ite (htime.wf (by simp)).raiseEv htime

theorem lapsesNoted_time (s : State) (n : Nat) (y : Bool) : (s.lapsesNoted n true y).rf (GLK_LEGHOLD.TIME n) = 1 := by
  have htime : RegsBut [GLK_LEGHOLD.EXEC n] (s.wb (GLK_LEGHOLD.TIME n) true) ((s.wb (GLK_LEGHOLD.TIME n) true).raiseEv 74 (glkDetail n 0 0)) :=
    (RegsBut.refl _ _).raiseEv
  refine RegsBut.rf_written (l := [GLK_LEGHOLD.EXEC n]) (s := s) (v := 1) ?_ (apart_of_bits _ _ rfl)
  exact .ite (htime.wb List.mem_cons_self).raiseEv htime

/-- The record of a frame stands through a hold and a new bring-up. -/
theorem frameJudged_kept {start : Nat} {b : List Byte} (h : FrameKept n start b s) (x y : Bool) : FrameKept n start b (s.frameJudged n x y) := by
  have hnote := lapsesNoted_reacts s n x y
  have hkeep {f : Fld} (hf : f.lo + f.wd ≤ 32) (ha : f.adr = GLK_PSTAT.adr n ∨ f.adr = GLK_CMDCNT.adr n) :
      (s.lapsesNoted n x y).rf f = s.rf f := by
    have hne : f.adr ≠ GLK_LEGHOLD.adr n := by unfold GLK_LEGHOLD.adr GLK_PSTAT.adr GLK_CMDCNT.adr at *; omega
    exact hnote.regs f hf (by simp [Fld.apart, GLK_LEGHOLD.TIME, GLK_LEGHOLD.EXEC, hne])
  have hnoted : FrameKept n start b (s.lapsesNoted n x y) :=
    ⟨(hkeep (Nat.le_of_ble_eq_true rfl) (.inr rfl)).trans h.exec_eq, (hkeep (Nat.le_of_ble_eq_true rfl) (.inl rfl)).trans h.pstat_eq,
      (hnote.port_eq n).trans h.due_eq⟩
  unfold State.frameJudged
  split
  · have hnew := glkBringup_begins (s.lapsesNoted n x y) n
    refine ⟨(hnew.count_eq (.inr rfl) (Nat.le_of_ble_eq_true rfl)).trans hnoted.exec_eq,
      (hnew.count_eq (.inl rfl) (Nat.le_of_ble_eq_true rfl)).trans hnoted.pstat_eq, hnew.due_eq.trans ?_⟩
    rw [show ((s.lapsesNoted n x y).port n).lastStart = start from congrArg Prod.fst hnoted.due_eq]
  · exact hnoted

theorem frameJudged_time (s : State) (n : Fin 8) (y : Bool) :
    (s.frameJudged n true y).portSt n = glLock ∧ (s.frameJudged n true y).rf (GLK_LEGHOLD.TIME n) = 1 := by
  have hnew := glkBringup_begins (s.lapsesNoted n true y) n
  exact ⟨hnew.state_eq, (hnew.hold_eq rfl (.inl (Nat.le_of_ble_eq_true rfl)) (Nat.le_of_ble_eq_true rfl)).trans (lapsesNoted_time s n y)⟩

/-! ### STATUS_RECEIVE on an UP port -/

theorem statusIn_up (hu : s.portUp n = true) (b : List Byte) (g : Nat) : s.statusIn n b g = (s.statusRecord n b).statusApply n g b := by
  have hst : s.portSt n ≠ glTrain := by
    rw [beq_iff_eq.1 hu]
    decide
  rw [State.statusIn, if_neg hst, if_pos hu]

theorem statusReceive_next (hon : s.on = true) (h : s.RulesIdle) (hu : s.portUp n = true) (v : Vector Byte 20) (g : Nat) :
    exec (.statusReceive n v g) s = .next ((s.statusRecord n v.toList).statusApply n g v.toList) := by
  change s.whenOn (fun s => s.glkUpIn n 0x10 (.statusReceive (Fin.ofNat 8 n) v g)) = _
  rw [whenOn_on hon, State.glkUpIn, recvInj_free h, Fin.ofNat_eq_cast, Fin.cast_val_eq_self, ← statusIn_up hu]
  rfl

theorem statusApply_kept (s : State) (n : Fin 8) (g : Nat) (b : List Byte) : FrameKept n g b ((s.statusRecord n b).statusApply n g b) := by
  rw [statusApply_eq]
  exact frameJudged_kept (frameApplied_kept s n g b) _ _

/-- A frame without SYNCOK in timed-edge mode. -/
theorem statusApply_time (hte : s.portTe n = true) {b : List Byte} (hb : (leAt b 3 1).testBit 7 = false) (g : Nat) :
    ((s.statusRecord n b).statusApply n g b).portSt n = glLock ∧
    ((s.statusRecord n b).statusApply n g b).rf (GLK_LEGHOLD.TIME n) = 1 := by
  rw [statusApply_eq, frameApplied_te, hte, hb]
  exact frameJudged_time _ n _

/-- Level mode judges neither time nor commands. -/
theorem statusApply_level (hte : s.portTe n = false) (g : Nat) (b : List Byte) :
    (s.statusRecord n b).statusApply n g b = s.frameApplied n g b := by
  rw [statusApply_eq, frameApplied_te, hte]
  rfl

end Sys2Proof.Machine
end

section
/-! PROOF. One fresh DESAT in level mode: the leg held, and nothing else of the frame (R119, R120). -/

namespace Sys2Proof.Machine

variable {s t u : State} {n : Fin 8} {l : Fin 3}

/-! ### The report (R120) -/

/-- The port with a leg's first DESAT report. -/
def PortSt.desatSeen (p : PortSt) (l : Nat) : PortSt := { p with desatAt := mset p.desatAt l p.frames, dualLegs := 0 }

/-- A leg held for DESAT. -/
def State.desatHeld (s : State) (n l : Nat) : State :=
  ((s.setPort n ((s.port n).desatSeen l)).raiseEv 67 (glkDetail n (2 ^ l) 0)).holdLeg n l 0

theorem statusDesat_fresh (h : s.rf (GLK_LEGHOLD.LEGn n) = 0) (l : Fin 3) : s.statusDesat n (2 ^ l.val) = s.desatHeld n l := by
  have hbyte (i : Nat) : s.holdByte n i = 0 := by rw [State.holdByte, h, Nat.zero_shiftRight]
  have hfresh : [0, 1, 2].filter (fun i => (2 ^ l.val).testBit i) = [l.val] := by revert l; decide
  unfold State.statusDesat
  simp [hbyte, hfresh]
  rfl

/-! ### What follows one DESAT and nothing else (Table GLK-7) -/

/-- One leg of one port is held, for DESAT; nothing else is reported by any port. -/
structure OneHeld (n : Fin 8) (l : Fin 3) (t : State) : Prop where
  word : ∀ i < 8, t.rn (GLK_LEGHOLD.adr i) = if i = n.val then 2 ^ (8 * l.val) else 0
  cold : ∀ i < 8, (t.port i).hot = false
  calm : t.asserted 65 = false ∧ t.asserted 66 = false ∧ t.asserted 72 = false

theorem OneHeld.byte (h : OneHeld n l t) {i j : Nat} (hi : i < 8) (hj : j < 3) :
    t.holdByte i j = if i = n.val ∧ j = l.val then 1 else 0 := by
  have hword : t.holdByte i j = ((if i = n.val then 2 ^ (8 * l.val) else 0) % 2 ^ 24) >>> (8 * j) % 256 := by
    rw [State.holdByte, State.rf, ← h.word i hi]
    rfl
  have hbyte (k m : Fin 3) : (2 ^ (8 * k.val) % 2 ^ 24) >>> (8 * m.val) % 256 = if m = k then 1 else 0 := by revert k m; decide
  rw [hword]
  by_cases hn : i = n.val
  · simp only [hn, if_true, true_and]
    exact (hbyte l ⟨j, hj⟩).trans (if_congr Fin.ext_iff rfl rfl)
  · simp [hn]

/-- A reason other than DESAT holds no leg. -/
theorem OneHeld.reason (h : OneHeld n l t) {i j r : Nat} (hi : i < 8) (hj : j < 3) (hr : 0 < r) : (t.holdByte i j).testBit r = false := by
  rw [h.byte hi hj]
  split
  · exact Nat.testBit_lt_two_pow (Nat.one_lt_two_pow hr.ne')
  · exact Nat.zero_testBit r

theorem OneHeld.otsd (h : OneHeld n l t) {i : Nat} (hi : i < 8) : t.rb (GLK_LEGHOLD.OTSD i) = false := by
  have hbit (k : Fin 3) : 2 ^ (8 * k.val) >>> 25 % 2 ^ 1 = 0 := by revert k; decide
  have hword : t.rf (GLK_LEGHOLD.OTSD i) = (GLK_LEGHOLD.OTSD i).getN (if i = n.val then 2 ^ (8 * l.val) else 0) := by
    rw [← h.word i hi]
    rfl
  rw [State.rb, hword]
  split
  · exact congrArg (· != 0) (hbit l)
  · rfl

theorem deassertSrc_calm {src : Nat} (h : t.asserted src = false) : t.deassertSrc src = t := if_neg (Bool.eq_false_iff.1 h)

/-- A frame without UVLO. -/
theorem OneHeld.statusUvlo (h : OneHeld n l t) {b : Nat} (hb : b % 64 = 0) (lo : Bool) : t.statusUvlo n b lo = t := by
  have hseen {i : Nat} (hi : i < 3) : b.testBit (2 * i + b2n lo) = false := by
    have hlt : 2 * i + b2n lo < 6 := by cases lo <;> simp [b2n] <;> omega
    have hmod := Nat.testBit_mod_two_pow b 6 (2 * i + b2n lo)
    simpa [hlt, hb] using hmod.symm
  have hheld (i j : Nat) (hi : i < 8) (hj : j < 3) : (t.holdByte i j).testBit (if lo then 3 else 2) = false :=
    h.reason hi hj (by split <;> decide)
  have hany : t.anyUvlo (if lo then 3 else 2) = false := by
    simp only [State.anyUvlo, List.any_eq_false, List.mem_range]
    intro i hi
    simp [hheld i, hi]
  have hcalm : t.asserted (if lo then 66 else 65) = false := by cases lo; exacts [h.calm.1, h.calm.2.1]
  have hnone : b.testBit (2 * 0 + b2n lo) = false ∧ b.testBit (2 * 1 + b2n lo) = false ∧ b.testBit (2 * 2 + b2n lo) = false :=
    ⟨hseen (by decide), hseen (by decide), hseen (by decide)⟩
  have hbank := fun j => hheld n j n.isLt
  unfold State.statusUvlo
  simp only [List.filter_cons, List.filter_nil, List.foldl_cons, List.foldl_nil, List.isEmpty_nil, hnone, hbank 0 (by decide),
    hbank 1 (by decide), hbank 2 (by decide), Bool.false_and, Bool.false_eq_true, if_false, if_true, hany, State.glkCond, deassertSrc_calm hcalm]

theorem statusIntlk_none (t : State) (n : Nat) : t.statusIntlk n 0 = t := by simp [State.statusIntlk]

theorem statusLate_none (t : State) (n : Nat) : t.statusLate n 0 = t := by simp [State.statusLate]

theorem OneHeld.anyHot (h : OneHeld n l t) : t.anyHot = false := by
  simp only [State.anyHot, List.any_eq_false, List.mem_range]
  intro i hi
  simp [h.otsd hi, h.cold i hi]

theorem OneHeld.of_eq {m : List Fld} (h : OneHeld n l s) (hr : Reacts PortSt.hot m s t) (hm : ∀ g ∈ m, ∀ i, GLK_LEGHOLD.adr i ≠ g.adr)
    (ht : t.tly = s.tly) : OneHeld n l t := by
  refine ⟨fun i hi => ?_, fun i hi => (hr.port_eq i).trans (h.cold i hi), ?_⟩
  · rw [State.rn, hr.regs.reg fun g hg => hm g hg i]
    exact h.word i hi
  · simp only [State.asserted, ht]
    exact h.calm

theorem leghold_ne_bankWords (n : Fin 8) (i : Nat) : ∀ g ∈ bankWords n, GLK_LEGHOLD.adr i ≠ g.adr :=
  ne_bankWords n (Nat.le_add_right_of_le (by decide))

/-- The port with a temperature below its warning. -/
def PortSt.cool (p : PortSt) (temp : Int) : PortSt := { p with hot := false, temp := some temp }

theorem OneHeld.cooled (h : OneHeld n l t) (temp : Int) : OneHeld n l ((t.setPort n ((t.port n).cool temp)).offLabels n) := by
  refine h.of_eq (m := bankWords n) ?_ ?_ ?_
  · exact (Reacts.refl.setPort (h.cold n n.isLt).symm).offLabels (List.Subset.refl _)
  · exact fun g hg i => leghold_ne_bankWords n i g hg
  · obtain ⟨r, e⟩ := offLabels_only (t.setPort n ((t.port n).cool temp)) n
    rw [e]
    rfl

/-- A frame without OTSD, its temperature below the warning. -/
theorem OneHeld.statusHeat (h : OneHeld n l t) {temp : Int} (ht : temp < toSigned 8 (t.rf (GLK_STATCFG.TWARN n))) :
    t.statusHeat n false temp = (t.setPort n ((t.port n).cool temp)).offLabels n := by
  have hwarn : decide (toSigned 8 (t.rf (GLK_STATCFG.TWARN n)) ≤ temp) = false := decide_eq_false (Int.not_le.2 ht)
  have hjudge : t.tempJudge n temp = t.setPort n ((t.port n).cool temp) := by
    unfold State.tempJudge
    rw [hwarn]
    rfl
  have hcooled := h.cooled temp
  unfold State.statusHeat
  simp only [Bool.false_eq_true, if_false, h.otsd n.isLt, hjudge, State.glkCond, hcooled.anyHot, deassertSrc_calm hcooled.calm.2.2]

/-! ### The leg held (R119) -/

theorem desatHeld_reacts {α : Type} {P : PortSt → α} (hP : Unsent P) (hd : ∀ p k, P (p.desatSeen k) = P p) (s : State) (n l : Nat) :
    Reacts P (whole (GLK_LEGHOLD.adr n) :: bankWords n) s (s.desatHeld n l) :=
  (Reacts.refl.setPort (hd _ _)).raiseEv.holdLeg List.mem_cons_self (List.subset_cons_self _ _) hP

theorem desatHeld_raised (s : State) (n : Fin 8) (l : Fin 3) :
    (s.desatHeld n l).tly = (s.raiseEv 67 (n + 2 ^ l.val * 256)).tly := by
  have hpow : 2 ^ l.val < 8 := by revert l; decide
  have hdetail : glkDetail n (2 ^ l.val) 0 = n + 2 ^ l.val * 256 := by rw [glkDetail]; omega
  have hpads : OffPads ((s.setPort n ((s.port n).desatSeen l)).raiseEv 67 (glkDetail n (2 ^ l.val) 0)) (s.desatHeld n l) :=
    (OffPads.refl _ |>.wf (f := GLK_LEGHOLD.LEGn n)).holdLegs
  rw [hpads.tly_eq, hdetail]
  rfl

theorem leghold_injective {i k : Nat} (h : GLK_LEGHOLD.adr i = GLK_LEGHOLD.adr k) : i = k := by unfold GLK_LEGHOLD.adr at h; omega

theorem setHold_word (h : s.rn (GLK_LEGHOLD.adr n) = 0) (l : Fin 3) :
    (s.setHold n l 0 true).rn (GLK_LEGHOLD.adr n) = 2 ^ (8 * l.val) := by
  have hput (k : Fin 3) : (⟨0, 0, 24⟩ : Fld).putN 0 (setBitTo ((⟨0, 0, 24⟩ : Fld).getN 0) (8 * k.val + 0) true) % 2 ^ 32 =
      2 ^ (8 * k.val) := by revert k; decide
  have hzero : s.rf (GLK_LEGHOLD.LEGn n) = (GLK_LEGHOLD.LEGn n).getN 0 := congrArg _ h
  rw [State.setHold, wbit_eq, hzero, State.wf, show s.rn (GLK_LEGHOLD.LEGn n).adr = 0 from h]
  exact ((rn_setN _ _ _ _).trans (if_pos rfl)).trans (hput l)

theorem desatHeld_word (h : s.rn (GLK_LEGHOLD.adr n) = 0) (l : Fin 3) : (s.desatHeld n l).rn (GLK_LEGHOLD.adr n) = 2 ^ (8 * l.val) := by
  have hlegs (u : State) : RegsBut (bankWords n) u (u.holdLegs n (2 ^ l.val)) :=
    (Reacts.refl.holdLegs (List.Subset.refl _) due_unsent).regs
  rw [State.desatHeld, State.holdLeg, State.rn, (hlegs _).reg (leghold_ne_bankWords n n)]
  exact setHold_word h l

theorem raiseEv_asserted (s : State) {src other : Nat} (h : other ≠ src) (d : Nat) : (s.raiseEv src d).asserted other = s.asserted other :=
  congrArg SrcSt.asserted (mget_mset_ne _ _ _ h)

/-- No port holds a leg, is hot, or asserts a condition. -/
structure NoneHeld (s : State) : Prop where
  word : ∀ i < 8, s.rn (GLK_LEGHOLD.adr i) = 0
  cold : ∀ i < 8, (s.port i).hot = false
  calm : s.asserted 65 = false ∧ s.asserted 66 = false ∧ s.asserted 72 = false

theorem NoneHeld.of_eq {m : List Fld} (h : NoneHeld s) (hr : Reacts PortSt.hot m s t) (hm : ∀ g ∈ m, ∀ i, GLK_LEGHOLD.adr i ≠ g.adr)
    (ht : t.tly = s.tly) : NoneHeld t := by
  refine ⟨fun i hi => ?_, fun i hi => (hr.port_eq i).trans (h.cold i hi), ?_⟩
  · rw [State.rn, hr.regs.reg fun g hg => hm g hg i]
    exact h.word i hi
  · simp only [State.asserted, ht]
    exact h.calm

/-- A leg's first DESAT, where no port holds a leg or is hot. -/
theorem NoneHeld.desatHeld (h : NoneHeld s) : OneHeld n l (s.desatHeld n l) := by
  have hreacts := desatHeld_reacts (P := PortSt.hot) (fun _ _ _ _ _ _ _ => rfl) (fun _ _ => rfl) s n l
  have hsrc {src : Nat} (h : src ≠ 67) : (s.desatHeld n l).asserted src = s.asserted src := by
    rw [State.asserted, desatHeld_raised]
    exact raiseEv_asserted s h _
  refine ⟨fun i hi => ?_, fun i hi => (hreacts.port_eq i).trans (h.cold i hi), ?_⟩
  · split
    · next he => exact he ▸ desatHeld_word (h.word n n.isLt) l
    · next he =>
      rw [State.rn, hreacts.regs.reg (List.forall_mem_cons.2 ⟨fun e => he (leghold_injective e), leghold_ne_bankWords n i⟩)]
      exact h.word i hi
  · exact h.calm.imp (hsrc (by decide)).trans (And.imp (hsrc (by decide)).trans (hsrc (by decide)).trans)

/-! ### The leg off -/

/-- A leg not primed stays so as another goes off. -/
theorem legOff_primed_zero (h : s.rf (PWM_LEGSTAT.PRIMED m) = 0) (k cause : Nat) : (s.legOff k cause).rf (PWM_LEGSTAT.PRIMED m) = 0 := by
  by_cases hk : k = m
  · exact hk ▸ legOff_primed s k cause
  · refine (legOff_regsBut s k cause _ (Nat.le_of_ble_eq_true rfl) fun g hg => .inl ?_).trans h
    simp only [legWords, whole, List.mem_cons, List.not_mem_nil, or_false] at hg
    rcases hg with rfl | rfl | rfl | rfl <;>
      simp only [PWM_LEGSTAT.PRIMED, PWM_LEGACC.adr, PWM_LEGACC2.adr, PWM_LEGDITH.adr, PWM_LEGSTAT.adr] <;> omega

theorem legsOff_primed {m : Nat} {ms : List Nat} (hm : m ∈ ms) (s : State) (cause : Nat) :
    (s.legsOff ms cause).rf (PWM_LEGSTAT.PRIMED m) = 0 := by
  have hzero (ks : List Nat) {u : State} (h : u.rf (PWM_LEGSTAT.PRIMED m) = 0) : (u.legsOff ks cause).rf (PWM_LEGSTAT.PRIMED m) = 0 :=
    List.foldlRecOn (motive := fun u : State => u.rf (PWM_LEGSTAT.PRIMED m) = 0) _ _ h fun u hu k _ => legOff_primed_zero hu k cause
  obtain ⟨ks, js, rfl⟩ := List.append_of_mem hm
  rw [State.legsOff, List.foldl_append, List.foldl_cons]
  exact hzero js (legOff_primed _ m cause)

theorem holdLegs_primed (hb : s.linkBank n = true) (hm : s.rf (PWM_LEGSET.MODE (3 * n + l)) = modeComp) :
    (s.holdLegs n (2 ^ l.val)).rf (PWM_LEGSTAT.PRIMED (3 * n + l)) = 0 := by
  have hmem : 3 * n.val + l.val ∈ (s.drivenLegs n).filter fun m => (2 ^ l.val).testBit (m % 3) := by
    have hmod : (3 * n.val + l.val) % 3 = l.val := by omega
    have hleg : 3 * n.val + l.val ∈ [3 * n.val, 3 * n.val + 1, 3 * n.val + 2] := by simp; omega
    simp [State.drivenLegs, hm, hmod, Nat.testBit_two_pow_self] at hleg ⊢
    exact hleg
  have hoff (u : State) : RegsBut [] u (u.glkOff n (2 ^ l.val) false) := (Reacts.refl.glkOff due_unsent).regs
  rw [State.holdLegs, if_pos hb, hoff _ _ (Nat.le_of_ble_eq_true rfl) fun _ h => absurd h List.not_mem_nil]
  exact legsOff_primed hmem s 1

end Sys2Proof.Machine
end

section
/-! PROOF. STATUS_RECEIVE, UPSTREAM_FRAME_DISCARD and STATUS_MISSING as they stand together (R101, R117 to R124). -/

namespace Sys2Proof.Machine

variable {s t u : State} {n : Fin 8} {l : Fin 3}

/-! ### The registers of a frame's record lie above the legs' -/

theorem recordFields_above (n : Nat) : ∀ g ∈ recordFields n, linkBase ≤ g.adr := by
  intro g hg
  simp only [recordFields, List.mem_cons, List.not_mem_nil, or_false] at hg
  rcases hg with rfl | rfl | rfl <;> exact Nat.le_add_right_of_le (by decide)

/-- A field of a leg's or a bank's register, where only registers of gate links are written. -/
theorem RegsBut.leg_eq {m : List Fld} {f : Fld} (h : RegsBut m s t) (hm : ∀ g ∈ m, linkBase ≤ g.adr) (ha : f.adr < linkBase)
    (hf : f.lo + f.wd ≤ 32) : t.rf f = s.rf f := h f hf fun g hg => .inl (Nat.ne_of_lt (Nat.lt_of_lt_of_le ha (hm g hg)))

theorem legset_below (n : Fin 8) (l : Fin 3) : PWM_LEGSET.adr (3 * n + l) < linkBase := by
  simp only [PWM_LEGSET.adr, linkBase, GLK_SUMMARY.adr]
  omega

theorem legstat_below (n : Fin 8) (l : Fin 3) : PWM_LEGSTAT.adr (3 * n + l) < linkBase := by
  simp only [PWM_LEGSTAT.adr, linkBase, GLK_SUMMARY.adr]
  omega

theorem bankcfg_below (n : Fin 8) : PWM_BANKCFG.adr n < linkBase := by
  simp only [PWM_BANKCFG.adr, linkBase, GLK_SUMMARY.adr]
  omega

/-! ### The leg off, the port's temperature and samples noted -/

theorem desatHeld_primed (hb : s.linkBank n = true) (hm : s.rf (PWM_LEGSET.MODE (3 * n + l)) = modeComp) :
    (s.desatHeld n l).rf (PWM_LEGSTAT.PRIMED (3 * n + l)) = 0 := by
  have hregs : RegsBut [GLK_LEGHOLD.LEGn n] s
      (((s.setPort n ((s.port n).desatSeen l)).raiseEv 67 (glkDetail n (2 ^ l.val) 0)).setHold n l 0 true) :=
    (RegsBut.refl _ s).setPort.raiseEv.wbit List.mem_cons_self
  have habove : ∀ g ∈ [GLK_LEGHOLD.LEGn n], linkBase ≤ g.adr := List.forall_mem_singleton.2 (Nat.le_add_right_of_le (by decide))
  refine holdLegs_primed ?_ ((hregs.leg_eq habove (legset_below n l) (Nat.le_of_ble_eq_true rfl)).trans hm)
  rw [State.linkBank, State.rb, hregs.leg_eq habove (bankcfg_below n) (Nat.le_of_ble_eq_true rfl)]
  exact hb

theorem offLabels_primed (s : State) (n m : Nat) : (s.offLabels n).rf (PWM_LEGSTAT.PRIMED m) = s.rf (PWM_LEGSTAT.PRIMED m) := by
  have hlabel (u : State) (k : Nat) : (u.offLabel k).rf (PWM_LEGSTAT.PRIMED m) = u.rf (PWM_LEGSTAT.PRIMED m) := by
    rw [State.offLabel]
    split
    · rfl
    · exact rf_wf_beside _ _ _ _ (.inl (Nat.le_of_ble_eq_true rfl)) (Nat.le_of_ble_eq_true rfl)
  rw [State.offLabels]
  split
  · exact List.foldlRecOn (motive := fun u : State => u.rf (PWM_LEGSTAT.PRIMED m) = s.rf (PWM_LEGSTAT.PRIMED m)) _ _ rfl
      fun u hu k _ => (hlabel u k).trans hu
  · rfl

def sampleFields (n : Nat) : List Fld :=
  [whole (GLK_SAMPA.adr n), whole (GLK_SAMPB.adr n), whole (GLK_SAMPC.adr n), whole (GLK_SAMPSTAT.adr n)]

theorem sampleFields_above (n : Nat) : ∀ g ∈ sampleFields n, linkBase ≤ g.adr := by
  intro g hg
  simp only [sampleFields, List.mem_cons, List.not_mem_nil, or_false] at hg
  rcases hg with rfl | rfl | rfl | rfl <;> exact Nat.le_add_right_of_le (by decide)

theorem leghold_ne_samples (n : Nat) : ∀ g ∈ sampleFields n, ∀ i, GLK_LEGHOLD.adr i ≠ g.adr := by
  intro g hg i
  simp only [sampleFields, List.mem_cons, List.not_mem_nil, or_false] at hg
  rcases hg with rfl | rfl | rfl | rfl <;>
    simp only [whole, GLK_LEGHOLD.adr, GLK_SAMPA.adr, GLK_SAMPB.adr, GLK_SAMPC.adr, GLK_SAMPSTAT.adr] <;> omega

theorem statusSamples_reacts (s : State) (n start : Nat) (b : List Byte) : Reacts PortSt.hot (sampleFields n) s (s.statusSamples n start b) := by
  have hm : whole (GLK_SAMPSTAT.adr n) ∈ sampleFields n := by simp [sampleFields]
  unfold State.statusSamples State.staleSets
  refine .ite ?_ (.ite ?_ .refl)
  · exact (((Reacts.refl.setPort.setN (by simp [sampleFields])).setN (by simp [sampleFields])).setN (by simp [sampleFields])).setN hm
  · exact (Reacts.refl.setPort.wf_whole (f := GLK_SAMPSTAT.STALE n) hm).wf_whole (f := GLK_SAMPSTAT.AGE n) hm

theorem statusSamples_pads (s : State) (n start : Nat) (b : List Byte) : OffPads s (s.statusSamples n start b) := by
  unfold State.statusSamples State.staleSets State.incSat State.wb
  exact .ite (OffPads.refl s).setPort.setN.setN.setN.setN (.ite (OffPads.refl s).setPort.wf.wf (.refl s))

/-! ### The frame as a whole -/

/-- A frame of a leg's DESAT report and no other, its temperature below the warning. -/
structure DesatOnly (warn : Int) (l : Fin 3) (b : List Byte) : Prop where
  uvlo : leAt b 1 1 % 64 = 0
  desat : leAt b 2 1 = 2 ^ l.val
  late : leAt b 3 1 = 0
  temp : toSigned 8 (leAt b 4 1) < warn

/-- The port with one frame more. -/
def PortSt.framed (p : PortSt) : PortSt := { p with frames := p.frames + 1 }

def State.framed (s : State) (n : Nat) : State := s.setPort n (s.port n).framed

theorem NoneHeld.framed (h : NoneHeld s) (n : Nat) : NoneHeld (s.framed n) := by
  have hreacts : Reacts PortSt.hot [] s (s.framed n) := Reacts.refl.setPort (p := (s.port n).framed)
  exact h.of_eq hreacts (fun _ hg => absurd hg List.not_mem_nil) rfl

theorem statcfg_ne_leghold (n : Nat) : GLK_STATCFG.adr n ≠ GLK_LEGHOLD.adr n := by unfold GLK_STATCFG.adr GLK_LEGHOLD.adr; omega

/-- What a frame of one DESAT comes to. -/
def State.desatNoted (s : State) (n l : Nat) (temp : Int) : State :=
  (((s.framed n).desatHeld n l).setPort n ((((s.framed n).desatHeld n l).port n).cool temp)).offLabels n

theorem statusReports_desat {b : List Byte} (h : NoneHeld s) (hb : DesatOnly (toSigned 8 (s.rf (GLK_STATCFG.TWARN n))) l b) :
    s.statusReports n b = s.desatNoted n l (toSigned 8 (leAt b 4 1)) := by
  have hone : OneHeld n l ((s.framed n).desatHeld n l) := (h.framed n).desatHeld
  have hleg : (s.framed n).rf (GLK_LEGHOLD.LEGn n) = 0 := by
    have hword : s.rf (GLK_LEGHOLD.LEGn n) = (GLK_LEGHOLD.LEGn n).getN 0 := congrArg _ (h.word n n.isLt)
    exact hword.trans (by simp [Fld.getN])
  have hwarn : ((s.framed n).desatHeld n l).rf (GLK_STATCFG.TWARN n) = s.rf (GLK_STATCFG.TWARN n) := by
    refine (desatHeld_reacts due_unsent (fun _ _ => rfl) (s.framed n) n l).regs _ (Nat.le_of_ble_eq_true rfl) ?_
    exact List.forall_mem_cons.2 ⟨.inl (statcfg_ne_leghold n), fun g hg => .inl (ne_bankWords n (Nat.le_add_right_of_le (by decide)) g hg)⟩
  have hbits (k : Fin 3) : 2 ^ k.val % 8 = 2 ^ k.val ∧ 2 ^ k.val / 8 % 8 = 0 ∧ (2 ^ k.val).testBit 6 = false := by revert k; decide
  unfold State.statusReports
  change ((((((s.framed n).statusDesat n (leAt b 2 1 % 8)).statusUvlo n (leAt b 1 1) false).statusUvlo n (leAt b 1 1) true).statusIntlk n
    (leAt b 2 1 / 8 % 8)).statusLate n (leAt b 3 1 % 8)).statusHeat n ((leAt b 2 1).testBit 6) (toSigned 8 (leAt b 4 1)) = _
  rw [hb.desat, hb.late, (hbits l).1, (hbits l).2.1, (hbits l).2.2, statusDesat_fresh hleg, hone.statusUvlo hb.uvlo, hone.statusUvlo hb.uvlo,
    statusIntlk_none, statusLate_none, hone.statusHeat (hwarn ▸ hb.temp)]
  rfl

/-- What a frame of one DESAT leaves: the leg held and off, 67 raised. -/
structure DesatTaken (n : Fin 8) (l : Fin 3) (s t : State) : Prop where
  held : OneHeld n l t
  raised : Raised s t 67 (n + 2 ^ l.val * 256)
  primed : s.linkBank n = true → s.rf (PWM_LEGSET.MODE (3 * n + l)) = modeComp → t.rf (PWM_LEGSTAT.PRIMED (3 * n + l)) = 0

theorem desatNoted_taken (h : NoneHeld s) (temp : Int) : DesatTaken n l s (s.desatNoted n l temp) := by
  have hone : OneHeld n l ((s.framed n).desatHeld n l) := (h.framed n).desatHeld
  refine ⟨hone.cooled temp, ?_, fun hb hm => ?_⟩
  · obtain ⟨r, e⟩ := offLabels_only (((s.framed n).desatHeld n l).setPort n ((((s.framed n).desatHeld n l).port n).cool temp)) n
    rw [State.desatNoted, Raised, e]
    change ((s.framed n).desatHeld n l).tly.raises = _
    rw [desatHeld_raised]
    rfl
  · rw [State.desatNoted, offLabels_primed]
    exact desatHeld_primed (s := s.framed n) hb hm

theorem DesatTaken.statusSamples (h : DesatTaken n l s t) (start : Nat) (b : List Byte) : DesatTaken n l s (t.statusSamples n start b) := by
  have hreacts := statusSamples_reacts t n start b
  have htly := (statusSamples_pads t n start b).tly_eq
  refine ⟨h.held.of_eq hreacts (leghold_ne_samples n) htly, ?_, fun hb hm => ?_⟩
  · rw [Raised, htly]
    exact h.raised
  · exact (hreacts.regs.leg_eq (sampleFields_above n) (legstat_below n l) (Nat.le_of_ble_eq_true rfl)).trans (h.primed hb hm)

/-! ### The frame recorded stands beside what it reports -/

theorem recordFields_ne_leghold (n : Nat) : ∀ g ∈ recordFields n, ∀ i, GLK_LEGHOLD.adr i ≠ g.adr := by
  intro g hg i
  simp only [recordFields, List.mem_cons, List.not_mem_nil, or_false] at hg
  rcases hg with rfl | rfl | rfl <;>
    simp only [whole, GLK_CMDCNT.SENT, GLK_CMDCNT.EXEC, GLK_LEGHOLD.adr, GLK_PSTAT.adr, GLK_CMDCNT.adr] <;> omega

theorem recordFields_ne_statcfg (n : Nat) : ∀ g ∈ recordFields n, GLK_STATCFG.adr n ≠ g.adr := by
  intro g hg
  simp only [recordFields, List.mem_cons, List.not_mem_nil, or_false] at hg
  rcases hg with rfl | rfl | rfl <;>
    simp only [whole, GLK_CMDCNT.SENT, GLK_CMDCNT.EXEC, GLK_STATCFG.adr, GLK_PSTAT.adr, GLK_CMDCNT.adr] <;> omega

theorem OffPads.countPassed (h : OffPads s t) {k start intlk exec : Nat} : OffPads s (t.countPassed k start intlk exec) := by
  unfold Machine.State.countPassed
  exact .ite h.setPort.wf (OffPads.foldl h.setPort.wf fun hu => .ite hu.setLeg hu)

theorem frameHeard_pads (s : State) (n start : Nat) (b : List Byte) : OffPads s (s.frameHeard n start b) :=
  ((OffPads.refl s).setN.countPassed.wf (f := GLK_CMDCNT.EXEC n)).setPort

theorem NoneHeld.frameHeard (h : NoneHeld s) (n start : Nat) (b : List Byte) : NoneHeld (s.frameHeard n start b) :=
  h.of_eq (frameHeard_reacts (fun _ _ _ => rfl) (fun _ _ => rfl) s n start b) (recordFields_ne_leghold n) (frameHeard_pads s n start b).tly_eq

/-- A frame of one DESAT on an UP port in level mode. -/
theorem frameApplied_desat {b : List Byte} (h : NoneHeld s) (hb : DesatOnly (toSigned 8 (s.rf (GLK_STATCFG.TWARN n))) l b) (g : Nat) :
    DesatTaken n l s (s.frameApplied n g b) := by
  have hregs := frameHeard_regsBut s n g b
  have hpads := frameHeard_pads s n g b
  have hwarn : (s.frameHeard n g b).rf (GLK_STATCFG.TWARN n) = s.rf (GLK_STATCFG.TWARN n) :=
    hregs _ (Nat.le_of_ble_eq_true rfl) fun f hf => .inl (recordFields_ne_statcfg n f hf)
  have htaken := (desatNoted_taken (n := n) (l := l) (h.frameHeard n g b) (toSigned 8 (leAt b 4 1))).statusSamples g b
  rw [← statusReports_desat (h.frameHeard n g b) (hwarn.symm ▸ hb)] at htaken
  refine ⟨htaken.held, ?_, fun hbank hm => htaken.primed ?_ ?_⟩
  · have hraised := htaken.raised
    rw [Raised, State.raiseOf, hpads.tly_eq, hpads.gt_eq, hpads.now_eq] at hraised
    exact hraised
  · rw [State.linkBank, State.rb, hregs.leg_eq (recordFields_above n) (bankcfg_below n) (Nat.le_of_ble_eq_true rfl)]
    exact hbank
  · exact (hregs.leg_eq (recordFields_above n) (legset_below n l) (Nat.le_of_ble_eq_true rfl)).trans hm

end Sys2Proof.Machine
end

section
/-! PROOF. STATUS frames that come, are discarded or are missing (R101, R117 to R124). -/

namespace Sys2Proof.Machine

/-- Settles O11: a frame is recorded, reported and judged in turn; a discarded one is counted; a missing one is counted, the third
one more loses the link. -/
theorem gateLinkStatus : Obligations.GateLinkStatus := by
  refine ⟨?frame, ?desat, ?discard, ?missing, ?third, ?thirdOwn, ?anyMissing⟩
  case frame =>
    intro s n st g hon harm hheld hu
    have hkept := statusApply_kept s n g st.toList
    refine ⟨_, statusReceive_next hon ⟨harm, hheld⟩ hu st g, ?_, congrArg Prod.fst hkept.due_eq, congrArg Prod.snd hkept.due_eq, ?_,
      fun hte hb => statusApply_time hte ?_ g⟩
    · rw [hkept.exec_eq, leAt_byte st 5 (by decide)]
    · rw [rn_eq_whole, hkept.pstat_eq, frameWord]
      simp (disch := decide) only [leAt_byte]
    · rw [leAt_byte st 3 (by decide)]
      exact Nat.testBit_lt_two_pow hb
  case desat =>
    intro s n l st g hon harm hheld hu hte h1 h2 h3 h4 hleg hotsd hhot hall hbank h65 h66 h72
    have hnone : NoneHeld s := ⟨fun i hi => (hall ⟨i, hi⟩).1, fun i hi => (hall ⟨i, hi⟩).2, h65, h66, h72⟩
    have hbytes : DesatOnly (toSigned 8 (s.rf (GLK_STATCFG.TWARN n))) l st.toList := by
      constructor <;> rw [leAt_byte st _ (by decide)] <;> assumption
    have hkept := frameApplied_kept s n g st.toList
    have htaken := frameApplied_desat hnone hbytes g
    refine ⟨_, (statusReceive_next hon ⟨harm, hheld⟩ hu st g).trans (by rw [statusApply_level hte]), ?_, fun j hj => ?_, htaken.raised, ?_,
      congrArg Prod.fst hkept.due_eq, congrArg Prod.snd hkept.due_eq, htaken.primed hbank⟩
    · rw [htaken.held.byte n.isLt l.isLt, if_pos ⟨rfl, rfl⟩]
    · rw [htaken.held.byte n.isLt j.isLt, if_neg fun h => hj (Fin.ext h.2)]
    · rw [hkept.exec_eq, leAt_byte st 5 (by decide)]
  case discard =>
    intro s n hon hd harm hheld
    obtain ⟨r, h⟩ : RegsOnly (s.used 1) ((s.used 1).incSat (GLK_ERRCNT.CRCERR n)) := RegsOnly.refl.incSat
    refine ⟨_, upstreamFrameDiscard_next hon ⟨harm, hheld⟩ hd, rf_incSat_same (s.used 1) _ (Nat.le_of_ble_eq_true rfl), ?_, by rw [h]; rfl⟩
    exact (RegsBut.of_regs (s := s) (t := s) (u := s.used 1) rfl (.refl _ s)).incSat List.mem_cons_self
  case missing =>
    intro s n hu ht hr hs
    obtain ⟨r, q, h⟩ := missCounted_only s n
    have hdue := missCounted_due s n
    exact ⟨_, statusMissing_counted hu ht hr, missCounted_missed s n, congrArg Prod.snd hdue, congrArg Prod.fst hdue,
      missCounted_regsBut hs, by rw [h]⟩
  case third =>
    intro s n hu ht hr _
    have hlost := missThird_lost s n
    exact ⟨_, statusMissing_third hu ht hr, hlost.state_eq, hlost.link_eq, hlost.notup_eq, hlost.tries_eq, hlost.raised⟩
  case thirdOwn =>
    intro s n hu ht hr _ _
    have hlost := missThird_lost s n
    exact ⟨_, statusMissing_third hu ht hr, hlost.state_eq, hlost.link_eq, hlost.notup_eq, hlost.valid_eq, hlost.tries_eq, hlost.raised⟩
  case anyMissing =>
    intro s n hu ht hr
    obtain ⟨r, q, h⟩ := missCounted_only s n
    have hdue := missCounted_due s n
    exact ⟨_, statusMissing_counted hu ht hr, missCounted_missed s n, congrArg Prod.snd hdue,
      congrArg Prod.fst hdue, missCounted_up hu, by rw [h]⟩

end Sys2Proof.Machine
end

section
/-! PROOF. What the samples of a feedback channel leave alone: the pads' levels, and everything outside the registers, the Tally, the
channels and the marks of hardware (R130 to R141). -/

namespace Sys2Proof.Machine

variable {s t u : State} {n : Nat}

/-! ### A channel's state after a write of something else -/

theorem fb_of_fbc (h : t.fbc = s.fbc) (n : Nat) : t.fb n = s.fb n := by rw [State.fb, h, State.fb]

@[simp] theorem fb_setN (s : State) (a v n : Nat) : (s.setN a v).fb n = s.fb n := fb_of_fbc (setN_fbc s a v) n
@[simp] theorem fb_wf (s : State) (f : Fld) (v n : Nat) : (s.wf f v).fb n = s.fb n := fb_of_fbc (wf_fbc s f v) n
@[simp] theorem fb_wb (s : State) (f : Fld) (v : Bool) (n : Nat) : (s.wb f v).fb n = s.fb n := fb_wf s f (b2n v) n
@[simp] theorem fb_incSat (s : State) (f : Fld) (n : Nat) : (s.incSat f).fb n = s.fb n := fb_wf s f _ n
@[simp] theorem fb_hwBit (s : State) (f : Fld) (i n : Nat) : (s.hwBit f i).fb n = s.fb n :=
  fb_of_fbc (wf_fbc s f (setBitTo (s.rf f) i true)) n
@[simp] theorem fb_raiseEv (s : State) (src d n : Nat) : (s.raiseEv src d).fb n = s.fb n := fb_of_fbc (raiseEv_fbc s src d) n
@[simp] theorem fb_used (s : State) (k n : Nat) : (s.used k).fb n = s.fb n := fb_of_fbc (used_fbc s k) n
@[simp] theorem fb_setFb_same (s : State) (n : Nat) (c : ChanFb) : (s.setFb n c).fb n = c := mget_mset_same _ _ _ _

/-! ### Steps of one channel's samples -/

/-- The levels at the channel's pads stand, and only what samples may move differs. -/
structure Samples (n : Nat) (s t : State) : Prop where
  pins_eq : (t.fb n).pins = (s.fb n).pins
  frame : t = { s with regs := t.regs, tly := t.tly, fbc := t.fbc, free := t.free, hwSet := t.hwSet }

theorem Samples.refl (n : Nat) (s : State) : Samples n s s := ⟨rfl, rfl⟩

theorem Samples.trans (h : Samples n s t) (k : Samples n t u) : Samples n s u where
  pins_eq := k.pins_eq.trans h.pins_eq
  frame := by rw [k.frame, h.frame]

theorem Samples.ite {c : Prop} {_ : Decidable c} {x y : State} (hx : Samples n s x) (hy : Samples n s y) :
    Samples n s (if c then x else y) := by
  split <;> assumption

/-- What follows, from a state that several of its branches share. -/
theorem Samples.andThen {p : Prop} (h : Samples n s t) (k : Samples n s t → p) : p := k h

/-- An update of what samples may move, the channels apart. -/
theorem Samples.update (h : Samples n s t) {regs tly free hwSet} : Samples n s { t with regs, tly, free, hwSet } := h.trans ⟨rfl, rfl⟩

theorem Samples.setN (h : Samples n s t) {a v : Nat} : Samples n s (t.setN a v) := h.update
theorem Samples.wf (h : Samples n s t) {f : Fld} {v : Nat} : Samples n s (t.wf f v) := h.setN
theorem Samples.wb (h : Samples n s t) {f : Fld} {v : Bool} : Samples n s (t.wb f v) := h.wf
theorem Samples.incSat (h : Samples n s t) {f : Fld} : Samples n s (t.incSat f) := h.wf
theorem Samples.hwBit (h : Samples n s t) {f : Fld} {i : Nat} : Samples n s (t.hwBit f i) := h.update
theorem Samples.raiseEv (h : Samples n s t) {src d : Nat} : Samples n s (t.raiseEv src d) := h.update
theorem Samples.used (h : Samples n s t) {k : Nat} : Samples n s (t.used k) := h.update

/-- The channel's state but its pads. -/
theorem Samples.setFb (h : Samples n s t) {c : ChanFb} (hc : c.pins = (t.fb n).pins := by simp) : Samples n s (t.setFb n c) :=
  h.trans ⟨by rw [fb_setFb_same, hc], rfl⟩

/-! ### Counting, index and speed (R132 to R143) -/

theorem Samples.unprimeSpeed (h : Samples n s t) : Samples n s (t.unprimeSpeed n) := by
  unfold Machine.State.unprimeSpeed
  exact h.setFb.wb.setN

theorem Samples.fbLoss (h : Samples n s t) : Samples n s (t.fbLoss n) := by
  unfold Machine.State.fbLoss
  exact h.setFb.wb.wb.raiseEv.unprimeSpeed

theorem Samples.movePos (h : Samples n s t) {d : Int} : Samples n s (t.movePos n d) := by
  unfold Machine.State.movePos
  exact .ite h.setN.setN.hwBit (.ite h.setN.setN.hwBit h.setN)

theorem Samples.speedEdge (h : Samples n s t) {stamp : Nat} {up : Bool} : Samples n s (t.speedEdge n stamp up) := by
  unfold Machine.State.speedEdge
  exact .ite h.wb.setFb h.wb.setFb.setN.wb.used

theorem Samples.speedStep (h : Samples n s t) {age : Nat} {up riseA : Bool} : Samples n s (t.speedStep n age up riseA) := by
  unfold Machine.State.speedStep
  exact .ite h (.ite h.setFb.setN.wb (.ite h h.speedEdge))

theorem Samples.legalStep (h : Samples n s t) {age : Nat} {d0 : Int} {riseA : Bool} : Samples n s (t.legalStep n age d0 riseA) := by
  unfold Machine.State.legalStep Machine.State.posToRaw
  exact h.setFb.wb.wb.andThen fun h1 => (Samples.ite (h1.movePos.andThen fun h2 => .ite h2 (.ite h2.hwBit.raiseEv h2.hwBit))
    (.ite h1.movePos h1)).speedStep

theorem Samples.illegalStep (h : Samples n s t) : Samples n s (t.illegalStep n) := by
  unfold Machine.State.illegalStep
  exact h.setFb.incSat.wb.raiseEv.unprimeSpeed

theorem Samples.startWatch (h : Samples n s t) : Samples n s (t.startWatch n) := h.setFb

theorem Samples.loadPos (h : Samples n s t) {v : Nat} : Samples n s (t.loadPos n v) := by
  unfold Machine.State.loadPos
  exact h.setFb.setN.setN.wb.wb

theorem Samples.correctPos (h : Samples n s t) {e : Int} : Samples n s (t.correctPos n e) := by
  unfold Machine.State.correctPos
  exact h.setFb.movePos

theorem Samples.indexCheck (h : Samples n s t) : Samples n s (t.indexCheck n) := by
  unfold Machine.State.indexCheck
  exact .ite h ((Samples.ite h.setN.incSat.raiseEv h.setN).andThen fun h1 => .ite (Samples.ite h1 h1.correctPos).wb h1)

theorem Samples.indexEvent (h : Samples n s t) {illegal : Bool} : Samples n s (t.indexEvent n illegal) := by
  unfold Machine.State.indexEvent
  exact h.setN.hwBit.wb.andThen fun h1 => .ite h1.hwBit.startWatch (.ite h1.loadPos h1.indexCheck.startWatch)

theorem Samples.indexSample (h : Samples n s t) {new : Nat} {illegal : Bool} : Samples n s (t.indexSample n new illegal) := by
  unfold Machine.State.indexSample
  exact .ite h.setFb (.ite h h.setFb.indexEvent)

theorem Samples.indexMissed (h : Samples n s t) : Samples n s (t.indexMissed n) := by
  unfold Machine.State.indexMissed
  exact .ite h.fbLoss h

/-! ### One sample, and a run of them -/

theorem Samples.presetApply (h : Samples n s t) {d : Int} : Samples n s (t.presetApply n d) := by
  unfold Machine.State.presetApply
  exact .ite h.setFb.loadPos.setFb.movePos h

theorem Samples.stepPart (h : Samples n s t) {age old new : Nat} {first wasBad : Bool} :
    Samples n s (t.stepPart n age old new first wasBad).1 := by
  have pick {c : Prop} [Decidable c] {x y : State × Option Int} (hx : Samples n s x.1) (hy : Samples n s y.1) :
      Samples n s (if c then x else y).1 := by
    split <;> assumption
  unfold Machine.State.stepPart
  refine pick h (pick (.ite h.fbLoss h) (pick h.wb (pick h ?_)))
  split
  · exact h.illegalStep
  · exact .ite h h.legalStep

/-- The end of a sample: the index, and the watch for it. -/
theorem Samples.sampleEnd (h : Samples n s t) {c q z : Prop} {_ : Decidable c} {_ : Decidable q} {_ : Decidable z} {new : Nat}
    {illegal : Bool} : Samples n s (if c then t.setFb n { t.fb n with zDone := new.testBit 2 } else if q then
      (if z then t.indexSample n new illegal else (t.indexSample n new illegal).indexMissed n) else t) :=
  .ite h.setFb (.ite (.ite h.indexSample h.indexSample.indexMissed) h)

theorem Samples.fbSample (h : Samples n s t) {age new : Nat} : Samples n s (t.fbSample n age new) := by
  unfold Machine.State.fbSample
  exact .ite h.wf.presetApply h.wf.wf.setFb.stepPart.presetApply.sampleEnd

theorem Samples.fbSamples (h : Samples n s t) {m : Nat} : Samples n s (t.fbSamples n m) := by
  unfold Machine.State.fbSamples
  exact .ite h.setFb.fbSample h.setFb

theorem Samples.fbRun {upTo fuel : Nat} (h : Samples n s t) : Samples n s (State.fbRun n upTo fuel t) := by
  induction fuel generalizing t with
  | zero => exact h
  | succ k ih =>
    unfold Machine.State.fbRun
    exact .ite h (ih h.fbSamples)

end Sys2Proof.Machine
end

section
/-! PROOF. One sample of a quadrature channel: which lines change in it, and the step that it makes (R130, R132, R133, R135). -/

namespace Sys2Proof.Machine

variable {s t u : State} {n new : Nat} {f : Fld}

/-! ### Frames of a channel's registers -/

theorem RegsBut.setFb {l : List Fld} {c : ChanFb} (h : RegsBut l s t) : RegsBut l s (t.setFb n c) := .of_regs rfl h
theorem RegsBut.used {l : List Fld} {k : Nat} (h : RegsBut l s t) : RegsBut l s (t.used k) := .of_regs rfl h

/-- Fields listed one by one, or with their whole registers. -/
theorem RegsBut.widen {l m : List Fld} (h : RegsBut l s t) (hl : ∀ g ∈ l, g ∈ m ∨ (whole g.adr ∈ m ∧ g.lo + g.wd ≤ 32)) : RegsBut m s t :=
  fun f hf hm => h f hf fun g hg => (hl g hg).elim (hm g) fun hw => apart_of_whole (hm _ hw.1) hw.2

/-- A channel's configuration, up to FBC_PRESETn, stands where only registers above it are written. -/
theorem RegsBut.config_eq {l : List Fld} (h : RegsBut l s t) (hl : ∀ g ∈ l, FBC_PRESET.adr n < g.adr) (ha : f.adr ≤ FBC_PRESET.adr n)
    (hf : f.lo + f.wd ≤ 32) : t.rf f = s.rf f :=
  rf_of_regsBut_ne h hf fun g hg => Nat.ne_of_lt (Nat.lt_of_le_of_lt ha (hl g hg))

/-! ### The sample taken (R130) -/

/-- The sample is taken: of the channel's state only the pads, the number of the next sample and the agreement counts have moved. -/
structure Taken (n : Nat) (s u : State) : Prop where
  frame : u = { s with fbc := u.fbc }
  chan : ∃ p k g, u.fb n = { s.fb n with pins := p, nextSample := k, agree := g }

theorem Taken.rf_eq (h : Taken n s u) (f : Fld) : u.rf f = s.rf f := by rw [h.frame]; rfl

theorem Taken.regsBut (h : Taken n s u) (l : List Fld) : RegsBut l s u := fun f _ _ => h.rf_eq f

/-- The lines whose FILT-th agreeing sample this one is, the levels at the pads being `new` after POL (R130). -/
def State.flips (s : State) (n new : Nat) : Nat :=
  (List.range 3).foldl (fun x i =>
    if (new ^^^ s.rf (FBC_LEVEL.LVL n)).testBit i && decide (s.rf (FBC_CFG.FILT n) ≤ (s.fb n).agree.getD i 0 + 1) then x + 2 ^ i else x) 0

theorem foldl_bits : ∀ d < 8, (List.range 3).foldl (fun x i => if d.testBit i then x + 2 ^ i else x) 0 = d := by decide

/-- Every line has agreed: the levels become those at the pads. -/
theorem flips_agreed (hn : new < 8) (h : ∀ i : Fin 3, s.rf (FBC_CFG.FILT n) ≤ (s.fb n).agree.getD i 0 + 1) :
    s.rf (FBC_LEVEL.LVL n) ^^^ s.flips n new = new := by
  have hflips : s.flips n new = new ^^^ s.rf (FBC_LEVEL.LVL n) :=
    (List.foldl_ext _ _ _ fun x i hi => by rw [decide_eq_true (h ⟨i, List.mem_range.1 hi⟩), Bool.and_true]).trans
      (foldl_bits _ (Nat.xor_lt_two_pow (n := 3) hn (rf_lt s _)))
  rw [hflips, Nat.xor_comm new, ← Nat.xor_assoc, Nat.xor_self, Nat.zero_xor]

/-- No line that differs has agreed. -/
theorem flips_eq_zero (h : ∀ i < 3, (new ^^^ s.rf (FBC_LEVEL.LVL n)).testBit i = false ∨
    (s.fb n).agree.getD i 0 + 1 < s.rf (FBC_CFG.FILT n)) : s.flips n new = 0 := by
  refine (List.foldl_ext _ (fun x _ => x) _ fun x i hi => if_neg ?_).trans (List.foldl_fixed _)
  rw [Bool.and_eq_true, decide_eq_true_eq, not_and_or, Bool.not_eq_true, Nat.not_le]
  exact h i (List.mem_range.1 hi)

/-- A quadrature channel in use, with its reference. -/
structure QuadUse (s : State) (n : Nat) : Prop where
  use : s.fbUse n = true
  mode : s.rf (FBC_CFG.MODE n) = fbQuad
  known : (s.fb n).known = true

/-- That channel sampled up to now, its pads powered. -/
structure QuadReady (s : State) (n : Nat) : Prop extends QuadUse s n where
  on : s.on = true
  sampled : s.now / 10 ≤ (s.fb n).nextSample
  vio : s.vioDead 2 = false

theorem RegsBut.cfg_eq {l : List Fld} (h : RegsBut l s t) (hl : ∀ g ∈ l, FBC_PRESET.adr n < g.adr) (ha : f.adr = FBC_CFG.adr n)
    (hf : f.lo + f.wd ≤ 32) : t.rf f = s.rf f :=
  h.config_eq hl (by rw [ha]; unfold FBC_CFG.adr FBC_PRESET.adr; omega) hf

/-- The channel stays in use where its configuration stands, and it is neither stopped nor without reference. -/
theorem QuadUse.of_config {l : List Fld} (h : QuadUse s n) (hr : RegsBut l s t) (hl : ∀ g ∈ l, FBC_PRESET.adr n < g.adr)
    (hs : (t.fb n).started = (s.fb n).started) (hk : (t.fb n).known = (s.fb n).known) : QuadUse t n where
  use := by
    rw [← h.use, State.fbUse, State.rb, hr.cfg_eq hl rfl (Nat.le_of_ble_eq_true rfl),
      hr.cfg_eq (f := FBC_CFG.MODE n) hl rfl (Nat.le_of_ble_eq_true rfl), hs, State.fbUse, State.rb]
  mode := (hr.cfg_eq hl rfl (Nat.le_of_ble_eq_true rfl)).trans h.mode
  known := hk.trans h.known

theorem Taken.quadUse (h : Taken n s u) (hq : QuadUse s n) : QuadUse u n := by
  obtain ⟨p, k, g, hchan⟩ := h.chan
  exact hq.of_config (h.regsBut []) (by simp) (by rw [hchan]) (by rw [hchan])

theorem fbCatch_sampled (h : s.now / 10 ≤ (s.fb n).nextSample) : s.fbCatch n = s := by
  unfold State.fbCatch State.fbRun
  exact if_pos (Nat.sub_eq_zero_of_le h)

/-- One sample at most is the next one. -/
theorem fbNext_one (s : State) (n : Nat) : s.fbNext n 1 = 1 := by
  have hmin (l : List Nat) (g : Nat → Nat) : l.foldl (fun m i => min m (max 1 (g i))) 1 = 1 := by
    induction l with
    | nil => rfl
    | cons i l ih => rw [List.foldl_cons, Nat.min_eq_left (Nat.le_max_left _ _), ih]
  unfold State.fbNext
  split
  · rfl
  · exact hmin _ _

theorem fbRun_one (s : State) (n : Nat) : State.fbRun n ((s.fb n).nextSample + 1) 1 s = s.fbSamples n 1 := by
  unfold State.fbRun State.fbRun
  simp [fbNext_one]

/-- One sample of a channel with its reference. -/
theorem fbSamples_one (hf : s.fbFirst n = false) : ∃ u age, Taken n s u ∧ s.fbSamples n 1 =
    if ((s.fb n).preset || s.flips n (s.fbLevels n) != 0) = true then
      u.fbSample n age (s.rf (FBC_LEVEL.LVL n) ^^^ s.flips n (s.fbLevels n)) else u := by
  have hflips : (List.range 3).foldl (fun x i => if (s.fbLevels n ^^^ s.rf (FBC_LEVEL.LVL n)).testBit i &&
      (s.fbFirst n || decide (s.rf (FBC_CFG.FILT n) ≤ ((List.range 3).map fun i =>
        if (s.fbLevels n ^^^ s.rf (FBC_LEVEL.LVL n)).testBit i then (s.fb n).agree.getD i 0 + 1 else 0).getD i 0))
      then x + 2 ^ i else x) 0 = s.flips n (s.fbLevels n) :=
    List.foldl_ext _ _ _ fun x i hi => by
      have hi := List.mem_range.1 hi
      cases hd : (s.fbLevels n ^^^ s.rf (FBC_LEVEL.LVL n)).testBit i <;> simp [hf, hi, hd, -Nat.testBit_xor]
  unfold State.fbSamples
  dsimp only
  rw [hflips, hf, Bool.false_or]
  exact ⟨_, _, ⟨rfl, _, _, _, fb_setFb_same _ _ _⟩, rfl⟩

/-- The levels that a level change brings, after POL. -/
def State.newLevels (s : State) (n : Nat) (a b z : Bool) : Nat := (b2n a + 2 * b2n b + 4 * b2n z) ^^^ s.rf (FBC_CFG.POL n)

theorem newLevels_lt (s : State) (n : Nat) (a b z : Bool) : s.newLevels n a b z < 8 :=
  Nat.xor_lt_two_pow (n := 3) (by cases a <;> cases b <;> cases z <;> decide) (rf_lt s _)

/-- The channel with these levels at its pads. -/
def State.atPads (s : State) (n : Nat) (p : Nat) : State := s.setFb n { s.fb n with pins := p }

theorem atPads_fb (s : State) (n p : Nat) : (s.atPads n p).fb n = { s.fb n with pins := p } := fb_setFb_same _ _ _

/-- FBC_LEVEL_CHANGE: the samples so far, the pads, one sample more. -/
theorem levelChange_next (hon : s.on = true) (n : Fin 16) (a b z : Bool) : exec (.fbcLevelChange n a b z) s =
    .next (if ((s.fbCatch n).atPads n (b2n a + 2 * b2n b + 4 * b2n z)).on = true then
      ((s.fbCatch n).atPads n (b2n a + 2 * b2n b + 4 * b2n z)).fbSamples n 1
      else (s.fbCatch n).atPads n (b2n a + 2 * b2n b + 4 * b2n z)) := by
  change execFbcLevelChange n a b z s = _
  rw [execFbcLevelChange, whenB_true (decide_eq_true n.isLt), ← fbRun_one, if_pos hon]
  rfl

theorem levelChange_sampled {n : Fin 16} (h : QuadReady s n) (a b z : Bool) : exec (.fbcLevelChange n a b z) s =
    .next ((s.atPads n (b2n a + 2 * b2n b + 4 * b2n z)).fbSamples n 1) := by
  rw [levelChange_next h.on, fbCatch_sampled h.sampled, if_pos (show (s.atPads n _).on = true from h.on)]

/-- FBC_LEVEL_CHANGE on a quadrature channel with its reference: its pads change, one sample is taken, and it counts where a line has
agreed or a preset waits. -/
theorem levelChange_sample {n : Fin 16} (h : QuadReady s n) (a b z : Bool) : ∃ u age, Taken n s u ∧
    exec (.fbcLevelChange n a b z) s = .next (if ((s.fb n).preset || s.flips n (s.newLevels n a b z) != 0) = true then
      u.fbSample n age (s.rf (FBC_LEVEL.LVL n) ^^^ s.flips n (s.newLevels n a b z)) else u) := by
  have hfb := atPads_fb s n (b2n a + 2 * b2n b + 4 * b2n z)
  have hflips (new : Nat) : (s.atPads n (b2n a + 2 * b2n b + 4 * b2n z)).flips n new = s.flips n new := by
    unfold State.flips
    rw [hfb]
    rfl
  have hlevels : (s.atPads n (b2n a + 2 * b2n b + 4 * b2n z)).fbLevels n = s.newLevels n a b z := by
    have hvio : (s.atPads n (b2n a + 2 * b2n b + 4 * b2n z)).vioDead 2 = false := h.vio
    rw [State.fbLevels, hvio, hfb]
    rfl
  obtain ⟨u, age, ⟨hframe, p, k, g, hchan⟩, he⟩ := fbSamples_one (s := s.atPads n (b2n a + 2 * b2n b + 4 * b2n z)) (n := n)
    (by rw [State.fbFirst, hfb, h.known]; simp)
  rw [hlevels, hflips, hfb] at he
  exact ⟨u, age, ⟨hframe, p, k, g, by rw [hchan, hfb]⟩, (levelChange_sampled h a b z).trans (congrArg _ he)⟩

end Sys2Proof.Machine
end

section
/-! PROOF. The step of a quadrature sample: what it counts, what it records, what it leaves (R132 to R138, R142, R143). -/

namespace Sys2Proof.Machine

variable {s t u : State} {n new : Nat} {d : Int} {f : Fld}

/-! ### The direction of a step (R132) -/

/-- One count up or down. -/
def unitStep (up : Bool) : Int := if up then 1 else -1

theorem unitStep_ne_zero (up : Bool) : unitStep up ≠ 0 := by cases up <;> decide

theorem unitStep_pos (up : Bool) : decide (0 < unitStep up) = up := by cases up <;> rfl

/-- REV reverses the step. -/
theorem unitStep_rev (up rev : Bool) : (if rev then -unitStep up else unitStep up) = unitStep (up != rev) := by
  cases up <;> cases rev <;> rfl

/-- A position moved by a count. -/
theorem ofSigned_unitStep (raw : Nat) (up : Bool) : ofSigned 32 ((raw : Int) + unitStep up) =
    if up then (raw + 1) % 2 ^ 32 else (if raw % 2 ^ 32 = 0 then 2 ^ 32 - 1 else raw % 2 ^ 32 - 1) := by
  cases up
  all_goals
    simp only [ofSigned, unitStep]
    grind

/-- Up is along the sequence 00, 01, 11, 10 of (B, A). -/
theorem stepOf_legal : ∀ old < 8, ∀ new < 8, ((old.testBit 0 != new.testBit 0) != (old.testBit 1 != new.testBit 1)) = true →
    stepOf fbQuad old new = some (unitStep (old.testBit 0 == new.testBit 1)) := by decide

theorem stepOf_illegal : ∀ old < 8, ∀ new < 8, (old.testBit 0 != new.testBit 0 && old.testBit 1 != new.testBit 1) = true →
    stepOf fbQuad old new = none := by decide

theorem stepOf_still (l : Nat) : stepOf fbQuad l l = some 0 := by simp [stepOf]

/-! ### Motion: what a legal step moves after its direction (R136, R137, R142) -/

/-- The fields that follow a step's direction. -/
def motionFields (n : Nat) : List Fld :=
  [whole (FBC_POS.adr n), whole (FBC_POSHI.adr n), FBC_STAT.WRAPUP n, FBC_STAT.WRAPDN n, FBC_STAT.DIRCHG n, FBC_STAT.STOP n,
    FBC_STAT.SPVALID n, whole (FBC_SPEED.adr n)]

/-- The position and the speed follow a step; of the channel's own state only the speed estimator moves. -/
structure Motion (n : Nat) (s t : State) : Prop where
  regs : RegsBut (motionFields n) s t
  chan : ∃ e g i v, t.fb n = { s.fb n with edges := e, stamp := g, interval := i, up := v }

theorem Motion.refl (n : Nat) (s : State) : Motion n s s := ⟨.refl _ s, _, _, _, _, rfl⟩

theorem Motion.trans (h : Motion n s t) (k : Motion n t u) : Motion n s u where
  regs := h.regs.trans k.regs
  chan := by
    obtain ⟨e, g, i, v, ht⟩ := h.chan
    obtain ⟨e', g', i', v', hu⟩ := k.chan
    exact ⟨e', g', i', v', by rw [hu, ht]⟩

theorem Motion.ite {c : Prop} {_ : Decidable c} {x y : State} (hx : Motion n s x) (hy : Motion n s y) :
    Motion n s (if c then x else y) := by
  split <;> assumption

theorem Motion.andThen {p : Prop} (h : Motion n s t) (k : Motion n s t → p) : p := k h

/-- Registers written that a step may move. -/
theorem Motion.write (h : Motion n s t) (hr : RegsBut (motionFields n) t u) (hf : u.fb n = t.fb n) : Motion n s u :=
  h.trans ⟨hr, _, _, _, _, hf⟩

theorem Motion.setN (h : Motion n s t) {a v : Nat} (hm : whole a ∈ motionFields n := by simp [motionFields]) : Motion n s (t.setN a v) :=
  h.write ((RegsBut.refl _ t).setN hm) (fb_setN _ _ _ _)

theorem Motion.wb (h : Motion n s t) {f : Fld} {v : Bool} (hm : f ∈ motionFields n := by simp [motionFields]) : Motion n s (t.wb f v) :=
  h.write ((RegsBut.refl _ t).wb hm) (fb_wb _ _ _ _)

theorem Motion.hwBit (h : Motion n s t) {f : Fld} {i : Nat} (hm : f ∈ motionFields n := by simp [motionFields]) :
    Motion n s (t.hwBit f i) := h.write ((RegsBut.refl _ t).hwBit hm) (fb_hwBit _ _ _ _)

theorem Motion.raiseEv (h : Motion n s t) {src d : Nat} : Motion n s (t.raiseEv src d) :=
  h.write (RegsBut.refl _ t).raiseEv (fb_raiseEv _ _ _ _)

theorem Motion.used (h : Motion n s t) {k : Nat} : Motion n s (t.used k) := h.write (RegsBut.refl _ t).used (fb_used _ _ _)

theorem Motion.setFb (h : Motion n s t) {c : ChanFb} {e g : Nat} {i : Option Nat} {v : Bool} (hc : c = t.fb n := by simp) :
    Motion n s (t.setFb n { c with edges := e, stamp := g, interval := i, up := v }) :=
  h.trans ⟨(RegsBut.refl _ t).setFb, e, g, i, v, by rw [fb_setFb_same, hc]⟩

theorem Motion.movePos (h : Motion n s t) : Motion n s (t.movePos n d) := by
  unfold Machine.State.movePos
  exact .ite h.setN.setN.hwBit (.ite h.setN.setN.hwBit h.setN)

theorem Motion.speedEdge (h : Motion n s t) {stamp : Nat} {up : Bool} : Motion n s (t.speedEdge n stamp up) := by
  unfold Machine.State.speedEdge
  exact .ite h.wb.setFb h.wb.setFb.setN.wb.used

theorem Motion.speedStep (h : Motion n s t) {age : Nat} {up riseA : Bool} : Motion n s (t.speedStep n age up riseA) := by
  unfold Machine.State.speedStep
  exact .ite h (.ite h.setFb.setN.wb (.ite h h.speedEdge))

/-! ### A legal step (R132, R135) -/

/-- RAW and MOVE moved by a count, and its direction noted. -/
def State.counted (s : State) (n : Nat) (up : Bool) : State :=
  ((s.setFb n { s.fb n with raw := ofSigned 32 ((s.fb n).raw + unitStep up), move := (s.fb n).move + unitStep up }).wb
    (FBC_STAT.DIR n) up).wb (FBC_STAT.DIRV n) true

theorem legalStep_motion (s : State) (n age : Nat) (up riseA : Bool) :
    Motion n (s.counted n (up != s.rb (FBC_CFG.REV n))) (s.legalStep n age (unitStep up) riseA) := by
  unfold Machine.State.legalStep Machine.State.posToRaw
  rw [unitStep_rev]
  dsimp only
  rw [unitStep_pos]
  exact (Motion.refl n (s.counted n (up != s.rb (FBC_CFG.REV n)))).andThen fun h1 =>
    (Motion.ite (h1.movePos.andThen fun h2 => .ite h2 (.ite h2.hwBit.raiseEv h2.hwBit)) (.ite h1.movePos h1)).speedStep

/-- The fields of a legal step. -/
def legalFields (n : Nat) : List Fld := FBC_STAT.DIR n :: FBC_STAT.DIRV n :: motionFields n

theorem motion_above (n : Nat) : ∀ g ∈ motionFields n, FBC_PRESET.adr n < g.adr := by
  simp [motionFields, whole, FBC_PRESET.adr, FBC_POS.adr, FBC_POSHI.adr, FBC_STAT.WRAPUP, FBC_STAT.WRAPDN, FBC_STAT.DIRCHG, FBC_STAT.STOP,
    FBC_STAT.SPVALID, FBC_STAT.adr, FBC_SPEED.adr]

theorem legal_above (n : Nat) : ∀ g ∈ legalFields n, FBC_PRESET.adr n < g.adr := by
  have hstat : FBC_PRESET.adr n < FBC_STAT.adr n := by unfold FBC_PRESET.adr FBC_STAT.adr; omega
  exact List.forall_mem_cons.2 ⟨hstat, List.forall_mem_cons.2 ⟨hstat, motion_above n⟩⟩

/-- A field of FBC_STATn that no step moves, or that only its direction sets. -/
theorem stat_apart_motion (n : Nat) (ha : f.adr = FBC_STAT.adr n)
    (hb : [FBC_STAT.WRAPUP n, FBC_STAT.WRAPDN n, FBC_STAT.DIRCHG n, FBC_STAT.STOP n, FBC_STAT.SPVALID n].all
      (fun g => (f.lo + f.wd).ble g.lo || (g.lo + g.wd).ble f.lo) = true) : ∀ g ∈ motionFields n, f.apart g := by
  have hbits := apart_of_bits f _ hb
  have hadr (a : Nat) (h : FBC_STAT.adr n ≠ a) : f.apart (whole a) := .inl (ha ▸ h)
  simp only [motionFields, List.forall_mem_cons] at hbits ⊢
  exact ⟨hadr _ (by unfold FBC_STAT.adr FBC_POS.adr; omega), hadr _ (by unfold FBC_STAT.adr FBC_POSHI.adr; omega), hbits.1, hbits.2.1,
    hbits.2.2.1, hbits.2.2.2.1, hbits.2.2.2.2.1, hadr _ (by unfold FBC_STAT.adr FBC_SPEED.adr; omega), by simp⟩

/-- What a legal step comes to. -/
structure LegalStep (n : Nat) (up : Bool) (s t : State) : Prop where
  raw_eq : (t.fb n).raw = ofSigned 32 ((s.fb n).raw + unitStep up)
  preset_eq : (t.fb n).preset = (s.fb n).preset
  watch_eq : (t.fb n).watch = (s.fb n).watch
  dir_eq : t.rf (FBC_STAT.DIR n) = b2n up
  dirv_eq : t.rf (FBC_STAT.DIRV n) = 1
  regs : RegsBut (legalFields n) s t

theorem legalStep_legal (s : State) (n age : Nat) (up riseA : Bool) :
    LegalStep n (up != s.rb (FBC_CFG.REV n)) s (s.legalStep n age (unitStep up) riseA) := by
  have hm := legalStep_motion s n age up riseA
  obtain ⟨e, g, i, v, hchan⟩ := hm.chan
  have hfb : (s.counted n (up != s.rb (FBC_CFG.REV n))).fb n = _ := (fb_wb _ _ _ _).trans ((fb_wb _ _ _ _).trans (fb_setFb_same _ _ _))
  rw [hfb] at hchan
  have hdirv : RegsBut (motionFields n) ((s.setFb n _).wb (FBC_STAT.DIR n) _ |>.wf (FBC_STAT.DIRV n) 1) _ := hm.regs
  refine ⟨by rw [hchan], by rw [hchan], by rw [hchan], ?_, hdirv.rf_written (stat_apart_motion n rfl rfl), ?_⟩
  · rw [hm.regs _ (Nat.le_of_ble_eq_true rfl) (stat_apart_motion n rfl rfl)]
    exact (rf_wf_beside _ _ _ _ (.inl (Nat.le_of_ble_eq_true rfl)) (Nat.le_of_ble_eq_true rfl)).trans
      ((rf_wf_same _ _ _ (Nat.le_of_ble_eq_true rfl)).trans (b2n_mod _))
  · exact (((RegsBut.refl _ s).setFb.wb (by simp [legalFields])).wb (by simp [legalFields])).trans
      (hm.regs.mono fun _ h => List.mem_cons_of_mem _ (List.mem_cons_of_mem _ h))

/-! ### The speed unprimed (R143) -/

theorem stat_ne_speed (n : Nat) : FBC_STAT.adr n ≠ FBC_SPEED.adr n := by unfold FBC_STAT.adr FBC_SPEED.adr; omega

theorem unprimeSpeed_regsBut (s : State) (n : Nat) : RegsBut [FBC_STAT.SPVALID n, whole (FBC_SPEED.adr n)] s (s.unprimeSpeed n) :=
  ((RegsBut.refl _ s).setFb.wb (by simp)).setN (by simp)

theorem unprimeSpeed_spvalid (s : State) (n : Nat) : (s.unprimeSpeed n).rf (FBC_STAT.SPVALID n) = 0 :=
  (rf_setN _ _ _ _ (Nat.le_of_ble_eq_true rfl)).trans ((if_neg (stat_ne_speed n)).trans (rf_wf_same _ _ _ (Nat.le_of_ble_eq_true rfl)))

theorem unprimeSpeed_speed (s : State) (n : Nat) : (s.unprimeSpeed n).rn (FBC_SPEED.adr n) = 0 := (rn_setN _ _ _ _).trans (if_pos rfl)

theorem unprimeSpeed_fb (s : State) (n : Nat) : (s.unprimeSpeed n).fb n = { s.fb n with edges := 0, interval := none } :=
  (fb_setN _ _ _ _).trans ((fb_wb _ _ _ _).trans (fb_setFb_same _ _ _))

theorem unprimeSpeed_only (s : State) (n : Nat) : ∃ r c, s.unprimeSpeed n = { s with regs := r, fbc := c } := by
  obtain ⟨r, h⟩ : RegsOnly (s.setFb n { s.fb n with edges := 0, interval := none }) (s.unprimeSpeed n) := RegsOnly.refl.wb.setN
  exact ⟨r, _, h⟩

/-! ### Steps of the registers, the Tally and the channels alone -/

/-- Only registers, the Tally and the feedback channels differ. -/
def ChannelsOnly (s t : State) : Prop := ∃ r y c, t = { s with regs := r, tly := y, fbc := c }

theorem ChannelsOnly.refl : ChannelsOnly s s := ⟨_, _, _, rfl⟩

theorem ChannelsOnly.trans (h : ChannelsOnly s t) (k : ChannelsOnly t u) : ChannelsOnly s u := by
  obtain ⟨r, y, c, rfl⟩ := h
  obtain ⟨r', y', c', rfl⟩ := k
  exact ⟨r', y', c', rfl⟩

theorem ChannelsOnly.setFb (h : ChannelsOnly s t) {c : ChanFb} : ChannelsOnly s (t.setFb n c) := h.trans ⟨_, _, _, rfl⟩
theorem ChannelsOnly.raiseEv (h : ChannelsOnly s t) {src d : Nat} : ChannelsOnly s (t.raiseEv src d) := h.trans ⟨_, _, _, rfl⟩

theorem ChannelsOnly.regsOnly (h : ChannelsOnly s t) (k : RegsOnly t u) : ChannelsOnly s u := by
  obtain ⟨r, rfl⟩ := k
  exact h.trans ⟨_, _, _, rfl⟩

theorem ChannelsOnly.frame (h : ChannelsOnly s t) : t = { s with regs := t.regs, tly := t.tly, fbc := t.fbc } := by
  obtain ⟨r, y, c, rfl⟩ := h
  rfl

/-! ### An illegal step (R133) -/

/-- What an illegal step comes to. -/
structure IllegalStep (n : Nat) (s t : State) : Prop where
  illcnt_eq : t.rf (FBC_ERRCNT.ILLCNT n) = min (s.rf (FBC_ERRCNT.ILLCNT n) + 1) 65535
  suspect_eq : t.rf (FBC_STAT.SUSPECT n) = 1
  spvalid_eq : t.rf (FBC_STAT.SPVALID n) = 0
  speed_eq : t.rn (FBC_SPEED.adr n) = 0
  raised : Raised s t 96 n
  raw_eq : (t.fb n).raw = (s.fb n).raw
  preset_eq : (t.fb n).preset = (s.fb n).preset
  regs : RegsBut [FBC_ERRCNT.ILLCNT n, FBC_STAT.SUSPECT n, FBC_STAT.SPVALID n, whole (FBC_SPEED.adr n)] s t
  only : ChannelsOnly s t

/-- The illegal step counted and marked, the speed not yet unprimed. -/
def State.illegalNoted (s : State) (n : Nat) : State :=
  (((s.setFb n { s.fb n with illSusp := s.rb (FBC_STAT.SUSPECT n) }).incSat (FBC_ERRCNT.ILLCNT n)).wb (FBC_STAT.SUSPECT n) true).raiseEv 96 n

theorem illegalNoted_fb (s : State) (n : Nat) : (s.illegalNoted n).fb n = { s.fb n with illSusp := s.rb (FBC_STAT.SUSPECT n) } :=
  (fb_raiseEv _ _ _ _).trans ((fb_wb _ _ _ _).trans ((fb_incSat _ _ _).trans (fb_setFb_same _ _ _)))

theorem illegalNoted_suspect (s : State) (n : Nat) : (s.illegalNoted n).rf (FBC_STAT.SUSPECT n) = 1 :=
  (raiseEv_rf _ _ _ _).trans (rf_wf_same _ _ _ (Nat.le_of_ble_eq_true rfl))

theorem errcnt_ne_stat (n : Nat) : FBC_ERRCNT.adr n ≠ FBC_STAT.adr n := by unfold FBC_ERRCNT.adr FBC_STAT.adr; omega
theorem errcnt_ne_speed (n : Nat) : FBC_ERRCNT.adr n ≠ FBC_SPEED.adr n := by unfold FBC_ERRCNT.adr FBC_SPEED.adr; omega

theorem illegalNoted_illcnt (s : State) (n : Nat) :
    (s.illegalNoted n).rf (FBC_ERRCNT.ILLCNT n) = min (s.rf (FBC_ERRCNT.ILLCNT n) + 1) 65535 :=
  (raiseEv_rf _ _ _ _).trans ((rf_wf_other _ _ _ _ (Nat.le_of_ble_eq_true rfl) (.inl (errcnt_ne_stat n))).trans
    (rf_incSat_same (s.setFb n _) _ (Nat.le_of_ble_eq_true rfl)))

theorem illegal_above (n : Nat) : ∀ g ∈ [FBC_ERRCNT.ILLCNT n, FBC_STAT.SUSPECT n, FBC_STAT.SPVALID n, whole (FBC_SPEED.adr n)],
    FBC_PRESET.adr n < g.adr := by
  simp [whole, FBC_PRESET.adr, FBC_ERRCNT.ILLCNT, FBC_ERRCNT.adr, FBC_STAT.SUSPECT, FBC_STAT.SPVALID, FBC_STAT.adr, FBC_SPEED.adr]

theorem illegalStep_only (s : State) (n : Nat) : ∃ r c, s.illegalStep n = { s with regs := r, fbc := c }.raiseEv 96 n := by
  obtain ⟨r, c, h⟩ := unprimeSpeed_only (s.illegalNoted n) n
  obtain ⟨q, hq⟩ : RegsOnly (s.setFb n { s.fb n with illSusp := s.rb (FBC_STAT.SUSPECT n) }) _ :=
    (RegsOnly.refl.incSat (g := FBC_ERRCNT.ILLCNT n)).wb (g := FBC_STAT.SUSPECT n) (v := true)
  exact ⟨r, c, h.trans (by rw [State.illegalNoted, hq]; rfl)⟩

theorem illegalStep_illegal (s : State) (n : Nat) : IllegalStep n s (s.illegalStep n) := by
  obtain ⟨r, c, hframe⟩ := illegalStep_only s n
  have hu := unprimeSpeed_regsBut (s.illegalNoted n) n
  have hfb : (s.illegalStep n).fb n = _ := (unprimeSpeed_fb (s.illegalNoted n) n).trans (by rw [illegalNoted_fb])
  refine ⟨?_, ?_, unprimeSpeed_spvalid _ n, unprimeSpeed_speed _ n, by rw [hframe]; rfl,
    by rw [hfb], by rw [hfb], ?_, by rw [hframe]; exact ⟨_, _, _, rfl⟩⟩
  · exact (rf_of_regsBut_ne hu (Nat.le_of_ble_eq_true rfl) (by simpa [whole] using ⟨errcnt_ne_stat n, errcnt_ne_speed n⟩)).trans
      (illegalNoted_illcnt s n)
  · exact (hu _ (Nat.le_of_ble_eq_true rfl) (by
      simpa [whole] using ⟨.inr (.inl (Nat.le_of_ble_eq_true rfl)), .inl (stat_ne_speed n)⟩)).trans (illegalNoted_suspect s n)
  · exact (((RegsBut.refl _ s).setFb.incSat (by simp)).wb (by simp)).raiseEv.trans (hu.mono (by simp))

/-! ### A preset that waits (R138) -/

/-- RAW and FBC_POSn hold the preset plus the step. -/
structure Preset (n : Nat) (d : Int) (s t : State) : Prop where
  raw_eq : (t.fb n).raw = ofSigned 32 (s.rn (FBC_PRESET.adr n) + d)
  pos_eq : t.rn (FBC_POS.adr n) = (t.fb n).raw
  preset_eq : (t.fb n).preset = false
  watch_eq : (t.fb n).watch = false
  ref_eq : t.rf (FBC_STAT.REF n) = 1
  suspect_eq : t.rf (FBC_STAT.SUSPECT n) = 0
  regs : RegsBut [whole (FBC_POS.adr n), whole (FBC_POSHI.adr n), FBC_STAT.REF n, FBC_STAT.SUSPECT n, FBC_STAT.WRAPUP n,
    FBC_STAT.WRAPDN n] s t

theorem presetApply_idle (h : (s.fb n).preset = false) (d : Int) : s.presetApply n d = s := by
  unfold State.presetApply
  exact if_neg (by rw [h]; decide)

theorem pos_ne_poshi (n : Nat) : FBC_POS.adr n ≠ FBC_POSHI.adr n := by unfold FBC_POS.adr FBC_POSHI.adr; omega
theorem pos_ne_stat (n : Nat) : FBC_POS.adr n ≠ FBC_STAT.adr n := by unfold FBC_POS.adr FBC_STAT.adr; omega
theorem stat_ne_poshi (n : Nat) : FBC_STAT.adr n ≠ FBC_POSHI.adr n := by unfold FBC_STAT.adr FBC_POSHI.adr; omega

theorem ofSigned_lt (i : Int) : ofSigned 32 i < 2 ^ 32 := by unfold ofSigned; omega

theorem ofSigned_nat {k : Nat} (h : k < 2 ^ 32) : ofSigned 32 (k : Int) = k := by unfold ofSigned; omega

/-- A register after another one of the channel's is written. -/
theorem rn_of_regsBut {l : List Fld} {a : Nat} (h : RegsBut l s t) (hl : ∀ g ∈ l, a ≠ g.adr) : t.rn a = s.rn a := by
  rw [State.rn, h.reg hl, State.rn]

theorem movePos_fb (s : State) (n : Nat) (d : Int) : (s.movePos n d).fb n = s.fb n := by
  unfold State.movePos
  dsimp only
  split_ifs <;> simp only [fb_hwBit, fb_setN]

theorem movePos_wraps (s : State) (n : Nat) (d : Int) : RegsBut [whole (FBC_POSHI.adr n), FBC_STAT.WRAPUP n, FBC_STAT.WRAPDN n]
    (s.setN (FBC_POS.adr n) (ofSigned 32 (s.rn (FBC_POS.adr n) + d))) (s.movePos n d) := by
  unfold State.movePos
  exact .ite (((RegsBut.refl _ _).setN (by simp)).hwBit (by simp)) (.ite (((RegsBut.refl _ _).setN (by simp)).hwBit (by simp)) (.refl _ _))

theorem movePos_pos (s : State) (n : Nat) (d : Int) : (s.movePos n d).rn (FBC_POS.adr n) = ofSigned 32 (s.rn (FBC_POS.adr n) + d) := by
  rw [rn_of_regsBut (movePos_wraps s n d) (by simp [whole, FBC_STAT.WRAPUP, FBC_STAT.WRAPDN, pos_ne_poshi, pos_ne_stat]), rn_setN, if_pos rfl]
  exact Nat.mod_eq_of_lt (ofSigned_lt _)

/-- A position that stays makes no wrap. -/
theorem movePos_zero (s : State) (n : Nat) : s.movePos n 0 = s.setN (FBC_POS.adr n) (s.rn (FBC_POS.adr n)) := by
  have hlt := rn_lt s (FBC_POS.adr n)
  unfold State.movePos
  dsimp only
  rw [Int.add_zero, ofSigned_nat hlt, if_neg (by omega), if_neg (by omega)]

/-- The preset loaded: RAW and FBC_POSn hold it, no step of the same sample being counted yet. -/
def State.presetLoaded (s : State) (n : Nat) : State :=
  (s.setFb n { s.fb n with preset := false }).loadPos n (s.rn (FBC_PRESET.adr n))

theorem presetLoaded_fb (s : State) (n : Nat) :
    (s.presetLoaded n).fb n = { s.fb n with preset := false, raw := s.rn (FBC_PRESET.adr n), watch := false } := by
  simp [State.presetLoaded, State.loadPos]

theorem setN_regs_of_regs (h : t.regs = s.regs) (a v : Nat) : (t.setN a v).regs = (s.setN a v).regs := by
  simp only [State.setN, State.setReg, h]

theorem presetLoaded_status (s : State) (n : Nat) : RegsBut [FBC_STAT.REF n, FBC_STAT.SUSPECT n]
    ((s.setN (FBC_POS.adr n) (s.rn (FBC_PRESET.adr n))).setN (FBC_POSHI.adr n) 0) (s.presetLoaded n) :=
  ((RegsBut.of_regs (setN_regs_of_regs (setN_regs_of_regs rfl _ _) _ _) (.refl _ _)).wb (by simp)).wb (by simp)

theorem presetLoaded_pos (s : State) (n : Nat) : (s.presetLoaded n).rn (FBC_POS.adr n) = s.rn (FBC_PRESET.adr n) := by
  rw [rn_of_regsBut (presetLoaded_status s n) (by simp [FBC_STAT.REF, FBC_STAT.SUSPECT, pos_ne_stat]), rn_setN, if_neg (pos_ne_poshi n),
    rn_setN, if_pos rfl, Nat.mod_eq_of_lt (rn_lt _ _)]

theorem presetLoaded_poshi (s : State) (n : Nat) : (s.presetLoaded n).rn (FBC_POSHI.adr n) = 0 := by
  rw [rn_of_regsBut (presetLoaded_status s n) (by simp [FBC_STAT.REF, FBC_STAT.SUSPECT, (stat_ne_poshi n).symm]), rn_setN, if_pos rfl]
  rfl

theorem presetLoaded_suspect (s : State) (n : Nat) : (s.presetLoaded n).rf (FBC_STAT.SUSPECT n) = 0 :=
  rf_wf_same _ _ _ (Nat.le_of_ble_eq_true rfl)

theorem presetLoaded_ref (s : State) (n : Nat) : (s.presetLoaded n).rf (FBC_STAT.REF n) = 1 :=
  (rf_wf_beside _ _ _ _ (.inr (Nat.le_of_ble_eq_true rfl)) (Nat.le_of_ble_eq_true rfl)).trans (rf_wf_same _ _ _ (Nat.le_of_ble_eq_true rfl))

theorem presetLoaded_regsBut (s : State) (n : Nat) :
    RegsBut [whole (FBC_POS.adr n), whole (FBC_POSHI.adr n), FBC_STAT.REF n, FBC_STAT.SUSPECT n] s (s.presetLoaded n) :=
  (((RegsBut.refl _ s).setN (by simp)).setN (by simp)).trans ((presetLoaded_status s n).mono (by simp))

theorem presetLoaded_only (s : State) (n : Nat) : ∃ r c, s.presetLoaded n = { s with regs := r, fbc := c } := by
  obtain ⟨r, h⟩ : RegsOnly ((s.setFb n { s.fb n with preset := false }).setFb n _) (s.presetLoaded n) := RegsOnly.refl.setN.setN.wb.wb
  exact ⟨r, _, h⟩

/-- The channel with RAW at the preset plus the step. -/
def State.presetStepped (s : State) (n : Nat) (d : Int) : State :=
  (s.presetLoaded n).setFb n { (s.presetLoaded n).fb n with raw := ofSigned 32 (((s.presetLoaded n).fb n).raw + d) }

theorem presetApply_waiting (h : (s.fb n).preset = true) (d : Int) : s.presetApply n d = (s.presetStepped n d).movePos n d := if_pos h

theorem presetApply_preset (h : (s.fb n).preset = true) (d : Int) : Preset n d s (s.presetApply n d) := by
  rw [presetApply_waiting h]
  have hwraps := movePos_wraps (s.presetStepped n d) n d
  have hfb : ((s.presetStepped n d).movePos n d).fb n = _ := (movePos_fb _ n d).trans (fb_setFb_same _ _ _)
  rw [presetLoaded_fb] at hfb
  have hstat {f : Fld} (hf : f.lo + f.wd ≤ 32) (ha : f.adr = FBC_STAT.adr n) (hb : [FBC_STAT.WRAPUP n, FBC_STAT.WRAPDN n].all
      (fun g => (f.lo + f.wd).ble g.lo || (g.lo + g.wd).ble f.lo) = true) :
      ((s.presetStepped n d).movePos n d).rf f = (s.presetLoaded n).rf f := by
    rw [hwraps f hf (by
      have hbits := apart_of_bits f _ hb
      simp only [List.forall_mem_cons] at hbits ⊢
      exact ⟨.inl (ha ▸ stat_ne_poshi n), hbits.1, hbits.2.1, by simp⟩), rf_setN _ _ _ _ hf, if_neg (ha ▸ (pos_ne_stat n).symm),
      State.presetStepped, setFb_rf]
  refine ⟨by rw [hfb], ?_, by rw [hfb], by rw [hfb], (hstat (Nat.le_of_ble_eq_true rfl) rfl rfl).trans (presetLoaded_ref s n),
    (hstat (Nat.le_of_ble_eq_true rfl) rfl rfl).trans (presetLoaded_suspect s n), ?_⟩
  · rw [hfb, movePos_pos, State.presetStepped, setFb_rn, presetLoaded_pos]
  · exact ((presetLoaded_regsBut s n).mono (by simp)).setFb.trans (((RegsBut.refl _ _).setN (by simp)).trans (hwraps.mono (by simp)))

theorem preset_above (n : Nat) : ∀ g ∈ [whole (FBC_POS.adr n), whole (FBC_POSHI.adr n), FBC_STAT.REF n, FBC_STAT.SUSPECT n,
    FBC_STAT.WRAPUP n, FBC_STAT.WRAPDN n], FBC_PRESET.adr n < g.adr := by
  simp [whole, FBC_PRESET.adr, FBC_POS.adr, FBC_POSHI.adr, FBC_STAT.REF, FBC_STAT.SUSPECT, FBC_STAT.WRAPUP, FBC_STAT.WRAPDN, FBC_STAT.adr]

/-- What a preset writes, where one waits. -/
theorem presetApply_regsBut (s : State) (n : Nat) (d : Int) :
    RegsBut [whole (FBC_POS.adr n), whole (FBC_POSHI.adr n), FBC_STAT.REF n, FBC_STAT.SUSPECT n, FBC_STAT.WRAPUP n, FBC_STAT.WRAPDN n]
      s (s.presetApply n d) := by
  cases h : (s.fb n).preset with
  | true => exact (presetApply_preset h d).regs
  | false => rw [presetApply_idle h]; exact .refl _ s

theorem presetApply_watch (h : (s.fb n).watch = false) (d : Int) : ((s.presetApply n d).fb n).watch = false := by
  cases hp : (s.fb n).preset with
  | true => exact (presetApply_preset hp d).watch_eq
  | false => rw [presetApply_idle hp, h]

/-! ### The sample as a whole (R138) -/

/-- The levels and the sector of the sample noted; the levels are a reference from then on. -/
def State.notedAs (s : State) (n new sect : Nat) : State :=
  ((s.wf (FBC_LEVEL.LVL n) new).wf (FBC_LEVEL.SECT n) sect).setFb n
    { ((s.wf (FBC_LEVEL.LVL n) new).wf (FBC_LEVEL.SECT n) sect).fb n with known := true }

/-- The levels noted, with no sector. -/
def State.noted (s : State) (n new : Nat) : State := s.notedAs n new 7

/-- What follows the step `r` in the same sample: a preset that waits, then the index. -/
def State.sampleEnd (s : State) (n new : Nat) (first : Bool) (r : State × Option Int) : State :=
  let t := r.1.presetApply n (if s.rb (FBC_CFG.REV n) then -r.2.getD 0 else r.2.getD 0)
  if first then t.setFb n { t.fb n with zDone := new.testBit 2 }
  else if t.rf (FBC_CFG.MODE n) = fbQuad then
    let u := t.indexSample n new r.2.isNone
    if r.2.getD 0 = 0 then u else u.indexMissed n
  else t

/-- A sample is the levels noted, the step, and what follows it. -/
theorem fbSample_eq (s : State) (n age new : Nat) : s.fbSample n age new =
    if !(s.wf (FBC_LEVEL.LVL n) new).fbUse n then (s.wf (FBC_LEVEL.LVL n) new).presetApply n 0
    else (s.notedAs n new (if (s.wf (FBC_LEVEL.LVL n) new).rf (FBC_CFG.MODE n) == fbHall then hallSector new else 7)).sampleEnd n new
      (!((s.wf (FBC_LEVEL.LVL n) new).fb n).known)
      ((s.notedAs n new (if (s.wf (FBC_LEVEL.LVL n) new).rf (FBC_CFG.MODE n) == fbHall then hallSector new else 7)).stepPart n age
        (s.rf (FBC_LEVEL.LVL n)) new (!((s.wf (FBC_LEVEL.LVL n) new).fb n).known)
        ((s.wf (FBC_LEVEL.LVL n) new).rf (FBC_LEVEL.SECT n) == 7)) := rfl

theorem noted_regsBut (s : State) (n new : Nat) : RegsBut [FBC_LEVEL.LVL n, FBC_LEVEL.SECT n] s (s.noted n new) :=
  (((RegsBut.refl _ s).wf (by simp)).wf (by simp)).setFb

theorem noted_only (s : State) (n new : Nat) : ∃ r c, s.noted n new = { s with regs := r, fbc := c } := by
  obtain ⟨r, h⟩ : RegsOnly s ((s.wf (FBC_LEVEL.LVL n) new).wf (FBC_LEVEL.SECT n) 7) := RegsOnly.refl.wf.wf
  exact ⟨r, _, by rw [State.noted, State.notedAs, h]; rfl⟩

theorem noted_sect (s : State) (n new : Nat) : RegsBut [FBC_LEVEL.SECT n] (s.wf (FBC_LEVEL.LVL n) new) (s.noted n new) :=
  ((RegsBut.refl _ _).wf (by simp)).setFb

theorem level_above (n : Nat) : ∀ g ∈ [FBC_LEVEL.LVL n, FBC_LEVEL.SECT n], FBC_PRESET.adr n < g.adr := by
  simp [FBC_PRESET.adr, FBC_LEVEL.LVL, FBC_LEVEL.SECT, FBC_LEVEL.adr]

theorem noted_fb (h : (s.fb n).known = true) (new : Nat) : (s.noted n new).fb n = s.fb n := by
  rw [State.noted, State.notedAs, fb_setFb_same, fb_wf, fb_wf, ← h]

theorem QuadUse.noted (h : QuadUse s n) (new : Nat) : QuadUse (s.noted n new) n :=
  h.of_config (noted_regsBut s n new) (level_above n) (by rw [noted_fb h.known]) (by rw [noted_fb h.known])

/-- Z is inactive: the index of the next interval may come. -/
def State.zIdle (s : State) (n : Nat) : State := s.setFb n { s.fb n with zDone := false }

theorem indexSample_idle (hz : new.testBit 2 = false) (s : State) (n : Nat) (illegal : Bool) : s.indexSample n new illegal = s.zIdle n := by
  unfold State.indexSample
  exact if_pos (by rw [hz]; rfl)

theorem indexMissed_unwatched (h : (s.fb n).watch = false) : s.indexMissed n = s := by
  unfold State.indexMissed
  exact if_neg (by rw [h]; simp)

theorem stepPart_illegal {old age : Nat} (hm : s.rf (FBC_CFG.MODE n) = fbQuad) (h : stepOf fbQuad old new = none) (w : Bool) :
    s.stepPart n age old new false w = (s.illegalStep n, none) := by
  have hsent : fbQuad ≠ fbSent := by decide
  have hhall : fbQuad ≠ fbHall := by decide
  simp [State.stepPart, hm, h, hsent, hhall]

theorem stepPart_still {old age : Nat} (hm : s.rf (FBC_CFG.MODE n) = fbQuad) (h : stepOf fbQuad old new = some 0) (w : Bool) :
    s.stepPart n age old new false w = (s, some 0) := by
  have hsent : fbQuad ≠ fbSent := by decide
  have hhall : fbQuad ≠ fbHall := by decide
  simp [State.stepPart, hm, h, hsent, hhall]

theorem stepPart_legal {old age : Nat} {up : Bool} (hm : s.rf (FBC_CFG.MODE n) = fbQuad) (h : stepOf fbQuad old new = some (unitStep up))
    (w : Bool) : s.stepPart n age old new false w = (s.legalStep n age (unitStep up) (!old.testBit 0 && new.testBit 0), some (unitStep up)) := by
  have hsent : fbQuad ≠ fbSent := by decide
  have hhall : fbQuad ≠ fbHall := by decide
  simp [State.stepPart, hm, h, hsent, hhall, unitStep_ne_zero]

/-- The end of a sample with Z inactive, after a step to `t`. -/
theorem sampleEnd_idle {r : Option Int} (hz : new.testBit 2 = false) (hm : t.rf (FBC_CFG.MODE n) = fbQuad)
    (hd : (if s.rb (FBC_CFG.REV n) then -r.getD 0 else r.getD 0) = d) : s.sampleEnd n new false (t, r) =
      if r.getD 0 = 0 then (t.presetApply n d).zIdle n else ((t.presetApply n d).zIdle n).indexMissed n := by
  have hmode : (t.presetApply n d).rf (FBC_CFG.MODE n) = fbQuad :=
    ((presetApply_regsBut t n d).cfg_eq (preset_above n) rfl (Nat.le_of_ble_eq_true rfl)).trans hm
  unfold State.sampleEnd
  rw [hd]
  dsimp only
  rw [if_neg Bool.false_ne_true, if_pos hmode, indexSample_idle hz]

/-- A sample of a quadrature channel. -/
theorem fbSample_quad (h : QuadUse s n) (age new : Nat) : ∃ w, s.fbSample n age new =
    (s.noted n new).sampleEnd n new false ((s.noted n new).stepPart n age (s.rf (FBC_LEVEL.LVL n)) new false w) := by
  have hlvl : QuadUse (s.wf (FBC_LEVEL.LVL n) new) n :=
    h.of_config ((RegsBut.refl [FBC_LEVEL.LVL n, FBC_LEVEL.SECT n] s).wf (by simp)) (level_above n) (by rw [fb_wf]) (by rw [fb_wf])
  have hsect : (if (fbQuad == fbHall) = true then hallSector new else 7) = 7 := if_neg (by decide)
  refine ⟨(s.wf (FBC_LEVEL.LVL n) new).rf (FBC_LEVEL.SECT n) == 7, ?_⟩
  rw [fbSample_eq, hlvl.use, hlvl.known, hlvl.mode, hsect, Bool.not_true, if_neg Bool.false_ne_true, State.noted]

theorem fbSample_illegal (h : QuadUse s n) (hz : new.testBit 2 = false) (hp : (s.fb n).preset = false)
    (hstep : stepOf fbQuad (s.rf (FBC_LEVEL.LVL n)) new = none) (age : Nat) :
    s.fbSample n age new = ((s.noted n new).illegalStep n).zIdle n := by
  obtain ⟨w, hw⟩ := fbSample_quad h age new
  have hill := illegalStep_illegal (s.noted n new) n
  have hmode : ((s.noted n new).illegalStep n).rf (FBC_CFG.MODE n) = fbQuad :=
    (hill.regs.cfg_eq (illegal_above n) rfl (Nat.le_of_ble_eq_true rfl)).trans (h.noted new).mode
  rw [hw, stepPart_illegal (h.noted new).mode hstep, sampleEnd_idle (d := 0) hz hmode (by simp),
    presetApply_idle (by rw [hill.preset_eq, noted_fb h.known, hp])]
  exact if_pos rfl

theorem fbSample_still (h : QuadUse s n) (hz : (s.rf (FBC_LEVEL.LVL n)).testBit 2 = false) (age : Nat) :
    s.fbSample n age (s.rf (FBC_LEVEL.LVL n)) = ((s.noted n (s.rf (FBC_LEVEL.LVL n))).presetApply n 0).zIdle n := by
  obtain ⟨w, hw⟩ := fbSample_quad h age (s.rf (FBC_LEVEL.LVL n))
  rw [hw, stepPart_still (h.noted _).mode (stepOf_still _), sampleEnd_idle (d := 0) hz (h.noted _).mode (by simp)]
  exact if_pos rfl

/-- A legal step, which a preset of the same sample takes with it. -/
theorem fbSample_legal {up : Bool} (h : QuadUse s n) (hz : new.testBit 2 = false) (hw : (s.fb n).watch = false)
    (hstep : stepOf fbQuad (s.rf (FBC_LEVEL.LVL n)) new = some (unitStep up)) (age : Nat) :
    ∃ t, LegalStep n (up != s.rb (FBC_CFG.REV n)) (s.noted n new) t ∧
      s.fbSample n age new = (t.presetApply n (unitStep (up != s.rb (FBC_CFG.REV n)))).zIdle n := by
  obtain ⟨w, hsample⟩ := fbSample_quad h age new
  have hrev : (s.noted n new).rb (FBC_CFG.REV n) = s.rb (FBC_CFG.REV n) := by
    rw [State.rb, (noted_regsBut s n new).cfg_eq (level_above n) rfl (Nat.le_of_ble_eq_true rfl), State.rb]
  have hlegal := legalStep_legal (s.noted n new) n age up (!(s.rf (FBC_LEVEL.LVL n)).testBit 0 && new.testBit 0)
  rw [hrev] at hlegal
  rw [stepPart_legal (h.noted new).mode hstep] at hsample
  obtain ⟨t, ht⟩ : ∃ t, t = (s.noted n new).legalStep n age (unitStep up) (!(s.rf (FBC_LEVEL.LVL n)).testBit 0 && new.testBit 0) := ⟨_, rfl⟩
  rw [← ht] at hlegal hsample
  have hmode : t.rf (FBC_CFG.MODE n) = fbQuad :=
    (hlegal.regs.cfg_eq (legal_above n) rfl (Nat.le_of_ble_eq_true rfl)).trans (h.noted new).mode
  have hwatch : (t.fb n).watch = false := by rw [hlegal.watch_eq, noted_fb h.known, hw]
  refine ⟨t, hlegal, hsample.trans ?_⟩
  rw [sampleEnd_idle (d := unitStep (up != s.rb (FBC_CFG.REV n))) hz hmode (by rw [hrev, Option.getD_some, unitStep_rev]), Option.getD_some,
    if_neg (unitStep_ne_zero up), indexMissed_unwatched (by rw [State.zIdle, fb_setFb_same, presetApply_watch hwatch])]

end Sys2Proof.Machine
end

section
/-! PROOF. Quadrature samples, and the speed that follows time (R130, R132, R133, R135, R142). -/

namespace Sys2Proof.Machine

variable {s t u : State} {new : Nat} {n : Fin 16} {a b z : Bool}

/-! ### The sample that a level change brings -/

/-- A level change in whose sample no line changes. -/
theorem levelChange_quiet (h : QuadReady s n) (hp : (s.fb n).preset = false) (hf : s.flips n (s.newLevels n a b z) = 0) :
    ∃ u, exec (.fbcLevelChange n a b z) s = .next u ∧ Taken n s u := by
  obtain ⟨u, age, htaken, he⟩ := levelChange_sample h a b z
  exact ⟨u, by rw [he, hp, hf]; rfl, htaken⟩

/-- A level change in whose sample every line that differs has agreed. -/
theorem levelChange_agreed (h : QuadReady s n) (hall : ∀ i : Fin 3, s.rf (FBC_CFG.FILT n) ≤ (s.fb n).agree.getD i 0 + 1)
    (hne : s.rf (FBC_LEVEL.LVL n) ≠ s.newLevels n a b z) :
    ∃ u age, Taken n s u ∧ exec (.fbcLevelChange n a b z) s = .next (u.fbSample n age (s.newLevels n a b z)) := by
  obtain ⟨u, age, htaken, he⟩ := levelChange_sample h a b z
  have hnew := flips_agreed (newLevels_lt s n a b z) hall
  have hf : (s.flips n (s.newLevels n a b z) != 0) = true := bne_iff_ne.2 fun h0 => hne (by rw [← hnew, h0, Nat.xor_zero])
  exact ⟨u, age, htaken, by rw [he, hf, Bool.or_true, if_pos rfl, hnew]⟩

/-- The sample that finds a preset, the levels standing. -/
theorem levelChange_preset (h : QuadReady s n) (hp : (s.fb n).preset = true) (heq : s.newLevels n a b z = s.rf (FBC_LEVEL.LVL n)) :
    ∃ u age, Taken n s u ∧ exec (.fbcLevelChange n a b z) s = .next (u.fbSample n age (s.rf (FBC_LEVEL.LVL n))) := by
  obtain ⟨u, age, htaken, he⟩ := levelChange_sample h a b z
  have hf := flips_eq_zero (s := s) (n := n) (new := s.newLevels n a b z) fun i _ => .inl (by rw [heq]; simp)
  exact ⟨u, age, htaken, by rw [he, hp, hf, Nat.xor_zero, Bool.true_or, if_pos rfl]⟩

/-! ### An illegal step, a legal step (R132, R133) -/

theorem Taken.preset_eq (h : Taken n s u) : (u.fb n).preset = (s.fb n).preset := by
  obtain ⟨p, k, g, hchan⟩ := h.chan
  rw [hchan]

theorem Taken.raw_eq (h : Taken n s u) : (u.fb n).raw = (s.fb n).raw := by
  obtain ⟨p, k, g, hchan⟩ := h.chan
  rw [hchan]

theorem Taken.watch_eq (h : Taken n s u) : (u.fb n).watch = (s.fb n).watch := by
  obtain ⟨p, k, g, hchan⟩ := h.chan
  rw [hchan]

/-- The levels noted in a sample, from the state before it. -/
theorem Taken.noted_regsBut (h : Taken n s u) (new : Nat) : RegsBut [FBC_LEVEL.LVL n, FBC_LEVEL.SECT n] s (u.noted n new) :=
  (h.regsBut _).trans (Machine.noted_regsBut u n new)

theorem Taken.noted_rf (h : Taken n s u) {f : Fld} (hf : f.lo + f.wd ≤ 32) (ha : f.adr < FBC_LEVEL.adr n) (new : Nat) :
    (u.noted n new).rf f = s.rf f :=
  rf_of_regsBut_ne (h.noted_regsBut new) hf (by simpa [FBC_LEVEL.LVL, FBC_LEVEL.SECT] using Nat.ne_of_lt ha)

theorem Taken.noted_only (h : Taken n s u) (new : Nat) : ChannelsOnly s (u.noted n new) := by
  obtain ⟨r, c, hnoted⟩ := Machine.noted_only u n new
  exact ChannelsOnly.trans ⟨_, _, _, h.frame⟩ ⟨r, _, c, hnoted⟩

/-- LVL holds the levels noted, whatever of the channel's other registers the sample writes. -/
theorem lvl_noted {l : List Fld} (hn : new < 8) (h : RegsBut l (u.noted n new) t) (hl : ∀ g ∈ l, FBC_LEVEL.adr n ≠ g.adr) :
    t.rf (FBC_LEVEL.LVL n) = new := by
  rw [rf_of_regsBut_ne h (Nat.le_of_ble_eq_true rfl) hl, (noted_sect u n new).rf_written
    (List.forall_mem_singleton.2 (.inr (.inl (Nat.le_of_ble_eq_true rfl))))]
  exact Nat.mod_eq_of_lt hn

theorem Taken.noted_raised {src d : Nat} (h : Taken n s u) (hr : Raised (u.noted n new) t src d) : Raised s t src d := by
  obtain ⟨r, c, hnoted⟩ := Machine.noted_only u n new
  rw [hnoted, h.frame] at hr
  exact hr

theorem Taken.noted_fb (h : Taken n s u) (hk : (s.fb n).known = true) (new : Nat) : (u.noted n new).fb n = u.fb n := by
  obtain ⟨p, k, g, hchan⟩ := h.chan
  exact Machine.noted_fb (by rw [hchan, hk]) new

/-- The sample of an illegal step. -/
theorem levelChange_illegal (h : QuadReady s n) (hp : (s.fb n).preset = false) (hz : (s.newLevels n a b z).testBit 2 = false)
    (hall : ∀ i : Fin 3, s.rf (FBC_CFG.FILT n) ≤ (s.fb n).agree.getD i 0 + 1)
    (ha : (s.rf (FBC_LEVEL.LVL n)).testBit 0 ≠ (s.newLevels n a b z).testBit 0)
    (hb : (s.rf (FBC_LEVEL.LVL n)).testBit 1 ≠ (s.newLevels n a b z).testBit 1) :
    ∃ u t, Taken n s u ∧ IllegalStep n (u.noted n (s.newLevels n a b z)) t ∧
      exec (.fbcLevelChange n a b z) s = .next (t.zIdle n) := by
  obtain ⟨u, age, ht, he⟩ := levelChange_agreed h hall fun heq => ha (by rw [← heq])
  have hstep : stepOf fbQuad (u.rf (FBC_LEVEL.LVL n)) (s.newLevels n a b z) = none := by
    rw [ht.rf_eq]
    exact stepOf_illegal _ (rf_lt s _) _ (newLevels_lt s n a b z) (by rw [bne_iff_ne.2 ha, bne_iff_ne.2 hb]; rfl)
  exact ⟨u, _, ht, illegalStep_illegal _ _,
    by rw [he, fbSample_illegal (ht.quadUse h.toQuadUse) hz (ht.preset_eq.trans hp) hstep]⟩

theorem one_changes : ∀ a b c d : Bool, (a ≠ b) ≠ (c ≠ d) → ((a != b) != (c != d)) = true := by decide

/-- The direction of a legal step to these levels, after REV. -/
def State.stepUp (s : State) (n new : Nat) : Bool :=
  ((s.rf (FBC_LEVEL.LVL n)).testBit 0 == new.testBit 1) != s.rb (FBC_CFG.REV n)

/-- The sample of a legal step, with the preset that may wait. -/
theorem levelChange_legal (h : QuadReady s n) (hw : (s.fb n).watch = false) (hz : (s.newLevels n a b z).testBit 2 = false)
    (hall : ∀ i : Fin 3, s.rf (FBC_CFG.FILT n) ≤ (s.fb n).agree.getD i 0 + 1)
    (hone : ((s.rf (FBC_LEVEL.LVL n)).testBit 0 ≠ (s.newLevels n a b z).testBit 0) ≠
      ((s.rf (FBC_LEVEL.LVL n)).testBit 1 ≠ (s.newLevels n a b z).testBit 1)) :
    ∃ u v, Taken n s u ∧ LegalStep n (s.stepUp n (s.newLevels n a b z)) (u.noted n (s.newLevels n a b z)) v ∧
      Samples n u ((v.presetApply n (unitStep (s.stepUp n (s.newLevels n a b z)))).zIdle n) ∧
      exec (.fbcLevelChange n a b z) s = .next ((v.presetApply n (unitStep (s.stepUp n (s.newLevels n a b z)))).zIdle n) := by
  obtain ⟨u, age, ht, he⟩ := levelChange_agreed h hall fun heq => hone (by rw [← heq]; simp)
  have hstep : stepOf fbQuad (u.rf (FBC_LEVEL.LVL n)) (s.newLevels n a b z) =
      some (unitStep ((s.rf (FBC_LEVEL.LVL n)).testBit 0 == (s.newLevels n a b z).testBit 1)) := by
    rw [ht.rf_eq]
    exact stepOf_legal _ (rf_lt s _) _ (newLevels_lt s n a b z) (one_changes _ _ _ _ hone)
  have hrev : u.rb (FBC_CFG.REV n) = s.rb (FBC_CFG.REV n) := by rw [State.rb, ht.rf_eq, State.rb]
  obtain ⟨v, hlegal, hv⟩ := fbSample_legal (ht.quadUse h.toQuadUse) hz (ht.watch_eq.trans hw) hstep age
  rw [hrev] at hlegal hv
  have hsamples : Samples n u (u.fbSample n age (s.newLevels n a b z)) := (Samples.refl _ _).fbSample
  exact ⟨u, v, ht, hlegal, hv ▸ hsamples, he.trans (congrArg _ hv)⟩

/-! ### The speed that follows time (R142) -/

theorem speedBound_next {dt : Nat} (hi : (s.fb n).interval = some dt) (hc : (s.fbUse n && !s.rb (FBC_SPCFG.SPMETH n) && (s.fb n).edges == 2 &&
      !s.rb (FBC_STAT.STOP n) && decide ((s.fb n).stamp + dt < s.gt) && decide ((s.fb n).boundAt + 1000 ≤ s.now)) = true) :
    exec (.speedBoundUpdate n) s = .next ((s.setFb n { s.fb n with boundAt := s.now }).setN (FBC_SPEED.adr n)
      (s.speedOf (s.fb n).up (s.cpe n) (s.gt - (s.fb n).stamp))) := by
  change execSpeedBoundUpdate n s = _
  simp only [execSpeedBoundUpdate, hi]
  exact whenB_true hc _

theorem speedStop_next (hc : (s.fbUse n && !s.rb (FBC_SPCFG.SPMETH n) && s.rb (FBC_STAT.SPVALID n) && !s.rb (FBC_STAT.STOP n)
      && decide ((s.fb n).stamp + s.rf (FBC_SPCFG.SPTO n) * 10000 ≤ s.gt)) = true) :
    exec (.speedStopTimeout n) s = .next ((s.setN (FBC_SPEED.adr n) 0).wb (FBC_STAT.STOP n) true) := by
  change execSpeedStopTimeout n s = _
  rw [execSpeedStopTimeout]
  exact whenB_true hc _

/-- FBC_LEVEL_CHANGE sets the levels at the pads, whatever the samples do. -/
theorem levelChange_pins (hon : s.on = true) (n : Fin 16) (a b z : Bool) :
    ∃ t, exec (.fbcLevelChange n a b z) s = .next t ∧ (t.fb n).pins = b2n a + 2 * b2n b + 4 * b2n z := by
  refine ⟨_, levelChange_next hon n a b z, ?_⟩
  have hpads := congrArg ChanFb.pins (atPads_fb (s.fbCatch n) n (b2n a + 2 * b2n b + 4 * b2n z))
  exact (Samples.ite (Samples.refl _ _).fbSamples (Samples.refl _ _)).pins_eq.trans hpads

theorem zIdle_raw (s : State) (n : Nat) : ((s.zIdle n).fb n).raw = (s.fb n).raw := by rw [State.zIdle, fb_setFb_same]

theorem zIdle_regsBut {l : List Fld} {n : Nat} (h : RegsBut l s t) : RegsBut l s (t.zIdle n) := h.setFb

theorem errcnt_lt_level (n : Nat) : FBC_ERRCNT.adr n < FBC_LEVEL.adr n := by unfold FBC_LEVEL.adr FBC_ERRCNT.adr; omega
theorem stat_lt_level (n : Nat) : FBC_STAT.adr n < FBC_LEVEL.adr n := by unfold FBC_LEVEL.adr FBC_STAT.adr; omega

/-- What a legal step writes lies below FBC_LEVELn. -/
theorem legal_ne_level (n : Nat) : ∀ g ∈ legalFields n, FBC_LEVEL.adr n ≠ g.adr := by
  simp [legalFields, motionFields, whole, FBC_LEVEL.adr, FBC_POS.adr, FBC_POSHI.adr, FBC_STAT.DIR, FBC_STAT.DIRV, FBC_STAT.WRAPUP,
    FBC_STAT.WRAPDN, FBC_STAT.DIRCHG, FBC_STAT.STOP, FBC_STAT.SPVALID, FBC_STAT.adr, FBC_SPEED.adr]

theorem illegal_ne_level (n : Nat) : ∀ g ∈ [FBC_ERRCNT.ILLCNT n, FBC_STAT.SUSPECT n, FBC_STAT.SPVALID n, whole (FBC_SPEED.adr n)],
    FBC_LEVEL.adr n ≠ g.adr := by
  simp [whole, FBC_LEVEL.adr, FBC_ERRCNT.ILLCNT, FBC_ERRCNT.adr, FBC_STAT.SUSPECT, FBC_STAT.SPVALID, FBC_STAT.adr, FBC_SPEED.adr]

/-- A legal step leaves SUSPECT. -/
theorem LegalStep.suspect_eq {up : Bool} {n : Nat} (h : LegalStep n up s t) : t.rf (FBC_STAT.SUSPECT n) = s.rf (FBC_STAT.SUSPECT n) :=
  h.regs _ (Nat.le_of_ble_eq_true rfl) (List.forall_mem_cons.2 ⟨.inr (.inr (Nat.le_of_ble_eq_true rfl)),
    List.forall_mem_cons.2 ⟨.inr (.inr (Nat.le_of_ble_eq_true rfl)), stat_apart_motion n rfl rfl⟩⟩)

/-- The registers that a legal step's sample may write, each whole but the levels. -/
theorem legalSample_fields (n : Nat) : ∀ g ∈ legalFields n, g ∈ [FBC_LEVEL.LVL n, FBC_LEVEL.SECT n, whole (FBC_POS.adr n),
    whole (FBC_POSHI.adr n), whole (FBC_STAT.adr n), whole (FBC_SPEED.adr n)] ∨ (whole g.adr ∈ [FBC_LEVEL.LVL n, FBC_LEVEL.SECT n,
    whole (FBC_POS.adr n), whole (FBC_POSHI.adr n), whole (FBC_STAT.adr n), whole (FBC_SPEED.adr n)] ∧ g.lo + g.wd ≤ 32) := by
  simp [legalFields, motionFields, FBC_STAT.DIR, FBC_STAT.DIRV, FBC_STAT.WRAPUP, FBC_STAT.WRAPDN, FBC_STAT.DIRCHG, FBC_STAT.STOP,
    FBC_STAT.SPVALID]

/-- Settles O7: of a quadrature sample the levels that have agreed give the step, and the step is all that is counted; the speed's bound
and its stop are writes of FBC_SPEEDn and STOP. -/
theorem feedbackSamples : Obligations.FeedbackSamples := by
  refine ⟨fun s n a b z hon => levelChange_pins hon n a b z, ?illegal, ?legal, ?still, ?waiting, ?bound, ?stop⟩
  case illegal =>
    intro s n a b z hon hs hvio huse hmode hknown hp hz hall ha hb
    obtain ⟨u, t, ht, hill, he⟩ := levelChange_illegal ⟨⟨huse, hmode, hknown⟩, hon, hs, hvio⟩ hp hz hall ha hb
    refine ⟨_, he, ?_, hill.suspect_eq, hill.spvalid_eq, hill.speed_eq, ht.noted_raised hill.raised,
      lvl_noted (newLevels_lt s n a b z) hill.regs (illegal_ne_level n), ?_, zIdle_regsBut ?_,
      ((ht.noted_only _).trans hill.only).setFb.frame⟩
    · exact hill.illcnt_eq.trans (by rw [ht.noted_rf (Nat.le_of_ble_eq_true rfl) (errcnt_lt_level n)])
    · rw [zIdle_raw, hill.raw_eq, ht.noted_fb hknown, ht.raw_eq]
    · exact ((ht.noted_regsBut _).mono (by simp)).trans (hill.regs.mono (by simp))
  case legal =>
    intro s n a b z hon hs hvio huse hmode hknown hp hz hall hone hw
    obtain ⟨u, t, ht, hlegal, hsamples, he⟩ := levelChange_legal ⟨⟨huse, hmode, hknown⟩, hon, hs, hvio⟩ hw hz hall hone
    have hpreset : (t.fb n).preset = false := by rw [hlegal.preset_eq, ht.noted_fb hknown, ht.preset_eq, hp]
    rw [presetApply_idle hpreset] at hsamples he
    refine ⟨_, he, ⟨hlegal.dir_eq, ?_⟩, hlegal.dirv_eq, lvl_noted (newLevels_lt s n a b z) hlegal.regs (legal_ne_level n),
      hlegal.suspect_eq.trans (ht.noted_rf (Nat.le_of_ble_eq_true rfl) (stat_lt_level n) _), zIdle_regsBut ?_, ?_⟩
    · rw [zIdle_raw, hlegal.raw_eq, ht.noted_fb hknown, ht.raw_eq, ofSigned_unitStep]
      rfl
    · exact ((ht.noted_regsBut _).mono (by simp)).trans (hlegal.regs.widen (legalSample_fields n))
    · rw [hsamples.frame, ht.frame]
  case still =>
    intro s n a b z hon hs hvio huse hmode hknown hp hz heq
    obtain ⟨u, he, ht⟩ := levelChange_quiet (a := a) (b := b) (z := z) ⟨⟨huse, hmode, hknown⟩, hon, hs, hvio⟩ hp
      (flips_eq_zero fun i _ => .inl (by rw [State.newLevels, heq]; simp))
    exact ⟨u, he, ht.regsBut _, ht.frame⟩
  case waiting =>
    intro s n a b z hon hs hvio huse hmode hknown hp hz hfew
    obtain ⟨u, he, ht⟩ := levelChange_quiet (a := a) (b := b) (z := z) ⟨⟨huse, hmode, hknown⟩, hon, hs, hvio⟩ hp
      (flips_eq_zero fun i hi => .inr (hfew ⟨i, hi⟩))
    exact ⟨u, he, ht.regsBut _, ht.frame⟩
  case bound =>
    intro s n dt huse hm he hi hstop hlate hb
    refine ⟨_, speedBound_next hi (by simp [huse, hm, he, hstop, hlate, hb]), (rn_setN _ _ _ _).trans (if_pos rfl),
      (RegsBut.refl _ s).setFb.setN (by simp), ?_⟩
    obtain ⟨r, h⟩ : RegsOnly (s.setFb n { s.fb n with boundAt := s.now }) _ :=
      RegsOnly.refl.setN (a := FBC_SPEED.adr n) (n := s.speedOf (s.fb n).up (s.cpe n) (s.gt - (s.fb n).stamp))
    rw [h]
    rfl
  case stop =>
    intro s n huse hm hv hstop hlate
    refine ⟨_, speedStop_next (by simp [huse, hm, hv, hstop, Nat.mul_comm _ 10000, hlate]), ?_, rf_wf_same _ _ _ (Nat.le_of_ble_eq_true rfl),
      ((RegsBut.refl _ s).setN (by simp)).wb (by simp), ?_⟩
    · rw [wb_eq, State.rn, reg_wf_ne _ _ _ _ (stat_ne_speed n).symm]
      exact (rn_setN _ _ _ _).trans (if_pos rfl)
    · obtain ⟨r, h⟩ : RegsOnly s ((s.setN (FBC_SPEED.adr n) 0).wb (FBC_STAT.STOP n) true) := RegsOnly.refl.setN.wb
      rw [h]

end Sys2Proof.Machine
end

section
/-! PROOF. Presets, cleared suspicions and reads of a position (R133, R137, R138). -/

namespace Sys2Proof.Machine

variable {s t u : State} {new : Nat} {n : Fin 16} {a b z : Bool}

/-! ### Writes of FBC_CTLn and reads of FBC_POSn -/

theorem fbcPreset_next {req : Fin 32} (hon : s.on = true) (hw : s.mayWrite req (8 + n) false = true) :
    exec (.fbcPreset req n) s = .next (s.presetWrite n) := by
  change execFbcPreset req n s = _
  rw [execFbcPreset, whenOn_on hon, granted_of_mayWrite hw]

theorem fbcClrsusp_next {req : Fin 32} (hon : s.on = true) (hw : s.mayWrite req (8 + n) false = true) :
    exec (.fbcClrsusp req n) s = .next (s.wb (FBC_STAT.SUSPECT n) false) := by
  change execFbcClrsusp req n s = _
  rw [execFbcClrsusp, whenOn_on hon, granted_of_mayWrite hw]

theorem fbcPosRead_next (hon : s.on = true) (req : Fin 32) (n : Fin 16) : exec (.fbcPosRead req n) s = .next (s.posRead req n) := by
  change execFbcPosRead req n s = _
  rw [execFbcPosRead, whenOn_on hon]

/-! ### A preset without a step -/

/-- A register written with what it holds. -/
theorem setN_self_regsBut (s : State) (a : Nat) (l : List Fld) : RegsBut l s (s.setN a (s.rn a)) := by
  intro f hf _
  rw [rf_setN _ _ _ _ hf]
  split
  · next h => rw [← h, State.rf]
  · rfl

/-- A field put back into its word. -/
theorem putN_getN_self (f : Fld) (k : Nat) : f.putN k (f.getN k) = k := by
  refine Nat.eq_of_testBit_eq fun i => ?_
  rw [putN_testBit, getN_testBit]
  split_ifs with hlo hhi
  · rfl
  · rw [decide_eq_true (by omega), Bool.true_and, Nat.add_sub_cancel' (by omega)]
  · rfl

/-- Levels noted that stand already change only the sector. -/
theorem noted_same_regsBut (s : State) (n : Nat) : RegsBut [FBC_LEVEL.SECT n] s (s.noted n (s.rf (FBC_LEVEL.LVL n))) := by
  have hlvl : RegsBut [FBC_LEVEL.SECT n] s (s.wf (FBC_LEVEL.LVL n) (s.rf (FBC_LEVEL.LVL n))) := by
    rw [State.wf, State.rf, putN_getN_self]
    exact setN_self_regsBut s _ _
  exact hlvl.trans (noted_sect s n _)

theorem presetApply_zero (h : (s.fb n).preset = true) : s.presetApply n 0 =
    (s.presetStepped n 0).setN (FBC_POS.adr n) ((s.presetStepped n 0).rn (FBC_POS.adr n)) := by
  rw [presetApply_waiting h, movePos_zero]

theorem presetApply_zero_regsBut (h : (s.fb n).preset = true) :
    RegsBut [whole (FBC_POS.adr n), whole (FBC_POSHI.adr n), FBC_STAT.REF n, FBC_STAT.SUSPECT n] s (s.presetApply n 0) := by
  rw [presetApply_zero h]
  exact (presetLoaded_regsBut s n).setFb.setN (by simp)

theorem presetApply_zero_poshi (h : (s.fb n).preset = true) : (s.presetApply n 0).rn (FBC_POSHI.adr n) = 0 := by
  rw [presetApply_zero h, rn_setN, if_neg (pos_ne_poshi n).symm, State.presetStepped, setFb_rn, presetLoaded_poshi]

theorem presetApply_zero_only (h : (s.fb n).preset = true) : ∃ r c, s.presetApply n 0 = { s with regs := r, fbc := c } := by
  obtain ⟨r, c, hl⟩ := presetLoaded_only s n
  obtain ⟨q, hq⟩ : RegsOnly (s.presetStepped n 0) (s.presetApply n 0) := by
    rw [presetApply_zero h]
    exact RegsOnly.refl.setN
  exact ⟨q, _, by rw [hq, State.presetStepped, hl]; rfl⟩

/-- The sample that finds a preset, and no step. -/
theorem levelChange_presetStill (h : QuadReady s n) (hp : (s.fb n).preset = true) (hz : (s.rf (FBC_LEVEL.LVL n)).testBit 2 = false)
    (heq : s.newLevels n a b z = s.rf (FBC_LEVEL.LVL n)) : ∃ u, Taken n s u ∧
      exec (.fbcLevelChange n a b z) s = .next (((u.noted n (u.rf (FBC_LEVEL.LVL n))).presetApply n 0).zIdle n) := by
  obtain ⟨u, age, ht, he⟩ := levelChange_preset h hp heq
  rw [← ht.rf_eq] at he hz
  exact ⟨u, ht, he.trans (congrArg _ (fbSample_still (ht.quadUse h.toQuadUse) hz age))⟩

end Sys2Proof.Machine
end

section
/-! PROOF. Frames of a SENT channel (R144 to R147). -/

namespace Sys2Proof.Machine

variable {s t u : State} {n : Nat} {p : List Nat}

/-! ### Where a SENT channel's registers lie -/

theorem sentcnt_ne_stat (n : Nat) : FBC_SENTCNT.adr n ≠ FBC_STAT.adr n := by unfold FBC_SENTCNT.adr FBC_STAT.adr; omega

/-- A SENT channel in use, its pads powered. -/
structure SentReady (s : State) (n : Nat) : Prop where
  on : s.on = true
  use : s.fbUse n = true
  vio : s.vioDead 2 = false
  mode : s.rf (FBC_CFG.MODE n) = fbSent

/-- The frame becomes the reference of the next one. -/
def State.sentRef (s : State) (n : Nat) (p : List Nat) : State :=
  s.setFb n { s.fb n with prevCal := some (p.headD 0), prevLen := p.foldl (· + ·) 0 }

/-! ### A frame that fails a check (R144, R145) -/

/-- The count and the event of the check that failed. -/
def State.sentFault (s : State) (n r : Nat) : State :=
  if r = 1 then (s.incSat (FBC_SENTCNT.FMTERR n)).raiseEv 101 n else (s.incSat (FBC_SENTCNT.CRCERR n)).raiseEv 98 n

/-- The value ages, and the message in progress is lost. -/
def State.sentAged (s : State) (n : Nat) (c : ChanFb) : State := (s.incSat (FBC_STAT.SENTAGE n)).setFb n { c with serial := [] }

/-! ### A good frame (R144, R146) -/

/-- The status nibble of a frame. -/
def sentStatus (p : List Nat) : Nat := ticks (p.headD 0) (p.getD 1 0) - 12

/-- The data nibble `i` of a frame of `nib`. -/
def sentNibble (nib : Nat) (p : List Nat) (i : Nat) : Nat := if i < nib then ticks (p.headD 0) (p.getD (2 + i) 0) - 12 else 0

/-- The content of FBC_SENTFASTn for a frame. -/
def State.sentWord (s : State) (n : Nat) (p : List Nat) : Nat :=
  sentStatus p * 2 ^ 28 + (List.range 6).foldl (fun a i => 16 * a + sentNibble (s.rf (FBC_SENTCFG.NIBBLES n)) p i) 0 * 2 ^ 4

/-- The registers of a good frame. -/
def State.sentRegs (s : State) (n : Nat) (p : List Nat) : State :=
  (((s.setN (FBC_SENTFAST.adr n) (s.sentWord n p)).wb (FBC_STAT.SENTVALID n) true).wf (FBC_STAT.SENTAGE n) 0).wb (FBC_STAT.LOSS n) false

/-- The channel with a valid frame at this time. -/
def State.heardAt (s : State) (n : Nat) (c : ChanFb) (k : Nat) : State := s.setFb n { c with validAt := k }

theorem heardAt_validAt (s : State) (n : Nat) (c : ChanFb) (k : Nat) : ((s.heardAt n c k).fb n).validAt = k := by
  rw [State.heardAt, fb_setFb_same]

/-- The frame taken, its slow channel still to come. -/
def State.sentValue (s : State) (n : Nat) (p : List Nat) : State := (s.sentRegs n p).heardAt n (s.fb n) (s.sentRegs n p).now

theorem sentFrame_first {n : Fin 16} (h : SentReady s n) (hc : (s.fb n).prevCal = none) (p : List Nat) :
    exec (.sentFrame n p) s = .next (s.sentRef n p) := by
  change execSentFrame n p s = _
  rw [execSentFrame, whenB_true (by rw [h.on, h.use, h.vio, h.mode]; rfl)]
  simp only [hc]
  rfl

theorem sentFrame_good {n : Fin 16} (h : SentReady s n) (hc : (s.fb n).prevCal.isNone = false) (hr : s.sentCheck n p = 0) :
    exec (.sentFrame n p) s = .next (((s.sentValue n p).slowStep n (sentStatus p)).sentRef n p) := by
  change execSentFrame n p s = _
  rw [execSentFrame, whenB_true (by rw [h.on, h.use, h.vio, h.mode]; rfl)]
  simp only [hc, hr]
  rfl

theorem sentFrame_bad {n : Fin 16} (h : SentReady s n) (hc : (s.fb n).prevCal.isNone = false) (hr : s.sentCheck n p ≠ 0) :
    exec (.sentFrame n p) s = .next (((s.sentFault n (s.sentCheck n p)).sentAged n (s.fb n)).sentRef n p) := by
  change execSentFrame n p s = _
  rw [execSentFrame, whenB_true (by rw [h.on, h.use, h.vio, h.mode]; rfl)]
  simp only [hc, if_neg hr]
  rfl

/-! ### The value of a good frame (R144) -/

/-- Nibbles as the digits of a number. -/
theorem foldl_nibbles_lt (g : Nat → Nat) (hg : ∀ i, g i < 16) (l : List Nat) (a : Nat) :
    l.foldl (fun a i => 16 * a + g i) a < (a + 1) * 16 ^ l.length := by
  induction l generalizing a with
  | nil => simp
  | cons i l ih =>
    have hi := hg i
    calc l.foldl (fun a i => 16 * a + g i) (16 * a + g i) < (16 * a + g i + 1) * 16 ^ l.length := ih _
      _ ≤ (a + 1) * 16 * 16 ^ l.length := Nat.mul_le_mul_right _ (by omega)
      _ = (a + 1) * 16 ^ (l.length + 1) := by rw [Nat.pow_succ', Nat.mul_assoc]

/-- In a good frame no nibble is longer than 27 ticks. -/
theorem ticks_le_of_good (h : s.sentCheck n p = 0) :
    ∀ q ∈ (p.drop 1).take (2 + s.rf (FBC_SENTCFG.NIBBLES n)), ticks (p.headD 0) q ≤ 27 := by
  intro q hq
  by_contra hlong
  have hbad : ((p.drop 1).take (2 + s.rf (FBC_SENTCFG.NIBBLES n))).any
      (fun q => decide (ticks (p.headD 0) q < 12) || decide (27 < ticks (p.headD 0) q)) = true :=
    List.any_eq_true.2 ⟨q, hq, by rw [decide_eq_true (Nat.lt_of_not_le hlong), Bool.or_true]⟩
  unfold State.sentCheck at h
  simp only [hbad, Bool.or_true, Bool.true_or, if_true] at h
  exact absurd h (by decide)

theorem ticks_zero (cal : Nat) : ticks cal 0 ≤ 27 := by
  unfold ticks
  exact Nat.div_le_of_le_mul (by omega)

theorem sentNibble_lt (h : s.sentCheck n p = 0) (i : Nat) : sentNibble (s.rf (FBC_SENTCFG.NIBBLES n)) p i < 16 := by
  unfold sentNibble
  split
  · next hi =>
    have hticks : ticks (p.headD 0) (p.getD (2 + i) 0) ≤ 27 := by
      rcases Nat.lt_or_ge (2 + i) p.length with hlen | hlen
      · refine ticks_le_of_good h _ (List.mem_iff_getElem.2 ⟨1 + i, ?_, ?_⟩)
        · simp only [List.length_take, List.length_drop]
          omega
        · simp only [List.getElem_take, List.getElem_drop, List.getD_eq_getElem _ _ hlen]
          congr 1
          omega
      · rw [List.getD_eq_default _ _ hlen]
        exact ticks_zero _
    omega
  · decide

/-- The status nibble stands above the data. -/
theorem sentWord_scn (h : s.sentCheck n p = 0) : (FBC_SENTFAST.SCN n).getN (s.sentWord n p) = sentStatus p % 16 := by
  have hdata := foldl_nibbles_lt _ (sentNibble_lt h) (List.range 6) 0
  simp only [List.length_range] at hdata
  simp only [Fld.getN, FBC_SENTFAST.SCN, State.sentWord, Nat.shiftRight_eq_div_pow]
  omega

/-! ### The slow channel (R146) -/

/-- The channel with these serial bits of a message in progress. -/
def State.withSerial (s : State) (n : Nat) (l : List (Bool × Bool)) : State := s.setFb n { s.fb n with serial := l }

/-- A frame's serial bits are left out, or join the message in progress, or end it: a good one is FBC_SENTSLOWn, another one counts. -/
theorem slowStep_cases (s : State) (n scn : Nat) : s.slowStep n scn = s ∨ ∃ l, s.slowStep n scn = s.withSerial n l ∨
    (∃ v, s.slowStep n scn = (s.withSerial n l).setN (FBC_SENTSLOW.adr n) v) ∨
    s.slowStep n scn = ((s.withSerial n l).incSat (FBC_SENTCNT.CRCERR n)).raiseEv 98 n := by
  unfold State.slowStep
  by_cases hm : s.rf (FBC_SENTCFG.SERIAL n) = 0
  · exact .inl (if_pos hm)
  · refine .inr ?_
    dsimp only
    rw [if_neg hm]
    split
    · exact ⟨_, .inl rfl⟩
    · split
      · exact ⟨[], .inr (.inl ⟨_, rfl⟩)⟩
      · exact ⟨[], .inr (.inr rfl)⟩

theorem slowStep_regsBut (s : State) (n scn : Nat) : RegsBut [whole (FBC_SENTSLOW.adr n), FBC_SENTCNT.CRCERR n] s (s.slowStep n scn) := by
  rcases slowStep_cases s n scn with h | ⟨l, h | ⟨v, h⟩ | h⟩ <;> rw [h]
  · exact .refl _ s
  · exact (RegsBut.refl _ s).setFb
  · exact (RegsBut.refl _ s).setFb.setN (by simp)
  · exact ((RegsBut.refl _ s).setFb.incSat (by simp)).raiseEv

theorem slowStep_only (s : State) (n scn : Nat) : ChannelsOnly s (s.slowStep n scn) := by
  rcases slowStep_cases s n scn with h | ⟨l, h | ⟨v, h⟩ | h⟩ <;> rw [h]
  · exact .refl
  · exact ChannelsOnly.refl.setFb
  · exact ChannelsOnly.refl.setFb.regsOnly RegsOnly.refl.setN
  · exact (ChannelsOnly.refl.setFb.regsOnly RegsOnly.refl.incSat).raiseEv

theorem slowStep_validAt (s : State) (n scn : Nat) : ((s.slowStep n scn).fb n).validAt = (s.fb n).validAt := by
  rcases slowStep_cases s n scn with h | ⟨l, h | ⟨v, h⟩ | h⟩ <;> rw [h]
  · rw [State.withSerial, fb_setFb_same]
  · rw [fb_setN, State.withSerial, fb_setFb_same]
  · rw [fb_raiseEv, fb_incSat, State.withSerial, fb_setFb_same]

/-! ### What a good frame comes to -/

theorem sentRef_fb (s : State) (n : Nat) (p : List Nat) :
    (s.sentRef n p).fb n = { s.fb n with prevCal := some (p.headD 0), prevLen := p.foldl (· + ·) 0 } := fb_setFb_same _ _ _

theorem sentRegs_only (s : State) (n : Nat) (p : List Nat) : RegsOnly s (s.sentRegs n p) := RegsOnly.refl.setN.wb.wf.wb

theorem sentRegs_now (s : State) (n : Nat) (p : List Nat) : (s.sentRegs n p).now = s.now := by
  obtain ⟨r, h⟩ := sentRegs_only s n p
  rw [h]

/-- The frame taken, its serial bits too. -/
def State.sentGood (s : State) (n : Nat) (p : List Nat) : State := ((s.sentValue n p).slowStep n (sentStatus p)).sentRef n p

theorem sentRef_validAt (s : State) (n : Nat) (p : List Nat) : ((s.sentRef n p).fb n).validAt = (s.fb n).validAt := by rw [sentRef_fb]

theorem sentGood_validAt (s : State) (n : Nat) (p : List Nat) : ((s.sentGood n p).fb n).validAt = s.now := by
  rw [State.sentGood, sentRef_validAt, slowStep_validAt, State.sentValue, heardAt_validAt, sentRegs_now]

theorem sentGood_only (s : State) (n : Nat) (p : List Nat) : ChannelsOnly s (s.sentGood n p) :=
  (((ChannelsOnly.refl.regsOnly (sentRegs_only s n p)).setFb).trans (slowStep_only _ n _)).setFb

/-- The frame's registers stand whatever its serial bits end. -/
theorem sentGood_slow (s : State) (n : Nat) (p : List Nat) :
    RegsBut [whole (FBC_SENTSLOW.adr n), FBC_SENTCNT.CRCERR n] (s.sentRegs n p) (s.sentGood n p) :=
  ((RegsBut.refl _ _).setFb.trans (slowStep_regsBut (s.sentValue n p) n _)).setFb

theorem sentGood_stat {f : Fld} (s : State) (p : List Nat) (ha : f.adr = FBC_STAT.adr n ∨ f.adr = FBC_SENTFAST.adr n) (hf : f.lo + f.wd ≤ 32) :
    (s.sentGood n p).rf f = (s.sentRegs n p).rf f :=
  rf_of_regsBut_ne (sentGood_slow s n p) hf (by
    simp only [List.forall_mem_cons, whole, FBC_SENTCNT.CRCERR, FBC_SENTCNT.adr, FBC_SENTSLOW.adr]
    simp only [FBC_STAT.adr, FBC_SENTFAST.adr] at ha
    exact ⟨by omega, by omega, by simp⟩)

theorem sentGood_regsBut (s : State) (n : Nat) (p : List Nat) : RegsBut [whole (FBC_SENTFAST.adr n), FBC_STAT.SENTVALID n,
    FBC_STAT.SENTAGE n, FBC_STAT.LOSS n, whole (FBC_SENTSLOW.adr n), FBC_SENTCNT.CRCERR n] s (s.sentGood n p) :=
  (((((RegsBut.refl _ s).setN (by simp)).wb (by simp)).wf (by simp)).wb (by simp)).trans ((sentGood_slow s n p).mono (by simp))

theorem sentRegs_loss (s : State) (n : Nat) (p : List Nat) : (s.sentRegs n p).rf (FBC_STAT.LOSS n) = 0 :=
  rf_wf_same _ _ _ (Nat.le_of_ble_eq_true rfl)

theorem sentRegs_age (s : State) (n : Nat) (p : List Nat) : (s.sentRegs n p).rf (FBC_STAT.SENTAGE n) = 0 :=
  (rf_wf_beside _ _ _ _ (.inr (Nat.le_of_ble_eq_true rfl)) (Nat.le_of_ble_eq_true rfl)).trans (rf_wf_same _ _ _ (Nat.le_of_ble_eq_true rfl))

theorem sentRegs_valid (s : State) (n : Nat) (p : List Nat) : (s.sentRegs n p).rf (FBC_STAT.SENTVALID n) = 1 :=
  (rf_wf_beside _ _ _ _ (.inl (Nat.le_of_ble_eq_true rfl)) (Nat.le_of_ble_eq_true rfl)).trans
    ((rf_wf_beside _ _ _ _ (.inl (Nat.le_of_ble_eq_true rfl)) (Nat.le_of_ble_eq_true rfl)).trans
      (rf_wf_same _ _ _ (Nat.le_of_ble_eq_true rfl)))

theorem fast_ne_stat (n : Nat) : FBC_SENTFAST.adr n ≠ FBC_STAT.adr n := by unfold FBC_SENTFAST.adr FBC_STAT.adr; omega

theorem sentRegs_scn (h : s.sentCheck n p = 0) : (s.sentRegs n p).rf (FBC_SENTFAST.SCN n) = sentStatus p % 16 := by
  have hstat : RegsBut [whole (FBC_STAT.adr n)] (s.setN (FBC_SENTFAST.adr n) (s.sentWord n p)) (s.sentRegs n p) :=
    (((RegsBut.refl _ _).setN (by simp [FBC_STAT.SENTVALID])).setN (by simp [FBC_STAT.SENTAGE])).setN (by simp [FBC_STAT.LOSS])
  rw [rf_of_regsBut_ne hstat (Nat.le_of_ble_eq_true rfl) (List.forall_mem_singleton.2 (fast_ne_stat n)),
    rf_setN _ _ _ _ (Nat.le_of_ble_eq_true rfl), if_pos (show (FBC_SENTFAST.SCN n).adr = FBC_SENTFAST.adr n from rfl), sentWord_scn h]

/-! ### What a frame that fails comes to (R144, R145) -/

/-- The check's count is one more, and its event is raised. -/
structure SentFault (n r : Nat) (s t : State) : Prop where
  format : r = 1 → t.rf (FBC_SENTCNT.FMTERR n) = min (s.rf (FBC_SENTCNT.FMTERR n) + 1) 65535 ∧
    t.rf (FBC_SENTCNT.CRCERR n) = s.rf (FBC_SENTCNT.CRCERR n) ∧ Raised s t 101 n
  crc : r ≠ 1 → t.rf (FBC_SENTCNT.CRCERR n) = min (s.rf (FBC_SENTCNT.CRCERR n) + 1) 65535 ∧
    t.rf (FBC_SENTCNT.FMTERR n) = s.rf (FBC_SENTCNT.FMTERR n) ∧ Raised s t 98 n
  regs : RegsBut [FBC_SENTCNT.FMTERR n, FBC_SENTCNT.CRCERR n] s t
  only : ChannelsOnly s t

theorem sentAged_age (s : State) (n : Nat) (c : ChanFb) (p : List Nat) :
    ((s.sentAged n c).sentRef n p).rf (FBC_STAT.SENTAGE n) = min (s.rf (FBC_STAT.SENTAGE n) + 1) 255 :=
  rf_incSat_same s _ (Nat.le_of_ble_eq_true rfl)

theorem Raised.of_tly {src d : Nat} (h : Raised s t src d) (ht : u.tly = t.tly) : Raised s u src d := by
  rw [Raised, ht]
  exact h

theorem sentAged_tly (s : State) (n : Nat) (c : ChanFb) (p : List Nat) : ((s.sentAged n c).sentRef n p).tly = s.tly := by
  obtain ⟨r, h⟩ : RegsOnly s (s.incSat (FBC_STAT.SENTAGE n)) := RegsOnly.refl.incSat
  rw [State.sentAged, h]
  rfl

theorem incSat_raised (s : State) (f : Fld) (src d : Nat) : Raised s ((s.incSat f).raiseEv src d) src d := by
  obtain ⟨r, h⟩ : RegsOnly s (s.incSat f) := RegsOnly.refl.incSat
  rw [h]
  rfl

theorem sentAged_cnt {f : Fld} {c : ChanFb} (ha : f.adr = FBC_SENTCNT.adr n) (hf : f.lo + f.wd ≤ 32) : ((s.sentAged n c).sentRef n p).rf f = s.rf f :=
  rf_of_regsBut_ne ((RegsBut.refl [FBC_STAT.SENTAGE n] s).incSat (by simp)).setFb.setFb hf
    (List.forall_mem_singleton.2 (ha ▸ sentcnt_ne_stat n))

theorem sentFault_fault (s : State) (n r : Nat) : SentFault n r s (s.sentFault n r) := by
  unfold State.sentFault
  split
  · next h =>
    refine ⟨fun _ => ⟨?_, ?_, incSat_raised _ _ _ _⟩, fun hr => absurd h hr, ((RegsBut.refl _ s).incSat (by simp)).raiseEv,
      (ChannelsOnly.refl.regsOnly RegsOnly.refl.incSat).raiseEv⟩
    · rw [raiseEv_rf, rf_incSat_same _ _ (Nat.le_of_ble_eq_true rfl)]
      rfl
    · rw [raiseEv_rf, incSat_eq, rf_wf_beside _ _ _ _ (.inl (Nat.le_of_ble_eq_true rfl)) (Nat.le_of_ble_eq_true rfl)]
  · next h =>
    refine ⟨fun hr => absurd hr h, fun _ => ⟨?_, ?_, incSat_raised _ _ _ _⟩, ((RegsBut.refl _ s).incSat (by simp)).raiseEv,
      (ChannelsOnly.refl.regsOnly RegsOnly.refl.incSat).raiseEv⟩
    · rw [raiseEv_rf, rf_incSat_same _ _ (Nat.le_of_ble_eq_true rfl)]
      rfl
    · rw [raiseEv_rf, incSat_eq, rf_wf_beside _ _ _ _ (.inr (Nat.le_of_ble_eq_true rfl)) (Nat.le_of_ble_eq_true rfl)]

/-! ### No frame for SENTTO (R147) -/

/-- The tick reference and the message in progress lost, LOSS set and 99 raised; the speed is not yet unprimed. -/
def State.sentLost (s : State) (n : Nat) : State :=
  (((s.setFb n { s.fb n with prevCal := none, serial := [] }).wb (FBC_STAT.SENTVALID n) false).wb (FBC_STAT.LOSS n) true).raiseEv 99 n

theorem sentTimeout_next {n : Fin 16} (hc : (s.on && s.fbUse n && s.rf (FBC_CFG.MODE n) == fbSent && !s.rb (FBC_STAT.LOSS n)
      && decide ((s.fb n).validAt + s.rf (FBC_SENTCFG.SENTTO n) * 100000 ≤ s.now)) = true) :
    exec (.sentTimeout n) s = .next ((s.sentLost n).unprimeSpeed n) := by
  change execSentTimeout n s = _
  rw [execSentTimeout]
  exact whenB_true hc _

theorem sentLost_fb (s : State) (n : Nat) : (s.sentLost n).fb n = { s.fb n with prevCal := none, serial := [] } :=
  (fb_raiseEv _ _ _ _).trans ((fb_wb _ _ _ _).trans ((fb_wb _ _ _ _).trans (fb_setFb_same _ _ _)))

theorem sentLost_only (s : State) (n : Nat) : ∃ r c, s.sentLost n = { s with regs := r, fbc := c }.raiseEv 99 n := by
  obtain ⟨q, hq⟩ : RegsOnly (s.setFb n { s.fb n with prevCal := none, serial := [] }) _ :=
    (RegsOnly.refl.wb (g := FBC_STAT.SENTVALID n) (v := false)).wb (g := FBC_STAT.LOSS n) (v := true)
  exact ⟨q, _, by rw [State.sentLost, hq]; rfl⟩

theorem sentLost_regsBut (s : State) (n : Nat) : RegsBut [FBC_STAT.SENTVALID n, FBC_STAT.LOSS n] s (s.sentLost n) :=
  (((RegsBut.refl _ s).setFb.wb (by simp)).wb (by simp)).raiseEv

theorem sentLost_loss (s : State) (n : Nat) : (s.sentLost n).rf (FBC_STAT.LOSS n) = 1 :=
  (raiseEv_rf _ _ _ _).trans (rf_wf_same _ _ _ (Nat.le_of_ble_eq_true rfl))

theorem sentLost_valid (s : State) (n : Nat) : (s.sentLost n).rf (FBC_STAT.SENTVALID n) = 0 :=
  (raiseEv_rf _ _ _ _).trans ((rf_wf_beside _ _ _ _ (.inl (Nat.le_of_ble_eq_true rfl)) (Nat.le_of_ble_eq_true rfl)).trans
    (rf_wf_same _ _ _ (Nat.le_of_ble_eq_true rfl)))

end Sys2Proof.Machine
end

section
/-! PROOF. Presets, cleared suspicions and SENT frames (R133, R137, R138, R144 to R147). -/

namespace Sys2Proof.Machine

/-- A preset takes the step of its own sample with it. -/
theorem preset_stepped {s : State} (a : Nat) (up : Bool) : ofSigned 32 ((s.rn a : Int) + unitStep up) =
    if up then (s.rn a + 1) % 2 ^ 32 else if s.rn a = 0 then 2 ^ 32 - 1 else s.rn a - 1 := by
  rw [ofSigned_unitStep, Nat.mod_eq_of_lt (rn_lt s a)]

theorem presetSample_fields (n : Nat) : ∀ g ∈ [whole (FBC_POS.adr n), whole (FBC_POSHI.adr n), FBC_STAT.REF n, FBC_STAT.SUSPECT n,
    FBC_STAT.WRAPUP n, FBC_STAT.WRAPDN n], g ∈ [FBC_LEVEL.LVL n, FBC_LEVEL.SECT n, whole (FBC_POS.adr n), whole (FBC_POSHI.adr n),
    whole (FBC_STAT.adr n), whole (FBC_SPEED.adr n)] ∨ (whole g.adr ∈ [FBC_LEVEL.LVL n, FBC_LEVEL.SECT n, whole (FBC_POS.adr n),
    whole (FBC_POSHI.adr n), whole (FBC_STAT.adr n), whole (FBC_SPEED.adr n)] ∧ g.lo + g.wd ≤ 32) := by
  simp [FBC_STAT.REF, FBC_STAT.SUSPECT, FBC_STAT.WRAPUP, FBC_STAT.WRAPDN]

/-- Settles O8: a preset that waits is loaded by the next sample; a SENT frame sets the reference, the value, or a count. -/
theorem feedbackCommandsAndSent : Obligations.FeedbackCommandsAndSent := by
  refine ⟨?waits, ?sampled, ?preset, ?presetStep, ?clrsusp, ?read, ?first, ?good, ?bad, ?timeout⟩
  case waits =>
    intro s req n hon hw
    exact ⟨_, fbcPreset_next hon hw, by rw [State.presetWrite, fb_setFb_same]⟩
  case sampled =>
    intro s req n hon hw hs
    exact ⟨_, fbcPreset_next hon hw, by rw [State.presetWrite, fbCatch_sampled hs]⟩
  case preset =>
    intro s n a b z hon hs hvio huse hmode hknown hp hz heq
    obtain ⟨u, ht, he⟩ := levelChange_presetStill (a := a) (b := b) (z := z) ⟨⟨huse, hmode, hknown⟩, hon, hs, hvio⟩ hp (heq ▸ hz) heq
    have hwaits : ((u.noted n (u.rf (FBC_LEVEL.LVL n))).fb n).preset = true := by rw [ht.noted_fb hknown, ht.preset_eq, hp]
    have hpreset := presetApply_preset hwaits 0
    have hreg : (u.noted n (u.rf (FBC_LEVEL.LVL n))).rn (FBC_PRESET.adr n) = s.rn (FBC_PRESET.adr n) :=
      rn_of_regsBut (ht.noted_regsBut _) fun g hg => Nat.ne_of_lt (level_above n g hg)
    have hraw : (((u.noted n (u.rf (FBC_LEVEL.LVL n))).presetApply n 0).fb n).raw = s.rn (FBC_PRESET.adr n) := by
      rw [hpreset.raw_eq, hreg, Int.add_zero, ofSigned_nat (rn_lt _ _)]
    obtain ⟨r, c, hframe⟩ := presetApply_zero_only hwaits
    obtain ⟨r', c', hnoted⟩ := noted_only u n (u.rf (FBC_LEVEL.LVL n))
    refine ⟨_, he, hpreset.pos_eq.trans hraw, (zIdle_raw _ _).trans hraw, ?_, presetApply_zero_poshi hwaits, hpreset.ref_eq,
      hpreset.suspect_eq, zIdle_regsBut ?_, ?_⟩
    · rw [State.zIdle, fb_setFb_same, hpreset.preset_eq]
    · exact ((ht.regsBut _).trans ((noted_same_regsBut u n).mono (by simp))).trans ((presetApply_zero_regsBut hwaits).mono (by simp))
    · rw [hframe, hnoted, ht.frame]
      rfl
  case presetStep =>
    intro s n a b z hon hs hvio huse hmode hknown hp hz hall hone hw
    obtain ⟨u, v, ht, hlegal, -, he⟩ := levelChange_legal ⟨⟨huse, hmode, hknown⟩, hon, hs, hvio⟩ hw hz hall hone
    have hwaits : (v.fb n).preset = true := by rw [hlegal.preset_eq, ht.noted_fb hknown, ht.preset_eq, hp]
    have hpreset := presetApply_preset hwaits (unitStep (s.stepUp n (s.newLevels n a b z)))
    have hreg : v.rn (FBC_PRESET.adr n) = s.rn (FBC_PRESET.adr n) :=
      (rn_of_regsBut hlegal.regs fun g hg => Nat.ne_of_lt (legal_above n g hg)).trans
        (rn_of_regsBut (ht.noted_regsBut _) fun g hg => Nat.ne_of_lt (level_above n g hg))
    refine ⟨_, he, ?_, hpreset.pos_eq.trans (zIdle_raw _ _).symm, ?_, hpreset.ref_eq, hpreset.suspect_eq, zIdle_regsBut ?_⟩
    · rw [zIdle_raw, hpreset.raw_eq, hreg, preset_stepped]
      rfl
    · rw [State.zIdle, fb_setFb_same, hpreset.preset_eq]
    · exact (((ht.noted_regsBut _).mono (by simp)).trans (hlegal.regs.widen (legalSample_fields n))).trans
        (hpreset.regs.widen (presetSample_fields n))
  case clrsusp =>
    intro s req n hon hw
    obtain ⟨r, h⟩ : RegsOnly s (s.wb (FBC_STAT.SUSPECT n) false) := RegsOnly.refl.wb
    exact ⟨_, fbcClrsusp_next hon hw, rf_wf_same _ _ _ (Nat.le_of_ble_eq_true rfl), (RegsBut.refl _ s).wb (by simp), by rw [h]⟩
  case read =>
    intro s req n hon
    exact ⟨_, fbcPosRead_next hon req n, rfl, mget_mset_same _ _ _ _, rfl⟩
  case first =>
    intro s n p hon huse hvio hmode hc
    exact ⟨_, sentFrame_first ⟨hon, huse, hvio, hmode⟩ hc p, by rw [sentRef_fb], (RegsBut.refl _ s).setFb, rfl⟩
  case good =>
    intro s n p cal hon huse hvio hmode hc hr
    refine ⟨s.sentGood n p, sentFrame_good ⟨hon, huse, hvio, hmode⟩ (by rw [hc]; rfl) hr, ?_, ?_, ?_, sentGood_validAt s n p,
      by rw [State.sentGood, sentRef_fb], ?_, sentGood_regsBut s n p, (sentGood_only s n p).frame⟩
    · rw [sentGood_stat s p (.inl rfl) (Nat.le_of_ble_eq_true rfl), sentRegs_valid]
    · rw [sentGood_stat s p (.inl rfl) (Nat.le_of_ble_eq_true rfl), sentRegs_age]
    · rw [sentGood_stat s p (.inl rfl) (Nat.le_of_ble_eq_true rfl), sentRegs_loss]
    · rw [sentGood_stat s p (.inr rfl) (Nat.le_of_ble_eq_true rfl), sentRegs_scn hr, sentStatus]
  case bad =>
    intro s n p hon huse hvio hmode hc hr
    have hfault := sentFault_fault s n (s.sentCheck n p)
    refine ⟨_, sentFrame_bad ⟨hon, huse, hvio, hmode⟩ (Option.isNone_eq_false_iff.2 (Option.isSome_iff_ne_none.2 hc)) hr, fun h => ?_,
      fun h => ?_, ?_, ?_, ?_⟩
    · obtain ⟨hfmt, hcrc, hraised⟩ := hfault.format h
      exact ⟨(sentAged_cnt rfl (Nat.le_of_ble_eq_true rfl)).trans hfmt,
        (sentAged_cnt rfl (Nat.le_of_ble_eq_true rfl)).trans hcrc, hraised.of_tly (sentAged_tly _ _ _ _)⟩
    · obtain ⟨hcrc, hfmt, hraised⟩ := hfault.crc h
      exact ⟨(sentAged_cnt rfl (Nat.le_of_ble_eq_true rfl)).trans hcrc,
        (sentAged_cnt rfl (Nat.le_of_ble_eq_true rfl)).trans hfmt, hraised.of_tly (sentAged_tly _ _ _ _)⟩
    · rw [sentAged_age, rf_of_regsBut_ne hfault.regs (Nat.le_of_ble_eq_true rfl) (by
        simpa [FBC_SENTCNT.FMTERR, FBC_SENTCNT.CRCERR, FBC_STAT.SENTAGE] using (sentcnt_ne_stat n).symm)]
    · exact ((hfault.regs.mono (by simp)).incSat (by simp)).setFb.setFb
    · exact (hfault.only.regsOnly RegsOnly.refl.incSat).setFb.setFb.frame
  case timeout =>
    intro s n hon huse hmode hl hlate
    have hu := unprimeSpeed_regsBut (s.sentLost n) n
    obtain ⟨r, c, hlost⟩ := sentLost_only s n
    obtain ⟨r', c', hframe⟩ := unprimeSpeed_only (s.sentLost n) n
    have hstat {f : Fld} (ha : f.adr = FBC_STAT.adr n) (hf : f.lo + f.wd ≤ 31) :
        ((s.sentLost n).unprimeSpeed n).rf f = (s.sentLost n).rf f :=
      hu f (by omega) (List.forall_mem_cons.2 ⟨.inr (.inl hf), List.forall_mem_singleton.2 (.inl (ha ▸ stat_ne_speed n))⟩)
    refine ⟨_, sentTimeout_next (by simp [hon, huse, hmode, hl, Nat.mul_comm _ 100000, hlate]),
      (hstat rfl (Nat.le_of_ble_eq_true rfl)).trans (sentLost_valid s n), (hstat rfl (Nat.le_of_ble_eq_true rfl)).trans (sentLost_loss s n),
      unprimeSpeed_spvalid _ _, unprimeSpeed_speed _ _, ?_, ?_, ((sentLost_regsBut s n).mono (by simp)).trans (hu.mono (by simp)), ?_⟩
    · rw [Raised, hframe, hlost]
      rfl
    · rw [unprimeSpeed_fb, sentLost_fb]
    · rw [hframe, hlost]
      rfl

end Sys2Proof.Machine
end
